-- ==== Sys2Proof/Word.lean ====
section
/-! DEFINITION. The word types of the module. -/

namespace Sys2Proof

/-- A register, a counter, an index register: 64 bits, little-endian in memory (R12). -/
abbrev Word := BitVec 64

/-- A byte. -/
abbrev Byte := BitVec 8

/-- A descriptor: 128 bits, bits [63:0] at the lower address (R34). -/
abbrev Desc := BitVec 128

/-- The bits of an FP32 value. -/
abbrev F32 := BitVec 32

end Sys2Proof
end

