-- ==== Sys2Proof/Syntax.lean ====
section
/-! DEFINITION. The commands: one constructor for each row of the table of operations and events. -/

namespace Sys2Proof

/-- A flit as it arrives: its header (Table 10.7), its 240 payload bytes (a shorter list stands for zeros behind it), its
CRC-32C (R260). -/
structure WireFlit where
  hdr : BitVec 96
  payload : List Byte
  crc : BitVec 32
  deriving DecidableEq, Repr

/-- A segment of the rows or the columns of a shard, as the compiled passes of R204 address it: its first row or column in the shard,
its length, the physical offset of its root slot pair (R179), the number of its block's fallback pair (Table 7.12). -/
structure RootSeg where
  first : Nat
  len : Nat
  slot : Nat
  fallback : Nat
  deriving DecidableEq, Repr

/-- Part of a row mask of a shard (R202): set bits name groups of 32 weight-gradient rows of the layer, and `first` is the row of the layer
that is row 0 of the shard. -/
structure RowMask where
  shard : Nat
  first : Nat
  groups : List Nat
  deriving DecidableEq, Repr

/-- What a shard packet brings beside its bytes: the granules (shard, granule) whose gradient it carries (R201) and its row masks (R202). -/
structure PacketMarks where
  granules : List (Nat × Nat)
  masks : List RowMask
  deriving DecidableEq, Repr

/-- A DOP frame behind its addresses (Table 14.1): whether it has an IEEE 802.1Q tag, and the PDU. -/
structure DopFrame where
  tagged : Bool
  pdu : List Byte
  deriving DecidableEq, Repr

/-- The overflow bitmap of a layer a shard belongs to (R121, R157): its physical offset, its token rows and its groups in a row. -/
structure OvfMap where
  shard : Nat
  first : Nat
  base : Nat
  rows : Nat
  groups : Nat
  deriving DecidableEq, Repr

/-- A destination range a compiled publication table names (R337), as F1 reads it: bytes [first, first + len) of the live slot of shard
`shard`, converted as the table directs to `bytes` bytes, go to offset `offset` of the target slot of module `coord`, which lies at offset
`base` of the target context there and has `size` bytes. -/
structure PubPart where
  shard : Nat
  first : Nat
  len : Nat
  bytes : Nat
  coord : Nat
  base : Nat
  size : Nat
  offset : Nat
  deriving DecidableEq, Repr

/-- A configuration request of the host (R316, Table 12.1): a read or a write of a dword of configuration space, or a write of a setting by
its name. -/
inductive ConfigReq
  | read (dword : Fin 1024)
  | write (dword : Fin 1024) (value : BitVec 32)
  | power (d3hot : Bool)
  | maxPayload (bytes : Nat)
  | maxRead (bytes : Nat)
  deriving DecidableEq, Repr

/-- A read of host memory by the module that gets no completion in time: of an intake chunk, of a slow-tier granule, of a runtime
image. -/
inductive HostRead
  | chunk (r : Fin 9) (k n : Nat)
  | slow (c : Fin 8) (i g : Nat)
  | image
  deriving DecidableEq, Repr

/-- What a write of the object dictionary may meet outside the module's state: the `.PKG` files of a card in the socket (R472); the tiles whose
datapath a self-test rerun finds failed, and the dies whose group-scale path (R100). -/
structure Around where
  files : List (List Byte) := []
  failed : List Nat := []
  scale : BitVec 4 := 0
  deriving DecidableEq, Repr

/-- What a restart of the Ronbin block meets outside the module's state: whether the calibration conversion of a trial image, if it needs one, has
gone well (R474); the `.PKG` files of a card in the socket, for ROM recovery mode (R478). -/
structure Restart where
  converted : Bool := true
  files : List (List Byte) := []
  deriving DecidableEq, Repr

/-- A command to the module. Each constructor is one row of the table; its operands are what the outside supplies. -/
inductive Instr
  /-- R37: Descriptor that copies LEN bytes into Meadow from Meadow, Thermos or a remote module. -/
  | load (t : Fin 256) (n : Fin 16) (w : Desc)
  /-- R37: Descriptor that copies ROWS rows of LEN bytes with source and destination row strides. -/
  | load2d (t : Fin 256) (n : Fin 16) (w : Desc)
  /-- R87: Descriptor that copies a source shape into the skewed array panel layout using XFORM 0x4 to 0x7. -/
  | loadPanel (t : Fin 256) (n : Fin 16) (w : Desc)
  /-- R37: Descriptor that copies LEN bytes outward from this tile's Meadow. -/
  | store (t : Fin 256) (n : Fin 16) (w : Desc)
  /-- R37: Descriptor that stores rows with strides, the 2-D form of STORE. -/
  | store2d (t : Fin 256) (n : Fin 16) (w : Desc)
  /-- R37: Descriptor that writes LEN bytes of a 32-bit pattern taken from an index register. -/
  | fill (t : Fin 256) (n : Fin 16) (w : Desc)
  /-- R72: Descriptor that collects the elements named by a u32 index list, checking the extent element by element. -/
  | gather (t : Fin 256) (n : Fin 16) (w : Desc)
  /-- R72: Descriptor that distributes elements to the places named by a u32 index list. -/
  | scatter (t : Fin 256) (n : Fin 16) (w : Desc)
  /-- R37: Descriptor that adds FP32 elements atomically into the listed places. -/
  | scatterAdd (t : Fin 256) (n : Fin 16) (w : Desc)
  /-- R31: Descriptor that claims the array and zeroes or loads the accumulators, preempting a lower-PRIO holder when issued at PRIO 3. -/
  | mmaStart (t : Fin 256) (n : Fin 16) (w : Desc)
  /-- R83: Descriptor that runs K outer-product steps into the claimed accumulators, with group-scale folds. -/
  | mmaStep (t : Fin 256) (n : Fin 16) (w : Desc)
  /-- R93: Descriptor that converts and writes the accumulators row by row and then releases the array. -/
  | mmaUnload (t : Fin 256) (n : Fin 16) (w : Desc)
  /-- R40: VEC sub-operation that copies s0 to D with format conversion. -/
  | copy (t : Fin 256) (n : Fin 16) (w : Desc)
  /-- R40: VEC sub-operation that computes s0 + s1. -/
  | add (t : Fin 256) (n : Fin 16) (w : Desc)
  /-- R40: VEC sub-operation that computes s0 - s1. -/
  | sub (t : Fin 256) (n : Fin 16) (w : Desc)
  /-- R40: VEC sub-operation that computes s0 * s1. -/
  | mul (t : Fin 256) (n : Fin 16) (w : Desc)
  /-- R40: VEC sub-operation that computes the fused s0 * s1 + s2 with one rounding. -/
  | fma (t : Fin 256) (n : Fin 16) (w : Desc)
  /-- R40: VEC sub-operation that computes IMM * s0 + IMM2 * s1 with two roundings. -/
  | axpby (t : Fin 256) (n : Fin 16) (w : Desc)
  /-- R40: VEC sub-operation that computes IMM * s0. -/
  | scale (t : Fin 256) (n : Fin 16) (w : Desc)
  /-- R501: VEC sub-operation that computes max(s0, s1), NaN-propagating, with -0 below +0. -/
  | max (t : Fin 256) (n : Fin 16) (w : Desc)
  /-- R501: VEC sub-operation that computes min(s0, s1), NaN-propagating. -/
  | min (t : Fin 256) (n : Fin 16) (w : Desc)
  /-- R501: VEC sub-operation that computes the absolute value of s0. -/
  | abs (t : Fin 256) (n : Fin 16) (w : Desc)
  /-- R501: VEC sub-operation that writes -1, 0 or +1 by the sign of s0. -/
  | sign (t : Fin 256) (n : Fin 16) (w : Desc)
  /-- R501: VEC sub-operation that computes max(s0, 0). -/
  | relu (t : Fin 256) (n : Fin 16) (w : Desc)
  /-- R40: VEC sub-operation that computes s0, or IMM * s0 when s0 is negative. -/
  | leakyRelu (t : Fin 256) (n : Fin 16) (w : Desc)
  /-- R502: VEC sub-operation that computes tanh s0 within 2 ulp. -/
  | tanh (t : Fin 256) (n : Fin 16) (w : Desc)
  /-- R502: VEC sub-operation that computes the logistic function of s0 within 2 ulp. -/
  | sigmoid (t : Fin 256) (n : Fin 16) (w : Desc)
  /-- R502: VEC sub-operation that computes the ELU of s0 with parameter IMM. -/
  | elu (t : Fin 256) (n : Fin 16) (w : Desc)
  /-- R152: VEC sub-operation that computes the heath-gate, x for x >= 0 and x/(1-x) otherwise, correctly rounded. -/
  | heathGate (t : Fin 256) (n : Fin 16) (w : Desc)
  /-- R502: VEC sub-operation that computes the tanh-form GELU of s0. -/
  | gelu (t : Fin 256) (n : Fin 16) (w : Desc)
  /-- R502: VEC sub-operation that computes s0 * sigmoid(s0). -/
  | silu (t : Fin 256) (n : Fin 16) (w : Desc)
  /-- R502: VEC sub-operation that computes e to the power s0. -/
  | exp (t : Fin 256) (n : Fin 16) (w : Desc)
  /-- R502: VEC sub-operation that computes the correctly rounded 1/s0. -/
  | recip (t : Fin 256) (n : Fin 16) (w : Desc)
  /-- R502: VEC sub-operation that computes the correctly rounded 1/sqrt(s0). -/
  | rsqrt (t : Fin 256) (n : Fin 16) (w : Desc)
  /-- R40: VEC sub-operation that writes the maximum of each row of IMM2 elements. -/
  | rowMax (t : Fin 256) (n : Fin 16) (w : Desc)
  /-- R40: VEC sub-operation that sums each row in ascending order with a 40-bit significand. -/
  | rowSum (t : Fin 256) (n : Fin 16) (w : Desc)
  /-- R40: VEC sub-operation that sums the exact squares of each row with a 40-bit significand. -/
  | rowSumsq (t : Fin 256) (n : Fin 16) (w : Desc)
  /-- R151: VEC sub-operation that multiplies the gradient s1 by the derivative taken from the saved value s0. -/
  | deriv (t : Fin 256) (n : Fin 16) (w : Desc)
  /-- R128: VEC sub-operation that rounds FP32 to BF16 stochastically with sr_random bits keyed from s1. -/
  | srBf16 (t : Fin 256) (n : Fin 16) (w : Desc)
  /-- R123: VEC sub-operation that quantises to a narrow format with group scales, calibrating or recording saturated groups. -/
  | quant (t : Fin 256) (n : Fin 16) (w : Desc)
  /-- R126: VEC sub-operation that dequantises group-scaled narrow elements to FP32 or BF16. -/
  | dequant (t : Fin 256) (n : Fin 16) (w : Desc)
  /-- R40: VEC sub-operation that writes s1 where s0 is nonzero and s2 elsewhere. -/
  | select (t : Fin 256) (n : Fin 16) (w : Desc)
  /-- R40: VEC sub-operation that sets FLAG_NAN on a non-finite s0 and sets or clears FLAG_USR. -/
  | check (t : Fin 256) (n : Fin 16) (w : Desc)
  /-- R44: SIGNAL that adds v to an object's counter with release. -/
  | signalAdd (t : Fin 256) (n : Fin 16) (w : Desc)
  /-- R44: SIGNAL that sets an object's counter to v with release. -/
  | signalSet (t : Fin 256) (n : Fin 16) (w : Desc)
  /-- R44: SIGNAL that sets the counter to max(count, v). -/
  | signalMax (t : Fin 256) (n : Fin 16) (w : Desc)
  /-- R44: SIGNAL that sets the counter to min(count, v). -/
  | signalMin (t : Fin 256) (n : Fin 16) (w : Desc)
  /-- R44: SIGNAL that ORs v into the counter. -/
  | signalOr (t : Fin 256) (n : Fin 16) (w : Desc)
  /-- R44: SIGNAL that ANDs v into the counter. -/
  | signalAnd (t : Fin 256) (n : Fin 16) (w : Desc)
  /-- R44: SIGNAL that sets every payload word to the identity of reduction v[3:0]. -/
  | signalArm (t : Fin 256) (n : Fin 16) (w : Desc)
  /-- R45: Descriptor that waits with acquire until an object's counter satisfies a condition. -/
  | wait (t : Fin 256) (n : Fin 16) (w : Desc)
  /-- R45: Expiry of 2^TMO TCLK without the condition ends the WAIT and sets FLAG_TMO. -/
  | waitTimeout (t : Fin 256) (n : Fin 16)
  /-- R48: Every 1 us a WAIT refused for a full watch table re-sends its watch request. -/
  | watchRetry (t : Fin 256) (n : Fin 16)
  /-- R47: Descriptor that combines payload words into an object's slot and adds 1, indivisibly, with release. -/
  | arrive (t : Fin 256) (n : Fin 16) (w : Desc)
  /-- R54: Descriptor that completes when the thread has no outstanding descriptor. -/
  | fence (t : Fin 256) (n : Fin 16) (w : Desc)
  /-- R49: Descriptor that reads an object's counter relaxed into an index register. -/
  | syncRead (t : Fin 256) (n : Fin 16) (w : Desc)
  /-- R38: Descriptor that runs its body COUNT times and applies the index increments after each pass. -/
  | loop (t : Fin 256) (n : Fin 16) (w : Desc)
  /-- R503: Descriptor that branches relatively on an object test, flag or index register, ending loops it leaves. -/
  | branch (t : Fin 256) (n : Fin 16) (w : Desc)
  /-- R503: Descriptor that jumps relatively, ending loops whose bodies do not contain the target. -/
  | jump (t : Fin 256) (n : Fin 16) (w : Desc)
  /-- R503: Descriptor that saves the next address and branches, up to depth 4. -/
  | call (t : Fin 256) (n : Fin 16) (w : Desc)
  /-- R503: Descriptor that continues at the address the last CALL saved. -/
  | ret (t : Fin 256) (n : Fin 16) (w : Desc)
  /-- R37: Descriptor that ends the thread and, once its asynchronous descriptors complete, signals EXIT_OBJ if enabled. -/
  | halt (t : Fin 256) (n : Fin 16) (w : Desc)
  /-- R37: Descriptor that moves the thread to the end of its priority's round robin. -/
  | yield (t : Fin 256) (n : Fin 16) (w : Desc)
  /-- R37: Descriptor that does nothing. -/
  | nop (t : Fin 256) (n : Fin 16) (w : Desc)
  /-- R37: Descriptor that sets an index register to IMM. -/
  | ixSet (t : Fin 256) (n : Fin 16) (w : Desc)
  /-- R37: Descriptor that sets an index register to another plus IMM modulo 2^64. -/
  | ixAdd (t : Fin 256) (n : Fin 16) (w : Desc)
  /-- R37: Descriptor that loads 8 bytes at an address into an index register. -/
  | ixLoad (t : Fin 256) (n : Fin 16) (w : Desc)
  /-- R137: Descriptor that copies LEN bytes onto the thread's Hamper stack, spilling first if no granule is free. -/
  | push (t : Fin 256) (n : Fin 16) (w : Desc)
  /-- R138: Descriptor that removes the top Hamper entry and copies it out, restoring spilled granules on demand. -/
  | pop (t : Fin 256) (n : Fin 16) (w : Desc)
  /-- R37: Descriptor that loads Lark time into an index register. -/
  | time (t : Fin 256) (n : Fin 16) (w : Desc)
  /-- R37: Descriptor that writes a trace record tagged with IMM. -/
  | trace (t : Fin 256) (n : Fin 16) (w : Desc)
  /-- R426: Descriptor that raises an event code with data at severity info. -/
  | event (t : Fin 256) (n : Fin 16) (w : Desc)
  /-- R34: An asynchronous descriptor completes and, with DONE_EN, adds 1 to DONE_OBJ with release of its writes. -/
  | asyncDescriptorComplete (t : Fin 256) (n : Fin 16) (k : Nat)
  /-- R31: After the holder's current MMA_STEP ends, the array saves its accumulators to ARRAY_SAVE_BASE and the PRIO 3 thread claims it. -/
  | arrayPreemptSave (t : Fin 256)
  /-- R98: Before the preempted holder's next array descriptor, the array restores its saved state in 64 TCLK. -/
  | arrayRestore (t : Fin 256)
  /-- R99: When a faulted, stopped or halted holder's queued array descriptors complete without an unload, the claim is discarded. -/
  | arrayClaimDiscard (t : Fin 256)
  /-- R33: Write of START in THREAD_CTL starts an idle or faulted thread at THREAD_PC and invalidates the descriptor cache for its context. -/
  | threadStart (t : Fin 256) (n : Fin 16) (v : Word)
  /-- R33: Write of STOP in THREAD_CTL stops the thread at its next descriptor boundary and withdraws a pending WAIT. -/
  | threadStop (t : Fin 256) (n : Fin 16) (v : Word)
  /-- R73: Write of a segment entry, checked against the local map and stored invalid with REF_REASON when it fails. -/
  | segWrite (c : Fin 8) (k : Fin 64) (v : BitVec 128)
  /-- R75: A remote context access arrives and is translated at the target or refused with an error response. -/
  | remoteAccessArrival (k : Nat)
  /-- R56: A remote synchronisation transaction is applied exactly once at the object's home tile. -/
  | remoteSyncOperation (k : Nat)
  /-- R76: A firmware access from another module is delivered to the physical local offset without translation. -/
  | firmwareAccessArrival (k : Nat)
  /-- R81: Host read through the BAR2 aperture of the local map, completing with Unsupported Request on failure. -/
  | bar2Read (off : BitVec 36) (n : Fin 4097)
  /-- R81: Host write through the BAR2 aperture, acting as SIGNAL SET on a counter or discarded on failure. -/
  | bar2Write (off : BitVec 36) (data : List Byte)
  /-- R318: A PCI Express configuration request answered by the module. -/
  | configurationRequest (q : ConfigReq)
  /-- R135: Write of HAMPER_CFG, checked and refused or ignored under the slice rules. -/
  | hamperCfgWrite (c : Fin 8) (v : Word)
  /-- R135: Write of HAMPER_SPILL_BASE, stored with no slots when the area fails its check. -/
  | hamperSpillBaseWrite (c : Fin 8) (v : Word)
  /-- R147: Write of HAMPER_CTL DISCARD empties every stack and spill slot of the context. -/
  | discard (c : Fin 8)
  /-- R147: The discard finishes and DISCARD_BUSY clears. -/
  | discardComplete (c : Fin 8)
  /-- R141: A spill writes the chosen victim granule to a spill slot in its converted or raw form and frees it. -/
  | hamperSpillGranule (t : Fin 256) (c : Fin 8)
  /-- R144: A spilled granule in an active prefetch window is restored into a free slice granule. -/
  | prefetchRestore (t : Fin 256) (c : Fin 8)
  /-- R138: The Thermos stream of a POP's spilled granules arrives and the POP completes. -/
  | onDemandRestoreComplete (t : Fin 256) (n : Fin 16)
  /-- R170: Write of ROOT_CTL ENABLE lets the root engine take queue entries. -/
  | rootEnable (e : Fin 4)
  /-- R170: Write of ROOT_CTL DRAIN finishes the block in progress and then clears ENABLE. -/
  | rootDrain (e : Fin 4)
  /-- R170: Write of ROOT_CTL ABANDON abandons the named context's block in progress and skips its queued entries. -/
  | rootAbandon (e : Fin 4) (c : Fin 8)
  /-- R170: F3 advances ROOT_QUEUE_TAIL, making new queue entries available to the engine. -/
  | rootQueueTailWrite (e : Fin 4) (v : BitVec 10)
  /-- R170: The engine takes the next queue entry, reads the record and step counter and copies in the factor block and previous root. -/
  | rootBlockStart (e : Fin 4)
  /-- R174: On copy-in completion the engine forms trace and damping and runs the Newton or Cholesky path. -/
  | rootCompute (e : Fin 4)
  /-- R179: The root computation ends and the result is written to every user slot and the owner's pending slot. -/
  | rootWriteOut (e : Fin 4)
  /-- R170: Every write-out of a block is acknowledged; the block counts complete and ROOT_DONE_SIGNAL is signalled. -/
  | rootBlockComplete (e : Fin 4)
  /-- R180: After a commit barrier without abort, F3 starts a refresh of every idle layer and queues its owned blocks. -/
  | refreshStart (c : Fin 8)
  /-- R190: Once the module meets R13, F2 forms its vote word and arrives at the vote and install barriers. -/
  | voteArrival (c : Fin 8) (loss : Bool) (grad : Option Nat) (maps : List OvfMap)
  /-- R192: The vote barrier completes; a failed vote discards the step and a passed one allows the sweep. -/
  | voteComplete (c : Fin 8) (v : Word)
  /-- R182: The install barrier completes and F3 marks each running layer complete by its deadline. -/
  | installBarrierComplete (c : Fin 8) (v : BitVec 2048)
  /-- R183: When vote and install barriers have both passed, the sweep starts, installs pending roots provisionally and ages late layers. -/
  | sweepStart (c : Fin 8)
  /-- R16: The last granule of a shard is written and, after any due digest comparison, the shard is marked swept. -/
  | shardSwept (c : Fin 8) (j : Nat) (g : List F32) (rows cols : List RootSeg)
  /-- R213: Slow-tier momentum data arrives and a waiting update unit resumes. -/
  | slowTierDataArrival (c : Fin 8) (j g : Nat) (data : Option (List Byte))
  /-- R213: The write-back of a slow granule's new momentum completes or fails. -/
  | slowTierWriteBackComplete (c : Fin 8) (j g : Nat) (ok : Bool)
  /-- R217: The replica digest barrier of a shard completes and reports match or mismatch. -/
  | digestCompareComplete (c : Fin 8) (j : Nat) (lo hi : Word)
  /-- R218: A round of range-digest comparisons completes and the differing ranges are split. -/
  | bisectionRoundComplete (c : Fin 8) (j : Nat) (differs : List Bool)
  /-- R219: Runs read from other replicas arrive; differing elements are repaired by majority or the repair fails. -/
  | runReadComplete (c : Fin 8) (j : Nat) (others : List (List (List Byte)))
  /-- R16: When all its shards are swept the module arrives at the commit barrier with its commit word. -/
  | commitArrival (c : Fin 8)
  /-- R16: The commit barrier completes; without abort shadows go live and counters advance, with abort nothing persistent changes. -/
  | commitBarrierComplete (c : Fin 8) (v : Word)
  /-- R243: After a failed vote or aborted commit, once threads are stopped, F2 re-bases the credit queues between two barriers. -/
  | queueRebase (c : Fin 8)
  /-- R223: Write of SWEEP_CTL CLEAR_SKEW sets SKEW_RUN to 0. -/
  | clearSkew (c : Fin 8)
  /-- R210: Write of SWEEP_STEP while stopped sets t and re-derives the schedule position. -/
  | sweepStepWrite (c : Fin 8) (v : Word)
  /-- R211: Write that commits staged Heath parameters from step n, refused with BUSY when n is not beyond t + 1. -/
  | heathCommitStep (c : Fin 8) (v : Word)
  /-- R229: Write of CTX_CUTS, ignored while the context runs. -/
  | ctxCutsWrite (c : Fin 8) (v : Word)
  /-- R244: Write of a Q_CFG entry, refused when OBJ is not a counter owned by the context. -/
  | qCfgWrite (c : Fin 8) (k : Fin 16) (v : Word)
  /-- R255: A training state's work completes and the port moves on toward UP. -/
  | portTrainingStep (p : Fin 8) (whole : BitVec 2) (failed : BitVec 16)
  /-- R255: A training state's limit expires and the port returns to DETECT. -/
  | trainingLimitExpired (p : Fin 8)
  /-- R255: The 40 ms training budget is spent and the port enters DOWN with the failing state's reason. -/
  | trainingBudgetExpired (p : Fin 8)
  /-- R255: One second after entering DOWN, a port with ENABLE 1 starts training again. -/
  | trainingRetry (p : Fin 8)
  /-- R256: A LINK_CTL flit is checked in HANDSHAKE; the neighbour is accepted with credits loaded or training fails. -/
  | linkCtlReceived (p : Fin 8) (x : WireFlit)
  /-- R251: An active laser fails; the spare is switched in and the unit's ports retrain, or both lost takes the ports down. -/
  | laserFailure (u : Fin 2) (w : Fin 8)
  /-- R258: Write of PORT_CTL RETRAIN retrains the port keeping sequence numbers, replay buffers and credits. -/
  | retrain (p : Fin 8)
  /-- R255: Write of PORT_CTL ENABLE, 0 stopping light and entering DISABLED, 1 starting training. -/
  | portEnableWrite (p : Fin 8) (v : Bool)
  /-- R277: Write of PORT_CTL CLR_CNT clears the port counters. -/
  | clrCnt (p : Fin 8)
  /-- R274: Write of PORT_CTL REINSERT_ARM arms a port for reinsertion, sending a STILE notice and reading ARMED. -/
  | reinsertArm (p : Fin 8) (v : Bool)
  /-- R265: A DATA flit is checked by CRC and sequence, accepted in order or discarded with a NAK. -/
  | dataFlitReceived (p : Fin 8) (x : WireFlit)
  /-- R266: A NAK starts a replay from its SEQ, poisoning a flit past its retry budget and retraining after 16 failures. -/
  | nakReceived (p : Fin 8) (x : WireFlit)
  /-- R302: A TIME flit is stamped and used to compute link delay and offset, or to answer a request. -/
  | timeFlitReceived (p : Fin 8) (x : WireFlit) (t : Word)
  /-- R274: A STILE reinsertion notice arrives from the armed neighbour port. -/
  | stileNoticeReceived (p : Fin 8) (x : WireFlit)
  /-- R254: An uncorrectable FEC codeword invalidates every flit with a bit in it. -/
  | codewordUncorrectable (p : Fin 8)
  /-- R267: ACK has not advanced for REPLAY_TIMEOUT_NS and the sender replays from its oldest unacknowledged flit. -/
  | replayTimeout (p : Fin 8)
  /-- R267: An unanswered NAK is sent again after REPLAY_TIMEOUT_NS. -/
  | nakResend (p : Fin 8)
  /-- R272: Write of STILE_CLOSE closes one axis's Stile, refused when it would exceed the bypass run limit unless FORCE. -/
  | stileClose (mask : BitVec 4) (force obj : Bool)
  /-- R274: Write of STILE_OPEN opens an axis's Stile once both ports read LOOP and the neighbours are acknowledged. -/
  | stileOpen (mask : BitVec 4)
  /-- R274: Write of STILE_NEIGH_ACK acknowledges an armed neighbour of an axis. -/
  | stileNeighAck (mask : BitVec 8)
  /-- R274: One second after STILE_OPEN without both acknowledgements, the request lapses with reason 4. -/
  | stileOpenLapse (a : Fin 4)
  /-- R271: A Stile finishes switching and the affected ports retrain. -/
  | stileMovementComplete (a : Fin 4)
  /-- R272: The main rail falls below 10.2 V and all four Stiles close from stored energy. -/
  | powerLossStileClose
  /-- R286: At each slot start the port sends the first flit that the slot's reservation use admits, or IDLE. -/
  | slotStart (p : Fin 8) (n : Fin 4096)
  /-- R288: At a frame start a pending reservation-bank swap for that frame takes effect. -/
  | frameStart
  /-- R288: Write of RES_SWAP_FRAME requests a bank swap at frame k, refused on failed checks or a started frame. -/
  | resSwapFrame (p : Fin 8) (k : Word)
  /-- R290: The DMA engine reaches an admitted-class descriptor and admits it with granted slots or refuses it. -/
  | admission (t : Fin 256) (n : Fin 16)
  /-- R291: The restarted F1 enables admission at the next step or frame boundary and waiting descriptors are admitted in order. -/
  | admissionReenable (c : Fin 8)
  /-- R282: A transfer's last flit is written at the destination and its completion or response is sent. -/
  | transferArrival (k : Nat)
  /-- R282: A completion or read response reaches the issuer and fires DONE_OBJ. -/
  | completionArrival (k : Nat)
  /-- R283: An error response reaches the issuer and the issuing thread faults with code 0x05. -/
  | errorResponseArrival (k : Nat)
  /-- R296: The issuer's completion check time passes without completion. -/
  | completionCheckExpired (tid : Nat)
  /-- R297: A transfer still incomplete after its check time plus VOID_GRACE_US completes with an error response. -/
  | voidGraceExpired (tid : Nat)
  /-- R299: A shard packet is CRC-checked, written, or rejected with SHARD_CRC and a re-request. -/
  | shardPacketReceived (k : Nat) (marks : PacketMarks)
  /-- R299: A shard re-request makes the issuer resend the packet once on the alternate direction. -/
  | shardRerequestReceived (k : Nat)
  /-- R299: At the primary deadline without completion the issuer resends the packet once. -/
  | shardPrimaryDeadline (tid : Nat)
  /-- R299: At the packet's DEADLINE without completion the issuer raises SHARD_LOST and flags its vote. -/
  | shardLost (tid : Nat)
  /-- R300: Write of FC_ENABLE starts the frame contract at the first judged frame, or is refused on budget. -/
  | fcEnableWrite (c : Fin 8) (v : Bool)
  /-- R300: At the end of each judged frame the counter is compared and a late frame raises PROMISE_VOID. -/
  | frameContractJudgement (c : Fin 8)
  /-- R302: Every LARK_SYNC_INTERVAL the port sends a TIME request to its neighbour. -/
  | larkSyncExchange (p : Fin 8)
  /-- R306: The parent port leaves UP; the module takes the alternate route or enters holdover. -/
  | parentPortLost
  /-- R306: After LARK_HOLDOVER ms in holdover the module reads unlocked and bit 5 clears. -/
  | holdoverExpiry
  /-- R307: A rising PH0 edge on the grandmaster steps or slews its time to the epoch, or is rejected. -/
  | epochEdgeIn
  /-- R307: At each Lark multiple of the epoch period PH1 is driven high for 1 us. -/
  | epochPulseOut
  /-- R305: Write of LARK_SET sets the grandmaster's time, refused while any context runs. -/
  | larkSet (v : Word)
  /-- R311: Write of SNAP_TIME arms a snapshot, or refuses it when less than 10 us ahead. -/
  | snapTimeWrite (c : Fin 8) (v : Word)
  /-- R311: At SNAP_TIME the context's issue freezes, or the snapshot is marked failed when Lark is not locked. -/
  | snapTimeReached (c : Fin 8)
  /-- R311: The frozen context drains; SNAP_READY is set and an entry is posted. -/
  | snapDrainComplete (c : Fin 8)
  /-- R311: At SNAP_RESUME issue resumes, with SNAP_FAILED set if not drained. -/
  | snapResumeReached (c : Fin 8)
  /-- R320: Write of HOST_READY sets or clears DRIVER_UP and copies the host interface version. -/
  | hostReadyWrite (v : Word)
  /-- R81: Write of BAR2_SEL places the BAR2 window, ignoring reserved values. -/
  | bar2SelWrite (v : Word)
  /-- R322: Doorbell write of a command tail, ignored with DB_BAD when out of range. -/
  | dbCmd (r : Fin 9) (v : BitVec 32)
  /-- R322: Doorbell write returning consumed completion entries. -/
  | dbCq (r : Fin 9) (v : BitVec 32)
  /-- R322: Doorbell write returning consumed event entries. -/
  | dbEq (r : Fin 9) (v : BitVec 32)
  /-- R172: Ring command that checks schedules, counters and cuts and sets up the context to run. -/
  | ctxStart (r : Fin 8) (lo hi : Word) (queues : List (Fin 16 × Word))
  /-- R323: Ring command that stops every thread of the context. -/
  | ctxStop (r : Fin 8)
  /-- R409: Ring command that performs the context reset of function 0x0C. -/
  | ctxReset (r : Fin 8)
  /-- R323: Ring command that sets HOST_ABORT for the current vote or commit. -/
  | abortStep (r : Fin 8)
  /-- R330: Ring command that pulls a PXC container from host memory and writes its transformed chunks. -/
  | intake (r : Fin 9) (hdr : Option (List Byte)) (heads : List (List Byte))
  /-- R332: A chunk's host read completes; it is CRC-checked, transformed and written or fetched again. -/
  | intakeChunkArrival (r : Fin 9) (k n : Nat) (data : Option (List Byte))
  /-- R337: Ring command that stages committed weights and sends a generation to every rollout module. -/
  | publish (r : Fin 8) (table : List PubPart)
  /-- R336: Ring command that requests a generation switch, refused when pending or no slot is ready. -/
  | switchGen (r : Fin 8)
  /-- R323: Ring FENCE command that completes when every earlier command of the ring has completed. -/
  | ringFence (r : Fin 9)
  /-- R389: Management-ring command that starts a warm reset. -/
  | moduleWarmReset
  /-- R409: Management-ring command that requests a function reset of a function and unit. -/
  | funcReset
  /-- R357: F0's post-register write advances the completion tail, sets POSTED, writes the status line and raises the interrupt. -/
  | completionPost (r : Fin 9)
  /-- R327: The INT_MOD hold-off from the first unsignalled entry expires and the vector fires. -/
  | interruptHoldoffExpired (v : Fin 64)
  /-- R336: At the next batch-boundary counter update a pending switch makes the ready slot current. -/
  | generationSwitch (c : Fin 8)
  /-- R336: A draining slot becomes free when its GEN_USE_OBJ counter reads 0. -/
  | drainingSlotFreed (c : Fin 8)
  /-- R318: The PCIe link stays out of L0 for more than 1 ms and bit 6 of FUNC_READY clears. -/
  | linkLeavesL0
  /-- R347: Boot mailbox LOAD command that reads a runtime image from the host for checking. -/
  | bootLoad
  /-- R345: Boot mailbox RELOAD command that starts a warm reset with the host-command source. -/
  | bootReload
  /-- R347: The image read completes and is checked; on success segments are copied and cores started, else rejected. -/
  | bootImageReadComplete (image : Option (List Byte))
  /-- R348: Bolmi initialises on a core and sets its ready bit; all six set bit 7 and BOOT_STATE 5. -/
  | coreInitComplete (n : Fin 6)
  /-- R350: A core's watchdog passes TIMEOUT_MS without a kick and the core restarts with cause 1. -/
  | watchdogExpiry (n : Fin 6)
  /-- R350: Bolmi halts a core on an unhandled trap and restarts it with cause 2. -/
  | fatalTrap (n : Fin 6)
  /-- R353: A level-1 restart resets one core, checks its segment hash and rewrites its private region. -/
  | coreRestart (n : Fin 6)
  /-- R350: Write of CORE_CTL RESTART restarts the core with cause 3. -/
  | coreRestartRequest (n : Fin 6)
  /-- R343: Write of CORE_CTL HOLD holds the core in reset, or releases it into a restart. -/
  | coreHold (n : Fin 6) (v : Bool)
  /-- R343: Write of WDT_KICK by its own core restarts the watchdog count. -/
  | wdtKick (n : Fin 6)
  /-- R356: Write of FW_L3_KICK by F4 or the boot ROM restarts the level-3 count. -/
  | fwL3Kick
  /-- R356: The level-3 count expires and a cold reset begins with source 4. -/
  | level3Expiry
  /-- R359: Console command that replies with the boot ROM, runtime firmware and host interface versions. -/
  | consoleVer
  /-- R359: Console command that replies with the state, cause and restart counts of F0-F5. -/
  | consoleCores
  /-- R359: Console command that replies with FUNC_READY and UNIT_READY. -/
  | consoleReady
  /-- R359: Console command that replies with the N newest error-log entries. -/
  | consoleLog (n : Nat)
  /-- R359: Console command that starts trace capture. -/
  | consoleTraceOn
  /-- R359: Console command that stops trace capture. -/
  | consoleTraceOff
  /-- R359: Any other console line is answered with a question mark. -/
  | consoleUnknownLine
  /-- R368: A DOP frame addressed to the module enters the receive queue or is discarded when full. -/
  | dopFrameReceived (dst src : BitVec 48) (frame : DopFrame)
  /-- R365: DOP READ of one object, answered with a result byte and the item. -/
  | read
  /-- R376: DOP WRITE of one item, applied under the object's access and change class. -/
  | write (env : Around)
  /-- R365: DOP READ_LIST of up to 64 objects served whole. -/
  | readList
  /-- R368: DOP WRITE_LIST of up to 255 items served whole, each succeeding or failing alone. -/
  | writeList (env : Around)
  /-- R370: DOP BLOB_READ that opens a segmented read of a copied value. -/
  | blobRead
  /-- R370: DOP BLOB_WRITE that opens a segmented write. -/
  | blobWrite
  /-- R370: DOP SEGMENT that moves one 1,024-byte segment, applying the value on the last write segment. -/
  | segment
  /-- R370: DOP ABORT that closes the named segmented transfer. -/
  | abort
  /-- R387: DOP RESET command that answers OK and then starts a warm or cold reset. -/
  | reset
  /-- R387: The DOP reset begins once its response has left or 10 ms after service. -/
  | resetCommandStart
  /-- R370: A segmented transfer with no SEGMENT for 1 s closes without applying anything. -/
  | transferIdleExpiry (n : Fin 10)
  /-- R373: A DOP session idle for SESSION_IDLE_S closes, losing its level, record and transfer. -/
  | sessionIdleExpiry (n : Fin 8)
  /-- R372: Write of MBX_CTL GO submits the mailbox request, or rejects it when its length is out of range. -/
  | mbxGo (k : Fin 2)
  /-- R372: Write of MBX_CTL ABORT_XFER closes the slot session's open transfer. -/
  | abortXfer (k : Fin 2)
  /-- R374: Write of ACCESS_LEVEL grants expert level when PH6 permits, or reverts to basic. -/
  | accessLevelWrite (n : Fin 10) (v : BitVec 8)
  /-- R382: Write of CONFIG_EPOCH records the rewrite and clears CONFIG_STALE. -/
  | configEpochWrite (v : BitVec 32)
  /-- R378: Before a function's ready bit sets, the Ronbin block writes every stored value of that function in index order. -/
  | deferredSettingsApply (f : Fin 16)
  /-- R385: A queued event notification is sent as an EVENT PDU in the module's transmit opportunity. -/
  | eventNotificationSend
  /-- R102: Object write that reruns the array self-test of the named dies. -/
  | arraySelftestRun (dies : BitVec 4) (failed : List Nat) (scale : BitVec 4)
  /-- R188: Object write that queues the next refresh of every layer cold. -/
  | rootForceCold (c : Fin 8)
  /-- R188: Object write that turns preconditioning off or on, putting every layer in USE 2 when set again. -/
  | rootPrecondEnWrite (c : Fin 8) (v : Bool)
  /-- R399: Object write that sets the module coordinate when PH3 selects it, refused under discovery. -/
  | moduleCoordinateSet (v : BitVec 32)
  /-- R441: The later of the two 12 V rails enters its range and a power-on cold reset begins. -/
  | powerOn
  /-- R442: A 12 V rail leaves its range and holds the module in power-on reset. -/
  | railOutOfRange (aux : Bool)
  /-- R389: RESET_N stays low through the 1 us filter and a cold reset begins. -/
  | resetNLow
  /-- R393: RESET_N rises and internal release follows once step 3 has completed. -/
  | resetNRise
  /-- R389: PERST# stays low through the filter and a warm reset begins. -/
  | perstLow
  /-- R394: PERST# rises and host-link bring-up starts. -/
  | perstRise
  /-- R415: Write of RST_CTL WARM_REQ starts a warm reset with source 6. -/
  | warmReq
  /-- R392: A cold reset runs steps 1 to 3: always-on domain, Ronbin verification and PLL lock. -/
  | coldReset (a b cool : Bool) (files : List (List Byte))
  /-- R393: The 5 ms internal RESET_N pulse of a DOP or level-3 cold reset ends. -/
  | internalResetPulseEnd
  /-- R393: Internal release begins option loading. -/
  | internalRelease
  /-- R396: 120 us after internal release the straps are latched and phase B begins. -/
  | strapLatch (pins : BitVec 8) (files : List (List Byte))
  /-- R396: Fuses complete at 150 us and step 4 sets the power and thermal ready bit. -/
  | optionLoadingComplete
  /-- R392: Step 5 brings the ports up to LOOP behind closed Stiles. -/
  | linkDomainBringup (ports : BitVec 8)
  /-- R392: Step 7 trains and scrubs each stack, retrying a failed stack twice. -/
  | hbmTraining (st : Fin 8) (ok : Bool)
  /-- R392: A stack's scrub completes and its unit bit sets. -/
  | hbmScrubComplete (st : Fin 8)
  /-- R392: Step 8 runs the boot ROM checks and, with all stacks ready, reads BOOT_STATE 1. -/
  | bootRomChecks
  /-- R392: Step 10 brings up tiles and engines after BOOT_STATE 5, including the array self-test. -/
  | tilesBringup (failed : List Nat) (scale : BitVec 4)
  /-- R395: A PLL not locked within 1.0 ms fails step 3 and stops bring-up. -/
  | pllLockTimeout
  /-- R400: Phase B reaches 2 s, ends into phase C and raises BRINGUP_INCOMPLETE. -/
  | phaseBTimeLimit
  /-- R400: Every present function is ready and the pins move to phase C. -/
  | phaseBEnd
  /-- R404: Every 500 ms in phase C the ALIVE output toggles. -/
  | aliveToggle
  /-- R405: STOP_N low with its enable freezes issue in every context. -/
  | stopNLow
  /-- R405: STOP_N returns high and issue resumes. -/
  | stopNHigh
  /-- R403: Write that releases the FAULT_N pin. -/
  | faultNRelease
  /-- R408: A warm reset isolates compute, holds blocks in reset, zeroes Meadow and Thermos and restarts the boot ROM. -/
  | warmReset
  /-- R409: Write of FRST_CTL GO requests a function reset of the named function and unit. -/
  | frstCtlGo (func unit : BitVec 8)
  /-- R409: Object write that requests a function reset. -/
  | funcResetReq (v : BitVec 16)
  /-- R411: A drained block meets its idle condition and is reset. -/
  | drainIdleReached (func unit : BitVec 8)
  /-- R411: DRAIN_TIMEOUT expires and the block is reset forced, raising RESET_FORCED. -/
  | drainTimeoutExpiry (func unit : BitVec 8)
  /-- R410: The reset block's ready bit sets and its isolation wrapper opens. -/
  | functionResetReady (func unit : BitVec 8) (failed : List Nat) (scale : Bool)
  /-- R422: F4's LOG_CMD take puts the chosen slot in handling and posts it to its event ring the first time. -/
  | logTake
  /-- R422: F4's LOG_CMD retire frees the slot and copies it into the history. -/
  | logRetire
  /-- R423: F4's LOG_CMD requeue returns its slot to queued at a checkpoint with PREEMPT set. -/
  | logRequeue
  /-- R426: Write of LOG_RAISE_B commits a firmware-raised event, ignored for severity 6 or 7. -/
  | logRaise (a b : Word)
  /-- R434: Write of FENCE_SET raises the issue fence, stopping contexts and refusing context traffic. -/
  | fenceSet
  /-- R435: Write of FENCE_BYPASS closes all four Stiles under the run-limit check to reach level 2. -/
  | fenceBypass
  /-- R436: Write of FENCE_CLEAR lowers the fence one level, refused while a module-fatal slot is queued. -/
  | fenceClear
  /-- R439: Object write of FENCE_LEVEL that issues fence set, bypass or clear writes. -/
  | fenceLevelWrite (v : Fin 3)
  /-- R439: Object write of 0 that clears LOG_OVERFLOW. -/
  | logOverflowClear
  /-- R428: A read corrects a single-bit Meadow or Thermos error, writes it back and raises the correction event. -/
  | eccCorrection (off : Nat)
  /-- R430: A read finds an uncorrectable word, returns an error response and raises the uncorrectable event. -/
  | eccUncorrectable (off : Nat)
  /-- R429: The Thermos patrol reads and corrects the next sectors of its stack. -/
  | patrolRead (st : Fin 8) (corrected : Bool)
  /-- R446: THROTTLE_N low with its enable raises throttle cause 0 to level 3. -/
  | throttleNLow
  /-- R446: THROTTLE_N rises and cause 0 returns to level 0. -/
  | throttleNHigh
  /-- R446: A power, supply, temperature or coolant condition crosses its threshold and its cause takes a level. -/
  | throttleCauseRise (b : Fin 12)
  /-- R446: Each further 100 us or 1 ms above the threshold raises a cause's level by one. -/
  | throttleCauseEscalate (b : Fin 12)
  /-- R446: Each THROTTLE_STEP_DOWN_MS while its release holds, a cause lowers its level by one. -/
  | throttleStepDown (b : Fin 12)
  /-- R446: Write of THROTTLE_FORCE sets cause 1's level at once. -/
  | throttleForceWrite (v : BitVec 2)
  /-- R448: An emergency condition arises, holding causes at level 3 and raising EMERGENCY. -/
  | emergencyBegin (b : Fin 12) (sensor : Fin 18)
  /-- R448: No emergency condition holds and the held causes begin stepping down. -/
  | emergencyClear (left : BitVec 12)
  /-- R449: An emergency lasting EMERG_SHUTDOWN_MS switches the power stages off into SHUTDOWN. -/
  | emergencyShutdownExpiry
  /-- R449: A sensor crosses its shutdown threshold and the power stages switch off within 10 us. -/
  | shutdownThreshold (sensor : Fin 18)
  /-- R451: Each whole second without an emergency or condition cause, QUIET_S advances. -/
  | quietSecondTick
  /-- R457: A read of PEAK_P returns the highest 10 us average and clears it. -/
  | peakPRead
  /-- R465: The Ronbin boot ROM completes pending fuses and boots the verified bank or enters ROM recovery mode. -/
  | ronbinBoot (a b : Bool) (files : List (List Byte))
  /-- R466: Object write that opens a stage in the inactive bank and starts erasing it. -/
  | imgStageBegin (v : Word)
  /-- R466: The inactive bank's erase finishes and buffered pieces may be programmed. -/
  | bankEraseComplete
  /-- R467: Object write that submits an image piece with its session's number and CRC, buffering or refusing it. -/
  | imgPieceData (num : Word) (crc : BitVec 32) (data : List Byte)
  /-- R468: A buffered piece is programmed and read back and its complete bit makes it durable. -/
  | pieceProgramComplete
  /-- R470: Object write that abandons the open stage and marks the bank empty. -/
  | imgStageAbort
  /-- R471: Object write that checks the receiving bank and marks it staged or rejected. -/
  | imgVerify
  /-- R471: The background erase of the unused calibration slot finishes and the bank reads staged. -/
  | calibrationEraseComplete
  /-- R472: Object write that scans the service card and stages the first usable management image. -/
  | imgCardScan (files : List (List Byte))
  /-- R495: The service card is removed; a scan's stage is abandoned and IMAGE_PIECE_BAD raised. -/
  | cardRemoved
  /-- R495: A service card is inserted and card detect reports it. -/
  | cardInserted
  /-- R473: Object write that activates the staged bank or defers activation during an emergency or short quiet time. -/
  | imgActivate
  /-- R473: QUIET_S reaches 60 without emergency and the pending activation proceeds. -/
  | deferredActivation
  /-- R474: The Ronbin block alone restarts into the trial or confirmed bank, converting calibration if needed. -/
  | ronbinRestart (a b : Bool) (x : Restart)
  /-- R474: A trial image that serves no request within 5 s is abandoned with reason 2. -/
  | trialServiceTimeout
  /-- R476: The trial window expires without confirmation and the Ronbin block falls back to the confirmed bank. -/
  | trialWindowExpiry
  /-- R475: Object write that confirms the trial image and advances the fuses. -/
  | imgConfirm
  /-- R476: Object write that ends the trial and restarts into the confirmed bank. -/
  | imgFallback
  /-- R12: A write of a register with no behaviour of its own stores its fields, ignoring reserved bits. -/
  | registerWrite (k : Nat) (v : Word)
  /-- R494: A port in UP or ARMED loses received light or lock on a fibre pair and goes to half width or retrains and may go down. -/
  | lossOfLight (p : Fin 8) (pair : Fin 2)
  /-- R261: An IDLE flit arrives and its ACK and returned credits are taken when it passes its CRC. -/
  | idleFlitReceived (p : Fin 8) (x : WireFlit)
  /-- R261: A flit of reserved TYPE that passes its CRC is discarded, counted in PORT_PROTO_ERR and may raise LINK_DEGRADED reason 4. -/
  | reservedTypeFlitReceived (p : Fin 8) (x : WireFlit)
  /-- R270: At the end of each one-second window the FEC symbol error ratio is compared with DEGRADE_FEC_SER and LINK_DEGRADED reason 1 is raised when it is above. -/
  | fecSymbolErrorRatio (p : Fin 8) (corrected : Word) (ratio : F32)
  /-- R318: The PCI Express link returns to L0 and bit 6 of FUNC_READY sets again once BAR0 answers. -/
  | linkEntersL0 (width rate : Nat)
  /-- R332: A module read of host memory gets no completion within the PCI Express completion timeout and is treated as a failed read. -/
  | completionTimeout (q : HostRead)
  /-- R446: A supply or coolant throttle cause returns to level 0 when its release condition holds (main above 11.5 V for 1 ms, inlet below 38 °C, flow above 2.1 L/min). -/
  | throttleCauseRelease (b : Fin 12)
  deriving DecidableEq, Repr

end Sys2Proof
end

