-- ==== Sys2Proof/Config.lean ====
section
/-! DEFINITION. What an implementation fixes and the free values the spec leaves open. Every constant here is opaque: no
proof can see a value of it. -/

namespace Sys2Proof.Config

/-- Free value number `n` of 64 bits: the model's counter `State.freeCount` names a fresh one each time (log entry 4). -/
opaque freeWord : Nat → Word

/-- The fixed algorithms of the vector engine whose results the spec bounds but does not state (R502), on finite operands
outside the special values of R501. -/
opaque tanhUnit : F32 → F32
opaque sigmoidUnit : F32 → F32
opaque expUnit : F32 → F32
/-- ELU of its operand and its parameter `IMM` (R502). -/
opaque eluUnit : F32 → F32 → F32
opaque geluUnit : F32 → F32
opaque siluUnit : F32 → F32

/-- Fibre length in micrometres of the whole route from a coordinate to another in directions `dirs` (R269): the installation fixes it. -/
opaque routeMicrometres : Nat → Nat → Nat → Nat

/-- Which kind of transfer a scheduled store descriptor travels as: 0 a write, 1 a collective segment, 2 shard packets, 3 shard packets of a
gradient's reduce-scatter. The spec names the kinds and does not say which descriptors use which (Table 11.2). -/
opaque scheduledKind : Desc → Fin 4

/-- The overflow bitmaps whose row mask goes with the first packet of a descriptor of a reduce-scatter (R202): Eceverin's program lays them out (log
entry 112). -/
opaque reduceMaps : Desc → List OvfMap

/-- Row `r` of a scheduled store takes the − way where both ways round a ring are equally short: the half of an exchange that Eceverin sends that way
(R236, log entry 111). -/
opaque exchangeMinus : Desc → Nat → Bool

/-- A `QUANT` descriptor converts a partial or a sum of an exchange (R238): Eceverin's program says which do (log entry 110). -/
opaque exchangeQuant : Desc → Bool

/-- The virtual stage of a layer of a context's job (R240): Eceverin's job description fixes it. -/
opaque layerStage : Nat → Nat → Nat

/-- Physical offset of the pair of root slots an owner keeps for the block record at an offset, when it is no user of the whole block (R173, R180). -/
opaque ownerSlots : Nat → BitVec 40

/-- The conversion a compiled publication table directs (R337), whose layout the spec does not give: byte `k` of part `part` of the table
at a physical offset, from the part's source bytes. -/
opaque publishByte : Nat → Nat → List Byte → Nat → Byte

/-- Dwords of PCI Express configuration space whose contents the spec does not give (R316): the vendor ID in the first, the revision in
the third. -/
opaque configSpace : Nat → BitVec 32

/-- Public key `k` of the Ronbin block, a point of P-384 (R346, R463): the keys are set at the factory. -/
opaque publicKey : Nat → Nat × Nat

/-- Factory values of Table 0.3 and `MGMT_MAC` (Table 14.10): each character of `SERIAL_NUMBER` by its number in 0–9, A–Z. -/
opaque serialChar : Nat → Fin 36
opaque bootRomVersion : BitVec 32
opaque mgmtMac : BitVec 48

end Sys2Proof.Config
end

