-- ==== Sys2Proof/Machine/Objects.lean ====
section
/-! DEFINITION. The object dictionary as data (R365 to R376 and the object tables of the chapters): key = index × 256 +
subindex, type, access, change class, default, range. -/

namespace Sys2Proof.Machine

/-- Types of an item (R366). -/
inductive ObjType
  | u8 | u16 | u32 | u64 | i32 | i64 | f32 | bool | str | blob
  deriving DecidableEq, Repr

inductive ObjAccess
  | const | ro | rw | wo
  deriving DecidableEq, Repr

/-- Change classes (R376): at once, at a microbatch or step boundary, at a commit, only while idle. -/
inductive ObjClass
  | l | b | s | i
  deriving DecidableEq, Repr

/-- The range column of a numeric object: unsigned bounds, signed bounds, or bounds on a non-negative FP32. -/
inductive ObjRange
  | any | nat (lo hi : Nat) | int (lo hi : Int) | f32 (lo hi : Nat)
  deriving DecidableEq, Repr

/-- One row of an object table: `dims` gives count and key stride per index. -/
structure ObjDef where
  base : Nat
  dims : List (Nat × Nat)
  type : ObjType
  access : ObjAccess
  cls : ObjClass
  dflt : Nat
  range : ObjRange
  deriving DecidableEq, Repr

/-- `ID_ENTRIES` (R9). -/
def O.idEntries : Nat := 0x100000
/-- `VENDOR_NAME` (R9). -/
def O.vendorName : Nat := 0x100001
/-- `PART_NUMBER` (R9). -/
def O.partNumber : Nat := 0x100002
/-- `PRODUCT_NAME` (R9). -/
def O.productName : Nat := 0x100003
/-- `STEPPING` (R9). -/
def O.stepping : Nat := 0x100004
/-- `SERIAL_NUMBER` (R9). -/
def O.serialNumber : Nat := 0x100005
/-- `BOOT_ROM_VERSION` (R9). -/
def O.bootRomVersion : Nat := 0x100006
/-- `MGMT_IMAGE_VERSION` (R9). -/
def O.mgmtImageVersion : Nat := 0x100007
/-- `RUNTIME_FW_VERSION` (R9). -/
def O.runtimeFwVersion : Nat := 0x100008
/-- `HOST_IF_VERSION` (R9). -/
def O.hostIfVersion : Nat := 0x100009
/-- `HOST_SW_VERSION` (R9). -/
def O.hostSwVersion : Nat := 0x10000A
/-- `MODULE_COORDINATE` (R9). -/
def O.moduleCoordinate : Nat := 0x10000B
/-- `FUNCTIONS_PRESENT` (R9). -/
def O.functionsPresent : Nat := 0x10000C
/-- `ARRAY_SELFTEST_FAIL` (R102). -/
def O.arraySelftestFail : Nat := 0x210020
/-- `ARRAY_SAFE_DIES` (R102). -/
def O.arraySafeDies : Nat := 0x210021
/-- `ARRAY_SAFE_FORCE` (R102). -/
def O.arraySafeForce : Nat := 0x320020
/-- `ARRAY_SELFTEST_RUN` (R102). -/
def O.arraySelftestRun : Nat := 0x320021
/-- `CTX_JOB_SEED` (R132). -/
def O.ctxJobSeed (i : Nat) : Nat := 0x2C0030 + i
/-- `HAMPER_SIZE_MIB` (R149). -/
def O.hamperSizeMib (i : Nat) : Nat := 0x220010 + i
/-- `HAMPER_PREFETCH` (R149). -/
def O.hamperPrefetch (i : Nat) : Nat := 0x340010 + i
/-- `HAMPER_SPILL_RAW` (R149). -/
def O.hamperSpillRaw (i : Nat) : Nat := 0x340018 + i
/-- `HAMPER_TILE_BASE` (R149). -/
def O.hamperTileBase (i : Nat) : Nat := 0x340020 + i
/-- `HAMPER_HIGH_WATER` (R149). -/
def O.hamperHighWater (i : Nat) : Nat := 0x620010 + i
/-- `HAMPER_SPILLED` (R149). -/
def O.hamperSpilled (i : Nat) : Nat := 0x620018 + i
/-- `HAMPER_LEFTOVER` (R149). -/
def O.hamperLeftover (i : Nat) : Nat := 0x620020 + i
/-- `ROOT_PRECOND_EN` (R188). -/
def O.rootPrecondEn (i : Nat) : Nat := 0x280010 + i
/-- `STAT_BETA` (R188). -/
def O.statBeta (i : Nat) : Nat := 0x280018 + i
/-- `ROOT_ITER_CAP` (R188). -/
def O.rootIterCap (i : Nat) : Nat := 0x280020 + i
/-- `ROOT_MAX_AGE` (R188). -/
def O.rootMaxAge (i : Nat) : Nat := 0x280028 + i
/-- `ROOT_TOL` (R188). -/
def O.rootTol (i : Nat) : Nat := 0x280030 + i
/-- `ROOT_DAMPING` (R188). -/
def O.rootDamping (i : Nat) : Nat := 0x400010 + i
/-- `ROOT_PIVOT_FLOOR` (R188). -/
def O.rootPivotFloor (i : Nat) : Nat := 0x400018 + i
/-- `ROOT_ACCEPT_RESID` (R188). -/
def O.rootAcceptResid (i : Nat) : Nat := 0x400020 + i
/-- `ROOT_LAYER_TABLE` (R188). -/
def O.rootLayerTable (i : Nat) : Nat := 0x400028 + i
/-- `ROOT_FORCE_COLD` (R188). -/
def O.rootForceCold (i : Nat) : Nat := 0x400030 + i
/-- `ROOT_FALLBACK_LAYERS` (R188). -/
def O.rootFallbackLayers (i : Nat) : Nat := 0x680010 + i
/-- `ROOT_MISSES` (R188). -/
def O.rootMisses (i : Nat) : Nat := 0x680018 + i
/-- `ROOT_ENGINE_BUSY` (R188). -/
def O.rootEngineBusy (i : Nat) : Nat := 0x680020 + i
/-- `ROOT_LAST_INSTALL` (R188). -/
def O.rootLastInstall (i : Nat) : Nat := 0x680028 + i
/-- `HEATH_BETA1` (R224). -/
def O.heathBeta1 (i : Nat) : Nat := 0x290010 + i
/-- `HEATH_BETA2` (R224). -/
def O.heathBeta2 (i : Nat) : Nat := 0x290018 + i
/-- `WEIGHT_DECAY` (R224). -/
def O.weightDecay (i : Nat) : Nat := 0x290020 + i
/-- `LR_PEAK_MANT` (R224). -/
def O.lrPeakMant (i : Nat) : Nat := 0x290028 + i
/-- `LR_EXP` (R224). -/
def O.lrExp (i : Nat) : Nat := 0x290030 + i
/-- `LR_WARMUP` (R224). -/
def O.lrWarmup (i : Nat) : Nat := 0x290038 + i
/-- `LR_DECAY_KIND` (R224). -/
def O.lrDecayKind (i : Nat) : Nat := 0x290040 + i
/-- `LR_DECAY_STEPS` (R224). -/
def O.lrDecaySteps (i : Nat) : Nat := 0x290048 + i
/-- `LR_MIN_FRAC` (R224). -/
def O.lrMinFrac (i : Nat) : Nat := 0x290050 + i
/-- `DIGEST_INTERVAL` (R224). -/
def O.digestInterval (i : Nat) : Nat := 0x290058 + i
/-- `HEATH_COMMIT_STEP` (R224). -/
def O.heathCommitStep (i : Nat) : Nat := 0x290060 + i
/-- `LR_RESTART_EN` (R224). -/
def O.lrRestartEn (i : Nat) : Nat := 0x420010 + i
/-- `LR_RESTART_MULT` (R224). -/
def O.lrRestartMult (i : Nat) : Nat := 0x420018 + i
/-- `SKEW_LIMIT` (R224). -/
def O.skewLimit (i : Nat) : Nat := 0x420020 + i
/-- `SWEEP_SHARD_TABLE` (R224). -/
def O.sweepShardTable (i : Nat) : Nat := 0x420028 + i
/-- `SWEEP_STEP_SET` (R224). -/
def O.sweepStepSet (i : Nat) : Nat := 0x420030 + i
/-- `LR_COS_TABLE` (R224). -/
def O.lrCosTable : Nat := 0x420040
/-- `STEP_COUNT` (R224). -/
def O.stepCount (i : Nat) : Nat := 0x690010 + i
/-- `SKIPPED_STEPS` (R224). -/
def O.skippedSteps (i : Nat) : Nat := 0x690018 + i
/-- `LAST_VOTE_WORD` (R224). -/
def O.lastVoteWord (i : Nat) : Nat := 0x690020 + i
/-- `LAST_COMMIT_WORD` (R224). -/
def O.lastCommitWord (i : Nat) : Nat := 0x690028 + i
/-- `LR_CURRENT` (R224). -/
def O.lrCurrent (i : Nat) : Nat := 0x690030 + i
/-- `DIGEST_REPAIRS` (R224). -/
def O.digestRepairs (i : Nat) : Nat := 0x690038 + i
/-- `JOB_CUTS` (R248). -/
def O.jobCuts (i : Nat) : Nat := 0x6C0010 + i
/-- `STAGE_WAIT_PS` (R248). -/
def O.stageWaitPs (i j : Nat) : Nat := 0x6C1001 + i * 256 + j
/-- `STAGE_WAITS` (R248). -/
def O.stageWaits (i j : Nat) : Nat := 0x6C1801 + i * 256 + j
/-- `TORUS_DIMS` (R279). -/
def O.torusDims : Nat := 0x240001
/-- `BYPASS_MAP` (R279). -/
def O.bypassMap (i : Nat) : Nat := 0x240002 + i
/-- `STILE_CLOSE` (R279). -/
def O.stileClose : Nat := 0x240006
/-- `STILE_OPEN` (R279). -/
def O.stileOpen : Nat := 0x240007
/-- `STILE_NEIGH_ACK` (R279). -/
def O.stileNeighAck : Nat := 0x240008
/-- `STILE_STATE` (R279). -/
def O.stileState : Nat := 0x240009
/-- `REINSERT_ARM` (R279). -/
def O.reinsertArm : Nat := 0x24000A
/-- `PORT_ENABLE` (R279). -/
def O.portEnable (i : Nat) : Nat := 0x380010 + i
/-- `PORT_HALF_OK` (R279). -/
def O.portHalfOk (i : Nat) : Nat := 0x380018 + i
/-- `PORT_VC_BUF` (R279). -/
def O.portVcBuf (i : Nat) : Nat := 0x380020 + i
/-- `REPLAY_TIMEOUT_NS` (R279). -/
def O.replayTimeoutNs : Nat := 0x380028
/-- `DEGRADE_FEC_SER` (R279). -/
def O.degradeFecSer : Nat := 0x380029
/-- `STILE_FORCE` (R279). -/
def O.stileForce : Nat := 0x38002A
/-- `PORT_STATE` (R279). -/
def O.portState (i : Nat) : Nat := 0x640010 + i
/-- `PORT_NEIGHBOUR` (R279). -/
def O.portNeighbour (i : Nat) : Nat := 0x640018 + i
/-- `PORT_COUNTERS` (R279). -/
def O.portCounters (i : Nat) : Nat := 0x640020 + i
/-- `SCHED_BASE_NS` (R315). -/
def O.schedBaseNs (i : Nat) : Nat := 0x240020 + i
/-- `SCHED_PER_FLIT_PS` (R315). -/
def O.schedPerFlitPs (i : Nat) : Nat := 0x240028 + i
/-- `ADMIT_MAX_BOUND_NS` (R315). -/
def O.admitMaxBoundNs (i : Nat) : Nat := 0x240030 + i
/-- `FC_PERIOD_PS` (R315). -/
def O.fcPeriodPs (i : Nat) : Nat := 0x240038 + i
/-- `FC_START_PS` (R315). -/
def O.fcStartPs (i : Nat) : Nat := 0x240040 + i
/-- `FC_BUDGET_PS` (R315). -/
def O.fcBudgetPs (i : Nat) : Nat := 0x240048 + i
/-- `FC_OBJ` (R315). -/
def O.fcObj (i : Nat) : Nat := 0x240050 + i
/-- `FC_ENABLE` (R315). -/
def O.fcEnable (i : Nat) : Nat := 0x240058 + i
/-- `SNAP_TIME` (R315). -/
def O.snapTime (i : Nat) : Nat := 0x240060 + i
/-- `SNAP_RESUME` (R315). -/
def O.snapResume (i : Nat) : Nat := 0x240068 + i
/-- `VOID_GRACE_US` (R315). -/
def O.voidGraceUs : Nat := 0x380030
/-- `RES_TABLE` (R315). -/
def O.resTable (i : Nat) : Nat := 0x380038 + i
/-- `RES_SWAP_FRAME` (R315). -/
def O.resSwapFrame (i : Nat) : Nat := 0x380040 + i
/-- `LARK_GM` (R315). -/
def O.larkGm : Nat := 0x250001
/-- `LARK_GM_COORD` (R315). -/
def O.larkGmCoord : Nat := 0x250002
/-- `LARK_EPOCH_PERIOD_PS` (R315). -/
def O.larkEpochPeriodPs : Nat := 0x250003
/-- `LARK_EPOCH_IN_EN` (R315). -/
def O.larkEpochInEn : Nat := 0x250004
/-- `LARK_EPOCH_OUT_EN` (R315). -/
def O.larkEpochOutEn : Nat := 0x250005
/-- `LARK_SET_TIME` (R315). -/
def O.larkSetTime : Nat := 0x250006
/-- `LARK_SYNC_INTERVAL_US` (R315). -/
def O.larkSyncIntervalUs : Nat := 0x3A0010
/-- `LARK_HOLDOVER_MS` (R315). -/
def O.larkHoldoverMs : Nat := 0x3A0011
/-- `PORT_ASYM_PS` (R315). -/
def O.portAsymPs (i : Nat) : Nat := 0x3A0018 + i
/-- `RES_STATE` (R315). -/
def O.resState (i : Nat) : Nat := 0x640030 + i
/-- `PROMISES_VOIDED` (R315). -/
def O.promisesVoided : Nat := 0x640038
/-- `ADMITS_REFUSED` (R315). -/
def O.admitsRefused : Nat := 0x640039
/-- `FC_MISSED` (R315). -/
def O.fcMissed (i : Nat) : Nat := 0x640040 + i
/-- `LARK_NOW` (R315). -/
def O.larkNow : Nat := 0x650001
/-- `LARK_STATE` (R315). -/
def O.larkState : Nat := 0x650002
/-- `LARK_OFFSET_PS` (R315). -/
def O.larkOffsetPs : Nat := 0x650003
/-- `PORT_LINK_DELAY_PS` (R315). -/
def O.portLinkDelayPs (i : Nat) : Nat := 0x650010 + i
/-- `HOST_STATUS_ADDR` (R339). -/
def O.hostStatusAddr : Nat := 0x260001
/-- `BAR2_SEL` (R339). -/
def O.bar2Sel : Nat := 0x260002
/-- `INTAKE_MAX_INFLIGHT` (R339). -/
def O.intakeMaxInflight : Nat := 0x3C0010
/-- `MAX_READ_REQ` (R339). -/
def O.maxReadReq : Nat := 0x3C0011
/-- `HOST_LINK_STATE` (R339). -/
def O.hostLinkState : Nat := 0x660001
/-- `INTAKE_CHUNKS` (R339). -/
def O.intakeChunks : Nat := 0x660002
/-- `INTAKE_RETRIES` (R339). -/
def O.intakeRetries : Nat := 0x660003
/-- `GEN_STATE` (R339). -/
def O.genState (i : Nat) : Nat := 0x6C2010 + i
/-- `GEN_CURRENT` (R339). -/
def O.genCurrent (i : Nat) : Nat := 0x6C2018 + i
/-- `PUB_STAGE_WAIT` (R339). -/
def O.pubStageWait (i : Nat) : Nat := 0x6C2020 + i
/-- `FW_CONSOLE_RX_EN` (R360). -/
def O.fwConsoleRxEn : Nat := 0x270001
/-- `FW_CONSOLE_TX_EN` (R360). -/
def O.fwConsoleTxEn : Nat := 0x270002
/-- `FW_WDT_TIMEOUT_MS` (R360). -/
def O.fwWdtTimeoutMs (i : Nat) : Nat := 0x3E0010 + i
/-- `FW_WDT_EN` (R360). -/
def O.fwWdtEn (i : Nat) : Nat := 0x3E0018 + i
/-- `FW_L3_EN` (R360). -/
def O.fwL3En : Nat := 0x3E0020
/-- `FW_L3_TIMEOUT_MS` (R360). -/
def O.fwL3TimeoutMs : Nat := 0x3E0021
/-- `FW_CORE_HOLD` (R360). -/
def O.fwCoreHold (i : Nat) : Nat := 0x3E0028 + i
/-- `FW_CORE_STATE` (R360). -/
def O.fwCoreState (i : Nat) : Nat := 0x670010 + i
/-- `FW_CORE_RESTARTS` (R360). -/
def O.fwCoreRestarts (i : Nat) : Nat := 0x670018 + i
/-- `FW_BOOT_STATE` (R360). -/
def O.fwBootState : Nat := 0x670020
/-- `FW_LOAD_TIME_PS` (R360). -/
def O.fwLoadTimePs : Nat := 0x670021
/-- `FW_IMAGE_SVN` (R360). -/
def O.fwImageSvn : Nat := 0x670022
/-- `FUNC_READY_WORD` (R382). -/
def O.funcReadyWord : Nat := 0x100101
/-- `UNIT_READY_WORD` (R382). -/
def O.unitReadyWord : Nat := 0x100102
/-- `PHASE` (R382). -/
def O.phase : Nat := 0x100103
/-- `STRAPS` (R382). -/
def O.straps : Nat := 0x100104
/-- `BRINGUP_CODE` (R382). -/
def O.bringupCode : Nat := 0x100105
/-- `ACCESS_LEVEL` (R382). -/
def O.accessLevel : Nat := 0x100201
/-- `EXPERT_PERMITTED` (R382). -/
def O.expertPermitted : Nat := 0x100202
/-- `SESSION_ID` (R382). -/
def O.sessionId : Nat := 0x100203
/-- `SESSION_IDLE_S` (R382). -/
def O.sessionIdleS : Nat := 0x100204
/-- `SESSIONS_OPEN` (R382). -/
def O.sessionsOpen : Nat := 0x100205
/-- `MGMT_MAC` (R382). -/
def O.mgmtMac : Nat := 0x100301
/-- `DOP_NODE_ID` (R382). -/
def O.dopNodeId : Nat := 0x100302
/-- `PLCA_EN` (R382). -/
def O.plcaEn : Nat := 0x100303
/-- `PLCA_NODE_COUNT` (R382). -/
def O.plcaNodeCount : Nat := 0x100304
/-- `PLCA_TO_TIMER` (R382). -/
def O.plcaToTimer : Nat := 0x100305
/-- `PLCA_BURST_COUNT` (R382). -/
def O.plcaBurstCount : Nat := 0x100306
/-- `PLCA_BURST_TIMER` (R382). -/
def O.plcaBurstTimer : Nat := 0x100307
/-- `PLCA_STATUS` (R382). -/
def O.plcaStatus : Nat := 0x100308
/-- `DOP_RX_FRAMES` (R382). -/
def O.dopRxFrames : Nat := 0x100309
/-- `DOP_RX_ERRORS` (R382). -/
def O.dopRxErrors : Nat := 0x10030A
/-- `DOP_TX_FRAMES` (R382). -/
def O.dopTxFrames : Nat := 0x10030B
/-- `DOP_DUPLICATES` (R382). -/
def O.dopDuplicates : Nat := 0x10030C
/-- `CONFIG_EPOCH` (R382). -/
def O.configEpoch : Nat := 0x100401
/-- `CONFIG_STALE` (R382). -/
def O.configStale : Nat := 0x100402
/-- `CONFIG_DEFERRED` (R382). -/
def O.configDeferred : Nat := 0x100403
/-- `EVT_SUB_MAC` (R386). -/
def O.evtSubMac : Nat := 0x700001
/-- `EVT_SUB_MIN_SEV` (R386). -/
def O.evtSubMinSev : Nat := 0x700002
/-- `EVT_SUB_FUNC_MASK` (R386). -/
def O.evtSubFuncMask : Nat := 0x700003
/-- `EVT_SUB_SEQ` (R386). -/
def O.evtSubSeq : Nat := 0x700004
/-- `EVT_SUB_DROPPED` (R386). -/
def O.evtSubDropped : Nat := 0x700005
/-- `FUNC_RESET_REQ` (R416). -/
def O.funcResetReq : Nat := 0x2A0040
/-- `PIN_IN_EN` (R416). -/
def O.pinInEn : Nat := 0x2A0041
/-- `FAULT_N_RELEASE` (R416). -/
def O.faultNRelease : Nat := 0x2A0042
/-- `MODULE_COORDINATE_SET` (R416). -/
def O.moduleCoordinateSet : Nat := 0x240070
/-- `DRAIN_TIMEOUT_US` (R416). -/
def O.drainTimeoutUs : Nat := 0x440040
/-- `RESET_CAUSE` (R416). -/
def O.resetCause : Nat := 0x6A0040
/-- `RESET_COUNTS` (R416). -/
def O.resetCounts : Nat := 0x6A0041
/-- `PIN_LEVELS` (R416). -/
def O.pinLevels : Nat := 0x6A0042
/-- `THERMOS_PATROL_EN` (R439). -/
def O.thermosPatrolEn : Nat := 0x230001
/-- `THERMOS_PATROL_HOURS` (R439). -/
def O.thermosPatrolHours : Nat := 0x360010
/-- `MEADOW_ECC_CORR` (R439). -/
def O.meadowEccCorr (i : Nat) : Nat := 0x620030 + i
/-- `MEADOW_ECC_UNCORR` (R439). -/
def O.meadowEccUncorr (i : Nat) : Nat := 0x620034 + i
/-- `THERMOS_CE` (R439). -/
def O.thermosCe (i : Nat) : Nat := 0x630010 + i
/-- `THERMOS_UE` (R439). -/
def O.thermosUe (i : Nat) : Nat := 0x630018 + i
/-- `LOG_USED` (R439). -/
def O.logUsed : Nat := 0x701001
/-- `LOG_OVERFLOW` (R439). -/
def O.logOverflow : Nat := 0x701002
/-- `LOG_DROPPED` (R439). -/
def O.logDropped : Nat := 0x701003
/-- `LOG_SLOTS` (R439). -/
def O.logSlots : Nat := 0x701004
/-- `LOG_HISTORY` (R439). -/
def O.logHistory : Nat := 0x701005
/-- `FENCE_LEVEL` (R439). -/
def O.fenceLevel : Nat := 0x701006
/-- `FW_SRAM_ECC_COUNTS` (R439). -/
def O.fwSramEccCounts : Nat := 0x701007
/-- `POWER_LIMIT_W` (R459). -/
def O.powerLimitW : Nat := 0x2A0001
/-- `THROTTLE_FORCE` (R459). -/
def O.throttleForce : Nat := 0x2A0002
/-- `TEMP_THROTTLE_C` (R459). -/
def O.tempThrottleC : Nat := 0x2A0003
/-- `HBM_THROTTLE_C` (R459). -/
def O.hbmThrottleC : Nat := 0x440010
/-- `THROTTLE_STEP_DOWN_MS` (R459). -/
def O.throttleStepDownMs : Nat := 0x440011
/-- `EMERG_SHUTDOWN_MS` (R459). -/
def O.emergShutdownMs : Nat := 0x440012
/-- `POWER_STATE` (R459). -/
def O.powerState : Nat := 0x6A0001
/-- `THROTTLE_CAUSES` (R459). -/
def O.throttleCauses : Nat := 0x6A0002
/-- `EMERGENCY_CAUSES` (R459). -/
def O.emergencyCauses : Nat := 0x6A0003
/-- `SHUTDOWN_CAUSE` (R459). -/
def O.shutdownCause : Nat := 0x6A0004
/-- `QUIET_S` (R459). -/
def O.quietS : Nat := 0x6A0005
/-- `THROTTLE_TIME_PS` (R459). -/
def O.throttleTimePs : Nat := 0x6A0006
/-- `MAIN_VOLTAGE_MV` (R459). -/
def O.mainVoltageMv : Nat := 0x6A0007
/-- `MAIN_CURRENT_MA` (R459). -/
def O.mainCurrentMa : Nat := 0x6A0008
/-- `MAIN_POWER_MW` (R459). -/
def O.mainPowerMw : Nat := 0x6A0009
/-- `AUX_POWER_MW` (R459). -/
def O.auxPowerMw : Nat := 0x6A000A
/-- `ENERGY_MJ` (R459). -/
def O.energyMj : Nat := 0x6A000B
/-- `PEAK_POWER_MW` (R459). -/
def O.peakPowerMw : Nat := 0x6A000C
/-- `COOLANT_FLOW_ML_MIN` (R459). -/
def O.coolantFlowMlMin : Nat := 0x6A000D
/-- `TEMP` (R459). -/
def O.temp (i : Nat) : Nat := 0x6A0010 + i
/-- `IMG_STATE` (R481). -/
def O.imgState : Nat := 0x800001
/-- `IMG_OTHER_VERSION` (R481). -/
def O.imgOtherVersion : Nat := 0x800002
/-- `IMG_MGMT_SVN_MIN` (R481). -/
def O.imgMgmtSvnMin : Nat := 0x800003
/-- `IMG_RT_SVN_MIN` (R481). -/
def O.imgRtSvnMin : Nat := 0x800004
/-- `IMG_KEYS_REVOKED` (R481). -/
def O.imgKeysRevoked : Nat := 0x800005
/-- `IMG_CAL_FORMAT` (R481). -/
def O.imgCalFormat : Nat := 0x800006
/-- `IMG_STAGE_BEGIN` (R481). -/
def O.imgStageBegin : Nat := 0x800010
/-- `IMG_STAGE_ID` (R481). -/
def O.imgStageId : Nat := 0x800011
/-- `IMG_STAGE_BITMAP` (R481). -/
def O.imgStageBitmap : Nat := 0x800012
/-- `IMG_PIECE_NUM` (R481). -/
def O.imgPieceNum : Nat := 0x800013
/-- `IMG_PIECE_CRC` (R481). -/
def O.imgPieceCrc : Nat := 0x800014
/-- `IMG_PIECE_DATA` (R481). -/
def O.imgPieceData : Nat := 0x800015
/-- `IMG_STAGE_ABORT` (R481). -/
def O.imgStageAbort : Nat := 0x800016
/-- `IMG_PIECES_DURABLE` (R481). -/
def O.imgPiecesDurable : Nat := 0x800017
/-- `IMG_VERIFY` (R481). -/
def O.imgVerify : Nat := 0x800020
/-- `IMG_ACTIVATE` (R481). -/
def O.imgActivate : Nat := 0x800021
/-- `IMG_CONFIRM` (R481). -/
def O.imgConfirm : Nat := 0x800022
/-- `IMG_FALLBACK` (R481). -/
def O.imgFallback : Nat := 0x800023
/-- `IMG_TRIAL_LEFT_S` (R481). -/
def O.imgTrialLeftS : Nat := 0x800024
/-- `IMG_CARD_SCAN` (R481). -/
def O.imgCardScan : Nat := 0x800030
/-- `IMG_CARD_STATE` (R481). -/
def O.imgCardState : Nat := 0x800031

def objRows0 : List ObjDef := [
  ⟨0x100000, [], .u8, .const, .l, 0xC, .any⟩,
  ⟨0x100001, [], .str, .const, .l, 0, .any⟩,
  ⟨0x100002, [], .str, .const, .l, 0, .any⟩,
  ⟨0x100003, [], .str, .const, .l, 0, .any⟩,
  ⟨0x100004, [], .u16, .const, .l, 0x100, .any⟩,
  ⟨0x100005, [], .str, .const, .l, 0, .any⟩,
  ⟨0x100006, [], .u32, .const, .l, 0, .any⟩,
  ⟨0x100007, [], .u32, .ro, .l, 0, .any⟩,
  ⟨0x100008, [], .u32, .ro, .l, 0, .any⟩,
  ⟨0x100009, [], .u32, .ro, .l, 0, .any⟩,
  ⟨0x10000A, [], .u32, .ro, .l, 0, .any⟩,
  ⟨0x10000B, [], .u32, .ro, .l, 0, .any⟩,
  ⟨0x10000C, [], .u16, .const, .l, 0x1FFE, .any⟩,
  ⟨0x210020, [], .blob, .ro, .l, 0, .any⟩,
  ⟨0x210021, [], .u8, .ro, .l, 0, .any⟩,
  ⟨0x320020, [], .u8, .rw, .i, 0, .nat 0 15⟩,
  ⟨0x320021, [], .u8, .wo, .i, 0, .nat 1 15⟩,
  ⟨0x2C0030, [(8, 1)], .u64, .rw, .i, 0, .any⟩,
  ⟨0x220010, [(8, 1)], .u16, .rw, .i, 0x200, .nat 0 1536⟩,
  ⟨0x340010, [(8, 1)], .u8, .rw, .b, 4, .nat 0 8⟩,
  ⟨0x340018, [(8, 1)], .bool, .rw, .b, 0, .nat 0 1⟩,
  ⟨0x340020, [(8, 1)], .u8, .rw, .i, 0xFF, .nat 0 255⟩,
  ⟨0x620010, [(8, 1)], .u8, .ro, .l, 0, .any⟩,
  ⟨0x620018, [(8, 1)], .u64, .ro, .l, 0, .any⟩,
  ⟨0x620020, [(8, 1)], .u32, .ro, .l, 0, .any⟩]

def objRows1 : List ObjDef := [
  ⟨0x280010, [(8, 1)], .bool, .rw, .b, 1, .nat 0 1⟩,
  ⟨0x280018, [(8, 1)], .f32, .rw, .b, 0x3F733333, .f32 0x0 0x3F7FF972⟩,
  ⟨0x280020, [(8, 1)], .u8, .rw, .b, 0xC, .nat 1 64⟩,
  ⟨0x280028, [(8, 1)], .u8, .rw, .b, 8, .nat 1 254⟩,
  ⟨0x280030, [(8, 1)], .f32, .rw, .b, 0x358637BD, .f32 0x33D6BF95 0x3C23D70A⟩,
  ⟨0x400010, [(8, 1)], .f32, .rw, .b, 0x38D1B717, .f32 0x0 0x3DCCCCCD⟩,
  ⟨0x400018, [(8, 1)], .f32, .rw, .b, 0x33D6BF95, .f32 0x2B8CBCCC 0x3C23D70A⟩,
  ⟨0x400020, [(8, 1)], .f32, .rw, .b, 0x3C23D70A, .f32 0 0x3F000000⟩,
  ⟨0x400028, [(8, 1)], .u64, .rw, .i, 0, .any⟩,
  ⟨0x400030, [(8, 1)], .bool, .wo, .b, 0, .nat 1 1⟩,
  ⟨0x680010, [(8, 1)], .u16, .ro, .l, 0, .any⟩,
  ⟨0x680018, [(8, 1)], .u64, .ro, .l, 0, .any⟩,
  ⟨0x680020, [(4, 1)], .u8, .ro, .l, 0, .any⟩,
  ⟨0x680028, [(8, 1)], .u64, .ro, .l, 0, .any⟩,
  ⟨0x290010, [(8, 1)], .f32, .rw, .s, 0x3F666666, .f32 0x0 0x3F7FF972⟩,
  ⟨0x290018, [(8, 1)], .f32, .rw, .s, 0x3F7D70A4, .f32 0x0 0x3F7FF972⟩,
  ⟨0x290020, [(8, 1)], .f32, .rw, .s, 0, .f32 0x0 0x3F800000⟩,
  ⟨0x290028, [(8, 1)], .u16, .rw, .s, 0x9D49, .nat 0 65535⟩,
  ⟨0x290030, [(8, 1)], .i32, .rw, .s, 0xFFFFFFE5, .int (-60) (-1)⟩,
  ⟨0x290038, [(8, 1)], .u32, .rw, .s, 0x7D0, .any⟩,
  ⟨0x290040, [(8, 1)], .u8, .rw, .s, 1, .nat 0 3⟩,
  ⟨0x290048, [(8, 1)], .u32, .rw, .s, 0x186A0, .nat 1 0xFFFFFFFF⟩,
  ⟨0x290050, [(8, 1)], .u32, .rw, .s, 0, .nat 0 2147483648⟩,
  ⟨0x290058, [(8, 1)], .u16, .rw, .s, 0x40, .nat 0 65535⟩,
  ⟨0x290060, [(8, 1)], .u64, .wo, .l, 0, .any⟩]

def objRows2 : List ObjDef := [
  ⟨0x420010, [(8, 1)], .bool, .rw, .s, 0, .nat 0 1⟩,
  ⟨0x420018, [(8, 1)], .u8, .rw, .s, 1, .nat 1 8⟩,
  ⟨0x420020, [(8, 1)], .u8, .rw, .b, 3, .nat 1 255⟩,
  ⟨0x420028, [(8, 1)], .u64, .rw, .i, 0, .any⟩,
  ⟨0x420030, [(8, 1)], .u64, .wo, .i, 0, .any⟩,
  ⟨0x420040, [], .blob, .const, .l, 0, .any⟩,
  ⟨0x690010, [(8, 1)], .u64, .ro, .l, 0, .any⟩,
  ⟨0x690018, [(8, 1)], .u64, .ro, .l, 0, .any⟩,
  ⟨0x690020, [(8, 1)], .u64, .ro, .l, 0, .any⟩,
  ⟨0x690028, [(8, 1)], .u64, .ro, .l, 0, .any⟩,
  ⟨0x690030, [(8, 1)], .f32, .ro, .l, 0, .any⟩,
  ⟨0x690038, [(8, 1)], .u64, .ro, .l, 0, .any⟩,
  ⟨0x6C0010, [(8, 1)], .u64, .ro, .l, 0, .any⟩,
  ⟨0x6C1001, [(8, 256), (16, 1)], .u64, .ro, .l, 0, .any⟩,
  ⟨0x6C1801, [(8, 256), (16, 1)], .u64, .ro, .l, 0, .any⟩,
  ⟨0x240001, [], .u32, .rw, .i, 0, .any⟩,
  ⟨0x240002, [(4, 1)], .u32, .rw, .l, 0, .any⟩,
  ⟨0x240006, [], .u8, .wo, .l, 0, .nat 1 15⟩,
  ⟨0x240007, [], .u8, .wo, .l, 0, .nat 1 15⟩,
  ⟨0x240008, [], .u8, .wo, .l, 0, .any⟩,
  ⟨0x240009, [], .u32, .ro, .l, 0, .any⟩,
  ⟨0x24000A, [], .u8, .rw, .l, 0, .any⟩,
  ⟨0x380010, [(8, 1)], .bool, .rw, .l, 1, .nat 0 1⟩,
  ⟨0x380018, [(8, 1)], .bool, .rw, .i, 1, .nat 0 1⟩,
  ⟨0x380020, [(8, 1)], .blob, .rw, .i, 0, .any⟩]

def objRows3 : List ObjDef := [
  ⟨0x380028, [], .u16, .rw, .l, 0x7D0, .nat 500 20000⟩,
  ⟨0x380029, [], .f32, .rw, .l, 0x3727C5AC, .f32 0x322BCC77 0x3A83126F⟩,
  ⟨0x38002A, [], .bool, .wo, .l, 0, .nat 1 1⟩,
  ⟨0x640010, [(8, 1)], .u16, .ro, .l, 0, .any⟩,
  ⟨0x640018, [(8, 1)], .u32, .ro, .l, 0, .any⟩,
  ⟨0x640020, [(8, 1)], .blob, .ro, .l, 0, .any⟩,
  ⟨0x240020, [(8, 1)], .u32, .rw, .b, 0, .any⟩,
  ⟨0x240028, [(8, 1)], .u32, .rw, .b, 0, .any⟩,
  ⟨0x240030, [(8, 1)], .u32, .rw, .l, 0x186A0, .nat 1000 159000⟩,
  ⟨0x240038, [(8, 1)], .u64, .rw, .i, 0, .nat 100000000 1000000000000⟩,
  ⟨0x240040, [(8, 1)], .u64, .rw, .i, 0, .any⟩,
  ⟨0x240048, [(8, 1)], .u64, .rw, .i, 0, .any⟩,
  ⟨0x240050, [(8, 1)], .u64, .rw, .i, 0, .any⟩,
  ⟨0x240058, [(8, 1)], .bool, .rw, .l, 0, .nat 0 1⟩,
  ⟨0x240060, [(8, 1)], .u64, .rw, .l, 0, .any⟩,
  ⟨0x240068, [(8, 1)], .u64, .rw, .l, 0, .any⟩,
  ⟨0x380030, [], .u16, .rw, .l, 0x3E8, .nat 100 60000⟩,
  ⟨0x380038, [(8, 1)], .blob, .rw, .s, 0, .any⟩,
  ⟨0x380040, [(8, 1)], .u64, .wo, .l, 0, .any⟩,
  ⟨0x250001, [], .bool, .rw, .i, 0, .nat 0 1⟩,
  ⟨0x250002, [], .u32, .rw, .i, 0, .nat 0 0x1FFFF⟩,
  ⟨0x250003, [], .u64, .rw, .i, 0xE8D4A51000, .nat 1000000 1000000000000000⟩,
  ⟨0x250004, [], .bool, .rw, .i, 0, .nat 0 1⟩,
  ⟨0x250005, [], .bool, .rw, .l, 0, .nat 0 1⟩,
  ⟨0x250006, [], .u64, .wo, .i, 0, .any⟩]

def objRows4 : List ObjDef := [
  ⟨0x3A0010, [], .u16, .rw, .l, 0x64, .nat 10 1000⟩,
  ⟨0x3A0011, [], .u16, .rw, .l, 0x14, .nat 1 1000⟩,
  ⟨0x3A0018, [(8, 1)], .i32, .rw, .l, 0, .int (-10000) 10000⟩,
  ⟨0x640030, [(8, 1)], .u64, .ro, .l, 0, .any⟩,
  ⟨0x640038, [], .u64, .ro, .l, 0, .any⟩,
  ⟨0x640039, [], .u64, .ro, .l, 0, .any⟩,
  ⟨0x640040, [(8, 1)], .u32, .ro, .l, 0, .any⟩,
  ⟨0x650001, [], .u64, .ro, .l, 0, .any⟩,
  ⟨0x650002, [], .u32, .ro, .l, 0, .any⟩,
  ⟨0x650003, [], .i64, .ro, .l, 0, .any⟩,
  ⟨0x650010, [(8, 1)], .u64, .ro, .l, 0, .any⟩,
  ⟨0x260001, [], .u64, .rw, .l, 0, .any⟩,
  ⟨0x260002, [], .u8, .rw, .l, 1, .nat 0 16⟩,
  ⟨0x3C0010, [], .u8, .rw, .i, 0x10, .nat 1 16⟩,
  ⟨0x3C0011, [], .u16, .rw, .i, 0x1000, .nat 128 4096⟩,
  ⟨0x660001, [], .u32, .ro, .l, 0, .any⟩,
  ⟨0x660002, [], .u64, .ro, .l, 0, .any⟩,
  ⟨0x660003, [], .u64, .ro, .l, 0, .any⟩,
  ⟨0x6C2010, [(8, 1)], .u64, .ro, .l, 0, .any⟩,
  ⟨0x6C2018, [(8, 1)], .u64, .ro, .l, 0, .any⟩,
  ⟨0x6C2020, [(8, 1)], .u64, .ro, .l, 0, .any⟩,
  ⟨0x270001, [], .bool, .rw, .l, 0, .nat 0 1⟩,
  ⟨0x270002, [], .bool, .rw, .l, 1, .nat 0 1⟩,
  ⟨0x3E0010, [(6, 1)], .u16, .rw, .l, 0x32, .nat 1 1000⟩,
  ⟨0x3E0018, [(6, 1)], .bool, .rw, .l, 1, .nat 0 1⟩]

def objRows5 : List ObjDef := [
  ⟨0x3E0020, [], .bool, .rw, .l, 1, .nat 0 1⟩,
  ⟨0x3E0021, [], .u16, .rw, .l, 0x2710, .nat 100 10000⟩,
  ⟨0x3E0028, [(6, 1)], .bool, .rw, .i, 0, .nat 0 1⟩,
  ⟨0x670010, [(6, 1)], .u32, .ro, .l, 0, .any⟩,
  ⟨0x670018, [(6, 1)], .u64, .ro, .l, 0, .any⟩,
  ⟨0x670020, [], .u32, .ro, .l, 0, .any⟩,
  ⟨0x670021, [], .u64, .ro, .l, 0, .any⟩,
  ⟨0x670022, [], .u32, .ro, .l, 0, .any⟩,
  ⟨0x100101, [], .u32, .ro, .l, 0, .any⟩,
  ⟨0x100102, [], .u64, .ro, .l, 0, .any⟩,
  ⟨0x100103, [], .u8, .ro, .l, 0, .any⟩,
  ⟨0x100104, [], .u8, .ro, .l, 0, .any⟩,
  ⟨0x100105, [], .u8, .ro, .l, 0, .any⟩,
  ⟨0x100201, [], .u8, .rw, .l, 0, .nat 0 1⟩,
  ⟨0x100202, [], .bool, .ro, .l, 0, .any⟩,
  ⟨0x100203, [], .u8, .ro, .l, 0, .any⟩,
  ⟨0x100204, [], .u16, .rw, .l, 0x258, .nat 10 3600⟩,
  ⟨0x100205, [], .u16, .ro, .l, 3, .any⟩,
  ⟨0x100301, [], .u64, .const, .l, 0, .any⟩,
  ⟨0x100302, [], .u8, .ro, .l, 0, .any⟩,
  ⟨0x100303, [], .bool, .rw, .l, 1, .nat 0 1⟩,
  ⟨0x100304, [], .u8, .rw, .l, 8, .nat 1 8⟩,
  ⟨0x100305, [], .u8, .rw, .l, 0x20, .nat 2 255⟩,
  ⟨0x100306, [], .u8, .rw, .l, 0, .nat 0 255⟩,
  ⟨0x100307, [], .u8, .rw, .l, 0x80, .nat 0 255⟩]

def objRows6 : List ObjDef := [
  ⟨0x100308, [], .u8, .ro, .l, 0, .any⟩,
  ⟨0x100309, [], .u64, .ro, .l, 0, .any⟩,
  ⟨0x10030A, [], .u64, .ro, .l, 0, .any⟩,
  ⟨0x10030B, [], .u64, .ro, .l, 0, .any⟩,
  ⟨0x10030C, [], .u64, .ro, .l, 0, .any⟩,
  ⟨0x100401, [], .u32, .rw, .l, 0, .any⟩,
  ⟨0x100402, [], .u16, .ro, .l, 0x1FFE, .any⟩,
  ⟨0x100403, [], .u16, .ro, .l, 0, .any⟩,
  ⟨0x700001, [], .u64, .rw, .l, 0, .any⟩,
  ⟨0x700002, [], .u8, .rw, .l, 4, .nat 0 5⟩,
  ⟨0x700003, [], .u16, .rw, .l, 0x1FFE, .any⟩,
  ⟨0x700004, [], .u32, .ro, .l, 0, .any⟩,
  ⟨0x700005, [], .u32, .ro, .l, 0, .any⟩,
  ⟨0x2A0040, [], .u16, .wo, .l, 0, .any⟩,
  ⟨0x2A0041, [], .u8, .rw, .l, 0, .any⟩,
  ⟨0x2A0042, [], .bool, .wo, .l, 0, .nat 1 1⟩,
  ⟨0x240070, [], .u32, .rw, .i, 0, .nat 0 0x1FFFF⟩,
  ⟨0x440040, [], .u32, .rw, .l, 0x7D0, .nat 100 100000⟩,
  ⟨0x6A0040, [], .u32, .ro, .l, 0, .any⟩,
  ⟨0x6A0041, [], .u64, .ro, .l, 0, .any⟩,
  ⟨0x6A0042, [], .u8, .ro, .l, 0, .any⟩,
  ⟨0x230001, [], .bool, .rw, .l, 1, .nat 0 1⟩,
  ⟨0x360010, [], .u8, .rw, .l, 8, .nat 1 168⟩,
  ⟨0x620030, [(4, 1)], .u64, .ro, .l, 0, .any⟩,
  ⟨0x620034, [(4, 1)], .u64, .ro, .l, 0, .any⟩]

def objRows7 : List ObjDef := [
  ⟨0x630010, [(8, 1)], .u64, .ro, .l, 0, .any⟩,
  ⟨0x630018, [(8, 1)], .u64, .ro, .l, 0, .any⟩,
  ⟨0x701001, [], .u16, .ro, .l, 0, .any⟩,
  ⟨0x701002, [], .bool, .rw, .l, 0, .nat 0 0⟩,
  ⟨0x701003, [], .u64, .ro, .l, 0, .any⟩,
  ⟨0x701004, [], .blob, .ro, .l, 0, .any⟩,
  ⟨0x701005, [], .blob, .ro, .l, 0, .any⟩,
  ⟨0x701006, [], .u8, .rw, .l, 0, .nat 0 2⟩,
  ⟨0x701007, [], .u64, .ro, .l, 0, .any⟩,
  ⟨0x2A0001, [], .u16, .rw, .l, 0x708, .nat 800 1800⟩,
  ⟨0x2A0002, [], .u8, .rw, .l, 0, .nat 0 3⟩,
  ⟨0x2A0003, [], .u8, .rw, .l, 0x5F, .nat 70 100⟩,
  ⟨0x440010, [], .u8, .rw, .l, 0x55, .nat 60 90⟩,
  ⟨0x440011, [], .u16, .rw, .l, 0xA, .nat 1 1000⟩,
  ⟨0x440012, [], .u16, .rw, .l, 0x7D0, .nat 100 10000⟩,
  ⟨0x6A0001, [], .u32, .ro, .l, 0, .any⟩,
  ⟨0x6A0002, [], .u16, .ro, .l, 0, .any⟩,
  ⟨0x6A0003, [], .u16, .ro, .l, 0, .any⟩,
  ⟨0x6A0004, [], .u32, .ro, .l, 0, .any⟩,
  ⟨0x6A0005, [], .u32, .ro, .l, 0, .any⟩,
  ⟨0x6A0006, [], .u64, .ro, .l, 0, .any⟩,
  ⟨0x6A0007, [], .u16, .ro, .l, 0, .any⟩,
  ⟨0x6A0008, [], .u32, .ro, .l, 0, .any⟩,
  ⟨0x6A0009, [], .u32, .ro, .l, 0, .any⟩,
  ⟨0x6A000A, [], .u32, .ro, .l, 0, .any⟩]

def objRows8 : List ObjDef := [
  ⟨0x6A000B, [], .u64, .ro, .l, 0, .any⟩,
  ⟨0x6A000C, [], .u32, .ro, .l, 0, .any⟩,
  ⟨0x6A000D, [], .u16, .ro, .l, 0, .any⟩,
  ⟨0x6A0010, [(18, 1)], .i32, .ro, .l, 0, .any⟩,
  ⟨0x800001, [], .u32, .ro, .l, 0, .any⟩,
  ⟨0x800002, [], .u32, .ro, .l, 0, .any⟩,
  ⟨0x800003, [], .u8, .ro, .l, 0, .any⟩,
  ⟨0x800004, [], .u8, .ro, .l, 0, .any⟩,
  ⟨0x800005, [], .u8, .ro, .l, 0, .any⟩,
  ⟨0x800006, [], .u16, .ro, .l, 0, .any⟩,
  ⟨0x800010, [], .u64, .wo, .l, 0, .any⟩,
  ⟨0x800011, [], .u64, .ro, .l, 0, .any⟩,
  ⟨0x800012, [], .blob, .ro, .l, 0, .any⟩,
  ⟨0x800013, [], .u64, .wo, .l, 0, .any⟩,
  ⟨0x800014, [], .u32, .wo, .l, 0, .any⟩,
  ⟨0x800015, [], .blob, .wo, .l, 0, .any⟩,
  ⟨0x800016, [], .bool, .wo, .l, 0, .nat 1 1⟩,
  ⟨0x800017, [], .u16, .ro, .l, 0, .any⟩,
  ⟨0x800020, [], .bool, .wo, .l, 0, .nat 1 1⟩,
  ⟨0x800021, [], .bool, .wo, .l, 0, .nat 1 1⟩,
  ⟨0x800022, [], .bool, .wo, .l, 0, .nat 1 1⟩,
  ⟨0x800023, [], .bool, .wo, .l, 0, .nat 1 1⟩,
  ⟨0x800024, [], .u16, .ro, .l, 0, .any⟩,
  ⟨0x800030, [], .bool, .wo, .l, 0, .nat 1 1⟩,
  ⟨0x800031, [], .u8, .ro, .l, 0, .any⟩]

/-- Every object of the dictionary. -/
def objRows : List ObjDef :=
  objRows0 ++ objRows1 ++ objRows2 ++ objRows3 ++ objRows4 ++ objRows5 ++ objRows6 ++ objRows7 ++ objRows8

def objDimsMatch : List (Nat × Nat) → Nat → Bool
  | [], d => d == 0
  | (count, stride) :: rest, d => d / stride < count && objDimsMatch rest (d % stride)

/-- The row an object key belongs to, if any. -/
def objDefOf (k : Nat) : Option ObjDef :=
  objRows.find? fun r => r.base ≤ k && objDimsMatch r.dims (k - r.base)

/-- The default of a numeric object, 0 for keys that name none. -/
def objDefault (k : Nat) : Nat :=
  match objDefOf k with
  | some d => d.dflt
  | none => 0

end Sys2Proof.Machine
end

