-- ==== Sys2Proof/Machine/Regs.lean ====
section
/-! DEFINITION. Every register of the module: its address (key), fields, write masks and reset value (R12, R32, R60, R65 and the
register tables of the chapters). Keys at or above 0x200_0000_0000 are BAR0 offsets (R319), which lie outside the local map. -/

namespace Sys2Proof.Machine

/-- A field of a register: the key of the register, the lowest bit and the width. -/
structure Fld where
  reg : Nat
  lo : Nat
  width : Nat
  deriving DecidableEq, Repr

/-- One row of a register table: instances by count and stride per index, the bits a plain write stores, the bits a write
of 1 clears, and whether reads give 0 (a write-only register). -/
structure RegSpec where
  base : Nat
  dims : List (Nat × Nat)
  rw : BitVec 64
  w1c : BitVec 64
  deriving DecidableEq, Repr

/-- `THREAD_CTL[n]` (R32). -/
def R.threadCtl (t n : Nat) : Nat := 0x100000000 + 0x10000 * t + 0x80 * n
def F.threadCtl.start (t n : Nat) : Fld := ⟨(R.threadCtl t n), 0, 1⟩
def F.threadCtl.stop (t n : Nat) : Fld := ⟨(R.threadCtl t n), 1, 1⟩
def F.threadCtl.ctx (t n : Nat) : Fld := ⟨(R.threadCtl t n), 4, 3⟩
def F.threadCtl.prio (t n : Nat) : Fld := ⟨(R.threadCtl t n), 8, 2⟩
def F.threadCtl.exitObj (t n : Nat) : Fld := ⟨(R.threadCtl t n), 16, 6⟩
def F.threadCtl.exitEn (t n : Nat) : Fld := ⟨(R.threadCtl t n), 22, 1⟩
/-- `THREAD_PC[n]` (R32). -/
def R.threadPc (t n : Nat) : Nat := 0x100000008 + 0x10000 * t + 0x80 * n
def F.threadPc.val (t n : Nat) : Fld := ⟨(R.threadPc t n), 4, 60⟩
/-- `THREAD_STATUS[n]` (R32). -/
def R.threadStatus (t n : Nat) : Nat := 0x100000010 + 0x10000 * t + 0x80 * n
def F.threadStatus.state (t n : Nat) : Fld := ⟨(R.threadStatus t n), 0, 3⟩
def F.threadStatus.outstanding (t n : Nat) : Fld := ⟨(R.threadStatus t n), 3, 4⟩
def F.threadStatus.callDepth (t n : Nat) : Fld := ⟨(R.threadStatus t n), 7, 3⟩
def F.threadStatus.loopDepth (t n : Nat) : Fld := ⟨(R.threadStatus t n), 10, 3⟩
def F.threadStatus.flagTmo (t n : Nat) : Fld := ⟨(R.threadStatus t n), 13, 1⟩
def F.threadStatus.flagNan (t n : Nat) : Fld := ⟨(R.threadStatus t n), 14, 1⟩
def F.threadStatus.flagRef (t n : Nat) : Fld := ⟨(R.threadStatus t n), 15, 1⟩
def F.threadStatus.flagUsr (t n : Nat) : Fld := ⟨(R.threadStatus t n), 16, 1⟩
def F.threadStatus.wrIgnored (t n : Nat) : Fld := ⟨(R.threadStatus t n), 17, 1⟩
/-- `THREAD_FAULT[n]` (R32). -/
def R.threadFault (t n : Nat) : Nat := 0x100000018 + 0x10000 * t + 0x80 * n
def F.threadFault.code (t n : Nat) : Fld := ⟨(R.threadFault t n), 0, 8⟩
def F.threadFault.opcode (t n : Nat) : Fld := ⟨(R.threadFault t n), 8, 6⟩
def F.threadFault.pc (t n : Nat) : Fld := ⟨(R.threadFault t n), 16, 40⟩
/-- `IX[n][k]` (R32). -/
def R.ix (t n k : Nat) : Nat := 0x100000040 + 0x10000 * t + 0x80 * n + 8 * k
def F.ix.val (t n k : Nat) : Fld := ⟨(R.ix t n k), 0, 64⟩
/-- `ARRAY_SAVE_BASE[c]` (R32). -/
def R.arraySaveBase (t c : Nat) : Nat := 0x100000800 + 0x10000 * t + 8 * c
def F.arraySaveBase.val (t c : Nat) : Fld := ⟨(R.arraySaveBase t c), 7, 57⟩
/-- `SYNC_OWNER[s]` (R32). -/
def R.syncOwner (t s : Nat) : Nat := 0x100000840 + 0x10000 * t + s * 1
def F.syncOwner.ctx (t s : Nat) : Fld := ⟨(R.syncOwner t s), 0, 3⟩
/-- `SYNC_COUNT[s]` (R43). -/
def R.syncCount (t s : Nat) : Nat := 0x100001000 + 0x10000 * t + 8 * s
def F.syncCount.val (t s : Nat) : Fld := ⟨(R.syncCount t s), 0, 64⟩
/-- `HAMPER_TILE[c]` (R136). -/
def R.hamperTile (t c : Nat) : Nat := 0x100006000 + 0x10000 * t + 0x20 * c
def F.hamperTile.resident (t c : Nat) : Fld := ⟨(R.hamperTile t c), 0, 7⟩
def F.hamperTile.free (t c : Nat) : Fld := ⟨(R.hamperTile t c), 7, 7⟩
def F.hamperTile.entries (t c : Nat) : Fld := ⟨(R.hamperTile t c), 14, 10⟩
def F.hamperTile.spilledNow (t c : Nat) : Fld := ⟨(R.hamperTile t c), 32, 16⟩
/-- `HAMPER_FAULT[c]` (R136). -/
def R.hamperFault (t c : Nat) : Nat := 0x100006008 + 0x10000 * t + 0x20 * c
def F.hamperFault.sub (t c : Nat) : Fld := ⟨(R.hamperFault t c), 0, 4⟩
def F.hamperFault.thread (t c : Nat) : Fld := ⟨(R.hamperFault t c), 4, 4⟩
/-- `MEADOW_ECC_CORR` (R433). -/
def R.meadowEccCorr (t : Nat) : Nat := 0x100007000 + 0x10000 * t
def F.meadowEccCorr.val (t : Nat) : Fld := ⟨(R.meadowEccCorr t), 0, 64⟩
/-- `MEADOW_ECC_UNCORR` (R433). -/
def R.meadowEccUncorr (t : Nat) : Nat := 0x100007008 + 0x10000 * t
def F.meadowEccUncorr.val (t : Nat) : Fld := ⟨(R.meadowEccUncorr t), 0, 64⟩
/-- `MEADOW_LAST_UE` (R433). -/
def R.meadowLastUe (t : Nat) : Nat := 0x100007010 + 0x10000 * t
def F.meadowLastUe.offset (t : Nat) : Fld := ⟨(R.meadowLastUe t), 0, 23⟩
def F.meadowLastUe.valid (t : Nat) : Fld := ⟨(R.meadowLastUe t), 23, 1⟩
/-- `SEG[i] [63:0]` (R71). -/
def R.segLo (c i : Nat) : Nat := 0x307000000 + 0x10000 * c + 0x10 * i
def F.segLo.vbase (c i : Nat) : Fld := ⟨(R.segLo c i), 16, 24⟩
def F.segLo.size (c i : Nat) : Fld := ⟨(R.segLo c i), 40, 24⟩
/-- `SEG[i] [127:64]` (R71). -/
def R.segHi (c i : Nat) : Nat := 0x307000008 + 0x10000 * c + 0x10 * i
def F.segHi.pbase (c i : Nat) : Fld := ⟨(R.segHi c i), 16, 24⟩
def F.segHi.v (c i : Nat) : Fld := ⟨(R.segHi c i), 48, 1⟩
def F.segHi.r (c i : Nat) : Fld := ⟨(R.segHi c i), 49, 1⟩
def F.segHi.w (c i : Nat) : Fld := ⟨(R.segHi c i), 50, 1⟩
def F.segHi.x (c i : Nat) : Fld := ⟨(R.segHi c i), 51, 1⟩
def F.segHi.s (c i : Nat) : Fld := ⟨(R.segHi c i), 52, 1⟩
def F.segHi.e (c i : Nat) : Fld := ⟨(R.segHi c i), 53, 1⟩
/-- `CTX_JOB_TAG` (R71). -/
def R.ctxJobTag (c : Nat) : Nat := 0x307000400 + 0x10000 * c
def F.ctxJobTag.tag (c : Nat) : Fld := ⟨(R.ctxJobTag c), 0, 16⟩
/-- `SEG_STATUS` (R71). -/
def R.segStatus (c : Nat) : Nat := 0x307000408 + 0x10000 * c
def F.segStatus.refIndex (c : Nat) : Fld := ⟨(R.segStatus c), 0, 6⟩
def F.segStatus.refused (c : Nat) : Fld := ⟨(R.segStatus c), 6, 1⟩
def F.segStatus.refReason (c : Nat) : Fld := ⟨(R.segStatus c), 7, 3⟩
/-- `SEG_FAULT_ADDR` (R71). -/
def R.segFaultAddr (c : Nat) : Nat := 0x307000410 + 0x10000 * c
def F.segFaultAddr.val (c : Nat) : Fld := ⟨(R.segFaultAddr c), 0, 64⟩
/-- `SEG_FAULT_INFO` (R71). -/
def R.segFaultInfo (c : Nat) : Nat := 0x307000418 + 0x10000 * c
def F.segFaultInfo.index (c : Nat) : Fld := ⟨(R.segFaultInfo c), 0, 6⟩
def F.segFaultInfo.miss (c : Nat) : Fld := ⟨(R.segFaultInfo c), 6, 1⟩
def F.segFaultInfo.need (c : Nat) : Fld := ⟨(R.segFaultInfo c), 7, 4⟩
def F.segFaultInfo.format (c : Nat) : Fld := ⟨(R.segFaultInfo c), 11, 1⟩
def F.segFaultInfo.ctrl (c : Nat) : Fld := ⟨(R.segFaultInfo c), 12, 1⟩
def F.segFaultInfo.notObj (c : Nat) : Fld := ⟨(R.segFaultInfo c), 13, 1⟩
/-- `REMOTE_REJECTS` (R71). -/
def R.remoteRejects (c : Nat) : Nat := 0x307000420 + 0x10000 * c
def F.remoteRejects.val (c : Nat) : Fld := ⟨(R.remoteRejects c), 0, 64⟩
/-- `HAMPER_CFG` (R134). -/
def R.hamperCfg (c : Nat) : Nat := 0x307000800 + 0x10000 * c
def F.hamperCfg.sliceGranules (c : Nat) : Fld := ⟨(R.hamperCfg c), 0, 7⟩
def F.hamperCfg.sliceBase (c : Nat) : Fld := ⟨(R.hamperCfg c), 8, 7⟩
def F.hamperCfg.prefetch (c : Nat) : Fld := ⟨(R.hamperCfg c), 16, 4⟩
def F.hamperCfg.spillRaw (c : Nat) : Fld := ⟨(R.hamperCfg c), 20, 1⟩
/-- `HAMPER_SPILL_BASE` (R134). -/
def R.hamperSpillBase (c : Nat) : Nat := 0x307000808 + 0x10000 * c
def F.hamperSpillBase.base (c : Nat) : Fld := ⟨(R.hamperSpillBase c), 16, 24⟩
def F.hamperSpillBase.slots (c : Nat) : Fld := ⟨(R.hamperSpillBase c), 40, 24⟩
/-- `HAMPER_CTL` (R134). -/
def R.hamperCtl (c : Nat) : Nat := 0x307000810 + 0x10000 * c
def F.hamperCtl.discard (c : Nat) : Fld := ⟨(R.hamperCtl c), 0, 1⟩
/-- `HAMPER_STATUS` (R134). -/
def R.hamperStatus (c : Nat) : Nat := 0x307000818 + 0x10000 * c
def F.hamperStatus.discardBusy (c : Nat) : Fld := ⟨(R.hamperStatus c), 0, 1⟩
def F.hamperStatus.cfgIgnored (c : Nat) : Fld := ⟨(R.hamperStatus c), 1, 1⟩
def F.hamperStatus.cfgRefused (c : Nat) : Fld := ⟨(R.hamperStatus c), 2, 1⟩
def F.hamperStatus.spillFull (c : Nat) : Fld := ⟨(R.hamperStatus c), 3, 1⟩
def F.hamperStatus.highWater (c : Nat) : Fld := ⟨(R.hamperStatus c), 4, 7⟩
def F.hamperStatus.slotsUsed (c : Nat) : Fld := ⟨(R.hamperStatus c), 32, 32⟩
/-- `HAMPER_LEFTOVER` (R134). -/
def R.hamperLeftover (c : Nat) : Nat := 0x307000820 + 0x10000 * c
def F.hamperLeftover.val (c : Nat) : Fld := ⟨(R.hamperLeftover c), 0, 64⟩
/-- `HAMPER_SPILLED` (R134). -/
def R.hamperSpilled (c : Nat) : Nat := 0x307000828 + 0x10000 * c
def F.hamperSpilled.val (c : Nat) : Fld := ⟨(R.hamperSpilled c), 0, 64⟩
/-- `CTX_CUTS` (R228). -/
def R.ctxCuts (c : Nat) : Nat := 0x307000900 + 0x10000 * c
def F.ctxCuts.xSize (c : Nat) : Fld := ⟨(R.ctxCuts c), 0, 6⟩
def F.ctxCuts.r (c : Nat) : Fld := ⟨(R.ctxCuts c), 6, 6⟩
def F.ctxCuts.ySize (c : Nat) : Fld := ⟨(R.ctxCuts c), 12, 5⟩
def F.ctxCuts.zSize (c : Nat) : Fld := ⟨(R.ctxCuts c), 17, 5⟩
def F.ctxCuts.wSize (c : Nat) : Fld := ⟨(R.ctxCuts c), 22, 5⟩
def F.ctxCuts.v (c : Nat) : Fld := ⟨(R.ctxCuts c), 27, 4⟩
def F.ctxCuts.zxFp8 (c : Nat) : Fld := ⟨(R.ctxCuts c), 31, 1⟩
def F.ctxCuts.m (c : Nat) : Fld := ⟨(R.ctxCuts c), 32, 12⟩
/-- `STAGE_STATUS` (R228). -/
def R.stageStatus (c : Nat) : Nat := 0x307000908 + 0x10000 * c
def F.stageStatus.cutsIgnored (c : Nat) : Fld := ⟨(R.stageStatus c), 0, 1⟩
def F.stageStatus.cutsBad (c : Nat) : Fld := ⟨(R.stageStatus c), 1, 1⟩
def F.stageStatus.badReason (c : Nat) : Fld := ⟨(R.stageStatus c), 2, 3⟩
def F.stageStatus.qRefused (c : Nat) : Fld := ⟨(R.stageStatus c), 5, 1⟩
def F.stageStatus.qRefIndex (c : Nat) : Fld := ⟨(R.stageStatus c), 6, 4⟩
/-- `Q_CFG[k]` (R228). -/
def R.qCfg (c k : Nat) : Nat := 0x307000940 + 0x10000 * c + 0x20 * k
def F.qCfg.obj (c k : Nat) : Fld := ⟨(R.qCfg c k), 0, 40⟩
def F.qCfg.depthM1 (c k : Nat) : Fld := ⟨(R.qCfg c k), 40, 4⟩
def F.qCfg.kind (c k : Nat) : Fld := ⟨(R.qCfg c k), 44, 1⟩
def F.qCfg.dir (c k : Nat) : Fld := ⟨(R.qCfg c k), 45, 1⟩
def F.qCfg.stage (c k : Nat) : Fld := ⟨(R.qCfg c k), 46, 7⟩
def F.qCfg.v (c k : Nat) : Fld := ⟨(R.qCfg c k), 63, 1⟩
/-- `Q_WAIT_PS[k]` (R228). -/
def R.qWaitPs (c k : Nat) : Nat := 0x307000948 + 0x10000 * c + 0x20 * k
def F.qWaitPs.val (c k : Nat) : Fld := ⟨(R.qWaitPs c k), 0, 64⟩
/-- `Q_WAITS[k]` (R228). -/
def R.qWaits (c k : Nat) : Nat := 0x307000950 + 0x10000 * c + 0x20 * k
def F.qWaits.val (c k : Nat) : Fld := ⟨(R.qWaits c k), 0, 64⟩
/-- `GEN_SLOT_BASE[j]` (R334). -/
def R.genSlotBase (c j : Nat) : Nat := 0x307000C00 + 0x10000 * c + 8 * j
def F.genSlotBase.val (c j : Nat) : Fld := ⟨(R.genSlotBase c j), 16, 24⟩
/-- `GEN_SLOT_SIZE` (R334). -/
def R.genSlotSize (c : Nat) : Nat := 0x307000C10 + 0x10000 * c
def F.genSlotSize.val (c : Nat) : Fld := ⟨(R.genSlotSize c), 0, 40⟩
/-- `GEN_CUR_OBJ` (R334). -/
def R.genCurObj (c : Nat) : Nat := 0x307000C18 + 0x10000 * c
def F.genCurObj.val (c : Nat) : Fld := ⟨(R.genCurObj c), 0, 40⟩
/-- `GEN_USE_OBJ[j]` (R334). -/
def R.genUseObj (c j : Nat) : Nat := 0x307000C20 + 0x10000 * c + 8 * j
def F.genUseObj.val (c j : Nat) : Fld := ⟨(R.genUseObj c j), 0, 40⟩
/-- `GEN_BATCH_OBJ` (R334). -/
def R.genBatchObj (c : Nat) : Nat := 0x307000C30 + 0x10000 * c
def F.genBatchObj.val (c : Nat) : Fld := ⟨(R.genBatchObj c), 0, 40⟩
/-- `GEN_STATUS` (R334). -/
def R.genStatus (c : Nat) : Nat := 0x307000C38 + 0x10000 * c
def F.genStatus.slot0 (c : Nat) : Fld := ⟨(R.genStatus c), 0, 3⟩
def F.genStatus.slot1 (c : Nat) : Fld := ⟨(R.genStatus c), 3, 3⟩
def F.genStatus.pending (c : Nat) : Fld := ⟨(R.genStatus c), 6, 1⟩
def F.genStatus.cur (c : Nat) : Fld := ⟨(R.genStatus c), 7, 1⟩
/-- `GEN_NUM[j]` (R334). -/
def R.genNum (c j : Nat) : Nat := 0x307000C40 + 0x10000 * c + 8 * j
def F.genNum.val (c j : Nat) : Fld := ⟨(R.genNum c j), 0, 64⟩
/-- `ROOT_CTL` (R169). -/
def R.rootCtl (e : Nat) : Nat := 0x200000000 + 0x1000000 * e
def F.rootCtl.enable (e : Nat) : Fld := ⟨(R.rootCtl e), 0, 1⟩
def F.rootCtl.drain (e : Nat) : Fld := ⟨(R.rootCtl e), 1, 1⟩
def F.rootCtl.abandon (e : Nat) : Fld := ⟨(R.rootCtl e), 2, 1⟩
def F.rootCtl.ctxSel (e : Nat) : Fld := ⟨(R.rootCtl e), 4, 3⟩
/-- `ROOT_STATUS` (R169). -/
def R.rootStatus (e : Nat) : Nat := 0x200000008 + 0x1000000 * e
def F.rootStatus.state (e : Nat) : Fld := ⟨(R.rootStatus e), 0, 3⟩
def F.rootStatus.ctx (e : Nat) : Fld := ⟨(R.rootStatus e), 3, 3⟩
def F.rootStatus.cold (e : Nat) : Fld := ⟨(R.rootStatus e), 6, 1⟩
def F.rootStatus.queued (e : Nat) : Fld := ⟨(R.rootStatus e), 7, 10⟩
/-- `ROOT_QUEUE_BASE` (R169). -/
def R.rootQueueBase (e : Nat) : Nat := 0x200000010 + 0x1000000 * e
def F.rootQueueBase.val (e : Nat) : Fld := ⟨(R.rootQueueBase e), 5, 35⟩
/-- `ROOT_QUEUE_SIZE` (R169). -/
def R.rootQueueSize (e : Nat) : Nat := 0x200000018 + 0x1000000 * e
def F.rootQueueSize.val (e : Nat) : Fld := ⟨(R.rootQueueSize e), 0, 11⟩
/-- `ROOT_QUEUE_HEAD` (R169). -/
def R.rootQueueHead (e : Nat) : Nat := 0x200000020 + 0x1000000 * e
def F.rootQueueHead.val (e : Nat) : Fld := ⟨(R.rootQueueHead e), 0, 10⟩
/-- `ROOT_QUEUE_TAIL` (R169). -/
def R.rootQueueTail (e : Nat) : Nat := 0x200000028 + 0x1000000 * e
def F.rootQueueTail.val (e : Nat) : Fld := ⟨(R.rootQueueTail e), 0, 10⟩
/-- `ROOT_DONE_SIGNAL` (R169). -/
def R.rootDoneSignal (e : Nat) : Nat := 0x200000030 + 0x1000000 * e
def F.rootDoneSignal.val (e : Nat) : Fld := ⟨(R.rootDoneSignal e), 0, 40⟩
/-- `ROOT_DONE_COUNT` (R169). -/
def R.rootDoneCount (e : Nat) : Nat := 0x200000038 + 0x1000000 * e
def F.rootDoneCount.val (e : Nat) : Fld := ⟨(R.rootDoneCount e), 0, 64⟩
/-- `ROOT_CUR_RECORD` (R169). -/
def R.rootCurRecord (e : Nat) : Nat := 0x200000040 + 0x1000000 * e
def F.rootCurRecord.val (e : Nat) : Fld := ⟨(R.rootCurRecord e), 0, 64⟩
/-- `ROOT_CUR_PROGRESS` (R169). -/
def R.rootCurProgress (e : Nat) : Nat := 0x200000048 + 0x1000000 * e
def F.rootCurProgress.iters (e : Nat) : Fld := ⟨(R.rootCurProgress e), 0, 8⟩
def F.rootCurProgress.residual (e : Nat) : Fld := ⟨(R.rootCurProgress e), 32, 32⟩
/-- `ROOT_FAULT` (R169). -/
def R.rootFault (e : Nat) : Nat := 0x200000050 + 0x1000000 * e
def F.rootFault.code (e : Nat) : Fld := ⟨(R.rootFault e), 0, 4⟩
def F.rootFault.record (e : Nat) : Fld := ⟨(R.rootFault e), 4, 40⟩
/-- `SWEEP_STEP` (R223). -/
def R.sweepStep (c : Nat) : Nat := 0x306000000 + 0x1000 * c
def F.sweepStep.val (c : Nat) : Fld := ⟨(R.sweepStep c), 0, 64⟩
/-- `SCHED_CYCLE_START` (R223). -/
def R.schedCycleStart (c : Nat) : Nat := 0x306000008 + 0x1000 * c
def F.schedCycleStart.val (c : Nat) : Fld := ⟨(R.schedCycleStart c), 0, 64⟩
/-- `SCHED_CYCLE_LEN` (R223). -/
def R.schedCycleLen (c : Nat) : Nat := 0x306000010 + 0x1000 * c
def F.schedCycleLen.val (c : Nat) : Fld := ⟨(R.schedCycleLen c), 0, 64⟩
/-- `SWEEP_CTL` (R223). -/
def R.sweepCtl (c : Nat) : Nat := 0x306000018 + 0x1000 * c
def F.sweepCtl.enable (c : Nat) : Fld := ⟨(R.sweepCtl c), 0, 1⟩
def F.sweepCtl.clearSkew (c : Nat) : Fld := ⟨(R.sweepCtl c), 1, 1⟩
/-- `SWEEP_STATUS` (R223). -/
def R.sweepStatus (c : Nat) : Nat := 0x306000020 + 0x1000 * c
def F.sweepStatus.state (c : Nat) : Fld := ⟨(R.sweepStatus c), 0, 3⟩
def F.sweepStatus.skewRun (c : Nat) : Fld := ⟨(R.sweepStatus c), 3, 8⟩
def F.sweepStatus.dueNow (c : Nat) : Fld := ⟨(R.sweepStatus c), 11, 1⟩
def F.sweepStatus.slowWait (c : Nat) : Fld := ⟨(R.sweepStatus c), 12, 1⟩
def F.sweepStatus.wrIgnored (c : Nat) : Fld := ⟨(R.sweepStatus c), 13, 1⟩
/-- `SWEEP_SKIPPED` (R223). -/
def R.sweepSkipped (c : Nat) : Nat := 0x306000028 + 0x1000 * c
def F.sweepSkipped.val (c : Nat) : Fld := ⟨(R.sweepSkipped c), 0, 64⟩
/-- `VOTE_LAST` (R223). -/
def R.voteLast (c : Nat) : Nat := 0x306000030 + 0x1000 * c
def F.voteLast.val (c : Nat) : Fld := ⟨(R.voteLast c), 0, 64⟩
/-- `COMMIT_LAST` (R223). -/
def R.commitLast (c : Nat) : Nat := 0x306000038 + 0x1000 * c
def F.commitLast.val (c : Nat) : Fld := ⟨(R.commitLast c), 0, 64⟩
/-- `SHARD_TABLE` (R223). -/
def R.shardTable (c : Nat) : Nat := 0x306000040 + 0x1000 * c
def F.shardTable.base (c : Nat) : Fld := ⟨(R.shardTable c), 7, 33⟩
def F.shardTable.count (c : Nat) : Fld := ⟨(R.shardTable c), 40, 20⟩
/-- `LR_NOW` (R223). -/
def R.lrNow (c : Nat) : Nat := 0x306000048 + 0x1000 * c
def F.lrNow.m (c : Nat) : Fld := ⟨(R.lrNow c), 0, 16⟩
def F.lrNow.lr (c : Nat) : Fld := ⟨(R.lrNow c), 32, 32⟩
/-- `DIGEST_FAULT` (R223). -/
def R.digestFault (c : Nat) : Nat := 0x306000050 + 0x1000 * c
def F.digestFault.shard (c : Nat) : Fld := ⟨(R.digestFault c), 0, 20⟩
def F.digestFault.element (c : Nat) : Fld := ⟨(R.digestFault c), 20, 32⟩
/-- `SLOW_FETCH_MAX` (R223). -/
def R.slowFetchMax (c : Nat) : Nat := 0x306000058 + 0x1000 * c
def F.slowFetchMax.val (c : Nat) : Fld := ⟨(R.slowFetchMax c), 0, 64⟩
/-- `PORT_CTL` (R277). -/
def R.portCtl (p : Nat) : Nat := 0x300000000 + 0x1000 * p
def F.portCtl.enable (p : Nat) : Fld := ⟨(R.portCtl p), 0, 1⟩
def F.portCtl.retrain (p : Nat) : Fld := ⟨(R.portCtl p), 1, 1⟩
def F.portCtl.halfOk (p : Nat) : Fld := ⟨(R.portCtl p), 2, 1⟩
def F.portCtl.clrCnt (p : Nat) : Fld := ⟨(R.portCtl p), 3, 1⟩
def F.portCtl.reinsertArm (p : Nat) : Fld := ⟨(R.portCtl p), 4, 1⟩
/-- `PORT_STATUS` (R277). -/
def R.portStatus (p : Nat) : Nat := 0x300000008 + 0x1000 * p
def F.portStatus.state (p : Nat) : Fld := ⟨(R.portStatus p), 0, 4⟩
def F.portStatus.width (p : Nat) : Fld := ⟨(R.portStatus p), 4, 2⟩
def F.portStatus.downReason (p : Nat) : Fld := ⟨(R.portStatus p), 6, 4⟩
def F.portStatus.laserSpare (p : Nat) : Fld := ⟨(R.portStatus p), 10, 1⟩
/-- `PORT_NEIGHBOUR` (R277). -/
def R.portNeighbour (p : Nat) : Nat := 0x300000010 + 0x1000 * p
def F.portNeighbour.coord (p : Nat) : Fld := ⟨(R.portNeighbour p), 0, 17⟩
def F.portNeighbour.port (p : Nat) : Fld := ⟨(R.portNeighbour p), 17, 3⟩
def F.portNeighbour.k (p : Nat) : Fld := ⟨(R.portNeighbour p), 20, 2⟩
/-- `PORT_LANES` (R277). -/
def R.portLanes (p : Nat) : Nat := 0x300000018 + 0x1000 * p
def F.portLanes.locked (p : Nat) : Fld := ⟨(R.portLanes p), 0, 16⟩
def F.portLanes.failed (p : Nat) : Fld := ⟨(R.portLanes p), 16, 16⟩
/-- `PORT_FEC_CORR` (R277). -/
def R.portFecCorr (p : Nat) : Nat := 0x300000020 + 0x1000 * p
def F.portFecCorr.val (p : Nat) : Fld := ⟨(R.portFecCorr p), 0, 64⟩
/-- `PORT_FEC_UNCORR` (R277). -/
def R.portFecUncorr (p : Nat) : Nat := 0x300000028 + 0x1000 * p
def F.portFecUncorr.val (p : Nat) : Fld := ⟨(R.portFecUncorr p), 0, 64⟩
/-- `PORT_CRC_ERR` (R277). -/
def R.portCrcErr (p : Nat) : Nat := 0x300000030 + 0x1000 * p
def F.portCrcErr.val (p : Nat) : Fld := ⟨(R.portCrcErr p), 0, 64⟩
/-- `PORT_RETRIES` (R277). -/
def R.portRetries (p : Nat) : Nat := 0x300000038 + 0x1000 * p
def F.portRetries.val (p : Nat) : Fld := ⟨(R.portRetries p), 0, 64⟩
/-- `PORT_POISONED` (R277). -/
def R.portPoisoned (p : Nat) : Nat := 0x300000040 + 0x1000 * p
def F.portPoisoned.val (p : Nat) : Fld := ⟨(R.portPoisoned p), 0, 64⟩
/-- `PORT_PROTO_ERR` (R277). -/
def R.portProtoErr (p : Nat) : Nat := 0x300000048 + 0x1000 * p
def F.portProtoErr.val (p : Nat) : Fld := ⟨(R.portProtoErr p), 0, 64⟩
/-- `PORT_TRAINS` (R277). -/
def R.portTrains (p : Nat) : Nat := 0x300000050 + 0x1000 * p
def F.portTrains.val (p : Nat) : Fld := ⟨(R.portTrains p), 0, 64⟩
/-- `PORT_VC_BUF[v]` (R277). -/
def R.portVcBuf (p v : Nat) : Nat := 0x300000080 + 0x1000 * p + 8 * v
def F.portVcBuf.val (p v : Nat) : Fld := ⟨(R.portVcBuf p v), 0, 12⟩
/-- `PORT_VC_CREDIT[v]` (R277). -/
def R.portVcCredit (p v : Nat) : Nat := 0x3000000C0 + 0x1000 * p + 8 * v
def F.portVcCredit.val (p v : Nat) : Fld := ⟨(R.portVcCredit p v), 0, 12⟩
/-- `TORUS_DIMS` (R277). -/
def R.torusDims : Nat := 0x300008000
def F.torusDims.w : Fld := ⟨R.torusDims, 0, 4⟩
def F.torusDims.x : Fld := ⟨R.torusDims, 4, 5⟩
def F.torusDims.y : Fld := ⟨R.torusDims, 9, 4⟩
def F.torusDims.z : Fld := ⟨R.torusDims, 13, 4⟩
/-- `BYPASS_MAP[a]` (R277). -/
def R.bypassMap (a : Nat) : Nat := 0x300008008 + 8 * a
def F.bypassMap.val (a : Nat) : Fld := ⟨(R.bypassMap a), 0, 32⟩
/-- `STILE_CTL` (R277). -/
def R.stileCtl : Nat := 0x300009000
def F.stileCtl.close : Fld := ⟨R.stileCtl, 0, 4⟩
def F.stileCtl.open : Fld := ⟨R.stileCtl, 4, 4⟩
def F.stileCtl.neighAck : Fld := ⟨R.stileCtl, 8, 8⟩
def F.stileCtl.force : Fld := ⟨R.stileCtl, 16, 1⟩
/-- `STILE_STATUS` (R277). -/
def R.stileStatus : Nat := 0x300009008
def F.stileStatus.closed : Fld := ⟨R.stileStatus, 0, 4⟩
def F.stileStatus.moving : Fld := ⟨R.stileStatus, 4, 4⟩
def F.stileStatus.openPending : Fld := ⟨R.stileStatus, 8, 4⟩
def F.stileStatus.refused : Fld := ⟨R.stileStatus, 12, 1⟩
def F.stileStatus.refReason : Fld := ⟨R.stileStatus, 13, 3⟩
def F.stileStatus.cause : Fld := ⟨R.stileStatus, 16, 16⟩
/-- `LARK_TIME` (R313). -/
def R.larkTime : Nat := 0x301000000
def F.larkTime.val : Fld := ⟨R.larkTime, 0, 64⟩
/-- `LARK_CTL` (R313). -/
def R.larkCtl : Nat := 0x301000008
def F.larkCtl.gm : Fld := ⟨R.larkCtl, 0, 1⟩
def F.larkCtl.epochInEn : Fld := ⟨R.larkCtl, 1, 1⟩
def F.larkCtl.epochOutEn : Fld := ⟨R.larkCtl, 2, 1⟩
/-- `LARK_STATUS` (R313). -/
def R.larkStatus : Nat := 0x301000010
def F.larkStatus.state : Fld := ⟨R.larkStatus, 0, 3⟩
def F.larkStatus.parent : Fld := ⟨R.larkStatus, 3, 3⟩
def F.larkStatus.depth : Fld := ⟨R.larkStatus, 6, 6⟩
def F.larkStatus.gmConflict : Fld := ⟨R.larkStatus, 12, 1⟩
def F.larkStatus.coordDiscovered : Fld := ⟨R.larkStatus, 13, 1⟩
/-- `LARK_GM_COORD` (R313). -/
def R.larkGmCoord : Nat := 0x301000018
def F.larkGmCoord.val : Fld := ⟨R.larkGmCoord, 0, 17⟩
/-- `LARK_OFFSET` (R313). -/
def R.larkOffset : Nat := 0x301000020
def F.larkOffset.val : Fld := ⟨R.larkOffset, 0, 64⟩
/-- `LARK_RATE` (R313). -/
def R.larkRate : Nat := 0x301000028
def F.larkRate.val : Fld := ⟨R.larkRate, 0, 32⟩
/-- `LARK_SET` (R313). -/
def R.larkSet : Nat := 0x301000030
def F.larkSet.val : Fld := ⟨R.larkSet, 0, 64⟩
/-- `LARK_EPOCH_PERIOD` (R313). -/
def R.larkEpochPeriod : Nat := 0x301000038
def F.larkEpochPeriod.val : Fld := ⟨R.larkEpochPeriod, 0, 64⟩
/-- `LARK_SYNC_INTERVAL` (R313). -/
def R.larkSyncInterval : Nat := 0x301000040
def F.larkSyncInterval.val : Fld := ⟨R.larkSyncInterval, 0, 16⟩
/-- `LARK_HOLDOVER` (R313). -/
def R.larkHoldover : Nat := 0x301000048
def F.larkHoldover.val : Fld := ⟨R.larkHoldover, 0, 16⟩
/-- `LARK_STEPS, EPOCH_REJECTS` (R313). -/
def R.larkSteps : Nat := 0x301000050
def F.larkSteps.steps : Fld := ⟨R.larkSteps, 0, 32⟩
def F.larkSteps.epochRejects : Fld := ⟨R.larkSteps, 32, 32⟩
/-- `PORT_LINK_DELAY[p]` (R313). -/
def R.portLinkDelay (p : Nat) : Nat := 0x301000080 + 8 * p
def F.portLinkDelay.val (p : Nat) : Fld := ⟨(R.portLinkDelay p), 0, 64⟩
/-- `PORT_ASYM[p]` (R313). -/
def R.portAsym (p : Nat) : Nat := 0x3010000C0 + 8 * p
def F.portAsym.val (p : Nat) : Fld := ⟨(R.portAsym p), 0, 32⟩
/-- `XPORT_CTL` (R313). -/
def R.xportCtl : Nat := 0x301001000
def F.xportCtl.admitEn : Fld := ⟨R.xportCtl, 0, 1⟩
/-- `VOID_GRACE` (R313). -/
def R.voidGrace : Nat := 0x301001008
def F.voidGrace.val : Fld := ⟨R.voidGrace, 0, 16⟩
/-- `PROMISE_VOIDS` (R313). -/
def R.promiseVoids : Nat := 0x301001010
def F.promiseVoids.val : Fld := ⟨R.promiseVoids, 0, 64⟩
/-- `ADMIT_REFUSALS` (R313). -/
def R.admitRefusals : Nat := 0x301001018
def F.admitRefusals.val : Fld := ⟨R.admitRefusals, 0, 64⟩
/-- `RES_STATUS[p]` (R313). -/
def R.resStatus (p : Nat) : Nat := 0x301001100 + 0x20 * p
def F.resStatus.active (p : Nat) : Fld := ⟨(R.resStatus p), 0, 1⟩
def F.resStatus.swapPending (p : Nat) : Fld := ⟨(R.resStatus p), 1, 1⟩
def F.resStatus.swapRefused (p : Nat) : Fld := ⟨(R.resStatus p), 2, 1⟩
def F.resStatus.schedSlots (p : Nat) : Fld := ⟨(R.resStatus p), 3, 12⟩
def F.resStatus.reserveSlots (p : Nat) : Fld := ⟨(R.resStatus p), 15, 12⟩
/-- `RES_SWAP_FRAME[p]` (R313). -/
def R.resSwapFrame (p : Nat) : Nat := 0x301001108 + 0x20 * p
def F.resSwapFrame.val (p : Nat) : Fld := ⟨(R.resSwapFrame p), 0, 64⟩
/-- `RES_OVERRUNS[p]` (R313). -/
def R.resOverruns (p : Nat) : Nat := 0x301001110 + 0x20 * p
def F.resOverruns.val (p : Nat) : Fld := ⟨(R.resOverruns p), 0, 64⟩
/-- `SCHED_BASE_NS[c]` (R313). -/
def R.schedBaseNs (c : Nat) : Nat := 0x301002000 + 0x40 * c
def F.schedBaseNs.val (c : Nat) : Fld := ⟨(R.schedBaseNs c), 0, 32⟩
/-- `SCHED_PER_FLIT_PS[c]` (R313). -/
def R.schedPerFlitPs (c : Nat) : Nat := 0x301002008 + 0x40 * c
def F.schedPerFlitPs.val (c : Nat) : Fld := ⟨(R.schedPerFlitPs c), 0, 32⟩
/-- `ADMIT_MAX_BOUND_NS[c]` (R313). -/
def R.admitMaxBoundNs (c : Nat) : Nat := 0x301002010 + 0x40 * c
def F.admitMaxBoundNs.val (c : Nat) : Fld := ⟨(R.admitMaxBoundNs c), 0, 32⟩
/-- `FC_CTL[c]` (R313). -/
def R.fcCtl (c : Nat) : Nat := 0x301002018 + 0x40 * c
def F.fcCtl.enable (c : Nat) : Fld := ⟨(R.fcCtl c), 0, 1⟩
def F.fcCtl.refused (c : Nat) : Fld := ⟨(R.fcCtl c), 1, 1⟩
def F.fcCtl.missed (c : Nat) : Fld := ⟨(R.fcCtl c), 32, 32⟩
/-- `FC_PERIOD[c]` (R313). -/
def R.fcPeriod (c : Nat) : Nat := 0x301002020 + 0x40 * c
def F.fcPeriod.val (c : Nat) : Fld := ⟨(R.fcPeriod c), 0, 64⟩
/-- `FC_START[c]` (R313). -/
def R.fcStart (c : Nat) : Nat := 0x301002028 + 0x40 * c
def F.fcStart.val (c : Nat) : Fld := ⟨(R.fcStart c), 0, 64⟩
/-- `FC_OBJ[c]` (R313). -/
def R.fcObj (c : Nat) : Nat := 0x301002030 + 0x40 * c
def F.fcObj.val (c : Nat) : Fld := ⟨(R.fcObj c), 0, 40⟩
/-- `FC_BUDGET[c]` (R313). -/
def R.fcBudget (c : Nat) : Nat := 0x301002038 + 0x40 * c
def F.fcBudget.val (c : Nat) : Fld := ⟨(R.fcBudget c), 0, 64⟩
/-- `SNAP_TIME[c]` (R313). -/
def R.snapTime (c : Nat) : Nat := 0x301003000 + 0x20 * c
def F.snapTime.val (c : Nat) : Fld := ⟨(R.snapTime c), 0, 64⟩
/-- `SNAP_RESUME[c]` (R313). -/
def R.snapResume (c : Nat) : Nat := 0x301003008 + 0x20 * c
def F.snapResume.val (c : Nat) : Fld := ⟨(R.snapResume c), 0, 64⟩
/-- `SNAP_STATUS[c]` (R313). -/
def R.snapStatus (c : Nat) : Nat := 0x301003010 + 0x20 * c
def F.snapStatus.armed (c : Nat) : Fld := ⟨(R.snapStatus c), 0, 1⟩
def F.snapStatus.ready (c : Nat) : Fld := ⟨(R.snapStatus c), 1, 1⟩
def F.snapStatus.failed (c : Nat) : Fld := ⟨(R.snapStatus c), 2, 1⟩
def F.snapStatus.overlap (c : Nat) : Fld := ⟨(R.snapStatus c), 3, 1⟩
def F.snapStatus.refused (c : Nat) : Fld := ⟨(R.snapStatus c), 4, 1⟩
/-- `RST_CAUSE` (R415). -/
def R.rstCause : Nat := 0x302000000
def F.rstCause.source : Fld := ⟨R.rstCause, 0, 4⟩
def F.rstCause.prevSource : Fld := ⟨R.rstCause, 4, 4⟩
def F.rstCause.optRestarts : Fld := ⟨R.rstCause, 8, 8⟩
/-- `RST_CTL` (R415). -/
def R.rstCtl : Nat := 0x302000008
def F.rstCtl.warmReq : Fld := ⟨R.rstCtl, 0, 1⟩
/-- `FRST_CTL` (R415). -/
def R.frstCtl : Nat := 0x302000010
def F.frstCtl.func : Fld := ⟨R.frstCtl, 0, 8⟩
def F.frstCtl.unit : Fld := ⟨R.frstCtl, 8, 8⟩
def F.frstCtl.go : Fld := ⟨R.frstCtl, 16, 1⟩
/-- `FRST_STATUS` (R415). -/
def R.frstStatus : Nat := 0x302000018
def F.frstStatus.busy : Fld := ⟨R.frstStatus, 0, 1⟩
def F.frstStatus.lastResult : Fld := ⟨R.frstStatus, 1, 3⟩
def F.frstStatus.lastFunc : Fld := ⟨R.frstStatus, 8, 8⟩
def F.frstStatus.lastUnit : Fld := ⟨R.frstStatus, 16, 8⟩
/-- `DRAIN_TIMEOUT` (R415). -/
def R.drainTimeout : Nat := 0x302000020
def F.drainTimeout.val : Fld := ⟨R.drainTimeout, 0, 20⟩
/-- `STRAP_LATCH` (R415). -/
def R.strapLatch : Nat := 0x302000028
def F.strapLatch.val : Fld := ⟨R.strapLatch, 0, 8⟩
/-- `PHASE_STATUS` (R415). -/
def R.phaseStatus : Nat := 0x302000030
def F.phaseStatus.phase : Fld := ⟨R.phaseStatus, 0, 2⟩
def F.phaseStatus.code : Fld := ⟨R.phaseStatus, 2, 4⟩
def F.phaseStatus.limit : Fld := ⟨R.phaseStatus, 6, 1⟩
/-- `PIN_CTL` (R415). -/
def R.pinCtl : Nat := 0x302000038
def F.pinCtl.throttleInEn : Fld := ⟨R.pinCtl, 2, 1⟩
def F.pinCtl.stopInEn : Fld := ⟨R.pinCtl, 6, 1⟩
def F.pinCtl.faultRelease : Fld := ⟨R.pinCtl, 8, 1⟩
/-- `PIN_LEVEL` (R415). -/
def R.pinLevel : Nat := 0x302000040
def F.pinLevel.val : Fld := ⟨R.pinLevel, 0, 8⟩
/-- `RST_COUNTS` (R415). -/
def R.rstCounts : Nat := 0x302000048
def F.rstCounts.cold : Fld := ⟨R.rstCounts, 0, 16⟩
def F.rstCounts.warm : Fld := ⟨R.rstCounts, 16, 16⟩
def F.rstCounts.function : Fld := ⟨R.rstCounts, 32, 16⟩
def F.rstCounts.forced : Fld := ⟨R.rstCounts, 48, 16⟩
/-- `PWR_STATUS` (R458). -/
def R.pwrStatus : Nat := 0x302001000
def F.pwrStatus.state : Fld := ⟨R.pwrStatus, 0, 2⟩
def F.pwrStatus.level : Fld := ⟨R.pwrStatus, 2, 2⟩
def F.pwrStatus.emergency : Fld := ⟨R.pwrStatus, 4, 1⟩
/-- `THROTTLE_CAUSE` (R458). -/
def R.throttleCause : Nat := 0x302001008
def F.throttleCause.val : Fld := ⟨R.throttleCause, 0, 12⟩
/-- `EMERG_CAUSE` (R458). -/
def R.emergCause : Nat := 0x302001010
def F.emergCause.val : Fld := ⟨R.emergCause, 0, 12⟩
/-- `THROTTLE_CTL` (R458). -/
def R.throttleCtl : Nat := 0x302001018
def F.throttleCtl.forceLevel : Fld := ⟨R.throttleCtl, 0, 2⟩
def F.throttleCtl.powerLimit : Fld := ⟨R.throttleCtl, 16, 12⟩
def F.throttleCtl.dieThrottle : Fld := ⟨R.throttleCtl, 28, 8⟩
def F.throttleCtl.hbmThrottle : Fld := ⟨R.throttleCtl, 36, 8⟩
def F.throttleCtl.stepDown : Fld := ⟨R.throttleCtl, 44, 10⟩
/-- `SHUTDOWN_CAUSE` (R458). -/
def R.shutdownCause : Nat := 0x302001020
def F.shutdownCause.cause : Fld := ⟨R.shutdownCause, 0, 12⟩
def F.shutdownCause.sensor : Fld := ⟨R.shutdownCause, 12, 5⟩
def F.shutdownCause.emergDur : Fld := ⟨R.shutdownCause, 17, 1⟩
/-- `QUIET_S` (R458). -/
def R.quietS : Nat := 0x302001028
def F.quietS.val : Fld := ⟨R.quietS, 0, 32⟩
/-- `THROTTLE_TIME` (R458). -/
def R.throttleTime : Nat := 0x302001030
def F.throttleTime.val : Fld := ⟨R.throttleTime, 0, 64⟩
/-- `MAIN_V` (R458). -/
def R.mainV : Nat := 0x302001040
def F.mainV.val : Fld := ⟨R.mainV, 0, 16⟩
/-- `MAIN_I` (R458). -/
def R.mainI : Nat := 0x302001048
def F.mainI.val : Fld := ⟨R.mainI, 0, 32⟩
/-- `MAIN_P` (R458). -/
def R.mainP : Nat := 0x302001050
def F.mainP.val : Fld := ⟨R.mainP, 0, 32⟩
/-- `AUX_P` (R458). -/
def R.auxP : Nat := 0x302001058
def F.auxP.val : Fld := ⟨R.auxP, 0, 32⟩
/-- `ENERGY` (R458). -/
def R.energy : Nat := 0x302001060
def F.energy.val : Fld := ⟨R.energy, 0, 64⟩
/-- `PEAK_P` (R458). -/
def R.peakP : Nat := 0x302001068
def F.peakP.val : Fld := ⟨R.peakP, 0, 32⟩
/-- `FLOW` (R458). -/
def R.flow : Nat := 0x302001070
def F.flow.val : Fld := ⟨R.flow, 0, 16⟩
/-- `TEMP[n]` (R458). -/
def R.temp (n : Nat) : Nat := 0x302001100 + 8 * n
def F.temp.val (n : Nat) : Fld := ⟨(R.temp n), 0, 16⟩
/-- `LOG_STATUS` (R427). -/
def R.logStatus : Nat := 0x303000000
def F.logStatus.used : Fld := ⟨R.logStatus, 0, 9⟩
def F.logStatus.overflow : Fld := ⟨R.logStatus, 9, 1⟩
def F.logStatus.preempt : Fld := ⟨R.logStatus, 10, 1⟩
def F.logStatus.handling : Fld := ⟨R.logStatus, 11, 1⟩
def F.logStatus.handlingSlot : Fld := ⟨R.logStatus, 12, 8⟩
def F.logStatus.topSev : Fld := ⟨R.logStatus, 20, 3⟩
/-- `LOG_CMD` (R427). -/
def R.logCmd : Nat := 0x303000008
def F.logCmd.cmd : Fld := ⟨R.logCmd, 0, 2⟩
/-- `LOG_DROPPED` (R427). -/
def R.logDropped : Nat := 0x303000010
def F.logDropped.all : Fld := ⟨R.logDropped, 0, 60⟩
/-- `LOG_NEXT_SEQ` (R427). -/
def R.logNextSeq : Nat := 0x303000018
def F.logNextSeq.val : Fld := ⟨R.logNextSeq, 0, 64⟩
/-- `LOG_RAISE_A` (R427). -/
def R.logRaiseA : Nat := 0x303000020
def F.logRaiseA.code : Fld := ⟨R.logRaiseA, 0, 16⟩
def F.logRaiseA.sev : Fld := ⟨R.logRaiseA, 16, 3⟩
def F.logRaiseA.func : Fld := ⟨R.logRaiseA, 24, 8⟩
def F.logRaiseA.unit : Fld := ⟨R.logRaiseA, 32, 32⟩
/-- `LOG_RAISE_B` (R427). -/
def R.logRaiseB : Nat := 0x303000028
def F.logRaiseB.data : Fld := ⟨R.logRaiseB, 0, 48⟩
/-- `FENCE_STATUS` (R427). -/
def R.fenceStatus : Nat := 0x303000030
def F.fenceStatus.level : Fld := ⟨R.fenceStatus, 0, 2⟩
def F.fenceStatus.refused : Fld := ⟨R.fenceStatus, 2, 1⟩
/-- `FENCE_CTL` (R427). -/
def R.fenceCtl : Nat := 0x303000038
def F.fenceCtl.set : Fld := ⟨R.fenceCtl, 0, 1⟩
def F.fenceCtl.bypass : Fld := ⟨R.fenceCtl, 1, 1⟩
def F.fenceCtl.clear : Fld := ⟨R.fenceCtl, 2, 1⟩
/-- `FW_SRAM_ECC` (R427). -/
def R.fwSramEcc : Nat := 0x303000040
def F.fwSramEcc.corr : Fld := ⟨R.fwSramEcc, 0, 32⟩
def F.fwSramEcc.uncorr : Fld := ⟨R.fwSramEcc, 32, 16⟩
/-- `LOG_HIST_HEAD` (R427). -/
def R.logHistHead : Nat := 0x303009000
def F.logHistHead.val : Fld := ⟨R.logHistHead, 0, 6⟩
/-- `CORE_CTL[n]` (R343). -/
def R.coreCtl (n : Nat) : Nat := 0x305000000 + 0x100 * n
def F.coreCtl.restart (n : Nat) : Fld := ⟨(R.coreCtl n), 0, 1⟩
def F.coreCtl.hold (n : Nat) : Fld := ⟨(R.coreCtl n), 1, 1⟩
/-- `CORE_STATUS[n]` (R343). -/
def R.coreStatus (n : Nat) : Nat := 0x305000008 + 0x100 * n
def F.coreStatus.state (n : Nat) : Fld := ⟨(R.coreStatus n), 0, 3⟩
def F.coreStatus.windowRestarts (n : Nat) : Fld := ⟨(R.coreStatus n), 8, 2⟩
def F.coreStatus.lastCause (n : Nat) : Fld := ⟨(R.coreStatus n), 16, 4⟩
/-- `WDT_CFG[n]` (R343). -/
def R.wdtCfg (n : Nat) : Nat := 0x305000010 + 0x100 * n
def F.wdtCfg.timeoutMs (n : Nat) : Fld := ⟨(R.wdtCfg n), 0, 16⟩
def F.wdtCfg.en (n : Nat) : Fld := ⟨(R.wdtCfg n), 16, 1⟩
/-- `WDT_KICK[n]` (R343). -/
def R.wdtKick (n : Nat) : Nat := 0x305000018 + 0x100 * n
def F.wdtKick.val (n : Nat) : Fld := ⟨(R.wdtKick n), 0, 64⟩
/-- `CORE_RESTART_COUNT[n]` (R343). -/
def R.coreRestartCount (n : Nat) : Nat := 0x305000020 + 0x100 * n
def F.coreRestartCount.val (n : Nat) : Fld := ⟨(R.coreRestartCount n), 0, 64⟩
/-- `CORE_FAULT_PC[n]` (R343). -/
def R.coreFaultPc (n : Nat) : Nat := 0x305000028 + 0x100 * n
def F.coreFaultPc.val (n : Nat) : Fld := ⟨(R.coreFaultPc n), 0, 64⟩
/-- `FW_ESC_CTL` (R343). -/
def R.fwEscCtl : Nat := 0x305001000
def F.fwEscCtl.l3En : Fld := ⟨R.fwEscCtl, 0, 1⟩
def F.fwEscCtl.l3TimeoutMs : Fld := ⟨R.fwEscCtl, 16, 16⟩
/-- `FW_L3_KICK` (R343). -/
def R.fwL3Kick : Nat := 0x305001008
def F.fwL3Kick.val : Fld := ⟨R.fwL3Kick, 0, 64⟩
/-- `CON_CTL` (R343). -/
def R.conCtl : Nat := 0x305002000
def F.conCtl.txEn : Fld := ⟨R.conCtl, 0, 1⟩
def F.conCtl.rxEn : Fld := ⟨R.conCtl, 1, 1⟩
/-- `CON_STATUS` (R343). -/
def R.conStatus : Nat := 0x305002008
def F.conStatus.bytes : Fld := ⟨R.conStatus, 0, 14⟩
def F.conStatus.ovf : Fld := ⟨R.conStatus, 14, 1⟩
/-- `THERMOS_CTL` (R433). -/
def R.thermosCtl (s : Nat) : Nat := 0x308000000 + 0x10000 * s
def F.thermosCtl.patrolEn (s : Nat) : Fld := ⟨(R.thermosCtl s), 0, 1⟩
def F.thermosCtl.patrolHours (s : Nat) : Fld := ⟨(R.thermosCtl s), 16, 8⟩
/-- `THERMOS_CE_COUNT` (R433). -/
def R.thermosCe (s : Nat) : Nat := 0x308000008 + 0x10000 * s
def F.thermosCe.val (s : Nat) : Fld := ⟨(R.thermosCe s), 0, 64⟩
/-- `THERMOS_UE_COUNT` (R433). -/
def R.thermosUe (s : Nat) : Nat := 0x308000010 + 0x10000 * s
def F.thermosUe.val (s : Nat) : Fld := ⟨(R.thermosUe s), 0, 64⟩
/-- `THERMOS_LAST_UE` (R433). -/
def R.thermosLastUe (s : Nat) : Nat := 0x308000018 + 0x10000 * s
def F.thermosLastUe.offset (s : Nat) : Fld := ⟨(R.thermosLastUe s), 0, 36⟩
def F.thermosLastUe.valid (s : Nat) : Fld := ⟨(R.thermosLastUe s), 36, 1⟩
def F.thermosLastUe.reserved (s : Nat) : Fld := ⟨(R.thermosLastUe s), 37, 1⟩
/-- `THERMOS_PATROL_POS` (R433). -/
def R.thermosPatrolPos (s : Nat) : Nat := 0x308000020 + 0x10000 * s
def F.thermosPatrolPos.val (s : Nat) : Fld := ⟨(R.thermosPatrolPos s), 0, 36⟩
/-- `MBX_CTL[k]` (R371). -/
def R.mbxCtl (k : Nat) : Nat := 0x309000000 + 0x2000 * k
def F.mbxCtl.go (k : Nat) : Fld := ⟨(R.mbxCtl k), 0, 1⟩
def F.mbxCtl.abortXfer (k : Nat) : Fld := ⟨(R.mbxCtl k), 1, 1⟩
/-- `MBX_STATUS[k]` (R371). -/
def R.mbxStatus (k : Nat) : Nat := 0x309000008 + 0x2000 * k
def F.mbxStatus.state (k : Nat) : Fld := ⟨(R.mbxStatus k), 0, 2⟩
def F.mbxStatus.goIgnored (k : Nat) : Fld := ⟨(R.mbxStatus k), 2, 1⟩
/-- `MBX_REQ_LEN[k]` (R371). -/
def R.mbxReqLen (k : Nat) : Nat := 0x309000010 + 0x2000 * k
def F.mbxReqLen.val (k : Nat) : Fld := ⟨(R.mbxReqLen k), 0, 11⟩
/-- `MBX_RSP_LEN[k]` (R371). -/
def R.mbxRspLen (k : Nat) : Nat := 0x309000018 + 0x2000 * k
def F.mbxRspLen.val (k : Nat) : Fld := ⟨(R.mbxRspLen k), 0, 11⟩
/-- `HOST_READY` (R319). -/
def R.hostReady : Nat := 0x20000000000
def F.hostReady.driverUp : Fld := ⟨R.hostReady, 0, 1⟩
def F.hostReady.ifVersion : Fld := ⟨R.hostReady, 32, 32⟩
/-- `FUNC_READY` (R319). -/
def R.funcReady : Nat := 0x20000000008
def F.funcReady.bits : Fld := ⟨R.funcReady, 0, 32⟩
/-- `UNIT_READY` (R319). -/
def R.unitReady : Nat := 0x20000000010
def F.unitReady.tiles : Fld := ⟨R.unitReady, 0, 4⟩
def F.unitReady.meadow : Fld := ⟨R.unitReady, 4, 4⟩
def F.unitReady.thermos : Fld := ⟨R.unitReady, 8, 8⟩
def F.unitReady.ports : Fld := ⟨R.unitReady, 16, 8⟩
def F.unitReady.fwCores : Fld := ⟨R.unitReady, 24, 6⟩
def F.unitReady.root : Fld := ⟨R.unitReady, 30, 4⟩
def F.unitReady.contexts : Fld := ⟨R.unitReady, 34, 8⟩
/-- `MODULE_VERSIONS` (R319). -/
def R.moduleVersions : Nat := 0x20000000018
def F.moduleVersions.hostIf : Fld := ⟨R.moduleVersions, 0, 32⟩
def F.moduleVersions.runtimeFw : Fld := ⟨R.moduleVersions, 32, 32⟩
/-- `BAR2_SEL` (R319). -/
def R.bar2Sel : Nat := 0x20000000020
def F.bar2Sel.sel : Fld := ⟨R.bar2Sel, 0, 5⟩
/-- `HOST_STATUS_ADDR` (R319). -/
def R.hostStatusAddr : Nat := 0x20000000028
def F.hostStatusAddr.en : Fld := ⟨R.hostStatusAddr, 0, 1⟩
def F.hostStatusAddr.addr : Fld := ⟨R.hostStatusAddr, 6, 58⟩
/-- `INT_CAUSE` (R319). -/
def R.intCause : Nat := 0x20000000030
def F.intCause.cq : Fld := ⟨R.intCause, 0, 9⟩
def F.intCause.eq : Fld := ⟨R.intCause, 9, 9⟩
def F.intCause.fatal : Fld := ⟨R.intCause, 18, 1⟩
def F.intCause.readyChg : Fld := ⟨R.intCause, 19, 1⟩
def F.intCause.err : Fld := ⟨R.intCause, 20, 1⟩
/-- `INT_MASK` (R319). -/
def R.intMask : Nat := 0x20000000038
def F.intMask.bits : Fld := ⟨R.intMask, 0, 21⟩
/-- `ERR_SUMMARY` (R319). -/
def R.errSummary : Nat := 0x20000000040
def F.errSummary.bar2WrDiscard : Fld := ⟨R.errSummary, 0, 1⟩
def F.errSummary.bar2RdUr : Fld := ⟨R.errSummary, 1, 1⟩
def F.errSummary.dbBad : Fld := ⟨R.errSummary, 2, 1⟩
def F.errSummary.statusWrErr : Fld := ⟨R.errSummary, 3, 1⟩
def F.errSummary.dmaRdErr : Fld := ⟨R.errSummary, 4, 1⟩
/-- `BAR2_DISCARDS` (R319). -/
def R.bar2Discards : Nat := 0x20000000048
def F.bar2Discards.val : Fld := ⟨R.bar2Discards, 0, 64⟩
/-- `LINK_STATUS` (R319). -/
def R.linkStatus : Nat := 0x20000000050
def F.linkStatus.width : Fld := ⟨R.linkStatus, 0, 5⟩
def F.linkStatus.rate : Fld := ⟨R.linkStatus, 5, 4⟩
def F.linkStatus.flitMode : Fld := ⟨R.linkStatus, 9, 1⟩
/-- `DB_CMD[s]` (R319). -/
def R.dbCmd (s : Nat) : Nat := 0x20000000100 + 8 * s
def F.dbCmd.tail (s : Nat) : Fld := ⟨(R.dbCmd s), 0, 32⟩
/-- `DB_CQ[s]` (R319). -/
def R.dbCq (s : Nat) : Nat := 0x20000000180 + 8 * s
def F.dbCq.head (s : Nat) : Fld := ⟨(R.dbCq s), 0, 32⟩
/-- `DB_EQ[s]` (R319). -/
def R.dbEq (s : Nat) : Nat := 0x20000000200 + 8 * s
def F.dbEq.head (s : Nat) : Fld := ⟨(R.dbEq s), 0, 32⟩
/-- `INT_MOD[v]` (R319). -/
def R.intMod (v : Nat) : Nat := 0x20000000300 + 8 * v
def F.intMod.entries (v : Nat) : Fld := ⟨(R.intMod v), 0, 8⟩
def F.intMod.holdoffNs (v : Nat) : Fld := ⟨(R.intMod v), 8, 24⟩
/-- `MSI-X table: message address of vector v` (R317). -/
def R.msixAddr (v : Nat) : Nat := 0x20100000000 + 0x10 * v
def F.msixAddr.val (v : Nat) : Fld := ⟨(R.msixAddr v), 2, 62⟩
/-- `MSI-X table: message data and vector control of vector v` (R317). -/
def R.msixData (v : Nat) : Nat := 0x20100000008 + 0x10 * v
def F.msixData.data (v : Nat) : Fld := ⟨(R.msixData v), 0, 32⟩
def F.msixData.mask (v : Nat) : Fld := ⟨(R.msixData v), 32, 1⟩
/-- `MSI-X pending bits` (R317). -/
def R.msixPba : Nat := 0x20100002000
def F.msixPba.val : Fld := ⟨R.msixPba, 0, 64⟩
/-- `BOOT_STATE` (R344). -/
def R.bootState : Nat := 0x20000001000
def F.bootState.state : Fld := ⟨R.bootState, 0, 4⟩
def F.bootState.reject : Fld := ⟨R.bootState, 4, 8⟩
/-- `BOOT_IMAGE_ADDR` (R344). -/
def R.bootImageAddr : Nat := 0x20000001008
def F.bootImageAddr.val : Fld := ⟨R.bootImageAddr, 12, 52⟩
/-- `BOOT_IMAGE_LEN` (R344). -/
def R.bootImageLen : Nat := 0x20000001010
def F.bootImageLen.val : Fld := ⟨R.bootImageLen, 0, 24⟩
/-- `BOOT_CMD` (R344). -/
def R.bootCmd : Nat := 0x20000001018
def F.bootCmd.cmd : Fld := ⟨R.bootCmd, 0, 4⟩
/-- `BOOT_ROM_VER` (R344). -/
def R.bootRomVer : Nat := 0x20000001020
def F.bootRomVer.val : Fld := ⟨R.bootRomVer, 0, 32⟩
/-- `FW_CORE_SUMMARY` (R344). -/
def R.fwCoreSummary : Nat := 0x20000001028
def F.fwCoreSummary.bits : Fld := ⟨R.fwCoreSummary, 0, 23⟩
/-- `BOOT_LOAD_TIME` (R344). -/
def R.bootLoadTime : Nat := 0x20000001030
def F.bootLoadTime.val : Fld := ⟨R.bootLoadTime, 0, 64⟩

def regRows0 : List RegSpec := [
  ⟨0x100000000, [(0x100, 0x10000), (0x10, 0x80)], 0x7F0370, 0⟩,
  ⟨0x100000008, [(0x100, 0x10000), (0x10, 0x80)], 0xFFFFFFFFFFFFFFF0, 0⟩,
  ⟨0x100000010, [(0x100, 0x10000), (0x10, 0x80)], 0, 0⟩,
  ⟨0x100000018, [(0x100, 0x10000), (0x10, 0x80)], 0, 0⟩,
  ⟨0x100000040, [(0x100, 0x10000), (0x10, 0x80), (8, 8)], 0xFFFFFFFFFFFFFFFF, 0⟩,
  ⟨0x100000800, [(0x100, 0x10000), (8, 8)], 0xFFFFFFFFFFFFFF80, 0⟩,
  ⟨0x100000840, [(0x100, 0x10000), (0x40, 1)], 7, 0⟩,
  ⟨0x100001000, [(0x100, 0x10000), (0x40, 8)], 0xFFFFFFFFFFFFFFFF, 0⟩,
  ⟨0x100006000, [(0x100, 0x10000), (8, 0x20)], 0, 0⟩,
  ⟨0x100006008, [(0x100, 0x10000), (8, 0x20)], 0, 0⟩,
  ⟨0x100007000, [(0x100, 0x10000)], 0, 0⟩,
  ⟨0x100007008, [(0x100, 0x10000)], 0, 0⟩,
  ⟨0x100007010, [(0x100, 0x10000)], 0, 0⟩,
  ⟨0x307000000, [(8, 0x10000), (0x40, 0x10)], 0xFFFFFFFFFFFF0000, 0⟩,
  ⟨0x307000008, [(8, 0x10000), (0x40, 0x10)], 0x3F00FFFFFF0000, 0⟩,
  ⟨0x307000400, [(8, 0x10000)], 0xFFFF, 0⟩,
  ⟨0x307000408, [(8, 0x10000)], 0, 0x40⟩,
  ⟨0x307000410, [(8, 0x10000)], 0, 0⟩,
  ⟨0x307000418, [(8, 0x10000)], 0, 0⟩,
  ⟨0x307000420, [(8, 0x10000)], 0, 0⟩]
def regRows1 : List RegSpec := [
  ⟨0x307000800, [(8, 0x10000)], 0x1F7F7F, 0⟩,
  ⟨0x307000808, [(8, 0x10000)], 0xFFFFFFFFFFFF0000, 0⟩,
  ⟨0x307000810, [(8, 0x10000)], 0, 0⟩,
  ⟨0x307000818, [(8, 0x10000)], 0, 0xE⟩,
  ⟨0x307000820, [(8, 0x10000)], 0, 0⟩,
  ⟨0x307000828, [(8, 0x10000)], 0, 0⟩,
  ⟨0x307000900, [(8, 0x10000)], 0xFFFFFFFFFFF, 0⟩,
  ⟨0x307000908, [(8, 0x10000)], 0, 0x23⟩,
  ⟨0x307000940, [(8, 0x10000), (0x10, 0x20)], 0x801FFFFFFFFFFFFF, 0⟩,
  ⟨0x307000948, [(8, 0x10000), (0x10, 0x20)], 0, 0⟩,
  ⟨0x307000950, [(8, 0x10000), (0x10, 0x20)], 0, 0⟩,
  ⟨0x307000C00, [(8, 0x10000), (2, 8)], 0xFFFFFF0000, 0⟩,
  ⟨0x307000C10, [(8, 0x10000)], 0xFFFFFFFFFF, 0⟩,
  ⟨0x307000C18, [(8, 0x10000)], 0xFFFFFFFFFF, 0⟩,
  ⟨0x307000C20, [(8, 0x10000), (2, 8)], 0xFFFFFFFFFF, 0⟩,
  ⟨0x307000C30, [(8, 0x10000)], 0xFFFFFFFFFF, 0⟩,
  ⟨0x307000C38, [(8, 0x10000)], 0, 0⟩,
  ⟨0x307000C40, [(8, 0x10000), (2, 8)], 0, 0⟩,
  ⟨0x200000000, [(4, 0x1000000)], 0x71, 0⟩,
  ⟨0x200000008, [(4, 0x1000000)], 0, 0⟩]
def regRows2 : List RegSpec := [
  ⟨0x200000010, [(4, 0x1000000)], 0xFFFFFFFFE0, 0⟩,
  ⟨0x200000018, [(4, 0x1000000)], 0x7FF, 0⟩,
  ⟨0x200000020, [(4, 0x1000000)], 0, 0⟩,
  ⟨0x200000028, [(4, 0x1000000)], 0x3FF, 0⟩,
  ⟨0x200000030, [(4, 0x1000000)], 0xFFFFFFFFFF, 0⟩,
  ⟨0x200000038, [(4, 0x1000000)], 0, 0⟩,
  ⟨0x200000040, [(4, 0x1000000)], 0, 0⟩,
  ⟨0x200000048, [(4, 0x1000000)], 0, 0⟩,
  ⟨0x200000050, [(4, 0x1000000)], 0, 0⟩,
  ⟨0x306000000, [(8, 0x1000)], 0xFFFFFFFFFFFFFFFF, 0⟩,
  ⟨0x306000008, [(8, 0x1000)], 0, 0⟩,
  ⟨0x306000010, [(8, 0x1000)], 0, 0⟩,
  ⟨0x306000018, [(8, 0x1000)], 1, 0⟩,
  ⟨0x306000020, [(8, 0x1000)], 0, 0x2000⟩,
  ⟨0x306000028, [(8, 0x1000)], 0, 0⟩,
  ⟨0x306000030, [(8, 0x1000)], 0, 0⟩,
  ⟨0x306000038, [(8, 0x1000)], 0, 0⟩,
  ⟨0x306000040, [(8, 0x1000)], 0xFFFFFFFFFFFFF80, 0⟩,
  ⟨0x306000048, [(8, 0x1000)], 0, 0⟩,
  ⟨0x306000050, [(8, 0x1000)], 0, 0⟩]
def regRows3 : List RegSpec := [
  ⟨0x306000058, [(8, 0x1000)], 0, 0⟩,
  ⟨0x300000000, [(8, 0x1000)], 0x15, 0⟩,
  ⟨0x300000008, [(8, 0x1000)], 0, 0⟩,
  ⟨0x300000010, [(8, 0x1000)], 0, 0⟩,
  ⟨0x300000018, [(8, 0x1000)], 0, 0⟩,
  ⟨0x300000020, [(8, 0x1000)], 0, 0⟩,
  ⟨0x300000028, [(8, 0x1000)], 0, 0⟩,
  ⟨0x300000030, [(8, 0x1000)], 0, 0⟩,
  ⟨0x300000038, [(8, 0x1000)], 0, 0⟩,
  ⟨0x300000040, [(8, 0x1000)], 0, 0⟩,
  ⟨0x300000048, [(8, 0x1000)], 0, 0⟩,
  ⟨0x300000050, [(8, 0x1000)], 0, 0⟩,
  ⟨0x300000080, [(8, 0x1000), (8, 8)], 0xFFF, 0⟩,
  ⟨0x3000000C0, [(8, 0x1000), (8, 8)], 0, 0⟩,
  ⟨0x300008000, [], 0x1FFFF, 0⟩,
  ⟨0x300008008, [(4, 8)], 0xFFFFFFFF, 0⟩,
  ⟨0x300009000, [], 0, 0⟩,
  ⟨0x300009008, [], 0, 0x1000⟩,
  ⟨0x301000000, [], 0, 0⟩,
  ⟨0x301000008, [], 7, 0⟩]
def regRows4 : List RegSpec := [
  ⟨0x301000010, [], 0, 0x1000⟩,
  ⟨0x301000018, [], 0x1FFFF, 0⟩,
  ⟨0x301000020, [], 0, 0⟩,
  ⟨0x301000028, [], 0, 0⟩,
  ⟨0x301000030, [], 0, 0⟩,
  ⟨0x301000038, [], 0xFFFFFFFFFFFFFFFF, 0⟩,
  ⟨0x301000040, [], 0xFFFF, 0⟩,
  ⟨0x301000048, [], 0xFFFF, 0⟩,
  ⟨0x301000050, [], 0, 0⟩,
  ⟨0x301000080, [(8, 8)], 0, 0⟩,
  ⟨0x3010000C0, [(8, 8)], 0xFFFFFFFF, 0⟩,
  ⟨0x301001000, [], 1, 0⟩,
  ⟨0x301001008, [], 0xFFFF, 0⟩,
  ⟨0x301001010, [], 0, 0⟩,
  ⟨0x301001018, [], 0, 0⟩,
  ⟨0x301001100, [(8, 0x20)], 0, 4⟩,
  ⟨0x301001108, [(8, 0x20)], 0, 0⟩,
  ⟨0x301001110, [(8, 0x20)], 0, 0⟩,
  ⟨0x301002000, [(8, 0x40)], 0xFFFFFFFF, 0⟩,
  ⟨0x301002008, [(8, 0x40)], 0xFFFFFFFF, 0⟩]
def regRows5 : List RegSpec := [
  ⟨0x301002010, [(8, 0x40)], 0xFFFFFFFF, 0⟩,
  ⟨0x301002018, [(8, 0x40)], 1, 2⟩,
  ⟨0x301002020, [(8, 0x40)], 0xFFFFFFFFFFFFFFFF, 0⟩,
  ⟨0x301002028, [(8, 0x40)], 0xFFFFFFFFFFFFFFFF, 0⟩,
  ⟨0x301002030, [(8, 0x40)], 0xFFFFFFFFFF, 0⟩,
  ⟨0x301002038, [(8, 0x40)], 0xFFFFFFFFFFFFFFFF, 0⟩,
  ⟨0x301003000, [(8, 0x20)], 0xFFFFFFFFFFFFFFFF, 0⟩,
  ⟨0x301003008, [(8, 0x20)], 0xFFFFFFFFFFFFFFFF, 0⟩,
  ⟨0x301003010, [(8, 0x20)], 0, 0x10⟩,
  ⟨0x302000000, [], 0, 0⟩,
  ⟨0x302000008, [], 0, 0⟩,
  ⟨0x302000010, [], 0xFFFF, 0⟩,
  ⟨0x302000018, [], 0, 0⟩,
  ⟨0x302000020, [], 0xFFFFF, 0⟩,
  ⟨0x302000028, [], 0, 0⟩,
  ⟨0x302000030, [], 0, 0⟩,
  ⟨0x302000038, [], 0x44, 0⟩,
  ⟨0x302000040, [], 0, 0⟩,
  ⟨0x302000048, [], 0, 0⟩,
  ⟨0x302001000, [], 0, 0⟩]
def regRows6 : List RegSpec := [
  ⟨0x302001008, [], 0, 0⟩,
  ⟨0x302001010, [], 0, 0⟩,
  ⟨0x302001018, [], 0x3FFFFFFFFF0003, 0⟩,
  ⟨0x302001020, [], 0, 0⟩,
  ⟨0x302001028, [], 0, 0⟩,
  ⟨0x302001030, [], 0, 0⟩,
  ⟨0x302001040, [], 0, 0⟩,
  ⟨0x302001048, [], 0, 0⟩,
  ⟨0x302001050, [], 0, 0⟩,
  ⟨0x302001058, [], 0, 0⟩,
  ⟨0x302001060, [], 0, 0⟩,
  ⟨0x302001068, [], 0, 0⟩,
  ⟨0x302001070, [], 0, 0⟩,
  ⟨0x302001100, [(0x12, 8)], 0, 0⟩,
  ⟨0x303000000, [], 0, 0x200⟩,
  ⟨0x303000008, [], 0, 0⟩,
  ⟨0x303000010, [], 0, 0⟩,
  ⟨0x303000018, [], 0, 0⟩,
  ⟨0x303000020, [], 0, 0⟩,
  ⟨0x303000028, [], 0, 0⟩]
def regRows7 : List RegSpec := [
  ⟨0x303000030, [], 0, 4⟩,
  ⟨0x303000038, [], 0, 0⟩,
  ⟨0x303000040, [], 0, 0⟩,
  ⟨0x303009000, [], 0, 0⟩,
  ⟨0x305000000, [(6, 0x100)], 2, 0⟩,
  ⟨0x305000008, [(6, 0x100)], 0, 0⟩,
  ⟨0x305000010, [(6, 0x100)], 0x1FFFF, 0⟩,
  ⟨0x305000018, [(6, 0x100)], 0, 0⟩,
  ⟨0x305000020, [(6, 0x100)], 0, 0⟩,
  ⟨0x305000028, [(6, 0x100)], 0, 0⟩,
  ⟨0x305001000, [], 0xFFFF0001, 0⟩,
  ⟨0x305001008, [], 0, 0⟩,
  ⟨0x305002000, [], 3, 0⟩,
  ⟨0x305002008, [], 0, 0x4000⟩,
  ⟨0x308000000, [(8, 0x10000)], 0xFF0001, 0⟩,
  ⟨0x308000008, [(8, 0x10000)], 0, 0⟩,
  ⟨0x308000010, [(8, 0x10000)], 0, 0⟩,
  ⟨0x308000018, [(8, 0x10000)], 0, 0⟩,
  ⟨0x308000020, [(8, 0x10000)], 0, 0⟩,
  ⟨0x309000000, [(2, 0x2000)], 0, 0⟩]
def regRows8 : List RegSpec := [
  ⟨0x309000008, [(2, 0x2000)], 0, 4⟩,
  ⟨0x309000010, [(2, 0x2000)], 0x7FF, 0⟩,
  ⟨0x309000018, [(2, 0x2000)], 0, 0⟩,
  ⟨0x20000000000, [], 0xFFFFFFFF00000001, 0⟩,
  ⟨0x20000000008, [], 0, 0⟩,
  ⟨0x20000000010, [], 0, 0⟩,
  ⟨0x20000000018, [], 0, 0⟩,
  ⟨0x20000000020, [], 0x1F, 0⟩,
  ⟨0x20000000028, [], 0xFFFFFFFFFFFFFFC1, 0⟩,
  ⟨0x20000000030, [], 0, 0x1FFFFF⟩,
  ⟨0x20000000038, [], 0x1FFFFF, 0⟩,
  ⟨0x20000000040, [], 0, 0x1F⟩,
  ⟨0x20000000048, [], 0, 0⟩,
  ⟨0x20000000050, [], 0, 0⟩,
  ⟨0x20000000100, [(9, 8)], 0, 0⟩,
  ⟨0x20000000180, [(9, 8)], 0, 0⟩,
  ⟨0x20000000200, [(9, 8)], 0, 0⟩,
  ⟨0x20000000300, [(0x40, 8)], 0xFFFFFFFF, 0⟩,
  ⟨0x20100000000, [(0x40, 0x10)], 0xFFFFFFFFFFFFFFFC, 0⟩,
  ⟨0x20100000008, [(0x40, 0x10)], 0x1FFFFFFFF, 0⟩]
def regRows9 : List RegSpec := [
  ⟨0x20100002000, [], 0, 0⟩,
  ⟨0x20000001000, [], 0, 0⟩,
  ⟨0x20000001008, [], 0xFFFFFFFFFFFFF000, 0⟩,
  ⟨0x20000001010, [], 0xFFFFFF, 0⟩,
  ⟨0x20000001018, [], 0, 0⟩,
  ⟨0x20000001020, [], 0, 0⟩,
  ⟨0x20000001028, [], 0, 0⟩,
  ⟨0x20000001030, [], 0, 0⟩]
/-- The register tables of the spec, every register once. -/
def regRows : List RegSpec :=
  regRows0 ++ regRows1 ++ regRows2 ++ regRows3 ++ regRows4 ++ regRows5 ++ regRows6 ++ regRows7 ++ regRows8 ++ regRows9

/-- Does offset `d` from the base fall on an instance, the indices taken from the largest stride down? -/
def dimsMatch : List (Nat × Nat) → Nat → Bool
  | [], d => d == 0
  | (count, stride) :: rest, d => d / stride < count && dimsMatch rest (d % stride)

/-- The row a register key belongs to, if any. -/
def regSpecOf (k : Nat) : Option RegSpec :=
  regRows.find? fun r => r.base ≤ k && dimsMatch r.dims (k - r.base)

/-- Default receive buffer of a VC in flits (R262, Table 10.9). -/
def vcBufReset (v : Nat) : Nat := if v = 0 then 768 else if v = 1 then 512 else 128

/-- The value each register has at the start of a power-on cold reset. Registers for which the spec states no reset
value read 0 (DESIGN CHOICE, log entry 1). -/
def regReset (k : Nat) : BitVec 64 :=
  if k < 0x0300000000 then 0
  else if k < 0x0300008000 then
    let off := k % 0x1000
    if off = 0 then 5 else if off = 8 then 1
    else if 0x80 ≤ off ∧ off < 0xC0 ∧ off % 8 = 0 then BitVec.ofNat 64 (vcBufReset ((off - 0x80) / 8)) else 0
  else if 0x307000800 ≤ k ∧ dimsMatch [(8, 0x10000)] (k - 0x307000800) = true then 0x40000   -- hamperCfg
  else if k = 0x300009008 then 0x2222000F   -- stileStatus
  else if k = 0x301000038 then 0xE8D4A51000   -- larkEpochPeriod
  else if k = 0x301000040 then 0x64   -- larkSyncInterval
  else if k = 0x301000048 then 0x14   -- larkHoldover
  else if k = 0x301001008 then 0x3E8   -- voidGrace
  else if 0x301002010 ≤ k ∧ dimsMatch [(8, 0x40)] (k - 0x301002010) = true then 0x186A0   -- admitMaxBoundNs
  else if k = 0x302000000 then 1   -- rstCause
  else if k = 0x302000020 then 0x7D0   -- drainTimeout
  else if k = 0x302000040 then 8   -- pinLevel
  else if k = 0x302001000 then 2   -- pwrStatus
  else if k = 0x302001018 then 0xA555F7080000   -- throttleCtl
  else if k = 0x303000018 then 1   -- logNextSeq
  else if 0x305000010 ≤ k ∧ dimsMatch [(6, 0x100)] (k - 0x305000010) = true then 0x10032   -- wdtCfg
  else if k = 0x305001000 then 0x27100001   -- fwEscCtl
  else if k = 0x305002000 then 1   -- conCtl
  else if 0x308000000 ≤ k ∧ dimsMatch [(8, 0x10000)] (k - 0x308000000) = true then 0x80001   -- thermosCtl
  else if k = 0x20000000020 then 1   -- bar2Sel
  else if k = 0x20000000038 then 0x1FFFFF   -- intMask
  else if 0x20100000008 ≤ k ∧ dimsMatch [(0x40, 0x10)] (k - 0x20100000008) = true then 0x100000000   -- msixData
  else 0

end Sys2Proof.Machine
end

