-- ==== Sys2Proof/Machine/State.lean ====
section
/-! DEFINITION. The state of the module as plain data (INVENTORY.md lists it with the rules that name it), the reasons a
step can stop, and the state right after the start of a power-on cold reset. -/

namespace Sys2Proof.Machine

/-- A table with a default: strictly rising keys, no entry equal to the default of its key. -/
abbrev Tab (α : Type) := List (Nat × α)

/-! ### Transfers as they arrive (chapter 11) -/

/-- A transfer that has arrived whole (Table 11.1). `own` names a transfer of this module that its own router answers. -/
structure Arrived where
  kind : Nat
  ctx : Nat := 0
  tclass : Nat := 0
  jobTag : Nat := 0
  len : Nat := 0
  offset : Nat := 0
  deadline : Nat := 0
  ref : Nat := 0
  aux : Nat := 0
  data : List Byte := []
  src : Nat := 0
  stream : Nat := 0
  vc : Nat := 0
  port : Nat := 0
  poison : Bool := false
  /-- conditions seen since its first flit arrived, as in `Xfer.seen` -/
  seen : Nat := 0
  own : Option Nat := none
  deriving DecidableEq, Repr

/-! ### Threads and tiles (chapter 2) -/

/-- One running loop of a thread (R38): tile offsets of the first body descriptor and of the end of the body, passes
left, and the increments applied after each pass. -/
structure LoopFrame where
  first : Nat
  stop : Nat
  left : Nat
  ixa : Nat
  inca : Int
  ixb : Nat
  incb : Int
  deriving DecidableEq, Repr

/-- The engine of a tile that runs an asynchronous descriptor (R30). -/
inductive Engine
  | array | vec | dma
  deriving DecidableEq, Repr

/-- How far an asynchronous descriptor is: its effect is made and its completion may be seen; it waits at the DMA engine
for admission (R290); it waits for the transfers `tids` to end (R282); it waits for the Hamper (R138, R139); it waits in the queue of
the DMA engine or the array behind an earlier descriptor of its thread (R30). -/
inductive PendPhase
  | done | admission | transfer (tids : List Nat) | hamper | queued
  deriving DecidableEq, Repr

/-- One outstanding asynchronous descriptor of a thread (R30, R34). `signal` is false once nothing of it may be
signalled any more (R55, R78). -/
structure Pend where
  eng : Engine
  word : Desc
  pc : Nat
  phase : PendPhase
  signal : Bool
  /-- the bytes its remote source rows have brought so far, by row (R37) -/
  got : Tab (List Byte) := []
  /-- physical destinations its rows were translated to at issue (R79) -/
  dst : List Nat := []
  /-- the thread's `IX` registers when it issued (log entry 7) -/
  ixs : List Word := []
  /-- push sequence number of a `PUSH` (R137) -/
  seq : Nat := 0
  deriving DecidableEq, Repr

/-- Where the watch of a `WAIT` stands (R48): the object is on the waiter's tile; a watch is placed; the request was
answered with retry; the object is on another module. -/
inductive Watch
  | none | placed | retry | remote (tid : Nat)
  deriving DecidableEq, Repr

/-- The `WAIT` a thread is blocked in (R45). `obj` is the key of the counter on this module, or the remote-form address. -/
structure Wait where
  obj : Nat
  cond : Nat
  comparand : Word
  tmo : Nat
  watch : Watch
  since : Nat
  /-- context address of the `WAIT` itself -/
  pc : Nat
  /-- context address of the object -/
  addr : Nat := 0
  /-- the descriptor, whose `DONE_OBJ` its end signals (R34) -/
  word : Desc := 0
  /-- an update has satisfied the condition since the watch was answered with retry: the next try releases the thread (R45, R48) -/
  hit : Bool := false
  deriving DecidableEq, Repr

/-- What a thread is ending towards once its asynchronous descriptors have completed (R33, R37). -/
inductive Ending
  | none | stop | halt
  deriving DecidableEq, Repr

/-- The part of a hardware thread that no register holds (R28 to R38). -/
structure Thread where
  calls : List Nat := []
  loops : List LoopFrame := []
  pend : List Pend := []
  wait : Option Wait := none
  ending : Ending := .none
  /-- the transfer of a synchronous descriptor on a remote object that is under way (R56, R59) -/
  syncTid : Option Nat := none
  /-- a synchronous descriptor that has issued and is not complete: a `SIGNAL`, `ARRIVE` or `FENCE` that waits for the thread's
  outstanding descriptors (R51, R54), one whose transfer is under way, a `HALT` (R37) -/
  held : Option Desc := none
  deriving DecidableEq, Repr

/-- Which thread holds the array, for which context and in which accumulator format; the row and column masks of the last
`MMA_STEP` (R31, R88, R93). -/
structure Claim where
  thread : Nat
  ctx : Nat
  fmt : Nat
  rows : Nat
  cols : Nat
  /-- a save or restore received an error response (R98) -/
  lost : Bool := false
  deriving DecidableEq, Repr

/-- One entry of a tile's descriptor cache (R36). -/
structure CacheLine where
  ctx : Nat
  pc : Nat
  word : Desc
  deriving DecidableEq, Repr

/-- A watch a tile keeps for a waiter outside it, or a request it answered with retry (R48). -/
structure WatchEntry where
  obj : Nat
  cond : Nat
  comparand : Word
  /-- key of a waiting thread of this module, or the request of a waiter of another module -/
  waiter : Nat ⊕ Arrived
  /-- of a request answered with retry: an update has satisfied the condition since -/
  hit : Bool := false
  deriving DecidableEq, Repr

/-- The part of a tile that no register and no memory holds: the array claim and its accumulators (raw containers, cell
(i, j) at key 64 i + j), preempted claims, the round robin order, the watch table and the waiters of other modules that were answered
with retry (R48), and the descriptor cache. -/
structure Tile where
  claim : Option Claim := none
  acc : Tab (BitVec 128) := []
  preempted : List Claim := []
  /-- a `PRIO` 3 thread whose `MMA_START` waits for the array, which the holder's save or unload frees for it (R31, R98) -/
  preempting : Option Nat := none
  robin : List Nat := []
  watches : List WatchEntry := []
  retried : List WatchEntry := []
  cache : List CacheLine := []
  deriving DecidableEq, Repr

/-! ### The Hamper (chapter 6) -/

/-- Where a granule of an entry lies: granule `g` of the slice, or spill slot `k` in raw or converted form (R133, R141). -/
inductive HPlace
  | slice (g : Nat) | slot (k : Nat) (raw : Bool)
  deriving DecidableEq, Repr

/-- An entry of a stack, its granules in the order of its bytes (R133, R137). -/
structure HEntry where
  len : Nat
  fmt : Nat
  seq : Nat
  grans : List HPlace
  deriving DecidableEq, Repr

/-- The slice of a tile and context: its 16 stacks, top first; the threads whose prefetch window is active (R144); the next push
sequence number (R137). -/
structure HSlice where
  piles : Tab (List HEntry) := []
  windows : List Nat := []
  nextSeq : Nat := 0
  deriving DecidableEq, Repr

/-! ### Root engines (chapter 7) -/

/-- A queue entry of a root engine (Table 7.6). -/
structure RootEntry where
  record : Nat
  ctx : Nat
  force : Bool
  prev : Nat
  pend : Nat
  cap : Nat
  deriving DecidableEq, Repr

/-- A user of a block (Table 7.10). -/
structure RootUser where
  coord : Nat
  lo : Nat
  hi : Nat
  slot : Nat
  deriving DecidableEq, Repr

/-- What a root computation gives (Tables 7.11 and 7.13); `rows` is empty for a scaled identity. -/
structure RootResult where
  mode : Nat
  result : Nat
  scale : F32 := 0
  iters : Nat := 0
  resid : F32 := 0
  floored : Nat := 0
  rows : List (List F32) := []
  deriving DecidableEq, Repr

/-- The block in progress of a root engine, with what it copied in: the factor block and the previous root (R170). -/
structure RootBlock where
  entry : RootEntry
  layer : Nat
  block : Nat
  n : Nat
  p : Nat
  hash : Nat
  step : Nat
  sel : Nat
  users : List RootUser
  /-- physical offset of the factor buffer copied in, locked while it is copied (R20, R170) -/
  base : Nat
  factor : List (List F32)
  /-- the previous root of a warm start: its mode, scale and matrix -/
  prev : Option (Nat × F32 × List (List F32)) := none
  rejected : Bool := false
  result : Option RootResult := none
  deriving DecidableEq, Repr

/-- A block whose write-outs are under way; `dropped` when it was abandoned (R170). -/
structure RootAck where
  entry : RootEntry
  tids : List Nat
  dropped : Bool := false
  deriving DecidableEq, Repr

/-- What no register holds of a root engine: the entries F3 holds until they complete (R187), those it has not yet had room to
queue, the block in progress, the write-outs under way, queue indices to skip (R170), and whether F3 has still to set `ENABLE` after a
reset. -/
structure RootEngine where
  held : List RootEntry := []
  backlog : List RootEntry := []
  cur : Option RootBlock := none
  acks : List RootAck := []
  skips : List Nat := []
  draining : Bool := false
  enableDue : Bool := true
  deriving DecidableEq, Repr

/-! ### Contexts -/

/-- Where the context's training step stands (R13 to R17): before its vote arrival, arrived at the vote, the vote has passed
and the shards are being swept, arrived at the commit barrier. -/
inductive StepPhase
  | compute | voteWait | sweep | commitWait
  deriving DecidableEq, Repr

/-- How far the digest check of a shard is (R217 to R219): the comparison of the whole shard, a round over ranges of runs
(first, length), the reading of single runs, the comparison of those runs after a repair. -/
inductive DigestPhase
  | compare | bisect (ranges : List (Nat × Nat)) (single : List Nat) | read (runs : List Nat) | recheck (runs : List Nat)
  deriving DecidableEq, Repr

/-- The shard the update unit is at: the present granules it has still to compute, in address order, and P of the whole shard (R213). -/
structure Sweeping where
  shard : Nat
  left : List Nat
  dir : List F32
  deriving DecidableEq, Repr

/-- A command F0 has taken from a ring: its position, and its fields (Table 12.10). -/
structure RingCmd where
  count : Nat
  op : Nat
  flags : Nat
  seq : Nat
  cookie : Nat
  args : List Byte
  deriving DecidableEq, Repr

/-- A `CTX_START` that F0 has taken and that F2 and F3 have not carried out yet: what the barrier of R195 reduces to, and the job's queues (R504). -/
structure StartCmd where
  cmd : RingCmd
  lo : Word
  hi : Word
  queues : List (Nat × Word)
  deriving DecidableEq, Repr

/-- What no register holds of a context. -/
structure Ctx where
  /-- started and not stopped since (R172, R323) -/
  running : Bool := false
  /-- stopped by a context-fatal or module-fatal event until it is reset (R418) -/
  halted : Bool := false
  phase : StepPhase := .compute
  /-- this module's abort findings of the step, bits [5:0] of Table 8.1 (R190) -/
  voteBits : Nat := 0
  /-- this module's abort findings of the commit, bits [3:0] of Table 8.3 (R196) -/
  commitBits : Nat := 0
  /-- an access fault was recorded since the last start (R78) -/
  accessFault : Bool := false
  /-- an update of the batch-boundary counter came while a switch was pending (R336) -/
  batchSeen : Bool := false
  /-- the draining slot's use counter has read 0 (R336) -/
  drainSeen : Bool := false
  /-- next frame of the frame contract to be judged (R300) -/
  fcNext : Nat := 0
  /-- issue is frozen by a snapshot (R311) -/
  frozen : Bool := false
  /-- `ROOT_FORCE_COLD` was written; the layers whose refresh has taken it since (R188) -/
  forceCold : Bool := false
  coldTaken : List Nat := []
  /-- the reduced install word, held until the vote has passed; it has been applied; the sweep has started (R182, R183) -/
  install : Option (BitVec 2048) := none
  installed : Bool := false
  started : Bool := false
  /-- layer, `AGE` and `USE` before the provisional changes of a sweep start (R184) -/
  prov : List (Nat × Nat × Nat) := []
  /-- shards swept; shards under digest comparison (R217) -/
  swept : List Nat := []
  digests : List (Nat × DigestPhase) := []
  /-- slow-tier granules (shard, granule): read and not arrived, arrived with their bytes, written back and not acknowledged;
  when the reads began (R213, R214) -/
  slowRead : List (Nat × Nat) := []
  slowData : List ((Nat × Nat) × List Byte) := []
  slowWrite : List (Nat × Nat) := []
  slowAt : Nat := 0
  /-- the shard the update unit is at (R213) -/
  sweeping : Option Sweeping := none
  /-- row masks that have come with the packets of its reduce-scatters in this step (R202) -/
  masks : List RowMask := []
  /-- the credit queues wait to be re-based, and these threads to be restarted then (R243) -/
  rebase : Bool := false
  restart : List Nat := []
  /-- the Hamper is still to be discarded after an aborted commit, once every thread has stopped (R147) -/
  discardDue : Bool := false
  /-- F2 was down when the barrier of the stopped context came due: it arrives once it runs (R22, R412) -/
  owed : Bool := false
  /-- a restarted F3 has seen no step boundary of the context yet (R186) -/
  f3Out : Bool := false
  /-- F1 has restarted, and admission for the context waits for its next step or frame boundary (R291) -/
  admitDue : Bool := false
  /-- conditions seen since the frame under judgement began, as in `Xfer.seen` (R296) -/
  fcSeen : Nat := 0
  /-- when the sweep came to a shard whose staging read was not complete (R337) -/
  stageFrom : Option Nat := none
  /-- a commit barrier has completed without abort, and the refresh that follows it has not been started (R180) -/
  refreshDue : Bool := false
  /-- staged values by object key; committed values with the step they apply from (R211, R376) -/
  staged : Tab Nat := []
  committed : List (Nat × Tab Nat) := []
  /-- class B values held for the next boundary, by object key (R376) -/
  held : Tab Nat := []
  /-- what this module's vote word said of non-finite values: of the loss, and the first layer of a gradient (R194) -/
  lossNan : Option (Bool × Option Nat) := none
  /-- a commit barrier has completed and no vote arrival has followed (R337) -/
  mayPublish : Bool := false
  /-- a start taken while F2 or F3 is down (R504) -/
  starting : Option StartCmd := none
  deriving DecidableEq, Repr

/-! ### Rings and weight intake (chapter 12) -/

/-- A command that has completed and is not yet posted (Table 12.12). -/
structure RingDone where
  cmd : RingCmd
  status : Nat
  detail : Nat := 0
  count : Nat := 0
  time : Nat
  deriving DecidableEq, Repr

/-- A ring set (R321 to R323): counts modulo 2^32, the `SEQ` last taken, commands in progress in ring order, completed ones in the order
they completed. A slot's `POSTED` bit is 0 exactly for these two lists (R357). -/
structure Ring where
  cmdTail : Nat := 0
  cmdHead : Nat := 0
  lastSeq : Nat := 0
  cqTail : Nat := 0
  cqHead : Nat := 0
  eqTail : Nat := 0
  eqHead : Nat := 0
  eqDropped : Nat := 0
  /-- `EVENT_RING_FULL` was logged since the ring last had room -/
  eqFull : Bool := false
  run : List RingCmd := []
  done : List RingDone := []
  deriving DecidableEq, Repr

/-- An `INTAKE` in progress: its ring set and position, the container, the destination; per chunk its offset and length; chunks being
read, the next to be fetched, failures of each, chunks written (R330, R332). -/
structure Intake where
  set : Nat
  cmd : RingCmd
  address : Nat
  dest : Nat
  limit : Nat
  /-- generation slot it fills -/
  slot : Option Nat
  switch : Bool
  gen : Nat
  chunks : List (Nat × Nat)
  reading : List Nat := []
  next : Nat := 0
  /-- chunks whose read has ended before their turn: their bytes, or an error -/
  got : List (Nat × Option (List Byte)) := []
  failed : Tab Nat := []
  written : Nat := 0
  deriving DecidableEq, Repr

/-- A `PUBLISH` in progress: its ring set, the target context, its local slot if this module holds one, the generation, the parts not
yet sent, the transfers under way, bytes in all; `staged` once its shards were read (R337). -/
structure Publish where
  set : Nat
  cmd : RingCmd
  target : Nat
  slot : Option Nat
  switch : Bool
  gen : Nat
  parts : List PubPart
  staged : Bool := false
  /-- staged bytes of the parts not yet sent, with coordinate and offset -/
  todo : List (Nat × Nat × List Byte) := []
  tids : List Nat := []
  bytes : Nat := 0
  /-- staging has begun, and the parts not yet read, by their place in `parts` -/
  opened : Bool := false
  left : List Nat := []
  /-- bytes delivered so far -/
  done : Nat := 0
  deriving DecidableEq, Repr

/-! ### The error log (chapter 16) -/

/-- A log slot (R419, Table 16.2). `state` 0 free, 1 queued, 2 in handling. -/
structure LogSlot where
  code : Nat := 0
  sev : Nat := 0
  func : Nat := 0
  unit : Nat := 0
  time : Nat := 0
  data : Nat := 0
  state : Nat := 0
  flags : Nat := 0
  merged : Nat := 0
  lastTime : Nat := 0
  seq : Nat := 0
  deriving DecidableEq, Repr

/-- A notification waiting for the module's transmit opportunity (R385). -/
structure Notice where
  seq : Nat
  entry : LogSlot
  deriving DecidableEq, Repr

/-! ### Ports and transport (chapters 10 and 11) -/

/-- A flit as its fields (Table 10.7); `payload` holds its `LEN` bytes. -/
structure Flit where
  type : Nat := 0
  vc : Nat := 0
  first : Bool := false
  last : Bool := false
  seq : Nat := 0
  ack : Nat := 0
  crVc : Nat := 0
  crCount : Nat := 0
  len : Nat := 0
  dest : Nat := 0
  dirs : Nat := 0
  alt : Bool := false
  poison : Bool := false
  tag : Nat := 0
  payload : List Byte := []
  deriving DecidableEq, Repr

/-- A `DATA` flit waiting for a slot of a port. -/
structure QFlit where
  flit : Flit
  /-- receive buffer it occupies while in transit: port and VC (R264) -/
  held : Option (Nat × Nat) := none
  /-- the slot granted to it: frame × 4,096 + slot (R290) -/
  grant : Option Nat := none
  /-- of a flit issued here: the place of its transfer among those this module sent, by which a stream keeps its order (R281) -/
  turn : Nat := 0
  /-- of a context transfer issued here, which the fence holds back (R434) -/
  own : Bool := false
  deriving DecidableEq, Repr

/-- A sent and unacknowledged flit with the failures counted against it (R265, R266). -/
structure Sent where
  flit : Flit
  fails : Nat := 0
  deriving DecidableEq, Repr

/-- The part of a port that no register holds. -/
structure Port where
  txq : List QFlit := []
  replay : List Sent := []
  /-- position in `replay` of the next flit to replay -/
  replayAt : Option Nat := none
  nextSeq : Nat := 0
  expect : Nat := 0
  nakOut : Bool := false
  /-- credits to return, by VC -/
  owed : Tab Nat := []
  creditTurn : Nat := 0
  /-- the frame the next three counts belong to -/
  frame : Nat := 0
  control : Nat := 0
  overrun : Bool := false
  /-- slots granted by admission (R290) -/
  ledger : List Nat := []
  swapFrame : Nat := 0
  /-- the reason a failing training ends with (Table 10.16) -/
  failReason : Nat := 0
  /-- the training under way is a retrain that keeps the link state (R258) -/
  retraining : Bool := false
  /-- `REINSERT_ARM` was written and the replay buffer is not yet acknowledged (R274) -/
  arming : Bool := false
  /-- fibre pairs this end found whole -/
  whole : Nat := 0
  /-- the second in which each `LINK_DEGRADED` reason was last raised, plus 1 (R270) -/
  raised : Tab Nat := []
  /-- Lark exchange under way: its number and t1 (R302) -/
  exchange : Nat := 0
  sentAt : Nat := 0
  /-- the port has reached `UP` since its link state was last cleared -/
  partner : Bool := false
  /-- a training failed, and the port has not read `UP` since (R258) -/
  lost : Bool := false
  deriving DecidableEq, Repr

/-- What the answer to a transfer of this module does. -/
inductive Use
  /-- row `part` of an asynchronous descriptor of thread key `thread` -/
  | row (thread part : Nat)
  /-- the completion of a `SIGNAL` or `ARRIVE` of a thread -/
  | sync (thread : Nat)
  /-- a counter read into `IX[k]`, or tested by `BRANCH` with the word `w` -/
  | syncRead (thread k : Nat)
  | branchTest (thread : Nat) (w : Desc)
  /-- the watch of a `WAIT` -/
  | watch (thread : Nat)
  /-- a write-out of root engine `e` (R170) -/
  | root (e : Nat)
  /-- a transfer of the `PUBLISH` at position `count` of ring set `set` (R337) -/
  | publish (set count : Nat)
  /-- nothing waits for it but the transport itself -/
  | none_
  deriving DecidableEq, Repr

/-- A transfer this module has issued that is not yet answered (R280, R292, R296). -/
structure Xfer where
  tid : Nat
  kind : Nat
  ctx : Nat
  tclass : Nat
  dest : Nat
  offset : Nat
  len : Nat
  aux : Nat
  data : List Byte
  stream : Nat
  order : Nat
  issue : Nat
  deadline : Nat
  check : Nat
  primary : Nat
  resent : Bool := false
  /-- its promise was reported void at this end (R296) -/
  voided : Bool := false
  /-- a condition of R294 was seen here since its issue: bits of Table 11.9 from [26] -/
  seen : Nat := 0
  /-- a re-request for this shard packet has come (R299) -/
  asked : Bool := false
  /-- it took the − way where both were equally short (R236) -/
  minus : Bool := false
  /-- row masks that went with a shard packet (R202) -/
  masks : List RowMask := []
  /-- a `WAIT` watch that is placed: its transfer is complete, and the release is awaited (R48, R282) -/
  placed : Bool := false
  use : Use
  deriving DecidableEq, Repr

/-- A transfer that is being put together from its flits, by `TAG` and VC (R281). -/
structure Reassembly where
  tag : Nat
  vc : Nat
  port : Nat
  payload : List Byte
  poison : Bool
  /-- conditions seen since its first flit arrived, as in `Xfer.seen` -/
  seen : Nat := 0
  deriving DecidableEq, Repr

/-- A remote access the target has translated; its data is not yet moved (R75, R282). -/
structure Accepted where
  arrived : Arrived
  phys : Nat
  deriving DecidableEq, Repr

/-- What no register holds of Lark. -/
structure Lark where
  /-- the fraction of a picosecond carried, in units of 2^−40 of a nominal tick's picosecond -/
  fraction : Nat := 0
  /-- consecutive offsets within ±20 ps -/
  good : Nat := 0
  /-- the parent is reached on the alternate direction (R306) -/
  alt : Bool := false
  /-- the first epoch edge has set the phase (R307) -/
  epochSeen : Bool := false
  /-- Lark has not locked since it started or was reset: offsets are removed by steps (R303, Table 15.10) -/
  relock : Bool := true
  /-- `DIST` and port of the flit a discovered coordinate was taken from (R308) -/
  source : Option (Nat × Nat) := none
  deriving DecidableEq, Repr

/-! ### Firmware complex (chapter 13) -/

/-- A segment of the runtime image (Table 13.8). -/
structure FwSeg where
  core : Nat
  kind : Nat
  off : Nat
  len : Nat
  file : Nat
  entry : Nat
  deriving DecidableEq, Repr

/-- What no register holds of a firmware core: the Lark times of its counted restarts (R354), the digest of its segments (R348), whether
its private region has been written since its reset began (R351), the watchdog limit in force, taken at its last kick (R360). -/
structure FwCore where
  window : List Nat := []
  digest : BitVec 384 := 0
  loaded : Bool := false
  limit : Nat := 50
  deriving DecidableEq, Repr

/-- The runtime image in use and the console: its segments and `SVN`, Lark time of `LOAD`; trace capture (R359); the lengths of the lines
in the console buffer, oldest first, whose bytes stand in the firmware SRAM (R342, R358). -/
structure Boot where
  segs : List FwSeg := []
  svn : Nat := 0
  loadAt : Nat := 0
  trace : Bool := true
  lines : List Nat := []
  deriving DecidableEq, Repr

/-! ### Reset and bring-up (chapter 15) -/

/-- What no register holds of the reset controller: the two 12 V rails in range; levels of `RESET_N` and PERST#; the internal `RESET_N`
pulse of a DOP or level-3 reset; steps complete in order, 0 to 4; internal release; straps latched; a PLL has failed; step 5 done;
stacks trained, and failed trainings of each; step 10 done; a warm reset has begun and not yet cleared what it clears; since a warm
reset the firmware complex has not been ready again (R408); the shutdown
that holds step 3 (R449); level of `ALIVE`. -/
structure Bring where
  mainOk : Bool := true
  auxOk : Bool := true
  resetN : Bool := false
  perst : Bool := false
  pulse : Bool := false
  step : Nat := 0
  released : Bool := false
  latched : Bool := false
  pllFailed : Bool := false
  linkDone : Bool := false
  trained : List Nat := []
  fails : Tab Nat := []
  tilesDone : Bool := false
  dieFailed : Bool := false
  warm : Bool := false
  fwClosed : Bool := false
  held : Bool := false
  alive : Bool := false
  deriving DecidableEq, Repr

/-- A function reset in progress (R409 to R411): `drain` while it waits for its block to go idle; Lark time it began; the ring commands that
wait for it; released by the timeout. -/
structure FuncReset where
  func : Nat
  unit : Nat
  drain : Bool
  since : Nat
  cmds : List (Nat × RingCmd) := []
  forced : Bool := false
  deriving DecidableEq, Repr

/-! ### The Ronbin block (chapters 14 and 18) -/

/-- Bank states (Table 18.3). -/
inductive BankState
  | empty | receiving | staged | trial | confirmed | rejected
  deriving DecidableEq, Repr

/-- A bank of the flash (R461, R464): the pieces it holds, which are the complete bits of the staging bitmap; the pieces whose begun bit is set;
reject reason; calibration slot; the header fields of its image (Table 18.2), as they were when it was verified. -/
structure Bank where
  state : BankState := .empty
  pieces : Tab (List Byte) := []
  begun : List Nat := []
  reason : Nat := 0
  cal : Nat := 0
  version : Nat := 0
  svn : Nat := 0
  rtMin : Nat := 0
  key : Nat := 0
  revoke : Nat := 0
  calFormat : Nat := 1
  calFrom : Nat := 1
  trialS : Nat := 600
  /-- a cold reset cut its trial short, and `TRIAL_EXPIRED` has not been raised for it yet (R465); the seconds it had run -/
  trialCut : Bool := false
  ran : Nat := 0
  deriving DecidableEq, Repr

/-- What survives every reset and power loss (R461, R462): the banks, which is confirmed, the open stage, the formats of calibration slots 0
and 1 (0 erased), the pending-fuse flag, the fuses; of the boot control record and of the staging bitmap, which of the two copies is live and its
sequence number. As shipped, bank A is confirmed (log entries 20 and 134). -/
structure Flash where
  bankA : Bank := { state := .confirmed }
  bankB : Bank := {}
  confirmed : Option (Fin 2) := some 0
  stageId : Nat := 0
  stageLen : Nat := 0
  cal0 : Nat := 1
  cal1 : Nat := 0
  fusePending : Bool := false
  mgmtSvn : Nat := 0
  rtSvn : Nat := 0
  revoked : Nat := 0
  recordCopy : Nat := 0
  recordSeq : Nat := 0
  bitmapCopy : Nat := 0
  bitmapSeq : Nat := 0
  deriving DecidableEq, Repr

/-- A segmented transfer (R370): `data` is the copy a read is served from, or what a write has received. -/
structure Transfer where
  xid : Nat
  key : Nat
  write : Bool
  total : Nat
  crc : Nat
  data : List Byte := []
  deriving DecidableEq, Repr

/-- A session (R373): its MAC address (DOP sessions), access level, the last 8 `TID`s with their responses, newest last, its open transfer,
the held `IMG_PIECE_NUM` and `IMG_PIECE_CRC` (R467), the number of its last request. -/
structure Session where
  opened : Bool := false
  mac : Nat := 0
  level : Nat := 0
  record : List (Nat × List Byte) := []
  transfer : Option Transfer := none
  pieceNum : Nat := 0
  pieceCrc : Nat := 0
  used : Nat := 0
  deriving DecidableEq, Repr

/-- A request waiting to be served (R368): from mailbox slot 0 or 1, or a DOP frame with its source MAC. -/
structure Request where
  slot : Option (Fin 2)
  mac : Nat := 0
  pdu : List Byte
  deriving DecidableEq, Repr

/-- What the Ronbin block holds beside the flash and the objects: ROM recovery mode; the bank whose image runs; a restart under way into a
bank; buffered pieces; the bank erase and the calibration erase under way; picoseconds for which a
beacon of the last 10 ms still counts; a deferred activation; picoseconds the trial has run; a request
has been served since the restart; `IMG_CARD_STATE` and a card in the socket; sessions; waiting requests, oldest first; requests served in
all; values stored for a function that is not ready, by object key (R378); a `RESET` answered and not begun (R387). -/
structure Ronbin where
  recovery : Bool := false
  running : Option (Fin 2) := none
  restart : Option (Fin 2) := none
  buffer : List (Nat × List Byte) := []
  erasing : Bool := false
  calErase : Bool := false
  activation : Bool := false
  trialPs : Nat := 0
  served : Bool := false
  card : Nat := 0
  /-- neither bank passed at step 2, so that no other bank verifies in recovery mode (R465, R479) -/
  noBank : Bool := false
  /-- pieces of a card scan under way that the buffer has not taken yet -/
  scan : List (Nat × List Byte) := []
  sessions : Tab Session := []
  requests : List Request := []
  clock : Nat := 0
  deferred : Tab Nat := []
  resetKind : Nat := 0
  eventTid : Nat := 0
  /-- PLCA has been on for some time, so that a beacon may have been seen or sent in the last 10 ms (Table 14.10) -/
  beaconPs : Nat := 0
  deriving DecidableEq, Repr

/-! ### The machine -/

/-- What the module has sent to its outside, oldest first: the model's own record. -/
inductive Out
  /-- `TRACE` of a tile, thread and tag (R37). -/
  | trace (tile thread : Nat) (tag : Word) (time : Nat)
  /-- F2's arrival at the vote or the commit barrier of a context with its word (R190, R196). -/
  | voteArrive (c : Nat) (word : Word)
  | commitArrive (c : Nat) (word : Word)
  /-- F2's arrival at the install barrier with its word (R182). -/
  | installArrive (c : Nat) (word : BitVec 2048)
  /-- Digests of ranges of a shard, each compared with its complement beside it by `MIN_U64` over the coordinates of the replica list;
  the runs of a shard read from the replicas (R198, R217, R218). -/
  | digest (c shard : Nat) (replicas : List Nat) (words : List Word)
  | runRead (c shard : Nat) (replicas : List Nat) (runs : List Nat)
  /-- Arrivals at the two barriers around the re-basing of the credit queues (R243). -/
  | rebaseArrive (c : Nat)
  /-- Reads and writes of host memory at a bus address (R213). -/
  | hostRead (address len : Nat)
  | hostWrite (address : Nat) (data : List Byte)
  /-- A flit a port sends: port and flit (R260). -/
  | flit (port : Nat) (f : Flit)
  /-- The epoch pulse on PH1 (R307). -/
  | epoch (time : Nat)
  /-- An MSI-X vector fires (R327). -/
  | msix (vector : Nat) (address data : Nat)
  /-- The answer to a configuration read (R318). -/
  | config (v : BitVec 32)
  /-- The completion of a read of the module through a BAR, or the answer to a firmware core's read: its bytes, or an Unsupported Request
  or error response (R81, R76). -/
  | readData (data : List Byte)
  | readFails
  /-- A line of console output on PH4 (R358). -/
  | console (line : List Byte)
  /-- `ALIVE` (R404). -/
  | alive (level : Bool)
  /-- A DOP frame: destination and source MAC address and protocol data unit (R363). -/
  | dop (mac source : Nat) (pdu : List Byte)
  deriving DecidableEq, Repr

/-- The reasons the model stops with a fault. -/
inductive Fault
  /-- Raised by a step in which the driver is up on a host interface version that does not match (R10): the spec does not
  define the behaviour. Safe: the model stops where the module goes on. -/
  | versionMismatch
  deriving DecidableEq, Repr

/-- The reasons the model refuses a command. -/
inductive Refusal
  /-- Raised by `exec` for a command whose meaning is not written. Safe. -/
  | notModelled (mnemonic : String)
  deriving DecidableEq, Repr

/-- The module. -/
structure State where
  /-- commands waiting, first in first out -/
  pending : List Instr := []
  /-- the model's counter for free values -/
  freeCount : Nat := 0
  /-- what the module has sent, oldest first -/
  out : List Out := []
  /-- every register, by key; unlisted registers hold `regReset` -/
  regs : Tab Word := []
  /-- every byte of Meadow, Thermos and the buffers, by local offset; unlisted bytes are 0 -/
  mem : List Host.Cell := []
  /-- 8-byte words (by local offset) that hold an uncorrectable error -/
  badWords : List Nat := []
  threads : Tab Thread := []
  tiles : Tab Tile := []
  ctxs : Tab Ctx := []
  /-- Hamper slices, by tile × 8 + context -/
  hamper : Tab HSlice := []
  roots : Tab RootEngine := []
  log : Tab LogSlot := []
  hist : Tab LogSlot := []
  notices : List Notice := []
  /-- `FAULT_N` is pulled low (R403) -/
  faultLow : Bool := false
  /-- issue of every context is frozen by `STOP_N` (R405) -/
  stopFrozen : Bool := false
  /-- entries of each MSI-X vector not yet signalled (R327) -/
  vecCount : Tab Nat := []
  ports : Tab Port := []
  /-- the coordinate is valid (R308, R399) -/
  coordKnown : Bool := false
  /-- lasers of a unit: 16 × unit + wavelength; 0 active, 1 on the spare, 2 both failed (R251) -/
  lasers : Tab Nat := []
  /-- acknowledged neighbours, Table 10.18 [15:8] -/
  stileAcks : Nat := 0
  /-- transfers of this module not yet answered, oldest first -/
  xfers : List Xfer := []
  nextTid : Nat := 0
  /-- transfers issued on each of the 16 streams -/
  streams : Tab Nat := []
  /-- transfers of any kind this module has queued at its ports: the next `QFlit.turn` -/
  launches : Nat := 0
  reassemblies : List Reassembly := []
  /-- `FIRST` flits that wait for a reassembly, with the port they wait at, and the flits behind them (R281) -/
  rxWait : List (Nat × Flit) := []
  arrived : List Arrived := []
  accepted : List Accepted := []
  /-- shard packets whose first copy failed its CRC: `TAG` and sequence (R299) -/
  shardFailed : List (Nat × Nat) := []
  lark : Lark := {}
  /-- ring sets 0 to 8 -/
  rings : Tab Ring := []
  intakes : List Intake := []
  publishes : List Publish := []
  /-- the function is in D3hot: DMA and interrupts stop (Table 12.1) -/
  d3hot : Bool := false
  /-- the writable bits of configuration space, by dword (R316) -/
  cfg : Tab (BitVec 32) := []
  /-- the maximum read request size the host has set, in bytes (Table 12.1) -/
  maxRead : Nat := 512
  maxPayload : Nat := 128
  /-- dies whose group-scale self-test failed, bit d (R100, R101) -/
  scaleFail : Nat := 0
  /-- tiles that failed their datapath self-test (R100) -/
  tileFail : List Nat := []
  /-- numeric objects of the dictionary that no register holds, by key -/
  objs : Tab Nat := []
  /-- the level each throttle cause holds (Table 17.5), by bit -/
  causes : Tab Nat := []
  fwCores : Tab FwCore := []
  boot : Boot := {}
  bring : Bring := {}
  /-- function resets in progress -/
  fresets : List FuncReset := []
  flash : Flash := {}
  ronbin : Ronbin := {}
  deriving DecidableEq, Repr

/-- The module at the start of a power-on cold reset (log entry 3). -/
def State.reset : State := {}

end Sys2Proof.Machine
end

