-- ==== Sys2Proof/Machine/Ops.lean ====
section
/-! DEFINITION. The named operations over tables, registers, fields, memory and the record of what is sent. -/

namespace Sys2Proof.Machine

/-- What a meaning answers. -/
abbrev Result := Host.Outcome State Fault Refusal

/-! ### Tables -/

/-- The entry of key `k`, or the default `d k` when none is listed. -/
def Tab.get (d : Nat → α) : Tab α → Nat → α
  | [], k => d k
  | (j, v) :: rest, k => if j = k then v else Tab.get d rest k

/-- The table without key `k`. -/
def Tab.erase (l : Tab α) (k : Nat) : Tab α := l.filter fun e => e.1 != k

/-- Insert an entry before the first larger key. -/
def Tab.insert (k : Nat) (v : α) : Tab α → Tab α
  | [] => [(k, v)]
  | (j, u) :: rest => if k < j then (k, v) :: (j, u) :: rest else (j, u) :: Tab.insert k v rest

/-- Store `v` at `k`, keeping the canonical form: storing the default removes the entry. -/
def Tab.put [DecidableEq α] (d : Nat → α) (l : Tab α) (k : Nat) (v : α) : Tab α :=
  if v = d k then Tab.erase l k else Tab.insert k v (Tab.erase l k)

/-- The table without the keys `p` accepts. -/
def Tab.drop (l : Tab α) (p : Nat → Bool) : Tab α := l.filter fun e => !p e.1

/-- Keys strictly rising. -/
def Tab.rising : Tab α → Bool
  | [] => true
  | (k, _) :: rest => rest.all (fun e => k < e.1) && Tab.rising rest

/-- The canonical form: keys strictly rising and no entry equal to its default. -/
def Tab.wf [DecidableEq α] (d : Nat → α) (l : Tab α) : Bool :=
  Tab.rising l && l.all fun e => e.2 != d e.1

/-! ### Registers and fields -/

/-- The 64-bit register of key `k` as it is stored. -/
def State.reg (s : State) (k : Nat) : Word := Tab.get regReset s.regs k

def State.setReg (s : State) (k : Nat) (v : Word) : State := { s with regs := Tab.put regReset s.regs k v }

/-- The field as a number. -/
def State.fld (s : State) (f : Fld) : Nat := ((s.reg f.reg).extractLsb' f.lo f.width).toNat

/-- A one-bit field. -/
def State.bit (s : State) (f : Fld) : Bool := (s.reg f.reg).getLsbD f.lo

/-- The mask of `width` bits from bit `lo`. -/
def maskBits (lo width : Nat) : Word := BitVec.ofNat 64 ((2 ^ width - 1) * 2 ^ lo)

/-- `r` with its `width` bits from `lo` replaced by the low bits of `v`. -/
def withBits (r : Word) (lo width v : Nat) : Word :=
  (r &&& ~~~(maskBits lo width)) ||| (BitVec.ofNat 64 (v * 2 ^ lo) &&& maskBits lo width)

def State.setFld (s : State) (f : Fld) (v : Nat) : State := s.setReg f.reg (withBits (s.reg f.reg) f.lo f.width v)

def State.setBit (s : State) (f : Fld) (b : Bool) : State := s.setFld f (if b then 1 else 0)

/-- Reset every register whose key `p` accepts. -/
def State.dropRegs (s : State) (p : Nat → Bool) : State := { s with regs := Tab.drop s.regs p }

/-- A counter of `width` bits held in a field that rises by `by_` and saturates. -/
def State.bump (s : State) (f : Fld) (by_ : Nat := 1) : State := s.setFld f (min (s.fld f + by_) (2 ^ f.width - 1))

/-- A 64-bit saturating counter register. -/
def State.bumpReg (s : State) (k : Nat) (by_ : Nat := 1) : State :=
  s.setReg k (BitVec.ofNat 64 (min ((s.reg k).toNat + by_) (2 ^ 64 - 1)))

/-- The bits of a word as a number. -/
def bitsAt (w : BitVec n) (lo width : Nat) : Nat := (w.extractLsb' lo width).toNat

/-- The bits of a word as a signed number. -/
def sbitsAt (w : BitVec n) (lo width : Nat) : Int := (w.extractLsb' lo width).toInt

/-! ### Memory -/

/-- What a byte of memory that is not listed reads as: 0, the value warm and cold resets leave in Meadow and Thermos
(R390); for the buffers outside them a DESIGN CHOICE (log entry 2). -/
def memReset : Nat → Byte := fun _ => 0

/-- The canonical form of memory. -/
abbrev Memory.wf (m : List Host.Cell) : Bool := Tab.wf memReset m

def State.byte (s : State) (a : Nat) : Byte := Tab.get memReset s.mem a

def State.setByte (s : State) (a : Nat) (b : Byte) : State := { s with mem := Tab.put memReset s.mem a b }

/-- `n` bytes from `a` upwards. -/
def State.bytes (s : State) (a : Nat) : Nat → List Byte
  | 0 => []
  | n + 1 => s.byte a :: s.bytes (a + 1) n

/-- Store a list of bytes from `a` upwards. -/
def State.setBytes (s : State) (a : Nat) : List Byte → State
  | [] => s
  | b :: rest => (s.setByte a b).setBytes (a + 1) rest

/-- Zero the bytes whose address `p` accepts. -/
def State.dropMem (s : State) (p : Nat → Bool) : State := { s with mem := Tab.drop s.mem p }

/-- The number a list of bytes spells, least significant first (R12). -/
def leNat : List Byte → Nat
  | [] => 0
  | b :: rest => b.toNat + 256 * leNat rest

/-- The `n` bytes of a number, least significant first (R12). -/
def leBytes : Nat → Nat → List Byte
  | 0, _ => []
  | n + 1, v => BitVec.ofNat 8 v :: leBytes n (v / 256)

/-- The number in `n` bytes of memory from `a`. -/
def State.memNat (s : State) (a n : Nat) : Nat := leNat (s.bytes a n)

/-- Store a number in `n` bytes of memory from `a`. -/
def State.setMemNat (s : State) (a n v : Nat) : State := s.setBytes a (leBytes n v)

/-! ### Typed tables -/

def State.thread (s : State) (k : Nat) : Thread := Tab.get (fun _ => {}) s.threads k
def State.setThread (s : State) (k : Nat) (v : Thread) : State := { s with threads := Tab.put (fun _ => {}) s.threads k v }
def State.tile (s : State) (k : Nat) : Tile := Tab.get (fun _ => {}) s.tiles k
def State.setTile (s : State) (k : Nat) (v : Tile) : State := { s with tiles := Tab.put (fun _ => {}) s.tiles k v }

def State.ctx (s : State) (k : Nat) : Ctx := Tab.get (fun _ => {}) s.ctxs k
def State.setCtx (s : State) (k : Nat) (v : Ctx) : State := { s with ctxs := Tab.put (fun _ => {}) s.ctxs k v }
def State.logSlot (s : State) (k : Nat) : LogSlot := Tab.get (fun _ => {}) s.log k
def State.setLogSlot (s : State) (k : Nat) (v : LogSlot) : State := { s with log := Tab.put (fun _ => {}) s.log k v }
def State.obj (s : State) (k : Nat) : Nat := Tab.get objDefault s.objs k
def State.setObj (s : State) (k v : Nat) : State := { s with objs := Tab.put objDefault s.objs k v }
def State.port (s : State) (k : Nat) : Port := Tab.get (fun _ => {}) s.ports k
def State.setPort (s : State) (k : Nat) (v : Port) : State := { s with ports := Tab.put (fun _ => {}) s.ports k v }
def State.modPort (s : State) (k : Nat) (f : Port → Port) : State := s.setPort k (f (s.port k))
def State.modCtx (s : State) (k : Nat) (f : Ctx → Ctx) : State := s.setCtx k (f (s.ctx k))

def State.slice (s : State) (t c : Nat) : HSlice := Tab.get (fun _ => {}) s.hamper (8 * t + c)
def State.setSlice (s : State) (t c : Nat) (v : HSlice) : State := { s with hamper := Tab.put (fun _ => {}) s.hamper (8 * t + c) v }
def State.modSlice (s : State) (t c : Nat) (f : HSlice → HSlice) : State := s.setSlice t c (f (s.slice t c))

def State.root (s : State) (e : Nat) : RootEngine := Tab.get (fun _ => {}) s.roots e
def State.setRoot (s : State) (e : Nat) (v : RootEngine) : State := { s with roots := Tab.put (fun _ => {}) s.roots e v }
def State.modRoot (s : State) (e : Nat) (f : RootEngine → RootEngine) : State := s.setRoot e (f (s.root e))

/-- Change one entry of a typed table. -/
def State.modThread (s : State) (k : Nat) (f : Thread → Thread) : State := s.setThread k (f (s.thread k))
def State.modTile (s : State) (k : Nat) (f : Tile → Tile) : State := s.setTile k (f (s.tile k))

/-! ### Sending, free values, time -/

/-- Record something the module sends. -/
def State.send (s : State) (o : Out) : State := { s with out := s.out ++ [o] }

/-- The next free value, and the state that has used it up (log entry 4). -/
def State.free (s : State) : Word × State := (Config.freeWord s.freeCount, { s with freeCount := s.freeCount + 1 })

/-- `n` free values of 32 bits. -/
def State.freeList (s : State) : Nat → List F32 × State
  | 0 => ([], s)
  | n + 1 =>
    let (w, s) := s.free
    let (l, s) := s.freeList n
    (w.extractLsb' 0 32 :: l, s)

/-- This module's coordinate (R9). -/
def State.coord (s : State) : Nat := s.obj O.moduleCoordinate

/-- Lark time in picoseconds (R301, R313). -/
def State.now (s : State) : Nat := (s.reg R.larkTime).toNat

/-- Apply an update for each element of a list, in order. -/
def forEach (l : List α) (f : State → α → State) (s : State) : State := l.foldl f s

/-- The numbers 0 to n − 1. -/
def upto (n : Nat) : List Nat := List.range n

/-! ### One memory under two views (R66, R67) -/

/-- The interleaved offset of byte `inner` of stack `stack`: the inverse of R66, since both views show one memory (R67). -/
def thermosKey (stack inner : Nat) : Nat :=
  0x4000000000 + 2 ^ 15 * (inner / 2 ^ 12) + 2 ^ 12 * stack + inner % 2 ^ 12

/-- The key a byte is stored under: one key for both Thermos views (R67). -/
def memKey (off : Nat) : Nat :=
  if 0x10000000000 ≤ off then thermosKey ((off - 0x10000000000) / 2 ^ 36) (off % 2 ^ 36) else off

/-- The host link is up (bit 6 of `FUNC_READY`, R318). -/
def State.hostUp (s : State) : Bool := (s.reg R.funcReady).getLsbD 6

/-- Dword of the control of the MSI-X capability, where configuration space holds it (log entry 119). -/
def msixDword : Nat := 36

/-- A vector's message can go out: the function is not in D3hot, MSI-X is enabled, and neither the function nor the vector is masked (Table 12.1; PRESUMED, log entry
119). -/
def State.msixOpen (s : State) (v : Nat) : Bool :=
  let c : BitVec 32 := Tab.get (fun _ => 0) s.cfg msixDword
  !s.d3hot && c.getLsbD 31 && !c.getLsbD 30 && !s.bit (F.msixData.mask v)

/-- Send the message of an MSI-X vector, or note it in the pending bits. -/
def State.fire (s : State) (v : Nat) : State :=
  if s.msixOpen v then s.send (.msix v (s.reg (R.msixAddr v)).toNat (s.fld (F.msixData.data v))) else s.setBit ⟨R.msixPba, v, 1⟩ true

/-- Send the messages that were pending and can now go out. -/
def State.firePending (s : State) : State :=
  forEach ((upto 64).filter fun v => (s.reg R.msixPba).getLsbD v && s.msixOpen v) (fun s v => (s.setBit ⟨R.msixPba, v, 1⟩ false).fire v) s

/-- Send something to the host; nothing leaves while the function is in D3hot (Table 12.1). -/
def State.toHost (s : State) (o : Out) : State := if s.d3hot then s else s.send o

def State.ring (s : State) (r : Nat) : Ring := Tab.get (fun _ => {}) s.rings r
def State.setRing (s : State) (r : Nat) (v : Ring) : State := { s with rings := Tab.put (fun _ => {}) s.rings r v }
def State.modRing (s : State) (r : Nat) (f : Ring → Ring) : State := s.setRing r (f (s.ring r))

def State.fwCore (s : State) (n : Nat) : FwCore := Tab.get (fun _ => {}) s.fwCores n
def State.modFwCore (s : State) (n : Nat) (f : FwCore → FwCore) : State :=
  { s with fwCores := Tab.put (fun _ => {}) s.fwCores n (f (s.fwCore n)) }
def State.modBoot (s : State) (f : Boot → Boot) : State := { s with boot := f s.boot }
def State.modBring (s : State) (f : Bring → Bring) : State := { s with bring := f s.bring }

/-- What the boot control record holds (R461). -/
def Flash.record (f : Flash) : (BankState × Nat) × (BankState × Nat) × Option (Fin 2) × Nat × Nat × Bool :=
  ((f.bankA.state, f.bankA.cal), (f.bankB.state, f.bankB.cal), f.confirmed, f.stageId, f.stageLen, f.fusePending)

/-- Every update of the boot control record writes the other copy, with the next sequence number, and erases the old one (R461). -/
def Flash.recorded (old new : Flash) : Flash :=
  if new.record = old.record then new else { new with recordCopy := 1 - old.recordCopy, recordSeq := old.recordSeq + 1 }

def State.modFlash (s : State) (f : Flash → Flash) : State := { s with flash := s.flash.recorded (f s.flash) }
def State.modRonbin (s : State) (f : Ronbin → Ronbin) : State := { s with ronbin := f s.ronbin }
def State.session (s : State) (n : Nat) : Session := Tab.get (fun _ => {}) s.ronbin.sessions n
def State.modSession (s : State) (n : Nat) (f : Session → Session) : State :=
  s.modRonbin fun r => { r with sessions := Tab.put (fun _ => {}) r.sessions n (f (s.session n)) }

/-- ROM recovery mode serves these indexes only (R478). -/
def recoveryIndex (index : Nat) : Bool := (0x1000 ≤ index && index ≤ 0x1003) || index == 0x8000

/-- Does the dictionary serve the object at a key, or refuse its index with `NO_OBJECT` (R478)? -/
def State.dictServes (s : State) (k : Nat) : Bool := !s.ronbin.recovery || recoveryIndex (k / 256)

/-- A write of the object at a key leads to `t`, unless ROM recovery mode refuses its index. -/
def State.inDict (s : State) (k : Nat) (t : State) : State := if s.dictServes k then t else s

end Sys2Proof.Machine
end

