-- ==== Sys2Proof/Machine/Flags.lean ====
section
/-! DEFINITION. The flags of a thread, bits [16:13] of `THREAD_STATUS`. -/

namespace Sys2Proof.Machine

/-- `FLAG_TMO`: set by a `WAIT` that ends by its timeout, cleared by one that ends otherwise (R45). -/
def State.flagTmo (s : State) (t n : Nat) (timedOut : Bool) : State := s.setBit (F.threadStatus.flagTmo t n) timedOut

/-- `FLAG_NAN`: set by a finding, never cleared by its absence (R40). -/
def State.flagNan (s : State) (t n : Nat) (found : Bool) : State := if found then s.setBit (F.threadStatus.flagNan t n) true else s

/-- `FLAG_REF`: set when an admitted-class descriptor is refused, cleared when one is admitted (R290). -/
def State.flagRef (s : State) (t n : Nat) (refused : Bool) : State := s.setBit (F.threadStatus.flagRef t n) refused

/-- `FLAG_USR` as `CHECK` changes it: cleared by `IMM2` bit 2, then set by `IMM2` bit 1 (R40). -/
def State.flagUsr (s : State) (t n : Nat) (imm2 : BitVec 32) : State :=
  let s := if imm2.getLsbD 2 then s.setBit (F.threadStatus.flagUsr t n) false else s
  if imm2.getLsbD 1 then s.setBit (F.threadStatus.flagUsr t n) true else s

end Sys2Proof.Machine
end

