-- ==== Sys2Proof/Machine/Float.lean ====
section
/-! DEFINITION. Element formats, exact values and roundings (R103 to R107, R40, R501, R502). An exact value is a sign, a
natural mantissa and a power of two; nothing is rounded but where a definition says so. -/

namespace Sys2Proof.Machine

/-- A value of a format: NaN with its sign, an infinity, or (−1)^neg × m × 2^e exactly. -/
inductive FVal
  | nan (neg : Bool) | inf (neg : Bool) | fin (neg : Bool) (m : Nat) (e : Int)
  deriving DecidableEq, Repr

/-- Bits of a number without leading zeros. -/
def bitLen (m : Nat) : Nat := if m = 0 then 0 else Nat.log2 m + 1

/-- `m / 2^k` rounded to nearest, ties to even: `round_half_even`. -/
def rneShift (m k : Nat) : Nat :=
  let q := m / 2 ^ k
  let r := m % 2 ^ k
  if 2 * r > 2 ^ k ∨ (2 * r = 2 ^ k ∧ q % 2 = 1) then q + 1 else q

/-- `m × 2^e` rounded to nearest even on a grid of at least `2^emin`, to `p` significant bits. -/
def roundAt (p : Nat) (emin : Int) (m : Nat) (e : Int) : Nat × Int :=
  let q : Int := max (e + (bitLen m : Int) - (p : Int)) emin
  if q ≤ e then (m, e) else (rneShift m (q - e).toNat, q)

/-- `m × 2^e` rounded to `p` significant bits, exponent unbounded. -/
def roundSig (p : Nat) (m : Nat) (e : Int) : Nat × Int :=
  let q : Int := e + (bitLen m : Int) - (p : Int)
  if q ≤ e then (m, e) else (rneShift m (q - e).toNat, q)

/-- `m × 2^e` as an integer in units of `2^u`, rounded to nearest even. -/
def roundUnits (u : Int) (m : Nat) (e : Int) : Nat :=
  if u ≤ e then m * 2 ^ (e - u).toNat else rneShift m (u - e).toNat

/-- A signed mantissa. -/
def signedM (neg : Bool) (m : Nat) : Int := if neg then -(m : Int) else m

/-- A rational `num / den × 2^e` as a dyadic of at least 64 significant bits with a sticky bit, exact enough for one correct
rounding to fewer bits. -/
def ratDy (num den : Nat) (e : Int) : Nat × Int :=
  if num = 0 then (0, e)
  else
    let k := bitLen den + 64
    let q := num * 2 ^ k / den
    let sticky := if num * 2 ^ k % den = 0 then 0 else 1
    (2 * q + sticky, e - k - 1)

/-- The integer square root, digit by digit from bit `fuel − 1`. -/
def isqrtFrom (n : Nat) : Nat → Nat → Nat
  | 0, r => r
  | i + 1, r => if (r + 2 ^ i) * (r + 2 ^ i) ≤ n then isqrtFrom n i (r + 2 ^ i) else isqrtFrom n i r

def isqrt (n : Nat) : Nat := isqrtFrom n (bitLen n / 2 + 1) 0

/-- √(num / den × 2^e) as a dyadic with a sticky bit. -/
def sqrtDy (num den : Nat) (e : Int) : Nat × Int :=
  let (num, e) := if e % 2 = 0 then (num, e) else (2 * num, e - 1)
  let k := bitLen den + 64
  let n := num * 2 ^ (2 * k) / den
  let r := isqrt n
  let sticky := if r * r = n ∧ num * 2 ^ (2 * k) % den = 0 then 0 else 1
  (2 * r + sticky, e / 2 - k - 1)

/-! ### Formats (Table 5.1) -/

/-- A float format: exponent bits, significand bits, bias; whether the top exponent holds infinities and NaNs. -/
structure FFormat where
  eb : Nat
  mb : Nat
  bias : Nat
  ieee : Bool
  deriving DecidableEq, Repr

def fp32 : FFormat := ⟨8, 23, 127, true⟩
def bf16 : FFormat := ⟨8, 7, 127, true⟩
def e4m3 : FFormat := ⟨4, 3, 7, false⟩
def e5m2 : FFormat := ⟨5, 2, 15, true⟩
def e2m1 : FFormat := ⟨2, 1, 1, false⟩

/-- The float format of a format code (Table 2.12). -/
def floatFmt (code : Nat) : Option FFormat :=
  match code with
  | 0 => some fp32 | 1 => some bf16 | 2 => some e4m3 | 3 => some e5m2 | 4 => some e2m1
  | _ => none

/-- Width in bits of an element of a format code. -/
def fmtBits (code : Nat) : Nat :=
  match code with
  | 0 => 32 | 1 => 16 | 2 => 8 | 3 => 8 | 4 => 4 | 5 => 8 | 6 => 4 | 7 => 64 | 8 => 128 | 9 => 32
  | _ => 0

def FFormat.decode (f : FFormat) (w : Nat) : FVal :=
  let neg := w.testBit (f.eb + f.mb)
  let ex := w / 2 ^ f.mb % 2 ^ f.eb
  let m := w % 2 ^ f.mb
  if f.ieee ∧ ex = 2 ^ f.eb - 1 then (if m = 0 then .inf neg else .nan neg)
  else if f = e4m3 ∧ ex = 15 ∧ m = 7 then .nan neg
  else if ex = 0 then .fin neg m (1 - (f.bias : Int) - f.mb)
  else .fin neg (2 ^ f.mb + m) ((ex : Int) - f.bias - f.mb)

/-- The value of an element of a format code (R103, R105). Codes without elements read as zero. -/
def decodeElem (code w : Nat) : FVal :=
  match floatFmt code with
  | some f => f.decode w
  | none =>
    let b := fmtBits code
    let v : Int := if w.testBit (b - 1) then (w % 2 ^ b : Int) - 2 ^ b else w % 2 ^ b
    .fin (v < 0) v.natAbs 0

/-- The largest finite code of a float format, without its sign. -/
def FFormat.maxCode (f : FFormat) : Nat :=
  if f.ieee then (2 ^ f.eb - 2) * 2 ^ f.mb + (2 ^ f.mb - 1)
  else if f = e4m3 then 0x7E
  else 2 ^ (f.eb + f.mb) - 1

/-- The code of a rounded magnitude: what the fields hold when it is representable, else a number above `maxCode`. -/
def FFormat.pack (f : FFormat) (m : Nat) (e : Int) : Nat :=
  if m = 0 then 0
  else
    let len := bitLen m
    let ex : Int := e + len - 1 + f.bias
    if ex ≤ 0 then m * 2 ^ (e - (1 - (f.bias : Int) - f.mb)).toNat
    else
      let sig := if len ≤ f.mb + 1 then m * 2 ^ (f.mb + 1 - len) else m / 2 ^ (len - f.mb - 1)
      ex.toNat * 2 ^ f.mb + (sig - 2 ^ f.mb)

/-- The code of magnitude `m × 2^e` rounded to nearest even, overflow not yet judged (R107). -/
def FFormat.roundCode (f : FFormat) (m : Nat) (e : Int) : Nat :=
  let r := roundAt (f.mb + 1) (1 - (f.bias : Int) - f.mb) m e
  f.pack r.1 r.2

def FFormat.signBit (f : FFormat) (neg : Bool) : Nat := if neg then 2 ^ (f.eb + f.mb) else 0

/-- Conversion into a float format (Table 5.3): the code and whether `FLAG_NAN` is set. -/
def FFormat.encode (f : FFormat) : FVal → Nat × Bool
  | .nan neg =>
    if f = e2m1 then (0, true)
    else if f = e4m3 then (0x7F + f.signBit neg, false)
    else ((2 ^ f.eb - 1) * 2 ^ f.mb + 2 ^ (f.mb - 1) + f.signBit neg, false)
  | .inf neg =>
    if f.ieee then ((2 ^ f.eb - 1) * 2 ^ f.mb + f.signBit neg, false) else (f.maxCode + f.signBit neg, false)
  | .fin neg m e =>
    let c := f.roundCode m e
    if c ≤ f.maxCode then (c + f.signBit neg, false)
    else if f.ieee then ((2 ^ f.eb - 1) * 2 ^ f.mb + f.signBit neg, false)
    else (f.maxCode + f.signBit neg, false)

/-- Conversion into an integer format of `b` bits (Table 5.3). -/
def encodeInt (b : Nat) : FVal → Nat × Bool
  | .nan _ => (0, true)
  | .inf neg => (if neg then 2 ^ (b - 1) else 2 ^ (b - 1) - 1, false)
  | .fin neg m e =>
    let r := roundUnits 0 m e
    if neg then (if r ≤ 2 ^ (b - 1) then (2 ^ b - r) % 2 ^ b else 2 ^ (b - 1), false)
    else (min r (2 ^ (b - 1) - 1), false)

/-- Conversion into the format of a code: the element and whether `FLAG_NAN` is set (R107). -/
def encodeElem (code : Nat) (v : FVal) : Nat × Bool :=
  match floatFmt code with
  | some f => f.encode v
  | none => encodeInt (fmtBits code) v

/-! ### FP32 arithmetic (R40, R501) -/

/-- The positive canonical NaN (R501). -/
def canonNaN : F32 := 0x7FC00000#32

def valF32 (x : F32) : FVal := fp32.decode x.toNat

/-- FP32 of a value that is no NaN operand: NaNs become canonical. -/
def toF32 : FVal → F32
  | .nan _ => canonNaN
  | v => BitVec.ofNat 32 (fp32.encode v).1

/-- The canonical NaN for every NaN. -/
def canonF32 (x : F32) : F32 :=
  match valF32 x with
  | .nan _ => canonNaN
  | _ => x

/-- Exact sum of two finite values, −0 only from two −0 (R104). -/
def addFin (n1 : Bool) (m1 : Nat) (e1 : Int) (n2 : Bool) (m2 : Nat) (e2 : Int) : FVal :=
  let e := min e1 e2
  let s := signedM n1 (m1 * 2 ^ (e1 - e).toNat) + signedM n2 (m2 * 2 ^ (e2 - e).toNat)
  if s = 0 then .fin (n1 && n2) 0 e else .fin (s < 0) s.natAbs e

/-- Exact sum. -/
def addVal : FVal → FVal → FVal
  | .nan _, _ => .nan false
  | _, .nan _ => .nan false
  | .inf a, .inf b => if a = b then .inf a else .nan false
  | .inf a, .fin .. => .inf a
  | .fin .., .inf b => .inf b
  | .fin n1 m1 e1, .fin n2 m2 e2 =>
    if m1 = 0 ∧ m2 ≠ 0 then .fin n2 m2 e2
    else if m2 = 0 ∧ m1 ≠ 0 then .fin n1 m1 e1
    else addFin n1 m1 e1 n2 m2 e2

/-- Exact product. -/
def mulVal : FVal → FVal → FVal
  | .nan _, _ => .nan false
  | _, .nan _ => .nan false
  | .inf a, .inf b => .inf (a != b)
  | .inf a, .fin n m _ => if m = 0 then .nan false else .inf (a != n)
  | .fin n m _, .inf b => if m = 0 then .nan false else .inf (n != b)
  | .fin n1 m1 e1, .fin n2 m2 e2 => .fin (n1 != n2) (m1 * m2) (e1 + e2)

def negVal : FVal → FVal
  | .nan n => .nan n
  | .inf n => .inf !n
  | .fin n m e => .fin (!n) m e

def f32Add (a b : F32) : F32 := toF32 (addVal (valF32 a) (valF32 b))
def f32Sub (a b : F32) : F32 := toF32 (addVal (valF32 a) (negVal (valF32 b)))
def f32Mul (a b : F32) : F32 := toF32 (mulVal (valF32 a) (valF32 b))
/-- a × b + c, formed exactly and rounded once. -/
def f32Fma (a b c : F32) : F32 := toF32 (addVal (mulVal (valF32 a) (valF32 b)) (valF32 c))
def f32Neg (a : F32) : F32 := a ^^^ 0x80000000#32
def f32Abs (a : F32) : F32 := a &&& 0x7FFFFFFF#32

def f32IsNaN (a : F32) : Bool :=
  match valF32 a with
  | .nan _ => true
  | _ => false

def f32IsFinite (a : F32) : Bool :=
  match valF32 a with
  | .fin .. => true
  | _ => false

/-- Rank of a value that is no NaN, −0 below +0 (R501). -/
def f32Rank (a : F32) : Int := if a.getLsbD 31 then -((a.toNat % 2 ^ 31 : Nat) : Int) - 1 else (a.toNat % 2 ^ 31 : Nat)

def f32Max (a b : F32) : F32 :=
  if f32IsNaN a ∨ f32IsNaN b then canonNaN else if f32Rank a < f32Rank b then b else a
def f32Min (a b : F32) : F32 :=
  if f32IsNaN a ∨ f32IsNaN b then canonNaN else if f32Rank b < f32Rank a then b else a

/-- Is a value below zero? (NaN and zeros are not.) -/
def f32Lt0 (a : F32) : Bool :=
  match valF32 a with
  | .inf n => n
  | .fin n m _ => n && m != 0
  | _ => false

/-- Quotient of two values, one rounding; 0 ÷ 0 and ∞ ÷ ∞ are NaN. -/
def f32Div (a b : F32) : F32 :=
  match valF32 a, valF32 b with
  | .nan _, _ => canonNaN
  | _, .nan _ => canonNaN
  | .inf _, .inf _ => canonNaN
  | .inf x, .fin n _ _ => toF32 (.inf (x != n))
  | .fin n _ _, .inf y => toF32 (.fin (n != y) 0 0)
  | .fin n1 m1 e1, .fin n2 m2 e2 =>
    if m2 = 0 then (if m1 = 0 then canonNaN else toF32 (.inf (n1 != n2)))
    else
      let q := ratDy m1 m2 (e1 - e2)
      toF32 (.fin (n1 != n2) q.1 q.2)

def f32One : F32 := 0x3F800000#32
def f32Half : F32 := 0x3F000000#32

/-- `RECIP`, correctly rounded (R501, R502). -/
def f32Recip (a : F32) : F32 := f32Div f32One a

/-- √a, one rounding; −0 gives −0, a negative value NaN. -/
def f32Sqrt (a : F32) : F32 :=
  match valF32 a with
  | .nan _ => canonNaN
  | .inf n => if n then canonNaN else a
  | .fin n m e =>
    if m = 0 then a
    else if n then canonNaN
    else
      let r := sqrtDy m 1 e
      toF32 (.fin false r.1 r.2)

/-- `RSQRT`, correctly rounded (R501, R502). -/
def f32Rsqrt (a : F32) : F32 :=
  match valF32 a with
  | .nan _ => canonNaN
  | .inf n => if n then canonNaN else 0
  | .fin n m e =>
    if m = 0 then toF32 (.inf n)
    else if n then canonNaN
    else
      let r := sqrtDy 1 m (-e)
      toF32 (.fin false r.1 r.2)

/-- The heath-gate: x for x ≥ 0; for x < 0 the correctly rounded quotient of x by 1 − x, itself rounded (R152). -/
def f32HeathGate (a : F32) : F32 :=
  match valF32 a with
  | .nan _ => canonNaN
  | .inf n => if n then 0xBF800000#32 else a
  | .fin n m _ => if ¬ n ∨ m = 0 then a else f32Div a (f32Sub f32One a)

/-! ### The units of R502 -/

def f32PosInf : F32 := 0x7F800000#32
def f32NegZero : F32 := 0x80000000#32

/-! The exact functions as fixed-point numbers: an integer in units of 2^−256, correct to about 2^−240 of the larger of 1 and the value. -/

/-- ln 2 and √(2 / π) in those units. -/
def fixLn2 : Int := 80260960185991308862233904206310070533990667611589946606122867505419956976171
def fixRoot2Pi : Int := 92388720265562225100004042351473451001048276763068025688572742865826802514525
def fixOne : Int := 2 ^ 256

def fixMul (a b : Int) : Int := a * b / 2 ^ 256

/-- (−1)^neg × m × 2^e. -/
def fixOf (neg : Bool) (m : Nat) (e : Int) : Int := signedM neg (if -256 ≤ e then m * 2 ^ (e + 256).toNat else m / 2 ^ (-256 - e).toNat)

/-- Terms of the exponential series of `r` from r^k / k! on, `term` being that one. -/
def expSeries (r : Int) : Nat → Int → Int → Int
  | 0, _, _ => 0
  | fuel + 1, k, term => term + expSeries r fuel (k + 1) (fixMul term r / (k + 1))

/-- e^x, for x taken between −200 and 200: outside, the values of the functions below are the same to FP32. -/
def fixExp (x : Int) : Int :=
  let x := max (min x (200 * fixOne)) (-200 * fixOne)
  let k := x / fixLn2
  let y := expSeries (x - k * fixLn2) 64 0 fixOne
  if 0 ≤ k then y * 2 ^ k.toNat else y / 2 ^ (-k).toNat

/-- 1 / (1 + e^−x), and tanh x. -/
def fixSigmoid (x : Int) : Int := let y := fixExp (-(x.natAbs : Int)); (if 0 ≤ x then fixOne else y) * fixOne / (fixOne + y)
def fixTanh (x : Int) : Int :=
  let y := fixExp (-(2 * x.natAbs : Int))
  let v := (fixOne - y) * fixOne / (fixOne + y)
  if 0 ≤ x then v else -v

/-- One ulp of FP32 at the value `a`. -/
def fixUlp (a : Int) : Nat := 2 ^ (max (bitLen a.natAbs - 1) 130 - 23)

/-- Does the result `c` lie within `bound` of the exact result `a`? The bound is widened by 2^−40 of itself, for what `a` is off. -/
def fixNear (a : Int) (bound : Nat) (c : F32) : Bool :=
  match valF32 c with
  | .nan _ => false
  | .inf n => decide ((fixOf n 1 128 - a).natAbs ≤ bound + bound / 2 ^ 40)
  | .fin n m e => decide ((fixOf n m e - a).natAbs ≤ bound + bound / 2 ^ 40)

/-- The result of a unit whose fixed algorithm gives `c` where the exact result is `a`: `c`, which R502 puts within `bound`; an algorithm that
left the bound would be no unit of this module, and stands for the correctly rounded result. -/
def boundedUnit (a : Int) (bound : Nat) (c : F32) : F32 := if fixNear a bound c then c else toF32 (.fin (a < 0) a.natAbs (-256))

/-- A unit on a finite operand, given as its exact result, the bound of R502 and its algorithm; the limits of R501 at the infinities; NaN
operands give the canonical NaN. -/
def f32Unit (exact : Int → Int) (bound : Int → Int → Nat) (f : F32 → F32) (atNegInf atPosInf : F32) (x : F32) : F32 :=
  match valF32 x with
  | .nan _ => canonNaN
  | .inf n => if n then atNegInf else atPosInf
  | .fin n m e => let v := fixOf n m e; boundedUnit (exact v) (bound v (exact v)) (f x)

/-- Within 2 ulp; within 4 ulp, or `k` × 2^−24 × |s0| (R502). -/
def within2 (_ a : Int) : Nat := 2 * fixUlp a
def within4 (x a : Int) : Nat := max (4 * fixUlp a) (x.natAbs / 2 ^ 24)

def f32Tanh : F32 → F32 := f32Unit fixTanh within2 Config.tanhUnit 0xBF800000#32 f32One
def f32Sigmoid : F32 → F32 := f32Unit fixSigmoid within2 Config.sigmoidUnit 0 f32One
def f32Exp : F32 → F32 := f32Unit fixExp within2 Config.expUnit 0 f32PosInf

/-- The tanh form of GELU, ½ x (1 + tanh(√(2/π) (x + 0.044715 x³))), which is x × sigmoid of twice the inner value (log entry 101). -/
def fixGelu (x : Int) : Int :=
  let y := max (min x (100 * fixOne)) (-100 * fixOne)
  let u := fixMul fixRoot2Pi (y + 44715 * fixMul y (fixMul y y) / 1000000)
  fixMul x (fixSigmoid (2 * u))

def f32Gelu : F32 → F32 := f32Unit fixGelu within4 Config.geluUnit f32NegZero f32PosInf
def f32Silu : F32 → F32 := f32Unit (fun x => fixMul x (fixSigmoid x)) within4 Config.siluUnit f32NegZero f32PosInf

/-- `ELU` with parameter `imm`: s0, or `imm` × (e^s0 − 1) when s0 < 0, by its unit where both are finite (R501, R502). -/
def f32Elu (imm x : F32) : F32 :=
  match valF32 x, valF32 imm with
  | .nan _, _ => canonNaN
  | .inf n, _ => if n then canonF32 (f32Neg imm) else x
  | .fin n m e, v =>
    if ¬ n ∨ m = 0 then x
    else
      match v with
      | .nan _ => canonNaN
      | .inf k => toF32 (.inf !k)
      | .fin k mi ei =>
        let v := fixOf n m e
        let drop := (fixExp v - fixOne).natAbs
        let a := fixOf (!k) (drop * mi) (ei - 256)
        let scale := max (2 ^ 256) (fixOf false mi ei).natAbs
        boundedUnit a (max (4 * fixUlp a) (v.natAbs * scale / 2 ^ 280)) (Config.eluUnit x imm)

/-! ### Sums with a 40-bit significand (R40) -/

/-- Add and round to a 40-bit significand. DESIGN CHOICE, log entry 102: R40 gives the running sum no exponent range; the model takes it
unbounded, so only the one rounding to FP32 at the end overflows or underflows. -/
def add40 (a b : FVal) : FVal :=
  match addVal a b with
  | .fin n m e => let r := roundSig 40 m e; .fin n r.1 r.2
  | v => v

/-- Start from +0 and add in ascending order (R40). -/
def sum40 (l : List FVal) : FVal := l.foldl add40 (.fin false 0 0)

end Sys2Proof.Machine
end

