-- ==== Sys2Proof/Machine/Flit.lean ====
section
/-! DEFINITION. Flits as bits and fields, their CRC-32C (R260, R172), and the routes of the torus (R249, R263, R275, R77). -/

namespace Sys2Proof.Machine

/-! ### CRC-32C -/

/-- `n` steps of the reflected Castagnoli polynomial. -/
def crcBits : Nat → BitVec 32 → BitVec 32
  | 0, c => c
  | n + 1, c => crcBits n (if c.getLsbD 0 then (c >>> 1) ^^^ 0x82F63B78#32 else c >>> 1)

/-- CRC-32C with initial value and final exclusive-or of all ones (R172). -/
def crc32c (bs : List Byte) : BitVec 32 :=
  ~~~(bs.foldl (fun c b => crcBits 8 (c ^^^ b.setWidth 32)) 0xFFFFFFFF#32)

/-- The first `n` bytes of a list, with zeros behind a shorter one. -/
def padTo (n : Nat) (l : List Byte) : List Byte := l.take n ++ List.replicate (n - l.length) 0

/-! ### Fields of a flit (Table 10.7) -/

def boolNat (b : Bool) : Nat := if b then 1 else 0

/-- The 96-bit header. -/
def Flit.header (f : Flit) : BitVec 96 :=
  BitVec.ofNat 96 (f.type % 16 + 2 ^ 4 * (f.vc % 8) + 2 ^ 7 * boolNat f.first + 2 ^ 8 * boolNat f.last + 2 ^ 9 * (f.seq % 4096)
    + 2 ^ 21 * (f.ack % 4096) + 2 ^ 33 * (f.crVc % 8) + 2 ^ 36 * (f.crCount % 256) + 2 ^ 44 * (f.len % 256) + 2 ^ 52 * (f.dest % 2 ^ 17)
    + 2 ^ 69 * (f.dirs % 16) + 2 ^ 73 * boolNat f.alt + 2 ^ 74 * boolNat f.poison + 2 ^ 75 * (f.tag % 2 ^ 21))

/-- The CRC over header and payload of a wire flit. -/
def goodCrc (x : WireFlit) : Bool := crc32c (leBytes 12 x.hdr.toNat ++ padTo 240 x.payload) == x.crc

/-- The fields of a wire flit; the payload keeps its first `LEN` bytes. -/
def fieldsOf (x : WireFlit) : Flit :=
  let h := x.hdr
  { type := bitsAt h 0 4, vc := bitsAt h 4 3, first := h.getLsbD 7, last := h.getLsbD 8, seq := bitsAt h 9 12, ack := bitsAt h 21 12,
    crVc := bitsAt h 33 3, crCount := bitsAt h 36 8, len := bitsAt h 44 8, dest := bitsAt h 52 17, dirs := bitsAt h 69 4,
    alt := h.getLsbD 73, poison := h.getLsbD 74, tag := bitsAt h 75 21, payload := padTo (bitsAt h 44 8) x.payload }

/-- Byte `i` of a list, 0 past its end, and `n` bytes from `i` as a number. -/
def byteAt (l : List Byte) (i : Nat) : Byte := l.getD i 0
def natAt (l : List Byte) (i n : Nat) : Nat := leNat ((l.drop i).take n)

/-! ### Coordinates and rings (R9, R227, R263, R275) -/

/-- Position of coordinate `co` on axis 0 W, 1 X, 2 Y, 3 Z. -/
def coordAt (co axis : Nat) : Nat :=
  match axis with
  | 0 => co / 2 ^ 13 % 16
  | 1 => co / 2 ^ 8 % 32
  | 2 => co / 2 ^ 4 % 16
  | _ => co % 16

/-- `co` with its position on an axis replaced. -/
def coordSet (co axis v : Nat) : Nat :=
  match axis with
  | 0 => co % 2 ^ 13 + 2 ^ 13 * (v % 16)
  | 1 => 2 ^ 13 * (co / 2 ^ 13) + 2 ^ 8 * (v % 32) + co % 2 ^ 8
  | 2 => 2 ^ 8 * (co / 2 ^ 8) + 2 ^ 4 * (v % 16) + co % 2 ^ 4
  | _ => 2 ^ 4 * (co / 2 ^ 4) + v % 16

/-- Ring length of an axis. -/
def State.ringLen (s : State) (axis : Nat) : Nat :=
  1 + match axis with
    | 0 => s.fld F.torusDims.w
    | 1 => s.fld F.torusDims.x
    | 2 => s.fld F.torusDims.y
    | _ => s.fld F.torusDims.z

/-- Is position `n` of this module's ring of an axis active? -/
def State.activeAt (s : State) (axis n : Nat) : Bool := n < s.ringLen axis && !(s.reg (R.bypassMap axis)).getLsbD n

/-- The active positions of a ring, rising. -/
def State.activePositions (s : State) (axis : Nat) : List Nat := (upto (s.ringLen axis)).filter (s.activeAt axis)

/-- Steps over active positions from `a` to `b` going up a ring. -/
def State.stepsUp (s : State) (axis a b : Nat) : Nat :=
  let l := s.ringLen axis
  ((upto ((b + l - a) % l)).filter fun i => s.activeAt axis ((a + i + 1) % l)).length

/-- Steps from `a` to `b` in a direction, 0 up and 1 down. -/
def State.ringSteps (s : State) (axis dir a b : Nat) : Nat := if dir = 0 then s.stepsUp axis a b else s.stepsUp axis b a

/-- The direction of the shortest path on one axis, ties to + (R263), or to − for the half of an exchange that goes that way (R236; log
entry 111). -/
def State.shortDir (s : State) (axis a b : Nat) (minus : Bool := false) : Nat :=
  if a = b then 0
  else if s.stepsUp axis a b = s.stepsUp axis b a then boolNat minus
  else if s.stepsUp axis a b < s.stepsUp axis b a then 0 else 1

/-- Travel directions to `dest`, reversed on every axis that differs when `alt` is set (Table 10.7 `DIRS`). -/
def State.dirsTo (s : State) (dest : Nat) (alt : Bool) (minus : Bool := false) : Nat :=
  ((upto 4).map fun a =>
    let d := s.shortDir a (coordAt s.coord a) (coordAt dest a) minus
    let d := if alt ∧ coordAt s.coord a ≠ coordAt dest a then 1 - d else d
    d * 2 ^ a).sum

/-- Direction of an axis in a `DIRS` field. -/
def dirOf (dirs axis : Nat) : Nat := dirs / 2 ^ axis % 2

/-- The first axis, in the order W, X, Y, Z, on which `dest` differs from this module. -/
def State.nextAxis (s : State) (dest : Nat) : Option Nat :=
  (upto 4).find? fun a => coordAt s.coord a != coordAt dest a

/-- The port a flit to `dest` leaves by. -/
def State.outPort (s : State) (dest dirs : Nat) : Option Nat := (s.nextAxis dest).map fun a => 2 * a + dirOf dirs a

/-- Hops on the whole route. -/
def State.hopsTo (s : State) (dest dirs : Nat) : Nat :=
  ((upto 4).map fun a => s.ringSteps a (dirOf dirs a) (coordAt s.coord a) (coordAt dest a)).sum

/-- Bypassed modules on the whole route. -/
def State.bypassedTo (s : State) (dest dirs : Nat) : Nat :=
  ((upto 4).map fun a =>
    let l := s.ringLen a
    let n := if dirOf dirs a = 0 then coordAt dest a + l - coordAt s.coord a else coordAt s.coord a + l - coordAt dest a
    n % l - s.ringSteps a (dirOf dirs a) (coordAt s.coord a) (coordAt dest a)).sum

/-- Does a flit leaving this module on an axis cross the ring's dateline (R263)? -/
def State.crossesDateline (s : State) (axis dir : Nat) : Bool :=
  let l := s.activePositions axis
  if dir = 0 then l.getLast? == some (coordAt s.coord axis) else l.head? == some (coordAt s.coord axis)

/-- The VC a flit of VC class `cls` leaves on: "before" on entering an axis, "after" once it crosses the dateline; `cur` is its VC
when it comes from the same axis. -/
def State.outVc (s : State) (cls axis dir : Nat) (cur : Option Nat) : Nat :=
  let after := (match cur with | some v => v % 2 == 1 | none => false) || s.crossesDateline axis dir
  2 * cls + boolNat after

/-- Does `dest` lie in the configured dimensions and at an active position on every axis (R77, R275)? -/
def State.destActive (s : State) (dest : Nat) : Bool := (upto 4).all fun a => s.activeAt a (coordAt dest a)

/-- Does the way to `dest` cross an axis whose Stile is closed at this module (R275)? -/
def State.crossesClosed (s : State) (dest : Nat) : Bool :=
  (upto 4).any fun a => (s.fld F.stileStatus.closed).testBit a && coordAt s.coord a != coordAt dest a

end Sys2Proof.Machine
end

