-- ==== Sys2Proof/Machine/Waits.lean ====
section
/-! DEFINITION. Blocked `WAIT`s: the queues that count their time, the watches they hold, and their withdrawal (R33, R48, R245). -/

namespace Sys2Proof.Machine

/-- The key of thread `n` of tile `t` in `State.threads`. -/
def thrKey (t n : Nat) : Nat := 16 * t + n

/-- Tile of a thread key, and number of the thread in it. -/
def keyTile (k : Nat) : Nat := k / 16
def keyThread (k : Nat) : Nat := k % 16

/-- The tile an object's counter lies in. -/
def objTile (obj : Nat) : Nat := (obj - 0x0100000000) / 0x10000

/-- Forget transfer `tid` of this module. -/
def State.dropXfer (s : State) (tid : Nat) : State := { s with xfers := s.xfers.filter fun x => x.tid != tid }

/-! ### The queues that count waits (R245) -/

/-- Indexes k of the queues of context `c` that are valid and name the counter at `obj`. -/
def State.queuesOf (s : State) (c obj : Nat) : List Nat :=
  (upto 16).filter fun k => s.bit (F.qCfg.v c k) && s.fld (F.qCfg.obj c k) == obj

/-- A `WAIT` on a queue's counter blocks. -/
def State.queueBlocked (s : State) (c obj : Nat) : State :=
  forEach (s.queuesOf c obj) (fun s k => s.bumpReg (R.qWaits c k)) s

/-- Keys of the threads of context `c` that are blocked in `WAIT` on the object `obj`. -/
def State.blockedOn (s : State) (c obj : Nat) : List Nat :=
  (s.threads.filter fun e => (e.2.wait.any fun w => w.obj == obj) && s.fld (F.threadCtl.ctx (keyTile e.1) (keyThread e.1)) == c).map (·.1)

/-- The earliest time any of the threads `ks` counts its `WAIT` from. -/
def State.blockedSince (s : State) (ks : List Nat) : Nat :=
  ks.foldl (fun t k => match (s.thread k).wait with
    | some w => min t w.since
    | none => t) s.now

/-- A `WAIT` on `obj` is about to end: the time during which at least one thread was blocked there is counted, once, and every thread
blocked there counts on from now. -/
def State.queueWaited (s : State) (c obj : Nat) : State :=
  let ks := s.blockedOn c obj
  let ps := s.now - s.blockedSince ks
  let s := forEach (s.queuesOf c obj) (fun s k => s.bumpReg (R.qWaitPs c k) ps) s
  forEach ks (fun s k => s.modThread k fun th => { th with wait := th.wait.map fun w => { w with since := s.now } }) s

/-! ### Giving up a wait -/

/-- A thread that stops or faults no longer waits for the array of its tile (R31). -/
def State.unreserve (s : State) (t n : Nat) : State :=
  if (s.tile t).preempting = some n then s.modTile t fun tl => { tl with preempting := none } else s

/-- Give up the watch of the thread with key `k` at the object `obj` (R48). -/
def State.dropWatch (s : State) (obj k : Nat) : State :=
  s.modTile (objTile obj) fun tl => { tl with watches := tl.watches.filter fun e => !(e.obj == obj && e.waiter == .inl k) }

/-- The `WAIT` of thread `n` of tile `t` is over: its time is counted (R245), and its watch, or the transfer that asks for one, is given
up (R48). -/
def State.leaveWait (s : State) (t n : Nat) : State :=
  let k := thrKey t n
  match (s.thread k).wait with
  | none => s
  | some wt =>
    let s := (s.queueWaited (s.fld (F.threadCtl.ctx t n)) wt.obj).modThread k fun th => { th with wait := none }
    match wt.watch with
    | .placed => s.dropWatch wt.obj k
    | .remote tid => s.dropXfer tid
    | _ => s

end Sys2Proof.Machine
end

