-- ==== Sys2Proof/Machine/Done.lean ====
section
/-! DEFINITION. The layout of the ring sets, and completing a ring command: among them a `CTX_STOP` with the last thread that stops, and a `FENCE`
with the last command before it (R323, R324, R357). -/

namespace Sys2Proof.Machine

/-! ### Threads as keys -/

/-- Is `k` the key of a `THREAD_STATUS` register? -/
def isStatusKey (k : Nat) : Bool :=
  0x0100000000 ≤ k && k < 0x0101000000 && k % 0x10000 < 0x800 && k % 0x80 == 0x10

/-- Every thread (as `(tile, thread)`) whose `STATE` is neither idle nor faulted. -/
def State.activeThreads (s : State) : List (Nat × Nat) :=
  (s.regs.filter fun e => isStatusKey e.1 && !(e.2.toNat % 8 == 0 || e.2.toNat % 8 == 6)).map fun e =>
    ((e.1 - 0x0100000000) / 0x10000, e.1 % 0x10000 / 0x80)

/-- Every thread of a context reads `STATE` 0 or 6. -/
def State.quiet (s : State) (c : Nat) : Bool := !(s.activeThreads.any fun tn => s.fld (F.threadCtl.ctx tn.1 tn.2) == c)

/-- Firmware core `n` runs (R343: `STATE` 2). -/
def State.coreRuns (s : State) (n : Nat) : Bool := s.fld (F.coreStatus.state n) == 2

/-! ### Layout (Table 12.9) -/

def ringBase (r : Nat) : Nat := 0x4002000000 + 0x200000 * r
def cmdAt (r count : Nat) : Nat := ringBase r + 64 * (count % 8192)
def cqAt (r count : Nat) : Nat := 0x80000 + ringBase r + 64 * (count % 8192)
def eqAt (r count : Nat) : Nat := 0x100000 + ringBase r + 64 * (count % 8192)
def markAt (r count : Nat) : Nat := 0x180000 + ringBase r + 8 * (count % 8192)

/-- How far count `a` lies above count `b`, modulo 2^32. -/
def above (a b : Nat) : Nat := (2 ^ 32 + a - b % 2 ^ 32) % 2 ^ 32
def next32 (a : Nat) : Nat := (a + 1) % 2 ^ 32

/-! ### Completing a command -/

/-- Write the executed mark of a command. -/
def State.mark (s : State) (r : Nat) (c : RingCmd) : State := s.setMemNat (markAt r c.count) 8 c.seq

/-- One command completes: it leaves the list of commands in progress, and F0, while it runs, writes its mark. -/
def State.finishOne (s : State) (r : Nat) (c : RingCmd) (status : Nat) (detail : Nat := 0) (count : Nat := 0) : State :=
  let s := s.modRing r fun x =>
    { x with
      run := x.run.filter fun y => y.count != c.count
      done := x.done ++ [{ cmd := c, status := status, detail := detail, count := count, time := s.now }] }
  if s.coreRuns 0 then s.mark r c else s

/-- A `FENCE` with no earlier command of its ring in progress completes (Table 12.11). -/
def State.fences (s : State) (r : Nat) : Nat → State
  | 0 => s
  | fuel + 1 =>
    match (s.ring r).run with
    | [] => s
    | c :: _ => if c.op = 0x08 then (s.finishOne r c 0).fences r fuel else s

/-- A command completes, and each `FENCE` that waited for it alone. -/
def State.finish (s : State) (r : Nat) (c : RingCmd) (status : Nat) (detail : Nat := 0) (count : Nat := 0) : State :=
  (s.finishOne r c status detail count).fences r (s.ring r).run.length

/-- Commands in progress whose condition has come: `CTX_STOP` once every thread has stopped, `FENCE` once every earlier command has completed. -/
def State.settleRing (s : State) (r : Nat) : State :=
  let s := forEach ((s.ring r).run.filter fun c => c.op == 0x02) (fun s c => if s.quiet r then s.finish r c 0 else s) s
  s.fences r (s.ring r).run.length

/-- A thread of context `c` has stopped or faulted: a `CTX_STOP` in progress may be complete. -/
def State.threadStops (s : State) (c : Nat) : State := if (s.ring c).run = [] then s else s.settleRing c

end Sys2Proof.Machine
end

