-- ==== Sys2Proof/Machine/Log.lean ====
section
/-! DEFINITION. Stopping threads and contexts, interrupts to the host, and entering an event into the error log with the
outcome of its severity (R33, R327, R385, R403, R412, R418 to R421, R434). -/

namespace Sys2Proof.Machine

/-- The threads of a tile that read blocked on a queue, or preempted with their claim back, look at it again. -/
def State.retryTile (s : State) (t : Nat) : State :=
  forEach (upto 16) (fun s n => if s.fld (F.threadStatus.state t n) = 3 then s.setFld (F.threadStatus.state t n) 1 else s) s

/-- Stop one thread as a write of `STOP` does (R33): a pending `WAIT` is withdrawn; a descriptor it holds and its outstanding ones
still complete, and `STATE` reads 7 until they have, then 0. A thread that is not running is left alone. -/
def State.stopThread (s : State) (t n : Nat) : State :=
  let st := s.fld (F.threadStatus.state t n)
  if st = 0 ∨ st = 6 ∨ st = 7 then s
  else
    let s := (s.leaveWait t n).unreserve t n
    let th := s.thread (thrKey t n)
    if th.pend.isEmpty && th.held.isNone then
      ((s.setThread (thrKey t n) { th with ending := .none }).setFld (F.threadStatus.state t n) 0).threadStops (s.fld (F.threadCtl.ctx t n))
    else
      (s.setThread (thrKey t n) { th with ending := .stop }).setFld (F.threadStatus.state t n) 7

/-- Stop every thread of context `c`. -/
def State.stopThreads (s : State) (c : Nat) : State :=
  forEach (s.activeThreads.filter fun tn => s.fld (F.threadCtl.ctx tn.1 tn.2) == c)
    (fun s tn => s.stopThread tn.1 tn.2) s

/-! ### The vote and commit words of this module -/

/-- A word of Table 8.1: abort bits, and t[23:0] as both `STEP_MIN` and `STEP_MAX` (R190, R196). -/
def stepWord (bits t : Nat) : Word :=
  BitVec.ofNat 64 (bits % 64 + 2 ^ 16 * (t % 2 ^ 24) + 2 ^ 40 * (t % 2 ^ 24))

/-- `SWEEP_STATUS.STATE` takes a value of the step's course, 0 to 4; the stopped values 5 to 7 stay (Table 8.9). -/
def State.setStep (s : State) (c v : Nat) : State :=
  if s.fld (F.sweepStatus.state c) ≤ 4 then s.setFld (F.sweepStatus.state c) v else s

/-- The sweep no longer waits for a staging read: it goes on, or ends; the wait is counted in `PUB_STAGE_WAIT` (R337). -/
def State.stageWaited (s : State) (c : Nat) : State :=
  match (s.ctx c).stageFrom with
  | none => s
  | some t =>
    (s.setObj (O.pubStageWait c) (min (s.obj (O.pubStageWait c) + (s.now - t)) (2 ^ 64 - 1))).modCtx c fun x => { x with stageFrom := none }

/-- F2 arrives on the module's behalf at the barrier a stopped context has pending (R412): at the vote with `NOT_READY`, at
the commit barrier with `SWEEP_ABORT`. A context whose sweep is not enabled has none; while F2 is down the arrival stays owed (R355). -/
def State.arriveAbsent (s : State) (c : Nat) : State :=
  if ¬ s.bit (F.sweepCtl.enable c) then s
  else
    let x := s.ctx c
    let t := (s.reg (R.sweepStep c)).toNat
    if ¬ s.coreRuns 2 then s.setCtx c { x with owed := true }
    else
      let s := s.stageWaited c
      let x := { s.ctx c with owed := false }
      match x.phase with
      | .compute => ((s.setCtx c { x with phase := .voteWait }).setStep c 1).send (.voteArrive c (stepWord (x.voteBits ||| 4) t))
      | .sweep => ((s.setCtx c { x with phase := .commitWait }).setStep c 3).send (.commitArrive c (stepWord (x.commitBits ||| 1) t))
      | _ => s.setCtx c x

/-- Stop a context for good, as a context-fatal entry does (R418): its threads stop, F2 arrives at its pending barrier, and
it stays stopped until it is reset. A context that is not running has nothing to arrive at. -/
def State.haltCtx (s : State) (c : Nat) : State :=
  let wasRunning := (s.ctx c).running
  let s := (s.modCtx c fun x => { x with running := false, halted := true }).stopThreads c
  if wasRunning then s.arriveAbsent c else s

/-! ### Interrupts (R327) -/

/-- Count one entry of MSI-X vector `v` and fire when it is due: at once when `now` is set or the vector is not moderated,
else when the set number of entries is reached. -/
def State.vectorEntry (s : State) (v : Nat) (now : Bool) : State :=
  let n := Tab.get (fun _ => 0) s.vecCount v + 1
  if s.d3hot then s
  else if now ∨ s.fld (F.intMod.entries v) ≤ n then { s with vecCount := Tab.put (fun _ => 0) s.vecCount v 0 }.fire v
  else { s with vecCount := Tab.put (fun _ => 0) s.vecCount v n }

/-- Set cause bit `bit_` of `INT_CAUSE` and count an entry of its vector unless the mask suppresses it. -/
def State.interrupt (s : State) (bit_ vector : Nat) (now : Bool := false) : State :=
  let s := s.setFld ⟨R.intCause, bit_, 1⟩ 1
  if (s.reg R.intMask).getLsbD bit_ then s else s.vectorEntry vector now

/-! ### Entering an event (R420, R421) -/

def logSlots : List Nat := upto 256

/-- The queued slot an occurrence merges into. -/
def State.mergeSlot (s : State) (code func unit : Nat) : Option Nat :=
  logSlots.find? fun i =>
    let e := s.logSlot i
    e.state == 1 && e.code == code && e.func == func && e.unit == unit

/-- Slots used by entries of severity 0 to 4. -/
def State.lowUsed (s : State) : Nat := (s.log.filter fun e => e.2.state != 0 && e.2.sev < 5).length

/-- The free slot an entry of severity `sev` takes (R421). -/
def State.freeSlot (s : State) (sev : Nat) : Option Nat :=
  if sev < 5 ∧ 224 ≤ s.lowUsed then none
  else logSlots.find? fun i => (s.logSlot i).state == 0

/-- `a` goes before `b` as a slot to drop: lower severity, then higher `SEQ`. -/
def dropBefore (a b : LogSlot) : Bool := a.sev < b.sev || (a.sev == b.sev && b.seq < a.seq)

/-- The queued slot R421 drops first. -/
def State.victimSlot (s : State) : Option (Nat × LogSlot) :=
  (s.log.filter fun e => e.2.state == 1).foldl (fun acc e =>
    match acc with
    | none => some e
    | some v => if dropBefore e.2 v.2 then some e else some v) none

/-- Queue a notification of a slot as it stands, when the subscription asks for it (R385). -/
def State.notify (s : State) (e : LogSlot) : State :=
  if s.obj O.evtSubMac = 0 ∨ e.sev < s.obj O.evtSubMinSev ∨ ¬ (s.obj O.evtSubFuncMask).testBit e.func then s
  else
    let q := (s.obj O.evtSubSeq + 1) % 2 ^ 32
    let s := s.setObj O.evtSubSeq q
    if s.notices.length < 16 then { s with notices := s.notices ++ [{ seq := q, entry := e }] }
    else s.setObj O.evtSubDropped (min (s.obj O.evtSubDropped + 1) (2 ^ 32 - 1))

/-- The drop counter of severity `sev`. -/
def dropField (sev : Nat) : Fld := ⟨R.logDropped, 10 * sev, 10⟩

/-- Count a dropped entry. -/
def State.countDrop (s : State) (sev : Nat) : State := (s.setFld F.logStatus.overflow 1).bump (dropField sev)

/-- Write a new entry into slot `i` with the next arrival number, and notify. -/
def State.openSlot (s : State) (i code sev func unit data flags : Nat) : State :=
  let e : LogSlot :=
    { code := code, sev := sev, func := func, unit := unit, time := s.now, data := data, state := 1, flags := flags,
      merged := 1, lastTime := s.now, seq := (s.reg R.logNextSeq).toNat }
  ((s.setLogSlot i e).bumpReg R.logNextSeq).notify e

/-- Place an occurrence in the log (R420, R421), without its severity's outcome. -/
def State.logPlace (s : State) (code sev func unit data flags : Nat) : State :=
  match s.mergeSlot code func unit with
  | some i =>
    let e := s.logSlot i
    let raised := e.sev < sev
    let e :=
      { e with
        merged := min (e.merged + 1) (2 ^ 32 - 1), lastTime := s.now, sev := max e.sev sev
        flags := if raised then e.flags ||| 4 else e.flags }
    let s := s.setLogSlot i e
    if raised then s.notify e else s
  | none =>
    match s.freeSlot sev with
    | some i => s.openSlot i code sev func unit data flags
    | none =>
      match s.victimSlot with
      | none => s.countDrop sev
      | some (i, v) =>
        if sev ≤ v.sev then s.countDrop sev
        else (s.countDrop v.sev).openSlot i code sev func unit data flags

/-- Raise the issue fence (R434): every context is stopped, and `MODULE_FENCED` is raised with the level. -/
def State.raiseFence (s : State) : State :=
  if s.fld F.fenceStatus.level = 0 then
    let s := s.setFld F.fenceStatus.level 1
    (forEach (upto 8) State.haltCtx s).logPlace 0x2007 2 0x04 0xFF (1 * 2 ^ 40) 0
  else s

/-- The outcome of a severity at entry (R418), `ctxs` being the contexts the event names. -/
def State.outcome (s : State) (sev : Nat) (ctxs : List Nat) : State :=
  if sev = 3 then
    forEach ctxs (fun s c => s.modCtx c fun x => match x.phase with
      | .voteWait | .sweep => { x with commitBits := x.commitBits ||| 1 }
      | _ => { x with voteBits := x.voteBits ||| 4 }) s
  else if sev = 4 then (forEach ctxs State.haltCtx s).interrupt 18 0
  else if sev = 5 then
    (({ forEach (upto 8) State.haltCtx s with faultLow := true }).interrupt 18 0).raiseFence
  else s

/-- Raise an event: the log takes, merges or drops it, and the outcome of its severity follows in every case (R418, R420).
`ctxs` are the contexts it names. -/
def State.raise (s : State) (code sev func unit data : Nat) (ctxs : List Nat := []) (flags : Nat := 0) : State :=
  (s.logPlace code sev func unit (data % 2 ^ 48) flags).outcome sev ctxs

/-- The `UNIT` of a tile and thread source (Table 12.13a). -/
def threadUnit (t n c : Nat) : Nat := n + 2 ^ 8 * t + 2 ^ 16 * c

end Sys2Proof.Machine
end

