-- ==== Sys2Proof/Machine/Link.lean ====
section
/-! DEFINITION. A port's link layer: its states, `LINK_DEGRADED`, sending a flit with `ACK` and credits, queueing, replay and
receiving (R255, R258, R261, R264 to R267, R270), and the parts of the transport that a flit meets on its way (R281). -/

namespace Sys2Proof.Machine

/-! ### Conditions of a promise (R290, R294, R405, R450) -/

/-- A throttle or an emergency acts (R450); `STOP_N` held low counts as one (R405, R452). -/
def State.throttled (s : State) : Bool := s.fld F.pwrStatus.level != 0 || s.bit F.pwrStatus.emergency || s.stopFrozen

/-- Lark reads locked or grandmaster. -/
def State.larkLocked (s : State) : Bool := [2, 4].contains (s.fld F.larkStatus.state)

/-! ### Port states (Table 10.5) -/

abbrev psDisabled : Nat := 0
abbrev psLaser : Nat := 1
abbrev psDetect : Nat := 2
abbrev psEqualise : Nat := 3
abbrev psAlign : Nat := 4
abbrev psHandshake : Nat := 5
abbrev psUp : Nat := 6
abbrev psLoop : Nat := 7
abbrev psArmed : Nat := 8
abbrev psDown : Nat := 9

def State.portState (s : State) (p : Nat) : Nat := s.fld (F.portStatus.state p)

/-- `UP` or `ARMED`. -/
def State.portLive (s : State) (p : Nat) : Bool := s.portState p == psUp || s.portState p == psArmed

/-- `FUNC_READY` bit `b` takes a value; a change sets `READY_CHG` (Table 12.7). -/
def State.setFuncReady (s : State) (b : Nat) (v : Bool) : State :=
  if (s.reg R.funcReady).getLsbD b = v then s else (s.setBit ⟨R.funcReady, b, 1⟩ v).interrupt 19 19

/-- R259: each port's own ready bit, and bit 4 of `FUNC_READY`. -/
def State.portsReady (s : State) : State :=
  let s := forEach (upto 8) (fun s p => s.setBit ⟨R.unitReady, 16 + p, 1⟩ (s.portLive p)) s
  s.setFuncReady 4 ((upto 8).all fun p => !s.bit (F.portCtl.enable p) || s.portLive p || s.portState p == psLoop)

/-- Enter a port state. -/
def State.enterPort (s : State) (p st : Nat) : State := (s.setFld (F.portStatus.state p) st).portsReady

/-- A port that retrains and has not reached `UP` (R258). -/
def State.retrains (s : State) (p : Nat) : Bool := (s.port p).retraining && 1 ≤ s.portState p && s.portState p ≤ 5

/-- The conditions of R294 that act at this module now, as bits of Table 11.9 counted from [26]: a throttle, a Stile that moves or a port that
retrains, Lark not locked. `LINK_DEGRADED` and an overrun are moments. -/
def State.condNow (s : State) : Nat :=
  boolNat s.throttled + 8 * boolNat (s.fld F.stileStatus.moving != 0 || (upto 8).any s.retrains) + 16 * boolNat (!s.larkLocked)

/-- A condition of R294 seen at this module marks every transfer open here, at either end, and the frames under judgement: bits of
Table 11.9 counted from [26]. -/
def State.markSeen (s : State) (b : Nat) : State :=
  let s := forEach ((upto 8).filter fun c => s.bit (F.fcCtl.enable c)) (fun s c => s.modCtx c fun x => { x with fcSeen := x.fcSeen ||| 2 ^ b }) s
  { s with
    xfers := s.xfers.map fun x => { x with seen := x.seen ||| 2 ^ b }
    reassemblies := s.reassemblies.map fun r => { r with seen := r.seen ||| 2 ^ b }
    arrived := s.arrived.map fun a => { a with seen := a.seen ||| 2 ^ b }
    accepted := s.accepted.map fun x => { x with arrived := { x.arrived with seen := x.arrived.seen ||| 2 ^ b } } }

/-- The second of Lark time, plus 1. -/
def State.second (s : State) : Nat := s.now / 10 ^ 12 + 1

/-- Raise `LINK_DEGRADED` of a port, each reason at most once a second; a repeat in that second is merged into the entry still
queued (R270, Table 10.13). -/
def State.linkDegraded (s : State) (p reason : Nat) : State :=
  let sev := if reason = 0 ∨ reason = 2 ∨ reason = 6 then 2 else 1
  if Tab.get (fun _ => 0) (s.port p).raised reason = s.second then
    (if (s.mergeSlot 0x2006 0x04 p).isSome then s.logPlace 0x2006 sev 0x04 p (p + 8 * reason) 0 else s)
  else
    let s := s.modPort p fun x => { x with raised := Tab.put (fun _ => 0) x.raised reason s.second }
    (s.raise 0x2006 sev 0x04 p (p + 8 * reason)).markSeen 1

/-! ### Sending -/

/-- The next VC that has credits to return, in round robin from the port's turn. -/
def Port.creditPick (x : Port) : Option Nat :=
  ((upto 8).map fun i => (x.creditTurn + i) % 8).find? fun v => Tab.get (fun _ => 0) x.owed v != 0

/-- Send a flit with the fields every flit carries: the last `SEQ` received in order and returned credits (R261, R264). -/
def State.sendFlit (s : State) (p : Nat) (f : Flit) : State :=
  let x := s.port p
  let f := { f with ack := (x.expect + 4095) % 4096 }
  match x.creditPick with
  | none => s.send (.flit p f)
  | some v =>
    let n := min (Tab.get (fun _ => 0) x.owed v) 255
    let x := { x with owed := Tab.put (fun _ => 0) x.owed v (Tab.get (fun _ => 0) x.owed v - n), creditTurn := (v + 1) % 8 }
    (s.setPort p x).send (.flit p { f with crVc := v, crCount := n })

/-- One credit of a VC is to be returned on a port (R264). -/
def State.oweCredit (s : State) (p v : Nat) : State :=
  s.modPort p fun x => { x with owed := Tab.put (fun _ => 0) x.owed v (Tab.get (fun _ => 0) x.owed v + 1) }

/-- Queue a `DATA` flit at a port. -/
def State.queueFlit (s : State) (p : Nat) (q : QFlit) : State := s.modPort p fun x => { x with txq := x.txq ++ [q] }

/-- Send `NAK` with the expected `SEQ` (R265). -/
def State.sendNak (s : State) (p : Nat) : State :=
  (s.modPort p fun x => { x with nakOut := true }).sendFlit p { type := 2, seq := (s.port p).expect }

/-- On a discard: `NAK` unless one is already out (R265). -/
def State.nakOnce (s : State) (p : Nat) : State := if (s.port p).nakOut then s else s.sendNak p

/-! ### Training and its end (R255, R258) -/

/-- Start training from `LASER`; `keep` holds sequence numbers, replay buffer and credits (R258). No lane is locked until `ALIGN`. -/
def State.startTraining (s : State) (p : Nat) (keep : Bool) : State :=
  let s := (s.bumpReg (R.portTrains p)).setReg (R.portLanes p) 0
  let s := s.modPort p fun x =>
    if keep then { x with retraining := true, failReason := 0, arming := false }
    else { x with retraining := false, failReason := 0, nextSeq := 0, expect := 0, nakOut := false, replayAt := none, replay := [], arming := false }
  ((s.setFld (F.portStatus.downReason p) 0).enterPort p psLaser)

/-- A retrain of a port in `UP` or `ARMED` (R258); `reason` is what a failure of it is put down to. -/
def State.retrain (s : State) (p : Nat) (reason : Nat := 0) : State :=
  if s.portLive p then
    let s := (s.startTraining p true).linkDegraded p 5
    (s.modPort p fun x => { x with failReason := reason }).markSeen 3
  else s

/-- Nothing is routed onto a port that is disabled, that failed to train and has not read `UP` since (R258), or that is in a function reset, of its
own or of the link domain (R410). -/
def State.portGone (s : State) (p : Nat) : Bool :=
  s.portState p == psDisabled || s.portState p == psDown || (s.port p).lost || s.fresets.any fun f => f.func == 4 && (f.unit == p || f.unit == 0xFF)

/-- Is it a transfer of a context, which the fence holds back (R434)? -/
def isContextKind (kind : Nat) : Bool := [1, 3, 4, 5, 8, 9].contains kind

/-- Transaction kinds a router answers with an error response (Table 11.2). -/
def isRequestKind (k : Nat) : Bool := (1 ≤ k && k ≤ 7) && k != 2

/-! ### Error responses of this module's router (R258, R275, R283) -/

/-- The REF of a request: its `TAG`; the stream sequence the spec does not let the answering end see is a free value. -/
def State.refOf (s : State) (tag : Nat) : Nat × State :=
  let (v, s) := s.free
  (tag + 2 ^ 21 * (v.toNat % 2048), s)

/-- The flits of a transfer: `FIRST` with 32 header bytes and up to 208 data bytes, then up to 240 each (R280). -/
def splitData : Nat → List Byte → List (List Byte)
  | 0, _ => []
  | fuel + 1, l => if l = [] then [] else l.take 240 :: splitData fuel (l.drop 240)

def transferFlits (hdr data : List Byte) : List (List Byte) := (hdr ++ data.take 208) :: splitData data.length (data.drop 208)

/-- The 32-byte transport header (Table 11.1). -/
def transportHeader (kind ctx tclass jobTag len offset deadline ref aux : Nat) : List Byte :=
  leBytes 1 kind ++ leBytes 1 (ctx % 8 + 16 * (tclass % 4)) ++ leBytes 2 jobTag ++ leBytes 4 len ++ leBytes 8 (offset % 2 ^ 40)
    ++ leBytes 8 deadline ++ leBytes 4 ref ++ leBytes 4 aux

/-- Number the flits of one transfer at a port: `grants` names their slots, in order; `own` marks a context's. -/
def mkFlits (proto : Flit) (turn : Nat) (own : Bool) : Bool → List (List Byte) → List Nat → List QFlit
  | _, [], _ => []
  | first, b :: rest, grants =>
    { flit := { proto with type := 1, first := first, last := rest.isEmpty, len := b.length, payload := b }, grant := grants.head?, turn := turn, own := own }
      :: mkFlits proto turn own false rest grants.tail

/-- Send a transfer's flits towards `dest` on VC class `cls`; false when its first hop is not to be had (R258, R275). -/
def State.launch (s : State) (dest stream cls : Nat) (alt : Bool) (bodies : List (List Byte)) (grants : List Nat)
    (minus : Bool := false) : State × Bool :=
  let dirs := s.dirsTo dest alt minus
  match s.nextAxis dest with
  | none => (s, false)
  | some a =>
    let p := 2 * a + dirOf dirs a
    if ¬ s.destActive dest ∨ s.crossesClosed dest ∨ s.portGone p then (s, false)
    else
      let proto : Flit :=
        { vc := s.outVc cls a (dirOf dirs a) none, dest := dest, dirs := dirs, alt := alt, tag := s.coord + 2 ^ 17 * (stream % 16) }
      ({ s.modPort p fun x => { x with txq := x.txq ++ mkFlits proto s.launches (isContextKind (natAt (bodies.headD []) 0 1)) true bodies grants } with launches := s.launches + 1 }, true)

/-- VC class of the answer to a request that came on `vc`: a read response to an admitted request goes as admitted response;
completions and error responses keep the class (Table 11.2). -/
def answerClass (kind vc : Nat) : Nat := if kind = 2 ∧ vc / 2 = 1 then 2 else vc / 2

/-- Answer a request that came with `TAG` `tag` on `vc`: kind 0x02, 0x0B or 0x0C. An answer that cannot be routed is lost. -/
def State.answer (s : State) (kind tag vc ctx tclass jobTag deadline aux : Nat) (data : List Byte) : State :=
  let (ref, s) := s.refOf tag
  let hdr := transportHeader kind ctx tclass jobTag data.length 0 deadline ref aux
  (s.launch (tag % 2 ^ 17) (tag / 2 ^ 17) (answerClass kind vc) false (transferFlits hdr data) []).1

/-- Answer an arrived request. -/
def State.answerTo (s : State) (a : Arrived) (kind aux : Nat) (data : List Byte) : State :=
  s.answer kind (a.src + 2 ^ 17 * a.stream) a.vc a.ctx a.tclass a.jobTag a.deadline aux data

/-- The router answers a request's `FIRST` flit with an error response. -/
def State.answerError (s : State) (f : Flit) : State :=
  if isRequestKind (natAt f.payload 0 1) then
    s.answer 0x0C f.tag f.vc (natAt f.payload 1 1 % 8) (natAt f.payload 1 1 / 16 % 4) (natAt f.payload 2 2) (natAt f.payload 16 8) 0 []
  else s

/-! ### A port goes down (R258, R276) -/

/-- The port enters `DOWN`: replay buffer and output queues are dropped; reason 6 of `LINK_DEGRADED`. -/
def State.portDown (s : State) (p reason : Nat) : State :=
  let held := (s.port p).txq.filterMap (·.held)
  let s := s.modPort p fun x =>
    { x with txq := [], replay := [], replayAt := none, retraining := false, ledger := [], failReason := 0, arming := false, lost := true }
  let s := forEach held (fun s pv => s.oweCredit pv.1 pv.2) s
  let s := (s.setFld (F.portStatus.downReason p) reason).enterPort p psDown
  ((s.setFld (F.portStatus.width p) 0).setFld (F.portLanes.locked p) 0).linkDegraded p 6

/-! ### Receiving -/

/-- Take `ACK` and returned credits of a flit that passed its CRC (R261, R264, R265). -/
def State.takeAck (s : State) (p : Nat) (f : Flit) : State :=
  let x := s.port p
  let s :=
    match x.replay.findIdx? fun r => r.flit.seq == f.ack with
    | none => s
    | some i =>
      let at_ := match x.replayAt with
        | none => none
        | some j => if j ≤ i then (if (x.replay.drop (i + 1)).isEmpty then none else some 0) else some (j - (i + 1))
      s.setPort p { x with replay := x.replay.drop (i + 1), replayAt := at_ }
  let s := if f.crCount = 0 then s else s.setFld (F.portVcCredit.val p f.crVc) (min (s.fld (F.portVcCredit.val p f.crVc) + f.crCount) 4095)
  if (s.port p).arming && (s.port p).replay.isEmpty then (s.modPort p fun x => { x with arming := false }).enterPort p psArmed else s

/-- A flit that fails its CRC is discarded with every field in it. -/
def State.crcFail (s : State) (p : Nat) : State := s.bumpReg (R.portCrcErr p)

/-- The transfer a finished reassembly holds (Table 11.1). -/
def Reassembly.arrived (r : Reassembly) : Arrived :=
  let h := r.payload
  let len := natAt h 4 4
  { kind := natAt h 0 1, ctx := natAt h 1 1 % 8, tclass := natAt h 1 1 / 16 % 4, jobTag := natAt h 2 2, len := len,
    offset := natAt h 8 8 % 2 ^ 40, deadline := natAt h 16 8, ref := natAt h 24 4, aux := natAt h 28 4, data := (h.drop 32).take len,
    src := r.tag % 2 ^ 17, stream := r.tag / 2 ^ 17, vc := r.vc, port := r.port,
    poison := r.poison, seen := r.seen }

/-- Take one flit addressed to this module into its reassembly (R281), which records the conditions that act (R296). Its buffer place is given
back. -/
def State.assemble (s : State) (p : Nat) (f : Flit) : State :=
  let same : Reassembly → Bool := fun r => r.tag == f.tag && r.vc == f.vc
  let add : Reassembly → Reassembly := fun r => { r with payload := r.payload ++ f.payload, poison := r.poison || f.poison }
  let s := s.oweCredit p f.vc
  let l := if f.first then s.reassemblies ++ [{ tag := f.tag, vc := f.vc, port := p, payload := [], poison := false, seen := s.condNow }] else s.reassemblies
  let l := l.map fun r => if same r then add r else r
  if f.last then
    { s with reassemblies := l.filter fun r => !same r, arrived := s.arrived ++ (l.filter same).map Reassembly.arrived }
  else { s with reassemblies := l }

/-- A flit for this module goes to its reassembly, or waits: a `FIRST` flit while 4,096 reassemblies are open, and every flit of
its `TAG` and VC behind it (R281). -/
def State.deliver (s : State) (p : Nat) (f : Flit) : State :=
  if (f.first ∧ 4096 ≤ s.reassemblies.length) ∨ s.rxWait.any (fun w => w.2.tag == f.tag && w.2.vc == f.vc) then
    { s with rxWait := s.rxWait ++ [(p, f)] }
  else s.assemble p f

/-- Waiting flits are tried again once reassemblies have closed. -/
def State.retryRx (s : State) : State :=
  let l := s.rxWait
  if l = [] then s else forEach l (fun s w => s.deliver w.1 w.2) { s with rxWait := [] }

/-- Pass a flit through the router (R263, R258): to the queue of its next port, or an error response from here. -/
def State.transit (s : State) (p : Nat) (f : Flit) : State :=
  match s.nextAxis f.dest with
  | none => (s.deliver p f).retryRx
  | some a =>
    let dir := dirOf f.dirs a
    let q := 2 * a + dir
    if s.portGone q ∨ (s.fld F.stileStatus.closed).testBit a then
      let s := s.oweCredit p f.vc
      if f.first then s.answerError f else s
    else
      let cur := if p / 2 = a then some f.vc else none
      s.queueFlit q { flit := { f with vc := s.outVc (f.vc / 2) a dir cur }, held := some (p, f.vc) }

/-! ### Replay (R266, R267) -/

/-- The flit at place `i` of the replay buffer is named by a `NAK` or a timeout: its count rises; past the budget of 2 it is
replaced by a poisoned flit; after 16 failures the port retrains. Replay starts there. -/
def State.nameFlit (s : State) (p i : Nat) : State :=
  let x := s.port p
  match x.replay[i]? with
  | none => s
  | some r =>
    let n := r.fails + 1
    let s := s.bumpReg (R.portRetries p)
    let poison := 3 ≤ n ∧ ¬ r.flit.poison
    let f := if poison then { r.flit with poison := true, len := 0, payload := [] } else r.flit
    let s := s.setPort p { x with replay := x.replay.set i { flit := f, fails := n }, replayAt := some i }
    let s := if poison then (s.bumpReg (R.portPoisoned p)).linkDegraded p 2 else s
    if 16 ≤ n then (s.modPort p fun x => { x with replay := x.replay.set i { flit := f, fails := 0 } }).retrain p 7 else s

end Sys2Proof.Machine
end

