-- ==== Sys2Proof/Machine/Operands.lean ====
section
/-! DEFINITION. The descriptor header and the operand layouts (R34, R35, R38, R39), as bit fields of the 128-bit word, and
the address operand. -/

namespace Sys2Proof.Machine

/-! ### Header (Table 2.5) -/

def dOp (w : Desc) : Nat := bitsAt w 122 6
def dDoneObj (w : Desc) : Nat := bitsAt w 116 6
def dDoneEn (w : Desc) : Bool := w.getLsbD 115

/-- The opcodes of Table 2.6. -/
def opListed (op : Nat) : Bool :=
  [0x01, 0x02, 0x03, 0x04, 0x05, 0x06, 0x07, 0x08, 0x09, 0x10, 0x11, 0x12, 0x18, 0x20, 0x21, 0x22, 0x23, 0x24, 0x28, 0x29,
   0x2A, 0x2B, 0x2C, 0x2D, 0x2E, 0x2F, 0x30, 0x31, 0x32, 0x38, 0x39, 0x3A, 0x3B, 0x3C].contains op

/-! ### MOVE and LIST (Table 2.7); an AOP field is given by its lowest bit -/

def dLen (w : Desc) : Nat := bitsAt w 24 24
/-- `ROWS`, 0 meaning 1. -/
def dRows (w : Desc) : Nat := max 1 (bitsAt w 12 12)
def dSstr (w : Desc) : Nat := bitsAt w 9 3
def dDstr (w : Desc) : Nat := bitsAt w 6 3
def dTclass (w : Desc) : Nat := bitsAt w 4 2
def dXform (w : Desc) : Nat := bitsAt w 0 4
def dList (w : Desc) : Nat := bitsAt w 45 3
def dCount (w : Desc) : Nat := bitsAt w 24 21
def dElem (w : Desc) : Nat := bitsAt w 8 16

/-! ### ARRAY (Table 2.8) -/

def dMode (w : Desc) : Nat := bitsAt w 76 4
def dAccFmt (w : Desc) : Nat := bitsAt w 72 4
def dArrayOut (w : Desc) : Nat := bitsAt w 76 4
def dK (w : Desc) : Nat := bitsAt w 32 16
def dFmtA (w : Desc) : Nat := bitsAt w 28 4
def dFmtB (w : Desc) : Nat := bitsAt w 24 4
def dGroup (w : Desc) : Nat := bitsAt w 22 2
/-- Active rows and columns (the fields hold one less). -/
def dActRows (w : Desc) : Nat := bitsAt w 16 6 + 1
def dActCols (w : Desc) : Nat := bitsAt w 10 6 + 1

/-! ### VECTOR and HAMPER (Table 2.9) -/

def dSub (w : Desc) : Nat := bitsAt w 104 8
def dD (w : Desc) : Nat := bitsAt w 101 3
def dS0 (w : Desc) : Nat := bitsAt w 98 3
def dS1 (w : Desc) : Nat := bitsAt w 95 3
def dS2 (w : Desc) : Nat := bitsAt w 92 3
def dVecLen (w : Desc) : Nat := bitsAt w 72 20
def dFmtIn (w : Desc) : Nat := bitsAt w 68 4
def dFmtOut (w : Desc) : Nat := bitsAt w 64 4
def dImmF (w : Desc) : F32 := w.extractLsb' 32 32
def dImm2 (w : Desc) : F32 := w.extractLsb' 0 32
def dHLen (w : Desc) : Nat := bitsAt w 56 24
def dHFmt (w : Desc) : Nat := bitsAt w 52 4

/-! ### SYNC, FLOW, LOOP and INDEX (Table 2.10) -/

def dOpc (w : Desc) : Nat := bitsAt w 76 4
def dVix (w : Desc) : Bool := w.getLsbD 75
def dVreg (w : Desc) : Nat := bitsAt w 72 3
def dTmo (w : Desc) : Nat := bitsAt w 64 8
def dImm (w : Desc) : Word := w.extractLsb' 0 64
def dWords (w : Desc) : Nat := bitsAt w 56 8
def dCond (w : Desc) : Nat := bitsAt w 76 4
def dSel (w : Desc) : Nat := bitsAt w 72 4
def dNum (w : Desc) : Nat := bitsAt w 69 3
def dTarget (w : Desc) : Int := sbitsAt w 32 32
/-- The loop count of 32 bits: [31:16] in [95:80], [15:0] in [79:64]. -/
def dLoopCount (w : Desc) : Nat := bitsAt w 64 32
def dBody (w : Desc) : Nat := bitsAt w 48 16
def dIxa (w : Desc) : Nat := bitsAt w 45 3
def dInca (w : Desc) : Int := sbitsAt w 25 20
def dIxb (w : Desc) : Nat := bitsAt w 22 3
def dIncb (w : Desc) : Int := sbitsAt w 2 20
def dDst (w : Desc) : Nat := bitsAt w 109 3
def dSrc (w : Desc) : Nat := bitsAt w 106 3

/-! ### Index registers and the address operand (R35) -/

def State.ix (s : State) (t n k : Nat) : Word := s.reg (R.ix t n k)
def State.setIx (s : State) (t n k : Nat) (v : Word) : State := s.setReg (R.ix t n k) v

/-- The effective address of the AOP in bits [lo + 31:lo] of `w` over the value of its index register: bits [63:40] of it, and
its offset plus the signed 29-bit offset modulo 2^40. -/
def aopOf (ix : Word) (w : Desc) (lo : Nat) : Nat :=
  let x := ix.toNat
  let off : Int := (x % 2 ^ 40 : Nat) + sbitsAt w lo 29
  2 ^ 40 * (x / 2 ^ 40) + (off % 2 ^ 40).toNat

def State.aop (s : State) (t n : Nat) (w : Desc) (lo : Nat) : Nat := aopOf (s.ix t n (bitsAt w (lo + 29) 3)) w lo

/-- The value or comparand of a SYNC descriptor (R44, R45). -/
def State.syncValue (s : State) (t n : Nat) (w : Desc) : Word := if dVix w then s.ix t n (dVreg w) else dImm w

end Sys2Proof.Machine
end

