-- ==== Sys2Proof/Machine/Sync.lean ====
section
/-! DEFINITION. Synchronisation objects: updates of a counter and the waiters they release, the payload reductions (R43 to
R49, R191, R245). -/

namespace Sys2Proof.Machine

/-- Condition `cond` of Table 2.16 on a count against comparand `c`. -/
def waitHolds (cond : Nat) (count c : Word) : Bool :=
  match cond with
  | 0 => c ≤ count
  | 1 => count == c
  | 2 => count != c
  | 3 => count < c
  | 4 => count &&& c != 0
  | 5 => count &&& c == c
  | _ => false

/-- The result of `SIGNAL` operation `opc` (Table 2.15) on a count; `ARM` leaves it. -/
def signalApply (opc : Nat) (count v : Word) : Word :=
  match opc with
  | 0 => count + v
  | 1 => v
  | 2 => if count < v then v else count
  | 3 => if v < count then v else count
  | 4 => count ||| v
  | 5 => count &&& v
  | _ => count

/-- A window of a snapshot of context `c` is open and holds a sweep, commit or install (R311). -/
def State.noteOverlap (s : State) (c : Nat) : State := if (s.ctx c).frozen then s.setBit (F.snapStatus.overlap c) true else s

/-! ### Waiters -/

/-- The counters the end of the `WAIT` of the thread with key `k` adds 1 to: its `DONE_OBJ` (R34). -/
def State.waitDone (s : State) (k : Nat) : List Nat :=
  match (s.thread k).wait with
  | some wt => if dDoneEn wt.word then [R.syncCount (keyTile k) (dDoneObj wt.word)] else []
  | none => []

/-- A blocked thread's `WAIT` ends: by its condition (`tmo` false) or by timeout. -/
def State.endWait (s : State) (t n : Nat) (tmo : Bool) : State :=
  if (s.thread (thrKey t n)).wait.isNone then s
  else ((s.leaveWait t n).flagTmo t n tmo).setFld (F.threadStatus.state t n) 1

/-- The threads of this module waiting on the counter at `obj` whose condition holds for `count`; a thread on another tile
needs its watch to be placed (R48). -/
def State.releasable (s : State) (obj : Nat) (count : Word) : List Nat :=
  (s.threads.filter fun e =>
    match e.2.wait with
    | some wt => wt.obj == obj && (wt.watch == .none || wt.watch == .placed) && waitHolds wt.cond count wt.comparand
    | none => false).map (·.1)

/-- An update of the counter at `obj` satisfies waiters whose watch was answered with retry: they are released at their next try (R45, R48). -/
def State.noteHits (s : State) (obj : Nat) : State :=
  let count := s.reg obj
  let fires (o cond : Nat) (v : Word) : Bool := o == obj && waitHolds cond count v
  let s := forEach (s.threads.filter fun e => e.2.wait.any fun wt => wt.watch == .retry && fires wt.obj wt.cond wt.comparand)
    (fun s e => s.modThread e.1 fun th => { th with wait := th.wait.map fun wt => { wt with hit := true } }) s
  let tl := s.tile (objTile obj)
  if tl.retried.any fun e => fires e.obj e.cond e.comparand then
    s.setTile (objTile obj)
      { tl with retried := tl.retried.map fun e => if fires e.obj e.cond e.comparand then { e with hit := true } else e }
  else s

/-- Release every waiter the counter at `obj` now satisfies (R45): threads of this module, and waiters of other modules by a
completion. Their watches are given up. With the state come the counters the released `WAIT`s signal. -/
def State.releaseWaiters (s : State) (obj : Nat) : State × List Nat :=
  let s := s.noteHits obj
  let count := s.reg obj
  let ks := s.releasable obj count
  let done := ks.flatMap s.waitDone
  let tl := s.tile (objTile obj)
  let fires : WatchEntry → Bool := fun e => e.obj == obj && waitHolds e.cond count e.comparand
  let remote := tl.watches.filterMap fun e =>
    match e.waiter with
    | .inr a => if fires e then some a else none
    | .inl _ => none
  let s := if tl.watches.any fires then s.setTile (objTile obj) { tl with watches := tl.watches.filter fun e => !fires e } else s
  let s := forEach ks (fun s k => s.endWait (keyTile k) (keyThread k) false) s
  (forEach remote (fun s a => s.answerTo a 0x0B 0 []) s, done)

/-- Contexts whose pending switch waits for the counter at `obj` (R336: `GEN_BATCH_OBJ`, 0 using `FC_OBJ`). -/
def State.batchObj (s : State) (c : Nat) : Nat :=
  if s.fld (F.genBatchObj.val c) = 0 then s.fld (F.fcObj.val c) else s.fld (F.genBatchObj.val c)

/-! ### Held values (R376) -/

/-- Every layer of a context is put in `USE` 2 (R188): byte 11 of each entry of its layer table whose `SCHED` is not 0. -/
def State.layersCold (s : State) (c : Nat) : State :=
  let base := s.obj (O.rootLayerTable c)
  if base = 0 then s
  else
    forEach (upto 2048) (fun s l =>
      if (upto 8).all fun k => s.byte (memKey (base + 64 * l + k)) == 0 then s else s.setByte (memKey (base + 64 * l + 11)) 2) s

/-- A class B object of context `c` takes a value, with what hangs on it: fields of `HAMPER_CFG` (R149), `USE` 2 of every layer when
`ROOT_PRECOND_EN` is set again, forced cold starts (R188), the registers of R293. -/
def State.applyB (s : State) (c key v : Nat) : State :=
  let again := key == O.rootPrecondEn c && v != 0 && s.obj key == 0
  if key = O.rootForceCold c then s.modCtx c fun x => { x with forceCold := true, coldTaken := [] }
  else if key = O.schedBaseNs c then s.setFld (F.schedBaseNs.val c) v
  else if key = O.schedPerFlitPs c then s.setFld (F.schedPerFlitPs.val c) v
  else
    let s := s.setObj key v
    if key = O.hamperPrefetch c then s.setFld (F.hamperCfg.prefetch c) v
    else if key = O.hamperSpillRaw c then s.setFld (F.hamperCfg.spillRaw c) v
    else if again then s.layersCold c
    else s

/-- A boundary of context `c`: its held values take effect (R376). -/
def State.boundary (s : State) (c : Nat) : State :=
  let l := (s.ctx c).held
  if l = [] then s else forEach l (fun s e => s.applyB c e.1 e.2) (s.modCtx c fun x => { x with held := [] })

/-- What an update of the counter at `obj` shows to the generation slots (R336); it is the boundary of an inference context, one whose
sweeps are not enabled (R376). -/
def State.noteGeneration (s : State) (obj : Nat) : State :=
  forEach (upto 8) (fun s c =>
    let s := if (s.ctx c).running ∧ ¬ s.bit (F.sweepCtl.enable c) ∧ s.batchObj c = obj then s.boundary c else s
    let s := if s.bit (F.genStatus.pending c) ∧ s.batchObj c = obj then s.modCtx c fun x => { x with batchSeen := true } else s
    forEach (upto 2) (fun s j =>
      let slot : Fld := if j = 0 then F.genStatus.slot0 c else F.genStatus.slot1 c
      if s.fld slot = 4 ∧ s.fld (F.genUseObj.val c j) = obj ∧ s.reg obj = 0 then s.modCtx c fun x => { x with drainSeen := true }
      else s) s) s

/-- Add 1 to the counters of a list, one after another, with the counters that the `WAIT`s released by each of them signal (R34, R46). -/
def State.signalAll (s : State) : Nat → List Nat → State
  | 0, _ => s
  | _, [] => s
  | fuel + 1, obj :: rest =>
    match (s.setReg obj (s.reg obj + 1)).releaseWaiters obj with
    | (s, more) => (s.noteGeneration obj).signalAll fuel (rest ++ more)

/-- One indivisible update of the counter at `obj` to `v`: every waiter it satisfies is released (R45, R46). -/
def State.syncSet (s : State) (obj : Nat) (v : Word) : State :=
  match (s.setReg obj v).releaseWaiters obj with
  | (u, done) => (u.noteGeneration obj).signalAll s.threads.length done

/-- Add to a counter, modulo 2^64 (R43). -/
def State.syncAdd (s : State) (obj : Nat) (v : Word) : State := s.syncSet obj (s.reg obj + v)

/-- The completion of descriptor `w` on tile `t` adds 1 to its `DONE_OBJ` (R34). -/
def State.signalDone (s : State) (t : Nat) (w : Desc) : State :=
  if dDoneEn w then s.syncAdd (R.syncCount t (dDoneObj w)) 1 else s

/-- The `WAIT` of a thread completes, by its condition or by timeout, with its `DONE_OBJ` (R34, R45). -/
def State.finishWait (s : State) (t n : Nat) (tmo : Bool) : State :=
  (s.endWait t n tmo).signalAll (s.threads.length + 1) (s.waitDone (thrKey t n))

/-! ### Payload reductions (Table 2.17) -/

/-- Combine the vote words field by field (R191, Table 8.1). -/
def voteCombine (a b : Word) : Word :=
  ((a ||| b) &&& 0xFFFF#64)
    ||| (BitVec.ofNat 64 (min (bitsAt a 16 24) (bitsAt b 16 24)) <<< 16)
    ||| (BitVec.ofNat 64 (max (bitsAt a 40 24) (bitsAt b 40 24)) <<< 40)

/-- Apply a binary FP32 operation to both halves of a word. -/
def halves (f : F32 → F32 → F32) (a b : Word) : Word :=
  (f (a.extractLsb' 32 32) (b.extractLsb' 32 32)) ++ (f (a.extractLsb' 0 32) (b.extractLsb' 0 32))

/-- The word combine of reduction `red`. -/
def reduceWord (red : Nat) (a b : Word) : Word :=
  match red with
  | 1 => halves f32Add a b
  | 2 => a + b
  | 3 => if a < b then b else a
  | 4 => if b < a then b else a
  | 5 => a ||| b
  | 6 => a &&& b
  | 7 => halves f32Max a b
  | 8 => halves f32Min a b
  | 9 => voteCombine a b
  | _ => a

/-- The identity of a reduction. -/
def reduceIdentity (red : Nat) : Word :=
  match red with
  | 4 => 0xFFFFFFFFFFFFFFFF#64
  | 6 => 0xFFFFFFFFFFFFFFFF#64
  | 7 => 0xFF800000FF800000#64
  | 8 => 0x7F8000007F800000#64
  | 9 => 0x000000FFFFFF0000#64
  | _ => 0

/-- Offset of the payload slot of the object whose counter is at `obj` (R32). -/
def payloadOf (obj : Nat) : Nat :=
  let base := 0x0100000000 + 0x10000 * objTile obj
  base + 0x2000 + 0x100 * ((obj - base - 0x1000) / 8)

/-- Combine words into the first words of a payload slot (R47). -/
def State.combinePayload (s : State) (obj red : Nat) : Nat → List Word → State
  | _, [] => s
  | i, v :: rest =>
    let a := payloadOf obj + 8 * i
    let s := if red = 0 then s else s.setMemNat a 8 (reduceWord red (BitVec.ofNat 64 (s.memNat a 8)) v).toNat
    s.combinePayload obj red (i + 1) rest

/-- `ARRIVE` at a counter of this module: combine, then add 1, as one update (R47). -/
def State.arrive (s : State) (obj red : Nat) (words : List Word) : State :=
  (s.combinePayload obj red 0 words).syncAdd obj 1

/-- `SIGNAL` `ARM`: every word of the slot becomes the identity of reduction `red`; `NONE` leaves it (R44). -/
def State.arm (s : State) (obj red : Nat) : State :=
  if red = 0 then s
  else forEach (upto 32) (fun s i => s.setMemNat (payloadOf obj + 8 * i) 8 (reduceIdentity red).toNat) s

/-- `SIGNAL` operation `opc` with value `v` at a counter of this module. -/
def State.signalObj (s : State) (obj opc : Nat) (v : Word) : State :=
  if opc = 6 then s.arm obj (v.toNat % 16) else s.syncSet obj (signalApply opc (s.reg obj) v)

end Sys2Proof.Machine
end

