-- ==== Sys2Proof/Machine/Access.lean ====
section
/-! DEFINITION. The local map, translation through segments, and byte accesses to Meadow, Thermos and synchronisation objects
(R57 to R78, R430). -/

namespace Sys2Proof.Machine

/-! ### The local map (Table 3.2) -/

/-- The region of Table 3.2 an offset lies in. -/
inductive Place
  | meadow (tile : Nat) | control (tile off : Nat) | root (engine off : Nat) | hub (off : Nat) | thermos (stack inner : Nat) | nowhere
  deriving DecidableEq, Repr

/-- Route of an interleaved Thermos offset (R66). -/
def thermosRoute (a : Nat) : Nat × Nat :=
  let rel := a - 0x4000000000
  (rel / 2 ^ 12 % 8, 2 ^ 12 * (rel / 2 ^ 15) + rel % 2 ^ 12)

def placeOf (off : Nat) : Place :=
  if off < 0x80000000 then .meadow (off / 2 ^ 23)
  else if 0x0100000000 ≤ off ∧ off < 0x0101000000 then .control ((off - 0x0100000000) / 0x10000) (off % 0x10000)
  else if 0x0200000000 ≤ off ∧ off < 0x0204000000 then .root ((off - 0x0200000000) / 0x1000000) (off % 0x1000000)
  else if 0x0300000000 ≤ off ∧ off < 0x0310000000 then .hub (off - 0x0300000000)
  else if 0x4000000000 ≤ off ∧ off < 0xC000000000 then .thermos (thermosRoute off).1 (thermosRoute off).2
  else if 0x10000000000 ≤ off ∧ off < 0x18000000000 then .thermos ((off - 0x10000000000) / 2 ^ 36) (off % 2 ^ 36)
  else .nowhere

/-- The reserved Thermos region of R68, in the interleaved view. -/
def reservedThermos (off : Nat) : Bool := 0x4000000000 ≤ off && off < 0x4004000000

/-- Is the unit that holds a place ready? Accesses to a stack or die that is not receive error responses (R69, R411). -/
def State.placeReady (s : State) : Place → Bool
  | .meadow t => (s.fld F.unitReady.meadow).testBit (t / 64)
  | .control t _ => (s.fld F.unitReady.tiles).testBit (t / 64)
  | .root e _ => (s.fld F.unitReady.root).testBit e
  | .hub _ => true
  | .thermos st _ => (s.fld F.unitReady.thermos).testBit st
  | .nowhere => false

/-- The tiles of die t[7:6] are ready (R61, Table 0.4). -/
def State.tileReady (s : State) (t : Nat) : Bool := (s.fld F.unitReady.tiles).testBit (t / 64)

/-! ### Uncorrectable words (R430) -/

/-- The base of the protected word a byte lies in: 8 bytes in Meadow, a 32-byte sector in Thermos (R428, R429). -/
def eccBase (key : Nat) : Nat := if key < 0x4000000000 then 8 * (key / 8) else 32 * (key / 32)
def eccSize (base : Nat) : Nat := if base < 0x4000000000 then 8 else 32

/-- The first uncorrectable word in `n` bytes from key `k`. -/
def State.badIn (s : State) (k n : Nat) : Option Nat := s.badWords.find? fun b => b < k + n && k < b + eccSize b

/-- A write of `n` bytes from key `k` heals the words it covers whole (R430). -/
def State.heal (s : State) (k n : Nat) : State :=
  if s.badWords = [] then s else { s with badWords := s.badWords.filter fun b => !(k ≤ b && b + eccSize b ≤ k + n) }

/-- A failing read of the uncorrectable word at `b` is recorded and raised once (R430, Table 16.7). -/
def State.raiseBad (s : State) (b : Nat) (patrol : Bool := false) : State :=
  match placeOf b with
  | .meadow t =>
    let off := b % 2 ^ 23
    let s := ((s.bumpReg (R.meadowEccUncorr t)).setFld (F.meadowLastUe.offset t) off).setFld (F.meadowLastUe.valid t) 1
    s.raise 0x3002 2 0x02 (t / 64) (off + 2 ^ 23 * t)
  | .thermos st inner =>
    let res := reservedThermos b
    let s := ((s.bumpReg (R.thermosUe st)).setFld (F.thermosLastUe.offset st) inner).setFld (F.thermosLastUe.valid st) 1
    let s := s.setFld (F.thermosLastUe.reserved st) (if res then 1 else 0)
    s.raise 0x3004 (if res then 5 else 2) 0x03 st (inner + (if patrol then 2 ^ 36 else 0))
  | _ => s

/-! ### Bytes of a place a context can reach -/

/-- Is a tile control offset in the counters, and in the payload slots (R63)? -/
def isCounterOff (off : Nat) : Bool := 0x1000 ≤ off && off < 0x1200
def isPayloadOff (off : Nat) : Bool := 0x2000 ≤ off && off < 0x6000

/-- The object a counter or payload offset belongs to. -/
def objOfOff (off : Nat) : Nat := if isCounterOff off then (off - 0x1000) / 8 else (off - 0x2000) / 0x100

/-- One byte: memory, or a byte of a counter (R49). -/
def State.dataByte (s : State) (off : Nat) : Byte :=
  match placeOf off with
  | .control _ o => if isCounterOff o then (s.reg (8 * (off / 8))).extractLsb' (8 * (off % 8)) 8 else s.byte off
  | _ => s.byte (memKey off)

/-- Is every byte of `n` from `off` in a mapped place whose unit is ready? Checked where places change: at every 4 KiB. -/
def State.rangeReady (s : State) (off n : Nat) : Bool :=
  (upto ((off % 4096 + n + 4095) / 4096)).all fun i =>
    s.placeReady (placeOf (if i = 0 then off else 4096 * (off / 4096) + 4096 * i))

/-- Read `n` bytes from `off`: none is an error response (R69, R430). -/
def State.readData (s : State) (off n : Nat) : Option (List Byte) :=
  if s.rangeReady off n ∧ (s.badWords = [] ∨ (upto n).all fun i => (s.badIn (memKey (off + i)) 1).isNone)
  then some ((upto n).map fun i => s.dataByte (off + i)) else none

/-- What a failing read of `n` bytes from `off` raises. -/
def State.noteBadRead (s : State) (off n : Nat) : State :=
  if s.badWords = [] ∨ ¬ s.rangeReady off n then s
  else
    match (upto n).findSome? fun i => s.badIn (memKey (off + i)) 1 with
    | some b => s.raiseBad b
    | none => s

/-- Replace byte `i` of a word. -/
def setByteOf (w : Word) (i : Nat) (b : Byte) : Word := withBits w (8 * i) 8 b.toNat

/-- Store bytes into one counter's word: a plain store acts as `SIGNAL` `SET` (R49). `bs` starts at byte `i` of the word. -/
def mergeWord (w : Word) (i : Nat) : List Byte → Word
  | [] => w
  | b :: rest => if i < 8 then mergeWord (setByteOf w i b) (i + 1) rest else w

/-- Store bytes at counters, word by word; each word stored to is one `SET`. -/
def State.storeCounters (s : State) : Nat → Nat → List Byte → State
  | 0, _, _ => s
  | _, _, [] => s
  | fuel + 1, off, bs =>
    let k := 8 - off % 8
    let s := s.syncSet (8 * (off / 8)) (mergeWord (s.reg (8 * (off / 8))) (off % 8) (bs.take k))
    s.storeCounters fuel (off + k) (bs.drop k)

/-- Write bytes at consecutive offsets of memory through `memKey`. -/
def State.storeMem (s : State) (off : Nat) : List Byte → State
  | [] => s
  | b :: rest => (s.setByte (memKey off) b).storeMem (off + 1) rest

/-- A write of `n` bytes from `off` heals the words it covers whole (R430). -/
def State.healBytes (s : State) (off n : Nat) : State :=
  if s.badWords = [] then s
  else
    { s with badWords := s.badWords.filter fun b => !((upto (eccSize b)).all fun i => (upto n).any fun j => memKey (off + j) == b + i) }

/-- A write by a unit of the module itself: the bytes, and what they heal. -/
def State.storeHeal (s : State) (off : Nat) (bs : List Byte) : State := (s.storeMem off bs).healBytes off bs.length

/-- Contexts that run with a shard table: its entries are protected (R222). -/
def State.tablesHeld (s : State) : List Nat := (upto 8).filter fun c => (s.ctx c).running && s.fld (F.shardTable.count c) != 0

/-- Offset in the per-stack view of the byte with key `k` (R66, R67). -/
def stackOffset (k : Nat) : Nat :=
  if 0x4000000000 ≤ k ∧ k < 0xC000000000 then 0x10000000000 + 2 ^ 36 * (thermosRoute k).1 + (thermosRoute k).2 else k

/-- The byte at `off` belongs to an entry of the shard table of context `c`, whichever view it or the table is named in. -/
def State.tableHolds (s : State) (off c : Nat) : Bool :=
  let base := 128 * s.fld (F.shardTable.base c)
  let n := 96 * s.fld (F.shardTable.count c)
  let k := memKey off
  (base ≤ k && k < base + n) || (base ≤ stackOffset k && stackOffset k < base + n)

/-- Write bytes into memory; a byte of a held shard table is left alone and the write is noted (R222). -/
def State.storeGuarded (s : State) (held : List Nat) (off : Nat) : List Byte → State
  | [] => s
  | b :: rest =>
    let hit := held.filter (s.tableHolds off)
    let s := if hit = [] then s.setByte (memKey off) b else forEach hit (fun s c => s.setBit (F.sweepStatus.wrIgnored c) true) s
    s.storeGuarded held (off + 1) rest

/-- Store bytes at consecutive offsets, the tables of running contexts held. -/
def State.storeData (s : State) (off : Nat) (bs : List Byte) : State :=
  if s.tablesHeld = [] then s.storeMem off bs else s.storeGuarded s.tablesHeld off bs

/-- The 4 KiB granules of an access in the interleaved Thermos view whose stack is ready: place in the access and length (R69). -/
def State.readyPieces (s : State) (off n : Nat) : List (Nat × Nat) :=
  if off < 0x4000000000 ∨ 0xC000000000 < off + n then []
  else
    ((upto ((off % 4096 + n + 4095) / 4096)).map fun i =>
      let lo := if i = 0 then 0 else 4096 * i - off % 4096
      (lo, min n (4096 * (i + 1) - off % 4096) - lo)).filter fun e => s.placeReady (placeOf (off + e.1))

/-- A write that spans stacks of which some are not ready delivers the granules of the others (R69). -/
def State.storeReady (s : State) (off : Nat) (bs : List Byte) : State :=
  forEach (s.readyPieces off bs.length) (fun s e => s.storeData (off + e.1) ((bs.drop e.1).take e.2)) s

/-- Write bytes from `off`; false is an error response. -/
def State.writeData (s : State) (off : Nat) (bs : List Byte) : State × Bool :=
  if ¬ s.rangeReady off bs.length then (s.storeReady off bs, false)
  else
    match placeOf off with
    | .control _ o => if isCounterOff o then (s.storeCounters (bs.length + 1) off bs, true) else (s.storeMem off bs, true)
    | _ => ((s.storeData off bs).healBytes off bs.length, true)

/-! ### Translation (R72 to R74) -/

/-- Rights of Table 3.8 as a mask: bit 0 R, 1 W, 2 X, 3 S. -/
abbrev rightR : Nat := 1
abbrev rightW : Nat := 2
abbrev rightX : Nat := 4
abbrev rightS : Nat := 8

/-- What `SEG_FAULT_INFO` records of a failed access (Table 3.7). -/
structure SegFault where
  index : Nat := 0
  miss : Bool := false
  need : Nat := 0
  format : Bool := false
  ctrl : Bool := false
  notObj : Bool := false
  deriving DecidableEq, Repr

/-- The rights entry `i` of context `c` grants. -/
def State.segRights (s : State) (c i : Nat) : Nat :=
  (if s.bit (F.segHi.r c i) then 1 else 0) + (if s.bit (F.segHi.w c i) then 2 else 0)
    + (if s.bit (F.segHi.x c i) then 4 else 0) + (if s.bit (F.segHi.s c i) then 8 else 0)

/-- The lowest-numbered valid entry whose window holds offset `o` (R72 step 1). -/
def State.segFind (s : State) (c o : Nat) : Option Nat :=
  (upto 64).find? fun i =>
    s.bit (F.segHi.v c i) && s.fld (F.segLo.vbase c i) ≤ o / 2 ^ 16 && o / 2 ^ 16 ≤ s.fld (F.segLo.vbase c i) + s.fld (F.segLo.size c i)

/-- Does context `c` own every object that bytes `[off, off + n)` of tile control touch, and are they all counters or payload
slots (R63)? -/
def State.controlAllowed (s : State) (c off n : Nat) : Bool :=
  (upto ((off % 8 + n + 7) / 8)).all fun i =>
    let a := 8 * (off / 8) + 8 * i
    let o := a % 0x10000
    (isCounterOff o || isPayloadOff o) && s.fld (F.syncOwner.ctx (objTile a) (objOfOff o)) == c

/-- Translate `n` bytes from context offset `o` for context `c` needing `need`; `exported` asks for E as well (R72, R75). -/
def State.translate (s : State) (c o n need : Nat) (exported : Bool := false) : SegFault ⊕ Nat :=
  match s.segFind c o with
  | none => .inl { miss := true }
  | some i =>
    if ¬ (o + n - 1) / 2 ^ 16 ≤ s.fld (F.segLo.vbase c i) + s.fld (F.segLo.size c i) then .inl { miss := true }
    else if ¬ (need &&& s.segRights c i) = need ∨ (exported ∧ ¬ s.bit (F.segHi.e c i)) then
      .inl { index := i, need := need - (need &&& s.segRights c i) }
    else
      let p := 2 ^ 16 * s.fld (F.segHi.pbase c i) + (o - 2 ^ 16 * s.fld (F.segLo.vbase c i))
      match placeOf p with
      | .control _ _ => if s.controlAllowed c p n then .inr p else .inl { index := i, ctrl := true }
      | _ => .inr p

/-- Translate the object of a synchronisation descriptor: it must be an owned counter (R74, Table 3.9). -/
def State.translateObj (s : State) (c o : Nat) (exported : Bool := false) : SegFault ⊕ Nat :=
  match s.segFind c o with
  | none => .inl { miss := true }
  | some i =>
    if ¬ (o + 7) / 2 ^ 16 ≤ s.fld (F.segLo.vbase c i) + s.fld (F.segLo.size c i) then .inl { miss := true }
    else if ¬ s.bit (F.segHi.s c i) ∨ (exported ∧ ¬ s.bit (F.segHi.e c i)) then
      .inl { index := i, need := if s.bit (F.segHi.s c i) then 0 else rightS }
    else
      let p := 2 ^ 16 * s.fld (F.segHi.pbase c i) + (o - 2 ^ 16 * s.fld (F.segLo.vbase c i))
      match placeOf p with
      | .control t off =>
        if isCounterOff off ∧ s.fld (F.syncOwner.ctx t (objOfOff off)) = c then .inr p else .inl { index := i, ctrl := true }
      | _ => .inl { index := i, notObj := true }

/-- The form of an address as its issuing module sees it (R57, R58). -/
inductive AddrForm
  | here (offset : Nat) | away (coord offset : Nat) | illFormed
  deriving DecidableEq, Repr

def State.formOf (s : State) (a : Nat) : AddrForm :=
  if a < 2 ^ 63 then (if a < 2 ^ 40 then .here a else .illFormed)
  else if a / 2 ^ 40 % 2 ^ 6 ≠ 0 then .illFormed
  else if a / 2 ^ 46 % 2 ^ 17 = s.coord then .here (a % 2 ^ 40)
  else .away (a / 2 ^ 46 % 2 ^ 17) (a % 2 ^ 40)

/-- Record the first access fault of a context since its last start (R78, Table 3.7). -/
def State.recordSegFault (s : State) (c a : Nat) (f : SegFault) : State :=
  if (s.ctx c).accessFault then s
  else
    let b : Bool → Nat := fun x => if x then 1 else 0
    let s := s.modCtx c fun x => { x with accessFault := true }
    let s := s.setReg (R.segFaultAddr c) (BitVec.ofNat 64 a)
    s.setReg (R.segFaultInfo c) (BitVec.ofNat 64
      (f.index + 2 ^ 6 * b f.miss + 2 ^ 7 * f.need + 2 ^ 11 * b f.format + 2 ^ 12 * b f.ctrl + 2 ^ 13 * b f.notObj))

/-- The address of an offset in the address space of a context on another module (R58). -/
def awayAddr (dest o : Nat) : Nat := 2 ^ 63 + 2 ^ 46 * (dest % 2 ^ 17) + o % 2 ^ 40

/-- Record an access that failed behind its translation: the segment it matched, and no missing right (R78). -/
def State.recordAccess (s : State) (c a : Nat) : State :=
  s.recordSegFault c a { index := match s.formOf a with
    | .here o => (s.segFind c o).getD 0
    | _ => 0 }

/-! ### Thread faults (R55) -/

/-- Fault a thread with `code` at the descriptor of opcode `op` at address `pc`: the fault register, `STATE` 6, and
`THREAD_FAULT` context-fatal. `sub` is the Hamper subcode of code 0x0C. -/
def State.threadFault (s : State) (t n code op pc : Nat) (sub : Nat := 0) : State :=
  let c := s.fld (F.threadCtl.ctx t n)
  let s := s.setReg (R.threadFault t n) (BitVec.ofNat 64 (code + 2 ^ 8 * op + 2 ^ 16 * (pc % 2 ^ 40)))
  let s := ((s.leaveWait t n).unreserve t n).modThread (thrKey t n) fun th => { th with ending := .none, syncTid := none, held := none }
  let s := (s.setFld (F.threadStatus.state t n) 6).threadStops c
  s.raise 0x1009 4 0x0C (threadUnit t n c) (code + 2 ^ 8 * op + (if code = 0x0C then 2 ^ 14 * sub else 0) + 2 ^ 18 * (pc / 16 % 2 ^ 30)) [c]

/-- A segment violation of an access to `a` faults the thread with code 0x04 (Table 3.9). -/
def State.segViolation (s : State) (t n op pc a : Nat) (f : SegFault) : State :=
  (s.recordSegFault (s.fld (F.threadCtl.ctx t n)) a f).threadFault t n 0x04 op pc

end Sys2Proof.Machine
end

