-- ==== Sys2Proof/Machine/Issue.lean ====
section
/-! DEFINITION. Issuing a descriptor: which thread may issue, the fetch and its checks, the descriptor cache, the queues of the
engines, advancing the program counter with its loops, and the completion of an asynchronous descriptor (R28 to R38). -/

namespace Sys2Proof.Machine

/-- What an issued descriptor knows of itself: tile, thread, context, its context address, its word, and the thread's `IX`
registers as they stood when it issued. -/
structure Iss where
  t : Nat
  n : Nat
  c : Nat
  pc : Nat
  w : Desc
  ixs : List Word := []
  deriving DecidableEq, Repr

/-- An index register, and an address operand, as they stood at issue (R35; log entry 7). -/
def Iss.ixAt (i : Iss) (k : Nat) : Word := i.ixs.getD k 0
def Iss.aop (i : Iss) (lo : Nat) : Nat := aopOf (i.ixAt (bitsAt i.w (lo + 29) 3)) i.w lo

def Iss.key (i : Iss) : Nat := thrKey i.t i.n

/-! ### Fetch (R36) -/

/-- The 16-byte word at a tile's Meadow offset. -/
def State.meadowWord (s : State) (off : Nat) : Desc := BitVec.ofNat 128 (s.memNat off 16)

/-- The physical Meadow offset `THREAD_PC` names, or the fault: code 0x04 with its record, or 0x03. -/
def State.fetchAddr (s : State) (t c pc : Nat) : (Option SegFault) ⊕ Nat :=
  match s.formOf pc with
  | .here o =>
    match s.translate c o 16 rightX with
    | .inl f => .inl (some f)
    | .inr p => if placeOf p = .meadow t then .inr p else .inl none
  | .away _ _ => .inl none
  | .illFormed => .inl (some { format := true })

/-- The word the tile's cache holds for the descriptor at `pc` of context `c` (R36). -/
def State.cachedAt (s : State) (t c pc : Nat) : Option Desc :=
  ((s.tile t).cache.find? fun l => l.ctx == c && l.pc == pc).map (·.word)

/-- May `w` be what the thread sees at `pc`: the word its cache entry holds, or, read on a miss, the word in Meadow (R36 leaves open which
of them a descriptor changed meanwhile gives). -/
def State.fetched (s : State) (t c pc phys : Nat) (w : Desc) : Bool :=
  s.cachedAt t c pc == some w || ((s.readData phys 16).isSome && s.meadowWord phys == w)

/-- A miss whose read of Meadow fails (R36, R430). -/
def State.fetchFails (s : State) (t c pc phys : Nat) : Bool := (s.cachedAt t c pc).isNone && (s.readData phys 16).isNone

/-- The cache after a fetch: the entry becomes the most recently used of at most 2,048 (R36). -/
def cacheTouch (l : List CacheLine) (e : CacheLine) : List CacheLine :=
  (e :: l.filter fun x => !(x.ctx == e.ctx && x.pc == e.pc)).take 2048

/-- The round robin order after thread `n` issued or yielded: `n` at the end of its order (R28; log entry 99). -/
def robinTouch (l : List Nat) (n : Nat) : List Nat := (l.filter (· != n)) ++ [n]

/-! ### Program counter and loops (R38, R503) -/

/-- Advance to context address `a`: while the innermost loop's body ends there, apply its increments and go back, or leave it
when its passes are done. -/
def State.arriveAt (s : State) (t n a : Nat) : List LoopFrame → State
  | [] => (s.modThread (thrKey t n) fun th => { th with loops := [] }).setReg (R.threadPc t n) (BitVec.ofNat 64 a)
  | f :: rest =>
    if f.stop = a % 2 ^ 40 then
      let s := s.setIx t n f.ixa (s.ix t n f.ixa + BitVec.ofInt 64 (16 * f.inca))
      let s := s.setIx t n f.ixb (s.ix t n f.ixb + BitVec.ofInt 64 (16 * f.incb))
      if 1 < f.left then
        (s.modThread (thrKey t n) fun th => { th with loops := { f with left := f.left - 1 } :: rest }).setReg
          (R.threadPc t n) (BitVec.ofNat 64 (2 ^ 40 * (a / 2 ^ 40) + f.first))
      else s.arriveAt t n a rest
    else (s.modThread (thrKey t n) fun th => { th with loops := f :: rest }).setReg (R.threadPc t n) (BitVec.ofNat 64 a)

/-- The address `k` descriptors on from `pc`, modulo the 40-bit offset space (R503; log entry 24). -/
def pcPlus (pc : Nat) (k : Int) : Nat := 2 ^ 40 * (pc / 2 ^ 40) + (((pc % 2 ^ 40 : Nat) + 16 * k) % 2 ^ 40).toNat

/-- Go on to the next descriptor. -/
def State.advance (s : State) (i : Iss) : State := s.arriveAt i.t i.n (pcPlus i.pc 1) (s.thread i.key).loops

/-! ### Queues of the engines (R29) -/

/-- Outstanding descriptors of one engine over the 16 threads of a tile. -/
def State.queued (s : State) (t : Nat) (e : Engine) : Nat :=
  ((upto 16).map fun n => ((s.thread (thrKey t n)).pend.filter fun p => p.eng == e).length).sum

def queueDepth : Engine → Nat
  | .array => 4
  | .vec => 4
  | .dma => 32

/-- Set the blocking state a thread reads, and nothing else. -/
def State.block (s : State) (i : Iss) (st : Nat) : State := s.setFld (F.threadStatus.state i.t i.n) st

/-- Place an asynchronous descriptor in its engine's queue (log entry 7), and go on; a thread that now has 8 outstanding blocks (R29). -/
def State.enqueue (s : State) (i : Iss) (e : Engine) (ph : PendPhase := .done) : State :=
  let s := s.modThread i.key fun th =>
    { th with pend := th.pend ++ [{ eng := e, word := i.w, pc := i.pc, phase := ph, signal := true, ixs := if e = .vec then [] else i.ixs }] }
  (s.setFld (F.threadStatus.state i.t i.n) (if 8 ≤ (s.thread i.key).pend.length then 4 else 1)).advance i

/-- Why an asynchronous descriptor for engine `e` cannot be placed now: `STATE` 3 for a full queue. -/
def State.asyncBlocked (s : State) (i : Iss) (e : Engine) : Option Nat := if queueDepth e ≤ s.queued i.t e then some 3 else none

/-- Run `f` on a thread that can place a descriptor on engine `e`; block it otherwise. -/
def State.async (s : State) (i : Iss) (e : Engine) (f : State → State) : State :=
  match s.asyncBlocked i e with
  | some st => s.block i st
  | none => f s

/-- A synchronous descriptor has completed: the thread is ready for its next one, and `DONE_OBJ` is signalled (R34). -/
def State.syncDone (s : State) (i : Iss) : State := ((s.setFld (F.threadStatus.state i.t i.n) 1).advance i).signalDone i.t i.w

/-- A synchronous descriptor stays the thread's until it completes. -/
def State.hold (s : State) (i : Iss) : State := s.modThread i.key fun th => { th with held := some i.w }

/-- Run `f` once the thread has no outstanding descriptor (R51, R54); it holds the descriptor and reads `STATE` 4 until then. -/
def State.drained (s : State) (i : Iss) (f : State → State) : State :=
  if (s.thread i.key).pend = [] then f s else (s.hold i).block i 4

/-- Fault the issuing thread. -/
def State.faultAt (s : State) (i : Iss) (code : Nat) (sub : Nat := 0) : State := s.threadFault i.t i.n code (dOp i.w) i.pc sub

/-- A segment violation of the issuing thread at context address `a`. -/
def State.violate (s : State) (i : Iss) (a : Nat) (f : SegFault) : State := s.segViolation i.t i.n (dOp i.w) i.pc a f

/-! ### Issue -/

/-- The engine a descriptor needs (R30). -/
def engineOf (w : Desc) : Option Engine :=
  let op := dOp w
  if (1 ≤ op ∧ op ≤ 9) ∨ op = 0x38 ∨ op = 0x39 then some .dma
  else if 0x10 ≤ op ∧ op ≤ 0x12 then some .array
  else if op = 0x18 then some .vec
  else none

/-- A thread has 8 asynchronous descriptors outstanding, and issues nothing (R29). -/
def State.atLimit (s : State) (t n : Nat) : Bool := decide (8 ≤ (s.thread (thrKey t n)).pend.length)

/-- One of R29's conditions holds thread `n` of tile `t` before the descriptor `w`. -/
def State.mustWait (s : State) (t n : Nat) (w : Desc) : Bool :=
  s.atLimit t n || match engineOf w with
  | none => false
  | some e => decide (queueDepth e ≤ s.queued t e) || (e == .array && ((s.tile t).claim.any fun c => c.thread != n))

/-- Thread `n` of tile `t` is ready: its next descriptor is in the cache and nothing of R29 holds it back (R28). -/
def State.readyThread (s : State) (t n : Nat) : Bool :=
  let th := s.thread (thrKey t n)
  let c := s.fld (F.threadCtl.ctx t n)
  s.fld (F.threadStatus.state t n) == 1 && th.held.isNone && !(s.ctx c).frozen
    && (match s.cachedAt t c (s.reg (R.threadPc t n)).toNat with
      | some w => !s.mustWait t n w
      | none => false)

/-- No ready thread of the tile goes before thread `n`: none of higher `PRIO`, and none of equal `PRIO` that stands before it in the round
robin (R28, R23; log entry 99). -/
def State.hasTurn (s : State) (t n : Nat) : Bool :=
  let order := (s.tile t).robin
  (upto 16).all fun m =>
    m == n || !s.readyThread t m
      || s.fld (F.threadCtl.prio t m) < s.fld (F.threadCtl.prio t n)
      || (s.fld (F.threadCtl.prio t m) == s.fld (F.threadCtl.prio t n) && order.idxOf n < order.idxOf m)

/-- May thread `n` of tile `t` issue now: its tile is ready, it reads ready or blocked on something that is looked at again, it holds no
descriptor, nothing freezes its context, and it is its turn (R28, R29, R311, R405). -/
def State.canIssue (s : State) (t n : Nat) : Bool :=
  let st := s.fld (F.threadStatus.state t n)
  s.tileReady t && (st == 1 || st == 3 || st == 4 || st == 5) && (s.thread (thrKey t n)).held.isNone && !s.atLimit t n
    && !s.stopFrozen && !(s.ctx (s.fld (F.threadCtl.ctx t n))).frozen && s.hasTurn t n

/-- Run the row of the descriptor `i` when it is of opcode `op` and selector `sub`, on `s'`, the state after its fetch; a descriptor of another
row is no occasion of this one and leaves `s`. -/
def State.runRow (s s' : State) (i : Iss) (op : Nat) (sub : Desc → Option Bool) (run : Iss → State → State) : State :=
  if ¬ opListed (dOp i.w) then s'.faultAt i 0x01
  else if dOp i.w ≠ op then s
  else
    match sub i.w with
    | none => s'.faultAt i 0x02
    | some false => s
    | some true => run i s'

/-- What the thread's next descriptor `w` knows of itself. -/
def State.nextIss (s : State) (t n : Nat) (w : Desc) : Iss :=
  { t := t, n := n, c := s.fld (F.threadCtl.ctx t n), pc := (s.reg (R.threadPc t n)).toNat, w := w, ixs := (upto 8).map fun k => s.ix t n k }

/-- A stopping thread has nothing left to complete: it becomes idle, with the `EXIT_OBJ` add and the `DONE_OBJ` of a `HALT` (R33, R34, R37). -/
def State.goIdle (s : State) (t n : Nat) : State :=
  let th := s.thread (thrKey t n)
  let s := ((s.setThread (thrKey t n) { th with ending := .none, held := none }).setFld (F.threadStatus.state t n) 0).threadStops
    (s.fld (F.threadCtl.ctx t n))
  if th.ending = .halt then
    let s := if s.bit (F.threadCtl.exitEn t n) then s.syncAdd (R.syncCount t (s.fld (F.threadCtl.exitObj t n))) 1 else s
    match th.held with
    | some w => s.signalDone t w
    | none => s
  else s

/-- A thread that stops while descriptor `w` is in progress has completed it: it stays stopping until its outstanding descriptors have
completed too, then becomes idle (R33). A fault meanwhile stands. -/
def State.stopsNow (s : State) (t n : Nat) : State :=
  if s.fld (F.threadStatus.state t n) = 6 then s
  else
    let s := s.setFld (F.threadStatus.state t n) 7
    let th := s.thread (thrKey t n)
    if th.pend = [] ∧ th.held = none then s.goIdle t n else s

/-- A thread that holds the descriptor `w` waits for its outstanding descriptors: `w` looks again (R51, R54). It issued before, so
neither the sequencer nor a freeze has a say. -/
def State.resume (s : State) (t n : Nat) (w : Desc) (op : Nat) (sub : Desc → Option Bool) (run : Iss → State → State) : State :=
  let th := s.thread (thrKey t n)
  if th.held ≠ some w ∨ th.syncTid.isSome ∨ th.ending = .halt ∨ ¬ s.tileReady t then s
  else
    let i := s.nextIss t n w
    if dOp w ≠ op ∨ sub w ≠ some true ∨ th.pend ≠ [] then s
    else
      let u := run i (s.setThread (thrKey t n) { th with held := none })
      if th.ending = .stop then u.stopsNow t n else u

/-- Issue the descriptor word `w` of opcode `op` (for `VEC` and `SIGNAL` rows, `sub` picks the row) on a thread and run its
meaning. A word that is not what the thread fetches, or that belongs to another row, is no occasion of this row and changes
nothing (log entry 6); an opcode not listed, or a reserved selector, faults as R34 says in whichever row it is presented. -/
def State.issue (s : State) (t n : Nat) (w : Desc) (op : Nat) (sub : Desc → Option Bool) (run : Iss → State → State) : State :=
  if (s.thread (thrKey t n)).held.isSome then s.resume t n w op sub run
  else if ¬ s.canIssue t n then s
  else
    let i := s.nextIss t n w
    match s.fetchAddr t i.c i.pc with
    | .inl (some f) => s.segViolation t n 0 i.pc i.pc f
    | .inl none => (s.recordAccess i.c i.pc).threadFault t n 0x03 0 i.pc
    | .inr phys =>
      if s.fetched t i.c i.pc phys w then
        let s' := s.modTile t fun tl =>
          { tl with cache := cacheTouch tl.cache { ctx := i.c, pc := i.pc, word := w }, robin := robinTouch tl.robin n }
        s.runRow s' i op sub run
      else if s.fetchFails t i.c i.pc phys then ((s.noteBadRead phys 16).recordAccess i.c i.pc).threadFault t n 0x05 0 i.pc
      else s

/-- The selector of a row that takes every word of its opcode. -/
def anySub : Desc → Option Bool := fun _ => some true

/-- The row of a `VEC` sub-operation; codes 0x1F and above are reserved (R40). -/
def vecSub (k : Nat) : Desc → Option Bool := fun w => if 0x1F ≤ dSub w then none else some (dSub w == k)

/-- The row of a `SIGNAL` operation; codes 0x7 to 0xF are reserved (R44). -/
def signalSub (k : Nat) : Desc → Option Bool := fun w => if 7 ≤ dOpc w then none else some (dOpc w == k)

/-! ### Completion (R30, R33, R34, R37) -/

/-- After a thread's list of outstanding descriptors shrank from length `before`: a stopping thread with nothing left to complete
becomes idle (R33, R37); a thread blocked at the limit of outstanding descriptors looks again. -/
def State.afterComplete (s : State) (t n before : Nat) : State :=
  let th := s.thread (thrKey t n)
  let st := s.fld (F.threadStatus.state t n)
  if st = 7 ∧ th.pend = [] ∧ (th.held = none ∨ th.ending = .halt) then s.goIdle t n
  else if st = 4 ∧ th.held = none ∧ (th.pend = [] ∨ before = 8) then s.setFld (F.threadStatus.state t n) 1
  else s

/-- Is `k` the oldest outstanding descriptor of its engine (R30: an engine executes a thread's descriptors in order)? -/
def oldestOfEngine (l : List Pend) (k : Nat) : Bool :=
  match l[k]? with
  | none => false
  | some p => (l.take k).all fun q => q.eng != p.eng

/-- Take descriptor `k` off a thread's list, fire `DONE_OBJ` when it is to be signalled, and let the thread go on. -/
def State.finishPend (s : State) (t n k : Nat) : State :=
  let th := s.thread (thrKey t n)
  match th.pend[k]? with
  | none => s
  | some p =>
    let s := s.setThread (thrKey t n) { th with pend := th.pend.eraseIdx k }
    let s := if p.signal then s.signalDone t p.word else s
    (s.afterComplete t n th.pend.length).retryTile t

end Sys2Proof.Machine
end

