-- ==== Sys2Proof/Machine/Ports.lean ====
section
/-! DEFINITION. The commands of the optical ports and of Stile (chapter 10). -/

namespace Sys2Proof.Machine


/-! ### Training (R255 to R258) -/

/-- The axis of a port, the direction it faces, and the Stile of an axis. -/
def portAxis (p : Nat) : Nat := p / 2
def portDir (p : Nat) : Nat := p % 2
def State.stileClosed (s : State) (a : Nat) : Bool := (s.fld F.stileStatus.closed).testBit a
def State.stileMoving (s : State) (a : Nat) : Bool := (s.fld F.stileStatus.moving).testBit a

/-- The `DOWN_REASON` of a training state that fails (Table 10.16). -/
def stateReason (st : Nat) : Nat :=
  match st with
  | 1 => 8
  | 2 => 1
  | 3 => 2
  | 4 => 3
  | 5 => 4
  | _ => 0

def isTraining (st : Nat) : Bool := 1 ≤ st && st ≤ 5

/-- The protocol version of this module (Table 10.6). -/
def linkVersion : Nat := 0x01000000

/-- The payload of the `LINK_CTL` flits of a port. -/
def State.linkCtl (s : State) (p : Nat) : List Byte :=
  leBytes 4 (s.coord % 2 ^ 17 + 2 ^ 31 * boolNat s.coordKnown) ++ leBytes 1 p ++ leBytes 1 (s.port p).whole ++ leBytes 2 0
    ++ leBytes 4 linkVersion ++ ((upto 8).map fun v => leBytes 2 (s.fld (F.portVcBuf.val p v))).flatten

/-- Fibre lanes of the whole pairs. -/
def lanesOf (whole : Nat) : Nat := (if whole % 2 = 1 then 0xFF else 0) + (if whole / 2 % 2 = 1 then 0xFF00 else 0)

/-- The laser unit of a port (Table 10.1). -/
def portUnit (p : Nat) : Nat := p / 4

/-- The wavelengths of a unit that have lost both lasers (R251). -/
def State.darkWaves (s : State) (u : Nat) : List Nat := (upto 8).filter fun w => 2 ≤ Tab.get (fun _ => 0) s.lasers (16 * u + w)

/-- May a port train: the module has reached step 4 of its bring-up (R392), and its laser unit has light at every wavelength
(R251)? -/
def State.mayTrain (s : State) (p : Nat) : Bool := s.bring.step == 4 && (s.darkWaves (portUnit p)).isEmpty

/-- R259 holds for the first time since the link domain started: step 5 of the bring-up is complete (R392). -/
def State.noteLinks (s : State) : State :=
  if s.bring.step = 4 ∧ ¬ s.bring.linkDone ∧ (s.reg R.funcReady).getLsbD 4 then s.modBring fun b => { b with linkDone := true } else s

/-- The work of a training state completes: `whole` are the fibre pairs `DETECT` judges whole, `failed` the lanes `ALIGN` could
not lock (R255). A port whose Stile is closed trains against its own axis and ends in `LOOP`; its flits stay inside the module, and nothing
leaves it on that axis (R271, R275, R494). -/
def State.trainStep (s : State) (p whole failed : Nat) : State :=
  if ¬ s.mayTrain p then s
  else match s.portState p with
  | 1 => s.enterPort p psDetect
  | 2 =>
    let s := (s.modPort p fun x => { x with whole := whole % 4 }).setFld (F.portLanes.failed p) (0xFFFF - lanesOf (whole % 4))
    if whole % 4 = 0 then s.modPort p fun x => { x with failReason := if x.failReason = 7 then 7 else 1 } else s.enterPort p psEqualise
  | 3 => s.enterPort p psAlign
  | 4 =>
    let good := lanesOf (s.port p).whole &&& (0xFFFF - failed % 2 ^ 16)
    let s := (s.setFld (F.portLanes.locked p) good).setFld (F.portLanes.failed p) (0xFFFF - good)
    let s := s.enterPort p psHandshake
    if s.stileClosed (portAxis p) then s else s.sendFlit p { type := 3, first := true, last := true, len := 28, payload := s.linkCtl p }
  | 5 => if s.stileClosed (portAxis p) then (s.enterPort p psLoop).noteLinks else s
  | _ => s

def execPortTrainingStep (p : Fin 8) (whole : BitVec 2) (failed : BitVec 16) (s : State) : Result :=
  .next (s.trainStep p whole.toNat failed.toNat)

/-- A state's limit expires: back to `DETECT` (R255). -/
def State.trainLimit (s : State) (p : Nat) : State :=
  let st := s.portState p
  if isTraining st ∧ s.bring.step = 4 then
    (s.modPort p fun x => { x with failReason := if x.failReason = 7 then 7 else stateReason st }).enterPort p psDetect
  else s

def execTrainingLimitExpired (p : Fin 8) (s : State) : Result := .next (s.trainLimit p)

/-- The 40 ms budget is spent: `DOWN` with the reason of the state that failed (R255). -/
def State.trainBudget (s : State) (p : Nat) : State :=
  let st := s.portState p
  if isTraining st ∧ s.bring.step = 4 then s.portDown p (if (s.port p).failReason = 0 then stateReason st else (s.port p).failReason) else s

def execTrainingBudgetExpired (p : Fin 8) (s : State) : Result := .next (s.trainBudget p)

def execTrainingRetry (p : Fin 8) (s : State) : Result :=
  .next (if s.bring.step = 4 ∧ s.portState p = psDown ∧ s.bit (F.portCtl.enable p) then s.startTraining p false else s)

/-! ### Handshake (R256, R257, R264, R273, R274) -/

/-- Positions from this module to `co` in a port's direction on its axis; 0 away counts as once around. -/
def State.positionsAway (s : State) (p co : Nat) : Nat :=
  let a := portAxis p
  let l := s.ringLen a
  let me := coordAt s.coord a % l
  let it := coordAt co a % l
  let d := if portDir p = 0 then (it + l - me) % l else (me + l - it) % l
  if d = 0 then l else d

/-- The position checks of R256 on a neighbour's coordinate. -/
def State.neighbourFits (s : State) (p co : Nat) : Bool :=
  ((upto 4).all fun a => a == portAxis p || coordAt co a == coordAt s.coord a)
    && coordAt co (portAxis p) < s.ringLen (portAxis p) && s.positionsAway p co ≤ 4

/-- A port armed for reinsertion: the notice to the partner, and `ARMED` once its replay buffer is acknowledged (R274). -/
def State.armPort (s : State) (p : Nat) : State :=
  if s.portState p = psUp then
    let s := s.sendFlit p { type := 5, first := true, last := true, len := 1, payload := [1] }
    if (s.port p).replay.isEmpty then s.enterPort p psArmed else s.modPort p fun x => { x with arming := true }
  else s

/-- Number the flits of a replay buffer from 0, for a partner that has received none of them (log entry 117). -/
def renumber (l : List Sent) : List Sent := l.mapIdx fun i r => { flit := { r.flit with seq := i % 4096 } }

/-- A port's link state towards a partner it has not spoken with: `SEQ` from 0 both ways (log entry 117). -/
def Port.fresh (x : Port) : Port :=
  { x with replay := renumber x.replay, nextSeq := x.replay.length % 4096, expect := 0, nakOut := false }

/-- The neighbour is accepted: width, credits, `PORT_NEIGHBOUR`, `UP`, and the replay of what is unacknowledged, which counts as one (R258, R277). `keep` holds the link state, as a retrain with the same
partner does (R258). -/
def State.linkUp (s : State) (p width co port k : Nat) (bufs : List Nat) (keep : Bool) : State :=
  let old := s.reg (R.portNeighbour p)
  let x := s.port p
  let grew := x.partner && s.fld (F.portNeighbour.k p) < k
  let s :=
    if keep then s
    else forEach (upto 8) (fun s v => s.setFld (F.portVcCredit.val p v) (bufs.getD v 0 % 4096)) (s.modPort p Port.fresh)
  let s := s.setReg (R.portNeighbour p) (BitVec.ofNat 64 (co % 2 ^ 17 + 2 ^ 17 * (port % 8) + 2 ^ 20 * (k % 4)))
  let s := s.modPort p fun x =>
    { x with
      retraining := false, failReason := 0, partner := true, nakOut := false, lost := false
      replayAt := if x.replay.isEmpty then none else some 0 }
  let s := if (s.port p).replay.isEmpty then s else s.bumpReg (R.portRetries p)
  let s := ((s.setFld (F.portStatus.width p) width).enterPort p psUp).noteLinks
  let s := if width = 3 then s else s.linkDegraded p 0
  let s := if grew then s.raise 0x2005 0 0x04 p (portAxis p + 4 + 8 * p + 64 * (k % 4)) else s
  if s.bit (F.portCtl.reinsertArm p) then
    (if s.reg (R.portNeighbour p) = old then s.armPort p else s.setBit (F.portCtl.reinsertArm p) false)
  else s

/-- Does a handshake come from another partner than the one the port last spoke with (log entry 117)? -/
def State.newPartner (s : State) (p co port : Nat) : Bool :=
  s.fld (F.portNeighbour.coord p) != co || s.fld (F.portNeighbour.port p) != port

/-- A `LINK_CTL` flit in `HANDSHAKE` (R256, R257); in loopback it comes from the other port of the axis (R271). -/
def State.handshakeIn (s : State) (p : Nat) (x : WireFlit) : State :=
  if ¬ goodCrc x then s.crcFail p
  else
    let f := fieldsOf x
    let b := f.payload
    if f.type ≠ 3 then s
    else if s.stileClosed (portAxis p) then (s.enterPort p psLoop).noteLinks
    else
      let cw := natAt b 0 4
      let co := cw % 2 ^ 17
      let both := cw.testBit 31 && s.coordKnown
      if natAt b 8 4 / 2 ^ 16 ≠ linkVersion / 2 ^ 16 then s.portDown p 6
      else if natAt b 4 1 ≠ (if portDir p = 0 then p + 1 else p - 1) ∨ (both ∧ ¬ s.neighbourFits p co) then s.portDown p 5
      else
        let keep := (s.port p).retraining && !(both && s.newPartner p co (natAt b 4 1))
        let s := if keep then s.takeAck p f else s
        let whole := (s.port p).whole &&& (natAt b 5 1 % 4)
        let bufs := (upto 8).map fun v => natAt b (12 + 2 * v) 2
        let k := if both then s.positionsAway p co - 1 else 0
        if whole = 3 then s.linkUp p 3 co (natAt b 4 1) k bufs keep
        else if whole = 0 ∨ ¬ s.bit (F.portCtl.halfOk p) then s.portDown p 1
        else s.linkUp p whole co (natAt b 4 1) k bufs keep

/-! ### Lasers, loss of light, retrain, enable (R251, R258, R274, R277, R494) -/

/-- The ports of a laser unit (Table 10.1). -/
def unitPorts (u : Nat) : List Nat := (upto 8).filter fun p => portUnit p == u

/-- A port whose unit has switched a wavelength to its spare trains again; one in training starts over (R251). -/
def State.spareTrain (s : State) (p : Nat) : State :=
  let st := s.portState p
  if s.portLive p then s.retrain p
  else if st = psLoop ∨ isTraining st then s.startTraining p (isTraining st && (s.port p).retraining)
  else s

/-- Lanes `w` and `8 + w` of a port have no light (R251). -/
def State.loseLanes (s : State) (p w : Nat) : State :=
  let m := 2 ^ w + 2 ^ (8 + w)
  (s.setFld (F.portLanes.locked p) (s.fld (F.portLanes.locked p) &&& (0xFFFF - m))).setFld (F.portLanes.failed p) (s.fld (F.portLanes.failed p) ||| m)

/-- A laser of wavelength `w` of a unit fails (R251). -/
def State.laserFails (s : State) (u w : Nat) : State :=
  let n := Tab.get (fun _ => 0) s.lasers (16 * u + w)
  let s := { s with lasers := Tab.put (fun _ => 0) s.lasers (16 * u + w) (min (n + 1) 2) }
  match n with
  | 0 => forEach (unitPorts u) (fun s p => ((s.spareTrain p).setBit (F.portStatus.laserSpare p) true).linkDegraded p 3) s
  | 1 => forEach (unitPorts u) (fun s p => if s.portState p = psDisabled then s.loseLanes p w else (s.loseLanes p w).portDown p 8) s
  | _ => s

def execLaserFailure (u : Fin 2) (w : Fin 8) (s : State) : Result := .next (s.laserFails u w)

/-- Loss of light on fibre pair `pair` of a live port: half width on the other pair when that is allowed (R257), else a retrain
(R258); so also at an armed port, which loses both pairs when the Stile it waits for moves (R274, R494). -/
def State.lossOfLight (s : State) (p pair : Nat) : State :=
  if ¬ s.portLive p then s
  else
    let s := s.modPort p fun x => { x with whole := x.whole &&& (3 - 2 ^ pair) }
    if s.fld (F.portStatus.width p) = 3 ∧ s.bit (F.portCtl.halfOk p) then
      let s := s.setFld (F.portLanes.locked p) (s.fld (F.portLanes.locked p) &&& lanesOf (s.port p).whole)
      ((s.setFld (F.portStatus.width p) (2 - pair)).linkDegraded p 0).markSeen 3
    else s.retrain p

def execLossOfLight (p : Fin 8) (pair : Fin 2) (s : State) : Result := .next (s.lossOfLight p pair)

def execRetrain (p : Fin 8) (s : State) : Result := .next (s.retrain p)

/-- A port is switched off: it reads `DISABLED`, and what it held is dropped. -/
def State.portOff (s : State) (p : Nat) : State :=
  if s.portState p = psDisabled then s
  else
    let held := (s.port p).txq.filterMap (·.held)
    let s := forEach held (fun s pv => s.oweCredit pv.1 pv.2) (s.modPort p fun x => { x with txq := [], replay := [], replayAt := none, ledger := [] })
    (((s.setFld (F.portStatus.width p) 0).setFld (F.portLanes.locked p) 0).enterPort p psDisabled).noteLinks

/-- A write of `ENABLE` (Table 10.15). -/
def State.portEnable (s : State) (p : Nat) (v : Bool) : State :=
  let s := s.setBit (F.portCtl.enable p) v
  if v then (if s.portState p = psDisabled ∧ ¬ s.ronbin.recovery then s.startTraining p false else s) else s.portOff p

def execPortEnableWrite (p : Fin 8) (v : Bool) (s : State) : Result := .next (s.portEnable p v)

/-- Clear a port's counters (R277). -/
def State.clearCounters (s : State) (p : Nat) : State :=
  forEach [R.portFecCorr p, R.portFecUncorr p, R.portCrcErr p, R.portRetries p, R.portPoisoned p, R.portProtoErr p, R.portTrains p]
    (fun s k => s.setReg k 0) s

def execClrCnt (p : Fin 8) (s : State) : Result := .next (s.clearCounters p)

/-- A write of `REINSERT_ARM` (R274): 1 acts while the port reads `UP`; 0 disarms it. -/
def State.reinsertArm (s : State) (p : Nat) (v : Bool) : State :=
  let s := s.setBit (F.portCtl.reinsertArm p) v
  if v then s.armPort p
  else
    let s := s.modPort p fun x => { x with arming := false }
    if s.portState p = psArmed then s.enterPort p psUp else s

def execReinsertArm (p : Fin 8) (v : Bool) (s : State) : Result := .next (s.reinsertArm p v)

/-! ### Received flits (R254, R261, R264 to R267) -/

/-- A flit of a live port that fails its CRC: nothing in it can be told, its `TYPE` neither, so it is a discard that `NAK` may
answer (R261, R265). -/
def State.badFlit (s : State) (p : Nat) : State := (s.crcFail p).nakOnce p

/-- Run `f` on a flit of type `ty` that passes its CRC, after its `ACK` and credits are taken. -/
def State.onFlit (s : State) (p ty : Nat) (x : WireFlit) (f : State → Flit → State) : State :=
  if ¬ s.portLive p then s
  else if ¬ goodCrc x then s.badFlit p
  else if (fieldsOf x).type ≠ ty then s
  else f (s.takeAck p (fieldsOf x)) (fieldsOf x)

/-- A `LINK_CTL` flit: the handshake's, or on a live port its `ACK` and credits only (R256, R261). -/
def State.linkCtlIn (s : State) (p : Nat) (x : WireFlit) : State :=
  if s.portState p = psHandshake then s.handshakeIn p x else s.onFlit p 3 x fun s _ => s

def execLinkCtlReceived (p : Fin 8) (x : WireFlit) (s : State) : Result := .next (s.linkCtlIn p x)

/-- An accepted, discarded or out of order `DATA` flit (R265). -/
def State.dataIn (s : State) (p : Nat) (f : Flit) : State :=
  let e := (s.port p).expect
  if f.seq = e then (s.modPort p fun x => { x with expect := (e + 1) % 4096, nakOut := false }).transit p f
  else if (f.seq + 4096 - e) % 4096 < 2048 then s.nakOnce p
  else s

def execDataFlitReceived (p : Fin 8) (x : WireFlit) (s : State) : Result :=
  .next (s.onFlit p 1 x fun s f => s.dataIn p f)

/-- A `NAK` names the flit of its `SEQ` (R265, R266). -/
def State.nakIn (s : State) (p : Nat) (f : Flit) : State :=
  match (s.port p).replay.findIdx? fun r => r.flit.seq == f.seq with
  | none => s
  | some i => s.nameFlit p i

def execNakReceived (p : Fin 8) (x : WireFlit) (s : State) : Result := .next (s.onFlit p 2 x fun s f => s.nakIn p f)

/-- A `STILE` notice carries nothing to act on beyond the fields every flit carries (R274). -/
def execStileNoticeReceived (p : Fin 8) (x : WireFlit) (s : State) : Result := .next (s.onFlit p 5 x fun s _ => s)

def execIdleFlitReceived (p : Fin 8) (x : WireFlit) (s : State) : Result := .next (s.onFlit p 0 x fun s _ => s)

/-- Does a port receive flits: it is live, in `HANDSHAKE`, or in loopback? -/
def State.takesFlits (s : State) (p : Nat) : Bool := s.portLive p || s.portState p == psHandshake || s.portState p == psLoop

/-- A flit of reserved `TYPE` (R261): counted on every port that takes flits; a live port takes its `ACK` and credits. -/
def State.reservedIn (s : State) (p : Nat) (x : WireFlit) : State :=
  if ¬ s.takesFlits p then s
  else if ¬ goodCrc x then (if s.portLive p then s.badFlit p else s.crcFail p)
  else if (fieldsOf x).type < 6 then s
  else (((if s.portLive p then s.takeAck p (fieldsOf x) else s).bumpReg (R.portProtoErr p))).linkDegraded p 4

def execReservedTypeFlitReceived (p : Fin 8) (x : WireFlit) (s : State) : Result := .next (s.reservedIn p x)

/-- A codeword that cannot be corrected: the three flits with a bit in it fail their CRC (R253, R254). -/
def State.codewordBad (s : State) (p : Nat) : State :=
  let s := s.bumpReg (R.portFecUncorr p)
  let s := if s.takesFlits p then s.bumpReg (R.portCrcErr p) 3 else s
  if s.portLive p then s.nakOnce p else s

def execCodewordUncorrectable (p : Fin 8) (s : State) : Result := .next (s.codewordBad p)

def execReplayTimeout (p : Fin 8) (s : State) : Result := .next (if s.portLive p then s.nameFlit p 0 else s)

def execNakResend (p : Fin 8) (s : State) : Result := .next (if s.portLive p && (s.port p).nakOut then s.sendNak p else s)

/-- The end of a one-second window of FEC: `corrected` symbols were corrected in it, and its symbol error ratio is `ratio`
(R270 reason 1, Table 10.14). -/
def State.fecWindow (s : State) (p : Nat) (corrected : Word) (ratio : F32) : State :=
  let s := s.bumpReg (R.portFecCorr p) corrected.toNat
  if f32IsFinite ratio ∧ ¬ ratio.getLsbD 31 ∧ s.obj O.degradeFecSer < ratio.toNat then s.linkDegraded p 1 else s

def execFecSymbolErrorRatio (p : Fin 8) (corrected : Word) (ratio : F32) (s : State) : Result := .next (s.fecWindow p corrected ratio)

/-! ### Stile (R271 to R276) -/

/-- Refuse a Stile command (`STILE_STATUS`). -/
def State.stileRefuse (s : State) (reason : Nat) : State := (s.setBit F.stileStatus.refused true).setFld F.stileStatus.refReason reason

/-- Set bit `a` of a four-bit field. -/
def State.setAxisBit (s : State) (f : Fld) (a : Nat) (v : Bool) : State := s.setBit ⟨f.reg, f.lo + a, 1⟩ v

/-- Bypassed positions next to this one in a direction, at most the ring length. -/
def State.bypassRun (s : State) (a dir : Nat) : Nat → Nat → Nat
  | 0, _ => 0
  | fuel + 1, pos =>
    let l := s.ringLen a
    let q := if dir = 0 then (pos + 1) % l else (pos + l - 1) % l
    if (s.reg (R.bypassMap a)).getLsbD q then 1 + s.bypassRun a dir fuel q else 0

/-- Would closing this module's Stile make a run of more than three consecutive bypassed positions (R272)? -/
def State.runTooLong (s : State) (a : Nat) : Bool :=
  let l := s.ringLen a
  let me := coordAt s.coord a % l
  3 < min l (1 + s.bypassRun a 0 (l - 1) me + s.bypassRun a 1 (l - 1) me)

/-- Start closing the Stile of an axis, for `cause` of Table 10.17. -/
def State.startClose (s : State) (a cause : Nat) : State :=
  if s.stileClosed a ∧ ¬ s.stileMoving a then s
  else
    let s := ((s.setAxisBit F.stileStatus.closed a false).setAxisBit F.stileStatus.moving a true).setAxisBit F.stileStatus.openPending a false
    (s.setFld ⟨R.stileStatus, 16 + 4 * a, 4⟩ cause).markSeen 3

/-- Close all four Stiles whatever the run (R272). -/
def State.closeAll (s : State) (cause : Nat) : State := forEach (upto 4) (fun s a => s.startClose a cause) s

/-- A `STILE_CLOSE` bit of one axis (R272). -/
def State.closeAxis (s : State) (a cause : Nat) (force : Bool) : State :=
  if s.stileMoving a then s.stileRefuse 3
  else if s.stileClosed a then s
  else if s.runTooLong a ∧ ¬ force then s.stileRefuse 2
  else s.startClose a cause

def State.stileClose (s : State) (mask cause : Nat) (force : Bool) : State :=
  forEach ((upto 4).filter fun a => mask.testBit a) (fun s a => s.closeAxis a cause force) s

/-- Writes by a register (`obj` false, cause 4) or by the object (cause 5). -/
def execStileClose (mask : BitVec 4) (force obj : Bool) (s : State) : Result :=
  .next (if obj && !s.dictServes O.stileClose then s else s.stileClose mask.toNat (if obj then 5 else 4) force)

/-- Both neighbours of an axis are acknowledged. -/
def State.acked (s : State) (a : Nat) : Bool := s.stileAcks.testBit (2 * a) && s.stileAcks.testBit (2 * a + 1)

/-- Open the Stile of an axis whose conditions all hold. -/
def State.startOpen (s : State) (a : Nat) : State :=
  let s := { s with stileAcks := s.stileAcks &&& (0xFF - 3 * 2 ^ (2 * a)) }
  ((s.setAxisBit F.stileStatus.openPending a false).setAxisBit F.stileStatus.moving a true).markSeen 3

/-- Condition 1 of R274: both ports of the axis read `LOOP`. -/
def State.bothLoop (s : State) (a : Nat) : Bool := s.portState (2 * a) == psLoop && s.portState (2 * a + 1) == psLoop

/-- A `STILE_OPEN` bit of one axis (R274). -/
def State.openAxis (s : State) (a : Nat) : State :=
  if s.stileMoving a then s.stileRefuse 3
  else if ¬ s.stileClosed a then s
  else if ¬ s.bothLoop a then s.stileRefuse 1
  else if s.acked a then s.startOpen a
  else s.setAxisBit F.stileStatus.openPending a true

def State.stileOpen (s : State) (mask : Nat) : State := forEach ((upto 4).filter fun a => mask.testBit a) State.openAxis s

def execStileOpen (mask : BitVec 4) (s : State) : Result := .next (s.stileOpen mask.toNat)

/-- A write of `STILE_NEIGH_ACK` (R274). A pending axis whose ports have left `LOOP` since is refused with reason 1 (log entry 130). -/
def State.stileAck (s : State) (mask : Nat) : State :=
  let s := { s with stileAcks := s.stileAcks ||| mask }
  forEach (upto 4) (fun s a =>
    if ¬ ((s.fld F.stileStatus.openPending).testBit a ∧ s.acked a) then s
    else if s.bothLoop a then s.startOpen a
    else (s.setAxisBit F.stileStatus.openPending a false).stileRefuse 1) s

def execStileNeighAck (mask : BitVec 8) (s : State) : Result := .next (s.stileAck mask.toNat)

/-- One second without both acknowledgements (R274). -/
def State.openLapse (s : State) (a : Nat) : State :=
  if (s.fld F.stileStatus.openPending).testBit a then (s.setAxisBit F.stileStatus.openPending a false).stileRefuse 4 else s

def execStileOpenLapse (a : Fin 4) (s : State) : Result := .next (s.openLapse a)

/-- A Stile has switched: the axis's ports train anew, in loopback or with their neighbours; a close is reported unless power
was lost (R271, R273, R274). Ports without power, or in ROM recovery mode, do not train (R449, R478). -/
def State.stileMoved (s : State) (a : Nat) : State :=
  if ¬ s.stileMoving a then s
  else
    let closing := ¬ s.stileClosed a
    let cause := s.fld ⟨R.stileStatus, 16 + 4 * a, 4⟩
    let s := (s.setAxisBit F.stileStatus.moving a false).setAxisBit F.stileStatus.closed a closing
    let s := if closing then s else s.setFld ⟨R.stileStatus, 16 + 4 * a, 4⟩ 0
    let s := if closing ∧ cause ≠ 1 then s.raise 0x2005 0 0x04 (2 * a) (a + 2 ^ 8 * cause) else s
    forEach [2 * a, 2 * a + 1] (fun s p =>
      if s.portState p = psDisabled ∨ ¬ s.bit (F.portCtl.enable p) ∨ s.fld F.pwrStatus.state ≤ 1 ∨ s.ronbin.recovery then s else s.startTraining p false)
      (s.markSeen 3)

def execStileMovementComplete (a : Fin 4) (s : State) : Result := .next (s.stileMoved a)

/-- The main rail falls below 10.2 V (R272). -/
def execPowerLossStileClose (s : State) : Result := .next (s.closeAll 1)

end Sys2Proof.Machine
end

