-- ==== Sys2Proof/Machine/Transport.lean ====
section
/-! DEFINITION. Issuing transfers: bounds and deadlines, admission, completion at the issuer, void promises (R280 to R283,
R290 to R297). -/

namespace Sys2Proof.Machine

/-! ### Conditions (R290, R294, R450) -/

/-- Lark counts as locked for admission: locked, grandmaster, or a holdover not expired (R290, R306). -/
def State.larkCounts (s : State) : Bool := [2, 3, 4].contains (s.fld F.larkStatus.state)

/-! ### Bounds and deadlines (Table 11.5, R293), in picoseconds -/

def framePs : Nat := 2487000

/-- Start of slot `n` within its frame, rounded down (R284). -/
def slotStartPs (n : Nat) : Nat := 10880000 * n / 17920

/-- End of slot `n`, rounded up. -/
def slotEndPs (n : Nat) : Nat := (10880000 * (n + 1) + 17919) / 17920

/-- Σ(t_h + r_h) over a route of `h` hops and `um` micrometres: 60 + 203.42 ns a hop and 25 ns a metre. -/
def hopTermPs (h um : Nat) : Nat := 263420 * h + (25 * um + 999) / 1000

/-- Σ(t_h + r_h) of the route from here to `dest`, whose length is that of its fibres and 0.6 m for each bypassed module (R269). -/
def State.routeTermPs (s : State) (dest : Nat) (alt : Bool) : Nat :=
  let dirs := s.dirsTo dest alt
  hopTermPs (s.hopsTo dest dirs) (Config.routeMicrometres s.coord dest dirs + 600000 * s.bypassedTo dest dirs)

/-- The least number of free slots a checked bank leaves in a frame (R285). -/
def aMin : Nat := 819

/-- Flits of a transfer of `n` data bytes (R280). -/
def flitsOf (n : Nat) : Nat := 1 + (n - 208 + 239) / 240

/-- The bound of an admitted transfer whose last granted slot ends `w` after its issue; `nr` response flits of a read. -/
def State.admittedBound (s : State) (dest w : Nat) (nr : Option Nat) : Nat :=
  let r := s.routeTermPs dest false
  let f := (s.hopsTo dest (s.dirsTo dest false) - 1) * framePs
  match nr with
  | none => w + r + f
  | some n => w + r + f + ((n + aMin - 1) / aMin + 1) * framePs + r + f

/-- The scheduled deadline term of context `c` for `n` flits (R293). -/
def State.schedPs (s : State) (c n : Nat) : Nat := 1000 * s.fld (F.schedBaseNs.val c) + n * s.fld (F.schedPerFlitPs.val c)

/-! ### Reservation tables (R285) -/

/-- Offset of entry `n` of bank `b` of port `p` (Table 11.7). -/
def resEntry (p b n : Nat) : Nat := 0x0301100000 + 0x2000 * p + 0x1000 * b + n

/-- Does an offset lie in a reservation table bank? -/
def inResTable (off : Nat) : Bool := 0x0301100000 ≤ off && off < 0x0301110000

/-- What reservation table bytes hold of a write: bits [7:2] of an entry are reserved (R12, Table 11.3). -/
def resBytes (bs : List Byte) : List Byte := bs.map (· &&& 3)

/-- `USE` of slot `n` of a bank, 3 handled as 0 (Table 11.3). -/
def State.slotUse (s : State) (p b n : Nat) : Nat := (s.byte (resEntry p b n)).toNat % 4 % 3

/-- The bank that governs frame `k`: the other one from the frame of a pending swap on (R288). -/
def State.bankAt (s : State) (p k : Nat) : Nat :=
  let b := s.fld (F.resStatus.active p)
  if s.bit (F.resStatus.swapPending p) ∧ (s.port p).swapFrame ≤ k then 1 - b else b

/-- `USE` of slot `n` of the active bank. -/
def State.activeUse (s : State) (p n : Nat) : Nat := s.slotUse p (s.fld (F.resStatus.active p)) n

/-! ### Issuing -/

/-- What a transfer asks for. -/
structure Ask where
  kind : Nat
  ctx : Nat
  tclass : Nat
  dest : Nat
  offset : Nat
  len : Nat
  aux : Nat := 0
  /-- data carried; a read request carries none -/
  data : List Byte := []
  /-- the − way where both are equally short (R236) -/
  minus : Bool := false
  /-- row masks that go with a shard packet (R202) -/
  masks : List RowMask := []
  use : Use
  deriving DecidableEq, Repr

/-- VC class of a kind (Table 11.2). -/
def kindClass (kind tclass : Nat) : Nat :=
  if kind = 5 ∨ kind = 6 ∨ kind = 7 ∨ kind = 0x0A then 3
  else if kind = 8 ∨ kind = 9 ∨ tclass = 1 then 0
  else 1

/-- Deadline and completion check of a transfer issued now; `bound` is an admitted transfer's B (Table 11.5, R293). -/
def State.deadlines (s : State) (a : Ask) (bound : Option Nat) : Nat × Nat :=
  let now := s.now
  let r := s.routeTermPs a.dest false
  let d :=
    match bound with
    | some b => now + b
    | none =>
      if kindClass a.kind a.tclass = 3 then now + 2 * (r + framePs)
      else if a.kind = 9 then now + 2 * s.schedPs a.ctx (flitsOf a.data.length) + 1000000
      else now + s.schedPs a.ctx (flitsOf a.data.length)
  (d, if a.kind = 3 ∨ a.kind = 4 ∨ a.kind = 8 then d + r + framePs else d)

/-- The stream of a transfer, of 16: four of its VC class, and for admitted requests the four of admitted responses too, which take the
stream of their request; in turn (log entry 77). -/
def streamOf (tid cls : Nat) : Nat := if cls = 1 then 4 + tid % 8 else 4 * (cls % 4) + tid % 4

/-- Issue a transfer: its record, its flits at the first-hop port with the slots granted to them, or an error response from
this module's own router for a transaction that cannot be routed; a message is not sent (R77, R258, R275, R283, R434). Answers its number. -/
def State.issueXfer (s : State) (a : Ask) (bound : Option Nat := none) (grants : List Nat := []) (alt : Bool := false) : State × Nat :=
  let tid := s.nextTid
  let stream := streamOf tid (kindClass a.kind a.tclass)
  let order := Tab.get (fun _ => 0) s.streams stream
  let (d, chk) := s.deadlines a bound
  let x : Xfer :=
    { tid := tid, kind := a.kind, ctx := a.ctx, tclass := a.tclass, dest := a.dest, offset := a.offset, len := a.len, aux := a.aux,
      data := a.data, stream := stream, order := order, issue := s.now, deadline := d, check := chk,
      primary := s.now + s.schedPs a.ctx (flitsOf a.data.length), seen := s.condNow, minus := a.minus, masks := a.masks, use := a.use }
  let s := { s with nextTid := tid + 1, streams := Tab.put (fun _ => 0) s.streams stream (order + 1), xfers := s.xfers ++ [x] }
  let hdr := transportHeader a.kind a.ctx a.tclass (s.fld (F.ctxJobTag.tag a.ctx)) a.len a.offset d 0 a.aux
  let (s, sent) :=
    if s.fld F.fenceStatus.level ≠ 0 ∧ isContextKind a.kind then (s, false)
    else s.launch a.dest stream (kindClass a.kind a.tclass) alt (transferFlits hdr a.data) grants a.minus
  (if sent ∨ ¬ isRequestKind a.kind then s else { s with arrived := s.arrived ++ [{ kind := 0x0C, src := s.coord, stream := stream, own := some tid }] }, tid)

/-- Issue several transfers in order; their numbers. -/
def State.issueAll (s : State) (l : List Ask) : State × List Nat :=
  l.foldl (fun (acc : State × List Nat) a => let (s, tid) := acc.1.issueXfer a; (s, acc.2 ++ [tid])) (s, [])

def State.findXfer (s : State) (tid : Nat) : Option Xfer := s.xfers.find? fun x => x.tid == tid
def State.setXfer (s : State) (x : Xfer) : State := { s with xfers := s.xfers.map fun y => if y.tid == x.tid then x else y }

/-- The transfer of this module a response answers: by the stream and the stream sequence in its `REF` (Table 11.1). -/
def State.answeredBy (s : State) (a : Arrived) : Option Xfer :=
  match a.own with
  | some tid => s.findXfer tid
  | none =>
    s.xfers.find? fun x =>
      a.ref % 2 ^ 17 == s.coord && x.stream == a.ref / 2 ^ 17 % 16 && x.order % 2048 == a.ref / 2 ^ 21

/-! ### Void promises (R294 to R296) -/

/-- The condition flags of a report, from bit 26 (Table 11.9): what was seen since the issue and what holds now. -/
def State.condFlags (s : State) (seen : Nat) : Nat :=
  seen ||| s.condNow

/-- Raise `PROMISE_VOID` of a kind (Table 11.9). -/
def State.promiseVoid (s : State) (unit other stream c kind flags latePs : Nat) : State :=
  (s.bumpReg R.promiseVoids).raise 0x2004 2 0x04 unit
    (other % 2 ^ 17 + 2 ^ 17 * (stream % 16) + 2 ^ 21 * (c % 8) + 2 ^ 24 * kind + 2 ^ 26 * (flags % 32) + 2 ^ 32 * min (latePs / 1000000) 65535)

/-- At the destination: a transfer written after its deadline (R296). -/
def State.judgeArrival (s : State) (a : Arrived) : State :=
  if a.deadline < s.now then s.promiseVoid a.port a.src a.stream a.ctx 0 (s.condFlags a.seen) (s.now - a.deadline) else s

/-- The first-hop port of a transfer. -/
def State.firstPort (s : State) (x : Xfer) : Nat := (s.outPort x.dest (s.dirsTo x.dest x.resent x.minus)).getD 0

/-! ### Rows of asynchronous descriptors -/

/-- Change the descriptor of thread key `k` that waits for transfer `tid`. -/
def State.modPendOf (s : State) (k tid : Nat) (f : Pend → Pend) : State :=
  s.modThread k fun th =>
    { th with pend := th.pend.map fun p => match p.phase with
        | .transfer l => if l.contains tid then f p else p
        | _ => p }

/-- The place in a thread's list of the descriptor that waits for transfer `tid`. -/
def State.pendOf (s : State) (k tid : Nat) : Option Nat :=
  (s.thread k).pend.findIdx? fun p => match p.phase with
    | .transfer l => l.contains tid
    | _ => false

/-! ### Admission (R290) -/

/-- Free slots of frame `k` not yet granted, as frame × 4,096 + slot. -/
def State.freeSlots (s : State) (p k : Nat) : List Nat :=
  ((upto 4096).filter fun n => s.slotUse p (s.bankAt p k) n == 0).map (4096 * k + ·) |>.filter fun g => !(s.port p).ledger.contains g

/-- The first `n` free slots of `fuel` frames from frame `k`, in slot order. -/
def State.grantSlots (s : State) (p : Nat) : Nat → Nat → Nat → List Nat
  | 0, _, _ => []
  | _, _, 0 => []
  | fuel + 1, k, n => let l := (s.freeSlots p k).take n; l ++ s.grantSlots p fuel (k + 1) (n - l.length)

/-- Slots of `USE` free in the 64 frames from frame `k`, granted or not. -/
def State.freeInWindow (s : State) (p k : Nat) : Nat :=
  ((upto 64).map fun i => ((upto 4096).filter fun n => s.slotUse p (s.bankAt p (k + i)) n == 0).length).sum

/-- Judge an admitted-class transfer of `n` flits to `dest` now: the port, the granted slots and the bound, or the reason of
`ADMIT_REFUSED` (Table 11.9), taken in the order R290 lists the conditions. -/
def State.judgeAdmission (s : State) (c dest n : Nat) (nr : Option Nat) : Nat ⊕ (Nat × List Nat × Nat) :=
  match s.outPort dest (s.dirsTo dest false) with
  | none => .inl 2
  | some p =>
    let slots := s.grantSlots p 64 (s.now / framePs + 1) n
    if slots.length < n then .inl (if s.freeInWindow p (s.now / framePs + 1) < n then 5 else 0)
    else
      let last := slots.getLast?.getD 0
      let w := last / 4096 * framePs + slotEndPs (last % 4096) - s.now
      let b := s.admittedBound dest w nr
      if 1000 * s.fld (F.admitMaxBoundNs.val c) < b then .inl 1
      else if ¬ (s.portState p = psUp ∧ s.portState (p / 2 * 2) = psUp ∧ s.portState (p / 2 * 2 + 1) = psUp ∧ s.fld (F.portStatus.width p) = 3) then .inl 2
      else if ¬ s.larkCounts then .inl 4
      else if s.throttled then .inl 3
      else .inr (p, slots, b)

/-- Count and record a refusal (Table 11.9); under the fence the reason is not stated. -/
def State.admitRefused (s : State) (c dest n reason : Nat) : State :=
  let unit := (s.outPort dest (s.dirsTo dest false)).getD 0
  (s.bumpReg R.admitRefusals).raise 0x2003 0 0x04 unit
    (dest % 2 ^ 17 + 2 ^ 17 * streamOf s.nextTid 1 + 2 ^ 21 * c + 2 ^ 26 * reason + 2 ^ 32 * min n 65535)

end Sys2Proof.Machine
end

