-- ==== Sys2Proof/Machine/Move.lean ====
section
/-! DEFINITION. The descriptors of the data-movement family: MOVE and LIST layouts, their transforms, local and remote ends
(R35, R37 to R39, R59, R72, R74, R84, R87, R280, R290). -/

namespace Sys2Proof.Machine

/-! ### Accesses of a context -/

/-- Why a descriptor cannot go on: a segment violation at a context address, a fault code, an access to a context address that
fails with a code (Table 3.9), an error response to the access of `n` bytes at a local offset, made at context address `a`, or a
Hamper fault with its subcode. -/
inductive Why
  | viol (a : Nat) (f : SegFault) | code (c : Nat) | out (a c : Nat) | bad (off n : Nat) (a : Nat := 0) | hamper (sub : Nat)
  deriving DecidableEq, Repr

/-- The context address of an access that failed at a local offset, from the translated offsets of its descriptor and their
addresses. -/
def Why.seenAt (l : List (Nat × Nat)) : Why → Why
  | .bad off n _ =>
    .bad off n (match l.find? fun x => x.1 == off with
      | some x => x.2
      | none => match l with
        | x :: _ => x.2 + off - x.1
        | [] => 0)
  | e => e

/-- The fault a failed access ends in (Table 3.9). -/
def State.failWith (s : State) (i : Iss) : Why → State
  | .viol a f => s.violate i a f
  | .code c => s.faultAt i c
  | .out a c => (s.recordAccess i.c a).faultAt i c
  | .bad off n a => ((s.noteBadRead off n).recordAccess i.c a).faultAt i 0x05
  | .hamper sub =>
    let s := if s.fld (F.hamperFault.sub i.t i.c) = 0 then s.setReg (R.hamperFault i.t i.c) (BitVec.ofNat 64 (sub + 16 * i.n)) else s
    (if sub = 4 then s.setBit (F.hamperStatus.spillFull i.c) true else s).faultAt i 0x0C sub

/-- Translate an access to `n` bytes at an address that must name this module: one that names another faults with code 0x02 (R59). DESIGN
CHOICE, log entry 106: so does the near end of a descriptor with `TCLASS` 1 or 2, the `DST` of a load or the `SRC` of a store. -/
def State.localPhys (s : State) (c a n need : Nat) : Except Why Nat :=
  match s.formOf a with
  | .illFormed => .error (.viol a { format := true })
  | .away _ _ => .error (.code 0x02)
  | .here o =>
    match s.translate c o n need with
    | .inl f => .error (.viol a f)
    | .inr p => .ok p

/-- One of these addresses names another module: an operand that may not faults with code 0x02 before any translation (R59). -/
def State.anyAway (s : State) (l : List Nat) : Bool := l.any fun a => match s.formOf a with
  | .away _ _ => true
  | _ => false

/-- Read `n` bytes at a local context address. -/
def State.ctxRead (s : State) (c a n : Nat) : Except Why (List Byte) :=
  match s.localPhys c a n rightR with
  | .error e => .error e
  | .ok p =>
    match s.readData p n with
    | some l => .ok l
    | none => .error (.bad p n a)

/-- Write bytes at a physical offset. -/
def State.physWrite (s : State) (p : Nat) (bs : List Byte) : Except Why State :=
  let (s, ok) := s.writeData p bs
  if ok then .ok s else .error (.bad p 0)

/-- A context address moved by a signed number of bytes, inside its 40-bit offset (R35). -/
def addrPlus (a : Nat) (k : Int) : Nat := 2 ^ 40 * (a / 2 ^ 40) + (((a % 2 ^ 40 : Nat) + k) % 2 ^ 40).toNat

/-! ### MOVE -/

/-- `SRC` and `DST` of a MOVE descriptor, and the rows it has. -/
def Iss.moveSrc (i : Iss) : Nat := i.aop 80
def Iss.moveDst (i : Iss) : Nat := i.aop 48
def moveRows (w : Desc) : Nat := if dOp w = 0x02 ∨ dOp w = 0x03 ∨ dOp w = 0x05 then dRows w else 1

/-- Address of source row `r`, and of destination row `r`. -/
def Iss.srcRow (i : Iss) (r : Nat) : Nat := addrPlus (i.moveSrc) (r * (i.ixAt (dSstr i.w)).toInt)
def Iss.dstRow (i : Iss) (r : Nat) : Nat := addrPlus (i.moveDst) (r * (i.ixAt (dDstr i.w)).toInt)

/-- Element bits of a transposing `XFORM`. -/
def xformBits (x : Nat) : Nat :=
  match x with
  | 1 => 16
  | 2 => 8
  | 3 => 4
  | _ => 8

/-- Element `k` of `b` bits in a row. -/
def elemOf (row : List Byte) (b k : Nat) : Nat :=
  if b = 4 then (byteAt row (k / 2)).toNat / 2 ^ (4 * (k % 2)) % 16 else natAt row (k * (b / 8)) (b / 8)

/-- Bytes of a row of elements of `b` bits, lower index in the lower bits. -/
def packElems (b : Nat) (l : List Nat) : List Byte :=
  leBytes ((l.length * b + 7) / 8) ((l.zipIdx.map fun e => e.1 % 2 ^ b * 2 ^ (b * e.2)).sum)

/-- Transpose rows of `n` elements of `b` bits: row k holds element k of every source row. A 4-bit row of odd length is filled
up with `pad`. -/
def transposeRows (b n pad : Nat) (rows : List (List Byte)) : List (List Byte) :=
  (upto n).map fun k =>
    let l := rows.map fun r => elemOf r b k
    packElems b (if b = 4 ∧ l.length % 2 = 1 then l ++ [pad] else l)

/-- Byte offset of a step-element in a skewed panel (R84). -/
def panelOffset (line step : Nat) : Nat :=
  let w := step / 4
  let b := (line + step) % 4
  let pos := 16 * (step % 4) + line / 4
  1024 * (w / 2) + 256 * b + 128 * (w % 2) + pos * 2

/-- Number of steps a `LOAD_PANEL` covers (Table 4.2). -/
def panelSteps (w : Desc) : Nat := if dXform w = 4 then dRows w else dLen w / 2

/-- The two bytes of step-element (line, step) in the source rows; lines a source does not supply are zero (R87). -/
def panelElem (x : Nat) (rows : List (List Byte)) (line step : Nat) : List Byte :=
  if x = 4 then padTo 2 ((rows.getD step []).drop (2 * line)) else padTo 2 ((rows.getD line []).drop (2 * step))

/-- Destination rows of a MOVE descriptor and their bytes. -/
def dstShape (w : Desc) : Nat × Nat :=
  let x := dXform w
  if 4 ≤ x then (1, 1024 * ((panelSteps w + 7) / 8))
  else if x = 0 then (moveRows w, dLen w)
  else (8 * dLen w / xformBits x, (moveRows w * xformBits x + 7) / 8)

/-- The rows as they are written, for `XFORM` 0 to 3. -/
def State.shapeRows (s : State) (w : Desc) (rows : List (List Byte)) : List (List Byte) × State :=
  let x := dXform w
  if x = 0 then (rows, s)
  else if xformBits x = 4 ∧ rows.length % 2 = 1 then
    let (v, s) := s.free
    (transposeRows 4 (dLen w * 2) (v.toNat % 16) rows, s)
  else (transposeRows (xformBits x) (8 * dLen w / xformBits x) 0 rows, s)

/-- Write a list of rows at physical offsets, in order, up to one that fails; of that one the granules of ready stacks are written (R69). -/
def State.writeRows (s : State) : List Nat → List (List Byte) → State × Option Why
  | p :: ps, b :: bs =>
    match s.writeData p b with
    | (s, true) => s.writeRows ps bs
    | (s, false) => (s, some (.bad p 0))
  | _, _ => (s, none)

/-- Write a panel at its base (R84, R87). -/
def State.writePanel (s : State) (base : Nat) (w : Desc) (rows : List (List Byte)) : State × Option Why :=
  let cells := (upto (panelSteps w)).flatMap fun k => (upto 64).map fun l => (l, k)
  s.writeRows (cells.map fun c => base + panelOffset c.1 c.2) (cells.map fun c => panelElem (dXform w) rows c.1 c.2)

/-- Land the source rows of a MOVE descriptor at its translated destinations. -/
def State.landRows (s : State) (w : Desc) (dst : List Nat) (rows : List (List Byte)) : State × Option Why :=
  if 4 ≤ dXform w then s.writePanel (dst.getD 0 0) w rows
  else let (rows, s) := s.shapeRows w rows; s.writeRows dst rows

/-- Translate the destination rows. DESIGN CHOICE, log entry 124: that of a `LOAD_PANEL` needs W and may lie in any memory, since R88 speaks of the
accesses of the array. -/
def State.dstPlan (s : State) (i : Iss) : Except Why (List Nat) :=
  let (n, len) := dstShape i.w
  (upto n).mapM fun r => s.localPhys i.c (i.dstRow r) len rightW

/-- Field checks of a MOVE descriptor (R34, R87, Table 4.2): none when they pass. -/
def moveFieldFault (w : Desc) : Option Nat :=
  let x := dXform w
  let panel := dOp w == 0x03
  if dTclass w = 3 ∨ 8 ≤ x ∨ dLen w = 0 then some 0x02
  else if panel ∧ x < 4 ∨ ¬ panel ∧ 4 ≤ x then some 0x02
  else if x = 4 ∧ dLen w ≠ 128 then some 0x02
  else if 5 ≤ x ∧ (64 < dRows w ∨ dLen w % 2 = 1) then some 0x02
  else none

/-- A read that fails after all brings the granules of the ready stacks to their destination (R69). -/
def State.deliverReady (s : State) (dst : Except Why Nat) : Why → State
  | .bad off n _ =>
    match (if s.rangeReady off n then .error (.code 0) else dst) with
    | .ok p => forEach (s.readyPieces off n) (fun s e => (s.writeData (p + e.1) ((upto e.2).map fun k => s.dataByte (off + e.1 + k))).1) s
    | .error _ => s
  | _ => s

/-- One row at a time: check, read, check, write (R72); it stops where a row fails, and what was moved stays moved. -/
def State.copyRows (s : State) (i : Iss) : List Nat → State × Option Why
  | [] => (s, none)
  | r :: rest =>
    let dst := s.localPhys i.c (i.dstRow r) (dLen i.w) rightW
    match s.ctxRead i.c (i.srcRow r) (dLen i.w), dst with
    | .error e, _ => (s.deliverReady dst e, some e)
    | .ok _, .error e => (s, some e)
    | .ok b, .ok p =>
      match s.writeData p b with
      | (s, true) => s.copyRows i rest
      | (s, false) => (s, some (.bad p 0 (i.dstRow r)))

/-- The source rows of a descriptor whose source is on this module. -/
def State.readRows (s : State) (i : Iss) : Except Why (List (List Byte)) :=
  (upto (moveRows i.w)).mapM fun r => s.ctxRead i.c (i.srcRow r) (dLen i.w)

/-! ### What a failing read brings of ready stacks (R69) -/

/-- Is it the failure of a read that meets a stack that is not ready? -/
def State.unready (s : State) : Why → Bool
  | .bad off n _ => !s.rangeReady off n
  | _ => false

/-- A source row as far as it comes: its bytes, and 0xFF beside each that has come. -/
def State.rowPart (s : State) (c a n : Nat) : List Byte × List Byte :=
  match s.ctxRead c a n with
  | .ok b => (b, List.replicate n 0xFF)
  | .error e =>
    let known : List (Nat × Nat) × Nat :=
      match e with
      | .bad off m _ => (s.readyPieces off m, off)
      | _ => ([], 0)
    let has (k : Nat) : Bool := known.1.any fun e => e.1 ≤ k && k < e.1 + e.2
    ((upto n).map fun k => if has k then s.dataByte (known.2 + k) else 0, (upto n).map fun k => if has k then 0xFF else 0)

/-- Write the bits of bytes that `mask` selects, from a physical offset. -/
def State.writeMasked (s : State) (p : Nat) : List Byte → List Byte → State
  | b :: bs, m :: ms =>
    (if m = 0 then s else (s.writeData p [(s.dataByte p &&& ~~~m) ||| (b &&& m)]).1).writeMasked (p + 1) bs ms
  | _, _ => s

/-- The rows of a MOVE descriptor as they are written, with the places of a panel cell by cell, from source rows or their masks. -/
def shapedRows (w : Desc) (dst : List Nat) (rows : List (List Byte)) : List (Nat × List Byte) :=
  let x := dXform w
  if 4 ≤ x then
    (upto (panelSteps w)).flatMap fun k => (upto 64).map fun l => (dst.getD 0 0 + panelOffset l k, panelElem x rows l k)
  else if x = 0 then dst.zip rows
  else dst.zip (transposeRows (xformBits x) (8 * dLen w / xformBits x) 0 rows)

/-- A reshaping move whose read fails on stacks that are not ready lands what has come of the others. -/
def State.landReady (s : State) (i : Iss) : State :=
  match s.dstPlan i with
  | .error _ => s
  | .ok dst =>
    let parts := (upto (moveRows i.w)).map fun r => s.rowPart i.c (i.srcRow r) (dLen i.w)
    forEach ((shapedRows i.w dst (parts.map (·.1))).zip (shapedRows i.w dst (parts.map (·.2))))
      (fun s e => s.writeMasked e.1.1 e.1.2 e.2.2) s

/-- A MOVE descriptor with both ends on this module. DESIGN CHOICE, log entry 17: one that reshapes (`XFORM` not 0) reads all its source rows and
translates all its destination rows before it writes the first, so where a row fails its check, none has moved. -/
def State.moveLocal (s : State) (i : Iss) : State × Option Why :=
  if dXform i.w = 0 then s.copyRows i (upto (moveRows i.w))
  else
    match s.readRows i with
    | .error e => (if s.unready e then s.landReady i else s, some e)
    | .ok rows =>
      match s.dstPlan i with
      | .error e => (s, some e)
      | .ok dst =>
        match s.landRows i.w dst rows with
        | (s, e) => (s, e.map (Why.seenAt (dst.zipIdx.map fun x => (x.1, i.dstRow x.2))))

/-- The pattern bytes of `FILL`. -/
def fillBytes (pat len : Nat) : List Byte := (upto len).map fun j => BitVec.ofNat 8 (pat / 2 ^ (8 * (j % 4)))

/-- The pattern of a `FILL` descriptor (R37). -/
def Iss.fillOf (i : Iss) : List Byte := fillBytes ((i.ixAt (dSstr i.w)).toNat % 2 ^ 32) (dLen i.w)

/-! ### LIST -/

def Iss.tableBase (i : Iss) : Nat := i.aop 80
def Iss.localBase (i : Iss) : Nat := i.aop 48

/-- The index list, checked and read whole (R72). -/
def State.indexList (s : State) (i : Iss) : Except Why (List Nat) :=
  match s.ctxRead i.c (i.ixAt (dList i.w)).toNat (4 * dCount i.w) with
  | .error e => .error e
  | .ok b => .ok ((upto (dCount i.w)).map fun k => natAt b (4 * k) 4)

/-- Address of listed element `x`, and of element `k` of the local buffer. -/
def Iss.tableElem (i : Iss) (x : Nat) : Nat := addrPlus (i.tableBase) (x * dElem i.w)
def Iss.localElem (i : Iss) (k : Nat) : Nat := addrPlus (i.localBase) (k * dElem i.w)

/-- Copy elements one by one (R72): `pairs` holds source and destination addresses. An element that fails on a stack that is not ready is
moved as far as the granules of ready ones go (R69). -/
def State.copyElems (s : State) (i : Iss) : List (Nat × Nat) → State × Option Why
  | [] => (s, none)
  | (a, d) :: rest =>
    let dst := s.localPhys i.c d (dElem i.w) rightW
    match s.ctxRead i.c a (dElem i.w), dst with
    | .error e, _ => (s.deliverReady dst e, some e)
    | .ok _, .error e => (s, some e)
    | .ok b, .ok p =>
      match s.writeData p b with
      | (s, true) => s.copyElems i rest
      | (s, false) => (s, some (.bad p 0 d))

/-- Add one FP32 element into memory at a physical offset. -/
def State.addF32At (s : State) (p : Nat) (v : List Byte) : Except Why State :=
  match s.readData p 4 with
  | none => .error (.bad p 4)
  | some b => s.physWrite p (leBytes 4 (f32Add (BitVec.ofNat 32 (leNat b)) (BitVec.ofNat 32 (leNat v))).toNat)

/-- Add FP32 elements one by one into listed places. -/
def State.addElems (s : State) (i : Iss) : List (Nat × Nat) → State × Option Why
  | [] => (s, none)
  | (a, d) :: rest =>
    match s.ctxRead i.c a 4 with
    | .error e => (s, some e)
    | .ok b =>
      match s.localPhys i.c d 4 (rightR + rightW) with
      | .error e => (s, some e)
      | .ok p =>
        match s.addF32At p b with
        | .error e => (s, some (e.seenAt [(p, d)]))
        | .ok s => s.addElems i rest

/-- Field checks of a LIST descriptor. -/
def listFieldFault (w : Desc) : Option Nat :=
  if dTclass w = 3 ∨ dCount w = 0 ∨ dElem w = 0 ∨ (dOp w = 0x09 ∧ dElem w ≠ 4) then some 0x02 else none

/-! ### Remote ends -/

/-- The end of a descriptor that may lie on another module: the source of loads and gathers, else the destination. -/
def Iss.farEnd (i : Iss) : Nat :=
  match dOp i.w with
  | 0x01 => i.moveSrc
  | 0x02 => i.moveSrc
  | 0x03 => i.moveSrc
  | 0x07 => i.tableBase
  | 0x08 => i.tableBase
  | 0x09 => i.tableBase
  | _ => i.moveDst

/-- The other address operands of a descriptor, which name this module (R59). -/
def Iss.nearEnds (i : Iss) : List Nat :=
  match dOp i.w with
  | 0x04 => [i.moveSrc]
  | 0x05 => [i.moveSrc]
  | 0x06 => []
  | 0x07 => [(i.ixAt (dList i.w)).toNat, i.localBase]
  | 0x08 => [(i.ixAt (dList i.w)).toNat, i.localBase]
  | 0x09 => [(i.ixAt (dList i.w)).toNat, i.localBase]
  | _ => [i.moveDst]

/-- What a transfer of part `part` of a descriptor asks for. -/
def rowAsk (i : Iss) (kind dest addr len : Nat) (data : List Byte) (part : Nat) : Ask :=
  { kind := kind, ctx := i.c, tclass := dTclass i.w, dest := dest, offset := addr % 2 ^ 40, len := len, data := data, use := .row i.key part }

/-- Pieces of at most 4,096 bytes of a row, with their place in it. -/
def packets : Nat → Nat → List Byte → List (Nat × List Byte)
  | 0, _, _ => []
  | fuel + 1, o, l => if l = [] then [] else (o, l.take 4096) :: packets fuel (o + 4096) (l.drop 4096)

/-! ### What a contributor to a reduce-scatter sends (R201, R202) -/

/-- Bit `g` of a little-endian bitmap. -/
def State.mapBit (s : State) (base g : Nat) : Bool := (s.dataByte (base + g / 8)).toNat.testBit (g % 8)

/-- The row mask of an overflow bitmap (R157, R202): the groups that have a bit set in any token row. Bit r × groups + n is that of row r and
group n (R121). -/
def State.collapseMap (s : State) (m : OvfMap) : RowMask :=
  { shard := m.shard, first := m.first
    groups := (upto m.groups).filter fun n => (upto m.rows).any fun r => s.mapBit m.base (r * m.groups + n) }

/-- Are all FP32 elements +0 or −0? -/
def allZero (l : List Byte) : Bool := l.zipIdx.all fun b => b.1 == 0 || (b.2 % 4 == 3 && b.1 == 0x80)

/-- The granules of a row of FP32 gradients, 64 elements each, with their places; one of zeros is left out (R201). -/
def gradGranules : Nat → Nat → List Byte → List (Nat × List Byte)
  | 0, _, _ => []
  | fuel + 1, o, l =>
    if l = [] then [] else if allZero (l.take 256) then gradGranules fuel (o + 256) (l.drop 256)
    else (o, l.take 256) :: gradGranules fuel (o + 256) (l.drop 256)

/-- Join granules that lie one behind the other. -/
def joinRuns : List (Nat × List Byte) → List (Nat × List Byte)
  | [] => []
  | e :: rest =>
    match joinRuns rest with
    | (j, l) :: tail => if j = e.1 + e.2.length then (e.1, e.2 ++ l) :: tail else e :: (j, l) :: tail
    | [] => [e]

/-- What a reduce-scatter sends of its rows. -/
def gradRows (rows : List (Nat × List Byte)) : List (Nat × List Byte) :=
  rows.flatMap fun r => (joinRuns (gradGranules r.2.length 0 r.2)).map fun q => (addrPlus r.1 q.1, q.2)

/-- The first of a list of transfers carries the row masks (R202). -/
def withMasks (masks : List RowMask) : List Ask → List Ask
  | [] => []
  | a :: rest => { a with masks := masks } :: rest

/-- Shard packets of stored rows: each piece with its CRC-32C, numbered through (R298). -/
def shardAsks (i : Iss) (dest : Nat) (rows : List (Nat × List Byte)) : List Ask :=
  ((rows.flatMap fun r => (packets r.2.length 0 r.2).map fun q => (addrPlus r.1 q.1, q.2)).zipIdx).map fun e =>
    let data := e.1.2 ++ leBytes 4 (crc32c e.1.2).toNat
    { rowAsk i 9 dest e.1.1 data.length data e.2 with aux := e.2 }

/-- The transfers of stored rows (Table 11.2): an admitted descriptor writes; a scheduled one uses the kind and the way round a ring that the
implementation gives it (R236). -/
def State.storeAsks (s : State) (i : Iss) (dest : Nat) (rows : List (Nat × List Byte)) : List Ask :=
  let k := if dTclass i.w = 1 then (Config.scheduledKind i.w).val else 0
  let asks :=
    if k = 3 then withMasks ((Config.reduceMaps i.w).map s.collapseMap) (shardAsks i dest (gradRows rows))
    else if k = 2 then shardAsks i dest rows
    else rows.zipIdx.map fun e => rowAsk i (if k = 1 then 8 else 3) dest e.1.1 e.1.2.length e.1.2 e.2
  if dTclass i.w = 1 then asks.zipIdx.map fun e => { e.1 with minus := Config.exchangeMinus i.w e.2 } else asks

/-- The transfers of a descriptor whose far end is on module `dest`, and the translated destinations of what they bring: all its rows are read and
translated before the first transfer is issued (DESIGN CHOICE, log entry 17). -/
def State.asksOf (s : State) (i : Iss) (dest : Nat) : Except Why (List Ask × List Nat) × State :=
  let w := i.w
  if dOp w ≤ 0x03 then
    match s.dstPlan i with
    | .error e => (.error e, s)
    | .ok dst => (.ok ((upto (moveRows w)).map (fun r => rowAsk i 1 dest (i.srcRow r) (dLen w) [] r), dst), s)
  else if dOp w = 0x06 then (.ok (s.storeAsks i dest [(i.moveDst, i.fillOf)], []), s)
  else if dOp w ≤ 0x05 then
    match s.readRows i with
    | .error e => (.error e, s)
    | .ok rows =>
      let (rows, s) := s.shapeRows w rows
      (.ok (s.storeAsks i dest (rows.zipIdx.map fun e => (i.dstRow e.2, e.1)), []), s)
  else
    match s.indexList i with
    | .error e => (.error e, s)
    | .ok l =>
      if dOp w = 0x07 then
        match (upto (dCount w)).mapM fun k => s.localPhys i.c (i.localElem k) (dElem w) rightW with
        | .error e => (.error e, s)
        | .ok dst => (.ok (l.zipIdx.map (fun e => rowAsk i 1 dest (i.tableElem e.1) (dElem w) [] e.2), dst), s)
      else
        match (upto (dCount w)).mapM fun k => s.ctxRead i.c (i.localElem k) (dElem w) with
        | .error e => (.error e, s)
        | .ok rows =>
          (.ok ((l.zip rows).zipIdx.map (fun e =>
            rowAsk i (if dOp w = 0x08 then 3 else 4) dest (i.tableElem e.1.1) (dElem w) e.1.2 e.2), []), s)

/-- Runs of bytes that have come: place and bytes. -/
def knownRuns : Nat → List Byte → List Byte → List (Nat × List Byte)
  | k, b :: bs, m :: ms =>
    let rest := knownRuns (k + 1) bs ms
    if m ≠ 0xFF then rest
    else
      match rest with
      | (j, l) :: tail => if j = k + 1 then (k, b :: l) :: tail else (k, [b]) :: rest
      | [] => [(k, [b])]
  | _, _, _ => []

/-- The transfers of what has come of the source of a remote store or scatter whose read fails on stacks that are not ready (R69); nothing
waits for their answers. -/
def State.readyAsks (s : State) (i : Iss) (dest : Nat) : List Ask :=
  let w := i.w
  let runs (l : List (Nat × List Byte × List Byte)) : List (Nat × List Byte) :=
    l.flatMap fun e => (knownRuns 0 e.2.1 e.2.2).map fun r => (addrPlus e.1 r.1, r.2)
  if dOp w = 0x04 ∨ dOp w = 0x05 then
    let parts := (upto (moveRows w)).map fun r => s.rowPart i.c (i.srcRow r) (dLen w)
    let places := (upto (dstShape w).1).map i.dstRow
    let l := ((shapedRows w places (parts.map (·.1))).zip (shapedRows w places (parts.map (·.2)))).map fun e => (e.1.1, e.1.2, e.2.2)
    (s.storeAsks i dest (runs l)).map fun a => { a with use := .none_ }
  else if dOp w = 0x08 ∨ dOp w = 0x09 then
    match s.indexList i with
    | .error _ => []
    | .ok l =>
      ((runs (l.zipIdx.map fun e => (i.tableElem e.1, s.rowPart i.c (i.localElem e.2) (dElem w)))).filter fun e =>
        dOp w == 0x08 || e.2.length == dElem w).map fun e =>
          { rowAsk i (if dOp w = 0x08 then 3 else 4) dest e.1 e.2.length e.2 0 with use := .none_ }
  else []

end Sys2Proof.Machine
end

