-- ==== Sys2Proof/Machine/Rings.lean ====
section
/-! DEFINITION. The ring sets: taking a command, completing and posting it, event rings, status lines, doorbells, interrupts' hold-off;
the host's readiness registers (R319 to R328, R357). -/

namespace Sys2Proof.Machine

/-! ### BAR0 flags -/

/-- Set bit `b` of `ERR_SUMMARY`, and the `ERR` cause (Tables 12.7, 12.8). -/
def State.errSummary (s : State) (b : Nat) : State := (s.setFld ⟨R.errSummary, b, 1⟩ 1).interrupt 20 20

/-- Read host memory; a read that fails is noted (`DMA_RD_ERR`). -/
def State.hostReadFails (s : State) : State := s.errSummary 4

/-- Read requests of the maximum size for `n` bytes of host memory from `a` (R316, R333). -/
def State.readHost (s : State) (a n : Nat) : State :=
  let size := max 1 (min s.maxRead (s.obj O.maxReadReq))
  forEach (upto ((n + size - 1) / size)) (fun s k => s.toHost (.hostRead (a + k * size) (min size (n - k * size)))) s

/-- Write requests of at most the payload size for bytes to host memory at `a` (R316). -/
def State.writeHost (s : State) (a : Nat) (bs : List Byte) : State :=
  let size := max 1 s.maxPayload
  forEach (upto ((bs.length + size - 1) / size)) (fun s k => s.toHost (.hostWrite (a + k * size) ((bs.drop (k * size)).take size))) s

/-- The command entry at a position (Table 12.10). -/
def State.cmdEntry (s : State) (r count : Nat) : RingCmd :=
  let l := s.bytes (cmdAt r count) 64
  { count := count, op := (leNat (l.take 1)), flags := leNat ((l.drop 1).take 1), seq := leNat ((l.drop 4).take 4),
    cookie := leNat ((l.drop 8).take 8), args := l.drop 16 }

/-- Bytes of the arguments as a number: `o` counts from the entry's start. -/
def RingCmd.arg (c : RingCmd) (o n : Nat) : Nat := leNat ((c.args.drop (o - 16)).take n)

/-- Valid opcodes of a set (Table 12.11). -/
def opValid (r op : Nat) : Bool := if r < 8 then 1 ≤ op && op ≤ 8 else [0x05, 0x08, 0x10, 0x11].contains op

/-! ### Status lines (R326) -/

/-- Write the status line of a set. A failed write clears `EN`. -/
def State.statusLine (s : State) (r : Nat) : State :=
  if ¬ s.bit F.hostStatusAddr.en then s
  else if ¬ s.hostUp then (s.setBit F.hostStatusAddr.en false).errSummary 3
  else
    let x := s.ring r
    s.toHost (.hostWrite (64 * s.fld F.hostStatusAddr.addr + 64 * r)
      (leBytes 4 x.cmdHead ++ leBytes 4 x.cqTail ++ leBytes 4 x.eqTail ++ leBytes 4 x.eqDropped ++ leBytes 8 s.now ++ leBytes 40 0))

/-! ### Taking and completing commands (R322, R323, R357) -/

/-- F0 can take a command of the set: it runs, the driver is up, one is visible and a completion slot is free. -/
def State.mayTake (s : State) (r : Nat) : Bool :=
  let x := s.ring r
  s.coreRuns 0 && s.bit F.hostReady.driverUp && x.cmdHead != x.cmdTail
    && above x.cqTail x.cqHead + x.run.length + x.done.length < 8192

/-- Take the entry at the head into the list of commands in progress. -/
def State.takeHead (s : State) (r : Nat) : RingCmd × State :=
  let x := s.ring r
  let c := s.cmdEntry r x.cmdHead
  (c, s.setRing r { x with cmdHead := next32 x.cmdHead, lastSeq := next32 x.lastSeq, run := x.run ++ [c] })

/-- Commands at the head that cannot be executed complete at once: a wrong `SEQ` with status 3, a bad opcode with status 2 (R323). -/
def State.skipBad (s : State) (r : Nat) : Nat → State
  | 0 => s
  | fuel + 1 =>
    if ¬ s.mayTake r then s
    else
      let c := s.cmdEntry r (s.ring r).cmdHead
      if c.seq ≠ next32 (s.ring r).lastSeq then (((s.takeHead r).2).finish r c 3).skipBad r fuel
      else if ¬ opValid r c.op then (((s.takeHead r).2).finish r c 2).skipBad r fuel
      else s

/-- F0 takes the command at the head of a set when it is opcode `op`, and `f` runs it; otherwise this is not its occasion. -/
def State.take (s : State) (r op : Nat) (f : State → RingCmd → State) : State :=
  let s := s.skipBad r 8192
  if ¬ s.mayTake r then s
  else if (s.cmdEntry r (s.ring r).cmdHead).op ≠ op then s
  else
    let (c, s) := s.takeHead r
    (f s c).skipBad r 8192

/-- The completion entry (Table 12.12). -/
def RingDone.bytes (d : RingDone) : List Byte :=
  leBytes 1 d.cmd.op ++ leBytes 1 d.status ++ leBytes 2 0 ++ leBytes 4 d.cmd.seq ++ leBytes 8 d.cmd.cookie ++ leBytes 8 d.time
    ++ leBytes 8 d.detail ++ leBytes 8 d.count ++ leBytes 24 0

/-- F0 posts the completion that came first: entry, then in one action the tail, the status line and the interrupt (R357). -/
def State.postCompletion (s : State) (r : Nat) : State :=
  if ¬ s.coreRuns 0 then s
  else
    match (s.ring r).done with
    | [] => s
    | d :: rest =>
      let s := (s.mark r d.cmd).setBytes (cqAt r (s.ring r).cqTail) d.bytes
      let s := s.modRing r fun x => { x with done := rest, cqTail := next32 x.cqTail }
      (s.statusLine r).interrupt r (1 + r) (d.cmd.flags.testBit 0)

def execCompletionPost (r : Fin 9) (s : State) : Result := .next (s.postCompletion r)

/-- `FENCE` is taken; it completes with the last earlier command of its ring. -/
def execRingFence (r : Fin 9) (s : State) : Result := .next (s.take r 0x08 fun s _ => s.settleRing r)

/-! ### Event rings (R325) -/

/-- Post an event entry on the ring of a set. -/
def State.postEvent (s : State) (r : Nat) (entry : List Byte) : State :=
  let x := s.ring r
  if above x.eqTail x.eqHead < 8192 then
    let s := s.setBytes (eqAt r x.eqTail) entry
    let s := s.setRing r { x with eqTail := next32 x.eqTail }
    (s.statusLine r).interrupt (9 + r) (10 + r)
  else
    let n := min (x.eqDropped + 1) (2 ^ 32 - 1)
    let s := s.setRing r { x with eqDropped := n, eqFull := true }
    if x.eqFull then s else s.raise 0x8003 0 0x06 r (r + 2 ^ 8 * n)

/-! ### Doorbells (R322) -/

/-- A command tail: not below the previous tail and at most 8,192 above the head. -/
def State.dbCmd (s : State) (r v : Nat) : State :=
  let x := s.ring r
  if above x.cmdTail x.cmdHead ≤ above v x.cmdHead ∧ above v x.cmdHead ≤ 8192 then
    (s.setRing r { x with cmdTail := v }).skipBad r 8192
  else s.errSummary 2

/-- A head of the completion or event ring: not below the previous head and not above the tail. -/
def State.dbCq (s : State) (r v : Nat) : State :=
  let x := s.ring r
  if above v x.cqHead ≤ above x.cqTail x.cqHead then (s.setRing r { x with cqHead := v }).skipBad r 8192 else s.errSummary 2

def State.dbEq (s : State) (r v : Nat) : State :=
  let x := s.ring r
  if above v x.eqHead ≤ above x.eqTail x.eqHead then
    s.setRing r { x with eqHead := v, eqFull := x.eqFull && v == x.eqHead }
  else s.errSummary 2

def execDbCmd (r : Fin 9) (v : BitVec 32) (s : State) : Result := .next (if s.hostUp then s.dbCmd r v.toNat else s)
def execDbCq (r : Fin 9) (v : BitVec 32) (s : State) : Result := .next (if s.hostUp then s.dbCq r v.toNat else s)
def execDbEq (r : Fin 9) (v : BitVec 32) (s : State) : Result := .next (if s.hostUp then s.dbEq r v.toNat else s)

/-! ### Readiness and the aperture (R10, R320, R349) -/

/-- Do two versions match (R8)? -/
def versionsMatch (a b : Nat) : Bool := a / 2 ^ 16 == b / 2 ^ 16

/-- A write of `HOST_READY`. With a driver up on a version that does not match, the module's behaviour is not defined (R10). -/
def State.hostReadyWrite (s : State) (v : Word) : Result :=
  if v.getLsbD 0 ∧ ¬ versionsMatch (bitsAt v 32 32) (s.fld F.moduleVersions.hostIf) then .fault .versionMismatch
  else
    let s := (s.setReg R.hostReady (v &&& 0xFFFFFFFF00000001#64)).setObj O.hostSwVersion (bitsAt v 32 32)
    .next (forEach (upto 9) (fun s r => s.skipBad r 8192) s)

/-- Writes of BAR0 are discarded while bit 6 of `FUNC_READY` is clear (R391). -/
def execHostReadyWrite (v : Word) (s : State) : Result := if s.hostUp then s.hostReadyWrite v else .next s

/-- A write of `BAR2_SEL`; reserved values are ignored (Table 12.6). -/
def State.bar2SelWrite (s : State) (v : Nat) : State := if v % 32 ≤ 16 then s.setFld F.bar2Sel.sel (v % 32) else s

def execBar2SelWrite (v : Word) (s : State) : Result := .next (if s.hostUp then s.bar2SelWrite v.toNat else s)

/-! ### Interrupt moderation (R327) -/

/-- The hold-off of a vector expires: it fires for the entries not yet signalled. -/
def State.holdoff (s : State) (v : Nat) : State :=
  if s.fld (F.intMod.holdoffNs v) = 0 ∨ Tab.get (fun _ => 0) s.vecCount v = 0 ∨ s.d3hot then s
  else { s with vecCount := Tab.put (fun _ => 0) s.vecCount v 0 }.fire v

def execInterruptHoldoffExpired (v : Fin 64) (s : State) : Result := .next (s.holdoff v)

end Sys2Proof.Machine
end

