-- ==== Sys2Proof/Machine/Shards.lean ====
section
/-! DEFINITION. The shard table of a context and the bitmaps it names (R198 to R202). -/

namespace Sys2Proof.Machine

/-- A little-endian number at a physical local offset, and a store of one; F3, the sweep engine and the update unit use them. -/
def State.physNat (s : State) (off n : Nat) : Nat := leNat ((upto n).map fun i => s.dataByte (off + i))
def State.setPhysNat (s : State) (off n v : Nat) : State := s.storeHeal off (leBytes n v)

/-- A shard table entry (Table 8.4), with the coordinates its replica list holds. -/
structure Shard where
  layer : Nat
  flags : Nat
  expOff : Int
  ngran : Nat
  wSlot : Nat
  mSlot : Nat
  mSel : Nat
  presence : Nat
  slowMap : Nat
  slowBase : Nat
  paramBase : Nat
  replicas : Nat
  rowGran : Nat
  coords : List Nat
  deriving DecidableEq, Repr

def State.shardBase (s : State) (c : Nat) : Nat := 128 * s.fld (F.shardTable.base c)
def State.shardCount (s : State) (c : Nat) : Nat := s.fld (F.shardTable.count c)

def State.shard (s : State) (c i : Nat) : Shard :=
  let a := s.shardBase c + 96 * i
  let off := s.physNat (a + 3) 1
  { layer := s.physNat a 2, flags := s.physNat (a + 2) 1, expOff := if off < 128 then off else (off : Int) - 256, ngran := s.physNat (a + 4) 4
    wSlot := s.physNat (a + 8) 8, mSlot := s.physNat (a + 0x10) 8, mSel := s.physNat (a + 0x18) 8, presence := s.physNat (a + 0x20) 8
    slowMap := s.physNat (a + 0x28) 8, slowBase := s.physNat (a + 0x30) 8, paramBase := s.physNat (a + 0x38) 8
    replicas := s.physNat (a + 0x48) 1, rowGran := s.physNat (a + 0x49) 1
    coords := (upto (s.physNat (a + 0x48) 1)).map fun k => s.physNat (s.physNat (a + 0x40) 8 + 4 * k) 4 }

/-- Shard `i` goes before shard `j`: by virtual stage, then by layer, then by address (R19, R180; log entry 115). -/
def State.sweptFirst (s : State) (c i j : Nat) : Bool :=
  let key (k : Nat) : List Nat :=
    let h := s.shard c k
    [Config.layerStage c h.layer / max 1 (s.fld (F.ctxCuts.ySize c)), h.layer, h.wSlot, k]
  key i < key j

/-- A store of bit `g` of a little-endian bitmap. -/
def State.setMapBit (s : State) (base g : Nat) (v : Bool) : State :=
  let b := (s.dataByte (base + g / 8)).toNat
  let b' := if b.testBit (g % 8) = v then b else if v then b + 2 ^ (g % 8) else b - 2 ^ (g % 8)
  s.storeMem (base + g / 8) [BitVec.ofNat 8 b']

/-- Granules of a shard that are present (R201), and those of them whose momentum lies in the slow tier (R212). -/
def State.presentGranules (s : State) (h : Shard) : List Nat := (upto h.ngran).filter fun g => s.mapBit h.presence g
def State.isSlow (s : State) (h : Shard) (g : Nat) : Bool := h.flags.testBit 1 && s.mapBit h.slowMap g

/-- Shards of a context in the order of R19. -/
def State.shardOrder (s : State) (c : Nat) : List Nat :=
  (upto (s.shardCount c)).foldr (fun i l => (l.takeWhile fun j => s.sweptFirst c j i) ++ i :: l.dropWhile fun j => s.sweptFirst c j i) []

/-- Host bus address of the record slot `slot` of slow granule `g` (R212). -/
def State.slowAddress (s : State) (h : Shard) (g slot : Nat) : Nat :=
  h.slowBase + 512 * ((upto g).filter fun k => s.mapBit h.slowMap k).length + 256 * slot

/-- The presence bitmaps of a context are emptied (R14). -/
def State.clearPresence (s : State) (c : Nat) : State :=
  forEach (upto (s.shardCount c)) (fun s i =>
    let h := s.shard c i
    s.storeHeal h.presence (List.replicate ((h.ngran + 7) / 8) 0)) s

/-- The owner marks granules whose first packet has arrived (R201). -/
def State.markPresent (s : State) (c : Nat) (marks : List (Nat × Nat)) : State :=
  forEach marks (fun s m =>
    let h := s.shard c m.1
    if m.1 < s.shardCount c ∧ m.2 < h.ngran then s.setMapBit h.presence m.2 true else s) s

end Sys2Proof.Machine
end

