-- ==== Sys2Proof/Machine/Gens.lean ====
section
/-! DEFINITION. Weight generations: the slots of an inference context, the switch, and publication from a training context (R24, R334 to
R338). -/

namespace Sys2Proof.Machine

/-! ### Slots (R335, R336) -/

def genFld (c j : Nat) : Fld := if j = 0 then F.genStatus.slot0 c else F.genStatus.slot1 c

/-- State of slot `j` (Table 12.18). -/
def State.genSlot (s : State) (c j : Nat) : Nat := s.fld (genFld c j)
def State.setGenSlot (s : State) (c j v : Nat) : State := s.setFld (genFld c j) v

/-- The free slot an `INTAKE` or `PUBLISH` takes; of two free ones either, which is not stated. -/
def State.freeGenSlot (s : State) (c : Nat) : Option Nat × State :=
  if s.genSlot c 0 = 0 ∧ s.genSlot c 1 = 0 then
    let (w, s) := s.free
    (some (w.toNat % 2), s)
  else if s.genSlot c 0 = 0 then (some 0, s)
  else if s.genSlot c 1 = 0 then (some 1, s)
  else (none, s)

/-- Request a switch; none is the refusal `BUSY`. -/
def State.requestSwitch (s : State) (c : Nat) : Option State :=
  if s.bit (F.genStatus.pending c) ∨ s.genSlot c (1 - s.fld (F.genStatus.cur c)) ≠ 2 then none
  else some ((s.setBit (F.genStatus.pending c) true).modCtx c fun x => { x with batchSeen := false })

/-- A successful command asks for a switch: its status (R336). -/
def State.switched (s : State) (c : Nat) : State × Nat :=
  match s.requestSwitch c with
  | some s => (s, 0)
  | none => (s, 1)

/-- A slot is filled: it is ready with its generation, and a switch may be asked for. Answers the command's status. -/
def State.genFilled (s : State) (c j gen : Nat) (switch : Bool) : State × Nat :=
  let s := (s.setGenSlot c j 2).setReg (R.genNum c j) (BitVec.ofNat 64 gen)
  if switch then s.switched c else (s, 0)

/-- Slot `j` is current: `GEN_CUR_OBJ` is set to (n << 1) | slot. -/
def State.makeCurrent (s : State) (c j : Nat) : State :=
  let s := (s.setGenSlot c j 3).setFld (F.genStatus.cur c) j
  s.syncSet (s.fld (F.genCurObj.val c)) (BitVec.ofNat 64 ((s.reg (R.genNum c j)).toNat * 2 + j))

/-- A pending switch whose batch boundary has come takes effect, to a slot that is ready. -/
def State.genSwitch (s : State) (c : Nat) : State :=
  if ¬ s.bit (F.genStatus.pending c) ∨ ¬ (s.ctx c).batchSeen ∨ s.genSlot c (1 - s.fld (F.genStatus.cur c)) ≠ 2 then s
  else
    let j := s.fld (F.genStatus.cur c)
    let s := if s.genSlot c j = 3 then s.setGenSlot c j 4 else s
    let s := (s.modCtx c fun x => { x with batchSeen := false, drainSeen := false }).makeCurrent c (1 - j)
    s.setBit (F.genStatus.pending c) false

def execGenerationSwitch (c : Fin 8) (s : State) : Result := .next (s.genSwitch c)

/-- A draining slot whose use counter has read 0 since it began to drain becomes free. -/
def State.genDrained (s : State) (c : Nat) : State :=
  match (upto 2).find? fun j => s.genSlot c j == 4 with
  | none => s
  | some j =>
    if (s.ctx c).drainSeen ∨ s.reg (s.fld (F.genUseObj.val c j)) = 0 then
      (s.modCtx c fun x => { x with drainSeen := false }).setGenSlot c j 0
    else s

def execDrainingSlotFreed (c : Fin 8) (s : State) : Result := .next (s.genDrained c)

/-- `SWITCH_GEN` of the context of the set. -/
def execSwitchGen (r : Fin 8) (s : State) : Result :=
  .next (s.take r 0x07 fun s c =>
    match s.requestSwitch r with
    | some s => s.finish r c 0
    | none => s.finish r c 1)

/-! ### Publication (R337) -/

/-- The publication at position `count` of ring set `set`. -/
def State.findPublish (s : State) (set count : Nat) : Option Publish := s.publishes.find? fun x => x.set == set && x.cmd.count == count
def State.dropPublish (s : State) (x : Publish) : State :=
  { s with publishes := s.publishes.filter fun y => !(y.set == x.set && y.cmd.count == x.cmd.count) }
def State.putPublish (s : State) (x : Publish) : State :=
  { s with publishes := s.publishes.map fun y => if y.set == x.set && y.cmd.count == x.cmd.count then x else y }

/-- A publication ends without success: its slot is free again, and its completion counts the bytes delivered. -/
def State.publishEnds (s : State) (x : Publish) (status detail : Nat) : State :=
  let s := s.dropPublish x
  let s := match x.slot with
    | some j => s.setGenSlot x.target j 0
    | none => s
  s.finish x.set x.cmd status detail x.done

/-- Every transfer has completed: the slot this module holds is ready, and the command completes. -/
def State.publishOver (s : State) (x : Publish) : State :=
  if ¬ (x.staged ∧ x.todo = [] ∧ x.tids = []) then s
  else
    let s := s.dropPublish x
    let (s, status) := match x.slot with
      | some j => s.genFilled x.target j x.gen x.switch
      | none => (s, 0)
    s.finish x.set x.cmd status 0 x.bytes

/-- F1 sends what is staged and not yet sent: a refused transfer is kept for the next frame. A restarted F1 sends nothing before the training
context's next step boundary (R22, R291). -/
def State.publishSend (s : State) (x : Publish) : State :=
  if ¬ s.coreRuns 1 then s
  else
    let shut := decide (s.fld F.fenceStatus.level ≠ 0) || !s.bit F.xportCtl.admitEn || (s.ctx x.set).admitDue
    let (s, x) := x.todo.foldl (fun (acc : State × Publish) (d : Nat × Nat × List Byte) =>
      let (s, x) := acc
      if shut then (s, { x with todo := x.todo ++ [d] })
      else
        match s.judgeAdmission x.target d.1 (flitsOf d.2.2.length) none with
        | .inl reason => (s.admitRefused x.target d.1 (flitsOf d.2.2.length) reason, { x with todo := x.todo ++ [d] })
        | .inr (port, slots, b) =>
          let s := s.modPort port fun y => { y with ledger := y.ledger ++ slots }
          let (s, tid) := s.issueXfer
            { kind := 3, ctx := x.target, tclass := 2, dest := d.1, offset := d.2.1, len := d.2.2.length, data := d.2.2,
              use := .publish x.set x.cmd.count } (some b) slots
          (s, { x with tids := x.tids ++ [tid] })) (s, { x with todo := [] })
    (s.putPublish x).publishOver x

/-- Staging of one part: the converted bytes of the live slot of generation n, whose number mod 2 the slot has (R199). -/
def State.stagePart (s : State) (x : Publish) (k : Nat) (p : PubPart) : Option (List Byte) :=
  let h := s.shard x.set p.shard
  let a := h.wSlot + x.gen % 2 * (128 * h.ngran) + p.first
  (s.readData a p.len).map fun l => (upto p.bytes).map fun i => Config.publishByte (x.cmd.arg 24 8) k l i

/-- The part a publication stages next: that of the first shard in the order of R19. -/
def State.nextPart (s : State) (x : Publish) : Option (Nat × PubPart) :=
  let l := x.left.filterMap fun k => (x.parts[k]?).map fun p => (k, p)
  l.find? fun a => l.all fun b => !s.sweptFirst x.set b.2.shard a.2.shard

/-- One staging read: a part for this module is written into its slot, another waits for F1. A read that fails ends the publication;
with the last part F1 sends. -/
def State.stageOne (s : State) (x : Publish) : State :=
  match s.nextPart x with
  | none => (s.putPublish { x with staged := true, left := [] }).publishSend { x with staged := true, left := [] }
  | some (k, p) =>
    match s.stagePart x k p with
    | none =>
      let h := s.shard x.set p.shard
      (s.noteBadRead (h.wSlot + x.gen % 2 * (128 * h.ngran) + p.first) p.len).publishEnds x 9 0x3004
    | some b =>
      let x := { x with left := x.left.filter (· != k), bytes := x.bytes + b.length }
      let (s, x) := match p.coord == s.coord, x.slot with
        | true, some j =>
          ((s.writeData (2 ^ 16 * s.fld (F.genSlotBase.val x.target j) + p.offset) b).1, { x with done := x.done + b.length })
        | true, none => (s, x)
        | false, _ => (s, { x with todo := x.todo ++ [(p.coord, p.base + p.offset, b)] })
      let x := { x with staged := x.left.isEmpty }
      if x.staged then (s.putPublish x).publishSend x else s.putPublish x

/-- A commit barrier of context `c` completes: the staging of its publications begins. -/
def State.publishStage (s : State) (c : Nat) : State :=
  { s with publishes := s.publishes.map fun x => if x.set == c && !x.opened then { x with opened := true, left := upto x.parts.length } else x }

/-- Staging goes on: one part of each publication in staging at a time (log entry 35). -/
def State.stageTick (s : State) : State :=
  forEach (s.publishes.filter fun x => x.opened && !x.staged) (fun s x => s.stageOne x) s

/-- A staging read of shard `i` of context `c` is still to come (R337). -/
def State.stagingHolds (s : State) (c i : Nat) : Bool :=
  s.publishes.any fun x => x.set == c && x.opened && x.left.any fun k => (x.parts[k]?).any fun p => p.shard == i

/-- The next frame, or F1 runs again: transfers not yet issued are issued, and a publication that has none left completes. -/
def State.publishRetry (s : State) : State :=
  forEach (s.publishes.filter fun x => x.staged && (x.todo != [] || x.tids == [])) (fun s x => s.publishSend x) s

/-- A transfer of `len` bytes of a publication completes. -/
def State.published (s : State) (set count tid len : Nat) : State :=
  match s.findPublish set count with
  | none => s
  | some x =>
    let x := { x with tids := x.tids.filter (· != tid), done := x.done + len }
    (s.putPublish x).publishOver x

/-- A transfer of a publication ends with an error response: the command ends with an error whose event the spec does not name. -/
def State.publishFails (s : State) (set count _tid : Nat) : State :=
  match s.findPublish set count with
  | none => s
  | some x =>
    let (w, s) := s.free
    s.publishEnds x 9 (w.toNat % 2 ^ 16)

/-- `PUBLISH` is taken: from a training context, between a commit barrier and its next vote. -/
def State.publish (s : State) (r : Nat) (cmd : RingCmd) (table : List PubPart) : State :=
  let x := s.ctx r
  let target := cmd.arg 16 1
  if ¬ x.running ∨ ¬ s.bit (F.sweepCtl.enable r) ∨ ¬ x.mayPublish then s.finish r cmd 7
  else if 8 ≤ target ∨ (table.any fun p => (if p.coord = s.coord then s.fld (F.genSlotSize.val target) else p.size) < p.offset + p.bytes) then
    s.finish r cmd 4
  else
    let pub : Publish :=
      { set := r, cmd := cmd, target := target, slot := none, switch := cmd.arg 17 1 % 2 == 1,
        gen := (s.reg (R.sweepStep r)).toNat, parts := table }
    if s.fld (F.genSlotSize.val target) = 0 then { s with publishes := s.publishes ++ [pub] }
    else
      match s.freeGenSlot target with
      | (none, s) => s.finish r cmd 1
      | (some j, s) =>
        let s := s.setGenSlot target j 1
        { s with publishes := s.publishes ++ [{ pub with slot := some j }] }

/-- `table` is what the compiled publication table at the command's offset holds for this module. -/
def execPublish (r : Fin 8) (table : List PubPart) (s : State) : Result := .next (s.take r 0x06 fun s c => s.publish r c table)

/-- The generations of a context at its reset: publications from or to it end with status 8, its slots are free (R337, R338). -/
def State.genReset (s : State) (c : Nat) : State :=
  let s := forEach (s.publishes.filter fun x => x.set == c || x.target == c) (fun s x => s.publishEnds x 8 0) s
  (s.modCtx c fun x => { x with batchSeen := false, drainSeen := false }).dropRegs fun k => R.genSlotBase c 0 ≤ k && k ≤ R.genNum c 1

end Sys2Proof.Machine
end

