-- ==== Sys2Proof/Machine/Quant.lean ====
section
/-! DEFINITION. Quantisation and calibration on exact values, dequantisation, stochastic rounding (R108, R109, R121 to R130).
Pure functions of elements; the descriptors that use them are in Vec. -/

namespace Sys2Proof.Machine

/-! ### Positive rationals num / den × 2^e -/

/-- ⌊log₂(num / den)⌋ for positive arguments. -/
def floorLog2 (num den : Nat) : Int :=
  let k : Int := (bitLen num : Int) - bitLen den
  if den * 2 ^ k.toNat ≤ num * 2 ^ (-k).toNat then k else k - 1

def ceilLog2 (num den : Nat) : Int :=
  let k := floorLog2 num den
  if num * 2 ^ (-k).toNat = den * 2 ^ k.toNat then k else k + 1

/-- num × 2^e / den rounded up. -/
def ceilScaled (num den : Nat) (e : Int) : Nat :=
  let n := num * 2 ^ e.toNat
  let d := den * 2 ^ (-e).toNat
  (n + d - 1) / d

/-- num / den rounded to nearest even. -/
def rneDiv (num den : Nat) : Nat :=
  let q := num / den
  let r := num % den
  if 2 * r > den ∨ (2 * r = den ∧ q % 2 = 1) then q + 1 else q

/-- num × 2^e / den rounded to nearest even, with a sign. -/
def rneScaled (neg : Bool) (num den : Nat) (e : Int) : Int :=
  signedM neg (rneDiv (num * 2 ^ e.toNat) (den * 2 ^ (-e).toNat))

/-! ### Integer formats -/

def qmax (fmt : Nat) : Int := if fmt = 5 then 127 else 7
def qmin (fmt : Nat) : Int := if fmt = 5 then -128 else -8
def clampQ (fmt : Nat) (v : Int) : Int := max (qmin fmt) (min (qmax fmt) v)

/-- A scale entry of a group: `EXP` of a float group, or the fields of an integer scale word (Table 4.4). -/
structure Scale where
  exp : Nat := 0
  mant : Nat := 0
  shift : Nat := 0
  zp : Int := 0
  sat : Bool := false
  deriving DecidableEq, Repr

def isFloatCode (fmt : Nat) : Bool := fmt ≤ 4

/-- The entry as it is stored. -/
def Scale.word (c : Scale) (fmt : Nat) : Nat :=
  if isFloatCode fmt then c.exp
  else c.mant + 2 ^ 16 * c.shift + 2 ^ 22 * (c.zp % 2 ^ fmtBits fmt).toNat

def scaleOf (fmt w : Nat) : Scale :=
  if isFloatCode fmt then { exp := w % 256 }
  else
    let z : Nat := w / 2 ^ 22 % 2 ^ fmtBits fmt
    { mant := w % 2 ^ 16, shift := w / 2 ^ 16 % 64, zp := if z.testBit (fmtBits fmt - 1) then (z : Int) - 2 ^ fmtBits fmt else z }

/-! ### Dyadic values -/

/-- A finite value as a signed mantissa at exponent `u`, which is at most its own. -/
def atUnit (u : Int) : FVal → Int
  | .fin n m e => signedM n (m * 2 ^ (e - u).toNat)
  | _ => 0

def expOf : FVal → Int
  | .fin _ m e => if m = 0 then 0 else e
  | _ => 0

/-- The common unit of a list of finite values. -/
def commonUnit (l : List FVal) : Int := l.foldl (fun u v => min u (expOf v)) 0

/-! ### Calibration (R122) -/

/-- Largest finite value of a float target. -/
def fmaxNat (fmt : Nat) : Nat := if fmt = 2 then 448 else if fmt = 3 then 57344 else 6

/-- `calibrate`: smallest and largest value as integers in units of 2^u. -/
def calibrate (fmt : Nat) (zpe : Bool) (lo hi : Int) (u : Int) : Scale :=
  let amax := max lo.natAbs hi.natAbs
  if isFloatCode fmt then
    let e := 127 + ceilLog2 amax (fmaxNat fmt) + u
    { exp := (max 0 (min 254 e)).toNat, sat := 254 < e }
  else
    let (num, den) : Nat × Nat :=
      if zpe ∧ lo < hi then ((hi - lo).toNat, (qmax fmt - qmin fmt).toNat) else (amax, (qmax fmt).toNat)
    let shift0 : Int := 15 - (floorLog2 num den + u)
    let mant0 := ceilScaled num den (u + shift0)
    let (mant1, shift1) : Nat × Int := if mant0 = 0x10000 then (0x8000, shift0 - 1) else (mant0, shift0)
    let (mant2, shift2) : Nat × Int := if 63 < shift1 then (ceilScaled num den (u + 63), 63) else (mant1, shift1)
    let sat := shift2 < 0
    let mant := if sat then 0xFFFF else mant2
    let shift := if sat then 0 else shift2.toNat
    let zp := if zpe then clampQ fmt (qmin fmt - rneScaled (lo < 0) lo.natAbs mant (u + shift)) else 0
    { mant := mant, shift := shift, zp := zp, sat := sat }

/-! ### Constant groups (R124) -/

/-- Odd part and exponent of a positive number. -/
def oddSplit : Nat → Nat → Int → Nat × Int
  | 0, m, e => (m, e)
  | fuel + 1, m, e => if m % 2 = 0 ∧ m ≠ 0 then oddSplit fuel (m / 2) (e + 1) else (m, e)

def oddOf (m : Nat) (e : Int) : Nat × Int := oddSplit (bitLen m) m e

def growMant : Nat → Nat → Int → Nat × Int
  | 0, m, sh => (m, sh)
  | fuel + 1, m, sh => if sh < 0 ∧ m ≤ 0x7FFF then growMant fuel (m * 2) (sh + 1) else (m, sh)

def shrinkJ : Nat → Nat → Int → Nat × Int
  | 0, j, sh => (j, sh)
  | fuel + 1, j, sh => if 63 < sh ∧ 0 < j then shrinkJ fuel (j - 1) (sh - 1) else (j, sh)

/-- `const_int` on c = ±m × 2^e: the scale and d, or none. -/
def constInt (fmt : Nat) (neg : Bool) (m : Nat) (e : Int) : Option (Scale × Int) :=
  let j : Nat := if fmt = 5 then 6 else 2
  let (m, e) := oddOf m e
  let (mant, sh) := growMant 16 m ((j : Int) - e)
  let (j, sh) := shrinkJ 8 j sh
  if 0xFFFF < mant ∨ sh < 0 ∨ 63 < sh then none
  else some ({ mant := mant, shift := sh.toNat }, signedM neg (2 ^ j))

/-- A float group of constant ±m × 2^e: the largest code whose value is c × 2^n, and `EXP` = 127 − n. -/
def constFloat (f : FFormat) (neg : Bool) (m : Nat) (e : Int) : Option (Scale × Nat) :=
  let (m, e) := oddOf m e
  let fits : Nat → Option (Nat × Int) := fun code =>
    match f.decode code with
    | .fin _ cm ce => let o := oddOf cm ce; if o.1 = m ∧ cm ≠ 0 then some (code, o.2) else none
    | _ => none
  match ((upto' (f.maxCode + 1)).reverse).findSome? fits with
  | none => none
  | some (code, k) =>
    let ex := 127 - (k - e)
    if 0 ≤ ex ∧ ex ≤ 254 then some ({ exp := ex.toNat }, code + f.signBit neg) else none
where upto' (n : Nat) : List Nat := List.range n

/-! ### Elements (R122, R123) -/

/-- One float element over its scale, saturating; tells whether it was clamped. A small element rounds to zero, as R122 says. DESIGN CHOICE, log entry 126: under
`EXP` 0xFF, the NaN scale, it is divided by 2^128. -/
def quantFloat (f : FFormat) (ex : Nat) : FVal → Nat × Bool
  | .fin neg m e =>
    let c := f.roundCode m (e - ((ex : Int) - 127))
    if c ≤ f.maxCode then (c + f.signBit neg, false) else (f.maxCode + f.signBit neg, true)
  | .inf neg => (f.maxCode + f.signBit neg, true)
  | .nan _ => (0, false)

/-- One integer element over its scale, plus the zero point. -/
def quantInt (fmt : Nat) (c : Scale) : FVal → Nat × Bool
  | .fin neg m e =>
    if c.mant = 0 then
      (if m = 0 then ((c.zp % 2 ^ fmtBits fmt).toNat, false)
       else (((if neg then qmin fmt else qmax fmt) % 2 ^ fmtBits fmt).toNat, true))
    else
      let q := rneScaled neg m c.mant (e + c.shift) + c.zp
      ((clampQ fmt q % 2 ^ fmtBits fmt).toNat, decide (clampQ fmt q ≠ q))
  | .inf neg => (((if neg then qmin fmt else qmax fmt) % 2 ^ fmtBits fmt).toNat, true)
  | .nan _ => (0, false)

def quantElem (fmt : Nat) (c : Scale) (v : FVal) : Nat × Bool :=
  match floatFmt fmt with
  | some f => quantFloat f c.exp v
  | none => quantInt fmt c v

def isNanVal : FVal → Bool
  | .nan _ => true
  | _ => false

/-- What one group becomes. -/
structure GroupOut where
  scale : Scale
  codes : List Nat
  nan : Bool := false
  saturated : Bool := false
  const : Bool := false
  inexact : Bool := false
  deriving DecidableEq, Repr

/-- The elements of a group under a scale. -/
def quantGroup (fmt : Nat) (c : Scale) (vals : List FVal) : GroupOut :=
  let r := vals.map (quantElem fmt c)
  { scale := c, codes := r.map (·.1), saturated := c.sat || r.any (·.2) }

/-- One element dequantised exactly (R126). DESIGN CHOICE, log entry 126: a zero scale and q below `ZP` give −0. -/
def dequantElem (fmt : Nat) (c : Scale) (code : Nat) : FVal :=
  match floatFmt fmt with
  | some f =>
    if c.exp = 255 then .nan false
    else
      match f.decode code with
      | .fin n m e => .fin n m (e + (c.exp : Int) - 127)
      | .nan _ => .nan false
      | v => v
  | none =>
    let b := fmtBits fmt
    let q : Int := if code.testBit (b - 1) then (code : Int) - 2 ^ b else code
    let d := q - c.zp
    .fin (d < 0) (d.natAbs * c.mant) (-(c.shift : Int))

/-- Two finite values are equal. -/
def sameVal (a b : FVal) : Bool := match addVal a (negVal b) with
  | .fin _ m _ => m == 0
  | _ => false

/-- A constant group that ordinary calibration quantises: not held exactly when an element reads back as another value (R124, R125). -/
def nearConst (fmt : Nat) (c : Scale) (vals : List FVal) : GroupOut :=
  let g := quantGroup fmt c vals
  { g with const := true, inexact := (vals.zip g.codes).any fun e => !sameVal e.1 (dequantElem fmt c e.2) }

/-- A calibrating group (R122, R124). Every element of a group of zeros is the code 0, whatever its sign, as R124 says. DESIGN CHOICE, log entry
126: the scale word of a non-finite integer group has `SHIFT` 0. -/
def calGroup (fmt : Nat) (zpe : Bool) (vals : List FVal) : GroupOut :=
  let finite := vals.all fun v => match v with | .fin .. => true | _ => false
  if ¬ finite then
    { scale := if isFloatCode fmt then { exp := 255 } else {}, codes := vals.map fun _ => 0, nan := true }
  else
    let u := commonUnit vals
    let xs := vals.map (atUnit u)
    let lo := xs.foldl min (xs.headD 0)
    let hi := xs.foldl max (xs.headD 0)
    if lo = hi then
      if lo = 0 then
        { scale := if isFloatCode fmt then { exp := 0 } else { mant := 1, shift := 63 }, codes := vals.map fun _ => 0, const := true }
      else
        match floatFmt fmt with
        | some f =>
          match constFloat f (lo < 0) lo.natAbs u with
          | some (c, code) => { scale := c, codes := vals.map fun _ => code, const := true }
          | none => nearConst fmt (calibrate fmt false lo hi u) vals
        | none =>
          match constInt fmt (lo < 0) lo.natAbs u with
          | some (c, d) =>
            if zpe then { scale := { c with zp := -d }, codes := vals.map fun _ => 0, const := true }
            else { scale := c, codes := vals.map fun _ => (d % 2 ^ fmtBits fmt).toNat, const := true }
          | none => nearConst fmt (calibrate fmt zpe lo hi u) vals
    else quantGroup fmt (calibrate fmt zpe lo hi u) vals

/-- A calibrated float group that keeps the sign and the zero-ness of every element (R142, R238): a nonzero one that would round to zero takes the
smallest code of its sign. -/
def keepSigns (fmt : Nat) (vals : List FVal) (g : GroupOut) : GroupOut :=
  let signOf (neg : Bool) : Nat := if neg then 2 ^ (fmtBits fmt - 1) else 0
  { g with codes := (vals.zip g.codes).map fun e =>
      match e.1 with
      | .fin neg m _ => if g.nan then e.2 else if m = 0 then signOf neg else if e.2 % 2 ^ (fmtBits fmt - 1) = 0 then 1 + signOf neg else e.2
      | _ => e.2 }

/-- The scale of a saturated group doubled (R123). An `EXP` of 0xFF, the NaN scale, is not below 0xFE and stays (log entry 126). -/
def doubled (fmt : Nat) (c : Scale) : Scale :=
  if isFloatCode fmt then { c with exp := if c.exp < 0xFE then c.exp + 1 else c.exp }
  else if 0 < c.shift then { c with shift := c.shift - 1 }
  else if c.mant ≤ 0x7FFF then { c with mant := c.mant * 2 }
  else c

/-! ### Stochastic rounding (R128, R129) -/

def srRound (k0 k1 : BitVec 32) (a b c d : BitVec 32) : BitVec 32 × BitVec 32 × BitVec 32 × BitVec 32 :=
  let a := a + b + k0
  let d := (d ^^^ a).rotateLeft 16
  let c := c + d + k1
  let b := (b ^^^ c).rotateLeft 12
  let a := a + b
  let d := (d ^^^ a).rotateLeft 8
  let c := c + d
  let b := (b ^^^ c).rotateLeft 7
  (a, b, c, d)

/-- `n` more rounds, the key stepping with each. -/
def srRounds : Nat → BitVec 32 → BitVec 32 → BitVec 32 → BitVec 32 → BitVec 32 → BitVec 32 → BitVec 32
  | 0, _, _, a, b, c, d => a ^^^ b ^^^ c ^^^ d
  | n + 1, k0, k1, a, b, c, d =>
    let r := srRound k0 k1 a b c d
    srRounds n (k0 + 0x9E3779B9#32) (k1 + 0xBB67AE85#32) r.1 r.2.1 r.2.2.1 r.2.2.2

def srRandom (seed step idx : Word) : BitVec 32 :=
  srRounds 4 (seed.extractLsb' 0 32) (seed.extractLsb' 32 32) (idx.extractLsb' 0 32) (idx.extractLsb' 32 32) (step.extractLsb' 0 32)
    (step.extractLsb' 32 32)

/-- `SR_BF16` of one FP32 with the low 16 random bits `r`. -/
def srBf16 (x : F32) (r : Nat) : Nat :=
  match valF32 x with
  | .nan n => 0x7FC0 + (if n then 0x8000 else 0)
  | .inf _ => x.toNat / 2 ^ 16
  | .fin .. =>
    let v := x.toNat + r % 2 ^ 16
    if v / 2 ^ 23 % 256 = 255 then 0x7F7F + 0x8000 * (x.toNat / 2 ^ 31) else v / 2 ^ 16

end Sys2Proof.Machine
end

