-- ==== Sys2Proof/Machine/Hamper.lean ====
section
/-! DEFINITION. The Hamper: slices, stacks and granules, the spilled forms, what a `PUSH` and a `POP` do when the DMA engine
reaches them, spilling, restoring and discarding (R133 to R148). -/

namespace Sys2Proof.Machine

/-! ### Slices and granules (R133) -/

def granuleBytes : Nat := 65536
def granulesFor (len : Nat) : Nat := (len + 65535) / 65536

/-- Granules of a slice of context `c`. -/
def State.sliceGranules (s : State) (c : Nat) : Nat := s.fld (F.hamperCfg.sliceGranules c)

def HSlice.stack (h : HSlice) (n : Nat) : List HEntry := Tab.get (fun _ => []) h.piles n
def HSlice.setStack (h : HSlice) (n : Nat) (l : List HEntry) : HSlice := { h with piles := Tab.put (fun _ => []) h.piles n l }

/-- All entries of a slice. -/
def HSlice.entries (h : HSlice) : List HEntry := h.piles.flatMap fun e => e.2

/-- Granules of the slice an entry holds, and spill slots it holds. -/
def HEntry.resident (e : HEntry) : List Nat := e.grans.filterMap fun p => match p with | .slice g => some g | .slot .. => none
def HEntry.slots (e : HEntry) : List Nat := e.grans.filterMap fun p => match p with | .slice _ => none | .slot k _ => some k

def HSlice.residentAll (h : HSlice) : List Nat := h.entries.flatMap HEntry.resident
def HSlice.slotsAll (h : HSlice) : List Nat := h.entries.flatMap HEntry.slots

/-- Granules of a slice that no entry holds. -/
def State.freeGranules (s : State) (t c : Nat) : List Nat :=
  (upto (s.sliceGranules c)).filter fun g => !(s.slice t c).residentAll.contains g

/-- Spill slots of a context that hold a granule, on any tile. -/
def State.slotsUsed (s : State) (c : Nat) : List Nat := (s.hamper.filter fun e => e.1 % 8 == c).flatMap fun e => e.2.slotsAll

/-- The first spill slots that are free, at most one more than those in use. -/
def State.freeSpillSlots (s : State) (c : Nat) : List Nat :=
  (upto (min (s.fld (F.hamperSpillBase.slots c)) ((s.slotsUsed c).length + 1))).filter fun k => !(s.slotsUsed c).contains k

/-- Local offset of granule `g` of the slice of context `c` on tile `t`, and of spill slot `k`. -/
def State.granuleAt (s : State) (t c g : Nat) : Nat := 2 ^ 23 * t + granuleBytes * ((s.fld (F.hamperCfg.sliceBase c) + g) % 128)
def State.slotAt (s : State) (c k : Nat) : Nat := granuleBytes * (s.fld (F.hamperSpillBase.base c) + k)

/-- Bytes of an entry that lie in its granule `j`. -/
def HEntry.partLen (e : HEntry) (j : Nat) : Nat := min granuleBytes (e.len - granuleBytes * j)

/-- Note the granules in use of a slice in `HIGH_WATER`. -/
def State.noteHighWater (s : State) (t c : Nat) : State :=
  s.setFld (F.hamperStatus.highWater c) (max (s.fld (F.hamperStatus.highWater c)) (min 127 (s.slice t c).residentAll.length))

/-- Choose `n` of a list; which ones the spec leaves open (free values). -/
def State.choose (s : State) : Nat → List Nat → List Nat × State
  | 0, _ => ([], s)
  | _, [] => ([], s)
  | n + 1, l =>
    let (v, s) := s.free
    let x := l.getD (v.toNat % l.length) 0
    let (r, s) := s.choose n (l.filter (· != x))
    (x :: r, s)

/-! ### Spilled forms (R141, Table 6.8) -/

/-- Target format of a converted spill: E4M3 for FP32 and BF16, E2M1 for the FP8 formats, none for a raw one. -/
def spillFormat (fmt : Nat) : Option Nat :=
  if fmt ≤ 1 then some 2 else if fmt ≤ 3 then some 4 else none

/-- Cut a list into runs of 32. -/
def runs32 : Nat → List α → List (List α)
  | 0, _ => []
  | fuel + 1, l => if l.isEmpty then [] else l.take 32 :: runs32 fuel (l.drop 32)

/-- One group of a converted spill: codes and scale, with the zero floor. -/
def spillGroup (target : Nat) (vals : List FVal) : List Nat × Nat :=
  let g := keepSigns target vals (calGroup target false vals)
  (g.codes, g.scale.exp)

/-- The bytes a granule of an entry of format `fmt` takes in its slot. -/
def spillForm (raw : Bool) (fmt : Nat) (bytes : List Byte) : List Byte :=
  match if raw then none else spillFormat fmt with
  | none => bytes
  | some target =>
    let w := fmtBits fmt
    let vals := (upto (8 * bytes.length / w)).map fun k => decodeElem fmt (elemOf bytes w k)
    let groups := (runs32 vals.length vals).map (spillGroup target)
    packElems (fmtBits target) (groups.flatMap (·.1)) ++ groups.map fun g => BitVec.ofNat 8 g.2

/-- How many bytes `n` bytes of an entry take in a slot. -/
def spillLen (raw : Bool) (fmt n : Nat) : Nat :=
  match if raw then none else spillFormat fmt with
  | none => n
  | some target => let ne := 8 * n / fmtBits fmt; ne * fmtBits target / 8 + (ne + 31) / 32

/-- `n` bytes of an entry restored from their spilled form. -/
def restoreForm (raw : Bool) (fmt n : Nat) (bytes : List Byte) : List Byte :=
  match if raw then none else spillFormat fmt with
  | none => bytes
  | some target =>
    let ne := 8 * n / fmtBits fmt
    let scales := ne * fmtBits target / 8
    packElems (fmtBits fmt) ((upto ne).map fun k =>
      (encodeElem fmt (dequantElem target { exp := (byteAt bytes (scales + k / 32)).toNat } (elemOf bytes (fmtBits target) k))).1)

/-! ### PUSH (R137, R140) -/

/-- Checks that `PUSH` and `POP` share, and the translated AOP. -/
def State.hamperAop (s : State) (i : Iss) (need : Nat) : Except Why Nat :=
  let g := s.sliceGranules i.c
  if g = 0 then .error (.hamper 6)
  else if dHLen i.w = 0 ∨ dHLen i.w % 64 ≠ 0 ∨ granuleBytes * g < dHLen i.w then .error (.hamper 7)
  else
    match s.localPhys i.c (i.aop 80) (dHLen i.w) need with
    | .error e => .error e
    | .ok p => if placeOf p = .meadow i.t ∧ placeOf (p + dHLen i.w - 1) = .meadow i.t then .ok p else .error (.hamper 3)

/-- Write the parts of an entry to its granules. -/
def State.fillGranules (s : State) (t c : Nat) (e : HEntry) (bytes : List Byte) : State :=
  forEach e.grans.zipIdx (fun s g => match g.1 with
    | .slice x => s.storeHeal (s.granuleAt t c x) ((bytes.drop (granuleBytes * g.2)).take granuleBytes)
    | .slot .. => s) s

/-- The free granules suffice: the entry is made and filled, and the push is done (R137). -/
def State.pushNow (s : State) (i : Iss) (seq src : Nat) : State × Except Why Bool :=
  match s.readData src (dHLen i.w) with
  | none => (s.noteBadRead src (dHLen i.w), .error (.hamper 9))
  | some bytes =>
    let (gs, s) := s.choose (granulesFor (dHLen i.w)) (s.freeGranules i.t i.c)
    let e : HEntry := { len := dHLen i.w, fmt := dHFmt i.w, seq := seq, grans := gs.map .slice }
    let s := s.modSlice i.t i.c fun h => h.setStack i.n (e :: h.stack i.n)
    ((s.fillGranules i.t i.c e bytes).noteHighWater i.t i.c, .ok true)

/-- A `PUSH` of the slice waits for granules. -/
def State.pushWaits (s : State) (t c : Nat) : Bool :=
  (upto 16).any fun n =>
    s.fld (F.threadCtl.ctx t n) == c
      && (s.thread (thrKey t n)).pend.any fun p => p.phase == .hamper && dOp p.word == 0x38

/-- The DMA engine reaches a `PUSH`: it is done (`true`), it waits for spills (`false`), or it faults. `retry` is set when it
waited. A `PUSH` that waits holds back its own thread's descriptors alone (R137). DESIGN CHOICE, log entry 125: where several subcodes apply, the
first of 6, 7, those of the AOP, 5, 4 and 9 is recorded. -/
def State.pushReach (s : State) (i : Iss) (seq : Nat) (retry : Bool) : State × Except Why Bool :=
  match s.hamperAop i rightR with
  | .error e => (s, .error e)
  | .ok src =>
    if 64 ≤ ((s.slice i.t i.c).stack i.n).length then (s, .error (.hamper 5))
    else
      let s := if retry then s else s.modSlice i.t i.c fun h => { h with windows := h.windows.filter (· != i.n) }
      let free := (s.freeGranules i.t i.c).length
      if granulesFor (dHLen i.w) ≤ free then s.pushNow i seq src
      else if s.freeSpillSlots i.c = [] then (s, .error (.hamper 4))
      else (s, .ok false)

/-! ### POP (R138, R140, R144) -/

/-- The top entry a `POP` takes, checked. DESIGN CHOICE, log entry 125: where several subcodes apply, the first of 6, 7, those of the AOP, 1, 2 and
8 is recorded. -/
def State.popEntry (s : State) (i : Iss) : Except Why HEntry :=
  match (s.slice i.t i.c).stack i.n with
  | [] => .error (.hamper 1)
  | e :: _ => if e.len ≠ dHLen i.w ∨ e.fmt ≠ dHFmt i.w then .error (.hamper 2) else .ok e

/-- The bytes of granule `j` of an entry; none is an error response. -/
def State.granuleBytesOf (s : State) (t c : Nat) (e : HEntry) (j : Nat) : HPlace → Option (List Byte)
  | .slice g => s.readData (s.granuleAt t c g) (e.partLen j)
  | .slot k raw => (s.readData (s.slotAt c k) (spillLen raw e.fmt (e.partLen j))).map (restoreForm raw e.fmt (e.partLen j))

/-- Note the failing read behind granule `j` of an entry. -/
def State.noteGranule (s : State) (t c : Nat) (e : HEntry) (j : Nat) : HPlace → State
  | .slice g => s.noteBadRead (s.granuleAt t c g) (e.partLen j)
  | .slot k raw => s.noteBadRead (s.slotAt c k) (spillLen raw e.fmt (e.partLen j))

/-- Remove the top entry, and copy it to physical offset `dst` (R138); an error response to a read faults with subcode 8. -/
def State.popNow (s : State) (i : Iss) (e : HEntry) (dst : Nat) : State × Except Why Bool :=
  let parts := e.grans.zipIdx.map fun g => s.granuleBytesOf i.t i.c e g.2 g.1
  let s := s.modSlice i.t i.c fun h => h.setStack i.n ((h.stack i.n).drop 1)
  match e.grans.zipIdx.find? fun g => (s.granuleBytesOf i.t i.c e g.2 g.1).isNone with
  | some g => (s.noteGranule i.t i.c e g.2 g.1, .error (.hamper 8))
  | none =>
    match s.physWrite dst (parts.flatMap fun p => p.getD []) with
    | .error w => (s, .error (w.seenAt [(dst, i.aop 80)]))
    | .ok s => (s, .ok true)

/-- The DMA engine reaches a `POP`: done, waiting for the stream of its spilled granules, or a fault. -/
def State.popReach (s : State) (i : Iss) : State × Except Why Bool :=
  match s.hamperAop i rightW with
  | .error e => (s, .error e)
  | .ok dst =>
    match s.popEntry i with
    | .error e => (s, .error e)
    | .ok e =>
      let s := s.modSlice i.t i.c fun h => { h with windows := if h.windows.contains i.n then h.windows else i.n :: h.windows }
      if e.slots = [] then s.popNow i e dst else (s, .ok false)

/-- The stream has arrived: the waiting `POP` completes (R138). A discard in between has emptied the stack. -/
def State.popStream (s : State) (i : Iss) : State × Except Why Bool :=
  match s.hamperAop i rightW with
  | .error e => (s, .error e)
  | .ok dst =>
    match s.popEntry i with
    | .error e => (s, .error e)
    | .ok e => s.popNow i e dst

/-! ### Spills and prefetch (R139, R141, R144, R145) -/

/-- The entries of the active windows of a slice: the top `PREFETCH` entries of each active stack. -/
def State.windowEntries (s : State) (t c : Nat) : List HEntry :=
  let h := s.slice t c
  h.windows.flatMap fun n => (h.stack n).take (s.fld (F.hamperCfg.prefetch c))

/-- Sequence numbers of the entries that a waiting `POP` is copying out (R146). -/
def State.popping (s : State) (t c : Nat) : List Nat :=
  ((upto 16).filter fun n =>
    s.fld (F.threadCtl.ctx t n) == c && (s.thread (thrKey t n)).pend.any fun p => p.phase == .hamper && dOp p.word == 0x39).flatMap
    fun n => (((s.slice t c).stack n).take 1).map (·.seq)

/-- A victim granule: its entry and its place in it. -/
def victimsOf (l : List HEntry) : List (HEntry × Nat × Nat) :=
  l.flatMap fun e => e.grans.zipIdx.filterMap fun g => match g.1 with | .slice x => some (e, g.2, x) | .slot .. => none

/-- `a` goes before `b`: the older entry, and in one entry the higher address (R139). -/
def victimBefore (a b : HEntry × Nat × Nat) : Bool := a.1.seq < b.1.seq || (a.1.seq == b.1.seq && b.2.2 < a.2.2)

def insertVictim (a : HEntry × Nat × Nat) : List (HEntry × Nat × Nat) → List (HEntry × Nat × Nat)
  | [] => [a]
  | b :: rest => if victimBefore a b then a :: b :: rest else b :: insertVictim a rest

def sortVictims (l : List (HEntry × Nat × Nat)) : List (HEntry × Nat × Nat) := l.foldr insertVictim []

/-- Victims in the order they are tried: those outside the active windows first, then the others (R139). -/
def State.victims (s : State) (t c : Nat) : List (HEntry × Nat × Nat) :=
  let held := s.popping t c
  let inWindow := (s.windowEntries t c).map (·.seq)
  let all := (s.slice t c).entries.filter fun e => !held.contains e.seq
  sortVictims (victimsOf (all.filter fun e => !inWindow.contains e.seq))
    ++ sortVictims (victimsOf (all.filter fun e => inWindow.contains e.seq))

/-- Put another place for granule `j` of the entry with sequence number `seq`. -/
def HSlice.place (h : HSlice) (seq j : Nat) (p : HPlace) : HSlice :=
  { h with piles := h.piles.map fun e => (e.1, e.2.map fun x => if x.seq = seq then { x with grans := x.grans.set j p } else x) }

/-- Spill one granule, trying victim after victim (R141, R145). DESIGN CHOICE, log entry 125: a victim whose bytes cannot be read stays resident,
as one whose spill write fails does. -/
def State.spillFirst (s : State) (t c slot : Nat) : List (HEntry × Nat × Nat) → State
  | [] => s
  | (e, j, g) :: rest =>
    let raw := s.bit (F.hamperCfg.spillRaw c)
    match s.readData (s.granuleAt t c g) (e.partLen j) with
    | none => (s.noteBadRead (s.granuleAt t c g) (e.partLen j)).spillFirst t c slot rest
    | some bytes =>
      let (s', ok) := s.writeData (s.slotAt c slot) (spillForm raw e.fmt bytes)
      if ok then
        let first := (s.slice t c).slotsAll = []
        let s := (s'.modSlice t c fun h => h.place e.seq j (.slot slot raw)).bumpReg (R.hamperSpilled c)
        if first then s.raise 0x3005 0 0x02 t t else s
      else s.spillFirst t c slot rest

/-- A spill step of a slice in which a `PUSH` waits for a granule. -/
def State.spillGranule (s : State) (t c : Nat) : State :=
  let (k, s) := s.choose 1 (s.freeSpillSlots c)
  match k with
  | [] => s
  | slot :: _ => s.spillFirst t c slot (s.victims t c)

/-- The spilled granule prefetch takes next: oldest sequence number first, among the active windows (R144). -/
def State.prefetchNext (s : State) (t c : Nat) : Option HEntry :=
  ((s.windowEntries t c).filter fun e => e.slots != []).foldl (fun b e => match b with
    | none => some e
    | some x => if e.seq < x.seq then some e else some x) none

/-- Restore one spilled granule of an active window into a free granule (R144, R145). -/
def State.prefetch (s : State) (t c : Nat) : State :=
  match s.prefetchNext t c with
  | none => s
  | some e =>
    let free := s.freeGranules t c
    if free = [] ∨ (free.length = 1 ∧ s.pushWaits t c) then s
    else
      let (k, s) := s.choose 1 e.slots
      let (g, s) := s.choose 1 free
      match k, g, e.grans.zipIdx.find? fun x => match x.1 with | .slot y _ => k.head? == some y | .slice _ => false with
      | _ :: _, g :: _, some (p, j) =>
        match s.granuleBytesOf t c e j p with
        | none => s.noteGranule t c e j p
        | some bytes =>
          ((s.storeHeal (s.granuleAt t c g) bytes).modSlice t c fun h => h.place e.seq j (.slice g)).noteHighWater t c
      | _, _, _ => s

/-! ### Discard and reset (R147, R148) -/

/-- Entries on the stacks of a context, over all tiles. -/
def State.hamperEntries (s : State) (c : Nat) : Nat := ((s.hamper.filter fun e => e.1 % 8 == c).map fun e => e.2.entries.length).sum

/-- Empty the slices `p` accepts; the push sequence numbers go on. -/
def State.emptySlices (s : State) (p : Nat → Bool) : State :=
  forEach (s.hamper.filter fun e => p e.1) (fun s e => s.modSlice (e.1 / 8) (e.1 % 8) fun h => { h with piles := [], windows := [] }) s

/-- Empty every stack of a context and count what was removed (R147). -/
def State.hamperDiscard (s : State) (c : Nat) : State :=
  let n := s.hamperEntries c
  ((s.emptySlices fun k => k % 8 == c).bumpReg (R.hamperLeftover c) n).setBit (F.hamperStatus.discardBusy c) true

end Sys2Proof.Machine
end

