-- ==== Sys2Proof/Machine/Holds.lean ====
section
/-! DEFINITION. Accesses that wait: reads of a shadow weight slot before its shard is swept (R18), and writes of a factor buffer while a root
engine copies it in (R20, R166, R170). -/

namespace Sys2Proof.Machine

/-- Weights of slot t mod 2 are live; the other slot is the shadow (R199). -/
def Shard.weights (h : Shard) (slot : Nat) : Nat := h.wSlot + slot % 2 * (128 * h.ngran)
def Shard.momentum (h : Shard) (slot g : Nat) : Nat := h.mSlot + slot % 2 * (256 * h.ngran) + 256 * g

/-- The per-stack offset of the byte at an interleaved offset: the inverse of `thermosKey` (R66, R67). -/
def stackOff (off : Nat) : Nat :=
  let r := off - 0x4000000000
  0x10000000000 + 2 ^ 36 * (r / 2 ^ 12 % 8) + 2 ^ 12 * (r / 2 ^ 15) + r % 2 ^ 12

/-- Does one of `n` bytes at `p` lie among the `m` bytes at `q`? Both Thermos views show one memory (R67). -/
def inBytes (p n q m : Nat) : Bool :=
  (upto n).any fun k =>
    let b := if 0x10000000000 ≤ q then stackOff (memKey (p + k)) else memKey (p + k)
    decide (q ≤ b) && decide (b < q + m)

/-- A read of `n` bytes at `p` by context `c` touches the shadow slot of a shard of it that is not swept yet: it waits (R18). A context that does
not run its sweeps has no shadow to wait for. -/
def State.unswept (s : State) (c p n : Nat) : Bool :=
  let x := s.ctx c
  x.running && s.bit (F.sweepCtl.enable c)
    && (upto (s.shardCount c)).any fun i =>
      !x.swept.contains i && (let h := s.shard c i; inBytes p n (h.weights ((s.reg (R.sweepStep c)).toNat + 1)) (128 * h.ngran))

/-- A write of `n` bytes at `p` touches a factor buffer that a root engine is copying in: it waits (R20). DESIGN CHOICE, log entry 113: the
copy lock is held while the block in progress has not been computed, since the spec does not say what the lock's bytes hold. -/
def State.copyLocked (s : State) (p n : Nat) : Bool :=
  (upto 4).any fun e =>
    match (s.root e).cur with
    | some b => b.result.isNone && inBytes p n b.base (4 * (b.n * b.n))
    | none => false

/-! ### Descriptors -/

/-- Source addresses of a data-movement descriptor on this module, with the bytes read at each. -/
def State.sourceParts (s : State) (i : Iss) : List (Nat × Nat) :=
  match dOp i.w with
  | 0x06 => []
  | 0x07 =>
    match s.indexList i with
    | .ok l => l.map fun x => (i.tableElem x, dElem i.w)
    | .error _ => []
  | 0x08 => (upto (dCount i.w)).map fun k => (i.localElem k, dElem i.w)
  | 0x09 => (upto (dCount i.w)).map fun k => (i.localElem k, dElem i.w)
  | _ => (upto (moveRows i.w)).map fun r => (i.srcRow r, dLen i.w)

/-- Destination addresses of a data-movement descriptor on this module. -/
def State.targetParts (s : State) (i : Iss) : List (Nat × Nat) :=
  match dOp i.w with
  | 0x06 => [(i.moveDst, dLen i.w)]
  | 0x07 => (upto (dCount i.w)).map fun k => (i.localElem k, dElem i.w)
  | 0x08 => match s.indexList i with
    | .ok l => l.map fun x => (i.tableElem x, dElem i.w)
    | .error _ => []
  | 0x09 => match s.indexList i with
    | .ok l => l.map fun x => (i.tableElem x, dElem i.w)
    | .error _ => []
  | _ => (upto (dstShape i.w).1).map fun r => (i.dstRow r, (dstShape i.w).2)

/-- The DMA engine holds a descriptor back that would read an unswept shadow slot: it is one of the next step (R18). -/
def State.shadowHeld (s : State) (i : Iss) : Bool :=
  dOp i.w < 0x10 && (s.sourceParts i).any fun a => match s.localPhys i.c a.1 a.2 rightR with
    | .ok p => s.unswept i.c p a.2
    | .error _ => false

/-- It holds a descriptor back that would write a locked factor buffer (R20). -/
def State.lockHeld (s : State) (i : Iss) : Bool :=
  dOp i.w < 0x10 && (s.targetParts i).any fun a => match s.localPhys i.c a.1 a.2 rightW with
    | .ok p => s.copyLocked p a.2
    | .error _ => false

/-- The DMA engine holds a descriptor back. `PUSH` and `POP` touch neither kind of place. -/
def State.dmaHeld (s : State) (i : Iss) : Bool := s.shadowHeld i || s.lockHeld i

end Sys2Proof.Machine
end

