-- ==== Sys2Proof/Machine/Dma.lean ====
section
/-! DEFINITION. The DMA queue of a tile: what its engine does with a descriptor it reaches, the data-movement and Hamper
descriptors, admission, and the Hamper's own events (R29, R30, R37, R59, R87, R133 to R147, R290, R291). -/

namespace Sys2Proof.Machine

/-! ### Local ends -/

def State.fillLocal (s : State) (i : Iss) : State × Option Why :=
  match s.localPhys i.c (i.moveDst) (dLen i.w) rightW with
  | .error e => (s, some e)
  | .ok p =>
    match s.writeData p i.fillOf with
    | (s, ok) => (s, if ok then none else some (.bad p 0 i.moveDst))

/-- Run `f` on the index list. -/
def State.withList (s : State) (i : Iss) (f : State → List (Nat × Nat) → State × Option Why) : State × Option Why :=
  match s.indexList i with
  | .error e => (s, some e)
  | .ok l => f s l.zipIdx

def State.gatherLocal (s : State) (i : Iss) : State × Option Why :=
  s.withList i fun s l => s.copyElems i (l.map fun e => (i.tableElem e.1, i.localElem e.2))

def State.scatterLocal (s : State) (i : Iss) : State × Option Why :=
  s.withList i fun s l => s.copyElems i (l.map fun e => (i.localElem e.2, i.tableElem e.1))

def State.scatterAddLocal (s : State) (i : Iss) : State × Option Why :=
  s.withList i fun s l => s.addElems i (l.map fun e => (i.localElem e.2, i.tableElem e.1))

/-- A data-movement descriptor with both ends on this module. -/
def State.dmaHere (s : State) (i : Iss) : State × Option Why :=
  match dOp i.w with
  | 0x06 => s.fillLocal i
  | 0x07 => s.gatherLocal i
  | 0x08 => s.scatterLocal i
  | 0x09 => s.scatterAddLocal i
  | _ => s.moveLocal i

/-! ### The engine reaches a descriptor (R30, R290) -/

/-- What becomes of a descriptor the engine has reached: the phase it goes on in and the destinations of what it brings, or the
reason it faults. -/
abbrev Reached := Except Why (PendPhase × List Nat)

/-- A Hamper operation's answer as a phase. -/
def hamperPhase : State × Except Why Bool → State × Reached
  | (s, .error e) => (s, .error e)
  | (s, .ok b) => (s, .ok (if b then .done else .hamper, []))

/-- The DMA engine reaches a descriptor (R59, R290, R293). `seq` is the sequence number of a `PUSH`. -/
def State.dmaReach (s : State) (i : Iss) (seq : Nat) : State × Reached :=
  if dOp i.w = 0x38 then hamperPhase (s.pushReach i seq false)
  else if dOp i.w = 0x39 then hamperPhase (s.popReach i)
  else if s.anyAway i.nearEnds then (s, .error (.code 0x02))
  else
    match s.formOf i.farEnd with
    | .away dest _ =>
      if dTclass i.w = 0 then (s, .error (.code 0x02))
      else if dTclass i.w = 2 then (s, .ok (.admission, []))
      else
        let (r, s) := s.asksOf i dest
        match r with
        | .error e => (if s.unready e then (s.issueAll (s.readyAsks i dest)).1 else s, .error e)
        | .ok (asks, dst) =>
          let (s, tids) := s.issueAll asks
          (s, .ok (if tids = [] then .done else .transfer tids, dst))
    | _ =>
      match s.dmaHere i with
      | (s, some e) => (s, .error e)
      | (s, none) => (s, .ok (.done, []))

/-! ### The queue of a thread -/

/-- Replace descriptor `k` of a thread's list. -/
def State.setPend (s : State) (key k : Nat) (p : Pend) : State := s.modThread key fun th => { th with pend := th.pend.set k p }

/-- The issued form of an outstanding descriptor. -/
def State.issOf (s : State) (key : Nat) (p : Pend) : Iss :=
  { t := key / 16, n := key % 16, c := s.fld (F.threadCtl.ctx (key / 16) (key % 16)), pc := p.pc, w := p.word, ixs := p.ixs }

/-- Outstanding descriptor `k` of a thread cannot go on: it leaves the list and the thread faults; the earlier ones complete (R55). DESIGN
CHOICE, log entry 103: of those issued after it, the ones still queued at its engine are given up and the others complete. -/
def State.pendFails (s : State) (key k : Nat) (p : Pend) (e : Why) : State :=
  (s.modThread key fun th =>
    { th with pend := th.pend.take k ++ (th.pend.drop (k + 1)).filter fun q => q.phase != .queued || q.eng != p.eng }).failWith (s.issOf key p) e

/-- The first descriptor of the DMA engine that is not done. -/
def firstOpen (l : List Pend) : Option Nat := l.findIdx? fun p => p.eng == .dma && p.phase != .done

/-- The engine takes the descriptors that wait in a thread's queue, as far as it can (R30); one it holds back (R18, R20) stays queued. -/
def State.dmaTake (s : State) (key : Nat) : Nat → State
  | 0 => s
  | fuel + 1 =>
    let l := (s.thread key).pend
    match firstOpen l with
    | none => s
    | some k =>
      match l[k]? with
      | none => s
      | some p =>
        if p.phase ≠ .queued ∨ s.dmaHeld (s.issOf key p) then s
        else
          match s.dmaReach (s.issOf key p) p.seq with
          | (s, .error e) => s.pendFails key k p e
          | (s, .ok (ph, dst)) => (s.setPend key k { p with phase := ph, dst := dst }).dmaTake key fuel

/-- Set the destinations and the sequence number of the descriptor a thread has just placed. -/
def State.noteLast (s : State) (k : Nat) (dst : List Nat) (seq : Nat) : State :=
  s.modThread k fun th =>
    { th with pend := match th.pend.getLast? with
        | none => th.pend
        | some p => th.pend.dropLast ++ [{ p with dst := dst, seq := seq }] }

/-- The push sequence number a descriptor takes as it issues (R137). -/
def State.takeSeq (s : State) (i : Iss) : Nat × State :=
  if dOp i.w = 0x38 then ((s.slice i.t i.c).nextSeq, s.modSlice i.t i.c fun h => { h with nextSeq := h.nextSeq + 1 }) else (0, s)

/-- Run a descriptor on the DMA engine: its field checks; behind an earlier one that is not done, or held back, it waits in the queue, else
the engine reaches it now. -/
def State.runDma (s : State) (i : Iss) (fault : Option Nat) : State :=
  s.async i .dma fun s =>
    match fault with
    | some c => s.faultAt i c
    | none =>
      let (seq, s) := s.takeSeq i
      if (firstOpen (s.thread i.key).pend).isSome ∨ s.dmaHeld i then (s.enqueue i .dma .queued).noteLast i.key [] seq
      else
        match s.dmaReach i seq with
        | (s, .error e) => s.failWith i e
        | (s, .ok (ph, dst)) => (s.enqueue i .dma ph).noteLast i.key dst seq

def State.runMove (s : State) (i : Iss) : State := s.runDma i (moveFieldFault i.w)

/-- A panel's base is 256-byte aligned (Table 2.14). -/
def State.runPanel (s : State) (i : Iss) : State :=
  s.runDma i (match moveFieldFault i.w with
    | some c => some c
    | none => if i.moveDst % 256 = 0 then none else some 0x0A)

/-! ### The commands -/

def execLoad (t : Fin 256) (n : Fin 16) (w : Desc) (s : State) : Result := .next (s.issue t n w 0x01 anySub fun i s => s.runMove i)
def execLoad2d (t : Fin 256) (n : Fin 16) (w : Desc) (s : State) : Result := .next (s.issue t n w 0x02 anySub fun i s => s.runMove i)
def execLoadPanel (t : Fin 256) (n : Fin 16) (w : Desc) (s : State) : Result := .next (s.issue t n w 0x03 anySub fun i s => s.runPanel i)
def execStore (t : Fin 256) (n : Fin 16) (w : Desc) (s : State) : Result := .next (s.issue t n w 0x04 anySub fun i s => s.runMove i)
def execStore2d (t : Fin 256) (n : Fin 16) (w : Desc) (s : State) : Result := .next (s.issue t n w 0x05 anySub fun i s => s.runMove i)

def execFill (t : Fin 256) (n : Fin 16) (w : Desc) (s : State) : Result :=
  .next (s.issue t n w 0x06 anySub fun i s => s.runDma i (moveFieldFault i.w))
def execGather (t : Fin 256) (n : Fin 16) (w : Desc) (s : State) : Result :=
  .next (s.issue t n w 0x07 anySub fun i s => s.runDma i (listFieldFault i.w))
def execScatter (t : Fin 256) (n : Fin 16) (w : Desc) (s : State) : Result :=
  .next (s.issue t n w 0x08 anySub fun i s => s.runDma i (listFieldFault i.w))
def execScatterAdd (t : Fin 256) (n : Fin 16) (w : Desc) (s : State) : Result :=
  .next (s.issue t n w 0x09 anySub fun i s => s.runDma i (listFieldFault i.w))

/-! ### PUSH and POP -/

/-- Reserved format codes fault (R137, R34). -/
def hamperFieldFault (w : Desc) : Option Nat := if 9 < dHFmt w then some 0x02 else none

def execPush (t : Fin 256) (n : Fin 16) (w : Desc) (s : State) : Result :=
  .next (s.issue t n w 0x38 anySub fun i s => s.runDma i (hamperFieldFault i.w))
/-- Take the answer of a waiting Hamper operation, descriptor `k` of a thread. -/
def State.hamperAnswer (s : State) (key k : Nat) (p : Pend) (r : Except Why Bool) : State :=
  match r with
  | .error e => s.pendFails key k p e
  | .ok true => (s.setPend key k { p with phase := .done }).dmaTake key 8
  | .ok false => s

/-- The waiting `PUSH` or `POP` of opcode `op` of a thread. -/
def State.hamperPend (s : State) (key op : Nat) : Option (Nat × Pend) :=
  (s.thread key).pend.zipIdx.findSome? fun e => if e.1.phase == .hamper && dOp e.1.word == op then some (e.2, e.1) else none

/-- The waiting pushes of a slice: thread, place in its list and descriptor. -/
def State.waitingPushes (s : State) (t c : Nat) : List (Nat × Nat × Pend) :=
  (upto 16).filterMap fun n =>
    if s.fld (F.threadCtl.ctx t n) = c then (s.hamperPend (thrKey t n) 0x38).map fun e => (thrKey t n, e.1, e.2) else none

/-- Does a waiting `PUSH` go on, when it looks again? -/
def State.pushMoves (s : State) (e : Nat × Nat × Pend) : Bool :=
  match (s.pushReach (s.issOf e.1 e.2.2) e.2.2.seq true).2 with
  | .ok false => false
  | _ => true

/-- The oldest waiting `PUSH` of a slice that goes on. -/
def State.pushReady (s : State) (t c : Nat) : Option (Nat × Nat × Pend) :=
  ((s.waitingPushes t c).filter s.pushMoves).foldl (fun b e => match b with
    | none => some e
    | some x => if e.2.2.seq < x.2.2.seq then some e else some x) none

/-- The waiting pushes of a slice look again, while one after another goes on (R137). -/
def State.pushAgain (s : State) (t c : Nat) : Nat → State
  | 0 => s
  | fuel + 1 =>
    match s.pushReady t c with
    | none => s
    | some (key, k, p) =>
      match s.pushReach (s.issOf key p) p.seq true with
      | (s, r) => (s.hamperAnswer key k p r).pushAgain t c fuel

/-- Every `PUSH` that can wait in a slice: 8 descriptors of 16 threads. -/
abbrev pushFuel : Nat := 129

/-- What freed granules of a slice lets its waiting pushes look again (R137). -/
def State.hamperFreed (s u : State) (t c : Nat) : State := if u.hamper = s.hamper then u else u.pushAgain t c pushFuel

/-- The engine takes what waits in a thread's queue; a `POP` among it may free granules that a `PUSH` waits for. -/
def State.dmaNext (s : State) (key fuel : Nat) : State :=
  s.hamperFreed (s.dmaTake key fuel) (keyTile key) (s.fld (F.threadCtl.ctx (keyTile key) (keyThread key)))

/-- The engine looks again at every queue, after a shard is swept, a step ends or a copy-in is over. -/
def State.dmaWake (s : State) : State := forEach s.threads (fun s e => s.dmaNext e.1 8) s

/-- A `POP` that the engine reaches at once may free granules that a `PUSH` of another thread waits for. -/
def State.runPop (s : State) (i : Iss) : State := s.hamperFreed (s.runDma i (hamperFieldFault i.w)) i.t i.c

def execPop (t : Fin 256) (n : Fin 16) (w : Desc) (s : State) : Result := .next (s.issue t n w 0x39 anySub fun i s => s.runPop i)

/-- A spill, of a slice in which a `PUSH` still waits for want of granules (R137, R139, R141, R145). -/
def State.hamperSpill (s : State) (t c : Nat) : State :=
  let s := s.pushAgain t c pushFuel
  if s.waitingPushes t c = [] ∨ s.freeSpillSlots c = [] then s
  else (s.spillGranule t c).pushAgain t c pushFuel

def execHamperSpillGranule (t : Fin 256) (c : Fin 8) (s : State) : Result := .next (s.hamperSpill t c)
def execPrefetchRestore (t : Fin 256) (c : Fin 8) (s : State) : Result := .next (s.prefetch t c)

/-- The stream of spilled granules of a waiting `POP` has arrived (R138). -/
def State.popArrives (s : State) (t n : Nat) : State :=
  match s.hamperPend (thrKey t n) 0x39 with
  | none => s
  | some (k, p) =>
    let i := s.issOf (thrKey t n) p
    match s.popStream i with
    | (s, r) => (s.hamperAnswer (thrKey t n) k p r).pushAgain t i.c pushFuel

def execOnDemandRestoreComplete (t : Fin 256) (n : Fin 16) (s : State) : Result := .next (s.popArrives t n)

/-! ### Configuration and discard (R135, R147) -/

/-- Do the slices [b, b + g) and that of another running context overlap? -/
def State.sliceOverlap (s : State) (c b g : Nat) : Bool :=
  (upto 8).any fun o =>
    let ob := s.fld (F.hamperCfg.sliceBase o)
    let og := s.sliceGranules o
    o != c && (s.ctx o).running && g != 0 && og != 0 && b < ob + og && ob < b + g

/-- A write of `HAMPER_CFG` (R135). DESIGN CHOICE, log entry 125: while the context runs, a write that leaves both slice fields as they are is no write
to them, and sets no `CFG_IGNORED`. -/
def State.hamperCfgWrite (s : State) (c : Nat) (v : Word) : State :=
  let ob := s.fld (F.hamperCfg.sliceBase c)
  let og := s.sliceGranules c
  let ignored := (s.ctx c).running && (bitsAt v 0 7 != og || bitsAt v 8 7 != ob)
  let s := if ignored then s.setBit (F.hamperStatus.cfgIgnored c) true else s
  let g := if ignored then og else bitsAt v 0 7
  let b := if ignored then ob else bitsAt v 8 7
  let moved := g != og || b != ob
  if 96 < g ∨ 128 < b + g ∨ 8 < bitsAt v 16 4 ∨ s.sliceOverlap c b g ∨ (moved ∧ s.hamperEntries c ≠ 0) then
    s.setBit (F.hamperStatus.cfgRefused c) true
  else s.setReg (R.hamperCfg c) (BitVec.ofNat 64 (g + 2 ^ 8 * b + 2 ^ 16 * bitsAt v 16 5))

def execHamperCfgWrite (c : Fin 8) (v : Word) (s : State) : Result := .next (s.hamperCfgWrite c v)

/-- A write of `HAMPER_SPILL_BASE` (R135). -/
def State.hamperSpillBaseWrite (s : State) (c : Nat) (v : Word) : State :=
  let lo := granuleBytes * bitsAt v 16 24
  let n := bitsAt v 40 24
  if n = 0 ∨ (0x4004000000 ≤ lo ∧ lo + granuleBytes * n ≤ 0xC000000000) then
    s.setReg (R.hamperSpillBase c) (v &&& 0xFFFFFFFFFFFF0000#64)
  else (s.setReg (R.hamperSpillBase c) (v &&& 0x000000FFFFFF0000#64)).setBit (F.hamperStatus.cfgRefused c) true

def execHamperSpillBaseWrite (c : Fin 8) (v : Word) (s : State) : Result := .next (s.hamperSpillBaseWrite c v)

/-- `DISCARD` of a context; pushes still waiting are applied to the empty Hamper (R147). -/
def State.discard (s : State) (c : Nat) : State := forEach s.threads (fun s e => s.pushAgain (e.1 / 16) c pushFuel) (s.hamperDiscard c)

def execDiscard (c : Fin 8) (s : State) : Result := .next (s.discard c)
def execDiscardComplete (c : Fin 8) (s : State) : Result := .next (s.setBit (F.hamperStatus.discardBusy c) false)

/-! ### Admission (R290, R291) -/

/-- Give each transfer its share of the granted slots, in order. -/
def State.issueGranted (s : State) (bound : Nat) : List Ask → List Nat → List Nat → State × List Nat
  | [], _, tids => (s, tids)
  | a :: rest, slots, tids =>
    let n := flitsOf a.data.length
    let (s, tid) := s.issueXfer a (some bound) (slots.take n)
    s.issueGranted bound rest (slots.drop n) (tids ++ [tid])

/-- The DMA engine reaches descriptor `k` of a thread, which waits for admission: it is admitted, refused, or still waits while
`ADMIT_EN` is 0 (R290, R291, R55). -/
def State.admitPend (s : State) (t n k : Nat) (p : Pend) : State :=
  let i := s.issOf (thrKey t n) p
  let c := i.c
  match s.formOf i.farEnd with
  | .away dest _ =>
    let (r, s) := s.asksOf i dest
    match r with
    | .error e => s.pendFails i.key k p e
    | .ok (asks, dst) =>
      let nfl := (asks.map fun a => flitsOf a.data.length).sum
      let nr := if dOp p.word ≤ 0x03 ∨ dOp p.word = 0x07 then some ((asks.map fun a => flitsOf a.len).sum) else none
      let (verdict, s) : (Nat ⊕ (Nat × List Nat × Nat)) × State :=
        if s.fld F.fenceStatus.level ≠ 0 then
          let (v, s) := s.free
          (.inl (v.toNat % 8), s)
        else (s.judgeAdmission c dest nfl nr, s)
      match verdict with
      | .inl reason =>
        ((s.flagRef t n true).admitRefused c dest nfl reason).setPend i.key k { p with phase := .done, signal := false }
      | .inr (port, slots, b) =>
        let s := s.modPort port fun x => { x with ledger := x.ledger ++ slots }
        let (s, tids) := s.issueGranted b asks slots []
        (s.flagRef t n false).setPend i.key k { p with phase := if tids = [] then .done else .transfer tids, dst := dst }
  | _ => s.setPend (thrKey t n) k { p with phase := .done }

/-- Admit the descriptor of thread `n` of tile `t` that its DMA queue has reached. -/
def State.admission (s : State) (t n : Nat) : State :=
  let l := (s.thread (thrKey t n)).pend
  match l.findIdx? fun p => p.phase == .admission with
  | none => s
  | some k =>
    if s.bit F.xportCtl.admitEn ∧ ¬ (s.ctx (s.fld (F.threadCtl.ctx t n))).admitDue then
      (match l[k]? with | some p => (s.admitPend t n k p).dmaNext (thrKey t n) 8 | none => s)
    else s

def execAdmission (t : Fin 256) (n : Fin 16) (s : State) : Result := .next (s.admission t n)

/-- The restarted F1 enables admission at the step or frame boundary of context `c`, for that context alone; its waiting descriptors
are then taken in queue order (R291), and its publications go on (R22, R355). -/
def State.admitAgain (s : State) (c : Nat) : State :=
  if ¬ s.coreRuns 1 then s
  else
  let s := (s.setBit F.xportCtl.admitEn true).modCtx c fun x => { x with admitDue := false }
  let waiting := s.threads.filter fun e =>
    e.2.pend.any (fun p => p.phase == .admission) && s.fld (F.threadCtl.ctx (e.1 / 16) (e.1 % 16)) == c
  (forEach waiting (fun s e => forEach (upto e.2.pend.length) (fun s _ => s.admission (e.1 / 16) (e.1 % 16)) s) s).publishRetry

def execAdmissionReenable (c : Fin 8) (s : State) : Result := .next (s.admitAgain c)

end Sys2Proof.Machine
end

