-- ==== Sys2Proof/Machine/Flow.lean ====
section
/-! DEFINITION. The synchronisation, flow and index descriptors, and the timed events of `WAIT` (R37, R38, R43 to R54, R56,
R426, R503). -/

namespace Sys2Proof.Machine

/-! ### Objects here and away -/

/-- The object of a SYNC or FLOW descriptor. -/
def State.objAop (s : State) (i : Iss) : Nat := s.aop i.t i.n i.w 80

/-- `AUX` of a synchronisation operation: operation in [3:0], what in [7:4] (0 `SIGNAL`, 1 `WAIT` watch, 2 `ARRIVE`, 3 a read of
the counter), `WORDS` in [15:8]; of a watch the waiting thread in [27:16], and bit 28 when it is sent again; DESIGN CHOICE, log entry 12. -/
def syncAux (what opc words : Nat) : Nat := opc + 16 * what + 256 * words

/-- The counter at `p` lies in a die that is held in reset: the operation receives an error response and faults the thread (R55, R411). -/
def State.withObject (s : State) (i : Iss) (p : Nat) (f : State → State) : State :=
  if s.tileReady (objTile p) then f s else (s.recordAccess i.c (s.objAop i)).faultAt i 0x05

/-- Run `here` on the object of a descriptor when it is a counter of the context on this module; send `away` when it lies on
another (R56, R59, R74), the thread holding the descriptor until the answer. A misaligned object faults. -/
def State.onObject (s : State) (i : Iss) (here : State → Nat → State) (away : Nat → Ask) : State :=
  let a := s.objAop i
  if a % 8 ≠ 0 then s.faultAt i 0x0A
  else
    match s.formOf a with
    | .illFormed => s.violate i a { format := true }
    | .here o =>
      match s.translateObj i.c o with
      | .inl f => s.violate i a f
      | .inr p => s.withObject i p fun s => here s p
    | .away dest _ =>
      let (s, tid) := s.issueXfer (away dest)
      (s.hold i).modThread i.key fun th => { th with syncTid := some tid }

/-- A control-class transfer of a synchronisation operation. -/
def syncAsk (i : Iss) (dest a aux : Nat) (data : List Byte) (u : Use) : Ask :=
  { kind := 5, ctx := i.c, tclass := 0, dest := dest, offset := a % 2 ^ 40, len := data.length, aux := aux, data := data, use := u }

/-! ### SIGNAL (R44) -/

def State.runSignal (s : State) (i : Iss) : State :=
  s.drained i fun s =>
    let v := s.syncValue i.t i.n i.w
    let opc := dOpc i.w
    if opc = 6 ∧ 0xA ≤ v.toNat % 16 then s.faultAt i 0x02
    else
      s.onObject i (fun s p => (s.signalObj p opc v).syncDone i)
        fun dest => syncAsk i dest (s.objAop i) (syncAux 0 opc 0) (leBytes 8 v.toNat) (.sync i.key)

def execSignalAdd (t : Fin 256) (n : Fin 16) (w : Desc) (s : State) : Result := .next (s.issue t n w 0x20 (signalSub 0) fun i s => s.runSignal i)
def execSignalSet (t : Fin 256) (n : Fin 16) (w : Desc) (s : State) : Result := .next (s.issue t n w 0x20 (signalSub 1) fun i s => s.runSignal i)
def execSignalMax (t : Fin 256) (n : Fin 16) (w : Desc) (s : State) : Result := .next (s.issue t n w 0x20 (signalSub 2) fun i s => s.runSignal i)
def execSignalMin (t : Fin 256) (n : Fin 16) (w : Desc) (s : State) : Result := .next (s.issue t n w 0x20 (signalSub 3) fun i s => s.runSignal i)
def execSignalOr (t : Fin 256) (n : Fin 16) (w : Desc) (s : State) : Result := .next (s.issue t n w 0x20 (signalSub 4) fun i s => s.runSignal i)
def execSignalAnd (t : Fin 256) (n : Fin 16) (w : Desc) (s : State) : Result := .next (s.issue t n w 0x20 (signalSub 5) fun i s => s.runSignal i)
def execSignalArm (t : Fin 256) (n : Fin 16) (w : Desc) (s : State) : Result := .next (s.issue t n w 0x20 (signalSub 6) fun i s => s.runSignal i)

/-! ### WAIT (R45, R48, R245) -/

/-- Block a thread in a `WAIT`; its program counter already names the next descriptor (log entry 10). -/
def State.blockWait (s : State) (i : Iss) (wt : Wait) : State :=
  ((s.advance i).modThread i.key fun th => { th with wait := some wt }).setFld (F.threadStatus.state i.t i.n) 2

/-- A watch of thread `key` at the object's home tile: placed while fewer than 32 are kept, else answered with retry (R48). -/
def State.askWatch (s : State) (key : Nat) (wt : Wait) : State × Watch :=
  let tl := s.tile (objTile wt.obj)
  if keyTile key = objTile wt.obj then (s, .none)
  else if tl.watches.length < 32 then
    (s.setTile (objTile wt.obj) { tl with watches := tl.watches ++ [{ obj := wt.obj, cond := wt.cond, comparand := wt.comparand, waiter := .inl key }] },
     .placed)
  else (s, .retry)

/-- A `WAIT` on a counter of this module. -/
def State.waitHere (s : State) (i : Iss) (p : Nat) (v : Word) : State :=
  if waitHolds (dOpc i.w) (s.reg p) v then (s.flagTmo i.t i.n false).syncDone i
  else
    let wt : Wait := { obj := p, cond := dOpc i.w, comparand := v, tmo := dTmo i.w, watch := .none, since := s.now, pc := i.pc, addr := s.objAop i, word := i.w }
    let (s, wa) := s.askWatch i.key wt
    (s.blockWait i { wt with watch := wa }).queueBlocked i.c p

/-- The watch request of a `WAIT` on another module; `again` after an answer with retry. -/
def watchAsk (c key dest : Nat) (wt : Wait) (again : Bool := false) : Ask :=
  { kind := 5, ctx := c, tclass := 0, dest := dest, offset := wt.obj % 2 ^ 40, len := 8,
    aux := syncAux 1 wt.cond 0 + 2 ^ 16 * (key % 4096) + 2 ^ 28 * boolNat again,
    data := leBytes 8 wt.comparand.toNat, use := .watch key }

/-- A `WAIT` on a counter of another module: the request travels and the thread blocks. -/
def State.waitAway (s : State) (i : Iss) (dest : Nat) (v : Word) : State :=
  let wt : Wait := { obj := s.objAop i, cond := dOpc i.w, comparand := v, tmo := dTmo i.w, watch := .retry, since := s.now, pc := i.pc, addr := s.objAop i, word := i.w }
  let (s, tid) := s.issueXfer (watchAsk i.c i.key dest wt)
  s.blockWait i { wt with watch := .remote tid }

def State.runWait (s : State) (i : Iss) : State :=
  let a := s.objAop i
  if 6 ≤ dOpc i.w ∨ 41 ≤ dTmo i.w then s.faultAt i 0x02
  else if a % 8 ≠ 0 then s.faultAt i 0x0A
  else
    match s.formOf a with
    | .illFormed => s.violate i a { format := true }
    | .here o =>
      match s.translateObj i.c o with
      | .inl f => s.violate i a f
      | .inr p => s.withObject i p fun s => s.waitHere i p (s.syncValue i.t i.n i.w)
    | .away dest _ => s.waitAway i dest (s.syncValue i.t i.n i.w)

def execWait (t : Fin 256) (n : Fin 16) (w : Desc) (s : State) : Result := .next (s.issue t n w 0x21 anySub fun i s => s.runWait i)

/-- The timeout of a thread's `WAIT` expires; where an update satisfied the condition before, the condition wins (R45). -/
def State.waitTimeout (s : State) (t n : Nat) : State :=
  match (s.thread (thrKey t n)).wait with
  | none => s
  | some wt =>
    if wt.tmo = 0 then s
    else s.finishWait t n (!wt.hit)

def execWaitTimeout (t : Fin 256) (n : Fin 16) (s : State) : Result := .next (s.waitTimeout t n)

/-- A waiting thread whose watch was answered with retry sends it again (R48); one that an update has satisfied since is released, even where
that update was undone (R45). The die of an object held in reset answers with an error (R411). -/
def State.watchRetry (s : State) (t n : Nat) : State :=
  let k := thrKey t n
  let c := s.fld (F.threadCtl.ctx t n)
  match (s.thread k).wait with
  | none => s
  | some wt =>
    if wt.watch ≠ .retry then s
    else
      match s.formOf wt.obj with
      | .away dest _ =>
        let (s, tid) := s.issueXfer (watchAsk c k dest wt true)
        s.modThread k fun th => { th with wait := some { wt with watch := .remote tid } }
      | _ =>
        if ¬ s.tileReady (objTile wt.obj) then (s.recordAccess c wt.addr).threadFault t n 0x05 0x21 wt.pc
        else if wt.hit || waitHolds wt.cond (s.reg wt.obj) wt.comparand then s.finishWait t n false
        else
          let (s, wa) := s.askWatch k wt
          s.modThread k fun th => { th with wait := some { wt with watch := wa } }

def execWatchRetry (t : Fin 256) (n : Fin 16) (s : State) : Result := .next (s.watchRetry t n)

/-! ### ARRIVE, FENCE, SYNC_READ (R47, R49, R54) -/

/-- The payload words of an `ARRIVE`. -/
def State.payloadWords (s : State) (i : Iss) : Except Why (List Byte) :=
  if dWords i.w = 0 then .ok [] else s.ctxRead i.c (s.aop i.t i.n i.w 24) (8 * dWords i.w)

/-- Bytes as 8-byte words. -/
def wordsOf : Nat → List Byte → List Word
  | 0, _ => []
  | n + 1, l => BitVec.ofNat 64 (leNat (l.take 8)) :: wordsOf n (l.drop 8)

def State.runArrive (s : State) (i : Iss) : State :=
  s.drained i fun s =>
    if 0xA ≤ dOpc i.w ∨ 32 < dWords i.w then s.faultAt i 0x02
    else
      match s.payloadWords i with
      | .error e => s.failWith i e
      | .ok b =>
        s.onObject i (fun s p => (s.arrive p (dOpc i.w) (wordsOf (dWords i.w) b)).syncDone i)
          fun dest => syncAsk i dest (s.objAop i) (syncAux 2 (dOpc i.w) (dWords i.w)) b (.sync i.key)

def execArrive (t : Fin 256) (n : Fin 16) (w : Desc) (s : State) : Result := .next (s.issue t n w 0x22 anySub fun i s => s.runArrive i)

def execFence (t : Fin 256) (n : Fin 16) (w : Desc) (s : State) : Result :=
  .next (s.issue t n w 0x23 anySub fun i s => s.drained i fun s => s.syncDone i)

def execSyncRead (t : Fin 256) (n : Fin 16) (w : Desc) (s : State) : Result :=
  .next (s.issue t n w 0x24 anySub fun i s =>
    s.onObject i (fun s p => (s.setIx i.t i.n (dVreg i.w) (s.reg p)).syncDone i)
      fun dest => syncAsk i dest (s.objAop i) (syncAux 3 0 0) [] (.syncRead i.key (dVreg i.w)))

/-! ### Flow (R38, R503) -/

/-- Does a loop's body contain the descriptor at offset `a`? -/
def LoopFrame.holds (f : LoopFrame) (a : Nat) : Bool := (2 ^ 40 + a - f.first) % 2 ^ 40 < (2 ^ 40 + f.stop - f.first) % 2 ^ 40

/-- The loops left running by a branch to offset `a`, innermost first. -/
def loopsAt (l : List LoopFrame) (a : Nat) : List LoopFrame := l.dropWhile fun f => !f.holds a

/-- A flow descriptor has completed, and the thread goes on at `a`. -/
def State.goTo (s : State) (i : Iss) (a : Nat) : State :=
  ((s.setFld (F.threadStatus.state i.t i.n) 1).setReg (R.threadPc i.t i.n) (BitVec.ofNat 64 a)).signalDone i.t i.w

/-- A flow descriptor has completed, and the thread goes on at `a`, where loops may end. -/
def State.goBehind (s : State) (i : Iss) (a : Nat) (l : List LoopFrame) : State :=
  ((s.setFld (F.threadStatus.state i.t i.n) 1).arriveAt i.t i.n a l).signalDone i.t i.w

/-- A taken `BRANCH` or a `JUMP`. -/
def State.jump (s : State) (i : Iss) : State :=
  let a := pcPlus i.pc (dTarget i.w)
  (s.modThread i.key fun th => { th with loops := loopsAt th.loops (a % 2 ^ 40) }).goTo i a

def State.branchOn (s : State) (i : Iss) (taken : Bool) : State := if taken then s.jump i else s.syncDone i

/-- A flag of a thread by number (Table 2.10). -/
def State.threadFlag (s : State) (t n k : Nat) : Bool := (s.reg (R.threadStatus t n)).getLsbD (13 + k)

def State.runBranch (s : State) (i : Iss) : State :=
  let sel := dSel i.w
  let v := s.ix i.t i.n (dNum i.w)
  if 5 ≤ sel ∨ (sel = 0 ∧ 6 ≤ dCond i.w) ∨ ((sel = 1 ∨ sel = 2) ∧ 4 ≤ dNum i.w) then s.faultAt i 0x02
  else
    match sel with
    | 0 =>
      s.onObject i (fun s p => s.branchOn i (waitHolds (dCond i.w) (s.reg p) v))
        fun dest => syncAsk i dest (s.objAop i) (syncAux 3 0 0) [] (.branchTest i.key i.w)
    | 1 => s.branchOn i (s.threadFlag i.t i.n (dNum i.w))
    | 2 => s.branchOn i (!s.threadFlag i.t i.n (dNum i.w))
    | 3 => s.branchOn i (v == 0)
    | _ => s.branchOn i (v != 0)

def State.runLoop (s : State) (i : Iss) : State :=
  if dBody i.w = 0 then s.faultAt i 0x02
  else if 4 ≤ (s.thread i.key).loops.length then s.faultAt i 0x08
  else
    let after := pcPlus i.pc (1 + dBody i.w)
    if dLoopCount i.w = 0 then
      s.goBehind i after (s.thread i.key).loops
    else
      let f : LoopFrame :=
        { first := pcPlus i.pc 1 % 2 ^ 40, stop := after % 2 ^ 40, left := dLoopCount i.w, ixa := dIxa i.w, inca := dInca i.w,
          ixb := dIxb i.w, incb := dIncb i.w }
      (s.modThread i.key fun th => { th with loops := f :: th.loops }).goTo i (pcPlus i.pc 1)

def State.runCall (s : State) (i : Iss) : State :=
  let th := s.thread i.key
  if 4 ≤ th.calls.length then s.faultAt i 0x06
  else (s.setThread i.key { th with calls := pcPlus i.pc 1 :: th.calls }).goTo i (pcPlus i.pc (dTarget i.w))

def State.runReturn (s : State) (i : Iss) : State :=
  let th := s.thread i.key
  match th.calls with
  | [] => s.faultAt i 0x07
  | a :: rest => (s.setThread i.key { th with calls := rest }).goBehind i a th.loops

/-- `HALT`: the thread stops; it is idle at once when nothing is outstanding (R37). -/
def State.runHalt (s : State) (i : Iss) : State :=
  let s := (((s.advance i).hold i).modThread i.key fun th => { th with ending := .halt }).setFld (F.threadStatus.state i.t i.n) 7
  if (s.thread i.key).pend = [] then s.goIdle i.t i.n else s

def execLoop (t : Fin 256) (n : Fin 16) (w : Desc) (s : State) : Result := .next (s.issue t n w 0x28 anySub fun i s => s.runLoop i)
def execBranch (t : Fin 256) (n : Fin 16) (w : Desc) (s : State) : Result := .next (s.issue t n w 0x29 anySub fun i s => s.runBranch i)
def execJump (t : Fin 256) (n : Fin 16) (w : Desc) (s : State) : Result := .next (s.issue t n w 0x2A anySub fun i s => s.jump i)
def execCall (t : Fin 256) (n : Fin 16) (w : Desc) (s : State) : Result := .next (s.issue t n w 0x2B anySub fun i s => s.runCall i)
def execRet (t : Fin 256) (n : Fin 16) (w : Desc) (s : State) : Result := .next (s.issue t n w 0x2C anySub fun i s => s.runReturn i)
def execHalt (t : Fin 256) (n : Fin 16) (w : Desc) (s : State) : Result := .next (s.issue t n w 0x2D anySub fun i s => s.runHalt i)
/-- `YIELD` moves the thread to the end of the round robin, as every issue does (R28). -/
def execYield (t : Fin 256) (n : Fin 16) (w : Desc) (s : State) : Result := .next (s.issue t n w 0x2E anySub fun i s => s.syncDone i)
def execNop (t : Fin 256) (n : Fin 16) (w : Desc) (s : State) : Result := .next (s.issue t n w 0x2F anySub fun i s => s.syncDone i)

/-! ### Index registers, time, trace, event (R37, R426) -/

def execIxSet (t : Fin 256) (n : Fin 16) (w : Desc) (s : State) : Result :=
  .next (s.issue t n w 0x30 anySub fun i s => (s.setIx i.t i.n (dDst i.w) (dImm i.w)).syncDone i)

def execIxAdd (t : Fin 256) (n : Fin 16) (w : Desc) (s : State) : Result :=
  .next (s.issue t n w 0x31 anySub fun i s => (s.setIx i.t i.n (dDst i.w) (s.ix i.t i.n (dSrc i.w) + dImm i.w)).syncDone i)

def State.runIxLoad (s : State) (i : Iss) : State :=
  match s.ctxRead i.c (s.aop i.t i.n i.w 48) 8 with
  | .error e => s.failWith i e
  | .ok b => (s.setIx i.t i.n (dDst i.w) (BitVec.ofNat 64 (leNat b))).syncDone i

def execIxLoad (t : Fin 256) (n : Fin 16) (w : Desc) (s : State) : Result := .next (s.issue t n w 0x32 anySub fun i s => s.runIxLoad i)

def execTime (t : Fin 256) (n : Fin 16) (w : Desc) (s : State) : Result :=
  .next (s.issue t n w 0x3A anySub fun i s => (s.setIx i.t i.n (dDst i.w) (s.reg R.larkTime)).syncDone i)

/-- A trace record, which F5 captures while it runs and capture is on (R355, R359). -/
def State.traceOut (s : State) (i : Iss) : State :=
  if s.boot.trace && s.coreRuns 5 then s.send (.trace i.t i.n (dImm i.w) s.now) else s

def execTrace (t : Fin 256) (n : Fin 16) (w : Desc) (s : State) : Result :=
  .next (s.issue t n w 0x3B anySub fun i s => (s.traceOut i).syncDone i)

def execEvent (t : Fin 256) (n : Fin 16) (w : Desc) (s : State) : Result :=
  .next (s.issue t n w 0x3C anySub fun i s =>
    (s.raise (bitsAt i.w 48 16) 0 0x0C (threadUnit i.t i.n i.c) (bitsAt i.w 0 48) [] 2).syncDone i)

end Sys2Proof.Machine
end

