-- ==== Sys2Proof/Machine/RootMath.lean ====
section
/-! DEFINITION. The arithmetic of a root engine: products, trace, the Newton path and the Cholesky path (R165, R167, R174 to
R178). Matrices are lists of rows of FP32. -/

namespace Sys2Proof.Machine

/-! ### Products and elementwise work (R167) -/

def colOf (m : List (List F32)) (j : Nat) : List F32 := m.map fun r => r.getD j 0
def cellOf (m : List (List F32)) (i j : Nat) : F32 := (m.getD i []).getD j 0

/-- The sum of exact products in ascending order with a 40-bit significand. -/
def dot40 (a b : List F32) : FVal := sum40 (List.zipWith (fun x y => mulVal (valF32 x) (valF32 y)) a b)

/-- The product of two n × n matrices, each element rounded once to FP32. -/
def matMul (n : Nat) (a b : List (List F32)) : List (List F32) :=
  let cols := (upto n).map (colOf b)
  a.map fun r => cols.map fun c => toF32 (dot40 r c)

/-- Build a matrix element by element. -/
def matOf (n : Nat) (f : Nat → Nat → F32) : List (List F32) := (upto n).map fun i => (upto n).map fun j => f i j

def scaledEye (n : Nat) (v : F32) : List (List F32) := matOf n fun i j => if i = j then v else 0

def allFinite (m : List (List F32)) : Bool := m.all fun r => r.all f32IsFinite

/-- (x + xᵀ) × 0.5 (R175). -/
def symOf (n : Nat) (x : List (List F32)) : List (List F32) := matOf n fun i j => f32Mul (f32Add (cellOf x i j) (cellOf x j i)) f32Half

/-! ### Correctly rounded quotients and roots -/

/-- A value divided by a positive number, rounded once to FP32. -/
def divNat (v : FVal) (n : Nat) : F32 :=
  match v with
  | .fin neg m e => let q := ratDy m n e; toF32 (.fin neg q.1 q.2)
  | w => toF32 w

/-- √(v / n) rounded once to FP32, for v ≥ 0. -/
def sqrtDivNat (v : FVal) (n : Nat) : F32 :=
  match v with
  | .fin neg m e => if neg ∧ m ≠ 0 then canonNaN else let r := sqrtDy m n e; toF32 (.fin false r.1 r.2)
  | .inf neg => if neg then canonNaN else f32PosInf
  | .nan _ => canonNaN

/-- (m × 2^e)^(−1/4) as a dyadic with a sticky bit, for m > 0. -/
def quarterDy (m : Nat) (e : Int) : Nat × Int :=
  let x : Nat := (-e % 4).toNat
  let k := 4 * (bitLen m / 4 + 34) + x
  let q := 2 ^ k / m
  let r := isqrt (isqrt q)
  let sticky := if r * r * (r * r) * m = 2 ^ k then 0 else 1
  (2 * r + sticky, (-e - k) / 4 - 1)

/-- v^(−1/p) correctly rounded to FP32 (R175), for positive finite v. -/
def powNeg (v : FVal) (p : Nat) : F32 :=
  match v with
  | .fin _ m e =>
    if m = 0 then f32PosInf
    else
      let r := if p = 4 then quarterDy m e else if p = 2 then sqrtDy 1 m (-e) else ratDy 1 m (-e)
      toF32 (.fin false r.1 r.2)
  | .inf _ => 0
  | .nan _ => canonNaN

/-- Is a value a finite one of at least 2^−126? -/
def f32Normal (t : F32) : Bool := f32IsFinite t && !t.getLsbD 31 && 0x00800000 ≤ t.toNat

/-- The fallback scale from t = tr / n (R165). -/
def fallbackScale (t : F32) (p : Nat) : F32 := if f32Normal t then powNeg (valF32 t) p else f32One

/-- a ≤ b for FP32 values that are no NaN. -/
def f32Le (a b : F32) : Bool := !f32IsNaN a && !f32IsNaN b && f32Rank (if a = f32NegZero then 0 else a) ≤ f32Rank b

/-! ### Trace and damping (R174) -/

def traceOf (n : Nat) (a : List (List F32)) : F32 := divNat (sum40 ((upto n).map fun i => valF32 (cellOf a i i))) n

/-- δ × t added to every diagonal element. -/
def damp (n : Nat) (a : List (List F32)) (delta t : F32) : List (List F32) :=
  matOf n fun i j => if i = j then f32Add (cellOf a i j) (f32Mul delta t) else cellOf a i j

/-! ### The Newton path (R175, R176) -/

/-- The normalised residual of M. -/
def residual (n : Nat) (m : List (List F32)) : F32 :=
  let sq := (upto n).flatMap fun i => (upto n).map fun j =>
    let d := valF32 (f32Sub (cellOf m i j) (if i = j then f32One else 0))
    mulVal d d
  sqrtDivNat (sum40 sq) n

/-- 1, 2, 3 or 5 and the reciprocals of p as FP32. -/
def f32OfNat (k : Nat) : F32 := toF32 (.fin false k 0)

/-- What the iteration ends with: X when every element is finite, the iterations, the last residual, and code 0, 1 or 3. -/
structure NewtonOut where
  x : List (List F32)
  iters : Nat
  resid : F32
  code : Nat
  deriving DecidableEq, Repr

/-- The coupled iteration: `fuel` iterations left, `k` done. -/
def newtonLoop (n p : Nat) (a : List (List F32)) (tol : F32) : Nat → Nat → F32 → List (List F32) → NewtonOut
  | 0, k, r, x => { x := symOf n x, iters := k, resid := r, code := 1 }
  | fuel + 1, k, _, x =>
    let h := if p = 2 then x else matMul n x x
    let m := matMul n (matMul n h a) h
    let r := residual n m
    let q := f32Div f32One (f32OfNat p)
    let tm := matOf n fun i j => f32Mul (f32Sub (if i = j then f32OfNat (p + 1) else 0) (cellOf m i j)) q
    let x := matMul n x tm
    if ¬ (allFinite x ∧ allFinite m ∧ f32IsFinite r) then { x := [], iters := k + 1, resid := r, code := 3 }
    else if f32Le r tol then { x := symOf n x, iters := k + 1, resid := r, code := 0 }
    else newtonLoop n p a tol fuel (k + 1) r x

/-- The start value of a cold start: ((1 + δ) t)^(−1/p), the product taken exactly. -/
def coldStart (p : Nat) (delta t : F32) : F32 := powNeg (mulVal (valF32 t) (addVal (valF32 f32One) (valF32 delta))) p

/-! ### The Cholesky path (R177) -/

/-- a − Σ, the sum with a 40-bit significand, the difference rounded once. -/
def subSum (a : F32) (xs ys : List F32) : F32 := toF32 (addVal (valF32 a) (negVal (dot40 xs ys)))

/-- One column of L: the rows so far (each of j elements) get element j; rows above j are left alone. Counts a floored pivot. -/
def choleskyCol (a : List (List F32)) (floor : F32) (j : Nat) (st : List (List F32) × Nat) : List (List F32) × Nat :=
  let l := st.1
  let lj := l.getD j []
  let d := subSum (cellOf a j j) lj lj
  let low := f32IsNaN d || f32Le d 0 || !f32Le floor d
  let d := if low then floor else d
  let ljj := f32Sqrt d
  (l.zipIdx.map fun e =>
    if e.2 < j then e.1
    else if e.2 = j then e.1 ++ [ljj]
    else e.1 ++ [f32Div (subSum (cellOf a e.2 j) e.1 lj) ljj],
   st.2 + if low then 1 else 0)

/-- L as rows of growing length, and the number of floored pivots. -/
def choleskyFactor (n : Nat) (a : List (List F32)) (floor : F32) : List (List F32) × Nat :=
  (upto n).foldl (fun st j => choleskyCol a floor j st) ((upto n).map fun _ => [], 0)

/-- Column j of L⁻¹ by forward substitution: elements j to n − 1. -/
def inverseCol (l : List (List F32)) (n j : Nat) : List F32 :=
  ((upto n).drop j).foldl (fun col i =>
    let li := l.getD i []
    let d := li.getD i 0
    if i = j then [f32Div f32One d]
    else col ++ [f32Div (subSum 0 ((li.drop j).take (i - j)) col) d]) []

/-- L⁻ᵀ L⁻¹ symmetrised, and the number of floored pivots. -/
def choleskyRoot (n : Nat) (a : List (List F32)) (floor : F32) : List (List F32) × Nat :=
  let f := choleskyFactor n a floor
  let cols := (upto n).map fun j => (upto j).map (fun _ => (0 : F32)) ++ inverseCol f.1 n j
  let inv := matOf n fun i j => cellOf cols j i
  (symOf n (matMul n cols inv), f.2)

end Sys2Proof.Machine
end

