-- ==== Sys2Proof/Machine/Roots.lean ====
section
/-! DEFINITION. Root schedules, layer tables and root slots in memory, the root engines and their queues, and the start of a
refresh (R169 to R181, R184, R187). -/

namespace Sys2Proof.Machine

/-! ### Structures in memory -/

/-- The layer table entry of layer `l` (R173). -/
def State.layerAt (s : State) (c l : Nat) : Nat := s.obj (O.rootLayerTable c) + 64 * l
def State.layerSched (s : State) (c l : Nat) : Nat := s.physNat (s.layerAt c l) 8
def State.layerState (s : State) (c l : Nat) : Nat := s.physNat (s.layerAt c l + 8) 1
def State.layerAge (s : State) (c l : Nat) : Nat := s.physNat (s.layerAt c l + 9) 1
def State.layerSel (s : State) (c l : Nat) : Nat := s.physNat (s.layerAt c l + 10) 1
def State.layerUse (s : State) (c l : Nat) : Nat := s.physNat (s.layerAt c l + 11) 1
def State.layerHash (s : State) (c l : Nat) : Nat := s.physNat (s.layerAt c l + 12) 4
def State.layerFallback (s : State) (c l : Nat) : Nat := s.physNat (s.layerAt c l + 16) 8
def State.setLayerState (s : State) (c l v : Nat) : State := s.setPhysNat (s.layerAt c l + 8) 1 v
def State.setLayerAge (s : State) (c l v : Nat) : State := s.setPhysNat (s.layerAt c l + 9) 1 v
def State.setLayerSel (s : State) (c l v : Nat) : State := s.setPhysNat (s.layerAt c l + 10) 1 v
def State.setLayerUse (s : State) (c l v : Nat) : State := s.setPhysNat (s.layerAt c l + 11) 1 v
def State.setLayerHash (s : State) (c l v : Nat) : State := s.setPhysNat (s.layerAt c l + 12) 4 v

/-- Layers present on this module: `SCHED` not 0 in a layer table that is set (R173). -/
def State.layers (s : State) (c : Nat) : List Nat :=
  if s.obj (O.rootLayerTable c) = 0 then [] else (upto 2048).filter fun l => s.layerSched c l != 0

/-- Preconditioning is on for context `c` (R188, R1). -/
def State.precondOn (s : State) (c : Nat) : Bool := s.obj (O.rootPrecondEn c) != 0

/-- Header fields of a schedule (Table 7.7), and its block records. -/
def State.schedHash (s : State) (h : Nat) : Nat := s.physNat (h + 4) 4
def State.schedP (s : State) (h : Nat) : Nat := s.physNat (h + 8) 1
def State.schedBlocks (s : State) (h : Nat) : Nat := s.physNat (h + 10) 2
def recordAt (h i : Nat) : Nat := h + 64 + 64 * i

/-- Record fields (Table 7.8). -/
def State.recBlock (s : State) (r : Nat) : Nat := s.physNat r 2
def State.recSide (s : State) (r : Nat) : Nat := s.physNat (r + 2) 1
def State.recEngine (s : State) (r : Nat) : Nat := s.physNat (r + 3) 1 % 4
def State.recOwner (s : State) (r : Nat) : Nat := s.physNat (r + 4) 4
def State.recN (s : State) (r : Nat) : Nat := s.physNat (r + 8) 2
def State.recPieces (s : State) (r : Nat) : Nat := s.physNat (r + 10) 1
def State.recUsers (s : State) (r : Nat) : Nat := s.physNat (r + 11) 1

/-- The user list of a record (Table 7.10). -/
def State.usersOf (s : State) (r : Nat) : List RootUser :=
  let base := s.physNat (r + 0x20) 8
  (upto (s.recUsers r)).map fun k =>
    let a := base + 16 * k
    { coord := s.physNat a 4, lo := s.physNat (a + 4) 2, hi := s.physNat (a + 6) 2, slot := s.physNat (a + 8) 8 }

/-- The structure hash of the schedule at `h` (R172). -/
def State.structHash (s : State) (h : Nat) : Nat :=
  let blocks := (upto (s.schedBlocks h)).map (recordAt h)
  let bytes := leBytes 1 (s.schedP h) ++ leBytes 2 blocks.length ++ blocks.flatMap fun r =>
    leBytes 1 (s.recSide r) ++ leBytes 2 (s.recN r) ++ leBytes 1 (s.recPieces r)
      ++ (upto (s.recPieces r)).flatMap fun k =>
        let a := s.physNat (r + 0x18) 8 + 16 * k
        leBytes 2 (s.physNat a 2) ++ leBytes 2 (s.physNat (a + 2) 2)
  (crc32c bytes).toNat

/-- Every schedule of a context carries the hash F3 recomputes (R172). -/
def State.hashesHold (s : State) (c : Nat) : Bool := (s.layers c).all fun l => s.structHash (s.layerSched c l) == s.schedHash (s.layerSched c l)

/-- The layer whose schedule holds the block record at `r`. -/
def State.layerOfRecord (s : State) (c r : Nat) : Option Nat :=
  (s.layers c).find? fun l =>
    let h := s.layerSched c l
    recordAt h 0 ≤ r && r < recordAt h (s.schedBlocks h) && (r - h) % 64 == 0

/-! ### Events (R189) -/

/-- Raise `ROOT_STALE` (Table 7.15). -/
def State.rootStale (s : State) (c layer warning reason block age : Nat) : State :=
  s.raise 0x1005 (if warning = 0 then 0 else 2) 0x08 c
    (layer + 2 ^ 11 * c + 2 ^ 14 * warning + 2 ^ 16 * reason + 2 ^ 20 * (block % 2 ^ 16) + 2 ^ 36 * (age % 256))

/-- A fault of engine `e` (R170, Tables 7.5 and 16.7a): it stops until its function reset. -/
def State.rootFault (s : State) (e code ctx record : Nat) : State :=
  let s := (s.setFld (F.rootFault.code e) code).setFld (F.rootFault.record e) record
  (s.setFld (F.rootStatus.state e) 6).raise 0x100A 2 0x08 e (code + 2 ^ 4 * (ctx % 8) + 2 ^ 7 * (record % 2 ^ 40))

/-! ### The queue (R170, Table 7.6) -/

/-- `STATE` of an engine (Table 7.4): abandoned writes show until they are acknowledged; then the block in progress, then write-outs. -/
def State.rootShown (s : State) (e : Nat) : Nat :=
  let r := s.root e
  if s.fld (F.rootStatus.state e) = 6 then 6
  else if r.acks.any (·.dropped) then 7
  else
    match r.cur with
    | some b => if b.result.isNone then 1 else if b.p = 1 then 3 else 2
    | none => if r.acks ≠ [] then 4 else if s.bit (F.rootCtl.enable e) then 0 else 5

def State.rootShow (s : State) (e : Nat) : State := s.setFld (F.rootStatus.state e) (s.rootShown e)

/-- The engine's unit is ready and it has not faulted. -/
def State.rootUsable (s : State) (e : Nat) : Bool := (s.fld F.unitReady.root).testBit e && s.fld (F.rootStatus.state e) != 6

/-- Entries between head and tail. -/
def State.rootQueued (s : State) (e : Nat) : Nat :=
  let n := s.fld (F.rootQueueSize.val e)
  if n = 0 then 0 else (s.fld (F.rootQueueTail.val e) + n - s.fld (F.rootQueueHead.val e) % n) % n

def State.queueEntryAt (s : State) (e i : Nat) : Nat := (s.reg (R.rootQueueBase e)).toNat % 2 ^ 40 + 32 * i

/-- The bytes of an entry, and the entry bytes spell. -/
def RootEntry.bytes (x : RootEntry) : List Byte :=
  leBytes 8 (x.record % 2 ^ 40 + 2 ^ 40 * (x.ctx % 8) + (if x.force then 2 ^ 43 else 0)) ++ leBytes 8 (x.prev % 2 ^ 40)
    ++ leBytes 8 (x.pend % 2 ^ 40) ++ leBytes 8 (x.cap % 256)

def entryOf (l : List Byte) : RootEntry :=
  { record := natAt l 0 8 % 2 ^ 40, ctx := natAt l 0 8 / 2 ^ 40 % 8, force := (natAt l 0 8).testBit 43, prev := natAt l 8 8 % 2 ^ 40,
    pend := natAt l 16 8 % 2 ^ 40, cap := natAt l 24 1 }

/-- The entries between head and tail that are not to be skipped. -/
def State.queuedEntries (s : State) (e : Nat) : List RootEntry :=
  let n := s.fld (F.rootQueueSize.val e)
  let h := s.fld (F.rootQueueHead.val e)
  ((upto (s.rootQueued e)).map fun k => (h + k) % n).filterMap fun i =>
    if (s.root e).skips.contains i then none else some (entryOf ((upto 32).map fun j => s.dataByte (s.queueEntryAt e i + j)))

/-- F3 does the work of context `c`: it runs, and since a restart it has seen a step boundary of the context (R22, R186). -/
def State.rootsRun (s : State) (c : Nat) : Bool := s.coreRuns 3 && !(s.ctx c).f3Out

/-- F3 queues what it holds back while it runs and there is room; an entry index always stays free, since head = tail means empty. -/
def State.rootFeed (s : State) (e : Nat) : Nat → State
  | 0 => s
  | fuel + 1 =>
    match (s.root e).backlog with
    | [] => s
    | x :: rest =>
      let n := s.fld (F.rootQueueSize.val e)
      if n ≤ s.rootQueued e + 1 ∨ ¬ s.rootsRun x.ctx then s
      else
        let t := s.fld (F.rootQueueTail.val e) % n
        let s := (s.modRoot e fun r => { r with backlog := rest }).storeHeal (s.queueEntryAt e t) x.bytes
        (s.setFld (F.rootQueueTail.val e) ((t + 1) % n)).rootFeed e fuel

/-- F3 goes on queuing what it holds back, on every engine. -/
def State.rootsFeed (s : State) : State := forEach (upto 4) (fun s e => s.rootFeed e 1024) s

/-- F3 sets `ENABLE` of an engine whose unit is ready, once after each reset of it (R170). -/
def State.rootReady (s : State) (e : Nat) : State :=
  if s.coreRuns 3 ∧ (s.fld F.unitReady.root).testBit e ∧ (s.root e).enableDue then
    ((s.setBit (F.rootCtl.enable e) true).modRoot e fun r => { r with enableDue := false }).rootFeed e 1024
  else s

/-- F3 queues an entry on engine `e` and keeps its record (R187). -/
def State.rootEnqueue (s : State) (e : Nat) (x : RootEntry) : State :=
  (s.modRoot e fun r => { r with held := r.held ++ [x], backlog := r.backlog ++ [x] }).rootFeed e 1

/-- Drop the first record equal to `x`. -/
def dropHeld (l : List RootEntry) (x : RootEntry) : List RootEntry := l.erase x

/-- Blocks in flight on engine `e` (R182): queued and not complete, be it in F3's hands, in the queue, in progress, being written out, or
left by a fault. -/
def State.inFlight (s : State) (e : Nat) : List RootEntry := (s.root e).held ++ s.queuedEntries e

/-! ### Control writes (R170, Table 7.3) -/

/-- Set or clear `ENABLE`; an engine with nothing in hand shows it. -/
def State.rootEnable (s : State) (e : Nat) (v : Bool) : State :=
  let s := s.setBit (F.rootCtl.enable e) v
  if s.rootUsable e then s.rootShow e else s

/-- `DRAIN`: `ENABLE` clears once the block in progress is finished. -/
def State.rootDrain (s : State) (e : Nat) : State :=
  if (s.root e).cur.isNone ∧ (s.root e).acks = [] then s.rootEnable e false else s.modRoot e fun r => { r with draining := true }

/-- `ABANDON` of context `c`: the block in progress is given up, queued entries of the context are skipped; the engine reads 7 until
outstanding writes have been acknowledged (R170). -/
def State.rootAbandon (s : State) (e c : Nat) : State :=
  let s := s.setFld (F.rootCtl.ctxSel e) c
  let n := s.fld (F.rootQueueSize.val e)
  let h := s.fld (F.rootQueueHead.val e)
  let skips := ((upto (s.rootQueued e)).map fun k => (h + k) % n).filter fun i =>
    (entryOf ((upto 32).map fun j => s.dataByte (s.queueEntryAt e i + j))).ctx == c
  let r := s.root e
  let dropCur : Bool := match r.cur with | some b => b.entry.ctx == c | none => false
  let acks := (r.acks.map fun a => if a.entry.ctx = c then { a with dropped := true } else a).filter fun a => !(a.dropped && a.tids == [])
  let s := s.setRoot e
    { r with
      held := r.held.filter fun x => x.ctx != c, backlog := r.backlog.filter fun x => x.ctx != c, acks := acks
      cur := if dropCur then none else r.cur, skips := r.skips ++ skips.filter fun i => !r.skips.contains i }
  let s := if dropCur ∨ (r.cur.isNone ∧ acks = []) then s.setReg (R.rootCurRecord e) 0 else s
  if s.rootUsable e then s.rootShow e else s

def execRootEnable (e : Fin 4) (s : State) : Result := .next (if (s.fld F.unitReady.root).testBit e then s.rootEnable e true else s)
def execRootDrain (e : Fin 4) (s : State) : Result := .next (if (s.fld F.unitReady.root).testBit e then s.rootDrain e else s)
def execRootAbandon (e : Fin 4) (c : Fin 8) (s : State) : Result :=
  .next (if (s.fld F.unitReady.root).testBit e then (s.rootAbandon e c).dmaWake else s)
def execRootQueueTailWrite (e : Fin 4) (v : BitVec 10) (s : State) : Result :=
  .next (if (s.fld F.unitReady.root).testBit e then s.setFld (F.rootQueueTail.val e) v.toNat else s)

/-! ### A block (R170) -/

/-- The n × n FP32 matrix in bytes, row-major. -/
def matrixOf (n : Nat) (l : List Byte) : List (List F32) := matOf n fun i j => BitVec.ofNat 32 (natAt l (4 * (i * n + j)) 4)

/-- Bytes that all lie in Thermos. -/
def onThermos (off n : Nat) : Bool :=
  match placeOf off, placeOf (off + n - 1) with
  | .thermos _ _, .thermos _ _ => true
  | _, _ => false

/-- Read bytes as an engine does: an error response is none. It reads Thermos only (R167; DESIGN CHOICE, log entry 127: another offset is answered with
an error response). -/
def State.rootRead (s : State) (off n : Nat) : Option (List Byte) := if onThermos off n then s.readData off n else none

/-- The first of some pieces an engine cannot read. -/
def State.rootUnread (s : State) (l : List (Nat × Nat)) : Option (Nat × Nat) := l.find? fun a => (s.rootRead a.1 a.2).isNone

/-- An engine's read is answered with an error response (Table 7.5). -/
def State.rootReadFails (s : State) (e c r : Nat) (a : Nat × Nat) : State := (s.noteBadRead a.1 a.2).rootFault e 1 c r

/-- `n` bytes at `off`. -/
def State.bytesAt (s : State) (off n : Nat) : List Byte := (upto n).map fun k => s.dataByte (off + k)

/-- Take queue entries up to the first that is not to be skipped. -/
def State.rootTake (s : State) (e : Nat) : Nat → Option Nat × State
  | 0 => (none, s)
  | fuel + 1 =>
    if s.rootQueued e = 0 then (none, s)
    else
      let i := s.fld (F.rootQueueHead.val e)
      let s := s.setFld (F.rootQueueHead.val e) ((i + 1) % s.fld (F.rootQueueSize.val e))
      if (s.root e).skips.contains i then (s.modRoot e fun r => { r with skips := r.skips.filter (· != i) }).rootTake e fuel
      else (some i, s)

/-- The previous root of a warm start and whether the block record accepts it (R181): `inl` is the reason of the rejection. -/
def prevOf (hdr : List Byte) (hash n : Nat) (mat : List Byte) : Nat ⊕ (Nat × F32 × List (List F32)) :=
  if natAt hdr 4 4 ≠ hash then .inl 0
  else if natAt hdr 2 2 ≠ n then .inl 1
  else .inr (natAt hdr 0 1, BitVec.ofNat 32 (natAt hdr 0x10 4), matrixOf n mat)

/-- The engine has its inputs: the block is in progress, in copy-in. -/
def State.rootBegin (s : State) (e : Nat) (b : RootBlock) : State :=
  let s := s.modRoot e fun r => { r with cur := some b }
  let s := (s.rootShow e).setFld (F.rootStatus.ctx e) b.entry.ctx
  let s := s.setFld (F.rootStatus.cold e) (if b.prev.isNone then 1 else 0)
  (s.setReg (R.rootCurRecord e) (BitVec.ofNat 64 b.entry.record)).setReg (R.rootCurProgress e) 0

/-- Where the scratch of engine `e` lies (R64, R169). -/
def scratchAt (e : Nat) : Nat := R.rootCtl e + 0x800000

/-- The 4n² bytes of scratch buffer `k`. DESIGN CHOICE, log entry 114: buffer 0 holds the block as it is copied in, buffer 1 the previous
root, then the result; what the other two hold is free. -/
def scratchBuf (e n k : Nat) : Nat := scratchAt e + k * (4 * (n * n))

/-- The bytes of a matrix, row-major. -/
def matrixBytes (m : List (List F32)) : List Byte := m.flatMap fun row => row.flatMap fun x => leBytes 4 x.toNat

/-- The scratch while the block computes. -/
def State.scratchResult (s : State) (e : Nat) (b : RootBlock) (r : RootResult) : State :=
  let (l, s) := s.freeList (2 * (b.n * b.n))
  (s.storeHeal (scratchBuf e b.n 1) (matrixBytes r.rows)).storeHeal (scratchBuf e b.n 2) (l.flatMap fun x => leBytes 4 x.toNat)

/-- Copy in what entry `x` names (steps 1 to 3); F3 keeps its record until the block is complete. -/
def State.rootCopyIn (s : State) (e : Nat) (x : RootEntry) : State :=
  let s := s.modRoot e fun r => { r with held := if r.held.contains x then r.held else r.held ++ [x] }
  let r := x.record
  match s.rootUnread [(r, 64)], s.layerOfRecord x.ctx r with
  | some a, _ => s.rootReadFails e x.ctx r a
  | none, none => s.rootFault e 3 x.ctx r
  | none, some l =>
    let h := s.layerSched x.ctx l
    match s.rootUnread [(s.layerAt x.ctx l, 64), (h, 64)] with
    | some a => s.rootReadFails e x.ctx r a
    | none =>
      let n := s.recN r
      let p := s.schedP h
      if n = 0 ∨ 512 < n ∨ s.recPieces r = 0 ∨ 16 < s.recPieces r ∨ s.recUsers r = 0 ∨ 64 < s.recUsers r
          ∨ ¬ (p = 1 ∨ p = 2 ∨ p = 4) then s.rootFault e 3 x.ctx r
      else
        let t := (s.reg (R.sweepStep x.ctx)).toNat
        let fa := s.physNat (r + 0x10) 8 + 64 + t % 2 * (4 * (n * n))
        match s.rootUnread [(s.physNat (r + 0x20) 8, 16 * s.recUsers r), (fa, 4 * (n * n))] with
        | some a => s.rootReadFails e x.ctx r a
        | none =>
          let fb := s.bytesAt fa (4 * (n * n))
          let s := s.storeHeal (scratchBuf e n 0) fb
          let b : RootBlock :=
            { entry := x, layer := l, block := s.recBlock r, n := n, p := p, hash := s.schedHash h, step := t,
              sel := s.layerSel x.ctx l, users := s.usersOf r, base := fa, factor := matrixOf n fb }
          if x.force ∨ x.prev = 0 then s.rootBegin e b
          else
            match s.rootUnread [(x.prev, 64), (x.prev + 64, 4 * (n * n))] with
            | some a => s.rootReadFails e x.ctx r a
            | none =>
              let m := s.bytesAt (x.prev + 64) (4 * (n * n))
              let hd := s.bytesAt x.prev 64
              let s := s.storeHeal (scratchBuf e n 1) m
              match prevOf hd b.hash n m with
              | .inr pr => s.rootBegin e { b with prev := some pr }
              | .inl why =>
                (s.raise 0x1008 0 0x08 e (l + 2 ^ 11 * x.ctx + 2 ^ 16 * why + 2 ^ 20 * b.block)).rootBegin e { b with rejected := true }

/-- The engine takes the next queue entry (R170): only while it is enabled, not draining, and nothing is in its scratch. -/
def State.rootStart (s : State) (e : Nat) : State :=
  if ¬ s.rootUsable e ∨ ¬ s.bit (F.rootCtl.enable e) ∨ (s.root e).cur.isSome ∨ (s.root e).draining
      ∨ (s.root e).acks.any (·.dropped) then s
  else
    match (s.rootFeed e 1024).rootTake e 1024 with
    | (none, s) => s
    | (some i, s) =>
      match s.rootRead (s.queueEntryAt e i) 32 with
      | none => s.rootReadFails e 0 0 (s.queueEntryAt e i, 32)
      | some l => (s.rootCopyIn e (entryOf l)).rootFeed e 1024

def execRootBlockStart (e : Fin 4) (s : State) : Result := .next (s.rootStart e)

/-! ### Computing (R174 to R178) -/

/-- What a rejected or discarded block writes: the previous root, or a scaled identity from t. -/
def standIn (b : RootBlock) (t : F32) (r : RootResult) : RootResult :=
  match b.prev with
  | some (mode, scale, rows) => { r with mode := mode, scale := scale, rows := if mode = 1 then rows else [] }
  | none => { r with mode := 2, scale := fallbackScale t b.p, rows := [] }

/-- The Newton path of a block. -/
def newtonResult (b : RootBlock) (a : List (List F32)) (t delta tol accept : F32) : RootResult :=
  let x0 := match b.prev with
    | some (mode, scale, rows) => if mode = 2 then scaledEye b.n scale else rows
    | none => scaledEye b.n (coldStart b.p delta t)
  let o := newtonLoop b.n b.p a tol (if b.prev.isNone then 2 * b.entry.cap else b.entry.cap) 0 canonNaN x0
  let code := if o.code = 1 ∧ ¬ f32Le o.resid accept then 2 else o.code
  let r : RootResult := { mode := 1, result := code, iters := o.iters, resid := o.resid, rows := o.x }
  if code = 2 ∨ code = 3 then standIn b t r else if allFinite o.x then r else standIn b t { r with result := 3 }

/-- The Cholesky path of a block. -/
def choleskyResult (b : RootBlock) (a : List (List F32)) (t pivot : F32) : RootResult :=
  let o := choleskyRoot b.n a (f32Mul pivot t)
  let r : RootResult := { mode := 1, result := 5, floored := o.2, rows := o.1 }
  if allFinite o.1 then r else standIn b t { r with result := 3 }

/-- The result of a block from what it copied in. -/
def State.rootResult (s : State) (b : RootBlock) : RootResult :=
  let c := b.entry.ctx
  let f (k : Nat) : F32 := BitVec.ofNat 32 (s.obj k)
  let t := traceOf b.n b.factor
  if ¬ f32IsFinite t then standIn b t { mode := 2, result := 3 }
  else if ¬ f32Normal t then { mode := 2, result := 4, scale := f32One }
  else
    let a := damp b.n b.factor (f (O.rootDamping c)) t
    if b.p = 1 then choleskyResult b a t (f (O.rootPivotFloor c))
    else newtonResult b a t (f (O.rootDamping c)) (f (O.rootTol c)) (f (O.rootAcceptResid c))

/-- The copy-in is complete: the engine computes (R174). -/
def State.rootCompute (s : State) (e : Nat) : State :=
  match (s.root e).cur with
  | none => s
  | some b =>
    if b.result.isSome ∨ ¬ s.rootUsable e then s
    else
      let r := s.rootResult b
      let s := (s.modRoot e fun x => { x with cur := some { b with result := some r } }).scratchResult e b r
      let s := s.rootShow e
      ((s.setFld (F.rootCurProgress.iters e) r.iters).setFld (F.rootCurProgress.residual e) r.resid.toNat).dmaWake

def execRootCompute (e : Fin 4) (s : State) : Result := .next (s.rootCompute e)

/-! ### Writing out (R178, R179, R189) -/

/-- The 64-byte header of a result (Table 7.11). -/
def slotHeader (b : RootBlock) (r : RootResult) (scale : F32) : List Byte :=
  let flags := (if b.prev.isNone then 1 else 0) + (if b.rejected then 2 else 0) + (if r.floored = 0 then 0 else 4)
  leBytes 1 r.mode ++ leBytes 1 r.result ++ leBytes 2 b.n ++ leBytes 4 b.hash ++ leBytes 8 b.step ++ leBytes 4 scale.toNat
    ++ leBytes 1 r.iters ++ leBytes 1 flags ++ leBytes 2 0 ++ leBytes 4 r.resid.toNat ++ leBytes 36 0

/-- Rows and columns lo to hi − 1 of a result's matrix, as bytes. -/
def resultPart (r : RootResult) (lo hi : Nat) : List Byte :=
  ((r.rows.drop lo).take (hi - lo)).flatMap fun row => ((row.drop lo).take (hi - lo)).flatMap fun x => leBytes 4 x.toNat

/-- Write a result to one place: here, in Thermos (R167; log entry 127), or by a firmware write to another module; its number when it is to be
answered. -/
def State.rootWrite (s : State) (e ctx coord off : Nat) (data : List Byte) : Except Why (State × List Nat) :=
  if coord = s.coord then
    if ¬ onThermos off data.length then .error (.code 0)
    else
      match s.physWrite off data with
      | .ok s => .ok (s, [])
      | .error w => .error w
  else
    let (s, tid) := s.issueXfer { kind := 7, ctx := ctx, tclass := 0, dest := coord, offset := off, len := data.length, data := data, use := .root e }
    .ok (s, [tid])

/-- Write every slot in turn. -/
def State.rootWrites (s : State) (e ctx : Nat) : List (Nat × Nat × List Byte) → List Nat → Except Why (State × List Nat)
  | [], tids => .ok (s, tids)
  | (coord, off, data) :: rest, tids =>
    match s.rootWrite e ctx coord off data with
    | .error w => .error w
    | .ok (s, t) => s.rootWrites e ctx rest (tids ++ t)

/-- The computation ends and its result goes to every user slot and to the owner's pending slot (R179). -/
def State.rootWriteOut (s : State) (e : Nat) : State :=
  match (s.root e).cur with
  | none => s
  | some b =>
    match b.result with
    | none => s
    | some r =>
      if ¬ s.rootUsable e then s
      else
        let c := b.entry.ctx
        let (v, s) := if r.mode = 2 then (r.scale, s) else let (w, s) := s.free; (w.extractLsb' 0 32, s)
        let hdr := slotHeader b r v
        let users := b.users.map fun u => (u.coord, u.slot + (1 - b.sel % 2) * (64 + 4 * ((u.hi - u.lo) * (u.hi - u.lo))), hdr ++ resultPart r u.lo u.hi)
        match s.rootWrites e c (users ++ [(s.coord, b.entry.pend, hdr ++ resultPart r 0 b.n)]) [] with
        | .error _ => s.rootFault e 2 c b.entry.record
        | .ok (s, tids) =>
          let s := s.modRoot e fun x => { x with cur := none, acks := x.acks ++ [{ entry := b.entry, tids := tids }] }
          let s := s.rootShow e
          let s := if r.result = 2 ∨ r.result = 3 then s.rootStale c b.layer 0 r.result b.block (s.layerAge c b.layer) else s
          if r.floored = 0 then s
          else s.raise 0x1006 1 0x08 e (b.layer + 2 ^ 11 * c + 2 ^ 20 * b.block + 2 ^ 36 * min 255 r.floored)

def execRootWriteOut (e : Fin 4) (s : State) : Result := .next (s.rootWriteOut e)

/-- The engine shows what it does once nothing is left of a block. -/
def State.rootSettle (s : State) (e : Nat) : State :=
  if ¬ s.rootUsable e then s
  else if (s.root e).cur.isSome ∨ (s.root e).acks ≠ [] then s.rootShow e
  else
    let s := if (s.root e).draining then (s.modRoot e fun r => { r with draining := false }).setBit (F.rootCtl.enable e) false else s
    (s.setReg (R.rootCurRecord e) 0).rootShow e

/-- A write-out is acknowledged (R170). An abandoned block is over with its last acknowledgement. -/
def State.rootAcked (s : State) (e tid : Nat) : State :=
  let late := (s.root e).acks.any (·.dropped)
  let s := s.modRoot e fun r =>
    { r with acks := (r.acks.map fun a => { a with tids := a.tids.filter (· != tid) }).filter fun a => !(a.dropped && a.tids == []) }
  if late then s.rootSettle e else s

/-- A write-out is answered with an error response: the engine faults (Table 7.5). -/
def State.rootWriteFails (s : State) (e tid : Nat) : State :=
  match (s.root e).acks.find? fun a => a.tids.contains tid with
  | none => s
  | some a =>
    if a.dropped then s.rootAcked e tid
    else (s.modRoot e fun r => { r with acks := r.acks.filter fun x => !x.tids.contains tid }).rootFault e 2 a.entry.ctx a.entry.record

/-- Every write-out of the oldest block is acknowledged: it is complete (R170). -/
def State.rootComplete (s : State) (e : Nat) : State :=
  if ¬ s.rootUsable e then s
  else
    match (s.root e).acks.find? fun a => a.tids == [] && !a.dropped with
    | none => s
    | some a =>
      let s := s.modRoot e fun r => { r with acks := r.acks.erase a, held := dropHeld r.held a.entry }
      let s := s.setReg (R.rootDoneCount e) (s.reg (R.rootDoneCount e) + 1)
      let sig := s.fld (F.rootDoneSignal.val e)
      let s := match placeOf sig with
        | .control t off => if sig ≠ 0 ∧ isCounterOff off ∧ off % 8 = 0 then s.syncAdd (R.syncCount t (objOfOff off)) 1 else s
        | _ => s
      s.rootSettle e

def execRootBlockComplete (e : Fin 4) (s : State) : Result := .next (s.rootComplete e)

/-! ### Refresh (R180) -/

/-- The owner's pair of root slots for the block at `r`: as a user of the whole block it has one in the user list; elsewhere the spec does not
say where it lies (log entry 115). -/
def State.ownerSlots (s : State) (r : Nat) : Nat :=
  match (s.usersOf r).find? fun u => u.coord == s.coord && u.lo == 0 && u.hi == s.recN r with
  | some u => u.slot
  | none => (Config.ownerSlots r).toNat

/-- A context starts: a layer whose entry neither an install nor a checkpoint has filled has had no roots, and is put in `USE` 2 (R184, R187;
DESIGN CHOICE, log entry 127: it is one that reads `USE` 0 with `INSTALLED_HASH` 0, where its schedule's hash is another). -/
def State.rootless (s : State) (c : Nat) : State :=
  forEach ((s.layers c).filter fun l => s.layerUse c l == 0 && s.layerHash c l == 0 && s.schedHash (s.layerSched c l) != 0)
    (fun s l => s.setLayerUse c l 2) s

/-- The owned blocks of a layer, as queue entries of their engines. -/
def State.refreshBlocks (s : State) (c l : Nat) (cold : Bool) : List (Nat × RootEntry) :=
  let h := s.layerSched c l
  ((upto (s.schedBlocks h)).map (recordAt h)).filterMap fun r =>
    if s.recOwner r ≠ s.coord then none
    else
      let n := s.recN r
      let pair := s.ownerSlots r
      let slot (k : Nat) : Nat := pair + k * (64 + 4 * (n * n))
      some (s.recEngine r,
        { record := r, ctx := c, force := cold, prev := if s.layerUse c l = 0 then slot (s.layerSel c l % 2) else 0,
          pend := slot (1 - s.layerSel c l % 2), cap := s.obj (O.rootIterCap c) })

/-- Start the refresh of one layer. -/
def State.refreshLayer (s : State) (c l : Nat) : State :=
  let x := s.ctx c
  let cold := x.forceCold && !x.coldTaken.contains l
  let entries := s.refreshBlocks c l cold
  let s := if x.forceCold then s.modCtx c fun x => { x with coldTaken := if x.coldTaken.contains l then x.coldTaken else l :: x.coldTaken } else s
  forEach entries (fun s e => s.rootEnqueue e.1 e.2) (s.setLayerState c l 1)

/-- Insert a layer by its key, then its number. -/
def insertLayer (key : Nat → Nat) (l : Nat) : List Nat → List Nat
  | [] => [l]
  | m :: rest => if key l < key m ∨ (key l = key m ∧ l < m) then l :: m :: rest else m :: insertLayer key l rest

/-- F3 starts a refresh of every idle layer, in the order of `key` (R180, R186): once after a commit barrier that completed without abort. -/
def State.refresh (s : State) (c : Nat) (key : Nat → Nat) : State :=
  if ¬ s.rootsRun c ∨ ¬ (s.ctx c).refreshDue ∨ ¬ s.precondOn c then s
  else
    let s := s.modCtx c fun x => { x with refreshDue := false }
    forEach (((s.layers c).filter fun l => s.layerState c l == 0).foldr (insertLayer key) []) (fun s l => s.refreshLayer c l) s

end Sys2Proof.Machine
end

