-- ==== Sys2Proof/Machine/Arrive.lean ====
section
/-! DEFINITION. Transfers that arrive: remote accesses at their target, answers at their issuer, shard packets, and the timed
events of an unanswered transfer (R56, R75, R282, R283, R296, R297, R299). -/

namespace Sys2Proof.Machine

/-! ### The lists of arrived and accepted transfers -/

/-- Is it an answer to a transfer? -/
def Arrived.isAnswer (a : Arrived) : Bool := a.kind == 0x02 || a.kind == 0x0B || a.kind == 0x0C

/-- Do two transfers belong to one stream of one module, so that they complete in the order they arrived in (R282)? -/
def Arrived.sameStream (a b : Arrived) : Bool :=
  a.own.isNone && b.own.isNone && a.src == b.src && a.stream == b.stream && a.isAnswer == b.isAnswer

/-- Does no transfer before the one at place `k` have to complete first (R282)? -/
def State.inTurn (s : State) (k : Nat) (a : Arrived) : Bool :=
  !((s.arrived.take k).any a.sameStream) && !(s.accepted.any fun x => a.sameStream x.arrived)

/-- Take the arrived transfer at place `k` when its kind is one of `kinds` and it is its turn. -/
def State.takeArrived (s : State) (k : Nat) (kinds : List Nat) : Option (Arrived × State) :=
  match s.arrived[k]? with
  | none => none
  | some a => if kinds.contains a.kind ∧ s.inTurn k a then some (a, { s with arrived := s.arrived.eraseIdx k }) else none

/-- Run `f` on the arrived transfer at place `k`; one of another kind is no occasion. -/
def State.onArrived (s : State) (k : Nat) (kinds : List Nat) (f : State → Arrived → State) : State :=
  match s.takeArrived k kinds with
  | none => s
  | some (a, s) => f s a

/-- Refuse a remote access (R75): the context counts it, and an error response goes back. -/
def State.refuseRemote (s : State) (a : Arrived) : State := (s.bumpReg (R.remoteRejects a.ctx)).answerTo a 0x0C 0 []

/-- May a context access from another module be looked at: its context runs, the tags agree, and no fence is up (R75, R434)? -/
def State.remoteAllowed (s : State) (a : Arrived) : Bool :=
  (s.ctx a.ctx).running && s.fld (F.ctxJobTag.tag a.ctx) == a.jobTag && s.fld F.fenceStatus.level == 0

/-- The right an access kind needs (Table 3.8). -/
def kindRight (kind : Nat) : Nat :=
  match kind with
  | 1 => rightR
  | 4 => rightR + rightW
  | _ => rightW

/-! ### At the target -/

/-- Translate an arriving context access (R75); a corrupt one is dropped (R266). -/
def State.remoteAccess (s : State) (a : Arrived) : State :=
  if a.poison then s
  else if ¬ s.remoteAllowed a then s.refuseRemote a
  else
    match s.translate a.ctx a.offset (max 1 a.len) (kindRight a.kind) true with
    | .inl _ => s.refuseRemote a
    | .inr p => { s with accepted := s.accepted ++ [{ arrived := a, phys := p }] }

def execRemoteAccessArrival (k : Nat) (s : State) : Result := .next (s.onArrived k [1, 3, 4, 8] fun s a => s.remoteAccess a)

/-- Add arriving FP32 elements into memory, one by one, up to one that fails; was none such? -/
def State.addF32s (s : State) : Nat → Nat → List Byte → State × Bool
  | 0, _, _ => (s, true)
  | n + 1, p, l =>
    match s.addF32At p (l.take 4) with
    | .error _ => (s, false)
    | .ok s => s.addF32s n (p + 4) (l.drop 4)

/-- Move the data of an accepted access and answer it (R282); a read that fails, an atomic add's too, is noted (R430). -/
def State.serve (s : State) (x : Accepted) : State :=
  let a := x.arrived
  if a.kind = 1 then
    match s.readData x.phys a.len with
    | some b => s.answerTo a 0x02 0 b
    | none => (s.noteBadRead x.phys a.len).answerTo a 0x0C 0 []
  else
    match (if a.kind = 4 then s.addF32s (a.len / 4) x.phys a.data else s.writeData x.phys a.data) with
    | (s, true) => (s.judgeArrival a).answerTo a 0x0B 0 []
    | (s, false) => (if a.kind = 4 then s.noteBadRead x.phys a.len else s).answerTo a 0x0C 0 []

/-- An accepted access waits: a read of a shadow slot until its shard is swept (R18), a write of a factor buffer while it is copied in (R20). -/
def State.serveHeld (s : State) (x : Accepted) : Bool :=
  if x.arrived.kind = 1 then s.unswept x.arrived.ctx x.phys x.arrived.len else s.copyLocked x.phys x.arrived.data.length

/-- The last flit of the accepted transfer at place `k` is written; one that waits, for its data or behind another of its stream
(R282), is not served yet. -/
def State.transferArrival (s : State) (k : Nat) : State :=
  match s.accepted[k]? with
  | none => s
  | some x =>
    if s.serveHeld x ∨ (s.accepted.take k).any (fun y => x.arrived.sameStream y.arrived) then s
    else ({ s with accepted := s.accepted.eraseIdx k }).serve x

def execTransferArrival (k : Nat) (s : State) : Result := .next (s.transferArrival k)

/-- Do two watch requests come from one waiting thread of one module (log entry 12)? -/
def Arrived.sameWaiter (a b : Arrived) : Bool := a.src == b.src && bitsAt (BitVec.ofNat 32 a.aux) 16 12 == bitsAt (BitVec.ofNat 32 b.aux) 16 12

/-- The request answered with retry that `a` comes from, at the counter at `p` (R48). -/
def retriedBy (a : Arrived) (p : Nat) (e : WatchEntry) : Bool :=
  e.obj == p && (match e.waiter with | .inr b => a.sameWaiter b | .inl _ => false)

/-- A request sent again, whose condition an update has satisfied since it was answered with retry (R45, R48). -/
def State.wasHit (s : State) (a : Arrived) (p : Nat) : Bool :=
  a.aux.testBit 28 && (s.tile (objTile p)).retried.any fun e => retriedBy a p e && e.hit

def State.forgetRetried (s : State) (a : Arrived) (p : Nat) : State :=
  let tl := s.tile (objTile p)
  if tl.retried = [] then s else s.setTile (objTile p) { tl with retried := tl.retried.filter fun e => !retriedBy a p e }

/-- Apply an arriving synchronisation operation at the counter at `p` (R44, R47, R48, R56); `none` refuses a reserved code. A watch that is
placed or not is answered at once, so that the transfer completes in its turn (R282); the release of a placed one is a second completion
(log entry 12). -/
def State.syncOperation (s : State) (a : Arrived) (p : Nat) : Option State :=
  let opc := a.aux % 16
  let v : Word := BitVec.ofNat 64 (natAt a.data 0 8)
  match a.aux / 16 % 16 with
  | 0 =>
    if 7 ≤ opc ∨ (opc = 6 ∧ 0xA ≤ v.toNat % 16) then none
    else some (((s.signalObj p opc v).judgeArrival a).answerTo a 0x0B 0 [])
  | 1 =>
    if 6 ≤ opc then none
    else
      let hit := s.wasHit a p
      let s := s.forgetRetried a p
      if hit || waitHolds opc (s.reg p) v then some ((s.judgeArrival a).answerTo a 0x0B 0 [])
      else
        let s := s.judgeArrival a
        let tl := s.tile (objTile p)
        let e : WatchEntry := { obj := p, cond := opc, comparand := v, waiter := .inr a }
        if tl.watches.length < 32 then some ((s.setTile (objTile p) { tl with watches := tl.watches ++ [e] }).answerTo a 0x0B (2 ^ 30) [])
        else some ((s.setTile (objTile p) { tl with retried := tl.retried ++ [e] }).answerTo a 0x0B (2 ^ 31) [])
  | 2 =>
    if 0xA ≤ opc ∨ 32 < a.aux / 256 % 256 then none
    else some (((s.arrive p opc (wordsOf (a.aux / 256 % 256) a.data)).judgeArrival a).answerTo a 0x0B 0 [])
  | 3 => some ((s.judgeArrival a).answerTo a 0x0B 0 (leBytes 8 (s.reg p).toNat))
  | _ => none

def State.remoteSync (s : State) (a : Arrived) : State :=
  if a.poison then s
  else if ¬ s.remoteAllowed a then s.refuseRemote a
  else
    match s.translateObj a.ctx a.offset true with
    | .inl _ => s.refuseRemote a
    | .inr p =>
      if ¬ s.tileReady (objTile p) then s.answerTo a 0x0C 0 []
      else match s.syncOperation a p with
      | none => s.refuseRemote a
      | some s => s

def execRemoteSyncOperation (k : Nat) (s : State) : Result := .next (s.onArrived k [5] fun s a => s.remoteSync a)

/-! ### Answers at the issuer (R282) -/

/-- A row of an asynchronous descriptor is answered: its bytes are kept; with the last row the descriptor lands and is done. -/
def State.rowDone (s : State) (tid key part : Nat) (data : List Byte) : State :=
  match s.pendOf key tid with
  | none => s
  | some j =>
    match (s.thread key).pend[j]? with
    | none => s
    | some p =>
      let open_ := match p.phase with
        | .transfer l => l.filter (· != tid)
        | _ => []
      let p := { p with got := if data = [] then p.got else Tab.put (fun _ => []) p.got part data }
      if open_ ≠ [] then s.setPend key j { p with phase := .transfer open_ }
      else
        let rows := (upto p.dst.length).map fun r => Tab.get (fun _ => []) p.got r
        let srcRows := (upto (moveRows p.word)).map fun r => Tab.get (fun _ => []) p.got r
        let landed := if dOp p.word ≤ 0x03 then s.landRows p.word p.dst srcRows else s.writeRows p.dst rows
        match landed with
        | (s, none) => (s.setPend key j { p with phase := .done, got := [] }).dmaNext key 8
        | (s, some e) =>
          let i := s.issOf key p
          s.pendFails key j p (e.seenAt (p.dst.zipIdx.map fun x => (x.1, if dOp p.word ≤ 0x03 then i.dstRow x.2 else i.localElem x.2)))

/-- The thread of key `key` waits for the answer to transfer `tid` in a synchronous descriptor. -/
def State.awaits (s : State) (key tid : Nat) : Bool := (s.thread key).syncTid == some tid

/-- The synchronous descriptor a thread holds, at its program counter. -/
def State.issAt (s : State) (key : Nat) : Iss := s.nextIss (keyTile key) (keyThread key) ((s.thread key).held.getD 0)

/-- A synchronous descriptor of a thread has been answered: it completes; a stopping thread then stops. -/
def State.syncAnswered (s : State) (key : Nat) (finish : State → Iss → State) : State :=
  let i := s.issAt key
  let u := finish (s.modThread key fun th => { th with syncTid := none, held := none }) i
  if s.fld (F.threadStatus.state i.t i.n) = 7 then u.stopsNow i.t i.n else u

/-- What a completion or read response does at the issuer. -/
def State.completed (s : State) (x : Xfer) (a : Arrived) : State :=
  match x.use with
  | .row key part => s.rowDone x.tid key part a.data
  | .sync key => if s.awaits key x.tid then s.syncAnswered key fun s i => s.syncDone i else s
  | .syncRead key k =>
    if s.awaits key x.tid then s.syncAnswered key fun s i => (s.setIx i.t i.n k (BitVec.ofNat 64 (natAt a.data 0 8))).syncDone i else s
  | .branchTest key w =>
    if s.awaits key x.tid then
      s.syncAnswered key fun s i =>
        s.branchOn i (waitHolds (dCond w) (BitVec.ofNat 64 (natAt a.data 0 8)) (s.ix i.t i.n (dNum w)))
    else s
  | .watch key =>
    match (s.thread key).wait with
    | none => s
    | some wt =>
      if wt.watch ≠ .remote x.tid then s
      else if a.aux.testBit 30 then { s with xfers := s.xfers ++ [{ x with placed := true }] }
      else if a.aux.testBit 31 then s.modThread key fun th => { th with wait := some { wt with watch := .retry } }
      else s.finishWait (keyTile key) (keyThread key) false
  | .root e => s.rootAcked e x.tid
  | .publish set count => s.published set count x.tid x.len
  | .none_ => s

def State.completion (s : State) (a : Arrived) : State :=
  if a.poison then s
  else
    match s.answeredBy a with
    | none => s
    | some x => ((if a.kind = 2 ∧ ¬ x.voided then s.judgeArrival a else s).dropXfer x.tid).completed x a

def execCompletionArrival (k : Nat) (s : State) : Result := .next (s.onArrived k [0x02, 0x0B] fun s a => s.completion a)

/-! ### Errors at the issuer (R78, R283, R297) -/

/-- Raise `SHARD_LOST` and note it for the context's vote (R299, Table 11.9). -/
def State.shardLost (s : State) (x : Xfer) (why : Nat) : State :=
  let s := s.modCtx x.ctx fun c => { c with voteBits := c.voteBits ||| 2 }
  s.raise 0x2002 3 0x04 (s.firstPort x)
    (x.dest + 2 ^ 17 * x.stream + 2 ^ 21 * x.ctx + 2 ^ 24 * why + 2 ^ 32 * (x.aux % 2 ^ 16))

/-- A transfer ends with an error response: the thread that issued it faults with code 0x05. -/
def State.failXfer (s : State) (x : Xfer) : State :=
  let s := s.dropXfer x.tid
  let at_ (key : Nat) (op pc : Nat) (s : State) : State :=
    (s.recordAccess (s.fld (F.threadCtl.ctx (keyTile key) (keyThread key))) (awayAddr x.dest x.offset)).threadFault
      (keyTile key) (keyThread key) 0x05 op pc
  let sync (key : Nat) (op : Nat) : State :=
    if s.awaits key x.tid then at_ key op (s.issAt key).pc s else s
  match x.use with
  | .row key _ =>
    match s.pendOf key x.tid with
    | none => s
    | some j =>
      match (s.thread key).pend[j]? with
      | none => s
      | some p => s.pendFails key j p (.out (awayAddr x.dest x.offset) 0x05)
  | .sync key => sync key (if x.aux / 16 % 16 = 2 then 0x22 else 0x20)
  | .syncRead key _ => sync key 0x24
  | .branchTest key _ => sync key 0x29
  | .watch key =>
    match (s.thread key).wait with
    | none => s
    | some wt => if wt.watch = .remote x.tid then at_ key 0x21 wt.pc s else s
  | .root e => s.rootWriteFails e x.tid
  | .publish set count => s.publishFails set count x.tid
  | .none_ => s

def State.errorResponse (s : State) (a : Arrived) : State :=
  match s.answeredBy a with
  | none => s
  | some x => (if x.kind = 9 then s.shardLost x 2 else s).failXfer x

def execErrorResponseArrival (k : Nat) (s : State) : Result := .next (s.onArrived k [0x0C] fun s a => s.errorResponse a)

/-- The completion check of transfer `tid` passes without completion (R296). -/
def State.checkExpired (s : State) (tid : Nat) : State :=
  match s.findXfer tid with
  | none => s
  | some x =>
    if x.voided ∨ x.placed ∨ x.kind = 9 ∨ s.now ≤ x.check then s
    else (s.setXfer { x with voided := true }).promiseVoid (s.firstPort x) x.dest x.stream x.ctx 1 (s.condFlags x.seen) (s.now - x.deadline)

def execCompletionCheckExpired (tid : Nat) (s : State) : Result := .next (s.checkExpired tid)

/-- The grace after the completion check is over (R297). -/
def State.graceExpired (s : State) (tid : Nat) : State :=
  match s.findXfer tid with
  | none => s
  | some x => if x.placed ∨ s.now < x.check + 1000000 * s.fld F.voidGrace.val then s else s.failXfer x

def execVoidGraceExpired (tid : Nat) (s : State) : Result := .next (s.graceExpired tid)

/-! ### Shard packets (R298, R299) -/

/-- Is the packet's CRC right? A poisoned flit makes it corrupt. -/
def shardGood (a : Arrived) : Bool :=
  !a.poison && 4 ≤ a.data.length && (crc32c (a.data.take (a.data.length - 4))).toNat == natAt a.data (a.data.length - 4) 4

/-- The `TAG` of an arrived transfer. -/
def Arrived.tag (a : Arrived) : Nat := a.src + 2 ^ 17 * a.stream

/-- A shard packet that fails its CRC: `SHARD_CRC`, and a re-request to the issuer, on the packet's stream and with its sequence in
`AUX` (Table 11.1). -/
def State.shardBad (s : State) (a : Arrived) : State :=
  let id := (a.tag, a.aux % 2 ^ 16)
  let again := s.shardFailed.contains id
  let s := { s with shardFailed := if again then s.shardFailed.filter (· != id) else s.shardFailed ++ [id] }
  let s := s.raise 0x2001 1 0x04 a.port (a.src + 2 ^ 17 * a.stream + 2 ^ 21 * a.ctx + 2 ^ 24 * boolNat again + 2 ^ 32 * (a.aux % 2 ^ 16))
  let hdr := transportHeader 0x0A a.ctx a.tclass a.jobTag 0 0 (s.now + 2 * (s.routeTermPs a.src false + framePs)) 0 (a.aux % 2 ^ 16)
  (s.launch a.src a.stream 3 false (transferFlits hdr []) []).1

/-- A shard packet arrives; the granules `marks` names have their gradient (R201), and its row masks are combined with those of earlier
packets by OR (R202). -/
def State.shardIn (s : State) (a : Arrived) (marks : PacketMarks) : State :=
  if ¬ shardGood a then s.shardBad a
  else if ¬ s.remoteAllowed a then s.refuseRemote a
  else
    let data := a.data.take (a.data.length - 4)
    match s.translate a.ctx a.offset (max 1 data.length) rightW true with
    | .inl _ => s.refuseRemote a
    | .inr p =>
      match s.writeData p data with
      | (s, false) => s.answerTo a 0x0C 0 []
      | (s, true) =>
        let s := { s with shardFailed := s.shardFailed.filter (· != (a.tag, a.aux % 2 ^ 16)) }
        let s := (s.markPresent a.ctx marks.granules).modCtx a.ctx fun x => { x with masks := x.masks ++ marks.masks }
        (s.judgeArrival a).answerTo a 0x0B 0 []

/-- The packet at place `k` would write a factor buffer that is being copied in: it waits (R20). -/
def State.shardHeld (s : State) (k : Nat) : Bool :=
  match s.arrived[k]? with
  | none => false
  | some a =>
    match s.translate a.ctx a.offset (max 1 (a.data.length - 4)) rightW true with
    | .inl _ => false
    | .inr p => a.kind == 9 && s.copyLocked p (a.data.length - 4)

def execShardPacketReceived (k : Nat) (marks : PacketMarks) (s : State) : Result :=
  .next (if s.shardHeld k then s else s.onArrived k [9] fun s a => s.shardIn a marks)

/-- Send a shard packet again, once, on the alternate direction (R299); not while the fence holds the module's transfers back (R434). -/
def State.resendShard (s : State) (x : Xfer) : State :=
  if s.fld F.fenceStatus.level ≠ 0 then s.setXfer x
  else
    let hdr := transportHeader 9 x.ctx x.tclass (s.fld (F.ctxJobTag.tag x.ctx)) x.len x.offset x.deadline 0 x.aux
    let (s, _) := s.launch x.dest x.stream 0 true (transferFlits hdr x.data) [] x.minus
    s.setXfer { x with resent := true }

/-- A shard re-request (R299): the first makes the issuer resend, and is ignored after a resend; the second means that both copies failed
their CRC, and the packet is lost. The packet is named by stream and shard packet sequence. -/
def State.rerequest (s : State) (a : Arrived) : State :=
  let named : Xfer → Bool := fun x =>
    x.kind == 9 && x.dest == a.src && x.stream == a.stream && x.aux % 2 ^ 16 == a.aux % 2 ^ 16
  match s.xfers.find? named with
  | none => s
  | some x =>
    let y := { x with asked := true }
    if ¬ x.resent then s.resendShard y
    else if x.asked ∧ ¬ x.voided then (s.setXfer { x with voided := true }).shardLost x 1
    else s.setXfer y

def execShardRerequestReceived (k : Nat) (s : State) : Result := .next (s.onArrived k [0x0A] fun s a => s.rerequest a)

/-- A packet's primary deadline passes without completion (R299). -/
def State.shardPrimary (s : State) (tid : Nat) : State :=
  match s.findXfer tid with
  | none => s
  | some x => if x.kind = 9 ∧ ¬ x.resent ∧ x.primary ≤ s.now then s.resendShard x else s

def execShardPrimaryDeadline (tid : Nat) (s : State) : Result := .next (s.shardPrimary tid)

/-- A packet's `DEADLINE` passes without completion (R299). -/
def State.shardDeadline (s : State) (tid : Nat) : State :=
  match s.findXfer tid with
  | none => s
  | some x => if x.kind = 9 ∧ ¬ x.voided ∧ x.deadline ≤ s.now then (s.setXfer { x with voided := true }).shardLost x 0 else s

def execShardLost (tid : Nat) (s : State) : Result := .next (s.shardDeadline tid)

/-! ### Completion of an asynchronous descriptor (R30, R34) -/

/-- Descriptor `k` of a thread completes: its effect is made, it waits for nothing, and no earlier one of its engine is
outstanding (R30). The DMA engine has looked again at what it held back before (R18, R20). -/
def State.asyncComplete (s : State) (t n k : Nat) : State :=
  let s := s.dmaNext (thrKey t n) 8
  let l := (s.thread (thrKey t n)).pend
  match l[k]? with
  | none => s
  | some p => if p.phase == .done && oldestOfEngine l k then s.finishPend t n k else s

end Sys2Proof.Machine
end

