-- ==== Sys2Proof/Machine/Array.lean ====
section
/-! DEFINITION. The outer-product array: claims, accumulators, steps, unloads, preemption (R31, R82 to R101, R108 to R120),
and the completion of asynchronous descriptors. -/

namespace Sys2Proof.Machine

/-! ### Accumulator containers (Tables 5.4 and 5.5) -/

abbrev Acc := BitVec 128

/-- The value of a wide accumulator. DESIGN CHOICE, log entry 108: the NaN it unloads as is the positive one. -/
def wideVal (a : Acc) : FVal :=
  if a.getLsbD 51 then .nan false
  else if a.getLsbD 52 then .inf (a.getLsbD 50)
  else .fin (a.getLsbD 50) (bitsAt a 0 40) ((bitsAt a 40 10 : Int) - 550)

/-- The container of a value of at most 40 significant bits. DESIGN CHOICE, log entry 108: `EXP`, `SIG` and `SIGN` of a NaN, which Table 5.4
calls not meaningful, are 0. -/
def wideAcc : FVal → Acc
  | .nan _ => BitVec.ofNat 128 (2 ^ 51)
  | .inf n => BitVec.ofNat 128 (2 ^ 52 + 2 ^ 50 * boolNat n)
  | .fin n m e =>
    if m = 0 then BitVec.ofNat 128 (2 ^ 50 * boolNat n)
    else if 40 < bitLen m then
      let k := bitLen m - 40
      BitVec.ofNat 128 (m / 2 ^ k + 2 ^ 40 * ((e + k + 550) % 1024).toNat + 2 ^ 50 * boolNat n)
    else
      let k := 40 - bitLen m
      BitVec.ofNat 128 (m * 2 ^ k + 2 ^ 40 * ((e - k + 550) % 1024).toNat + 2 ^ 50 * boolNat n)

/-- Add an exact product and round to the 40-bit significand (R112). -/
def wideAdd (a : Acc) (p : FVal) : Acc := wideAcc (add40 (wideVal a) p)

def longVal (a : Acc) : Int := sbitsAt a 0 96
def longNan (a : Acc) : Bool := a.getLsbD 96
def longOvf (a : Acc) : Bool := a.getLsbD 97
def longAcc (v : Int) (nan ovf inexact : Bool) : Acc :=
  BitVec.ofNat 128 ((v % 2 ^ 96).toNat + 2 ^ 96 * boolNat nan + 2 ^ 97 * boolNat ovf + 2 ^ 98 * boolNat inexact)

/-- Saturation of the long accumulator: 2^47 − 2^−48 in units of 2^−48 (R115). -/
def longMax : Int := 2 ^ 95 - 1

/-- Add contribution `c` in units of 2^−48; `inexact` tells that its fold dropped bits. -/
def longAdd (a : Acc) (c : Int) (inexact : Bool) : Acc :=
  let inx := a.getLsbD 98 || inexact
  if longOvf a then longAcc (longVal a) (longNan a) true inx
  else
    let v := longVal a + c
    if longMax < c.natAbs then longAcc (if c < 0 then -longMax else longMax) (longNan a) true inx
    else if longMax < v.natAbs then longAcc (if v < 0 then -longMax else longMax) (longNan a) true inx
    else longAcc v (longNan a) false inx

def longSetNan (a : Acc) : Acc := a ||| BitVec.ofNat 128 (2 ^ 96)

/-- `round_half_even` of a signed number divided by 2^k, and whether bits were dropped. -/
def rneInt (v : Int) (k : Nat) : Int × Bool :=
  let q := rneShift v.natAbs k
  (if v < 0 then -(q : Int) else q, v.natAbs % 2 ^ k != 0)

/-- One fold (R114): partial sum and shift onto the grid. -/
def foldShift (v : Int) (sh : Int) : Int × Bool :=
  if 0 ≤ sh then (v * 2 ^ sh.toNat, false) else rneInt v (-sh).toNat

/-! ### Operands -/

/-- Elements per step-element of a format (Table 4.1). -/
def packOf (fmt : Nat) : Nat := 16 / max 1 (fmtBits fmt)

/-- Step-element (line, step) of the panel at physical offset `p`. -/
def State.stepElem (s : State) (p line step : Nat) : Nat := s.memNat (p + panelOffset line step) 2

/-- Reduction element `k` of a line of a panel. -/
def State.panelRaw (s : State) (p fmt line k : Nat) : Nat :=
  let n := packOf fmt
  s.stepElem p line (k / n) / 2 ^ (k % n * fmtBits fmt) % 2 ^ fmtBits fmt

def isFloatFmt (fmt : Nat) : Bool := fmt ≤ 4

/-- An integer element as a number. -/
def intElem (fmt raw : Nat) : Int :=
  let b := fmtBits fmt
  if raw.testBit (b - 1) then (raw : Int) - 2 ^ b else raw

/-- The scale entry of group `n`, line `i` of the block at physical offset `p` (Table 4.3). -/
def State.scaleEntry (s : State) (p : Nat) (float : Bool) (group n i : Nat) : Nat :=
  if float then s.memNat (if group = 0 then p else p + 64 * n + i) 1
  else s.memNat (if group = 0 then p else p + 256 * n + 4 * i) 4

/-- The zero point of an A-side integer scale word (Table 4.4). -/
def zeroPoint (fmt word : Nat) : Int := intElem fmt (word / 2 ^ 22 % 2 ^ fmtBits fmt)

/-- Group length of a `GROUP` code, 0 for the whole tensor. -/
def groupLen (group : Nat) : Nat := if group = 0 then 0 else 16 * 2 ^ group

/-- What one `MMA_STEP` reads: its two panels and scale blocks by physical offset. -/
structure Panels where
  a : Nat
  b : Nat
  sa : Nat
  sb : Nat
  fa : Nat
  fb : Nat
  k : Nat
  group : Nat
  deriving DecidableEq, Repr

/-- The exact product of reduction element `r` of cell (i, j) as a value. -/
def State.product (s : State) (x : Panels) (i j r : Nat) : FVal :=
  mulVal (decodeElem x.fa (s.panelRaw x.a x.fa i r)) (decodeElem x.fb (s.panelRaw x.b x.fb j r))

def isFiniteVal : FVal → Bool
  | .fin .. => true
  | _ => false

/-- A finite value in units of 2^−32. -/
def inUnits32 : FVal → Int
  | .fin n m e => signedM n (m * 2 ^ (e + 32).toNat)
  | _ => 0

/-- Fold group `g` of elements [lo, hi) of cell (i, j) into its long accumulator (R113, R114). DESIGN CHOICE, log entry 109: a group that sets
`NAN` contributes nothing to `VALUE`, `OVF` and `INEXACT`; the partial sum of a long group with `GROUP` 0 is exact, without a width. -/
def State.foldGroup (s : State) (x : Panels) (i j g lo hi : Nat) (acc : Acc) : Acc :=
  let rs := (upto (hi - lo)).map (· + lo)
  if isFloatFmt x.fa then
    let ea := s.scaleEntry x.sa true x.group g i
    let eb := s.scaleEntry x.sb true x.group g j
    let fin := rs.all fun r => isFiniteVal (decodeElem x.fa (s.panelRaw x.a x.fa i r)) && isFiniteVal (decodeElem x.fb (s.panelRaw x.b x.fb j r))
    if ¬ fin ∨ ea = 255 ∨ eb = 255 then longSetNan acc
    else
      let psum := (rs.map fun r => inUnits32 (s.product x i j r)).sum
      let f := foldShift psum ((ea + eb : Nat) - 254 - 32 + 48)
      longAdd acc f.1 f.2
  else
    let wa := s.scaleEntry x.sa false x.group g i
    let wb := s.scaleEntry x.sb false x.group g j
    let zp := zeroPoint x.fa wa
    let psum := (rs.map fun r => (intElem x.fa (s.panelRaw x.a x.fa i r) - zp) * intElem x.fb (s.panelRaw x.b x.fb j r)).sum
    let f := foldShift (psum * ((wa % 2 ^ 16 : Nat) * (wb % 2 ^ 16 : Nat))) (48 - ((wa / 2 ^ 16 % 64 + wb / 2 ^ 16 % 64 : Nat) : Int))
    longAdd acc f.1 f.2

/-- The accumulator of cell (i, j) after a step of `K` steps (R95, R112 to R115). -/
def State.cellStep (s : State) (x : Panels) (i j : Nat) (acc : Acc) : Acc :=
  let n := x.k * packOf x.fa
  if x.fa = 1 then (upto n).foldl (fun a r => wideAdd a (s.product x i j r)) acc
  else
    let g := if x.group = 0 then n else groupLen x.group
    (upto ((n + g - 1) / g)).foldl (fun a k => s.foldGroup x i j k (k * g) (min n ((k + 1) * g)) a) acc

/-! ### Claims (R29, R31, R99) -/

def accKey (i j : Nat) : Nat := 64 * i + j
def Tile.cell (tl : Tile) (i j : Nat) : Acc := Tab.get (fun _ => 0) tl.acc (accKey i j)

/-- All cells of the 64 × 64 grid, row by row. -/
def gridCells : List (Nat × Nat) := (upto 64).flatMap fun i => (upto 64).map fun j => (i, j)

/-- Replace the accumulators of some cells. -/
def setCells (acc : Tab Acc) (cells : List (Nat × Nat)) (f : Nat → Nat → Acc) : Tab Acc :=
  cells.foldl (fun a c => Tab.put (fun _ => 0) a (accKey c.1 c.2) (f c.1 c.2)) acc

def State.prio (s : State) (t n : Nat) : Nat := s.fld (F.threadCtl.prio t n)

/-- The array is claimed, by its holder or by one whose claim is preempted. -/
def Tile.claimed (tl : Tile) : Bool := tl.claim.isSome || tl.preempted != []

/-- A preempted claim of thread `n`. -/
def Tile.preemptedOf (tl : Tile) (n : Nat) : Option Claim := tl.preempted.find? fun c => c.thread == n

/-- A thread that no longer runs gives up its claim on the array, and a preempted claim, once it has no outstanding array
descriptor (R99). -/
def State.dropClaim (s : State) (t n : Nat) : State :=
  if (s.thread (thrKey t n)).pend.any fun p => p.eng == .array then s
  else
    let tl := s.tile t
    let mine : Claim → Bool := fun c => c.thread == n
    let held := match tl.claim with | some c => mine c | none => false
    if held || tl.preempted.any mine then
      let tl :=
        { tl with
          claim := if held then none else tl.claim
          acc := if held then [] else tl.acc
          preempted := tl.preempted.filter fun c => !mine c }
      (s.setTile t tl).retryTile t
    else s

/-- A thread that faulted, stopped or halted on tile `t` without unloading: the array discards its accumulators (R99). -/
def State.discardClaims (s : State) (t : Nat) : State :=
  let tl := s.tile t
  let owners := (match tl.claim with | some c => [c.thread] | none => []) ++ tl.preempted.map (·.thread)
  forEach (owners.filter fun n => [0, 6, 7].contains (s.fld (F.threadStatus.state t n))) (fun s n => s.dropClaim t n) s

/-- The array is kept for a `PRIO` 3 thread other than `n` that waits for it (R31). -/
def State.keptFor (s : State) (t n : Nat) : Bool :=
  match (s.tile t).preempting with
  | some m => m != n && (s.fld (F.threadStatus.state t m) == 1 || s.fld (F.threadStatus.state t m) == 3)
  | none => false

/-- Thread `n` may start a claim on the array: it holds it, or it is free, and neither kept for another nor, for a thread of lower `PRIO`, still
owed to a preempted holder (R29, R31). -/
def State.arrayFree (s : State) (t n : Nat) : Bool :=
  let tl := s.tile t
  match tl.claim with
  | some c => c.thread == n
  | none => (tl.preemptedOf n).isNone && !s.keptFor t n && (tl.preempted == [] || s.prio t n == 3)

/-- Run an array descriptor of a thread that may use the array now. A thread blocks while another holds the array, or while its
own claim is preempted; a claim lost in a save or restore faults it (R29, R31, R98). DESIGN CHOICE, log entry 124: `STATE` reads 5 from when the
preempted holder comes to its next array descriptor; the save itself leaves `STATE` as it is. -/
def State.onArray (s : State) (i : Iss) (start : Bool) (f : State → State) : State :=
  let tl := s.tile i.t
  match tl.preemptedOf i.n with
  | some c =>
    if c.lost then
      let s := s.setTile i.t { tl with preempted := tl.preempted.filter fun c => c.thread != i.n }
      let s := s.modThread i.key fun th => { th with pend := th.pend.filter fun p => p.eng != .array }
      s.faultAt i 0x05
    else s.block i 5
  | none =>
    match tl.claim with
    | some c =>
      if c.thread = i.n then s.async i .array f
      else if start ∧ s.prio i.t i.n = 3 ∧ s.prio i.t c.thread ≠ 3 ∧ ¬ s.keptFor i.t i.n then
        (s.setTile i.t { tl with preempting := some i.n }).block i 3
      else s.block i 3
    | none => if s.arrayFree i.t i.n then s.async i .array f else s.block i 3

/-- Does physical range [p, p + n) lie in tile `t`'s Meadow (R88)? -/
def inMeadow (t p n : Nat) : Bool := p / 2 ^ 23 == t && (p + n - 1) / 2 ^ 23 == t

/-- Translate a range the array or the vector engine reads or writes in its own tile's Meadow; outside it is code `other`. -/
def State.ownPhys (s : State) (i : Iss) (a n need other : Nat) : Except Why Nat :=
  match s.localPhys i.c a n need with
  | .error e => .error e
  | .ok p => if inMeadow i.t p n then .ok p else .error (.out a other)

/-- A readable range of the own tile's Meadow. -/
def State.ownRead (s : State) (i : Iss) (a n other : Nat) : Except Why Nat :=
  match s.ownPhys i a n rightR other with
  | .error e => .error e
  | .ok p => if (s.readData p n).isSome then .ok p else .error (.bad p n a)

/-! ### MMA_START (R92, R119) -/

/-- A raw container at `p`, in the layout of its format. -/
def State.rawAcc (s : State) (fmt p i j : Nat) : Acc :=
  if fmt = 7 then BitVec.ofNat 128 (s.memNat (p + 8 * accKey i j) 8 % 2 ^ 53)
  else BitVec.ofNat 128 (s.memNat (p + 16 * accKey i j) 16 % 2 ^ 99)

/-- An FP32 element in an accumulator form. -/
def accOfF32 (fmt : Nat) (x : F32) : Acc :=
  if fmt = 7 then wideAcc (valF32 x)
  else
    match valF32 x with
    | .nan _ => longSetNan 0
    | .inf n => longAcc (if n then -longMax else longMax) false true false
    | .fin n m e =>
      let q := roundUnits (-48) m e
      let inexact := e < -48 && m % 2 ^ (-48 - e).toNat != 0
      if 2 ^ 95 ≤ q then longAcc (if n then -longMax else longMax) false true inexact
      else longAcc (signedM n q) false false inexact

/-- Bytes of a raw block. -/
def rawBytes (fmt : Nat) : Nat := if fmt = 7 then 32768 else 65536

/-- The claim of an `MMA_START`, fresh or of the thread that holds the array already (R31). DESIGN CHOICE, log entry 124: after the second, too, the
mask is all rows and columns until its own first `MMA_STEP`. -/
def State.claimArray (s : State) (i : Iss) (acc : Tab Acc) : State :=
  s.modTile i.t fun tl =>
    { tl with
      claim := some { thread := i.n, ctx := i.c, fmt := dAccFmt i.w, rows := 64, cols := 64 }
      acc := acc
      preempting := if tl.preempting = some i.n then none else tl.preempting }

/-- The array comes to an `MMA_START`. DESIGN CHOICE, log entry 124: a `SRC` that translates outside the own Meadow is code 0x05, as R88 has it for a
panel. -/
def State.reachStart (s : State) (i : Iss) : State × Option Why :=
  let fmt := dAccFmt i.w
  let mode := dMode i.w
  if 3 ≤ mode ∨ ¬ (fmt = 7 ∨ fmt = 8) then (s, some (.code 0x02))
  else if mode = 0 then (s.claimArray i [], none)
  else
    match s.ownRead i (i.aop 80) (if mode = 1 then 16384 else rawBytes fmt) 0x05 with
    | .error e => (s, some e)
    | .ok p =>
      (s.claimArray i (setCells [] gridCells fun r c =>
        if mode = 1 then accOfF32 fmt (BitVec.ofNat 32 (s.memNat (p + 4 * accKey r c) 4)) else s.rawAcc fmt p r c), none)

/-! ### MMA_STEP (R39, R83, R89, R96, R101) -/

/-- The input classes R39 allows. -/
def classAllowed (fa fb : Nat) : Bool :=
  (fa == 1 && fb == 1) || ((fa == 2 || fa == 3) && (fb == 2 || fb == 3)) || (fa == 4 && fb == 4) || (fa == 5 && fb == 5) || (fa == 6 && fb == 6)

/-- Die `d` runs in safe mode (R101). -/
def State.safeMode (s : State) (d : Nat) : Bool := s.scaleFail.testBit d || (s.obj O.arraySafeForce).testBit d

/-- Bytes of the scale block of a narrow panel (Table 4.3). -/
def scaleBytes (float : Bool) (group n : Nat) : Nat :=
  if group = 0 then (if float then 1 else 4)
  else ((n + groupLen group - 1) / groupLen group) * (if float then 64 else 256)

/-- Bytes of a panel's operand region. -/
def panelBytes (k : Nat) : Nat := 1024 * ((k + 7) / 8)

/-- The ranges the feeder reads of a panel's operand region: its first ⌈K/4⌉ windows, which are whole KiB and, when they are odd in number, 128
bytes of each quarter of the last one (R84, R86). -/
def feederRanges (k : Nat) : List (Nat × Nat) :=
  let n := (k + 3) / 4
  (if n / 2 = 0 then [] else [(0, 1024 * (n / 2))])
    ++ (if n % 2 = 1 then (upto 4).map fun b => (1024 * (n / 2) + 256 * b, 128) else [])

/-- A panel whose region lies in the own tile's Meadow and whose windows can be read. -/
def State.panelPhys (s : State) (i : Iss) (a k : Nat) : Except Why Nat :=
  match s.ownPhys i a (panelBytes k) rightR 0x05 with
  | .error e => .error e
  | .ok p =>
    match (feederRanges k).find? fun x => (s.readData (p + x.1) x.2).isNone with
    | some x => .error (.bad (p + x.1) x.2 (addrPlus a x.1))
    | none => .ok p

/-- The panels of an `MMA_STEP`, translated. One that names another module is code 0x02 before anything else (R59). DESIGN CHOICE, log entry 17:
misalignment of either is found before either is translated. -/
def State.stepPanels (s : State) (i : Iss) : Except Why Panels :=
  let w := i.w
  let k := dK w
  let a := i.aop 80
  let b := i.aop 48
  let nb := scaleBytes (isFloatFmt (dFmtA w)) (dGroup w) (k * packOf (dFmtA w))
  if s.anyAway [a, b] then .error (.code 0x02)
  else if a % 256 ≠ 0 ∨ b % 256 ≠ 0 then .error (.code 0x0A)
  else
    match s.panelPhys i a k, s.panelPhys i b k with
    | .error e, _ => .error e
    | _, .error e => .error e
    | .ok pa, .ok pb =>
      let x : Panels := { a := pa, b := pb, sa := 0, sb := 0, fa := dFmtA w, fb := dFmtB w, k := k, group := dGroup w }
      if dFmtA w = 1 then .ok x
      else
        match s.ownRead i (addrPlus a (panelBytes k)) nb 0x05, s.ownRead i (addrPlus b (panelBytes k)) nb 0x05 with
        | .error e, _ => .error e
        | _, .error e => .error e
        | .ok sa, .ok sb => .ok { x with sa := sa, sb := sb }

/-- The claim of thread `n` on the array of tile `t`. -/
def State.claimOf (s : State) (t n : Nat) : Option Claim := (s.tile t).claim.filter fun c => c.thread == n

/-- The array comes to an `MMA_STEP`. -/
def State.reachStep (s : State) (i : Iss) : State × Option Why :=
  let w := i.w
  match s.claimOf i.t i.n with
  | none => (s, some (.code 0x0B))
  | some c =>
    if dK w = 0 ∨ ¬ classAllowed (dFmtA w) (dFmtB w) ∨ c.fmt ≠ (if dFmtA w = 1 then 7 else 8) then (s, some (.code 0x02))
    else if dFmtA w ≠ 1 ∧ dGroup w ≠ 0 ∧ s.safeMode (i.t / 64) then (s, some (.code 0x02))
    else
      match s.stepPanels i with
      | .error e => (s, some e)
      | .ok x =>
        let cells := gridCells.filter fun q => q.1 < dActRows w && q.2 < dActCols w
        let tl := s.tile i.t
        let acc := setCells tl.acc cells fun r q => s.cellStep x r q (tl.cell r q)
        (s.setTile i.t { tl with acc := acc, claim := some { c with rows := dActRows w, cols := dActCols w } }, none)

/-! ### MMA_UNLOAD (R93, R96, R120) -/

/-- The value of a long accumulator for a float unload. DESIGN CHOICE, log entry 108: its NaN, which has no sign, unloads as the positive one. -/
def longFVal (a : Acc) : FVal :=
  if longNan a then .nan false
  else if longOvf a then .inf (longVal a < 0)
  else .fin (longVal a < 0) (longVal a).natAbs (-48)

/-- One accumulator in `FMT_OUT`, as a number of its bytes (Table 5.8). -/
def unloadElem (accFmt out : Nat) (a : Acc) : Nat :=
  if out = 7 ∨ out = 8 then a.toNat
  else if out = 9 then
    (if longNan a then 0x80000000
     else if longOvf a then (if longVal a < 0 then 2 ^ 31 else 2 ^ 31 - 1)
     else (encodeElem 9 (longFVal a)).1)
  else (encodeElem out (if accFmt = 7 then wideVal a else longFVal a)).1

/-- Table 4.6. -/
def unloadAllowed (accFmt out : Nat) : Bool :=
  out == 0 || out == 1 || (out == 9 && accFmt == 8) || (out == 7 && accFmt == 7) || (out == 8 && accFmt == 8)

/-- The bytes of row `r` that are written. -/
def unloadRow (tl : Tile) (c : Claim) (out r : Nat) : List Byte :=
  ((upto c.cols).map fun q => leBytes (fmtBits out / 8) (unloadElem c.fmt out (tl.cell r q))).flatten

/-- The array comes to an `MMA_UNLOAD`. DESIGN CHOICE, log entry 17: all rows are checked before the first is written, so where one fails its check,
none is. -/
def State.reachUnload (s : State) (i : Iss) : State × Option Why :=
  let out := dArrayOut i.w
  let tl := s.tile i.t
  match s.claimOf i.t i.n with
  | none => (s, some (.code 0x0B))
  | some c =>
    if ¬ unloadAllowed c.fmt out then (s, some (.code 0x02))
    else
      let rb := 8 * fmtBits out
      match (upto c.rows).mapM fun r => s.ownPhys i (addrPlus (i.aop 80) (r * rb : Nat)) (c.cols * fmtBits out / 8) rightW 0x05 with
      | .error e => (s, some e)
      | .ok ps => s.writeRows ps ((upto c.rows).map fun r => unloadRow tl c out r)

/-! ### The queue of the array (R30, R31) -/

/-- The array comes to an array descriptor: its effect, or the reason it faults. -/
def State.arrayReach (s : State) (i : Iss) : State × Option Why :=
  match dOp i.w with
  | 0x10 => s.reachStart i
  | 0x11 => s.reachStep i
  | _ => s.reachUnload i

/-- Thread `n` of tile `t` has an outstanding array descriptor. -/
def State.arrayPends (s : State) (t n : Nat) : Bool := (s.thread (thrKey t n)).pend.any fun p => p.eng == .array

/-- The array executes a descriptor of the thread: its effect is made, its completion not yet seen. -/
def State.arrayBusy (s : State) (t n : Nat) : Bool := (s.thread (thrKey t n)).pend.any fun p => p.eng == .array && p.phase == .done

/-- Run an array descriptor: behind an earlier one of its thread that has not completed it waits in the queue, else the array comes to it
now (R30). -/
def State.runArray (s : State) (i : Iss) (start : Bool) : State :=
  s.onArray i start fun s =>
    if s.arrayPends i.t i.n then s.enqueue i .array .queued
    else
      match s.arrayReach i with
      | (s, some e) => s.failWith i e
      | (s, none) => s.enqueue i .array

def execMmaStart (t : Fin 256) (n : Fin 16) (w : Desc) (s : State) : Result := .next (s.issue t n w 0x10 anySub fun i s => s.runArray i true)
def execMmaStep (t : Fin 256) (n : Fin 16) (w : Desc) (s : State) : Result := .next (s.issue t n w 0x11 anySub fun i s => s.runArray i false)
def execMmaUnload (t : Fin 256) (n : Fin 16) (w : Desc) (s : State) : Result := .next (s.issue t n w 0x12 anySub fun i s => s.runArray i false)

/-- A queued array descriptor of a thread has its turn: the array may be claimed for an `MMA_START`; a claim of the thread is neither preempted nor
about to be saved for a `PRIO` 3 thread (R31). -/
def State.arrayTurn (s : State) (t n op : Nat) : Bool :=
  ((s.tile t).preemptedOf n).isNone
    && !(s.keptFor t n && (s.claimOf t n).any fun _ => s.prio t n != 3)
    && (op != 0x10 || s.arrayFree t n)

/-- The array takes the next descriptor of a thread's queue once it executes none of it. -/
def State.arrayNext (s : State) (t n : Nat) : State :=
  let key := thrKey t n
  if s.arrayBusy t n then s
  else
    match (s.thread key).pend.findIdx? fun p => p.eng == .array && p.phase == .queued with
    | none => s
    | some k =>
      match (s.thread key).pend[k]? with
      | none => s
      | some p =>
        if ¬ s.arrayTurn t n (dOp p.word) then s
        else
          match s.arrayReach (s.issOf key p) with
          | (s, some e) => s.pendFails key k p e
          | (s, none) => s.setPend key k { p with phase := .done }

/-- Every thread of a tile whose queue stands before a free array goes on. -/
def State.arrayWake (s : State) (t : Nat) : State := forEach (upto 16) (fun s n => s.arrayNext t n) s

def execArrayClaimDiscard (t : Fin 256) (s : State) : Result := .next ((s.discardClaims t).arrayWake t)

/-! ### Preemption (R31, R98) -/

/-- The save area of context `c` in tile `t`'s Meadow. DESIGN CHOICE, log entry 107: a base outside the tile's own 8 MiB is taken modulo 8 MiB. -/
def State.saveBase (s : State) (t c : Nat) : Nat := 2 ^ 23 * t + 128 * ((s.reg (R.arraySaveBase t c)).toNat % 2 ^ 23 / 128)

/-- The array saves the holder's accumulators in raw form, and is kept for the `PRIO` 3 thread that waits. The `MMA_STEP` or `MMA_START` it is in has
to complete first; an `MMA_UNLOAD` completes and releases the array with nothing saved (R31, R98). -/
def State.preemptSave (s : State) (t : Nat) : State :=
  let tl := s.tile t
  match tl.preempting, tl.claim with
  | some n, some c =>
    if s.arrayBusy t c.thread ∨ s.prio t n ≠ 3 ∨ s.prio t c.thread = 3 then s
    else
      let p := s.saveBase t c.ctx
      let size := if c.fmt = 7 then 8 else 16
      let bytes := (gridCells.map fun q => leBytes size (tl.cell q.1 q.2).toNat).flatten
      let (s, ok) := if inMeadow t p (rawBytes c.fmt) then s.writeData p bytes else (s, false)
      let s := s.modTile t fun tl => { tl with claim := none, acc := [], preempted := { c with lost := !ok } :: tl.preempted }
      if s.fld (F.threadStatus.state t n) = 3 then s.setFld (F.threadStatus.state t n) 1 else s
  | _, _ => s

def execArrayPreemptSave (t : Fin 256) (s : State) : Result := .next (s.preemptSave t)

/-- The holder `c` of a claim lost in a save or restore comes to its next array descriptor (R98): when one is queued, it faults there with
code 0x05, its claim is released and its queued array descriptors are discarded. -/
def State.lostHolder (s : State) (t : Nat) (c : Claim) : State :=
  let k := thrKey t c.thread
  match (s.thread k).pend.find? fun p => p.eng == .array with
  | none => s
  | some p =>
    let i := s.issOf k p
    let s := s.modTile t fun tl => { tl with preempted := tl.preempted.filter fun x => x.thread != c.thread }
    (s.modThread k fun th => { th with pend := th.pend.filter fun q => q.eng != .array }).faultAt i 0x05

/-- Before the preempted holder's next array descriptor, the array restores its accumulators, once it is not kept for another. -/
def State.arrayRestore (s : State) (t : Nat) : State :=
  let tl := s.tile t
  match tl.claim, tl.preempted with
  | none, c :: rest =>
    if s.keptFor t c.thread then s
    else
    let p := s.saveBase t c.ctx
    let s :=
      if c.lost then s.lostHolder t c
      else if (s.readData p (rawBytes c.fmt)).isNone then
        let c := { c with lost := true }
        ((s.noteBadRead p (rawBytes c.fmt)).modTile t fun tl => { tl with preempted := c :: rest }).lostHolder t c
      else
        let acc := setCells [] gridCells fun r q => s.rawAcc c.fmt p r q
        s.modTile t fun tl => { tl with claim := some c, preempted := rest, acc := acc }
    (if s.fld (F.threadStatus.state t c.thread) = 5 then s.setFld (F.threadStatus.state t c.thread) 1 else s).arrayNext t c.thread
  | _, _ => s

def execArrayRestore (t : Fin 256) (s : State) : Result := .next (s.arrayRestore t)

/-! ### Completion -/

/-- The completion of an `MMA_UNLOAD` releases the array (R31). -/
def State.releaseArray (s : State) (t n : Nat) : State :=
  if (s.claimOf t n).isSome then (s.modTile t fun tl => { tl with claim := none, acc := [] }).retryTile t else s

/-- Descriptor `k` of a thread completes (R30, R31, R34); one still queued for the array is taken first when its turn has come. With an array
descriptor, the array goes on to the next. -/
def State.pendCompletes (s : State) (t n k : Nat) : State :=
  let s := s.arrayNext t n
  let l := (s.thread (thrKey t n)).pend
  let op := (l[k]?).map fun p => dOp p.word
  let u := s.asyncComplete t n k
  if (u.thread (thrKey t n)).pend.length = l.length then u
  else if op = some 0x12 then (u.releaseArray t n).arrayWake t
  else if op = some 0x10 ∨ op = some 0x11 then u.arrayNext t n
  else u

def execAsyncDescriptorComplete (t : Fin 256) (n : Fin 16) (k : Nat) (s : State) : Result := .next (s.pendCompletes t n k)

end Sys2Proof.Machine
end

