-- ==== Sys2Proof/Machine/Crypt.lean ====
section
/-! DEFINITION. SHA-384 and the ECDSA P-384 check of an image's signature (R346, R348, R352, R463). The spec names both and gives neither:
they are those of FIPS 180-4 and FIPS 186-5 (PRESUMED, log entry 133). -/

namespace Sys2Proof.Machine

/-- Bytes as one number, the first byte the most significant. -/
def beNat (l : List Byte) : Nat := l.foldl (fun v b => 256 * v + b.toNat) 0

/-! ### SHA-384 -/

/-- The eight working words. -/
structure Sha where
  a : Word
  b : Word
  c : Word
  d : Word
  e : Word
  f : Word
  g : Word
  h : Word
  deriving DecidableEq, Repr

/-- The initial hash value: the first 64 bits of the fractional parts of the square roots of the 9th to the 16th prime. -/
def shaStart : Sha :=
  ⟨0xCBBB9D5DC1059ED8, 0x629A292A367CD507, 0x9159015A3070DD17, 0x152FECD8F70E5939,
    0x67332667FFC00B31, 0x8EB44A8768581511, 0xDB0C2E0D64F98FA7, 0x47B5481DBEFA4FA4⟩

/-- The round constants: the same bits of the cube roots of the first 80 primes. -/
def shaConstants : List Word :=
  [0x428A2F98D728AE22, 0x7137449123EF65CD, 0xB5C0FBCFEC4D3B2F, 0xE9B5DBA58189DBBC,
    0x3956C25BF348B538, 0x59F111F1B605D019, 0x923F82A4AF194F9B, 0xAB1C5ED5DA6D8118] ++
  [0xD807AA98A3030242, 0x12835B0145706FBE, 0x243185BE4EE4B28C, 0x550C7DC3D5FFB4E2,
    0x72BE5D74F27B896F, 0x80DEB1FE3B1696B1, 0x9BDC06A725C71235, 0xC19BF174CF692694] ++
  [0xE49B69C19EF14AD2, 0xEFBE4786384F25E3, 0x0FC19DC68B8CD5B5, 0x240CA1CC77AC9C65,
    0x2DE92C6F592B0275, 0x4A7484AA6EA6E483, 0x5CB0A9DCBD41FBD4, 0x76F988DA831153B5] ++
  [0x983E5152EE66DFAB, 0xA831C66D2DB43210, 0xB00327C898FB213F, 0xBF597FC7BEEF0EE4,
    0xC6E00BF33DA88FC2, 0xD5A79147930AA725, 0x06CA6351E003826F, 0x142929670A0E6E70] ++
  [0x27B70A8546D22FFC, 0x2E1B21385C26C926, 0x4D2C6DFC5AC42AED, 0x53380D139D95B3DF,
    0x650A73548BAF63DE, 0x766A0ABB3C77B2A8, 0x81C2C92E47EDAEE6, 0x92722C851482353B] ++
  [0xA2BFE8A14CF10364, 0xA81A664BBC423001, 0xC24B8B70D0F89791, 0xC76C51A30654BE30,
    0xD192E819D6EF5218, 0xD69906245565A910, 0xF40E35855771202A, 0x106AA07032BBD1B8] ++
  [0x19A4C116B8D2D0C8, 0x1E376C085141AB53, 0x2748774CDF8EEB99, 0x34B0BCB5E19B48A8,
    0x391C0CB3C5C95A63, 0x4ED8AA4AE3418ACB, 0x5B9CCA4F7763E373, 0x682E6FF3D6B2B8A3] ++
  [0x748F82EE5DEFB2FC, 0x78A5636F43172F60, 0x84C87814A1F0AB72, 0x8CC702081A6439EC,
    0x90BEFFFA23631E28, 0xA4506CEBDE82BDE9, 0xBEF9A3F7B2C67915, 0xC67178F2E372532B] ++
  [0xCA273ECEEA26619C, 0xD186B8C721C0C207, 0xEADA7DD6CDE0EB1E, 0xF57D4F7FEE6ED178,
    0x06F067AA72176FBA, 0x0A637DC5A2C898A6, 0x113F9804BEF90DAE, 0x1B710B35131C471B] ++
  [0x28DB77F523047D84, 0x32CAAB7B40C72493, 0x3C9EBE0A15C9BEBC, 0x431D67C49C100D4C,
    0x4CC5D4BECB3E42B6, 0x597F299CFC657E2A, 0x5FCB6FAB3AD6FAEC, 0x6C44198C4A475817]

/-- The word that follows the sixteen of a window. -/
def shaNext (w : List Word) : Word :=
  let wd (i : Nat) : Word := w.getD i 0
  let s0 := (wd 1).rotateRight 1 ^^^ (wd 1).rotateRight 8 ^^^ (wd 1 >>> 7)
  let s1 := (wd 14).rotateRight 19 ^^^ (wd 14).rotateRight 61 ^^^ (wd 14 >>> 6)
  wd 0 + s0 + wd 9 + s1

/-- One round with constant `k` and message word `w`. -/
def shaRound (x : Sha) (k w : Word) : Sha :=
  let t1 := x.h + (x.e.rotateRight 14 ^^^ x.e.rotateRight 18 ^^^ x.e.rotateRight 41) + ((x.e &&& x.f) ^^^ (~~~x.e &&& x.g)) + k + w
  let t2 := (x.a.rotateRight 28 ^^^ x.a.rotateRight 34 ^^^ x.a.rotateRight 39) + ((x.a &&& x.b) ^^^ (x.a &&& x.c) ^^^ (x.b &&& x.c))
  ⟨t1 + t2, x.a, x.b, x.c, x.d + t1, x.e, x.f, x.g⟩

/-- One block of sixteen words. -/
def shaBlock (x : Sha) (w : List Word) : Sha :=
  let (y, _) := shaConstants.foldl (fun (y, w) k => (shaRound y k (w.getD 0 0), w.drop 1 ++ [shaNext w])) (x, w)
  ⟨x.a + y.a, x.b + y.b, x.c + y.c, x.d + y.d, x.e + y.e, x.f + y.f, x.g + y.g, x.h + y.h⟩

/-- Block `i` of a padded message. -/
def shaWords (l : List Byte) : List Word := (upto 16).map fun j => BitVec.ofNat 64 (beNat ((l.drop (8 * j)).take 8))

/-- The blocks of a padded message, `n` of them. -/
def shaBlocks : Nat → List Byte → Sha → Sha
  | 0, _, x => x
  | n + 1, l, x => shaBlocks n (l.drop 128) (shaBlock x (shaWords l))

/-- The SHA-384 digest of a list of bytes. -/
def sha384 (l : List Byte) : BitVec 384 :=
  let blocks := (l.length + 144) / 128
  let zeros := 128 * blocks - l.length - 17
  let tail := (0x80 : Byte) :: List.replicate zeros 0 ++ (leBytes 16 (8 * l.length)).reverse
  let y := shaBlocks blocks (l ++ tail) shaStart
  y.a ++ y.b ++ y.c ++ y.d ++ y.e ++ y.f

/-! ### ECDSA over P-384 -/

/-- `acc * b ^ e` modulo `m`, for an `e` of at most `n` bits. -/
def powMod (m : Nat) : Nat → Nat → Nat → Nat → Nat
  | 0, _, _, acc => acc
  | n + 1, b, e, acc => powMod m n (b * b % m) (e / 2) (if e % 2 = 1 then acc * b % m else acc)

/-- The inverse modulo a prime of 384 bits. -/
def invMod (m v : Nat) : Nat := powMod m 384 (v % m) (m - 2) 1

/-- The field, the order of the base point, and the base point. -/
def curveP : Nat := 0xFFFFFFFFFFFFFFFFFFFFFFFFFFFFFFFFFFFFFFFFFFFFFFFFFFFFFFFFFFFFFFFEFFFFFFFF0000000000000000FFFFFFFF
def curveN : Nat := 0xFFFFFFFFFFFFFFFFFFFFFFFFFFFFFFFFFFFFFFFFFFFFFFFFC7634D81F4372DDF581A0DB248B0A77AECEC196ACCC52973
def curveG : Nat × Nat :=
  (0xAA87CA22BE8B05378EB1C71EF320AD746E1D3B628BA79B9859F741E082542A385502F25DBF55296C3A545E3872760AB7,
    0x3617DE4A96262C6F5D9E98BF9292DC29F8F41DBD289A147CE9DA3113B5F0B8C00A60B1CE1D7E819D7A431D7C90EA0E5F)

/-- The third point of a chord or a tangent of slope `k`. -/
def chordEnd (k x1 y1 x2 : Nat) : Nat × Nat :=
  let x := (k * k + 2 * curveP - x1 - x2) % curveP
  (x, (k * (x1 + curveP - x) + curveP - y1) % curveP)

/-- The sum of two points, `none` at infinity; coordinates are below `curveP`. -/
def pointAdd : Option (Nat × Nat) → Option (Nat × Nat) → Option (Nat × Nat)
  | none, q => q
  | p, none => p
  | some (x1, y1), some (x2, y2) =>
    if x1 = x2 then
      if (y1 + y2) % curveP = 0 then none
      else some (chordEnd (3 * (x1 * x1 + curveP - 1) * invMod curveP (2 * y1) % curveP) x1 y1 x2)
    else some (chordEnd ((y2 + curveP - y1) * invMod curveP (x2 + curveP - x1) % curveP) x1 y1 x2)

/-- `k` times a point, for a `k` of at most `n` bits. -/
def pointMul : Nat → Nat → Option (Nat × Nat) → Option (Nat × Nat)
  | 0, _, _ => none
  | n + 1, k, p => pointAdd (if k % 2 = 1 then p else none) (pointMul n (k / 2) (pointAdd p p))

/-- Does the pair r, s in 96 bytes, each 48 bytes big-endian, verify over a digest under the public key `q`? -/
def ecdsaVerifies (q : Nat × Nat) (digest : BitVec 384) (sig : List Byte) : Bool :=
  let r := beNat (sig.take 48)
  let s := beNat (sig.drop 48)
  let w := invMod curveN s
  0 < r && r < curveN && 0 < s && s < curveN &&
    match pointAdd (pointMul 384 (digest.toNat * w % curveN) (some curveG)) (pointMul 384 (r * w % curveN) (some q)) with
    | none => false
    | some (x, _) => x % curveN == r

/-- Do the last 96 bytes of an image of `len` bytes sign every byte before them under public key `key` of the Ronbin block? -/
def signatureHolds (key len : Nat) (l : List Byte) : Bool :=
  ecdsaVerifies (Config.publicKey key) (sha384 (l.take (len - 96))) (l.drop (len - 96))

end Sys2Proof.Machine
end

