-- ==== Sys2Proof/Machine/Vec.lean ====
section
/-! DEFINITION. The vector engine: operands, element operations, row reductions, `DERIV`, `SR_BF16`, `QUANT`, `DEQUANT`,
`SELECT` and `CHECK` (R40, R59, R121 to R130, R151, R152, R501, R502). -/

namespace Sys2Proof.Machine

/-! ### Operands (R40, R59, R72) -/

def vecFormat (f : Nat) : Bool := f ≤ 6 || f == 9

/-- Bytes of `n` elements of a format. -/
def elemBytes (fmt n : Nat) : Nat := (n * fmtBits fmt + 7) / 8

/-- The address in the index register an operand selector names. -/
def State.vecAddr (s : State) (i : Iss) (k : Nat) : Nat := (s.ix i.t i.n k).toNat

/-- Does an operand name another module? -/
def State.isAway (s : State) (a : Nat) : Bool :=
  match s.formOf a with
  | .away _ _ => true
  | _ => false

/-- Translate an operand of `n` bytes (alignment, then translation, then the own Meadow). -/
def State.vecPhys (s : State) (i : Iss) (k n need : Nat) : Except Why Nat :=
  if s.vecAddr i k % 256 ≠ 0 then .error (.code 0x0A) else s.ownPhys i (s.vecAddr i k) n need 0x09

/-- The bytes of a source operand. -/
def State.vecBytes (s : State) (i : Iss) (k n : Nat) : Except Why (List Byte) :=
  match s.vecPhys i k n rightR with
  | .error e => .error e
  | .ok p =>
    match s.readData p n with
    | some b => .ok b
    | none => .error (.bad p n (s.vecAddr i k))

/-- The elements of a source operand as codes. -/
def State.vecCodes (s : State) (i : Iss) (k fmt n : Nat) : Except Why (List Nat) :=
  match s.vecBytes i k (elemBytes fmt n) with
  | .error e => .error e
  | .ok b => .ok ((upto n).map fun j => elemOf b (fmtBits fmt) j)

/-- Pack codes for a write at `p`; a last half byte keeps its other element (R106). -/
def State.packFor (s : State) (p fmt : Nat) (codes : List Nat) : List Byte :=
  let l := if fmtBits fmt = 4 ∧ codes.length % 2 = 1
    then codes ++ [(s.byte (memKey (p + codes.length / 2))).toNat / 16] else codes
  packElems (fmtBits fmt) l

/-- Write codes at the destination. -/
def State.vecWrite (s : State) (p fmt : Nat) (codes : List Nat) : Except Why State := s.physWrite p (s.packFor p fmt codes)

/-- Convert exact results into `FMT_OUT` and write them; `FLAG_NAN` as Table 5.3 says. -/
def State.vecResult (s : State) (i : Iss) (p fmt : Nat) (vals : List FVal) : Except Why State :=
  let r := vals.map (encodeElem fmt)
  match s.vecWrite p fmt (r.map (·.1)) with
  | .error e => .error e
  | .ok s => .ok (s.flagNan i.t i.n (r.any (·.2)))

/-- Field checks shared by every sub-operation. -/
def vecFieldFault (w : Desc) : Bool := dVecLen w == 0 || !vecFormat (dFmtIn w) || !vecFormat (dFmtOut w)

/-- Run a sub-operation on the vector engine: queue, fields, operands on another module, and then `f`. -/
def State.runVec (s : State) (i : Iss) (bad : Bool) (regs : List Nat) (f : State → Except Why State) : State :=
  s.async i .vec fun s =>
    if bad ∨ vecFieldFault i.w then s.faultAt i 0x02
    else if regs.any fun k => s.isAway (s.vecAddr i k) then s.faultAt i 0x02
    else
      match f s with
      | .error e => s.failWith i e
      | .ok s => s.enqueue i .vec

/-! ### Elementwise operations -/

/-- Sources as exact values, element by element; a source not used repeats zero. -/
def State.vecSources (s : State) (i : Iss) (ks : List Nat) : Except Why (List (List FVal)) :=
  ks.mapM fun k =>
    match s.vecCodes i k (dFmtIn i.w) (dVecLen i.w) with
    | .error e => .error e
    | .ok l => .ok (l.map (decodeElem (dFmtIn i.w)))

/-- Apply `f` to the elements of the source operands `ks`. -/
def State.runElems (s : State) (i : Iss) (ks : List Nat) (f : List FVal → FVal) : State :=
  s.runVec i false (dD i.w :: ks) fun s =>
    match s.vecSources i ks with
    | .error e => .error e
    | .ok srcs =>
      match s.vecPhys i (dD i.w) (elemBytes (dFmtOut i.w) (dVecLen i.w)) rightW with
      | .error e => .error e
      | .ok p => s.vecResult i p (dFmtOut i.w) ((upto (dVecLen i.w)).map fun j => f (srcs.map fun l => l.getD j (.fin false 0 0)))

/-- An operand of FP32 arithmetic: converted from `FMT_IN` with one rounding. -/
def opF32 (l : List FVal) (k : Nat) : F32 := toF32 (l.getD k (.fin false 0 0))

def State.arith1 (s : State) (i : Iss) (f : F32 → F32) : State := s.runElems i [dS0 i.w] fun l => valF32 (f (opF32 l 0))
def State.arith2 (s : State) (i : Iss) (f : F32 → F32 → F32) : State :=
  s.runElems i [dS0 i.w, dS1 i.w] fun l => valF32 (f (opF32 l 0) (opF32 l 1))

def f32Sign (a : F32) : F32 :=
  match valF32 a with
  | .nan _ => canonNaN
  | .inf n => if n then 0xBF800000#32 else f32One
  | .fin n m _ => if m = 0 then 0 else if n then 0xBF800000#32 else f32One

def f32LeakyRelu (imm a : F32) : F32 := if f32Lt0 a then f32Mul imm a else canonF32 a

/-- Issue a `VEC` row. -/
def State.vecRow (s : State) (t n : Nat) (w : Desc) (sub : Nat) (run : Iss → State → State) : State := s.issue t n w 0x18 (vecSub sub) run

def execCopy (t : Fin 256) (n : Fin 16) (w : Desc) (s : State) : Result :=
  .next (s.vecRow t n w 0x00 fun i s => s.runElems i [dS0 i.w] fun l => l.getD 0 (.fin false 0 0))
def execAdd (t : Fin 256) (n : Fin 16) (w : Desc) (s : State) : Result := .next (s.vecRow t n w 0x01 fun i s => s.arith2 i f32Add)
def execSub (t : Fin 256) (n : Fin 16) (w : Desc) (s : State) : Result := .next (s.vecRow t n w 0x02 fun i s => s.arith2 i f32Sub)
def execMul (t : Fin 256) (n : Fin 16) (w : Desc) (s : State) : Result := .next (s.vecRow t n w 0x03 fun i s => s.arith2 i f32Mul)
def execFma (t : Fin 256) (n : Fin 16) (w : Desc) (s : State) : Result :=
  .next (s.vecRow t n w 0x04 fun i s =>
    s.runElems i [dS0 i.w, dS1 i.w, dS2 i.w] fun l => valF32 (f32Fma (opF32 l 0) (opF32 l 1) (opF32 l 2)))
/-- `IMM` × s0 rounded, then `IMM2` × s1 plus that, rounded once more (R40). -/
def execAxpby (t : Fin 256) (n : Fin 16) (w : Desc) (s : State) : Result :=
  .next (s.vecRow t n w 0x05 fun i s => s.arith2 i fun a b => f32Fma (dImm2 i.w) b (f32Mul (dImmF i.w) a))
def execScale (t : Fin 256) (n : Fin 16) (w : Desc) (s : State) : Result :=
  .next (s.vecRow t n w 0x06 fun i s => s.arith1 i fun a => f32Mul (dImmF i.w) a)
def execMax (t : Fin 256) (n : Fin 16) (w : Desc) (s : State) : Result := .next (s.vecRow t n w 0x07 fun i s => s.arith2 i f32Max)
def execMin (t : Fin 256) (n : Fin 16) (w : Desc) (s : State) : Result := .next (s.vecRow t n w 0x08 fun i s => s.arith2 i f32Min)
def execAbs (t : Fin 256) (n : Fin 16) (w : Desc) (s : State) : Result := .next (s.vecRow t n w 0x09 fun i s => s.arith1 i fun a => canonF32 (f32Abs a))
def execSign (t : Fin 256) (n : Fin 16) (w : Desc) (s : State) : Result := .next (s.vecRow t n w 0x0A fun i s => s.arith1 i f32Sign)
def execRelu (t : Fin 256) (n : Fin 16) (w : Desc) (s : State) : Result := .next (s.vecRow t n w 0x0B fun i s => s.arith1 i fun a => f32Max a 0)
def execLeakyRelu (t : Fin 256) (n : Fin 16) (w : Desc) (s : State) : Result :=
  .next (s.vecRow t n w 0x0C fun i s => s.arith1 i fun a => f32LeakyRelu (dImmF i.w) a)
def execTanh (t : Fin 256) (n : Fin 16) (w : Desc) (s : State) : Result := .next (s.vecRow t n w 0x0D fun i s => s.arith1 i f32Tanh)
def execSigmoid (t : Fin 256) (n : Fin 16) (w : Desc) (s : State) : Result := .next (s.vecRow t n w 0x0E fun i s => s.arith1 i f32Sigmoid)
def execElu (t : Fin 256) (n : Fin 16) (w : Desc) (s : State) : Result :=
  .next (s.vecRow t n w 0x0F fun i s => s.arith1 i fun a => f32Elu (dImmF i.w) a)
def execHeathGate (t : Fin 256) (n : Fin 16) (w : Desc) (s : State) : Result := .next (s.vecRow t n w 0x10 fun i s => s.arith1 i f32HeathGate)
def execGelu (t : Fin 256) (n : Fin 16) (w : Desc) (s : State) : Result := .next (s.vecRow t n w 0x11 fun i s => s.arith1 i f32Gelu)
def execSilu (t : Fin 256) (n : Fin 16) (w : Desc) (s : State) : Result := .next (s.vecRow t n w 0x12 fun i s => s.arith1 i f32Silu)
def execExp (t : Fin 256) (n : Fin 16) (w : Desc) (s : State) : Result := .next (s.vecRow t n w 0x13 fun i s => s.arith1 i f32Exp)
def execRecip (t : Fin 256) (n : Fin 16) (w : Desc) (s : State) : Result := .next (s.vecRow t n w 0x14 fun i s => s.arith1 i f32Recip)
def execRsqrt (t : Fin 256) (n : Fin 16) (w : Desc) (s : State) : Result := .next (s.vecRow t n w 0x15 fun i s => s.arith1 i f32Rsqrt)

/-- `SELECT`: s1 where s0 ≠ 0, else s2; the chosen element is passed through (R501). -/
def selectVal (l : List FVal) : FVal :=
  match l.getD 0 (.fin false 0 0) with
  | .fin _ 0 _ => l.getD 2 (.fin false 0 0)
  | _ => l.getD 1 (.fin false 0 0)

def execSelect (t : Fin 256) (n : Fin 16) (w : Desc) (s : State) : Result :=
  .next (s.vecRow t n w 0x1D fun i s => s.runElems i [dS0 i.w, dS1 i.w, dS2 i.w] selectVal)

/-! ### Row reductions -/

/-- The rows of a list, each of `len` elements. -/
def rowsOf (len : Nat) : Nat → List α → List (List α)
  | 0, _ => []
  | n + 1, l => l.take len :: rowsOf len n (l.drop len)

/-- One result per row of `IMM2` elements. -/
def State.runRows (s : State) (i : Iss) (f : List F32 → F32) : State :=
  let len := (dImm2 i.w).toNat
  s.runVec i (len == 0 || dVecLen i.w % len != 0) [dD i.w, dS0 i.w] fun s =>
    match s.vecSources i [dS0 i.w] with
    | .error e => .error e
    | .ok srcs =>
      let rows := rowsOf len (dVecLen i.w / len) ((srcs.headD []).map toF32)
      match s.vecPhys i (dD i.w) (elemBytes (dFmtOut i.w) rows.length) rightW with
      | .error e => .error e
      | .ok p => s.vecResult i p (dFmtOut i.w) (rows.map fun r => valF32 (f r))

def rowMax (l : List F32) : F32 := l.tail.foldl f32Max (canonF32 (l.headD 0))
def rowSum (l : List F32) : F32 := toF32 (sum40 (l.map valF32))
def rowSumsq (l : List F32) : F32 := toF32 (sum40 (l.map fun a => mulVal (valF32 a) (valF32 a)))

def execRowMax (t : Fin 256) (n : Fin 16) (w : Desc) (s : State) : Result := .next (s.vecRow t n w 0x16 fun i s => s.runRows i rowMax)
def execRowSum (t : Fin 256) (n : Fin 16) (w : Desc) (s : State) : Result := .next (s.vecRow t n w 0x17 fun i s => s.runRows i rowSum)
def execRowSumsq (t : Fin 256) (n : Fin 16) (w : Desc) (s : State) : Result := .next (s.vecRow t n w 0x18 fun i s => s.runRows i rowSumsq)

/-! ### DERIV (R151) -/

def geluA : F32 := 0x3F4C422A#32
def geluB : F32 := 0x3D372713#32
def geluC : F32 := 0x3E095D4F#32

/-- Is a value above zero? -/
def f32Gt0 (a : F32) : Bool :=
  match valF32 a with
  | .inf n => !n
  | .fin n m _ => !n && m != 0
  | _ => false

def geluDeriv (x : F32) : F32 :=
  let u := f32Mul geluA (f32Add x (f32Mul geluB (f32Mul x (f32Mul x x))))
  let t := f32Tanh u
  let p := f32Mul geluA (f32Add f32One (f32Mul geluC (f32Mul x x)))
  let q := f32Mul (f32Mul f32Half x) (f32Mul (f32Sub f32One t) (f32Add f32One t))
  f32Add (f32Mul f32Half (f32Add f32One t)) (f32Mul q p)

def siluDeriv (y : F32) : F32 :=
  let s := f32Sigmoid y
  f32Mul s (f32Add f32One (f32Mul y (f32Sub f32One s)))

/-- The derivative a code of Table 6.11 takes from the saved value. -/
def derivFactor (fn : Nat) (alpha y : F32) : F32 :=
  match fn with
  | 0x01 => if f32Gt0 y then f32One else 0
  | 0x02 => if f32Gt0 y then f32One else alpha
  | 0x03 => f32Mul (f32Sub f32One y) (f32Add f32One y)
  | 0x04 => f32Mul y (f32Sub f32One y)
  | 0x05 => if f32Gt0 y then f32One else f32Add y alpha
  | 0x06 => if f32Lt0 y then f32Mul (f32Add f32One y) (f32Add f32One y) else f32One
  | 0x10 => geluDeriv y
  | _ => siluDeriv y

def derivListed (fn : Nat) : Bool := [0x01, 0x02, 0x03, 0x04, 0x05, 0x06, 0x10, 0x11].contains fn

def f32Deriv (fn : Nat) (alpha y g : F32) : F32 := if f32IsNaN y then canonNaN else f32Mul g (derivFactor fn alpha y)

def State.runDeriv (s : State) (i : Iss) : State :=
  let fn := (dImm2 i.w).toNat % 256
  if derivListed fn then s.arith2 i fun y g => f32Deriv fn (dImmF i.w) y g
  else s.runVec i true [] fun s => .ok s

def execDeriv (t : Fin 256) (n : Fin 16) (w : Desc) (s : State) : Result := .next (s.vecRow t n w 0x19 fun i s => s.runDeriv i)

/-! ### SR_BF16 (R128, R130) -/

def State.runSr (s : State) (i : Iss) : State :=
  s.runVec i (dFmtOut i.w != 1) [dD i.w, dS0 i.w, dS1 i.w] fun s =>
    match s.vecCodes i (dS0 i.w) (dFmtIn i.w) (dVecLen i.w) with
    | .error e => .error e
    | .ok codes =>
      match s.vecBytes i (dS1 i.w) 32 with
      | .error e => .error e
      | .ok key =>
        match s.vecPhys i (dD i.w) (elemBytes 1 (dVecLen i.w)) rightW with
        | .error e => .error e
        | .ok p =>
          let fld (o : Nat) : Word := BitVec.ofNat 64 (natAt key o 8)
          let out := codes.zipIdx.map fun c =>
            let x := BitVec.ofNat 32 (fp32.encode (decodeElem (dFmtIn i.w) c.1)).1
            srBf16 x (srRandom (fld 0) (fld 8) (fld 16 + BitVec.ofNat 64 c.2 * fld 24)).toNat
          s.vecWrite p 1 out

def execSrBf16 (t : Fin 256) (n : Fin 16) (w : Desc) (s : State) : Result := .next (s.vecRow t n w 0x1A fun i s => s.runSr i)

/-! ### QUANT and DEQUANT (R121 to R126) -/

def qGrp (w : Desc) : Nat := bitsAt w 0 2
def qCal (w : Desc) : Bool := w.getLsbD 2
def qZpe (w : Desc) : Bool := w.getLsbD 3
def qOvb (w : Desc) : Bool := w.getLsbD 4
def qRowLen (w : Desc) : Nat := bitsAt w 12 20

/-- Groups in a row; 1 with one scale for the whole tensor. -/
def qGroups (w : Desc) : Nat := if qGrp w = 0 then 1 else qRowLen w / groupLen (qGrp w)
def qRows (w : Desc) : Nat := dVecLen w / max 1 (qRowLen w)

/-- Byte offset of the scale entry of group `n` of row `r` in its blocks (R121, Table 4.3). -/
def qEntryOff (w : Desc) (fmt r n : Nat) : Nat :=
  if qGrp w = 0 then 0
  else if isFloatCode fmt then r / 64 * (64 * qGroups w) + 64 * n + r % 64
  else r / 64 * (256 * qGroups w) + 256 * n + 4 * (r % 64)

def qEntrySize (fmt : Nat) : Nat := if isFloatCode fmt then 1 else 4

/-- Bytes of all scale blocks, and of the bitmap. -/
def qBlockBytes (w : Desc) (fmt : Nat) : Nat :=
  if qGrp w = 0 then qEntrySize fmt else (qRows w + 63) / 64 * (qGroups w * (64 * qEntrySize fmt))
def qMapBytes (w : Desc) : Nat := if qGrp w = 0 then 1 else (qRows w * qGroups w + 7) / 8

/-- The groups of a descriptor in element order, with row and number. -/
def qGroupList (w : Desc) : List (Nat × Nat) :=
  if qGrp w = 0 then [(0, 0)] else (upto (qRows w)).flatMap fun r => (upto (qGroups w)).map fun n => (r, n)

def qGroupLen (w : Desc) : Nat := if qGrp w = 0 then dVecLen w else groupLen (qGrp w)

/-- The checks of R121 both share, for the narrow format. -/
def qBad (w : Desc) (fmt : Nat) : Bool :=
  fmt < 2 || 6 < fmt || qRowLen w == 0 || dVecLen w % max 1 (qRowLen w) != 0
    || (qGrp w != 0 && qRowLen w % groupLen (qGrp w) != 0)

/-- Write scale entries at their places. -/
def State.writeEntries (s : State) (p : Nat) (w : Desc) (fmt : Nat) : List ((Nat × Nat) × Nat) → Except Why State
  | [] => .ok s
  | ((r, n), v) :: rest =>
    match s.physWrite (p + qEntryOff w fmt r n) (leBytes (qEntrySize fmt) v) with
    | .error e => .error e
    | .ok s => s.writeEntries p w fmt rest

/-- Set bits of the overflow bitmap. -/
def State.setMapBits (s : State) (p : Nat) : List Nat → Except Why State
  | [] => .ok s
  | b :: rest =>
    match s.physWrite (p + b / 8) [s.byte (memKey (p + b / 8)) ||| BitVec.ofNat 8 (2 ^ (b % 8))] with
    | .error e => .error e
    | .ok s => s.setMapBits p rest

/-- NaN elements under scales read from s1: the spec states no result for them; each takes a free value. -/
def freeNans (cnt bits : Nat) (vals : List FVal) (codes : List Nat) (base : Nat) : List Nat :=
  ((vals.zip codes).zipIdx).map fun e => if isNanVal e.1.1 then (Config.freeWord (cnt + base + e.2)).toNat % 2 ^ bits else e.1.2

/-- A `QUANT` of a context's exchange in E4M3 (R238; log entry 110). -/
def State.exchanges (s : State) (i : Iss) : Bool :=
  Config.exchangeQuant i.w && s.bit (F.ctxCuts.zxFp8 i.c) && dFmtOut i.w == 2 && qCal i.w && qGrp i.w == 1

/-- Quantise the groups of a descriptor: with `CAL` 1 from their values, in an exchange with signs and zero-ness kept (`keep`, R238), else with the
entries read. DESIGN CHOICE, log entry 126: a NaN sets `FLAG_NAN` and does not count as clamped. -/
def quantGroups (w : Desc) (fmt cnt : Nat) (vals : List FVal) (entries : List Nat) (keep : Bool := false) : List GroupOut :=
  let gs := rowsOf (qGroupLen w) (qGroupList w).length vals
  if qCal w then gs.map fun g => if keep then keepSigns fmt g (calGroup fmt (qZpe w) g) else calGroup fmt (qZpe w) g
  else
    ((gs.zip entries).zipIdx).map fun e =>
      let g := quantGroup fmt (scaleOf fmt e.1.2) e.1.1
      { g with codes := freeNans cnt (fmtBits fmt) e.1.1 g.codes (e.2 * qGroupLen w), nan := e.1.1.any isNanVal }

/-- Record saturated groups: bitmap bits, doubled scales under `CAL` 0, `BLOCK_OVF` (R123). -/
def State.recordOverflow (s : State) (i : Iss) (fmt pscale pmap : Nat) (gs : List ((Nat × Nat) × GroupOut)) : Except Why State :=
  let sat := gs.filter fun g => g.2.saturated
  match s.setMapBits pmap (sat.map fun g => g.1.1 * qGroups i.w + g.1.2) with
  | .error e => .error e
  | .ok s =>
    match (if qCal i.w then .ok s else s.writeEntries pscale i.w fmt (sat.map fun g => (g.1, (doubled fmt g.2.scale).word fmt))) with
    | .error e => .error e
    | .ok s => .ok (if sat = [] then s else (s.modCtx i.c fun x => { x with voteBits := x.voteBits ||| 16 }).raise 0x1001 2 0x01 (threadUnit i.t i.n i.c) sat.length)

/-- `CONST_CHANNEL` (R125). -/
def State.noteConstants (s : State) (i : Iss) (gs : List GroupOut) : State :=
  let k := (gs.filter (·.const)).length
  if k = 0 then s else s.raise 0x1007 0 0x01 (threadUnit i.t i.n i.c) (k % 2 ^ 32 + 2 ^ 32 * boolNat (gs.any (·.inexact)))

def State.runQuant (s : State) (i : Iss) : State :=
  let w := i.w
  let fmt := dFmtOut w
  let bad := qBad w fmt || 1 < dFmtIn w || (qZpe w && isFloatCode fmt)
  s.runVec i bad ([dD w, dS0 w, dS1 w] ++ if qOvb w then [dS2 w] else []) fun s =>
    match s.vecCodes i (dS0 w) (dFmtIn w) (dVecLen w) with
    | .error e => .error e
    | .ok codes =>
      let nb := qBlockBytes w fmt
      match s.vecPhys i (dS1 w) nb (if qCal w then rightW else if qOvb w then rightR + rightW else rightR),
            (if qOvb w then s.vecPhys i (dS2 w) (qMapBytes w) (rightR + rightW) else .ok 0),
            s.vecPhys i (dD w) (elemBytes fmt (dVecLen w)) rightW with
      | .error e, _, _ => .error e
      | _, .error e, _ => .error e
      | _, _, .error e => .error e
      | .ok ps, .ok pm, .ok pd =>
        if ¬ qCal w ∧ (s.readData ps nb).isNone then .error (.bad ps nb (s.vecAddr i (dS1 w)))
        else
          let keys := qGroupList w
          let entries := keys.map fun k => s.memNat (ps + qEntryOff w fmt k.1 k.2) (qEntrySize fmt)
          let gs := quantGroups w fmt s.freeCount (codes.map (decodeElem (dFmtIn w))) entries (s.exchanges i)
          let s := if qCal w then s else { s with freeCount := s.freeCount + dVecLen w }
          match s.vecWrite pd fmt (gs.map (·.codes)).flatten with
          | .error e => .error e
          | .ok s =>
            match (if qCal w then s.writeEntries ps w fmt (keys.zip (gs.map fun g => g.scale.word fmt)) else .ok s) with
            | .error e => .error e
            | .ok s =>
              let s := (s.flagNan i.t i.n (gs.any (·.nan))).noteConstants i gs
              if qOvb w then s.recordOverflow i fmt ps pm (keys.zip gs) else .ok s

def execQuant (t : Fin 256) (n : Fin 16) (w : Desc) (s : State) : Result := .next (s.vecRow t n w 0x1B fun i s => s.runQuant i)

def State.runDequant (s : State) (i : Iss) : State :=
  let w := i.w
  let fmt := dFmtIn w
  s.runVec i (qBad w fmt || 1 < dFmtOut w) [dD w, dS0 w, dS1 w] fun s =>
    match s.vecCodes i (dS0 w) fmt (dVecLen w), s.vecBytes i (dS1 w) (qBlockBytes w fmt),
          s.vecPhys i (dD w) (elemBytes (dFmtOut w) (dVecLen w)) rightW with
    | .error e, _, _ => .error e
    | _, .error e, _ => .error e
    | _, _, .error e => .error e
    | .ok codes, .ok block, .ok p =>
      let keys := qGroupList w
      let gs := rowsOf (qGroupLen w) keys.length codes
      let vals := (keys.zip gs).map fun e =>
        e.2.map (dequantElem fmt (scaleOf fmt (natAt block (qEntryOff w fmt e.1.1 e.1.2) (qEntrySize fmt))))
      s.vecResult i p (dFmtOut w) vals.flatten

def execDequant (t : Fin 256) (n : Fin 16) (w : Desc) (s : State) : Result := .next (s.vecRow t n w 0x1C fun i s => s.runDequant i)

/-! ### CHECK (R40) -/

/-- `FLAG_NAN` when a source element is NaN or infinite; `IMM2` bit 2 clears `FLAG_USR`, then bit 1 sets it. -/
def State.runCheck (s : State) (i : Iss) : State :=
  s.runVec i false [dS0 i.w] fun s =>
    match s.vecSources i [dS0 i.w] with
    | .error e => .error e
    | .ok srcs =>
      let s := s.flagNan i.t i.n ((srcs.headD []).any fun v => !isFiniteVal v)
      .ok (s.flagUsr i.t i.n (dImm2 i.w))

def execCheck (t : Fin 256) (n : Fin 16) (w : Desc) (s : State) : Result := .next (s.vecRow t n w 0x1E fun i s => s.runCheck i)

end Sys2Proof.Machine
end

