-- ==== Sys2Proof/Machine/Intake.lean ====
section
/-! DEFINITION. Weight intake: the PXC container, its chunks' actions and checks, the command that pulls one in (R329 to R333). -/

namespace Sys2Proof.Machine

/-! ### The container (R329) -/

/-- Bytes of a record with a payload of `n` bytes. -/
def recordBytes (n : Nat) : Nat := 64 + 64 * ((n + 63) / 64)

/-- A file header that passes its checks: magic, version, CRC (Table 12.15). -/
def pxcHeaderGood (h : List Byte) : Bool :=
  h.length == 64 && natAt h 0 4 == 0x31435850 && natAt h 4 2 == 1
    && (crc32c (h.take 0x0C ++ h.drop 0x10)).toNat == natAt h 0x0C 4 && natAt h 8 4 != 0

/-- The chunks of a container from their headers: offset in the container and bytes of the record. -/
def pxcChunks : Nat → List (List Byte) → List (Nat × Nat)
  | _, [] => []
  | at_, h :: rest => (at_, recordBytes (natAt h 4 4)) :: pxcChunks (at_ + recordBytes (natAt h 4 4)) rest

/-- A chunk header (Table 12.16). -/
structure ChunkHead where
  seq : Nat
  payload : Nat
  actions : Nat
  src : Nat
  dst : Nat
  grp : Nat
  nelem : Nat
  off : Nat
  rowLen : Nat
  lines : Nat
  steps : Nat
  deriving DecidableEq, Repr

def chunkHead (d : List Byte) : ChunkHead :=
  { seq := natAt d 0 4, payload := natAt d 4 4, actions := natAt d 8 1, src := natAt d 9 1, dst := natAt d 0x0A 1, grp := natAt d 0x0B 1
    nelem := natAt d 0x0C 4, off := natAt d 0x10 8, rowLen := natAt d 0x18 4, lines := natAt d 0x1C 1, steps := natAt d 0x20 4 }

/-- The CRC of a record (Table 12.16). -/
def chunkGood (d : List Byte) : Bool :=
  let n := natAt d 4 4
  64 + n ≤ d.length && (crc32c (d.take 0x3C ++ (d.drop 64).take n)).toNat == natAt d 0x3C 4

/-! ### Packed-exponent coding (R331) -/

/-- Exponent and significand bits of a source format. -/
def expBits (src : Nat) : Nat := match src with | 0 => 8 | 1 => 8 | 2 => 4 | _ => 5
def sigBits (src : Nat) : Nat := match src with | 0 => 23 | 1 => 7 | 2 => 3 | _ => 2

/-- Field `k` of `b` bits of a little-endian bit stream. -/
def bitField (stream b k : Nat) : Nat := stream / 2 ^ (b * k) % 2 ^ b

/-- One block of `n` elements: the elements and the bytes it takes; none for an exponent or a width out of range, or too few bytes. -/
def unpackBlock (src n : Nat) (l : List Byte) : Option (List Nat × Nat) :=
  let eb := expBits src
  let sb := sigBits src + 1
  let ebase := natAt l 0 1
  let k := natAt l 1 1 % 16
  let raw := (fmtBits src) / 8
  if l.length < 2 then none
  else if k = 0xF then
    if l.length < 2 + raw * n then none else some ((upto n).map fun i => natAt l (2 + raw * i) raw, 2 + raw * n)
  else if eb < k then none
  else
    let smBytes := (sb * n + 7) / 8
    let dBytes := (k * n + 7) / 8
    if l.length < 2 + smBytes + dBytes then none
    else
      let sm := natAt l 2 smBytes
      let ds := natAt l (2 + smBytes) dBytes
      let es := (upto n).map fun i => ebase + bitField ds k i
      if es.any fun e => 2 ^ eb ≤ e then none
      else
        some (es.zipIdx.map fun e =>
          let x := bitField sm sb e.2
          x / 2 ^ (sb - 1) * 2 ^ (eb + sb - 1) + e.1 * 2 ^ (sb - 1) + x % 2 ^ (sb - 1), 2 + smBytes + dBytes)

/-- All blocks of `n` elements in a payload, which they use up. -/
def unpackAll (src : Nat) : Nat → Nat → List Byte → Option (List Nat)
  | 0, _, _ => none
  | fuel + 1, n, l =>
    if n = 0 then (if l = [] then some [] else none)
    else
      match unpackBlock src (min 64 n) l with
      | none => none
      | some (es, used) => (unpackAll src fuel (n - min 64 n) (l.drop used)).map (es ++ ·)

/-! ### The actions (R330) -/

/-- What a chunk writes, as offsets from its place with their bytes; how many of its groups are constant, and whether one is inexact. -/
structure ChunkOut where
  writes : List (Nat × List Byte)
  const : Nat := 0
  inexact : Bool := false
  deriving DecidableEq, Repr

/-- Reduction elements of a step (Table 4.1). -/
def stepElems (fmt : Nat) : Option Nat :=
  match fmt with
  | 1 => some 1
  | 2 => some 2
  | 3 => some 2
  | 5 => some 2
  | 4 => some 4
  | 6 => some 4
  | _ => none

/-- The elements of a chunk before quantisation. -/
def chunkElems (h : ChunkHead) (payload : List Byte) : Option (List Nat) :=
  if h.actions.testBit 0 then unpackAll h.src (h.nelem + 1) h.nelem payload
  else
    let b := fmtBits h.src / 8
    if payload.length = h.nelem * b then some ((upto h.nelem).map fun i => natAt payload (b * i) b) else none

/-- Groups of a row, and elements of a group; `GRP` 0 is one group over the chunk. -/
def ChunkHead.groups (h : ChunkHead) : Nat := if h.grp = 0 then 1 else h.rowLen / groupLen h.grp
def ChunkHead.groupLen (h : ChunkHead) : Nat := if h.grp = 0 then h.nelem else Machine.groupLen h.grp

/-- Do the fields of the header fit its actions? -/
def ChunkHead.fits (h : ChunkHead) : Bool :=
  let q := h.actions.testBit 1
  let r := h.actions.testBit 2
  h.actions < 8 && h.src ≤ 3 && 1 ≤ h.nelem && h.nelem ≤ 2 ^ 20 && 1 ≤ h.payload && h.payload ≤ 65536
    && (if q then h.src ≤ 1 && 2 ≤ h.dst && h.dst ≤ 6 && h.grp ≤ 3 && h.rowLen != 0 && h.nelem % h.rowLen == 0
          && (h.grp == 0 || h.rowLen % Machine.groupLen h.grp == 0)
        else h.dst == h.src)
    && (!r || (match stepElems h.dst with
        | some p => 1 ≤ h.lines && h.lines ≤ 64 && 1 ≤ h.steps && h.steps ≤ 65535 && h.nelem == h.lines * h.steps * p && h.rowLen == h.steps * p
        | none => false))

/-- The operand region of a panel: step-elements of 16 bits at their places, zero elsewhere (R84, R87). -/
def relayBytes (lines steps p b : Nat) (codes : List Nat) : List Byte :=
  let one (line step : Nat) : Nat :=
    if line < lines ∧ step < steps then
      ((upto p).map fun k => codes.getD ((line * steps + step) * p + k) 0 % 2 ^ b * 2 ^ (b * k)).sum
    else 0
  let n := 8 * ((steps + 7) / 8)
  let cells := (upto (64 * n)).foldl (fun (t : Tab Nat) e => Tab.put (fun _ => 0) t (panelOffset (e / n) (e % n)) (one (e / n) (e % n))) []
  (upto (64 * n)).flatMap fun k => leBytes 2 (Tab.get (fun _ => 0) cells (2 * k))

/-- Scale entries of a quantised chunk without re-lay (R121): group `n` of row `r`. -/
def ChunkHead.entryOff (h : ChunkHead) (r n : Nat) : Nat :=
  if h.grp = 0 then 0
  else if isFloatCode h.dst then r / 64 * (64 * h.groups) + 64 * n + r % 64
  else r / 64 * (256 * h.groups) + 256 * n + 4 * (r % 64)

/-- The scale block of a panel (Table 4.3), zero for lines above `LINES`. -/
def ChunkHead.panelScales (h : ChunkHead) (words : List Nat) : List Byte :=
  let size := if isFloatCode h.dst then 1 else 4
  if h.grp = 0 then leBytes size (words.headD 0)
  else (upto h.groups).flatMap fun n => (upto 64).flatMap fun i => leBytes size (if i < h.lines then words.getD (i * h.groups + n) 0 else 0)

/-- What a good chunk writes; none is a bad argument. -/
def chunkOut (d : List Byte) : Option ChunkOut :=
  let h := chunkHead d
  if ¬ h.fits then none
  else
    (chunkElems h ((d.drop 64).take h.payload)).map fun es =>
      let q := h.actions.testBit 1
      let b := fmtBits h.dst
      let gs := if q then (rowsOf h.groupLen (h.nelem / h.groupLen) (es.map (decodeElem h.src))).map (calGroup h.dst false) else []
      let codes := if q then (gs.map (·.codes)).flatten else es
      let words := gs.map fun g => g.scale.word h.dst
      let size := if isFloatCode h.dst then 1 else 4
      let writes : List (Nat × List Byte) :=
        if h.actions.testBit 2 then
          [(0, relayBytes h.lines h.steps ((stepElems h.dst).getD 1) b codes)]
            ++ (if q then [(1024 * ((h.steps + 7) / 8), h.panelScales words)] else [])
        else
          let body := packElems b codes
          (0, body) :: words.zipIdx.map fun e =>
            (body.length + h.entryOff (e.2 / h.groups) (e.2 % h.groups), leBytes size e.1)
      { writes := writes, const := (gs.filter (·.const)).length, inexact := gs.any (·.inexact) }

/-! ### Writing -/

/-- The range `[lo, lo + n)` lies in Thermos and off the reserved region (R68). -/
def intakeRange (lo n : Nat) : Bool :=
  (upto ((lo % 4096 + n + 4095) / 4096)).all fun i =>
    let a := if i = 0 then lo else 4096 * (lo / 4096) + 4096 * i
    match placeOf a with
    | .thermos _ _ => !reservedThermos (memKey a)
    | _ => false

def State.findIntake (s : State) (set count : Nat) : Option Intake := s.intakes.find? fun x => x.set == set && x.cmd.count == count
def State.dropIntake (s : State) (x : Intake) : State :=
  { s with intakes := s.intakes.filter fun y => !(y.set == x.set && y.cmd.count == x.cmd.count) }
def State.putIntake (s : State) (x : Intake) : State :=
  { s with intakes := s.intakes.map fun y => if y.set == x.set && y.cmd.count == x.cmd.count then x else y }

/-- An intake ends: on success its slot is ready, else it is free again (R335). -/
def State.intakeEnds (s : State) (x : Intake) (status detail : Nat) : State :=
  let s := s.dropIntake x
  let (s, status) : State × Nat := match x.slot with
    | some j => if status = 0 then s.genFilled x.set j x.gen x.switch else (s.setGenSlot x.set j 0, status)
    | none => if status = 0 ∧ x.switch ∧ x.set < 8 then s.switched x.set else (s, status)
  s.finish x.set x.cmd status detail x.written

/-- Chunks in flight of the other intakes: the engine's limit is one for all (R333). -/
def State.otherChunks (s : State) (x : Intake) : Nat :=
  ((s.intakes.filter fun y => !(y.set == x.set && y.cmd.count == x.cmd.count)).map fun y => y.reading.length).sum

/-- Fetch chunks up to the number in flight. -/
def State.intakeFetch (s : State) (x : Intake) : Nat → State × Intake
  | 0 => (s, x)
  | fuel + 1 =>
    if s.obj O.intakeMaxInflight ≤ s.otherChunks x + x.reading.length then (s, x)
    else
      match x.chunks[x.next]? with
      | none => (s, x)
      | some c => (s.readHost (x.address + c.1) c.2).intakeFetch { x with reading := x.reading ++ [x.next], next := x.next + 1 } fuel

/-- Event data of a chunk's failure (Table 12.20). -/
def chunkData (x : Intake) (code n attempt : Nat) : Nat := x.set + 2 ^ 4 * code + 2 ^ 8 * (n % 2 ^ 32) + 2 ^ 40 * attempt

/-- Chunk `n` fails with code 0 (CRC), 1 (read error) or 2 (position): it is fetched again, up to three times (R332). -/
def State.chunkFails (s : State) (x : Intake) (n code : Nat) : State × Option Intake :=
  let attempt := Tab.get (fun _ => 0) x.failed n + 1
  let at_ := (x.chunks.getD n (0, 0))
  let s := if code = 1 then s.hostReadFails else s
  let s := s.raise 0x8001 1 0x06 x.set (chunkData x code n attempt)
  if attempt < 4 then
    let s := s.setObj O.intakeRetries (min (2 ^ 64 - 1) (s.obj O.intakeRetries + 1))
    let x := { x with failed := Tab.put (fun _ => 0) x.failed n attempt, got := x.got.filter fun e => e.1 != n }
    (s.readHost (x.address + at_.1) at_.2, some x)
  else
    let s := s.raise 0x8002 2 0x06 x.set (chunkData x code n 4)
    (s.intakeEnds x (if code = 1 then 6 else 5) at_.1, none)

/-- `CONST_CHANNEL` of a chunk (R125): the context of its source is that of the ring set; the tile and thread, and the context of set 8, are not
stated. -/
def State.chunkConst (s : State) (x : Intake) (o : ChunkOut) : State :=
  if o.const = 0 then s
  else
    let (w, s) := s.free
    s.raise 0x1007 0 0x01 (threadUnit (w.toNat % 256) (w.toNat / 256 % 16) (if x.set < 8 then x.set else w.toNat / 4096 % 8)) (o.const + 2 ^ 32 * boolNat o.inexact)

/-- A good chunk's actions and its write; a bad argument, or a write with an error response, ends the command. -/
def State.chunkWrite (s : State) (x : Intake) (n : Nat) (d : List Byte) : State × Option Intake :=
  match chunkOut d with
  | none => (s.intakeEnds x 4 0, none)
  | some o =>
    let off := (chunkHead d).off
    let lo := x.dest + off
    let len := o.writes.foldl (fun m e => max m (e.1 + e.2.length)) 0
    if ¬ intakeRange lo len ∨ x.limit < off + len then (s.intakeEnds x 4 0, none)
    else
      let s := s.chunkConst x o
      let (s, ok) := o.writes.foldl (fun (acc : State × Bool) e =>
        let (s, ok) := acc.1.writeData (lo + e.1) e.2
        (s, acc.2 && ok)) (s, true)
      if ¬ ok then
        let (w, s) := s.free
        (s.intakeEnds x 9 (w.toNat % 2 ^ 16), none)
      else
        let s := s.setObj O.intakeChunks (min (2 ^ 64 - 1) (s.obj O.intakeChunks + 1))
        (s, some { x with written := x.written + 1, reading := x.reading.filter (· != n), got := x.got.filter fun e => e.1 != n })

/-- Take chunks in container order as far as they have come. -/
def State.intakeTake (s : State) (x : Intake) : Nat → State
  | 0 => s.putIntake x
  | fuel + 1 =>
    match x.reading with
    | [] => if x.written = x.chunks.length then s.intakeEnds x 0 0 else s.putIntake x
    | n :: _ =>
      match x.got.find? fun e => e.1 == n with
      | none => s.putIntake x
      | some (_, d) =>
        let r : State × Option Intake := match d with
          | none => s.chunkFails x n 1
          | some d =>
            if ¬ chunkGood d then s.chunkFails x n 0
            else if natAt d 0 4 ≠ n then s.chunkFails x n 2
            else s.chunkWrite x n d
        match r.2 with
        | none => r.1
        | some y =>
          let (s, y) := r.1.intakeFetch y 16
          s.intakeTake y fuel

/-- Intakes that found the engine full fetch what they can now, the oldest first. -/
def State.intakesFetch (s : State) : State :=
  forEach s.intakes (fun s x =>
    match s.intakeFetch x 16 with
    | (s, y) => s.putIntake y) s

/-- The read of chunk `n` of the `INTAKE` at position `k` of a ring ends with its record, or with an error. -/
def State.chunkArrival (s : State) (r k n : Nat) (data : Option (List Byte)) : State :=
  match s.findIntake r k with
  | none => s
  | some x =>
    if ¬ x.reading.contains n ∨ x.got.any fun e => e.1 == n then s
    else (s.intakeTake { x with got := x.got ++ [(n, data)] } 32).intakesFetch

def execIntakeChunkArrival (r : Fin 9) (k n : Nat) (data : Option (List Byte)) (s : State) : Result := .next (s.chunkArrival r k n data)

/-! ### The command -/

/-- The container's headers have been read: it is checked, its slot is taken and its first chunks are fetched. -/
def State.intakeStart (s : State) (r : Nat) (c : RingCmd) (h : List Byte) (heads : List (List Byte)) : State :=
  let kind := c.arg 40 1
  let chunks := pxcChunks 64 heads
  let total := 64 + (chunks.map (·.2)).sum
  let size := s.fld (F.genSlotSize.val r)
  let bad := !pxcHeaderGood h || total != c.arg 24 8 || (kind == 1 && (size == 0 || size < natAt h 0x10 8))
  if bad then s.finish r c 4
  else
    let go (s : State) (dest limit : Nat) (slot : Option Nat) : State :=
      let x : Intake :=
        { set := r, cmd := c, address := c.arg 16 8, dest := dest, limit := limit, slot := slot, switch := c.arg 41 1 % 2 == 1
          gen := c.arg 48 8, chunks := chunks }
      match ({ s with intakes := s.intakes ++ [x] }).intakeFetch x 16 with
      | (s, x) => s.intakeTake x 1
    if kind = 0 then go s (c.arg 32 8) (2 ^ 64) none
    else
      match s.freeGenSlot r with
      | (none, s) => s.finish r c 1
      | (some j, s) => go (s.setGenSlot r j 1) (2 ^ 16 * s.fld (F.genSlotBase.val r j)) size (some j)

/-- `INTAKE` is taken: `hdr` is the file header and `heads` the chunk headers as the host reads return them; a read that fails ends it. -/
def State.intake (s : State) (r : Nat) (c : RingCmd) (hdr : Option (List Byte)) (heads : List (List Byte)) : State :=
  let kind := c.arg 40 1
  if 1 < kind ∨ (r = 8 ∧ kind = 1) then s.finish r c 4
  else
    match hdr with
    | none => s.hostReadFails.finish r c 6 0
    | some h =>
      if heads.length < natAt h 8 4 ∧ pxcHeaderGood h then
        s.hostReadFails.finish r c 6 (64 + ((pxcChunks 64 heads).map (·.2)).sum)
      else s.intakeStart r c h (heads.take (natAt h 8 4))

def execIntake (r : Fin 9) (hdr : Option (List Byte)) (heads : List (List Byte)) (s : State) : Result :=
  .next (s.take r 0x05 fun s c => s.intake r c hdr heads)

/-- The intakes of a ring set end with status 8 at the reset of its context (R328). -/
def State.intakeReset (s : State) (c : Nat) : State :=
  (forEach (s.intakes.filter fun x => x.set == c) (fun s x => s.intakeEnds x 8 0) s).intakesFetch

end Sys2Proof.Machine
end

