-- ==== Sys2Proof/Machine/Flash.lean ====
section
/-! DEFINITION. The banks of the Ronbin block's flash: sectors, pieces and the two bits of each (R461, R468, R469), the fuses (R462, R475), and
the trial (R475). -/

namespace Sys2Proof.Machine

/-! ### Pieces and sectors (R461, R468, R469) -/

/-- The sector of a bank piece `n` lies in: 64 KiB hold 64 pieces. -/
def sectorOf (n : Nat) : Nat := n / 64

/-- A piece is durable once its complete bit is set. -/
def Bank.durable (b : Bank) (n : Nat) : Bool := Tab.get (fun _ => []) b.pieces n != []

/-- Pieces whose begun bit is set and whose complete bit is clear. -/
def Bank.torn (b : Bank) : List Nat := b.begun.filter fun n => !b.durable n

/-- The bytes of piece `n` as the bank holds them: an erased byte reads 0xFF. -/
def Bank.cells (b : Bank) (n : Nat) : List Byte := match Tab.get (fun _ => []) b.pieces n with | [] => List.replicate 1024 0xFF | l => l

/-- Begin piece `n`: its begun bit is set. -/
def Bank.begin (b : Bank) (n : Nat) : Bank := if b.begun.contains n then b else { b with begun := b.begun ++ [n] }

/-- Program a piece: its begun bit, its data, its complete bit. A program operation only clears bits. -/
def Bank.program (b : Bank) (n : Nat) (data : List Byte) : Bank :=
  let cells := (b.cells n).zipWith (· &&& ·) data
  { b.begin n with pieces := Tab.put (fun _ => []) b.pieces n cells }

/-- Erase one sector. -/
def Bank.eraseSector (b : Bank) (j : Nat) : Bank :=
  { b with pieces := Tab.drop b.pieces fun n => sectorOf n == j, begun := b.begun.filter fun n => sectorOf n != j }

/-- The repair of one sector with a torn piece: its durable pieces are programmed back after the erase. -/
def Bank.repairSector (b : Bank) (j : Nat) : Bank :=
  (b.pieces.filter fun e => sectorOf e.1 == j).foldl (fun x e => x.program e.1 e.2) (b.eraseSector j)

/-- A bitmap copy is written (R461, R466, R469). -/
def State.writeBitmap (s : State) : State := s.modFlash fun f => { f with bitmapCopy := 1 - f.bitmapCopy, bitmapSeq := f.bitmapSeq + 1 }

/-! ### Banks -/

def State.bank (s : State) (k : Nat) : Bank := if k = 0 then s.flash.bankA else s.flash.bankB
def State.setBank (s : State) (k : Nat) (b : Bank) : State := s.modFlash fun f => if k = 0 then { f with bankA := b } else { f with bankB := b }
def State.modBank (s : State) (k : Nat) (f : Bank → Bank) : State := s.setBank k (f (s.bank k))

/-- Torn pieces of bank `k` are repaired, sector by sector (R469). -/
def State.repairBank (s : State) (k : Nat) : State :=
  forEach ((upto 16).filter fun j => (s.bank k).torn.any fun n => sectorOf n == j) (fun s j => (s.modBank k fun b => b.repairSector j).writeBitmap) s

/-- A trial runs, or its restart is under way. -/
def State.onTrial (s : State) : Bool := (s.bank 0).state == .trial || (s.bank 1).state == .trial

/-- The bank on trial. -/
def State.trialBank (s : State) : Option (Fin 2) := if (s.bank 0).state = .trial then some 0 else if (s.bank 1).state = .trial then some 1 else none

/-- The trial image serves: its restart is over. -/
def State.trialRuns (s : State) : Bool := s.onTrial && s.ronbin.restart.isNone

/-- Seconds the trial has run, saturating. -/
def State.trialRun (s : State) : Nat := min (s.ronbin.trialPs / 10 ^ 12) 65535

/-! ### Fuses (R462, R475) -/

/-- The fuse burn the pending-fuse flag records: the fuses advance to what the confirmed image names; an image never revokes its own key. -/
def State.burnFuses (s : State) (k : Nat) : State :=
  let b := s.bank k
  s.modFlash fun f =>
    { f with
      mgmtSvn := max f.mgmtSvn (min b.svn 64), rtSvn := max f.rtSvn (min b.rtMin 64)
      revoked := f.revoked ||| (b.revoke &&& (15 - 2 ^ (b.key % 4))), fusePending := false }

/-- A burn the pending-fuse flag records is completed. -/
def State.fuseTurn (s : State) : State :=
  match s.flash.fusePending, s.flash.confirmed with
  | true, some k => s.burnFuses k
  | _, _ => s

end Sys2Proof.Machine
end

