-- ==== Sys2Proof/Machine/Slots.lean ====
section
/-! DEFINITION. The service of a port's slots and the swap of its reservation banks (R263, R264, R284 to R288). -/

namespace Sys2Proof.Machine

/-! ### Which flit a slot takes (Table 11.4) -/

/-- No flit of an earlier transfer of this module's stream waits at a port (R281). -/
def State.streamTurn (s : State) (q : QFlit) : Bool :=
  q.held.isSome || (upto 8).all fun p => (s.port p).txq.all fun x => x.held.isSome || x.flit.tag != q.flit.tag || q.turn ≤ x.turn

/-- A scheduled flit of a context transfer of this module: while the fence is up it is not sent, and its slot carries `IDLE` (R434). -/
def State.fenced (s : State) (q : QFlit) : Bool := s.fld F.fenceStatus.level != 0 && q.own && q.flit.vc / 2 == 0

/-- May flit `q` of port `p` be sent for the first time: the fence does not hold it back, a credit is held (R264), and it is next of its
stream (R281)? -/
def State.sendable (s : State) (p : Nat) (l : List QFlit) (q : QFlit) : Bool :=
  !s.fenced q && s.fld (F.portVcCredit.val p q.flit.vc) != 0
    && (l.find? fun x => x.flit.tag == q.flit.tag && x.held.isSome == q.held.isSome) == some q && s.streamTurn q

/-- Place in the queue of the oldest sendable flit that `sel` accepts. -/
def State.pick (s : State) (p : Nat) (sel : QFlit → Bool) : Option Nat :=
  let l := (s.port p).txq
  l.findIdx? fun q => sel q && s.sendable p l q

/-- What a slot sends: a replayed flit, or the queued flit at a place. -/
inductive SlotPick
  | replay | queued (i : Nat)
  deriving DecidableEq, Repr

def isClass (c : Nat) (q : QFlit) : Bool := q.flit.vc / 2 == c

/-- Reserve slots, and free slots not granted, after slot `n` of the frame. -/
def State.reserveLeft (s : State) (p n : Nat) : Bool := (upto 4096).any fun m => n < m && s.activeUse p m == 2
def State.freeLeft (s : State) (p frame n : Nat) : Bool :=
  (upto 4096).any fun m => n < m && s.activeUse p m == 0 && !(s.port p).ledger.contains (4096 * frame + m)

/-- A sequence of choices: the first that is there. -/
def firstPick : List (Option SlotPick) → Option SlotPick
  | [] => none
  | some x :: _ => some x
  | none :: rest => firstPick rest

/-- Every remaining reserve and free slot of the frame is taken: a replay uses scheduled slots (R287). -/
def State.replayOverruns (s : State) (p frame n : Nat) : Bool := !s.reserveLeft p n && !s.freeLeft p frame n

/-- The flit slot `n` of a frame of port `p` sends. -/
def State.slotPick (s : State) (p frame n : Nat) : Option SlotPick :=
  let x := s.port p
  let fresh := s.portState p == psUp && x.replay.length < 1024
  let q (sel : QFlit → Bool) : Option SlotPick := if fresh then (s.pick p sel).map .queued else none
  let replay : Option SlotPick := if x.replayAt.isSome then some .replay else none
  let control := if x.control < 64 then q (isClass 3) else none
  let reserve := s.reserveLeft p n
  let free :=
    [if reserve then none else replay, if reserve then none else control, q (isClass 2),
     q fun f => isClass 1 f && f.grant == some (4096 * frame + n), q fun f => isClass 1 f && f.held.isSome, q (isClass 1)]
  match s.activeUse p n with
  | 1 => firstPick ((if s.replayOverruns p frame n then replay else none) :: q (isClass 0) :: free)
  | 2 => firstPick (replay :: control :: free)
  | _ => firstPick free

/-! ### Sending it -/

/-- Send the next flit of a replay (R265). -/
def State.sendReplay (s : State) (p : Nat) : State :=
  let x := s.port p
  match x.replayAt with
  | none => s
  | some i =>
    match x.replay[i]? with
    | none => s.setPort p { x with replayAt := none }
    | some r => (s.setPort p { x with replayAt := if i + 1 < x.replay.length then some (i + 1) else none }).sendFlit p r.flit

/-- Send the queued flit at place `i` for the first time: it takes the next `SEQ` and one credit, and is kept for replay; a transit
flit leaves its receive buffer (R264, R265). -/
def State.sendQueued (s : State) (p i : Nat) : State :=
  let x := s.port p
  match x.txq[i]? with
  | none => s
  | some q =>
    let f := { q.flit with seq := x.nextSeq }
    let x :=
      { x with
        txq := x.txq.eraseIdx i
        replay := x.replay ++ [{ flit := f }]
        nextSeq := (x.nextSeq + 1) % 4096
        control := if isClass 3 q then x.control + 1 else x.control }
    let s := (s.setPort p x).setFld (F.portVcCredit.val p f.vc) (s.fld (F.portVcCredit.val p f.vc) - 1)
    let s := match q.held with
      | some (r, v) => s.oweCredit r v
      | none => s
    s.sendFlit p f

/-- The counts that belong to one frame start again with the frame (R287); grants of past slots are dropped. -/
def State.enterFrame (s : State) (p frame : Nat) : State :=
  if (s.port p).frame = frame then s
  else s.modPort p fun x => { x with frame := frame, control := 0, overrun := false, ledger := x.ledger.filter fun g => 4096 * frame ≤ g }

/-- A scheduled slot that a replay uses for want of any other counts the frame once (R287). -/
def State.noteOverrun (s : State) (p frame n : Nat) (pick : Option SlotPick) : State :=
  if pick = some .replay ∧ s.activeUse p n = 1 ∧ s.replayOverruns p frame n ∧ ¬ (s.port p).overrun then
    ((s.modPort p fun x => { x with overrun := true }).bumpReg (R.resOverruns p)).markSeen 2
  else s

/-- The start of slot `n` of the frame that holds the present Lark time (R286). A port that carries no traffic sends nothing; an
empty slot carries `IDLE`. -/
def State.slotStart (s : State) (p n : Nat) : State :=
  if ¬ s.portLive p ∨ s.stileMoving (portAxis p) then s
  else
    let frame := s.now / framePs
    let s := s.enterFrame p frame
    let pick := s.slotPick p frame n
    let s := s.noteOverrun p frame n pick
    match pick with
    | none => s.sendFlit p { type := 0 }
    | some .replay => s.sendReplay p
    | some (.queued i) => s.sendQueued p i

def execSlotStart (p : Fin 8) (n : Fin 4096) (s : State) : Result := .next (s.slotStart p n)

/-! ### Bank swaps (R285, R288) -/

/-- Entries of a bank with a `USE`. -/
def State.countUse (s : State) (p b u : Nat) : Nat := ((upto 4096).filter fun n => s.slotUse p b n == u).length

/-- Does a bank pass the checks of R285? -/
def State.bankPasses (s : State) (p b : Nat) : Bool := s.countUse p b 1 ≤ 3072 && 205 ≤ s.countUse p b 2

/-- A write of `RES_SWAP_FRAME`: a swap to the other bank at the start of frame `k` (R288). -/
def State.resSwap (s : State) (p k : Nat) : State :=
  let b := 1 - s.fld (F.resStatus.active p)
  if k ≤ s.now / framePs ∨ ¬ s.bankPasses p b then s.setBit (F.resStatus.swapRefused p) true
  else (s.modPort p fun x => { x with swapFrame := k }).setBit (F.resStatus.swapPending p) true

def execResSwapFrame (p : Fin 8) (k : Word) (s : State) : Result := .next (s.resSwap p k.toNat)

/-- The start of the frame that holds the present Lark time: a pending swap whose frame it is takes effect; refused transfers of a publication are issued again (R337). -/
def State.swapDue (s : State) (p : Nat) : State :=
  if s.bit (F.resStatus.swapPending p) ∧ (s.port p).swapFrame ≤ s.now / framePs then
    let b := 1 - s.fld (F.resStatus.active p)
    let s := (s.setFld (F.resStatus.active p) b).setBit (F.resStatus.swapPending p) false
    (s.setFld (F.resStatus.schedSlots p) (s.countUse p b 1)).setFld (F.resStatus.reserveSlots p) (s.countUse p b 2)
  else s

def execFrameStart (s : State) : Result :=
  .next (forEach (upto 8) (fun s p => (s.enterFrame p (s.now / framePs)).swapDue p) s).publishRetry

end Sys2Proof.Machine
end

