-- ==== Sys2Proof/Machine/Lark.lean ====
section
/-! DEFINITION. Lark time, its exchange, parent and holdover, the epoch pins, frame contracts and snapshots (R300 to R308,
R311, R313). -/

namespace Sys2Proof.Machine

/-! ### The tick (R301) -/

/-- `LARK_RATE` as a signed number. -/
def State.larkRate (s : State) : Int := (s.reg R.larkRate).toInt

/-- Time above level 0 accumulates in `THROTTLE_TIME` (R446). -/
def State.throttleTick (s : State) : State :=
  if s.fld F.pwrStatus.level = 0 then s else s.bumpReg R.throttleTime 1000

/-- The Ronbin block serves: its image runs, or its boot ROM in recovery mode, and no restart is under way. -/
def State.ronbinUp (s : State) : Bool := (s.ronbin.running.isSome || s.ronbin.recovery) && s.ronbin.restart.isNone

/-- While the Ronbin block serves with PLCA on, beacons pass on the segment; 10 ms after the last of them none has been seen or sent for that long
(Table 14.10). -/
def State.plcaTick (s : State) : State :=
  s.modRonbin fun r => { r with beaconPs := if s.ronbinUp && s.obj O.plcaEn != 0 then 10 ^ 10 else r.beaconPs - 1000 }

/-- While the Ronbin block serves, the fuse burn of a confirmation goes on (R475, log entry 134) and a trial runs (R475). -/
def State.flashTick (s : State) : State :=
  if ¬ s.ronbinUp then s
  else
    let s := if s.trialRuns then s.modRonbin fun r => { r with trialPs := r.trialPs + 1000 } else s
    s.fuseTurn

/-- One SCLK, in which publications stage (R337): 1,000 ps and the rate correction in units of 2^−40 of the nominal rate, its fraction carried; the time never
decreases. -/
def State.tick (s : State) : State :=
  let s := s.throttleTick.stageTick.plcaTick.flashTick
  let rate : Int := ((s.reg R.larkRate).extractLsb' 0 32).toInt
  let total : Int := 1000 * 2 ^ 40 + 1000 * rate + (s.lark.fraction : Int)
  let step := (total / 2 ^ 40).toNat
  ({ s with lark := { s.lark with fraction := (total % 2 ^ 40).toNat } }).setReg R.larkTime (BitVec.ofNat 64 (s.now + step))

/-! ### Parent, lock, steering (R303, R305, R306) -/

def State.gmCoord (s : State) : Nat := s.fld F.larkGmCoord.val
def State.isGm (s : State) : Bool := s.bit F.larkCtl.gm

/-- The port of the first hop to the grandmaster, the alternate way when `alt` is set. -/
def State.parentVia (s : State) (alt : Bool) : Option Nat := s.outPort s.gmCoord (s.dirsTo s.gmCoord alt)

/-- Is the port of the way to the grandmaster `UP`? -/
def State.viaUp (s : State) (alt : Bool) : Bool := match s.parentVia alt with | some p => s.portState p == psUp | none => false

/-- The time parent's port: the shorter way's while that port reads `UP`, else that of the way taken since (R303, R306). -/
def State.parentPort (s : State) : Option Nat := if s.isGm then none else s.parentVia (s.lark.alt && !s.viaUp false)

/-- Set `LARK_STATE`, with bit 5 of `FUNC_READY`: ready while locked, grandmaster or in a holdover not expired (R306). A state that is
neither locked nor grandmaster is a condition of R294. -/
def State.setLarkState (s : State) (v : Nat) : State :=
  let s := s.setFld F.larkStatus.state v
  (if s.larkLocked then s else s.markSeen 4).setFuncReady 5 s.larkCounts

/-- The limit of slewing: 2^−20 of nominal, in units of 2^−40. -/
def slewLimit : Int := 2 ^ 20

/-- Follow an offset of `off` ps from the parent (parent − own, R302, R303). -/
def State.steer (s : State) (off : Int) : State :=
  let good : Nat := if off.natAbs ≤ 20 then min 16 (s.lark.good + 1) else 0
  let s : State := ({ s with lark := { s.lark with good := good } }).setReg R.larkOffset (BitVec.ofInt 64 off)
  let s : State :=
    if (s.lark.relock ∧ off ≠ 0) ∨ 1000000 < off.natAbs then
      ((s.setReg R.larkTime (BitVec.ofInt 64 ((s.now : Int) + off))).bump F.larkSteps.steps).setReg R.larkRate 0
    else
      let interval : Int := 1000000 * max 1 (s.fld F.larkSyncInterval.val : Nat)
      let r : Int := max (-slewLimit) (min slewLimit (2 ^ 40 * off / interval))
      s.setFld F.larkRate.val (r % 2 ^ 32).toNat
  if good = 16 then ({ s with lark := { s.lark with relock := false } }).setLarkState 2
  else if s.fld F.larkStatus.state = 2 ∧ 0 < good then s
  else s.setLarkState 1

/-! ### TIME flits (R302, R305, R308) -/

/-- Hops to the grandmaster as `DIST` gives them, 255 for none: a module that follows a parent has its depth (Table 11.6). -/
def State.larkDist (s : State) : Nat :=
  let d := s.fld F.larkStatus.depth
  if s.isGm then 0 else if d ≠ 0 ∧ [1, 2].contains (s.fld F.larkStatus.state) then d else 255

/-- The payload of a `TIME` flit (Table 11.6). -/
def State.timePayload (s : State) (msg seq tReqRx tReqTx : Nat) : List Byte :=
  let gm := s.isGm
  leBytes 1 msg ++ leBytes 1 (boolNat s.larkLocked + boolNat s.coordKnown * 2 + 4 * boolNat gm) ++ leBytes 2 seq
    ++ leBytes 4 (if gm then s.coord else s.gmCoord) ++ leBytes 8 s.now ++ leBytes 8 tReqRx ++ leBytes 8 tReqTx ++ leBytes 4 s.coord
    ++ leBytes 1 s.larkDist

/-- A request goes out on a port that reads `UP` or `ARMED`. -/
def State.larkExchange (s : State) (p : Nat) : State :=
  if ¬ s.portLive p then s
  else
    let e := ((s.port p).exchange + 1) % 2 ^ 16
    (s.modPort p fun x => { x with exchange := e, sentAt := s.now }).sendFlit p
      { type := 4, first := true, last := true, len := 37, payload := s.timePayload 0 e 0 0 }

def execLarkSyncExchange (p : Fin 8) (s : State) : Result := .next (s.larkExchange p)

/-- PH3 was latched 1: the coordinate comes from discovery (R308, R399). -/
def State.discovers (s : State) : Bool := (s.fld F.strapLatch.val).testBit 3

/-- A discovered coordinate takes a value. -/
def State.placeAt (s : State) (co : Nat) (source : Option (Nat × Nat)) : State :=
  ({ s.setObj O.moduleCoordinate co with coordKnown := true, lark := { s.lark with source := source } }).setBit F.larkStatus.coordDiscovered true

/-- The coordinate of a grandmaster under discovery is `LARK_GM_COORD` (R308). -/
def State.gmPlace (s : State) : State :=
  if s.discovers ∧ s.isGm ∧ (¬ s.coordKnown ∨ s.bit F.larkStatus.coordDiscovered) then s.placeAt s.gmCoord none else s

/-- Does a valid `TIME` flit of `DIST` `dist` on port `p` set the coordinate: none is known, or it was taken from a flit of larger
`DIST`, or of the same on a port later in the order W, X, Y, Z, + before − (R308; log entry 118)? -/
def State.betterSource (s : State) (dist p : Nat) : Bool :=
  s.discovers && !s.isGm &&
    (!s.coordKnown || match s.lark.source with | some (d, q) => dist < d || (dist == d && p < q) | none => false)

/-- A module under discovery takes its coordinate from a neighbour's (R308): moved one active position along the receiving port's
axis. -/
def State.discover (s : State) (p co dist : Nat) : State :=
  let a := portAxis p
  let l := s.ringLen a
  let pos := coordAt co a
  let step (k : Nat) : Nat := if portDir p = 1 then (pos + k) % l else (pos + l - k % l) % l
  let k := ((upto l).map (· + 1)).find? fun k => s.activeAt a (step k)
  s.placeAt (Machine.coordSet co a (step (k.getD 1))) (some (dist, p))

/-- A `TIME` flit that arrived with stamp `t`. -/
def State.timeIn (s : State) (p : Nat) (f : Flit) (t : Nat) : State :=
  let b := f.payload
  let flags := natAt b 1 1
  let gm := natAt b 4 4 % 2 ^ 17
  let co := natAt b 32 4 % 2 ^ 17
  let dist := natAt b 36 1
  let s := if flags.testBit 1 ∧ s.betterSource dist p then s.discover p co dist else s
  let s :=
    if s.isGm ∧ gm < s.coord then
      (((s.setBit F.larkCtl.gm false).setBit F.larkStatus.gmConflict true).setFld F.larkGmCoord.val gm).setLarkState 1
    else s
  match natAt b 0 1 with
  | 0 =>
    s.sendFlit p { type := 4, first := true, last := true, len := 37, payload := s.timePayload 1 (natAt b 2 2) t (natAt b 8 8) }
  | 1 =>
    if natAt b 2 2 ≠ (s.port p).exchange then s
    else
      let t1 : Int := (natAt b 24 8 : Nat)
      let t2 : Int := (natAt b 16 8 : Nat)
      let t3 : Int := (natAt b 8 8 : Nat)
      let t4 : Int := (t : Nat)
      let asym := ((s.reg (R.portAsym p)).extractLsb' 0 32).toInt
      let delay := ((t4 - t1) - (t3 - t2)) / 2 + asym
      let s := s.setReg (R.portLinkDelay p) (BitVec.ofInt 64 delay)
      if s.parentPort = some p ∧ dist ≠ 255 then
        let s := { s with lark := { s.lark with alt := s.parentVia false != some p } }
        let s := (s.setFld F.larkStatus.parent p).setFld F.larkStatus.depth (dist + 1)
        s.steer (t2 - t1 - delay)
      else s
  | _ => s

def execTimeFlitReceived (p : Fin 8) (x : WireFlit) (t : Word) (s : State) : Result :=
  .next (s.onFlit p 4 x fun s f => s.timeIn p f t.toNat)

/-- The parent port has left `UP`: the next way to the grandmaster whose port reads `UP`, or holdover (R306), also of a module that is still
acquiring or locks again. DESIGN CHOICE, log entry 131: one that has followed no parent yet has no rate to hold and stays acquiring. -/
def State.parentLost (s : State) : State :=
  if s.isGm ∨ (s.parentVia false).isNone ∨ s.viaUp false ∨ (s.lark.alt ∧ s.viaUp true) then s
  else if s.viaUp true then
    ({ s with lark := { s.lark with alt := true } }).setFld F.larkStatus.parent ((s.parentVia true).getD 0)
  else if s.fld F.larkStatus.state = 2 ∨ (s.fld F.larkStatus.state = 1 ∧ s.fld F.larkStatus.depth ≠ 0) then s.setLarkState 3
  else s

def execParentPortLost (s : State) : Result := .next s.parentLost

def execHoldoverExpiry (s : State) : Result := .next (if s.fld F.larkStatus.state = 3 then s.setLarkState 0 else s)

/-! ### Epoch pins (R307) -/

/-- A rising edge on PH0. -/
def State.epochIn (s : State) : State :=
  if ¬ s.isGm ∨ ¬ s.bit F.larkCtl.epochInEn ∨ s.fld F.phaseStatus.phase ≠ 2 then s
  else
    let per := max 1 (s.reg R.larkEpochPeriod).toNat
    let r := s.now % per
    let off : Int := if 2 * r < per then -(r : Int) else ((per - r : Nat) : Int)
    if ¬ s.lark.epochSeen then
      ({ s with lark := { s.lark with epochSeen := true } }).setReg R.larkTime (BitVec.ofInt 64 ((s.now : Int) + off))
    else if off.natAbs ≤ 1000000 then
      let r : Int := max (-slewLimit) (min slewLimit (2 ^ 40 * off / (per : Int)))
      s.setFld F.larkRate.val (r % 2 ^ 32).toNat
    else s.bump F.larkSteps.epochRejects

def execEpochEdgeIn (s : State) : Result := .next s.epochIn

/-- At a Lark multiple of the epoch period PH1 is driven high for 1 µs. -/
def execEpochPulseOut (s : State) : Result := .next (if s.bit F.larkCtl.epochOutEn ∧ s.fld F.phaseStatus.phase = 2 then s.send (.epoch s.now) else s)

/-- Any context runs. -/
def State.anyRunning (s : State) : Bool := (upto 8).any fun c => (s.ctx c).running

/-- A write of `LARK_SET` on the grandmaster (Table 11.7). -/
def State.larkSet (s : State) (v : Word) : State := if s.isGm ∧ ¬ s.anyRunning then s.setReg R.larkTime v else s

def execLarkSet (v : Word) (s : State) : Result := .next (s.larkSet v)

/-- A write of `LARK_GM` (R305): 1 needs strap PH5. -/
def State.larkGm (s : State) (v : Bool) : State :=
  if v then
    (if (s.fld F.strapLatch.val).testBit 5 then
      let s := { s with lark := { s.lark with relock := false } }
      (((s.setBit F.larkCtl.gm true).setFld F.larkStatus.depth 0).setLarkState 4).gmPlace
    else s)
  else if s.isGm then (s.setBit F.larkCtl.gm false).setLarkState 1 else s

/-! ### Frame contracts (R300) -/

/-- Is `FC_OBJ` the offset of a counter? -/
def isCounter (o : Nat) : Bool :=
  match placeOf o with
  | .control _ off => isCounterOff off && o % 8 == 0
  | _ => false

/-- Does the sum of `FC_BUDGET` ÷ `FC_PERIOD` over the enabled contracts and `c` exceed 0.5? Over a common denominator. -/
def State.budgetExceeded (s : State) (c : Nat) : Bool :=
  let l := (upto 8).filter fun d => d == c || s.bit (F.fcCtl.enable d)
  let per (d : Nat) : Nat := (s.reg (R.fcPeriod d)).toNat
  let den := (l.map per).foldl (· * ·) 1
  let num := (l.map fun d => (s.reg (R.fcBudget d)).toNat * (den / max 1 (per d))).sum
  den == 0 || den < 2 * num

/-- The first judged frame of a contract enabled now. -/
def State.firstFrame (s : State) (c : Nat) : Nat :=
  let start := (s.reg (R.fcStart c)).toNat
  let per := max 1 (s.reg (R.fcPeriod c)).toNat
  if s.now < start then 0 else (s.now - start + per - 1) / per

/-- A write of `FC_ENABLE`. Table 16.6 gives the refusal a port as its unit, and a frame contract has none: a free value (log entry 129). -/
def State.fcEnable (s : State) (c : Nat) (v : Bool) : State :=
  if ¬ v then s.setBit (F.fcCtl.enable c) false
  else if s.bit (F.fcCtl.enable c) then s
  else if s.budgetExceeded c then
    let (v, s) := s.free
    (s.setBit (F.fcCtl.refused c) true).raise 0x2003 0 0x04 (v.toNat % 8) (2 ^ 21 * c + 7 * 2 ^ 26)
  else
    let j := s.firstFrame c
    let s := (s.setBit (F.fcCtl.enable c) true).modCtx c fun x => { x with fcNext := j, fcSeen := s.condNow }
    let o := s.fld (F.fcObj.val c)
    if isCounter o then s.syncSet o (BitVec.ofNat 64 j) else s

def execFcEnableWrite (c : Fin 8) (v : Bool) (s : State) : Result := .next (s.fcEnable c v)

/-- The end of a judged frame of context `c`; the unit of its event is a port the spec does not name (log entry 129). -/
def State.judgeFrame (s : State) (c : Nat) : State :=
  if ¬ s.bit (F.fcCtl.enable c) then s
  else
    let j := (s.ctx c).fcNext
    let start := (s.reg (R.fcStart c)).toNat
    let due := start + (j + 1) * (s.reg (R.fcPeriod c)).toNat
    if s.now < due then s
    else
      let o := s.fld (F.fcObj.val c)
      let count := if isCounter o then (s.reg o).toNat else 0
      let seen := (s.ctx c).fcSeen
      let s := s.modCtx c fun x => { x with fcNext := j + 1, fcSeen := s.condNow }
      if j + 1 ≤ count then s
      else
        let (v, s) := s.free
        (s.bump (F.fcCtl.missed c)).promiseVoid (v.toNat % 8) 0 0 c 2 (s.condFlags seen) (s.now - due)

def execFrameContractJudgement (c : Fin 8) (s : State) : Result := .next (s.judgeFrame c)

/-! ### Snapshots (R311) -/

/-- A write of `SNAP_TIME`; 0 disarms. -/
def State.snapWrite (s : State) (c : Nat) (v : Word) : State :=
  let s := s.setReg (R.snapTime c) v
  if v = 0 then s.setBit (F.snapStatus.armed c) false
  else if v.toNat < 10000000 + s.now ∨ ¬ s.larkCounts then
    (s.setBit (F.snapStatus.armed c) false).setBit (F.snapStatus.refused c) true
  else
    forEach [F.snapStatus.ready c, F.snapStatus.failed c, F.snapStatus.overlap c] (fun s f => s.setBit f false)
      (s.setBit (F.snapStatus.armed c) true)

def execSnapTimeWrite (c : Fin 8) (v : Word) (s : State) : Result := .next (s.snapWrite c v)

/-- A sweep or commit of a context is under way. -/
def State.sweeping (s : State) (c : Nat) : Bool :=
  match (s.ctx c).phase with
  | .sweep => true
  | .commitWait => true
  | _ => false

/-- `SNAP_TIME` of an armed snapshot is reached: issue of the context freezes. -/
def State.snapReached (s : State) (c : Nat) : State :=
  if ¬ s.bit (F.snapStatus.armed c) ∨ s.now < (s.reg (R.snapTime c)).toNat then s
  else
    let s := (s.setBit (F.snapStatus.armed c) false).modCtx c fun x => { x with frozen := true }
    let s := if s.larkLocked then s else s.setBit (F.snapStatus.failed c) true
    if s.sweeping c then s.setBit (F.snapStatus.overlap c) true else s

def execSnapTimeReached (c : Fin 8) (s : State) : Result := .next (s.snapReached c)

/-- No descriptor of the context is outstanding and no transfer of it is open here. -/
def State.ctxDrained (s : State) (c : Nat) : Bool :=
  (s.threads.all fun e => s.fld (F.threadCtl.ctx (e.1 / 16) (e.1 % 16)) != c || (e.2.pend.isEmpty && e.2.syncTid.isNone))
    && s.xfers.all (fun x => x.ctx != c || x.placed) && s.accepted.all (fun x => x.arrived.ctx != c) && s.arrived.all (fun a => a.ctx != c)
    && s.reassemblies.all (fun r => natAt r.payload 1 1 % 8 != c) && s.rxWait.all (fun w => !w.2.first || natAt w.2.payload 1 1 % 8 != c)

/-- The frozen context has drained: `SNAP_READY`, and an entry on its event ring. -/
def State.snapDrained (s : State) (c : Nat) (post : State → State) : State :=
  if (s.ctx c).frozen ∧ ¬ s.bit (F.snapStatus.ready c) ∧ s.ctxDrained c then post (s.setBit (F.snapStatus.ready c) true) else s

/-- `SNAP_RESUME` of a frozen context is reached: issue resumes. -/
def State.snapResume (s : State) (c : Nat) : State :=
  if ¬ (s.ctx c).frozen ∨ s.now < (s.reg (R.snapResume c)).toNat then s
  else
    let s := s.modCtx c fun x => { x with frozen := false }
    if s.bit (F.snapStatus.ready c) then s else s.setBit (F.snapStatus.failed c) true

def execSnapResumeReached (c : Fin 8) (s : State) : Result := .next (s.snapResume c)

end Sys2Proof.Machine
end

