-- ==== Sys2Proof/Machine/Schedule.lean ====
section
/-! DEFINITION. The schedule engine and the update unit as pure functions: the learning rate (R208 to R210), the Heath rule
(R206), CRC-64 digests (R216), the combination of vote words (R191, R192). -/

namespace Sys2Proof.Machine

/-! ### The cosine table (R209): 2^30 × (1 + cos(π i / 256)), rounded to nearest even -/

def cosTab0 : List Nat := [
  0x80000000, 0x7FFEC42D, 0x7FFB10C1, 0x7FF4E5E0, 0x7FEC43C7, 0x7FE12ACB, 0x7FD39B5A, 0x7FC395F9,
  0x7FB11B48, 0x7F9C2BFB, 0x7F84C8E2, 0x7F6AF2E3, 0x7F4EAAFE, 0x7F2FF24A, 0x7F0EC9F5, 0x7EEB3347,
  0x7EC52FA0, 0x7E9CC076, 0x7E71E759, 0x7E44A5EF, 0x7E14FDF7, 0x7DE2F148, 0x7DAE81CF, 0x7D77B192,
  0x7D3E82AE, 0x7D02F757, 0x7CC511D9, 0x7C84D496, 0x7C42420A, 0x7BFD5CC4, 0x7BB6276E, 0x7B6CA4C4]
def cosTab1 : List Nat := [
  0x7B20D79E, 0x7AD2C2E8, 0x7A8269A3, 0x7A2FCEE8, 0x79DAF5E8, 0x7983E1E8, 0x792A9642, 0x78CF1669,
  0x787165E3, 0x7811884D, 0x77AF8159, 0x774B54CE, 0x76E5068A, 0x767C9A7E, 0x761214B0, 0x75A5793C,
  0x7536CC52, 0x74C61236, 0x74534F41, 0x73DE87DE, 0x7367C090, 0x72EEFDEA, 0x72744493, 0x71F79948,
  0x717900D6, 0x70F8801F, 0x70761C18, 0x6FF1D9C7, 0x6F6BBE45, 0x6EE3CEBE, 0x6E5A1070, 0x6DCE88AA]
def cosTab2 : List Nat := [
  0x6D413CCD, 0x6CB2324C, 0x6C216EAA, 0x6B8EF77D, 0x6AFAD269, 0x6A650525, 0x69CD9578, 0x69348937,
  0x6899E64A, 0x67FDB2A7, 0x675FF452, 0x66C0B162, 0x661FEFFA, 0x657DB64C, 0x64DA0A9A, 0x6434F332,
  0x638E7673, 0x62E69AC8, 0x623D66A8, 0x6192E09B, 0x60E70F32, 0x6039F90F, 0x5F8BA4DC, 0x5EDC1953,
  0x5E2B5D38, 0x5D79775C, 0x5CC66E99, 0x5C1249D8, 0x5B5D100A, 0x5AA6C82B, 0x59EF7944, 0x59372A64]
def cosTab3 : List Nat := [
  0x587DE2A7, 0x57C3A931, 0x57088531, 0x564C7DDD, 0x558F9A76, 0x54D1E242, 0x54135C94, 0x535410C3,
  0x5294062F, 0x51D3443F, 0x5111D263, 0x504FB80E, 0x4F8CFCBE, 0x4EC9A7F3, 0x4E05C135, 0x4D415013,
  0x4C7C5C1E, 0x4BB6ECEF, 0x4AF10A22, 0x4A2ABB59, 0x49640837, 0x489CF867, 0x47D59396, 0x470DE172,
  0x4645E9AF, 0x457DB403, 0x44B54825, 0x43ECADCF, 0x4323ECBE, 0x425B0CAF, 0x4192155F, 0x40C90E90]
def cosTab4 : List Nat := [
  0x40000000, 0x3F36F170, 0x3E6DEAA1, 0x3DA4F351, 0x3CDC1342, 0x3C135231, 0x3B4AB7DB, 0x3A824BFD,
  0x39BA1651, 0x38F21E8E, 0x382A6C6A, 0x37630799, 0x369BF7C9, 0x35D544A7, 0x350EF5DE, 0x34491311,
  0x3383A3E2, 0x32BEAFED, 0x31FA3ECB, 0x3136580D, 0x30730342, 0x2FB047F2, 0x2EEE2D9D, 0x2E2CBBC1,
  0x2D6BF9D1, 0x2CABEF3D, 0x2BECA36C, 0x2B2E1DBE, 0x2A70658A, 0x29B38223, 0x28F77ACF, 0x283C56CF]
def cosTab5 : List Nat := [
  0x27821D59, 0x26C8D59C, 0x261086BC, 0x255937D5, 0x24A2EFF6, 0x23EDB628, 0x23399167, 0x228688A4,
  0x21D4A2C8, 0x2123E6AD, 0x20745B24, 0x1FC606F1, 0x1F18F0CE, 0x1E6D1F65, 0x1DC29958, 0x1D196538,
  0x1C71898D, 0x1BCB0CCE, 0x1B25F566, 0x1A8249B4, 0x19E01006, 0x193F4E9E, 0x18A00BAE, 0x18024D59,
  0x176619B6, 0x16CB76C9, 0x16326A88, 0x159AFADB, 0x15052D97, 0x14710883, 0x13DE9156, 0x134DCDB4]
def cosTab6 : List Nat := [
  0x12BEC333, 0x12317756, 0x11A5EF90, 0x111C3142, 0x109441BB, 0x100E2639, 0x0F89E3E8, 0x0F077FE1,
  0x0E86FF2A, 0x0E0866B8, 0x0D8BBB6D, 0x0D110216, 0x0C983F70, 0x0C217822, 0x0BACB0BF, 0x0B39EDCA,
  0x0AC933AE, 0x0A5A86C4, 0x09EDEB50, 0x09836582, 0x091AF976, 0x08B4AB32, 0x08507EA7, 0x07EE77B3,
  0x078E9A1D, 0x0730E997, 0x06D569BE, 0x067C1E18, 0x06250A18, 0x05D03118, 0x057D965D, 0x052D3D18]
def cosTab7 : List Nat := [
  0x04DF2862, 0x04935B3C, 0x0449D892, 0x0402A33C, 0x03BDBDF6, 0x037B2B6A, 0x033AEE27, 0x02FD08A9,
  0x02C17D52, 0x02884E6E, 0x02517E31, 0x021D0EB8, 0x01EB0209, 0x01BB5A11, 0x018E18A7, 0x01633F8A,
  0x013AD060, 0x0114CCB9, 0x00F1360B, 0x00D00DB6, 0x00B15502, 0x00950D1D, 0x007B371E, 0x0063D405,
  0x004EE4B8, 0x003C6A07, 0x002C64A6, 0x001ED535, 0x0013BC39, 0x000B1A20, 0x0004EF3F, 0x00013BD3]

def cosTable : List Nat := cosTab0 ++ cosTab1 ++ cosTab2 ++ cosTab3 ++ cosTab4 ++ cosTab5 ++ cosTab6 ++ cosTab7

/-! ### The learning rate (R208, R210) -/

/-- The schedule parameters of a context. -/
structure LrParams where
  peakMant : Nat
  exp : Int
  warmup : Nat
  kind : Nat
  decaySteps : Nat
  minFrac : Nat
  restartEn : Bool
  mult : Nat
  deriving DecidableEq, Repr

/-- `decay` of R208. -/
def lrDecay (kind phase : Nat) : Nat :=
  if kind = 0 then 0x80000000
  else if kind = 2 then 0x80000000 - phase
  else if 0x80000000 ≤ phase then 0
  else
    let i := phase / 2 ^ 23
    let f := phase % 2 ^ 23
    let c0 := cosTable.getD i 0
    let c1 := if i < 255 then cosTable.getD (i + 1) 0 else 0
    c0 - (c0 - c1) * f / 2 ^ 23

/-- The restarts with a growing cycle: start, position and length. -/
def lrCycles : Nat → Nat → Nat → Nat → Nat → Nat × Nat × Nat
  | 0, start, s, len, _ => (start, s, len)
  | fuel + 1, start, s, len, mult => if len ≤ s then lrCycles fuel (start + len) (s - len) (len * mult) mult else (start, s, len)

/-- Start, position and length of the cycle `lr_mant` reaches `s` steps after the warm-up. -/
def lrCycle (p : LrParams) (s : Nat) : Nat × Nat × Nat :=
  let len := max 1 p.decaySteps
  if ¬ p.restartEn then (0, s, len)
  else if p.mult ≤ 1 then (s / len * len, s % len, len)
  else lrCycles 64 0 s len p.mult

/-- `lr_mant` of R208. -/
def lrMant (p : LrParams) (t : Nat) : Nat :=
  let frac :=
    if t < p.warmup then 2 ^ 31 * (t + 1) / p.warmup
    else
      let s := t - p.warmup
      let d :=
        if p.kind = 3 then
          let wp := max p.warmup 1
          isqrt (2 ^ 62 * wp / (wp + s))
        else
          let c := lrCycle p s
          lrDecay p.kind (2 ^ 31 * min c.2.1 c.2.2 / c.2.2)
      p.minFrac + (0x80000000 - p.minFrac) * d / 2 ^ 31
  (p.peakMant * frac + 0x40000000) / 2 ^ 31

/-- The learning rate of a layer with exponent offset `o` as FP32 (R208). -/
def lrValue (p : LrParams) (t : Nat) (o : Int) : F32 := toF32 (.fin false (lrMant p t) (p.exp + o))

/-! ### The Heath rule (R206) -/

/-- What `heath` needs besides the element: η, λ, β1, β2, c1, c2. -/
structure HeathParams where
  eta : F32
  lam : F32
  b1 : F32
  b2 : F32
  c1 : F32
  c2 : F32
  deriving DecidableEq, Repr

/-- −1, 0 or 1 by sign. -/
def signF32 (v : F32) : F32 :=
  match valF32 v with
  | .nan _ => 0
  | .inf n => if n then 0xBF800000#32 else f32One
  | .fin n m _ => if m = 0 then 0 else if n then 0xBF800000#32 else f32One

/-- One element: the new BF16 weight and FP32 momentum, with random bits `r`. -/
def heathRule (h : HeathParams) (w : Nat) (m p : F32) (r : Nat) : Nat × F32 :=
  let mNew := f32Fma h.b1 m (f32Mul h.c1 p)
  let v := f32Fma h.b2 mNew (f32Mul h.c2 p)
  let wf : F32 := BitVec.ofNat 32 (2 ^ 16 * w)
  let a := f32Fma h.lam wf (signF32 v)
  (srBf16 (f32Fma (f32Neg h.eta) a wf) r, mNew)

/-! ### Digests (R216) -/

/-- One bit step of CRC-64/ECMA-182, most significant bit first. -/
def crc64Bits : Nat → Word → Word
  | 0, c => c
  | n + 1, c => crc64Bits n (if c.getLsbD 63 then (c <<< 1) ^^^ 0x42F0E1EBA9EA3693#64 else c <<< 1)

def crc64 (l : List Byte) : Word := l.foldl (fun c b => crc64Bits 8 (c ^^^ (((b.setWidth 64 : Word)) <<< (56 : Nat)))) 0

/-! ### Vote words (R191, R192) -/

/-- Does the reduced word fail the vote, or abort the commit? -/
def voteFails (w : Word) : Bool := bitsAt w 0 4 != 0 || bitsAt w 16 24 != bitsAt w 40 24

/-- Does the reduced commit word abort (R197)? -/
def commitFails (w : Word) : Bool := bitsAt w 0 4 != 0

end Sys2Proof.Machine
end

