-- ==== Sys2Proof/Machine/Threads.lean ====
section
/-! DEFINITION. Writes of the thread registers of a tile (R32, R33, R36, R40) and of the segment entries (R71, R73). -/

namespace Sys2Proof.Machine

/-! ### Thread control (R33) -/

/-- `STATE` neither 0 nor 6. -/
def State.threadRuns (s : State) (t n : Nat) : Bool := let st := s.fld (F.threadStatus.state t n); st != 0 && st != 6

/-- Start a thread that is idle or faulted at its `THREAD_PC`: empty stacks, flags clear, and the tile's descriptor cache
invalidated for its context (R33, R36, Table 2.2). -/
def State.startThread (s : State) (t n : Nat) : State :=
  let c := s.fld (F.threadCtl.ctx t n)
  let s := s.modThread (thrKey t n) fun th => { pend := th.pend }
  let s := s.modTile t fun tl => { tl with cache := tl.cache.filter fun l => l.ctx != c, robin := robinTouch tl.robin n }
  s.setReg (R.threadStatus t n) 1

/-- The fields of `THREAD_CTL` that a running thread protects: `CTX`, `PRIO`, `EXIT_OBJ`, `EXIT_EN`. -/
def threadCtlMask : Word := 0x7F0370#64

/-- A write of `v` to a register whose bits `mask` a running thread protects (R33). -/
def State.protectedWrite (s : State) (t n key : Nat) (mask v : Word) : State :=
  if s.threadRuns t n then
    (if v &&& mask = s.reg key &&& mask then s else s.setBit (F.threadStatus.wrIgnored t n) true)
  else s.setReg key (v &&& mask)

/-- A write of `THREAD_CTL` (R33): `STOP` of a running thread, which sets no `WR_IGNORED`; else the protected fields, then `START`. -/
def State.writeThreadCtl (s : State) (t n : Nat) (v : Word) : State :=
  if ¬ s.tileReady t then s
  else if v.getLsbD 1 ∧ s.threadRuns t n then s.stopThread t n
  else
    let s := s.protectedWrite t n (R.threadCtl t n) threadCtlMask v
    if v.getLsbD 0 ∧ ¬ v.getLsbD 1 ∧ ¬ s.threadRuns t n then s.startThread t n else s

def execThreadStart (t : Fin 256) (n : Fin 16) (v : Word) (s : State) : Result := .next (s.writeThreadCtl t n (v ||| 1))
def execThreadStop (t : Fin 256) (n : Fin 16) (v : Word) (s : State) : Result := .next (s.writeThreadCtl t n (v ||| 2))

/-! ### Segment entries (R73) -/

/-- The region of Table 3.2 that holds a physical window whole, by number. -/
def regionOf (lo hi : Nat) : Option Nat :=
  let inside : Nat → Nat → Bool := fun a b => a ≤ lo && hi ≤ b
  if inside 0 0x7FFFFFFF then some 0
  else if inside 0x0100000000 0x0100FFFFFF then some 1
  else if inside 0x0200000000 0x0203FFFFFF then some 2
  else if inside 0x0300000000 0x030FFFFFFF then some 3
  else if inside 0x4000000000 0xBFFFFFFFFF then some 4
  else none

/-- Does the window touch [a, b]? -/
def touches (lo hi a b : Nat) : Bool := lo ≤ b && a ≤ hi

/-- `REF_REASON` of a valid entry with these fields, 0 when it passes (R73). -/
def segReason (vbase size pbase : Nat) : Nat :=
  let lo := 2 ^ 16 * pbase
  let hi := lo + 2 ^ 16 * (size + 1) - 1
  if touches lo hi 0x0200000000 0x0203FFFFFF || touches lo hi 0x0300000000 0x030FFFFFFF then 2
  else if touches lo hi 0x4000000000 0x4003FFFFFF then 3
  else if (regionOf lo hi).isNone then 1
  else if 2 ^ 24 - 1 < vbase + size then 4
  else 0

/-- A write of entry `i` of context `c` (R73, R79). -/
def State.segWrite (s : State) (c i : Nat) (v : BitVec 128) : State :=
  let lo : Word := v.extractLsb' 0 64 &&& 0xFFFFFFFFFFFF0000#64
  let hi : Word := v.extractLsb' 64 64 &&& 0x003F00FFFFFF0000#64
  let why := segReason (bitsAt v 16 24) (bitsAt v 40 24) (bitsAt v 80 24)
  if v.getLsbD 112 ∧ why ≠ 0 then
    let s := (s.setReg (R.segLo c i) lo).setReg (R.segHi c i) (hi &&& 0xFFFEFFFFFFFFFFFF#64)
    ((s.setFld (F.segStatus.refIndex c) i).setBit (F.segStatus.refused c) true).setFld (F.segStatus.refReason c) why
  else (s.setReg (R.segLo c i) lo).setReg (R.segHi c i) hi

def execSegWrite (c : Fin 8) (i : Fin 64) (v : BitVec 128) (s : State) : Result := .next (s.segWrite c i v)

end Sys2Proof.Machine
end

