-- ==== Sys2Proof/Machine/Sweep.lean ====
section
/-! DEFINITION. The vote, the sweep, its digests and the commit; refreshes started and roots installed by them; the job-layout
registers and the credit queues (R13 to R19, R180 to R185, R190 to R222, R229, R243, R244). -/

namespace Sys2Proof.Machine

/-! ### Parameters in force (R208, R211) -/

def State.stepOf (s : State) (c : Nat) : Nat := (s.reg (R.sweepStep c)).toNat

/-- An I32 object's value. -/
def State.objInt (s : State) (k : Nat) : Int := (BitVec.ofNat 32 (s.obj k)).toInt

def State.lrParams (s : State) (c : Nat) : LrParams :=
  { peakMant := s.obj (O.lrPeakMant c), exp := s.objInt (O.lrExp c), warmup := s.obj (O.lrWarmup c), kind := s.obj (O.lrDecayKind c),
    decaySteps := s.obj (O.lrDecaySteps c), minFrac := s.obj (O.lrMinFrac c), restartEn := s.obj (O.lrRestartEn c) != 0,
    mult := s.obj (O.lrRestartMult c) }

/-- `LR_NOW` for the current step. -/
def State.noteLr (s : State) (c : Nat) : State :=
  let p := s.lrParams c
  let t := s.stepOf c
  s.setReg (R.lrNow c) (BitVec.ofNat 64 (lrMant p t % 2 ^ 16 + 2 ^ 32 * (lrValue p t 0).toNat))

/-- The schedule position re-derived from t (R210). In the warm-up and for the inverse square root no cycle is reached: free values. -/
def State.noteCycle (s : State) (c : Nat) : State :=
  let p := s.lrParams c
  let t := s.stepOf c
  let (start, len, s) : Word × Word × State :=
    if t < p.warmup ∨ p.kind = 3 then
      let (a, s) := s.free
      let (b, s) := s.free
      (a, b, s)
    else
      let k := lrCycle p (t - p.warmup)
      (BitVec.ofNat 64 (p.warmup + k.1), BitVec.ofNat 64 k.2.2, s)
  ((s.setReg (R.schedCycleStart c) start).setReg (R.schedCycleLen c) len).noteLr c

/-- Committed values that apply from the sweep of step `t` on are put in force, in the order of their commits (R211). -/
def State.applyCommitted (s : State) (c t : Nat) : State :=
  let due := (s.ctx c).committed.filter fun e => e.1 ≤ t
  let s := forEach due (fun s e => forEach e.2 (fun s v => s.setObj v.1 v.2) s) s
  s.modCtx c fun x => { x with committed := x.committed.filter fun e => !(e.1 ≤ t) }

/-- `HEATH_COMMIT_STEP`: commits every staged value from step `n`; none is the refusal `BUSY` (R211). -/
def State.heathCommit (s : State) (c n : Nat) : Option State :=
  if n ≤ s.stepOf c + 1 then none
  else some (s.modCtx c fun x => { x with staged := [], committed := x.committed ++ [(n, x.staged)] })

def execHeathCommitStep (c : Fin 8) (v : Word) (s : State) : Result := .next (s.inDict (O.heathCommitStep c) ((s.heathCommit c v.toNat).getD s))

/-! ### Registers of the sweep block and the job layout (R222, R223, R229, R244) -/

/-- A write of `SWEEP_STEP` (R210, R222). -/
def State.sweepStepWrite (s : State) (c : Nat) (v : Word) : State :=
  if (s.ctx c).running then s.setBit (F.sweepStatus.wrIgnored c) true else (s.setReg (R.sweepStep c) v).noteCycle c

def execSweepStepWrite (c : Fin 8) (v : Word) (s : State) : Result := .next (s.sweepStepWrite c v)

/-- A write of `SHARD_TABLE` (R222). -/
def State.shardTableWrite (s : State) (c : Nat) (v : Word) : State :=
  if (s.ctx c).running then s.setBit (F.sweepStatus.wrIgnored c) true else s.setReg (R.shardTable c) (v &&& 0x0FFFFFFFFFFFFF80#64)

def State.clearSkew (s : State) (c : Nat) : State := s.setFld (F.sweepStatus.skewRun c) 0

def execClearSkew (c : Fin 8) (s : State) : Result := .next (s.clearSkew c)

/-- A write of `CTX_CUTS` (R229). -/
def State.ctxCutsWrite (s : State) (c : Nat) (v : Word) : State :=
  if (s.ctx c).running then s.setBit (F.stageStatus.cutsIgnored c) true else s.setReg (R.ctxCuts c) (v &&& 0x00000FFFFFFFFFFF#64)

def execCtxCutsWrite (c : Fin 8) (v : Word) (s : State) : Result := .next (s.ctxCutsWrite c v)

/-- Is `o` the offset of a synchronisation object's counter that context `c` owns? -/
def State.ownsCounter (s : State) (c o : Nat) : Bool :=
  match placeOf o with
  | .control t off => isCounterOff off && off % 8 == 0 && s.fld (F.syncOwner.ctx t (objOfOff off)) == c
  | _ => false

/-- A write of `Q_CFG[k]` (R229, R244). -/
def State.qCfgWrite (s : State) (c k : Nat) (v : Word) : State :=
  if (s.ctx c).running then s.setBit (F.stageStatus.cutsIgnored c) true
  else if v.getLsbD 63 ∧ ¬ s.ownsCounter c (bitsAt v 0 40) then
    (s.setBit (F.stageStatus.qRefused c) true).setFld (F.stageStatus.qRefIndex c) k
  else s.setReg (R.qCfg c k) (v &&& 0x801FFFFFFFFFFFFF#64)

def execQCfgWrite (c : Fin 8) (k : Fin 16) (v : Word) (s : State) : Result := .next (s.qCfgWrite c k v)

/-! ### The vote arrival (R13, R182, R190, R194, R202, R213) -/

/-- The value object `k` of context `c` has in the sweep of step `t`: the last of those committed for it, else what is in force (R211). -/
def State.inForce (s : State) (c k t : Nat) : Nat :=
  ((s.ctx c).committed.filter fun e => decide (e.1 ≤ t)).foldl (fun v e => e.2.foldl (fun v x => if x.1 = k then x.2 else v) v) (s.obj k)

/-- A digest is due in step t by this module's interval, as it stands in the sweep of that step (R211, R217). -/
def State.digestDue (s : State) (c : Nat) : Bool :=
  let n := s.inForce c (O.digestInterval c) (s.stepOf c)
  n != 0 && s.stepOf c % n == n - 1

/-- Bit l is 1 when no block of layer l of the context is in flight here (R182); 0 everywhere while F3 is down, and until the step boundary
at which it resumes (R186). -/
def State.installWord (s : State) (c : Nat) : BitVec 2048 :=
  if ¬ s.rootsRun c then 0
  else
    let busy := (upto 4).flatMap fun e => (s.inFlight e).filterMap fun x => if x.ctx = c then s.layerOfRecord c x.record else none
    busy.foldl (fun w l => w &&& ~~~((1 : BitVec 2048) <<< l)) (BitVec.allOnes 2048)

/-- The weight-gradient rows 32n to 32n + 31 of the layer that group n names, as rows of a shard. -/
def maskedRows (m : RowMask) : List Nat :=
  m.groups.flatMap fun n => ((upto 32).filter fun k => m.first ≤ 32 * n + k).map fun k => 32 * n + k - m.first

/-- The owner clears the presence of every granule whose row lies in a masked group (R202). -/
def State.maskRows (s : State) (c : Nat) (m : RowMask) : State :=
  let h := s.shard c m.shard
  if m.shard < s.shardCount c then
    forEach (upto h.ngran) (fun s g => if (maskedRows m).contains (g / max 1 h.rowGran) then s.setMapBit h.presence g false else s) s
  else s

/-- The present slow granules of a context, in shard order (R213, R19, R221). -/
def State.slowGranules (s : State) (c : Nat) : List (Nat × Nat) :=
  (s.shardOrder c).flatMap fun i =>
    let h := s.shard c i
    if h.flags.testBit 1 then ((s.presentGranules h).filter (s.isSlow h)).map fun g => (i, g) else []

/-- Context-fatal end of a sweep: `bit_` of the commit word is set and F2 arrives with it, the event is raised, `STATE` shows why
(R215, R220). -/
def State.sweepStop (s : State) (c bit_ state code func data : Nat) : State :=
  let x := s.ctx c
  let bits := x.commitBits ||| bit_
  let s := s.setCtx c { x with commitBits := bits }
  let s := if x.phase = .sweep ∧ s.coreRuns 2 then
      (((s.stageWaited c).modCtx c fun x => { x with phase := .commitWait }).setStep c 3).send (.commitArrive c (stepWord bits (s.stepOf c)))
    else s
  (s.raise code 4 func c data [c]).setFld (F.sweepStatus.state c) state

/-- A slow-tier access fails (R215, Table 16.7a). -/
def State.slowFails (s : State) (c i reason : Nat) : State :=
  (s.modCtx c fun x => { x with slowRead := [], slowWrite := [] }).sweepStop c 2 7 0x100B 0x09 (reason + 2 ^ 4 * c + 2 ^ 7 * (i % 2 ^ 20))

/-- Slow-tier reads start with the vote arrival (R213). -/
def State.startSlowReads (s : State) (c : Nat) : State :=
  let l := s.slowGranules c
  let s := s.modCtx c fun x => { x with slowRead := l, slowData := [], slowAt := s.now }
  match l with
  | [] => s
  | (i, _) :: _ =>
    if ¬ s.hostUp then s.slowFails c i 2
    else
      forEach l (fun s e =>
        let h := s.shard c e.1
        s.readHost (s.slowAddress h e.2 (boolNat (s.mapBit h.mSel e.2))) 256) s

/-- A descriptor that waits for a shadow slot of this module: it is of the next step (R18). -/
def State.nextStep (s : State) (key : Nat) (p : Pend) : Bool := p.phase == .queued && p.eng == .dma && s.shadowHeld (s.issOf key p)

/-- A read from another module that is not answered yet, such as a gather: it may wait there for a shadow slot (R18). -/
def Pend.farRead (p : Pend) : Bool :=
  (match p.phase with | .transfer _ => true | _ => false) && (decide (dOp p.word ≤ 3) || dOp p.word == 7)

/-- Descriptors of this step that a thread has outstanding and that R13 names: those before one of the next step, without the gathers. -/
def State.stepPend (s : State) (key : Nat) : List Pend :=
  ((s.thread key).pend.takeWhile fun p => !s.nextStep key p).filter fun p => !p.farRead

/-- The weight-gradient products, reduces and statistics updates of context `c` are complete (R13; log entry 112): no thread of it has a
descriptor of this step outstanding, no segment or shard packet it sent is unanswered, and none that arrived waits to be written. -/
def State.stepWorkDone (s : State) (c : Nat) : Bool :=
  (s.threads.all fun e => s.fld (F.threadCtl.ctx (keyTile e.1) (keyThread e.1)) != c || s.stepPend e.1 == [])
    && (s.xfers.all fun x => !(x.ctx == c && (x.kind == 8 || x.kind == 9)))
    && (s.arrived.all fun a => !(a.ctx == c && (a.kind == 8 || a.kind == 9)))
    && s.accepted.all fun x => !(x.arrived.ctx == c && x.arrived.kind == 8)

/-- May F2 arrive at the vote of context `c`? -/
def State.mayVote (s : State) (c : Nat) : Bool :=
  let x := s.ctx c
  x.running && s.bit (F.sweepCtl.enable c) && s.coreRuns 2 && x.phase == .compute && !x.rebase && s.stepWorkDone c

/-- F2 arrives at the vote and install barriers. `loss` and `grad` are what the `CHECK`s of the loss and of the reduced gradients have
found (the first layer with a non-finite shard), `maps` the overflow bitmaps of the layers of its own shards, as their compiled program has
laid them out (R202). -/
def State.voteArrival (s : State) (c : Nat) (loss : Bool) (grad : Option Nat) (maps : List OvfMap) : State :=
  if ¬ s.mayVote c then s
  else
    let s := forEach ((s.ctx c).masks ++ maps.map s.collapseMap) (fun s m => s.maskRows c m) s
    let bad := loss || grad.isSome
    let bits := (s.ctx c).voteBits ||| boolNat bad ||| (if s.digestDue c then 32 else 0)
    let s := s.modCtx c fun x =>
      { x with
        phase := .voteWait, voteBits := 0, install := none, installed := false, started := false, mayPublish := false, masks := []
        lossNan := if bad then some (loss, grad) else none }
    let s := s.setStep c 1
    let s := (s.send (.voteArrive c (stepWord bits (s.stepOf c)))).send (.installArrive c (s.installWord c))
    s.startSlowReads c

def execVoteArrival (c : Fin 8) (loss : Bool) (grad : Option Nat) (maps : List OvfMap) (s : State) : Result :=
  .next (s.voteArrival c loss grad maps)

/-! ### The vote (R192 to R195, R243) -/

/-- Threads of a context that are neither idle nor faulted, by key. -/
def State.runningThreads (s : State) (c : Nat) : List Nat :=
  (s.activeThreads.filter fun tn => s.fld (F.threadCtl.ctx tn.1 tn.2) == c).map fun tn => thrKey tn.1 tn.2

/-- What a thread has begun of a step that is discarded and that its own module or another holds back is given up: descriptors that wait for a
shadow slot, gathers not yet answered, and what is queued behind them (R14, R18; log entry 112). -/
def State.giveUp (s : State) (key : Nat) : State :=
  let l := (s.thread key).pend
  let gone (p : Pend) : Bool := s.nextStep key p || p.farRead
  let keep := l.takeWhile fun p => !gone p
  let rest := l.dropWhile fun p => !gone p
  let tids := (rest.filter Pend.farRead).flatMap fun p => match p.phase with
    | .transfer tids => tids
    | _ => []
  forEach tids State.dropXfer (s.modThread key fun th => { th with pend := keep ++ rest.filter fun p => p.phase != .queued && !p.farRead })

/-- F2 stops the threads of a context before the repeated step; they are restarted once its queues are re-based (R243). -/
def State.stepAgain (s : State) (c : Nat) : State :=
  if ¬ (s.ctx c).running then s
  else
    let keys := s.runningThreads c
    (forEach keys State.giveUp (s.modCtx c fun x => { x with rebase := true, restart := keys })).stopThreads c

/-- Count a failed vote or an aborted commit. -/
def State.stepSkipped (s : State) (c : Nat) : State := (s.bumpReg (R.sweepSkipped c)).clearPresence c

/-- `LOSS_NAN`, once for the step, from a module that set `NONFINITE` (R194). -/
def State.raiseNan (s : State) (c : Nat) : State :=
  match (s.ctx c).lossNan with
  | none => s
  | some (loss, grad) =>
    (s.modCtx c fun x => { x with lossNan := none }).raise 0x1002 3 0x0C c
      ((grad.getD 0) % 2 ^ 11 + 2 ^ 11 * c + 2 ^ 14 * boolNat loss + 2 ^ 15 * boolNat grad.isSome)

/-- What the vote's step counters say of skew (R195). -/
def State.judgeSkew (s : State) (c : Nat) (w : Word) : State :=
  let lo := bitsAt w 16 24
  let hi := bitsAt w 40 24
  if lo = hi then s.setFld (F.sweepStatus.skewRun c) 0
  else
    let s := s.bump (F.sweepStatus.skewRun c)
    let run := s.fld (F.sweepStatus.skewRun c)
    let data := run + 2 ^ 11 * c + 2 ^ 16 * (lo % 2 ^ 22) + 2 ^ 38 * min 1023 ((hi + 2 ^ 24 - lo) % 2 ^ 24)
    if s.obj (O.skewLimit c) ≤ run then (s.raise 0x1003 4 0x0C c data [c]).setFld (F.sweepStatus.state c) 5
    else s.raise 0x1003 3 0x0C c data

/-- A failed vote (Table 8.2). -/
def State.voteFailed (s : State) (c : Nat) (w : Word) : State :=
  let s := s.modCtx c fun x =>
    { x with
      phase := .compute, voteBits := 0, commitBits := 0, install := none, slowRead := [], slowData := [], sweeping := none, masks := []
      f3Out := false }
  let s := s.setStep c 0
  (((((s.stepSkipped c).raiseNan c).judgeSkew c w).stepAgain c).boundary c).rootsFeed.dmaWake

/-- F3 marks the running layers that are complete by their deadline (R182). -/
def State.applyInstall (s : State) (c : Nat) (v : BitVec 2048) : State :=
  let s := s.modCtx c fun x => { x with install := none, installed := true }
  if ¬ s.rootsRun c then s
  else forEach ((s.layers c).filter fun l => s.layerState c l == 1 && v.getLsbD l) (fun s l => s.setLayerState c l 2) s

/-- A passed vote. A context that has stopped since it arrived can only abort the commit (R412). -/
def State.votePassed (s : State) (c : Nat) (w : Word) : State :=
  let s := ((s.judgeSkew c w).modCtx c fun x => { x with phase := .sweep }).noteOverlap c
  let s := match (s.ctx c).install with
    | some v => s.applyInstall c v
    | none => s
  if (s.ctx c).running then s
  else
    let bits := (s.ctx c).commitBits
    let bits := if bits % 16 = 0 then bits ||| 1 else bits
    ((s.modCtx c fun x => { x with phase := .commitWait, commitBits := bits }).setStep c 3).send (.commitArrive c (stepWord bits (s.stepOf c)))

/-- F2 decides votes, sweeps and commits of context `c`: it runs, and `ENABLE` lets it (R22, Table 8.8). -/
def State.sweepsRun (s : State) (c : Nat) : Bool := s.coreRuns 2 && s.bit (F.sweepCtl.enable c)

def State.voteComplete (s : State) (c : Nat) (w : Word) : State :=
  if (s.ctx c).phase ≠ .voteWait ∨ ¬ s.sweepsRun c then s
  else
    let s := (s.setReg (R.voteLast c) w).discard c
    if voteFails w then s.voteFailed c w else s.votePassed c w

def execVoteComplete (c : Fin 8) (v : Word) (s : State) : Result := .next (s.voteComplete c v)

/-- The install barrier's word: it waits for a passed vote (R182, R185). -/
def State.installComplete (s : State) (c : Nat) (v : BitVec 2048) : State :=
  let x := s.ctx c
  match x.phase with
  | .voteWait => s.setCtx c { x with install := some v }
  | .sweep => if x.installed then s else s.applyInstall c v
  | _ => s

def execInstallBarrierComplete (c : Fin 8) (v : BitVec 2048) (s : State) : Result := .next (s.installComplete c v)

/-! ### The sweep start (R183, R184, R211, R217) -/

/-- One late or rootless layer ages provisionally (R184). -/
def State.ageLayer (s : State) (c l : Nat) : State :=
  let age := min 255 (s.layerAge c l + 1)
  let use := s.layerUse c l
  let late := s.layerState c l = 1
  let s := (s.modCtx c fun x => { x with prov := x.prov ++ [(l, s.layerAge c l, use)] }).setLayerAge c l age
  if ¬ late then s
  else
    let tooOld := s.obj (O.rootMaxAge c) < age
    let other := use = 0 ∧ s.layerHash c l ≠ s.schedHash (s.layerSched c l)
    let s := if other then s.setLayerUse c l 2 else if tooOld ∧ use = 0 then s.setLayerUse c l 1 else s
    s.rootStale c l (boolNat tooOld) (boolNat tooOld) 0 age

/-- The roots a sweep uses: pending slots provisionally, and ages (R183, R184). -/
def State.rootsAtSweep (s : State) (c : Nat) : State :=
  let ls := s.layers c
  let ready := ls.filter fun l => s.layerState c l == 2
  let aged := ls.filter fun l => s.layerState c l == 1 || s.layerUse c l == 2
  let anyLate := ls.any fun l => s.layerState c l == 1
  let s := forEach ready (fun s l => s.setLayerState c l 3) s
  let s := forEach aged (fun s l => s.ageLayer c l) s
  if anyLate then s.setObj (O.rootMisses c) (min (2 ^ 64 - 1) (s.obj (O.rootMisses c) + 1)) else s

/-- Function 0x09 is in reset: from the start of its drain the sweep engine takes no granule (R411). -/
def State.sweepReset (s : State) : Bool := s.fresets.any fun f => f.func == 0x09

def State.sweepStart (s : State) (c : Nat) : State :=
  let x := s.ctx c
  if s.sweepReset ∨ x.phase ≠ .sweep ∨ ¬ x.installed ∨ x.started ∨ ¬ x.running ∨ ¬ s.sweepsRun c then s
  else
    let newRates := x.committed.any fun e => decide (e.1 ≤ s.stepOf c)
    let s := s.applyCommitted c (s.stepOf c)
    let s := s.modCtx c fun x => { x with started := true, prov := [], swept := [], digests := [], sweeping := none }
    let due := s.digestDue c || (s.reg (R.voteLast c)).getLsbD 5
    let s := (s.setStep c 2).setBit (F.sweepStatus.dueNow c) due
    let s := if s.precondOn c then s.rootsAtSweep c else s
    if newRates then s.noteCycle c else s.noteLr c

def execSweepStart (c : Fin 8) (s : State) : Result := .next (s.sweepStart c)

/-! ### The preconditioned direction (R204, R205) -/

/-- What a segment multiplies by: a scale, a matrix, or, from an empty slot, nothing the spec states. -/
inductive Factor
  | scale (f : F32) | matrix (m : List (List F32)) | unknown
  deriving DecidableEq, Repr

/-- The root or fallback scale a layer uses for a segment (R183, R184). -/
def State.factorOf (s : State) (c l : Nat) (g : RootSeg) : Factor :=
  let st := s.layerState c l
  let fallback := s.layerUse c l ≠ 0 ∧ st ≠ 3
  if fallback then .scale (BitVec.ofNat 32 (s.physNat (s.layerFallback c l + 8 * g.fallback + 4 * (s.stepOf c % 2)) 4))
  else
    let sel := if st = 3 then 1 - s.layerSel c l % 2 else s.layerSel c l % 2
    let a := g.slot + sel * (64 + 4 * (g.len * g.len))
    match s.physNat a 1 with
    | 1 => .matrix (matrixOf g.len ((upto (4 * (g.len * g.len))).map fun k => s.dataByte (a + 64 + k)))
    | 2 => .scale (BitVec.ofNat 32 (s.physNat (a + 0x10) 4))
    | _ => .unknown

/-- A chain of FMAs from +0 over pairs in ascending order. -/
def fmaChain (l : List (F32 × F32)) : F32 := l.foldl (fun acc e => f32Fma e.1 e.2 acc) 0

/-- Cell (i, j) of one pass; `take k` is the operand's element at place k of the segment, `place` the cell's own place in it. -/
def passCell (f : Factor) (len place : Nat) (take : Nat → F32) (root : List (List F32) → Nat → F32) (free : F32) : F32 :=
  match f with
  | .scale x => f32Mul (take place) x
  | .matrix m => fmaChain ((upto len).map fun k => (take k, root m k))
  | .unknown => free

/-- The segment a row or column lies in, with its factor. -/
def segAt (l : List (RootSeg × Factor)) (i : Nat) : Option (RootSeg × Factor) := l.find? fun e => e.1.first ≤ i && i < e.1.first + e.1.len

/-- T = G × R (first pass), with `free` for cells the spec states no value of. -/
def passRight (nr nc : Nat) (cols : List (RootSeg × Factor)) (free : List F32) (g : List F32) : List F32 :=
  (upto (nr * nc)).map fun e =>
    let i := e / nc
    let j := e % nc
    match segAt cols j with
    | some (sg, f) =>
      passCell f sg.len (j - sg.first) (fun k => g.getD (i * nc + sg.first + k) 0) (fun m k => cellOf m k (j - sg.first)) (free.getD e 0)
    | none => free.getD e 0

/-- P = L × T (second pass). -/
def passLeft (nr nc : Nat) (rows : List (RootSeg × Factor)) (free : List F32) (t : List F32) : List F32 :=
  (upto (nr * nc)).map fun e =>
    let i := e / nc
    let j := e % nc
    match segAt rows i with
    | some (sg, f) =>
      passCell f sg.len (i - sg.first) (fun k => t.getD ((sg.first + k) * nc + j) 0) (fun m k => cellOf m (i - sg.first) k) (free.getD e 0)
    | none => free.getD e 0

/-- A shard is preconditioned in the sweep (R204). -/
def State.preconditioned (s : State) (c : Nat) (h : Shard) : Bool := h.flags.testBit 0 && s.precondOn c && (s.layers c).contains h.layer

/-- P of a shard from its reduced gradient (R204, R205). -/
def State.direction (s : State) (c : Nat) (h : Shard) (g : List F32) (rows cols : List RootSeg) : List F32 × State :=
  if ¬ s.preconditioned c h then (g, s)
  else
    let nc := 64 * h.rowGran
    let nr := h.ngran / max 1 h.rowGran
    let withFactor (l : List RootSeg) := l.map fun sg => (sg, s.factorOf c h.layer sg)
    let open_ (l : List (RootSeg × Factor)) (n : Nat) : Bool := (upto n).any fun i => match segAt l i with
      | some (_, .unknown) => true
      | none => true
      | _ => false
    let r := withFactor rows
    let k := withFactor cols
    let (f1, s) := if open_ k nc then s.freeList (nr * nc) else ([], s)
    let (f2, s) := if open_ r nr then s.freeList (nr * nc) else ([], s)
    (passLeft nr nc r f2 (passRight nr nc k f1 g), s)

/-! ### A shard (R199 to R203, R206, R213) -/

def State.heathParams (s : State) (c : Nat) (h : Shard) : HeathParams :=
  let b1 : F32 := BitVec.ofNat 32 (s.obj (O.heathBeta1 c))
  let b2 : F32 := BitVec.ofNat 32 (s.obj (O.heathBeta2 c))
  { eta := lrValue (s.lrParams c) (s.stepOf c) h.expOff, lam := BitVec.ofNat 32 (s.obj (O.weightDecay c)), b1 := b1, b2 := b2,
    c1 := f32Sub f32One b1, c2 := f32Sub f32One b2 }

/-- One present granule: 64 elements of live weight, momentum and P, with the random bits of their keys (R131). -/
def granuleRule (hp : HeathParams) (seed step : Word) (base : Nat) (w m p : List Nat) : List (Nat × F32) :=
  (upto 64).map fun j =>
    heathRule hp (w.getD j 0) (BitVec.ofNat 32 (m.getD j 0)) (BitVec.ofNat 32 (p.getD j 0))
      ((srRandom seed step (BitVec.ofNat 64 (base + j))).toNat % 2 ^ 16)

/-- The elements of `n` bytes each in a list of bytes. -/
def natsOf (n count : Nat) (l : List Byte) : List Nat := (upto count).map fun k => natAt l (n * k) n

/-- The momentum bytes of granule `g`, from Thermos or from what the host has sent. -/
def State.momentumOf (s : State) (c i : Nat) (h : Shard) (g : Nat) : Option (List Byte) :=
  if s.isSlow h g then ((s.ctx c).slowData.find? fun e => e.1 == (i, g)).map (·.2)
  else s.readData (h.momentum (boolNat (s.mapBit h.mSel g)) g) 256

/-- Update one present granule from its momentum: weights to the shadow slot, momentum to its other slot (R199, R200, R212). -/
def State.updateGranule (s : State) (c i : Nat) (h : Shard) (hp : HeathParams) (p : List F32) (g : Nat) (m : List Byte) : State :=
  let t := s.stepOf c
  let w := (upto 128).map fun k => s.dataByte (h.weights t + 128 * g + k)
  let out := granuleRule hp (BitVec.ofNat 64 (s.obj (O.ctxJobSeed c))) (s.reg (R.sweepStep c)) (h.paramBase + 64 * g) (natsOf 2 64 w)
    (natsOf 4 64 m) ((upto 64).map fun j => (p.getD (64 * g + j) 0).toNat)
  let s := s.storeHeal (h.weights (t + 1) + 128 * g) (out.flatMap fun e => leBytes 2 e.1)
  let mb := out.flatMap fun e => leBytes 4 e.2.toNat
  let other := 1 - boolNat (s.mapBit h.mSel g)
  if s.isSlow h g then
    (s.modCtx c fun x => { x with slowWrite := x.slowWrite ++ [(i, g)] }).writeHost (s.slowAddress h g other) mb
  else s.storeHeal (h.momentum other g) mb

/-- The digest of a shard's shadow slot, and of `n` runs from run `a` (R216, R218). -/
def State.shadowBytes (s : State) (c : Nat) (h : Shard) (lo n : Nat) : List Byte :=
  (upto n).map fun k => s.dataByte (h.weights (s.stepOf c + 1) + lo + k)
def State.shardDigest (s : State) (c : Nat) (h : Shard) : Word := crc64 (s.shadowBytes c h 0 (128 * h.ngran))
def Shard.runs (h : Shard) : Nat := (h.ngran + 63) / 64
def Shard.runBytes (h : Shard) (r : Nat) : Nat := min 8192 (128 * h.ngran - 8192 * r)
def State.runsDigest (s : State) (c : Nat) (h : Shard) (runs : List Nat) : Word :=
  crc64 (runs.flatMap fun r => leBytes 8 (crc64 (s.shadowBytes c h (8192 * r) (h.runBytes r))).toNat)
def State.rangeDigest (s : State) (c : Nat) (h : Shard) (a n : Nat) : Word := s.runsDigest c h ((upto n).map (a + ·))

def State.setDigest (s : State) (c i : Nat) (p : DigestPhase) : State :=
  s.modCtx c fun x => { x with digests := (x.digests.filter fun e => e.1 != i) ++ [(i, p)] }
def State.markSwept (s : State) (c i : Nat) : State :=
  (s.modCtx c fun x =>
    { x with digests := x.digests.filter fun e => e.1 != i, swept := if x.swept.contains i then x.swept else x.swept ++ [i] }).dmaWake

/-- A read of the sweep's own finds an uncorrectable word or a stack that is not ready (Table 16.7a). -/
def State.sweepReadFails (s : State) (c i a n : Nat) : State :=
  ((s.modCtx c fun x => { x with sweeping := none }).noteBadRead a n).raise 0x100B 4 0x09 c (3 + 2 ^ 4 * c + 2 ^ 7 * (i % 2 ^ 20)) [c]

/-- The update unit reads pieces of memory, then goes on with `f`; the first piece it cannot read ends the sweep (R431). -/
def State.sweepReads (s : State) (c i : Nat) (l : List (Nat × Nat)) (f : State → State) : State :=
  match l.find? fun a => (s.readData a.1 a.2).isNone with
  | some a => s.sweepReadFails c i a.1 a.2
  | none => f s

/-- The shadow slot of a shard. -/
def State.shadowOf (s : State) (c : Nat) (h : Shard) : Nat × Nat := (h.weights (s.stepOf c + 1), 128 * h.ngran)

/-- F2 has the digests of shard `i` compared over its replica list (R198, R217). They are formed from its shadow slot. -/
def State.compareDigests (s : State) (c i : Nat) (words : List Word) : State :=
  if s.coreRuns 2 then
    s.sweepReads c i [s.shadowOf c (s.shard c i)] fun s => s.send (.digest c i (s.shard c i).coords words)
  else s

/-- The shard's shadow slot is written: it is swept, or compared first when a digest is due (R16, R217). -/
def State.shardWritten (s : State) (c i : Nat) (h : Shard) : State :=
  if s.bit (F.sweepStatus.dueNow c) ∧ 1 < h.replicas then (s.setDigest c i .compare).compareDigests c i [s.shardDigest c h]
  else s.markSwept c i

/-- Shard `i` has been swept, or written and is under comparison. -/
def State.shardOver (s : State) (c i : Nat) : Bool := (s.ctx c).swept.contains i || (s.ctx c).digests.any fun e => e.1 == i

/-- The sweep of context `c` is under way, and shard `i` is the next one to be written (R19). -/
def State.maySweep (s : State) (c i : Nat) : Bool :=
  let x := s.ctx c
  !s.sweepReset && x.running && x.phase == .sweep && x.started && x.sweeping.isNone && i < s.shardCount c && !s.shardOver c i
    && (upto (s.shardCount c)).all fun j => s.shardOver c j || !s.sweptFirst c j i

/-- The momentum of a present slow granule has not arrived. -/
def State.slowMissing (s : State) (c i g : Nat) : Bool := (s.ctx c).slowRead.contains (i, g)

/-- The update unit goes on through the present granules `left` of shard `i` in address order, up to the first slow one whose data is missing;
past the last one the shard is written (R213). -/
def State.sweepOn (s : State) (c i : Nat) (h : Shard) (p : List F32) : List Nat → State
  | [] => (((s.modCtx c fun x => { x with sweeping := none }).setBit (F.sweepStatus.slowWait c) false)).shardWritten c i h
  | q :: rest =>
    if s.slowMissing c i q then
      (s.modCtx c fun x => { x with sweeping := some { shard := i, left := q :: rest, dir := p } }).setBit (F.sweepStatus.slowWait c) true
    else
      match s.momentumOf c i h q with
      | none => s.sweepReadFails c i (h.momentum (boolNat (s.mapBit h.mSel q)) q) 256
      | some m => (s.updateGranule c i h (s.heathParams c h) p q m).sweepOn c i h p rest

/-- What the sweep reads of a layer's segment: its fallback scale, or a root slot, header and matrix (R183, R184). -/
def State.factorRange (s : State) (c l : Nat) (g : RootSeg) : Nat × Nat :=
  let st := s.layerState c l
  if s.layerUse c l ≠ 0 ∧ st ≠ 3 then (s.layerFallback c l + 8 * g.fallback + 4 * (s.stepOf c % 2), 4)
  else
    let a := g.slot + (if st = 3 then 1 - s.layerSel c l % 2 else s.layerSel c l % 2) * (64 + 4 * (g.len * g.len))
    (a, if s.physNat a 1 = 1 then 64 + 4 * (g.len * g.len) else 64)

/-- What the sweep reads of shard `i` beside its momentum: its table entry, its bitmaps, its live weights, the layer's entry and the roots. -/
def State.sweepInputs (s : State) (c i : Nat) (h : Shard) (segs : List RootSeg) : List (Nat × Nat) :=
  let bits := (h.ngran + 7) / 8
  [(s.shardBase c + 96 * i, 96), (h.presence, bits), (h.mSel, bits)] ++ (if h.flags.testBit 1 then [(h.slowMap, bits)] else [])
    ++ (if s.preconditioned c h then (s.layerAt c h.layer, 64) :: segs.map (s.factorRange c h.layer) else [])
    ++ [(h.weights (s.stepOf c), 128 * h.ngran)]

/-- The shard's granules are computed and written: the absent ones are copied, the present ones updated (R199, R206, R431). -/
def State.writeShard (s : State) (c i : Nat) (g : List F32) (rows cols : List RootSeg) : State :=
  let h := s.shard c i
  s.sweepReads c i (s.sweepInputs c i h (rows ++ cols)) fun s =>
    let t := s.stepOf c
    let live := s.bytesAt (h.weights t) (128 * h.ngran)
    let (p, s) := s.direction c h g rows cols
    (s.storeHeal (h.weights (t + 1)) live).sweepOn c i h p (s.presentGranules h)

/-- The last granule of a shard is reached: `g` is its reduced gradient, `rows` and `cols` the segments of the passes of R204. A shard whose
staging read is not complete is not written yet (R337). -/
def State.shardSwept (s : State) (c i : Nat) (g : List F32) (rows cols : List RootSeg) : State :=
  if ¬ s.maySweep c i then s
  else if s.stagingHolds c i then s.modCtx c fun x => { x with stageFrom := some (x.stageFrom.getD s.now) }
  else (s.stageWaited c).writeShard c i g rows cols

/-- Data of a slow granule has arrived: a waiting update unit looks again (R213). -/
def State.sweepAgain (s : State) (c : Nat) : State :=
  match (s.ctx c).sweeping with
  | some x => if (s.ctx c).running && (s.ctx c).phase == .sweep then s.sweepOn c x.shard (s.shard c x.shard) x.dir x.left else s
  | none => s

def execShardSwept (c : Fin 8) (i : Nat) (g : List F32) (rows cols : List RootSeg) (s : State) : Result :=
  .next (s.shardSwept c i g rows cols)

/-! ### Slow-tier traffic (R213 to R215) -/

/-- The data of slow granule `g` of shard `i` arrives; none is an error. -/
def State.slowArrival (s : State) (c i g : Nat) (data : Option (List Byte)) : State :=
  let x := s.ctx c
  if ¬ x.slowRead.contains (i, g) then s
  else
    match data with
    | none => s.hostReadFails.slowFails c i 0
    | some b =>
      let left := x.slowRead.filter (· != (i, g))
      let s := s.setCtx c { x with slowRead := left, slowData := x.slowData ++ [((i, g), b)] }
      let s := if left = [] then
          s.setReg (R.slowFetchMax c) (BitVec.ofNat 64 (max (s.reg (R.slowFetchMax c)).toNat (s.now - x.slowAt)))
        else s
      s.sweepAgain c

def execSlowTierDataArrival (c : Fin 8) (i g : Nat) (data : Option (List Byte)) (s : State) : Result := .next (s.slowArrival c i g data)

/-- The write-back of a slow granule completes or fails. -/
def State.slowWritten (s : State) (c i g : Nat) (ok : Bool) : State :=
  if ¬ (s.ctx c).slowWrite.contains (i, g) then s
  else
    let s := s.modCtx c fun x => { x with slowWrite := x.slowWrite.filter (· != (i, g)) }
    if ok then s else s.slowFails c i 1

def execSlowTierWriteBackComplete (c : Fin 8) (i g : Nat) (ok : Bool) (s : State) : Result := .next (s.slowWritten c i g ok)

/-- The host link goes down while a context has slow-tier traffic (R215). -/
def State.slowLinkDown (s : State) : State :=
  forEach (upto 8) (fun s c =>
    match (s.ctx c).slowRead ++ (s.ctx c).slowWrite with
    | [] => s
    | e :: _ => s.slowFails c e.1 2) s

/-! ### Digests (R217 to R220) -/

def State.digestPhase (s : State) (c i : Nat) : Option DigestPhase := ((s.ctx c).digests.find? fun e => e.1 == i).map (·.2)

/-- Split a range in two. -/
def halves2 (r : Nat × Nat) : List (Nat × Nat) := [(r.1, (r.2 + 1) / 2), (r.1 + (r.2 + 1) / 2, r.2 / 2)]

/-- Go on with the ranges still in question and the single runs found: a round over their halves, or the reading of the runs. -/
def State.bisectOn (s : State) (c i : Nat) (ranges : List (Nat × Nat)) (single : List Nat) : State :=
  if ranges = [] then
    (if single = [] then
      let h := s.shard c i
      (s.setDigest c i .compare).compareDigests c i [s.shardDigest c h]
    else (s.setDigest c i (.read single)).send (.runRead c i (s.shard c i).coords single))
  else
    let h := s.shard c i
    let next := ranges.flatMap halves2
    (s.setDigest c i (.bisect next single)).compareDigests c i (next.map fun r => s.rangeDigest c h r.1 r.2)

/-- The comparison of shard `i` has passed: it is swept, and `STATE` 4 ends with the last shard under repair. -/
def State.digestAgrees (s : State) (c i : Nat) : State :=
  (if (s.ctx c).digests.any fun e => e.1 != i && e.2 != .compare then s else s.setStep c 2).markSwept c i

/-- A replica comparison completes with the two reduced words (R217): of the whole shard, or of repaired runs (R219). A repair that still
differs is read again. -/
def State.digestCompared (s : State) (c i : Nat) (lo hi : Word) : State :=
  if ¬ (s.ctx c).running ∨ ¬ s.coreRuns 2 then s
  else
    match s.digestPhase c i with
    | some .compare =>
      if lo = ~~~hi then s.digestAgrees c i
      else
        let h := s.shard c i
        let s := s.setStep c 4
        if h.runs ≤ 1 then s.bisectOn c i [] [0] else s.bisectOn c i [(0, h.runs)] []
    | some (.recheck runs) => if lo = ~~~hi then s.digestAgrees c i else s.bisectOn c i [] runs
    | _ => s

def execDigestCompareComplete (c : Fin 8) (i : Nat) (lo hi : Word) (s : State) : Result := .next (s.digestCompared c i lo hi)

/-- A round completes: `differs` tells of each range in question whether its digests differ (R218). -/
def State.bisected (s : State) (c i : Nat) (differs : List Bool) : State :=
  if ¬ (s.ctx c).running ∨ ¬ s.coreRuns 2 then s
  else
    match s.digestPhase c i with
    | some (.bisect ranges single) =>
      let left := (ranges.zip differs).filterMap fun e => if e.2 then some e.1 else none
      s.bisectOn c i (left.filter fun r => 1 < r.2) (single ++ (left.filter fun r => r.2 ≤ 1).map (·.1))
    | _ => s

def execBisectionRoundComplete (c : Fin 8) (i : Nat) (differs : List Bool) (s : State) : Result := .next (s.bisected c i differs)

/-- How often a value is held, and the value held most often (the first of those). -/
def timesHeld (v : Nat) (l : List Nat) : Nat := (l.filter (· == v)).length
def mostHeld : List Nat → List Nat → Nat
  | _, [] => 0
  | all, v :: rest =>
    let w := mostHeld all rest
    if rest = [] ∨ timesHeld w all ≤ timesHeld v all then v else w

/-- The runs of the other replicas have arrived: `others` holds, for each run, the bytes each of them has (R219, R220). -/
def State.runsRead (s : State) (c i : Nat) (others : List (List (List Byte))) : State :=
  if ¬ (s.ctx c).running ∨ ¬ s.coreRuns 2 then s
  else
    match s.digestPhase c i with
    | some (.read runs) =>
      s.sweepReads c i [s.shadowOf c (s.shard c i)] fun s =>
      let h := s.shard c i
      let cell (e : Nat × List (List Byte)) : List (Nat × List Nat) :=
        let mine := s.shadowBytes c h (8192 * e.1) (h.runBytes e.1)
        (upto (h.runBytes e.1 / 2)).map fun k => (4096 * e.1 + k, (mine :: e.2).map fun b => natAt b (2 * k) 2)
      let diff := ((runs.zip others).flatMap cell).filter fun e => e.2.any fun v => v != e.2.headD 0
      let s := match diff with
        | [] => s
        | d :: _ => (s.setFld (F.digestFault.shard c) i).setFld (F.digestFault.element c)
            (diff.foldl (fun a e => min a e.1) d.1)
      let low := diff.foldl (fun a e => min a e.1) ((diff.headD (0, [])).1)
      let ok := 3 ≤ h.replicas ∧ diff.all fun e => h.replicas < 2 * timesHeld (mostHeld e.2 e.2) e.2
      let minority := ((upto h.replicas).filter fun r => diff.any fun e => e.2.getD r (mostHeld e.2 e.2) != mostHeld e.2 e.2).length
      let data := h.layer % 2 ^ 11 + 2 ^ 11 * c + (if ok then 2 ^ 14 else 0) + 2 ^ 16 * (low % 2 ^ 22) + 2 ^ 38 * min 1023 minority
      if ok then
        let fix := diff.filter fun e => e.2.headD 0 != mostHeld e.2 e.2
        let s := forEach fix (fun s e => s.storeHeal (h.weights (s.stepOf c + 1) + 2 * e.1) (leBytes 2 (mostHeld e.2 e.2))) s
        let s := s.setObj (O.digestRepairs c) (min (2 ^ 64 - 1) (s.obj (O.digestRepairs c) + fix.length))
        let s := s.raise 0x1004 2 0x09 c data
        (s.setDigest c i (.recheck runs)).compareDigests c i [s.runsDigest c h runs]
      else s.sweepStop c 4 6 0x1004 0x09 data
    | _ => s

def execRunReadComplete (c : Fin 8) (i : Nat) (others : List (List (List Byte))) (s : State) : Result := .next (s.runsRead c i others)

/-! ### The commit (R16, R183, R196 to R200) -/

/-- Every shard is swept and nothing of the sweep is outstanding. -/
def State.sweepDone (s : State) (c : Nat) : Bool :=
  let x := s.ctx c
  x.started && x.digests == [] && x.slowWrite == [] && (upto (s.shardCount c)).all fun i => x.swept.contains i

def State.commitArrival (s : State) (c : Nat) : State :=
  let x := s.ctx c
  if x.phase ≠ .sweep ∨ ¬ x.running ∨ ¬ s.sweepsRun c ∨ ¬ s.sweepDone c then s
  else ((s.setCtx c { x with phase := .commitWait }).setStep c 3).send (.commitArrive c (stepWord x.commitBits (s.stepOf c)))

def execCommitArrival (c : Fin 8) (s : State) : Result := .next (s.commitArrival c)

/-- The `M_SEL` bit of every present granule is flipped (R200). -/
def State.flipMomentum (s : State) (c : Nat) : State :=
  forEach (upto (s.shardCount c)) (fun s i =>
    let h := s.shard c i
    forEach (s.presentGranules h) (fun s g => s.setMapBit h.mSel g (!s.mapBit h.mSel g)) s) s

/-- Roots installed provisionally become installed (R183). -/
def State.installRoots (s : State) (c : Nat) : State :=
  let l3 := (s.layers c).filter fun l => s.layerState c l == 3
  let s := forEach l3 (fun s l =>
    (((((s.setLayerSel c l (1 - s.layerSel c l % 2)).setLayerUse c l 0).setLayerAge c l 0).setLayerHash c l (s.schedHash (s.layerSched c l))).setLayerState c l 0)) s
  if l3 = [] then s else s.setObj (O.rootLastInstall c) (s.stepOf c)

/-- What both outcomes of the commit barrier leave of the step. -/
def State.stepOver (s : State) (c : Nat) : State :=
  let s := s.modCtx c fun x =>
    { x with
      phase := .compute, commitBits := 0, install := none, installed := false, started := false, prov := [], swept := [], digests := []
      slowRead := [], slowData := [], slowWrite := [], sweeping := none, f3Out := false, owed := false }
  let s := ((s.setBit (F.sweepStatus.dueNow c) false).setBit (F.sweepStatus.slowWait c) false).stageWaited c
  (s.setStep c 0).rootsFeed.dmaWake

/-- The barrier completes without abort: shadows become live, the counter advances (R16, R199, R200, R210). -/
def State.committed (s : State) (c : Nat) : State :=
  let s := (s.flipMomentum c).setReg (R.sweepStep c) (s.reg (R.sweepStep c) + 1)
  let s := if s.precondOn c then s.installRoots c else s
  let s := ((s.clearPresence c).stepOver c).modCtx c fun x => { x with mayPublish := true, refreshDue := s.coreRuns 3 }
  ((s.noteCycle c).boundary c)

/-- The discard after an aborted commit, once every thread of the context has stopped (R147). -/
def State.dueDiscard (s : State) (c : Nat) : State :=
  if (s.ctx c).discardDue ∧ s.coreRuns 2 ∧ s.runningThreads c = [] then (s.modCtx c fun x => { x with discardDue := false }).discard c else s

/-- It completes with abort: nothing persistent changes, what the next step has begun is discarded with it, and the step repeats (R16, R18,
R183, R197). -/
def State.aborted (s : State) (c : Nat) : State :=
  let s := s.stepSkipped c
  let s := forEach ((s.layers c).filter fun l => s.layerState c l == 3) (fun s l => s.setLayerState c l 2) s
  let s := forEach (s.ctx c).prov (fun s p => (s.setLayerAge c p.1 p.2.1).setLayerUse c p.1 p.2.2) s
  let s := ((s.stepOver c).boundary c).modCtx c fun x => { x with voteBits := 0, discardDue := true, masks := [], refreshDue := false }
  (s.stepAgain c).dueDiscard c

def State.commitComplete (s : State) (c : Nat) (w : Word) : State :=
  if (s.ctx c).phase ≠ .commitWait ∨ ¬ s.sweepsRun c then s
  else
    let s := ((s.setReg (R.commitLast c) w).publishStage c).noteOverlap c
    if commitFails w then s.aborted c else s.committed c

def execCommitBarrierComplete (c : Fin 8) (v : Word) (s : State) : Result := .next (s.commitComplete c v)

/-- F3 starts the refreshes of a context (R180), layers by ⌊stage / `Y_SIZE`⌋ and then by number. -/
def execRefreshStart (c : Fin 8) (s : State) : Result :=
  .next (if (s.ctx c).running then s.refresh c fun l => Config.layerStage c l / max 1 (s.fld (F.ctxCuts.ySize c)) else s)

/-! ### Credit queues (R243) -/

/-- The base value of a queue's object for step t: t × `M`, and for a credit object the depth beside it. -/
def State.queueBase (s : State) (c k : Nat) : Nat :=
  s.stepOf c * s.fld (F.ctxCuts.m c) + (if s.bit (F.qCfg.kind c k) then 0 else s.fld (F.qCfg.depthM1 c k) + 1)

/-- F2 discards what an aborted commit left, re-bases the queues once every thread has stopped, and restarts the threads. -/
def State.queueRebase (s : State) (c : Nat) : State :=
  let s := s.dueDiscard c
  let x := s.ctx c
  if ¬ x.rebase ∨ ¬ s.coreRuns 2 ∨ ¬ x.running ∨ s.runningThreads c ≠ [] then s
  else
    let s := s.send (.rebaseArrive c)
    let s := forEach ((upto 16).filter fun k => s.bit (F.qCfg.v c k)) (fun s k =>
      s.syncSet (s.fld (F.qCfg.obj c k)) (BitVec.ofNat 64 (s.queueBase c k))) s
    let s := s.send (.rebaseArrive c)
    let s := s.modCtx c fun x => { x with rebase := false, restart := [] }
    forEach x.restart (fun s k => s.startThread (keyTile k) (keyThread k)) s

def execQueueRebase (c : Fin 8) (s : State) : Result := .next (s.queueRebase c)

end Sys2Proof.Machine
end

