-- ==== Sys2Proof/Machine/Host.lean ====
section
/-! DEFINITION. Starting and stopping a context by ring commands, the host link's state, configuration requests (R135, R172, R195, R211,
R229, R244, R311, R316, R318, R323, R335). -/

namespace Sys2Proof.Machine

/-! ### The checks of a start -/

/-- The status of a command that "completes with an error" the spec does not name: a free value from 1 to 9. -/
def State.someError (s : State) : Nat × State :=
  let (w, s) := s.free
  (1 + w.toNat % 9, s)

/-- Why the cuts of a context do not fit, 0 for none (Table 9.4): active ring lengths are the lengths without bypassed positions. -/
def State.cutsReason (s : State) (c : Nat) : Nat :=
  let f (x : Fld) : Nat := s.fld x
  let sizes := [(0, f (F.ctxCuts.wSize c)), (1, f (F.ctxCuts.xSize c)), (2, f (F.ctxCuts.ySize c)), (3, f (F.ctxCuts.zSize c))]
  let x := f (F.ctxCuts.xSize c)
  let r := f (F.ctxCuts.r c)
  let y := f (F.ctxCuts.ySize c)
  let m := f (F.ctxCuts.m c)
  let v := f (F.ctxCuts.v c)
  if s.reg (R.ctxCuts c) = 0 then 0
  else if sizes.any fun e => e.2 != 1 && e.2 != (s.activePositions e.1).length then 1
  else if r = 0 ∨ x % r ≠ 0 then 2
  else if 64 < r * f (F.ctxCuts.wSize c) then 3
  else if m = 0 ∨ m % y ≠ 0 then 4
  else if v = 0 ∨ 8 < v then 5
  else 0

/-- The synchronisation objects of the generation part are owned by the context (R334). -/
def State.genOwned (s : State) (c : Nat) : Bool :=
  s.fld (F.genSlotSize.val c) == 0
    || ([s.fld (F.genCurObj.val c), s.fld (F.genUseObj.val c 0), s.fld (F.genUseObj.val c 1), s.batchObj c].all fun o => s.ownsCounter c o)

/-- The slot a start makes current (R335): the ready slot with the higher generation. -/
def State.startSlot (s : State) (c : Nat) : Option Nat :=
  match (upto 2).filter fun j => s.genSlot c j == 2 with
  | [0, 1] => some (if (s.reg (R.genNum c 0)).toNat < (s.reg (R.genNum c 1)).toNat then 1 else 0)
  | [j] => some j
  | _ => none

/-- A start makes slot `j` current; one that was current before the stop drains, and a switch still pending lapses (DESIGN CHOICE, log entry
116). -/
def State.startGen (s : State) (c j : Nat) : State :=
  let s := s.setBit (F.genStatus.pending c) false
  let s := if s.genSlot c (1 - j) = 3 then (s.setGenSlot c (1 - j) 4).modCtx c fun x => { x with drainSeen := false } else s
  s.makeCurrent c j

/-- Granules of a slice, and its first granule, as the objects of Table 6.9 give them. -/
def State.objGranules (s : State) (c : Nat) : Nat := s.obj (O.hamperSizeMib c) / 16
def State.objBase (s : State) (c : Nat) : Nat :=
  if s.obj (O.hamperTileBase c) = 0xFF then 128 - s.objGranules c else s.obj (O.hamperTileBase c)

/-- Firmware writes `HAMPER_CFG` from the objects of Table 6.9 (R135). -/
def State.hamperFromObjects (s : State) (c : Nat) : State :=
  s.hamperCfgWrite c (BitVec.ofNat 64
    (s.objGranules c + 2 ^ 8 * s.objBase c + 2 ^ 16 * s.obj (O.hamperPrefetch c) + 2 ^ 20 * s.obj (O.hamperSpillRaw c)))

/-! ### The start -/

/-- The largest number of granules in use in a slice of the context, as `HIGH_WATER` can hold it: entries persist over a stop (R133). -/
def State.granulesNow (s : State) (c : Nat) : Nat :=
  (s.hamper.filter fun e => e.1 % 8 == c).foldl (fun m e => max m (min 127 e.2.residentAll.length)) 0

/-- Registers that count since the context's last start. -/
def State.startCounts (s : State) (c : Nat) : State :=
  let zero : List Nat := [R.sweepSkipped c, R.slowFetchMax c, R.hamperLeftover c, R.hamperSpilled c] ++ (upto 16).flatMap fun k => [R.qWaitPs c k, R.qWaits c k]
  let s := forEach zero (fun s k => s.setReg k 0) s
  let s := (s.setFld (F.hamperStatus.highWater c) (s.granulesNow c)).setObj (O.rootMisses c) 0
  forEach (upto 256) (fun s t => s.setFld (F.hamperFault.sub t c) 0) s

/-- The context runs: its step starts over, its staged values are committed, its counts since the start begin (R211, R376). -/
def State.ctxRuns (s : State) (c : Nat) : State :=
  let x := s.ctx c
  let s := s.setCtx c
    { x with
      running := true, phase := .compute, voteBits := 0, commitBits := 0, accessFault := false, install := none, installed := false
      started := false, prov := [], swept := [], digests := [], slowRead := [], slowData := [], slowWrite := [], sweeping := none, masks := []
      rebase := false, discardDue := false, stageFrom := none, owed := false, f3Out := false, admitDue := false, refreshDue := false, restart := [], staged := []
      committed := if x.staged = [] then x.committed else x.committed ++ [(0, x.staged)], lossNan := none, mayPublish := false }
  let s := s.startCounts c
  (((s.setFld (F.sweepStatus.state c) 0).setBit (F.sweepStatus.dueNow c) false).setBit (F.sweepStatus.slowWait c) false).rootsFeed

/-- `CTX_START`: `lo` and `hi` are the two words the barrier of R195 reduces to, `queues` the `Q_CFG` entries of the job's description. DESIGN
CHOICE, log entry 128: a context with a thread that has not stopped yet is in the wrong state. -/
def State.ctxStart (s : State) (c : Nat) (cmd : RingCmd) (lo hi : Word) (queues : List (Nat × Word)) : State :=
  let x := s.ctx c
  let failed (s : State) : State :=
    let (e, s) := s.someError
    s.finish c cmd e
  if x.running ∨ x.halted ∨ ¬ s.quiet c ∨ ¬ (s.fld F.unitReady.contexts).testBit c ∨ s.fld F.fenceStatus.level ≠ 0 then s.finish c cmd 7
  else if ¬ s.genOwned c then s.finish c cmd 4
  else if s.fld (F.genSlotSize.val c) ≠ 0 ∧ (s.startSlot c).isNone then s.finish c cmd 7
  else if s.cutsReason c ≠ 0 then failed ((s.setBit (F.stageStatus.cutsBad c) true).setFld (F.stageStatus.badReason c) (s.cutsReason c))
  else if ¬ s.hashesHold c then failed s
  else if lo ≠ ~~~hi then failed s
  else
    let bad := s.sliceOverlap c (s.objBase c) (s.objGranules c)
    let s := (s.dueDiscard c).hamperFromObjects c
    if bad ∨ s.sliceOverlap c (s.fld (F.hamperCfg.sliceBase c)) (s.sliceGranules c) then failed s
    else
      let s := forEach queues (fun s q => s.qCfgWrite c q.1 q.2) s
      let s := (s.rootless c).ctxRuns c
      let s := if s.fld (F.genSlotSize.val c) = 0 then s else
        match s.startSlot c with
        | some j => s.startGen c j
        | none => s
      s.finish c cmd 0

/-- F2 and F3 take part in a start that F0 has taken: once both run it goes on. -/
def State.startGoes (s : State) (c : Nat) : State :=
  match (s.ctx c).starting with
  | none => s
  | some x =>
    if s.coreRuns 2 ∧ s.coreRuns 3 then (s.modCtx c fun y => { y with starting := none }).ctxStart c x.cmd x.lo x.hi x.queues else s

/-- F0 takes `CTX_START` (R504). -/
def State.takeStart (s : State) (c : Nat) (cmd : RingCmd) (lo hi : Word) (queues : List (Nat × Word)) : State :=
  (s.modCtx c fun x => { x with starting := some { cmd := cmd, lo := lo, hi := hi, queues := queues } }).startGoes c

def execCtxStart (r : Fin 8) (lo hi : Word) (queues : List (Fin 16 × Word)) (s : State) : Result :=
  .next (s.take r 0x01 fun s c => s.takeStart r c lo hi (queues.map fun q => (q.1.val, q.2)))

/-! ### Stop and abort -/

/-- A context that is not running is in the target state already. What its threads have begun of a step behind a shadow slot goes on, since it has
no sweep left to wait for. -/
def State.ctxStop (s : State) (c : Nat) : State :=
  ((((s.stageWaited c).modCtx c fun x => { x with running := false }).stopThreads c).dmaWake).settleRing c

def execCtxStop (r : Fin 8) (s : State) : Result := .next (s.take r 0x02 fun s _ => s.ctxStop r)

/-- `ABORT_STEP` sets `HOST_ABORT` of the vote before this module's arrival, and of the commit after it (Tables 8.1, 8.3). -/
def State.abortStep (s : State) (c : Nat) (cmd : RingCmd) : State :=
  if ¬ (s.ctx c).running then s.finish c cmd 7
  else
    let s := s.modCtx c fun x => match x.phase with
      | .compute => { x with voteBits := x.voteBits ||| 8 }
      | .commitWait => { x with voteBits := x.voteBits ||| 8 }
      | _ => { x with commitBits := x.commitBits ||| 8 }
    s.finish c cmd 0

def execAbortStep (r : Fin 8) (s : State) : Result := .next (s.take r 0x04 fun s c => s.abortStep r c)

/-! ### Snapshot drained (R311) -/

/-- The entry a drained snapshot posts: source, time and one occurrence; its code, severity and data are not stated. -/
def State.snapEntry (s : State) (c : Nat) : State :=
  let (w, s) := s.free
  s.postEvent c (leBytes 3 w.toNat ++ leBytes 1 0x0C ++ leBytes 4 c ++ leBytes 8 s.now ++ leBytes 6 (w.toNat / 2 ^ 16) ++ leBytes 2 0 ++ leBytes 4 1
    ++ leBytes 36 0)

def execSnapDrainComplete (c : Fin 8) (s : State) : Result := .next (s.snapDrained c fun s => s.snapEntry c)

/-! ### The link (R316, R318) -/

/-- The link has been out of L0 for more than 1 ms. -/
def execLinkLeavesL0 (s : State) : Result := .next (s.setFuncReady 6 false).slowLinkDown

/-- The link reads L0 with a width and a rate code from 1 to 7; flit mode at 64 and 128 GT/s. The host link starts at the later of step 4
and PERST# rising (Table 15.3). -/
def State.linkEnters (s : State) (width rate : Nat) : State :=
  if ¬ ([1, 2, 4, 8, 16].contains width ∧ 1 ≤ rate ∧ rate ≤ 7) ∨ s.bring.step ≠ 4 ∨ ¬ s.bring.perst then s
  else
    let s := ((s.setFld F.linkStatus.width width).setFld F.linkStatus.rate rate).setBit F.linkStatus.flitMode (6 ≤ rate)
    s.setFuncReady 6 true

def execLinkEntersL0 (width rate : Nat) (s : State) : Result := .next (s.linkEnters width rate)

/-- Powers of two from `lo` to `hi`. -/
def powerIn (lo hi n : Nat) : Bool := lo ≤ n && n ≤ hi && 2 ^ (bitLen n - 1) == n

/-! ### Configuration space (R316, R317; PRESUMED, log entry 119: the places and codes are those of PCI Express) -/

/-- Bits of a dword that a configuration write stores: command, BAR addresses by their sizes (Table 12.2), interrupt line, device control
but for the two sizes, device control 2, MSI-X control, the masks and severities of AER, generation and check of ECRC, 14-bit tags. -/
def cfgMask (k : Nat) : BitVec 32 :=
  match k with
  | 1 => 0x146
  | 4 => 0xFFFF0000
  | 5 => 0xFFFFFFFF
  | 7 => 0xFFFFFFF0
  | 8 => 0xFFFFC000
  | 9 => 0xFFFFFFFF
  | 15 => 0xFF
  | 22 => 0x11F
  | 30 => 0x101F
  | 36 => 0xC0000000
  | 66 => 0x005FF030
  | 67 => 0x005FF030
  | 69 => 0x31C1
  | 70 => 0x140
  | 82 => 0x4
  | _ => 0

/-- Bits a configuration write of one clears: device status, and the two error status registers of AER. -/
def cfgClear (k : Nat) : BitVec 32 :=
  match k with
  | 22 => 0xF0000
  | 65 => 0xFFFFFFFF
  | 68 => 0xFFFFFFFF
  | _ => 0

/-- What the settable bits of a dword are after reset, where it is not 0: the mask of internal errors, the severities, the mask of advisory errors. -/
def cfgDefault (k : Nat) : BitVec 32 :=
  match k with
  | 66 => 0x00400000
  | 67 => 0x00462030
  | 69 => 0x2000
  | _ => 0

/-- What a dword reads that no write changes: IDs and class code, a type 0 header, the kinds of the BARs, and the capabilities of Table 12.1:
power management, PCI Express, MSI-X with 64 vectors and its table and PBA in BAR4, AER with ECRC generation and check, 14-bit tags. -/
def cfgFixed (k : Nat) : BitVec 32 :=
  match k with
  | 0 => 0x05120000#32 ||| (Config.configSpace 0 &&& 0xFFFF#32)
  | 1 => 0x00100000
  | 2 => 0x12000000#32 ||| (Config.configSpace 2 &&& 0xFF#32)
  | 4 => 0x4
  | 6 => 0xC
  | 8 => 0x4
  | 11 => Config.configSpace 11
  | 13 => 0x40
  | 16 => 0x00035001
  | 20 => 0x00029010
  | 21 => 0x00008022
  | 23 => 0x00000107
  | 29 => 0x0003000F
  | 31 => 0x000000FE
  | 36 => 0x003F0011
  | 37 => 0x00000004
  | 38 => 0x00002004
  | 64 => 0x14020001
  | 70 => 0xA0
  | 80 => 0x0001002F
  | 81 => 0x6
  | _ => 0

/-- The code of a payload or read size: 128 is 0, and each doubling one more. -/
def sizeCode (n : Nat) : Nat := bitLen (n / 128) - 1

/-- Settings and states a dword shows: the power state, the two sizes, the width and rate of the link. -/
def State.cfgLive (s : State) (k : Nat) : BitVec 32 :=
  match k with
  | 17 => if s.d3hot then 3 else 0
  | 22 => BitVec.ofNat 32 (2 ^ 5 * sizeCode s.maxPayload + 2 ^ 12 * sizeCode s.maxRead)
  | 24 => BitVec.ofNat 32 (2 ^ 16 * s.fld F.linkStatus.rate + 2 ^ 20 * s.fld F.linkStatus.width)
  | _ => 0

/-- What a dword holds beside its fixed bits, as far as it differs from `cfgDefault`. -/
def State.cfgWord (s : State) (k : Nat) : BitVec 32 := Tab.get (fun _ => 0) s.cfg k
def State.setCfgWord (s : State) (k : Nat) (v : BitVec 32) : State := { s with cfg := Tab.put (fun _ => 0) s.cfg k v }

/-- A dword of configuration space. -/
def State.configDword (s : State) (k : Nat) : BitVec 32 := cfgFixed k ||| (s.cfgWord k ^^^ cfgDefault k) ||| s.cfgLive k

/-- An error is recorded: bits of the uncorrectable and correctable status of AER and of device status; the first one leaves its place, and the
header of its packet, which is not stated (Table 12.1; log entry 119). -/
def State.aerNote (s : State) (uncorr : Nat) (corr dev : BitVec 32) : State :=
  let first := s.cfgWord 65 == 0
  let add (s : State) (k : Nat) (v : BitVec 32) : State := s.setCfgWord k (s.cfgWord k ||| v)
  let s := add (add (add s 65 (1 <<< uncorr)) 68 corr) 22 dev
  if ¬ first then s
  else
    let (l, s) := s.freeList 4
    let s := s.setCfgWord 70 ((s.cfgWord 70 &&& 0xFFFFFFE0) ||| BitVec.ofNat 32 uncorr)
    forEach l.zipIdx (fun s e => s.setCfgWord (71 + e.2) e.1) s

/-- A request of the host is answered with Unsupported Request; a request of the module is not answered in time. -/
def State.aerUnsupported (s : State) : State := s.aerNote 20 0x2000 0x90000
def State.aerTimeout (s : State) : State := s.aerNote 14 0 0x20000

/-- Settings Table 12.1 does not allow are not taken. -/
def State.setPayload (s : State) (n : Nat) : State := if powerIn 128 512 n then { s with maxPayload := n } else s
def State.setReadSize (s : State) (n : Nat) : State := if powerIn 128 4096 n then { s with maxRead := n } else s

/-- A write of a dword of configuration space. -/
def State.configWrite (s : State) (k : Nat) (v : BitVec 32) : State :=
  let s := s.setCfgWord k ((s.cfgWord k &&& ~~~(cfgMask k) &&& ~~~(cfgClear k &&& v)) ||| ((v ^^^ cfgDefault k) &&& cfgMask k))
  match k with
  | 17 => if v.toNat % 4 = 0 then { s with d3hot := false } else if v.toNat % 4 = 3 then { s with d3hot := true } else s
  | 22 => (s.setPayload (128 * 2 ^ (v.toNat / 2 ^ 5 % 8))).setReadSize (128 * 2 ^ (v.toNat / 2 ^ 12 % 8))
  | 36 => s.firePending
  | _ => s

def State.configRequest (s : State) : ConfigReq → State
  | .read k => s.send (.config (s.configDword k))
  | .write k v => s.configWrite k v
  | .power d => { s with d3hot := d }
  | .maxPayload n => s.setPayload n
  | .maxRead n => s.setReadSize n

end Sys2Proof.Machine
end

