-- ==== Sys2Proof/Machine/Errors.lean ====
section
/-! DEFINITION. Handling the error log and the fence (R422 to R426, R434 to R436, R439). -/

namespace Sys2Proof.Machine

/-! ### The order of handling (R422) -/

/-- The slot in handling. -/
def State.handlingSlot (s : State) : Option Nat := (s.log.find? fun e => e.2.state == 2).map (·.1)

/-- `a` is taken before `b`: higher severity, then lower `SEQ`. -/
def takeBefore (a b : LogSlot) : Bool := b.sev < a.sev || (a.sev == b.sev && a.seq < b.seq)

/-- The queued slot F4 takes next. -/
def State.nextSlot (s : State) : Option (Nat × LogSlot) :=
  (s.log.filter fun e => e.2.state == 1).foldl (fun acc e =>
    match acc with
    | none => some e
    | some v => if takeBefore e.2 v.2 then some e else some v) none

/-- The highest severity among queued slots, 0 for none. -/
def State.topSev (s : State) : Nat := match s.nextSlot with | some e => e.2.sev | none => 0

/-- `PREEMPT` (R423). -/
def State.preempt (s : State) : Bool :=
  match s.handlingSlot, s.nextSlot with
  | some i, some e => (s.logSlot i).sev < e.2.sev
  | _, _ => false

/-! ### Ring posting (R325, R424) -/

/-- Does this code's source name a context, or a tile and thread of one, and which (R325, Table 16.6)? The source of `RESET_FORCED` is
what was reset; an `EVENT` descriptor, whose entry has `FLAGS` bit 1, names its tile and thread whatever its code (R426). -/
def eventContext (code func unit flags : Nat) : Option Nat :=
  if flags.testBit 1 then some (unit / 2 ^ 16 % 8)
  else if code = 0x6001 then (if func = 0x0C then some (unit % 8) else none)
  else if func = 0x0C then some (if code = 0x1002 ∨ code = 0x1003 then unit % 8 else unit / 2 ^ 16 % 8)
  else if func = 0x01 then some (unit / 2 ^ 16 % 8)
  else none

/-- The ring set an event is posted to: its context's, else the management ring. -/
def eventRing (code func unit flags : Nat) : Nat := (eventContext code func unit flags).getD 8

/-- Bytes 0 to 27 of a slot with bytes 22 and 23 zero, and zeros behind them (Table 12.13a). -/
def LogSlot.entry (e : LogSlot) : List Byte :=
  leBytes 2 e.code ++ leBytes 1 e.sev ++ leBytes 1 e.func ++ leBytes 4 e.unit ++ leBytes 8 e.time ++ leBytes 6 e.data ++ leBytes 2 0
    ++ leBytes 4 e.merged ++ leBytes 36 0

/-- The 64 bytes of a slot (Table 16.2). -/
def LogSlot.bytes (e : LogSlot) : List Byte :=
  leBytes 2 e.code ++ leBytes 1 e.sev ++ leBytes 1 e.func ++ leBytes 4 e.unit ++ leBytes 8 e.time ++ leBytes 6 e.data ++ leBytes 1 e.state
    ++ leBytes 1 e.flags ++ leBytes 4 e.merged ++ leBytes 4 0 ++ leBytes 8 e.lastTime ++ leBytes 8 e.seq ++ leBytes 16 0

/-- F4 takes slot `i`; it posts it the first time. -/
def State.takeSlot (s : State) (i : Nat) (e : LogSlot) : State :=
  let s := s.setLogSlot i { e with state := 2, flags := e.flags ||| 1 }
  if e.flags.testBit 0 then s else s.postEvent (eventRing e.code e.func e.unit e.flags) e.entry

/-- `LOG_CMD` take: with a slot in handling there is nothing to take (R421). -/
def State.logTake (s : State) : State :=
  if ¬ s.coreRuns 4 ∨ s.handlingSlot.isSome then s
  else
    match s.nextSlot with
    | some (i, e) => s.takeSlot i e
    | none => s

def execLogTake (s : State) : Result := .next s.logTake

/-- `LOG_CMD` retire: the slot in handling goes to the history and is free. -/
def State.logRetire (s : State) : State :=
  match s.handlingSlot with
  | some i =>
    if ¬ s.coreRuns 4 then s
    else
      let h := s.fld F.logHistHead.val
      let s := { s with hist := Tab.put (fun _ => {}) s.hist h (s.logSlot i) }
      (s.setFld F.logHistHead.val ((h + 1) % 64)).setLogSlot i {}
  | none => s

def execLogRetire (s : State) : Result := .next s.logRetire

/-- `LOG_CMD` requeue, at a checkpoint with `PREEMPT` set: the slot keeps its `SEQ` (R423). -/
def State.logRequeue (s : State) : State :=
  match s.handlingSlot with
  | some i => if s.coreRuns 4 && s.preempt then s.setLogSlot i { s.logSlot i with state := 1 } else s
  | none => s

def execLogRequeue (s : State) : Result := .next s.logRequeue

/-- The restart of F4: the slot in handling is queued again (R425). -/
def State.logUnhandle (s : State) : State :=
  match s.handlingSlot with
  | some i => s.setLogSlot i { s.logSlot i with state := 1 }
  | none => s

/-! ### Events of firmware (R426) -/

/-- The contexts an event of firmware names: that of its ring, or the unit of the sources that are contexts (Table 16.6). -/
def raisedContexts (code func unit : Nat) : List Nat :=
  match eventContext code func unit 0 with
  | some c => [c]
  | none => if func = 0x09 ∨ (func = 0x08 ∧ code = 0x1005) then [unit % 8] else []

/-- A write of `LOG_RAISE_B` with `LOG_RAISE_A` as it was last written. -/
def State.logRaise (s : State) (b : Word) : State :=
  let a := s.reg R.logRaiseA
  let code := bitsAt a 0 16
  let func := bitsAt a 24 8
  let unit := bitsAt a 32 32
  if 6 ≤ bitsAt a 16 3 then s else s.raise code (bitsAt a 16 3) func unit (bitsAt b 0 48) (raisedContexts code func unit)

def execLogRaise (a b : Word) (s : State) : Result := .next ((s.setReg R.logRaiseA (a &&& 0xFFFFFFFFFF07FFFF#64)).logRaise b)

/-! ### The fence (R434 to R436) -/

/-- A fence write is refused. -/
def State.fenceRefuse (s : State) : State := s.setBit F.fenceStatus.refused true

def State.fenceEvent (s : State) : State := s.raise 0x2007 2 0x04 0xFF (2 ^ 40 * s.fld F.fenceStatus.level)

def execFenceSet (s : State) : Result := .next s.raiseFence

/-- Would `STILE_CLOSE` of an axis be refused? -/
def State.closeRefused (s : State) (a : Nat) : Bool := s.stileMoving a || (!s.stileClosed a && s.runTooLong a)

/-- Level 2 (R435); `cause` is 4 for the register and 5 for the object. -/
def State.fenceBypass (s : State) (cause : Nat) : State :=
  if (upto 4).any s.closeRefused then s.fenceRefuse
  else
    let s := (s.raiseFence).stileClose 15 cause false
    if s.fld F.fenceStatus.level = 2 then s else (s.setFld F.fenceStatus.level 2).fenceEvent

def execFenceBypass (s : State) : Result := .next (s.fenceBypass 4)

/-- Lower the fence one level (R436). -/
def State.fenceClear (s : State) : State :=
  if s.log.any fun e => e.2.state != 0 && e.2.sev == 5 then s.fenceRefuse
  else
    let l := s.fld F.fenceStatus.level
    if l = 0 then s else (s.setFld F.fenceStatus.level (l - 1)).fenceEvent

def execFenceClear (s : State) : Result := .next s.fenceClear

/-- A write of `FENCE_CTL`: more than one bit is refused (R436). -/
def State.fenceCtlWrite (s : State) (v : Word) : State :=
  match v.getLsbD 0, v.getLsbD 1, v.getLsbD 2 with
  | false, false, false => s
  | true, false, false => s.raiseFence
  | false, true, false => s.fenceBypass 4
  | false, false, true => s.fenceClear
  | _, _, _ => s.fenceRefuse

/-- The object `FENCE_LEVEL` (Table 16.8): set, bypass, or one clear for each step down. Answers whether it was refused. -/
def State.fenceLevelWrite (s : State) (v : Nat) : State × Bool :=
  let l := s.fld F.fenceStatus.level
  if v < l then
    let t := (upto (l - v)).foldl (fun (t : State) _ => if v < t.fld F.fenceStatus.level then t.fenceClear else t) s
    (t, t.fld F.fenceStatus.level != v)
  else if v = 1 then (s.raiseFence, false)
  else if v = 2 then
    let t := s.fenceBypass 5
    (t, t.fld F.fenceStatus.level != 2)
  else (s, false)

def execFenceLevelWrite (v : Fin 3) (s : State) : Result := .next (s.inDict O.fenceLevel (s.fenceLevelWrite v).1)

/-- A write of 0 to `LOG_OVERFLOW` (Table 16.8). -/
def State.overflowClear (s : State) : State := s.setBit F.logStatus.overflow false

def execLogOverflowClear (s : State) : Result := .next (s.inDict O.logOverflow s.overflowClear)

end Sys2Proof.Machine
end

