-- ==== Sys2Proof/Machine/Power.lean ====
section
/-! DEFINITION. The throttle: its causes and level, the emergency, quiet time, and the input pins that act in phase C (R402, R405,
R446 to R451). -/

namespace Sys2Proof.Machine

/-! ### Causes and level (R446) -/

/-- The level cause `b` holds. -/
def State.causeLevel (s : State) (b : Nat) : Nat := Tab.get (fun _ => 0) s.causes b

def State.putCause (s : State) (b v : Nat) : State := { s with causes := Tab.put (fun _ => 0) s.causes b v }

/-- An emergency or a condition cause is present (R451). -/
def State.disturbed (s : State) : Bool := s.bit F.pwrStatus.emergency || s.causes.any fun e => 2 ≤ e.1 && e.1 ≤ 10 && e.2 != 0

/-- The level is the highest a cause holds. A rise from 0 raises `THROTTLE`; a level above 0 acts on promises (R450). -/
def State.throttleSettle (s : State) : State :=
  let old := s.fld F.pwrStatus.level
  let new := s.causes.foldl (fun m e => max m e.2) 0
  let bits := s.causes.foldl (fun m e => if e.2 = 0 then m else m ||| 2 ^ e.1) 0
  let s := (s.setFld F.throttleCause.val bits).setFld F.pwrStatus.level new
  let s := if s.disturbed then s.setFld F.quietS.val 0 else s
  let s := if new = 0 then s else s.markSeen 0
  if old = 0 ∧ new ≠ 0 then s.raise 0x5001 0 0x0A 0xFF (new + 2 ^ 16 * bits) else s

/-- Cause `b` takes a level; without the auxiliary rail the always-on domain has stopped (R442). -/
def State.setCause (s : State) (b v : Nat) : State := if s.bring.auxOk then (s.putCause b v).throttleSettle else s

/-- Causes that rise by steps: bits 2 and 5 to 8; causes that step down: those and 3; causes released at once: 4, 9, 10 (Table 17.5). -/
def causeSteps (b : Nat) : Bool := b == 2 || (5 ≤ b && b ≤ 8)
def causeStepsDown (b : Nat) : Bool := b == 3 || causeSteps b
def causeReleases (b : Nat) : Bool := b == 4 || b == 9 || b == 10

/-- The condition of a cause crosses its threshold. -/
def State.causeRise (s : State) (b : Nat) : State :=
  let l := s.causeLevel b
  if causeSteps b then s.setCause b (min (l + 1) 3)
  else if b = 3 then s.setCause b 3
  else if causeReleases b then s.setCause b (max l 2)
  else s

def execThrottleCauseRise (b : Fin 12) (s : State) : Result := .next (s.causeRise b)

/-- A further 100 µs or 1 ms above the threshold. -/
def State.causeEscalate (s : State) (b : Nat) : State :=
  if causeSteps b ∧ s.causeLevel b ≠ 0 then s.setCause b (min (s.causeLevel b + 1) 3) else s

def execThrottleCauseEscalate (b : Fin 12) (s : State) : Result := .next (s.causeEscalate b)

/-- A step down; an emergency holds its causes (R448). -/
def State.causeStepDown (s : State) (b : Nat) : State :=
  if causeStepsDown b ∧ ¬ s.bit F.pwrStatus.emergency then s.setCause b (s.causeLevel b - 1) else s

def execThrottleStepDown (b : Fin 12) (s : State) : Result := .next (s.causeStepDown b)

/-- A supply or coolant cause is released. -/
def State.causeRelease (s : State) (b : Nat) : State :=
  if causeReleases b ∧ ¬ s.bit F.pwrStatus.emergency then s.setCause b 0 else s

def execThrottleCauseRelease (b : Fin 12) (s : State) : Result := .next (s.causeRelease b)

/-- `FORCE_LEVEL` is cause 1. -/
def State.forceWrite (s : State) (v : Nat) : State := (s.setFld F.throttleCtl.forceLevel v).setCause 1 (v % 4)

def execThrottleForceWrite (v : BitVec 2) (s : State) : Result := .next (s.forceWrite v.toNat)

/-- A write of `THROTTLE_CTL`: a field outside its range keeps its value (Table 17.11). -/
def State.throttleCtlWrite (s : State) (v : Word) : State :=
  let put (f : Fld) (lo hi : Nat) (s : State) : State :=
    let n := bitsAt v f.lo f.width
    if lo ≤ n ∧ n ≤ hi then s.setFld f n else s
  let s := put F.throttleCtl.powerLimit 800 1800 s
  let s := put F.throttleCtl.dieThrottle 70 100 s
  let s := put F.throttleCtl.hbmThrottle 60 90 s
  (put F.throttleCtl.stepDown 1 1000 s).forceWrite (bitsAt v 0 2)

/-! ### The pins of phase C (R402, R405) -/

/-- Judge `THROTTLE_N` and `STOP_N` by their levels and enables. -/
def State.pinsJudge (s : State) : State :=
  let c := s.fld F.phaseStatus.phase == 2
  let level : Nat → Bool := fun n => (s.fld F.pinLevel.val).testBit n
  let throttle := c && s.bit F.pinCtl.throttleInEn && !level 2
  let stop := c && s.bit F.pinCtl.stopInEn && !level 6
  let s := if stop then s.markSeen 0 else s
  if s.bring.auxOk then ({ s with stopFrozen := stop }).setCause 0 (if throttle then 3 else 0) else s

/-- The level of input PHn changes, after the filter of R389. -/
def State.pinSet (s : State) (n : Nat) (v : Bool) : State := (s.setBit ⟨R.pinLevel, n, 1⟩ v).pinsJudge

def execThrottleNLow (s : State) : Result := .next (s.pinSet 2 false)
def execThrottleNHigh (s : State) : Result := .next (s.pinSet 2 true)
def execStopNLow (s : State) : Result := .next (s.pinSet 6 false)
def execStopNHigh (s : State) : Result := .next (s.pinSet 6 true)

/-- `FAULT_RELEASE` (R403). -/
def State.faultRelease (s : State) : State := { s with faultLow := false }

def execFaultNRelease (s : State) : Result := .next s.faultRelease

/-- A write of `PIN_CTL`. -/
def State.pinCtlWrite (s : State) (v : Word) : State :=
  let s := (s.setReg R.pinCtl (v &&& 0x44#64)).pinsJudge
  if v.getLsbD 8 then s.faultRelease else s

/-! ### Emergencies (R448) -/

/-- The sensor `EMERGENCY` names: of a temperature condition, the coolant inlet's, else 31. -/
def sensorOf (b sensor : Nat) : Nat := if 5 ≤ b ∧ b ≤ 8 then sensor else if b = 9 then 16 else 31

/-- `EMERGENCY` (Table 17.13). -/
def State.emergencyEvent (s : State) (shutdown : Bool) (sensor : Nat) : State :=
  s.raise 0x5002 2 0x0A 0xFF (3 + (if shutdown then 4 else 0) + 2 ^ 16 * s.fld F.emergCause.val + 2 ^ 28 * (sensor % 32))

/-- Condition `b` of Table 17.6 arises; `sensor` is the one above its emergency threshold. -/
def State.emergencyBegin (s : State) (b sensor : Nat) : State :=
  if b < 3 ∨ 12 ≤ b ∨ ¬ s.bring.auxOk ∨ (s.fld F.emergCause.val).testBit b then s
  else
    let s := (s.setBit ⟨R.emergCause, b, 1⟩ true).setBit F.pwrStatus.emergency true
    let s := (forEach [2, 3, 4, 5, 6, 7, 8, 9, 10] (fun s k => s.putCause k 3) s).throttleSettle
    (s.markSeen 0).emergencyEvent false (sensorOf b sensor)

def execEmergencyBegin (b : Fin 12) (sensor : Fin 18) (s : State) : Result := .next (s.emergencyBegin b sensor)

/-- Conditions cease: `left` are those that still hold; with none left the emergency clears, and the held causes are left to their
releases. -/
def State.emergencyClear (s : State) (left : Nat) : State :=
  let bits := s.fld F.emergCause.val &&& left
  if ¬ s.bring.auxOk then s
  else
  let s := s.setFld F.emergCause.val bits
  if bits = 0 then s.setBit F.pwrStatus.emergency false else s

def execEmergencyClear (left : BitVec 12) (s : State) : Result := .next (s.emergencyClear left.toNat)

/-! ### Quiet time and telemetry (R451, R457) -/

def execQuietSecondTick (s : State) : Result := .next (if s.disturbed || !s.bring.auxOk then s else s.bump F.quietS.val)

/-- Registers that show a measurement (R457): no command brings one, so a read gives a free value; `ENERGY` has counted on by one. -/
def isTelemetry (k : Nat) : Bool := (R.mainV ≤ k && k ≤ R.flow) || (R.temp 0 ≤ k && k ≤ R.temp 17)

/-- The bits of a telemetry register (Table 17.10). -/
def telemetryWidth (k : Nat) : Nat :=
  if k = R.energy then 64 else if k = R.mainV ∨ k = R.flow ∨ R.temp 0 ≤ k then 16 else 32

/-- A measurement, as its register shows it. `ENERGY` integrates: what has come since the last read is free, its sum is held and saturates
(R457, R458). -/
def State.measure (s : State) (k : Nat) : Word × State :=
  let (w, s) := s.free
  if k = R.energy then
    let s := s.bumpReg k w.toNat
    (s.reg k, s)
  else (BitVec.ofNat 64 (w.toNat % 2 ^ telemetryWidth k), s)

/-- A read of `PEAK_P` answers the highest average since the last read and clears it. -/
def execPeakPRead (s : State) : Result :=
  let (w, s) := s.measure R.peakP
  .next (s.send (.readData (leBytes 8 w.toNat)))

end Sys2Proof.Machine
end

