-- ==== Sys2Proof/Machine/Firmware.lean ====
section
/-! DEFINITION. The firmware complex: loading a runtime image, restarts of a core and level 2, watchdogs, the console (R341 to R359), and
errors in protected words (R428 to R432). -/

namespace Sys2Proof.Machine

/-! ### Layout (Table 13.1) -/

def fwSram : Nat := 0x0305400000

/-- The shared region (Table 13.1): the recovery record of a core, the mailbox queues of ordered pairs of cores, the console buffer. -/
def recoveryRecord (n : Nat) : Nat := 0x300000 + fwSram + 0x8000 * n
def mailboxQueue (i : Nat) : Nat := 0x340000 + fwSram + 0x2000 * i
def conBase : Nat := 0x380000 + fwSram

/-- Is an offset in a recovery record or a mailbox queue, whose contents Bolmi writes and the spec does not lay out (log entry 120)? -/
def isBolmi (off : Nat) : Bool :=
  (recoveryRecord 0 ≤ off && off < recoveryRecord 6) || (mailboxQueue 0 ≤ off && off < mailboxQueue 30)
def imageBase : Nat := 0x4000000000
/-- The core whose private region holds an offset of the firmware SRAM. -/
def privateOf (off : Nat) : Option Nat := if off < 0x300000 then some (off / 0x80000) else none

/-! ### Readiness of the cores -/

def State.setCoreReady (s : State) (n : Nat) (v : Bool) : State :=
  let s := s.setBit ⟨R.unitReady, 24 + n, 1⟩ v
  let all := s.fld F.unitReady.fwCores == 63
  (s.modBring fun b => { b with fwClosed := b.fwClosed && !all }).setFuncReady 7 all

def State.coreState (s : State) (n : Nat) : Nat := s.fld (F.coreStatus.state n)

/-! ### Level 2 (R354) -/

/-- Counted restarts of a core in the 10 s before now. -/
def State.windowOf (s : State) (n : Nat) : List Nat := (s.fwCore n).window.filter fun t => s.now < t + 10 ^ 13

/-- Running contexts that the loss of a core stops, and the severity (Table 13.13). -/
def State.stoppedBy (s : State) (n : Nat) : List Nat :=
  (upto 8).filter fun c => (s.ctx c).running && match n with
    | 0 => true
    | 1 => true
    | 2 => s.bit (F.sweepCtl.enable c)
    | 3 => s.layers c != []
    | _ => false

def failedSeverity (n : Nat) : Nat := match n with | 0 => 5 | 1 => 4 | 2 => 4 | 3 => 4 | 4 => 5 | _ => 2

/-- A core enters level 2: it is held in reset, its contexts are stopped, each with an entry on its event ring. -/
def State.coreFails (s : State) (n : Nat) : State :=
  let l := s.stoppedBy n
  let cause := s.fld (F.coreStatus.lastCause n)
  let s := ((s.setFld (F.coreStatus.state n) 4).setCoreReady n false).setFld F.bootState.state 7
  let data := n + 2 ^ 3 * cause + 3 * 2 ^ 7 + (l.map fun c => 2 ^ (16 + c)).sum
  let s := s.raise 0x4002 (failedSeverity n) 0x07 n data l
  forEach l (fun s c =>
    (s.haltCtx c).postEvent c ({ code := 0x4002, sev := 4, func := 0x07, unit := n, time := s.now, data := data, merged := 1 } : LogSlot).entry) s

/-! ### Restarts (R350 to R353) -/

/-- Has the core's firmware been started: it runs, initialises, or restarts? -/
def State.coreAlive (s : State) (n : Nat) : Bool :=
  s.coreState n == 2 || s.coreState n == 3 || (s.coreState n == 1 && (s.fwCore n).loaded)

/-- A level-1 restart begins: the core alone is reset (R351). Causes 1 and 2 are counted; the third within 10 s is level 2. -/
def State.coreRestarts (s : State) (n cause : Nat) : State :=
  let counted := cause == 1 || cause == 2
  let s := (s.setFld (F.coreStatus.state n) 3).setFld (F.coreStatus.lastCause n) cause
  let s := (s.setCoreReady n false).bumpReg (R.coreRestartCount n)
  let (pc, s) := s.free
  let s := s.setReg (R.coreFaultPc n) pc
  let s := s.modFwCore n fun x =>
    { x with loaded := false, window := if counted then s.windowOf n ++ [s.now] else s.windowOf n }
  let s := if n = 1 then s.setBit F.xportCtl.admitEn false else if n = 4 then s.logUnhandle else s
  let k := min (s.fwCore n).window.length 3
  let s := s.raise 0x4001 (if counted then 2 else 0) 0x07 n (n + 2 ^ 3 * cause + 2 ^ 7 * k + 2 ^ 16 * (pc.toNat % 2 ^ 32))
  if counted ∧ 3 ≤ (s.fwCore n).window.length then s.coreFails n else s

/-- The watchdog expires; not during the core's own restart. -/
def State.watchdog (s : State) (n : Nat) : State :=
  if s.bit (F.wdtCfg.en n) ∧ s.coreAlive n ∧ s.coreState n ≠ 3 then s.coreRestarts n 1 else s

def execWatchdogExpiry (n : Fin 6) (s : State) : Result := .next (s.watchdog n)

def State.trap (s : State) (n : Nat) : State := if s.coreAlive n then s.coreRestarts n 2 else s

def execFatalTrap (n : Fin 6) (s : State) : Result := .next (s.trap n)

def State.restartRequest (s : State) (n : Nat) : State := if s.coreAlive n then s.coreRestarts n 3 else s

def execCoreRestartRequest (n : Fin 6) (s : State) : Result := .next (s.restartRequest n)

/-- `HOLD` (Table 13.3). Level 2 is not left through it (R354). A core released before an image was started is back in the ROM. -/
def State.coreHold (s : State) (n : Nat) (v : Bool) : State :=
  let s := s.setBit (F.coreCtl.hold n) v
  if v then
    (if s.coreState n = 4 ∨ s.coreState n = 5 then s
      else
        let s := ((s.setFld (F.coreStatus.state n) 5).setCoreReady n false).modFwCore n fun x => { x with loaded := false }
        if n = 1 then s.setBit F.xportCtl.admitEn false else s)
  else if s.coreState n ≠ 5 then s
  else if s.boot.segs = [] then s.setFld (F.coreStatus.state n) 1
  else s.coreRestarts n 3

def execCoreHold (n : Fin 6) (v : Bool) (s : State) : Result := .next (s.coreHold n v)

/-- The bytes of a core's segments in the image copy (R348, R352). -/
def State.segBytes (s : State) (n : Nat) : List Byte :=
  ((s.boot.segs.filter fun g => g.core == n && g.kind != 2).map fun g => s.bytes (imageBase + g.file) g.len).flatten

/-- Write a core's segments into the firmware SRAM; `KIND` 2 segments are zeros. -/
def State.loadSegs (s : State) (n : Nat) : State :=
  forEach (s.boot.segs.filter fun g => g.core == n) (fun s g =>
    let l := if g.kind = 2 then List.replicate g.len 0 else s.bytes (imageBase + g.file) g.len
    s.setBytes (fwSram + g.off) l) s

/-- The private region of a core is written afresh: zeros, then its segments. -/
def State.rewrite (s : State) (n : Nat) : State :=
  let lo := fwSram + 0x80000 * n
  let s := (s.dropMem fun k => lo ≤ k && k < 0x80000 + lo).loadSegs n
  { s with badWords := s.badWords.filter fun b => !(lo ≤ b && b < 0x80000 + lo) }

/-- The steps of a restart after the core's reset (Table 13.12); they wait while the Ronbin block restarts (R474). -/
def State.coreReload (s : State) (n : Nat) : State :=
  if s.coreState n ≠ 3 ∨ s.ronbin.restart.isSome ∨ (s.fwCore n).loaded then s
  else if sha384 (s.segBytes n) ≠ (s.fwCore n).digest then (s.setFld (F.coreStatus.lastCause n) 4).coreFails n
  else (s.rewrite n).modFwCore n fun x => { x with loaded := true }

def execCoreRestart (n : Fin 6) (s : State) : Result := .next (s.coreReload n)

/-- A kick by the core itself: the limit in force is the one set now (R343, R360). -/
def State.kick (s : State) (n : Nat) : State :=
  if s.coreRuns n then s.modFwCore n fun x => { x with limit := s.fld (F.wdtCfg.timeoutMs n) } else s

def execWdtKick (n : Fin 6) (s : State) : Result := .next (s.kick n)

/-- The kick restarts the level-3 count, which the sender of `LEVEL3_EXPIRY` keeps. -/
def execFwL3Kick (s : State) : Result := .next s

/-! ### Loading the image (R344 to R348) -/

/-- `LOAD`, accepted in `BOOT_STATE` 1 and 6 (R345). -/
def State.bootLoad (s : State) : State :=
  if s.fld F.bootState.state ≠ 1 ∧ s.fld F.bootState.state ≠ 6 then s
  else
    let s := ((s.setFld F.bootState.state 2).setFld F.bootState.reject 0).modBoot fun b => { b with loadAt := s.now }
    s.readHost (4096 * s.fld F.bootImageAddr.val) (s.fld F.bootImageLen.val)

def execBootLoad (s : State) : Result := .next (if s.hostUp then s.bootLoad else s)

/-- Segment entry `i` of an image. -/
def segOf (l : List Byte) (i : Nat) : FwSeg :=
  let a := 128 + 32 * i
  { core := natAt l a 1, kind := natAt l (a + 1) 1, off := natAt l (a + 4) 4, len := natAt l (a + 8) 4, file := natAt l (a + 12) 4,
    entry := natAt l (a + 16) 4 }

/-- The segment lies in its core's private region, or in the shared region, and its data before the signature. -/
def FwSeg.placed (g : FwSeg) (imageLen : Nat) : Bool :=
  (if g.core = 0xFF then 0x300000 ≤ g.off && g.off + g.len ≤ 0x400000
    else g.core < 6 && 0x80000 * g.core ≤ g.off && g.off + g.len ≤ 0x80000 * (g.core + 1))
    && (g.kind == 2 || g.file + g.len ≤ imageLen - 96)

/-- No two of the segments overlap. -/
def segsApart : List FwSeg → Bool
  | [] => true
  | g :: rest => rest.all (fun h => g.off + g.len ≤ h.off || h.off + h.len ≤ g.off || g.len == 0 || h.len == 0) && segsApart rest

/-- One `KIND` 3 segment for each core, with its entry inside. -/
def entriesGood (l : List FwSeg) : Bool :=
  (upto 6).all fun n =>
    match l.filter fun g => g.core == n && g.kind == 3 with
    | [g] => g.off ≤ g.entry && g.entry < g.off + g.len
    | _ => false

/-- The first check of Table 13.9 an image fails, 0 for none. -/
def State.imageReject (s : State) (l : List Byte) (segs : List FwSeg) : Nat :=
  let len := s.fld F.bootImageLen.val
  let key := natAt l 20 1
  if ¬ (1024 ≤ len ∧ len ≤ 8388608 ∧ natAt l 24 4 = len) then 1
  else if natAt l 0 4 ≠ 0x31545250 ∨ natAt l 4 2 ≠ 1 then 2
  else if ¬ (segs.all fun g => g.placed len) ∨ ¬ segsApart segs then 4
  else if ¬ entriesGood segs then 5
  else if 3 < key ∨ s.flash.revoked.testBit key then 6
  else if natAt l 16 4 < s.flash.rtSvn then 7
  else if ¬ signatureHolds key len l then 8
  else if natAt l 12 4 = 0 then 9
  else 0

/-- The image is rejected: `BOOT_STATE` 6 and `FW_IMAGE_REJECT`. -/
def State.rejectImage (s : State) (why version : Nat) : State :=
  ((s.setFld F.bootState.state 6).setFld F.bootState.reject why).raise 0x4003 2 0x07 0xFF (2 ^ 3 * why + 2 ^ 16 * version)

/-- The image is taken: digests, segments, versions, and the cores start (R348). -/
def State.acceptImage (s : State) (l : List Byte) (segs : List FwSeg) : State :=
  let s := s.modBoot fun b => { b with segs := segs, svn := natAt l 16 4 }
  let s := forEach (upto 6) (fun s n =>
    let digest := sha384 (s.segBytes n)
    (s.loadSegs n).modFwCore n fun x => { x with digest := digest, loaded := true }) s
  let s := s.loadSegs 0xFF
  let s := (s.setFld F.moduleVersions.hostIf (natAt l 12 4)).setFld F.moduleVersions.runtimeFw (natAt l 8 4)
  let s := forEach (upto 6) (fun s n => if s.coreState n = 5 then s else s.setFld (F.coreStatus.state n) 1) s
  s.setFld F.bootState.state 4

/-- The image read ends: its bytes, or an error. -/
def State.imageRead (s : State) (image : Option (List Byte)) : State :=
  if s.fld F.bootState.state ≠ 2 ∨ s.ronbin.restart.isSome then s
  else
    let len := s.fld F.bootImageLen.val
    match image with
    | none => (s.hostReadFails).rejectImage (if 1024 ≤ len ∧ len ≤ 8388608 then 3 else 1) 0
    | some l =>
      let l := padTo len l
      let s := s.setBytes imageBase l
      let segs := (upto (natAt l 6 2)).map (segOf l)
      match s.imageReject l segs with
      | 0 => s.acceptImage l segs
      | why => s.rejectImage why (natAt l 8 4)

def execBootImageReadComplete (image : Option (List Byte)) (s : State) : Result := .next (s.imageRead image)

/-! ### The console (R358, R359) -/

/-- F5 answers console input: phase C, `RX_EN`, and F5 runs. -/
def State.consoleOn (s : State) : Bool := s.fld F.phaseStatus.phase == 2 && s.bit F.conCtl.rxEn && s.coreRuns 5

/-- Digits of a number in ASCII: `w` hexadecimal ones, and all decimal ones. -/
def hexText (w n : Nat) : List Byte :=
  ((upto w).map fun i => let d := n / 16 ^ i % 16; BitVec.ofNat 8 (if d < 10 then 48 + d else 87 + d)).reverse

def decText : Nat → Nat → List Byte
  | 0, _ => []
  | fuel + 1, n => (if n < 10 then [] else decText fuel (n / 10)) ++ [BitVec.ofNat 8 (48 + n % 10)]

/-- Words of a reply with a space before each. -/
def spaced (l : List (List Byte)) : List Byte := l.flatMap fun w => 0x20 :: w

/-- A line of F5: core name, Lark time in microseconds, text, CR LF (R358; the text's form is a DESIGN CHOICE, log entry 120). -/
def State.conText (s : State) (text : List Byte) : List Byte := [0x46, 0x35, 0x20] ++ decText 20 (s.now / 1000000) ++ text ++ [0x0D, 0x0A]

/-- What the console buffer holds. -/
def State.conBytes (s : State) : List Byte := s.bytes conBase s.boot.lines.sum

/-- The buffer takes lines and their bytes, oldest first. -/
def State.setCon (s : State) (lines : List Nat) (text : List Byte) : State :=
  ((s.setBytes conBase text).modBoot fun b => { b with lines := lines }).setFld F.conStatus.bytes text.length

/-- Drop the oldest lines until the rest fits 8 KiB. -/
def fitLines : List Nat → List Byte → List Nat × List Byte
  | [], _ => ([], [])
  | n :: rest, l => if l.length ≤ 8192 then (n :: rest, l) else fitLines rest (l.drop n)

/-- A line joins the buffer; where it does not fit, the oldest lines go and `CON_OVF` is set (R358). -/
def State.conPush (s : State) (line : List Byte) : State :=
  let lines := s.boot.lines ++ [line.length]
  let (kept, text) := fitLines lines (s.conBytes ++ line)
  (if kept.length = lines.length then s else s.setBit F.conStatus.ovf true).setCon kept text

/-- Split the buffer into its lines. -/
def splitLines : List Nat → List Byte → List (List Byte)
  | [], _ => []
  | n :: rest, l => l.take n :: splitLines rest (l.drop n)

/-- F5 sends the lines that wait. -/
def State.conDrain (s : State) : State :=
  if s.boot.lines ≠ [] ∧ s.fld F.phaseStatus.phase = 2 ∧ s.bit F.conCtl.txEn ∧ s.coreRuns 5 then
    (forEach (splitLines s.boot.lines s.conBytes) (fun s l => s.send (.console l)) s).setCon [] []
  else s

/-- A line for PH4: it waits in the buffer while output is off. -/
def State.conLine (s : State) (text : List Byte) : State :=
  if s.bit F.conCtl.txEn then s.conDrain.send (.console (s.conText text)) else s.conPush (s.conText text)

def State.conReply (s : State) (text : List Byte) : State := if s.consoleOn then s.conLine text else s

def execConsoleVer (s : State) : Result :=
  .next (s.conReply (spaced [hexText 8 Config.bootRomVersion.toNat, hexText 8 (s.fld F.moduleVersions.runtimeFw),
    hexText 8 (s.fld F.moduleVersions.hostIf)]))

def execConsoleCores (s : State) : Result :=
  .next (s.conReply (spaced ((upto 6).flatMap fun n =>
    [decText 20 (s.coreState n), decText 20 (s.fld (F.coreStatus.lastCause n)), decText 20 (s.reg (R.coreRestartCount n)).toNat])))

def execConsoleReady (s : State) : Result :=
  .next (s.conReply (spaced [hexText 8 (s.reg R.funcReady).toNat, hexText 16 (s.reg R.unitReady).toNat]))

/-- The question mark. -/
def conUnknown : List Byte := spaced [[0x3F]]

/-- Insert an entry before the first that is older. -/
def insertNewest (e : LogSlot) : List LogSlot → List LogSlot
  | [] => [e]
  | f :: rest => if f.seq < e.seq then e :: f :: rest else f :: insertNewest e rest

/-- The N newest entries of the log. -/
def State.newest (s : State) (n : Nat) : List LogSlot :=
  ((s.log.filter fun e => e.2.state != 0).foldr (fun e l => insertNewest e.2 l) []).take n

/-- A line for each of the newest entries, its 64 bytes in hexadecimal. -/
def execConsoleLog (n : Nat) (s : State) : Result :=
  .next (if n = 0 ∨ 64 < n then s.conReply conUnknown
    else forEach (s.newest n) (fun s e => s.conReply (spaced [e.bytes.flatMap fun b => hexText 2 b.toNat])) s)

def State.setTrace (s : State) (v : Bool) : State := if s.consoleOn then s.modBoot fun b => { b with trace := v } else s

def execConsoleTraceOn (s : State) : Result := .next (s.setTrace true)
def execConsoleTraceOff (s : State) : Result := .next (s.setTrace false)
def execConsoleUnknownLine (s : State) : Result := .next (s.conReply conUnknown)

/-- A write of `CON_CTL`: `RX_EN` needs strap PH6 (Table 13.2). -/
def State.conCtlWrite (s : State) (v : Word) : State :=
  let s := s.setBit F.conCtl.txEn (v.getLsbD 0)
  let s := if v.getLsbD 1 then (if (s.fld F.strapLatch.val).testBit 6 then s.setBit F.conCtl.rxEn true else s) else s.setBit F.conCtl.rxEn false
  s.conDrain

/-! ### Protected words (R428 to R432) -/

/-- A word is corrected on a read, or by the patrol. -/
def State.eccCorrected (s : State) (off : Nat) (patrol : Bool) : State :=
  match placeOf off with
  | .meadow t => (s.bumpReg (R.meadowEccCorr t)).raise 0x3001 1 0x02 (t / 64) (off % 2 ^ 23 + 2 ^ 23 * t)
  | .thermos st inner => (s.bumpReg (R.thermosCe st)).raise 0x3003 1 0x03 st (inner + (if patrol then 2 ^ 36 else 0))
  | .hub h => if 0x5400000 ≤ h ∧ h < 0x5800000 then s.bump F.fwSramEcc.corr else s
  | _ => s

def execEccCorrection (off : Nat) (s : State) : Result := .next (s.eccCorrected off false)

/-- A word fails a read: it keeps failing until a write covers it. -/
def State.eccFails (s : State) (off : Nat) : State :=
  let b := eccBase (memKey off)
  let mark (s : State) : State := if s.badWords.contains b then s else { s with badWords := s.badWords ++ [b] }
  match placeOf off with
  | .meadow _ => (mark s).raiseBad b
  | .thermos _ _ => (mark s).raiseBad b
  | .hub h =>
    if 0x5400000 ≤ h ∧ h < 0x5800000 then
      let s := s.bump F.fwSramEcc.uncorr
      match privateOf (h - 0x5400000) with
      | some n => (mark s).trap n
      | none => (mark s).raise 0x3006 5 0x07 0xFF (h - 0x5400000)
    else s
  | _ => s

def execEccUncorrectable (off : Nat) (s : State) : Result := .next (s.eccFails off)

/-- The patrol reads the next sector of a stack; `corrected` when it found a correctable error there (R429). -/
def State.patrol (s : State) (st : Nat) (corrected : Bool) : State :=
  if ¬ s.bit (F.thermosCtl.patrolEn st) ∨ ¬ (s.fld F.unitReady.thermos).testBit st then s
  else
    let pos := s.fld (F.thermosPatrolPos.val st)
    let off := thermosKey st pos
    let s := s.setFld (F.thermosPatrolPos.val st) ((32 * (pos / 32) + 32) % 2 ^ 36)
    match s.badIn off 32 with
    | some b => s.raiseBad b true
    | none => if corrected then s.eccCorrected off true else s

def execPatrolRead (st : Fin 8) (corrected : Bool) (s : State) : Result := .next (s.patrol st corrected)

end Sys2Proof.Machine
end

