-- ==== Sys2Proof/Machine/Image.lean ====
section
/-! DEFINITION. The Ronbin block's flash, fuses and management image: staging, verification, the service card, activation, trial,
confirmation, its boot and restart, and ROM recovery mode (R461 to R482, R495). -/

namespace Sys2Proof.Machine

/-! ### Sessions close (R373) -/

def State.closeSession (s : State) (n : Nat) : State :=
  s.modRonbin fun r => { r with sessions := Tab.put (fun _ => {}) r.sessions n {} }

def State.closeSessions (s : State) : State := s.modRonbin fun r => { r with sessions := [] }

/-! ### Banks -/

/-- The bank a stage goes into (R466, R479). -/
def State.stageBank (s : State) : Fin 2 := match s.flash.confirmed with | some k => 1 - k | none => 0

def State.calSlot (s : State) (k : Nat) : Nat := if k = 0 then s.flash.cal0 else s.flash.cal1
def State.setCalSlot (s : State) (k v : Nat) : State := s.modFlash fun f => if k = 0 then { f with cal0 := v } else { f with cal1 := v }

/-- The calibration format in force: that of the slot the running image, else the confirmed bank, uses (Table 18.4). -/
def State.calFormat (s : State) : Nat :=
  match s.ronbin.running, s.flash.confirmed with
  | some k, _ => s.calSlot (s.bank k).cal
  | none, some k => s.calSlot (s.bank k).cal
  | none, none => s.calSlot 0

/-- An event of this chapter (Table 18.9). -/
def State.imageEvent (s : State) (code sev low mid high : Nat) : State :=
  s.raise code sev 0x0B 0xFF (low + 2 ^ 4 * (mid % 2 ^ 16) + 2 ^ 20 * (high % 2 ^ 28))

/-! ### Delivering pieces (R466 to R470) -/

/-- `IMG_STAGE_BEGIN` would be refused with `BUSY`. -/
def State.stageBusy (s : State) : Bool := s.onTrial || s.ronbin.activation || s.ronbin.erasing || s.ronbin.card == 2

/-- A piece whose programming a reset or a restart cuts off is torn (R468, R469). -/
def State.tear (s : State) : State :=
  match s.ronbin.buffer with
  | (n, _) :: _ => if s.ronbin.erasing then s else s.modBank s.stageBank fun b => b.begin n
  | [] => s

/-- Open a stage: the bank is receiving, a fresh bitmap copy is written and the bank's erase starts. -/
def State.openStage (s : State) (id len : Nat) : State :=
  let k := s.stageBank
  let b : Bank := { state := .receiving, cal := (s.bank k).cal }
  let s := s.modFlash fun f =>
    { f with stageId := id, stageLen := len, bankA := if k = 0 then b else f.bankA, bankB := if k = 0 then f.bankB else b }
  s.writeBitmap.modRonbin fun r => { r with erasing := true, buffer := [], scan := [], card := if r.card = 3 ∨ r.card = 4 then 1 else r.card }

/-- The result byte of a write of `IMG_STAGE_BEGIN` (Table 14.4). -/
def State.stageBegin (s : State) (v : Nat) : State × Nat :=
  let id := v % 2 ^ 32
  let len := v / 2 ^ 32
  if id = 0 ∨ 786432 < len then (s, 7)
  else if s.stageBusy then (s, 1)
  else (s.openStage id len, 0)

def execImgStageBegin (v : Word) (s : State) : Result := .next (s.stageBegin v.toNat).1

/-- Pieces of the open stage. -/
def State.pieceCount (s : State) : Nat := (s.flash.stageLen + 1023) / 1024

/-- A card scan's pieces go to the buffer as it has room. -/
def State.refill (s : State) : State :=
  s.modRonbin fun r =>
    let n := 16 - r.buffer.length
    { r with buffer := r.buffer ++ r.scan.take n, scan := r.scan.drop n }

/-- A piece is refused (Table 18.9). -/
def State.pieceBad (s : State) (reason num id : Nat) : State := s.imageEvent 0x7001 1 reason num id

/-- A write of `IMG_PIECE_DATA` with the number and CRC its session holds. -/
def State.piece (s : State) (num crc : Nat) (data : List Byte) : State × Nat :=
  let id := num / 2 ^ 32
  let n := num % 2 ^ 32
  let k := s.stageBank
  let b := s.bank k
  let old := Tab.get (fun _ => []) b.pieces n
  if (crc32c (leBytes 8 num ++ data)).toNat ≠ crc then (s.pieceBad 0 n id, 15)
  else if b.state ≠ .receiving ∨ id ≠ s.flash.stageId then (s.pieceBad 1 n id, 15)
  else if s.pieceCount ≤ n then (s.pieceBad 2 n id, 15)
  else if old ≠ [] ∧ old ≠ data then (s.pieceBad 3 n id, 15)
  else if old = data then (s, 0)
  else if 16 ≤ s.ronbin.buffer.length then (s, 1)
  else (s.modRonbin fun r => { r with buffer := r.buffer ++ [(n, data)] }, 0)

/-- `num` and `crc` are what the writing session holds. -/
def execImgPieceData (num : Word) (crc : BitVec 32) (data : List Byte) (s : State) : Result :=
  .next (s.piece num.toNat crc.toNat (padTo 1024 data)).1

/-- Mark the open stage's bank empty. -/
def State.dropStage (s : State) : State :=
  let k := s.stageBank
  let s := if (s.bank k).state = .receiving then
      (s.setBank k { cal := (s.bank k).cal }).modFlash fun f => { f with stageId := 0, stageLen := 0 }
    else s
  s.modRonbin fun r => { r with buffer := [], scan := [], card := if r.card = 2 then 1 else r.card }

/-- `IMG_STAGE_ABORT`: a deferred activation is discarded and its bank stays staged (R473); else the open stage is abandoned. -/
def State.stageAbort (s : State) : State :=
  if s.ronbin.activation then s.modRonbin fun r => { r with activation := false } else s.dropStage

def execImgStageAbort (s : State) : Result := .next s.stageAbort

/-! ### Verification (R471, Table 18.4) -/

/-- The bytes of the stage as the bank holds them; a byte not programmed reads 0xFF. -/
def State.stageBytes (s : State) : List Byte :=
  let b := s.bank s.stageBank
  (((upto s.pieceCount).map b.cells).flatten).take s.flash.stageLen

/-- Checks 4 to 6 on the header fields: 0 when they pass. -/
def State.imageBarred (s : State) (key svn calFrom calFormat : Nat) : Nat :=
  if 3 < key ∨ s.flash.revoked.testBit key then 4
  else if svn < s.flash.mgmtSvn then 5
  else if ¬ (calFrom ≤ s.calFormat ∧ s.calFormat ≤ calFormat) then 6
  else 0

/-- The first check an image fails, 0 for none. -/
def State.stageReason (s : State) (l : List Byte) : Nat :=
  let len := natAt l 8 4
  let b := s.bank s.stageBank
  let barred := s.imageBarred (natAt l 18 1) (natAt l 16 1) (natAt l 22 2) (natAt l 20 2)
  if natAt l 0 4 ≠ 0x31474D50 ∨ natAt l 4 2 ≠ 1 then 1
  else if ¬ (1024 ≤ len ∧ len ≤ 786432) then 2
  else if len ≠ s.flash.stageLen ∨ ((upto s.pieceCount).any fun n => !b.durable n) then 3
  else if barred ≠ 0 then barred
  else if ¬ signatureHolds (natAt l 18 1) len l then 7
  else 0

/-- Verify the receiving bank. A format that differs from the confirmed image's starts the erase of the slot it does not use. -/
def State.verifyStage (s : State) : State :=
  let k := s.stageBank
  let l := s.stageBytes
  match s.stageReason l with
  | 0 =>
    let format := natAt l 20 2
    let base : Bank := match s.flash.confirmed with | some c => s.bank c | none => { calFormat := s.calFormat }
    let fresh := format != base.calFormat
    let slot := if fresh then 1 - base.cal % 2 else base.cal
    let s := s.modBank k fun b =>
      { b with
        state := .staged, reason := 0, cal := slot, version := natAt l 12 4, svn := natAt l 16 1, rtMin := natAt l 17 1, key := natAt l 18 1
        revoke := natAt l 19 1 % 16, calFormat := format, calFrom := natAt l 22 2
        trialS := if natAt l 24 2 = 0 then 600 else natAt l 24 2 }
    if fresh then (s.setCalSlot slot 0).modRonbin fun r => { r with calErase := true } else s
  | why => s.modBank k fun b => { b with state := .rejected, reason := why }

/-- A write of `IMG_VERIFY`; with no receiving bank there is nothing to check, and it is refused. -/
def State.verify (s : State) : State × Nat := if (s.bank s.stageBank).state = .receiving then (s.verifyStage, 0) else (s, 15)

def execImgVerify (s : State) : Result := .next s.verify.1

def execCalibrationEraseComplete (s : State) : Result := .next (s.modRonbin fun r => { r with calErase := false })

/-- A card scan whose payload the bank holds ends with the verification (R472). -/
def State.scanEnds (s : State) : State :=
  if s.ronbin.card = 2 ∧ ¬ s.ronbin.erasing ∧ s.ronbin.buffer = [] ∧ s.ronbin.scan = [] then
    let s := s.verifyStage
    s.modRonbin fun r => { r with card := if (s.bank s.stageBank).state = .staged then 3 else 1 }
  else s

/-- The bank is erased. -/
def State.bankErased (s : State) : State := ((s.modRonbin fun r => { r with erasing := false }).refill).scanEnds

def execBankEraseComplete (s : State) : Result := .next s.bankErased

/-- A buffered piece becomes durable; the last piece of a card scan ends it (R468, R472). -/
def State.programPiece (s : State) : State :=
  match s.ronbin.buffer with
  | [] => s
  | (n, data) :: rest =>
    if s.ronbin.erasing then s
    else
      let s := (s.modRonbin fun r => { r with buffer := rest }).modBank s.stageBank fun b => if b.durable n then b else b.program n data
      s.refill.scanEnds

def execPieceProgramComplete (s : State) : Result := .next s.programPiece

/-! ### The service card (R472, R495) -/

/-- The usable entry of a package file: its payload and CRC (Table 18.5). -/
def cardEntry (f : List Byte) : Option (List Byte × Nat) :=
  let n := natAt f 6 2
  if natAt f 0 4 ≠ 0x4B505650 ∨ natAt f 4 2 ≠ 2 ∨ n = 0 ∨ 16 < n ∨ natAt f 8 4 ≠ f.length
      ∨ (crc32c (f.take 12 ++ (f.drop 16).take (16 + 32 * n))).toNat ≠ natAt f 12 4 then none
  else
    (upto n).findSome? fun i =>
      let a := 32 + 32 * i
      let data := (f.drop (natAt f (a + 4) 4)).take (natAt f (a + 8) 4)
      if natAt f a 2 = 3 ∧ natAt f (a + 16) 4 = 0x512 ∧ data.length = natAt f (a + 8) 4 ∧ (crc32c data).toNat = natAt f (a + 12) 4 then
        some (data, natAt f (a + 12) 4)
      else none

/-- The payload as pieces, the last padded with zeros. -/
def piecesOf (l : List Byte) : List (Nat × List Byte) := (upto ((l.length + 1023) / 1024)).map fun n => (n, padTo 1024 (l.drop (1024 * n)))

/-- No file of the card yields an entry. -/
def State.cardEmpty (s : State) : State :=
  let s := (s.modRonbin fun r => { r with card := if r.card = 0 then 0 else 4 }).pieceBad 4 0 0
  match (s.bank s.stageBank).state with
  | .empty => s.modBank s.stageBank fun b => { b with state := .rejected, reason := 8 }
  | .rejected => s.modBank s.stageBank fun b => { b with reason := 8 }
  | _ => s

/-- Scan the card: `files` are its `.PKG` files in the directory `PVDUPD`, in ascending order of their names. -/
def State.scanCard (s : State) (files : List (List Byte)) : State :=
  match (if s.ronbin.card = 0 then none else files.findSome? cardEntry) with
  | none => s.cardEmpty
  | some (data, crc) =>
    if 786432 < data.length then s.cardEmpty
    else (s.openStage (if crc = 0 then 1 else crc) data.length).modRonbin fun r => { r with card := 2, scan := piecesOf data }

def State.cardScan (s : State) (files : List (List Byte)) : State × Nat := if s.stageBusy then (s, 1) else (s.scanCard files, 0)

def execImgCardScan (files : List (List Byte)) (s : State) : Result := .next (s.cardScan files).1

def State.cardRemoved (s : State) : State :=
  if s.ronbin.card = 2 then ((s.dropStage).modRonbin fun r => { r with card := 0 }).pieceBad 4 0 s.flash.stageId
  else s.modRonbin fun r => { r with card := 0 }

def execCardRemoved (s : State) : Result := .next s.cardRemoved
def execCardInserted (s : State) : Result := .next (if s.ronbin.card = 0 then s.modRonbin fun r => { r with card := 1 } else s)

/-! ### Activation and trial (R473 to R476) -/

/-- The Ronbin block restarts into a bank: its sessions close, its buffer and the DOP frames it holds are lost, and a piece being programmed is
torn (R468, R474). -/
def State.ronbinRestart (s : State) (k : Fin 2) : State :=
  (s.tear.closeSessions).modRonbin fun r =>
    { r with restart := some k, running := none, buffer := [], scan := [], activation := false, requests := r.requests.filter fun q => q.slot.isSome }

/-- Confirm bank `k`: the boot control record is written, with the pending-fuse flag set; the fuses advance from the next tick on
(`State.fuseTurn`). The other bank is left staged when it held the image confirmed before. -/
def State.confirmBank (s : State) (k : Fin 2) : State :=
  let s := if s.flash.confirmed = some (1 - k) then s.modBank (1 - k) fun b => { b with state := .staged } else s
  (s.modBank k fun b => { b with state := .confirmed }).modFlash fun f => { f with confirmed := some k, fusePending := true }

/-- Recovery mode with no valid bank beside the one staged (R479). -/
def State.noValidBank (s : State) : Bool := s.ronbin.recovery && (s.flash.confirmed.isNone || s.ronbin.noBank)

/-- Activate the staged bank. In recovery with no valid bank its image is confirmed directly (R479); a bank that failed at step 2 is then rejected
(log entry 135), and from there on the bank confirmed is the valid one. -/
def State.activate (s : State) : State :=
  let k := s.stageBank
  if s.noValidBank then
    let s := match s.flash.confirmed with
      | some j => (s.confirmBank k).modBank j fun b => { b with state := .rejected }
      | none => s.confirmBank k
    s.modRonbin fun r => { r with activation := false, noBank := false }
  else (s.modBank k fun b => { b with state := .trial }).ronbinRestart k

/-- A write of `IMG_ACTIVATE`. -/
def State.imgActivate (s : State) : State × Nat :=
  let b := s.bank s.stageBank
  if s.ronbin.activation then (s, 0)
  else if b.state ≠ .staged ∨ s.ronbin.calErase ∨ b.svn < s.flash.mgmtSvn then (s, 15)
  else if s.bit F.pwrStatus.emergency ∨ s.fld F.quietS.val < 60 then
    let why := if s.bit F.pwrStatus.emergency then 0 else 1
    ((s.modRonbin fun r => { r with activation := true }).imageEvent 0x7002 0 why 0 b.version, 0)
  else (s.activate, 0)

def execImgActivate (s : State) : Result := .next s.imgActivate.1

/-- The deferred activation proceeds. -/
def State.deferredActivation (s : State) : State :=
  if s.ronbin.activation ∧ 60 ≤ s.fld F.quietS.val ∧ ¬ s.bit F.pwrStatus.emergency then s.activate else s

def execDeferredActivation (s : State) : Result := .next s.deferredActivation

/-- A trial ends without confirmation after `secs` seconds (R476). -/
def State.trialEnds (s : State) (reason secs : Nat) : State :=
  match s.trialBank with
  | none => s
  | some k =>
    let s := s.imageEvent 0x7003 2 reason secs (s.bank k).version
    let s := s.modBank k fun b => { b with state := .rejected, reason := 9 }
    match s.flash.confirmed with
    | some c => s.ronbinRestart c
    | none => s.modRonbin fun r => { r with recovery := true, running := none, restart := none }

/-- The window of the trial under way, in seconds. -/
def State.trialWindow (s : State) : Nat := match s.trialBank with | some k => (s.bank k).trialS | none => 0

/-- Five seconds without a request served (R474). -/
def execTrialServiceTimeout (s : State) : Result := .next (if s.trialRuns && !s.ronbin.served then s.trialEnds 2 5 else s)
def execTrialWindowExpiry (s : State) : Result := .next (if s.trialRuns then s.trialEnds 0 s.trialWindow else s)

def State.imgFallback (s : State) : State × Nat := if s.trialRuns then (s.trialEnds 3 s.trialRun, 0) else (s, 15)
def execImgFallback (s : State) : Result := .next s.imgFallback.1

def State.imgConfirm (s : State) : State × Nat :=
  match s.trialRuns, s.trialBank with
  | true, some k => (s.confirmBank k, 0)
  | _, _ => (s, 15)

def execImgConfirm (s : State) : Result := .next s.imgConfirm.1

/-! ### Boot and restart of the Ronbin block (R465, R469, R474, R478) -/

/-- Does bank `k` pass rows 1, 2 and 4 to 7 of Table 18.4? `sound` when it reads back as it was verified: rows 1, 2 and 7. -/
def State.imagePasses (s : State) (k : Nat) (sound : Bool) : Bool :=
  let b := s.bank k
  sound && s.imageBarred b.key b.svn b.calFrom b.calFormat == 0

/-- ROM recovery mode on a module that is up: `BOOT_STATE` reads 8, every port reads `DISABLED`, and the Stiles close (R478, log entry 132). -/
def State.romOnly (s : State) : State :=
  if s.bring.step ≠ 4 then s else forEach (upto 8) (fun s p => s.portOff p) ((s.closeAll 2).setFld F.bootState.state 8)

/-- ROM recovery mode is entered; a deferred activation and a scan under way are dropped, and the card is scanned once (R478). -/
def State.recover (s : State) (files : List (List Byte)) : State :=
  let s := s.modRonbin fun r => { r with recovery := true, running := none, activation := false, buffer := [], scan := [] }
  s.romOnly.scanCard files

/-- `TRIAL_EXPIRED` with reason 1 for a bank whose trial a cold reset cut short. -/
def State.raiseCut (s : State) (k : Nat) : State :=
  if (s.bank k).trialCut then
    let ran := (s.bank k).ran
    let s := s.modBank k fun b => { b with trialCut := false, ran := 0 }
    s.imageEvent 0x7003 2 1 ran (s.bank k).version
  else s

/-- The management image of bank `k` runs. -/
def State.imageRuns (s : State) (k : Fin 2) : State :=
  ((s.modRonbin fun r => { r with running := some k }).raiseCut 0).raiseCut 1

/-- Bank `k` boots: its image runs, and bit 11 of `FUNC_READY` sets. -/
def State.ronbinRuns (s : State) (k : Fin 2) : State := (s.setFuncReady 11 true).imageRuns k

/-- A bank on trial at a cold reset returns to staged (R465). -/
def State.cutTrial (s : State) : State :=
  match s.trialBank with
  | some k => s.modBank k fun b => { b with state := .staged, trialCut := true }
  | none => s

/-- The boot of R465; `a` and `b` tell which banks read back sound. Torn pieces are repaired (R469). -/
def State.ronbinBoot (s : State) (a b : Bool) (files : List (List Byte)) : State :=
  let s := ((s.fuseTurn.repairBank 0).repairBank 1).cutTrial
  let sound (k : Nat) : Bool := if k = 0 then a else b
  let first : Option (Fin 2) := match s.flash.confirmed with
    | some k => if s.imagePasses k (sound k) then some k else none
    | none => none
  match first with
  | some k => s.ronbinRuns k
  | none =>
    let o := s.stageBank
    if (s.bank o).state = .staged ∧ s.imagePasses o (sound o) then
      let s := match s.flash.confirmed with
        | some k => s.modBank k fun b => { b with state := .rejected }
        | none => s
      ((s.modBank o fun b => { b with state := .confirmed, trialCut := false, ran := 0 }).modFlash fun f => { f with confirmed := some o }).ronbinRuns o
    else (s.modRonbin fun r => { r with noBank := true }).recover files

/-- The restart of R474, with the repair of R469 at its start; `a` and `b` tell which banks read back sound. A trial image runs when it passes
and the calibration conversion, if it needs one, has gone well. A confirmed image that fails leads through the boot of R465. -/
def State.ronbinRestarted (s : State) (a b : Bool) (x : Restart) : State :=
  match s.ronbin.restart with
  | none => s
  | some k =>
    let s := (s.repairBank 0).repairBank 1
    let bk := s.bank k
    let ok := s.imagePasses k (if k = 0 then a else b)
    if bk.state = .trial then
      if ok ∧ x.converted then
        let s := s.setCalSlot bk.cal bk.calFormat
        (s.modRonbin fun r => { r with restart := none, trialPs := 0, served := false }).imageRuns k
      else s.trialEnds 2 0
    else
      let s := s.modRonbin fun r => { r with restart := none }
      if ok then s.imageRuns k else s.ronbinBoot a b x.files

def execRonbinRestart (a b : Bool) (x : Restart) (s : State) : Result := .next (s.ronbinRestarted a b x)

/-- The bank whose image does not run. -/
def State.otherBank (s : State) : Fin 2 := match s.ronbin.running with | some k => 1 - k | none => s.stageBank

/-- `IMG_OTHER_VERSION` (Table 18.8): the version in the header the bank holds, once that is durable (log entry 134). -/
def State.otherVersion (s : State) : Nat :=
  let b := s.bank s.otherBank
  if b.state = .empty then 0 else if b.durable 0 then natAt (b.cells 0) 12 4 else b.version

/-- `IMG_STATE` (Table 18.8). -/
def State.imgState (s : State) : Nat :=
  let b := s.bank s.stageBank
  let st := match b.state with
    | .receiving => if s.ronbin.erasing then 1 else 2
    | .empty => if s.ronbin.erasing then 1 else 0
    | .staged => if s.ronbin.calErase then 3 else if s.ronbin.activation then 5 else 4
    | .trial => 6
    | .rejected => 7
    | _ => 0
  st + 2 ^ 4 * b.reason + (if s.ronbin.recovery then 2 ^ 12 else 0) + (match s.flash.confirmed with | some k => 2 ^ 13 * k.val | none => 0)

end Sys2Proof.Machine
end

