-- ==== Sys2Proof/Machine/Recover.lean ====
section
/-! DEFINITION. Function resets of single units, and a restarted core taking up its work (R355, R357, R409 to R413, Tables 13.14, 15.10). -/

namespace Sys2Proof.Machine

/-! ### Unit bits -/

/-- Set unit `i` of a unit field; the function's bit follows all its units (R407). -/
def State.setUnit (s : State) (f : Fld) (fn i : Nat) (v : Bool) : State :=
  let s := s.setBit ⟨f.reg, f.lo + i, 1⟩ v
  s.setFuncReady fn (s.fld f == 2 ^ f.width - 1)

/-- `CONFIG_STALE` bit `fn` (R383). -/
def State.markStale (s : State) (fn : Nat) : State := s.setObj O.configStale (s.obj O.configStale ||| 2 ^ fn)

/-- A step has failed under R395. -/
def State.stepFailed (s : State) : Bool :=
  s.bring.pllFailed || s.bring.dieFailed || (upto 8).any fun st => 3 ≤ Tab.get (fun _ => 0) s.bring.fails st

/-- A reset is in progress until the boot ROM's checks are done, or a step has failed and stopped them: a function reset is then the way to retry
the stack (R395, R413, Table 15.11). -/
def State.inReset (s : State) : Bool := s.fld F.bootState.state == 0 && !(s.bring.step == 4 && s.stepFailed)

/-- Runtime firmware runs: functions 0x01, 0x02, 0x08, 0x09 and 0x0C set their bits only then (Table 15.8). -/
def State.runtimeUp (s : State) : Bool := s.fld F.bootState.state == 5 || s.fld F.bootState.state == 7

/-- A reset unit of one of these functions is ready, once runtime firmware runs. -/
def State.readyUnit (s : State) (f : Fld) (fn i : Nat) : State := if s.runtimeUp then s.setUnit f fn i true else s

/-! ### What each function reset clears (Table 15.10) -/

/-- Keys of the control block of tile `t`, but for its ECC registers, which only a cold reset clears (R433). -/
def tileKey (k : Nat) : Bool := 0x0100000000 ≤ k && k < 0x0101000000 && k % 0x10000 < 0x7000
def dieOfKey (k : Nat) : Nat := (k - 0x0100000000) / 0x10000 / 64

/-- The threads of this module on other tiles that wait on an object `p` accepts, whether their watch is placed or was answered with
retry. -/
def State.waitersAt (s : State) (p : Nat → Bool) : List (Nat × Wait) :=
  s.threads.filterMap fun e =>
    match e.2.wait with
    | some wt => if p wt.obj && (wt.watch == .placed || wt.watch == .retry) && keyTile e.1 != objTile wt.obj then some (e.1, wt) else none
    | none => none

/-- Remote waiters on objects `p` accepts receive an error response, and the watches are dropped (R50); a waiter of another module that
was answered with retry gets its error response at its next try. -/
def State.dropWatches (s : State) (p : Nat → Bool) : State :=
  let away := s.tiles.flatMap fun e => e.2.watches.filterMap fun w =>
    match w.waiter with
    | .inr a => if p w.obj then some a else none
    | .inl _ => none
  let s := forEach s.tiles (fun s e =>
    if (e.2.watches ++ e.2.retried).any fun w => p w.obj then
      s.modTile e.1 fun tl => { tl with watches := tl.watches.filter fun w => !p w.obj, retried := tl.retried.filter fun w => !p w.obj }
    else s) s
  let s := forEach away (fun s a => s.answerTo a 0x0C 0 []) s
  forEach (s.waitersAt p) (fun s e =>
    let c := s.fld (F.threadCtl.ctx (keyTile e.1) (keyThread e.1))
    (s.recordAccess c e.2.addr).threadFault (keyTile e.1) (keyThread e.1) 0x05 0x21 e.2.pc) s

/-- Transfers issued by threads `p` accepts are forgotten: their responses will be discarded (R411). -/
def State.forgetThreads (s : State) (p : Nat → Bool) : State :=
  { s with
    xfers := s.xfers.filter fun x => !(match x.use with
      | .row k _ => p k
      | .sync k => p k
      | .syncRead k _ => p k
      | .branchTest k _ => p k
      | .watch k => p k
      | _ => false) }

/-- The abort a step that cannot complete flags (R148, R412). -/
def State.flagSteps (s : State) : State :=
  forEach (upto 8) (fun s c => if (s.ctx c).running then s.modCtx c fun x => match x.phase with
    | .voteWait | .sweep => { x with commitBits := x.commitBits ||| 1 }
    | _ => { x with voteBits := x.voteBits ||| 4 } else s) s

/-- Die `d`: its Meadow, tile control blocks, objects, Hamper slices, claims and threads. -/
def State.resetDie (s : State) (d : Nat) : State :=
  let inDie (k : Nat) : Bool := tileKey k && dieOfKey k == d
  let meadow (k : Nat) : Bool := k < 0x80000000 && k / 2 ^ 29 == d
  let mine := s.threads.filter fun e => keyTile e.1 / 64 == d
  let s := forEach mine (fun s e => s.leaveWait (keyTile e.1) (keyThread e.1)) s.flagSteps
  let s := s.dropWatches inDie
  let s := s.forgetThreads fun k => k / 16 / 64 == d
  let s := (s.emptySlices fun k => k / 8 / 64 == d).dropRegs inDie
  let s := s.dropMem fun k => meadow k || inDie k
  { s with
    threads := Tab.drop s.threads fun k => k / 16 / 64 == d
    tiles := Tab.drop s.tiles fun t => t / 64 == d
    badWords := s.badWords.filter fun b => !meadow b }

/-- Objects a context owns (R50). -/
def State.ownedKey (s : State) (c k : Nat) : Bool :=
  0x0100000000 ≤ k && k < 0x0101000000 && (isCounterOff (k % 0x10000) || isPayloadOff (k % 0x10000))
    && s.fld (F.syncOwner.ctx (objTile k) (objOfOff (k % 0x10000))) == c

/-- Per-context registers of Lark and transport (R309). -/
def laneKey (c k : Nat) : Bool :=
  (R.schedBaseNs c ≤ k && k < R.schedBaseNs c + 0x40) || (R.snapTime c ≤ k && k < R.snapTime c + 0x20)

/-- Is a transfer a root engine's write-out? `ABANDON` waits for its answer (R170). -/
def isRootUse : Use → Bool
  | .root _ => true
  | _ => false

/-- Every layer number of a layer table that is set (R187). -/
def State.layerEntries (s : State) (c : Nat) : List Nat := if s.obj (O.rootLayerTable c) = 0 then [] else upto 2048

/-- The objects that write `HAMPER_CFG` take their defaults with it (R148, R383). -/
def State.hamperDefaults (s : State) (c : Nat) : State :=
  let s := (s.setObj (O.hamperSizeMib c) 512).setObj (O.hamperPrefetch c) 4
  (s.setObj (O.hamperSpillRaw c) 0).setObj (O.hamperTileBase c) 0xFF

/-- The context reset (R33, R50, R80, R99, R148, R187, R247, R309, R328, R338). -/
def State.resetCtx (s : State) (c : Nat) : State :=
  let mine := s.threads.filter fun e => s.fld (F.threadCtl.ctx (e.1 / 16) (e.1 % 16)) == c
  let s := forEach mine (fun s e => ((s.leaveWait (keyTile e.1) (keyThread e.1)).setThread e.1 {}).dropRegs fun k => k == R.threadStatus (e.1 / 16) (e.1 % 16)) s
  let s := s.dropWatches (s.ownedKey c)
  let s := (s.dropRegs (s.ownedKey c)).dropMem (s.ownedKey c)
  let s := forEach mine (fun s e => s.unreserve (keyTile e.1) (keyThread e.1)) s
  let s := forEach s.tiles (fun s e => s.modTile e.1 fun tl =>
    let held := tl.claim.any fun x => x.ctx == c
    { tl with
      claim := if held then none else tl.claim
      acc := if held then [] else tl.acc
      preempted := tl.preempted.filter fun y => y.ctx != c }) s
  let s := { s with hamper := Tab.drop s.hamper fun k => k % 8 == c, xfers := s.xfers.filter fun x => x.ctx != c || isRootUse x.use }
  let s := forEach (upto 4) (fun s e => s.rootAbandon e c) s
  let s := forEach (s.layerEntries c) (fun s l => ((s.setLayerState c l 0).setLayerUse c l 2).setLayerAge c l 0) s
  let s := forEach ((s.ring c).run.filter fun y => y.op == 8) (fun s y => s.finishOne c y 8) s
  let s := (s.intakeReset c).genReset c
  let s := forEach ((s.ring c).run.filter fun y => y.op != 3) (fun s y => s.finishOne c y 8) s
  let s := s.dropRegs fun k => (R.segLo c 0 ≤ k && k < 0x10000 + R.segLo c 0) || laneKey c k
    || (tileKey k && 0x6000 ≤ k % 0x10000 && k % 0x10000 < 0x6100 && (k % 0x10000 - 0x6000) / 0x20 == c)
  (((s.hamperDefaults c).setCtx c {}).markStale 0x0C)

/-- A port is isolated and retrains (R278, R410): requests in its queue are answered with error responses. -/
def State.resetPort (s : State) (p : Nat) : State :=
  let l := (s.port p).txq
  let s := s.modPort p fun x => { x with txq := [], ledger := [] }
  let s := forEach l (fun s q =>
    let s := match q.held with | some (a, v) => s.oweCredit a v | none => s
    if q.flit.first then s.answerError q.flit else s) s
  if s.bit (F.portCtl.enable p) ∧ ¬ s.ronbin.recovery then s.startTraining p false else s

/-- A root engine: registers, scratch and queue; F3 queues its records again in their old order (R187). -/
def State.resetRoot (s : State) (e : Nat) : State :=
  let r := s.root e
  let mine (k : Nat) : Bool := R.rootCtl e ≤ k && k < 0x1000000 + R.rootCtl e
  let s := (s.dropRegs mine).dropMem mine
  let s := { s with xfers := s.xfers.filter fun x => match x.use with | .root f => f != e | _ => true }
  s.setRoot e { held := r.held, backlog := r.held }

/-- Lark: its registers, but for the time, which steps at relock. -/
def State.resetLark (s : State) : State :=
  let s := s.dropRegs fun k => R.larkTime < k && k < R.larkTime + 0x100
  ({ s with lark := { relock := true } }).setLarkState 1

/-! ### Requests (R409 to R411) -/

/-- Does Table 15.10 allow the pair? -/
def resetAllowed (func unit : Nat) : Bool :=
  match func with
  | 0x01 => unit < 4
  | 0x02 => unit < 4
  | 0x03 => unit < 8
  | 0x04 => unit < 8 || unit == 0xFF
  | 0x05 => unit == 0xFF
  | 0x07 => unit < 6
  | 0x08 => unit < 4
  | 0x09 => unit == 0xFF
  | 0x0C => unit < 8
  | _ => false

/-- Functions 0x01 and 0x02 of a die are one reset. -/
def resetFunc (func : Nat) : Nat := if func = 0x02 then 0x01 else func

def State.findReset (s : State) (func unit : Nat) : Option FuncReset := s.fresets.find? fun x => resetFunc x.func == resetFunc func && x.unit == unit
def State.dropReset (s : State) (x : FuncReset) : State :=
  { s with fresets := s.fresets.filter fun y => !(resetFunc y.func == resetFunc x.func && y.unit == x.unit) }
def State.putReset (s : State) (x : FuncReset) : State :=
  { s with fresets := s.fresets.map fun y => if resetFunc y.func == resetFunc x.func && y.unit == x.unit then x else y }

/-- A function reset ends: `FRST_STATUS`, and the ring commands that waited. -/
def State.resetEnds (s : State) (x : FuncReset) : State :=
  let s := s.dropReset x
  let s := (s.setFld F.frstStatus.lastResult (if x.forced then 1 else 0)).setFld F.frstStatus.lastFunc x.func
  let s := (s.setFld F.frstStatus.lastUnit x.unit).setBit F.frstStatus.busy (s.fresets != [])
  forEach x.cmds (fun s c => s.finish c.1 c.2 0) s

/-- The block of a function reset is reset: its unit bit clears, and what the table names is cleared. A context is ready again at once. -/
def State.applyReset (s : State) (x : FuncReset) : State :=
  let s := s.putReset { x with drain := false }
  match resetFunc x.func with
  | 0x01 => ((((s.setUnit F.unitReady.tiles 1 x.unit false).setUnit F.unitReady.meadow 2 x.unit false).resetDie x.unit).markStale 1).markStale 2
  | 0x03 =>
    let s := ((s.setUnit F.unitReady.thermos 3 x.unit false).modBring fun b =>
      { b with trained := b.trained.filter (· != x.unit), fails := Tab.put (fun _ => 0) b.fails x.unit 0 }).markStale 3
    let mine (k : Nat) : Bool := match placeOf k with | .thermos st _ => st == x.unit | _ => false
    { s.dropMem mine with badWords := s.badWords.filter fun b => !mine b }
  | 0x04 =>
    if x.unit = 0xFF then (forEach (upto 8) State.resetPort (s.closeAll 3)).markStale 4 else (s.resetPort x.unit).markStale 4
  | 0x08 => ((s.setUnit F.unitReady.root 8 x.unit false).resetRoot x.unit).markStale 8
  | 0x09 => (forEach (upto 8) State.noteCycle (s.setFuncReady 9 false)).markStale 9
  | 0x0C =>
    let s := ((s.setUnit F.unitReady.contexts 0x0C x.unit false).resetCtx x.unit).readyUnit F.unitReady.contexts 0x0C x.unit
    match s.findReset x.func x.unit with
    | some y => s.resetEnds y
    | none => s
  | _ => s

/-- Stop every thread of a die. -/
def State.stopDie (s : State) (d : Nat) : State :=
  forEach (s.activeThreads.filter fun tn => tn.1 / 64 == d) (fun s tn => s.stopThread tn.1 tn.2) s

/-- The block is asked to go idle, or is reset at once. -/
def State.startReset (s : State) (x : FuncReset) : State :=
  let s := ({ s with fresets := s.fresets ++ [x] }).setBit F.frstStatus.busy true
  let s := s.bump F.rstCounts.function
  match resetFunc x.func with
  | 0x01 => s.stopDie x.unit
  | 0x05 => ((s.resetLark).markStale 5).resetEnds x
  | 0x07 => if s.coreAlive x.unit then (s.restartRequest x.unit).markStale 7 else (s.markStale 7).resetEnds x
  | 0x08 => s.rootDrain x.unit
  | 0x09 => s
  | 0x0C =>
    let s := if (s.ctx x.unit).running then s.arriveAbsent x.unit else s
    (s.modCtx x.unit fun y => { y with running := false }).stopThreads x.unit
  | _ => s.applyReset x

/-- Does a reset of this function drain its block first (Table 15.10)? -/
def resetDrains (func : Nat) : Bool := [0x01, 0x02, 0x08, 0x09, 0x0C].contains func

/-- Option loading runs, from internal release until step 4 completes (R396). -/
def State.inOptions (s : State) : Bool := s.bring.released && s.bring.step < 4

/-- A reset that begins during option loading (R396); sources 3 and 4 drive `RESET_N` low inside. -/
def State.optRestart (s : State) (src : Nat) : State :=
  let s := s.modBring fun b =>
    let pulse := b.pulse || src == 3 || src == 4
    { b with latched := false, pulse := pulse, released := b.resetN && !pulse && b.mainOk }
  let s := (s.bump F.rstCause.optRestarts).setReg R.strapLatch 0
  (s.setFld F.phaseStatus.phase 0).setFld F.phaseStatus.code 0

/-- A function reset is requested, which during option loading only starts that again (R396, R413): 0 taken, else `LAST_RESULT` 2, 3 or 4 (Table 15.15). -/
def State.requestReset (s : State) (func unit : Nat) (cmds : List (Nat × RingCmd)) : State × Nat :=
  if ¬ resetAllowed func unit then (s, 2)
  else if s.inOptions then (s.optRestart 8, 0)
  else if s.inReset then (s, 3)
  else if (func = 0x05 ∧ s.anyRunning) ∨ (func = 0x09 ∧ (upto 8).any fun c => [2, 3, 4].contains (s.fld (F.sweepStatus.state c))) then (s, 4)
  else
    match s.findReset func unit with
    | some x => (s.putReset { x with cmds := x.cmds ++ cmds }, 0)
    | none => (s.startReset { func := func, unit := unit, drain := resetDrains func, since := s.now, cmds := cmds }, 0)

/-- The status a refused ring command completes with (R409, Table 15.11). -/
def refusedStatus (why : Nat) : Nat := if why = 2 then 4 else 1

/-- A function reset asked for on a ring. -/
def State.ringReset (s : State) (r : Nat) (c : RingCmd) (func unit : Nat) : State :=
  match s.requestReset func unit [(r, c)] with
  | (s, 0) => s
  | (s, why) => s.finish r c (refusedStatus why)

def execCtxReset (r : Fin 8) (s : State) : Result := .next (s.take r 0x03 fun s c => s.ringReset r c 0x0C r)
def execFuncReset (s : State) : Result := .next (s.take 8 0x11 fun s c => s.ringReset 8 c (c.arg 16 1) (c.arg 17 1))

/-- A write of `FRST_CTL` with `GO`: a refusal reads in `LAST_RESULT`. -/
def State.frstGo (s : State) (func unit : Nat) : State :=
  match s.requestReset func unit [] with
  | (s, 0) => s
  | (s, why) => s.setFld F.frstStatus.lastResult why

def State.frstWrite (s : State) (v : Word) : State :=
  let s := (s.setFld F.frstCtl.func (bitsAt v 0 8)).setFld F.frstCtl.unit (bitsAt v 8 8)
  if v.getLsbD 16 then s.frstGo (bitsAt v 0 8) (bitsAt v 8 8) else s

def execFrstCtlGo (func unit : BitVec 8) (s : State) : Result :=
  .next (s.frstWrite (BitVec.ofNat 64 (func.toNat + 2 ^ 8 * unit.toNat + 2 ^ 16)))

/-- The object `FUNC_RESET_REQ`: its result code. -/
def State.resetObject (s : State) (v : Nat) : State × Nat :=
  match s.requestReset (v % 256) (v / 256 % 256) [] with
  | (s, 0) => (s, 0)
  | (s, why) => (s, if why = 2 then 7 else 1)

def execFuncResetReq (v : BitVec 16) (s : State) : Result := .next (s.inDict O.funcResetReq (s.resetObject v.toNat).1)

/-! ### The drain (R411) -/

/-- The idle condition of Table 15.10. A die under reset counts as idle for a context's drain (Table 15.11). -/
def State.resetIdle (s : State) (x : FuncReset) : Bool :=
  match resetFunc x.func with
  | 0x01 => !(s.activeThreads.any fun tn => tn.1 / 64 == x.unit) && !(s.threads.any fun e => e.1 / 16 / 64 == x.unit && e.2.pend != [])
  | 0x08 => (s.root x.unit).cur.isNone && s.fld (F.rootStatus.state x.unit) == 5
  | 0x0C =>
    let away (t : Nat) : Bool := s.fresets.any fun y => resetFunc y.func == 0x01 && y.unit == t / 64
    !(s.activeThreads.any fun tn => s.fld (F.threadCtl.ctx tn.1 tn.2) == x.unit && !away tn.1)
      && !(s.threads.any fun e => e.2.pend != [] && s.fld (F.threadCtl.ctx (e.1 / 16) (e.1 % 16)) == x.unit && !away (e.1 / 16))
      && !(s.ctx x.unit).owed
  | _ => true

def State.drainIdle (s : State) (func unit : Nat) : State :=
  match s.findReset func unit with
  | some x => if x.drain && s.resetIdle x then s.applyReset x else s
  | none => s

def execDrainIdleReached (func unit : BitVec 8) (s : State) : Result := .next (s.drainIdle func.toNat unit.toNat)

/-- `DRAIN_TIMEOUT` expires: a forced reset (R411, Table 15.17). -/
def State.drainExpires (s : State) (func unit : Nat) : State :=
  match s.findReset func unit with
  | some x =>
    if ¬ x.drain then s
    else
      let us := min ((s.now - x.since) / 10 ^ 6) (2 ^ 20 - 1)
      let s := (s.bump F.rstCounts.forced).raise 0x6001 2 x.func x.unit (x.func + 2 ^ 8 * x.unit + 2 ^ 16 * us)
      let x := { x with forced := true }
      (s.putReset x).applyReset x
  | none => s

def execDrainTimeoutExpiry (func unit : BitVec 8) (s : State) : Result := .next (s.drainExpires func.toNat unit.toNat)

/-- Self-test results of the tiles of die `d` (R100): the tiles whose datapath failed, and whether the group-scale path did. -/
def State.selfTest (s : State) (d : Nat) (failed : List Nat) (scale : Bool) : State :=
  let mine := (upto 64).filter fun k => failed.contains (64 * d + k)
  { s with
    tileFail := (s.tileFail.filter fun t => t / 64 != d) ++ mine.map (64 * d + ·)
    scaleFail := if s.scaleFail.testBit d = scale then s.scaleFail else s.scaleFail ^^^ 2 ^ d }

/-- The reset block is ready again and its wrapper opens; a die whose self-test fails stays not ready (R100, R410). -/
def State.resetReady (s : State) (func unit : Nat) (failed : List Nat) (scale : Bool) : State :=
  match s.findReset func unit with
  | none => s
  | some x =>
    if x.drain then s
    else
      match resetFunc func with
      | 0x01 =>
        let s := s.selfTest unit failed scale
        let s := s.readyUnit F.unitReady.meadow 2 unit
        (if s.tileFail.any fun t => t / 64 == unit then s else s.readyUnit F.unitReady.tiles 1 unit).resetEnds x
      | 0x03 => ((s.modBring fun b => { b with trained := b.trained ++ [unit] }).setUnit F.unitReady.thermos 3 unit true).resetEnds x
      | 0x04 =>
        let good (p : Nat) : Bool := s.portLive p || s.portState p == psLoop || !s.bit (F.portCtl.enable p)
        if (if unit = 0xFF then (upto 8).all good else good unit) then s.resetEnds x else s
      | 0x08 => ((s.readyUnit F.unitReady.root 8 unit).rootReady unit).dmaWake.resetEnds x
      | 0x09 => (if s.runtimeUp then s.setFuncReady 9 true else s).resetEnds x
      | _ => s

def execFunctionResetReady (func unit : BitVec 8) (failed : List Nat) (scale : Bool) (s : State) : Result :=
  .next (s.resetReady func.toNat unit.toNat failed scale)

/-! ### A restarted core takes up its work (R355, R357) -/

/-- Insert a completion in ring order. -/
def insertDone (d : RingDone) : List RingDone → List RingDone
  | [] => [d]
  | e :: rest => if above e.cmd.count d.cmd.count < 2 ^ 31 then d :: e :: rest else e :: insertDone d rest

/-- F0 examines every slot of a ring set without `POSTED`: a marked one completes with 0; of the unmarked, resets run again from their
start, and the others are waited for or already in their target state (Table 13.14). -/
def State.rescan (s : State) (r : Nat) : State :=
  let x := s.ring r
  let marked (c : RingCmd) : Bool := s.memNat (markAt r c.count) 8 == c.seq
  let again (c : RingCmd) : Bool := !marked c && (c.op == 0x03 || c.op == 0x11)
  let done := (x.done.filter fun d => !again d.cmd).map fun d => if marked d.cmd then { d with status := 0, detail := 0, count := 0 } else d
  let rerun := (x.run ++ (x.done.filter fun d => again d.cmd).map (·.cmd)).filter fun c => again c && !(s.fresets.any fun f => f.cmds.contains (r, c))
  let back := (x.done.filter fun d => again d.cmd).map (·.cmd)
  let s := s.setRing r { x with done := done.foldr insertDone [], run := x.run ++ back }
  let s := forEach rerun (fun s c => if c.op = 0x03 then s.ringReset r c 0x0C r else s.ringReset r c (c.arg 16 1) (c.arg 17 1)) s
  (s.settleRing r).skipBad r 8192

/-- F2 arrives at a barrier that came due while it was down, and flags the step of a context it runs: the vote with `NOT_READY` when R13 is met, the commit barrier with `SWEEP_ABORT` now (R355). -/
def State.stepLost (s : State) (c : Nat) : State :=
  let x := s.ctx c
  if x.owed then s.arriveAbsent c
  else if ¬ x.running ∨ ¬ s.bit (F.sweepCtl.enable c) then s
  else
    match x.phase with
    | .compute => s.modCtx c fun y => { y with voteBits := y.voteBits ||| 4 }
    | .sweep => s.arriveAbsent c
    | _ => s

/-- F1 rebuilds its admission ledgers: of the slots granted, those of flits not yet sent (R355). -/
def State.ledgerAgain (s : State) : State :=
  forEach (upto 8) (fun s p => s.modPort p fun x => { x with ledger := x.txq.filterMap (·.grant) }) s

/-- F3 takes up its engines again; a context in a step waits for its next step boundary, and for its next commit barrier before a refresh
starts (R186). -/
def State.rootsResume (s : State) : State :=
  let s := forEach (upto 8) (fun s c => s.modCtx c fun x => { x with f3Out := x.running, refreshDue := false }) s
  forEach (upto 4) State.rootReady s

/-- What core `n` does once it runs again. -/
def State.coreResumes (s : State) (n : Nat) : State :=
  match n with
  | 0 => forEach (upto 9) State.rescan s
  | 1 =>
    let s := forEach (upto 8) (fun s c => s.modCtx c fun x => { x with admitDue := x.running }) (s.setBit F.xportCtl.admitEn true)
    s.ledgerAgain.publishRetry
  | 2 => forEach (upto 8) State.stepLost s
  | 3 => s.rootsResume.rootsFeed
  | 5 => (s.modBoot fun b => { b with trace := true }).conDrain
  | _ => s

/-- Bolmi has initialised on core `n`: it runs and its unit is ready; with all six, `BOOT_STATE` reads 5 (R348). -/
def State.coreInit (s : State) (n : Nat) : State :=
  let st := s.coreState n
  if ¬ (s.fwCore n).loaded ∨ ¬ (st = 1 ∨ st = 3) then s
  else
    let s := (s.setFld (F.coreStatus.state n) 2).setCoreReady n true
    let s := if st = 1 ∧ n = 1 then s.setBit F.xportCtl.admitEn true else s
    let s := if st = 1 ∧ n = 3 then forEach (upto 4) State.rootReady s else s
    let s := if s.fld F.bootState.state = 4 ∧ s.fld F.unitReady.fwCores = 63 then
        (s.setFld F.bootState.state 5).setReg R.bootLoadTime (BitVec.ofNat 64 (s.now - s.boot.loadAt))
      else s
    let s := forEach (upto 8) State.startGoes (if st = 3 then s.coreResumes n else s)
    match s.findReset 0x07 n with
    | some x => s.resetEnds x
    | none => s

def execCoreInitComplete (n : Fin 6) (s : State) : Result := .next (s.coreInit n)

end Sys2Proof.Machine
end

