-- ==== Sys2Proof/Machine/Reset.lean ====
section
/-! DEFINITION. Cold and warm resets, option loading, bring-up, phases, `ALIVE`, and shutdown (R389 to R408, R413, R414, R441, R442, R449). -/

namespace Sys2Proof.Machine

/-! ### The bring-up code (R401, Table 15.7) -/

/-- A module-fatal entry has entered the error log. -/
def State.fatalLogged (s : State) : Bool := s.log.any (fun e => e.2.state != 0 && e.2.sev == 5) || s.hist.any fun e => e.2.sev == 5

/-- The code that names the lowest local step still incomplete, or an override. -/
def State.bringCode (s : State) : Nat :=
  let st := s.fld F.bootState.state
  if s.fatalLogged then 0xF
  else if s.ronbin.recovery then 0xE
  else if s.stepFailed then 0xD
  else if ¬ s.bring.linkDone then 5
  else if s.fld F.unitReady.thermos ≠ 255 then 7
  else if st = 0 then 8
  else if ¬ s.hostUp then 9
  else if st ≤ 4 ∨ st = 6 then 0xA
  else if ¬ s.bring.tilesDone then 0xB
  else 0xC

/-- The code reads as it stands: in phase B, where it is driven, and after a failure of step 3, behind which no phase B comes (R395, R401). -/
def State.codeShows (s : State) : Bool :=
  s.fld F.phaseStatus.phase == 1 || (s.fld F.phaseStatus.phase == 0 && s.bring.pllFailed)

/-- The functions of `FUNCTIONS_PRESENT` that are not ready, bit n for function n. -/
def State.notReady (s : State) : Nat := 0x1FFE &&& (0x1FFF - ((s.reg R.funcReady).toNat % 2 ^ 13))

/-! ### Cold resets (R390, R392) -/

/-- The seconds a trial has run that a cold reset cuts short (R465, Table 18.9). -/
def State.noteRun (s : State) : State :=
  match s.trialRuns, s.trialBank with
  | true, some k => s.modBank k fun b => { b with ran := s.trialRun }
  | _, _ => s

/-- A cold reset begins. The record of the model, the waiting commands, the lasers, the flash and fuses, the card and the levels outside the
module stay; `RST_CAUSE`, `RST_COUNTS` and `SHUTDOWN_CAUSE` survive all but a power-on. Every Stile reads closed (R414). -/
def State.coldStart (old : State) (src : Nat) : State :=
  let old := old.tear.noteRun
  let power := src == 1
  let s : State :=
    { State.reset with
      pending := old.pending, freeCount := old.freeCount, out := old.out, lasers := old.lasers, flash := old.flash
      bring :=
        { mainOk := old.bring.mainOk, auxOk := old.bring.auxOk, resetN := old.bring.resetN, perst := old.bring.perst, pulse := src == 3 || src == 4
          held := old.bring.held || old.fld F.pwrStatus.state == 1 }
      ronbin := { card := if old.ronbin.card = 0 then 0 else 1, erasing := old.ronbin.erasing, calErase := old.ronbin.calErase } }
  let s := (s.setReg R.pinLevel (old.reg R.pinLevel)).setFld F.rstCause.source src
  let s := if s.bring.mainOk then s else s.setFld F.pwrStatus.state 0
  if power then s
  else
    let s := (s.setFld F.rstCause.prevSource (old.fld F.rstCause.source)).setReg R.rstCounts (old.reg R.rstCounts)
    let s := (s.bump F.rstCounts.cold).setReg R.shutdownCause (old.reg R.shutdownCause)
    forEach ((upto 4).filter fun a => !old.stileClosed a) (fun s a => s.raise 0x2005 0 0x04 (2 * a) (a + 2 * 2 ^ 8)) s

/-! ### Warm resets (R391, R408) -/

/-- Functions a warm reset takes down. -/
def warmFuncs : List Nat := [1, 2, 3, 6, 7, 8, 9, 12]

/-- Everything on the main rail but the link domain and Lark loses its readiness, and no context runs. -/
def State.isolate (s : State) : State :=
  let s := forEach warmFuncs (fun s f => s.setFuncReady f false) s
  let s := forEach [F.unitReady.tiles, F.unitReady.meadow, F.unitReady.thermos, F.unitReady.fwCores, F.unitReady.root, F.unitReady.contexts]
    (fun s f => s.setFld f 0) s
  let s := s.setObj O.configStale (s.obj O.configStale ||| (warmFuncs.map fun f => 2 ^ f).sum ||| 2 ^ 4)
  let s := forEach (upto 8) (fun s c => s.modCtx c fun x => { x with running := false }) (s.setObj O.configEpoch 0)
  let s := forEach (upto 6) (fun s n => s.setFld (F.coreStatus.state n) 0) (s.setFld F.bootState.state 0)
  let s := (({ s with fresets := [] }).setBit F.frstStatus.busy false).setBit F.xportCtl.admitEn false
  (s.closeSession 0).closeSession 1

/-- PERST# also resets configuration space and the MSI-X table (Table 15.2, R391). -/
def State.configReset (s : State) : State :=
  { s.dropRegs fun k => 0x20100000000 ≤ k with d3hot := false, maxRead := 512, maxPayload := 128, cfg := [] }

/-- A warm reset begins: isolation. -/
def State.warmBegin (s : State) (src : Nat) : State :=
  let s := ((s.setFld F.rstCause.prevSource (s.fld F.rstCause.source)).setFld F.rstCause.source src).bump F.rstCounts.warm
  let s := s.isolate.modBring fun b => { b with tilesDone := false, dieFailed := false, warm := true, fwClosed := true }
  if src = 5 then s.configReset else s

/-- Registers that a warm reset sets to their reset values. -/
def warmReg (k : Nat) : Bool :=
  tileKey k || (0x0200000000 ≤ k && k < 0x0204000000) || (0x0306000000 ≤ k && k < 0x0308000000) || ((upto 8).any fun c => laneKey c k)
    || (0x0305000000 ≤ k && k < 0x0306000000 && k != R.fwEscCtl && !((upto 6).any fun n => k == R.wdtCfg n || k == R.coreRestartCount n))
    || (0x20000000000 ≤ k && k < 0x20100000000 && k != R.funcReady && k != R.unitReady && k != R.linkStatus)

/-- Memory that a warm reset zeroes: Meadow, synchronisation objects, root scratch, the firmware SRAM, Thermos. -/
def warmMem (k : Nat) : Bool :=
  k < 0x80000000 || tileKey k || (0x0200000000 ≤ k && k < 0x0204000000) || (fwSram ≤ k && k < 0x400000 + fwSram) || 0x4000000000 ≤ k

/-- What the Ronbin block alone holds of a context: values held, staged and committed (R376, R383). -/
def Ctx.keptValues (x : Ctx) : Ctx := { staged := x.staged, committed := x.committed, held := x.held }

/-- Compute, the engines, the firmware complex, the host-link controller and its rings are cleared; Meadow and Thermos are zeroed. -/
def State.clearMain (s : State) : State :=
  let s := (s.dropRegs warmReg).dropMem warmMem
  let s := forEach (upto 8) (fun s c => ((s.setObj (O.rootMisses c) 0).setObj (O.rootLastInstall c) 0).hamperDefaults c) s
  { s with
    badWords := s.badWords.filter fun b => !warmMem b
    threads := [], tiles := [], ctxs := (upto 8).foldr (fun c l => Tab.put (fun _ => {}) l c (s.ctx c).keptValues) [], hamper := [], roots := [], rings := [], intakes := [], publishes := [], vecCount := [], fwCores := []
    xfers := [], accepted := [], boot := {} }

/-- The warm reset clears what it clears, the fence among it unless it is at level 2 (R436), the slot in handling is queued again (R425),
and the boot ROM starts. -/
def State.warmClear (s : State) : State :=
  let s := s.clearMain.logUnhandle.modBring fun b => { b with warm := false }
  let s := if s.fld F.fenceStatus.level = 1 then s.setFld F.fenceStatus.level 0 else s
  forEach (upto 6) (fun s n => s.setFld (F.coreStatus.state n) 1) s

def execWarmReset (s : State) : Result := .next (if s.bring.warm then s.warmClear else s)

/-! ### Which reset runs (R396, R413, R449) -/

/-- Both rails are in range; else the module is held in power-on reset (R442). -/
def State.railsOk (s : State) : Bool := s.bring.mainOk && s.bring.auxOk

/-- A cold or warm reset of a source of Table 15.1. In `SHUTDOWN` only `RESET_N` and the DOP command act. -/
def State.resetAny (s : State) (src : Nat) : State :=
  let st := s.fld F.pwrStatus.state
  if ¬ s.railsOk then s
  else if s.inOptions then s.optRestart src
  else if src ≤ 4 then (if st = 1 ∧ src = 4 then s else s.coldStart src)
  else if s.bring.step = 4 ∧ st = 3 then s.warmBegin src
  else s

/-! ### Sources (Table 15.1) -/

/-- The later of the two rails enters its range; during option loading the reset is one of R396. -/
def State.powerOn (s : State) : State :=
  let s := s.modBring fun b => { b with mainOk := true, auxOk := true }
  if s.inOptions then s.optRestart 1 else s.coldStart 1

def execPowerOn (s : State) : Result := .next s.powerOn

/-- A rail leaves its range: the auxiliary rail when `aux`, with which the domain that holds the reset registers stops (R442). The loss of the main
rail during option loading starts that again, held until the rail is back (R396, log entry 44). -/
def State.railOut (s : State) (aux : Bool) : State :=
  let again := s.inOptions && !aux
  let s := s.modBring fun b => { b with mainOk := b.mainOk && aux, auxOk := b.auxOk && !aux }
  if again then (s.setFld F.pwrStatus.state 0).optRestart 1 else s.coldStart 1

def execRailOutOfRange (aux : Bool) (s : State) : Result := .next (s.railOut aux)

def execResetNLow (s : State) : Result := .next ((s.modBring fun b => { b with resetN := false }).resetAny 2)
def execResetNRise (s : State) : Result := .next (s.modBring fun b => { b with resetN := true })

/-- PERST# holds the host-link controller in reset while it is low (R391). -/
def execPerstLow (s : State) : Result := .next (((s.modBring fun b => { b with perst := false }).setFuncReady 6 false).resetAny 5)
def execPerstRise (s : State) : Result := .next (s.modBring fun b => { b with perst := true })

def State.warmReq (s : State) : State := s.resetAny 6

def execWarmReq (s : State) : Result := .next s.warmReq
/-- Of BAR0: discarded while bit 6 of `FUNC_READY` is clear (R391). -/
def execBootReload (s : State) : Result := .next (if s.hostUp then s.warmReq else s)

/-- The command never completes (Table 13.14). -/
def execModuleWarmReset (s : State) : Result := .next (s.take 8 0x10 fun s _ => s.warmReq)

/-- A DOP reset begins (R387). -/
def State.dopReset (s : State) : State :=
  let kind := s.ronbin.resetKind
  let s := s.modRonbin fun r => { r with resetKind := 0 }
  match kind with
  | 1 => s.resetAny 7
  | 2 => s.resetAny 3
  | _ => s

def execResetCommandStart (s : State) : Result := .next s.dopReset

def execLevel3Expiry (s : State) : Result := .next (if s.bit F.fwEscCtl.l3En then s.resetAny 4 else s)

/-! ### Steps 1 to 4 (R392 to R397) -/

/-- Step 2: the Ronbin block boots. -/
def State.stepTwo (s : State) (a b : Bool) (files : List (List Byte)) : State :=
  if s.bring.auxOk ∧ s.bring.step < 2 then (s.ronbinBoot a b files).modBring fun x => { x with step := 2 } else s

def execRonbinBoot (a b : Bool) (files : List (List Byte)) (s : State) : Result := .next (s.stepTwo a b files)

/-- Steps 1 to 3; `cool` when no sensor holds the reset before step 3 (R449). -/
def State.coldSteps (s : State) (a b cool : Bool) (files : List (List Byte)) : State :=
  let s := s.stepTwo a b files
  if s.bring.step = 2 ∧ s.bring.mainOk ∧ ¬ s.bring.pllFailed ∧ s.fld F.pwrStatus.state = 2 ∧ (cool ∨ ¬ s.bring.held) then
    s.modBring fun x => { x with step := 3, held := false }
  else s

def execColdReset (a b cool : Bool) (files : List (List Byte)) (s : State) : Result := .next (s.coldSteps a b cool files)

def execPllLockTimeout (s : State) : Result := .next (if s.bring.step = 2 then s.modBring fun b => { b with pllFailed := true } else s)

def execInternalResetPulseEnd (s : State) : Result := .next (s.modBring fun b => { b with pulse := false })

/-- Internal release: step 3 is complete and `RESET_N` is high, the internal pulse included. -/
def State.release (s : State) : State :=
  if s.bring.step = 3 ∧ s.bring.resetN ∧ ¬ s.bring.pulse then s.modBring fun b => { b with released := true } else s

def execInternalRelease (s : State) : Result := .next s.release

/-- The straps are latched and phase B begins; PH4 enters ROM recovery mode (Table 15.5). -/
def State.latchStraps (s : State) (pins : Nat) (files : List (List Byte)) : State :=
  if ¬ s.bring.released ∨ s.bring.latched ∨ s.bring.step ≠ 3 then s
  else
    let s := (s.setFld F.strapLatch.val pins).setFld F.pinLevel.val pins
    let s := (s.setFld F.phaseStatus.phase 1).modBring fun b => { b with latched := true }
    let s := if pins.testBit 3 then { s with coordKnown := false } else s
    if pins.testBit 4 ∧ ¬ s.ronbin.recovery then s.recover files else s

def execStrapLatch (pins : BitVec 8) (files : List (List Byte)) (s : State) : Result := .next (s.latchStraps pins.toNat files)

/-- Step 4: bit 10, `RUN`, and the boot ROM starts on every core. In recovery every port reads `DISABLED` (R478). -/
def State.stepFour (s : State) : State :=
  if ¬ s.bring.latched ∨ s.bring.step ≠ 3 then s
  else
    let s := (s.modBring fun b => { b with step := 4 }).setFuncReady 10 true
    let s := forEach (upto 6) (fun s n => s.setFld (F.coreStatus.state n) 1) (s.setFld F.pwrStatus.state 3)
    if s.ronbin.recovery then forEach (upto 8) (fun s p => s.setFld (F.portStatus.state p) psDisabled) s else s

def execOptionLoadingComplete (s : State) : Result := .next s.stepFour

/-! ### Steps 5 to 10 -/

/-- Step 5: of the enabled ports that have not trained, those `good` names train to `LOOP` on whole fibres, the others run out of
their budget. -/
def State.linkBringup (s : State) (good : Nat) : State :=
  if s.bring.step ≠ 4 ∨ s.ronbin.recovery ∨ s.bring.linkDone then s
  else
    let s := forEach ((upto 8).filter fun p => s.bit (F.portCtl.enable p) && isTraining (s.portState p)) (fun s p =>
      let s := s.startTraining p false
      if good.testBit p then (upto 5).foldl (fun s _ => s.trainStep p 3 0) s else s.trainBudget p) s
    s.noteLinks

def execLinkDomainBringup (ports : BitVec 8) (s : State) : Result := .next (s.linkBringup ports.toNat)

/-- Step 7: a training of a stack ends; after the third failure it is not tried again (R395). -/
def State.hbmTrain (s : State) (st : Nat) (ok : Bool) : State :=
  let n := Tab.get (fun _ => 0) s.bring.fails st
  if s.bring.step ≠ 4 ∨ s.bring.trained.contains st ∨ 3 ≤ n then s
  else s.modBring fun b =>
    if ok then { b with trained := b.trained ++ [st] } else { b with fails := Tab.put (fun _ => 0) b.fails st (n + 1) }

def execHbmTraining (st : Fin 8) (ok : Bool) (s : State) : Result := .next (s.hbmTrain st ok)

/-- A trained stack has been zeroed: its unit bit sets. -/
def State.hbmScrub (s : State) (st : Nat) : State :=
  if ¬ s.bring.trained.contains st ∨ s.bring.warm ∨ (s.findReset 3 st).isSome ∨ (s.fld F.unitReady.thermos).testBit st then s
  else
    let mine (k : Nat) : Bool := match placeOf k with | .thermos j _ => j == st | _ => false
    ({ s.dropMem mine with badWords := s.badWords.filter fun b => !mine b }).setUnit F.unitReady.thermos 3 st true

def execHbmScrubComplete (st : Fin 8) (s : State) : Result := .next (s.hbmScrub st)

/-- Step 8. -/
def State.romChecks (s : State) : State :=
  if s.bring.step = 4 ∧ ¬ s.bring.warm ∧ s.fld F.bootState.state = 0 ∧ s.fld F.unitReady.thermos = 255 then
    s.setFld F.bootState.state (if s.ronbin.recovery then 8 else 1)
  else s

def execBootRomChecks (s : State) : Result := .next s.romChecks

/-- The self-test of every die: tiles that fail, and the dies whose group-scale path fails. -/
def State.selfTests (s : State) (dies : List Nat) (failed : List Nat) (scale : Nat) : State :=
  forEach dies (fun s d => s.selfTest d failed (scale.testBit d)) s

/-- Step 10; a unit in a function reset becomes ready with it. In recovery the self-test is all of it (R478). -/
def State.tilesUp (s : State) (failed : List Nat) (scale : Nat) : State :=
  let st := s.fld F.bootState.state
  if s.bring.tilesDone ∨ ¬ (st = 5 ∨ (st = 8 ∧ s.ronbin.recovery)) then s
  else
    let s := (s.selfTests (upto 4) failed scale).modBring fun b => { b with tilesDone := true }
    let bad (d : Nat) : Bool := s.tileFail.any fun t => t / 64 == d
    let s := s.modBring fun b => { b with dieFailed := (upto 4).any bad }
    if st = 8 then s
    else
      let s := forEach (upto 4) (fun s d =>
        let s := if (s.findReset 0x08 d).isSome then s else (s.setUnit F.unitReady.root 8 d true).rootReady d
        if (s.findReset 0x01 d).isSome then s
        else
          let s := s.setUnit F.unitReady.meadow 2 d true
          if bad d then s else s.setUnit F.unitReady.tiles 1 d true) s
      let s := if (s.findReset 0x09 0xFF).isSome then s else s.setFuncReady 9 true
      forEach ((upto 8).filter fun c => (s.findReset 0x0C c).isNone) (fun s c => s.setUnit F.unitReady.contexts 0x0C c true) s

def execTilesBringup (failed : List Nat) (scale : BitVec 4) (s : State) : Result := .next (s.tilesUp failed scale.toNat)

/-- `ARRAY_SELFTEST_RUN` (R102): the result code of the write. -/
def State.selfTestRun (s : State) (dies : Nat) (failed : List Nat) (scale : Nat) : State × Nat :=
  let l := (upto 4).filter fun d => dies.testBit d
  if dies = 0 ∨ 16 ≤ dies then (s, 7)
  else if s.tiles.any fun e => e.2.claimed && l.contains (e.1 / 64) then (s, 1)
  else (s.selfTests l failed scale, 0)

def execArraySelftestRun (dies : BitVec 4) (failed : List Nat) (scale : BitVec 4) (s : State) : Result :=
  .next (s.inDict O.arraySelftestRun (s.selfTestRun dies.toNat failed scale.toNat).1)

/-! ### Phases (R400 to R404) -/

/-- Phase C: the code last driven stays, the inputs are judged, waiting console lines go out. -/
def State.phaseC (s : State) : State :=
  let s := (s.setFld F.phaseStatus.code s.bringCode).setFld F.phaseStatus.phase 2
  (s.pinsJudge.modBring fun b => { b with alive := false }).conDrain

def State.phaseBEnd (s : State) : State := if s.fld F.phaseStatus.phase = 1 ∧ s.notReady = 0 then s.phaseC else s

def execPhaseBEnd (s : State) : Result := .next s.phaseBEnd

/-- Phase B ends by its time limit (Table 15.17). -/
def State.phaseBLimit (s : State) : State :=
  if s.fld F.phaseStatus.phase ≠ 1 then s
  else
    let missing := s.notReady
    if missing = 0 then s.phaseC
    else
      let code := s.bringCode
      ((s.setBit F.phaseStatus.limit true).phaseC).raise 0x6002 0 0x0B 0xFF (missing + 2 ^ 16 * code)

def execPhaseBTimeLimit (s : State) : Result := .next s.phaseBLimit

def State.aliveToggle (s : State) : State :=
  if s.fld F.phaseStatus.phase ≠ 2 then s else (s.modBring fun b => { b with alive := !b.alive }).send (.alive (!s.bring.alive))

def execAliveToggle (s : State) : Result := .next s.aliveToggle

/-! ### The coordinate (R399) -/

/-- `MODULE_COORDINATE_SET`: the result code of the write. -/
def State.coordSet (s : State) (v : Nat) : State × Nat :=
  if 2 ^ 17 ≤ v then (s, 7)
  else if s.bring.latched ∧ s.discovers then (s, 15)
  else if (upto 8).any s.portLive then (s, 1)
  else ({ (s.setObj O.moduleCoordinate v).setObj O.moduleCoordinateSet v with coordKnown := true }, 0)

def execModuleCoordinateSet (v : BitVec 32) (s : State) : Result := .next (s.inDict O.moduleCoordinateSet (s.coordSet v.toNat).1)

/-! ### Shutdown (R449) -/

/-- The cause bit of Table 17.5 a sensor with a shutdown threshold belongs to. -/
def sensorCause (sensor : Nat) : Nat :=
  if sensor < 5 then 5 else if sensor < 13 then 6 else if sensor < 15 then 7 else 8

/-- The power stages switch off: the main rail's domains are cleared, every Stile closes, and a cold reset of R449 is awaited. -/
def State.shutDown (s : State) (bits sensor : Nat) (byTime : Bool) : State :=
  if s.fld F.pwrStatus.state = 1 ∨ s.fld F.pwrStatus.state = 0 then s
  else
    let s := s.emergencyEvent true sensor
    let s := ((s.setFld F.shutdownCause.cause bits).setFld F.shutdownCause.sensor sensor).setBit F.shutdownCause.emergDur byTime
    let s := (s.closeAll 1).setFld F.pwrStatus.state 1
    let s := (s.isolate.clearMain).dropRegs fun k => k < 0x0300009000 && 0x0300000000 ≤ k || (0x0301000000 ≤ k && k < 0x0302000000)
    let s := (s.setFuncReady 4 false).setFuncReady 5 false
    let s := (s.setFld F.unitReady.ports 0).dropMem fun k => 0x0300000000 ≤ k && k < 0x0302000000
    let s := { s with
      ports := [], reassemblies := [], rxWait := [], arrived := [], streams := [], shardFailed := [], lark := {}, coordKnown := false }
    s.modBring fun b =>
      { b with
        step := min b.step 2, released := false, latched := b.latched && b.step == 4, linkDone := false, trained := [], fails := []
        tilesDone := false, dieFailed := false, warm := false }

def execEmergencyShutdownExpiry (s : State) : Result :=
  .next (if s.bit F.pwrStatus.emergency && s.bring.auxOk then s.shutDown (s.fld F.emergCause.val) 31 true else s)

/-- Sensors 16 and 17 have no shutdown threshold (Table 17.9). -/
def execShutdownThreshold (sensor : Fin 18) (s : State) : Result :=
  .next (if sensor.val < 16 && s.bring.auxOk then s.shutDown (s.fld F.emergCause.val ||| 2 ^ sensorCause sensor) sensor false else s)

end Sys2Proof.Machine
end

