-- ==== Sys2Proof/Machine/RegView.lean ====
section
/-! DEFINITION. What a read of a register shows and what a write of one does, for a firmware core or the host (R12, R65, and the register
tables of every chapter). -/

namespace Sys2Proof.Machine

/-! ### Reads -/

/-- `w` with a field replaced. -/
def Fld.put (f : Fld) (v : Nat) (w : Word) : Word := withBits w f.lo f.width v

/-- Registers that only take writes read 0. -/
def writeOnly (k : Nat) : Bool :=
  [R.larkSet, R.logCmd, R.logRaiseA, R.logRaiseB, R.fenceCtl, R.fwL3Kick, R.bootCmd, R.rstCtl, R.stileCtl].contains k
    || ((upto 8).any fun i => k == R.resSwapFrame i || k == R.hamperCtl i) || ((upto 6).any fun n => k == R.wdtKick n)
    || (R.dbCmd 0 ≤ k && k ≤ R.dbEq 8)

/-- Thread `n` of tile `t` as `THREAD_STATUS` shows it (Table 2.3). -/
def State.statusView (s : State) (t n : Nat) : Word :=
  let th := s.thread (thrKey t n)
  let w := (F.threadStatus.outstanding t n).put th.pend.length (s.reg (R.threadStatus t n))
  (F.threadStatus.loopDepth t n).put th.loops.length ((F.threadStatus.callDepth t n).put th.calls.length w)

/-- `HAMPER_TILE` (Table 6.5). DESIGN CHOICE, log entry 125: `ENTRIES` has 10 bits for its range 0 to 1,024, and shows 1,024 as 0. -/
def State.hamperTileView (s : State) (t c : Nat) : Word :=
  let h := s.slice t c
  let w := (F.hamperTile.entries t c).put h.entries.length ((F.hamperTile.resident t c).put h.residentAll.length 0)
  (F.hamperTile.spilledNow t c).put h.slotsAll.length ((F.hamperTile.free t c).put (s.freeGranules t c).length w)

/-- `LOG_STATUS` (Table 16.4). -/
def State.logStatusView (s : State) : Word :=
  let w := F.logStatus.used.put (s.log.filter fun e => e.2.state != 0).length (s.reg R.logStatus)
  let w := F.logStatus.topSev.put s.topSev (F.logStatus.preempt.put (boolNat s.preempt) w)
  match s.handlingSlot with
  | some i => F.logStatus.handlingSlot.put i (F.logStatus.handling.put 1 w)
  | none => w

/-- The levels of PH0 to PH7 (Table 15.6): inputs as they stand, outputs as they are driven. -/
def State.pinView (s : State) : Nat :=
  let l := s.fld F.pinLevel.val
  let at_ (n : Nat) (b : Bool) : Nat := if b then 2 ^ n else 0
  match s.fld F.phaseStatus.phase with
  | 1 => l % 16 + 16 * s.bringCode
  | 2 => (l &&& 0x65) + at_ 3 (!s.faultLow) + at_ 4 true + at_ 7 s.bring.alive
  | _ => l

/-- `Q_WAIT_PS` of a queue: what is counted, and the time so far of the `WAIT`s that are blocked there now (R245). -/
def State.qWaitView (s : State) (c k : Nat) : Word :=
  let w := s.reg (R.qWaitPs c k)
  if s.bit (F.qCfg.v c k) then
    BitVec.ofNat 64 (min (2 ^ 64 - 1) (w.toNat + (s.now - s.blockedSince (s.blockedOn c (s.fld (F.qCfg.obj c k))))))
  else w

/-- The view of registers of a context's control block. -/
def State.ctxView (s : State) (k : Nat) : Word :=
  let c := (k - 0x0307000000) / 0x10000
  let off := k % 0x10000
  if off = 0x818 then (F.hamperStatus.slotsUsed c).put (s.slotsUsed c).length (s.reg k)
  else if 0x940 ≤ off ∧ off < 0xB40 ∧ (off - 0x940) % 0x20 = 8 then s.qWaitView c ((off - 0x940) / 0x20)
  else s.reg k

/-- The view of registers of one tile's control block; others as they are stored. -/
def State.tileView (s : State) (k : Nat) : Word :=
  let t := (k - 0x0100000000) / 0x10000
  let off := k % 0x10000
  if off < 0x800 ∧ off % 0x80 = 0x10 then s.statusView t (off / 0x80)
  else if 0x6000 ≤ off ∧ off < 0x6100 ∧ off % 0x20 = 0 then s.hamperTileView t ((off - 0x6000) / 0x20)
  else s.reg k

/-- The value a register shows. -/
def State.regView (s : State) (k : Nat) : Word :=
  if writeOnly k then 0
  else if 0x0100000000 ≤ k ∧ k < 0x0101000000 then s.tileView k
  else if 0x0307000000 ≤ k ∧ k < 0x0307080000 then s.ctxView k
  else if k = R.logStatus then s.logStatusView
  else if k = R.pinLevel then BitVec.ofNat 64 s.pinView
  else if k = R.phaseStatus then (if s.codeShows then F.phaseStatus.code.put s.bringCode (s.reg k) else s.reg k)
  else if k = R.bootRomVer then Config.bootRomVersion.setWidth 64
  else if k = R.fwCoreSummary then BitVec.ofNat 64 ((upto 6).map fun n => s.coreState n * 2 ^ (4 * n)).sum
  else
    match (upto 6).find? fun n => k == R.coreStatus n, (upto 4).find? fun e => k == R.rootStatus e with
    | some n, _ => (F.coreStatus.windowRestarts n).put (min (s.windowOf n).length 3) (s.reg k)
    | _, some e => (F.rootStatus.queued e).put (s.rootQueued e) (s.reg k)
    | _, _ => s.reg k

/-- A read: measurements are free values. -/
def State.regRead (s : State) (k : Nat) : Word × State := if isTelemetry k then s.measure k else (s.regView k, s)

/-! ### Writes -/

/-- A plain write: RW bits take the value, RW1C bits written 1 clear, all others keep theirs (R12). -/
def State.plainWrite (s : State) (k : Nat) (v : Word) : State :=
  match regSpecOf k with
  | some r => s.setReg k ((v &&& r.rw) ||| (s.reg k &&& ~~~r.rw &&& ~~~(v &&& r.w1c)))
  | none => s

/-- A field with a range: a value outside it leaves the field alone. -/
def State.putRange (s : State) (f : Fld) (lo hi : Nat) (v : Word) : State :=
  let n := bitsAt v f.lo f.width
  if lo ≤ n ∧ n ≤ hi then s.setFld f n else s

/-- Tile control block (R32, R33). -/
def State.tileWrite (s : State) (k : Nat) (v : Word) : State :=
  let t := (k - 0x0100000000) / 0x10000
  let off := k % 0x10000
  let n := off / 0x80
  if off < 0x800 then
    (if off % 0x80 = 0 then s.writeThreadCtl t n v
      else if off % 0x80 = 8 then s.protectedWrite t n k 0xFFFFFFFFFFFFFFF0#64 v
      else if 0x40 ≤ off % 0x80 ∧ off % 8 = 0 then s.protectedWrite t n k 0xFFFFFFFFFFFFFFFF#64 v
      else s)
  else if isCounterOff off then s.syncSet (8 * (k / 8)) v
  else s.plainWrite k v

/-- `ROOT_CTL` and the queue registers of engine `e` (Table 7.2). -/
def State.rootRegWrite (s : State) (e off k : Nat) (v : Word) : State :=
  if off = 0 then
    let c := bitsAt v 4 3
    let s := (s.setFld (F.rootCtl.ctxSel e) c).rootEnable e (v.getLsbD 0)
    let s := if v.getLsbD 1 then s.rootDrain e else s
    if v.getLsbD 2 then s.rootAbandon e c else s
  else if off = 0x18 then (s.putRange (F.rootQueueSize.val e) 1 1024 v).rootFeed e 1024
  else s.plainWrite k v

/-- `PORT_CTL` (Table 10.15). -/
def State.portCtlWrite (s : State) (p : Nat) (v : Word) : State :=
  let s := (s.portEnable p (v.getLsbD 0)).setBit (F.portCtl.halfOk p) (v.getLsbD 2)
  let s := if v.getLsbD 3 then s.clearCounters p else s
  let s := if s.bit (F.portCtl.reinsertArm p) = v.getLsbD 4 then s else s.reinsertArm p (v.getLsbD 4)
  if v.getLsbD 1 then s.retrain p else s

/-- `PORT_VC_BUF`: each VC at least 16 flits, 2,048 in all (R262); ignored while the port is live. -/
def State.vcBufWrite (s : State) (p v n : Nat) : State :=
  let others := (((upto 8).filter (· != v)).map fun u => s.fld (F.portVcBuf.val p u)).sum
  if s.portLive p ∨ n < 16 ∨ 2048 < n + others then s else s.setFld (F.portVcBuf.val p v) n

/-- `STILE_CTL` (Table 10.18). -/
def State.stileCtlWrite (s : State) (v : Word) : State :=
  ((s.stileClose (bitsAt v 0 4) 4 (v.getLsbD 16)).stileAck (bitsAt v 8 8)).stileOpen (bitsAt v 4 4)

/-- Torus router, ports, Stile. -/
def State.torusWrite (s : State) (k : Nat) (v : Word) : State :=
  let p := (k - 0x0300000000) / 0x1000
  let off := k % 0x1000
  if p < 8 then
    (if off = 0 then s.portCtlWrite p v
      else if 0x80 ≤ off ∧ off < 0xC0 ∧ off % 8 = 0 then s.vcBufWrite p ((off - 0x80) / 8) (bitsAt v 0 12)
      else s)
  else if k = R.stileCtl then s.stileCtlWrite v
  else s.plainWrite k v

/-- Lark and reservation tables (Table 11.7). -/
def State.larkWrite (s : State) (k : Nat) (v : Word) : State :=
  let c := (k - 0x0301002000) / 0x40
  let off := (k - 0x0301002000) % 0x40
  if k = R.larkCtl then
    ((s.setBit F.larkCtl.epochInEn (v.getLsbD 1)).setBit F.larkCtl.epochOutEn (v.getLsbD 2)).larkGm (v.getLsbD 0)
  else if k = R.larkGmCoord then (s.plainWrite k v).gmPlace
  else if k = R.larkSet then s.larkSet v
  else if k = R.larkEpochPeriod then (if 1000000 ≤ v.toNat ∧ v.toNat ≤ 10 ^ 15 then s.setReg k v else s)
  else if k = R.larkSyncInterval then s.putRange F.larkSyncInterval.val 10 1000 v
  else if k = R.larkHoldover then s.putRange F.larkHoldover.val 1 1000 v
  else if k = R.voidGrace then s.putRange F.voidGrace.val 100 60000 v
  else if 0x0301002000 ≤ k ∧ k < 0x0301002200 then
    (if off = 0x18 then (s.plainWrite k (v &&& 2#64 ||| (s.reg k &&& 1#64))).fcEnable c (v.getLsbD 0)
      else if 0x20 ≤ off ∧ s.bit (F.fcCtl.enable c) then s
      else s.plainWrite k v)
  else
    match (upto 8).find? fun i => k == R.resSwapFrame i, (upto 8).find? fun i => k == R.snapTime i with
    | some p, _ => s.resSwap p v.toNat
    | _, some c => s.snapWrite c v
    | _, _ => s.plainWrite k v

/-- Reset, power and pins (Tables 15.12, 17.10). -/
def State.powerWrite (s : State) (k : Nat) (v : Word) : State :=
  if k = R.rstCtl then (if v.getLsbD 0 then s.warmReq else s)
  else if k = R.frstCtl then s.frstWrite v
  else if k = R.drainTimeout then s.putRange F.drainTimeout.val 100 100000 v
  else if k = R.pinCtl then s.pinCtlWrite v
  else if k = R.throttleCtl then s.throttleCtlWrite v
  else s.plainWrite k v

/-- Error log and fence (Table 16.3). `LOG_CMD` is F4's alone. -/
def State.logWrite (s : State) (k : Nat) (v : Word) : State :=
  if k = R.logRaiseA then s.setReg k (v &&& 0xFFFFFFFFFF07FFFF#64)
  else if k = R.logRaiseB then s.logRaise v
  else if k = R.fenceCtl then s.fenceCtlWrite v
  else s.plainWrite k v

/-- Firmware complex (Table 13.2). Kicks are the cores' own. -/
def State.fwWrite (s : State) (k : Nat) (v : Word) : State :=
  let n := (k - 0x0305000000) / 0x100
  let off := k % 0x100
  if n < 6 then
    (if off = 0 then
        let s := if s.bit (F.coreCtl.hold n) = v.getLsbD 1 then s else s.coreHold n (v.getLsbD 1)
        if v.getLsbD 0 then s.restartRequest n else s
      else if off = 0x10 then (s.setBit (F.wdtCfg.en n) (v.getLsbD 16)).putRange (F.wdtCfg.timeoutMs n) 1 1000 v
      else s)
  else if k = R.fwEscCtl then (s.setBit F.fwEscCtl.l3En (v.getLsbD 0)).putRange F.fwEscCtl.l3TimeoutMs 100 10000 v
  else if k = R.conCtl then s.conCtlWrite v
  else s.plainWrite k v

/-- Sweep and schedule engine (Table 8.7). -/
def State.sweepWrite (s : State) (k : Nat) (v : Word) : State :=
  let c := (k - 0x0306000000) / 0x1000
  let off := k % 0x1000
  if off = 0 then s.sweepStepWrite c v
  else if off = 0x40 then s.shardTableWrite c v
  else if off = 0x18 then
    let s := s.plainWrite k v
    if v.getLsbD 1 then s.clearSkew c else s
  else s.plainWrite k v

/-- Context control (Tables 3.4, 6.5, 9.3, 12.17). -/
def State.ctxWrite (s : State) (k : Nat) (v : Word) : State :=
  let c := (k - 0x0307000000) / 0x10000
  let off := k % 0x10000
  if off < 0x400 then
    let i := off / 16
    s.segWrite c i (if off % 16 = 0 then s.reg (R.segHi c i) ++ v else v ++ s.reg (R.segLo c i))
  else if off = 0x800 then s.hamperCfgWrite c v
  else if off = 0x808 then s.hamperSpillBaseWrite c v
  else if off = 0x810 then (if v.getLsbD 0 then s.discard c else s)
  else if off = 0x900 then s.ctxCutsWrite c v
  else if 0x940 ≤ off ∧ off < 0xB40 ∧ (off - 0x940) % 0x20 = 0 then s.qCfgWrite c ((off - 0x940) / 0x20) v
  else if 0xC00 ≤ off ∧ off < 0xC38 ∧ (s.ctx c).running then s
  else s.plainWrite k v

/-- Thermos controllers (Table 16.5). -/
def State.thermosWrite (s : State) (k : Nat) (v : Word) : State :=
  let st := (k - 0x0308000000) / 0x10000
  if k = R.thermosCtl st then (s.setBit (F.thermosCtl.patrolEn st) (v.getLsbD 0)).putRange (F.thermosCtl.patrolHours st) 1 168 v
  else s.plainWrite k v

/-- BAR0 (Tables 12.3, 13.7), but for `HOST_READY`, and the MSI-X table in BAR4 (R317). -/
def State.bar0Write (s : State) (k : Nat) (v : Word) : State :=
  if 0x20100000000 ≤ k then (s.plainWrite k v).firePending
  else if k = R.bar2Sel then s.bar2SelWrite v.toNat
  else if k = R.bootCmd then (if bitsAt v 0 4 = 1 then s.bootLoad else if bitsAt v 0 4 = 2 then s.warmReq else s)
  else
    match (upto 9).find? fun r => k == R.dbCmd r, (upto 9).find? fun r => k == R.dbCq r, (upto 9).find? fun r => k == R.dbEq r with
    | some r, _, _ => s.dbCmd r (bitsAt v 0 32)
    | _, some r, _ => s.dbCq r (bitsAt v 0 32)
    | _, _, some r => s.dbEq r (bitsAt v 0 32)
    | _, _, _ => s.plainWrite k v

/-- A write of the 64-bit register at key `k`. -/
def State.regWrite (s : State) (k : Nat) (v : Word) : State :=
  if 0x0100000000 ≤ k ∧ k < 0x0101000000 then s.tileWrite k v
  else if 0x0200000000 ≤ k ∧ k < 0x0204000000 then s.rootRegWrite ((k - 0x0200000000) / 0x1000000) (k % 0x1000000) k v
  else if 0x20000000000 ≤ k then s.bar0Write k v
  else
    match (k - 0x0300000000) / 0x1000000 with
    | 0 => s.torusWrite k v
    | 1 => s.larkWrite k v
    | 2 => s.powerWrite k v
    | 3 => s.logWrite k v
    | 5 => s.fwWrite k v
    | 6 => s.sweepWrite k v
    | 7 => s.ctxWrite k v
    | 8 => s.thermosWrite k v
    | _ => s.plainWrite k v

end Sys2Proof.Machine
end

