-- ==== Sys2Proof/Machine/Dict.lean ====
section
/-! DEFINITION. The object dictionary served: which object an index names, its value in force, the checks of a write, and when a write takes
effect (R9, R149, R188, R365 to R384, and the object tables of every chapter). -/

namespace Sys2Proof.Machine

/-! ### Names and types (R366, R367, R380, R381) -/

/-- The function whose readiness an index depends on (Table 14.9); 0 for what the Ronbin block holds alone and for the error log. -/
def objFunc (index : Nat) : Nat :=
  let h := index / 256
  if 0x21 ≤ h ∧ h ≤ 0x2C then h - 0x20
  else if 0x32 ≤ h ∧ h ≤ 0x49 then (h - 0x30) / 2
  else if 0x60 ≤ h ∧ h ≤ 0x6F then h - 0x60
  else 0

/-- The function is ready, or the Ronbin block serves the value alone. -/
def State.funcUp (s : State) (f : Nat) : Bool := f == 0 || f == 0x0B || (s.reg R.funcReady).getLsbD f

/-- `TYPE` of Table 14.5. -/
def typeCode : ObjType → Nat
  | .bool => 1 | .u8 => 2 | .u16 => 3 | .u32 => 4 | .u64 => 5 | .i32 => 6 | .i64 => 7 | .f32 => 8 | .str => 0xA | .blob => 0xB

/-- `LEN` of a numeric type. -/
def typeLen : ObjType → Nat
  | .bool => 1 | .u8 => 1 | .u16 => 2 | .u32 => 4 | .u64 => 8 | .i32 => 4 | .i64 => 8 | .f32 => 4 | .str => 0 | .blob => 0

/-- Sizes of the BLOB objects. -/
def blobLen (base : Nat) : Nat :=
  if base = O.arraySelftestFail then 32
  else if base = O.lrCosTable then 1024
  else if base = O.portVcBuf 0 then 16
  else if base = O.portCounters 0 then 64
  else if base = O.resTable 0 then 4096
  else if base = O.logSlots then 16384
  else if base = O.logHistory then 4096
  else if base = O.imgStageBitmap then 96
  else if base = O.imgPieceData then 1024
  else 0

/-- Bytes of a value an object takes. -/
def objLen (d : ObjDef) : Nat := if d.type = .blob then blobLen d.base else typeLen d.type

/-- The highest subindex a row of an object table gives an index. -/
def rowTop (index : Nat) (r : ObjDef) : Option Nat :=
  let i := r.base / 256
  let j := r.base % 256
  match r.dims with
  | [(m, _), (n, _)] => if i ≤ index ∧ index < i + m then some (j + n - 1) else none
  | (n, _) :: _ => if i = index then some (j + n - 1) else none
  | [] => if i = index then some j else none

/-- The highest subindex defined at an index that has objects. -/
def topSub (index : Nat) : Option Nat :=
  match objRows.filterMap (rowTop index) with
  | [] => none
  | l => some (l.foldl max 0)

/-- Indexes of an object in an array: its context, port, core, die, stack or sensor, and its queue. -/
def objIdx (d : ObjDef) (k : Nat) : Nat × Nat :=
  match d.dims with
  | [(_, x), (_, y)] => ((k - d.base) / x, (k - d.base) % x / y)
  | (_, x) :: _ => ((k - d.base) / x, 0)
  | [] => (0, 0)

/-- The object at a key, or the result code of a key that names none. -/
def State.objLookup (s : State) (k : Nat) : Nat ⊕ ObjDef :=
  if ¬ s.dictServes k ∨ (topSub (k / 256)).isNone then .inl 2
  else
    match objDefOf k with
    | some d => .inr d
    | none => .inl 3

/-! ### Objects that copy registers (R379) -/

/-- An object that copies bits of a register, by its indexes. -/
structure ObjBind where
  base : Nat
  field : Nat → Nat → Fld

def wholeReg (k : Nat) : Fld := ⟨k, 0, 64⟩
def lowReg (n k : Nat) : Fld := ⟨k, 0, n⟩

def bindsCompute : List ObjBind := [
  ⟨O.hamperHighWater 0, fun c _ => F.hamperStatus.highWater c⟩,
  ⟨O.hamperSpilled 0, fun c _ => wholeReg (R.hamperSpilled c)⟩,
  ⟨O.stepCount 0, fun c _ => wholeReg (R.sweepStep c)⟩,
  ⟨O.skippedSteps 0, fun c _ => wholeReg (R.sweepSkipped c)⟩,
  ⟨O.lastVoteWord 0, fun c _ => wholeReg (R.voteLast c)⟩,
  ⟨O.lastCommitWord 0, fun c _ => wholeReg (R.commitLast c)⟩,
  ⟨O.lrCurrent 0, fun c _ => F.lrNow.lr c⟩,
  ⟨O.sweepShardTable 0, fun c _ => wholeReg (R.shardTable c)⟩,
  ⟨O.jobCuts 0, fun c _ => wholeReg (R.ctxCuts c)⟩,
  ⟨O.stageWaitPs 0 0, fun c k => wholeReg (R.qWaitPs c k)⟩,
  ⟨O.stageWaits 0 0, fun c k => wholeReg (R.qWaits c k)⟩,
  ⟨O.thermosPatrolEn, fun _ _ => F.thermosCtl.patrolEn 0⟩,
  ⟨O.thermosPatrolHours, fun _ _ => F.thermosCtl.patrolHours 0⟩,
  ⟨O.thermosCe 0, fun t _ => wholeReg (R.thermosCe t)⟩,
  ⟨O.thermosUe 0, fun t _ => wholeReg (R.thermosUe t)⟩,
  ⟨O.genState 0, fun c _ => wholeReg (R.genStatus c)⟩]

def bindsTorus : List ObjBind := [
  ⟨O.torusDims, fun _ _ => lowReg 32 R.torusDims⟩,
  ⟨O.bypassMap 0, fun a _ => lowReg 32 (R.bypassMap a)⟩,
  ⟨O.stileState, fun _ _ => lowReg 32 R.stileStatus⟩,
  ⟨O.portEnable 0, fun p _ => F.portCtl.enable p⟩,
  ⟨O.portHalfOk 0, fun p _ => F.portCtl.halfOk p⟩,
  ⟨O.portState 0, fun p _ => lowReg 16 (R.portStatus p)⟩,
  ⟨O.portNeighbour 0, fun p _ => lowReg 32 (R.portNeighbour p)⟩,
  ⟨O.schedBaseNs 0, fun c _ => F.schedBaseNs.val c⟩,
  ⟨O.schedPerFlitPs 0, fun c _ => F.schedPerFlitPs.val c⟩,
  ⟨O.admitMaxBoundNs 0, fun c _ => F.admitMaxBoundNs.val c⟩,
  ⟨O.fcPeriodPs 0, fun c _ => F.fcPeriod.val c⟩,
  ⟨O.fcStartPs 0, fun c _ => F.fcStart.val c⟩,
  ⟨O.fcBudgetPs 0, fun c _ => F.fcBudget.val c⟩,
  ⟨O.fcObj 0, fun c _ => F.fcObj.val c⟩,
  ⟨O.fcEnable 0, fun c _ => F.fcCtl.enable c⟩,
  ⟨O.fcMissed 0, fun c _ => F.fcCtl.missed c⟩,
  ⟨O.snapTime 0, fun c _ => wholeReg (R.snapTime c)⟩,
  ⟨O.snapResume 0, fun c _ => wholeReg (R.snapResume c)⟩,
  ⟨O.voidGraceUs, fun _ _ => F.voidGrace.val⟩,
  ⟨O.resState 0, fun p _ => wholeReg (R.resStatus p)⟩,
  ⟨O.promisesVoided, fun _ _ => wholeReg R.promiseVoids⟩,
  ⟨O.admitsRefused, fun _ _ => wholeReg R.admitRefusals⟩,
  ⟨O.larkGm, fun _ _ => F.larkCtl.gm⟩,
  ⟨O.larkGmCoord, fun _ _ => F.larkGmCoord.val⟩,
  ⟨O.larkEpochPeriodPs, fun _ _ => wholeReg R.larkEpochPeriod⟩,
  ⟨O.larkEpochInEn, fun _ _ => F.larkCtl.epochInEn⟩,
  ⟨O.larkEpochOutEn, fun _ _ => F.larkCtl.epochOutEn⟩,
  ⟨O.larkSyncIntervalUs, fun _ _ => F.larkSyncInterval.val⟩,
  ⟨O.larkHoldoverMs, fun _ _ => F.larkHoldover.val⟩,
  ⟨O.portAsymPs 0, fun p _ => F.portAsym.val p⟩,
  ⟨O.larkNow, fun _ _ => wholeReg R.larkTime⟩,
  ⟨O.larkState, fun _ _ => lowReg 32 R.larkStatus⟩,
  ⟨O.larkOffsetPs, fun _ _ => wholeReg R.larkOffset⟩,
  ⟨O.portLinkDelayPs 0, fun p _ => wholeReg (R.portLinkDelay p)⟩]

def bindsControl : List ObjBind := [
  ⟨O.runtimeFwVersion, fun _ _ => F.moduleVersions.runtimeFw⟩,
  ⟨O.hostIfVersion, fun _ _ => F.moduleVersions.hostIf⟩,
  ⟨O.hostStatusAddr, fun _ _ => wholeReg R.hostStatusAddr⟩,
  ⟨O.bar2Sel, fun _ _ => F.bar2Sel.sel⟩,
  ⟨O.hostLinkState, fun _ _ => lowReg 32 R.linkStatus⟩,
  ⟨O.fwConsoleRxEn, fun _ _ => F.conCtl.rxEn⟩,
  ⟨O.fwConsoleTxEn, fun _ _ => F.conCtl.txEn⟩,
  ⟨O.fwWdtTimeoutMs 0, fun n _ => F.wdtCfg.timeoutMs n⟩,
  ⟨O.fwWdtEn 0, fun n _ => F.wdtCfg.en n⟩,
  ⟨O.fwL3En, fun _ _ => F.fwEscCtl.l3En⟩,
  ⟨O.fwL3TimeoutMs, fun _ _ => F.fwEscCtl.l3TimeoutMs⟩,
  ⟨O.fwCoreHold 0, fun n _ => F.coreCtl.hold n⟩,
  ⟨O.fwCoreState 0, fun n _ => lowReg 32 (R.coreStatus n)⟩,
  ⟨O.fwCoreRestarts 0, fun n _ => wholeReg (R.coreRestartCount n)⟩,
  ⟨O.fwBootState, fun _ _ => lowReg 32 R.bootState⟩,
  ⟨O.fwLoadTimePs, fun _ _ => wholeReg R.bootLoadTime⟩,
  ⟨O.funcReadyWord, fun _ _ => lowReg 32 R.funcReady⟩,
  ⟨O.unitReadyWord, fun _ _ => wholeReg R.unitReady⟩,
  ⟨O.phase, fun _ _ => F.phaseStatus.phase⟩,
  ⟨O.straps, fun _ _ => F.strapLatch.val⟩,
  ⟨O.bringupCode, fun _ _ => F.phaseStatus.code⟩,
  ⟨O.pinInEn, fun _ _ => lowReg 8 R.pinCtl⟩,
  ⟨O.drainTimeoutUs, fun _ _ => F.drainTimeout.val⟩,
  ⟨O.resetCause, fun _ _ => lowReg 32 R.rstCause⟩,
  ⟨O.resetCounts, fun _ _ => wholeReg R.rstCounts⟩,
  ⟨O.pinLevels, fun _ _ => lowReg 8 R.pinLevel⟩,
  ⟨O.logUsed, fun _ _ => F.logStatus.used⟩,
  ⟨O.logOverflow, fun _ _ => F.logStatus.overflow⟩,
  ⟨O.logDropped, fun _ _ => wholeReg R.logDropped⟩,
  ⟨O.fenceLevel, fun _ _ => F.fenceStatus.level⟩,
  ⟨O.fwSramEccCounts, fun _ _ => wholeReg R.fwSramEcc⟩]

def bindsPower : List ObjBind := [
  ⟨O.powerLimitW, fun _ _ => F.throttleCtl.powerLimit⟩,
  ⟨O.throttleForce, fun _ _ => F.throttleCtl.forceLevel⟩,
  ⟨O.tempThrottleC, fun _ _ => F.throttleCtl.dieThrottle⟩,
  ⟨O.hbmThrottleC, fun _ _ => F.throttleCtl.hbmThrottle⟩,
  ⟨O.throttleStepDownMs, fun _ _ => F.throttleCtl.stepDown⟩,
  ⟨O.powerState, fun _ _ => lowReg 32 R.pwrStatus⟩,
  ⟨O.throttleCauses, fun _ _ => lowReg 16 R.throttleCause⟩,
  ⟨O.emergencyCauses, fun _ _ => lowReg 16 R.emergCause⟩,
  ⟨O.shutdownCause, fun _ _ => lowReg 32 R.shutdownCause⟩,
  ⟨O.quietS, fun _ _ => F.quietS.val⟩,
  ⟨O.throttleTimePs, fun _ _ => wholeReg R.throttleTime⟩,
  ⟨O.mainVoltageMv, fun _ _ => F.mainV.val⟩,
  ⟨O.mainCurrentMa, fun _ _ => F.mainI.val⟩,
  ⟨O.mainPowerMw, fun _ _ => F.mainP.val⟩,
  ⟨O.auxPowerMw, fun _ _ => F.auxP.val⟩,
  ⟨O.energyMj, fun _ _ => F.energy.val⟩,
  ⟨O.peakPowerMw, fun _ _ => F.peakP.val⟩,
  ⟨O.coolantFlowMlMin, fun _ _ => F.flow.val⟩,
  ⟨O.temp 0, fun n _ => F.temp.val n⟩]

/-- The bits of a register an object copies. -/
def objField (d : ObjDef) (k : Nat) : Option Fld :=
  ((bindsCompute ++ bindsTorus ++ bindsControl ++ bindsPower).find? fun b => b.base == d.base).map fun b => b.field (objIdx d k).1 (objIdx d k).2

/-- A 16-bit reading as a number of `n` bits: its sign is extended. -/
def signExt16 (n v : Nat) : Nat := ((BitVec.ofNat 16 v).signExtend n).toNat

/-- What the bits show as the value of an object. -/
def fieldValue (d : ObjDef) (v : Nat) : Nat := if d.base = O.temp 0 then signExt16 32 v else v

/-! ### Values in force (R376 to R379) -/

/-- The level of strap PHn, as it is sampled (Table 15.5). -/
def State.strap (s : State) (n : Nat) : Bool := ((if s.bring.latched then s.fld F.strapLatch.val else s.fld F.pinLevel.val)).testBit n

/-- The DOP node ID: straps PH0 to PH2 (R363). -/
def State.nodeId (s : State) : Nat := boolNat (s.strap 0) + 2 * boolNat (s.strap 1) + 4 * boolNat (s.strap 2)

/-- Bit n for each number n of a list. -/
def bitSet (l : List Nat) : Nat := l.foldl (fun a n => if a.testBit n then a else a + 2 ^ n) 0

/-- A value the Ronbin block holds or computes itself. -/
def State.objOwn (s : State) (sn k : Nat) (d : ObjDef) : Nat :=
  let i := (objIdx d k).1
  let die (r : Nat → Nat) : Nat := min ((upto 64).map fun t => (s.reg (r (64 * i + t))).toNat).sum (2 ^ 64 - 1)
  if k = O.accessLevel then (s.session sn).level
  else if k = O.expertPermitted then boolNat (s.strap 6)
  else if k = O.sessionId then sn
  else if k = O.sessionsOpen then bitSet ((upto 10).filter fun n => n < 2 || (s.session n).opened)
  else if k = O.mgmtMac then Config.mgmtMac.toNat
  else if k = O.dopNodeId then s.nodeId
  else if k = O.plcaStatus then (if s.nodeId = 0 then 2 + boolNat (s.ronbin.beaconPs != 0) else 0)
  else if k = O.configDeferred then bitSet (s.ronbin.deferred.map fun e => objFunc (e.1 / 256))
  else if k = O.bootRomVersion then Config.bootRomVersion.toNat
  else if k = O.mgmtImageVersion then (match s.ronbin.running with | some b => (s.bank b).version | none => 0)
  else if k = O.arraySafeDies then s.scaleFail ||| s.obj O.arraySafeForce
  else if d.base = O.hamperLeftover 0 then min (s.reg (R.hamperLeftover i)).toNat (2 ^ 32 - 1)
  else if d.base = O.pubStageWait 0 then
    min (2 ^ 64 - 1) (s.obj k + (match (s.ctx i).stageFrom with | some t => s.now - t | none => 0))
  else if d.base = O.rootFallbackLayers 0 then ((s.layers i).filter fun l => s.layerUse i l == 1 || s.layerUse i l == 2).length
  else if d.base = O.genCurrent 0 then
    (match (upto 2).find? fun j => s.genSlot i j == 3 with | some j => (s.reg (R.genNum i j)).toNat | none => 0)
  else if d.base = O.meadowEccCorr 0 then die R.meadowEccCorr
  else if d.base = O.meadowEccUncorr 0 then die R.meadowEccUncorr
  else if k = O.reinsertArm then bitSet ((upto 8).filter fun p => s.bit (F.portCtl.reinsertArm p))
  else if k = O.fwImageSvn then s.boot.svn
  else if k = O.imgState then s.imgState
  else if k = O.imgOtherVersion then s.otherVersion
  else if k = O.imgMgmtSvnMin then s.flash.mgmtSvn
  else if k = O.imgRtSvnMin then s.flash.rtSvn
  else if k = O.imgKeysRevoked then s.flash.revoked
  else if k = O.imgCalFormat then s.calFormat
  else if k = O.imgStageId then s.flash.stageId + 2 ^ 32 * s.flash.stageLen
  else if k = O.imgPiecesDurable then (s.bank s.stageBank).pieces.length
  else if k = O.imgTrialLeftS then (match s.trialRuns, s.trialBank with | true, some b => (s.bank b).trialS - s.trialRun | _, _ => 0)
  else if k = O.imgCardState then s.ronbin.card
  else s.obj k

/-- The value a session that reads a numeric object finds: of a copy, the register as it stands (R379). -/
def State.objVal (s : State) (sn k : Nat) (d : ObjDef) : Nat :=
  match objField d k with
  | some f => fieldValue d (bitsAt (s.regView f.reg) f.lo f.width)
  | none => s.objOwn sn k d

/-- A value stored for a function that is not ready (R378). -/
def State.objStored (s : State) (k : Nat) : Option Nat := (s.ronbin.deferred.find? fun e => e.1 == k).map (·.2)

/-- The value against which the range of another object is checked: one stored under R378 counts as in force (R384). -/
def State.objNow (s : State) (k : Nat) : Nat :=
  match objDefOf k with
  | some d => (s.objStored k).getD (s.objVal 0 k d)
  | none => 0

/-- The seven counters of Table 10.14; the eighth place, for which that table lists none, keeps its default zero (Table 10.19). -/
def State.portCounters (s : State) (p : Nat) : List Byte :=
  ([R.portFecCorr p, R.portFecUncorr p, R.portCrcErr p, R.portRetries p, R.portPoisoned p, R.portProtoErr p, R.portTrains p].flatMap fun k =>
    leBytes 8 (s.reg k).toNat) ++ leBytes 8 0

/-- A BLOB in force. -/
def State.objBlob (s : State) (k : Nat) (d : ObjDef) : List Byte :=
  let i := (objIdx d k).1
  if k = O.arraySelftestFail then leBytes 32 (bitSet s.tileFail)
  else if k = O.lrCosTable then cosTable.flatMap (leBytes 4)
  else if d.base = O.portVcBuf 0 then (upto 8).flatMap fun v => leBytes 2 (s.fld (F.portVcBuf.val i v))
  else if d.base = O.resTable 0 then (upto 4096).map fun n => s.byte (resEntry i (s.fld (F.resStatus.active i)) n)
  else if k = O.logSlots then (upto 256).flatMap fun n => (s.logSlot n).bytes
  else if k = O.logHistory then
    (upto 64).flatMap fun n => (Tab.get (fun _ => {}) s.hist ((s.fld F.logHistHead.val + n) % 64) : LogSlot).bytes
  else if k = O.imgStageBitmap then leBytes 96 (bitSet ((s.bank s.stageBank).pieces.map (·.1)))
  else []

/-- The characters of a STR. -/
def asciiBytes (t : String) : List Byte := t.toList.map fun ch => BitVec.ofNat 8 ch.toNat

def serialBytes : List Byte := (upto 12).map fun n =>
  let v := (Config.serialChar n).val
  BitVec.ofNat 8 (if v < 10 then 48 + v else 55 + v)

def objString (k : Nat) : List Byte :=
  if k = O.vendorName then asciiBytes "Pelverdo"
  else if k = O.partNumber then asciiBytes "PVD-GT1-512"
  else if k = O.productName then asciiBytes "Gloinafy GT1"
  else if k = O.serialNumber then serialBytes
  else []

/-- The value as a number, a BLOB as the number its bytes spell. -/
def State.objShown (s : State) (sn k : Nat) (d : ObjDef) : Nat := if d.type = .blob then leNat (s.objBlob k d) else s.objVal sn k d

/-- The value in force for a write: one stored under R378 counts as it (R377). -/
def State.objForce (s : State) (sn k : Nat) (d : ObjDef) : Nat := (s.objStored k).getD (s.objShown sn k d)

/-- The bytes a read returns. Readings of sensors, the share of time an engine was busy and, at a node that is not the
coordinator, whether the beacon was seen in the last 10 ms are free values. -/
def State.objRead (s : State) (sn k : Nat) (d : ObjDef) : List Byte × State :=
  if d.base = O.rootEngineBusy 0 then
    let (w, s) := s.free
    (leBytes 1 (w.toNat % 101), s)
  else if k = O.plcaStatus ∧ s.nodeId ≠ 0 ∧ s.ronbin.beaconPs ≠ 0 then
    let (w, s) := s.free
    (leBytes 1 (s.objOwn sn k d + w.toNat % 2), s)
  else if d.base = O.portCounters 0 then
    (s.portCounters (objIdx d k).1, s)
  else
    match d.type, objField d k with
    | .str, _ => (objString k, s)
    | .blob, _ => (leBytes (blobLen d.base) (s.objShown sn k d), s)
    | _, some f =>
      if ¬ isTelemetry f.reg then (leBytes (typeLen d.type) (s.objVal sn k d), s)
      else
        let (w, s) := s.regRead f.reg
        (leBytes (typeLen d.type) (fieldValue d (bitsAt w f.lo f.width)), s)
    | _, none => (leBytes (typeLen d.type) (s.objVal sn k d), s)

/-! ### Ranges (R367, R384) -/

/-- A positive FP32 in a range whose bounds are given as bit patterns; −0.0 equals 0.0. -/
def f32In (lo hi v : Nat) : Bool := (lo ≤ v && v ≤ hi) || (v == 0x80000000 && lo == 0)

/-- The range column. -/
def rangeHolds (d : ObjDef) (v : Nat) : Bool :=
  match d.range with
  | .any => d.type != .bool || v ≤ 1
  | .nat lo hi => lo ≤ v && v ≤ hi
  | .int lo hi => lo ≤ (BitVec.ofNat 32 v).toInt && (BitVec.ofNat 32 v).toInt ≤ hi
  | .f32 lo hi => f32In lo hi v

/-- Ring length of axis `a` under a value of `TORUS_DIMS` (Table 10.18). -/
def dimsLen (v a : Nat) : Nat :=
  match a with
  | 0 => v % 16 + 1
  | 1 => v / 2 ^ 4 % 32 + 1
  | 2 => v / 2 ^ 9 % 16 + 1
  | _ => v / 2 ^ 13 % 16 + 1

/-- The sum of `LR_EXP` and a shard's `LR_EXP_OFF` (Table 8.10). -/
def expFits (e : Int) : Bool := -92 ≤ e && e ≤ 0

/-- Ranges that depend on another value in force, or that the column says in words. -/
def State.rangeMore (s : State) (d : ObjDef) (i v : Nat) : Bool :=
  let b := d.base
  if b = O.hamperSizeMib 0 then v % 16 == 0
  else if b = O.hamperTileBase 0 then v < 128 || v == 0xFF
  else if b = O.rootAcceptResid 0 then s.objNow (O.rootTol i) ≤ v && v != 0x80000000
  else if b = O.sweepShardTable 0 then v % 128 == 0 && v < 2 ^ 60
  else if b = O.rootLayerTable 0 then v % 0x20000 == 0 && 0x4000000000 ≤ v && v < 0xC000000000
  else if b = O.lrExp 0 then
    (upto (s.shardCount i)).all fun n => expFits ((BitVec.ofNat 32 v).toInt + (s.shard i n).expOff)
  else if b = O.torusDims then v < 2 ^ 17
  else if b = O.bypassMap 0 then v < 2 ^ dimsLen (s.objNow O.torusDims) i
  else if b = O.portVcBuf 0 then
    let n (j : Nat) : Nat := v / 2 ^ (16 * j) % 2 ^ 16
    ((upto 8).all fun j => 16 ≤ n j) && ((upto 8).map n).sum ≤ 2048
  else if b = O.fcBudgetPs 0 then v < s.objNow (O.fcPeriodPs i)
  else if b = O.fcObj 0 then isCounter v
  else if b = O.snapTime 0 then v == 0 || 10000000 + s.now ≤ v
  else if b = O.snapResume 0 then s.objNow (O.snapTime i) < v
  else if b = O.resSwapFrame 0 then s.now / framePs < v
  else if b = O.evtSubMac then v == 0 || (v < 2 ^ 48 && !v.testBit 40)
  else if b = O.evtSubFuncMask then v &&& 0x1FFE == v
  else if b = O.hostStatusAddr then v % 64 ≤ 1
  else if b = O.maxReadReq then [128, 256, 512, 1024, 2048, 4096].contains v
  else if b = O.pinInEn then [0, 4, 0x40, 0x44].contains v
  else true

/-! ### Refusals with `BUSY` (R376) -/

/-- A tile of one of the dies is claimed. -/
def State.diesClaimed (s : State) (dies : Nat) : Bool := s.tiles.any fun e => e.2.claimed && dies.testBit (e.1 / 64)

/-- Is a write of an object refused with `BUSY`? Class I by the condition its description names, else by the ready bit of its function. -/
def State.objBusy (s : State) (d : ObjDef) (i v : Nat) : Bool :=
  let b := d.base
  if b = O.arraySafeForce then s.diesClaimed (v ||| s.obj O.arraySafeForce)
  else if b = O.ctxJobSeed 0 ∨ b = O.rootLayerTable 0 ∨ b = O.sweepShardTable 0 ∨ b = O.sweepStepSet 0 then (s.ctx i).running
  else if b = O.torusDims ∨ b = O.fwCoreHold 0 then s.anyRunning
  else if b = O.portHalfOk 0 ∨ b = O.portVcBuf 0 then s.portLive i
  else if b = O.fcPeriodPs 0 ∨ b = O.fcStartPs 0 ∨ b = O.fcBudgetPs 0 ∨ b = O.fcObj 0 then s.bit (F.fcCtl.enable i)
  else if b = O.intakeMaxInflight ∨ b = O.maxReadReq then s.intakes != []
  else if b = O.fwConsoleRxEn then !s.strap 6
  else if b = O.larkSetTime then s.anyRunning
  else if b = O.larkGm then v != 0 && !(s.fld F.strapLatch.val).testBit 5
  else if b = O.arraySelftestRun ∨ b = O.moduleCoordinateSet then false
  else d.cls == .i && s.funcUp (objFunc (b / 256))

/-! ### Taking effect -/

/-- Replace the bits of a register an object copies, as a write of that register. -/
def State.fieldWrite (s : State) (f : Fld) (v : Nat) : State :=
  match regSpecOf f.reg with
  | some r => s.regWrite f.reg (f.put v (s.regView f.reg &&& r.rw))
  | none => s

/-- A write that a chapter's own check may refuse: `REFUSED` when the check has set the given bit. -/
def State.withCheck (s : State) (f : Fld) (op : State → State) : State × Nat :=
  let t := op (s.setBit f false)
  (if s.bit f then t.setBit f true else t, if t.bit f then 0xF else 0)

/-- An object of Table 18.8 takes a value. -/
def State.objApplyImage (s : State) (sn k v : Nat) (env : Around) : State × Nat :=
  if k = O.imgStageBegin then s.stageBegin v
  else if k = O.imgPieceNum then (s.modSession sn fun x => { x with pieceNum := v }, 0)
  else if k = O.imgPieceCrc then (s.modSession sn fun x => { x with pieceCrc := v }, 0)
  else if k = O.imgPieceData then s.piece (s.session sn).pieceNum (s.session sn).pieceCrc (leBytes 1024 v)
  else if k = O.imgStageAbort then (s.stageAbort, 0)
  else if k = O.imgVerify then s.verify
  else if k = O.imgActivate then s.imgActivate
  else if k = O.imgConfirm then s.imgConfirm
  else if k = O.imgFallback then s.imgFallback
  else if k = O.imgCardScan then s.cardScan env.files
  else (s, 0)

/-- A torus, transport or Lark object takes a value. -/
def State.objApplyTorus (s : State) (k : Nat) (d : ObjDef) (i v : Nat) : State × Nat :=
  let b := d.base
  if k = O.stileClose then
    let force := s.obj O.stileForce != 0
    (s.setObj O.stileForce 0).withCheck F.stileStatus.refused fun s => s.stileClose v 5 force
  else if k = O.stileOpen then s.withCheck F.stileStatus.refused fun s => s.stileOpen v
  else if k = O.stileNeighAck then (s.stileAck v, 0)
  else if k = O.reinsertArm then
    (forEach (upto 8) (fun s p => if s.bit (F.portCtl.reinsertArm p) = v.testBit p then s else s.reinsertArm p (v.testBit p)) s, 0)
  else if b = O.portVcBuf 0 then (forEach (upto 8) (fun s j => s.setFld (F.portVcBuf.val i j) (v / 2 ^ (16 * j) % 2 ^ 16)) s, 0)
  else if b = O.fcEnable 0 then s.withCheck (F.fcCtl.refused i) fun s => s.fcEnable i (v != 0)
  else if b = O.snapTime 0 then s.withCheck (F.snapStatus.refused i) fun s => s.snapWrite i (BitVec.ofNat 64 v)
  else if b = O.resSwapFrame 0 then (s.setObj (O.resTable i) 0).withCheck (F.resStatus.swapRefused i) fun s => s.resSwap i v
  else if k = O.larkSetTime then (if s.isGm then (s.larkSet (BitVec.ofNat 64 v), 0) else (s, 0xF))
  else if k = O.moduleCoordinateSet then s.coordSet v
  else
    match objField d k with
    | some f => (s.fieldWrite f v, 0)
    | none => (s.setObj k v, 0)

/-- `CONFIG_EPOCH` (R382). -/
def State.epochWrite (s : State) (v : Nat) : State := if s.obj O.configEpoch = v then s else (s.setObj O.configEpoch v).setObj O.configStale 0

/-- `ACCESS_LEVEL` of a session (R374). -/
def State.levelWrite (s : State) (sn v : Nat) : State × Nat :=
  if 1 < v then (s, 7)
  else if v = 1 ∧ ¬ s.strap 6 then (s, 9)
  else (s.modSession sn fun x => { x with level := v }, 0)

/-- An object takes a value: the state and the result code. -/
def State.objApply (s : State) (sn k : Nat) (d : ObjDef) (v : Nat) (env : Around) : State × Nat :=
  let b := d.base
  let i := (objIdx d k).1
  let h := b / 2 ^ 16
  if k = O.accessLevel then s.levelWrite sn v
  else if k = O.configEpoch then (s.epochWrite v, 0)
  else if h = 0x80 then s.objApplyImage sn k v env
  else if h = 0x24 ∨ h = 0x25 ∨ h = 0x38 ∨ h = 0x3A then s.objApplyTorus k d i v
  else if d.cls = .b then (s.applyB i k v, 0)
  else if b = O.arraySelftestRun then s.selfTestRun v env.failed env.scale.toNat
  else if b = O.heathCommitStep 0 then (match s.heathCommit i v with | some t => (t, 0) | none => (s, 1))
  else if b = O.sweepStepSet 0 then (s.regWrite (R.sweepStep i) (BitVec.ofNat 64 v), 0)
  else if k = O.thermosPatrolEn then (forEach (upto 8) (fun s t => s.fieldWrite (F.thermosCtl.patrolEn t) v) s, 0)
  else if k = O.thermosPatrolHours then (forEach (upto 8) (fun s t => s.fieldWrite (F.thermosCtl.patrolHours t) v) s, 0)
  else if k = O.logOverflow then (s.overflowClear, 0)
  else if k = O.fenceLevel then
    let (t, refused) := s.fenceLevelWrite v
    (t, if refused then 0xF else 0)
  else if k = O.funcResetReq then s.resetObject v
  else if k = O.faultNRelease then (s.faultRelease, 0)
  else
    match objField d k with
    | some f => (s.fieldWrite f v, 0)
    | none => (s.setObj k v, 0)

/-- Put an entry into a list of waiting values, in the place of an earlier one. -/
def putWaiting (l : Tab Nat) (k v : Nat) : Tab Nat := Tab.insert k v (Tab.erase l k)

/-- A value is held or staged for the object. -/
def State.objWaits (s : State) (k : Nat) (d : ObjDef) : Bool :=
  let i := (objIdx d k).1
  match d.cls with
  | .b => (s.ctx i).held.any fun e => e.1 == k
  | .s => if d.base = O.resTable 0 then s.obj k != 0 else (s.ctx i).staged.any fun e => e.1 == k
  | _ => false

/-- Stage a class S value: a reservation table goes into its port's inactive bank (Table 11.11). -/
def State.objStage (s : State) (k : Nat) (d : ObjDef) (v : Nat) : State :=
  let i := (objIdx d k).1
  if d.base = O.resTable 0 then
    let b := 1 - s.fld (F.resStatus.active i)
    (s.setBytes (resEntry i b 0) (resBytes (leBytes 4096 v))).setObj k 1
  else s.modCtx i fun x => { x with staged := putWaiting x.staged k v }

/-- No earlier value waits for a context's boundary any longer: the last write counts (R368). -/
def State.objUnhold (s : State) (k : Nat) (d : ObjDef) : State :=
  if d.cls = .b then s.modCtx (objIdx d k).1 fun x => { x with held := Tab.erase x.held k } else s

/-- A value that may take effect does so, or is held or staged (R376). -/
def State.objEnter (s : State) (sn k : Nat) (d : ObjDef) (v : Nat) (env : Around) : State × Nat :=
  let i := (objIdx d k).1
  if d.cls = .b ∧ (s.ctx i).running then (s.modCtx i fun x => { x with held := putWaiting x.held k v }, 0x40)
  else if d.cls = .s then (s.objStage k d v, 0x80)
  else (s.objUnhold k d).objApply sn k d v env

/-- A value in its range is refused, or takes effect (R376). -/
def State.objTake (s : State) (sn k : Nat) (d : ObjDef) (v : Nat) (env : Around) : State × Nat :=
  if s.objBusy d (objIdx d k).1 v then (s, 1) else s.objEnter sn k d v env

/-- The stored values of function `f` are written in ascending index order (R378). -/
def State.applyDeferred (s : State) (f : Nat) : State :=
  let mine := s.ronbin.deferred.filter fun e => objFunc (e.1 / 256) == f
  let s := s.modRonbin fun r => { r with deferred := r.deferred.filter fun e => objFunc (e.1 / 256) != f }
  forEach mine (fun s e => match objDefOf e.1 with | some d => (s.objEnter 0 e.1 d e.2 {}).1 | none => s) s

/-- A value for a function that is not ready: what its chapter would refuse, were the values stored before it written, is refused; another is
stored (R378). -/
def State.objDefer (s : State) (sn k : Nat) (d : ObjDef) (v : Nat) (env : Around) : State × Nat :=
  let code := ((s.applyDeferred (objFunc (k / 256))).objTake sn k d v env).2
  if code % 32 = 0 then ((s.objUnhold k d).modRonbin fun r => { r with deferred := putWaiting r.deferred k v }, 0x20) else (s, code)

/-- A write of the value in force changes no value (R377); of the coordinate it says that the coordinate holds, unless the value is only stored as
yet (R378, R399). -/
def State.objSame (s : State) (k : Nat) : State :=
  if k = O.moduleCoordinateSet ∧ ¬ s.strap 3 ∧ (s.objStored k).isNone then { s with coordKnown := true } else s

/-- The write of a value of the right type (R376 to R378). -/
def State.objPut (s : State) (sn k : Nat) (d : ObjDef) (v : Nat) (env : Around) : State × Nat :=
  if d.access = .rw ∧ ¬ s.objWaits k d ∧ s.objForce sn k d = v then (s.objSame k, 0)
  else if ¬ (rangeHolds d v ∧ s.rangeMore d (objIdx d k).1 v) then (s, 7)
  else if d.access = .rw ∧ ¬ s.funcUp (objFunc (k / 256)) then s.objDefer sn k d v env
  else s.objTake sn k d v env

/-! ### Requests -/

/-- A write is expert (R374). -/
def expertIndex (index : Nat) : Bool := 0x3000 ≤ index && index ≤ 0x49FF

/-- The checks of a write before its value: the object, or the result code (R374, R375, R380). `n` is the length of its value. -/
def State.writeCheck (s : State) (sn k type n : Nat) : Nat ⊕ ObjDef :=
  if k % 256 = 0 ∧ (s.objLookup k matches .inl 3) then .inl 4
  else
    match s.objLookup k with
    | .inl code => .inl code
    | .inr d =>
      if d.access = .ro ∨ d.access = .const then .inl 4
      else if type ≠ typeCode d.type ∨ n ≠ objLen d then .inl 6
      else if expertIndex (k / 256) ∧ (s.session sn).level = 0 then .inl 8
      else .inr d

/-- A write of one item: the state and the result byte. -/
def State.objWrite (s : State) (sn k type : Nat) (raw : List Byte) (env : Around) : State × Nat :=
  match s.writeCheck sn k type raw.length with
  | .inl code => (s, code)
  | .inr d => s.objPut sn k d (leNat raw) env

/-- A read: result code, type and value. `long` admits a value that `READ` cannot carry. -/
def State.objGet (s : State) (sn k : Nat) (long : Bool := false) : (Nat × Nat × List Byte) × State :=
  match s.objLookup k, topSub (k / 256) with
  | .inl 3, some t => if k % 256 = 0 then ((0, 2, leBytes 1 t), s) else ((3, 0, []), s)
  | .inl code, _ => ((code, 0, []), s)
  | .inr d, _ =>
    if d.access = .wo then ((5, typeCode d.type, []), s)
    else if d.access = .ro ∧ ¬ s.funcUp (objFunc (k / 256)) then ((0xA, typeCode d.type, []), s)
    else if ¬ long ∧ 1024 < objLen d then ((0xB, typeCode d.type, []), s)
    else
      let (l, s) := s.objRead sn k d
      ((0, typeCode d.type, l), s)

/-! ### Rows of single objects -/

/-- A write of a numeric object whose key names one, by the management of the module. -/
def State.objSet (s : State) (sn k v : Nat) : State := match objDefOf k with | some d => (s.objPut sn k d v {}).1 | none => s

def execAccessLevelWrite (n : Fin 10) (v : BitVec 8) (s : State) : Result :=
  .next (if n.val < 2 ∨ (s.session n).opened then (s.levelWrite n v.toNat).1 else s)

def execConfigEpochWrite (v : BitVec 32) (s : State) : Result := .next (s.inDict O.configEpoch (s.epochWrite v.toNat))

def execDeferredSettingsApply (f : Fin 16) (s : State) : Result := .next (s.applyDeferred f)

def execRootForceCold (c : Fin 8) (s : State) : Result := .next (s.inDict (O.rootForceCold c) (s.objSet 0 (O.rootForceCold c) 1))
def execRootPrecondEnWrite (c : Fin 8) (v : Bool) (s : State) : Result := .next (s.inDict (O.rootPrecondEn c) (s.objSet 0 (O.rootPrecondEn c) (boolNat v)))

end Sys2Proof.Machine
end

