-- ==== Sys2Proof/Machine/Dop.lean ====
section
/-! DEFINITION. The management protocol: the queue of requests, sessions, duplicates, the operations of Table 14.3, segmented transfers, the
mailbox and event notifications (R362 to R374, R385 to R387). -/

namespace Sys2Proof.Machine

/-! ### Protocol data units (R364) -/

def pduOp (p : List Byte) : Nat := natAt p 1 1
def pduTid (p : List Byte) : Nat := natAt p 2 2
def pduSrc (p : List Byte) : Nat := natAt p 4 1
def pduDst (p : List Byte) : Nat := natAt p 5 1
def pduBodyLen (p : List Byte) : Nat := natAt p 6 2
def pduBody (p : List Byte) : List Byte := (p.drop 8).take (pduBodyLen p)

/-- Does the header check, for a request of a defined operation? A frame may carry padding up to 46 bytes (R363). -/
def Request.headerGood (q : Request) : Bool :=
  let p := q.pdu
  let n := 8 + pduBodyLen p
  natAt p 0 1 == 0x10 && 1 ≤ pduOp p && pduOp p ≤ 9 && pduBodyLen p ≤ 1492
    && (p.length == n || (q.slot.isNone && n ≤ p.length && p.length ≤ 46)) && (q.slot.isSome || pduSrc p ≤ 7)

/-- A PDU (Table 14.2). -/
def pduOf (op tid src dst : Nat) (body : List Byte) : List Byte :=
  leBytes 1 0x10 ++ leBytes 1 op ++ leBytes 2 tid ++ leBytes 1 src ++ leBytes 1 dst ++ leBytes 2 body.length ++ body

/-- A saturating counter of the dictionary. -/
def State.countObj (s : State) (k : Nat) : State := s.setObj k (min (s.obj k + 1) (2 ^ 64 - 1))

/-- A frame leaves, padded to its shortest length (R363). -/
def State.sendDop (s : State) (mac : Nat) (p : List Byte) : State := (s.send (.dop mac Config.mgmtMac.toNat (p ++ List.replicate (46 - p.length) 0))).countObj O.dopTxFrames

/-! ### Responses (R369, R372) -/

def mbxReq (k : Nat) : Nat := 0x0309000800 + 0x2000 * k
def mbxRsp (k : Nat) : Nat := 0x0309001000 + 0x2000 * k

/-- The response to a request, with the request's `TID`. -/
def State.response (s : State) (q : Request) (body : List Byte) : List Byte :=
  let p := q.pdu
  if q.slot.isSome then pduOf (pduOp p % 128 + 128) (pduTid p) 0xFF 0xFF body
  else pduOf (pduOp p % 128 + 128) (pduTid p) s.nodeId (pduSrc p) body

/-- A response is sent, or replaces `MBX_RSP`. -/
def State.sendResponse (s : State) (q : Request) (p : List Byte) : State :=
  match q.slot with
  | some k => ((s.setBytes (mbxRsp k) (p ++ List.replicate (2048 - p.length) 0)).setFld (F.mbxRspLen.val k) p.length).setFld (F.mbxStatus.state k) 2
  | none => s.sendDop q.mac p

/-- The body of a bare result. -/
def bare (code : Nat) : List Byte := leBytes 1 code ++ leBytes 3 0

/-! ### Sessions (R373) -/

/-- The open DOP session of a MAC address. -/
def State.dopSession (s : State) (mac : Nat) : Option Nat := (upto 10).find? fun n => 2 ≤ n && (s.session n).opened && (s.session n).mac == mac

/-- The DOP session a new MAC address takes: a closed one, else the one that has been idle longest. -/
def State.freeSession (s : State) : Nat :=
  match (upto 10).find? fun n => 2 ≤ n && !(s.session n).opened with
  | some n => n
  | none => (upto 10).foldl (fun best n => if 2 ≤ n ∧ (s.session n).used < (s.session best).used then n else best) 2

/-- The session of a request, opened if need be, with its last use. -/
def State.sessionFor (s : State) (q : Request) : Nat × State :=
  let s := s.modRonbin fun r => { r with clock := r.clock + 1 }
  let (n, s) : Nat × State :=
    match q.slot, s.dopSession q.mac with
    | some k, _ => (k.val, s)
    | none, some n => (n, s)
    | none, none => (s.freeSession, s.closeSession s.freeSession)
  (n, s.modSession n fun x => { x with opened := true, mac := q.mac, used := s.ronbin.clock })

/-- The kept response to a `TID` of a DOP session (R369). -/
def State.kept (s : State) (q : Request) : Option (Nat × List Byte) :=
  match q.slot, s.dopSession q.mac with
  | none, some n => ((s.session n).record.find? fun e => e.1 == pduTid q.pdu).map fun e => (n, e.2)
  | _, _ => none

/-- Keep the response to a DOP request, the last 8 of its session; a session the request has closed keeps none. -/
def State.keep (s : State) (q : Request) (p : List Byte) : State :=
  match q.slot, s.dopSession q.mac with
  | none, some n => s.modSession n fun x => { x with record := (x.record ++ [(pduTid q.pdu, p)]).drop (x.record.length - 7) }
  | _, _ => s

def State.popRequest (s : State) : State := s.modRonbin fun r => { r with requests := r.requests.drop 1 }

/-- Requests at the front that no operation serves: a bad PDU is answered `MALFORMED`; responses, and segmented operations sent to all, are
discarded; a duplicate is answered from the record (R364, R365, R369). -/
def State.settleRequests (s : State) : Nat → State
  | 0 => s
  | fuel + 1 =>
    match s.ronbin.requests with
    | [] => s
    | q :: _ =>
      let op := pduOp q.pdu
      if ¬ s.ronbinUp then s
      else if q.slot.isNone ∧ 128 ≤ op then (s.popRequest.countObj O.dopRxErrors).settleRequests fuel
      else if ¬ q.headerGood then
        ((s.popRequest.countObj O.dopRxErrors).sendResponse q (s.response q (bare 0xE))).settleRequests fuel
      else if q.slot.isNone ∧ pduDst q.pdu = 0xFF ∧ 5 ≤ op ∧ op ≤ 7 then (s.popRequest.countObj O.dopRxErrors).settleRequests fuel
      else
        match s.kept q with
        | some e =>
          let s := (s.popRequest.sessionFor q).2.countObj O.dopDuplicates
          (s.sendResponse q e.2).settleRequests fuel
        | none => s

def State.settle (s : State) : State := s.settleRequests s.ronbin.requests.length

/-- A request arrives behind those that wait (R368). -/
def State.addRequest (s : State) (q : Request) : State := (s.modRonbin fun r => { r with requests := r.requests ++ [q] }).settle

/-! ### Arrival (R363, R368) -/

/-- The DOP group address. -/
def dopGroup : BitVec 48 := 0x0300000088B5

/-- A frame of the segment arrives; one with an IEEE 802.1Q tag is discarded (Table 14.1). -/
def State.dopReceive (s : State) (dst src : BitVec 48) (frame : DopFrame) : State :=
  if ¬ s.ronbinUp ∨ ¬ (dst = Config.mgmtMac ∨ dst = dopGroup) then s
  else if frame.tagged then s.countObj O.dopRxErrors
  else if frame.pdu.length < 8 then s.countObj O.dopRxErrors
  else if ¬ (pduDst frame.pdu = s.nodeId ∨ pduDst frame.pdu = 0xFF) then s
  else if 16 ≤ (s.ronbin.requests.filter fun q => q.slot.isNone).length then s.countObj O.dopRxErrors
  else s.addRequest { slot := none, mac := src.toNat, pdu := frame.pdu }

def execDopFrameReceived (dst src : BitVec 48) (frame : DopFrame) (s : State) : Result := .next (s.dopReceive dst src frame)

/-- `MBX_CTL` with `GO` (R372). -/
def State.mbxGo (s : State) (k : Fin 2) : State :=
  let n := s.fld (F.mbxReqLen.val k)
  if s.fld (F.mbxStatus.state k) = 1 then s.setBit (F.mbxStatus.goIgnored k) true
  else if n < 8 ∨ 1500 < n then s.setFld (F.mbxStatus.state k) 3
  else (s.setFld (F.mbxStatus.state k) 1).addRequest { slot := some k, pdu := s.bytes (mbxReq k) n }

def execMbxGo (k : Fin 2) (s : State) : Result := .next (s.mbxGo k)

/-- Close the open transfer of a session. -/
def State.closeTransfer (s : State) (sn : Nat) : State := s.modSession sn fun x => { x with transfer := none }

def execAbortXfer (k : Fin 2) (s : State) : Result := .next (s.closeTransfer k)
def execTransferIdleExpiry (n : Fin 10) (s : State) : Result := .next (s.closeTransfer n)

/-- DOP session `n` + 2 has had no request for `SESSION_IDLE_S`. -/
def execSessionIdleExpiry (n : Fin 8) (s : State) : Result := .next (s.closeSession (n + 2))

/-! ### Service (R365, R368) -/

/-- Serve the request at the front if its operation is `op`: `f` takes the session, the `TID` and the body, and answers the body of the
response, none for a body that does not fit the operation. -/
def State.serveOp (s : State) (op : Nat) (f : State → Nat → Nat → List Byte → Option (List Byte × State)) : State :=
  let s := s.settle
  match s.ronbin.requests with
  | [] => s
  | q :: _ =>
    if ¬ s.ronbinUp ∨ pduOp q.pdu ≠ op then s
    else
      let (sn, s) := s.popRequest.sessionFor q
      let s := s.modRonbin fun r => { r with served := true }
      match f s sn (pduTid q.pdu) (pduBody q.pdu) with
      | none =>
        let s := if q.slot.isNone then s.countObj O.dopRxErrors else s
        let p := s.response q (bare 0xE)
        ((s.sendResponse q p).keep q p).settle
      | some (body, s) =>
        let s := if q.slot.isNone then s.countObj O.dopRxFrames else s
        let p := s.response q body
        ((s.sendResponse q p).keep q p).settle

/-- `INDEX` and `SUB` at offset `o` of a body, as a key. -/
def keyAt (b : List Byte) (o : Nat) : Nat := 256 * natAt b o 2 + natAt b (o + 2) 1

/-- An item (R365). -/
def itemOf (k type : Nat) (l : List Byte) : List Byte := leBytes 2 (k / 256) ++ leBytes 1 k ++ leBytes 1 type ++ leBytes 2 l.length ++ l

/-- The items of a body: key, type and value of each. -/
def itemsOf : Nat → List Byte → Option (List (Nat × Nat × List Byte))
  | 0, [] => some []
  | 0, _ => none
  | n + 1, l =>
    let len := natAt l 4 2
    let v := (l.drop 6).take len
    if l.length < 6 ∨ v.length ≠ len then none
    else (itemsOf n (l.drop (6 + len))).map fun r => (keyAt l 0, natAt l 3 1, v) :: r

/-- The code of the first entry of a list that failed, else 0 (R366). -/
def firstFailure (codes : List Nat) : Nat := ((codes.find? fun c => c % 32 != 0).getD 0) % 32

def State.opRead (s : State) (sn : Nat) (b : List Byte) : Option (List Byte × State) :=
  if b.length ≠ 4 then none
  else
    let ((code, type, l), s) := s.objGet sn (keyAt b 0)
    some (leBytes 1 code ++ leBytes 1 0 ++ itemOf (keyAt b 0) type l, s)

def execRead (s : State) : Result := .next (s.serveOp 1 fun s sn _ b => s.opRead sn b)

def State.opWrite (s : State) (env : Around) (sn : Nat) (b : List Byte) : Option (List Byte × State) :=
  match itemsOf 1 b with
  | some [(k, type, v)] =>
    let (s, code) := if 1024 < v.length then (s, 0xB) else s.objWrite sn k type v env
    some (bare code, s)
  | _ => none

def execWrite (env : Around) (s : State) : Result := .next (s.serveOp 2 fun s sn _ b => s.opWrite env sn b)

/-- The entries of a `READ_LIST`, behind `sofar` bytes of the response's body; an entry that would overrun the body fails with
`USE_SEGMENTED`. -/
def State.readEntries (s : State) (sn sofar : Nat) : List Nat → (List Nat × List Byte) × State
  | [] => (([], []), s)
  | k :: rest =>
    let ((code, type, l), s) := s.objGet sn k
    let (code, l) := if 1492 < sofar + 7 + l.length then (0xB, []) else (code, l)
    let e := leBytes 1 code ++ itemOf k type l
    let ((cs, bs), s) := s.readEntries sn (sofar + e.length) rest
    ((code :: cs, e ++ bs), s)

def State.opReadList (s : State) (sn : Nat) (b : List Byte) : Option (List Byte × State) :=
  let n := natAt b 0 1
  if n = 0 ∨ 64 < n ∨ b.length ≠ 4 + 4 * n then none
  else
    let ((codes, l), s) := s.readEntries sn 4 ((upto n).map fun i => keyAt b (4 + 4 * i))
    some (leBytes 1 (firstFailure codes) ++ leBytes 1 n ++ leBytes 2 0 ++ l, s)

def execReadList (s : State) : Result := .next (s.serveOp 3 fun s sn _ b => s.opReadList sn b)

/-- The items of a `WRITE_LIST`, in order, each by itself. -/
def State.writeItems (s : State) (env : Around) (sn : Nat) : List (Nat × Nat × List Byte) → List Nat × State
  | [] => ([], s)
  | (k, type, v) :: rest =>
    let (s, code) := if 1024 < v.length then (s, 0xB) else s.objWrite sn k type v env
    let (codes, s) := s.writeItems env sn rest
    (code :: codes, s)

def State.opWriteList (s : State) (env : Around) (sn : Nat) (b : List Byte) : Option (List Byte × State) :=
  let n := natAt b 0 1
  match (if n = 0 then none else itemsOf n (b.drop 4)) with
  | some l =>
    let (codes, s) := s.writeItems env sn l
    some (leBytes 1 (firstFailure codes) ++ leBytes 1 n ++ leBytes 2 0 ++ codes.flatMap (leBytes 1), s)
  | none => none

def execWriteList (env : Around) (s : State) : Result := .next (s.serveOp 4 fun s sn _ b => s.opWriteList env sn b)

/-! ### Segmented transfers (R370) -/

/-- No transfer may be opened for a session: it has one, or the module holds four. -/
def State.transfersFull (s : State) (sn : Nat) : Bool :=
  (s.session sn).transfer.isSome || 4 ≤ ((upto 10).filter fun n => (s.session n).transfer.isSome).length

def State.openTransfer (s : State) (sn : Nat) (t : Transfer) : State := s.modSession sn fun x => { x with transfer := some t }

def State.opBlobRead (s : State) (sn tid : Nat) (b : List Byte) : Option (List Byte × State) :=
  if b.length ≠ 4 then none
  else
    let k := keyAt b 0
    let ((code, type, l), t) := s.objGet sn k true
    let code := if code = 0 ∧ type ≠ typeCode .blob then 6 else if code = 0 ∧ s.transfersFull sn then 0xD else code
    if code ≠ 0 then some (bare code ++ leBytes 8 0, s)
    else
      let crc := (crc32c l).toNat
      some (bare 0 ++ leBytes 4 l.length ++ leBytes 4 crc,
        t.openTransfer sn { xid := tid, key := k, write := false, total := l.length, crc := crc, data := l })

def execBlobRead (s : State) : Result := .next (s.serveOp 5 fun s sn tid b => s.opBlobRead sn tid b)

def State.opBlobWrite (s : State) (sn tid : Nat) (b : List Byte) : Option (List Byte × State) :=
  if b.length ≠ 12 then none
  else
    let k := keyAt b 0
    match s.writeCheck sn k (typeCode .blob) (natAt b 4 4) with
    | .inl code => some (bare code, s)
    | .inr _ =>
      if s.transfersFull sn then some (bare 0xD, s)
      else some (bare 0, s.openTransfer sn { xid := tid, key := k, write := true, total := natAt b 4 4, crc := natAt b 8 4 })

def execBlobWrite (s : State) : Result := .next (s.serveOp 6 fun s sn tid b => s.opBlobWrite sn tid b)

/-- The result, and `NEXT`. -/
def segBody (code next : Nat) : List Byte := leBytes 1 code ++ leBytes 1 0 ++ leBytes 2 next

/-- A segment of a write; the last one applies the value. -/
def State.segmentIn (s : State) (sn : Nat) (t : Transfer) (seq : Nat) (data : List Byte) : List Byte × State :=
  let have_ := t.data.length
  let fits := 1024 * seq == have_ && data.length == min 1024 (t.total - have_)
  let l := if fits then t.data ++ data else t.data
  let next := (l.length + 1023) / 1024
  if l.length < t.total then (segBody 0 next, s.openTransfer sn { t with data := l })
  else
    let s := s.closeTransfer sn
    if (crc32c l).toNat ≠ t.crc then (segBody 0xC next, s)
    else
      let (s, code) := s.objWrite sn t.key (typeCode .blob) l {}
      (segBody code next, s)

/-- A segment of a read. The spec does not say what `NEXT` holds in its response: a free value. -/
def State.segmentOut (s : State) (t : Transfer) (seq : Nat) : List Byte × State :=
  let (w, s) := s.free
  let l := (t.data.drop (1024 * seq)).take 1024
  if l = [] then (segBody 0xC w.toNat ++ leBytes 4 0, s) else (segBody 0 w.toNat ++ leBytes 2 l.length ++ leBytes 2 0 ++ l, s)

def State.opSegment (s : State) (sn : Nat) (b : List Byte) : Option (List Byte × State) :=
  if b.length < 8 ∨ b.length ≠ 8 + natAt b 4 2 then none
  else
    match (s.session sn).transfer with
    | some t =>
      if t.xid ≠ natAt b 0 2 then some (segBody 0xC 0, s)
      else if t.write then some (s.segmentIn sn t (natAt b 2 2) (b.drop 8))
      else some (s.segmentOut t (natAt b 2 2))
    | none => some (segBody 0xC 0, s)

def execSegment (s : State) : Result := .next (s.serveOp 7 fun s sn _ b => s.opSegment sn b)

def State.opAbort (s : State) (sn : Nat) (b : List Byte) : Option (List Byte × State) :=
  if b.length ≠ 2 then none
  else
    match (s.session sn).transfer with
    | some t => if t.xid = natAt b 0 2 then some (bare 0, s.closeTransfer sn) else some (bare 0xC, s)
    | none => some (bare 0xC, s)

def execAbort (s : State) : Result := .next (s.serveOp 8 fun s sn _ b => s.opAbort sn b)

/-- `RESET`: answered first; the reset begins at `RESET_COMMAND_START` (R387). -/
def State.opReset (s : State) (b : List Byte) : Option (List Byte × State) :=
  if b.length ≠ 4 then none
  else
    let kind := natAt b 0 1
    if kind = 1 ∨ kind = 2 then some (bare 0, s.modRonbin fun r => { r with resetKind := kind }) else some (bare 7, s)

def execReset (s : State) : Result := .next (s.serveOp 9 fun s _ _ b => s.opReset b)

/-! ### Event notifications (R385) -/

/-- The oldest notification is sent, unless nobody subscribes any more. The spec does not say which node `DST_NODE` names: a free value. -/
def State.sendNotice (s : State) : State :=
  match s.notices with
  | [] => s
  | e :: rest =>
    if ¬ s.ronbinUp then s
    else
      let s := { s with notices := rest }
      let mac := s.obj O.evtSubMac
      if mac = 0 then s
      else
        let (w, s) := s.free
        let tid := s.ronbin.eventTid
        let s := s.modRonbin fun r => { r with eventTid := (tid + 1) % 2 ^ 16 }
        s.sendDop mac (pduOf 0x0A tid s.nodeId w.toNat (leBytes 4 e.seq ++ leBytes 4 0 ++ e.entry.entry))

def execEventNotificationSend (s : State) : Result := .next s.sendNotice

end Sys2Proof.Machine
end

