-- ==== Sys2Proof/Machine/Bus.lean ====
section
/-! DEFINITION. Physical accesses by the host through BAR2 and by firmware cores of other modules, register writes by their address,
configuration requests and completion timeouts (R12, R32, R60 to R69, R76, R81, R316 to R319, R332, R371, R391, R427, R430). -/

namespace Sys2Proof.Machine

/-! ### What lies at an offset (Tables 2.1, 3.2, 3.3, 14.6, 16.3) -/

/-- What an 8-byte word of the local map is to the host and the firmware cores. -/
inductive Target
  /-- Meadow, Thermos, a counter or a payload slot -/
  | data
  /-- scratch of a root engine, a reservation table bank, the firmware SRAM, a mailbox PDU -/
  | store
  | reg
  | owners
  | slot (e : Nat) (hist : Bool)
  /-- reads 0, writes ignored (R371) -/
  | zero
  | nothing
  deriving DecidableEq, Repr

def regTarget (off : Nat) : Target := if (regSpecOf (8 * (off / 8))).isSome then .reg else .nothing

/-- The Ronbin mailbox block; the rest of it reads 0. -/
def mbxTarget (h off : Nat) : Target :=
  if h < 0x4000 ∧ 0x800 ≤ h % 0x2000 ∧ h % 0x2000 < 0x1800 then .store
  else if (regSpecOf (8 * (off / 8))).isSome then .reg
  else .zero

def targetOf (off : Nat) : Target :=
  match placeOf off with
  | .meadow _ => .data
  | .thermos _ _ => .data
  | .control _ o => if isCounterOff o ∨ isPayloadOff o then .data else if 0x840 ≤ o ∧ o < 0x880 then .owners else regTarget off
  | .root _ o => if 0x800000 ≤ o ∧ o < 0xC00000 then .store else if o < 0x10000 then regTarget off else .nothing
  | .hub h =>
    if 0x1100000 ≤ h ∧ h < 0x1110000 then .store
    else if 0x3001000 ≤ h ∧ h < 0x3005000 then .slot ((h - 0x3001000) / 64) false
    else if 0x3008000 ≤ h ∧ h < 0x3009000 then .slot ((h - 0x3008000) / 64) true
    else if 0x5400000 ≤ h ∧ h < 0x5800000 then .store
    else if 0x9000000 ≤ h ∧ h < 0xA000000 then mbxTarget (h - 0x9000000) off
    else regTarget off
  | .nowhere => .nothing

/-- Does the block at an offset answer (R69, R391, R408, R410)? -/
def State.busReady (s : State) (off : Nat) : Bool :=
  match placeOf off with
  | .hub h =>
    match h / 0x1000000 with
    | 5 => s.bring.step == 4 && !s.bring.warm && !s.bring.fwClosed
    | 6 => (s.reg R.funcReady).getLsbD 9
    | 7 => (s.fld F.unitReady.contexts).testBit (h % 0x1000000 / 0x10000)
    | 8 => (s.fld F.unitReady.thermos).testBit (h % 0x1000000 / 0x10000)
    | _ => true
  | p => s.placeReady p

/-! ### Reads -/

/-- A failing read of the firmware SRAM: a shared word is module-fatal (R430). -/
def State.noteBadSram (s : State) (off : Nat) : State :=
  let s := s.bump F.fwSramEcc.uncorr
  if (privateOf (off - fwSram)).isSome then s else s.raise 0x3006 5 0x07 0xFF (off - fwSram)

/-- Read `n` bytes of one 8-byte word. -/
def State.wordRead (s : State) (off n : Nat) : Option (List Byte) × State :=
  let i := off % 8
  if ¬ s.busReady off then (none, s)
  else
    match targetOf off with
    | .data => (s.readData off n, s.noteBadRead off n)
    | .store =>
      if (s.badIn off n).isSome then (none, s.noteBadSram off)
      else if isBolmi off ∧ (upto 6).any s.coreRuns then
        let (w, s) := s.free
        (some (leBytes n w.toNat), s)
      else (some (s.bytes off n), s)
    | .reg =>
      let (w, s) := s.regRead (8 * (off / 8))
      (some (((leBytes 8 w.toNat).drop i).take n), s)
    | .owners => (some ((upto n).map fun j => (s.reg (off + j)).setWidth 8), s)
    | .slot e hist =>
      let l := (if hist then (Tab.get (fun _ => {}) s.hist e : LogSlot) else s.logSlot e).bytes
      (some ((l.drop (off % 64)).take n), s)
    | .zero => (some (List.replicate n 0), s)
    | .nothing => (none, s)

/-- Read `n` bytes word by word: one word that fails makes the whole read fail. -/
def State.wordsRead (s : State) : Nat → Nat → Nat → Option (List Byte) × State
  | 0, _, _ => (some [], s)
  | fuel + 1, off, n =>
    if n = 0 then (some [], s)
    else
      let k := min n (8 - off % 8)
      let (a, s) := s.wordRead off k
      let (b, s) := s.wordsRead fuel (off + k) (n - k)
      (match a, b with | some x, some y => some (x ++ y) | _, _ => none, s)

/-- A physical read of `n` bytes: none is an error response. -/
def State.localRead (s : State) (off n : Nat) : Option (List Byte) × State :=
  match placeOf off with
  | .meadow _ => (s.readData off n, s.noteBadRead off n)
  | .thermos _ _ => (s.readData off n, s.noteBadRead off n)
  | _ => s.wordsRead (n + 1) off n

/-! ### Writes -/

/-- `MBX_CTL`: `ABORT_XFER`, then `GO` (R372). -/
def State.mbxCtlWrite (s : State) (k : Fin 2) (v : Word) : State :=
  let s := if v.getLsbD 1 then s.closeTransfer k else s
  if v.getLsbD 0 then s.mbxGo k else s

/-- Is slot `k` busy? -/
def State.mbxBusy (s : State) (k : Nat) : Bool := s.fld (F.mbxStatus.state k) == 1

/-- A write of any register but `HOST_READY`. -/
def State.anyWrite (s : State) (k : Nat) (v : Word) : State :=
  if k = R.mbxCtl 0 then s.mbxCtlWrite 0 v
  else if k = R.mbxCtl 1 then s.mbxCtlWrite 1 v
  else if (k = R.mbxReqLen 0 ∧ s.mbxBusy 0) ∨ (k = R.mbxReqLen 1 ∧ s.mbxBusy 1) then s
  else s.regWrite k v

/-- The word a write of some of its bytes carries to a register: its other bytes as they are stored. -/
def State.mergedWord (s : State) (k i : Nat) (bs : List Byte) : Word :=
  let keep : Word := match regSpecOf k with | some r => s.reg k &&& r.rw | none => 0
  mergeWord keep i bs

/-- May a word of plain storage be written: not the bank in use of a port (R288), a response, or the request of a busy slot (R372)? -/
def State.storeOpen (s : State) (off : Nat) : Bool :=
  if inResTable off then
    (off - 0x0301100000) % 0x2000 / 0x1000 != s.fld (F.resStatus.active ((off - 0x0301100000) / 0x2000))
  else if 0x0309000000 ≤ off ∧ off < 0x0309004000 then
    off % 0x2000 < 0x1000 && !s.mbxBusy ((off - 0x0309000000) / 0x2000)
  else true

/-- Write some bytes of one 8-byte word: false is an error response. -/
def State.wordWrite (s : State) (off : Nat) (bs : List Byte) : State × Bool :=
  if ¬ s.busReady off then (s, false)
  else
    match targetOf off with
    | .data => s.writeData off bs
    | .store => (if s.storeOpen off then (s.setBytes off (if inResTable off then resBytes bs else bs)).heal off bs.length else s, true)
    | .reg => (s.anyWrite (8 * (off / 8)) (s.mergedWord (8 * (off / 8)) (off % 8) bs), true)
    | .owners => (forEach (upto bs.length) (fun s j => s.setReg (off + j) ((bs.getD j 0).setWidth 64 &&& 7)) s, true)
    | .slot _ _ => (s, true)
    | .zero => (s, true)
    | .nothing => (s, false)

/-- Write bytes word by word; words that fail are left out, and the write as a whole fails. -/
def State.wordsWrite (s : State) : Nat → Nat → List Byte → State × Bool
  | 0, _, _ => (s, true)
  | fuel + 1, off, bs =>
    if bs = [] then (s, true)
    else
      let k := 8 - off % 8
      let (s, a) := s.wordWrite off (bs.take k)
      let (s, b) := s.wordsWrite fuel (off + k) (bs.drop k)
      (s, a && b)

/-- A physical write: false is an error response. -/
def State.localWrite (s : State) (off : Nat) (bs : List Byte) : State × Bool :=
  match placeOf off with
  | .meadow _ => s.writeData off bs
  | .thermos _ _ => s.writeData off bs
  | _ => s.wordsWrite (bs.length + 1) off bs

/-! ### BAR2 (R81, Table 12.6) -/

/-- The local offset a BAR2 offset shows. -/
def State.bar2Offset (s : State) (off : Nat) : Nat :=
  let n := s.fld F.bar2Sel.sel
  if n = 0 then off
  else if n ≤ 8 then 0x4000000000 + 2 ^ 36 * (n - 1) + off
  else 0x10000000000 + 2 ^ 36 * (n - 9) + off

/-- A read completes with Unsupported Request while bit 6 of `FUNC_READY` is clear (R391), and when it fails (Tables 3.9, 12.8). -/
def State.bar2Read (s : State) (off n : Nat) : State :=
  if ¬ s.hostUp then ((s.send .readFails).errSummary 1).aerUnsupported
  else
    match s.localRead (s.bar2Offset off) n with
    | (some l, s) => s.send (.readData l)
    | (none, s) => ((s.send .readFails).errSummary 1).aerUnsupported

def execBar2Read (off : BitVec 36) (n : Fin 4097) (s : State) : Result := .next (s.bar2Read off.toNat n)

def State.bar2Write (s : State) (off : Nat) (bs : List Byte) : State :=
  if ¬ s.hostUp then (s.bumpReg R.bar2Discards).errSummary 0
  else
    match s.localWrite (s.bar2Offset off) bs with
    | (s, true) => s
    | (s, false) => (s.bumpReg R.bar2Discards).errSummary 0

def execBar2Write (off : BitVec 36) (data : List Byte) (s : State) : Result := .next (s.bar2Write off.toNat data)

/-! ### Firmware accesses from other modules (R76) -/

/-- A firmware access is carried out at its physical offset and answered. -/
def State.firmwareAccess (s : State) (a : Arrived) : State :=
  if a.kind = 6 then
    match s.localRead a.offset a.len with
    | (some l, s) => s.answerTo a 0x02 0 l
    | (none, s) => s.answerTo a 0x0C 0 []
  else
    match s.localWrite a.offset a.data with
    | (s, true) => (s.judgeArrival a).answerTo a 0x0B 0 []
    | (s, false) => s.answerTo a 0x0C 0 []

def execFirmwareAccessArrival (k : Nat) (s : State) : Result := .next (s.onArrived k [6, 7] fun s a => s.firmwareAccess a)

/-! ### Registers by address -/

/-- A word of the tables and request buffers that stand among the registers: reservation tables, mailbox requests, slot owners (R288, R371). -/
def isTableWord (k : Nat) : Bool :=
  k % 8 == 0 && match targetOf k with
  | .store => true
  | .owners => true
  | _ => false

/-- A write of a whole register by the host or a firmware core: BAR0 only while bit 6 of `FUNC_READY` is set (R391), others while their block
answers. -/
def execRegisterWrite (k : Nat) (v : Word) (s : State) : Result :=
  if (regSpecOf k).isNone then .next (if isTableWord k then (s.wordWrite k (leBytes 8 v.toNat)).1 else s)
  else if ¬ (if 0x20000000000 ≤ k ∧ k < 0x20100000000 then s.hostUp else 0x20000000000 ≤ k || s.busReady k) then .next s
  else if k = R.hostReady then s.hostReadyWrite v
  else .next (s.anyWrite k v)

/-! ### PCI Express -/

/-- Configuration requests are answered while PERST# is high, from step 4 on, with which the host link starts (R318, R394). -/
def execConfigurationRequest (q : ConfigReq) (s : State) : Result :=
  .next (if s.bring.perst && s.bring.step == 4 then s.configRequest q else s)

/-- A read of host memory without a completion is a failed read (R332). -/
def State.readTimesOut (s : State) : HostRead → State
  | .chunk r k n => s.chunkArrival r k n none
  | .slow c i g => s.slowArrival c i g none
  | .image => s.imageRead none

def State.completionTimeout (s : State) (q : HostRead) : State := s.aerTimeout.readTimesOut q

def execCompletionTimeout (q : HostRead) (s : State) : Result := .next (s.completionTimeout q)

end Sys2Proof.Machine
end

