-- ==== Sys2Proof/Machine/Dispatch.lean ====
section
/-! DEFINITION. One arm per command. -/

namespace Sys2Proof.Machine

def exec (i : Instr) (s : State) : Host.Outcome State Fault Refusal :=
  match i with
  | .load t n w => Sys2Proof.Machine.execLoad t n w s
  | .load2d t n w => Sys2Proof.Machine.execLoad2d t n w s
  | .loadPanel t n w => Sys2Proof.Machine.execLoadPanel t n w s
  | .store t n w => Sys2Proof.Machine.execStore t n w s
  | .store2d t n w => Sys2Proof.Machine.execStore2d t n w s
  | .fill t n w => Sys2Proof.Machine.execFill t n w s
  | .gather t n w => Sys2Proof.Machine.execGather t n w s
  | .scatter t n w => Sys2Proof.Machine.execScatter t n w s
  | .scatterAdd t n w => Sys2Proof.Machine.execScatterAdd t n w s
  | .mmaStart t n w => Sys2Proof.Machine.execMmaStart t n w s
  | .mmaStep t n w => Sys2Proof.Machine.execMmaStep t n w s
  | .mmaUnload t n w => Sys2Proof.Machine.execMmaUnload t n w s
  | .copy t n w => Sys2Proof.Machine.execCopy t n w s
  | .add t n w => Sys2Proof.Machine.execAdd t n w s
  | .sub t n w => Sys2Proof.Machine.execSub t n w s
  | .mul t n w => Sys2Proof.Machine.execMul t n w s
  | .fma t n w => Sys2Proof.Machine.execFma t n w s
  | .axpby t n w => Sys2Proof.Machine.execAxpby t n w s
  | .scale t n w => Sys2Proof.Machine.execScale t n w s
  | .max t n w => Sys2Proof.Machine.execMax t n w s
  | .min t n w => Sys2Proof.Machine.execMin t n w s
  | .abs t n w => Sys2Proof.Machine.execAbs t n w s
  | .sign t n w => Sys2Proof.Machine.execSign t n w s
  | .relu t n w => Sys2Proof.Machine.execRelu t n w s
  | .leakyRelu t n w => Sys2Proof.Machine.execLeakyRelu t n w s
  | .tanh t n w => Sys2Proof.Machine.execTanh t n w s
  | .sigmoid t n w => Sys2Proof.Machine.execSigmoid t n w s
  | .elu t n w => Sys2Proof.Machine.execElu t n w s
  | .heathGate t n w => Sys2Proof.Machine.execHeathGate t n w s
  | .gelu t n w => Sys2Proof.Machine.execGelu t n w s
  | .silu t n w => Sys2Proof.Machine.execSilu t n w s
  | .exp t n w => Sys2Proof.Machine.execExp t n w s
  | .recip t n w => Sys2Proof.Machine.execRecip t n w s
  | .rsqrt t n w => Sys2Proof.Machine.execRsqrt t n w s
  | .rowMax t n w => Sys2Proof.Machine.execRowMax t n w s
  | .rowSum t n w => Sys2Proof.Machine.execRowSum t n w s
  | .rowSumsq t n w => Sys2Proof.Machine.execRowSumsq t n w s
  | .deriv t n w => Sys2Proof.Machine.execDeriv t n w s
  | .srBf16 t n w => Sys2Proof.Machine.execSrBf16 t n w s
  | .quant t n w => Sys2Proof.Machine.execQuant t n w s
  | .dequant t n w => Sys2Proof.Machine.execDequant t n w s
  | .select t n w => Sys2Proof.Machine.execSelect t n w s
  | .check t n w => Sys2Proof.Machine.execCheck t n w s
  | .signalAdd t n w => Sys2Proof.Machine.execSignalAdd t n w s
  | .signalSet t n w => Sys2Proof.Machine.execSignalSet t n w s
  | .signalMax t n w => Sys2Proof.Machine.execSignalMax t n w s
  | .signalMin t n w => Sys2Proof.Machine.execSignalMin t n w s
  | .signalOr t n w => Sys2Proof.Machine.execSignalOr t n w s
  | .signalAnd t n w => Sys2Proof.Machine.execSignalAnd t n w s
  | .signalArm t n w => Sys2Proof.Machine.execSignalArm t n w s
  | .wait t n w => Sys2Proof.Machine.execWait t n w s
  | .waitTimeout t n => Sys2Proof.Machine.execWaitTimeout t n s
  | .watchRetry t n => Sys2Proof.Machine.execWatchRetry t n s
  | .arrive t n w => Sys2Proof.Machine.execArrive t n w s
  | .fence t n w => Sys2Proof.Machine.execFence t n w s
  | .syncRead t n w => Sys2Proof.Machine.execSyncRead t n w s
  | .loop t n w => Sys2Proof.Machine.execLoop t n w s
  | .branch t n w => Sys2Proof.Machine.execBranch t n w s
  | .jump t n w => Sys2Proof.Machine.execJump t n w s
  | .call t n w => Sys2Proof.Machine.execCall t n w s
  | .ret t n w => Sys2Proof.Machine.execRet t n w s
  | .halt t n w => Sys2Proof.Machine.execHalt t n w s
  | .yield t n w => Sys2Proof.Machine.execYield t n w s
  | .nop t n w => Sys2Proof.Machine.execNop t n w s
  | .ixSet t n w => Sys2Proof.Machine.execIxSet t n w s
  | .ixAdd t n w => Sys2Proof.Machine.execIxAdd t n w s
  | .ixLoad t n w => Sys2Proof.Machine.execIxLoad t n w s
  | .push t n w => Sys2Proof.Machine.execPush t n w s
  | .pop t n w => Sys2Proof.Machine.execPop t n w s
  | .time t n w => Sys2Proof.Machine.execTime t n w s
  | .trace t n w => Sys2Proof.Machine.execTrace t n w s
  | .event t n w => Sys2Proof.Machine.execEvent t n w s
  | .asyncDescriptorComplete t n k => Sys2Proof.Machine.execAsyncDescriptorComplete t n k s
  | .arrayPreemptSave t => Sys2Proof.Machine.execArrayPreemptSave t s
  | .arrayRestore t => Sys2Proof.Machine.execArrayRestore t s
  | .arrayClaimDiscard t => Sys2Proof.Machine.execArrayClaimDiscard t s
  | .threadStart t n v => Sys2Proof.Machine.execThreadStart t n v s
  | .threadStop t n v => Sys2Proof.Machine.execThreadStop t n v s
  | .segWrite c k v => Sys2Proof.Machine.execSegWrite c k v s
  | .remoteAccessArrival k => Sys2Proof.Machine.execRemoteAccessArrival k s
  | .remoteSyncOperation k => Sys2Proof.Machine.execRemoteSyncOperation k s
  | .firmwareAccessArrival k => Sys2Proof.Machine.execFirmwareAccessArrival k s
  | .bar2Read off n => Sys2Proof.Machine.execBar2Read off n s
  | .bar2Write off data => Sys2Proof.Machine.execBar2Write off data s
  | .configurationRequest q => Sys2Proof.Machine.execConfigurationRequest q s
  | .hamperCfgWrite c v => Sys2Proof.Machine.execHamperCfgWrite c v s
  | .hamperSpillBaseWrite c v => Sys2Proof.Machine.execHamperSpillBaseWrite c v s
  | .discard c => Sys2Proof.Machine.execDiscard c s
  | .discardComplete c => Sys2Proof.Machine.execDiscardComplete c s
  | .hamperSpillGranule t c => Sys2Proof.Machine.execHamperSpillGranule t c s
  | .prefetchRestore t c => Sys2Proof.Machine.execPrefetchRestore t c s
  | .onDemandRestoreComplete t n => Sys2Proof.Machine.execOnDemandRestoreComplete t n s
  | .rootEnable e => Sys2Proof.Machine.execRootEnable e s
  | .rootDrain e => Sys2Proof.Machine.execRootDrain e s
  | .rootAbandon e c => Sys2Proof.Machine.execRootAbandon e c s
  | .rootQueueTailWrite e v => Sys2Proof.Machine.execRootQueueTailWrite e v s
  | .rootBlockStart e => Sys2Proof.Machine.execRootBlockStart e s
  | .rootCompute e => Sys2Proof.Machine.execRootCompute e s
  | .rootWriteOut e => Sys2Proof.Machine.execRootWriteOut e s
  | .rootBlockComplete e => Sys2Proof.Machine.execRootBlockComplete e s
  | .refreshStart c => Sys2Proof.Machine.execRefreshStart c s
  | .voteArrival c loss grad maps => Sys2Proof.Machine.execVoteArrival c loss grad maps s
  | .voteComplete c v => Sys2Proof.Machine.execVoteComplete c v s
  | .installBarrierComplete c v => Sys2Proof.Machine.execInstallBarrierComplete c v s
  | .sweepStart c => Sys2Proof.Machine.execSweepStart c s
  | .shardSwept c j g rows cols => Sys2Proof.Machine.execShardSwept c j g rows cols s
  | .slowTierDataArrival c j g data => Sys2Proof.Machine.execSlowTierDataArrival c j g data s
  | .slowTierWriteBackComplete c j g ok => Sys2Proof.Machine.execSlowTierWriteBackComplete c j g ok s
  | .digestCompareComplete c j lo hi => Sys2Proof.Machine.execDigestCompareComplete c j lo hi s
  | .bisectionRoundComplete c j differs => Sys2Proof.Machine.execBisectionRoundComplete c j differs s
  | .runReadComplete c j others => Sys2Proof.Machine.execRunReadComplete c j others s
  | .commitArrival c => Sys2Proof.Machine.execCommitArrival c s
  | .commitBarrierComplete c v => Sys2Proof.Machine.execCommitBarrierComplete c v s
  | .queueRebase c => Sys2Proof.Machine.execQueueRebase c s
  | .clearSkew c => Sys2Proof.Machine.execClearSkew c s
  | .sweepStepWrite c v => Sys2Proof.Machine.execSweepStepWrite c v s
  | .heathCommitStep c v => Sys2Proof.Machine.execHeathCommitStep c v s
  | .ctxCutsWrite c v => Sys2Proof.Machine.execCtxCutsWrite c v s
  | .qCfgWrite c k v => Sys2Proof.Machine.execQCfgWrite c k v s
  | .portTrainingStep p whole failed => Sys2Proof.Machine.execPortTrainingStep p whole failed s
  | .trainingLimitExpired p => Sys2Proof.Machine.execTrainingLimitExpired p s
  | .trainingBudgetExpired p => Sys2Proof.Machine.execTrainingBudgetExpired p s
  | .trainingRetry p => Sys2Proof.Machine.execTrainingRetry p s
  | .linkCtlReceived p x => Sys2Proof.Machine.execLinkCtlReceived p x s
  | .laserFailure u w => Sys2Proof.Machine.execLaserFailure u w s
  | .retrain p => Sys2Proof.Machine.execRetrain p s
  | .portEnableWrite p v => Sys2Proof.Machine.execPortEnableWrite p v s
  | .clrCnt p => Sys2Proof.Machine.execClrCnt p s
  | .reinsertArm p v => Sys2Proof.Machine.execReinsertArm p v s
  | .dataFlitReceived p x => Sys2Proof.Machine.execDataFlitReceived p x s
  | .nakReceived p x => Sys2Proof.Machine.execNakReceived p x s
  | .timeFlitReceived p x t => Sys2Proof.Machine.execTimeFlitReceived p x t s
  | .stileNoticeReceived p x => Sys2Proof.Machine.execStileNoticeReceived p x s
  | .codewordUncorrectable p => Sys2Proof.Machine.execCodewordUncorrectable p s
  | .replayTimeout p => Sys2Proof.Machine.execReplayTimeout p s
  | .nakResend p => Sys2Proof.Machine.execNakResend p s
  | .stileClose mask force obj => Sys2Proof.Machine.execStileClose mask force obj s
  | .stileOpen mask => Sys2Proof.Machine.execStileOpen mask s
  | .stileNeighAck mask => Sys2Proof.Machine.execStileNeighAck mask s
  | .stileOpenLapse a => Sys2Proof.Machine.execStileOpenLapse a s
  | .stileMovementComplete a => Sys2Proof.Machine.execStileMovementComplete a s
  | .powerLossStileClose => Sys2Proof.Machine.execPowerLossStileClose s
  | .slotStart p n => Sys2Proof.Machine.execSlotStart p n s
  | .frameStart => Sys2Proof.Machine.execFrameStart s
  | .resSwapFrame p k => Sys2Proof.Machine.execResSwapFrame p k s
  | .admission t n => Sys2Proof.Machine.execAdmission t n s
  | .admissionReenable c => Sys2Proof.Machine.execAdmissionReenable c s
  | .transferArrival k => Sys2Proof.Machine.execTransferArrival k s
  | .completionArrival k => Sys2Proof.Machine.execCompletionArrival k s
  | .errorResponseArrival k => Sys2Proof.Machine.execErrorResponseArrival k s
  | .completionCheckExpired tid => Sys2Proof.Machine.execCompletionCheckExpired tid s
  | .voidGraceExpired tid => Sys2Proof.Machine.execVoidGraceExpired tid s
  | .shardPacketReceived k marks => Sys2Proof.Machine.execShardPacketReceived k marks s
  | .shardRerequestReceived k => Sys2Proof.Machine.execShardRerequestReceived k s
  | .shardPrimaryDeadline tid => Sys2Proof.Machine.execShardPrimaryDeadline tid s
  | .shardLost tid => Sys2Proof.Machine.execShardLost tid s
  | .fcEnableWrite c v => Sys2Proof.Machine.execFcEnableWrite c v s
  | .frameContractJudgement c => Sys2Proof.Machine.execFrameContractJudgement c s
  | .larkSyncExchange p => Sys2Proof.Machine.execLarkSyncExchange p s
  | .parentPortLost => Sys2Proof.Machine.execParentPortLost s
  | .holdoverExpiry => Sys2Proof.Machine.execHoldoverExpiry s
  | .epochEdgeIn => Sys2Proof.Machine.execEpochEdgeIn s
  | .epochPulseOut => Sys2Proof.Machine.execEpochPulseOut s
  | .larkSet v => Sys2Proof.Machine.execLarkSet v s
  | .snapTimeWrite c v => Sys2Proof.Machine.execSnapTimeWrite c v s
  | .snapTimeReached c => Sys2Proof.Machine.execSnapTimeReached c s
  | .snapDrainComplete c => Sys2Proof.Machine.execSnapDrainComplete c s
  | .snapResumeReached c => Sys2Proof.Machine.execSnapResumeReached c s
  | .hostReadyWrite v => Sys2Proof.Machine.execHostReadyWrite v s
  | .bar2SelWrite v => Sys2Proof.Machine.execBar2SelWrite v s
  | .dbCmd r v => Sys2Proof.Machine.execDbCmd r v s
  | .dbCq r v => Sys2Proof.Machine.execDbCq r v s
  | .dbEq r v => Sys2Proof.Machine.execDbEq r v s
  | .ctxStart r lo hi queues => Sys2Proof.Machine.execCtxStart r lo hi queues s
  | .ctxStop r => Sys2Proof.Machine.execCtxStop r s
  | .ctxReset r => Sys2Proof.Machine.execCtxReset r s
  | .abortStep r => Sys2Proof.Machine.execAbortStep r s
  | .intake r hdr heads => Sys2Proof.Machine.execIntake r hdr heads s
  | .intakeChunkArrival r k n data => Sys2Proof.Machine.execIntakeChunkArrival r k n data s
  | .publish r table => Sys2Proof.Machine.execPublish r table s
  | .switchGen r => Sys2Proof.Machine.execSwitchGen r s
  | .ringFence r => Sys2Proof.Machine.execRingFence r s
  | .moduleWarmReset => Sys2Proof.Machine.execModuleWarmReset s
  | .funcReset => Sys2Proof.Machine.execFuncReset s
  | .completionPost r => Sys2Proof.Machine.execCompletionPost r s
  | .interruptHoldoffExpired v => Sys2Proof.Machine.execInterruptHoldoffExpired v s
  | .generationSwitch c => Sys2Proof.Machine.execGenerationSwitch c s
  | .drainingSlotFreed c => Sys2Proof.Machine.execDrainingSlotFreed c s
  | .linkLeavesL0 => Sys2Proof.Machine.execLinkLeavesL0 s
  | .bootLoad => Sys2Proof.Machine.execBootLoad s
  | .bootReload => Sys2Proof.Machine.execBootReload s
  | .bootImageReadComplete image => Sys2Proof.Machine.execBootImageReadComplete image s
  | .coreInitComplete n => Sys2Proof.Machine.execCoreInitComplete n s
  | .watchdogExpiry n => Sys2Proof.Machine.execWatchdogExpiry n s
  | .fatalTrap n => Sys2Proof.Machine.execFatalTrap n s
  | .coreRestart n => Sys2Proof.Machine.execCoreRestart n s
  | .coreRestartRequest n => Sys2Proof.Machine.execCoreRestartRequest n s
  | .coreHold n v => Sys2Proof.Machine.execCoreHold n v s
  | .wdtKick n => Sys2Proof.Machine.execWdtKick n s
  | .fwL3Kick => Sys2Proof.Machine.execFwL3Kick s
  | .level3Expiry => Sys2Proof.Machine.execLevel3Expiry s
  | .consoleVer => Sys2Proof.Machine.execConsoleVer s
  | .consoleCores => Sys2Proof.Machine.execConsoleCores s
  | .consoleReady => Sys2Proof.Machine.execConsoleReady s
  | .consoleLog n => Sys2Proof.Machine.execConsoleLog n s
  | .consoleTraceOn => Sys2Proof.Machine.execConsoleTraceOn s
  | .consoleTraceOff => Sys2Proof.Machine.execConsoleTraceOff s
  | .consoleUnknownLine => Sys2Proof.Machine.execConsoleUnknownLine s
  | .dopFrameReceived dst src frame => Sys2Proof.Machine.execDopFrameReceived dst src frame s
  | .read => Sys2Proof.Machine.execRead s
  | .write env => Sys2Proof.Machine.execWrite env s
  | .readList => Sys2Proof.Machine.execReadList s
  | .writeList env => Sys2Proof.Machine.execWriteList env s
  | .blobRead => Sys2Proof.Machine.execBlobRead s
  | .blobWrite => Sys2Proof.Machine.execBlobWrite s
  | .segment => Sys2Proof.Machine.execSegment s
  | .abort => Sys2Proof.Machine.execAbort s
  | .reset => Sys2Proof.Machine.execReset s
  | .resetCommandStart => Sys2Proof.Machine.execResetCommandStart s
  | .transferIdleExpiry n => Sys2Proof.Machine.execTransferIdleExpiry n s
  | .sessionIdleExpiry n => Sys2Proof.Machine.execSessionIdleExpiry n s
  | .mbxGo k => Sys2Proof.Machine.execMbxGo k s
  | .abortXfer k => Sys2Proof.Machine.execAbortXfer k s
  | .accessLevelWrite n v => Sys2Proof.Machine.execAccessLevelWrite n v s
  | .configEpochWrite v => Sys2Proof.Machine.execConfigEpochWrite v s
  | .deferredSettingsApply f => Sys2Proof.Machine.execDeferredSettingsApply f s
  | .eventNotificationSend => Sys2Proof.Machine.execEventNotificationSend s
  | .arraySelftestRun dies failed scale => Sys2Proof.Machine.execArraySelftestRun dies failed scale s
  | .rootForceCold c => Sys2Proof.Machine.execRootForceCold c s
  | .rootPrecondEnWrite c v => Sys2Proof.Machine.execRootPrecondEnWrite c v s
  | .moduleCoordinateSet v => Sys2Proof.Machine.execModuleCoordinateSet v s
  | .powerOn => Sys2Proof.Machine.execPowerOn s
  | .railOutOfRange aux => Sys2Proof.Machine.execRailOutOfRange aux s
  | .resetNLow => Sys2Proof.Machine.execResetNLow s
  | .resetNRise => Sys2Proof.Machine.execResetNRise s
  | .perstLow => Sys2Proof.Machine.execPerstLow s
  | .perstRise => Sys2Proof.Machine.execPerstRise s
  | .warmReq => Sys2Proof.Machine.execWarmReq s
  | .coldReset a b cool files => Sys2Proof.Machine.execColdReset a b cool files s
  | .internalResetPulseEnd => Sys2Proof.Machine.execInternalResetPulseEnd s
  | .internalRelease => Sys2Proof.Machine.execInternalRelease s
  | .strapLatch pins files => Sys2Proof.Machine.execStrapLatch pins files s
  | .optionLoadingComplete => Sys2Proof.Machine.execOptionLoadingComplete s
  | .linkDomainBringup ports => Sys2Proof.Machine.execLinkDomainBringup ports s
  | .hbmTraining st ok => Sys2Proof.Machine.execHbmTraining st ok s
  | .hbmScrubComplete st => Sys2Proof.Machine.execHbmScrubComplete st s
  | .bootRomChecks => Sys2Proof.Machine.execBootRomChecks s
  | .tilesBringup failed scale => Sys2Proof.Machine.execTilesBringup failed scale s
  | .pllLockTimeout => Sys2Proof.Machine.execPllLockTimeout s
  | .phaseBTimeLimit => Sys2Proof.Machine.execPhaseBTimeLimit s
  | .phaseBEnd => Sys2Proof.Machine.execPhaseBEnd s
  | .aliveToggle => Sys2Proof.Machine.execAliveToggle s
  | .stopNLow => Sys2Proof.Machine.execStopNLow s
  | .stopNHigh => Sys2Proof.Machine.execStopNHigh s
  | .faultNRelease => Sys2Proof.Machine.execFaultNRelease s
  | .warmReset => Sys2Proof.Machine.execWarmReset s
  | .frstCtlGo func unit => Sys2Proof.Machine.execFrstCtlGo func unit s
  | .funcResetReq v => Sys2Proof.Machine.execFuncResetReq v s
  | .drainIdleReached func unit => Sys2Proof.Machine.execDrainIdleReached func unit s
  | .drainTimeoutExpiry func unit => Sys2Proof.Machine.execDrainTimeoutExpiry func unit s
  | .functionResetReady func unit failed scale => Sys2Proof.Machine.execFunctionResetReady func unit failed scale s
  | .logTake => Sys2Proof.Machine.execLogTake s
  | .logRetire => Sys2Proof.Machine.execLogRetire s
  | .logRequeue => Sys2Proof.Machine.execLogRequeue s
  | .logRaise a b => Sys2Proof.Machine.execLogRaise a b s
  | .fenceSet => Sys2Proof.Machine.execFenceSet s
  | .fenceBypass => Sys2Proof.Machine.execFenceBypass s
  | .fenceClear => Sys2Proof.Machine.execFenceClear s
  | .fenceLevelWrite v => Sys2Proof.Machine.execFenceLevelWrite v s
  | .logOverflowClear => Sys2Proof.Machine.execLogOverflowClear s
  | .eccCorrection off => Sys2Proof.Machine.execEccCorrection off s
  | .eccUncorrectable off => Sys2Proof.Machine.execEccUncorrectable off s
  | .patrolRead st corrected => Sys2Proof.Machine.execPatrolRead st corrected s
  | .throttleNLow => Sys2Proof.Machine.execThrottleNLow s
  | .throttleNHigh => Sys2Proof.Machine.execThrottleNHigh s
  | .throttleCauseRise b => Sys2Proof.Machine.execThrottleCauseRise b s
  | .throttleCauseEscalate b => Sys2Proof.Machine.execThrottleCauseEscalate b s
  | .throttleStepDown b => Sys2Proof.Machine.execThrottleStepDown b s
  | .throttleForceWrite v => Sys2Proof.Machine.execThrottleForceWrite v s
  | .emergencyBegin b sensor => Sys2Proof.Machine.execEmergencyBegin b sensor s
  | .emergencyClear left => Sys2Proof.Machine.execEmergencyClear left s
  | .emergencyShutdownExpiry => Sys2Proof.Machine.execEmergencyShutdownExpiry s
  | .shutdownThreshold sensor => Sys2Proof.Machine.execShutdownThreshold sensor s
  | .quietSecondTick => Sys2Proof.Machine.execQuietSecondTick s
  | .peakPRead => Sys2Proof.Machine.execPeakPRead s
  | .ronbinBoot a b files => Sys2Proof.Machine.execRonbinBoot a b files s
  | .imgStageBegin v => Sys2Proof.Machine.execImgStageBegin v s
  | .bankEraseComplete => Sys2Proof.Machine.execBankEraseComplete s
  | .imgPieceData num crc data => Sys2Proof.Machine.execImgPieceData num crc data s
  | .pieceProgramComplete => Sys2Proof.Machine.execPieceProgramComplete s
  | .imgStageAbort => Sys2Proof.Machine.execImgStageAbort s
  | .imgVerify => Sys2Proof.Machine.execImgVerify s
  | .calibrationEraseComplete => Sys2Proof.Machine.execCalibrationEraseComplete s
  | .imgCardScan files => Sys2Proof.Machine.execImgCardScan files s
  | .cardRemoved => Sys2Proof.Machine.execCardRemoved s
  | .cardInserted => Sys2Proof.Machine.execCardInserted s
  | .imgActivate => Sys2Proof.Machine.execImgActivate s
  | .deferredActivation => Sys2Proof.Machine.execDeferredActivation s
  | .ronbinRestart a b x => Sys2Proof.Machine.execRonbinRestart a b x s
  | .trialServiceTimeout => Sys2Proof.Machine.execTrialServiceTimeout s
  | .trialWindowExpiry => Sys2Proof.Machine.execTrialWindowExpiry s
  | .imgConfirm => Sys2Proof.Machine.execImgConfirm s
  | .imgFallback => Sys2Proof.Machine.execImgFallback s
  | .registerWrite k v => Sys2Proof.Machine.execRegisterWrite k v s
  | .lossOfLight p pair => Sys2Proof.Machine.execLossOfLight p pair s
  | .idleFlitReceived p x => Sys2Proof.Machine.execIdleFlitReceived p x s
  | .reservedTypeFlitReceived p x => Sys2Proof.Machine.execReservedTypeFlitReceived p x s
  | .fecSymbolErrorRatio p corrected ratio => Sys2Proof.Machine.execFecSymbolErrorRatio p corrected ratio s
  | .linkEntersL0 width rate => Sys2Proof.Machine.execLinkEntersL0 width rate s
  | .completionTimeout q => Sys2Proof.Machine.execCompletionTimeout q s
  | .throttleCauseRelease b => Sys2Proof.Machine.execThrottleCauseRelease b s

end Sys2Proof.Machine
end

