-- ==== Sys2Proof/Safety.lean ====
section
/-! DEFINITION. The terms the statements use: what a run keeps in order, when a descriptor can issue, and what a command
changes and leaves. -/

namespace Sys2Proof.Machine

/-- The order every step keeps: the register table and memory are in their canonical form, so equal contents are equal data. -/
structure State.Inv (s : State) : Prop where
  regs : Tab.wf regReset s.regs = true
  mem : Memory.wf s.mem = true

/-- The command is carried out on `s`, and `post` holds of the state after it. -/
def Does (c : Instr) (s : State) (post : State → Prop) : Prop := ∃ u, exec c s = .next u ∧ post u

/-! ### What a command leaves -/

/-- Every register outside `ks` reads as before. -/
def RegsBut (s u : State) (ks : List Nat) : Prop := ∀ k, k ∉ ks → u.reg k = s.reg k

/-- Every byte of memory outside `n` bytes from `a` reads as before. -/
def BytesBut (s u : State) (a n : Nat) : Prop := ∀ b, b < a ∨ a + n ≤ b → u.byte b = s.byte b

/-- Every byte of memory reads as before. -/
def SameBytes (s u : State) : Prop := ∀ b, u.byte b = s.byte b

/-- Everything but the registers `ks` is as before. -/
def OnlyRegs (s u : State) (ks : List Nat) : Prop := RegsBut s u ks ∧ u = { s with regs := u.regs }

/-! ### Issuing a descriptor -/

/-- `THREAD_PC` of a thread as a context address. -/
def State.pcOf (s : State) (t n : Nat) : Nat := (s.reg (R.threadPc t n)).toNat

/-- The context a thread runs. -/
def State.ctxOf (s : State) (t n : Nat) : Nat := s.fld (F.threadCtl.ctx t n)

/-- The state after the fetch: the descriptor is cached and the thread goes to the end of the round robin. -/
def State.afterFetch (s : State) (t n : Nat) (w : Desc) : State :=
  s.modTile t fun tl =>
    { tl with cache := cacheTouch tl.cache { ctx := s.ctxOf t n, pc := s.pcOf t n, word := w }, robin := robinTouch tl.robin n }

/-- Thread `n` of tile `t` may issue, it fetches the word `w`, and `w` is of the row with opcode `op`. -/
structure Issues (s : State) (t n : Nat) (w : Desc) (op : Nat) : Prop where
  may : s.canIssue t n = true
  word : ∃ p, s.fetchAddr t (s.ctxOf t n) (s.pcOf t n) = .inr p ∧ s.fetched t (s.ctxOf t n) (s.pcOf t n) p w = true
  row : dOp w = op

/-- The descriptor is not the last of the innermost loop's body, so no loop comes round behind it (R38). -/
def State.straight (s : State) (t n : Nat) : Prop :=
  ∀ f ∈ (s.thread (thrKey t n)).loops.head?, f.stop ≠ pcPlus (s.pcOf t n) 1 % 2 ^ 40

/-- The thread has gone on to the descriptor behind this one and reads ready. -/
structure GoesOn (s u : State) (t n : Nat) : Prop where
  pc : u.reg (R.threadPc t n) = BitVec.ofNat 64 (pcPlus (s.pcOf t n) 1)
  ready : u.fld (F.threadStatus.state t n) = 1

/-- The registers every descriptor may change: `THREAD_PC` and `THREAD_STATUS` of its thread. -/
def threadRegs (t n : Nat) : List Nat := [R.threadPc t n, R.threadStatus t n]

/-- The flags of a thread, bits [16:13] of `THREAD_STATUS`. -/
def State.flags (s : State) (t n : Nat) : Nat := bitsAt (s.reg (R.threadStatus t n)) 13 4

/-- Nothing is to be told of an update of the counter at `p`: no thread of this module and no watch waits on it, and no context counts
its batches or the users of a generation slot there (R45, R336). -/
structure QuietCounter (s : State) (p : Nat) : Prop where
  waits : ∀ e ∈ s.threads, ∀ x, e.2.wait = some x → x.obj ≠ p
  watches : ∀ e ∈ (s.tile (objTile p)).watches, e.obj ≠ p
  slots : ∀ c, c < 8 → s.batchObj c ≠ p ∧ ∀ j, j < 2 → s.fld (F.genUseObj.val c j) ≠ p

/-- What the completion of descriptor `w` on tile `t` adds to register `k`: 1 to its `DONE_OBJ` (R34). -/
def doneAdd (t : Nat) (w : Desc) (k : Nat) : Word := if dDoneEn w = true ∧ k = R.syncCount t (dDoneObj w) then 1 else 0

/-- Nothing is to be told of the update of the descriptor's `DONE_OBJ`. -/
def State.doneQuiet (s : State) (t : Nat) (w : Desc) : Prop := dDoneEn w = true → QuietCounter s (R.syncCount t (dDoneObj w))

/-- Every register but those in `ks` and those of the thread reads as before, but for the 1 added to the `DONE_OBJ` of the descriptor. -/
def RegsDone (s u : State) (t n : Nat) (w : Desc) (ks : List Nat) : Prop := ∀ k, k ∉ ks ++ threadRegs t n → u.reg k = s.reg k + doneAdd t w k

/-- The descriptor's completion only goes on: no loop comes round behind it, and nothing is to be told of its `DONE_OBJ`. -/
structure State.plain (s : State) (t n : Nat) (w : Desc) : Prop where
  straight : s.straight t n
  done : s.doneQuiet t w

/-- A synchronous descriptor goes on with the flags as they were, signals its `DONE_OBJ`, and changes no other register but those in `ks`
and no memory. -/
structure StepsOn (s u : State) (t n : Nat) (w : Desc) (ks : List Nat := []) : Prop extends GoesOn s u t n where
  flags : u.flags t n = s.flags t n
  regs : RegsDone s u t n w ks
  mem : SameBytes s u

/-! ### Flow descriptors -/

/-- The object operand of a SYNC or FLOW descriptor names the counter at `p` of this module, which the context may use (R74). -/
structure CounterHere (s : State) (t n : Nat) (w : Desc) (p : Nat) : Prop where
  aligned : s.aop t n w 80 % 8 = 0
  found : ∃ o, s.formOf (s.aop t n w 80) = .here o ∧ s.translateObj (s.ctxOf t n) o = .inr p
  ready : s.tileReady (objTile p) = true

/-- What a `BRANCH` on a flag or an index register tests (Table 2.10). -/
def branchTest (s : State) (t n : Nat) (w : Desc) : Bool :=
  match dSel w with
  | 1 => s.threadFlag t n (dNum w)
  | 2 => !s.threadFlag t n (dNum w)
  | 3 => s.ix t n (dNum w) == 0
  | _ => s.ix t n (dNum w) != 0

/-- A flow descriptor has gone to context address `a` and signalled its `DONE_OBJ`; it changes no other register than `THREAD_PC` and
`THREAD_STATUS`, and no memory. -/
structure GoesTo (s u : State) (t n : Nat) (w : Desc) (a : Nat) : Prop where
  pc : u.reg (R.threadPc t n) = BitVec.ofNat 64 a
  ready : u.fld (F.threadStatus.state t n) = 1
  regs : RegsDone s u t n w []
  mem : SameBytes s u

/-- No byte of memory has changed but the executed marks of ring set `c`, and those only while a command of it is in progress: a `CTX_STOP` may
complete with the last thread that stops (R357). -/
structure MarksOnly (s u : State) (c : Nat) : Prop where
  mem : BytesBut s u (markAt c 0) 0x10000
  none : (s.ring c).run = [] → SameBytes s u

/-- What the end of the thread adds to register `k`: 1 to its `EXIT_OBJ` when `EXIT_EN` is set (R37). -/
def State.exitAdd (s : State) (t n k : Nat) : Word :=
  if s.bit (F.threadCtl.exitEn t n) = true ∧ k = R.syncCount t (s.fld (F.threadCtl.exitObj t n)) then 1 else 0

/-! ### Synchronisation objects -/

/-- The registers a blocking `WAIT` of context `c` may count in: `Q_WAITS` of its queues (R245). -/
def waitCounters (c : Nat) : List Nat := (upto 16).map fun k => R.qWaits c k

/-- The registers the end of a `WAIT` of context `c` may count in: `Q_WAIT_PS` of its queues (R245). -/
def waitTimes (c : Nat) : List Nat := (upto 16).map fun k => R.qWaitPs c k

/-! ### Asynchronous descriptors -/

/-- The descriptor is the newest outstanding one of its thread, on engine `e` in phase `ph`, and the thread has gone on (R30): it reads ready, or
blocked when it is the eighth (R29). -/
structure Placed (s u : State) (t n : Nat) (w : Desc) (e : Engine) (ph : PendPhase) : Prop where
  pc : u.reg (R.threadPc t n) = BitVec.ofNat 64 (pcPlus (s.pcOf t n) 1)
  state : u.fld (F.threadStatus.state t n) = if (s.thread (thrKey t n)).pend.length = 7 then 4 else 1
  pend : ∃ p, (u.thread (thrKey t n)).pend = (s.thread (thrKey t n)).pend ++ [p]
    ∧ p.eng = e ∧ p.word = w ∧ p.pc = s.pcOf t n ∧ p.phase = ph ∧ p.signal = true

/-- The engine `e` has a place for a descriptor: its queue is not full (R29, R30). -/
def State.roomFor (s : State) (t n : Nat) (w : Desc) (e : Engine) : Prop := s.asyncBlocked (s.nextIss t n w) e = none

/-- `n` bytes from physical offset `p` can be written as plain memory: the units are ready, the range lies below the linear Thermos view
and outside tile control, and no shard table is protected (R69, R222). -/
structure PlainRange (s : State) (p n : Nat) : Prop where
  ready : s.rangeReady p n = true
  plain : p + n ≤ 0x80000000 ∨ (0x4000000000 ≤ p ∧ p + n ≤ 2 ^ 40)
  free : s.tablesHeld = []

/-- The DMA engine reaches the descriptor at once, nothing holds it back (R18, R20), and its ends are on this module (R30, R59). -/
structure LocalDma (s : State) (t n : Nat) (w : Desc) : Prop where
  straight : s.straight t n
  room : s.roomFor t n w .dma
  front : firstOpen (s.thread (thrKey t n)).pend = none
  near : ∀ d o, s.formOf (s.nextIss t n w).farEnd ≠ .away d o
  ends : s.anyAway (s.nextIss t n w).nearEnds = false
  free : s.dmaHeld (s.nextIss t n w) = false

/-! ### The vector engine -/

/-- A `VEC` word of sub-operation `sub` can be placed on the vector engine, and the operands in the index registers `ks` are on this
module (R40, R59). -/
structure VecReady (s : State) (t n : Nat) (w : Desc) (sub : Nat) (ks : List Nat) : Prop where
  issues : Issues s t n w 0x18
  row : dSub w = sub
  straight : s.straight t n
  room : s.roomFor t n w .vec
  fields : vecFieldFault w = false
  near : ∀ k ∈ ks, s.isAway (s.ix t n k).toNat = false

/-- A vector descriptor has written `codes` in format `fmt` at physical offset `p` of its own Meadow, noted in `FLAG_NAN` whether
`nan`, and changed nothing else. -/
structure Wrote (s u : State) (t n : Nat) (w : Desc) (p fmt : Nat) (codes : List Nat) (nan : Bool) : Prop extends
    Placed s u t n w .vec .done where
  bytes : u.bytes p (elemBytes fmt codes.length) = s.packFor p fmt codes
  flag : u.bit (F.threadStatus.flagNan t n) = (s.bit (F.threadStatus.flagNan t n) || nan)
  regs : RegsBut s u (threadRegs t n)
  mem : BytesBut s u p (elemBytes fmt codes.length)

/-- The elementwise rows: element j of the destination is `f` of the elements j of the sources in the index registers `ks`, converted
to `FMT_OUT`. -/
def ElemRow (row : Fin 256 → Fin 16 → Desc → Instr) (sub : Nat) (ks : Desc → List Nat) (f : Desc → List FVal → FVal) : Prop :=
  ∀ (t : Fin 256) (n : Fin 16) (w : Desc) (s : State) (srcs : List (List FVal)) (p : Nat),
    VecReady s t n w sub (dD w :: ks w) → s.vecSources (s.nextIss t n w) (ks w) = .ok srcs →
    s.vecPhys (s.nextIss t n w) (dD w) (elemBytes (dFmtOut w) (dVecLen w)) rightW = .ok p →
    PlainRange s p (elemBytes (dFmtOut w) (dVecLen w)) →
    let r := (upto (dVecLen w)).map fun j => encodeElem (dFmtOut w) (f w (srcs.map fun l => l.getD j (.fin false 0 0)))
    Does (row t n w) s fun u => Wrote s u t n w p (dFmtOut w) (r.map (·.1)) (r.any (·.2))

/-- The row reductions: one result of `f` per row of `IMM2` elements of s0. -/
def ReduceRow (row : Fin 256 → Fin 16 → Desc → Instr) (sub : Nat) (f : List F32 → F32) : Prop :=
  ∀ (t : Fin 256) (n : Fin 16) (w : Desc) (s : State) (l : List FVal) (p : Nat),
    let len := (dImm2 w).toNat
    let cnt := dVecLen w / len
    VecReady s t n w sub [dD w, dS0 w] → len ≠ 0 → dVecLen w % len = 0 → s.vecSources (s.nextIss t n w) [dS0 w] = .ok [l] →
    l.length = dVecLen w → s.vecPhys (s.nextIss t n w) (dD w) (elemBytes (dFmtOut w) cnt) rightW = .ok p →
    PlainRange s p (elemBytes (dFmtOut w) cnt) →
    let r := (rowsOf len cnt (l.map toF32)).map fun x => encodeElem (dFmtOut w) (valF32 (f x))
    Does (row t n w) s fun u => Wrote s u t n w p (dFmtOut w) (r.map (·.1)) (r.any (·.2))

/-- FP32 arithmetic on one source, and on two. -/
def onOne (f : Desc → F32 → F32) (w : Desc) (l : List FVal) : FVal := valF32 (f w (opF32 l 0))
def onTwo (f : Desc → F32 → F32 → F32) (w : Desc) (l : List FVal) : FVal := valF32 (f w (opF32 l 0) (opF32 l 1))

/-! ### The array -/

/-- An array descriptor `w` of opcode `op` issues on a thread whose claim is not preempted and which has none on the array (R29, R30, R31). -/
structure ArrayReady (s : State) (t n : Nat) (w : Desc) (op : Nat) : Prop where
  issues : Issues s t n w op
  straight : s.straight t n
  room : s.roomFor t n w .array
  whole : (s.tile t).preemptedOf n = none
  front : s.arrayPends t n = false

/-- No descriptor of tile `t` waits in the array's queue, so nothing goes on when the array looks again (R30). -/
def State.noneArrayQueued (s : State) (t : Nat) : Prop :=
  ∀ m, m < 16 → ∀ x ∈ (s.thread (thrKey t m)).pend, x.eng = .array → x.phase ≠ .queued


/-! ### Events, threads and transfers -/

/-- An occurrence of the event merges with none and takes free slot `k` of the log (R420, R421). -/
structure LogRoom (s : State) (code sev func unit k : Nat) : Prop where
  apart : s.mergeSlot code func unit = none
  room : s.freeSlot sev = some k

/-- The entry of an event that occurs now (R420). -/
def State.entryNow (s : State) (code sev func unit data flags : Nat) : LogSlot :=
  { code := code, sev := sev, func := func, unit := unit, time := s.now, data := data % 2 ^ 48, state := 1, flags := flags, merged := 1,
    lastTime := s.now, seq := (s.reg R.logNextSeq).toNat }

/-- What the completion of an outstanding descriptor adds to register `k` (R34). -/
def pendAdd (t : Nat) (p : Pend) (k : Nat) : Word := if p.signal = true then doneAdd t p.word k else 0

/-- Nothing is to be told of the `DONE_OBJ` of an outstanding descriptor that signals. -/
def State.pendQuiet (s : State) (t : Nat) (p : Pend) : Prop := p.signal = true → s.doneQuiet t p.word

/-- The DMA engine has no descriptor of the thread it could take now (R30). -/
def State.dmaStill (s : State) (t n : Nat) : Prop := s.dmaNext (thrKey t n) 8 = s

/-- `THREAD_STATUS` of the 16 threads of a tile. -/
def tileStatuses (t : Nat) : List Nat := (upto 16).map fun n => R.threadStatus t n

/-- The state once the transfer at place `k` is taken off the list of arrived transfers. -/
def State.untaken (s : State) (k : Nat) : State := { s with arrived := s.arrived.eraseIdx k }

/-- The arrived transfer at place `k` is `a`, whole and allowed in, from a context this module runs (R75, R434),
and no transfer of its stream comes before it (R282). -/
structure Comes (s : State) (k : Nat) (a : Arrived) : Prop where
  here : s.arrived[k]? = some a
  turn : s.inTurn k a = true
  clean : a.poison = false
  allowed : s.remoteAllowed a = true

/-- A remote access is refused (R75): it is counted in `REMOTE_REJECTS` of its context, which sticks at its greatest value, and an error
response goes back. -/
def Refused (s u : State) (a : Arrived) : Prop :=
  ∃ m, u = m.answerTo a 0x0C 0 [] ∧ OnlyRegs s m [R.remoteRejects a.ctx]
    ∧ (m.reg (R.remoteRejects a.ctx)).toNat = min ((s.reg (R.remoteRejects a.ctx)).toNat + 1) (2 ^ 64 - 1)

/-- The answer at place `k` answers transfer `x`. -/
structure AnswersXfer (s : State) (k : Nat) (a : Arrived) (x : Xfer) : Prop where
  here : s.arrived[k]? = some a
  turn : s.inTurn k a = true
  clean : a.poison = false
  names : s.answeredBy a = some x

/-- Thread `n` of tile `t` waits in the synchronous descriptor `w` for the answer to transfer `x`, and goes straight on behind it. -/
structure Awaiting (s : State) (t n : Nat) (w : Desc) (x : Xfer) : Prop where
  waits : (s.thread (thrKey t n)).syncTid = some x.tid
  holds : (s.thread (thrKey t n)).held = some w
  runs : s.fld (F.threadStatus.state t n) ≠ 7
  plain : s.plain t n w

/-- The thread has faulted with code 0x05 at the descriptor of opcode `op` at its program counter, and holds it no longer (R55). -/
structure FaultsAway (s u : State) (t n op : Nat) : Prop where
  state : u.fld (F.threadStatus.state t n) = 6
  code : u.reg (R.threadFault t n) = BitVec.ofNat 64 (0x05 + 2 ^ 8 * op + 2 ^ 16 * (s.pcOf t n % 2 ^ 40))
  free : (u.thread (thrKey t n)).syncTid = none ∧ (u.thread (thrKey t n)).held = none

/-- The log's slot `j` holds `PROMISE_VOID` of kind `kind` at `port`, and it is counted (R296). -/
structure VoidedAt (s u : State) (j port other : Nat) : Prop where
  slot : (u.logSlot j).code = 0x2004 ∧ (u.logSlot j).sev = 2 ∧ (u.logSlot j).unit = port ∧ (u.logSlot j).data % 2 ^ 17 = other % 2 ^ 17
  count : (u.reg R.promiseVoids).toNat = min ((s.reg R.promiseVoids).toNat + 1) (2 ^ 64 - 1)

/-- What the accepted access moved: `m` holds `data` at physical offset `p`, and nothing else of memory or registers has changed. -/
structure Moved (s m : State) (p : Nat) (data : List Byte) : Prop where
  bytes : m.bytes p data.length = data
  mem : BytesBut s m p data.length
  regs : RegsBut s m []


/-! ### Ring sets -/

/-- Set `r` presents exactly one command, `c` of opcode `op`, and F0 can take it (R322, R323). -/
structure TakesCmd (s : State) (r op : Nat) (c : RingCmd) : Prop where
  may : s.mayTake r = true
  entry : s.cmdEntry r (s.ring r).cmdHead = c
  seq : c.seq = next32 (s.ring r).lastSeq
  code : c.op = op
  valid : opValid r op = true
  last : next32 (s.ring r).cmdHead = (s.ring r).cmdTail

/-- The command has been taken and has completed with a status (R323, Table 12.12). -/
structure Finishes (s u : State) (r : Nat) (c : RingCmd) (status : Nat) (detail count : Nat := 0) : Prop where
  head : (u.ring r).cmdHead = next32 (s.ring r).cmdHead
  seq : (u.ring r).lastSeq = c.seq
  done : (u.ring r).done = (s.ring r).done ++ [{ cmd := c, status := status, detail := detail, count := count, time := s.now }]

/-- The register of a field is a synchronisation counter of this module. -/
def isCounterKey (k : Nat) : Prop := ∃ t o, t < 256 ∧ o < 64 ∧ k = R.syncCount t o

/-- A plain register of BAR0: none whose write has an effect of its own (Table 12.3). -/
def plainBar0 (k : Nat) : Bool :=
  0x20000000000 ≤ k && k < 0x20100000000 && (regSpecOf k).isSome && k != R.hostReady && k != R.bar2Sel && k != R.bootCmd
    && (upto 9).all fun r => k != R.dbCmd r && k != R.dbCq r && k != R.dbEq r


/-- A plain register of the hub, a tile or a root engine: none whose write has an effect of its own beside the bits it stores. -/
def plainReg (k : Nat) : Bool :=
  (regSpecOf k).isSome && k < 0x20000000000 && match placeOf k with
  | .control _ o => 0x800 ≤ o && !isCounterOff o
  | .root _ o => o != 0 && o != 0x18
  | .hub h =>
    let o := h % 0x1000000
    match h / 0x1000000 with
    | 0 => 0x8000 ≤ o && k != R.stileCtl
    | 1 => ([R.larkCtl, R.larkGmCoord, R.larkSet, R.larkEpochPeriod, R.larkSyncInterval, R.larkHoldover, R.voidGrace].all fun a => k != a)
        && (o < 0x2000 || 0x2200 ≤ o || o % 0x40 < 0x18) && (upto 8).all fun i => k != R.resSwapFrame i && k != R.snapTime i
    | 2 => [R.rstCtl, R.frstCtl, R.drainTimeout, R.pinCtl, R.throttleCtl].all fun a => k != a
    | 3 => [R.logRaiseA, R.logRaiseB, R.fenceCtl].all fun a => k != a
    | 5 => 0x600 ≤ o && k != R.fwEscCtl && k != R.conCtl
    | 6 => o % 0x1000 != 0 && o % 0x1000 != 0x18 && o % 0x1000 != 0x40
    | 7 =>
      let q := o % 0x10000
      0x400 ≤ q && (q < 0x800 || 0x818 ≤ q) && q != 0x900 && !(0x940 ≤ q && q < 0xB40 && (q - 0x940) % 0x20 == 0) && !(0xC00 ≤ q && q < 0xC38)
    | 8 => (upto 8).all fun i => k != R.thermosCtl i
    | _ => (upto 2).all fun i => k != R.mbxCtl i && k != R.mbxReqLen i
  | _ => false


/-! ### Memory of the module -/

/-- `n` bytes at `p` lie in the interleaved view of Thermos. -/
def inThermos (p n : Nat) : Prop := 0x4000000000 ≤ p ∧ p + n ≤ 0xC000000000

/-- No `PUSH` of context `c` waits on any tile, so nothing looks again when its stacks are emptied (R147). -/
def State.noPushWaits (s : State) (c : Nat) : Prop := ∀ e ∈ s.threads, s.waitingPushes (e.1 / 16) c = []

/-- Every stack of context `c` is empty. -/
def State.stacksEmpty (s : State) (c : Nat) : Prop := ∀ t, t < 256 → ∀ n, (s.slice t c).stack n = []

/-- F3 holds back no queue entry, so it queues none when a step ends (R186). -/
def State.noBacklog (s : State) : Prop := ∀ e, e < 4 → (s.root e).backlog = []

/-- No descriptor waits in a DMA queue, so nothing goes on when the engines look again (R30). -/
def State.noneQueued (s : State) : Prop := ∀ e ∈ s.threads, ∀ p ∈ e.2.pend, p.phase ≠ .queued


/-! ### Optical ports -/

/-- The registers a change of a port's state may change: its status, the ready bits, and an interrupt's cause and pending bit (R259, R327). -/
def portRegs (p : Nat) : List Nat := [R.portStatus p, R.unitReady, R.funcReady, R.intCause, R.msixPba]

/-- The counters of a port (R277). -/
def portCounters (p : Nat) : List Nat :=
  [R.portFecCorr p, R.portFecUncorr p, R.portCrcErr p, R.portRetries p, R.portPoisoned p, R.portProtoErr p, R.portTrains p]

/-- A live port receives the wire flit `x`, which passes its CRC and is of type `ty`; `t` is the state once its `ACK` and credits are
taken (R261, R264). -/
structure Receives (s : State) (p ty : Nat) (x : WireFlit) (t : State) : Prop where
  live : s.portLive p = true
  good : goodCrc x = true
  kind : (fieldsOf x).type = ty
  after : t = s.takeAck p (fieldsOf x)

/-- The registers a taken `ACK` may change: the credits of a VC, and the port's state when it was to be armed. -/
def ackRegs (p : Nat) : List Nat := portRegs p ++ (upto 8).map fun v => R.portVcCredit p v

/-- The cause of the movement of an axis' Stile (Table 10.17). -/
def State.stileCause (s : State) (a : Nat) : Nat := s.fld ⟨R.stileStatus, 16 + 4 * a, 4⟩


/-! ### Resets -/

/-- A field that counts has counted one more, and stays at its highest value (R277). -/
def Counts (s u : State) (f : Fld) : Prop := u.fld f = min (s.fld f + 1) (2 ^ f.width - 1)

/-- Option loading is under way (R396). -/
def State.loading (s : State) : Prop := s.bring.released = true ∧ s.bring.step < 4

/-- A cold reset with a source of Table 15.1 has begun (R390, R391): memory is empty, nothing runs, nothing is ready; the source is
recorded, and but at power-on the earlier source and the count. -/
structure ColdBegins (s : State) (src : Nat) (u : State) : Prop where
  source : u.fld F.rstCause.source = src
  step : u.bring.step = 0
  mem : ∀ b, u.byte b = 0
  threads : u.threads = []
  idle : ∀ c, c < 8 → (u.ctx c).running = false
  ready : u.reg R.funcReady = regReset R.funcReady
  counts : src ≠ 1 → Counts s u F.rstCounts.cold ∧ u.fld F.rstCause.prevSource = s.fld F.rstCause.source
  waiting : u.pending = s.pending
  fuses : u.flash.mgmtSvn = s.flash.mgmtSvn ∧ u.flash.rtSvn = s.flash.rtSvn ∧ u.flash.revoked = s.flash.revoked
  image : u.flash.confirmed = s.flash.confirmed ∧ ∀ k n, k < 2 → (u.bank k).cells n = (s.bank k).cells n ∧ (u.bank k).state = (s.bank k).state
  flash : s.ronbin.buffer = [] → s.trialRuns = false → u.flash = s.flash

/-- A warm reset with a source of Table 15.1 has begun (R391, R408): the functions it takes down are not ready and no context runs. -/
structure WarmBegins (s : State) (src : Nat) (u : State) : Prop where
  source : u.fld F.rstCause.source = src
  prev : u.fld F.rstCause.prevSource = s.fld F.rstCause.source
  counts : Counts s u F.rstCounts.warm
  warm : u.bring.warm = true
  ready : ∀ f ∈ warmFuncs, (u.reg R.funcReady).getLsbD f = false
  idle : ∀ c, c < 8 → (u.ctx c).running = false
  mem : SameBytes s u

/-- Option loading begins again (R396). -/
structure LoadsAgain (s u : State) : Prop where
  counts : Counts s u F.rstCause.optRestarts
  latched : u.bring.latched = false
  phase : u.fld F.phaseStatus.phase = 0
  source : u.fld F.rstCause.source = s.fld F.rstCause.source
  mem : SameBytes s u

/-- A function reset that drains its block may be asked for (R409 to R411, Tables 15.10 and 15.15). -/
structure MayReset (s : State) (func unit : Nat) : Prop where
  allowed : resetAllowed func unit = true
  drains : resetDrains func = true
  up : s.inReset = false
  loaded : s.inOptions = false
  fresh : s.findReset func unit = none
  sweep : func = 0x09 → ∀ c, c < 8 → s.fld (F.sweepStatus.state c) ∉ [2, 3, 4]
  stands : func = 0x0C → (s.ctx unit).running = false

/-- The function reset has been taken and its block drains (R411). -/
structure Drains (s : State) (func unit : Nat) (cmds : List (Nat × RingCmd)) (u : State) : Prop where
  listed : u.fresets = s.fresets ++ [{ func := func, unit := unit, drain := true, since := s.now, cmds := cmds }]
  busy : u.bit F.frstStatus.busy = true
  counts : Counts s u F.rstCounts.function

/-- The function reset `x` is over: it is no longer listed, and `FRST_STATUS` names it with its result (Table 15.15). -/
structure ResetOver (s : State) (x : FuncReset) (u : State) : Prop where
  gone : u.findReset x.func x.unit = none
  result : u.fld F.frstStatus.lastResult = if x.forced then 1 else 0
  func : u.fld F.frstStatus.lastFunc = x.func
  unit : u.fld F.frstStatus.lastUnit = x.unit

/-- Unit `i` of a unit field is ready. -/
def State.unitUp (s : State) (f : Fld) (i : Nat) : Bool := s.bit ⟨f.reg, f.lo + i, 1⟩


/-! ### The firmware complex -/

/-- A 64-bit counter has counted one more (R277). -/
def CountsReg (s u : State) (k : Nat) : Prop := (u.reg k).toNat = min ((s.reg k).toNat + 1) (2 ^ 64 - 1)

/-- A level-1 restart of core `n` has begun (R351): the core alone is down, with the cause and the count recorded. -/
structure Restarts (s : State) (n cause : Nat) (u : State) : Prop where
  state : u.coreState n = 3
  cause : u.fld (F.coreStatus.lastCause n) = cause
  counts : CountsReg s u (R.coreRestartCount n)
  unready : u.unitUp F.unitReady.fwCores n = false
  unloaded : (u.fwCore n).loaded = false
  mem : SameBytes s u

/-- The contexts that the loss of core `n` stops (Table 13.13). -/
def State.lostWith (s : State) (n c : Nat) : Prop := n = 0 ∨ n = 1 ∨ (n = 2 ∧ s.bit (F.sweepCtl.enable c) = true) ∨ (n = 3 ∧ s.layers c ≠ [])

/-- Core `n` is in level 2 (R354): the contexts of Table 13.13 are stopped, each with an entry on its event ring, and but for a module-fatal loss
the others run on. -/
structure LevelTwo (s : State) (n cause : Nat) (u : State) : Prop where
  state : u.coreState n = 4
  cause : u.fld (F.coreStatus.lastCause n) = cause
  boot : u.fld F.bootState.state = 7
  stops : ∀ c, c < 8 → (s.ctx c).running = true → s.lostWith n c → (u.ctx c).running = false ∧ (u.ctx c).halted = true
    ∧ (above (s.ring c).eqTail (s.ring c).eqHead < 8192 → (u.ring c).eqTail = next32 (s.ring c).eqTail)
  others : n ≠ 0 → n ≠ 4 → ∀ c, c < 8 → ¬ s.lostWith n c → (u.ctx c).running = (s.ctx c).running
  unready : u.unitUp F.unitReady.fwCores n = false

/-- F5 answers on the console with `text` in a line of its own (R358): it goes out at once when output is on and none waits before it; with
output off it joins the lines in the buffer, the oldest of which are lost when all do not fit 8 KiB. -/
structure Tells (s : State) (text : List Byte) (u : State) : Prop where
  on : s.bit F.conCtl.txEn = true → s.boot.lines = [] → u = { s with out := s.out ++ [.console (s.conText text)] }
  off : s.bit F.conCtl.txEn = false → (s.conBytes ++ s.conText text).length ≤ 8192 →
    u.conBytes = s.conBytes ++ s.conText text ∧ u.boot.lines = s.boot.lines ++ [(s.conText text).length]
    ∧ u.fld F.conStatus.bytes = (s.conBytes ++ s.conText text).length ∧ u.bit F.conStatus.ovf = s.bit F.conStatus.ovf
  full : s.bit F.conCtl.txEn = false → 8192 < (s.conBytes ++ s.conText text).length → (s.conText text).length ≤ 8192 →
    (∃ k, u.conBytes = (s.conBytes ++ s.conText text).drop k) ∧ u.conBytes.length ≤ 8192 ∧ u.bit F.conStatus.ovf = true
  regs : RegsBut s u [R.conStatus]
  mem : BytesBut s u conBase 8192

/-- The `n` newest entries of the error log, the newest first, or all of them where it holds fewer (R359). -/
structure Newest (s : State) (n : Nat) (l : List LogSlot) : Prop where
  count : l.length = min n (s.log.filter fun e => e.2.state != 0).length
  held : ∀ x ∈ l, ∃ e ∈ s.log, e.2.state ≠ 0 ∧ x = e.2
  order : l.Pairwise fun a b => b.seq ≤ a.seq
  newest : ∀ e ∈ s.log, e.2.state ≠ 0 → e.2 ∉ l → ∀ x ∈ l, e.2.seq ≤ x.seq


/-! ### The throttle -/

/-- The highest level a cause holds (R446). -/
def State.topCause (s : State) : Nat := s.causes.foldl (fun m e => max m e.2) 0

/-- Registers a change of the throttle may change: its own, quiet time, and those of the error log that takes `THROTTLE`. -/
def throttleRegs : List Nat := [R.throttleCause, R.pwrStatus, R.quietS, R.logNextSeq, R.logStatus, R.logDropped]

/-- Cause `b` of the throttle holds level `v` now; the other causes hold theirs, and the throttle's level is the highest (R446). -/
structure Throttles (s : State) (b v : Nat) (u : State) : Prop where
  level : u.causeLevel b = v
  others : ∀ k, k ≠ b → u.causeLevel k = s.causeLevel k
  top : u.fld F.pwrStatus.level = u.topCause % 4
  shown : v ≠ 0 → b < 12 → u.bit ⟨R.throttleCause, b, 1⟩ = true
  state : u.fld F.pwrStatus.state = s.fld F.pwrStatus.state
  mem : SameBytes s u

/-- Every context stands. -/
def NoneRuns (u : State) : Prop := ∀ c, c < 8 → (u.ctx c).running = false


/-! ### The management protocol -/

/-- Request `q` alone waits, the Ronbin block serves, and `q` is a good request of operation `op` that is no duplicate (R364 to R369). -/
structure Waits (s : State) (q : Request) (op : Nat) : Prop where
  up : s.ronbinUp = true
  queue : s.ronbin.requests = [q]
  good : q.headerGood = true
  code : pduOp q.pdu = op
  fresh : s.kept q = none
  one : q.slot = none → pduDst q.pdu = 0xFF → op < 5 ∨ 7 < op

/-- The session that serves a request, and the state in which its operation acts (R373). -/
def State.atService (s : State) (q : Request) : Nat × State :=
  let p := s.popRequest.sessionFor q
  (p.1, p.2.modRonbin fun r => { r with served := true })

/-- A frame as it leaves, padded to its shortest length (R363). -/
def padded (p : List Byte) : List Byte := p ++ List.replicate (46 - p.length) 0

/-- The request has been answered with `body`, by a frame or in its mailbox slot (R369, R372), and no request waits. -/
structure Answered (q : Request) (body : List Byte) (u : State) : Prop where
  queue : u.ronbin.requests = []
  frame : q.slot = none → u.out.getLast? = some (.dop q.mac Config.mgmtMac.toNat (padded (u.response q body)))
  slot : ∀ k, q.slot = some k → body.length ≤ 1492 →
    u.bytes (mbxRsp k) (u.response q body).length = u.response q body
    ∧ u.fld (F.mbxRspLen.val k) = (u.response q body).length ∧ u.fld (F.mbxStatus.state k) = 2

/-! ### The management image -/

/-- The trial of bank `k` has ended without confirmation (R476): the bank is rejected with reason 9, and the Ronbin block restarts into the
confirmed bank, or is in recovery mode with none. -/
structure TrialOver (k : Fin 2) (s u : State) : Prop where
  state : (u.bank k).state = .rejected
  reason : (u.bank k).reason = 9
  back : ∀ c, s.flash.confirmed = some c → u.ronbin.restart = some c ∧ u.ronbin.sessions = []
  none : s.flash.confirmed = none → u.ronbin.recovery = true ∧ u.ronbin.restart = none


/-! ### The whole machine -/

/-- The fuses have changed only from 0 to 1 (R462): no minimum version has fallen, and no key is usable again. -/
structure FusesGrow (s u : State) : Prop where
  mgmt : s.flash.mgmtSvn ≤ u.flash.mgmtSvn
  runtime : s.flash.rtSvn ≤ u.flash.rtSvn
  keys : ∀ k, s.flash.revoked.testBit k = true → u.flash.revoked.testBit k = true

/-- A module-fatal slot is queued or in handling (R436). -/
def State.fatalWaits (s : State) : Bool := s.log.any fun e => e.2.state != 0 && e.2.sev == 5

end Sys2Proof.Machine
end

