-- ==== Sys2Proof/WellFormed.lean ====
section
/-! DEFINITION. Which commands are well formed: the operands an occasion of the row can have. `exec` answers on every command;
an ill-formed one names no event of the hardware. -/

namespace Sys2Proof

/-- The opcode field of a descriptor word (Table 2.5). -/
def opcodeOf (w : Desc) : Nat := (w.extractLsb' 122 6).toNat

/-- A word of the row of opcode `op` (Table 2.6). -/
def ofRow (w : Desc) (op : Nat) : Bool := opcodeOf w == op

/-- A word of the `VEC` row of sub-operation `k` (R40). -/
def ofVec (w : Desc) (k : Nat) : Bool := opcodeOf w == 0x18 && (w.extractLsb' 104 8).toNat == k

/-- A word of the `SIGNAL` row of operation `k` (R44). -/
def ofSignal (w : Desc) (k : Nat) : Bool := opcodeOf w == 0x20 && (w.extractLsb' 76 4).toNat == k

/-- Descriptor words belong to their row; a flit carries at most 240 payload bytes (R260); a host access lies in the aperture
of 2^36 bytes and moves 1 to 4,096 bytes (R81); a PDU has at most 1,500 bytes (R363); tiles and layers are numbers of tiles
and layers; a PCI Express link has 1 to 16 lanes and a rate of 1 to 7 (Table 12.4, R318). -/
def Instr.wf : Instr → Bool
  | .load _ _ w => ofRow w 0x01
  | .load2d _ _ w => ofRow w 0x02
  | .loadPanel _ _ w => ofRow w 0x03
  | .store _ _ w => ofRow w 0x04
  | .store2d _ _ w => ofRow w 0x05
  | .fill _ _ w => ofRow w 0x06
  | .gather _ _ w => ofRow w 0x07
  | .scatter _ _ w => ofRow w 0x08
  | .scatterAdd _ _ w => ofRow w 0x09
  | .mmaStart _ _ w => ofRow w 0x10
  | .mmaStep _ _ w => ofRow w 0x11
  | .mmaUnload _ _ w => ofRow w 0x12
  | .copy _ _ w => ofVec w 0x00
  | .add _ _ w => ofVec w 0x01
  | .sub _ _ w => ofVec w 0x02
  | .mul _ _ w => ofVec w 0x03
  | .fma _ _ w => ofVec w 0x04
  | .axpby _ _ w => ofVec w 0x05
  | .scale _ _ w => ofVec w 0x06
  | .max _ _ w => ofVec w 0x07
  | .min _ _ w => ofVec w 0x08
  | .abs _ _ w => ofVec w 0x09
  | .sign _ _ w => ofVec w 0x0a
  | .relu _ _ w => ofVec w 0x0b
  | .leakyRelu _ _ w => ofVec w 0x0c
  | .tanh _ _ w => ofVec w 0x0d
  | .sigmoid _ _ w => ofVec w 0x0e
  | .elu _ _ w => ofVec w 0x0f
  | .heathGate _ _ w => ofVec w 0x10
  | .gelu _ _ w => ofVec w 0x11
  | .silu _ _ w => ofVec w 0x12
  | .exp _ _ w => ofVec w 0x13
  | .recip _ _ w => ofVec w 0x14
  | .rsqrt _ _ w => ofVec w 0x15
  | .rowMax _ _ w => ofVec w 0x16
  | .rowSum _ _ w => ofVec w 0x17
  | .rowSumsq _ _ w => ofVec w 0x18
  | .deriv _ _ w => ofVec w 0x19
  | .srBf16 _ _ w => ofVec w 0x1a
  | .quant _ _ w => ofVec w 0x1b
  | .dequant _ _ w => ofVec w 0x1c
  | .select _ _ w => ofVec w 0x1d
  | .check _ _ w => ofVec w 0x1e
  | .signalAdd _ _ w => ofSignal w 0
  | .signalSet _ _ w => ofSignal w 1
  | .signalMax _ _ w => ofSignal w 2
  | .signalMin _ _ w => ofSignal w 3
  | .signalOr _ _ w => ofSignal w 4
  | .signalAnd _ _ w => ofSignal w 5
  | .signalArm _ _ w => ofSignal w 6
  | .wait _ _ w => ofRow w 0x21
  | .waitTimeout _ _ | .watchRetry _ _ => true
  | .arrive _ _ w => ofRow w 0x22
  | .fence _ _ w => ofRow w 0x23
  | .syncRead _ _ w => ofRow w 0x24
  | .loop _ _ w => ofRow w 0x28
  | .branch _ _ w => ofRow w 0x29
  | .jump _ _ w => ofRow w 0x2a
  | .call _ _ w => ofRow w 0x2b
  | .ret _ _ w => ofRow w 0x2c
  | .halt _ _ w => ofRow w 0x2d
  | .yield _ _ w => ofRow w 0x2e
  | .nop _ _ w => ofRow w 0x2f
  | .ixSet _ _ w => ofRow w 0x30
  | .ixAdd _ _ w => ofRow w 0x31
  | .ixLoad _ _ w => ofRow w 0x32
  | .push _ _ w => ofRow w 0x38
  | .pop _ _ w => ofRow w 0x39
  | .time _ _ w => ofRow w 0x3a
  | .trace _ _ w => ofRow w 0x3b
  | .event _ _ w => ofRow w 0x3c
  | .asyncDescriptorComplete _ _ _ | .arrayPreemptSave _ | .arrayRestore _ | .arrayClaimDiscard _
  | .threadStart _ _ _ | .threadStop _ _ _ | .segWrite _ _ _ | .remoteAccessArrival _ | .remoteSyncOperation _
  | .firmwareAccessArrival _ => true
  | .bar2Read off n => decide (1 ≤ n.val ∧ off.toNat + n.val ≤ 2 ^ 36)
  | .bar2Write off data => decide (1 ≤ data.length ∧ data.length ≤ 4096 ∧ off.toNat + data.length ≤ 2 ^ 36)
  | .configurationRequest _ | .hamperCfgWrite _ _ | .hamperSpillBaseWrite _ _ | .discard _ | .discardComplete _
  | .hamperSpillGranule _ _ | .prefetchRestore _ _ | .onDemandRestoreComplete _ _ | .rootEnable _ | .rootDrain _
  | .rootAbandon _ _ | .rootQueueTailWrite _ _ | .rootBlockStart _ | .rootCompute _ | .rootWriteOut _
  | .rootBlockComplete _ | .refreshStart _ => true
  | .voteArrival _ _ grad _ => grad.all (· < 2048)
  | .voteComplete _ _ | .installBarrierComplete _ _ | .sweepStart _ | .shardSwept _ _ _ _ _
  | .slowTierDataArrival _ _ _ _ | .slowTierWriteBackComplete _ _ _ _ | .digestCompareComplete _ _ _ _
  | .bisectionRoundComplete _ _ _ | .runReadComplete _ _ _ | .commitArrival _ | .commitBarrierComplete _ _
  | .queueRebase _ | .clearSkew _ | .sweepStepWrite _ _ | .heathCommitStep _ _ | .ctxCutsWrite _ _ | .qCfgWrite _ _ _
  | .portTrainingStep _ _ _ | .trainingLimitExpired _ | .trainingBudgetExpired _ | .trainingRetry _ => true
  | .linkCtlReceived _ x => decide (x.payload.length ≤ 240)
  | .laserFailure _ _ | .retrain _ | .portEnableWrite _ _ | .clrCnt _ | .reinsertArm _ _ => true
  | .dataFlitReceived _ x => decide (x.payload.length ≤ 240)
  | .nakReceived _ x => decide (x.payload.length ≤ 240)
  | .timeFlitReceived _ x _ => decide (x.payload.length ≤ 240)
  | .stileNoticeReceived _ x => decide (x.payload.length ≤ 240)
  | .codewordUncorrectable _ | .replayTimeout _ | .nakResend _ | .stileClose _ _ _ | .stileOpen _ | .stileNeighAck _
  | .stileOpenLapse _ | .stileMovementComplete _ | .powerLossStileClose | .slotStart _ _ | .frameStart
  | .resSwapFrame _ _ | .admission _ _ | .admissionReenable _ | .transferArrival _ | .completionArrival _
  | .errorResponseArrival _ | .completionCheckExpired _ | .voidGraceExpired _ | .shardPacketReceived _ _
  | .shardRerequestReceived _ | .shardPrimaryDeadline _ | .shardLost _ | .fcEnableWrite _ _
  | .frameContractJudgement _ | .larkSyncExchange _ | .parentPortLost | .holdoverExpiry | .epochEdgeIn
  | .epochPulseOut | .larkSet _ | .snapTimeWrite _ _ | .snapTimeReached _ | .snapDrainComplete _
  | .snapResumeReached _ | .hostReadyWrite _ | .bar2SelWrite _ | .dbCmd _ _ | .dbCq _ _ | .dbEq _ _
  | .ctxStart _ _ _ _ | .ctxStop _ | .ctxReset _ | .abortStep _ | .intake _ _ _ | .intakeChunkArrival _ _ _ _
  | .publish _ _ | .switchGen _ | .ringFence _ | .moduleWarmReset | .funcReset | .completionPost _
  | .interruptHoldoffExpired _ | .generationSwitch _ | .drainingSlotFreed _ | .linkLeavesL0 | .bootLoad | .bootReload
  | .bootImageReadComplete _ | .coreInitComplete _ | .watchdogExpiry _ | .fatalTrap _ | .coreRestart _
  | .coreRestartRequest _ | .coreHold _ _ | .wdtKick _ | .fwL3Kick | .level3Expiry | .consoleVer | .consoleCores
  | .consoleReady | .consoleLog _ | .consoleTraceOn | .consoleTraceOff | .consoleUnknownLine => true
  | .dopFrameReceived _ _ frame => decide (frame.pdu.length ≤ 1500)
  | .read => true
  | .write env => env.failed.all (· < 256)
  | .readList => true
  | .writeList env => env.failed.all (· < 256)
  | .blobRead | .blobWrite | .segment | .abort | .reset | .resetCommandStart | .transferIdleExpiry _
  | .sessionIdleExpiry _ | .mbxGo _ | .abortXfer _ | .accessLevelWrite _ _ | .configEpochWrite _
  | .deferredSettingsApply _ | .eventNotificationSend => true
  | .arraySelftestRun _ failed _ => failed.all (· < 256)
  | .rootForceCold _ | .rootPrecondEnWrite _ _ | .moduleCoordinateSet _ | .powerOn | .railOutOfRange _ | .resetNLow
  | .resetNRise | .perstLow | .perstRise | .warmReq | .coldReset _ _ _ _ | .internalResetPulseEnd | .internalRelease
  | .strapLatch _ _ | .optionLoadingComplete | .linkDomainBringup _ | .hbmTraining _ _ | .hbmScrubComplete _
  | .bootRomChecks => true
  | .tilesBringup failed _ => failed.all (· < 256)
  | .pllLockTimeout | .phaseBTimeLimit | .phaseBEnd | .aliveToggle | .stopNLow | .stopNHigh | .faultNRelease
  | .warmReset | .frstCtlGo _ _ | .funcResetReq _ | .drainIdleReached _ _ | .drainTimeoutExpiry _ _ => true
  | .functionResetReady _ _ failed _ => failed.all (· < 256)
  | .logTake | .logRetire | .logRequeue | .logRaise _ _ | .fenceSet | .fenceBypass | .fenceClear | .fenceLevelWrite _
  | .logOverflowClear | .eccCorrection _ | .eccUncorrectable _ | .patrolRead _ _ | .throttleNLow | .throttleNHigh
  | .throttleCauseRise _ | .throttleCauseEscalate _ | .throttleStepDown _ | .throttleForceWrite _
  | .emergencyBegin _ _ | .emergencyClear _ | .emergencyShutdownExpiry | .shutdownThreshold _ | .quietSecondTick
  | .peakPRead | .ronbinBoot _ _ _ | .imgStageBegin _ | .bankEraseComplete | .imgPieceData _ _ _
  | .pieceProgramComplete | .imgStageAbort | .imgVerify | .calibrationEraseComplete | .imgCardScan _ | .cardRemoved
  | .cardInserted | .imgActivate | .deferredActivation | .ronbinRestart _ _ _ | .trialServiceTimeout
  | .trialWindowExpiry | .imgConfirm | .imgFallback | .registerWrite _ _ | .lossOfLight _ _ => true
  | .idleFlitReceived _ x => decide (x.payload.length ≤ 240)
  | .reservedTypeFlitReceived _ x => decide (x.payload.length ≤ 240)
  | .fecSymbolErrorRatio _ _ _ => true
  | .linkEntersL0 width rate => decide (1 ≤ width ∧ width ≤ 16 ∧ 1 ≤ rate ∧ rate ≤ 7)
  | .completionTimeout _ | .throttleCauseRelease _ => true

end Sys2Proof
end

