-- ==== Sys2Proof/Certificates/Slice0/Obligations.lean ====
section
/-! DEFINITION. The statements for the provers, by family. -/

open Sys2Proof Sys2Proof.Machine

/-! ### Descriptors of the flow and index families (chapter 2) -/

/-- The index rows, `NOP`, `YIELD`, `FENCE`, `TIME`, `TRACE` and `SYNC_READ` complete with the value the rule gives in the named index
register, signal their `DONE_OBJ` (R34), and leave every other register, the flags and memory alone. -/
def Obligations.IndexRowsComplete : Prop :=
  ∀ (t : Fin 256) (n : Fin 16) (w : Desc) (s : State), s.plain t n w →
    (Issues s t n w 0x2F → Does (.nop t n w) s fun u => StepsOn s u t n w)
    ∧ (Issues s t n w 0x2E → Does (.yield t n w) s fun u => StepsOn s u t n w ∧ (u.tile t).robin.getLast? = some n.val)
    ∧ (Issues s t n w 0x23 → (s.thread (thrKey t n)).pend = [] → Does (.fence t n w) s fun u => StepsOn s u t n w)
    ∧ (Issues s t n w 0x30 → Does (.ixSet t n w) s fun u =>
        u.ix t n (dDst w) = dImm w ∧ StepsOn s u t n w [R.ix t n (dDst w)])
    ∧ (Issues s t n w 0x31 → Does (.ixAdd t n w) s fun u =>
        u.ix t n (dDst w) = s.ix t n (dSrc w) + dImm w ∧ StepsOn s u t n w [R.ix t n (dDst w)])
    ∧ (∀ b, Issues s t n w 0x32 → s.ctxRead (s.ctxOf t n) (s.aop t n w 48) 8 = .ok b → Does (.ixLoad t n w) s fun u =>
        u.ix t n (dDst w) = BitVec.ofNat 64 (leNat b) ∧ StepsOn s u t n w [R.ix t n (dDst w)])
    ∧ (Issues s t n w 0x3A → Does (.time t n w) s fun u =>
        u.ix t n (dDst w) = s.reg R.larkTime ∧ StepsOn s u t n w [R.ix t n (dDst w)])
    ∧ (Issues s t n w 0x3B → s.boot.trace = true → s.coreRuns 5 = true → Does (.trace t n w) s fun u =>
        u.out = s.out ++ [.trace t n (dImm w) s.now] ∧ StepsOn s u t n w)
    ∧ (∀ p, Issues s t n w 0x24 → CounterHere s t n w p → Does (.syncRead t n w) s fun u =>
        u.ix t n (dVreg w) = s.reg p ∧ StepsOn s u t n w [R.ix t n (dVreg w)])

/-- The flow rows (R503): where each goes on, with the loop stack and the call stack it leaves and the 1 added to its `DONE_OBJ`
(R34), and for a `HALT` to `EXIT_OBJ` (R37). Behind the last descriptor of a loop's body (R38)
both index increments are applied, in 16-byte units, and the thread goes back to the first descriptor of the body while passes are left.
Where the rules leave something open it rests on the model's choice: log entries 16 and 24. -/
def Obligations.FlowRowsComplete : Prop :=
  (∀ (t : Fin 256) (n : Fin 16) (w : Desc) (s : State),
    let th := s.thread (thrKey t n)
    let there := pcPlus (s.pcOf t n) (dTarget w)
    s.doneQuiet t w →
    (Issues s t n w 0x2A → Does (.jump t n w) s fun u =>
        GoesTo s u t n w there ∧ (u.thread (thrKey t n)).loops = loopsAt th.loops (there % 2 ^ 40))
    ∧ (Issues s t n w 0x29 → 1 ≤ dSel w → dSel w ≤ 4 → (dSel w ≤ 2 → dNum w < 4) → s.straight t n → Does (.branch t n w) s fun u =>
        if branchTest s t n w = true then GoesTo s u t n w there ∧ (u.thread (thrKey t n)).loops = loopsAt th.loops (there % 2 ^ 40)
        else StepsOn s u t n w ∧ (u.thread (thrKey t n)).loops = th.loops)
    ∧ (∀ p, Issues s t n w 0x29 → dSel w = 0 → dCond w < 6 → CounterHere s t n w p → s.straight t n →
        Does (.branch t n w) s fun u =>
          if waitHolds (dCond w) (s.reg p) (s.ix t n (dNum w)) = true then GoesTo s u t n w there else StepsOn s u t n w)
    ∧ (Issues s t n w 0x2B → th.calls.length < 4 → Does (.call t n w) s fun u =>
        GoesTo s u t n w there ∧ (u.thread (thrKey t n)).calls = pcPlus (s.pcOf t n) 1 :: th.calls)
    ∧ (∀ a rest, Issues s t n w 0x2C → th.calls = a :: rest → (∀ f ∈ th.loops.head?, f.stop ≠ a % 2 ^ 40) →
        Does (.ret t n w) s fun u => GoesTo s u t n w a ∧ (u.thread (thrKey t n)).calls = rest)
    ∧ (Issues s t n w 0x28 → dBody w ≠ 0 → th.loops.length < 4 → dLoopCount w ≠ 0 → Does (.loop t n w) s fun u =>
        GoesTo s u t n w (pcPlus (s.pcOf t n) 1) ∧
        (u.thread (thrKey t n)).loops =
          { first := pcPlus (s.pcOf t n) 1 % 2 ^ 40, stop := pcPlus (s.pcOf t n) (1 + dBody w) % 2 ^ 40, left := dLoopCount w,
            ixa := dIxa w, inca := dInca w, ixb := dIxb w, incb := dIncb w } :: th.loops)
    ∧ (Issues s t n w 0x28 → dBody w ≠ 0 → th.loops = [] → dLoopCount w = 0 → Does (.loop t n w) s fun u =>
        GoesTo s u t n w (pcPlus (s.pcOf t n) (1 + dBody w)) ∧ (u.thread (thrKey t n)).loops = [])
    ∧ (Issues s t n w 0x2D → s.straight t n → th.pend = [] →
        (s.bit (F.threadCtl.exitEn t n) = true → QuietCounter s (R.syncCount t (s.fld (F.threadCtl.exitObj t n)))) → Does (.halt t n w) s fun u =>
        u.fld (F.threadStatus.state t n) = 0 ∧ (∀ k, k ∉ threadRegs t n → u.reg k = s.reg k + s.exitAdd t n k + doneAdd t w k)
        ∧ MarksOnly s u (s.ctxOf t n))
    ∧ (Issues s t n w 0x2D → s.straight t n → th.pend ≠ [] → Does (.halt t n w) s fun u =>
        u.fld (F.threadStatus.state t n) = 7 ∧ (u.thread (thrKey t n)).ending = .halt ∧ RegsBut s u (threadRegs t n) ∧ SameBytes s u))
  ∧ ∀ (t : Fin 256) (n : Fin 16) (w : Desc) (s : State) (f : LoopFrame) (rest : List LoopFrame),
    s.doneQuiet t w → Issues s t n w 0x2F → (s.thread (thrKey t n)).loops = f :: rest → f.stop = pcPlus (s.pcOf t n) 1 % 2 ^ 40 → 1 < f.left →
    f.ixa < 8 → f.ixb < 8 → f.ixa ≠ f.ixb →
    Does (.nop t n w) s fun u =>
      u.reg (R.threadPc t n) = BitVec.ofNat 64 (2 ^ 40 * (pcPlus (s.pcOf t n) 1 / 2 ^ 40) + f.first)
      ∧ u.ix t n f.ixa = s.ix t n f.ixa + BitVec.ofInt 64 (16 * f.inca)
      ∧ u.ix t n f.ixb = s.ix t n f.ixb + BitVec.ofInt 64 (16 * f.incb)
      ∧ (u.thread (thrKey t n)).loops = { f with left := f.left - 1 } :: rest
      ∧ RegsDone s u t n w [R.ix t n f.ixa, R.ix t n f.ixb] ∧ SameBytes s u

/-! ### Synchronisation descriptors (chapter 2) -/

/-- The `SIGNAL` rows (R44) and `ARRIVE` (R47) on a counter of this module nothing waits at: the counter's new value, and the payload words an
`ARM` writes or the reduction combines; the descriptor signals its `DONE_OBJ` (R34) and goes on, and nothing else changes.
Where the rules leave something open it rests on the model's choice: log entry 24. -/
def Obligations.SignalAndArriveComplete : Prop :=
  (∀ (t : Fin 256) (n : Fin 16) (w : Desc) (s : State) (p : Nat),
    Issues s t n w 0x20 → (s.thread (thrKey t n)).pend = [] → s.plain t n w → CounterHere s t n w p → QuietCounter s p →
    let v := s.syncValue t n w
    (dOpc w = 0 → Does (.signalAdd t n w) s fun u => u.reg p = s.reg p + v + doneAdd t w p ∧ StepsOn s u t n w [p])
    ∧ (dOpc w = 1 → Does (.signalSet t n w) s fun u => u.reg p = v + doneAdd t w p ∧ StepsOn s u t n w [p])
    ∧ (dOpc w = 2 → Does (.signalMax t n w) s fun u => u.reg p = BitVec.ofNat 64 (max (s.reg p).toNat v.toNat) + doneAdd t w p ∧ StepsOn s u t n w [p])
    ∧ (dOpc w = 3 → Does (.signalMin t n w) s fun u => u.reg p = BitVec.ofNat 64 (min (s.reg p).toNat v.toNat) + doneAdd t w p ∧ StepsOn s u t n w [p])
    ∧ (dOpc w = 4 → Does (.signalOr t n w) s fun u => u.reg p = (s.reg p ||| v) + doneAdd t w p ∧ StepsOn s u t n w [p])
    ∧ (dOpc w = 5 → Does (.signalAnd t n w) s fun u => u.reg p = (s.reg p &&& v) + doneAdd t w p ∧ StepsOn s u t n w [p])
    ∧ (dOpc w = 6 → v.toNat % 16 < 0xA → v.toNat % 16 ≠ 0 → Does (.signalArm t n w) s fun u =>
        (∀ i, i < 32 → u.memNat (payloadOf p + 8 * i) 8 = (reduceIdentity (v.toNat % 16)).toNat)
        ∧ GoesOn s u t n ∧ RegsDone s u t n w [] ∧ BytesBut s u (payloadOf p) 256))
  ∧ ∀ (t : Fin 256) (n : Fin 16) (w : Desc) (s : State) (p : Nat) (b : List Byte),
    Issues s t n w 0x22 → (s.thread (thrKey t n)).pend = [] → s.plain t n w → CounterHere s t n w p → QuietCounter s p →
    dOpc w < 0xA → dOpc w ≠ 0 → 0 < dWords w → dWords w ≤ 32 → s.ctxRead (s.ctxOf t n) (s.aop t n w 24) (8 * dWords w) = .ok b →
    Does (.arrive t n w) s fun u =>
      u.reg p = s.reg p + 1 + doneAdd t w p
      ∧ (∀ i, i < dWords w → u.memNat (payloadOf p + 8 * i) 8 =
          (reduceWord (dOpc w) (BitVec.ofNat 64 (s.memNat (payloadOf p + 8 * i) 8)) (BitVec.ofNat 64 (leNat ((b.drop (8 * i)).take 8)))).toNat)
      ∧ GoesOn s u t n ∧ RegsDone s u t n w [p] ∧ BytesBut s u (payloadOf p) (8 * dWords w)

/-- `WAIT` on a counter of the thread's own tile (R45): with its condition it goes on with `FLAG_TMO` clear; without it the thread blocks, the
program counter already at the next descriptor. Its timeout ends it with `FLAG_TMO` set, unless an update has satisfied the condition before
(R45); either end signals `DONE_OBJ` (R34); a watch refused for a full table is placed when the request is sent again and the table has room, and
releases the thread then if an update has satisfied its condition since it was refused, even where that update was undone (R48).
Where the rules leave something open it rests on the model's choice: log entries 10 and 24. -/
def Obligations.WaitsComplete : Prop :=
  (∀ (t : Fin 256) (n : Fin 16) (w : Desc) (s : State) (p : Nat),
    Issues s t n w 0x21 → s.straight t n → CounterHere s t n w p → objTile p = t → dOpc w < 6 → dTmo w ≤ 40 →
    let v := s.syncValue t n w
    (waitHolds (dOpc w) (s.reg p) v = true → s.doneQuiet t w → Does (.wait t n w) s fun u =>
      GoesOn s u t n ∧ u.bit (F.threadStatus.flagTmo t n) = false ∧ RegsDone s u t n w [] ∧ SameBytes s u)
    ∧ (waitHolds (dOpc w) (s.reg p) v = false → Does (.wait t n w) s fun u =>
      u.fld (F.threadStatus.state t n) = 2 ∧ u.pcOf t n = pcPlus (s.pcOf t n) 1 % 2 ^ 64
      ∧ (u.thread (thrKey t n)).wait =
          some { obj := p, cond := dOpc w, comparand := v, tmo := dTmo w, watch := .none, since := s.now, pc := s.pcOf t n, addr := s.aop t n w 80, word := w }
      ∧ RegsBut s u (waitCounters (s.ctxOf t n) ++ threadRegs t n) ∧ SameBytes s u))
  ∧ ∀ (t : Fin 256) (n : Fin 16) (s : State) (x : Wait), (s.thread (thrKey t n)).wait = some x →
    (x.tmo ≠ 0 → x.watch = .none ∨ x.watch = .retry → s.doneQuiet t x.word → Does (.waitTimeout t n) s fun u =>
      u.bit (F.threadStatus.flagTmo t n) = !x.hit ∧ u.fld (F.threadStatus.state t n) = 1 ∧ (u.thread (thrKey t n)).wait = none
      ∧ (∀ k, k ∉ R.threadStatus t n :: waitTimes (s.ctxOf t n) → u.reg k = s.reg k + doneAdd t x.word k) ∧ SameBytes s u)
    ∧ (∀ o, x.watch = .retry → s.formOf x.obj = .here o → x.hit = true ∨ waitHolds x.cond (s.reg x.obj) x.comparand = true →
        s.tileReady (objTile x.obj) = true → s.doneQuiet t x.word → Does (.watchRetry t n) s fun u =>
          u.bit (F.threadStatus.flagTmo t n) = false ∧ u.fld (F.threadStatus.state t n) = 1 ∧ (u.thread (thrKey t n)).wait = none
          ∧ (∀ k, k ∉ R.threadStatus t n :: waitTimes (s.ctxOf t n) → u.reg k = s.reg k + doneAdd t x.word k) ∧ SameBytes s u)
    ∧ (∀ o, x.watch = .retry → s.formOf x.obj = .here o → x.hit = false → waitHolds x.cond (s.reg x.obj) x.comparand = false → objTile x.obj ≠ t →
        s.tileReady (objTile x.obj) = true → (s.tile (objTile x.obj)).watches.length < 32 → Does (.watchRetry t n) s fun u =>
          (u.thread (thrKey t n)).wait = some { x with watch := .placed }
          ∧ (u.tile (objTile x.obj)).watches = (s.tile (objTile x.obj)).watches ++
              [{ obj := x.obj, cond := x.cond, comparand := x.comparand, waiter := .inl (thrKey t n) }]
          ∧ RegsBut s u [] ∧ SameBytes s u)

/-! ### Descriptors of the DMA engine (chapters 2 to 4) -/

/-- Data movement with both ends on this module (R37): `LOAD` and `STORE` of one plain row, and `FILL`: the destination holds the bytes of the
source, or the pattern. The other rows: when every row or element passes its checks, the memory and the registers are those the engine's copy
gives (R72: rows and elements one after another). The descriptor is outstanding and done, and nothing else changes.
Where the rules leave something open it rests on the model's choice: log entries 7, 15 and 17. -/
def Obligations.DmaRowsComplete : Prop :=
  (∀ (t : Fin 256) (n : Fin 16) (w : Desc) (s : State) (a p : Nat) (b : List Byte),
    LocalDma s t n w → moveFieldFault w = none → PlainRange s p (dLen w) →
    let i := s.nextIss t n w
    let moved (l : List Byte) (u : State) : Prop :=
      u.bytes p (dLen w) = l ∧ Placed s u t n w .dma .done ∧ RegsBut s u (threadRegs t n) ∧ BytesBut s u p (dLen w)
    let row := dXform w = 0 ∧ s.localPhys i.c (i.srcRow 0) (dLen w) rightR = .ok a ∧ s.readData a (dLen w) = some b
      ∧ s.localPhys i.c (i.dstRow 0) (dLen w) rightW = .ok p
    (Issues s t n w 0x01 → row → Does (.load t n w) s (moved b))
    ∧ (Issues s t n w 0x04 → row → Does (.store t n w) s (moved b))
    ∧ (Issues s t n w 0x06 → s.localPhys i.c i.moveDst (dLen w) rightW = .ok p →
        Does (.fill t n w) s (moved (fillBytes ((i.ixAt (dSstr w)).toNat % 2 ^ 32) (dLen w)))))
  ∧ ∀ (t : Fin 256) (n : Fin 16) (w : Desc) (s m : State), LocalDma s t n w →
    let i := s.nextIss t n w
    let moved (u : State) : Prop :=
      (∀ b, u.byte b = m.byte b) ∧ Placed s u t n w .dma .done ∧ ∀ k, k ∉ threadRegs t n → u.reg k = m.reg k
    let copied := moveFieldFault w = none ∧ dXform w = 0 ∧ (s.afterFetch t n w).copyRows i (upto (dRows w)) = (m, none)
    let turned := moveFieldFault w = none ∧ dXform w ≠ 0 ∧ ∃ rows dst, s.readRows i = .ok rows ∧ s.dstPlan i = .ok dst
      ∧ (s.afterFetch t n w).landRows w dst rows = (m, none)
    (Issues s t n w 0x02 → copied ∨ turned → Does (.load2d t n w) s moved)
    ∧ (Issues s t n w 0x05 → copied ∨ turned → Does (.store2d t n w) s moved)
    ∧ (Issues s t n w 0x01 → turned → Does (.load t n w) s moved)
    ∧ (Issues s t n w 0x04 → turned → Does (.store t n w) s moved)
    ∧ (Issues s t n w 0x03 → i.moveDst % 256 = 0 → turned → Does (.loadPanel t n w) s moved)
    ∧ (∀ l, Issues s t n w 0x07 → listFieldFault w = none → s.indexList i = .ok l →
      (s.afterFetch t n w).copyElems i (l.zipIdx.map fun e => (i.tableElem e.1, i.localElem e.2)) = (m, none) →
      Does (.gather t n w) s moved)
    ∧ (∀ l, Issues s t n w 0x08 → listFieldFault w = none → s.indexList i = .ok l →
      (s.afterFetch t n w).copyElems i (l.zipIdx.map fun e => (i.localElem e.2, i.tableElem e.1)) = (m, none) →
      Does (.scatter t n w) s moved)
    ∧ (∀ l, Issues s t n w 0x09 → listFieldFault w = none → s.indexList i = .ok l →
      (s.afterFetch t n w).addElems i (l.zipIdx.map fun e => (i.localElem e.2, i.tableElem e.1)) = (m, none) →
      Does (.scatterAdd t n w) s moved)

/-- `PUSH` with free granules (R137): the entry with its length, format and sequence number is on top of the thread's stack, its bytes lie in
the granules it holds, and only those of memory and the high-water mark change; `POP` of a resident entry (R138): the entry is gone and its bytes
are at the destination.
Where the rules leave something open it rests on the model's choice: log entries 7 and 85. -/
def Obligations.HamperRowsComplete : Prop :=
  ∀ (t : Fin 256) (n : Fin 16) (w : Desc) (s : State), s.straight t n → s.roomFor t n w .dma →
    firstOpen (s.thread (thrKey t n)).pend = none → dHFmt w ≤ 9 →
    let i := s.nextIss t n w
    let h := s.slice t (s.ctxOf t n)
    (∀ src b, Issues s t n w 0x38 → s.hamperAop i rightR = .ok src → s.readData src (dHLen w) = some b → (h.stack n).length < 64 →
      granulesFor (dHLen w) ≤ (s.freeGranules t (s.ctxOf t n)).length →
      Does (.push t n w) s fun u =>
        (∃ xs : List Nat, let place (j : Nat) := s.granuleAt t (s.ctxOf t n) (xs.getD j 0)
          ((u.slice t (s.ctxOf t n)).stack n) = { len := dHLen w, fmt := dHFmt w, seq := h.nextSeq, grans := xs.map .slice } :: h.stack n
          ∧ xs.length = granulesFor (dHLen w) ∧ xs.Nodup ∧ (∀ x ∈ xs, x ∈ s.freeGranules t (s.ctxOf t n))
          ∧ (∀ j, j < xs.length → u.bytes (place j) (min granuleBytes (dHLen w - granuleBytes * j)) = (b.drop (granuleBytes * j)).take granuleBytes)
          ∧ (∀ a, (∀ j, j < xs.length → a < place j ∨ place j + granuleBytes ≤ a) → u.byte a = s.byte a))
        ∧ RegsBut s u ((F.hamperStatus.highWater (s.ctxOf t n)).reg :: threadRegs t n)
        ∧ (u.slice t (s.ctxOf t n)).nextSeq = h.nextSeq + 1 ∧ Placed s u t n w .dma .done)
    ∧ (∀ p e rest (parts : List (List Byte)), Issues s t n w 0x39 → s.hamperAop i rightW = .ok p → h.stack n = e :: rest → e.len = dHLen w → e.fmt = dHFmt w →
      e.slots = [] → (e.grans.zipIdx.map fun g => s.granuleBytesOf t (s.ctxOf t n) e g.2 g.1) = parts.map some →
      parts.flatten.length = dHLen w → PlainRange s p (dHLen w) → s.waitingPushes t (s.ctxOf t n) = [] →
      Does (.pop t n w) s fun u =>
        (u.slice t (s.ctxOf t n)).stack n = rest ∧ u.bytes p (dHLen w) = parts.flatten ∧ Placed s u t n w .dma .done
        ∧ RegsBut s u (threadRegs t n) ∧ BytesBut s u p (dHLen w))

/-! ### The vector engine (R40, R151, R152, R501, R502) -/

/-- The elementwise rows of one, two and three sources.
Where the rules leave something open it rests on the model's choice: log entries 7 and 88. -/
def Obligations.VecElementRowsComplete : Prop :=
  (ElemRow .copy 0x00 (fun w => [dS0 w]) (fun _ l => l.getD 0 (.fin false 0 0))
  ∧ ElemRow .scale 0x06 (fun w => [dS0 w]) (onOne fun w a => f32Mul (dImmF w) a)
  ∧ ElemRow .abs 0x09 (fun w => [dS0 w]) (onOne fun _ a => canonF32 (f32Abs a))
  ∧ ElemRow .sign 0x0A (fun w => [dS0 w]) (onOne fun _ => f32Sign)
  ∧ ElemRow .relu 0x0B (fun w => [dS0 w]) (onOne fun _ a => f32Max a 0)
  ∧ ElemRow .leakyRelu 0x0C (fun w => [dS0 w]) (onOne fun w a => if f32Lt0 a then f32Mul (dImmF w) a else canonF32 a)
  ∧ ElemRow .tanh 0x0D (fun w => [dS0 w]) (onOne fun _ => f32Tanh)
  ∧ ElemRow .sigmoid 0x0E (fun w => [dS0 w]) (onOne fun _ => f32Sigmoid)
  ∧ ElemRow .elu 0x0F (fun w => [dS0 w]) (onOne fun w => f32Elu (dImmF w))
  ∧ ElemRow .heathGate 0x10 (fun w => [dS0 w]) (onOne fun _ => f32HeathGate)
  ∧ ElemRow .gelu 0x11 (fun w => [dS0 w]) (onOne fun _ => f32Gelu)
  ∧ ElemRow .silu 0x12 (fun w => [dS0 w]) (onOne fun _ => f32Silu)
  ∧ ElemRow .exp 0x13 (fun w => [dS0 w]) (onOne fun _ => f32Exp)
  ∧ ElemRow .recip 0x14 (fun w => [dS0 w]) (onOne fun _ => f32Recip)
  ∧ ElemRow .rsqrt 0x15 (fun w => [dS0 w]) (onOne fun _ => f32Rsqrt))
  ∧ ElemRow .add 0x01 (fun w => [dS0 w, dS1 w]) (onTwo fun _ => f32Add)
  ∧ ElemRow .sub 0x02 (fun w => [dS0 w, dS1 w]) (onTwo fun _ => f32Sub)
  ∧ ElemRow .mul 0x03 (fun w => [dS0 w, dS1 w]) (onTwo fun _ => f32Mul)
  ∧ ElemRow .fma 0x04 (fun w => [dS0 w, dS1 w, dS2 w]) (fun _ l => valF32 (f32Fma (opF32 l 0) (opF32 l 1) (opF32 l 2)))
  ∧ ElemRow .axpby 0x05 (fun w => [dS0 w, dS1 w]) (onTwo fun w a b => f32Fma (dImm2 w) b (f32Mul (dImmF w) a))
  ∧ ElemRow .max 0x07 (fun w => [dS0 w, dS1 w]) (onTwo fun _ => f32Max)
  ∧ ElemRow .min 0x08 (fun w => [dS0 w, dS1 w]) (onTwo fun _ => f32Min)
  ∧ ElemRow .select 0x1D (fun w => [dS0 w, dS1 w, dS2 w]) (fun _ => selectVal)
  ∧ (∀ fn, derivListed fn = true →
      ∀ (t : Fin 256) (n : Fin 16) (w : Desc) (s : State) (srcs : List (List FVal)) (p : Nat), (dImm2 w).toNat % 256 = fn →
        VecReady s t n w 0x19 [dD w, dS0 w, dS1 w] → s.vecSources (s.nextIss t n w) [dS0 w, dS1 w] = .ok srcs →
        s.vecPhys (s.nextIss t n w) (dD w) (elemBytes (dFmtOut w) (dVecLen w)) rightW = .ok p →
        PlainRange s p (elemBytes (dFmtOut w) (dVecLen w)) →
        let r := (upto (dVecLen w)).map fun j => encodeElem (dFmtOut w)
          (onTwo (fun w => f32Deriv fn (dImmF w)) w (srcs.map fun l => l.getD j (.fin false 0 0)))
        Does (.deriv t n w) s fun u => Wrote s u t n w p (dFmtOut w) (r.map (·.1)) (r.any (·.2)))

/-- The row reductions, stochastic rounding, group scaling and `CHECK`.
Where the rules leave something open it rests on the model's choice: log entries 7, 87 and 88. -/
def Obligations.VecReductionAndFormatRowsComplete : Prop :=
  ReduceRow .rowMax 0x16 rowMax ∧ ReduceRow .rowSum 0x17 rowSum ∧ ReduceRow .rowSumsq 0x18 rowSumsq
  ∧ (∀ (t : Fin 256) (n : Fin 16) (w : Desc) (s : State) (codes : List Nat) (key : List Byte) (p : Nat),
      VecReady s t n w 0x1A [dD w, dS0 w, dS1 w] → dFmtOut w = 1 →
      s.vecCodes (s.nextIss t n w) (dS0 w) (dFmtIn w) (dVecLen w) = .ok codes → codes.length = dVecLen w →
      s.vecBytes (s.nextIss t n w) (dS1 w) 32 = .ok key →
      s.vecPhys (s.nextIss t n w) (dD w) (elemBytes 1 (dVecLen w)) rightW = .ok p → PlainRange s p (elemBytes 1 (dVecLen w)) →
      let q (o : Nat) : Word := BitVec.ofNat 64 (natAt key o 8)
      Does (.srBf16 t n w) s fun u => Wrote s u t n w p 1
        (codes.zipIdx.map fun c => srBf16 (BitVec.ofNat 32 (fp32.encode (decodeElem (dFmtIn w) c.1)).1)
          (srRandom (q 0) (q 8) (q 16 + BitVec.ofNat 64 c.2 * q 24)).toNat) false)
  ∧ (∀ (t : Fin 256) (n : Fin 16) (w : Desc) (s : State) (codes : List Nat) (pd ps : Nat),
      VecReady s t n w 0x1B [dD w, dS0 w, dS1 w] → qCal w = true → qOvb w = false → qBad w (dFmtOut w) = false → dFmtIn w ≤ 1 →
      (qZpe w = true → isFloatCode (dFmtOut w) = false) →
      s.vecCodes (s.nextIss t n w) (dS0 w) (dFmtIn w) (dVecLen w) = .ok codes →
      s.vecPhys (s.nextIss t n w) (dS1 w) (qBlockBytes w (dFmtOut w)) rightW = .ok ps →
      s.vecPhys (s.nextIss t n w) (dD w) (elemBytes (dFmtOut w) (dVecLen w)) rightW = .ok pd →
      let gs := (rowsOf (qGroupLen w) (qGroupList w).length (codes.map (decodeElem (dFmtIn w)))).map (calGroup (dFmtOut w) (qZpe w))
      ∀ m v, (s.afterFetch t n w).vecWrite pd (dFmtOut w) (gs.map (·.codes)).flatten = .ok m →
        m.writeEntries ps w (dFmtOut w) ((qGroupList w).zip (gs.map fun g => g.scale.word (dFmtOut w))) = .ok v →
        (∀ g ∈ gs, g.const = false) →
        Does (.quant t n w) s fun u =>
          (∀ b, u.byte b = v.byte b) ∧ Placed s u t n w .vec .done
          ∧ u.bit (F.threadStatus.flagNan t n) = (v.bit (F.threadStatus.flagNan t n) || gs.any (·.nan)))
  ∧ (∀ (t : Fin 256) (n : Fin 16) (w : Desc) (s : State) (codes : List Nat) (block : List Byte) (p : Nat),
      VecReady s t n w 0x1C [dD w, dS0 w, dS1 w] → qBad w (dFmtIn w) = false → dFmtOut w ≤ 1 →
      s.vecCodes (s.nextIss t n w) (dS0 w) (dFmtIn w) (dVecLen w) = .ok codes →
      s.vecBytes (s.nextIss t n w) (dS1 w) (qBlockBytes w (dFmtIn w)) = .ok block →
      s.vecPhys (s.nextIss t n w) (dD w) (elemBytes (dFmtOut w) (dVecLen w)) rightW = .ok p →
      PlainRange s p (elemBytes (dFmtOut w) (dVecLen w)) →
      let vals := (((qGroupList w).zip (rowsOf (qGroupLen w) (qGroupList w).length codes)).map fun e =>
        e.2.map (dequantElem (dFmtIn w)
          (scaleOf (dFmtIn w) (natAt block (qEntryOff w (dFmtIn w) e.1.1 e.1.2) (qEntrySize (dFmtIn w)))))).flatten
      vals.length = dVecLen w →
      let r := vals.map (encodeElem (dFmtOut w))
      Does (.dequant t n w) s fun u => Wrote s u t n w p (dFmtOut w) (r.map (·.1)) (r.any (·.2)))
  ∧ (∀ (t : Fin 256) (n : Fin 16) (w : Desc) (s : State) (l : List FVal),
      VecReady s t n w 0x1E [dS0 w] → s.vecSources (s.nextIss t n w) [dS0 w] = .ok [l] →
      Does (.check t n w) s fun u =>
        u.bit (F.threadStatus.flagNan t n) = (s.bit (F.threadStatus.flagNan t n) || l.any fun v => !isFiniteVal v)
        ∧ u.bit (F.threadStatus.flagUsr t n) =
            ((dImm2 w).getLsbD 1 || (!(dImm2 w).getLsbD 2 && s.bit (F.threadStatus.flagUsr t n)))
        ∧ Placed s u t n w .vec .done ∧ RegsBut s u (threadRegs t n) ∧ SameBytes s u)

/-! ### The array (chapter 4) -/

/-- `MMA_START`, `MMA_STEP` and `MMA_UNLOAD` of the thread that may use the array (R31, R83, R92, R93): the claim and the
accumulators, and the rows written; behind an array descriptor of its thread that has not completed it waits in the queue (R30), and is taken
when that one has completed; and the save and restore of a preempted claim, and the discard of one whose thread has
stopped (R98, R99).
Where the rules leave something open it rests on the model's choice: log entries 7, 86 and 124. -/
def Obligations.ArrayRowsComplete : Prop :=
  ∀ (t : Fin 256) (n : Fin 16) (w : Desc) (s : State),
    let tl := s.tile t
    (ArrayReady s t n w 0x10 → s.arrayFree t n = true → dMode w = 0 → dAccFmt w = 7 ∨ dAccFmt w = 8 → Does (.mmaStart t n w) s fun u =>
        (u.tile t).claim = some { thread := n, ctx := s.ctxOf t n, fmt := dAccFmt w, rows := 64, cols := 64 }
        ∧ (∀ r q, (u.tile t).cell r q = 0) ∧ Placed s u t n w .array .done ∧ RegsBut s u (threadRegs t n) ∧ SameBytes s u)
    ∧ (∀ p, ArrayReady s t n w 0x10 → s.arrayFree t n = true → dMode w = 2 → dAccFmt w = 7 ∨ dAccFmt w = 8 →
      s.ownRead (s.nextIss t n w) (s.aop t n w 80) (rawBytes (dAccFmt w)) 0x05 = .ok p → Does (.mmaStart t n w) s fun u =>
        (u.tile t).claim = some { thread := n, ctx := s.ctxOf t n, fmt := dAccFmt w, rows := 64, cols := 64 }
        ∧ (∀ r q, r < 64 → q < 64 → (u.tile t).cell r q = s.rawAcc (dAccFmt w) p r q) ∧ Placed s u t n w .array .done
        ∧ RegsBut s u (threadRegs t n) ∧ SameBytes s u)
    ∧ (∀ p, ArrayReady s t n w 0x10 → s.arrayFree t n = true → dMode w = 1 → dAccFmt w = 7 ∨ dAccFmt w = 8 →
      s.ownRead (s.nextIss t n w) (s.aop t n w 80) 16384 0x05 = .ok p → Does (.mmaStart t n w) s fun u =>
        (u.tile t).claim = some { thread := n, ctx := s.ctxOf t n, fmt := dAccFmt w, rows := 64, cols := 64 }
        ∧ (∀ r q, r < 64 → q < 64 → (u.tile t).cell r q = accOfF32 (dAccFmt w) (BitVec.ofNat 32 (s.memNat (p + 4 * accKey r q) 4)))
        ∧ Placed s u t n w .array .done ∧ RegsBut s u (threadRegs t n) ∧ SameBytes s u)
    ∧ (∀ c x, ArrayReady s t n w 0x11 → tl.claim = some c → c.thread = n → dK w ≠ 0 → classAllowed (dFmtA w) (dFmtB w) = true →
      c.fmt = (if dFmtA w = 1 then 7 else 8) → dFmtA w = 1 ∨ dGroup w = 0 ∨ s.safeMode (t / 64) = false →
      s.stepPanels (s.nextIss t n w) = .ok x → Does (.mmaStep t n w) s fun u =>
        (∀ r q, r < dActRows w → q < dActCols w → (u.tile t).cell r q = s.cellStep x r q (tl.cell r q))
        ∧ (∀ r q, r < 64 → q < 64 → dActRows w ≤ r ∨ dActCols w ≤ q → (u.tile t).cell r q = tl.cell r q)
        ∧ (u.tile t).claim = some { c with rows := dActRows w, cols := dActCols w }
        ∧ Placed s u t n w .array .done ∧ RegsBut s u (threadRegs t n) ∧ SameBytes s u)
    ∧ (∀ c ps m, ArrayReady s t n w 0x12 → tl.claim = some c → c.thread = n → unloadAllowed c.fmt (dArrayOut w) = true →
      ((upto c.rows).mapM fun r => s.ownPhys (s.nextIss t n w) (addrPlus (s.aop t n w 80) (r * (8 * fmtBits (dArrayOut w)) : Nat))
        (c.cols * fmtBits (dArrayOut w) / 8) rightW 0x05) = .ok ps →
      (s.afterFetch t n w).writeRows ps ((upto c.rows).map fun r => unloadRow tl c (dArrayOut w) r) = (m, none) →
      Does (.mmaUnload t n w) s fun u =>
        (∀ b, u.byte b = m.byte b) ∧ (u.tile t).claim = some c ∧ Placed s u t n w .array .done
        ∧ ∀ k, k ∉ threadRegs t n → u.reg k = m.reg k)
    ∧ (∀ row ∈ [(Instr.mmaStart, 0x10), (Instr.mmaStep, 0x11), (Instr.mmaUnload, 0x12)],
      Issues s t n w row.2 → s.straight t n → s.roomFor t n w .array → s.arrayPends t n = true → tl.preemptedOf n = none →
      tl.claim.any (fun c => c.thread == n.val) = true → Does (row.1 t n w) s fun u =>
        Placed s u t n w .array .queued ∧ (u.tile t).claim = tl.claim ∧ (u.tile t).acc = tl.acc ∧ RegsBut s u (threadRegs t n) ∧ SameBytes s u)
    ∧ (∀ k p q m, (s.thread (thrKey t n)).pend[k]? = some p → p.eng = .array → p.phase = .done → dOp p.word = 0x10 ∨ dOp p.word = 0x11 →
      oldestOfEngine (s.thread (thrKey t n)).pend k = true → s.dmaStill t n →
      let v := s.asyncComplete t n k
      (v.thread (thrKey t n)).pend[k]? = some q → ((v.thread (thrKey t n)).pend.take k).all (fun x => x.eng != .array) = true →
      q.eng = .array → q.phase = .queued → v.arrayBusy t n = false →
      v.arrayTurn t n (dOp q.word) = true → v.arrayReach (v.issOf (thrKey t n) q) = (m, none) →
      Does (.asyncDescriptorComplete t n k) s fun u => u = m.setPend (thrKey t n) k { q with phase := .done })
    ∧ (∀ k c, tl.preempting = some k → tl.claim = some c → s.arrayBusy t c.thread = false → s.prio t k = 3 → s.prio t c.thread ≠ 3 →
      inMeadow t (s.saveBase t c.ctx) (rawBytes c.fmt) = true →
      PlainRange s (s.saveBase t c.ctx) (rawBytes c.fmt) → c.fmt = 7 ∨ c.fmt = 8 → Does (.arrayPreemptSave t) s fun u =>
        (u.tile t).claim = none ∧ (u.tile t).preempting = some k ∧ (u.tile t).preempted = { c with lost := false } :: tl.preempted
        ∧ u.fld (F.threadStatus.state t k) = (if s.fld (F.threadStatus.state t k) = 3 then 1 else s.fld (F.threadStatus.state t k))
        ∧ (∀ r q, r < 64 → q < 64 → u.memNat (s.saveBase t c.ctx + (if c.fmt = 7 then 8 else 16) * accKey r q)
            (if c.fmt = 7 then 8 else 16) = (tl.cell r q).toNat % 2 ^ (8 * if c.fmt = 7 then 8 else 16))
        ∧ RegsBut s u [R.threadStatus t k] ∧ BytesBut s u (s.saveBase t c.ctx) (rawBytes c.fmt))
    ∧ (∀ k c, tl.preempting = some k → tl.claim = some c → s.arrayBusy t c.thread = true ∨ s.prio t k ≠ 3 ∨ s.prio t c.thread = 3 →
      Does (.arrayPreemptSave t) s fun u => u = s)
    ∧ (∀ c rest, tl.claim = none → tl.preempted = c :: rest → c.lost = false → s.keptFor t c.thread = false → s.noneArrayQueued t →
      (s.readData (s.saveBase t c.ctx) (rawBytes c.fmt)).isSome = true → Does (.arrayRestore t) s fun u =>
        (u.tile t).claim = some c ∧ (u.tile t).preempted = rest
        ∧ (∀ r q, r < 64 → q < 64 → (u.tile t).cell r q = s.rawAcc c.fmt (s.saveBase t c.ctx) r q)
        ∧ RegsBut s u [R.threadStatus t c.thread] ∧ SameBytes s u)
    ∧ (∀ c, tl.claim = some c → tl.preempted = [] → c.thread = n → s.fld (F.threadStatus.state t n) = 6 →
      (∀ x ∈ (s.thread (thrKey t n)).pend, x.eng ≠ .array) → s.noneArrayQueued t → Does (.arrayClaimDiscard t) s fun u =>
        (u.tile t).claim = none ∧ (u.tile t).acc = [] ∧ SameBytes s u)


/-! ### Thread control, segment entries and completion (chapters 2 and 3) -/

/-- `EVENT` (R37): an event with the code and the data of the descriptor is in the error log, and the thread goes on. The completion of an
asynchronous descriptor whose effect is made and before which no descriptor of its engine is outstanding (R30): it leaves the list; its
`DONE_OBJ` counter rises by 1; the completion of an `MMA_UNLOAD` releases the array (R31); a stopping thread with nothing left to complete is
idle (R33), with the `EXIT_OBJ` add and the `DONE_OBJ` of the `HALT` it ends in (R34, R37), and without them where it ends in none. A descriptor
queued for the array behind another, or while its turn has not come, waits (R30, R31).
Where the rules leave something open it rests on the model's choice: log entries 7 and 124. -/
def Obligations.EventAndCompletionComplete : Prop :=
  (∀ (t : Fin 256) (n : Fin 16) (w : Desc) (s : State) (k : Nat), s.plain t n w → Issues s t n w 0x3C →
    LogRoom s (bitsAt w 48 16) 0 0x0C (threadUnit t n (s.ctxOf t n)) k → Does (.event t n w) s fun u =>
      u.logSlot k = s.entryNow (bitsAt w 48 16) 0 0x0C (threadUnit t n (s.ctxOf t n)) (bitsAt w 0 48) 2
      ∧ GoesOn s u t n ∧ RegsDone s u t n w [R.logNextSeq] ∧ SameBytes s u)
  ∧ ∀ (t : Fin 256) (n : Fin 16) (k : Nat) (s : State) (p : Pend),
    let th := s.thread (thrKey t n)
    th.pend[k]? = some p →
    (p.phase = .queued → p.eng = .array → s.dmaStill t n →
      s.arrayBusy t n = true ∨ (s.arrayTurn t n (dOp p.word) = false ∧ ∀ q ∈ th.pend.take k, q.eng ≠ .array) →
      Does (.asyncDescriptorComplete t n k) s fun u => u = s)
    ∧ (p.phase = .done → oldestOfEngine th.pend k = true → s.noneArrayQueued t → s.dmaStill t n → s.pendQuiet t p →
      (¬ (th.ending = .halt ∧ th.pend.length = 1 ∧ s.fld (F.threadStatus.state t n) = 7) → Does (.asyncDescriptorComplete t n k) s fun u =>
        (u.thread (thrKey t n)).pend = th.pend.eraseIdx k
        ∧ (∀ c, dOp p.word = 0x12 → (s.tile t).claim = some c → c.thread = n → (u.tile t).claim = none ∧ (u.tile t).acc = [])
        ∧ (s.fld (F.threadStatus.state t n) = 7 → th.pend.length = 1 → th.held = none → u.fld (F.threadStatus.state t n) = 0)
        ∧ (∀ r, r ∉ tileStatuses t → u.reg r = s.reg r + pendAdd t p r) ∧ MarksOnly s u (s.ctxOf t n))
      ∧ (∀ w, th.ending = .halt → th.held = some w → th.pend.length = 1 → s.fld (F.threadStatus.state t n) = 7 → s.doneQuiet t w →
        (s.bit (F.threadCtl.exitEn t n) = true → QuietCounter s (R.syncCount t (s.fld (F.threadCtl.exitObj t n)))) →
        Does (.asyncDescriptorComplete t n k) s fun u =>
          (u.thread (thrKey t n)).pend = [] ∧ (u.thread (thrKey t n)).held = none ∧ u.fld (F.threadStatus.state t n) = 0
          ∧ (∀ r, r ∉ tileStatuses t → u.reg r = s.reg r + pendAdd t p r + s.exitAdd t n r + doneAdd t w r)
          ∧ MarksOnly s u (s.ctxOf t n)))

/-- `START` and `STOP` (R33). A thread that is idle or faulted takes the fields written and starts with empty stacks and clear flags; one
that runs ignores changed fields and says so. `STOP` wins over `START` in one write; a stopping thread is idle at once, or when its
outstanding descriptors and the one it holds have completed; it gives up a pending `WAIT`, whose time is counted (R245).
Where the rules leave something open it rests on the model's choice: log entries 10, 50 and 91. -/
def Obligations.ThreadControlCompletes : Prop :=
  ∀ (t : Fin 256) (n : Fin 16) (v : Word) (s : State), s.tileReady t = true →
    let th := s.thread (thrKey t n)
    (s.threadRuns t n = false → v.getLsbD 1 = false → Does (.threadStart t n v) s fun u =>
      u.reg (R.threadStatus t n) = 1 ∧ u.reg (R.threadCtl t n) = v &&& threadCtlMask
      ∧ u.thread (thrKey t n) = { pend := th.pend }
      ∧ (∀ l ∈ (u.tile t).cache, l.ctx ≠ u.ctxOf t n)
      ∧ RegsBut s u [R.threadCtl t n, R.threadStatus t n] ∧ SameBytes s u)
    ∧ (s.threadRuns t n = true → v.getLsbD 1 = false → Does (.threadStart t n v) s fun u =>
      u.bit (F.threadStatus.wrIgnored t n) =
        (s.bit (F.threadStatus.wrIgnored t n) || v &&& threadCtlMask != s.reg (R.threadCtl t n) &&& threadCtlMask)
      ∧ OnlyRegs s u [R.threadStatus t n])
    ∧ (v.getLsbD 1 = true → Does (.threadStart t n v) s fun u => exec (.threadStop t n v) s = .next u)
    ∧ (s.threadRuns t n = true → s.fld (F.threadStatus.state t n) ≠ 7 → th.pend = [] → th.held = none →
      Does (.threadStop t n v) s fun u =>
        u.fld (F.threadStatus.state t n) = 0 ∧ (u.thread (thrKey t n)).wait = none
        ∧ RegsBut s u (R.threadStatus t n :: waitTimes (s.ctxOf t n)) ∧ MarksOnly s u (s.ctxOf t n))
    ∧ (s.threadRuns t n = true → s.fld (F.threadStatus.state t n) ≠ 7 → th.pend ≠ [] ∨ th.held ≠ none → Does (.threadStop t n v) s fun u =>
        u.fld (F.threadStatus.state t n) = 7 ∧ (u.thread (thrKey t n)).wait = none ∧ (u.thread (thrKey t n)).pend = th.pend
        ∧ (u.thread (thrKey t n)).held = th.held ∧ RegsBut s u (R.threadStatus t n :: waitTimes (s.ctxOf t n)) ∧ SameBytes s u)
    ∧ (s.fld (F.threadStatus.state t n) = 7 → Does (.threadStop t n v) s fun u => u = s)
    ∧ (s.threadRuns t n = false → Does (.threadStop t n v) s fun u =>
        u.reg (R.threadCtl t n) = v &&& threadCtlMask ∧ OnlyRegs s u [R.threadCtl t n])

/-- A write of a segment entry (R73, Table 3.6): an entry that is invalid or passes the checks is stored, reserved bits as 0; any other is
stored with `V` clear and recorded in `SEG_STATUS` with its index and reason. -/
def Obligations.SegmentWriteCompletes : Prop :=
  ∀ (c : Fin 8) (i : Fin 64) (v : BitVec 128) (s : State),
    let why := segReason (bitsAt v 16 24) (bitsAt v 40 24) (bitsAt v 80 24)
    let lo : Word := v.extractLsb' 0 64 &&& 0xFFFFFFFFFFFF0000#64
    let hi : Word := v.extractLsb' 64 64 &&& 0x003F00FFFFFF0000#64
    (v.getLsbD 112 = false ∨ why = 0 → Does (.segWrite c i v) s fun u =>
      u.reg (R.segLo c i) = lo ∧ u.reg (R.segHi c i) = hi
      ∧ u.fld (F.segLo.vbase c i) = bitsAt v 16 24 ∧ u.fld (F.segLo.size c i) = bitsAt v 40 24
      ∧ u.fld (F.segHi.pbase c i) = bitsAt v 80 24 ∧ u.bit (F.segHi.v c i) = v.getLsbD 112
      ∧ OnlyRegs s u [R.segLo c i, R.segHi c i])
    ∧ (v.getLsbD 112 = true → why ≠ 0 → Does (.segWrite c i v) s fun u =>
      u.reg (R.segLo c i) = lo ∧ u.reg (R.segHi c i) = hi - 2 ^ 48
      ∧ u.bit (F.segHi.v c i) = false ∧ u.bit (F.segStatus.refused c) = true ∧ u.fld (F.segStatus.refIndex c) = i
      ∧ u.fld (F.segStatus.refReason c) = why ∧ u.fld (F.segLo.vbase c i) = bitsAt v 16 24
      ∧ OnlyRegs s u [R.segLo c i, R.segHi c i, R.segStatus c])


/-! ### Transfers that arrive (chapters 3 and 11) -/

/-- A context access from another module (R75): one its segments allow waits, translated, for its last flit; one of a context that does not
run, or that they refuse, is counted in `REMOTE_REJECTS` and answered with an error response; a corrupt one is dropped (R266). The accepted
access then moves its data and is answered (R282); while a shadow slot is not swept or a factor buffer is copied in, it waits (R18, R20).
A store to a counter is a `SET` (R49), a scatter-add adds FP32 elements (R39). A write behind its deadline is `PROMISE_VOID` (R296). A
synchronisation operation on a counter its segments allow (R44, R47, R48, R56): a `SIGNAL` gives the counter its new value, or arms the
payload; an `ARRIVE` combines its words and adds 1, both answered; a watch is answered when its condition holds, or when it comes again after a
refusal and an update has satisfied it in between (R48); it is kept when it does not, with bit 30 of `AUX` in its answer, and is refused with
bit 31 when the table of 32 is full; a read is answered with the count; on a die held in reset it is an error (R411).
Where the rules leave something open it rests on the model's choice: log entries 12 and 113. -/
def Obligations.RemoteRequestsComplete : Prop :=
  ((∀ (s : State) (k : Nat) (a : Arrived), Comes s k a → a.kind = 1 ∨ a.kind = 3 ∨ a.kind = 4 ∨ a.kind = 8 →
    (∀ p, s.translate a.ctx a.offset (max 1 a.len) (kindRight a.kind) true = .inr p → Does (.remoteAccessArrival k) s fun u =>
      u = { s.untaken k with accepted := s.accepted ++ [{ arrived := a, phys := p }] })
    ∧ (∀ f, s.translate a.ctx a.offset (max 1 a.len) (kindRight a.kind) true = .inl f → Does (.remoteAccessArrival k) s fun u =>
      Refused (s.untaken k) u a))
  ∧ (∀ (s : State) (k : Nat) (a : Arrived), s.arrived[k]? = some a → s.inTurn k a = true →
    a.kind = 1 ∨ a.kind = 3 ∨ a.kind = 4 ∨ a.kind = 8 →
    (a.poison = true → Does (.remoteAccessArrival k) s fun u => u = s.untaken k)
    ∧ (a.poison = false → s.remoteAllowed a = false → Does (.remoteAccessArrival k) s fun u => Refused (s.untaken k) u a))
  ∧ (∀ (s : State) (k : Nat) (x : Accepted), s.accepted[k]? = some x →
    let a := x.arrived
    let rest : State := { s with accepted := s.accepted.eraseIdx k }
    (s.serveHeld x = true → Does (.transferArrival k) s fun u => u = s)
    ∧ (s.serveHeld x = false → ((s.accepted.take k).any fun y => a.sameStream y.arrived) = false →
      (∀ b, a.kind = 1 → s.readData x.phys a.len = some b → Does (.transferArrival k) s fun u => u = rest.answerTo a 0x02 0 b)
      ∧ (a.kind = 1 → s.readData x.phys a.len = none → Does (.transferArrival k) s fun u =>
          u = (rest.noteBadRead x.phys a.len).answerTo a 0x0C 0 [])
      ∧ (a.kind = 3 ∨ a.kind = 8 → PlainRange s x.phys a.data.length → Does (.transferArrival k) s fun u =>
          ∃ m, u = (m.judgeArrival a).answerTo a 0x0B 0 [] ∧ Moved rest m x.phys a.data
            ∧ (s.now ≤ a.deadline → m.judgeArrival a = m)
            ∧ ∀ j, a.deadline < s.now → LogRoom s 0x2004 2 0x04 a.port j → VoidedAt s (m.judgeArrival a) j a.port a.src)
      ∧ (∀ h o, a.kind = 3 → placeOf x.phys = .control h o → isCounterOff o = true → o % 8 = 0 → a.data.length = 8 →
          s.tileReady h = true → QuietCounter s x.phys → Does (.transferArrival k) s fun u =>
          ∃ m, u = (m.judgeArrival a).answerTo a 0x0B 0 [] ∧ m.reg x.phys = BitVec.ofNat 64 (leNat a.data)
            ∧ RegsBut rest m [x.phys] ∧ SameBytes rest m)
      ∧ (a.kind = 4 → PlainRange s x.phys (4 * (a.len / 4)) → (s.readData x.phys (4 * (a.len / 4))).isSome = true →
          Does (.transferArrival k) s fun u =>
          ∃ m, u = (m.judgeArrival a).answerTo a 0x0B 0 []
            ∧ (∀ i, i < a.len / 4 → m.memNat (x.phys + 4 * i) 4 =
                (f32Add (BitVec.ofNat 32 (s.memNat (x.phys + 4 * i) 4)) (BitVec.ofNat 32 (natAt a.data (4 * i) 4))).toNat)
            ∧ BytesBut rest m x.phys (4 * (a.len / 4)) ∧ RegsBut rest m []))))
  ∧ ∀ (s : State) (k : Nat) (a : Arrived) (p : Nat), Comes s k a → a.kind = 5 → s.translateObj a.ctx a.offset true = .inr p →
    let rest := s.untaken k
    let judged := rest.judgeArrival a
    let seen := (rest.forgetRetried a p).judgeArrival a
    let opc := a.aux % 16
    let v : Word := BitVec.ofNat 64 (natAt a.data 0 8)
    let tl := seen.tile (objTile p)
    let asked : WatchEntry := { obj := p, cond := opc, comparand := v, waiter := .inr a }
    let words := a.aux / 256 % 256
    (s.tileReady (objTile p) = false → Does (.remoteSyncOperation k) s fun u => u = rest.answerTo a 0x0C 0 [])
    ∧ (s.tileReady (objTile p) = true →
      (QuietCounter s p → a.aux / 16 % 16 = 0 → opc < 6 → Does (.remoteSyncOperation k) s fun u =>
        ∃ m, u = (m.judgeArrival a).answerTo a 0x0B 0 [] ∧ m.reg p = signalApply opc (s.reg p) v ∧ RegsBut s m [p] ∧ SameBytes s m)
      ∧ (a.aux / 16 % 16 = 0 → opc = 6 → v.toNat % 16 < 0xA → v.toNat % 16 ≠ 0 → Does (.remoteSyncOperation k) s fun u =>
        ∃ m, u = (m.judgeArrival a).answerTo a 0x0B 0 []
          ∧ (∀ i, i < 32 → m.memNat (payloadOf p + 8 * i) 8 = (reduceIdentity (v.toNat % 16)).toNat)
          ∧ RegsBut s m [] ∧ BytesBut s m (payloadOf p) 256)
      ∧ (QuietCounter s p → a.aux / 16 % 16 = 2 → opc < 0xA → opc ≠ 0 → words ≤ 32 → Does (.remoteSyncOperation k) s fun u =>
        ∃ m, u = (m.judgeArrival a).answerTo a 0x0B 0 [] ∧ m.reg p = s.reg p + 1
          ∧ (∀ i, i < words → m.memNat (payloadOf p + 8 * i) 8 =
              (reduceWord opc (BitVec.ofNat 64 (s.memNat (payloadOf p + 8 * i) 8)) (BitVec.ofNat 64 (natAt a.data (8 * i) 8))).toNat)
          ∧ RegsBut s m [p] ∧ BytesBut s m (payloadOf p) (8 * words))
      ∧ (QuietCounter s p → a.aux / 16 % 16 = 2 → opc = 0 → words ≤ 32 → Does (.remoteSyncOperation k) s fun u =>
        ∃ m, u = (m.judgeArrival a).answerTo a 0x0B 0 [] ∧ m.reg p = s.reg p + 1 ∧ RegsBut s m [p] ∧ SameBytes s m)
      ∧ (a.aux / 16 % 16 = 1 → opc < 6 → waitHolds opc (s.reg p) v = true ∨ s.wasHit a p = true → Does (.remoteSyncOperation k) s fun u =>
        u = seen.answerTo a 0x0B 0 [])
      ∧ (a.aux / 16 % 16 = 1 → opc < 6 → waitHolds opc (s.reg p) v = false → s.wasHit a p = false →
        (tl.watches.length < 32 → Does (.remoteSyncOperation k) s fun u =>
          u = (seen.setTile (objTile p) { tl with watches := tl.watches ++ [asked] }).answerTo a 0x0B (2 ^ 30) [])
        ∧ (32 ≤ tl.watches.length → Does (.remoteSyncOperation k) s fun u =>
          u = (seen.setTile (objTile p) { tl with retried := tl.retried ++ [asked] }).answerTo a 0x0B (2 ^ 31) []))
      ∧ (a.aux / 16 % 16 = 3 → Does (.remoteSyncOperation k) s fun u => u = judged.answerTo a 0x0B 0 (leBytes 8 (s.reg p).toNat)))

/-- Answers at the issuer (R282, R283, R78). A completion lets the thread that waits for it go on, with the count read in its index register
where it read one, or keeps a row of an asynchronous descriptor that waits for others; an error response faults the thread with code 0x05,
and `SEG_FAULT_ADDR` records its address when no earlier fault stands there. The transfer is no longer open, but for a watch that is placed (bit
30 of `AUX`), whose release is a second completion and which no check ends. An unanswered transfer (R296, R297): when its completion check passes it is void, counted and raised as
`PROMISE_VOID`; when the grace behind the check passes, the thread that waits for it faults with code 0x05. A read response in time is not
judged (R296).
Where the rules leave something open it rests on the model's choice: log entries 12 and 18. -/
def Obligations.AnswersComplete : Prop :=
  (∀ (s : State) (k : Nat) (a : Arrived) (x : Xfer) (t : Fin 256) (n : Fin 16), AnswersXfer s k a x →
    let dropped := s.xfers.filter fun y => y.tid != x.tid
    (a.kind = 0x0B ∨ (a.kind = 0x02 ∧ s.now ≤ a.deadline) →
      (∀ w, x.use = .sync (thrKey t n) → Awaiting s t n w x → Does (.completionArrival k) s fun u =>
        StepsOn s u t n w ∧ (u.thread (thrKey t n)).syncTid = none ∧ (u.thread (thrKey t n)).held = none ∧ u.xfers = dropped)
      ∧ (∀ w j, j < 8 → x.use = .syncRead (thrKey t n) j → Awaiting s t n w x → Does (.completionArrival k) s fun u =>
        u.ix t n j = BitVec.ofNat 64 (natAt a.data 0 8) ∧ StepsOn s u t n w [R.ix t n j] ∧ (u.thread (thrKey t n)).syncTid = none
        ∧ (u.thread (thrKey t n)).held = none ∧ u.xfers = dropped)
      ∧ (∀ part j p l, x.use = .row (thrKey t n) part → s.pendOf (thrKey t n) x.tid = some j →
        (s.thread (thrKey t n)).pend[j]? = some p → p.phase = .transfer l → (l.filter fun y => y != x.tid) ≠ [] → a.data ≠ [] →
        Does (.completionArrival k) s fun u =>
          (u.thread (thrKey t n)).pend = (s.thread (thrKey t n)).pend.set j
            { p with got := Tab.put (fun _ => []) p.got part a.data, phase := .transfer (l.filter fun y => y != x.tid) }
          ∧ u.xfers = dropped ∧ RegsBut s u [] ∧ SameBytes s u))
    ∧ (∀ wt, a.kind = 0x0B → x.use = .watch (thrKey t n) → (s.thread (thrKey t n)).wait = some wt → wt.watch = .remote x.tid →
      s.doneQuiet t wt.word → Does (.completionArrival k) s fun u =>
        (a.aux.testBit 30 = true → u.thread (thrKey t n) = s.thread (thrKey t n) ∧ u.xfers = dropped ++ [{ x with placed := true }] ∧ RegsBut s u [])
        ∧ (a.aux.testBit 30 = false → u.xfers = dropped)
        ∧ (a.aux.testBit 30 = false → a.aux.testBit 31 = true →
            (u.thread (thrKey t n)).wait = some { wt with watch := .retry } ∧ RegsBut s u [])
        ∧ (a.aux.testBit 30 = false → a.aux.testBit 31 = false → (u.thread (thrKey t n)).wait = none ∧ u.fld (F.threadStatus.state t n) = 1
            ∧ u.bit (F.threadStatus.flagTmo t n) = false
            ∧ ∀ r, r ∉ R.threadStatus t n :: waitTimes (s.ctxOf t n) → u.reg r = s.reg r + doneAdd t wt.word r)
        ∧ SameBytes s u)
    ∧ (∀ w, a.kind = 0x0C → x.kind ≠ 9 → x.use = .sync (thrKey t n) → Awaiting s t n w x → Does (.errorResponseArrival k) s fun u =>
      FaultsAway s u t n (if x.aux / 16 % 16 = 2 then 0x22 else 0x20)
      ∧ ((s.ctx (s.ctxOf t n)).accessFault = false → (u.reg (R.segFaultAddr (s.ctxOf t n))).toNat = awayAddr x.dest x.offset)
      ∧ u.findXfer x.tid = none))
  ∧ ∀ (s : State) (x : Xfer), s.findXfer x.tid = some x → x.placed = false →
    (∀ j, x.voided = false → x.kind ≠ 9 → x.check < s.now → LogRoom s 0x2004 2 0x04 (s.firstPort x) j →
      Does (.completionCheckExpired x.tid) s fun u =>
        u.findXfer x.tid = some { x with voided := true } ∧ VoidedAt s u j (s.firstPort x) x.dest
        ∧ RegsBut s u [R.promiseVoids, R.logNextSeq] ∧ SameBytes s u)
    ∧ (∀ (t : Fin 256) (n : Fin 16) (w : Desc), x.check + 1000000 * s.fld F.voidGrace.val ≤ s.now → x.use = .sync (thrKey t n) →
      Awaiting s t n w x → Does (.voidGraceExpired x.tid) s fun u =>
        FaultsAway s u t n (if x.aux / 16 % 16 = 2 then 0x22 else 0x20) ∧ u.findXfer x.tid = none)

/-- Shard packets (R298, R299). A good one is written, marks its granules present, leaves its row masks (R202) and is answered; one whose
factor buffer is copied in waits (R20); a corrupt one is raised as `SHARD_CRC` and asked for again, and noted until its second copy comes. The
issuer sends a packet again once, on a re-request or when its primary deadline passes; a second re-request, or its deadline, makes it
lost: `SHARD_LOST`, noted for the context's vote. While the fence holds the module's transfers back, none is sent again (R434). -/
def Obligations.ShardPacketsComplete : Prop :=
  (∀ (s : State) (k : Nat) (a : Arrived) (marks : PacketMarks), s.arrived[k]? = some a → a.kind = 9 →
    let data := a.data.take (a.data.length - 4)
    let id := (a.tag, a.aux % 2 ^ 16)
    let noted := s.shardFailed.contains id
    (s.shardHeld k = true → Does (.shardPacketReceived k marks) s fun u => u = s)
    ∧ (s.shardHeld k = false → s.inTurn k a = true →
      (∀ p, shardGood a = true → s.remoteAllowed a = true → s.translate a.ctx a.offset (max 1 data.length) rightW true = .inr p →
        PlainRange s p data.length → Does (.shardPacketReceived k marks) s fun u =>
          ∃ m, Moved (s.untaken k) m p data
            ∧ u = ((({ m with shardFailed := s.shardFailed.filter (· != id) }.markPresent a.ctx marks.granules).modCtx a.ctx fun x =>
                { x with masks := x.masks ++ marks.masks }).judgeArrival a).answerTo a 0x0B 0 [])
      ∧ (shardGood a = true → (s.remoteAllowed a = false ∨ ∃ f, s.translate a.ctx a.offset (max 1 data.length) rightW true = .inl f) →
          Does (.shardPacketReceived k marks) s fun u => Refused (s.untaken k) u a)
      ∧ (∀ j, shardGood a = false → LogRoom s 0x2001 1 0x04 a.port j → Does (.shardPacketReceived k marks) s fun u =>
          (noted = false → id ∈ u.shardFailed) ∧ (noted = true → id ∉ u.shardFailed)
          ∧ (u.logSlot j).code = 0x2001 ∧ (u.logSlot j).unit = a.port
          ∧ (u.logSlot j).data = (a.src + 2 ^ 17 * a.stream + 2 ^ 21 * a.ctx + 2 ^ 24 * boolNat noted + 2 ^ 32 * (a.aux % 2 ^ 16)) % 2 ^ 48
          ∧ SameBytes s u)))
  ∧ (∀ (s : State) (k : Nat) (a : Arrived) (x : Xfer), s.arrived[k]? = some a → s.inTurn k a = true → a.kind = 0x0A →
    s.findXfer x.tid = some x →
    (s.xfers.find? fun y => y.kind == 9 && y.dest == a.src && y.stream == a.stream && y.aux % 2 ^ 16 == a.aux % 2 ^ 16) = some x →
    (x.resent = false → Does (.shardRerequestReceived k) s fun u =>
      u.findXfer x.tid = some { x with asked := true, resent := s.fld F.fenceStatus.level == 0 } ∧ RegsBut s u [] ∧ SameBytes s u)
    ∧ (x.resent = true → x.asked = false ∨ x.voided = true → Does (.shardRerequestReceived k) s fun u =>
      u = (s.untaken k).setXfer { x with asked := true })
    ∧ (∀ j, x.resent = true → x.asked = true → x.voided = false → LogRoom s 0x2002 3 0x04 (s.firstPort x) j →
      Does (.shardRerequestReceived k) s fun u =>
        u.findXfer x.tid = some { x with voided := true } ∧ (u.logSlot j).code = 0x2002 ∧ (u.logSlot j).sev = 3
        ∧ (u.ctx x.ctx).voteBits.testBit 1 = true ∧ RegsBut s u [R.logNextSeq] ∧ SameBytes s u))
  ∧ ∀ (s : State) (x : Xfer), s.findXfer x.tid = some x → x.kind = 9 →
    (x.resent = false → x.primary ≤ s.now → Does (.shardPrimaryDeadline x.tid) s fun u =>
      u.findXfer x.tid = some { x with resent := s.fld F.fenceStatus.level == 0 } ∧ RegsBut s u [] ∧ SameBytes s u)
    ∧ (∀ j, x.voided = false → x.deadline ≤ s.now → LogRoom s 0x2002 3 0x04 (s.firstPort x) j → Does (.shardLost x.tid) s fun u =>
      u.findXfer x.tid = some { x with voided := true } ∧ (u.logSlot j).code = 0x2002 ∧ (u.logSlot j).sev = 3
      ∧ (u.ctx x.ctx).voteBits.testBit 1 = true ∧ RegsBut s u [R.logNextSeq] ∧ SameBytes s u)


/-! ### The host interface (chapter 12) -/

/-- The registers of BAR0 with a command of their own, and the link: doorbells move their count when it lies where the
rule allows, and set bit 2 of `ERR_SUMMARY` otherwise; `BAR2_SEL` ignores reserved values; the message of a vector goes out, or waits as its
pending bit (R316 to R322, R327).
Where the rules leave something open it rests on the model's choice: log entry 89. -/
def Obligations.HostRegistersComplete : Prop :=
  ∀ (s : State) (r : Fin 9) (v : BitVec 32), s.hostUp = true →
    let x := s.ring r
    let refused (u : State) : Prop :=
      u.bit ⟨R.errSummary, 2, 1⟩ = true ∧ u.rings = s.rings ∧ RegsBut s u [R.errSummary, R.intCause, R.msixPba] ∧ SameBytes s u
    (Does (.dbCmd r v) s fun u =>
      if above x.cmdTail x.cmdHead ≤ above v.toNat x.cmdHead ∧ above v.toNat x.cmdHead ≤ 8192 then
        (u.ring r).cmdTail = v.toNat ∧ RegsBut s u [] else refused u)
    ∧ (Does (.dbCq r v) s fun u =>
      if above v.toNat x.cqHead ≤ above x.cqTail x.cqHead then (u.ring r).cqHead = v.toNat ∧ RegsBut s u [] else refused u)
    ∧ (Does (.dbEq r v) s fun u =>
      if above v.toNat x.eqHead ≤ above x.eqTail x.eqHead then
        (u.ring r).eqHead = v.toNat ∧ RegsBut s u [] ∧ SameBytes s u else refused u)
    ∧ (∀ w : Word, Does (.bar2SelWrite w) s fun u =>
      u.fld F.bar2Sel.sel = (if w.toNat % 32 ≤ 16 then w.toNat % 32 else s.fld F.bar2Sel.sel) ∧ OnlyRegs s u [R.bar2Sel])
    ∧ (∀ w : Word, w.getLsbD 0 = false ∨ versionsMatch (bitsAt w 32 32) (s.fld F.moduleVersions.hostIf) = true →
      Does (.hostReadyWrite w) s fun u =>
        u.reg R.hostReady = w &&& 0xFFFFFFFF00000001#64 ∧ u.obj O.hostSwVersion = bitsAt w 32 32 ∧ RegsBut s u [R.hostReady])
    ∧ (∀ k : Fin 64, s.fld (F.intMod.holdoffNs k) ≠ 0 → Tab.get (fun _ => 0) s.vecCount k ≠ 0 → s.d3hot = false →
      Does (.interruptHoldoffExpired k) s fun u =>
        Tab.get (fun _ => 0) u.vecCount k = 0 ∧ SameBytes s u
        ∧ (s.msixOpen k = true → u.out = s.out ++ [.msix k (s.reg (R.msixAddr k)).toNat (s.fld (F.msixData.data k))] ∧ RegsBut s u [])
        ∧ (s.msixOpen k = false → u.out = s.out ∧ (u.reg R.msixPba).getLsbD k = true ∧ RegsBut s u [R.msixPba]))
    ∧ ((∀ c, c < 8 → (s.ctx c).slowRead = [] ∧ (s.ctx c).slowWrite = []) → Does .linkLeavesL0 s fun u =>
        u.hostUp = false ∧ RegsBut s u [R.funcReady, R.intCause, R.msixPba] ∧ SameBytes s u)

/-- The host link reaches L0 with bring-up step 4 complete and PERST# high, at a width and rate of Table 12.3 (R318); configuration
requests are answered from step 4 on while PERST# is high (R394) and take the settings Table 12.1 allows; a write puts the bits software may
write into its dword, clears the status bits it writes with one, leaves every other bit and dword, and enabling MSI-X sends the messages that
waited (R316, R317, R327).
Where the rules leave something open it rests on the model's choice: log entries 28 and 119. -/
def Obligations.HostLinkCompletes : Prop :=
  ∀ (s : State), s.bring.perst = true →
    (∀ width rate, [1, 2, 4, 8, 16].contains width = true → 1 ≤ rate → rate ≤ 7 → s.bring.step = 4 → Does (.linkEntersL0 width rate) s fun u =>
      u.hostUp = true ∧ u.fld F.linkStatus.width = width ∧ u.fld F.linkStatus.rate = rate
      ∧ u.bit F.linkStatus.flitMode = decide (6 ≤ rate) ∧ RegsBut s u [R.funcReady, R.intCause, R.msixPba, R.linkStatus] ∧ SameBytes s u)
    ∧ (s.bring.step ≠ 4 → ∀ q, Does (.configurationRequest q) s fun u => u = s)
    ∧ (s.bring.step = 4 → (∀ k, Does (.configurationRequest (.read k)) s fun u => u = { s with out := s.out ++ [.config (s.configDword k)] })
    ∧ (∀ d, Does (.configurationRequest (.power d)) s fun u => u = { s with d3hot := d })
    ∧ (∀ n, Does (.configurationRequest (.maxPayload n)) s fun u => u = { s with maxPayload := if powerIn 128 512 n then n else s.maxPayload })
    ∧ (∀ n, Does (.configurationRequest (.maxRead n)) s fun u => u = { s with maxRead := if powerIn 128 4096 n then n else s.maxRead })
    ∧ (∀ k v, Does (.configurationRequest (.write k v)) s fun u =>
      (∀ j, j ≠ k → u.cfgWord j = s.cfgWord j)
      ∧ (∀ b, b < 32 → (u.cfgWord k ^^^ cfgDefault k).getLsbD b =
          if (cfgMask k).getLsbD b = true then v.getLsbD b
          else if (cfgClear k).getLsbD b = true ∧ v.getLsbD b = true then (cfgDefault k).getLsbD b
          else (s.cfgWord k ^^^ cfgDefault k).getLsbD b)
      ∧ (k = 17 → u.d3hot = if v.toNat % 4 = 0 then false else if v.toNat % 4 = 3 then true else s.d3hot) ∧ (k ≠ 17 → u.d3hot = s.d3hot)
      ∧ (k = 22 → u.maxPayload = (let n := 128 * 2 ^ (v.toNat / 2 ^ 5 % 8); if n ≤ 512 then n else s.maxPayload)
          ∧ u.maxRead = (let n := 128 * 2 ^ (v.toNat / 2 ^ 12 % 8); if n ≤ 4096 then n else s.maxRead))
      ∧ (∀ x, k = 36 → x < 64 → (u.reg R.msixPba).getLsbD x = ((s.reg R.msixPba).getLsbD x && !u.msixOpen x))
      ∧ RegsBut s u [R.msixPba] ∧ SameBytes s u))

/-- Physical accesses of the host through BAR2 (R81) and of firmware cores of other modules (R76), and writes of registers by their address
(R12): a read answers the bytes, a write of plain memory puts them there, a register takes the bits software may write, and a word of a
reservation table or of a mailbox request is stored (R288, R371). An access that fails answers with an error; while the host link is down
a read of BAR2 fails and a write is discarded (R391, Table 12.8); that such a write is counted and sets bit 0 of `ERR_SUMMARY`, as a write that
fails does, is the model's choice (log entry 27). A firmware write behind its deadline is judged (R296).
Where the rules leave something else open it rests on the model's choice: log entries 22, 26 and 119. -/
def Obligations.PhysicalAccessesComplete : Prop :=
  (∀ (s : State) (off : BitVec 36) (n : Fin 4097), s.hostUp = true →
    let p := s.bar2Offset off.toNat
    (Does (.bar2Read off n) s fun u =>
      match s.localRead p n with
      | (some l, m) => u = { m with out := m.out ++ [.readData l] }
      | (none, m) => u.out.take (m.out.length + 1) = m.out ++ [.readFails] ∧ u.bit ⟨R.errSummary, 1, 1⟩ = true ∧ (u.cfgWord 65).getLsbD 20 = true)
    ∧ (p + n ≤ 0x80000000 ∨ 0x4000000000 ≤ p → s.rangeReady p n = true → s.badWords = [] → Does (.bar2Read off n) s fun u =>
      u = { s with out := s.out ++ [.readData ((upto n).map fun i => s.byte (memKey (p + i)))] }))
  ∧ (∀ (s : State) (off : BitVec 36) (n : Fin 4097) (data : List Byte), s.hostUp = false →
    (Does (.bar2Read off n) s fun u => u.out.take (s.out.length + 1) = s.out ++ [.readFails] ∧ u.bit ⟨R.errSummary, 1, 1⟩ = true
      ∧ (u.cfgWord 65).getLsbD 20 = true ∧ SameBytes s u)
    ∧ Does (.bar2Write off data) s fun u =>
      u.bit ⟨R.errSummary, 0, 1⟩ = true ∧ (u.reg R.bar2Discards).toNat = min ((s.reg R.bar2Discards).toNat + 1) (2 ^ 64 - 1) ∧ SameBytes s u)
  ∧ (∀ (s : State) (off : BitVec 36) (data : List Byte), s.hostUp = true →
    let p := s.bar2Offset off.toNat
    (PlainRange s p data.length → p < 0x80000000 ∨ 0x4000000000 ≤ p → Does (.bar2Write off data) s fun u => Moved s u p data)
    ∧ Does (.bar2Write off data) s fun u =>
      match s.localWrite p data with
      | (m, true) => u = m
      | (m, false) => u.bit ⟨R.errSummary, 0, 1⟩ = true
        ∧ (u.reg R.bar2Discards).toNat = min ((m.reg R.bar2Discards).toNat + 1) (2 ^ 64 - 1))
  ∧ (∀ (s : State) (k : Nat) (a : Arrived), s.arrived[k]? = some a → s.inTurn k a = true →
    (a.kind = 6 → Does (.firmwareAccessArrival k) s fun u =>
      match (s.untaken k).localRead a.offset a.len with
      | (some l, m) => u = m.answerTo a 0x02 0 l
      | (none, m) => u = m.answerTo a 0x0C 0 [])
    ∧ (a.kind = 7 → Does (.firmwareAccessArrival k) s fun u =>
      match (s.untaken k).localWrite a.offset a.data with
      | (m, true) => u = (m.judgeArrival a).answerTo a 0x0B 0 []
      | (m, false) => u = m.answerTo a 0x0C 0 [])
    ∧ (a.kind = 7 → PlainRange s a.offset a.data.length → a.offset < 0x80000000 ∨ 0x4000000000 ≤ a.offset →
      Does (.firmwareAccessArrival k) s fun u =>
        ∃ m, Moved (s.untaken k) m a.offset a.data ∧ u = (m.judgeArrival a).answerTo a 0x0B 0 []))
  ∧ ∀ (s : State) (k : Nat) (v : Word),
    (targetOf k = .store → k % 8 = 0 → (regSpecOf k).isSome = false → s.busReady k = true → s.storeOpen k = true →
      Does (.registerWrite k v) s fun u =>
        u.bytes k 8 = (if inResTable k = true then resBytes (leBytes 8 v.toNat) else leBytes 8 v.toNat) ∧ BytesBut s u k 8 ∧ RegsBut s u []) ∧
    (∀ r, plainBar0 k = true → regSpecOf k = some r → s.hostUp = true → Does (.registerWrite k v) s fun u =>
      u.reg k = ((v &&& r.rw) ||| (s.reg k &&& ~~~r.rw &&& ~~~(v &&& r.w1c))) ∧ OnlyRegs s u [k])
    ∧ (∀ r, plainReg k = true → regSpecOf k = some r → s.busReady k = true → Does (.registerWrite k v) s fun u =>
      u.reg k = ((v &&& r.rw) ||| (s.reg k &&& ~~~r.rw &&& ~~~(v &&& r.w1c))) ∧ OnlyRegs s u [k])
    ∧ (k < 0x20000000000 → (regSpecOf k).isSome = true → s.busReady k = true → Does (.registerWrite k v) s fun u => u = s.anyWrite k v)

/-- Commands of a ring that act at once, and the posting of completions (R322, R323, R335, R357): each is taken, and its completion
carries the status of the rule. A `CTX_START` is taken while F2 or F3 is down, and its completion waits (R504).
Where the rules leave something open it rests on the model's choice: log entries 31, 98 and 128. -/
def Obligations.RingCommandsComplete : Prop :=
  (∀ (s : State) (r : Fin 8) (c : RingCmd) (lo hi : Word), TakesCmd s r 0x01 c → s.coreRuns 2 = true → s.coreRuns 3 = true →
    (s.ctx r).running = false → (s.ctx r).halted = false → s.quiet r = true → (s.fld F.unitReady.contexts).testBit r = true →
    s.fld F.fenceStatus.level = 0 → s.fld (F.genSlotSize.val r) = 0 → s.cutsReason r = 0 → s.hashesHold r = true → lo = ~~~hi →
    (s.ctx r).discardDue = false → s.sliceOverlap r (s.objBase r) (s.objGranules r) = false →
    (let m := s.hamperFromObjects r; m.sliceOverlap r (m.fld (F.hamperCfg.sliceBase r)) (m.sliceGranules r) = false) →
    Does (.ctxStart r lo hi []) s fun u =>
      (u.ctx r).running = true ∧ (u.ctx r).phase = .compute ∧ (u.ctx r).voteBits = 0 ∧ u.fld (F.sweepStatus.state r) = 0
      ∧ Finishes s u r c 0)
  ∧ (∀ (s : State) (r : Fin 8) (c : RingCmd) (lo hi : Word), TakesCmd s r 0x01 c → s.coreRuns 2 = false ∨ s.coreRuns 3 = false →
    Does (.ctxStart r lo hi []) s fun u =>
      (u.ctx r).starting = some { cmd := c, lo := lo, hi := hi, queues := [] } ∧ (u.ring r).run = (s.ring r).run ++ [c]
      ∧ (u.ring r).cmdHead = next32 (s.ring r).cmdHead ∧ (u.ring r).done = (s.ring r).done ∧ RegsBut s u [] ∧ SameBytes s u)
  ∧ (∀ (s : State) (r : Fin 8) (c : RingCmd), TakesCmd s r 0x02 c → (s.ring r).run = [] → s.noneQueued →
    (∀ tn ∈ s.activeThreads, s.fld (F.threadCtl.ctx tn.1 tn.2) ≠ r) → Does (.ctxStop r) s fun u =>
      (u.ctx r).running = false ∧ Finishes s u r c 0 ∧ RegsBut s u [])
  ∧ (∀ (s : State) (r : Fin 8) (c : RingCmd), TakesCmd s r 0x04 c → (s.ctx r).running = true → (s.ctx r).phase = .compute →
    Does (.abortStep r) s fun u => (u.ctx r).voteBits = (s.ctx r).voteBits ||| 8 ∧ Finishes s u r c 0 ∧ RegsBut s u [])
  ∧ (∀ (s : State) (r : Fin 9) (c : RingCmd), TakesCmd s r 0x08 c → (s.ring r).run = [] → Does (.ringFence r) s fun u =>
      Finishes s u r c 0 ∧ RegsBut s u [])
  ∧ (∀ (s : State) (r : Fin 9) (d : RingDone) (rest : List RingDone), s.coreRuns 0 = true → (s.ring r).run = [] → (s.ring r).done = d :: rest →
    Does (.completionPost r) s fun u =>
      (u.ring r).done = rest ∧ (u.ring r).cqTail = next32 (s.ring r).cqTail ∧ u.bytes (cqAt r (s.ring r).cqTail) 64 = d.bytes
      ∧ u.memNat (markAt r d.cmd.count) 8 = d.cmd.seq % 2 ^ 64 ∧ (u.reg R.intCause).getLsbD r = true)

/-- Generations (R335, R336): a switch is refused as busy unless the other slot is ready; at the batch boundary it moves the context to
that slot, while that is ready, and sets `GEN_CUR_OBJ` to twice the generation plus the slot; a draining slot nobody uses is free. A `PUBLISH` between a commit
barrier and the next vote, whose parts fit, takes a free slot of a target that has them, and is refused as busy when none is free (R337).
Where the rules leave something open it rests on the model's choice: log entry 36. -/
def Obligations.GenerationsComplete : Prop :=
  (∀ (s : State) (r : Fin 8) (c : RingCmd), TakesCmd s r 0x07 c →
    let other := s.genSlot r (1 - s.fld (F.genStatus.cur r))
    (s.bit (F.genStatus.pending r) = false → other = 2 → Does (.switchGen r) s fun u =>
      u.bit (F.genStatus.pending r) = true ∧ Finishes s u r c 0 ∧ RegsBut s u [R.genStatus r])
    ∧ (s.bit (F.genStatus.pending r) = true ∨ other ≠ 2 → Does (.switchGen r) s fun u => Finishes s u r c 1 ∧ RegsBut s u []))
  ∧ (∀ (s : State) (c : Fin 8), s.bit (F.genStatus.pending c) = true → (s.ctx c).batchSeen = true →
    let j := s.fld (F.genStatus.cur c)
    let obj := s.fld (F.genCurObj.val c)
    (s.genSlot c (1 - j) ≠ 2 → Does (.generationSwitch c) s fun u => u = s)
    ∧ (s.genSlot c j = 3 → s.genSlot c (1 - j) = 2 → isCounterKey obj → QuietCounter s obj → Does (.generationSwitch c) s fun u =>
      u.genSlot c j = 4 ∧ u.genSlot c (1 - j) = 3 ∧ u.fld (F.genStatus.cur c) = 1 - j ∧ u.bit (F.genStatus.pending c) = false
      ∧ u.reg obj = BitVec.ofNat 64 (2 * (s.reg (R.genNum c (1 - j))).toNat + (1 - j))
      ∧ RegsBut s u [R.genStatus c, obj] ∧ SameBytes s u))
  ∧ (∀ (s : State) (c : Fin 8) (j : Nat), ((upto 2).find? fun i => s.genSlot c i == 4) = some j →
    (s.ctx c).drainSeen = true ∨ s.reg (s.fld (F.genUseObj.val c j)) = 0 → Does (.drainingSlotFreed c) s fun u =>
      u.genSlot c j = 0 ∧ RegsBut s u [R.genStatus c] ∧ SameBytes s u)
  ∧ (∀ (s : State) (r : Fin 8) (c : RingCmd) (table : List PubPart), TakesCmd s r 0x06 c → (s.ctx r).running = true →
    s.bit (F.sweepCtl.enable r) = true → (s.ctx r).mayPublish = true → c.arg 16 1 < 8 →
    (∀ p ∈ table, p.offset + p.bytes ≤ if p.coord = s.coord then s.fld (F.genSlotSize.val (c.arg 16 1)) else p.size) →
    let target := c.arg 16 1
    let size := s.fld (F.genSlotSize.val target)
    let added (u : State) (slot : Option Nat) : Prop :=
      (∃ x, u.publishes = s.publishes ++ [x] ∧ x.set = r.val ∧ x.cmd = c ∧ x.target = target ∧ x.slot = slot ∧ x.parts = table
        ∧ x.gen = (s.reg (R.sweepStep r)).toNat ∧ x.opened = false)
      ∧ (u.ring r).cmdHead = next32 (s.ring r).cmdHead ∧ SameBytes s u
    (size = 0 → Does (.publish r table) s fun u => added u none ∧ RegsBut s u [])
    ∧ (∀ j, j < 2 → size ≠ 0 → s.genSlot target j = 0 → s.genSlot target (1 - j) ≠ 0 → Does (.publish r table) s fun u =>
        added u (some j) ∧ u.genSlot target j = 1 ∧ RegsBut s u [R.genStatus target])
    ∧ (size ≠ 0 → s.genSlot target 0 ≠ 0 → s.genSlot target 1 ≠ 0 → Does (.publish r table) s fun u => Finishes s u r c 1 ∧ RegsBut s u []))

/-- Weight intake (R329 to R333): the command with good headers fetches its first chunks, as far as those of the other intakes leave room; a chunk that fails its CRC is fetched again; the
last chunk's writes end it with status 0 and the number of chunks written, or with status 1 where it asks for a switch that cannot be (R336). A read of host memory without a completion is a failed read.
Where the rules leave something open it rests on the model's choice: log entries 29 and 34. -/
def Obligations.IntakeCompletes : Prop :=
  (∀ (s : State) (r : Fin 9) (c : RingCmd) (hdr : List Byte) (heads : List (List Byte)), TakesCmd s r 0x05 c →
    pxcHeaderGood hdr = true → heads.length = natAt hdr 8 4 → c.arg 40 1 = 0 →
    64 + ((pxcChunks 64 heads).map (·.2)).sum = c.arg 24 8 → s.findIntake r c.count = none →
    Does (.intake r (some hdr) heads) s fun u =>
      (∃ x, u.intakes = s.intakes ++ [x] ∧ x.set = r.val ∧ x.cmd = c ∧ x.address = c.arg 16 8 ∧ x.dest = c.arg 32 8 ∧ x.slot = none
        ∧ x.chunks = pxcChunks 64 heads
        ∧ x.reading = upto (min 16 (min (s.obj O.intakeMaxInflight - (s.intakes.map fun y => y.reading.length).sum) heads.length)))
      ∧ (u.ring r).cmdHead = next32 (s.ring r).cmdHead ∧ RegsBut s u [] ∧ SameBytes s u)
  ∧ (∀ (s m : State) (r : Fin 9) (k n : Nat) (x y : Intake) (d : List Byte), s.findIntake r k = some x → x.reading = [n] → x.got = [] →
    x.slot = none → x.next = x.chunks.length → chunkGood d = true → natAt d 0 4 = n →
    s.chunkWrite { x with got := [(n, some d)] } n d = (m, some y) → y.written = x.chunks.length → s.coreRuns 0 = false →
    (s.ring r).run = [x.cmd] →
    let asks := x.switch = true ∧ r.val < 8
    let may := s.bit (F.genStatus.pending r) = false ∧ s.genSlot r (1 - s.fld (F.genStatus.cur r)) = 2
    Does (.intakeChunkArrival r k n (some d)) s fun u =>
      u.findIntake r k = none ∧ (∀ b, u.byte b = m.byte b)
      ∧ u.bit (F.genStatus.pending r) = (if asks ∧ may then true else s.bit (F.genStatus.pending r))
      ∧ (u.ring r).done = (s.ring r).done
          ++ [{ cmd := x.cmd, status := if asks ∧ ¬ may then 1 else 0, detail := 0, count := y.written, time := s.now }])
  ∧ (∀ (s : State) (r : Fin 9) (k n : Nat) (x : Intake) (rest : List Nat), s.findIntake r k = some x → x.reading = n :: rest → x.got = [] →
    Tab.get (fun _ => 0) x.failed n < 3 →
    let again (u : State) : Prop := ∃ y, u.findIntake r k = some y ∧ n ∈ y.reading ∧ y.written = x.written
      ∧ Tab.get (fun _ => 0) y.failed n = Tab.get (fun _ => 0) x.failed n + 1
    (∀ d, chunkGood d = false → Does (.intakeChunkArrival r k n (some d)) s again)
    ∧ Does (.completionTimeout (.chunk r k n)) s fun u => again u ∧ u.bit ⟨R.errSummary, 4, 1⟩ = true)


/-! ### The Hamper and admission (chapters 5, 6 and 11) -/

/-- Control of a context's Hamper (R135, R147): a `HAMPER_CFG` that fits is stored and one that does not is refused; a running context keeps its
slice; the spill region must lie in Thermos; a discard empties every stack, counts what it removed and reads busy until it is over. Granules
move behind the stacks: while a `PUSH` waits that free granules do not suffice for, a spill writes the first victim's spilled form to a free
slot (R137, R139, R141); prefetch restores a
spilled granule of an active window into a free granule (R144); the stream of a waiting `POP` ends it (R138).
Where the rules leave something open it rests on the model's choice: log entry 85. -/
def Obligations.HamperControlAndGranulesComplete : Prop :=
  (∀ (c : Fin 8) (v : Word) (s : State),
    let g := bitsAt v 0 7
    let b := bitsAt v 8 7
    let moved := g ≠ s.sliceGranules c ∨ b ≠ s.fld (F.hamperCfg.sliceBase c)
    let fits := g ≤ 96 ∧ b + g ≤ 128 ∧ bitsAt v 16 4 ≤ 8 ∧ s.sliceOverlap c b g = false ∧ (moved → s.hamperEntries c = 0)
    ((s.ctx c).running = false ∨ ¬ moved → fits → Does (.hamperCfgWrite c v) s fun u =>
      u.reg (R.hamperCfg c) = v &&& 0x1F7F7F#64 ∧ RegsBut s u [R.hamperCfg c] ∧ SameBytes s u)
    ∧ ((s.ctx c).running = false → ¬ fits → Does (.hamperCfgWrite c v) s fun u =>
      u.bit (F.hamperStatus.cfgRefused c) = true ∧ RegsBut s u [R.hamperStatus c] ∧ SameBytes s u)
    ∧ ((s.ctx c).running = true → moved → Does (.hamperCfgWrite c v) s fun u =>
      u.bit (F.hamperStatus.cfgIgnored c) = true ∧ u.sliceGranules c = s.sliceGranules c
      ∧ u.fld (F.hamperCfg.sliceBase c) = s.fld (F.hamperCfg.sliceBase c) ∧ RegsBut s u [R.hamperCfg c, R.hamperStatus c] ∧ SameBytes s u)
    ∧ (Does (.hamperSpillBaseWrite c v) s fun u =>
      let n := bitsAt v 40 24
      let lo := 65536 * bitsAt v 16 24
      if n = 0 ∨ (0x4004000000 ≤ lo ∧ lo + 65536 * n ≤ 0xC000000000) then
        u.fld (F.hamperSpillBase.base c) = bitsAt v 16 24 ∧ u.fld (F.hamperSpillBase.slots c) = n ∧ OnlyRegs s u [R.hamperSpillBase c]
      else u.fld (F.hamperSpillBase.slots c) = 0 ∧ u.bit (F.hamperStatus.cfgRefused c) = true
        ∧ OnlyRegs s u [R.hamperSpillBase c, R.hamperStatus c])
    ∧ (s.noPushWaits c → Does (.discard c) s fun u =>
      u.stacksEmpty c ∧ u.bit (F.hamperStatus.discardBusy c) = true
      ∧ (u.reg (R.hamperLeftover c)).toNat = min ((s.reg (R.hamperLeftover c)).toNat + s.hamperEntries c) (2 ^ 64 - 1)
      ∧ RegsBut s u [R.hamperLeftover c, R.hamperStatus c] ∧ SameBytes s u)
    ∧ (Does (.discardComplete c) s fun u =>
      u.bit (F.hamperStatus.discardBusy c) = false ∧ OnlyRegs s u [R.hamperStatus c]))
  ∧ ∀ (t : Fin 256) (s : State),
    (∀ (c : Fin 8) (e : HEntry) (j g : Nat) (rest : List (HEntry × Nat × Nat)) (b : List Byte),
      s.waitingPushes t c ≠ [] → s.pushReady t c = none → s.freeSpillSlots c ≠ [] → s.victims t c = (e, j, g) :: rest →
      s.readData (s.granuleAt t c g) (e.partLen j) = some b →
      let raw := s.bit (F.hamperCfg.spillRaw c)
      let form := spillForm raw e.fmt b
      (∀ k ∈ s.freeSpillSlots c, PlainRange s (s.slotAt c k) form.length) → Does (.hamperSpillGranule t c) s fun u =>
        ∃ m k, k ∈ s.freeSpillSlots c ∧ u = m.pushAgain t c pushFuel ∧ m.bytes (s.slotAt c k) form.length = form
          ∧ m.slice t c = (s.slice t c).place e.seq j (.slot k raw) ∧ BytesBut s m (s.slotAt c k) form.length
          ∧ (m.reg (R.hamperSpilled c)).toNat = min ((s.reg (R.hamperSpilled c)).toNat + 1) (2 ^ 64 - 1))
    ∧ (∀ c : Fin 8, (s.pushAgain t c pushFuel).waitingPushes t c = [] → Does (.hamperSpillGranule t c) s fun u => u = s.pushAgain t c pushFuel)
    ∧ (∀ (c : Fin 8) (e : HEntry), s.prefetchNext t c = some e → 2 ≤ (s.freeGranules t c).length →
      (∀ x ∈ e.grans.zipIdx, (s.granuleBytesOf t c e x.2 x.1).isSome = true) → Does (.prefetchRestore t c) s fun u =>
        ∃ g j k raw b, g ∈ s.freeGranules t c ∧ e.grans[j]? = some (.slot k raw) ∧ s.granuleBytesOf t c e j (.slot k raw) = some b
          ∧ u.slice t c = (s.slice t c).place e.seq j (.slice g) ∧ u.bytes (s.granuleAt t c g) b.length = b
          ∧ RegsBut s u [R.hamperStatus c] ∧ BytesBut s u (s.granuleAt t c g) b.length)
    ∧ (∀ (n : Fin 16) (k : Nat) (p : Pend) (dst : Nat) (e : HEntry) (rest : List HEntry) (parts : List (List Byte)),
      let c := s.ctxOf t n
      s.hamperPend (thrKey t n) 0x39 = some (k, p) → s.hamperAop (s.issOf (thrKey t n) p) rightW = .ok dst →
      (s.slice t c).stack n = e :: rest → e.len = dHLen p.word → e.fmt = dHFmt p.word →
      (e.grans.zipIdx.map fun g => s.granuleBytesOf t c e g.2 g.1) = parts.map some → PlainRange s dst parts.flatten.length →
      Does (.onDemandRestoreComplete t n) s fun u =>
        ∃ m, u = (m.dmaTake (thrKey t n) 8).pushAgain t c pushFuel ∧ (m.slice t c).stack n = rest ∧ Moved s m dst parts.flatten
          ∧ (m.thread (thrKey t n)).pend = (s.thread (thrKey t n)).pend.set k { p with phase := .done })

/-- The judging of an admitted-class descriptor at its DMA engine (R290, R291): granted slots are kept in the port's ledger and its
transfers are open, with `FLAG_REF` clear; a refused one is over without its signal, counted, with `FLAG_REF` set. While
admission is off, or has not come back for the context, the descriptor waits. F1, when it runs, re-enables admission at a boundary of a
context for that context, and judges what waits in it (R291).
Where the rules leave something open it rests on the model's choice: log entry 81. -/
def Obligations.AdmissionCompletes : Prop :=
  (∀ (t : Fin 256) (n : Fin 16) (s m : State) (k dest off : Nat) (p : Pend) (asks : List Ask) (dst : List Nat),
    let key := thrKey t n
    let i := s.issOf key p
    let nfl := (asks.map fun a => flitsOf a.data.length).sum
    let nr := if dOp p.word ≤ 0x03 ∨ dOp p.word = 0x07 then some ((asks.map fun a => flitsOf a.len).sum) else none
    s.bit F.xportCtl.admitEn = true → (s.ctx (s.ctxOf t n)).admitDue = false → ((s.thread key).pend.findIdx? fun q => q.phase == .admission) = some k →
    (s.thread key).pend[k]? = some p → s.formOf i.farEnd = .away dest off → s.asksOf i dest = (.ok (asks, dst), m) → asks ≠ [] →
    m.fld F.fenceStatus.level = 0 →
    (∀ port slots b, m.judgeAdmission i.c dest nfl nr = .inr (port, slots, b) → Does (.admission t n) s fun u =>
      ∃ v tids, u = v.dmaNext key 8 ∧ tids.length = asks.length ∧ v.bit (F.threadStatus.flagRef t n) = false
        ∧ (v.thread key).pend = (m.thread key).pend.set k { p with phase := .transfer tids, dst := dst }
        ∧ (v.port port).ledger = (m.port port).ledger ++ slots ∧ RegsBut m v [R.threadStatus t n] ∧ SameBytes m v)
    ∧ (∀ reason, m.judgeAdmission i.c dest nfl nr = .inl reason → Does (.admission t n) s fun u =>
      ∃ v, u = v.dmaNext key 8 ∧ v.bit (F.threadStatus.flagRef t n) = true
        ∧ (v.thread key).pend = (m.thread key).pend.set k { p with phase := .done, signal := false }
        ∧ (v.reg R.admitRefusals).toNat = min ((m.reg R.admitRefusals).toNat + 1) (2 ^ 64 - 1) ∧ SameBytes m v))
  ∧ (∀ (t : Fin 256) (n : Fin 16) (s : State), s.bit F.xportCtl.admitEn = false ∨ (s.ctx (s.ctxOf t n)).admitDue = true →
      Does (.admission t n) s fun u => u = s)
  ∧ ∀ (c : Fin 8) (s : State),
    (s.coreRuns 1 = false → Does (.admissionReenable c) s fun u => u = s)
    ∧ (s.coreRuns 1 = true → Does (.admissionReenable c) s fun u =>
      ∃ l : List (Nat × Nat),
        u = forEach l (fun s e => s.admission e.1 e.2) ((s.setBit F.xportCtl.admitEn true).modCtx c fun x => { x with admitDue := false })
        ∧ (∀ e ∈ l, s.ctxOf e.1 e.2 = c)
        ∧ ∀ key th, (key, th) ∈ s.threads → (th.pend.any fun p => p.phase == .admission) = true →
          s.ctxOf (key / 16) (key % 16) = c → (key / 16, key % 16) ∈ l)


/-! ### The root engines (chapter 7) -/

/-- A root engine (R170, R174 to R179): `ENABLE` and `DRAIN` act at once on an engine with nothing in hand, a drain else waits for the block in
progress; `ABANDON` gives up what its context has queued; the tail register takes its value. A block is taken from the head of the queue and
copied into the engine's scratch, cold or from its previous root, or cold behind one that does not fit, with `WARM_REJECTED` (R181); its result is
computed there and written to every user slot and to the pending slot, be it a scaled identity or a matrix; with the last acknowledgement it is
complete, counted, and signalled at `ROOT_DONE_SIGNAL`.
Where the rules leave something open it rests on the model's choice: log entries 50, 76, 114 and 127. -/
def Obligations.RootEngineCompletes : Prop :=
  (∀ (e : Fin 4) (s : State), (s.fld F.unitReady.root).testBit e = true →
    let free := (s.root e).cur = none ∧ (s.root e).acks = [] ∧ s.rootUsable e = true
    (free → Does (.rootEnable e) s fun u =>
      u.bit (F.rootCtl.enable e) = true ∧ u.fld (F.rootStatus.state e) = 0 ∧ OnlyRegs s u [R.rootCtl e, R.rootStatus e])
    ∧ (free → Does (.rootDrain e) s fun u =>
      u.bit (F.rootCtl.enable e) = false ∧ u.fld (F.rootStatus.state e) = 5 ∧ OnlyRegs s u [R.rootCtl e, R.rootStatus e])
    ∧ ((s.root e).cur ≠ none → Does (.rootDrain e) s fun u => (u.root e).draining = true ∧ RegsBut s u [] ∧ SameBytes s u)
    ∧ (∀ c : Fin 8, s.noneQueued → Does (.rootAbandon e c) s fun u =>
      u.fld (F.rootCtl.ctxSel e) = c ∧ (∀ x ∈ (u.root e).backlog, x.ctx ≠ c) ∧ (∀ x ∈ (u.root e).held, x.ctx ≠ c)
      ∧ (∀ b, (u.root e).cur = some b → b.entry.ctx ≠ c) ∧ (∀ a ∈ (u.root e).acks, a.entry.ctx = c → a.dropped = true)
      ∧ (s.rootUsable e = true → ((s.root e).acks.any fun a => a.entry.ctx == c && a.tids != []) = true →
          u.fld (F.rootStatus.state e) = 7)
      ∧ RegsBut s u [R.rootCtl e, R.rootStatus e, R.rootCurRecord e] ∧ SameBytes s u)
    ∧ (∀ v : BitVec 10, Does (.rootQueueTailWrite e v) s fun u =>
      u.fld (F.rootQueueTail.val e) = v.toNat ∧ OnlyRegs s u [R.rootQueueTail e]))
  ∧ ∀ (e : Fin 4) (s : State), s.rootUsable e = true →
    (∀ (l rec fb : List Byte) (ly : Nat),
      let i := s.fld (F.rootQueueHead.val e)
      let x := entryOf l
      let n := s.recN x.record
      let p := s.schedP (s.layerSched x.ctx ly)
      s.bit (F.rootCtl.enable e) = true → (s.root e).cur = none → (s.root e).draining = false → ((s.root e).acks.any (·.dropped)) = false →
      s.rootQueued e ≠ 0 → s.fld (F.rootQueueSize.val e) ≤ 1024 → (s.root e).skips = [] → (s.root e).backlog = [] → s.rootRead (s.queueEntryAt e i) 32 = some l →
      s.rootRead x.record 64 = some rec → s.layerOfRecord x.ctx x.record = some ly →
      (s.rootRead (s.layerAt x.ctx ly) 64).isSome = true → (s.rootRead (s.layerSched x.ctx ly) 64).isSome = true → 1 ≤ n → n ≤ 512 → 1 ≤ s.recPieces x.record →
      s.recPieces x.record ≤ 16 → 1 ≤ s.recUsers x.record → s.recUsers x.record ≤ 64 → p = 1 ∨ p = 2 ∨ p = 4 →
      (s.rootRead (s.physNat (x.record + 0x20) 8) (16 * s.recUsers x.record)).isSome = true →
      s.rootRead (s.physNat (x.record + 0x10) 8 + 64 + (s.reg (R.sweepStep x.ctx)).toNat % 2 * (4 * (n * n))) (4 * (n * n)) = some fb →
      let begins (prev : Option (Nat × F32 × List (List F32))) (rejected : Bool) (bufs : Nat) (u : State) : Prop :=
        (∃ b, (u.root e).cur = some b ∧ b.entry = x ∧ b.layer = ly ∧ b.n = n ∧ b.p = p ∧ b.factor = matrixOf n fb ∧ b.prev = prev
          ∧ b.rejected = rejected ∧ b.result = none)
        ∧ u.fld (F.rootStatus.state e) = 1 ∧ u.fld (F.rootStatus.ctx e) = x.ctx ∧ u.bit (F.rootStatus.cold e) = prev.isNone
        ∧ u.fld (F.rootQueueHead.val e) = (i + 1) % s.fld (F.rootQueueSize.val e) ∧ u.reg (R.rootCurRecord e) = BitVec.ofNat 64 x.record
        ∧ u.bytes (scratchBuf e n 0) (4 * (n * n)) = fb ∧ BytesBut s u (scratchBuf e n 0) (bufs * (4 * (n * n)))
      let shown := [R.rootStatus e, R.rootQueueHead e, R.rootCurRecord e, R.rootCurProgress e]
      (x.force = true ∨ x.prev = 0 → Does (.rootBlockStart e) s fun u => begins none false 1 u ∧ RegsBut s u shown)
      ∧ (∀ hd mat pr, x.force = false → x.prev ≠ 0 → s.rootRead x.prev 64 = some hd → s.rootRead (x.prev + 64) (4 * (n * n)) = some mat →
        prevOf hd (s.schedHash (s.layerSched x.ctx ly)) n mat = .inr pr →
        Does (.rootBlockStart e) s fun u =>
          begins (some pr) false 2 u ∧ u.bytes (scratchBuf e n 1) (4 * (n * n)) = mat ∧ RegsBut s u shown)
      ∧ (∀ hd mat, x.force = false → x.prev ≠ 0 → s.rootRead x.prev 64 = some hd → s.rootRead (x.prev + 64) (4 * (n * n)) = some mat →
        let why := if natAt hd 4 4 = s.schedHash (s.layerSched x.ctx ly) then 1 else 0
        natAt hd 4 4 ≠ s.schedHash (s.layerSched x.ctx ly) ∨ natAt hd 2 2 ≠ n → Does (.rootBlockStart e) s fun u =>
          begins none true 2 u
          ∧ ∀ k, LogRoom s 0x1008 0 0x08 e k →
              u.logSlot k = s.entryNow 0x1008 0 0x08 e (ly + 2 ^ 11 * x.ctx + 2 ^ 16 * why + 2 ^ 20 * s.recBlock x.record) 0))
    ∧ (∀ b, (s.root e).cur = some b → b.result = none → s.noneQueued → ((s.root e).acks.any (·.dropped)) = false → (matrixBytes (s.rootResult b).rows).length ≤ 4 * (b.n * b.n) →
      Does (.rootCompute e) s fun u =>
      (u.root e).cur = some { b with result := some (s.rootResult b) } ∧ u.fld (F.rootStatus.state e) = (if b.p = 1 then 3 else 2)
      ∧ u.fld (F.rootCurProgress.iters e) = (s.rootResult b).iters % 256
      ∧ u.fld (F.rootCurProgress.residual e) = (s.rootResult b).resid.toNat
      ∧ u.bytes (scratchBuf e b.n 1) (matrixBytes (s.rootResult b).rows).length = matrixBytes (s.rootResult b).rows
      ∧ RegsBut s u [R.rootStatus e, R.rootCurProgress e] ∧ BytesBut s u (scratchBuf e b.n 1) (12 * (b.n * b.n)))
    ∧ (∀ b r v s' m tids, (s.root e).cur = some b → b.result = some r → ((s.root e).acks.any (·.dropped)) = false →
      (v, s') = (if r.mode = 2 then (r.scale, s) else (s.free.1.extractLsb' 0 32, s.free.2)) →
      let hdr := slotHeader b r v
      let users := b.users.map fun u => (u.coord, u.slot + (1 - b.sel % 2) * (64 + 4 * ((u.hi - u.lo) * (u.hi - u.lo))), hdr ++ resultPart r u.lo u.hi)
      s'.rootWrites e b.entry.ctx (users ++ [(s.coord, b.entry.pend, hdr ++ resultPart r 0 b.n)]) [] = .ok (m, tids) →
      Does (.rootWriteOut e) s fun u =>
        (u.root e).cur = none ∧ (u.root e).acks = (m.root e).acks ++ [{ entry := b.entry, tids := tids }]
        ∧ u.fld (F.rootStatus.state e) = 4 ∧ ∀ a, u.byte a = m.byte a)
    ∧ (∀ b r, (s.root e).cur = some b → b.result = some r → r.mode = 1 → r.result ≠ 2 → r.result ≠ 3 → r.floored = 0 → b.users = [] →
      let part := resultPart r 0 b.n
      onThermos b.entry.pend (64 + part.length) = true → PlainRange s b.entry.pend (64 + part.length) → Does (.rootWriteOut e) s fun u =>
        (∃ v, u.bytes b.entry.pend (64 + part.length) = slotHeader b r v ++ part)
        ∧ BytesBut s u b.entry.pend (64 + part.length) ∧ RegsBut s u [R.rootStatus e] ∧ (u.root e).cur = none)
    ∧ (∀ a, ((s.root e).acks.find? fun a => a.tids == [] && !a.dropped) = some a →
      let sig := s.fld (F.rootDoneSignal.val e)
      sig = 0 ∨ (isCounterKey sig ∧ QuietCounter s sig) → Does (.rootBlockComplete e) s fun u =>
        u.reg (R.rootDoneCount e) = s.reg (R.rootDoneCount e) + 1 ∧ (sig ≠ 0 → u.reg sig = s.reg sig + 1) ∧ (u.root e).acks = (s.root e).acks.erase a
        ∧ (u.root e).held = (s.root e).held.erase a.entry
        ∧ RegsBut s u [R.rootDoneCount e, R.rootCtl e, R.rootStatus e, R.rootCurRecord e, sig] ∧ SameBytes s u)


/-! ### The step of a training context (chapters 1, 7, 8 and 9) -/

/-- Registers and objects of the step (R210, R211, R222, R229, R244): `SWEEP_STEP` and the job layout take writes while the context is stopped
and note one while it runs; a commit step puts the staged values behind it; a queue whose object the context does not own is refused. F2's
arrival at the vote (R13, R182, R190, R202, R213) and its outcome (R192 to R195, R243): masked rows lose their presence, the word sent tells
the findings and the step; a passed vote begins the sweep and a failed one counts the skipped step and stops the context's threads until its queues
are re-based, with `LOSS_NAN` from a module that found one (R194), and with `STEP_SKEW` where the step counters differ (R195), which past its
limit stops the context. The sweep begins with the committed values that are due in force (R211); roots that are complete are used provisionally,
and a late or rootless layer ages (R183, R184).
Where the rules leave something open it rests on the model's choice: log entries 70, 75 and 112. -/
def Obligations.StepAndVoteComplete : Prop :=
  (∀ (c : Fin 8) (v : Word) (s : State),
    let stopped := (s.ctx c).running = false
    let runs := (s.ctx c).running = true
    (stopped → Does (.sweepStepWrite c v) s fun u =>
      u.reg (R.sweepStep c) = v
      ∧ u.reg (R.lrNow c) = BitVec.ofNat 64 (lrMant (s.lrParams c) v.toNat % 2 ^ 16 + 2 ^ 32 * (lrValue (s.lrParams c) v.toNat 0).toNat)
      ∧ RegsBut s u [R.sweepStep c, R.schedCycleStart c, R.schedCycleLen c, R.lrNow c] ∧ SameBytes s u)
    ∧ (runs → Does (.sweepStepWrite c v) s fun u =>
      u.bit (F.sweepStatus.wrIgnored c) = true ∧ OnlyRegs s u [R.sweepStatus c])
    ∧ (Does (.clearSkew c) s fun u => u.fld (F.sweepStatus.skewRun c) = 0 ∧ OnlyRegs s u [R.sweepStatus c])
    ∧ (s.stepOf c + 2 ≤ v.toNat → s.ronbin.recovery = false → Does (.heathCommitStep c v) s fun u =>
      (u.ctx c).staged = [] ∧ (u.ctx c).committed = (s.ctx c).committed ++ [(v.toNat, (s.ctx c).staged)] ∧ RegsBut s u [] ∧ SameBytes s u)
    ∧ (v.toNat < s.stepOf c + 2 → Does (.heathCommitStep c v) s fun u => u = s)
    ∧ (stopped → Does (.ctxCutsWrite c v) s fun u =>
      u.reg (R.ctxCuts c) = v &&& 0x00000FFFFFFFFFFF#64 ∧ OnlyRegs s u [R.ctxCuts c])
    ∧ (runs → Does (.ctxCutsWrite c v) s fun u => u.bit (F.stageStatus.cutsIgnored c) = true ∧ OnlyRegs s u [R.stageStatus c])
    ∧ (∀ k : Fin 16,
      (stopped → v.getLsbD 63 = false ∨ s.ownsCounter c (bitsAt v 0 40) = true → Does (.qCfgWrite c k v) s fun u =>
        u.reg (R.qCfg c k) = v &&& 0x801FFFFFFFFFFFFF#64 ∧ OnlyRegs s u [R.qCfg c k])
      ∧ (stopped → v.getLsbD 63 = true → s.ownsCounter c (bitsAt v 0 40) = false → Does (.qCfgWrite c k v) s fun u =>
        u.bit (F.stageStatus.qRefused c) = true ∧ u.fld (F.stageStatus.qRefIndex c) = k ∧ OnlyRegs s u [R.stageStatus c])
      ∧ (runs → Does (.qCfgWrite c k v) s fun u => u.bit (F.stageStatus.cutsIgnored c) = true ∧ OnlyRegs s u [R.stageStatus c])))
  ∧ (∀ (c : Fin 8) (loss : Bool) (grad : Option Nat) (maps : List OvfMap) (s : State), s.mayVote c = true →
    s.fld (F.sweepStatus.state c) ≤ 4 →
    let m := forEach ((s.ctx c).masks ++ maps.map s.collapseMap) (fun s m => s.maskRows c m) s
    let bits := (s.ctx c).voteBits ||| boolNat (loss || grad.isSome) ||| (if s.digestDue c then 32 else 0)
    m.slowGranules c = [] → Does (.voteArrival c loss grad maps) s fun u =>
      (u.ctx c).phase = .voteWait ∧ (u.ctx c).masks = [] ∧ (u.ctx c).slowRead = [] ∧ u.fld (F.sweepStatus.state c) = 1
      ∧ u.out = s.out ++ [.voteArrive c (stepWord bits (s.stepOf c)), .installArrive c (m.installWord c)]
      ∧ RegsBut m u [R.sweepStatus c] ∧ SameBytes m u)
  ∧ (∀ (c : Fin 8) (s : State) (w : Word), (s.ctx c).phase = .voteWait → s.sweepsRun c = true → s.noPushWaits c →
    (voteFails w = false → (s.ctx c).running = true → (s.ctx c).install = none → Does (.voteComplete c w) s fun u =>
      u.reg (R.voteLast c) = w ∧ (u.ctx c).phase = .sweep ∧ u.fld (F.sweepStatus.skewRun c) = 0 ∧ u.stacksEmpty c
      ∧ RegsBut s u [R.voteLast c, R.hamperLeftover c, R.hamperStatus c, R.sweepStatus c, R.snapStatus c] ∧ SameBytes s u)
    ∧ (voteFails w = true → (s.ctx c).running = true → (s.ctx c).held = [] → s.noneQueued → s.noBacklog → s.fld (F.sweepStatus.state c) ≤ 4 →
      let lo := bitsAt w 16 24
      let hi := bitsAt w 40 24
      let run := min (s.fld (F.sweepStatus.skewRun c) + 1) (2 ^ (F.sweepStatus.skewRun c).width - 1)
      let skipped (u : State) : Prop :=
        u.reg (R.voteLast c) = w ∧ u.reg (R.sweepStep c) = s.reg (R.sweepStep c)
        ∧ (u.reg (R.sweepSkipped c)).toNat = min ((s.reg (R.sweepSkipped c)).toNat + 1) (2 ^ 64 - 1)
        ∧ (∀ t n, t < 256 → n < 16 → s.threadRuns t n = true → s.ctxOf t n = c →
            u.fld (F.threadStatus.state t n) = 0 ∨ u.fld (F.threadStatus.state t n) = 7)
        ∧ ∀ b, u.byte b = (s.clearPresence c).byte b
      let again (u : State) : Prop :=
        skipped u ∧ (u.ctx c).phase = .compute ∧ (u.ctx c).voteBits = 0 ∧ (u.ctx c).rebase = true ∧ u.fld (F.sweepStatus.state c) = 0
      let skew (sev : Nat) (u : State) : Prop := ∀ k, LogRoom s 0x1003 sev 0x0C c k → u.logSlot k = s.entryNow 0x1003 sev 0x0C c
        (run + 2 ^ 11 * c + 2 ^ 16 * (lo % 2 ^ 22) + 2 ^ 38 * min 1023 ((hi + 2 ^ 24 - lo) % 2 ^ 24)) 0
      (lo = hi → (s.ctx c).lossNan = none → Does (.voteComplete c w) s fun u => again u ∧ u.fld (F.sweepStatus.skewRun c) = 0)
      ∧ (∀ loss grad, lo = hi → (s.ctx c).lossNan = some (loss, grad) → Does (.voteComplete c w) s fun u =>
        again u ∧ (u.ctx c).lossNan = none
        ∧ ∀ k, LogRoom s 0x1002 3 0x0C c k → u.logSlot k = s.entryNow 0x1002 3 0x0C c
            ((grad.getD 0) % 2 ^ 11 + 2 ^ 11 * c + 2 ^ 14 * boolNat loss + 2 ^ 15 * boolNat grad.isSome) 0)
      ∧ (lo ≠ hi → (s.ctx c).lossNan = none → run < s.obj (O.skewLimit c) → Does (.voteComplete c w) s fun u =>
        again u ∧ u.fld (F.sweepStatus.skewRun c) = run ∧ skew 3 u)
      ∧ (lo ≠ hi → (s.ctx c).lossNan = none → s.obj (O.skewLimit c) ≤ run → Does (.voteComplete c w) s fun u =>
        skipped u ∧ u.fld (F.sweepStatus.skewRun c) = run ∧ skew 4 u ∧ u.fld (F.sweepStatus.state c) = 5 ∧ (u.ctx c).halted = true)))
  ∧ (∀ (c : Fin 8) (v : BitVec 2048) (s : State),
    ((s.ctx c).phase = .voteWait → Does (.installBarrierComplete c v) s fun u =>
      u.ctx c = { s.ctx c with install := some v } ∧ RegsBut s u [] ∧ SameBytes s u)
    ∧ ((s.ctx c).phase = .sweep → (s.ctx c).installed = false → Does (.installBarrierComplete c v) s fun u =>
      (u.ctx c).installed = true ∧ (u.ctx c).install = none ∧ RegsBut s u []))
  ∧ ∀ (c : Fin 8) (s : State), (s.ctx c).phase = .sweep → (s.ctx c).installed = true → (s.ctx c).started = false →
    (s.ctx c).running = true → s.sweepsRun c = true → s.sweepReset = false → s.fld (F.sweepStatus.state c) ≤ 4 →
    let t := s.stepOf c
    let begun (u : State) : Prop :=
      (u.ctx c).started = true ∧ (u.ctx c).swept = [] ∧ u.fld (F.sweepStatus.state c) = 2
      ∧ u.bit (F.sweepStatus.dueNow c) = (s.digestDue c || (s.reg (R.voteLast c)).getLsbD 5)
      ∧ u.reg (R.lrNow c) = BitVec.ofNat 64 (lrMant (u.lrParams c) t % 2 ^ 16 + 2 ^ 32 * (lrValue (u.lrParams c) t 0).toNat)
    (s.inForce c (O.rootPrecondEn c) t = 0 → Does (.sweepStart c) s fun u =>
      begun u ∧ (∀ k, u.obj k = s.inForce c k t) ∧ (u.ctx c).committed = (s.ctx c).committed.filter (fun e => !(e.1 ≤ t))
      ∧ RegsBut s u [R.sweepStatus c, R.lrNow c, R.schedCycleStart c, R.schedCycleLen c] ∧ SameBytes s u)
    ∧ ∀ l, (s.ctx c).committed = [] → s.precondOn c = true → s.layers c = [l] → inThermos (s.layerAt c l) 64 →
      let age := min 255 (s.layerAge c l + 1)
      let tooOld := s.obj (O.rootMaxAge c) < age
      let other := s.layerUse c l = 0 ∧ s.layerHash c l ≠ s.schedHash (s.layerSched c l)
      (s.layerState c l = 2 → s.layerUse c l ≠ 2 → Does (.sweepStart c) s fun u =>
        begun u ∧ u.layerState c l = 3 ∧ (u.ctx c).prov = [] ∧ RegsBut s u [R.sweepStatus c, R.lrNow c]
        ∧ BytesBut s u (s.layerAt c l + 8) 1)
      ∧ (s.layerState c l = 1 → inThermos (s.layerSched c l) 64 → Does (.sweepStart c) s fun u =>
        begun u ∧ u.layerAge c l = age ∧ (u.ctx c).prov = [(l, s.layerAge c l, s.layerUse c l)]
        ∧ u.layerUse c l = (if other then 2 else if tooOld ∧ s.layerUse c l = 0 then 1 else s.layerUse c l)
        ∧ u.obj (O.rootMisses c) = min (2 ^ 64 - 1) (s.obj (O.rootMisses c) + 1)
        ∧ (∀ k, LogRoom s 0x1005 (if tooOld then 2 else 0) 0x08 c k → u.logSlot k = s.entryNow 0x1005 (if tooOld then 2 else 0) 0x08 c
            (l + 2 ^ 11 * c + 2 ^ 14 * (if tooOld then 1 else 0) + 2 ^ 16 * (if tooOld then 1 else 0) + 2 ^ 36 * age) 0)
        ∧ BytesBut s u (s.layerAt c l + 9) 3)

/-- A shard of the sweep (R19, R199 to R203, R213): behind its staging reads, the live weights are copied to the shadow slot and the present
granules are updated in address order, up to the first whose slow data is missing; past the last the shard is swept, or compared with its
replicas first when a digest is due. Something the unit cannot read ends the sweep (R431). Its slow-tier traffic arrives and lets the unit go
on, or ends the sweep (R214, R215).
That `STATE` reads 7 and the context is halted at the failure, with the aborted commit barrier still to come, is the model's choice (log entry 73;
R215 puts the stop behind it). Where the rules leave something else open it rests on log entries 35 and 70. -/
def Obligations.ShardUpdateCompletes : Prop :=
  ∀ (c : Fin 8) (i : Nat) (s : State),
    let h := s.shard c i
    (∀ g rows cols, s.maySweep c i = true → s.stagingHolds c i = true → Does (.shardSwept c i g rows cols) s fun u =>
      u = s.modCtx c fun x => { x with stageFrom := some (x.stageFrom.getD s.now) })
    ∧ (∀ g rows cols a, s.maySweep c i = true → s.stagingHolds c i = false → (s.ctx c).stageFrom = none →
      ((s.sweepInputs c i h (rows ++ cols)).find? fun a => (s.readData a.1 a.2).isNone) = some a → Does (.shardSwept c i g rows cols) s fun u =>
        (u.ctx c).halted = true ∧ (u.ctx c).running = false ∧ (u.ctx c).sweeping = none ∧ SameBytes s u)
    ∧ (∀ g rows cols live p d l rest, s.maySweep c i = true → s.stagingHolds c i = false → (s.ctx c).stageFrom = none →
      (∀ a ∈ s.sweepInputs c i h (rows ++ cols), (s.readData a.1 a.2).isSome = true) →
      s.readData (h.weights (s.stepOf c)) (128 * h.ngran) = some live → s.presentGranules h = l ++ rest →
      (∀ q ∈ l, s.slowMissing c i q = false ∧ (s.momentumOf c i h q).isSome = true) → s.direction c h g rows cols = (p, d) → s.noneQueued →
      let updated (u : State) : Prop :=
        ∀ b, u.byte b = (forEach l (fun v q => match v.momentumOf c i h q with
            | some m => v.updateGranule c i h (s.heathParams c h) p q m
            | none => v) (d.storeHeal (h.weights (s.stepOf c + 1)) live)).byte b
      (∀ q more, rest = q :: more → s.slowMissing c i q = true → Does (.shardSwept c i g rows cols) s fun u =>
        updated u ∧ (u.ctx c).sweeping = some { shard := i, left := rest, dir := p } ∧ u.bit (F.sweepStatus.slowWait c) = true
        ∧ RegsBut s u [R.sweepStatus c])
      ∧ (rest = [] → Does (.shardSwept c i g rows cols) s fun u =>
        updated u ∧ (u.ctx c).sweeping = none
        ∧ (s.bit (F.sweepStatus.dueNow c) = false → i ∈ (u.ctx c).swept)
        ∧ (s.bit (F.sweepStatus.dueNow c) = true → 1 < h.replicas → u.digestPhase c i = some .compare)
        ∧ ((s.readData (s.shadowOf c h).1 (s.shadowOf c h).2).isSome = true → RegsBut s u [R.sweepStatus c])))
    ∧ (∀ g b, (i, g) ∈ (s.ctx c).slowRead → (s.ctx c).sweeping = none → Does (.slowTierDataArrival c i g (some b)) s fun u =>
      (u.ctx c).slowRead = (s.ctx c).slowRead.filter (fun e => e != (i, g))
      ∧ (u.ctx c).slowData = (s.ctx c).slowData ++ [((i, g), b)] ∧ RegsBut s u [R.sweepStatus c, R.slowFetchMax c] ∧ SameBytes s u)
    ∧ (∀ g b dir, (i, g) ∈ (s.ctx c).slowRead → (s.ctx c).sweeping = some { shard := i, left := [g], dir := dir } → s.isSlow h g = true →
      (s.ctx c).running = true → (s.ctx c).phase = .sweep → s.bit (F.sweepStatus.dueNow c) = false →
      Does (.slowTierDataArrival c i g (some b)) s fun u =>
        i ∈ (u.ctx c).swept ∧ (u.ctx c).sweeping = none ∧ u.bit (F.sweepStatus.slowWait c) = false)
    ∧ (∀ g, (i, g) ∈ (s.ctx c).slowRead → Does (.slowTierDataArrival c i g none) s fun u =>
      u.fld (F.sweepStatus.state c) = 7 ∧ u.bit ⟨R.errSummary, 4, 1⟩ = true ∧ (u.ctx c).halted = true ∧ (u.ctx c).commitBits.testBit 1 = true)
    ∧ (∀ g, (i, g) ∈ (s.ctx c).slowRead → Does (.completionTimeout (.slow c i g)) s fun u =>
      u.fld (F.sweepStatus.state c) = 7 ∧ (u.ctx c).halted = true)
    ∧ (∀ g, (i, g) ∈ (s.ctx c).slowWrite →
      (Does (.slowTierWriteBackComplete c i g true) s fun u =>
        (u.ctx c).slowWrite = (s.ctx c).slowWrite.filter (fun e => e != (i, g)) ∧ RegsBut s u [] ∧ SameBytes s u)
      ∧ (Does (.slowTierWriteBackComplete c i g false) s fun u =>
        u.fld (F.sweepStatus.state c) = 7 ∧ (u.ctx c).halted = true ∧ (u.ctx c).commitBits.testBit 1 = true))

/-- One granule of the fast tier (R199, R200, R206): its 64 weights go to the shadow slot and its momentum to its other slot, each by the
Heath rule on the live values, the preconditioned direction and the random bits of its key; nothing else changes.
Where the rules leave something open it rests on the model's choice: log entry 70. -/
def Obligations.GranuleUpdatesByTheRule : Prop :=
  ∀ (c i g : Nat) (s : State) (h : Shard) (hp : HeathParams) (p : List F32) (m : List Byte),
    let t := s.stepOf c
    let wa := h.weights (t + 1) + 128 * g
    let ma := h.momentum (1 - boolNat (s.mapBit h.mSel g)) g
    let sel := h.mSel + g / 8
    h.flags.testBit 1 = false → inThermos sel 1 → sel < wa ∨ wa + 128 ≤ sel → inThermos wa 128 → inThermos ma 256 → wa + 128 ≤ ma ∨ ma + 256 ≤ wa →
    let w := (upto 128).map fun k => s.dataByte (h.weights t + 128 * g + k)
    let out := granuleRule hp (BitVec.ofNat 64 (s.obj (O.ctxJobSeed c))) (s.reg (R.sweepStep c)) (h.paramBase + 64 * g) (natsOf 2 64 w)
      (natsOf 4 64 m) ((upto 64).map fun j => (p.getD (64 * g + j) 0).toNat)
    let u := s.updateGranule c i h hp p g m
    (∀ j, j < 64 → u.memNat (wa + 2 * j) 2 = (out.getD j (0, 0)).1 % 2 ^ 16 ∧ u.memNat (ma + 4 * j) 4 = (out.getD j (0, 0)).2.toNat)
    ∧ (∀ b, (b < wa ∨ wa + 128 ≤ b) → (b < ma ∨ ma + 256 ≤ b) → u.byte b = s.byte b) ∧ RegsBut s u []

/-- Digests of replicated shards (R216 to R220) while F2 runs: equal words end the comparison with the shard swept; different ones start the
bisection, whose rounds go on over halves until single runs are left, and those are read from the other replicas; the majority's bytes are
put in and the runs compared again; without a majority the sweep stops with `STATE` 6. `DIGEST_MISMATCH` is raised with what was found.
That it is raised when the runs have been read, and not with the first difference, and that `STATE` 6 and the halt come with it, before the aborted
commit barrier, is the model's choice (log entry 74; R218, R220). -/
def Obligations.DigestsComplete : Prop :=
  ∀ (c : Fin 8) (i : Nat) (s : State), (s.ctx c).running = true → s.coreRuns 2 = true → s.noneQueued → s.fld (F.sweepStatus.state c) ≤ 4 →
    (s.readData (s.shadowOf c (s.shard c i)).1 (s.shadowOf c (s.shard c i)).2).isSome = true →
    let h := s.shard c i
    let told (u : State) (sev ok : Nat) : Prop := ∀ k, LogRoom s 0x1004 sev 0x09 c k →
      ∃ d, u.logSlot k = s.entryNow 0x1004 sev 0x09 c d 0 ∧ d % 2 ^ 16 = h.layer % 2 ^ 11 + 2 ^ 11 * c + 2 ^ 14 * ok
    (∀ lo hi, s.digestPhase c i = some .compare →
      (lo = ~~~hi → Does (.digestCompareComplete c i lo hi) s fun u =>
        i ∈ (u.ctx c).swept ∧ u.digestPhase c i = none ∧ RegsBut s u [R.sweepStatus c] ∧ SameBytes s u)
      ∧ (lo ≠ ~~~hi → 1 < h.runs → Does (.digestCompareComplete c i lo hi) s fun u =>
        u.fld (F.sweepStatus.state c) = 4
        ∧ u.digestPhase c i = some (.bisect [(0, (h.runs + 1) / 2), ((h.runs + 1) / 2, h.runs / 2)] [])
        ∧ u.out = s.out ++ [.digest c i h.coords [s.rangeDigest c h 0 ((h.runs + 1) / 2), s.rangeDigest c h ((h.runs + 1) / 2) (h.runs / 2)]]
        ∧ RegsBut s u [R.sweepStatus c] ∧ SameBytes s u)
      ∧ (lo ≠ ~~~hi → h.runs ≤ 1 → Does (.digestCompareComplete c i lo hi) s fun u =>
        u.fld (F.sweepStatus.state c) = 4 ∧ u.digestPhase c i = some (.read [0]) ∧ u.out = s.out ++ [.runRead c i h.coords [0]]
        ∧ RegsBut s u [R.sweepStatus c] ∧ SameBytes s u))
    ∧ (∀ lo hi runs, s.digestPhase c i = some (.recheck runs) →
      (lo = ~~~hi → Does (.digestCompareComplete c i lo hi) s fun u =>
        i ∈ (u.ctx c).swept ∧ u.digestPhase c i = none ∧ RegsBut s u [R.sweepStatus c] ∧ SameBytes s u)
      ∧ (lo ≠ ~~~hi → runs ≠ [] → Does (.digestCompareComplete c i lo hi) s fun u =>
        u.digestPhase c i = some (.read runs) ∧ u.out = s.out ++ [.runRead c i h.coords runs] ∧ RegsBut s u [] ∧ SameBytes s u))
    ∧ (∀ ranges single differs, s.digestPhase c i = some (.bisect ranges single) →
      let left := (ranges.zip differs).filterMap fun e => if e.2 then some e.1 else none
      let wide := left.filter fun r => decide (1 < r.2)
      let found := single ++ (left.filter fun r => decide (r.2 ≤ 1)).map (·.1)
      Does (.bisectionRoundComplete c i differs) s fun u =>
        u.digestPhase c i = some (if wide ≠ [] then .bisect (wide.flatMap halves2) found else if found ≠ [] then .read found else .compare)
        ∧ RegsBut s u [] ∧ SameBytes s u)
    ∧ (∀ runs others, s.digestPhase c i = some (.read runs) → h.replicas = 2 → Does (.runReadComplete c i others) s fun u =>
      u.fld (F.sweepStatus.state c) = 6 ∧ (u.ctx c).halted = true ∧ (u.ctx c).commitBits.testBit 2 = true ∧ told u 4 0 ∧ SameBytes s u)
    ∧ (∀ r a, s.digestPhase c i = some (.read [r]) → h.replicas = 3 → a.length = h.runBytes r → h.runBytes r % 2 = 0 →
      inThermos (h.weights (s.stepOf c + 1) + 8192 * r) (h.runBytes r) → Does (.runReadComplete c i [[a, a]]) s fun u =>
        u.bytes (h.weights (s.stepOf c + 1) + 8192 * r) (h.runBytes r) = a ∧ u.digestPhase c i = some (.recheck [r]) ∧ told u 2 1
        ∧ BytesBut s u (h.weights (s.stepOf c + 1) + 8192 * r) (h.runBytes r))

/-- The commit (R16, R147, R196 to R200, R210) and what follows a repeated step (R243): F2 arrives once every shard is swept; without abort the
momentum selectors flip and `SWEEP_STEP` advances, with abort the step is skipped and repeats, and what the next step pushed is discarded, at
once or when its threads have stopped; roots used provisionally become installed, or complete again (R183, R184); the re-base sets the queues' counters to the values of the step. The staging of the context's
publications opens with the commit (R337).
Where the rules leave something open it rests on the model's choice: log entries 71 (`ROOT_LAST_INSTALL` holds the counter after the barrier) and
75. -/
def Obligations.CommitCompletes : Prop :=
  ∀ (c : Fin 8) (s : State), s.sweepsRun c = true → s.noneQueued → s.noBacklog → s.fld (F.sweepStatus.state c) ≤ 4 →
    ((s.ctx c).phase = .sweep → (s.ctx c).running = true → s.sweepDone c = true → Does (.commitArrival c) s fun u =>
      (u.ctx c).phase = .commitWait ∧ u.fld (F.sweepStatus.state c) = 3
      ∧ u.out = s.out ++ [.commitArrive c (stepWord (s.ctx c).commitBits (s.stepOf c))] ∧ RegsBut s u [R.sweepStatus c] ∧ SameBytes s u)
    ∧ (∀ w, (s.ctx c).phase = .commitWait → (s.ctx c).held = [] →
      (∀ l, commitFails w = false → s.precondOn c = true → s.shardCount c = 0 → s.layers c = [l] → s.layerState c l = 3 →
        inThermos (s.layerAt c l) 64 → inThermos (s.layerSched c l) 64 → s.layerAt c l + 64 ≤ s.layerSched c l →
        Does (.commitBarrierComplete c w) s fun u =>
          u.layerSel c l = 1 - s.layerSel c l % 2 ∧ u.layerUse c l = 0 ∧ u.layerAge c l = 0 ∧ u.layerState c l = 0
          ∧ u.layerHash c l = s.schedHash (s.layerSched c l) ∧ u.obj (O.rootLastInstall c) = (s.reg (R.sweepStep c) + 1).toNat ∧ BytesBut s u (s.layerAt c l + 8) 8)
      ∧ (∀ l age use, commitFails w = true → s.noPushWaits c → s.shardCount c = 0 → s.layers c = [l] → inThermos (s.layerAt c l) 64 →
        s.layerState c l ≠ 3 → (s.ctx c).prov = [(l, age, use)] → age < 256 → use < 256 → Does (.commitBarrierComplete c w) s fun u =>
          u.layerAge c l = age ∧ u.layerUse c l = use)
      ∧ (∀ l, commitFails w = true → s.noPushWaits c → s.shardCount c = 0 → s.layers c = [l] → inThermos (s.layerAt c l) 64 →
        s.layerState c l = 3 → Does (.commitBarrierComplete c w) s fun u => u.layerState c l = 2)
      ∧ (commitFails w = false → s.precondOn c = false → Does (.commitBarrierComplete c w) s fun u =>
        u.reg (R.commitLast c) = w ∧ u.reg (R.sweepStep c) = s.reg (R.sweepStep c) + 1 ∧ (u.ctx c).phase = .compute
        ∧ (u.ctx c).mayPublish = true ∧ (u.ctx c).swept = [] ∧ (∀ x ∈ u.publishes, x.set = c → x.opened = true)
        ∧ (∀ b, u.byte b = ((s.flipMomentum c).clearPresence c).byte b)
        ∧ RegsBut s u [R.commitLast c, R.sweepStep c, R.sweepStatus c, R.snapStatus c, R.schedCycleStart c, R.schedCycleLen c, R.lrNow c])
      ∧ (commitFails w = true → s.noPushWaits c →
        Does (.commitBarrierComplete c w) s fun u =>
          u.reg (R.commitLast c) = w ∧ u.reg (R.sweepStep c) = s.reg (R.sweepStep c) ∧ (u.ctx c).phase = .compute
          ∧ ((s.ctx c).running = true → (u.ctx c).rebase = true) ∧ ((u.ctx c).discardDue = true ∨ u.stacksEmpty c)
          ∧ (u.reg (R.sweepSkipped c)).toNat = min ((s.reg (R.sweepSkipped c)).toNat + 1) (2 ^ 64 - 1)))
    ∧ (∀ k, (s.ctx c).rebase = true → (s.ctx c).running = true → s.runningThreads c = [] → (s.ctx c).discardDue = false →
      (s.ctx c).restart = [] → ((upto 16).filter fun k => s.bit (F.qCfg.v c k)) = [k] → isCounterKey (s.fld (F.qCfg.obj c k)) →
      QuietCounter s (s.fld (F.qCfg.obj c k)) → Does (.queueRebase c) s fun u =>
        u.reg (s.fld (F.qCfg.obj c k)) = BitVec.ofNat 64 (s.stepOf c * s.fld (F.ctxCuts.m c)
          + (if s.bit (F.qCfg.kind c k) then 0 else s.fld (F.qCfg.depthM1 c k) + 1))
        ∧ u.out = s.out ++ [.rebaseArrive c, .rebaseArrive c] ∧ (u.ctx c).rebase = false
        ∧ RegsBut s u [s.fld (F.qCfg.obj c k)] ∧ SameBytes s u)

/-- F3 starts the refresh of a layer that is idle (R180, R186), once after a commit barrier that completed without abort: its state reads
running, and its owned blocks are held for their engines; behind no such commit nothing is started.
Where the rules leave something open it rests on the model's choice: log entries 76 and 115. -/
def Obligations.RefreshCompletes : Prop :=
  ∀ (c : Fin 8) (s : State) (l : Nat), (s.ctx c).running = true → s.rootsRun c = true → s.precondOn c = true →
    ((s.ctx c).refreshDue = false → Does (.refreshStart c) s fun u => u = s)
    ∧ (((s.layers c).filter fun l => s.layerState c l == 0) = [l] → inThermos (s.layerAt c l) 64 → (s.ctx c).forceCold = false →
      (s.ctx c).refreshDue = true →
      (s.refreshBlocks c l false = [] → Does (.refreshStart c) s fun u =>
        u.layerState c l = 1 ∧ (u.ctx c).refreshDue = false ∧ RegsBut s u [] ∧ BytesBut s u (s.layerAt c l + 8) 1)
      ∧ (∀ e x, s.refreshBlocks c l false = [(e, x)] → Does (.refreshStart c) s fun u =>
        (u.root e).held = (s.root e).held ++ [x] ∧ (u.ctx c).refreshDue = false ∧ RegsBut s u [R.rootQueueTail e]))


/-! ### Ports and Stile (chapter 10) -/

/-- Training of a port (R251, R255 to R259, R392), once the module has reached step 4 of its bring-up and its laser unit has light: each
state's work leads to the next, and a port behind a closed Stile sends nothing (R494); a limit goes back to `DETECT`, the budget to `DOWN` with a reason; a port that is down and enabled tries again.
The handshake (R256, R257): a neighbour of the same protocol version at the facing port is accepted, with its coordinate, its buffers as
credits and the width both ends have, or, on a retrain with the same partner, with the link state as it was and a replay
of what is unacknowledged (R258, R277); another version ends in
`DOWN` with reason 6, another port in `DOWN` with reason 5; behind a closed Stile the port is in `LOOP` (R271).
Where the rules leave something open it rests on the model's choice: log entries 79 and 117. -/
def Obligations.TrainingAndHandshakeComplete : Prop :=
  (∀ (p : Fin 8) (whole : BitVec 2) (failed : BitVec 16) (s : State),
    let st := s.portState p
    let goes (n : Nat) (u : State) : Prop := u.portState p = n ∧ RegsBut s u (R.portLanes p :: portRegs p) ∧ SameBytes s u
    (s.mayTrain p = false → Does (.portTrainingStep p whole failed) s fun u => u = s)
    ∧ (s.mayTrain p = true →
      (st = psLaser → Does (.portTrainingStep p whole failed) s (goes psDetect))
      ∧ (st = psDetect → whole ≠ 0 → Does (.portTrainingStep p whole failed) s fun u => goes psEqualise u ∧ (u.port p).whole = whole.toNat)
      ∧ (st = psDetect → whole = 0 → Does (.portTrainingStep p whole failed) s fun u => goes psDetect u ∧ (u.port p).failReason ≠ 0)
      ∧ (st = psEqualise → Does (.portTrainingStep p whole failed) s (goes psAlign))
      ∧ (st = psAlign → Does (.portTrainingStep p whole failed) s fun u =>
          let good := lanesOf (s.port p).whole &&& (0xFFFF - failed.toNat)
          goes psHandshake u ∧ u.fld (F.portLanes.locked p) = good ∧ u.fld (F.portLanes.failed p) = 0xFFFF - good
          ∧ (s.stileClosed (portAxis p) = false → ∃ f, Out.flit p f ∈ u.out ∧ f.type = 3 ∧ f.payload = s.linkCtl p)
          ∧ (s.stileClosed (portAxis p) = true → u.out = s.out))
      ∧ (st = psHandshake → s.stileClosed (portAxis p) = true → Does (.portTrainingStep p whole failed) s (goes psLoop)))
    ∧ (s.bring.step = 4 →
      (isTraining st = true → Does (.trainingLimitExpired p) s (goes psDetect))
      ∧ (isTraining st = true → Does (.trainingBudgetExpired p) s fun u =>
          u.portState p = psDown ∧ (u.port p).replay = [] ∧ (u.port p).txq = [] ∧ u.fld (F.portStatus.width p) = 0
          ∧ u.fld (F.portLanes.locked p) = 0
          ∧ u.fld (F.portStatus.downReason p) = (if (s.port p).failReason = 0 then stateReason st else (s.port p).failReason) % 16
          ∧ SameBytes s u)
      ∧ (st = psDown → s.bit (F.portCtl.enable p) = true → Does (.trainingRetry p) s fun u =>
          u.portState p = psLaser ∧ u.fld (F.portStatus.downReason p) = 0 ∧ (u.port p).replay = [] ∧ (u.port p).expect = 0
          ∧ (u.reg (R.portTrains p)).toNat = min ((s.reg (R.portTrains p)).toNat + 1) (2 ^ 64 - 1)
          ∧ RegsBut s u (R.portTrains p :: R.portLanes p :: portRegs p) ∧ SameBytes s u)))
  ∧ ∀ (p : Fin 8) (x : WireFlit) (s : State), s.portState p = psHandshake → goodCrc x = true → (fieldsOf x).type = 3 →
    let b := (fieldsOf x).payload
    let co := natAt b 0 4 % 2 ^ 17
    let port := natAt b 4 1
    let facing := port = (if p.val % 2 = 0 then p.val + 1 else p.val - 1)
    let both := (natAt b 0 4).testBit 31 = true ∧ s.coordKnown = true
    let k := if both then s.positionsAway p co - 1 else 0
    let fits := natAt b 8 4 / 2 ^ 16 = linkVersion / 2 ^ 16 ∧ facing ∧ (both → s.neighbourFits p co = true)
    (s.stileClosed (portAxis p) = true → Does (.linkCtlReceived p x) s fun u => u.portState p = psLoop ∧ SameBytes s u)
    ∧ (s.stileClosed (portAxis p) = false →
      (fits → (s.port p).whole &&& (natAt b 5 1 % 4) = 3 → s.bit (F.portCtl.reinsertArm p) = false →
        let up (u : State) : Prop :=
          u.portState p = psUp ∧ u.fld (F.portStatus.width p) = 3
          ∧ u.reg (R.portNeighbour p) = BitVec.ofNat 64 (co + 2 ^ 17 * port + 2 ^ 20 * (k % 4)) ∧ SameBytes s u
        ((s.port p).retraining = false ∨ (both ∧ s.newPartner p co port = true) → Does (.linkCtlReceived p x) s fun u =>
          up u ∧ (u.port p).expect = 0 ∧ ∀ v, v < 8 → u.fld (F.portVcCredit.val p v) = natAt b (12 + 2 * v) 2 % 4096)
        ∧ ((s.port p).retraining = true → ¬ (both ∧ s.newPartner p co port = true) → (fieldsOf x).crCount = 0 → (s.port p).arming = false →
          Does (.linkCtlReceived p x) s fun u =>
            up u ∧ (u.port p).expect = (s.port p).expect
            ∧ (u.reg (R.portRetries p)).toNat = min ((s.reg (R.portRetries p)).toNat
                + (if ((s.takeAck p (fieldsOf x)).port p).replay = [] then 0 else 1)) (2 ^ 64 - 1)
            ∧ ∀ v, v < 8 → u.fld (F.portVcCredit.val p v) = s.fld (F.portVcCredit.val p v)))
      ∧ (natAt b 8 4 / 2 ^ 16 ≠ linkVersion / 2 ^ 16 → Does (.linkCtlReceived p x) s fun u =>
          u.portState p = psDown ∧ u.fld (F.portStatus.downReason p) = 6 ∧ SameBytes s u)
      ∧ (natAt b 8 4 / 2 ^ 16 = linkVersion / 2 ^ 16 → ¬ facing → Does (.linkCtlReceived p x) s fun u =>
          u.portState p = psDown ∧ u.fld (F.portStatus.downReason p) = 5 ∧ SameBytes s u))

/-- Control and failures of a port (R251, R257, R258, R274, R277, R494).
Where the rules leave something open it rests on the model's choice: log entries 79, 80 and 117. -/
def Obligations.PortControlCompletes : Prop :=
  ∀ (p : Fin 8) (s : State),
    let st := s.portState p
    (st = psDisabled → s.ronbin.recovery = false → Does (.portEnableWrite p true) s fun u =>
      u.bit (F.portCtl.enable p) = true ∧ u.portState p = psLaser
      ∧ RegsBut s u (R.portCtl p :: R.portTrains p :: R.portLanes p :: portRegs p) ∧ SameBytes s u)
    ∧ (st ≠ psDisabled → Does (.portEnableWrite p false) s fun u =>
      u.bit (F.portCtl.enable p) = false ∧ u.portState p = psDisabled ∧ u.fld (F.portStatus.width p) = 0 ∧ (u.port p).txq = []
      ∧ (u.port p).replay = [] ∧ u.fld (F.portLanes.locked p) = 0 ∧ RegsBut s u (R.portCtl p :: R.portLanes p :: portRegs p) ∧ SameBytes s u)
    ∧ (s.portLive p = true → Does (.retrain p) s fun u =>
      u.portState p = psLaser ∧ (u.port p).retraining = true ∧ (u.port p).replay = (s.port p).replay ∧ (u.port p).expect = (s.port p).expect
      ∧ RegsBut s u (R.portTrains p :: R.portLanes p :: R.logNextSeq :: R.logStatus :: R.logDropped :: portRegs p) ∧ SameBytes s u)
    ∧ (Does (.clrCnt p) s fun u => (∀ k ∈ portCounters p, u.reg k = 0) ∧ OnlyRegs s u (portCounters p))
    ∧ (st = psUp → (s.port p).replay = [] → Does (.reinsertArm p true) s fun u =>
      u.portState p = psArmed ∧ u.bit (F.portCtl.reinsertArm p) = true ∧ RegsBut s u (R.portCtl p :: portRegs p) ∧ SameBytes s u)
    ∧ (st = psUp → (s.port p).replay ≠ [] → Does (.reinsertArm p true) s fun u =>
      u.portState p = psUp ∧ (u.port p).arming = true ∧ u.bit (F.portCtl.reinsertArm p) = true
      ∧ RegsBut s u [R.portCtl p] ∧ SameBytes s u)
    ∧ (st = psArmed → Does (.reinsertArm p false) s fun u =>
      u.portState p = psUp ∧ u.bit (F.portCtl.reinsertArm p) = false ∧ RegsBut s u (R.portCtl p :: portRegs p) ∧ SameBytes s u)
    ∧ (∀ pair : Fin 2, st = psUp ∨ st = psArmed → s.fld (F.portStatus.width p) = 3 → s.bit (F.portCtl.halfOk p) = true →
      Does (.lossOfLight p pair) s fun u =>
        u.fld (F.portStatus.width p) = 2 - pair.val ∧ u.portState p = st
        ∧ u.fld (F.portLanes.locked p) = s.fld (F.portLanes.locked p) &&& lanesOf ((s.port p).whole &&& (3 - 2 ^ pair.val)) ∧ SameBytes s u)
    ∧ (∀ pair : Fin 2, st = psUp ∨ st = psArmed → s.fld (F.portStatus.width p) ≠ 3 ∨ s.bit (F.portCtl.halfOk p) = false →
      Does (.lossOfLight p pair) s fun u => u.portState p = psLaser ∧ (u.port p).retraining = true
        ∧ (u.port p).expect = (s.port p).expect ∧ (u.port p).replay = (s.port p).replay ∧ SameBytes s u)
    ∧ ∀ (unit : Fin 2) (w : Fin 8),
      (Tab.get (fun _ => 0) s.lasers (16 * unit.val + w.val) = 0 → Does (.laserFailure unit w) s fun u =>
        Tab.get (fun _ => 0) u.lasers (16 * unit.val + w.val) = 1
        ∧ (∀ q, q / 4 = unit.val → u.bit (F.portStatus.laserSpare q) = true
            ∧ (s.portLive q = true ∨ s.portState q = psLoop ∨ isTraining (s.portState q) = true → u.portState q = psLaser)) ∧ SameBytes s u)
      ∧ (Tab.get (fun _ => 0) s.lasers (16 * unit.val + w.val) = 1 → Does (.laserFailure unit w) s fun u =>
        Tab.get (fun _ => 0) u.lasers (16 * unit.val + w.val) = 2
        ∧ (∀ q, q / 4 = unit.val →
            (u.fld (F.portLanes.locked q)).testBit w = false ∧ (u.fld (F.portLanes.locked q)).testBit (8 + w.val) = false
            ∧ (u.fld (F.portLanes.failed q)).testBit w = true ∧ (u.fld (F.portLanes.failed q)).testBit (8 + w.val) = true
            ∧ (s.portState q ≠ psDisabled → u.portState q = psDown ∧ u.fld (F.portStatus.downReason q) = 8))
        ∧ SameBytes s u)

/-- A `DATA` flit (R263 to R265, R281): in order it is accepted and goes to this module's reassembly, or to the queue of its next port on the
VC that the dateline of that axis gives (R263); a flit
of a live port that fails its CRC, whatever its `TYPE` reads, is counted, and a `NAK` goes out unless one is out already.
Where the rules leave something open it rests on the model's choice: log entry 77. -/
def Obligations.DataFlitCompletes : Prop :=
  (∀ (p : Fin 8) (x : WireFlit) (s t : State), Receives s p 1 x t →
    let f := fieldsOf x
    f.seq = (s.port p).expect →
    (s.nextAxis f.dest = none → f.first = true → f.last = true → s.rxWait = [] → s.reassemblies = [] → Does (.dataFlitReceived p x) s fun u =>
      (u.port p).expect = (f.seq + 1) % 4096 ∧ u.reassemblies = []
      ∧ u.arrived = s.arrived ++ [({ tag := f.tag, vc := f.vc, port := p, payload := f.payload, poison := f.poison } : Reassembly).arrived]
      ∧ RegsBut s u (ackRegs p) ∧ SameBytes s u)
    ∧ (∀ a, s.nextAxis f.dest = some a →
      let q := 2 * a + dirOf f.dirs a
      q ≠ p.val → t.portGone q = false → s.stileClosed a = false → Does (.dataFlitReceived p x) s fun u =>
        (u.port p).expect = (f.seq + 1) % 4096
        ∧ (u.port q).txq = (t.port q).txq
            ++ [{ flit := { f with vc := t.outVc (f.vc / 2) a (dirOf f.dirs a) (if p.val / 2 = a then some f.vc else none) }, held := some (p.val, f.vc) }]
        ∧ RegsBut s u (ackRegs p) ∧ SameBytes s u))
  ∧ ∀ (p : Fin 8) (x : WireFlit) (s : State), s.portLive p = true → goodCrc x = false → (s.port p).nakOut = false →
    let discarded (u : State) : Prop :=
      (u.port p).nakOut = true ∧ (∃ f, Out.flit p f ∈ u.out ∧ f.type = 2 ∧ f.seq = (s.port p).expect)
      ∧ (u.reg (R.portCrcErr p)).toNat = min ((s.reg (R.portCrcErr p)).toNat + 1) (2 ^ 64 - 1) ∧ RegsBut s u [R.portCrcErr p] ∧ SameBytes s u
    Does (.dataFlitReceived p x) s discarded ∧ Does (.nakReceived p x) s discarded ∧ Does (.idleFlitReceived p x) s discarded
    ∧ Does (.stileNoticeReceived p x) s discarded ∧ Does (.linkCtlReceived p x) s discarded ∧ Does (.reservedTypeFlitReceived p x) s discarded

/-- What every flit carries (R261, R264, R265): its `ACK` takes the flits it names off the replay buffer, and its credits are added to the VC,
up to 4,095.
Where the rules leave something open it rests on the model's choice: log entry 77. -/
def Obligations.AckAndCreditsTake : Prop :=
  ∀ (p : Fin 8) (f : Flit) (s : State), f.crVc < 8 → (s.port p).arming = false →
    let u := s.takeAck p f
    (∀ i, ((s.port p).replay.findIdx? fun r => r.flit.seq == f.ack) = some i → (u.port p).replay = (s.port p).replay.drop (i + 1))
    ∧ (((s.port p).replay.findIdx? fun r => r.flit.seq == f.ack) = none → (u.port p).replay = (s.port p).replay)
    ∧ u.fld (F.portVcCredit.val p f.crVc) = (if f.crCount = 0 then s.fld (F.portVcCredit.val p f.crVc)
        else min (s.fld (F.portVcCredit.val p f.crVc) + f.crCount) 4095)
    ∧ (u.port p).expect = (s.port p).expect ∧ RegsBut s u [R.portVcCredit p f.crVc] ∧ SameBytes s u

/-- The other flits and the link layer's own events (R254, R261, R265 to R267, R270).
Where the rules leave something open it rests on the model's choice: log entries 77 and 80. -/
def Obligations.LinkEventsComplete : Prop :=
  (∀ (p : Fin 8) (x : WireFlit) (s t : State),
    (Receives s p 5 x t → Does (.stileNoticeReceived p x) s fun u => u = t)
    ∧ (Receives s p 3 x t → Does (.linkCtlReceived p x) s fun u => u = t)
    ∧ (Receives s p 0 x t → Does (.idleFlitReceived p x) s fun u => u = t)
    ∧ (∀ ty, Receives s p ty x t → 6 ≤ ty → Does (.reservedTypeFlitReceived p x) s fun u =>
      (u.reg (R.portProtoErr p)).toNat = min ((s.reg (R.portProtoErr p)).toNat + 1) (2 ^ 64 - 1) ∧ SameBytes s u)
    ∧ (s.portState p = psHandshake ∨ s.portState p = psLoop → goodCrc x = true → 6 ≤ (fieldsOf x).type → Does (.reservedTypeFlitReceived p x) s fun u =>
      (u.reg (R.portProtoErr p)).toNat = min ((s.reg (R.portProtoErr p)).toNat + 1) (2 ^ 64 - 1) ∧ (u.port p).replay = (s.port p).replay ∧ SameBytes s u)
    ∧ (∀ i r, Receives s p 2 x t → ((t.port p).replay.findIdx? fun r => r.flit.seq == (fieldsOf x).seq) = some i →
      (t.port p).replay[i]? = some r → r.fails < 2 → Does (.nakReceived p x) s fun u =>
        (u.port p).replayAt = some i ∧ (u.port p).replay = (t.port p).replay.set i { r with fails := r.fails + 1 }
        ∧ (u.reg (R.portRetries p)).toNat = min ((s.reg (R.portRetries p)).toNat + 1) (2 ^ 64 - 1)
        ∧ RegsBut s u (R.portRetries p :: ackRegs p) ∧ SameBytes s u))
  ∧ ∀ (p : Fin 8) (s : State),
    let counts (k n : Nat) (u : State) : Prop := (u.reg k).toNat = min ((s.reg k).toNat + n) (2 ^ 64 - 1)
    (s.portLive p = true → Does (.codewordUncorrectable p) s fun u =>
      counts (R.portFecUncorr p) 1 u ∧ counts (R.portCrcErr p) 3 u ∧ (u.port p).nakOut = true
      ∧ RegsBut s u [R.portFecUncorr p, R.portCrcErr p] ∧ SameBytes s u)
    ∧ (s.portState p = psHandshake ∨ s.portState p = psLoop → Does (.codewordUncorrectable p) s fun u =>
      counts (R.portFecUncorr p) 1 u ∧ counts (R.portCrcErr p) 3 u ∧ OnlyRegs s u [R.portFecUncorr p, R.portCrcErr p])
    ∧ (∀ r rest, s.portLive p = true → (s.port p).replay = r :: rest → r.fails < 2 → Does (.replayTimeout p) s fun u =>
      (u.port p).replayAt = some 0 ∧ (u.port p).replay = { r with fails := r.fails + 1 } :: rest ∧ counts (R.portRetries p) 1 u
      ∧ RegsBut s u [R.portRetries p] ∧ SameBytes s u)
    ∧ (∀ r rest, s.portLive p = true → (s.port p).replay = r :: rest → r.fails = 2 → r.flit.poison = false → Does (.replayTimeout p) s fun u =>
      (u.port p).replay = { flit := { r.flit with poison := true, len := 0, payload := [] }, fails := 3 } :: rest
      ∧ counts (R.portPoisoned p) 1 u ∧ SameBytes s u)
    ∧ (s.portLive p = true → (s.port p).nakOut = true → Does (.nakResend p) s fun u =>
      (∃ f, u.out = s.out ++ [.flit p f] ∧ f.type = 2 ∧ f.seq = (s.port p).expect) ∧ (u.port p).nakOut = true ∧ RegsBut s u [] ∧ SameBytes s u)
    ∧ (∀ (corrected : Word) (ratio : F32), Does (.fecSymbolErrorRatio p corrected ratio) s fun u =>
      counts (R.portFecCorr p) corrected.toNat u ∧ SameBytes s u)

/-- The Stiles (R271 to R274): which commands start a movement, which are refused or wait, and what a finished movement leaves; ports without
power do not train (R449).
Where the rules leave something open it rests on the model's choice: log entries 39, 46 and 130. -/
def Obligations.StileCompletes : Prop :=
  ∀ (s : State),
    (∀ (mask : BitVec 4) (force obj : Bool), (obj = true → s.dictServes O.stileClose = true) → Does (.stileClose mask force obj) s fun u =>
      (∀ a, a < 4 → mask.toNat.testBit a = true → s.stileMoving a = false → s.stileClosed a = false → s.runTooLong a = false ∨ force = true →
        u.stileMoving a = true ∧ u.stileCause a = (if obj then 5 else 4))
      ∧ (∀ a, a < 4 → mask.toNat.testBit a = true → s.stileMoving a = false → s.stileClosed a = false → s.runTooLong a = true → force = false →
        u.stileMoving a = false ∧ u.bit F.stileStatus.refused = true)
      ∧ (∀ a, a < 4 → mask.toNat.testBit a = false → u.stileMoving a = s.stileMoving a ∧ u.stileClosed a = s.stileClosed a)
      ∧ RegsBut s u [R.stileStatus] ∧ SameBytes s u)
    ∧ (∀ mask : BitVec 4, Does (.stileOpen mask) s fun u =>
      (∀ a, a < 4 → mask.toNat.testBit a = true → s.stileMoving a = false → s.stileClosed a = true → s.portState (2 * a) = psLoop →
        s.portState (2 * a + 1) = psLoop →
        (s.acked a = true → u.stileMoving a = true) ∧ (s.acked a = false → u.bit ⟨R.stileStatus, F.stileStatus.openPending.lo + a, 1⟩ = true))
      ∧ (∀ a, a < 4 → mask.toNat.testBit a = true → s.stileMoving a = false → s.stileClosed a = true → s.bothLoop a = false →
        u.stileMoving a = false ∧ u.bit F.stileStatus.refused = true)
      ∧ RegsBut s u [R.stileStatus] ∧ SameBytes s u)
    ∧ (∀ mask : BitVec 8, s.fld F.stileStatus.openPending = 0 → Does (.stileNeighAck mask) s fun u =>
      u = { s with stileAcks := s.stileAcks ||| mask.toNat })
    ∧ (∀ (mask : BitVec 8) (a : Fin 4), (s.fld F.stileStatus.openPending).testBit a = true →
      (s.stileAcks ||| mask.toNat).testBit (2 * a.val) = true → (s.stileAcks ||| mask.toNat).testBit (2 * a.val + 1) = true →
      Does (.stileNeighAck mask) s fun u =>
        (u.fld F.stileStatus.openPending).testBit a = false ∧ (s.bothLoop a = true → u.stileMoving a = true)
        ∧ (s.bothLoop a = false → u.stileMoving a = s.stileMoving a ∧ u.bit F.stileStatus.refused = true)
        ∧ RegsBut s u [R.stileStatus] ∧ SameBytes s u)
    ∧ (∀ a : Fin 4, (s.fld F.stileStatus.openPending).testBit a = true → Does (.stileOpenLapse a) s fun u =>
      (u.fld F.stileStatus.openPending).testBit a = false ∧ u.bit F.stileStatus.refused = true ∧ u.fld F.stileStatus.refReason = 4
      ∧ OnlyRegs s u [R.stileStatus])
    ∧ (∀ a : Fin 4, s.stileMoving a = true →
      let closing := s.stileClosed a = false
      Does (.stileMovementComplete a) s fun u =>
        u.stileMoving a = false ∧ u.stileClosed a = decide closing ∧ (¬ closing → u.stileCause a = 0)
        ∧ (∀ p, p = 2 * a.val ∨ p = 2 * a.val + 1 →
            if s.bit (F.portCtl.enable p) = true ∧ s.portState p ≠ psDisabled ∧ 2 ≤ s.fld F.pwrStatus.state ∧ s.ronbin.recovery = false then
              u.portState p = psLaser ∧ (u.port p).expect = 0
            else u.portState p = s.portState p)
        ∧ SameBytes s u)
    ∧ Does .powerLossStileClose s fun u =>
      (∀ a, a < 4 → s.stileClosed a = false ∨ s.stileMoving a = true → u.stileMoving a = true ∧ u.stileCause a = 1)
      ∧ (∀ a, a < 4 → s.stileClosed a = true → s.stileMoving a = false → u.stileClosed a = true ∧ u.stileMoving a = false)
      ∧ RegsBut s u [R.stileStatus] ∧ SameBytes s u


/-! ### Slots and Lark time (chapter 11) -/

/-- The start of a slot (R263 to R265, R286): the flit the slot takes leaves; one sent for the first time gets the next `SEQ`, takes a credit
and is kept for replay; an empty slot carries `IDLE`. A scheduled slot with no replay under way takes the first scheduled flit that has a
credit and is next of its stream; one that a replay uses because no reserve and no free slot is left counts the frame once (R287); a reserve
slot takes a replay first; a free slot with no reserve slot behind it a replay first.
Where the rules leave something open it rests on the model's choice: log entries 77 and 78. -/
def Obligations.SlotStartCompletes : Prop :=
  (∀ (p : Fin 8) (n : Fin 4096) (s : State), s.portLive p = true → s.stileMoving (portAxis p) = false → (s.port p).frame = s.now / framePs →
    let x := s.port p
    (s.slotPick p (s.now / framePs) n = none → Does (.slotStart p n) s fun u =>
      (∃ f, u.out = s.out ++ [.flit p f] ∧ f.type = 0 ∧ f.ack = (x.expect + 4095) % 4096) ∧ RegsBut s u [] ∧ SameBytes s u)
    ∧ (∀ i q, s.slotPick p (s.now / framePs) n = some (.queued i) → x.txq[i]? = some q → q.flit.vc < 8 → Does (.slotStart p n) s fun u =>
      let f := { q.flit with seq := x.nextSeq }
      (u.port p).txq = x.txq.eraseIdx i ∧ (u.port p).replay = x.replay ++ [{ flit := f }] ∧ (u.port p).nextSeq = (x.nextSeq + 1) % 4096
      ∧ u.fld (F.portVcCredit.val p q.flit.vc) = s.fld (F.portVcCredit.val p q.flit.vc) - 1
      ∧ (∃ g, u.out = s.out ++ [.flit p g] ∧ g.payload = f.payload ∧ g.seq = f.seq ∧ g.vc = f.vc ∧ g.dest = f.dest ∧ g.tag = f.tag)
      ∧ RegsBut s u [R.portVcCredit p q.flit.vc] ∧ SameBytes s u)
    ∧ (∀ i r, s.slotPick p (s.now / framePs) n = some .replay → x.replayAt = some i → x.replay[i]? = some r → Does (.slotStart p n) s fun u =>
      (u.port p).replay = x.replay ∧ (u.port p).replayAt = (if i + 1 < x.replay.length then some (i + 1) else none)
      ∧ (∃ g, u.out = s.out ++ [.flit p g] ∧ g.payload = r.flit.payload ∧ g.seq = r.flit.seq)
      ∧ (s.activeUse p n = 1 → s.replayOverruns p (s.now / framePs) n = true → x.overrun = false → (u.reg (R.resOverruns p)).toNat = min ((s.reg (R.resOverruns p)).toNat + 1) (2 ^ 64 - 1))
      ∧ RegsBut s u [R.resOverruns p] ∧ SameBytes s u))
  ∧ ∀ (p : Fin 8) (n : Fin 4096) (s : State) (frame : Nat),
    let x := s.port p
    (∀ i, s.activeUse p n = 1 → x.replayAt = none → s.portState p = psUp → x.replay.length < 1024 → s.pick p (isClass 0) = some i →
      s.slotPick p frame n = some (.queued i))
    ∧ (s.activeUse p n = 1 → x.replayAt.isSome = true → s.reserveLeft p n = false → s.freeLeft p frame n = false → s.slotPick p frame n = some .replay)
    ∧ (s.activeUse p n = 2 → x.replayAt.isSome = true → s.slotPick p frame n = some .replay)
    ∧ (s.activeUse p n = 0 → x.replayAt.isSome = true → s.reserveLeft p n = false → s.slotPick p frame n = some .replay)

/-- Bank swaps (R285, R288): a swap to a bank that passes the checks, at a frame to come, is pending; any other is refused; at its frame the
banks change places and the counts of the bank in use are shown. -/
def Obligations.BankSwapCompletes : Prop :=
  ∀ (p : Fin 8) (s : State),
    (∀ k : Word, s.now / framePs < k.toNat → s.bankPasses p (1 - s.fld (F.resStatus.active p)) = true → Does (.resSwapFrame p k) s fun u =>
      u.bit (F.resStatus.swapPending p) = true ∧ (u.port p).swapFrame = k.toNat ∧ RegsBut s u [R.resStatus p] ∧ SameBytes s u)
    ∧ (∀ k : Word, k.toNat ≤ s.now / framePs ∨ s.bankPasses p (1 - s.fld (F.resStatus.active p)) = false → Does (.resSwapFrame p k) s fun u =>
      u.bit (F.resStatus.swapRefused p) = true ∧ OnlyRegs s u [R.resStatus p])
    ∧ (s.publishes = [] → Does .frameStart s fun u =>
      (s.bit (F.resStatus.swapPending p) = true → (s.port p).swapFrame ≤ s.now / framePs →
        let b := 1 - s.fld (F.resStatus.active p)
        u.fld (F.resStatus.active p) = b ∧ u.bit (F.resStatus.swapPending p) = false
        ∧ u.fld (F.resStatus.schedSlots p) = s.countUse p b 1 % 4096 ∧ u.fld (F.resStatus.reserveSlots p) = s.countUse p b 2 % 4096)
      ∧ (s.bit (F.resStatus.swapPending p) = false → u.reg (R.resStatus p) = s.reg (R.resStatus p))
      ∧ (u.port p).frame = s.now / framePs ∧ RegsBut s u ((upto 8).map fun q => R.resStatus q) ∧ SameBytes s u)

/-- Lark (R301 to R307): a request goes out with the next exchange number; one that arrives is answered; an answer from the parent gives the
port's link delay and the offset, followed by slewing within the limit, or by a step when it exceeds 1 µs; 16 offsets of at most 20 ps in a row lock
(R303). Of two grandmasters the one of the higher coordinate yields (R305). A module under discovery takes the position beside its neighbour's (R308).
The lost parent leads the other
way round, and back once the shorter way is up, or into a holdover, which expires; in the lock that follows one every offset is stepped; the grandmaster follows its epoch edges, and its time is set while all its contexts stand.
Where the rules leave something open it rests on the model's choice: log entries 84, 118 and 131. -/
def Obligations.LarkCompletes : Prop :=
  ((∀ (p : Fin 8) (s : State), s.portLive p = true → Does (.larkSyncExchange p) s fun u =>
    (u.port p).exchange = ((s.port p).exchange + 1) % 2 ^ 16 ∧ (u.port p).sentAt = s.now
    ∧ (∃ f, u.out = s.out ++ [.flit p f] ∧ f.type = 4 ∧ f.payload = s.timePayload 0 (((s.port p).exchange + 1) % 2 ^ 16) 0 0)
    ∧ RegsBut s u [] ∧ SameBytes s u)
  ∧ (∀ (p : Fin 8) (x : WireFlit) (stamp : Word) (s t : State), Receives s p 4 x t → s.discovers = false → s.isGm = false →
    let b := (fieldsOf x).payload
    (natAt b 0 1 = 0 → Does (.timeFlitReceived p x stamp) s fun u =>
      (∃ f, Out.flit p f ∈ u.out ∧ f.type = 4 ∧ f.payload = t.timePayload 1 (natAt b 2 2) stamp.toNat (natAt b 8 8))
      ∧ RegsBut s u (ackRegs p) ∧ SameBytes s u)
    ∧ (natAt b 0 1 = 1 → natAt b 2 2 = (s.port p).exchange →
      let delay : Int := ((stamp.toNat : Int) - (natAt b 24 8 : Nat) - ((natAt b 8 8 : Nat) - (natAt b 16 8 : Nat))) / 2
        + ((s.reg (R.portAsym p)).extractLsb' 0 32).toInt
      let off : Int := (natAt b 16 8 : Nat) - (natAt b 24 8 : Nat) - delay
      let limit : Int := 2 ^ 20
      (s.parentPort ≠ some p.val → Does (.timeFlitReceived p x stamp) s fun u =>
        u.reg (R.portLinkDelay p) = BitVec.ofInt 64 delay ∧ RegsBut s u (R.portLinkDelay p :: ackRegs p) ∧ SameBytes s u)
      ∧ (s.parentPort = some p.val → natAt b 36 1 < 255 → s.fld F.larkStatus.state = 2 → s.lark.relock = false → off.natAbs ≤ 1000000 →
        Does (.timeFlitReceived p x stamp) s fun u =>
          u.reg (R.portLinkDelay p) = BitVec.ofInt 64 delay ∧ u.reg R.larkOffset = BitVec.ofInt 64 off
          ∧ u.fld F.larkStatus.depth = natAt b 36 1 + 1
          ∧ u.fld F.larkRate.val = (max (-limit) (min limit (2 ^ 40 * off / (1000000 * max 1 (s.fld F.larkSyncInterval.val : Nat)))) % 2 ^ 32).toNat
          ∧ u.fld F.larkStatus.parent = p ∧ u.reg R.larkTime = s.reg R.larkTime ∧ SameBytes s u)
      ∧ (s.parentPort = some p.val → natAt b 36 1 < 255 → (s.lark.relock = true ∧ off ≠ 0) ∨ 1000000 < off.natAbs →
        Does (.timeFlitReceived p x stamp) s fun u =>
          u.reg R.larkTime = BitVec.ofInt 64 ((s.now : Int) + off) ∧ (1000000 < off.natAbs → u.fld F.larkStatus.state = 1)
          ∧ u.fld F.larkSteps.steps = min (s.fld F.larkSteps.steps + 1) (2 ^ F.larkSteps.steps.width - 1) ∧ u.reg R.larkRate = 0 ∧ SameBytes s u)
      ∧ (s.parentPort = some p.val → natAt b 36 1 < 255 → off.natAbs ≤ 20 → Does (.timeFlitReceived p x stamp) s fun u =>
          u.lark.good = min 16 (s.lark.good + 1)
          ∧ (15 ≤ s.lark.good → u.fld F.larkStatus.state = 2 ∧ (u.reg R.funcReady).getLsbD 5 = true ∧ u.lark.relock = false)
          ∧ (s.lark.good < 15 → u.fld F.larkStatus.state = if s.fld F.larkStatus.state = 2 then 2 else 1))
      ∧ (s.parentPort = some p.val → natAt b 36 1 < 255 → 20 < off.natAbs → Does (.timeFlitReceived p x stamp) s fun u =>
          u.lark.good = 0 ∧ u.fld F.larkStatus.state = 1)))
  ∧ (∀ (p : Fin 8) (x : WireFlit) (stamp : Word) (s t : State), Receives s p 4 x t →
    let b := (fieldsOf x).payload
    let gm := natAt b 4 4 % 2 ^ 17
    let co := natAt b 32 4 % 2 ^ 17
    let a := portAxis p
    let l := t.ringLen a
    let beside (k : Nat) : Nat := if portDir p = 1 then (coordAt co a + k) % l else (coordAt co a + l - k % l) % l
    natAt b 0 1 = 0 →
    (s.discovers = false → s.isGm = true → gm < s.coord → Does (.timeFlitReceived p x stamp) s fun u =>
      u.isGm = false ∧ u.bit F.larkStatus.gmConflict = true ∧ u.gmCoord = gm ∧ u.fld F.larkStatus.state = 1
      ∧ RegsBut s u (R.larkCtl :: R.larkStatus :: R.larkGmCoord :: ackRegs p) ∧ SameBytes s u)
    ∧ (∀ k, (natAt b 1 1).testBit 1 = true → t.betterSource (natAt b 36 1) p = true → 1 ≤ k → k ≤ l → t.activeAt a (beside k) = true →
      (∀ j, 1 ≤ j → j < k → t.activeAt a (beside j) = false) → Does (.timeFlitReceived p x stamp) s fun u =>
        u.obj O.moduleCoordinate = coordSet co a (beside k) ∧ u.coordKnown = true ∧ u.bit F.larkStatus.coordDiscovered = true
        ∧ u.lark.source = some (natAt b 36 1, p.val) ∧ RegsBut s u (R.larkStatus :: ackRegs p) ∧ SameBytes s u)))
  ∧ ∀ (s : State),
    (∀ p, s.isGm = false → s.parentVia false = some p → s.portState p = psUp → s.parentPort = some p)
    ∧ (∀ p q, s.isGm = false → s.parentVia false = some p → s.portState p ≠ psUp → s.parentVia true = some q →
      (s.lark.alt = true → s.parentPort = some q)
      ∧ (s.lark.alt = false → s.portState q = psUp → Does .parentPortLost s fun u =>
        u.lark.alt = true ∧ u.fld F.larkStatus.parent = q % 8 ∧ RegsBut s u [R.larkStatus] ∧ SameBytes s u)
      ∧ (s.portState q ≠ psUp → s.fld F.larkStatus.state = 1 → s.fld F.larkStatus.depth = 0 → Does .parentPortLost s fun u => u = s)
      ∧ (s.portState q ≠ psUp → s.fld F.larkStatus.state = 2 ∨ (s.fld F.larkStatus.state = 1 ∧ s.fld F.larkStatus.depth ≠ 0) →
        Does .parentPortLost s fun u => u.fld F.larkStatus.state = 3 ∧ RegsBut s u [R.larkStatus, R.funcReady, R.intCause, R.msixPba] ∧ SameBytes s u))
    ∧ (s.fld F.larkStatus.state = 3 → Does .holdoverExpiry s fun u =>
      u.fld F.larkStatus.state = 0 ∧ (u.reg R.funcReady).getLsbD 5 = false ∧ RegsBut s u [R.larkStatus, R.funcReady, R.intCause, R.msixPba] ∧ SameBytes s u)
    ∧ (s.bit F.larkCtl.epochOutEn = true → s.fld F.phaseStatus.phase = 2 → Does .epochPulseOut s fun u =>
      u = { s with out := s.out ++ [.epoch s.now] })
    ∧ (∀ v : Word, s.isGm = true → s.anyRunning = false → Does (.larkSet v) s fun u => u.reg R.larkTime = v ∧ OnlyRegs s u [R.larkTime])
    ∧ (s.isGm = true → s.bit F.larkCtl.epochInEn = true → s.fld F.phaseStatus.phase = 2 → s.reg R.larkEpochPeriod ≠ 0 →
      let per := (s.reg R.larkEpochPeriod).toNat
      let r := s.now % per
      let off : Int := if 2 * r < per then -(r : Int) else ((per - r : Nat) : Int)
      (s.lark.epochSeen = false → Does .epochEdgeIn s fun u =>
        u.reg R.larkTime = BitVec.ofInt 64 ((s.now : Int) + off) ∧ u.lark.epochSeen = true ∧ RegsBut s u [R.larkTime] ∧ SameBytes s u)
      ∧ (s.lark.epochSeen = true → off.natAbs ≤ 1000000 → Does .epochEdgeIn s fun u =>
        u.fld F.larkRate.val = (max (-slewLimit) (min slewLimit (2 ^ 40 * off / (per : Int))) % 2 ^ 32).toNat ∧ OnlyRegs s u [R.larkRate])
      ∧ (s.lark.epochSeen = true → 1000000 < off.natAbs → Does .epochEdgeIn s fun u =>
        u.fld F.larkSteps.epochRejects = min (s.fld F.larkSteps.epochRejects + 1) (2 ^ F.larkSteps.epochRejects.width - 1)
        ∧ OnlyRegs s u [R.larkSteps]))

/-- Frame contracts and snapshots (R300, R311): an enable beyond the budget is refused and raised as an event.
Where the rules leave something open it rests on the model's choice: log entries 4, 83 and 129. -/
def Obligations.ContractsAndSnapshotsComplete : Prop :=
  ∀ (c : Fin 8) (s : State),
    let snaps (u : State) : Prop := OnlyRegs s u [R.snapTime c, R.snapStatus c]
    (s.bit (F.fcCtl.enable c) = false → s.budgetExceeded c = false → isCounter (s.fld (F.fcObj.val c)) = false →
      Does (.fcEnableWrite c true) s fun u =>
        u.bit (F.fcCtl.enable c) = true ∧ (u.ctx c).fcNext = s.firstFrame c ∧ RegsBut s u [R.fcCtl c] ∧ SameBytes s u)
    ∧ (let obj := s.fld (F.fcObj.val c)
      s.bit (F.fcCtl.enable c) = false → s.budgetExceeded c = false → isCounterKey obj → QuietCounter s obj → Does (.fcEnableWrite c true) s fun u =>
        u.bit (F.fcCtl.enable c) = true ∧ u.reg obj = BitVec.ofNat 64 (s.firstFrame c) ∧ RegsBut s u [R.fcCtl c, obj] ∧ SameBytes s u)
    ∧ (s.bit (F.fcCtl.enable c) = false → s.budgetExceeded c = true → Does (.fcEnableWrite c true) s fun u =>
        u.bit (F.fcCtl.enable c) = false ∧ u.bit (F.fcCtl.refused c) = true
        ∧ (∀ k, (∀ v, v < 8 → LogRoom s 0x2003 0 0x04 v k) →
            ∃ v, v < 8 ∧ u.logSlot k = s.entryNow 0x2003 0 0x04 v (2 ^ 21 * c + 7 * 2 ^ 26) 0) ∧ SameBytes s u)
    ∧ (Does (.fcEnableWrite c false) s fun u => u.bit (F.fcCtl.enable c) = false ∧ OnlyRegs s u [R.fcCtl c])
    ∧ (let j := (s.ctx c).fcNext
      let due := (s.reg (R.fcStart c)).toNat + (j + 1) * (s.reg (R.fcPeriod c)).toNat
      let count := if isCounter (s.fld (F.fcObj.val c)) = true then (s.reg (s.fld (F.fcObj.val c))).toNat else 0
      s.bit (F.fcCtl.enable c) = true → due ≤ s.now →
      (j + 1 ≤ count → Does (.frameContractJudgement c) s fun u => (u.ctx c).fcNext = j + 1 ∧ RegsBut s u [] ∧ SameBytes s u)
      ∧ (count < j + 1 → Does (.frameContractJudgement c) s fun u =>
        (u.ctx c).fcNext = j + 1 ∧ u.fld (F.fcCtl.missed c) = min (s.fld (F.fcCtl.missed c) + 1) (2 ^ (F.fcCtl.missed c).width - 1)
        ∧ (u.reg R.promiseVoids).toNat = min ((s.reg R.promiseVoids).toNat + 1) (2 ^ 64 - 1) ∧ SameBytes s u))
    ∧ (∀ v : Word, v ≠ 0 → 10000000 + s.now ≤ v.toNat → s.larkCounts = true → Does (.snapTimeWrite c v) s fun u =>
      u.reg (R.snapTime c) = v ∧ u.bit (F.snapStatus.armed c) = true ∧ u.bit (F.snapStatus.ready c) = false
      ∧ u.bit (F.snapStatus.failed c) = false ∧ u.bit (F.snapStatus.overlap c) = false ∧ snaps u)
    ∧ (∀ v : Word, v ≠ 0 → v.toNat < 10000000 + s.now ∨ s.larkCounts = false → Does (.snapTimeWrite c v) s fun u =>
      u.bit (F.snapStatus.armed c) = false ∧ u.bit (F.snapStatus.refused c) = true ∧ snaps u)
    ∧ (Does (.snapTimeWrite c 0) s fun u => u.bit (F.snapStatus.armed c) = false ∧ snaps u)
    ∧ (s.bit (F.snapStatus.armed c) = true → (s.reg (R.snapTime c)).toNat ≤ s.now → Does (.snapTimeReached c) s fun u =>
      (u.ctx c).frozen = true ∧ u.bit (F.snapStatus.armed c) = false
      ∧ u.bit (F.snapStatus.failed c) = (s.bit (F.snapStatus.failed c) || !s.larkLocked)
      ∧ u.bit (F.snapStatus.overlap c) = (s.bit (F.snapStatus.overlap c) || s.sweeping c) ∧ RegsBut s u [R.snapStatus c] ∧ SameBytes s u)
    ∧ ((s.ctx c).frozen = true → s.bit (F.snapStatus.ready c) = false → s.ctxDrained c = true →
      above (s.ring c).eqTail (s.ring c).eqHead < 8192 → Does (.snapDrainComplete c) s fun u =>
        u.bit (F.snapStatus.ready c) = true ∧ (u.ring c).eqTail = next32 (s.ring c).eqTail
        ∧ BytesBut s u (eqAt c (s.ring c).eqTail) 64)
    ∧ ((s.ctx c).frozen = true → (s.reg (R.snapResume c)).toNat ≤ s.now → Does (.snapResumeReached c) s fun u =>
      (u.ctx c).frozen = false ∧ u.bit (F.snapStatus.failed c) = (s.bit (F.snapStatus.failed c) || !s.bit (F.snapStatus.ready c))
      ∧ RegsBut s u [R.snapStatus c] ∧ SameBytes s u)


/-! ### Resets, bring-up and function resets (chapter 15) -/

/-- Each source of Table 15.1 (R390, R391, R396, R408, R442, R449): the auxiliary rail always begins a cold reset; during option loading every other
source begins that again, a function reset and the main rail among them; after it the rails, `RESET_N`, level 3 and the cold DOP reset begin a cold
reset, and in `RUN` PERST#, a warm request of a register, of the ring and of DOP begin a warm one; while a rail is out nothing else acts. A warm reset
that ends resets the registers and the memory it clears (Table 15.2) and leaves every other register but the fence's, the rest of memory, the
ports, Lark, the flash and what the Ronbin block holds. Pins that rise change only what they name.
Where the rules leave something open it rests on the model's choice: log entries 44 and 45. -/
def Obligations.ResetSourcesComplete : Prop :=
  ∀ (s : State),
    Does (.railOutOfRange true) s (ColdBegins s 1)
    ∧ (¬ s.loading → Does .powerOn s (ColdBegins s 1) ∧ Does (.railOutOfRange false) s (ColdBegins s 1))
    ∧ (s.loading → Does .powerOn s (LoadsAgain s) ∧ Does (.railOutOfRange false) s fun u => LoadsAgain s u ∧ u.bring.released = false)
    ∧ (s.railsOk = false → Does .resetNLow s (fun u => u = { s with bring := { s.bring with resetN := false } }) ∧ Does .warmReq s fun u => u = s)
    ∧ (s.loading → s.railsOk = true →
      Does .resetNLow s (fun u => LoadsAgain s u ∧ u.bring.resetN = false) ∧ Does .perstLow s (LoadsAgain s) ∧ Does .warmReq s (LoadsAgain s)
      ∧ (s.bit F.fwEscCtl.l3En = true → Does .level3Expiry s (LoadsAgain s))
      ∧ (s.hostUp = true → Does .bootReload s (LoadsAgain s))
      ∧ (s.ronbin.resetKind = 1 ∨ s.ronbin.resetKind = 2 → Does .resetCommandStart s fun u => LoadsAgain s u ∧ u.ronbin.resetKind = 0)
      ∧ (∀ func unit : BitVec 8, resetAllowed func.toNat unit.toNat = true → Does (.frstCtlGo func unit) s (LoadsAgain s))
      ∧ ∀ v : BitVec 16, s.ronbin.recovery = false → resetAllowed (v.toNat % 256) (v.toNat / 256) = true → Does (.funcResetReq v) s (LoadsAgain s))
    ∧ (¬ s.loading → s.railsOk = true →
      Does .resetNLow s (fun u => ColdBegins s 2 u ∧ u.bring.resetN = false)
      ∧ (s.bit F.fwEscCtl.l3En = true → s.fld F.pwrStatus.state ≠ 1 → Does .level3Expiry s (ColdBegins s 4))
      ∧ (s.ronbin.resetKind = 2 → Does .resetCommandStart s (ColdBegins s 3)))
    ∧ (s.bring.step = 4 → s.railsOk = true → s.fld F.pwrStatus.state = 3 →
      Does .warmReq s (WarmBegins s 6) ∧ (s.hostUp = true → Does .bootReload s (WarmBegins s 6))
      ∧ (s.ronbin.resetKind = 1 → Does .resetCommandStart s (WarmBegins s 7))
      ∧ Does .perstLow s (fun u => WarmBegins s 5 u ∧ u.bring.perst = false ∧ u.maxRead = 512 ∧ u.d3hot = false)
      ∧ ∀ c, TakesCmd s 8 0x10 c → Does .moduleWarmReset s (WarmBegins s 6))
    ∧ (s.bring.warm = true → Does .warmReset s fun u =>
      u.bring.warm = false ∧ (∀ n, n < 6 → u.fld (F.coreStatus.state n) = 1)
      ∧ u.fld F.fenceStatus.level = (if s.fld F.fenceStatus.level = 1 then 0 else s.fld F.fenceStatus.level)
      ∧ (∀ b, u.byte b = if warmMem b = true then 0 else s.byte b) ∧ u.threads = []
      ∧ (∀ k, k ≠ R.fenceStatus → k ∉ (upto 6).map (fun n => R.coreStatus n) → u.reg k = if warmReg k = true then regReset k else s.reg k)
      ∧ u.ports = s.ports ∧ u.lark = s.lark ∧ u.flash = s.flash ∧ u.ronbin = s.ronbin ∧ u.hist = s.hist ∧ u.coordKnown = s.coordKnown
      ∧ ∀ c, c < 8 → (u.ctx c).held = (s.ctx c).held ∧ (u.ctx c).staged = (s.ctx c).staged ∧ (u.ctx c).committed = (s.ctx c).committed)
    ∧ (Does .resetNRise s fun u => u = { s with bring := { s.bring with resetN := true } })
    ∧ (Does .perstRise s fun u => u = { s with bring := { s.bring with perst := true } })
    ∧ (Does .internalResetPulseEnd s fun u => u = { s with bring := { s.bring with pulse := false } })

/-- The steps of a cold reset (R392 to R399, R401, R404, R407, R449): each does its work once the one before it is complete.
Where the rules leave something open it rests on the model's choice: log entries 3, 45, 47 and 48. -/
def Obligations.BringUpCompletes : Prop :=
  ∀ (s : State),
    (∀ a b files, s.bring.auxOk = true → s.bring.step < 2 → Does (.ronbinBoot a b files) s fun u => u.bring.step = 2)
    ∧ (∀ a b cool files, s.bring.step = 2 → s.bring.mainOk = true → s.bring.pllFailed = false → s.fld F.pwrStatus.state = 2 →
      cool = true ∨ s.bring.held = false → Does (.coldReset a b cool files) s fun u =>
        u = { s with bring := { s.bring with step := 3, held := false } })
    ∧ (s.bring.step = 2 → Does .pllLockTimeout s fun u => u = { s with bring := { s.bring with pllFailed := true } })
    ∧ (s.bring.step = 3 → s.bring.resetN = true → s.bring.pulse = false → Does .internalRelease s fun u =>
      u = { s with bring := { s.bring with released := true } })
    ∧ (∀ (pins : BitVec 8) files, s.bring.released = true → s.bring.latched = false → s.bring.step = 3 → pins.getLsbD 4 = false →
      Does (.strapLatch pins files) s fun u =>
        u.fld F.strapLatch.val = pins.toNat ∧ u.fld F.phaseStatus.phase = 1 ∧ u.bring.latched = true
        ∧ u.coordKnown = (s.coordKnown && !pins.getLsbD 3) ∧ RegsBut s u [R.strapLatch, R.pinLevel, R.phaseStatus] ∧ SameBytes s u)
    ∧ (s.bring.latched = true → s.bring.step = 3 → s.ronbin.recovery = false → Does .optionLoadingComplete s fun u =>
      u.bring.step = 4 ∧ (u.reg R.funcReady).getLsbD 10 = true ∧ u.fld F.pwrStatus.state = 3
      ∧ (∀ n, n < 6 → u.fld (F.coreStatus.state n) = 1)
      ∧ RegsBut s u ([R.funcReady, R.intCause, R.msixPba, R.pwrStatus] ++ (upto 6).map fun n => R.coreStatus n) ∧ SameBytes s u)
    ∧ (∀ good : BitVec 8, s.bring.step = 4 → s.ronbin.recovery = false → s.bring.linkDone = false → Does (.linkDomainBringup good) s fun u =>
      (∀ p, p < 8 → s.bit (F.portCtl.enable p) = true → isTraining (s.portState p) = true →
        (good.getLsbD p = true → s.stileClosed (portAxis p) = true → s.darkWaves (portUnit p) = [] → u.portState p = psLoop)
        ∧ (good.getLsbD p = false → u.portState p = psDown))
      ∧ (∀ p, p < 8 → s.bit (F.portCtl.enable p) = false ∨ isTraining (s.portState p) = false → u.portState p = s.portState p)
      ∧ u.bring.linkDone = (u.reg R.funcReady).getLsbD 4)
    ∧ (∀ (st : Fin 8) ok, s.bring.step = 4 → st.val ∉ s.bring.trained → Tab.get (fun _ => 0) s.bring.fails st < 3 → Does (.hbmTraining st ok) s fun u =>
      (ok = true → u.bring.trained = s.bring.trained ++ [st.val])
      ∧ (ok = false → u.bring.trained = s.bring.trained ∧ Tab.get (fun _ => 0) u.bring.fails st = Tab.get (fun _ => 0) s.bring.fails st + 1)
      ∧ RegsBut s u [] ∧ SameBytes s u)
    ∧ (∀ st : Fin 8, st.val ∈ s.bring.trained → s.bring.warm = false → s.findReset 3 st = none → s.unitUp F.unitReady.thermos st = false →
      Does (.hbmScrubComplete st) s fun u =>
        u.unitUp F.unitReady.thermos st = true ∧ (∀ b i, placeOf b = .thermos st i → u.byte b = 0)
        ∧ RegsBut s u [R.unitReady, R.funcReady, R.intCause, R.msixPba])
    ∧ (s.bring.step = 4 → s.bring.warm = false → s.fld F.bootState.state = 0 → s.fld F.unitReady.thermos = 255 → Does .bootRomChecks s fun u =>
      u.fld F.bootState.state = (if s.ronbin.recovery = true then 8 else 1) ∧ OnlyRegs s u [R.bootState])
    ∧ (∀ scale : BitVec 4, s.bring.tilesDone = false → s.fld F.bootState.state = 5 → (∀ e, e < 4 → (s.root e).backlog = []) →
      Does (.tilesBringup [] scale) s fun u =>
      u.fld F.unitReady.tiles = 15 ∧ u.fld F.unitReady.meadow = 15 ∧ u.fld F.unitReady.root = 15 ∧ u.fld F.unitReady.contexts = 255
      ∧ (∀ f ∈ [1, 2, 8, 9, 12], (u.reg R.funcReady).getLsbD f = true) ∧ u.bring.tilesDone = true
      ∧ (s.coreRuns 3 = true → ∀ e, e < 4 → (s.root e).enableDue = true → u.bit (F.rootCtl.enable e) = true)
      ∧ RegsBut s u ([R.unitReady, R.funcReady, R.intCause, R.msixPba] ++ (upto 4).map fun e => R.rootCtl e) ∧ SameBytes s u)
    ∧ (∀ (dies : BitVec 4) (failed : List Nat) (scale : BitVec 4), dies ≠ 0 → (∀ e ∈ s.tiles, e.2.claimed = false) → s.ronbin.recovery = false →
      Does (.arraySelftestRun dies failed scale) s fun u =>
        (∀ t, t < 256 → (t ∈ u.tileFail ↔ if dies.getLsbD (t / 64) = true then t ∈ failed else t ∈ s.tileFail))
        ∧ (∀ d, d < 4 → u.scaleFail.testBit d = if dies.getLsbD d = true then scale.getLsbD d else s.scaleFail.testBit d)
        ∧ RegsBut s u [] ∧ SameBytes s u)
    ∧ (s.fld F.phaseStatus.phase = 1 →
      (s.notReady = 0 → Does .phaseBEnd s fun u =>
        u.fld F.phaseStatus.phase = 2 ∧ u.fld F.phaseStatus.code = s.bringCode ∧ u.bit F.phaseStatus.limit = s.bit F.phaseStatus.limit)
      ∧ (s.notReady ≠ 0 → Does .phaseBTimeLimit s fun u =>
        u.fld F.phaseStatus.phase = 2 ∧ u.fld F.phaseStatus.code = s.bringCode ∧ u.bit F.phaseStatus.limit = true))
    ∧ (s.fld F.phaseStatus.phase = 2 → Does .aliveToggle s fun u =>
      u = { s with bring := { s.bring with alive := !s.bring.alive }, out := s.out ++ [.alive (!s.bring.alive)] })
    ∧ (∀ v : BitVec 32, v.toNat < 2 ^ 17 → s.ronbin.recovery = false → s.bring.latched = false ∨ s.discovers = false → (upto 8).any s.portLive = false →
      Does (.moduleCoordinateSet v) s fun u =>
        u.obj O.moduleCoordinate = v.toNat ∧ u.coord = v.toNat ∧ u.coordKnown = true ∧ RegsBut s u [] ∧ SameBytes s u)
    ∧ (s.fld F.pwrStatus.state ∉ [0, 1] → s.bring.auxOk = true →
      let downs (cause sensor : Nat) (byTime : Bool) (u : State) : Prop :=
        u.fld F.pwrStatus.state = 1 ∧ u.bring.step ≤ 2 ∧ u.bring.released = false ∧ u.ports = [] ∧ u.fld F.shutdownCause.cause = cause
        ∧ u.fld F.shutdownCause.sensor = sensor ∧ u.bit F.shutdownCause.emergDur = byTime
        ∧ (u.reg R.funcReady).getLsbD 10 = (s.reg R.funcReady).getLsbD 10 ∧ ∀ c, c < 8 → (u.ctx c).running = false
      (s.bit F.pwrStatus.emergency = true → Does .emergencyShutdownExpiry s (downs (s.fld F.emergCause.val) 31 true))
      ∧ ∀ k : Fin 18, k.val < 16 → Does (.shutdownThreshold k) s (downs (s.fld F.emergCause.val ||| 2 ^ sensorCause k) k false))

/-- Function resets (R409 to R413, Tables 15.10 and 15.15): asked for by a register, an object or a ring they are listed and drain their
block, and a pair the table does not allow is refused; an idle block, and one whose drain runs out of time, is reset; the reset ends once the block
is ready again: a die with its Meadow, and its tiles unless one fails its self-test; a stack; a port that is up, in loopback or off, or all; a root engine,
which F3 enables; the sweep engine; Lark at once; and a core once it has initialised, which then takes up its work (R355, R357). The bits of functions
0x01, 0x02, 0x08, 0x09 and 0x0C set only while runtime firmware runs (R407).
Where the rules leave something open it rests on the model's choice: log entries 51, 98 and 103. -/
def Obligations.FunctionResetsComplete : Prop :=
  ∀ (s : State),
    (∀ (r : Fin 8) c, TakesCmd s r 0x03 c → MayReset s 0x0C r → Does (.ctxReset r) s (Drains s 0x0C r [(r.val, c)]))
    ∧ (∀ c, TakesCmd s 8 0x11 c → MayReset s (c.arg 16 1) (c.arg 17 1) → Does .funcReset s (Drains s (c.arg 16 1) (c.arg 17 1) [(8, c)]))
    ∧ (∀ func unit : BitVec 8,
      (MayReset s func.toNat unit.toNat → Does (.frstCtlGo func unit) s (Drains s func.toNat unit.toNat []))
      ∧ (resetAllowed func.toNat unit.toNat = false → Does (.frstCtlGo func unit) s fun u =>
        u.fld F.frstStatus.lastResult = 2 ∧ OnlyRegs s u [R.frstCtl, R.frstStatus]))
    ∧ (∀ v : BitVec 16,
      (s.ronbin.recovery = false → MayReset s (v.toNat % 256) (v.toNat / 256) → Does (.funcResetReq v) s (Drains s (v.toNat % 256) (v.toNat / 256) []))
      ∧ (resetAllowed (v.toNat % 256) (v.toNat / 256) = false → Does (.funcResetReq v) s fun u => u = s))
    ∧ (∀ (unit : BitVec 8) x, unit.toNat < 8 → s.findReset 0x0C unit.toNat = some x → x.drain = true → x.cmds = [] →
      let reset (result : Nat) (u : State) : Prop :=
        u.ctx unit.toNat = {} ∧ u.findReset 0x0C unit.toNat = none ∧ u.unitUp F.unitReady.contexts unit.toNat = s.runtimeUp
        ∧ u.fld F.frstStatus.lastResult = result ∧ u.fld F.frstStatus.lastFunc = 0x0C ∧ u.fld F.frstStatus.lastUnit = unit.toNat
      (s.resetIdle x = true → Does (.drainIdleReached 0x0C unit) s (reset (if x.forced then 1 else 0)))
      ∧ Does (.drainTimeoutExpiry 0x0C unit) s fun u => reset 1 u ∧ Counts s u F.rstCounts.forced)
    ∧ (∀ (unit : BitVec 8) x failed scale, unit.toNat < 4 → s.findReset 0x08 unit.toNat = some x →
      (x.drain = true → s.resetIdle x = true → Does (.drainIdleReached 0x08 unit) s fun u =>
        u.unitUp F.unitReady.root unit.toNat = false ∧ (u.reg R.funcReady).getLsbD 8 = false
        ∧ u.findReset 0x08 unit.toNat = some { x with drain := false })
      ∧ (x.drain = false → x.cmds = [] → s.noneQueued → (s.root unit.toNat).backlog = [] → s.runtimeUp = true →
        Does (.functionResetReady 0x08 unit failed scale) s fun u =>
        u.unitUp F.unitReady.root unit.toNat = true ∧ u.findReset 0x08 unit.toNat = none
        ∧ u.fld F.frstStatus.lastResult = (if x.forced then 1 else 0)
        ∧ (s.coreRuns 3 = true → (s.root unit.toNat).enableDue = true → u.bit (F.rootCtl.enable unit.toNat) = true)
        ∧ RegsBut s u [R.unitReady, R.funcReady, R.intCause, R.msixPba, R.frstStatus, R.rootCtl unit.toNat] ∧ SameBytes s u))
    ∧ (∀ (unit : BitVec 8) (f : BitVec 8) x failed scale, f.toNat = 1 ∨ f.toNat = 2 → unit.toNat < 4 → s.findReset f.toNat unit.toNat = some x →
      x.unit = unit.toNat → resetFunc x.func = 1 →
      let d := unit.toNat
      (x.drain = true → s.resetIdle x = true → Does (.drainIdleReached f unit) s fun u =>
        u.unitUp F.unitReady.tiles d = false ∧ u.unitUp F.unitReady.meadow d = false ∧ u.findReset f.toNat d = some { x with drain := false }
        ∧ (∀ b, b < 0x80000000 → u.byte b = if b / 2 ^ 29 = d then 0 else s.byte b) ∧ (∀ e ∈ u.threads, keyTile e.1 / 64 ≠ d))
      ∧ (x.drain = false → x.cmds = [] → Does (.functionResetReady f unit failed scale) s fun u =>
        let bad := (upto 64).any fun k => failed.contains (64 * d + k)
        ResetOver s x u ∧ u.unitUp F.unitReady.meadow d = (s.unitUp F.unitReady.meadow d || s.runtimeUp)
        ∧ u.unitUp F.unitReady.tiles d = (s.unitUp F.unitReady.tiles d || (s.runtimeUp && !bad))
        ∧ RegsBut s u [R.unitReady, R.funcReady, R.intCause, R.msixPba, R.frstStatus] ∧ SameBytes s u))
    ∧ (∀ (unit : BitVec 8) x failed scale, s.findReset 0x03 unit.toNat = some x → x.func = 3 → x.unit = unit.toNat → unit.toNat < 8 →
      x.drain = false → x.cmds = [] → Does (.functionResetReady 0x03 unit failed scale) s fun u =>
        ResetOver s x u ∧ unit.toNat ∈ u.bring.trained ∧ u.unitUp F.unitReady.thermos unit.toNat = true
        ∧ RegsBut s u [R.unitReady, R.funcReady, R.intCause, R.msixPba, R.frstStatus] ∧ SameBytes s u)
    ∧ (∀ (unit : BitVec 8) x failed scale, s.findReset 0x04 unit.toNat = some x → x.func = 4 → x.unit = unit.toNat → x.drain = false → x.cmds = [] →
      let up (p : Nat) : Prop := s.portLive p = true ∨ s.portState p = psLoop ∨ s.bit (F.portCtl.enable p) = false
      let ready := if unit.toNat = 0xFF then ∀ p, p < 8 → up p else up unit.toNat
      (ready → Does (.functionResetReady 0x04 unit failed scale) s fun u => ResetOver s x u ∧ RegsBut s u [R.frstStatus] ∧ SameBytes s u)
      ∧ (¬ ready → Does (.functionResetReady 0x04 unit failed scale) s fun u => u = s))
    ∧ (s.inReset = false → s.inOptions = false → s.anyRunning = false → s.findReset 0x05 0xFF = none → Does (.frstCtlGo 0x05 0xFF) s fun u =>
      u.lark = { relock := true } ∧ u.fld F.larkStatus.state = 1 ∧ u.reg R.larkTime = s.reg R.larkTime ∧ u.findReset 0x05 0xFF = none
      ∧ u.fld F.frstStatus.lastResult = 0 ∧ u.fld F.frstStatus.lastFunc = 5 ∧ Counts s u F.rstCounts.function ∧ SameBytes s u)
    ∧ (∀ x failed scale, s.findReset 0x09 0xFF = some x → x.func = 9 → x.unit = 0xFF →
      (x.drain = true → Does (.drainIdleReached 0x09 0xFF) s fun u =>
        (u.reg R.funcReady).getLsbD 9 = false ∧ u.sweepReset = true ∧ SameBytes s u)
      ∧ (x.drain = false → x.cmds = [] → Does (.functionResetReady 0x09 0xFF failed scale) s fun u =>
        ResetOver s x u ∧ (u.reg R.funcReady).getLsbD 9 = ((s.reg R.funcReady).getLsbD 9 || s.runtimeUp)
        ∧ RegsBut s u [R.funcReady, R.intCause, R.msixPba, R.frstStatus] ∧ SameBytes s u))
    ∧ (∀ n : Fin 6, (s.fwCore n).loaded = true → (∀ c, c < 8 → (s.ctx c).starting = none) → s.noBacklog → s.publishes = [] →
      let begins (u : State) : Prop :=
        u.coreState n = 2 ∧ u.unitUp F.unitReady.fwCores n = true
        ∧ (s.fld F.bootState.state = 4 → u.fld F.unitReady.fwCores = 63 →
          u.fld F.bootState.state = 5 ∧ u.reg R.bootLoadTime = BitVec.ofNat 64 (s.now - s.boot.loadAt))
        ∧ (s.fld F.bootState.state ≠ 4 → u.fld F.bootState.state = s.fld F.bootState.state)
      let resumes (post : State → Prop) : Prop := s.coreState n = 3 → Does (.coreInitComplete n) s fun u => begins u ∧ post u
      (∀ x, s.findReset 0x07 n = some x → x.func = 7 → x.unit = n.val → x.cmds = [] → s.coreState n = 1 →
        Does (.coreInitComplete n) s fun u => begins u ∧ ResetOver s x u ∧ SameBytes s u)
      ∧ (s.findReset 0x07 n = none → s.coreState n = 1 → Does (.coreInitComplete n) s fun u => begins u ∧ SameBytes s u)
      ∧ (∀ (r : Fin 9) d, s.findReset 0x07 n = none → n = 0 → (∀ i, i < 9 → (s.ring i).run = [] ∧ (s.ring i).cmdHead = (s.ring i).cmdTail) →
        (s.ring r).done = [d] → s.memNat (markAt r d.cmd.count) 8 = d.cmd.seq → (∀ i, i < 9 → i ≠ r.val → (s.ring i).done = []) →
        resumes fun u => (u.ring r).done = [{ d with status := 0, detail := 0, count := 0 }] ∧ SameBytes s u)
      ∧ (s.findReset 0x07 n = none → n = 1 → resumes fun u =>
        u.bit F.xportCtl.admitEn = true ∧ (∀ c, c < 8 → (u.ctx c).admitDue = (s.ctx c).running) ∧ SameBytes s u)
      ∧ (s.findReset 0x07 n = none → n = 2 → resumes fun u =>
        (∀ c, c < 8 → (s.ctx c).owed = false → (s.ctx c).running = true → s.bit (F.sweepCtl.enable c) = true →
          ((s.ctx c).phase = .compute → (u.ctx c).voteBits = (s.ctx c).voteBits ||| 4 ∧ (u.ctx c).phase = .compute)
          ∧ ((s.ctx c).phase = .sweep → (u.ctx c).phase = .commitWait)) ∧ SameBytes s u)
      ∧ (s.findReset 0x07 n = none → n = 3 → resumes fun u =>
        (∀ c, c < 8 → (u.ctx c).f3Out = (s.ctx c).running ∧ (u.ctx c).refreshDue = false)
        ∧ (∀ e, e < 4 → s.unitUp F.unitReady.root e = true → (s.root e).enableDue = true → u.bit (F.rootCtl.enable e) = true) ∧ SameBytes s u)
      ∧ (s.findReset 0x07 n = none → n = 4 → resumes fun u => SameBytes s u)
      ∧ (s.findReset 0x07 n = none → n = 5 → resumes fun u => u.boot.trace = true ∧ SameBytes s u))


/-! ### The firmware complex (chapter 13) -/

/-- Loading a runtime image and what stops a core (R343 to R354): `LOAD` reads the image; an image the checks pass starts the cores, any
other is rejected with the first reason; a watchdog, a trap, a request and a release from hold restart a core, the third counted restart
within 10 s and a damaged image copy bring it to level 2, which stops the contexts of Table 13.13; a reload with the right digest is loaded.
Where the rules leave something open it rests on the model's choice: log entries 52 and 53. -/
def Obligations.FirmwareCoresComplete : Prop :=
  ∀ (s : State),
    let len := s.fld F.bootImageLen.val
    (s.hostUp = true → s.d3hot = false → s.fld F.bootState.state = 1 ∨ s.fld F.bootState.state = 6 → Does .bootLoad s fun u =>
      let size := max 1 (min s.maxRead (s.obj O.maxReadReq))
      let a := 4096 * s.fld F.bootImageAddr.val
      u.fld F.bootState.state = 2 ∧ u.fld F.bootState.reject = 0 ∧ u.boot.loadAt = s.now
      ∧ u.out = s.out ++ ((upto ((len + size - 1) / size)).map fun k => Out.hostRead (a + k * size) (min size (len - k * size)))
      ∧ RegsBut s u [R.bootState] ∧ SameBytes s u)
    ∧ (s.fld F.bootState.state = 2 → s.ronbin.restart = none →
      (Does (.bootImageReadComplete none) s fun u =>
        u.fld F.bootState.state = 6 ∧ u.fld F.bootState.reject = (if 1024 ≤ len ∧ len ≤ 8388608 then 3 else 1)
        ∧ u.bit ⟨R.errSummary, 4, 1⟩ = true ∧ SameBytes s u)
      ∧ ∀ image : List Byte,
        let b := padTo len image
        let why := s.imageReject b ((upto (natAt b 6 2)).map (segOf b))
        (why ≠ 0 → Does (.bootImageReadComplete (some image)) s fun u =>
          u.fld F.bootState.state = 6 ∧ u.fld F.bootState.reject = why ∧ BytesBut s u imageBase b.length
          ∧ ∀ n, n < 6 → u.coreState n = s.coreState n)
        ∧ (why = 0 → Does (.bootImageReadComplete (some image)) s fun u =>
          u.fld F.bootState.state = 4 ∧ u.fld F.moduleVersions.hostIf = natAt b 12 4 ∧ u.fld F.moduleVersions.runtimeFw = natAt b 8 4
          ∧ ∀ n, n < 6 → (u.fwCore n).loaded = true ∧ u.coreState n = if s.coreState n = 5 then 5 else 1))
    ∧ ∀ n : Fin 6,
      (s.bit (F.wdtCfg.en n) = true → s.coreAlive n = true → s.coreState n ≠ 3 →
        ((s.windowOf n).length < 2 → Does (.watchdogExpiry n) s (Restarts s n 1))
        ∧ (2 ≤ (s.windowOf n).length → Does (.watchdogExpiry n) s (LevelTwo s n 1)))
      ∧ (s.coreAlive n = true →
        ((s.windowOf n).length < 2 → Does (.fatalTrap n) s (Restarts s n 2))
        ∧ (2 ≤ (s.windowOf n).length → Does (.fatalTrap n) s (LevelTwo s n 2))
        ∧ Does (.coreRestartRequest n) s (Restarts s n 3))
      ∧ (s.coreState n ≠ 4 → s.coreState n ≠ 5 → Does (.coreHold n true) s fun u =>
        u.coreState n = 5 ∧ u.bit (F.coreCtl.hold n) = true ∧ u.unitUp F.unitReady.fwCores n = false
        ∧ RegsBut s u [R.coreCtl n, R.coreStatus n, R.unitReady, R.funcReady, R.intCause, R.msixPba, R.xportCtl] ∧ SameBytes s u)
      ∧ (s.coreState n = 5 →
        (s.boot.segs = [] → Does (.coreHold n false) s fun u =>
          u.coreState n = 1 ∧ u.bit (F.coreCtl.hold n) = false ∧ OnlyRegs s u [R.coreCtl n, R.coreStatus n])
        ∧ (s.boot.segs ≠ [] → Does (.coreHold n false) s (Restarts s n 3)))
      ∧ (s.coreState n = 3 → s.ronbin.restart = none → (s.fwCore n).loaded = false →
        (sha384 (s.segBytes n) = (s.fwCore n).digest → Does (.coreRestart n) s fun u => (u.fwCore n).loaded = true ∧ RegsBut s u [])
        ∧ (sha384 (s.segBytes n) ≠ (s.fwCore n).digest → Does (.coreRestart n) s (LevelTwo s n 4)))
      ∧ (s.coreRuns n = true → Does (.wdtKick n) s fun u =>
        (u.fwCore n).limit = s.fld (F.wdtCfg.timeoutMs n) ∧ RegsBut s u [] ∧ SameBytes s u)
      ∧ Does .fwL3Kick s fun u => u = s

/-- The console (R358, R359) answers in phase C with `RX_EN` while F5 runs, in lines that go out at once or wait in the console buffer while
output is off. A corrected word is counted and logged; a word that fails is counted and keeps failing; the patrol goes on one sector (R428 to
R432).
Where the rules leave something open it rests on the model's choice: log entries 54 and 120. -/
def Obligations.ConsoleAndWordsComplete : Prop :=
  ∀ (s : State),
    (s.consoleOn = true →
      Does .consoleVer s (Tells s (spaced [hexText 8 Config.bootRomVersion.toNat, hexText 8 (s.fld F.moduleVersions.runtimeFw),
        hexText 8 (s.fld F.moduleVersions.hostIf)]))
      ∧ Does .consoleCores s (Tells s (spaced ((upto 6).flatMap fun n =>
          [decText 20 (s.coreState n), decText 20 (s.fld (F.coreStatus.lastCause n)), decText 20 (s.reg (R.coreRestartCount n)).toNat])))
      ∧ Does .consoleReady s (Tells s (spaced [hexText 8 (s.reg R.funcReady).toNat, hexText 16 (s.reg R.unitReady).toNat]))
      ∧ (∀ n, (n = 0 ∨ 64 < n → Does (.consoleLog n) s (Tells s conUnknown))
        ∧ (0 < n → n ≤ 64 → s.bit F.conCtl.txEn = true → s.boot.lines = [] → Does (.consoleLog n) s fun u =>
          ∃ l, Newest s n l ∧ u = { s with out := s.out ++ l.map fun e => .console (s.conText (spaced [e.bytes.flatMap fun b => hexText 2 b.toNat])) }))
      ∧ Does .consoleTraceOn s (fun u => u = { s with boot := { s.boot with trace := true } })
      ∧ Does .consoleTraceOff s (fun u => u = { s with boot := { s.boot with trace := false } })
      ∧ Does .consoleUnknownLine s (Tells s conUnknown))
    ∧ (∀ off k t, placeOf off = .meadow t → LogRoom s 0x3001 1 0x02 (t / 64) k → Does (.eccCorrection off) s fun u =>
      CountsReg s u (R.meadowEccCorr t)
      ∧ u.logSlot k = s.entryNow 0x3001 1 0x02 (t / 64) (off % 2 ^ 23 + 2 ^ 23 * t) 0
      ∧ RegsBut s u [R.meadowEccCorr t, R.logNextSeq] ∧ SameBytes s u)
    ∧ (∀ off k st i, placeOf off = .thermos st i → LogRoom s 0x3003 1 0x03 st k → Does (.eccCorrection off) s fun u =>
      CountsReg s u (R.thermosCe st) ∧ u.logSlot k = s.entryNow 0x3003 1 0x03 st i 0
      ∧ RegsBut s u [R.thermosCe st, R.logNextSeq] ∧ SameBytes s u)
    ∧ (∀ off, fwSram ≤ off → off < 0x400000 + fwSram → Does (.eccCorrection off) s fun u =>
      Counts s u F.fwSramEcc.corr ∧ OnlyRegs s u [R.fwSramEcc])
    ∧ (∀ off k t, placeOf off = .meadow t → LogRoom s 0x3002 2 0x02 (t / 64) k → Does (.eccUncorrectable off) s fun u =>
      CountsReg s u (R.meadowEccUncorr t) ∧ 8 * (off / 8) ∈ u.badWords
      ∧ u.logSlot k = s.entryNow 0x3002 2 0x02 (t / 64) (8 * (off / 8) % 2 ^ 23 + 2 ^ 23 * t) 0
      ∧ RegsBut s u [R.meadowEccUncorr t, R.meadowLastUe t, R.logNextSeq] ∧ SameBytes s u)
    ∧ (∀ off st i, placeOf off = .thermos st i → Does (.eccUncorrectable off) s fun u =>
      CountsReg s u (R.thermosUe st) ∧ eccBase (memKey off) ∈ u.badWords)
    ∧ (∀ off (n : Fin 6), 0x80000 * n.val + fwSram ≤ off → off < 0x80000 * (n.val + 1) + fwSram → s.coreAlive n = true → (s.windowOf n).length < 2 →
      Does (.eccUncorrectable off) s fun u => Restarts s n 2 u ∧ Counts s u F.fwSramEcc.uncorr ∧ 8 * (off / 8) ∈ u.badWords)
    ∧ (∀ (st : Fin 8) corrected,
      let pos := s.fld (F.thermosPatrolPos.val st)
      s.bit (F.thermosCtl.patrolEn st) = true → s.unitUp F.unitReady.thermos st = true → s.badIn (thermosKey st pos) 32 = none →
      Does (.patrolRead st corrected) s fun u =>
        u.fld (F.thermosPatrolPos.val st) = (32 * (pos / 32) + 32) % 2 ^ 36
        ∧ (corrected = false → OnlyRegs s u [R.thermosPatrolPos st]) ∧ (corrected = true → CountsReg s u (R.thermosCe st)) ∧ SameBytes s u)


/-! ### Power, and the error log (chapters 16 and 17) -/

/-- The throttle, the pins of phase C, the emergency, quiet time and telemetry (R402, R403, R405, R446 to R448, R451, R457). A measurement is
a free value; `ENERGY` only rises. Without the auxiliary rail none of it acts (R442).
Where the rules leave something open it rests on the model's choice: log entries 41, 42 and 92. -/
def Obligations.PowerAndPinsComplete : Prop :=
  ∀ (s : State),
    (s.bring.auxOk = false → ∀ (b : Fin 12) sensor left,
      ∀ c ∈ [Instr.throttleCauseRise b, .throttleCauseEscalate b, .throttleStepDown b, .throttleCauseRelease b, .emergencyBegin b sensor,
        .emergencyClear left, .quietSecondTick], Does c s fun u => u = s)
    ∧ ((s.reg R.energy).toNat ≤ (s.measure R.energy).1.toNat ∧ (s.measure R.energy).2.reg R.energy = (s.measure R.energy).1)
    ∧ (s.bring.auxOk = true →
    (∀ b : Fin 12,
      let l := s.causeLevel b
      let only (v : Nat) (u : State) : Prop := Throttles s b v u ∧ RegsBut s u throttleRegs
      (causeSteps b = true → Does (.throttleCauseRise b) s (only (min (l + 1) 3)))
      ∧ (b.val = 3 → Does (.throttleCauseRise b) s (only 3))
      ∧ (causeReleases b = true → Does (.throttleCauseRise b) s (only (max l 2)))
      ∧ (causeSteps b = true → l ≠ 0 → Does (.throttleCauseEscalate b) s (only (min (l + 1) 3)))
      ∧ (s.bit F.pwrStatus.emergency = false →
        (causeStepsDown b = true → Does (.throttleStepDown b) s (only (l - 1)))
        ∧ (causeReleases b = true → Does (.throttleCauseRelease b) s (only 0)))
      ∧ (s.bit F.pwrStatus.emergency = true → Does (.throttleStepDown b) s (fun u => u = s) ∧ Does (.throttleCauseRelease b) s fun u => u = s))
    ∧ (∀ v : BitVec 2, Does (.throttleForceWrite v) s fun u =>
      Throttles s 1 v.toNat u ∧ u.fld F.throttleCtl.forceLevel = v.toNat ∧ RegsBut s u (R.throttleCtl :: throttleRegs))
    ∧ (let inC := s.fld F.phaseStatus.phase == 2
      let pin (n : Nat) (v : Bool) (u : State) : Prop := u.bit ⟨R.pinLevel, n, 1⟩ = v ∧ RegsBut s u (R.pinLevel :: throttleRegs) ∧ SameBytes s u
      (Does .throttleNLow s fun u => u.causeLevel 0 = (if inC && s.bit F.pinCtl.throttleInEn then 3 else 0) ∧ pin 2 false u)
      ∧ (Does .throttleNHigh s fun u => u.causeLevel 0 = 0 ∧ pin 2 true u)
      ∧ (Does .stopNLow s fun u => u.stopFrozen = (inC && s.bit F.pinCtl.stopInEn) ∧ pin 6 false u)
      ∧ Does .stopNHigh s fun u => u.stopFrozen = false ∧ pin 6 true u)
    ∧ (Does .faultNRelease s fun u => u = { s with faultLow := false })
    ∧ (∀ (b : Fin 12) sensor, 3 ≤ b.val → (s.fld F.emergCause.val).testBit b = false → Does (.emergencyBegin b sensor) s fun u =>
      u.fld F.emergCause.val = s.fld F.emergCause.val ||| 2 ^ b.val ∧ u.bit F.pwrStatus.emergency = true
      ∧ (∀ k, 2 ≤ k → k ≤ 10 → u.causeLevel k = 3) ∧ (∀ k, k < 2 ∨ 10 < k → u.causeLevel k = s.causeLevel k)
      ∧ u.fld F.pwrStatus.level = u.topCause % 4 ∧ u.fld F.quietS.val = 0 ∧ RegsBut s u (R.emergCause :: throttleRegs) ∧ SameBytes s u)
    ∧ (∀ left : BitVec 12, Does (.emergencyClear left) s fun u =>
      u.fld F.emergCause.val = s.fld F.emergCause.val &&& left.toNat
      ∧ u.bit F.pwrStatus.emergency = (if s.fld F.emergCause.val &&& left.toNat = 0 then false else s.bit F.pwrStatus.emergency)
      ∧ OnlyRegs s u [R.emergCause, R.pwrStatus])
    ∧ (s.disturbed = false → Does .quietSecondTick s fun u => Counts s u F.quietS.val ∧ OnlyRegs s u [R.quietS])
    ∧ (s.disturbed = true → Does .quietSecondTick s fun u => u = s)
    ∧ (Does .peakPRead s fun u => ∃ v, v < 2 ^ 32 ∧ u.out = s.out ++ [.readData (leBytes 8 v)] ∧ RegsBut s u [] ∧ SameBytes s u))

/-- The handling of the error log, and the fence (R421 to R426, R434 to R436).
Where the rules leave something open it rests on the model's choice: log entries 38, 39 and 40. -/
def Obligations.LogAndFenceComplete : Prop :=
  ∀ (s : State),
    (s.coreRuns 4 = true →
      (∀ k e, s.handlingSlot = none → s.nextSlot = some (k, e) →
        (e.flags.testBit 0 = true → Does .logTake s fun u => u.logSlot k = { e with state := 2, flags := e.flags ||| 1 } ∧ RegsBut s u [] ∧ SameBytes s u)
        ∧ (let x := s.ring (eventRing e.code e.func e.unit e.flags)
          let a := eqAt (eventRing e.code e.func e.unit e.flags) x.eqTail
          e.flags.testBit 0 = false → above x.eqTail x.eqHead < 8192 → Does .logTake s fun u =>
            u.logSlot k = { e with state := 2, flags := e.flags ||| 1 } ∧ u.bytes a 64 = e.entry
            ∧ (u.ring (eventRing e.code e.func e.unit e.flags)).eqTail = next32 x.eqTail ∧ BytesBut s u a 64))
      ∧ (∀ k, s.handlingSlot = some k →
        (let h := s.fld F.logHistHead.val
        Does .logRetire s fun u => u.logSlot k = {} ∧ Tab.get (fun _ => {}) u.hist h = s.logSlot k ∧ u.fld F.logHistHead.val = (h + 1) % 64
          ∧ RegsBut s u [R.logHistHead] ∧ SameBytes s u)
        ∧ (s.preempt = true → Does .logRequeue s fun u => u.logSlot k = { s.logSlot k with state := 1 } ∧ RegsBut s u [] ∧ SameBytes s u)))
    ∧ (∀ a b : Word,
      let code := bitsAt a 0 16
      let sev := bitsAt a 16 3
      let func := bitsAt a 24 8
      let unit := bitsAt a 32 32
      let named := raisedContexts code func unit
      let raised (u : State) : Prop := ∀ k, LogRoom s code sev func unit k → u.logSlot k = s.entryNow code sev func unit (bitsAt b 0 48) 0
      (sev < 3 → Does (.logRaise a b) s fun u => raised u ∧ u.ctxs = s.ctxs ∧ SameBytes s u)
      ∧ (sev = 3 → Does (.logRaise a b) s fun u => raised u ∧ SameBytes s u
        ∧ ∀ c ∈ named,
          let went := (s.ctx c).phase = .voteWait ∨ (s.ctx c).phase = .sweep
          (went → (u.ctx c).commitBits = (s.ctx c).commitBits ||| 1) ∧ (¬ went → (u.ctx c).voteBits = (s.ctx c).voteBits ||| 4))
      ∧ (sev = 4 → Does (.logRaise a b) s fun u => raised u ∧ ∀ c ∈ named, (u.ctx c).running = false ∧ (u.ctx c).halted = true)
      ∧ (sev = 5 → Does (.logRaise a b) s fun u => u.faultLow = true ∧ u.fld F.fenceStatus.level ≠ 0 ∧ NoneRuns u)
      ∧ (5 < sev → Does (.logRaise a b) s fun u => OnlyRegs s u [R.logRaiseA]))
    ∧ (s.fld F.fenceStatus.level = 0 → Does .fenceSet s fun u => u.fld F.fenceStatus.level = 1 ∧ NoneRuns u)
    ∧ (s.fld F.fenceStatus.level ≠ 0 → Does .fenceSet s fun u => u = s)
    ∧ (let shut (u : State) : Prop := u.fld F.fenceStatus.level = 2 ∧ ∀ a, a < 4 → u.stileClosed a = true ∨ u.stileMoving a = true
      (upto 4).any s.closeRefused = false → Does .fenceBypass s shut ∧ (s.ronbin.recovery = false → s.fld F.fenceStatus.level ≤ 2 → Does (.fenceLevelWrite 2) s shut))
    ∧ ((upto 4).any s.closeRefused = true → Does .fenceBypass s fun u => u.bit F.fenceStatus.refused = true ∧ OnlyRegs s u [R.fenceStatus])
    ∧ (let fatal := s.log.any fun e => e.2.state != 0 && e.2.sev == 5
      let l := s.fld F.fenceStatus.level
      (fatal = false → l ≠ 0 → Does .fenceClear s fun u =>
        u.fld F.fenceStatus.level = l - 1 ∧ RegsBut s u [R.fenceStatus, R.logNextSeq, R.logStatus, R.logDropped] ∧ SameBytes s u)
      ∧ (fatal = false → l = 0 → Does .fenceClear s fun u => u = s)
      ∧ (fatal = true → Does .fenceClear s fun u => u.bit F.fenceStatus.refused = true ∧ OnlyRegs s u [R.fenceStatus])
      ∧ (∀ v : Fin 3, s.ronbin.recovery = false → fatal = false → v.val < l → Does (.fenceLevelWrite v) s fun u => u.fld F.fenceStatus.level = v.val)
      ∧ (s.ronbin.recovery = false → l = 0 → Does (.fenceLevelWrite 1) s fun u => u.fld F.fenceStatus.level = 1 ∧ NoneRuns u))
    ∧ (s.ronbin.recovery = false → Does .logOverflowClear s fun u => u.bit F.logStatus.overflow = false ∧ OnlyRegs s u [R.logStatus])


/-! ### Management (chapters 14 and 18) -/

/-- The operations of the management protocol (R365 to R370, R374 to R378, R387): each answers with the result codes the rules give, a
write for a function that is not ready with what its chapter's check says of it, and a transfer opens, goes on, and ends.
Where the rules leave something open it rests on the model's choice: log entries 55, 64 and 65. -/
def Obligations.DopOperationsComplete : Prop :=
  ∀ (q : Request) (s : State),
    let t := (s.atService q).2
    let sn := (s.atService q).1
    let b := pduBody q.pdu
    let k := keyAt b 0
    let x := (t.session sn).transfer
    (Waits s q 1 → b.length = 4 →
      (∀ code, t.objLookup k = .inl code → k % 256 ≠ 0 → Does .read s (Answered q (leBytes 1 code ++ leBytes 1 0 ++ itemOf k 0 [])))
      ∧ ∀ d, t.objLookup k = .inr d →
        let tells (code : Nat) (l : List Byte) : State → Prop := Answered q (leBytes 1 code ++ leBytes 1 0 ++ itemOf k (typeCode d.type) l)
        (d.access = .wo → Does .read s (tells 5 []))
        ∧ (d.access = .ro → t.funcUp (objFunc (k / 256)) = false → Does .read s (tells 0xA []))
        ∧ (d.access ≠ .wo → (d.access = .ro → t.funcUp (objFunc (k / 256)) = true) → 1024 < objLen d → Does .read s (tells 0xB []))
        ∧ (d.access ≠ .wo → (d.access = .ro → t.funcUp (objFunc (k / 256)) = true) → objLen d ≤ 1024 →
          Does .read s (tells 0 (t.objRead sn k d).1)))
    ∧ (Waits s q 1 → b.length ≠ 4 → Does .read s (Answered q (bare 0xE)))
    ∧ (∀ env key type v, Waits s q 2 → itemsOf 1 b = some [(key, type, v)] → v.length ≤ 1024 →
      (∀ code, t.writeCheck sn key type v.length = .inl code → Does (.write env) s (Answered q (bare code)))
      ∧ ∀ d, t.writeCheck sn key type v.length = .inr d →
        let n := leNat v
        let i := (objIdx d key).1
        let same := d.access = .rw ∧ t.objWaits key d = false ∧ t.objForce sn key d = n
        let fits := rangeHolds d n = true ∧ t.rangeMore d i n = true
        let later := d.access = .rw ∧ t.funcUp (objFunc (key / 256)) = false
        let code := ((t.applyDeferred (objFunc (key / 256))).objTake sn key d n env).2
        (same → Does (.write env) s (Answered q (bare 0)))
        ∧ (¬ same → ¬ fits → Does (.write env) s (Answered q (bare 7)))
        ∧ (¬ same → fits → later → code % 32 = 0 → Does (.write env) s fun u => Answered q (bare 0x20) u ∧ (key, n) ∈ u.ronbin.deferred)
        ∧ (¬ same → fits → later → code % 32 ≠ 0 → Does (.write env) s (Answered q (bare code)))
        ∧ (¬ same → fits → ¬ later →
          (t.objBusy d i n = true → Does (.write env) s (Answered q (bare 1)))
          ∧ (t.objBusy d i n = false → d.cls = .b → (t.ctx i).running = true → Does (.write env) s fun u =>
            Answered q (bare 0x40) u ∧ (key, n) ∈ (u.ctx i).held)
          ∧ (t.objBusy d i n = false → d.cls = .s → Does (.write env) s (Answered q (bare 0x80)))
          ∧ (t.objBusy d i n = false → d.cls ≠ .s → ¬ (d.cls = .b ∧ (t.ctx i).running = true) →
            Does (.write env) s (Answered q (bare ((t.objUnhold key d).objApply sn key d n env).2)))))
    ∧ (Waits s q 3 → 0 < natAt b 0 1 → natAt b 0 1 ≤ 64 → b.length = 4 + 4 * natAt b 0 1 →
      let r := t.readEntries sn 4 ((upto (natAt b 0 1)).map fun i => keyAt b (4 + 4 * i))
      r.1.1.length = natAt b 0 1
      ∧ Does .readList s (Answered q (leBytes 1 (firstFailure r.1.1) ++ leBytes 1 (natAt b 0 1) ++ leBytes 2 0 ++ r.1.2)))
    ∧ (∀ env l, Waits s q 4 → 0 < natAt b 0 1 → itemsOf (natAt b 0 1) (b.drop 4) = some l →
      let r := t.writeItems env sn l
      r.1.length = natAt b 0 1
      ∧ Does (.writeList env) s (Answered q (leBytes 1 (firstFailure r.1) ++ leBytes 1 (natAt b 0 1) ++ leBytes 2 0 ++ r.1.flatMap (leBytes 1))))
    ∧ (Waits s q 5 → b.length = 4 →
      let r := t.objGet sn k true
      (r.1.1 = 0 → r.1.2.1 = typeCode .blob → t.transfersFull sn = false → Does .blobRead s fun u =>
        Answered q (bare 0 ++ leBytes 4 r.1.2.2.length ++ leBytes 4 (crc32c r.1.2.2).toNat) u
        ∧ (u.session sn).transfer = some
          { xid := pduTid q.pdu, key := k, write := false, total := r.1.2.2.length, crc := (crc32c r.1.2.2).toNat, data := r.1.2.2 })
      ∧ (r.1.1 = 0 → r.1.2.1 = typeCode .blob → t.transfersFull sn = true → Does .blobRead s (Answered q (bare 0xD ++ leBytes 8 0)))
      ∧ (r.1.1 ≠ 0 → Does .blobRead s (Answered q (bare r.1.1 ++ leBytes 8 0))))
    ∧ (Waits s q 6 → b.length = 12 →
      (∀ d, t.writeCheck sn k (typeCode .blob) (natAt b 4 4) = .inr d → t.transfersFull sn = false → Does .blobWrite s fun u =>
        Answered q (bare 0) u
        ∧ (u.session sn).transfer = some { xid := pduTid q.pdu, key := k, write := true, total := natAt b 4 4, crc := natAt b 8 4 })
      ∧ (∀ code, t.writeCheck sn k (typeCode .blob) (natAt b 4 4) = .inl code → Does .blobWrite s (Answered q (bare code))))
    ∧ (∀ y, Waits s q 7 → 8 ≤ b.length → b.length = 8 + natAt b 4 2 → x = some y →
      (y.xid ≠ natAt b 0 2 → Does .segment s (Answered q (segBody 0xC 0)))
      ∧ (let l := (y.data.drop (1024 * natAt b 2 2)).take 1024
        y.xid = natAt b 0 2 → y.write = false → l ≠ [] → Does .segment s fun u =>
          ∃ w, Answered q (segBody 0 w ++ leBytes 2 l.length ++ leBytes 2 0 ++ l) u)
      ∧ (let l := y.data ++ b.drop 8
        y.xid = natAt b 0 2 → y.write = true → 1024 * natAt b 2 2 = y.data.length → (b.drop 8).length = min 1024 (y.total - y.data.length) →
        (l.length < y.total → Does .segment s fun u =>
          Answered q (segBody 0 ((l.length + 1023) / 1024)) u ∧ (u.session sn).transfer = some { y with data := l })
        ∧ (l.length = y.total → (crc32c l).toNat = y.crc → Does .segment s fun u =>
          Answered q (segBody ((t.closeTransfer sn).objWrite sn y.key (typeCode .blob) l {}).2 ((l.length + 1023) / 1024)) u)
        ∧ (l.length = y.total → (crc32c l).toNat ≠ y.crc → Does .segment s fun u =>
          Answered q (segBody 0xC ((l.length + 1023) / 1024)) u ∧ (u.session sn).transfer = none)))
    ∧ (Waits s q 8 → b.length = 2 →
      ((∃ y, x = some y ∧ y.xid = natAt b 0 2) → Does .abort s fun u => Answered q (bare 0) u ∧ (u.session sn).transfer = none)
      ∧ ((∀ y, x = some y → y.xid ≠ natAt b 0 2) → Does .abort s (Answered q (bare 0xC))))
    ∧ (Waits s q 9 → b.length = 4 →
      (natAt b 0 1 = 1 ∨ natAt b 0 1 = 2 → Does .reset s fun u => Answered q (bare 0) u ∧ u.ronbin.resetKind = natAt b 0 1)
      ∧ (natAt b 0 1 ≠ 1 → natAt b 0 1 ≠ 2 → Does .reset s (Answered q (bare 7))))

/-- Requests arrive by frame and by mailbox, sessions and transfers expire, notifications leave, and single objects take values (R188, R368,
R369, R372 to R374, R376, R378, R382, R385).
In recovery mode (R478) the objects a command writes outside 0x7000 to 0x73FF and 0x7700 to 0x773F stay as they are.
Where the rules leave something open it rests on the model's choice: log entries 57, 61, 63 and 66. -/
def Obligations.ManagementEventsComplete : Prop :=
  ∀ (s : State),
    (∀ (dst src : BitVec 48) (frame : DopFrame), s.ronbinUp = true → dst = Config.mgmtMac ∨ dst = dopGroup →
      let pdu := frame.pdu
      let q : Request := { slot := none, mac := src.toNat, pdu := pdu }
      (frame.tagged = true ∨ pdu.length < 8 → Does (.dopFrameReceived dst src frame) s fun u =>
        u.obj O.dopRxErrors = min (s.obj O.dopRxErrors + 1) (2 ^ 64 - 1) ∧ RegsBut s u [] ∧ SameBytes s u ∧ u.out = s.out)
      ∧ (frame.tagged = false → 8 ≤ pdu.length → pduDst pdu = s.nodeId ∨ pduDst pdu = 0xFF → s.ronbin.requests = [] → q.headerGood = true →
        (s.kept q = none → ¬ (pduDst pdu = 0xFF ∧ 5 ≤ pduOp pdu ∧ pduOp pdu ≤ 7) → Does (.dopFrameReceived dst src frame) s fun u =>
          u = { s with ronbin := { s.ronbin with requests := [q] } })
        ∧ (∀ n p, s.kept q = some (n, p) → ¬ (pduDst pdu = 0xFF ∧ 5 ≤ pduOp pdu ∧ pduOp pdu ≤ 7) →
          Does (.dopFrameReceived dst src frame) s fun u =>
          u.ronbin.requests = [] ∧ u.out = s.out ++ [.dop src.toNat Config.mgmtMac.toNat (padded p)]
          ∧ u.obj O.dopDuplicates = min (s.obj O.dopDuplicates + 1) (2 ^ 64 - 1) ∧ RegsBut s u [] ∧ SameBytes s u)))
    ∧ (∀ k : Fin 2,
      let n := s.fld (F.mbxReqLen.val k)
      let q : Request := { slot := some k, pdu := s.bytes (mbxReq k) n }
      (s.fld (F.mbxStatus.state k) = 1 → Does (.mbxGo k) s fun u => u.bit (F.mbxStatus.goIgnored k) = true ∧ OnlyRegs s u [R.mbxStatus k])
      ∧ (s.fld (F.mbxStatus.state k) ≠ 1 → n < 8 ∨ 1500 < n → Does (.mbxGo k) s fun u =>
        u.fld (F.mbxStatus.state k) = 3 ∧ OnlyRegs s u [R.mbxStatus k])
      ∧ (s.fld (F.mbxStatus.state k) ≠ 1 → 8 ≤ n → n ≤ 1500 → s.ronbin.requests = [] → q.headerGood = true → Does (.mbxGo k) s fun u =>
        u.fld (F.mbxStatus.state k) = 1 ∧ u.ronbin.requests = [q] ∧ RegsBut s u [R.mbxStatus k] ∧ SameBytes s u)
      ∧ Does (.abortXfer k) s fun u => (u.session k).transfer = none ∧ (∀ j, j ≠ k.val → u.session j = s.session j) ∧ RegsBut s u [] ∧ SameBytes s u)
    ∧ (∀ n : Fin 10, Does (.transferIdleExpiry n) s fun u =>
      (u.session n).transfer = none ∧ (∀ j, j ≠ n.val → u.session j = s.session j) ∧ RegsBut s u [] ∧ SameBytes s u)
    ∧ (∀ n : Fin 8, Does (.sessionIdleExpiry n) s fun u =>
      u.session (n.val + 2) = {} ∧ (∀ j, j ≠ n.val + 2 → u.session j = s.session j) ∧ RegsBut s u [] ∧ SameBytes s u)
    ∧ (∀ e rest, s.notices = e :: rest → s.ronbinUp = true → s.obj O.evtSubMac ≠ 0 → Does .eventNotificationSend s fun u =>
      u.notices = rest ∧ (∃ w, u.out = s.out ++ [.dop (s.obj O.evtSubMac) Config.mgmtMac.toNat
        (padded (pduOf 0x0A s.ronbin.eventTid s.nodeId w (leBytes 4 e.seq ++ leBytes 4 0 ++ e.entry.entry)))]) ∧ RegsBut s u [] ∧ SameBytes s u)
    ∧ (∀ (n : Fin 10) (v : BitVec 8), n.val < 2 ∨ (s.session n).opened = true →
      (v.toNat = 0 ∨ (v.toNat = 1 ∧ s.strap 6 = true) → Does (.accessLevelWrite n v) s fun u =>
        (u.session n).level = v.toNat ∧ RegsBut s u [] ∧ SameBytes s u)
      ∧ (1 < v.toNat ∨ (v.toNat = 1 ∧ s.strap 6 = false) → Does (.accessLevelWrite n v) s fun u => u = s))
    ∧ (∀ v : BitVec 32, s.ronbin.recovery = false →
      (s.obj O.configEpoch ≠ v.toNat → Does (.configEpochWrite v) s fun u =>
        u.obj O.configEpoch = v.toNat ∧ u.obj O.configStale = 0 ∧ RegsBut s u [] ∧ SameBytes s u)
      ∧ (s.obj O.configEpoch = v.toNat → Does (.configEpochWrite v) s fun u => u = s))
    ∧ (∀ (f : Fin 16) k v d, s.ronbin.deferred = [(k, v)] → objFunc (k / 256) = f → objDefOf k = some d → Does (.deferredSettingsApply f) s fun u =>
      u = (({ s with ronbin := { s.ronbin with deferred := [] } }).objEnter 0 k d v {}).1)
    ∧ (∀ c : Fin 8, s.ronbin.recovery = true →
      Does (.rootForceCold c) s (fun u => u = s) ∧ (∀ v, Does (.configEpochWrite v) s fun u => u = s) ∧ ∀ v, Does (.rootPrecondEnWrite c v) s fun u => u = s)
    ∧ (∀ c : Fin 8, s.ronbin.recovery = false →
      let k := O.rootPrecondEn c
      ((s.ctx c).running = false → Does (.rootForceCold c) s fun u =>
        (u.ctx c).forceCold = true ∧ (u.ctx c).coldTaken = [] ∧ RegsBut s u [] ∧ SameBytes s u)
      ∧ ((s.ctx c).running = true → Does (.rootForceCold c) s fun u => (O.rootForceCold c, 1) ∈ (u.ctx c).held ∧ RegsBut s u [] ∧ SameBytes s u)
      ∧ ∀ v : Bool, (s.reg R.funcReady).getLsbD 8 = true → s.ronbin.deferred = [] → (s.ctx c).held = [] → s.obj k ≠ boolNat v →
        ((s.ctx c).running = false → Does (.rootPrecondEnWrite c v) s fun u => u.obj k = boolNat v ∧ RegsBut s u [])
        ∧ ((s.ctx c).running = true → Does (.rootPrecondEnWrite c v) s fun u => (k, boolNat v) ∈ (u.ctx c).held ∧ RegsBut s u [] ∧ SameBytes s u))

/-- The management image (R461, R466 to R479): a stage is begun, erased, delivered piece by piece and verified, or abandoned; programming only clears
bits; a card delivers one; a staged image is activated at once or later, tried, and confirmed or given up; a confirmation records a fuse burn that
is still to come; in recovery with no valid bank it is confirmed at once; a restart runs the bank it names, a confirmed one that fails leads through
the boot.
Where the rules leave something open it rests on the model's choice: log entries 20, 69, 134 (the bits of a piece in place, the burn at a later tick,
what the trial's seconds count) and 135 (the failed bank is rejected at a direct confirmation). -/
def Obligations.ImageRowsComplete : Prop :=
  ∀ (s : State),
    let k := s.stageBank
    let bk := s.bank k
    (∀ v : Word, v.toNat % 2 ^ 32 ≠ 0 → v.toNat / 2 ^ 32 ≤ 786432 →
      (s.stageBusy = false → Does (.imgStageBegin v) s fun u =>
        (u.bank k).state = .receiving ∧ (u.bank k).pieces = [] ∧ u.bank (1 - k) = s.bank (1 - k) ∧ u.flash.stageId = v.toNat % 2 ^ 32
        ∧ u.flash.stageLen = v.toNat / 2 ^ 32 ∧ u.ronbin.erasing = true ∧ u.ronbin.buffer = [] ∧ RegsBut s u [] ∧ SameBytes s u)
      ∧ (s.stageBusy = true → Does (.imgStageBegin v) s fun u => u = s))
    ∧ (Does .bankEraseComplete s fun u =>
      u.ronbin.erasing = false ∧ u.ronbin.buffer = s.ronbin.buffer ++ s.ronbin.scan.take (16 - s.ronbin.buffer.length)
      ∧ (s.ronbin.card ≠ 2 ∨ s.ronbin.buffer ++ s.ronbin.scan ≠ [] → u.flash = s.flash))
    ∧ (∀ (num : Word) (crc : BitVec 32) (data : List Byte),
      let n := num.toNat % 2 ^ 32
      let l := padTo 1024 data
      ((crc32c (leBytes 8 num.toNat ++ l)).toNat = crc.toNat → bk.state = .receiving → num.toNat / 2 ^ 32 = s.flash.stageId → n < s.pieceCount →
        Tab.get (fun _ => []) bk.pieces n = [] → s.ronbin.buffer.length < 16 → Does (.imgPieceData num crc data) s fun u =>
          u = { s with ronbin := { s.ronbin with buffer := s.ronbin.buffer ++ [(n, l)] } })
      ∧ ((crc32c (leBytes 8 num.toNat ++ l)).toNat ≠ crc.toNat → Does (.imgPieceData num crc data) s fun u =>
          u.ronbin = s.ronbin ∧ u.flash = s.flash ∧ SameBytes s u))
    ∧ (∀ n l rest, s.ronbin.buffer = (n, l) :: rest → l.length = 1024 → s.ronbin.erasing = false → s.ronbin.card ≠ 2 → s.ronbin.scan = [] →
      Does .pieceProgramComplete s fun u =>
        u.ronbin.buffer = rest ∧ (u.bank k).state = bk.state
        ∧ (u.bank k).cells n = (if Tab.get (fun _ => []) bk.pieces n = [] then l else bk.cells n)
        ∧ (u.bank k).durable n = true ∧ (∀ j, (u.bank k).torn.contains j = true → bk.torn.contains j = true)
        ∧ (∀ j, j ≠ n → Tab.get (fun _ => []) (u.bank k).pieces j = Tab.get (fun _ => []) bk.pieces j) ∧ RegsBut s u [] ∧ SameBytes s u)
    ∧ (s.ronbin.activation = true → Does .imgStageAbort s fun u => u = { s with ronbin := { s.ronbin with activation := false } })
    ∧ (s.ronbin.activation = false → bk.state = .receiving → Does .imgStageAbort s fun u =>
      (u.bank k).state = .empty ∧ (u.bank k).pieces = [] ∧ u.flash.stageId = 0 ∧ u.flash.stageLen = 0 ∧ u.ronbin.buffer = []
      ∧ RegsBut s u [] ∧ SameBytes s u)
    ∧ (bk.state = .receiving → Does .imgVerify s fun u =>
      let why := s.stageReason s.stageBytes
      (why ≠ 0 → (u.bank k).state = .rejected ∧ (u.bank k).reason = why)
      ∧ (why = 0 → (u.bank k).state = .staged ∧ (u.bank k).version = natAt s.stageBytes 12 4 ∧ (u.bank k).svn = natAt s.stageBytes 16 1
        ∧ (u.bank k).calFormat = natAt s.stageBytes 20 2
        ∧ (u.bank k).trialS = (if natAt s.stageBytes 24 2 = 0 then 600 else natAt s.stageBytes 24 2))
      ∧ RegsBut s u [] ∧ SameBytes s u)
    ∧ (bk.state ≠ .receiving → Does .imgVerify s fun u => u = s)
    ∧ (Does .calibrationEraseComplete s fun u => u = { s with ronbin := { s.ronbin with calErase := false } })
    ∧ (∀ files : List (List Byte), s.stageBusy = false → s.ronbin.card ≠ 0 →
      (∀ data crc, files.findSome? cardEntry = some (data, crc) → data.length ≤ 786432 → Does (.imgCardScan files) s fun u =>
        (u.bank k).state = .receiving ∧ u.flash.stageId = (if crc = 0 then 1 else crc) ∧ u.flash.stageLen = data.length
        ∧ u.ronbin.card = 2 ∧ u.ronbin.scan = piecesOf data ∧ u.ronbin.erasing = true)
      ∧ (files.findSome? cardEntry = none → Does (.imgCardScan files) s fun u =>
        u.ronbin.card = 4 ∧ (bk.state = .empty ∨ bk.state = .rejected → (u.bank k).state = .rejected ∧ (u.bank k).reason = 8)))
    ∧ (∀ files, s.stageBusy = true → Does (.imgCardScan files) s fun u => u = s)
    ∧ (Does .cardRemoved s fun u => u.ronbin.card = 0 ∧ (s.ronbin.card = 2 → bk.state = .receiving → (u.bank k).state = .empty))
    ∧ (Does .cardInserted s fun u => u.ronbin.card = (if s.ronbin.card = 0 then 1 else s.ronbin.card) ∧ u.flash = s.flash ∧ RegsBut s u [])
    ∧ (let tries (u : State) : Prop := (u.bank k).state = .trial ∧ u.ronbin.restart = some k ∧ u.ronbin.sessions = [] ∧ u.ronbin.activation = false
      let calm := s.bit F.pwrStatus.emergency = false ∧ 60 ≤ s.fld F.quietS.val
      let usual := s.noValidBank = false
      let now (u : State) : Prop := (u.bank k).state = .confirmed ∧ u.flash.confirmed = some k ∧ u.flash.fusePending = true ∧ u.ronbin.noBank = false
        ∧ ∀ j, s.flash.confirmed = some j → (u.bank j).state = .rejected
      (s.ronbin.activation = false → bk.state = .staged → s.ronbin.calErase = false → s.flash.mgmtSvn ≤ bk.svn →
        (calm → usual → Does .imgActivate s tries)
        ∧ (calm → ¬ usual → Does .imgActivate s now)
        ∧ (¬ calm → Does .imgActivate s fun u => u.ronbin = { s.ronbin with activation := true } ∧ u.flash = s.flash))
      ∧ (s.ronbin.activation = false → bk.state ≠ .staged → Does .imgActivate s fun u => u = s)
      ∧ (s.ronbin.activation = true → calm → (usual → Does .deferredActivation s tries) ∧ (¬ usual → Does .deferredActivation s now)))
    ∧ (∀ (a b : Bool) (x : Restart) j, s.ronbin.restart = some j →
      let sound := if j.val = 0 then a else b
      let other := if j.val = 0 then b else a
      (s.imagePasses j sound = true → ((s.bank j).state = .trial → x.converted = true) → Does (.ronbinRestart a b x) s fun u =>
        u.ronbin.restart = none ∧ u.ronbin.running = some j ∧ ((s.bank j).state = .trial → u.ronbin.trialPs = 0 ∧ u.ronbin.served = false))
      ∧ (s.trialBank = some j → s.imagePasses j sound = false ∨ x.converted = false → Does (.ronbinRestart a b x) s (TrialOver j s))
      ∧ (s.flash.confirmed = some j → s.trialBank = none → s.imagePasses j sound = false →
        ((s.bank (1 - j)).state = .staged → s.flash.fusePending = false → s.imagePasses (1 - j).val other = true → Does (.ronbinRestart a b x) s fun u =>
          u.flash.confirmed = some (1 - j) ∧ (u.bank j).state = .rejected ∧ (u.bank (1 - j)).state = .confirmed ∧ u.ronbin.running = some (1 - j))
        ∧ ((s.bank (1 - j)).state ≠ .staged → Does (.ronbinRestart a b x) s fun u =>
          u.ronbin.recovery = true ∧ u.ronbin.restart = none ∧ u.ronbin.running = none ∧ (s.bring.step = 4 → u.fld F.bootState.state = 8))))
    ∧ (∀ j, s.trialBank = some j → s.ronbin.restart = none →
      (s.ronbin.served = false → Does .trialServiceTimeout s (TrialOver j s))
      ∧ Does .trialWindowExpiry s (TrialOver j s) ∧ Does .imgFallback s (TrialOver j s)
      ∧ Does .imgConfirm s fun u =>
        (u.bank j).state = .confirmed ∧ u.flash.confirmed = some j ∧ u.flash.fusePending = true
        ∧ u.flash.mgmtSvn = s.flash.mgmtSvn ∧ u.flash.rtSvn = s.flash.rtSvn ∧ u.flash.revoked = s.flash.revoked
        ∧ (s.flash.confirmed = some (1 - j) → (u.bank (1 - j)).state = .staged) ∧ RegsBut s u [] ∧ SameBytes s u)


/-! ### The whole machine -/

/-- A step takes the command at the front of the queue and carries it out with the rest of the queue. -/
def Obligations.StepTakesFront : Prop :=
  ∀ (c : Instr) (rest : List Instr) (s : State), s.pending = c :: rest → step s = exec c { s with pending := rest }

/-- On an empty queue one SCLK passes (R301; that a step on an empty queue is one SCLK is the model's choice, log entry 5): Lark time
advances by 1,000 ps and the rate correction, whose fraction is carried; time above throttle level 0 adds up (R446). Of a publication that
stages, one part is read, and waits to be sent where it is for another module (R337; one part a step is the model's choice, log entry 35). A fuse
burn that a confirmation left pending is done while the Ronbin block runs, and a trial's time runs (R475; that the burn takes one tick is the model's
choice, log entry 134). -/
def Obligations.EmptyQueueTicks : Prop :=
  (∀ s : State, s.pending = [] → (∀ x ∈ s.publishes, x.opened = true → x.staged = true) → ∃ u, step s = .next u ∧
    let total : Int := 1000 * 2 ^ 40 + 1000 * ((s.reg R.larkRate).extractLsb' 0 32).toInt + (s.lark.fraction : Int)
    u.reg R.larkTime = BitVec.ofNat 64 (s.now + (total / 2 ^ 40).toNat) ∧ (u.lark.fraction : Int) = total % 2 ^ 40
    ∧ (s.fld F.pwrStatus.level = 0 → u.reg R.throttleTime = s.reg R.throttleTime)
    ∧ (s.fld F.pwrStatus.level ≠ 0 → (u.reg R.throttleTime).toNat = min ((s.reg R.throttleTime).toNat + 1000) (2 ^ 64 - 1))
    ∧ RegsBut s u [R.larkTime, R.throttleTime] ∧ SameBytes s u ∧ u.pending = []
    ∧ (s.ronbinUp = true → ∀ k, s.flash.confirmed = some k → s.flash.fusePending = true →
      u.flash.fusePending = false ∧ u.flash.mgmtSvn = max s.flash.mgmtSvn (min (s.bank k).svn 64)
      ∧ u.flash.rtSvn = max s.flash.rtSvn (min (s.bank k).rtMin 64)
      ∧ ∀ i, i < 4 → u.flash.revoked.testBit i = (s.flash.revoked.testBit i || ((s.bank k).revoke.testBit i && i != (s.bank k).key % 4)))
    ∧ (s.ronbinUp = true → s.trialRuns = true → u.ronbin.trialPs = s.ronbin.trialPs + 1000))
  ∧ ∀ (s : State) x k p b, s.pending = [] → s.publishes = [x] → x.opened = true → x.staged = false →
    s.throttleTick.nextPart x = some (k, p) → s.throttleTick.stagePart x k p = some b → p.coord ≠ s.coord →
    (∃ j ∈ x.left, j ≠ k) → ∃ u, step s = .next u ∧ u.pending = [] ∧ SameBytes s u
    ∧ u.publishes = [{ x with left := x.left.filter (· != k), bytes := x.bytes + b.length, todo := x.todo ++ [(p.coord, p.base + p.offset, b)] }]

/-- Right after reset (chapters 10 to 17): the values the register tables state, an empty log, closed Stiles, nothing ready, nothing running.
That `State.reset` is the start of a power-on cold reset is the model's choice (log entry 3). -/
def Obligations.ResetValuesHold : Prop :=
  let s := State.reset
  s.reg R.funcReady = 0 ∧ s.reg R.unitReady = 0 ∧ s.fld F.bootState.state = 0 ∧ s.fld F.rstCause.source = 1 ∧ s.reg R.rstCounts = 0
  ∧ s.fld F.drainTimeout.val = 2000 ∧ s.reg R.larkEpochPeriod = 1000000000000 ∧ s.reg R.larkSyncInterval = 100 ∧ s.reg R.larkHoldover = 20
  ∧ s.reg R.voidGrace = 1000 ∧ s.fld F.fenceStatus.level = 0 ∧ s.fld F.pwrStatus.level = 0 ∧ s.fld F.throttleCtl.powerLimit = 1800
  ∧ s.fld F.throttleCtl.dieThrottle = 95 ∧ s.fld F.throttleCtl.hbmThrottle = 85 ∧ s.fld F.throttleCtl.stepDown = 10 ∧ s.reg R.intMask = 0x1FFFFF
  ∧ (∀ a, a < 4 → s.stileClosed a = true ∧ s.stileMoving a = false)
  ∧ (∀ p, p < 8 → s.portState p = 1 ∧ s.fld (F.portVcBuf.val p 0) = 768 ∧ s.fld (F.portVcBuf.val p 1) = 512 ∧ s.fld (F.portVcBuf.val p 7) = 128)
  ∧ (∀ n, n < 6 → s.fld (F.wdtCfg.timeoutMs n) = 50 ∧ s.bit (F.wdtCfg.en n) = true)
  ∧ (∀ t n, t < 256 → n < 16 → s.fld (F.threadStatus.state t n) = 0)
  ∧ s.log = [] ∧ s.flash.confirmed = some 0 ∧ s.pending = []

/-- The register table and memory are in their canonical form right after reset. -/
def Obligations.ResetHoldsInv : Prop := State.reset.Inv

/-- Every step, whatever it carries out, keeps the register table and memory in their canonical form. -/
def Obligations.StepKeepsInv : Prop := ∀ s u : State, s.Inv → step s = .next u → u.Inv

/-- While a context runs, writes of its `SWEEP_STEP`, of its `SHARD_TABLE` and of any byte of its shard table entries are ignored, and
`WR_IGNORED` is set (R222). -/
def Obligations.RunningContextKeepsItsTable : Prop :=
  ∀ (s : State) (c : Fin 8), (s.ctx c).running = true →
    let noted (u : State) : Prop := u = s.setBit (F.sweepStatus.wrIgnored c) true
    (∀ v, Does (.sweepStepWrite c v) s noted ∧ Does (.registerWrite (R.sweepStep c) v) s noted ∧ Does (.registerWrite (R.shardTable c) v) s noted)
    ∧ ∀ off bs, 0x4000000000 ≤ off →
      (∀ a, s.tableHolds a c = true → (s.writeData off bs).1.byte (memKey a) = s.byte (memKey a))
      ∧ (∀ i, i < bs.length → s.rangeReady off bs.length = true → s.tableHolds (off + i) c = true →
        (s.writeData off bs).1.bit (F.sweepStatus.wrIgnored c) = true)

/-- Fuses change only from 0 to 1, whatever is commanded and however time passes. -/
def Obligations.FusesChangeOnlyToOne : Prop :=
  (∀ (c : Instr) (s u : State), exec c s = .next u → FusesGrow s u) ∧ ∀ s u : State, step s = .next u → FusesGrow s u

/-- Every command answers a next state, with the commands that wait as they were, but for `DRV_UP` of a driver whose host interface version
does not match the module's (R10): the spec leaves the module's behaviour there undefined, and the model stops (log entry 21). -/
def Obligations.OnlyAMismatchStops : Prop :=
  (∀ (c : Instr) (s : State), (∃ u, exec c s = .next u ∧ u.pending = s.pending)
    ∨ (exec c s = .fault .versionMismatch ∧ ∃ v : Word, (c = .hostReadyWrite v ∨ c = .registerWrite R.hostReady v) ∧ v.getLsbD 0 = true
      ∧ versionsMatch (bitsAt v 32 32) (s.fld F.moduleVersions.hostIf) = false))
  ∧ ∀ (s : State) (v : Word), s.hostUp = true → v.getLsbD 0 = true →
    versionsMatch (bitsAt v 32 32) (s.fld F.moduleVersions.hostIf) = false → exec (.hostReadyWrite v) s = .fault .versionMismatch

/-- The interleaved view of Thermos (R66): successive 4 KiB granules rotate through the eight stacks, and the byte at an interleaved offset is
the byte at the per-stack offset its route gives, in every state. -/
def Obligations.ThermosViewsAreOne : Prop :=
  ∀ a, 0x4000000000 ≤ a → a < 0xC000000000 →
    let rel := a - 0x4000000000
    let r := thermosRoute a
    r.1 = rel / 2 ^ 12 % 8 ∧ r.2 = 2 ^ 12 * (rel / 2 ^ 15) + rel % 2 ^ 12 ∧ r.1 < 8 ∧ r.2 < 2 ^ 36
    ∧ placeOf a = .thermos r.1 r.2 ∧ placeOf (0x10000000000 + 2 ^ 36 * r.1 + r.2) = .thermos r.1 r.2
    ∧ memKey (0x10000000000 + 2 ^ 36 * r.1 + r.2) = memKey a
    ∧ ∀ s : State, s.dataByte (0x10000000000 + 2 ^ 36 * r.1 + r.2) = s.dataByte a

/-- Writes of `FENCE_CTL` and the lowering of the fence (R436): a write of more than one command bit is refused, and nothing but `FENCE_REFUSED`
changes; `FENCE_CLEAR` alone is refused while a module-fatal slot is queued or in handling, else lowers the fence by one level, the Stiles as
they are; a warm reset lowers level 1 and leaves level 2, a cold reset, whatever its source, clears both; lowering does not release
`FAULT_N`. -/
def Obligations.FenceIsLoweredByTheRule : Prop :=
  ∀ (s : State) (v : Word),
    let refused (u : State) : Prop := u = s.setBit F.fenceStatus.refused true
    let clears (u : State) : Prop := u.fld F.fenceStatus.level = 0
    let bits := [v.getLsbD 0, v.getLsbD 1, v.getLsbD 2]
    (2 ≤ bits.count true → Does (.registerWrite R.fenceCtl v) s refused)
    ∧ (bits = [false, false, true] → s.fatalWaits = true → Does (.registerWrite R.fenceCtl v) s refused)
    ∧ (bits = [false, false, true] → s.fatalWaits = false → Does (.registerWrite R.fenceCtl v) s fun u =>
      u.fld F.fenceStatus.level = s.fld F.fenceStatus.level - 1 ∧ u.reg R.stileStatus = s.reg R.stileStatus ∧ u.faultLow = s.faultLow)
    ∧ (s.bring.warm = true → Does .warmReset s fun u =>
      u.fld F.fenceStatus.level = (if s.fld F.fenceStatus.level = 1 then 0 else s.fld F.fenceStatus.level) ∧ u.faultLow = s.faultLow)
    ∧ Does (.railOutOfRange true) s clears
    ∧ (¬ s.loading → Does .powerOn s clears ∧ Does (.railOutOfRange false) s clears)
    ∧ (¬ s.loading → s.railsOk = true → Does .resetNLow s clears
      ∧ (s.bit F.fwEscCtl.l3En = true → s.fld F.pwrStatus.state ≠ 1 → Does .level3Expiry s clears)
      ∧ (s.ronbin.resetKind = 2 → Does .resetCommandStart s clears))
end

