-- ==== Sys2Proof/Laws/State.lean ====
section
/-! SUPPORT. What each update of the state leaves: one equation per field and update, so that no proof unfolds a record update. -/

namespace Sys2Proof.Machine

variable (s : State)

/-! `setReg` -/
@[simp] theorem State.setReg_pending (k : Nat) (v : Word) : (s.setReg k v).pending = s.pending := rfl
@[simp] theorem State.setReg_freeCount (k : Nat) (v : Word) : (s.setReg k v).freeCount = s.freeCount := rfl
@[simp] theorem State.setReg_out (k : Nat) (v : Word) : (s.setReg k v).out = s.out := rfl
@[simp] theorem State.setReg_mem (k : Nat) (v : Word) : (s.setReg k v).mem = s.mem := rfl
@[simp] theorem State.setReg_badWords (k : Nat) (v : Word) : (s.setReg k v).badWords = s.badWords := rfl
@[simp] theorem State.setReg_threads (k : Nat) (v : Word) : (s.setReg k v).threads = s.threads := rfl
@[simp] theorem State.setReg_tiles (k : Nat) (v : Word) : (s.setReg k v).tiles = s.tiles := rfl
@[simp] theorem State.setReg_ctxs (k : Nat) (v : Word) : (s.setReg k v).ctxs = s.ctxs := rfl
@[simp] theorem State.setReg_hamper (k : Nat) (v : Word) : (s.setReg k v).hamper = s.hamper := rfl
@[simp] theorem State.setReg_roots (k : Nat) (v : Word) : (s.setReg k v).roots = s.roots := rfl
@[simp] theorem State.setReg_log (k : Nat) (v : Word) : (s.setReg k v).log = s.log := rfl
@[simp] theorem State.setReg_hist (k : Nat) (v : Word) : (s.setReg k v).hist = s.hist := rfl
@[simp] theorem State.setReg_notices (k : Nat) (v : Word) : (s.setReg k v).notices = s.notices := rfl
@[simp] theorem State.setReg_faultLow (k : Nat) (v : Word) : (s.setReg k v).faultLow = s.faultLow := rfl
@[simp] theorem State.setReg_stopFrozen (k : Nat) (v : Word) : (s.setReg k v).stopFrozen = s.stopFrozen := rfl
@[simp] theorem State.setReg_vecCount (k : Nat) (v : Word) : (s.setReg k v).vecCount = s.vecCount := rfl
@[simp] theorem State.setReg_ports (k : Nat) (v : Word) : (s.setReg k v).ports = s.ports := rfl
@[simp] theorem State.setReg_coordKnown (k : Nat) (v : Word) : (s.setReg k v).coordKnown = s.coordKnown := rfl
@[simp] theorem State.setReg_lasers (k : Nat) (v : Word) : (s.setReg k v).lasers = s.lasers := rfl
@[simp] theorem State.setReg_stileAcks (k : Nat) (v : Word) : (s.setReg k v).stileAcks = s.stileAcks := rfl
@[simp] theorem State.setReg_xfers (k : Nat) (v : Word) : (s.setReg k v).xfers = s.xfers := rfl
@[simp] theorem State.setReg_nextTid (k : Nat) (v : Word) : (s.setReg k v).nextTid = s.nextTid := rfl
@[simp] theorem State.setReg_streams (k : Nat) (v : Word) : (s.setReg k v).streams = s.streams := rfl
@[simp] theorem State.setReg_launches (k : Nat) (v : Word) : (s.setReg k v).launches = s.launches := rfl
@[simp] theorem State.setReg_reassemblies (k : Nat) (v : Word) : (s.setReg k v).reassemblies = s.reassemblies := rfl
@[simp] theorem State.setReg_rxWait (k : Nat) (v : Word) : (s.setReg k v).rxWait = s.rxWait := rfl
@[simp] theorem State.setReg_arrived (k : Nat) (v : Word) : (s.setReg k v).arrived = s.arrived := rfl
@[simp] theorem State.setReg_accepted (k : Nat) (v : Word) : (s.setReg k v).accepted = s.accepted := rfl
@[simp] theorem State.setReg_shardFailed (k : Nat) (v : Word) : (s.setReg k v).shardFailed = s.shardFailed := rfl
@[simp] theorem State.setReg_lark (k : Nat) (v : Word) : (s.setReg k v).lark = s.lark := rfl
@[simp] theorem State.setReg_rings (k : Nat) (v : Word) : (s.setReg k v).rings = s.rings := rfl
@[simp] theorem State.setReg_intakes (k : Nat) (v : Word) : (s.setReg k v).intakes = s.intakes := rfl
@[simp] theorem State.setReg_publishes (k : Nat) (v : Word) : (s.setReg k v).publishes = s.publishes := rfl
@[simp] theorem State.setReg_d3hot (k : Nat) (v : Word) : (s.setReg k v).d3hot = s.d3hot := rfl
@[simp] theorem State.setReg_cfg (k : Nat) (v : Word) : (s.setReg k v).cfg = s.cfg := rfl
@[simp] theorem State.setReg_maxRead (k : Nat) (v : Word) : (s.setReg k v).maxRead = s.maxRead := rfl
@[simp] theorem State.setReg_maxPayload (k : Nat) (v : Word) : (s.setReg k v).maxPayload = s.maxPayload := rfl
@[simp] theorem State.setReg_scaleFail (k : Nat) (v : Word) : (s.setReg k v).scaleFail = s.scaleFail := rfl
@[simp] theorem State.setReg_tileFail (k : Nat) (v : Word) : (s.setReg k v).tileFail = s.tileFail := rfl
@[simp] theorem State.setReg_objs (k : Nat) (v : Word) : (s.setReg k v).objs = s.objs := rfl
@[simp] theorem State.setReg_causes (k : Nat) (v : Word) : (s.setReg k v).causes = s.causes := rfl
@[simp] theorem State.setReg_fwCores (k : Nat) (v : Word) : (s.setReg k v).fwCores = s.fwCores := rfl
@[simp] theorem State.setReg_boot (k : Nat) (v : Word) : (s.setReg k v).boot = s.boot := rfl
@[simp] theorem State.setReg_bring (k : Nat) (v : Word) : (s.setReg k v).bring = s.bring := rfl
@[simp] theorem State.setReg_fresets (k : Nat) (v : Word) : (s.setReg k v).fresets = s.fresets := rfl
@[simp] theorem State.setReg_flash (k : Nat) (v : Word) : (s.setReg k v).flash = s.flash := rfl
@[simp] theorem State.setReg_ronbin (k : Nat) (v : Word) : (s.setReg k v).ronbin = s.ronbin := rfl

/-! `setFld` -/
@[simp] theorem State.setFld_pending (f : Fld) (v : Nat) : (s.setFld f v).pending = s.pending := rfl
@[simp] theorem State.setFld_freeCount (f : Fld) (v : Nat) : (s.setFld f v).freeCount = s.freeCount := rfl
@[simp] theorem State.setFld_out (f : Fld) (v : Nat) : (s.setFld f v).out = s.out := rfl
@[simp] theorem State.setFld_mem (f : Fld) (v : Nat) : (s.setFld f v).mem = s.mem := rfl
@[simp] theorem State.setFld_badWords (f : Fld) (v : Nat) : (s.setFld f v).badWords = s.badWords := rfl
@[simp] theorem State.setFld_threads (f : Fld) (v : Nat) : (s.setFld f v).threads = s.threads := rfl
@[simp] theorem State.setFld_tiles (f : Fld) (v : Nat) : (s.setFld f v).tiles = s.tiles := rfl
@[simp] theorem State.setFld_ctxs (f : Fld) (v : Nat) : (s.setFld f v).ctxs = s.ctxs := rfl
@[simp] theorem State.setFld_hamper (f : Fld) (v : Nat) : (s.setFld f v).hamper = s.hamper := rfl
@[simp] theorem State.setFld_roots (f : Fld) (v : Nat) : (s.setFld f v).roots = s.roots := rfl
@[simp] theorem State.setFld_log (f : Fld) (v : Nat) : (s.setFld f v).log = s.log := rfl
@[simp] theorem State.setFld_hist (f : Fld) (v : Nat) : (s.setFld f v).hist = s.hist := rfl
@[simp] theorem State.setFld_notices (f : Fld) (v : Nat) : (s.setFld f v).notices = s.notices := rfl
@[simp] theorem State.setFld_faultLow (f : Fld) (v : Nat) : (s.setFld f v).faultLow = s.faultLow := rfl
@[simp] theorem State.setFld_stopFrozen (f : Fld) (v : Nat) : (s.setFld f v).stopFrozen = s.stopFrozen := rfl
@[simp] theorem State.setFld_vecCount (f : Fld) (v : Nat) : (s.setFld f v).vecCount = s.vecCount := rfl
@[simp] theorem State.setFld_ports (f : Fld) (v : Nat) : (s.setFld f v).ports = s.ports := rfl
@[simp] theorem State.setFld_coordKnown (f : Fld) (v : Nat) : (s.setFld f v).coordKnown = s.coordKnown := rfl
@[simp] theorem State.setFld_lasers (f : Fld) (v : Nat) : (s.setFld f v).lasers = s.lasers := rfl
@[simp] theorem State.setFld_stileAcks (f : Fld) (v : Nat) : (s.setFld f v).stileAcks = s.stileAcks := rfl
@[simp] theorem State.setFld_xfers (f : Fld) (v : Nat) : (s.setFld f v).xfers = s.xfers := rfl
@[simp] theorem State.setFld_nextTid (f : Fld) (v : Nat) : (s.setFld f v).nextTid = s.nextTid := rfl
@[simp] theorem State.setFld_streams (f : Fld) (v : Nat) : (s.setFld f v).streams = s.streams := rfl
@[simp] theorem State.setFld_launches (f : Fld) (v : Nat) : (s.setFld f v).launches = s.launches := rfl
@[simp] theorem State.setFld_reassemblies (f : Fld) (v : Nat) : (s.setFld f v).reassemblies = s.reassemblies := rfl
@[simp] theorem State.setFld_rxWait (f : Fld) (v : Nat) : (s.setFld f v).rxWait = s.rxWait := rfl
@[simp] theorem State.setFld_arrived (f : Fld) (v : Nat) : (s.setFld f v).arrived = s.arrived := rfl
@[simp] theorem State.setFld_accepted (f : Fld) (v : Nat) : (s.setFld f v).accepted = s.accepted := rfl
@[simp] theorem State.setFld_shardFailed (f : Fld) (v : Nat) : (s.setFld f v).shardFailed = s.shardFailed := rfl
@[simp] theorem State.setFld_lark (f : Fld) (v : Nat) : (s.setFld f v).lark = s.lark := rfl
@[simp] theorem State.setFld_rings (f : Fld) (v : Nat) : (s.setFld f v).rings = s.rings := rfl
@[simp] theorem State.setFld_intakes (f : Fld) (v : Nat) : (s.setFld f v).intakes = s.intakes := rfl
@[simp] theorem State.setFld_publishes (f : Fld) (v : Nat) : (s.setFld f v).publishes = s.publishes := rfl
@[simp] theorem State.setFld_d3hot (f : Fld) (v : Nat) : (s.setFld f v).d3hot = s.d3hot := rfl
@[simp] theorem State.setFld_cfg (f : Fld) (v : Nat) : (s.setFld f v).cfg = s.cfg := rfl
@[simp] theorem State.setFld_maxRead (f : Fld) (v : Nat) : (s.setFld f v).maxRead = s.maxRead := rfl
@[simp] theorem State.setFld_maxPayload (f : Fld) (v : Nat) : (s.setFld f v).maxPayload = s.maxPayload := rfl
@[simp] theorem State.setFld_scaleFail (f : Fld) (v : Nat) : (s.setFld f v).scaleFail = s.scaleFail := rfl
@[simp] theorem State.setFld_tileFail (f : Fld) (v : Nat) : (s.setFld f v).tileFail = s.tileFail := rfl
@[simp] theorem State.setFld_objs (f : Fld) (v : Nat) : (s.setFld f v).objs = s.objs := rfl
@[simp] theorem State.setFld_causes (f : Fld) (v : Nat) : (s.setFld f v).causes = s.causes := rfl
@[simp] theorem State.setFld_fwCores (f : Fld) (v : Nat) : (s.setFld f v).fwCores = s.fwCores := rfl
@[simp] theorem State.setFld_boot (f : Fld) (v : Nat) : (s.setFld f v).boot = s.boot := rfl
@[simp] theorem State.setFld_bring (f : Fld) (v : Nat) : (s.setFld f v).bring = s.bring := rfl
@[simp] theorem State.setFld_fresets (f : Fld) (v : Nat) : (s.setFld f v).fresets = s.fresets := rfl
@[simp] theorem State.setFld_flash (f : Fld) (v : Nat) : (s.setFld f v).flash = s.flash := rfl
@[simp] theorem State.setFld_ronbin (f : Fld) (v : Nat) : (s.setFld f v).ronbin = s.ronbin := rfl

/-! `setBit` -/
@[simp] theorem State.setBit_pending (f : Fld) (v : Bool) : (s.setBit f v).pending = s.pending := rfl
@[simp] theorem State.setBit_freeCount (f : Fld) (v : Bool) : (s.setBit f v).freeCount = s.freeCount := rfl
@[simp] theorem State.setBit_out (f : Fld) (v : Bool) : (s.setBit f v).out = s.out := rfl
@[simp] theorem State.setBit_mem (f : Fld) (v : Bool) : (s.setBit f v).mem = s.mem := rfl
@[simp] theorem State.setBit_badWords (f : Fld) (v : Bool) : (s.setBit f v).badWords = s.badWords := rfl
@[simp] theorem State.setBit_threads (f : Fld) (v : Bool) : (s.setBit f v).threads = s.threads := rfl
@[simp] theorem State.setBit_tiles (f : Fld) (v : Bool) : (s.setBit f v).tiles = s.tiles := rfl
@[simp] theorem State.setBit_ctxs (f : Fld) (v : Bool) : (s.setBit f v).ctxs = s.ctxs := rfl
@[simp] theorem State.setBit_hamper (f : Fld) (v : Bool) : (s.setBit f v).hamper = s.hamper := rfl
@[simp] theorem State.setBit_roots (f : Fld) (v : Bool) : (s.setBit f v).roots = s.roots := rfl
@[simp] theorem State.setBit_log (f : Fld) (v : Bool) : (s.setBit f v).log = s.log := rfl
@[simp] theorem State.setBit_hist (f : Fld) (v : Bool) : (s.setBit f v).hist = s.hist := rfl
@[simp] theorem State.setBit_notices (f : Fld) (v : Bool) : (s.setBit f v).notices = s.notices := rfl
@[simp] theorem State.setBit_faultLow (f : Fld) (v : Bool) : (s.setBit f v).faultLow = s.faultLow := rfl
@[simp] theorem State.setBit_stopFrozen (f : Fld) (v : Bool) : (s.setBit f v).stopFrozen = s.stopFrozen := rfl
@[simp] theorem State.setBit_vecCount (f : Fld) (v : Bool) : (s.setBit f v).vecCount = s.vecCount := rfl
@[simp] theorem State.setBit_ports (f : Fld) (v : Bool) : (s.setBit f v).ports = s.ports := rfl
@[simp] theorem State.setBit_coordKnown (f : Fld) (v : Bool) : (s.setBit f v).coordKnown = s.coordKnown := rfl
@[simp] theorem State.setBit_lasers (f : Fld) (v : Bool) : (s.setBit f v).lasers = s.lasers := rfl
@[simp] theorem State.setBit_stileAcks (f : Fld) (v : Bool) : (s.setBit f v).stileAcks = s.stileAcks := rfl
@[simp] theorem State.setBit_xfers (f : Fld) (v : Bool) : (s.setBit f v).xfers = s.xfers := rfl
@[simp] theorem State.setBit_nextTid (f : Fld) (v : Bool) : (s.setBit f v).nextTid = s.nextTid := rfl
@[simp] theorem State.setBit_streams (f : Fld) (v : Bool) : (s.setBit f v).streams = s.streams := rfl
@[simp] theorem State.setBit_launches (f : Fld) (v : Bool) : (s.setBit f v).launches = s.launches := rfl
@[simp] theorem State.setBit_reassemblies (f : Fld) (v : Bool) : (s.setBit f v).reassemblies = s.reassemblies := rfl
@[simp] theorem State.setBit_rxWait (f : Fld) (v : Bool) : (s.setBit f v).rxWait = s.rxWait := rfl
@[simp] theorem State.setBit_arrived (f : Fld) (v : Bool) : (s.setBit f v).arrived = s.arrived := rfl
@[simp] theorem State.setBit_accepted (f : Fld) (v : Bool) : (s.setBit f v).accepted = s.accepted := rfl
@[simp] theorem State.setBit_shardFailed (f : Fld) (v : Bool) : (s.setBit f v).shardFailed = s.shardFailed := rfl
@[simp] theorem State.setBit_lark (f : Fld) (v : Bool) : (s.setBit f v).lark = s.lark := rfl
@[simp] theorem State.setBit_rings (f : Fld) (v : Bool) : (s.setBit f v).rings = s.rings := rfl
@[simp] theorem State.setBit_intakes (f : Fld) (v : Bool) : (s.setBit f v).intakes = s.intakes := rfl
@[simp] theorem State.setBit_publishes (f : Fld) (v : Bool) : (s.setBit f v).publishes = s.publishes := rfl
@[simp] theorem State.setBit_d3hot (f : Fld) (v : Bool) : (s.setBit f v).d3hot = s.d3hot := rfl
@[simp] theorem State.setBit_cfg (f : Fld) (v : Bool) : (s.setBit f v).cfg = s.cfg := rfl
@[simp] theorem State.setBit_maxRead (f : Fld) (v : Bool) : (s.setBit f v).maxRead = s.maxRead := rfl
@[simp] theorem State.setBit_maxPayload (f : Fld) (v : Bool) : (s.setBit f v).maxPayload = s.maxPayload := rfl
@[simp] theorem State.setBit_scaleFail (f : Fld) (v : Bool) : (s.setBit f v).scaleFail = s.scaleFail := rfl
@[simp] theorem State.setBit_tileFail (f : Fld) (v : Bool) : (s.setBit f v).tileFail = s.tileFail := rfl
@[simp] theorem State.setBit_objs (f : Fld) (v : Bool) : (s.setBit f v).objs = s.objs := rfl
@[simp] theorem State.setBit_causes (f : Fld) (v : Bool) : (s.setBit f v).causes = s.causes := rfl
@[simp] theorem State.setBit_fwCores (f : Fld) (v : Bool) : (s.setBit f v).fwCores = s.fwCores := rfl
@[simp] theorem State.setBit_boot (f : Fld) (v : Bool) : (s.setBit f v).boot = s.boot := rfl
@[simp] theorem State.setBit_bring (f : Fld) (v : Bool) : (s.setBit f v).bring = s.bring := rfl
@[simp] theorem State.setBit_fresets (f : Fld) (v : Bool) : (s.setBit f v).fresets = s.fresets := rfl
@[simp] theorem State.setBit_flash (f : Fld) (v : Bool) : (s.setBit f v).flash = s.flash := rfl
@[simp] theorem State.setBit_ronbin (f : Fld) (v : Bool) : (s.setBit f v).ronbin = s.ronbin := rfl

/-! `bump` -/
@[simp] theorem State.bump_pending (f : Fld) (v : Nat) : (s.bump f v).pending = s.pending := rfl
@[simp] theorem State.bump_freeCount (f : Fld) (v : Nat) : (s.bump f v).freeCount = s.freeCount := rfl
@[simp] theorem State.bump_out (f : Fld) (v : Nat) : (s.bump f v).out = s.out := rfl
@[simp] theorem State.bump_mem (f : Fld) (v : Nat) : (s.bump f v).mem = s.mem := rfl
@[simp] theorem State.bump_badWords (f : Fld) (v : Nat) : (s.bump f v).badWords = s.badWords := rfl
@[simp] theorem State.bump_threads (f : Fld) (v : Nat) : (s.bump f v).threads = s.threads := rfl
@[simp] theorem State.bump_tiles (f : Fld) (v : Nat) : (s.bump f v).tiles = s.tiles := rfl
@[simp] theorem State.bump_ctxs (f : Fld) (v : Nat) : (s.bump f v).ctxs = s.ctxs := rfl
@[simp] theorem State.bump_hamper (f : Fld) (v : Nat) : (s.bump f v).hamper = s.hamper := rfl
@[simp] theorem State.bump_roots (f : Fld) (v : Nat) : (s.bump f v).roots = s.roots := rfl
@[simp] theorem State.bump_log (f : Fld) (v : Nat) : (s.bump f v).log = s.log := rfl
@[simp] theorem State.bump_hist (f : Fld) (v : Nat) : (s.bump f v).hist = s.hist := rfl
@[simp] theorem State.bump_notices (f : Fld) (v : Nat) : (s.bump f v).notices = s.notices := rfl
@[simp] theorem State.bump_faultLow (f : Fld) (v : Nat) : (s.bump f v).faultLow = s.faultLow := rfl
@[simp] theorem State.bump_stopFrozen (f : Fld) (v : Nat) : (s.bump f v).stopFrozen = s.stopFrozen := rfl
@[simp] theorem State.bump_vecCount (f : Fld) (v : Nat) : (s.bump f v).vecCount = s.vecCount := rfl
@[simp] theorem State.bump_ports (f : Fld) (v : Nat) : (s.bump f v).ports = s.ports := rfl
@[simp] theorem State.bump_coordKnown (f : Fld) (v : Nat) : (s.bump f v).coordKnown = s.coordKnown := rfl
@[simp] theorem State.bump_lasers (f : Fld) (v : Nat) : (s.bump f v).lasers = s.lasers := rfl
@[simp] theorem State.bump_stileAcks (f : Fld) (v : Nat) : (s.bump f v).stileAcks = s.stileAcks := rfl
@[simp] theorem State.bump_xfers (f : Fld) (v : Nat) : (s.bump f v).xfers = s.xfers := rfl
@[simp] theorem State.bump_nextTid (f : Fld) (v : Nat) : (s.bump f v).nextTid = s.nextTid := rfl
@[simp] theorem State.bump_streams (f : Fld) (v : Nat) : (s.bump f v).streams = s.streams := rfl
@[simp] theorem State.bump_launches (f : Fld) (v : Nat) : (s.bump f v).launches = s.launches := rfl
@[simp] theorem State.bump_reassemblies (f : Fld) (v : Nat) : (s.bump f v).reassemblies = s.reassemblies := rfl
@[simp] theorem State.bump_rxWait (f : Fld) (v : Nat) : (s.bump f v).rxWait = s.rxWait := rfl
@[simp] theorem State.bump_arrived (f : Fld) (v : Nat) : (s.bump f v).arrived = s.arrived := rfl
@[simp] theorem State.bump_accepted (f : Fld) (v : Nat) : (s.bump f v).accepted = s.accepted := rfl
@[simp] theorem State.bump_shardFailed (f : Fld) (v : Nat) : (s.bump f v).shardFailed = s.shardFailed := rfl
@[simp] theorem State.bump_lark (f : Fld) (v : Nat) : (s.bump f v).lark = s.lark := rfl
@[simp] theorem State.bump_rings (f : Fld) (v : Nat) : (s.bump f v).rings = s.rings := rfl
@[simp] theorem State.bump_intakes (f : Fld) (v : Nat) : (s.bump f v).intakes = s.intakes := rfl
@[simp] theorem State.bump_publishes (f : Fld) (v : Nat) : (s.bump f v).publishes = s.publishes := rfl
@[simp] theorem State.bump_d3hot (f : Fld) (v : Nat) : (s.bump f v).d3hot = s.d3hot := rfl
@[simp] theorem State.bump_cfg (f : Fld) (v : Nat) : (s.bump f v).cfg = s.cfg := rfl
@[simp] theorem State.bump_maxRead (f : Fld) (v : Nat) : (s.bump f v).maxRead = s.maxRead := rfl
@[simp] theorem State.bump_maxPayload (f : Fld) (v : Nat) : (s.bump f v).maxPayload = s.maxPayload := rfl
@[simp] theorem State.bump_scaleFail (f : Fld) (v : Nat) : (s.bump f v).scaleFail = s.scaleFail := rfl
@[simp] theorem State.bump_tileFail (f : Fld) (v : Nat) : (s.bump f v).tileFail = s.tileFail := rfl
@[simp] theorem State.bump_objs (f : Fld) (v : Nat) : (s.bump f v).objs = s.objs := rfl
@[simp] theorem State.bump_causes (f : Fld) (v : Nat) : (s.bump f v).causes = s.causes := rfl
@[simp] theorem State.bump_fwCores (f : Fld) (v : Nat) : (s.bump f v).fwCores = s.fwCores := rfl
@[simp] theorem State.bump_boot (f : Fld) (v : Nat) : (s.bump f v).boot = s.boot := rfl
@[simp] theorem State.bump_bring (f : Fld) (v : Nat) : (s.bump f v).bring = s.bring := rfl
@[simp] theorem State.bump_fresets (f : Fld) (v : Nat) : (s.bump f v).fresets = s.fresets := rfl
@[simp] theorem State.bump_flash (f : Fld) (v : Nat) : (s.bump f v).flash = s.flash := rfl
@[simp] theorem State.bump_ronbin (f : Fld) (v : Nat) : (s.bump f v).ronbin = s.ronbin := rfl

/-! `bumpReg` -/
@[simp] theorem State.bumpReg_pending (k v : Nat) : (s.bumpReg k v).pending = s.pending := rfl
@[simp] theorem State.bumpReg_freeCount (k v : Nat) : (s.bumpReg k v).freeCount = s.freeCount := rfl
@[simp] theorem State.bumpReg_out (k v : Nat) : (s.bumpReg k v).out = s.out := rfl
@[simp] theorem State.bumpReg_mem (k v : Nat) : (s.bumpReg k v).mem = s.mem := rfl
@[simp] theorem State.bumpReg_badWords (k v : Nat) : (s.bumpReg k v).badWords = s.badWords := rfl
@[simp] theorem State.bumpReg_threads (k v : Nat) : (s.bumpReg k v).threads = s.threads := rfl
@[simp] theorem State.bumpReg_tiles (k v : Nat) : (s.bumpReg k v).tiles = s.tiles := rfl
@[simp] theorem State.bumpReg_ctxs (k v : Nat) : (s.bumpReg k v).ctxs = s.ctxs := rfl
@[simp] theorem State.bumpReg_hamper (k v : Nat) : (s.bumpReg k v).hamper = s.hamper := rfl
@[simp] theorem State.bumpReg_roots (k v : Nat) : (s.bumpReg k v).roots = s.roots := rfl
@[simp] theorem State.bumpReg_log (k v : Nat) : (s.bumpReg k v).log = s.log := rfl
@[simp] theorem State.bumpReg_hist (k v : Nat) : (s.bumpReg k v).hist = s.hist := rfl
@[simp] theorem State.bumpReg_notices (k v : Nat) : (s.bumpReg k v).notices = s.notices := rfl
@[simp] theorem State.bumpReg_faultLow (k v : Nat) : (s.bumpReg k v).faultLow = s.faultLow := rfl
@[simp] theorem State.bumpReg_stopFrozen (k v : Nat) : (s.bumpReg k v).stopFrozen = s.stopFrozen := rfl
@[simp] theorem State.bumpReg_vecCount (k v : Nat) : (s.bumpReg k v).vecCount = s.vecCount := rfl
@[simp] theorem State.bumpReg_ports (k v : Nat) : (s.bumpReg k v).ports = s.ports := rfl
@[simp] theorem State.bumpReg_coordKnown (k v : Nat) : (s.bumpReg k v).coordKnown = s.coordKnown := rfl
@[simp] theorem State.bumpReg_lasers (k v : Nat) : (s.bumpReg k v).lasers = s.lasers := rfl
@[simp] theorem State.bumpReg_stileAcks (k v : Nat) : (s.bumpReg k v).stileAcks = s.stileAcks := rfl
@[simp] theorem State.bumpReg_xfers (k v : Nat) : (s.bumpReg k v).xfers = s.xfers := rfl
@[simp] theorem State.bumpReg_nextTid (k v : Nat) : (s.bumpReg k v).nextTid = s.nextTid := rfl
@[simp] theorem State.bumpReg_streams (k v : Nat) : (s.bumpReg k v).streams = s.streams := rfl
@[simp] theorem State.bumpReg_launches (k v : Nat) : (s.bumpReg k v).launches = s.launches := rfl
@[simp] theorem State.bumpReg_reassemblies (k v : Nat) : (s.bumpReg k v).reassemblies = s.reassemblies := rfl
@[simp] theorem State.bumpReg_rxWait (k v : Nat) : (s.bumpReg k v).rxWait = s.rxWait := rfl
@[simp] theorem State.bumpReg_arrived (k v : Nat) : (s.bumpReg k v).arrived = s.arrived := rfl
@[simp] theorem State.bumpReg_accepted (k v : Nat) : (s.bumpReg k v).accepted = s.accepted := rfl
@[simp] theorem State.bumpReg_shardFailed (k v : Nat) : (s.bumpReg k v).shardFailed = s.shardFailed := rfl
@[simp] theorem State.bumpReg_lark (k v : Nat) : (s.bumpReg k v).lark = s.lark := rfl
@[simp] theorem State.bumpReg_rings (k v : Nat) : (s.bumpReg k v).rings = s.rings := rfl
@[simp] theorem State.bumpReg_intakes (k v : Nat) : (s.bumpReg k v).intakes = s.intakes := rfl
@[simp] theorem State.bumpReg_publishes (k v : Nat) : (s.bumpReg k v).publishes = s.publishes := rfl
@[simp] theorem State.bumpReg_d3hot (k v : Nat) : (s.bumpReg k v).d3hot = s.d3hot := rfl
@[simp] theorem State.bumpReg_cfg (k v : Nat) : (s.bumpReg k v).cfg = s.cfg := rfl
@[simp] theorem State.bumpReg_maxRead (k v : Nat) : (s.bumpReg k v).maxRead = s.maxRead := rfl
@[simp] theorem State.bumpReg_maxPayload (k v : Nat) : (s.bumpReg k v).maxPayload = s.maxPayload := rfl
@[simp] theorem State.bumpReg_scaleFail (k v : Nat) : (s.bumpReg k v).scaleFail = s.scaleFail := rfl
@[simp] theorem State.bumpReg_tileFail (k v : Nat) : (s.bumpReg k v).tileFail = s.tileFail := rfl
@[simp] theorem State.bumpReg_objs (k v : Nat) : (s.bumpReg k v).objs = s.objs := rfl
@[simp] theorem State.bumpReg_causes (k v : Nat) : (s.bumpReg k v).causes = s.causes := rfl
@[simp] theorem State.bumpReg_fwCores (k v : Nat) : (s.bumpReg k v).fwCores = s.fwCores := rfl
@[simp] theorem State.bumpReg_boot (k v : Nat) : (s.bumpReg k v).boot = s.boot := rfl
@[simp] theorem State.bumpReg_bring (k v : Nat) : (s.bumpReg k v).bring = s.bring := rfl
@[simp] theorem State.bumpReg_fresets (k v : Nat) : (s.bumpReg k v).fresets = s.fresets := rfl
@[simp] theorem State.bumpReg_flash (k v : Nat) : (s.bumpReg k v).flash = s.flash := rfl
@[simp] theorem State.bumpReg_ronbin (k v : Nat) : (s.bumpReg k v).ronbin = s.ronbin := rfl

/-! `dropRegs` -/
@[simp] theorem State.dropRegs_pending (p : Nat → Bool) : (s.dropRegs p).pending = s.pending := rfl
@[simp] theorem State.dropRegs_freeCount (p : Nat → Bool) : (s.dropRegs p).freeCount = s.freeCount := rfl
@[simp] theorem State.dropRegs_out (p : Nat → Bool) : (s.dropRegs p).out = s.out := rfl
@[simp] theorem State.dropRegs_mem (p : Nat → Bool) : (s.dropRegs p).mem = s.mem := rfl
@[simp] theorem State.dropRegs_badWords (p : Nat → Bool) : (s.dropRegs p).badWords = s.badWords := rfl
@[simp] theorem State.dropRegs_threads (p : Nat → Bool) : (s.dropRegs p).threads = s.threads := rfl
@[simp] theorem State.dropRegs_tiles (p : Nat → Bool) : (s.dropRegs p).tiles = s.tiles := rfl
@[simp] theorem State.dropRegs_ctxs (p : Nat → Bool) : (s.dropRegs p).ctxs = s.ctxs := rfl
@[simp] theorem State.dropRegs_hamper (p : Nat → Bool) : (s.dropRegs p).hamper = s.hamper := rfl
@[simp] theorem State.dropRegs_roots (p : Nat → Bool) : (s.dropRegs p).roots = s.roots := rfl
@[simp] theorem State.dropRegs_log (p : Nat → Bool) : (s.dropRegs p).log = s.log := rfl
@[simp] theorem State.dropRegs_hist (p : Nat → Bool) : (s.dropRegs p).hist = s.hist := rfl
@[simp] theorem State.dropRegs_notices (p : Nat → Bool) : (s.dropRegs p).notices = s.notices := rfl
@[simp] theorem State.dropRegs_faultLow (p : Nat → Bool) : (s.dropRegs p).faultLow = s.faultLow := rfl
@[simp] theorem State.dropRegs_stopFrozen (p : Nat → Bool) : (s.dropRegs p).stopFrozen = s.stopFrozen := rfl
@[simp] theorem State.dropRegs_vecCount (p : Nat → Bool) : (s.dropRegs p).vecCount = s.vecCount := rfl
@[simp] theorem State.dropRegs_ports (p : Nat → Bool) : (s.dropRegs p).ports = s.ports := rfl
@[simp] theorem State.dropRegs_coordKnown (p : Nat → Bool) : (s.dropRegs p).coordKnown = s.coordKnown := rfl
@[simp] theorem State.dropRegs_lasers (p : Nat → Bool) : (s.dropRegs p).lasers = s.lasers := rfl
@[simp] theorem State.dropRegs_stileAcks (p : Nat → Bool) : (s.dropRegs p).stileAcks = s.stileAcks := rfl
@[simp] theorem State.dropRegs_xfers (p : Nat → Bool) : (s.dropRegs p).xfers = s.xfers := rfl
@[simp] theorem State.dropRegs_nextTid (p : Nat → Bool) : (s.dropRegs p).nextTid = s.nextTid := rfl
@[simp] theorem State.dropRegs_streams (p : Nat → Bool) : (s.dropRegs p).streams = s.streams := rfl
@[simp] theorem State.dropRegs_launches (p : Nat → Bool) : (s.dropRegs p).launches = s.launches := rfl
@[simp] theorem State.dropRegs_reassemblies (p : Nat → Bool) : (s.dropRegs p).reassemblies = s.reassemblies := rfl
@[simp] theorem State.dropRegs_rxWait (p : Nat → Bool) : (s.dropRegs p).rxWait = s.rxWait := rfl
@[simp] theorem State.dropRegs_arrived (p : Nat → Bool) : (s.dropRegs p).arrived = s.arrived := rfl
@[simp] theorem State.dropRegs_accepted (p : Nat → Bool) : (s.dropRegs p).accepted = s.accepted := rfl
@[simp] theorem State.dropRegs_shardFailed (p : Nat → Bool) : (s.dropRegs p).shardFailed = s.shardFailed := rfl
@[simp] theorem State.dropRegs_lark (p : Nat → Bool) : (s.dropRegs p).lark = s.lark := rfl
@[simp] theorem State.dropRegs_rings (p : Nat → Bool) : (s.dropRegs p).rings = s.rings := rfl
@[simp] theorem State.dropRegs_intakes (p : Nat → Bool) : (s.dropRegs p).intakes = s.intakes := rfl
@[simp] theorem State.dropRegs_publishes (p : Nat → Bool) : (s.dropRegs p).publishes = s.publishes := rfl
@[simp] theorem State.dropRegs_d3hot (p : Nat → Bool) : (s.dropRegs p).d3hot = s.d3hot := rfl
@[simp] theorem State.dropRegs_cfg (p : Nat → Bool) : (s.dropRegs p).cfg = s.cfg := rfl
@[simp] theorem State.dropRegs_maxRead (p : Nat → Bool) : (s.dropRegs p).maxRead = s.maxRead := rfl
@[simp] theorem State.dropRegs_maxPayload (p : Nat → Bool) : (s.dropRegs p).maxPayload = s.maxPayload := rfl
@[simp] theorem State.dropRegs_scaleFail (p : Nat → Bool) : (s.dropRegs p).scaleFail = s.scaleFail := rfl
@[simp] theorem State.dropRegs_tileFail (p : Nat → Bool) : (s.dropRegs p).tileFail = s.tileFail := rfl
@[simp] theorem State.dropRegs_objs (p : Nat → Bool) : (s.dropRegs p).objs = s.objs := rfl
@[simp] theorem State.dropRegs_causes (p : Nat → Bool) : (s.dropRegs p).causes = s.causes := rfl
@[simp] theorem State.dropRegs_fwCores (p : Nat → Bool) : (s.dropRegs p).fwCores = s.fwCores := rfl
@[simp] theorem State.dropRegs_boot (p : Nat → Bool) : (s.dropRegs p).boot = s.boot := rfl
@[simp] theorem State.dropRegs_bring (p : Nat → Bool) : (s.dropRegs p).bring = s.bring := rfl
@[simp] theorem State.dropRegs_fresets (p : Nat → Bool) : (s.dropRegs p).fresets = s.fresets := rfl
@[simp] theorem State.dropRegs_flash (p : Nat → Bool) : (s.dropRegs p).flash = s.flash := rfl
@[simp] theorem State.dropRegs_ronbin (p : Nat → Bool) : (s.dropRegs p).ronbin = s.ronbin := rfl

/-! `setByte` -/
@[simp] theorem State.setByte_pending (a : Nat) (b : Byte) : (s.setByte a b).pending = s.pending := rfl
@[simp] theorem State.setByte_freeCount (a : Nat) (b : Byte) : (s.setByte a b).freeCount = s.freeCount := rfl
@[simp] theorem State.setByte_out (a : Nat) (b : Byte) : (s.setByte a b).out = s.out := rfl
@[simp] theorem State.setByte_regs (a : Nat) (b : Byte) : (s.setByte a b).regs = s.regs := rfl
@[simp] theorem State.setByte_badWords (a : Nat) (b : Byte) : (s.setByte a b).badWords = s.badWords := rfl
@[simp] theorem State.setByte_threads (a : Nat) (b : Byte) : (s.setByte a b).threads = s.threads := rfl
@[simp] theorem State.setByte_tiles (a : Nat) (b : Byte) : (s.setByte a b).tiles = s.tiles := rfl
@[simp] theorem State.setByte_ctxs (a : Nat) (b : Byte) : (s.setByte a b).ctxs = s.ctxs := rfl
@[simp] theorem State.setByte_hamper (a : Nat) (b : Byte) : (s.setByte a b).hamper = s.hamper := rfl
@[simp] theorem State.setByte_roots (a : Nat) (b : Byte) : (s.setByte a b).roots = s.roots := rfl
@[simp] theorem State.setByte_log (a : Nat) (b : Byte) : (s.setByte a b).log = s.log := rfl
@[simp] theorem State.setByte_hist (a : Nat) (b : Byte) : (s.setByte a b).hist = s.hist := rfl
@[simp] theorem State.setByte_notices (a : Nat) (b : Byte) : (s.setByte a b).notices = s.notices := rfl
@[simp] theorem State.setByte_faultLow (a : Nat) (b : Byte) : (s.setByte a b).faultLow = s.faultLow := rfl
@[simp] theorem State.setByte_stopFrozen (a : Nat) (b : Byte) : (s.setByte a b).stopFrozen = s.stopFrozen := rfl
@[simp] theorem State.setByte_vecCount (a : Nat) (b : Byte) : (s.setByte a b).vecCount = s.vecCount := rfl
@[simp] theorem State.setByte_ports (a : Nat) (b : Byte) : (s.setByte a b).ports = s.ports := rfl
@[simp] theorem State.setByte_coordKnown (a : Nat) (b : Byte) : (s.setByte a b).coordKnown = s.coordKnown := rfl
@[simp] theorem State.setByte_lasers (a : Nat) (b : Byte) : (s.setByte a b).lasers = s.lasers := rfl
@[simp] theorem State.setByte_stileAcks (a : Nat) (b : Byte) : (s.setByte a b).stileAcks = s.stileAcks := rfl
@[simp] theorem State.setByte_xfers (a : Nat) (b : Byte) : (s.setByte a b).xfers = s.xfers := rfl
@[simp] theorem State.setByte_nextTid (a : Nat) (b : Byte) : (s.setByte a b).nextTid = s.nextTid := rfl
@[simp] theorem State.setByte_streams (a : Nat) (b : Byte) : (s.setByte a b).streams = s.streams := rfl
@[simp] theorem State.setByte_launches (a : Nat) (b : Byte) : (s.setByte a b).launches = s.launches := rfl
@[simp] theorem State.setByte_reassemblies (a : Nat) (b : Byte) : (s.setByte a b).reassemblies = s.reassemblies := rfl
@[simp] theorem State.setByte_rxWait (a : Nat) (b : Byte) : (s.setByte a b).rxWait = s.rxWait := rfl
@[simp] theorem State.setByte_arrived (a : Nat) (b : Byte) : (s.setByte a b).arrived = s.arrived := rfl
@[simp] theorem State.setByte_accepted (a : Nat) (b : Byte) : (s.setByte a b).accepted = s.accepted := rfl
@[simp] theorem State.setByte_shardFailed (a : Nat) (b : Byte) : (s.setByte a b).shardFailed = s.shardFailed := rfl
@[simp] theorem State.setByte_lark (a : Nat) (b : Byte) : (s.setByte a b).lark = s.lark := rfl
@[simp] theorem State.setByte_rings (a : Nat) (b : Byte) : (s.setByte a b).rings = s.rings := rfl
@[simp] theorem State.setByte_intakes (a : Nat) (b : Byte) : (s.setByte a b).intakes = s.intakes := rfl
@[simp] theorem State.setByte_publishes (a : Nat) (b : Byte) : (s.setByte a b).publishes = s.publishes := rfl
@[simp] theorem State.setByte_d3hot (a : Nat) (b : Byte) : (s.setByte a b).d3hot = s.d3hot := rfl
@[simp] theorem State.setByte_cfg (a : Nat) (b : Byte) : (s.setByte a b).cfg = s.cfg := rfl
@[simp] theorem State.setByte_maxRead (a : Nat) (b : Byte) : (s.setByte a b).maxRead = s.maxRead := rfl
@[simp] theorem State.setByte_maxPayload (a : Nat) (b : Byte) : (s.setByte a b).maxPayload = s.maxPayload := rfl
@[simp] theorem State.setByte_scaleFail (a : Nat) (b : Byte) : (s.setByte a b).scaleFail = s.scaleFail := rfl
@[simp] theorem State.setByte_tileFail (a : Nat) (b : Byte) : (s.setByte a b).tileFail = s.tileFail := rfl
@[simp] theorem State.setByte_objs (a : Nat) (b : Byte) : (s.setByte a b).objs = s.objs := rfl
@[simp] theorem State.setByte_causes (a : Nat) (b : Byte) : (s.setByte a b).causes = s.causes := rfl
@[simp] theorem State.setByte_fwCores (a : Nat) (b : Byte) : (s.setByte a b).fwCores = s.fwCores := rfl
@[simp] theorem State.setByte_boot (a : Nat) (b : Byte) : (s.setByte a b).boot = s.boot := rfl
@[simp] theorem State.setByte_bring (a : Nat) (b : Byte) : (s.setByte a b).bring = s.bring := rfl
@[simp] theorem State.setByte_fresets (a : Nat) (b : Byte) : (s.setByte a b).fresets = s.fresets := rfl
@[simp] theorem State.setByte_flash (a : Nat) (b : Byte) : (s.setByte a b).flash = s.flash := rfl
@[simp] theorem State.setByte_ronbin (a : Nat) (b : Byte) : (s.setByte a b).ronbin = s.ronbin := rfl

/-! `dropMem` -/
@[simp] theorem State.dropMem_pending (p : Nat → Bool) : (s.dropMem p).pending = s.pending := rfl
@[simp] theorem State.dropMem_freeCount (p : Nat → Bool) : (s.dropMem p).freeCount = s.freeCount := rfl
@[simp] theorem State.dropMem_out (p : Nat → Bool) : (s.dropMem p).out = s.out := rfl
@[simp] theorem State.dropMem_regs (p : Nat → Bool) : (s.dropMem p).regs = s.regs := rfl
@[simp] theorem State.dropMem_badWords (p : Nat → Bool) : (s.dropMem p).badWords = s.badWords := rfl
@[simp] theorem State.dropMem_threads (p : Nat → Bool) : (s.dropMem p).threads = s.threads := rfl
@[simp] theorem State.dropMem_tiles (p : Nat → Bool) : (s.dropMem p).tiles = s.tiles := rfl
@[simp] theorem State.dropMem_ctxs (p : Nat → Bool) : (s.dropMem p).ctxs = s.ctxs := rfl
@[simp] theorem State.dropMem_hamper (p : Nat → Bool) : (s.dropMem p).hamper = s.hamper := rfl
@[simp] theorem State.dropMem_roots (p : Nat → Bool) : (s.dropMem p).roots = s.roots := rfl
@[simp] theorem State.dropMem_log (p : Nat → Bool) : (s.dropMem p).log = s.log := rfl
@[simp] theorem State.dropMem_hist (p : Nat → Bool) : (s.dropMem p).hist = s.hist := rfl
@[simp] theorem State.dropMem_notices (p : Nat → Bool) : (s.dropMem p).notices = s.notices := rfl
@[simp] theorem State.dropMem_faultLow (p : Nat → Bool) : (s.dropMem p).faultLow = s.faultLow := rfl
@[simp] theorem State.dropMem_stopFrozen (p : Nat → Bool) : (s.dropMem p).stopFrozen = s.stopFrozen := rfl
@[simp] theorem State.dropMem_vecCount (p : Nat → Bool) : (s.dropMem p).vecCount = s.vecCount := rfl
@[simp] theorem State.dropMem_ports (p : Nat → Bool) : (s.dropMem p).ports = s.ports := rfl
@[simp] theorem State.dropMem_coordKnown (p : Nat → Bool) : (s.dropMem p).coordKnown = s.coordKnown := rfl
@[simp] theorem State.dropMem_lasers (p : Nat → Bool) : (s.dropMem p).lasers = s.lasers := rfl
@[simp] theorem State.dropMem_stileAcks (p : Nat → Bool) : (s.dropMem p).stileAcks = s.stileAcks := rfl
@[simp] theorem State.dropMem_xfers (p : Nat → Bool) : (s.dropMem p).xfers = s.xfers := rfl
@[simp] theorem State.dropMem_nextTid (p : Nat → Bool) : (s.dropMem p).nextTid = s.nextTid := rfl
@[simp] theorem State.dropMem_streams (p : Nat → Bool) : (s.dropMem p).streams = s.streams := rfl
@[simp] theorem State.dropMem_launches (p : Nat → Bool) : (s.dropMem p).launches = s.launches := rfl
@[simp] theorem State.dropMem_reassemblies (p : Nat → Bool) : (s.dropMem p).reassemblies = s.reassemblies := rfl
@[simp] theorem State.dropMem_rxWait (p : Nat → Bool) : (s.dropMem p).rxWait = s.rxWait := rfl
@[simp] theorem State.dropMem_arrived (p : Nat → Bool) : (s.dropMem p).arrived = s.arrived := rfl
@[simp] theorem State.dropMem_accepted (p : Nat → Bool) : (s.dropMem p).accepted = s.accepted := rfl
@[simp] theorem State.dropMem_shardFailed (p : Nat → Bool) : (s.dropMem p).shardFailed = s.shardFailed := rfl
@[simp] theorem State.dropMem_lark (p : Nat → Bool) : (s.dropMem p).lark = s.lark := rfl
@[simp] theorem State.dropMem_rings (p : Nat → Bool) : (s.dropMem p).rings = s.rings := rfl
@[simp] theorem State.dropMem_intakes (p : Nat → Bool) : (s.dropMem p).intakes = s.intakes := rfl
@[simp] theorem State.dropMem_publishes (p : Nat → Bool) : (s.dropMem p).publishes = s.publishes := rfl
@[simp] theorem State.dropMem_d3hot (p : Nat → Bool) : (s.dropMem p).d3hot = s.d3hot := rfl
@[simp] theorem State.dropMem_cfg (p : Nat → Bool) : (s.dropMem p).cfg = s.cfg := rfl
@[simp] theorem State.dropMem_maxRead (p : Nat → Bool) : (s.dropMem p).maxRead = s.maxRead := rfl
@[simp] theorem State.dropMem_maxPayload (p : Nat → Bool) : (s.dropMem p).maxPayload = s.maxPayload := rfl
@[simp] theorem State.dropMem_scaleFail (p : Nat → Bool) : (s.dropMem p).scaleFail = s.scaleFail := rfl
@[simp] theorem State.dropMem_tileFail (p : Nat → Bool) : (s.dropMem p).tileFail = s.tileFail := rfl
@[simp] theorem State.dropMem_objs (p : Nat → Bool) : (s.dropMem p).objs = s.objs := rfl
@[simp] theorem State.dropMem_causes (p : Nat → Bool) : (s.dropMem p).causes = s.causes := rfl
@[simp] theorem State.dropMem_fwCores (p : Nat → Bool) : (s.dropMem p).fwCores = s.fwCores := rfl
@[simp] theorem State.dropMem_boot (p : Nat → Bool) : (s.dropMem p).boot = s.boot := rfl
@[simp] theorem State.dropMem_bring (p : Nat → Bool) : (s.dropMem p).bring = s.bring := rfl
@[simp] theorem State.dropMem_fresets (p : Nat → Bool) : (s.dropMem p).fresets = s.fresets := rfl
@[simp] theorem State.dropMem_flash (p : Nat → Bool) : (s.dropMem p).flash = s.flash := rfl
@[simp] theorem State.dropMem_ronbin (p : Nat → Bool) : (s.dropMem p).ronbin = s.ronbin := rfl

/-! `setThread` -/
@[simp] theorem State.setThread_pending (k : Nat) (v : Thread) : (s.setThread k v).pending = s.pending := rfl
@[simp] theorem State.setThread_freeCount (k : Nat) (v : Thread) : (s.setThread k v).freeCount = s.freeCount := rfl
@[simp] theorem State.setThread_out (k : Nat) (v : Thread) : (s.setThread k v).out = s.out := rfl
@[simp] theorem State.setThread_regs (k : Nat) (v : Thread) : (s.setThread k v).regs = s.regs := rfl
@[simp] theorem State.setThread_mem (k : Nat) (v : Thread) : (s.setThread k v).mem = s.mem := rfl
@[simp] theorem State.setThread_badWords (k : Nat) (v : Thread) : (s.setThread k v).badWords = s.badWords := rfl
@[simp] theorem State.setThread_tiles (k : Nat) (v : Thread) : (s.setThread k v).tiles = s.tiles := rfl
@[simp] theorem State.setThread_ctxs (k : Nat) (v : Thread) : (s.setThread k v).ctxs = s.ctxs := rfl
@[simp] theorem State.setThread_hamper (k : Nat) (v : Thread) : (s.setThread k v).hamper = s.hamper := rfl
@[simp] theorem State.setThread_roots (k : Nat) (v : Thread) : (s.setThread k v).roots = s.roots := rfl
@[simp] theorem State.setThread_log (k : Nat) (v : Thread) : (s.setThread k v).log = s.log := rfl
@[simp] theorem State.setThread_hist (k : Nat) (v : Thread) : (s.setThread k v).hist = s.hist := rfl
@[simp] theorem State.setThread_notices (k : Nat) (v : Thread) : (s.setThread k v).notices = s.notices := rfl
@[simp] theorem State.setThread_faultLow (k : Nat) (v : Thread) : (s.setThread k v).faultLow = s.faultLow := rfl
@[simp] theorem State.setThread_stopFrozen (k : Nat) (v : Thread) : (s.setThread k v).stopFrozen = s.stopFrozen := rfl
@[simp] theorem State.setThread_vecCount (k : Nat) (v : Thread) : (s.setThread k v).vecCount = s.vecCount := rfl
@[simp] theorem State.setThread_ports (k : Nat) (v : Thread) : (s.setThread k v).ports = s.ports := rfl
@[simp] theorem State.setThread_coordKnown (k : Nat) (v : Thread) : (s.setThread k v).coordKnown = s.coordKnown := rfl
@[simp] theorem State.setThread_lasers (k : Nat) (v : Thread) : (s.setThread k v).lasers = s.lasers := rfl
@[simp] theorem State.setThread_stileAcks (k : Nat) (v : Thread) : (s.setThread k v).stileAcks = s.stileAcks := rfl
@[simp] theorem State.setThread_xfers (k : Nat) (v : Thread) : (s.setThread k v).xfers = s.xfers := rfl
@[simp] theorem State.setThread_nextTid (k : Nat) (v : Thread) : (s.setThread k v).nextTid = s.nextTid := rfl
@[simp] theorem State.setThread_streams (k : Nat) (v : Thread) : (s.setThread k v).streams = s.streams := rfl
@[simp] theorem State.setThread_launches (k : Nat) (v : Thread) : (s.setThread k v).launches = s.launches := rfl
@[simp] theorem State.setThread_reassemblies (k : Nat) (v : Thread) : (s.setThread k v).reassemblies = s.reassemblies := rfl
@[simp] theorem State.setThread_rxWait (k : Nat) (v : Thread) : (s.setThread k v).rxWait = s.rxWait := rfl
@[simp] theorem State.setThread_arrived (k : Nat) (v : Thread) : (s.setThread k v).arrived = s.arrived := rfl
@[simp] theorem State.setThread_accepted (k : Nat) (v : Thread) : (s.setThread k v).accepted = s.accepted := rfl
@[simp] theorem State.setThread_shardFailed (k : Nat) (v : Thread) : (s.setThread k v).shardFailed = s.shardFailed := rfl
@[simp] theorem State.setThread_lark (k : Nat) (v : Thread) : (s.setThread k v).lark = s.lark := rfl
@[simp] theorem State.setThread_rings (k : Nat) (v : Thread) : (s.setThread k v).rings = s.rings := rfl
@[simp] theorem State.setThread_intakes (k : Nat) (v : Thread) : (s.setThread k v).intakes = s.intakes := rfl
@[simp] theorem State.setThread_publishes (k : Nat) (v : Thread) : (s.setThread k v).publishes = s.publishes := rfl
@[simp] theorem State.setThread_d3hot (k : Nat) (v : Thread) : (s.setThread k v).d3hot = s.d3hot := rfl
@[simp] theorem State.setThread_cfg (k : Nat) (v : Thread) : (s.setThread k v).cfg = s.cfg := rfl
@[simp] theorem State.setThread_maxRead (k : Nat) (v : Thread) : (s.setThread k v).maxRead = s.maxRead := rfl
@[simp] theorem State.setThread_maxPayload (k : Nat) (v : Thread) : (s.setThread k v).maxPayload = s.maxPayload := rfl
@[simp] theorem State.setThread_scaleFail (k : Nat) (v : Thread) : (s.setThread k v).scaleFail = s.scaleFail := rfl
@[simp] theorem State.setThread_tileFail (k : Nat) (v : Thread) : (s.setThread k v).tileFail = s.tileFail := rfl
@[simp] theorem State.setThread_objs (k : Nat) (v : Thread) : (s.setThread k v).objs = s.objs := rfl
@[simp] theorem State.setThread_causes (k : Nat) (v : Thread) : (s.setThread k v).causes = s.causes := rfl
@[simp] theorem State.setThread_fwCores (k : Nat) (v : Thread) : (s.setThread k v).fwCores = s.fwCores := rfl
@[simp] theorem State.setThread_boot (k : Nat) (v : Thread) : (s.setThread k v).boot = s.boot := rfl
@[simp] theorem State.setThread_bring (k : Nat) (v : Thread) : (s.setThread k v).bring = s.bring := rfl
@[simp] theorem State.setThread_fresets (k : Nat) (v : Thread) : (s.setThread k v).fresets = s.fresets := rfl
@[simp] theorem State.setThread_flash (k : Nat) (v : Thread) : (s.setThread k v).flash = s.flash := rfl
@[simp] theorem State.setThread_ronbin (k : Nat) (v : Thread) : (s.setThread k v).ronbin = s.ronbin := rfl

/-! `setTile` -/
@[simp] theorem State.setTile_pending (k : Nat) (v : Tile) : (s.setTile k v).pending = s.pending := rfl
@[simp] theorem State.setTile_freeCount (k : Nat) (v : Tile) : (s.setTile k v).freeCount = s.freeCount := rfl
@[simp] theorem State.setTile_out (k : Nat) (v : Tile) : (s.setTile k v).out = s.out := rfl
@[simp] theorem State.setTile_regs (k : Nat) (v : Tile) : (s.setTile k v).regs = s.regs := rfl
@[simp] theorem State.setTile_mem (k : Nat) (v : Tile) : (s.setTile k v).mem = s.mem := rfl
@[simp] theorem State.setTile_badWords (k : Nat) (v : Tile) : (s.setTile k v).badWords = s.badWords := rfl
@[simp] theorem State.setTile_threads (k : Nat) (v : Tile) : (s.setTile k v).threads = s.threads := rfl
@[simp] theorem State.setTile_ctxs (k : Nat) (v : Tile) : (s.setTile k v).ctxs = s.ctxs := rfl
@[simp] theorem State.setTile_hamper (k : Nat) (v : Tile) : (s.setTile k v).hamper = s.hamper := rfl
@[simp] theorem State.setTile_roots (k : Nat) (v : Tile) : (s.setTile k v).roots = s.roots := rfl
@[simp] theorem State.setTile_log (k : Nat) (v : Tile) : (s.setTile k v).log = s.log := rfl
@[simp] theorem State.setTile_hist (k : Nat) (v : Tile) : (s.setTile k v).hist = s.hist := rfl
@[simp] theorem State.setTile_notices (k : Nat) (v : Tile) : (s.setTile k v).notices = s.notices := rfl
@[simp] theorem State.setTile_faultLow (k : Nat) (v : Tile) : (s.setTile k v).faultLow = s.faultLow := rfl
@[simp] theorem State.setTile_stopFrozen (k : Nat) (v : Tile) : (s.setTile k v).stopFrozen = s.stopFrozen := rfl
@[simp] theorem State.setTile_vecCount (k : Nat) (v : Tile) : (s.setTile k v).vecCount = s.vecCount := rfl
@[simp] theorem State.setTile_ports (k : Nat) (v : Tile) : (s.setTile k v).ports = s.ports := rfl
@[simp] theorem State.setTile_coordKnown (k : Nat) (v : Tile) : (s.setTile k v).coordKnown = s.coordKnown := rfl
@[simp] theorem State.setTile_lasers (k : Nat) (v : Tile) : (s.setTile k v).lasers = s.lasers := rfl
@[simp] theorem State.setTile_stileAcks (k : Nat) (v : Tile) : (s.setTile k v).stileAcks = s.stileAcks := rfl
@[simp] theorem State.setTile_xfers (k : Nat) (v : Tile) : (s.setTile k v).xfers = s.xfers := rfl
@[simp] theorem State.setTile_nextTid (k : Nat) (v : Tile) : (s.setTile k v).nextTid = s.nextTid := rfl
@[simp] theorem State.setTile_streams (k : Nat) (v : Tile) : (s.setTile k v).streams = s.streams := rfl
@[simp] theorem State.setTile_launches (k : Nat) (v : Tile) : (s.setTile k v).launches = s.launches := rfl
@[simp] theorem State.setTile_reassemblies (k : Nat) (v : Tile) : (s.setTile k v).reassemblies = s.reassemblies := rfl
@[simp] theorem State.setTile_rxWait (k : Nat) (v : Tile) : (s.setTile k v).rxWait = s.rxWait := rfl
@[simp] theorem State.setTile_arrived (k : Nat) (v : Tile) : (s.setTile k v).arrived = s.arrived := rfl
@[simp] theorem State.setTile_accepted (k : Nat) (v : Tile) : (s.setTile k v).accepted = s.accepted := rfl
@[simp] theorem State.setTile_shardFailed (k : Nat) (v : Tile) : (s.setTile k v).shardFailed = s.shardFailed := rfl
@[simp] theorem State.setTile_lark (k : Nat) (v : Tile) : (s.setTile k v).lark = s.lark := rfl
@[simp] theorem State.setTile_rings (k : Nat) (v : Tile) : (s.setTile k v).rings = s.rings := rfl
@[simp] theorem State.setTile_intakes (k : Nat) (v : Tile) : (s.setTile k v).intakes = s.intakes := rfl
@[simp] theorem State.setTile_publishes (k : Nat) (v : Tile) : (s.setTile k v).publishes = s.publishes := rfl
@[simp] theorem State.setTile_d3hot (k : Nat) (v : Tile) : (s.setTile k v).d3hot = s.d3hot := rfl
@[simp] theorem State.setTile_cfg (k : Nat) (v : Tile) : (s.setTile k v).cfg = s.cfg := rfl
@[simp] theorem State.setTile_maxRead (k : Nat) (v : Tile) : (s.setTile k v).maxRead = s.maxRead := rfl
@[simp] theorem State.setTile_maxPayload (k : Nat) (v : Tile) : (s.setTile k v).maxPayload = s.maxPayload := rfl
@[simp] theorem State.setTile_scaleFail (k : Nat) (v : Tile) : (s.setTile k v).scaleFail = s.scaleFail := rfl
@[simp] theorem State.setTile_tileFail (k : Nat) (v : Tile) : (s.setTile k v).tileFail = s.tileFail := rfl
@[simp] theorem State.setTile_objs (k : Nat) (v : Tile) : (s.setTile k v).objs = s.objs := rfl
@[simp] theorem State.setTile_causes (k : Nat) (v : Tile) : (s.setTile k v).causes = s.causes := rfl
@[simp] theorem State.setTile_fwCores (k : Nat) (v : Tile) : (s.setTile k v).fwCores = s.fwCores := rfl
@[simp] theorem State.setTile_boot (k : Nat) (v : Tile) : (s.setTile k v).boot = s.boot := rfl
@[simp] theorem State.setTile_bring (k : Nat) (v : Tile) : (s.setTile k v).bring = s.bring := rfl
@[simp] theorem State.setTile_fresets (k : Nat) (v : Tile) : (s.setTile k v).fresets = s.fresets := rfl
@[simp] theorem State.setTile_flash (k : Nat) (v : Tile) : (s.setTile k v).flash = s.flash := rfl
@[simp] theorem State.setTile_ronbin (k : Nat) (v : Tile) : (s.setTile k v).ronbin = s.ronbin := rfl

/-! `setCtx` -/
@[simp] theorem State.setCtx_pending (k : Nat) (v : Ctx) : (s.setCtx k v).pending = s.pending := rfl
@[simp] theorem State.setCtx_freeCount (k : Nat) (v : Ctx) : (s.setCtx k v).freeCount = s.freeCount := rfl
@[simp] theorem State.setCtx_out (k : Nat) (v : Ctx) : (s.setCtx k v).out = s.out := rfl
@[simp] theorem State.setCtx_regs (k : Nat) (v : Ctx) : (s.setCtx k v).regs = s.regs := rfl
@[simp] theorem State.setCtx_mem (k : Nat) (v : Ctx) : (s.setCtx k v).mem = s.mem := rfl
@[simp] theorem State.setCtx_badWords (k : Nat) (v : Ctx) : (s.setCtx k v).badWords = s.badWords := rfl
@[simp] theorem State.setCtx_threads (k : Nat) (v : Ctx) : (s.setCtx k v).threads = s.threads := rfl
@[simp] theorem State.setCtx_tiles (k : Nat) (v : Ctx) : (s.setCtx k v).tiles = s.tiles := rfl
@[simp] theorem State.setCtx_hamper (k : Nat) (v : Ctx) : (s.setCtx k v).hamper = s.hamper := rfl
@[simp] theorem State.setCtx_roots (k : Nat) (v : Ctx) : (s.setCtx k v).roots = s.roots := rfl
@[simp] theorem State.setCtx_log (k : Nat) (v : Ctx) : (s.setCtx k v).log = s.log := rfl
@[simp] theorem State.setCtx_hist (k : Nat) (v : Ctx) : (s.setCtx k v).hist = s.hist := rfl
@[simp] theorem State.setCtx_notices (k : Nat) (v : Ctx) : (s.setCtx k v).notices = s.notices := rfl
@[simp] theorem State.setCtx_faultLow (k : Nat) (v : Ctx) : (s.setCtx k v).faultLow = s.faultLow := rfl
@[simp] theorem State.setCtx_stopFrozen (k : Nat) (v : Ctx) : (s.setCtx k v).stopFrozen = s.stopFrozen := rfl
@[simp] theorem State.setCtx_vecCount (k : Nat) (v : Ctx) : (s.setCtx k v).vecCount = s.vecCount := rfl
@[simp] theorem State.setCtx_ports (k : Nat) (v : Ctx) : (s.setCtx k v).ports = s.ports := rfl
@[simp] theorem State.setCtx_coordKnown (k : Nat) (v : Ctx) : (s.setCtx k v).coordKnown = s.coordKnown := rfl
@[simp] theorem State.setCtx_lasers (k : Nat) (v : Ctx) : (s.setCtx k v).lasers = s.lasers := rfl
@[simp] theorem State.setCtx_stileAcks (k : Nat) (v : Ctx) : (s.setCtx k v).stileAcks = s.stileAcks := rfl
@[simp] theorem State.setCtx_xfers (k : Nat) (v : Ctx) : (s.setCtx k v).xfers = s.xfers := rfl
@[simp] theorem State.setCtx_nextTid (k : Nat) (v : Ctx) : (s.setCtx k v).nextTid = s.nextTid := rfl
@[simp] theorem State.setCtx_streams (k : Nat) (v : Ctx) : (s.setCtx k v).streams = s.streams := rfl
@[simp] theorem State.setCtx_launches (k : Nat) (v : Ctx) : (s.setCtx k v).launches = s.launches := rfl
@[simp] theorem State.setCtx_reassemblies (k : Nat) (v : Ctx) : (s.setCtx k v).reassemblies = s.reassemblies := rfl
@[simp] theorem State.setCtx_rxWait (k : Nat) (v : Ctx) : (s.setCtx k v).rxWait = s.rxWait := rfl
@[simp] theorem State.setCtx_arrived (k : Nat) (v : Ctx) : (s.setCtx k v).arrived = s.arrived := rfl
@[simp] theorem State.setCtx_accepted (k : Nat) (v : Ctx) : (s.setCtx k v).accepted = s.accepted := rfl
@[simp] theorem State.setCtx_shardFailed (k : Nat) (v : Ctx) : (s.setCtx k v).shardFailed = s.shardFailed := rfl
@[simp] theorem State.setCtx_lark (k : Nat) (v : Ctx) : (s.setCtx k v).lark = s.lark := rfl
@[simp] theorem State.setCtx_rings (k : Nat) (v : Ctx) : (s.setCtx k v).rings = s.rings := rfl
@[simp] theorem State.setCtx_intakes (k : Nat) (v : Ctx) : (s.setCtx k v).intakes = s.intakes := rfl
@[simp] theorem State.setCtx_publishes (k : Nat) (v : Ctx) : (s.setCtx k v).publishes = s.publishes := rfl
@[simp] theorem State.setCtx_d3hot (k : Nat) (v : Ctx) : (s.setCtx k v).d3hot = s.d3hot := rfl
@[simp] theorem State.setCtx_cfg (k : Nat) (v : Ctx) : (s.setCtx k v).cfg = s.cfg := rfl
@[simp] theorem State.setCtx_maxRead (k : Nat) (v : Ctx) : (s.setCtx k v).maxRead = s.maxRead := rfl
@[simp] theorem State.setCtx_maxPayload (k : Nat) (v : Ctx) : (s.setCtx k v).maxPayload = s.maxPayload := rfl
@[simp] theorem State.setCtx_scaleFail (k : Nat) (v : Ctx) : (s.setCtx k v).scaleFail = s.scaleFail := rfl
@[simp] theorem State.setCtx_tileFail (k : Nat) (v : Ctx) : (s.setCtx k v).tileFail = s.tileFail := rfl
@[simp] theorem State.setCtx_objs (k : Nat) (v : Ctx) : (s.setCtx k v).objs = s.objs := rfl
@[simp] theorem State.setCtx_causes (k : Nat) (v : Ctx) : (s.setCtx k v).causes = s.causes := rfl
@[simp] theorem State.setCtx_fwCores (k : Nat) (v : Ctx) : (s.setCtx k v).fwCores = s.fwCores := rfl
@[simp] theorem State.setCtx_boot (k : Nat) (v : Ctx) : (s.setCtx k v).boot = s.boot := rfl
@[simp] theorem State.setCtx_bring (k : Nat) (v : Ctx) : (s.setCtx k v).bring = s.bring := rfl
@[simp] theorem State.setCtx_fresets (k : Nat) (v : Ctx) : (s.setCtx k v).fresets = s.fresets := rfl
@[simp] theorem State.setCtx_flash (k : Nat) (v : Ctx) : (s.setCtx k v).flash = s.flash := rfl
@[simp] theorem State.setCtx_ronbin (k : Nat) (v : Ctx) : (s.setCtx k v).ronbin = s.ronbin := rfl

/-! `setSlice` -/
@[simp] theorem State.setSlice_pending (t c : Nat) (v : HSlice) : (s.setSlice t c v).pending = s.pending := rfl
@[simp] theorem State.setSlice_freeCount (t c : Nat) (v : HSlice) : (s.setSlice t c v).freeCount = s.freeCount := rfl
@[simp] theorem State.setSlice_out (t c : Nat) (v : HSlice) : (s.setSlice t c v).out = s.out := rfl
@[simp] theorem State.setSlice_regs (t c : Nat) (v : HSlice) : (s.setSlice t c v).regs = s.regs := rfl
@[simp] theorem State.setSlice_mem (t c : Nat) (v : HSlice) : (s.setSlice t c v).mem = s.mem := rfl
@[simp] theorem State.setSlice_badWords (t c : Nat) (v : HSlice) : (s.setSlice t c v).badWords = s.badWords := rfl
@[simp] theorem State.setSlice_threads (t c : Nat) (v : HSlice) : (s.setSlice t c v).threads = s.threads := rfl
@[simp] theorem State.setSlice_tiles (t c : Nat) (v : HSlice) : (s.setSlice t c v).tiles = s.tiles := rfl
@[simp] theorem State.setSlice_ctxs (t c : Nat) (v : HSlice) : (s.setSlice t c v).ctxs = s.ctxs := rfl
@[simp] theorem State.setSlice_roots (t c : Nat) (v : HSlice) : (s.setSlice t c v).roots = s.roots := rfl
@[simp] theorem State.setSlice_log (t c : Nat) (v : HSlice) : (s.setSlice t c v).log = s.log := rfl
@[simp] theorem State.setSlice_hist (t c : Nat) (v : HSlice) : (s.setSlice t c v).hist = s.hist := rfl
@[simp] theorem State.setSlice_notices (t c : Nat) (v : HSlice) : (s.setSlice t c v).notices = s.notices := rfl
@[simp] theorem State.setSlice_faultLow (t c : Nat) (v : HSlice) : (s.setSlice t c v).faultLow = s.faultLow := rfl
@[simp] theorem State.setSlice_stopFrozen (t c : Nat) (v : HSlice) : (s.setSlice t c v).stopFrozen = s.stopFrozen := rfl
@[simp] theorem State.setSlice_vecCount (t c : Nat) (v : HSlice) : (s.setSlice t c v).vecCount = s.vecCount := rfl
@[simp] theorem State.setSlice_ports (t c : Nat) (v : HSlice) : (s.setSlice t c v).ports = s.ports := rfl
@[simp] theorem State.setSlice_coordKnown (t c : Nat) (v : HSlice) : (s.setSlice t c v).coordKnown = s.coordKnown := rfl
@[simp] theorem State.setSlice_lasers (t c : Nat) (v : HSlice) : (s.setSlice t c v).lasers = s.lasers := rfl
@[simp] theorem State.setSlice_stileAcks (t c : Nat) (v : HSlice) : (s.setSlice t c v).stileAcks = s.stileAcks := rfl
@[simp] theorem State.setSlice_xfers (t c : Nat) (v : HSlice) : (s.setSlice t c v).xfers = s.xfers := rfl
@[simp] theorem State.setSlice_nextTid (t c : Nat) (v : HSlice) : (s.setSlice t c v).nextTid = s.nextTid := rfl
@[simp] theorem State.setSlice_streams (t c : Nat) (v : HSlice) : (s.setSlice t c v).streams = s.streams := rfl
@[simp] theorem State.setSlice_launches (t c : Nat) (v : HSlice) : (s.setSlice t c v).launches = s.launches := rfl
@[simp] theorem State.setSlice_reassemblies (t c : Nat) (v : HSlice) : (s.setSlice t c v).reassemblies = s.reassemblies := rfl
@[simp] theorem State.setSlice_rxWait (t c : Nat) (v : HSlice) : (s.setSlice t c v).rxWait = s.rxWait := rfl
@[simp] theorem State.setSlice_arrived (t c : Nat) (v : HSlice) : (s.setSlice t c v).arrived = s.arrived := rfl
@[simp] theorem State.setSlice_accepted (t c : Nat) (v : HSlice) : (s.setSlice t c v).accepted = s.accepted := rfl
@[simp] theorem State.setSlice_shardFailed (t c : Nat) (v : HSlice) : (s.setSlice t c v).shardFailed = s.shardFailed := rfl
@[simp] theorem State.setSlice_lark (t c : Nat) (v : HSlice) : (s.setSlice t c v).lark = s.lark := rfl
@[simp] theorem State.setSlice_rings (t c : Nat) (v : HSlice) : (s.setSlice t c v).rings = s.rings := rfl
@[simp] theorem State.setSlice_intakes (t c : Nat) (v : HSlice) : (s.setSlice t c v).intakes = s.intakes := rfl
@[simp] theorem State.setSlice_publishes (t c : Nat) (v : HSlice) : (s.setSlice t c v).publishes = s.publishes := rfl
@[simp] theorem State.setSlice_d3hot (t c : Nat) (v : HSlice) : (s.setSlice t c v).d3hot = s.d3hot := rfl
@[simp] theorem State.setSlice_cfg (t c : Nat) (v : HSlice) : (s.setSlice t c v).cfg = s.cfg := rfl
@[simp] theorem State.setSlice_maxRead (t c : Nat) (v : HSlice) : (s.setSlice t c v).maxRead = s.maxRead := rfl
@[simp] theorem State.setSlice_maxPayload (t c : Nat) (v : HSlice) : (s.setSlice t c v).maxPayload = s.maxPayload := rfl
@[simp] theorem State.setSlice_scaleFail (t c : Nat) (v : HSlice) : (s.setSlice t c v).scaleFail = s.scaleFail := rfl
@[simp] theorem State.setSlice_tileFail (t c : Nat) (v : HSlice) : (s.setSlice t c v).tileFail = s.tileFail := rfl
@[simp] theorem State.setSlice_objs (t c : Nat) (v : HSlice) : (s.setSlice t c v).objs = s.objs := rfl
@[simp] theorem State.setSlice_causes (t c : Nat) (v : HSlice) : (s.setSlice t c v).causes = s.causes := rfl
@[simp] theorem State.setSlice_fwCores (t c : Nat) (v : HSlice) : (s.setSlice t c v).fwCores = s.fwCores := rfl
@[simp] theorem State.setSlice_boot (t c : Nat) (v : HSlice) : (s.setSlice t c v).boot = s.boot := rfl
@[simp] theorem State.setSlice_bring (t c : Nat) (v : HSlice) : (s.setSlice t c v).bring = s.bring := rfl
@[simp] theorem State.setSlice_fresets (t c : Nat) (v : HSlice) : (s.setSlice t c v).fresets = s.fresets := rfl
@[simp] theorem State.setSlice_flash (t c : Nat) (v : HSlice) : (s.setSlice t c v).flash = s.flash := rfl
@[simp] theorem State.setSlice_ronbin (t c : Nat) (v : HSlice) : (s.setSlice t c v).ronbin = s.ronbin := rfl

/-! `setRoot` -/
@[simp] theorem State.setRoot_pending (k : Nat) (v : RootEngine) : (s.setRoot k v).pending = s.pending := rfl
@[simp] theorem State.setRoot_freeCount (k : Nat) (v : RootEngine) : (s.setRoot k v).freeCount = s.freeCount := rfl
@[simp] theorem State.setRoot_out (k : Nat) (v : RootEngine) : (s.setRoot k v).out = s.out := rfl
@[simp] theorem State.setRoot_regs (k : Nat) (v : RootEngine) : (s.setRoot k v).regs = s.regs := rfl
@[simp] theorem State.setRoot_mem (k : Nat) (v : RootEngine) : (s.setRoot k v).mem = s.mem := rfl
@[simp] theorem State.setRoot_badWords (k : Nat) (v : RootEngine) : (s.setRoot k v).badWords = s.badWords := rfl
@[simp] theorem State.setRoot_threads (k : Nat) (v : RootEngine) : (s.setRoot k v).threads = s.threads := rfl
@[simp] theorem State.setRoot_tiles (k : Nat) (v : RootEngine) : (s.setRoot k v).tiles = s.tiles := rfl
@[simp] theorem State.setRoot_ctxs (k : Nat) (v : RootEngine) : (s.setRoot k v).ctxs = s.ctxs := rfl
@[simp] theorem State.setRoot_hamper (k : Nat) (v : RootEngine) : (s.setRoot k v).hamper = s.hamper := rfl
@[simp] theorem State.setRoot_log (k : Nat) (v : RootEngine) : (s.setRoot k v).log = s.log := rfl
@[simp] theorem State.setRoot_hist (k : Nat) (v : RootEngine) : (s.setRoot k v).hist = s.hist := rfl
@[simp] theorem State.setRoot_notices (k : Nat) (v : RootEngine) : (s.setRoot k v).notices = s.notices := rfl
@[simp] theorem State.setRoot_faultLow (k : Nat) (v : RootEngine) : (s.setRoot k v).faultLow = s.faultLow := rfl
@[simp] theorem State.setRoot_stopFrozen (k : Nat) (v : RootEngine) : (s.setRoot k v).stopFrozen = s.stopFrozen := rfl
@[simp] theorem State.setRoot_vecCount (k : Nat) (v : RootEngine) : (s.setRoot k v).vecCount = s.vecCount := rfl
@[simp] theorem State.setRoot_ports (k : Nat) (v : RootEngine) : (s.setRoot k v).ports = s.ports := rfl
@[simp] theorem State.setRoot_coordKnown (k : Nat) (v : RootEngine) : (s.setRoot k v).coordKnown = s.coordKnown := rfl
@[simp] theorem State.setRoot_lasers (k : Nat) (v : RootEngine) : (s.setRoot k v).lasers = s.lasers := rfl
@[simp] theorem State.setRoot_stileAcks (k : Nat) (v : RootEngine) : (s.setRoot k v).stileAcks = s.stileAcks := rfl
@[simp] theorem State.setRoot_xfers (k : Nat) (v : RootEngine) : (s.setRoot k v).xfers = s.xfers := rfl
@[simp] theorem State.setRoot_nextTid (k : Nat) (v : RootEngine) : (s.setRoot k v).nextTid = s.nextTid := rfl
@[simp] theorem State.setRoot_streams (k : Nat) (v : RootEngine) : (s.setRoot k v).streams = s.streams := rfl
@[simp] theorem State.setRoot_launches (k : Nat) (v : RootEngine) : (s.setRoot k v).launches = s.launches := rfl
@[simp] theorem State.setRoot_reassemblies (k : Nat) (v : RootEngine) : (s.setRoot k v).reassemblies = s.reassemblies := rfl
@[simp] theorem State.setRoot_rxWait (k : Nat) (v : RootEngine) : (s.setRoot k v).rxWait = s.rxWait := rfl
@[simp] theorem State.setRoot_arrived (k : Nat) (v : RootEngine) : (s.setRoot k v).arrived = s.arrived := rfl
@[simp] theorem State.setRoot_accepted (k : Nat) (v : RootEngine) : (s.setRoot k v).accepted = s.accepted := rfl
@[simp] theorem State.setRoot_shardFailed (k : Nat) (v : RootEngine) : (s.setRoot k v).shardFailed = s.shardFailed := rfl
@[simp] theorem State.setRoot_lark (k : Nat) (v : RootEngine) : (s.setRoot k v).lark = s.lark := rfl
@[simp] theorem State.setRoot_rings (k : Nat) (v : RootEngine) : (s.setRoot k v).rings = s.rings := rfl
@[simp] theorem State.setRoot_intakes (k : Nat) (v : RootEngine) : (s.setRoot k v).intakes = s.intakes := rfl
@[simp] theorem State.setRoot_publishes (k : Nat) (v : RootEngine) : (s.setRoot k v).publishes = s.publishes := rfl
@[simp] theorem State.setRoot_d3hot (k : Nat) (v : RootEngine) : (s.setRoot k v).d3hot = s.d3hot := rfl
@[simp] theorem State.setRoot_cfg (k : Nat) (v : RootEngine) : (s.setRoot k v).cfg = s.cfg := rfl
@[simp] theorem State.setRoot_maxRead (k : Nat) (v : RootEngine) : (s.setRoot k v).maxRead = s.maxRead := rfl
@[simp] theorem State.setRoot_maxPayload (k : Nat) (v : RootEngine) : (s.setRoot k v).maxPayload = s.maxPayload := rfl
@[simp] theorem State.setRoot_scaleFail (k : Nat) (v : RootEngine) : (s.setRoot k v).scaleFail = s.scaleFail := rfl
@[simp] theorem State.setRoot_tileFail (k : Nat) (v : RootEngine) : (s.setRoot k v).tileFail = s.tileFail := rfl
@[simp] theorem State.setRoot_objs (k : Nat) (v : RootEngine) : (s.setRoot k v).objs = s.objs := rfl
@[simp] theorem State.setRoot_causes (k : Nat) (v : RootEngine) : (s.setRoot k v).causes = s.causes := rfl
@[simp] theorem State.setRoot_fwCores (k : Nat) (v : RootEngine) : (s.setRoot k v).fwCores = s.fwCores := rfl
@[simp] theorem State.setRoot_boot (k : Nat) (v : RootEngine) : (s.setRoot k v).boot = s.boot := rfl
@[simp] theorem State.setRoot_bring (k : Nat) (v : RootEngine) : (s.setRoot k v).bring = s.bring := rfl
@[simp] theorem State.setRoot_fresets (k : Nat) (v : RootEngine) : (s.setRoot k v).fresets = s.fresets := rfl
@[simp] theorem State.setRoot_flash (k : Nat) (v : RootEngine) : (s.setRoot k v).flash = s.flash := rfl
@[simp] theorem State.setRoot_ronbin (k : Nat) (v : RootEngine) : (s.setRoot k v).ronbin = s.ronbin := rfl

/-! `setLogSlot` -/
@[simp] theorem State.setLogSlot_pending (k : Nat) (v : LogSlot) : (s.setLogSlot k v).pending = s.pending := rfl
@[simp] theorem State.setLogSlot_freeCount (k : Nat) (v : LogSlot) : (s.setLogSlot k v).freeCount = s.freeCount := rfl
@[simp] theorem State.setLogSlot_out (k : Nat) (v : LogSlot) : (s.setLogSlot k v).out = s.out := rfl
@[simp] theorem State.setLogSlot_regs (k : Nat) (v : LogSlot) : (s.setLogSlot k v).regs = s.regs := rfl
@[simp] theorem State.setLogSlot_mem (k : Nat) (v : LogSlot) : (s.setLogSlot k v).mem = s.mem := rfl
@[simp] theorem State.setLogSlot_badWords (k : Nat) (v : LogSlot) : (s.setLogSlot k v).badWords = s.badWords := rfl
@[simp] theorem State.setLogSlot_threads (k : Nat) (v : LogSlot) : (s.setLogSlot k v).threads = s.threads := rfl
@[simp] theorem State.setLogSlot_tiles (k : Nat) (v : LogSlot) : (s.setLogSlot k v).tiles = s.tiles := rfl
@[simp] theorem State.setLogSlot_ctxs (k : Nat) (v : LogSlot) : (s.setLogSlot k v).ctxs = s.ctxs := rfl
@[simp] theorem State.setLogSlot_hamper (k : Nat) (v : LogSlot) : (s.setLogSlot k v).hamper = s.hamper := rfl
@[simp] theorem State.setLogSlot_roots (k : Nat) (v : LogSlot) : (s.setLogSlot k v).roots = s.roots := rfl
@[simp] theorem State.setLogSlot_hist (k : Nat) (v : LogSlot) : (s.setLogSlot k v).hist = s.hist := rfl
@[simp] theorem State.setLogSlot_notices (k : Nat) (v : LogSlot) : (s.setLogSlot k v).notices = s.notices := rfl
@[simp] theorem State.setLogSlot_faultLow (k : Nat) (v : LogSlot) : (s.setLogSlot k v).faultLow = s.faultLow := rfl
@[simp] theorem State.setLogSlot_stopFrozen (k : Nat) (v : LogSlot) : (s.setLogSlot k v).stopFrozen = s.stopFrozen := rfl
@[simp] theorem State.setLogSlot_vecCount (k : Nat) (v : LogSlot) : (s.setLogSlot k v).vecCount = s.vecCount := rfl
@[simp] theorem State.setLogSlot_ports (k : Nat) (v : LogSlot) : (s.setLogSlot k v).ports = s.ports := rfl
@[simp] theorem State.setLogSlot_coordKnown (k : Nat) (v : LogSlot) : (s.setLogSlot k v).coordKnown = s.coordKnown := rfl
@[simp] theorem State.setLogSlot_lasers (k : Nat) (v : LogSlot) : (s.setLogSlot k v).lasers = s.lasers := rfl
@[simp] theorem State.setLogSlot_stileAcks (k : Nat) (v : LogSlot) : (s.setLogSlot k v).stileAcks = s.stileAcks := rfl
@[simp] theorem State.setLogSlot_xfers (k : Nat) (v : LogSlot) : (s.setLogSlot k v).xfers = s.xfers := rfl
@[simp] theorem State.setLogSlot_nextTid (k : Nat) (v : LogSlot) : (s.setLogSlot k v).nextTid = s.nextTid := rfl
@[simp] theorem State.setLogSlot_streams (k : Nat) (v : LogSlot) : (s.setLogSlot k v).streams = s.streams := rfl
@[simp] theorem State.setLogSlot_launches (k : Nat) (v : LogSlot) : (s.setLogSlot k v).launches = s.launches := rfl
@[simp] theorem State.setLogSlot_reassemblies (k : Nat) (v : LogSlot) : (s.setLogSlot k v).reassemblies = s.reassemblies := rfl
@[simp] theorem State.setLogSlot_rxWait (k : Nat) (v : LogSlot) : (s.setLogSlot k v).rxWait = s.rxWait := rfl
@[simp] theorem State.setLogSlot_arrived (k : Nat) (v : LogSlot) : (s.setLogSlot k v).arrived = s.arrived := rfl
@[simp] theorem State.setLogSlot_accepted (k : Nat) (v : LogSlot) : (s.setLogSlot k v).accepted = s.accepted := rfl
@[simp] theorem State.setLogSlot_shardFailed (k : Nat) (v : LogSlot) : (s.setLogSlot k v).shardFailed = s.shardFailed := rfl
@[simp] theorem State.setLogSlot_lark (k : Nat) (v : LogSlot) : (s.setLogSlot k v).lark = s.lark := rfl
@[simp] theorem State.setLogSlot_rings (k : Nat) (v : LogSlot) : (s.setLogSlot k v).rings = s.rings := rfl
@[simp] theorem State.setLogSlot_intakes (k : Nat) (v : LogSlot) : (s.setLogSlot k v).intakes = s.intakes := rfl
@[simp] theorem State.setLogSlot_publishes (k : Nat) (v : LogSlot) : (s.setLogSlot k v).publishes = s.publishes := rfl
@[simp] theorem State.setLogSlot_d3hot (k : Nat) (v : LogSlot) : (s.setLogSlot k v).d3hot = s.d3hot := rfl
@[simp] theorem State.setLogSlot_cfg (k : Nat) (v : LogSlot) : (s.setLogSlot k v).cfg = s.cfg := rfl
@[simp] theorem State.setLogSlot_maxRead (k : Nat) (v : LogSlot) : (s.setLogSlot k v).maxRead = s.maxRead := rfl
@[simp] theorem State.setLogSlot_maxPayload (k : Nat) (v : LogSlot) : (s.setLogSlot k v).maxPayload = s.maxPayload := rfl
@[simp] theorem State.setLogSlot_scaleFail (k : Nat) (v : LogSlot) : (s.setLogSlot k v).scaleFail = s.scaleFail := rfl
@[simp] theorem State.setLogSlot_tileFail (k : Nat) (v : LogSlot) : (s.setLogSlot k v).tileFail = s.tileFail := rfl
@[simp] theorem State.setLogSlot_objs (k : Nat) (v : LogSlot) : (s.setLogSlot k v).objs = s.objs := rfl
@[simp] theorem State.setLogSlot_causes (k : Nat) (v : LogSlot) : (s.setLogSlot k v).causes = s.causes := rfl
@[simp] theorem State.setLogSlot_fwCores (k : Nat) (v : LogSlot) : (s.setLogSlot k v).fwCores = s.fwCores := rfl
@[simp] theorem State.setLogSlot_boot (k : Nat) (v : LogSlot) : (s.setLogSlot k v).boot = s.boot := rfl
@[simp] theorem State.setLogSlot_bring (k : Nat) (v : LogSlot) : (s.setLogSlot k v).bring = s.bring := rfl
@[simp] theorem State.setLogSlot_fresets (k : Nat) (v : LogSlot) : (s.setLogSlot k v).fresets = s.fresets := rfl
@[simp] theorem State.setLogSlot_flash (k : Nat) (v : LogSlot) : (s.setLogSlot k v).flash = s.flash := rfl
@[simp] theorem State.setLogSlot_ronbin (k : Nat) (v : LogSlot) : (s.setLogSlot k v).ronbin = s.ronbin := rfl

/-! `setPort` -/
@[simp] theorem State.setPort_pending (k : Nat) (v : Port) : (s.setPort k v).pending = s.pending := rfl
@[simp] theorem State.setPort_freeCount (k : Nat) (v : Port) : (s.setPort k v).freeCount = s.freeCount := rfl
@[simp] theorem State.setPort_out (k : Nat) (v : Port) : (s.setPort k v).out = s.out := rfl
@[simp] theorem State.setPort_regs (k : Nat) (v : Port) : (s.setPort k v).regs = s.regs := rfl
@[simp] theorem State.setPort_mem (k : Nat) (v : Port) : (s.setPort k v).mem = s.mem := rfl
@[simp] theorem State.setPort_badWords (k : Nat) (v : Port) : (s.setPort k v).badWords = s.badWords := rfl
@[simp] theorem State.setPort_threads (k : Nat) (v : Port) : (s.setPort k v).threads = s.threads := rfl
@[simp] theorem State.setPort_tiles (k : Nat) (v : Port) : (s.setPort k v).tiles = s.tiles := rfl
@[simp] theorem State.setPort_ctxs (k : Nat) (v : Port) : (s.setPort k v).ctxs = s.ctxs := rfl
@[simp] theorem State.setPort_hamper (k : Nat) (v : Port) : (s.setPort k v).hamper = s.hamper := rfl
@[simp] theorem State.setPort_roots (k : Nat) (v : Port) : (s.setPort k v).roots = s.roots := rfl
@[simp] theorem State.setPort_log (k : Nat) (v : Port) : (s.setPort k v).log = s.log := rfl
@[simp] theorem State.setPort_hist (k : Nat) (v : Port) : (s.setPort k v).hist = s.hist := rfl
@[simp] theorem State.setPort_notices (k : Nat) (v : Port) : (s.setPort k v).notices = s.notices := rfl
@[simp] theorem State.setPort_faultLow (k : Nat) (v : Port) : (s.setPort k v).faultLow = s.faultLow := rfl
@[simp] theorem State.setPort_stopFrozen (k : Nat) (v : Port) : (s.setPort k v).stopFrozen = s.stopFrozen := rfl
@[simp] theorem State.setPort_vecCount (k : Nat) (v : Port) : (s.setPort k v).vecCount = s.vecCount := rfl
@[simp] theorem State.setPort_coordKnown (k : Nat) (v : Port) : (s.setPort k v).coordKnown = s.coordKnown := rfl
@[simp] theorem State.setPort_lasers (k : Nat) (v : Port) : (s.setPort k v).lasers = s.lasers := rfl
@[simp] theorem State.setPort_stileAcks (k : Nat) (v : Port) : (s.setPort k v).stileAcks = s.stileAcks := rfl
@[simp] theorem State.setPort_xfers (k : Nat) (v : Port) : (s.setPort k v).xfers = s.xfers := rfl
@[simp] theorem State.setPort_nextTid (k : Nat) (v : Port) : (s.setPort k v).nextTid = s.nextTid := rfl
@[simp] theorem State.setPort_streams (k : Nat) (v : Port) : (s.setPort k v).streams = s.streams := rfl
@[simp] theorem State.setPort_launches (k : Nat) (v : Port) : (s.setPort k v).launches = s.launches := rfl
@[simp] theorem State.setPort_reassemblies (k : Nat) (v : Port) : (s.setPort k v).reassemblies = s.reassemblies := rfl
@[simp] theorem State.setPort_rxWait (k : Nat) (v : Port) : (s.setPort k v).rxWait = s.rxWait := rfl
@[simp] theorem State.setPort_arrived (k : Nat) (v : Port) : (s.setPort k v).arrived = s.arrived := rfl
@[simp] theorem State.setPort_accepted (k : Nat) (v : Port) : (s.setPort k v).accepted = s.accepted := rfl
@[simp] theorem State.setPort_shardFailed (k : Nat) (v : Port) : (s.setPort k v).shardFailed = s.shardFailed := rfl
@[simp] theorem State.setPort_lark (k : Nat) (v : Port) : (s.setPort k v).lark = s.lark := rfl
@[simp] theorem State.setPort_rings (k : Nat) (v : Port) : (s.setPort k v).rings = s.rings := rfl
@[simp] theorem State.setPort_intakes (k : Nat) (v : Port) : (s.setPort k v).intakes = s.intakes := rfl
@[simp] theorem State.setPort_publishes (k : Nat) (v : Port) : (s.setPort k v).publishes = s.publishes := rfl
@[simp] theorem State.setPort_d3hot (k : Nat) (v : Port) : (s.setPort k v).d3hot = s.d3hot := rfl
@[simp] theorem State.setPort_cfg (k : Nat) (v : Port) : (s.setPort k v).cfg = s.cfg := rfl
@[simp] theorem State.setPort_maxRead (k : Nat) (v : Port) : (s.setPort k v).maxRead = s.maxRead := rfl
@[simp] theorem State.setPort_maxPayload (k : Nat) (v : Port) : (s.setPort k v).maxPayload = s.maxPayload := rfl
@[simp] theorem State.setPort_scaleFail (k : Nat) (v : Port) : (s.setPort k v).scaleFail = s.scaleFail := rfl
@[simp] theorem State.setPort_tileFail (k : Nat) (v : Port) : (s.setPort k v).tileFail = s.tileFail := rfl
@[simp] theorem State.setPort_objs (k : Nat) (v : Port) : (s.setPort k v).objs = s.objs := rfl
@[simp] theorem State.setPort_causes (k : Nat) (v : Port) : (s.setPort k v).causes = s.causes := rfl
@[simp] theorem State.setPort_fwCores (k : Nat) (v : Port) : (s.setPort k v).fwCores = s.fwCores := rfl
@[simp] theorem State.setPort_boot (k : Nat) (v : Port) : (s.setPort k v).boot = s.boot := rfl
@[simp] theorem State.setPort_bring (k : Nat) (v : Port) : (s.setPort k v).bring = s.bring := rfl
@[simp] theorem State.setPort_fresets (k : Nat) (v : Port) : (s.setPort k v).fresets = s.fresets := rfl
@[simp] theorem State.setPort_flash (k : Nat) (v : Port) : (s.setPort k v).flash = s.flash := rfl
@[simp] theorem State.setPort_ronbin (k : Nat) (v : Port) : (s.setPort k v).ronbin = s.ronbin := rfl

/-! `setRing` -/
@[simp] theorem State.setRing_pending (k : Nat) (v : Ring) : (s.setRing k v).pending = s.pending := rfl
@[simp] theorem State.setRing_freeCount (k : Nat) (v : Ring) : (s.setRing k v).freeCount = s.freeCount := rfl
@[simp] theorem State.setRing_out (k : Nat) (v : Ring) : (s.setRing k v).out = s.out := rfl
@[simp] theorem State.setRing_regs (k : Nat) (v : Ring) : (s.setRing k v).regs = s.regs := rfl
@[simp] theorem State.setRing_mem (k : Nat) (v : Ring) : (s.setRing k v).mem = s.mem := rfl
@[simp] theorem State.setRing_badWords (k : Nat) (v : Ring) : (s.setRing k v).badWords = s.badWords := rfl
@[simp] theorem State.setRing_threads (k : Nat) (v : Ring) : (s.setRing k v).threads = s.threads := rfl
@[simp] theorem State.setRing_tiles (k : Nat) (v : Ring) : (s.setRing k v).tiles = s.tiles := rfl
@[simp] theorem State.setRing_ctxs (k : Nat) (v : Ring) : (s.setRing k v).ctxs = s.ctxs := rfl
@[simp] theorem State.setRing_hamper (k : Nat) (v : Ring) : (s.setRing k v).hamper = s.hamper := rfl
@[simp] theorem State.setRing_roots (k : Nat) (v : Ring) : (s.setRing k v).roots = s.roots := rfl
@[simp] theorem State.setRing_log (k : Nat) (v : Ring) : (s.setRing k v).log = s.log := rfl
@[simp] theorem State.setRing_hist (k : Nat) (v : Ring) : (s.setRing k v).hist = s.hist := rfl
@[simp] theorem State.setRing_notices (k : Nat) (v : Ring) : (s.setRing k v).notices = s.notices := rfl
@[simp] theorem State.setRing_faultLow (k : Nat) (v : Ring) : (s.setRing k v).faultLow = s.faultLow := rfl
@[simp] theorem State.setRing_stopFrozen (k : Nat) (v : Ring) : (s.setRing k v).stopFrozen = s.stopFrozen := rfl
@[simp] theorem State.setRing_vecCount (k : Nat) (v : Ring) : (s.setRing k v).vecCount = s.vecCount := rfl
@[simp] theorem State.setRing_ports (k : Nat) (v : Ring) : (s.setRing k v).ports = s.ports := rfl
@[simp] theorem State.setRing_coordKnown (k : Nat) (v : Ring) : (s.setRing k v).coordKnown = s.coordKnown := rfl
@[simp] theorem State.setRing_lasers (k : Nat) (v : Ring) : (s.setRing k v).lasers = s.lasers := rfl
@[simp] theorem State.setRing_stileAcks (k : Nat) (v : Ring) : (s.setRing k v).stileAcks = s.stileAcks := rfl
@[simp] theorem State.setRing_xfers (k : Nat) (v : Ring) : (s.setRing k v).xfers = s.xfers := rfl
@[simp] theorem State.setRing_nextTid (k : Nat) (v : Ring) : (s.setRing k v).nextTid = s.nextTid := rfl
@[simp] theorem State.setRing_streams (k : Nat) (v : Ring) : (s.setRing k v).streams = s.streams := rfl
@[simp] theorem State.setRing_launches (k : Nat) (v : Ring) : (s.setRing k v).launches = s.launches := rfl
@[simp] theorem State.setRing_reassemblies (k : Nat) (v : Ring) : (s.setRing k v).reassemblies = s.reassemblies := rfl
@[simp] theorem State.setRing_rxWait (k : Nat) (v : Ring) : (s.setRing k v).rxWait = s.rxWait := rfl
@[simp] theorem State.setRing_arrived (k : Nat) (v : Ring) : (s.setRing k v).arrived = s.arrived := rfl
@[simp] theorem State.setRing_accepted (k : Nat) (v : Ring) : (s.setRing k v).accepted = s.accepted := rfl
@[simp] theorem State.setRing_shardFailed (k : Nat) (v : Ring) : (s.setRing k v).shardFailed = s.shardFailed := rfl
@[simp] theorem State.setRing_lark (k : Nat) (v : Ring) : (s.setRing k v).lark = s.lark := rfl
@[simp] theorem State.setRing_intakes (k : Nat) (v : Ring) : (s.setRing k v).intakes = s.intakes := rfl
@[simp] theorem State.setRing_publishes (k : Nat) (v : Ring) : (s.setRing k v).publishes = s.publishes := rfl
@[simp] theorem State.setRing_d3hot (k : Nat) (v : Ring) : (s.setRing k v).d3hot = s.d3hot := rfl
@[simp] theorem State.setRing_cfg (k : Nat) (v : Ring) : (s.setRing k v).cfg = s.cfg := rfl
@[simp] theorem State.setRing_maxRead (k : Nat) (v : Ring) : (s.setRing k v).maxRead = s.maxRead := rfl
@[simp] theorem State.setRing_maxPayload (k : Nat) (v : Ring) : (s.setRing k v).maxPayload = s.maxPayload := rfl
@[simp] theorem State.setRing_scaleFail (k : Nat) (v : Ring) : (s.setRing k v).scaleFail = s.scaleFail := rfl
@[simp] theorem State.setRing_tileFail (k : Nat) (v : Ring) : (s.setRing k v).tileFail = s.tileFail := rfl
@[simp] theorem State.setRing_objs (k : Nat) (v : Ring) : (s.setRing k v).objs = s.objs := rfl
@[simp] theorem State.setRing_causes (k : Nat) (v : Ring) : (s.setRing k v).causes = s.causes := rfl
@[simp] theorem State.setRing_fwCores (k : Nat) (v : Ring) : (s.setRing k v).fwCores = s.fwCores := rfl
@[simp] theorem State.setRing_boot (k : Nat) (v : Ring) : (s.setRing k v).boot = s.boot := rfl
@[simp] theorem State.setRing_bring (k : Nat) (v : Ring) : (s.setRing k v).bring = s.bring := rfl
@[simp] theorem State.setRing_fresets (k : Nat) (v : Ring) : (s.setRing k v).fresets = s.fresets := rfl
@[simp] theorem State.setRing_flash (k : Nat) (v : Ring) : (s.setRing k v).flash = s.flash := rfl
@[simp] theorem State.setRing_ronbin (k : Nat) (v : Ring) : (s.setRing k v).ronbin = s.ronbin := rfl

/-! `setObj` -/
@[simp] theorem State.setObj_pending (k v : Nat) : (s.setObj k v).pending = s.pending := rfl
@[simp] theorem State.setObj_freeCount (k v : Nat) : (s.setObj k v).freeCount = s.freeCount := rfl
@[simp] theorem State.setObj_out (k v : Nat) : (s.setObj k v).out = s.out := rfl
@[simp] theorem State.setObj_regs (k v : Nat) : (s.setObj k v).regs = s.regs := rfl
@[simp] theorem State.setObj_mem (k v : Nat) : (s.setObj k v).mem = s.mem := rfl
@[simp] theorem State.setObj_badWords (k v : Nat) : (s.setObj k v).badWords = s.badWords := rfl
@[simp] theorem State.setObj_threads (k v : Nat) : (s.setObj k v).threads = s.threads := rfl
@[simp] theorem State.setObj_tiles (k v : Nat) : (s.setObj k v).tiles = s.tiles := rfl
@[simp] theorem State.setObj_ctxs (k v : Nat) : (s.setObj k v).ctxs = s.ctxs := rfl
@[simp] theorem State.setObj_hamper (k v : Nat) : (s.setObj k v).hamper = s.hamper := rfl
@[simp] theorem State.setObj_roots (k v : Nat) : (s.setObj k v).roots = s.roots := rfl
@[simp] theorem State.setObj_log (k v : Nat) : (s.setObj k v).log = s.log := rfl
@[simp] theorem State.setObj_hist (k v : Nat) : (s.setObj k v).hist = s.hist := rfl
@[simp] theorem State.setObj_notices (k v : Nat) : (s.setObj k v).notices = s.notices := rfl
@[simp] theorem State.setObj_faultLow (k v : Nat) : (s.setObj k v).faultLow = s.faultLow := rfl
@[simp] theorem State.setObj_stopFrozen (k v : Nat) : (s.setObj k v).stopFrozen = s.stopFrozen := rfl
@[simp] theorem State.setObj_vecCount (k v : Nat) : (s.setObj k v).vecCount = s.vecCount := rfl
@[simp] theorem State.setObj_ports (k v : Nat) : (s.setObj k v).ports = s.ports := rfl
@[simp] theorem State.setObj_coordKnown (k v : Nat) : (s.setObj k v).coordKnown = s.coordKnown := rfl
@[simp] theorem State.setObj_lasers (k v : Nat) : (s.setObj k v).lasers = s.lasers := rfl
@[simp] theorem State.setObj_stileAcks (k v : Nat) : (s.setObj k v).stileAcks = s.stileAcks := rfl
@[simp] theorem State.setObj_xfers (k v : Nat) : (s.setObj k v).xfers = s.xfers := rfl
@[simp] theorem State.setObj_nextTid (k v : Nat) : (s.setObj k v).nextTid = s.nextTid := rfl
@[simp] theorem State.setObj_streams (k v : Nat) : (s.setObj k v).streams = s.streams := rfl
@[simp] theorem State.setObj_launches (k v : Nat) : (s.setObj k v).launches = s.launches := rfl
@[simp] theorem State.setObj_reassemblies (k v : Nat) : (s.setObj k v).reassemblies = s.reassemblies := rfl
@[simp] theorem State.setObj_rxWait (k v : Nat) : (s.setObj k v).rxWait = s.rxWait := rfl
@[simp] theorem State.setObj_arrived (k v : Nat) : (s.setObj k v).arrived = s.arrived := rfl
@[simp] theorem State.setObj_accepted (k v : Nat) : (s.setObj k v).accepted = s.accepted := rfl
@[simp] theorem State.setObj_shardFailed (k v : Nat) : (s.setObj k v).shardFailed = s.shardFailed := rfl
@[simp] theorem State.setObj_lark (k v : Nat) : (s.setObj k v).lark = s.lark := rfl
@[simp] theorem State.setObj_rings (k v : Nat) : (s.setObj k v).rings = s.rings := rfl
@[simp] theorem State.setObj_intakes (k v : Nat) : (s.setObj k v).intakes = s.intakes := rfl
@[simp] theorem State.setObj_publishes (k v : Nat) : (s.setObj k v).publishes = s.publishes := rfl
@[simp] theorem State.setObj_d3hot (k v : Nat) : (s.setObj k v).d3hot = s.d3hot := rfl
@[simp] theorem State.setObj_cfg (k v : Nat) : (s.setObj k v).cfg = s.cfg := rfl
@[simp] theorem State.setObj_maxRead (k v : Nat) : (s.setObj k v).maxRead = s.maxRead := rfl
@[simp] theorem State.setObj_maxPayload (k v : Nat) : (s.setObj k v).maxPayload = s.maxPayload := rfl
@[simp] theorem State.setObj_scaleFail (k v : Nat) : (s.setObj k v).scaleFail = s.scaleFail := rfl
@[simp] theorem State.setObj_tileFail (k v : Nat) : (s.setObj k v).tileFail = s.tileFail := rfl
@[simp] theorem State.setObj_causes (k v : Nat) : (s.setObj k v).causes = s.causes := rfl
@[simp] theorem State.setObj_fwCores (k v : Nat) : (s.setObj k v).fwCores = s.fwCores := rfl
@[simp] theorem State.setObj_boot (k v : Nat) : (s.setObj k v).boot = s.boot := rfl
@[simp] theorem State.setObj_bring (k v : Nat) : (s.setObj k v).bring = s.bring := rfl
@[simp] theorem State.setObj_fresets (k v : Nat) : (s.setObj k v).fresets = s.fresets := rfl
@[simp] theorem State.setObj_flash (k v : Nat) : (s.setObj k v).flash = s.flash := rfl
@[simp] theorem State.setObj_ronbin (k v : Nat) : (s.setObj k v).ronbin = s.ronbin := rfl

/-! `modThread` -/
@[simp] theorem State.modThread_pending (k : Nat) (f : Thread → Thread) : (s.modThread k f).pending = s.pending := rfl
@[simp] theorem State.modThread_freeCount (k : Nat) (f : Thread → Thread) : (s.modThread k f).freeCount = s.freeCount := rfl
@[simp] theorem State.modThread_out (k : Nat) (f : Thread → Thread) : (s.modThread k f).out = s.out := rfl
@[simp] theorem State.modThread_regs (k : Nat) (f : Thread → Thread) : (s.modThread k f).regs = s.regs := rfl
@[simp] theorem State.modThread_mem (k : Nat) (f : Thread → Thread) : (s.modThread k f).mem = s.mem := rfl
@[simp] theorem State.modThread_badWords (k : Nat) (f : Thread → Thread) : (s.modThread k f).badWords = s.badWords := rfl
@[simp] theorem State.modThread_tiles (k : Nat) (f : Thread → Thread) : (s.modThread k f).tiles = s.tiles := rfl
@[simp] theorem State.modThread_ctxs (k : Nat) (f : Thread → Thread) : (s.modThread k f).ctxs = s.ctxs := rfl
@[simp] theorem State.modThread_hamper (k : Nat) (f : Thread → Thread) : (s.modThread k f).hamper = s.hamper := rfl
@[simp] theorem State.modThread_roots (k : Nat) (f : Thread → Thread) : (s.modThread k f).roots = s.roots := rfl
@[simp] theorem State.modThread_log (k : Nat) (f : Thread → Thread) : (s.modThread k f).log = s.log := rfl
@[simp] theorem State.modThread_hist (k : Nat) (f : Thread → Thread) : (s.modThread k f).hist = s.hist := rfl
@[simp] theorem State.modThread_notices (k : Nat) (f : Thread → Thread) : (s.modThread k f).notices = s.notices := rfl
@[simp] theorem State.modThread_faultLow (k : Nat) (f : Thread → Thread) : (s.modThread k f).faultLow = s.faultLow := rfl
@[simp] theorem State.modThread_stopFrozen (k : Nat) (f : Thread → Thread) : (s.modThread k f).stopFrozen = s.stopFrozen := rfl
@[simp] theorem State.modThread_vecCount (k : Nat) (f : Thread → Thread) : (s.modThread k f).vecCount = s.vecCount := rfl
@[simp] theorem State.modThread_ports (k : Nat) (f : Thread → Thread) : (s.modThread k f).ports = s.ports := rfl
@[simp] theorem State.modThread_coordKnown (k : Nat) (f : Thread → Thread) : (s.modThread k f).coordKnown = s.coordKnown := rfl
@[simp] theorem State.modThread_lasers (k : Nat) (f : Thread → Thread) : (s.modThread k f).lasers = s.lasers := rfl
@[simp] theorem State.modThread_stileAcks (k : Nat) (f : Thread → Thread) : (s.modThread k f).stileAcks = s.stileAcks := rfl
@[simp] theorem State.modThread_xfers (k : Nat) (f : Thread → Thread) : (s.modThread k f).xfers = s.xfers := rfl
@[simp] theorem State.modThread_nextTid (k : Nat) (f : Thread → Thread) : (s.modThread k f).nextTid = s.nextTid := rfl
@[simp] theorem State.modThread_streams (k : Nat) (f : Thread → Thread) : (s.modThread k f).streams = s.streams := rfl
@[simp] theorem State.modThread_launches (k : Nat) (f : Thread → Thread) : (s.modThread k f).launches = s.launches := rfl
@[simp] theorem State.modThread_reassemblies (k : Nat) (f : Thread → Thread) : (s.modThread k f).reassemblies = s.reassemblies := rfl
@[simp] theorem State.modThread_rxWait (k : Nat) (f : Thread → Thread) : (s.modThread k f).rxWait = s.rxWait := rfl
@[simp] theorem State.modThread_arrived (k : Nat) (f : Thread → Thread) : (s.modThread k f).arrived = s.arrived := rfl
@[simp] theorem State.modThread_accepted (k : Nat) (f : Thread → Thread) : (s.modThread k f).accepted = s.accepted := rfl
@[simp] theorem State.modThread_shardFailed (k : Nat) (f : Thread → Thread) : (s.modThread k f).shardFailed = s.shardFailed := rfl
@[simp] theorem State.modThread_lark (k : Nat) (f : Thread → Thread) : (s.modThread k f).lark = s.lark := rfl
@[simp] theorem State.modThread_rings (k : Nat) (f : Thread → Thread) : (s.modThread k f).rings = s.rings := rfl
@[simp] theorem State.modThread_intakes (k : Nat) (f : Thread → Thread) : (s.modThread k f).intakes = s.intakes := rfl
@[simp] theorem State.modThread_publishes (k : Nat) (f : Thread → Thread) : (s.modThread k f).publishes = s.publishes := rfl
@[simp] theorem State.modThread_d3hot (k : Nat) (f : Thread → Thread) : (s.modThread k f).d3hot = s.d3hot := rfl
@[simp] theorem State.modThread_cfg (k : Nat) (f : Thread → Thread) : (s.modThread k f).cfg = s.cfg := rfl
@[simp] theorem State.modThread_maxRead (k : Nat) (f : Thread → Thread) : (s.modThread k f).maxRead = s.maxRead := rfl
@[simp] theorem State.modThread_maxPayload (k : Nat) (f : Thread → Thread) : (s.modThread k f).maxPayload = s.maxPayload := rfl
@[simp] theorem State.modThread_scaleFail (k : Nat) (f : Thread → Thread) : (s.modThread k f).scaleFail = s.scaleFail := rfl
@[simp] theorem State.modThread_tileFail (k : Nat) (f : Thread → Thread) : (s.modThread k f).tileFail = s.tileFail := rfl
@[simp] theorem State.modThread_objs (k : Nat) (f : Thread → Thread) : (s.modThread k f).objs = s.objs := rfl
@[simp] theorem State.modThread_causes (k : Nat) (f : Thread → Thread) : (s.modThread k f).causes = s.causes := rfl
@[simp] theorem State.modThread_fwCores (k : Nat) (f : Thread → Thread) : (s.modThread k f).fwCores = s.fwCores := rfl
@[simp] theorem State.modThread_boot (k : Nat) (f : Thread → Thread) : (s.modThread k f).boot = s.boot := rfl
@[simp] theorem State.modThread_bring (k : Nat) (f : Thread → Thread) : (s.modThread k f).bring = s.bring := rfl
@[simp] theorem State.modThread_fresets (k : Nat) (f : Thread → Thread) : (s.modThread k f).fresets = s.fresets := rfl
@[simp] theorem State.modThread_flash (k : Nat) (f : Thread → Thread) : (s.modThread k f).flash = s.flash := rfl
@[simp] theorem State.modThread_ronbin (k : Nat) (f : Thread → Thread) : (s.modThread k f).ronbin = s.ronbin := rfl

/-! `modTile` -/
@[simp] theorem State.modTile_pending (k : Nat) (f : Tile → Tile) : (s.modTile k f).pending = s.pending := rfl
@[simp] theorem State.modTile_freeCount (k : Nat) (f : Tile → Tile) : (s.modTile k f).freeCount = s.freeCount := rfl
@[simp] theorem State.modTile_out (k : Nat) (f : Tile → Tile) : (s.modTile k f).out = s.out := rfl
@[simp] theorem State.modTile_regs (k : Nat) (f : Tile → Tile) : (s.modTile k f).regs = s.regs := rfl
@[simp] theorem State.modTile_mem (k : Nat) (f : Tile → Tile) : (s.modTile k f).mem = s.mem := rfl
@[simp] theorem State.modTile_badWords (k : Nat) (f : Tile → Tile) : (s.modTile k f).badWords = s.badWords := rfl
@[simp] theorem State.modTile_threads (k : Nat) (f : Tile → Tile) : (s.modTile k f).threads = s.threads := rfl
@[simp] theorem State.modTile_ctxs (k : Nat) (f : Tile → Tile) : (s.modTile k f).ctxs = s.ctxs := rfl
@[simp] theorem State.modTile_hamper (k : Nat) (f : Tile → Tile) : (s.modTile k f).hamper = s.hamper := rfl
@[simp] theorem State.modTile_roots (k : Nat) (f : Tile → Tile) : (s.modTile k f).roots = s.roots := rfl
@[simp] theorem State.modTile_log (k : Nat) (f : Tile → Tile) : (s.modTile k f).log = s.log := rfl
@[simp] theorem State.modTile_hist (k : Nat) (f : Tile → Tile) : (s.modTile k f).hist = s.hist := rfl
@[simp] theorem State.modTile_notices (k : Nat) (f : Tile → Tile) : (s.modTile k f).notices = s.notices := rfl
@[simp] theorem State.modTile_faultLow (k : Nat) (f : Tile → Tile) : (s.modTile k f).faultLow = s.faultLow := rfl
@[simp] theorem State.modTile_stopFrozen (k : Nat) (f : Tile → Tile) : (s.modTile k f).stopFrozen = s.stopFrozen := rfl
@[simp] theorem State.modTile_vecCount (k : Nat) (f : Tile → Tile) : (s.modTile k f).vecCount = s.vecCount := rfl
@[simp] theorem State.modTile_ports (k : Nat) (f : Tile → Tile) : (s.modTile k f).ports = s.ports := rfl
@[simp] theorem State.modTile_coordKnown (k : Nat) (f : Tile → Tile) : (s.modTile k f).coordKnown = s.coordKnown := rfl
@[simp] theorem State.modTile_lasers (k : Nat) (f : Tile → Tile) : (s.modTile k f).lasers = s.lasers := rfl
@[simp] theorem State.modTile_stileAcks (k : Nat) (f : Tile → Tile) : (s.modTile k f).stileAcks = s.stileAcks := rfl
@[simp] theorem State.modTile_xfers (k : Nat) (f : Tile → Tile) : (s.modTile k f).xfers = s.xfers := rfl
@[simp] theorem State.modTile_nextTid (k : Nat) (f : Tile → Tile) : (s.modTile k f).nextTid = s.nextTid := rfl
@[simp] theorem State.modTile_streams (k : Nat) (f : Tile → Tile) : (s.modTile k f).streams = s.streams := rfl
@[simp] theorem State.modTile_launches (k : Nat) (f : Tile → Tile) : (s.modTile k f).launches = s.launches := rfl
@[simp] theorem State.modTile_reassemblies (k : Nat) (f : Tile → Tile) : (s.modTile k f).reassemblies = s.reassemblies := rfl
@[simp] theorem State.modTile_rxWait (k : Nat) (f : Tile → Tile) : (s.modTile k f).rxWait = s.rxWait := rfl
@[simp] theorem State.modTile_arrived (k : Nat) (f : Tile → Tile) : (s.modTile k f).arrived = s.arrived := rfl
@[simp] theorem State.modTile_accepted (k : Nat) (f : Tile → Tile) : (s.modTile k f).accepted = s.accepted := rfl
@[simp] theorem State.modTile_shardFailed (k : Nat) (f : Tile → Tile) : (s.modTile k f).shardFailed = s.shardFailed := rfl
@[simp] theorem State.modTile_lark (k : Nat) (f : Tile → Tile) : (s.modTile k f).lark = s.lark := rfl
@[simp] theorem State.modTile_rings (k : Nat) (f : Tile → Tile) : (s.modTile k f).rings = s.rings := rfl
@[simp] theorem State.modTile_intakes (k : Nat) (f : Tile → Tile) : (s.modTile k f).intakes = s.intakes := rfl
@[simp] theorem State.modTile_publishes (k : Nat) (f : Tile → Tile) : (s.modTile k f).publishes = s.publishes := rfl
@[simp] theorem State.modTile_d3hot (k : Nat) (f : Tile → Tile) : (s.modTile k f).d3hot = s.d3hot := rfl
@[simp] theorem State.modTile_cfg (k : Nat) (f : Tile → Tile) : (s.modTile k f).cfg = s.cfg := rfl
@[simp] theorem State.modTile_maxRead (k : Nat) (f : Tile → Tile) : (s.modTile k f).maxRead = s.maxRead := rfl
@[simp] theorem State.modTile_maxPayload (k : Nat) (f : Tile → Tile) : (s.modTile k f).maxPayload = s.maxPayload := rfl
@[simp] theorem State.modTile_scaleFail (k : Nat) (f : Tile → Tile) : (s.modTile k f).scaleFail = s.scaleFail := rfl
@[simp] theorem State.modTile_tileFail (k : Nat) (f : Tile → Tile) : (s.modTile k f).tileFail = s.tileFail := rfl
@[simp] theorem State.modTile_objs (k : Nat) (f : Tile → Tile) : (s.modTile k f).objs = s.objs := rfl
@[simp] theorem State.modTile_causes (k : Nat) (f : Tile → Tile) : (s.modTile k f).causes = s.causes := rfl
@[simp] theorem State.modTile_fwCores (k : Nat) (f : Tile → Tile) : (s.modTile k f).fwCores = s.fwCores := rfl
@[simp] theorem State.modTile_boot (k : Nat) (f : Tile → Tile) : (s.modTile k f).boot = s.boot := rfl
@[simp] theorem State.modTile_bring (k : Nat) (f : Tile → Tile) : (s.modTile k f).bring = s.bring := rfl
@[simp] theorem State.modTile_fresets (k : Nat) (f : Tile → Tile) : (s.modTile k f).fresets = s.fresets := rfl
@[simp] theorem State.modTile_flash (k : Nat) (f : Tile → Tile) : (s.modTile k f).flash = s.flash := rfl
@[simp] theorem State.modTile_ronbin (k : Nat) (f : Tile → Tile) : (s.modTile k f).ronbin = s.ronbin := rfl

/-! `modCtx` -/
@[simp] theorem State.modCtx_pending (k : Nat) (f : Ctx → Ctx) : (s.modCtx k f).pending = s.pending := rfl
@[simp] theorem State.modCtx_freeCount (k : Nat) (f : Ctx → Ctx) : (s.modCtx k f).freeCount = s.freeCount := rfl
@[simp] theorem State.modCtx_out (k : Nat) (f : Ctx → Ctx) : (s.modCtx k f).out = s.out := rfl
@[simp] theorem State.modCtx_regs (k : Nat) (f : Ctx → Ctx) : (s.modCtx k f).regs = s.regs := rfl
@[simp] theorem State.modCtx_mem (k : Nat) (f : Ctx → Ctx) : (s.modCtx k f).mem = s.mem := rfl
@[simp] theorem State.modCtx_badWords (k : Nat) (f : Ctx → Ctx) : (s.modCtx k f).badWords = s.badWords := rfl
@[simp] theorem State.modCtx_threads (k : Nat) (f : Ctx → Ctx) : (s.modCtx k f).threads = s.threads := rfl
@[simp] theorem State.modCtx_tiles (k : Nat) (f : Ctx → Ctx) : (s.modCtx k f).tiles = s.tiles := rfl
@[simp] theorem State.modCtx_hamper (k : Nat) (f : Ctx → Ctx) : (s.modCtx k f).hamper = s.hamper := rfl
@[simp] theorem State.modCtx_roots (k : Nat) (f : Ctx → Ctx) : (s.modCtx k f).roots = s.roots := rfl
@[simp] theorem State.modCtx_log (k : Nat) (f : Ctx → Ctx) : (s.modCtx k f).log = s.log := rfl
@[simp] theorem State.modCtx_hist (k : Nat) (f : Ctx → Ctx) : (s.modCtx k f).hist = s.hist := rfl
@[simp] theorem State.modCtx_notices (k : Nat) (f : Ctx → Ctx) : (s.modCtx k f).notices = s.notices := rfl
@[simp] theorem State.modCtx_faultLow (k : Nat) (f : Ctx → Ctx) : (s.modCtx k f).faultLow = s.faultLow := rfl
@[simp] theorem State.modCtx_stopFrozen (k : Nat) (f : Ctx → Ctx) : (s.modCtx k f).stopFrozen = s.stopFrozen := rfl
@[simp] theorem State.modCtx_vecCount (k : Nat) (f : Ctx → Ctx) : (s.modCtx k f).vecCount = s.vecCount := rfl
@[simp] theorem State.modCtx_ports (k : Nat) (f : Ctx → Ctx) : (s.modCtx k f).ports = s.ports := rfl
@[simp] theorem State.modCtx_coordKnown (k : Nat) (f : Ctx → Ctx) : (s.modCtx k f).coordKnown = s.coordKnown := rfl
@[simp] theorem State.modCtx_lasers (k : Nat) (f : Ctx → Ctx) : (s.modCtx k f).lasers = s.lasers := rfl
@[simp] theorem State.modCtx_stileAcks (k : Nat) (f : Ctx → Ctx) : (s.modCtx k f).stileAcks = s.stileAcks := rfl
@[simp] theorem State.modCtx_xfers (k : Nat) (f : Ctx → Ctx) : (s.modCtx k f).xfers = s.xfers := rfl
@[simp] theorem State.modCtx_nextTid (k : Nat) (f : Ctx → Ctx) : (s.modCtx k f).nextTid = s.nextTid := rfl
@[simp] theorem State.modCtx_streams (k : Nat) (f : Ctx → Ctx) : (s.modCtx k f).streams = s.streams := rfl
@[simp] theorem State.modCtx_launches (k : Nat) (f : Ctx → Ctx) : (s.modCtx k f).launches = s.launches := rfl
@[simp] theorem State.modCtx_reassemblies (k : Nat) (f : Ctx → Ctx) : (s.modCtx k f).reassemblies = s.reassemblies := rfl
@[simp] theorem State.modCtx_rxWait (k : Nat) (f : Ctx → Ctx) : (s.modCtx k f).rxWait = s.rxWait := rfl
@[simp] theorem State.modCtx_arrived (k : Nat) (f : Ctx → Ctx) : (s.modCtx k f).arrived = s.arrived := rfl
@[simp] theorem State.modCtx_accepted (k : Nat) (f : Ctx → Ctx) : (s.modCtx k f).accepted = s.accepted := rfl
@[simp] theorem State.modCtx_shardFailed (k : Nat) (f : Ctx → Ctx) : (s.modCtx k f).shardFailed = s.shardFailed := rfl
@[simp] theorem State.modCtx_lark (k : Nat) (f : Ctx → Ctx) : (s.modCtx k f).lark = s.lark := rfl
@[simp] theorem State.modCtx_rings (k : Nat) (f : Ctx → Ctx) : (s.modCtx k f).rings = s.rings := rfl
@[simp] theorem State.modCtx_intakes (k : Nat) (f : Ctx → Ctx) : (s.modCtx k f).intakes = s.intakes := rfl
@[simp] theorem State.modCtx_publishes (k : Nat) (f : Ctx → Ctx) : (s.modCtx k f).publishes = s.publishes := rfl
@[simp] theorem State.modCtx_d3hot (k : Nat) (f : Ctx → Ctx) : (s.modCtx k f).d3hot = s.d3hot := rfl
@[simp] theorem State.modCtx_cfg (k : Nat) (f : Ctx → Ctx) : (s.modCtx k f).cfg = s.cfg := rfl
@[simp] theorem State.modCtx_maxRead (k : Nat) (f : Ctx → Ctx) : (s.modCtx k f).maxRead = s.maxRead := rfl
@[simp] theorem State.modCtx_maxPayload (k : Nat) (f : Ctx → Ctx) : (s.modCtx k f).maxPayload = s.maxPayload := rfl
@[simp] theorem State.modCtx_scaleFail (k : Nat) (f : Ctx → Ctx) : (s.modCtx k f).scaleFail = s.scaleFail := rfl
@[simp] theorem State.modCtx_tileFail (k : Nat) (f : Ctx → Ctx) : (s.modCtx k f).tileFail = s.tileFail := rfl
@[simp] theorem State.modCtx_objs (k : Nat) (f : Ctx → Ctx) : (s.modCtx k f).objs = s.objs := rfl
@[simp] theorem State.modCtx_causes (k : Nat) (f : Ctx → Ctx) : (s.modCtx k f).causes = s.causes := rfl
@[simp] theorem State.modCtx_fwCores (k : Nat) (f : Ctx → Ctx) : (s.modCtx k f).fwCores = s.fwCores := rfl
@[simp] theorem State.modCtx_boot (k : Nat) (f : Ctx → Ctx) : (s.modCtx k f).boot = s.boot := rfl
@[simp] theorem State.modCtx_bring (k : Nat) (f : Ctx → Ctx) : (s.modCtx k f).bring = s.bring := rfl
@[simp] theorem State.modCtx_fresets (k : Nat) (f : Ctx → Ctx) : (s.modCtx k f).fresets = s.fresets := rfl
@[simp] theorem State.modCtx_flash (k : Nat) (f : Ctx → Ctx) : (s.modCtx k f).flash = s.flash := rfl
@[simp] theorem State.modCtx_ronbin (k : Nat) (f : Ctx → Ctx) : (s.modCtx k f).ronbin = s.ronbin := rfl

/-! `modSlice` -/
@[simp] theorem State.modSlice_pending (t c : Nat) (f : HSlice → HSlice) : (s.modSlice t c f).pending = s.pending := rfl
@[simp] theorem State.modSlice_freeCount (t c : Nat) (f : HSlice → HSlice) : (s.modSlice t c f).freeCount = s.freeCount := rfl
@[simp] theorem State.modSlice_out (t c : Nat) (f : HSlice → HSlice) : (s.modSlice t c f).out = s.out := rfl
@[simp] theorem State.modSlice_regs (t c : Nat) (f : HSlice → HSlice) : (s.modSlice t c f).regs = s.regs := rfl
@[simp] theorem State.modSlice_mem (t c : Nat) (f : HSlice → HSlice) : (s.modSlice t c f).mem = s.mem := rfl
@[simp] theorem State.modSlice_badWords (t c : Nat) (f : HSlice → HSlice) : (s.modSlice t c f).badWords = s.badWords := rfl
@[simp] theorem State.modSlice_threads (t c : Nat) (f : HSlice → HSlice) : (s.modSlice t c f).threads = s.threads := rfl
@[simp] theorem State.modSlice_tiles (t c : Nat) (f : HSlice → HSlice) : (s.modSlice t c f).tiles = s.tiles := rfl
@[simp] theorem State.modSlice_ctxs (t c : Nat) (f : HSlice → HSlice) : (s.modSlice t c f).ctxs = s.ctxs := rfl
@[simp] theorem State.modSlice_roots (t c : Nat) (f : HSlice → HSlice) : (s.modSlice t c f).roots = s.roots := rfl
@[simp] theorem State.modSlice_log (t c : Nat) (f : HSlice → HSlice) : (s.modSlice t c f).log = s.log := rfl
@[simp] theorem State.modSlice_hist (t c : Nat) (f : HSlice → HSlice) : (s.modSlice t c f).hist = s.hist := rfl
@[simp] theorem State.modSlice_notices (t c : Nat) (f : HSlice → HSlice) : (s.modSlice t c f).notices = s.notices := rfl
@[simp] theorem State.modSlice_faultLow (t c : Nat) (f : HSlice → HSlice) : (s.modSlice t c f).faultLow = s.faultLow := rfl
@[simp] theorem State.modSlice_stopFrozen (t c : Nat) (f : HSlice → HSlice) : (s.modSlice t c f).stopFrozen = s.stopFrozen := rfl
@[simp] theorem State.modSlice_vecCount (t c : Nat) (f : HSlice → HSlice) : (s.modSlice t c f).vecCount = s.vecCount := rfl
@[simp] theorem State.modSlice_ports (t c : Nat) (f : HSlice → HSlice) : (s.modSlice t c f).ports = s.ports := rfl
@[simp] theorem State.modSlice_coordKnown (t c : Nat) (f : HSlice → HSlice) : (s.modSlice t c f).coordKnown = s.coordKnown := rfl
@[simp] theorem State.modSlice_lasers (t c : Nat) (f : HSlice → HSlice) : (s.modSlice t c f).lasers = s.lasers := rfl
@[simp] theorem State.modSlice_stileAcks (t c : Nat) (f : HSlice → HSlice) : (s.modSlice t c f).stileAcks = s.stileAcks := rfl
@[simp] theorem State.modSlice_xfers (t c : Nat) (f : HSlice → HSlice) : (s.modSlice t c f).xfers = s.xfers := rfl
@[simp] theorem State.modSlice_nextTid (t c : Nat) (f : HSlice → HSlice) : (s.modSlice t c f).nextTid = s.nextTid := rfl
@[simp] theorem State.modSlice_streams (t c : Nat) (f : HSlice → HSlice) : (s.modSlice t c f).streams = s.streams := rfl
@[simp] theorem State.modSlice_launches (t c : Nat) (f : HSlice → HSlice) : (s.modSlice t c f).launches = s.launches := rfl
@[simp] theorem State.modSlice_reassemblies (t c : Nat) (f : HSlice → HSlice) : (s.modSlice t c f).reassemblies = s.reassemblies := rfl
@[simp] theorem State.modSlice_rxWait (t c : Nat) (f : HSlice → HSlice) : (s.modSlice t c f).rxWait = s.rxWait := rfl
@[simp] theorem State.modSlice_arrived (t c : Nat) (f : HSlice → HSlice) : (s.modSlice t c f).arrived = s.arrived := rfl
@[simp] theorem State.modSlice_accepted (t c : Nat) (f : HSlice → HSlice) : (s.modSlice t c f).accepted = s.accepted := rfl
@[simp] theorem State.modSlice_shardFailed (t c : Nat) (f : HSlice → HSlice) : (s.modSlice t c f).shardFailed = s.shardFailed := rfl
@[simp] theorem State.modSlice_lark (t c : Nat) (f : HSlice → HSlice) : (s.modSlice t c f).lark = s.lark := rfl
@[simp] theorem State.modSlice_rings (t c : Nat) (f : HSlice → HSlice) : (s.modSlice t c f).rings = s.rings := rfl
@[simp] theorem State.modSlice_intakes (t c : Nat) (f : HSlice → HSlice) : (s.modSlice t c f).intakes = s.intakes := rfl
@[simp] theorem State.modSlice_publishes (t c : Nat) (f : HSlice → HSlice) : (s.modSlice t c f).publishes = s.publishes := rfl
@[simp] theorem State.modSlice_d3hot (t c : Nat) (f : HSlice → HSlice) : (s.modSlice t c f).d3hot = s.d3hot := rfl
@[simp] theorem State.modSlice_cfg (t c : Nat) (f : HSlice → HSlice) : (s.modSlice t c f).cfg = s.cfg := rfl
@[simp] theorem State.modSlice_maxRead (t c : Nat) (f : HSlice → HSlice) : (s.modSlice t c f).maxRead = s.maxRead := rfl
@[simp] theorem State.modSlice_maxPayload (t c : Nat) (f : HSlice → HSlice) : (s.modSlice t c f).maxPayload = s.maxPayload := rfl
@[simp] theorem State.modSlice_scaleFail (t c : Nat) (f : HSlice → HSlice) : (s.modSlice t c f).scaleFail = s.scaleFail := rfl
@[simp] theorem State.modSlice_tileFail (t c : Nat) (f : HSlice → HSlice) : (s.modSlice t c f).tileFail = s.tileFail := rfl
@[simp] theorem State.modSlice_objs (t c : Nat) (f : HSlice → HSlice) : (s.modSlice t c f).objs = s.objs := rfl
@[simp] theorem State.modSlice_causes (t c : Nat) (f : HSlice → HSlice) : (s.modSlice t c f).causes = s.causes := rfl
@[simp] theorem State.modSlice_fwCores (t c : Nat) (f : HSlice → HSlice) : (s.modSlice t c f).fwCores = s.fwCores := rfl
@[simp] theorem State.modSlice_boot (t c : Nat) (f : HSlice → HSlice) : (s.modSlice t c f).boot = s.boot := rfl
@[simp] theorem State.modSlice_bring (t c : Nat) (f : HSlice → HSlice) : (s.modSlice t c f).bring = s.bring := rfl
@[simp] theorem State.modSlice_fresets (t c : Nat) (f : HSlice → HSlice) : (s.modSlice t c f).fresets = s.fresets := rfl
@[simp] theorem State.modSlice_flash (t c : Nat) (f : HSlice → HSlice) : (s.modSlice t c f).flash = s.flash := rfl
@[simp] theorem State.modSlice_ronbin (t c : Nat) (f : HSlice → HSlice) : (s.modSlice t c f).ronbin = s.ronbin := rfl

/-! `modRoot` -/
@[simp] theorem State.modRoot_pending (k : Nat) (f : RootEngine → RootEngine) : (s.modRoot k f).pending = s.pending := rfl
@[simp] theorem State.modRoot_freeCount (k : Nat) (f : RootEngine → RootEngine) : (s.modRoot k f).freeCount = s.freeCount := rfl
@[simp] theorem State.modRoot_out (k : Nat) (f : RootEngine → RootEngine) : (s.modRoot k f).out = s.out := rfl
@[simp] theorem State.modRoot_regs (k : Nat) (f : RootEngine → RootEngine) : (s.modRoot k f).regs = s.regs := rfl
@[simp] theorem State.modRoot_mem (k : Nat) (f : RootEngine → RootEngine) : (s.modRoot k f).mem = s.mem := rfl
@[simp] theorem State.modRoot_badWords (k : Nat) (f : RootEngine → RootEngine) : (s.modRoot k f).badWords = s.badWords := rfl
@[simp] theorem State.modRoot_threads (k : Nat) (f : RootEngine → RootEngine) : (s.modRoot k f).threads = s.threads := rfl
@[simp] theorem State.modRoot_tiles (k : Nat) (f : RootEngine → RootEngine) : (s.modRoot k f).tiles = s.tiles := rfl
@[simp] theorem State.modRoot_ctxs (k : Nat) (f : RootEngine → RootEngine) : (s.modRoot k f).ctxs = s.ctxs := rfl
@[simp] theorem State.modRoot_hamper (k : Nat) (f : RootEngine → RootEngine) : (s.modRoot k f).hamper = s.hamper := rfl
@[simp] theorem State.modRoot_log (k : Nat) (f : RootEngine → RootEngine) : (s.modRoot k f).log = s.log := rfl
@[simp] theorem State.modRoot_hist (k : Nat) (f : RootEngine → RootEngine) : (s.modRoot k f).hist = s.hist := rfl
@[simp] theorem State.modRoot_notices (k : Nat) (f : RootEngine → RootEngine) : (s.modRoot k f).notices = s.notices := rfl
@[simp] theorem State.modRoot_faultLow (k : Nat) (f : RootEngine → RootEngine) : (s.modRoot k f).faultLow = s.faultLow := rfl
@[simp] theorem State.modRoot_stopFrozen (k : Nat) (f : RootEngine → RootEngine) : (s.modRoot k f).stopFrozen = s.stopFrozen := rfl
@[simp] theorem State.modRoot_vecCount (k : Nat) (f : RootEngine → RootEngine) : (s.modRoot k f).vecCount = s.vecCount := rfl
@[simp] theorem State.modRoot_ports (k : Nat) (f : RootEngine → RootEngine) : (s.modRoot k f).ports = s.ports := rfl
@[simp] theorem State.modRoot_coordKnown (k : Nat) (f : RootEngine → RootEngine) : (s.modRoot k f).coordKnown = s.coordKnown := rfl
@[simp] theorem State.modRoot_lasers (k : Nat) (f : RootEngine → RootEngine) : (s.modRoot k f).lasers = s.lasers := rfl
@[simp] theorem State.modRoot_stileAcks (k : Nat) (f : RootEngine → RootEngine) : (s.modRoot k f).stileAcks = s.stileAcks := rfl
@[simp] theorem State.modRoot_xfers (k : Nat) (f : RootEngine → RootEngine) : (s.modRoot k f).xfers = s.xfers := rfl
@[simp] theorem State.modRoot_nextTid (k : Nat) (f : RootEngine → RootEngine) : (s.modRoot k f).nextTid = s.nextTid := rfl
@[simp] theorem State.modRoot_streams (k : Nat) (f : RootEngine → RootEngine) : (s.modRoot k f).streams = s.streams := rfl
@[simp] theorem State.modRoot_launches (k : Nat) (f : RootEngine → RootEngine) : (s.modRoot k f).launches = s.launches := rfl
@[simp] theorem State.modRoot_reassemblies (k : Nat) (f : RootEngine → RootEngine) : (s.modRoot k f).reassemblies = s.reassemblies := rfl
@[simp] theorem State.modRoot_rxWait (k : Nat) (f : RootEngine → RootEngine) : (s.modRoot k f).rxWait = s.rxWait := rfl
@[simp] theorem State.modRoot_arrived (k : Nat) (f : RootEngine → RootEngine) : (s.modRoot k f).arrived = s.arrived := rfl
@[simp] theorem State.modRoot_accepted (k : Nat) (f : RootEngine → RootEngine) : (s.modRoot k f).accepted = s.accepted := rfl
@[simp] theorem State.modRoot_shardFailed (k : Nat) (f : RootEngine → RootEngine) : (s.modRoot k f).shardFailed = s.shardFailed := rfl
@[simp] theorem State.modRoot_lark (k : Nat) (f : RootEngine → RootEngine) : (s.modRoot k f).lark = s.lark := rfl
@[simp] theorem State.modRoot_rings (k : Nat) (f : RootEngine → RootEngine) : (s.modRoot k f).rings = s.rings := rfl
@[simp] theorem State.modRoot_intakes (k : Nat) (f : RootEngine → RootEngine) : (s.modRoot k f).intakes = s.intakes := rfl
@[simp] theorem State.modRoot_publishes (k : Nat) (f : RootEngine → RootEngine) : (s.modRoot k f).publishes = s.publishes := rfl
@[simp] theorem State.modRoot_d3hot (k : Nat) (f : RootEngine → RootEngine) : (s.modRoot k f).d3hot = s.d3hot := rfl
@[simp] theorem State.modRoot_cfg (k : Nat) (f : RootEngine → RootEngine) : (s.modRoot k f).cfg = s.cfg := rfl
@[simp] theorem State.modRoot_maxRead (k : Nat) (f : RootEngine → RootEngine) : (s.modRoot k f).maxRead = s.maxRead := rfl
@[simp] theorem State.modRoot_maxPayload (k : Nat) (f : RootEngine → RootEngine) : (s.modRoot k f).maxPayload = s.maxPayload := rfl
@[simp] theorem State.modRoot_scaleFail (k : Nat) (f : RootEngine → RootEngine) : (s.modRoot k f).scaleFail = s.scaleFail := rfl
@[simp] theorem State.modRoot_tileFail (k : Nat) (f : RootEngine → RootEngine) : (s.modRoot k f).tileFail = s.tileFail := rfl
@[simp] theorem State.modRoot_objs (k : Nat) (f : RootEngine → RootEngine) : (s.modRoot k f).objs = s.objs := rfl
@[simp] theorem State.modRoot_causes (k : Nat) (f : RootEngine → RootEngine) : (s.modRoot k f).causes = s.causes := rfl
@[simp] theorem State.modRoot_fwCores (k : Nat) (f : RootEngine → RootEngine) : (s.modRoot k f).fwCores = s.fwCores := rfl
@[simp] theorem State.modRoot_boot (k : Nat) (f : RootEngine → RootEngine) : (s.modRoot k f).boot = s.boot := rfl
@[simp] theorem State.modRoot_bring (k : Nat) (f : RootEngine → RootEngine) : (s.modRoot k f).bring = s.bring := rfl
@[simp] theorem State.modRoot_fresets (k : Nat) (f : RootEngine → RootEngine) : (s.modRoot k f).fresets = s.fresets := rfl
@[simp] theorem State.modRoot_flash (k : Nat) (f : RootEngine → RootEngine) : (s.modRoot k f).flash = s.flash := rfl
@[simp] theorem State.modRoot_ronbin (k : Nat) (f : RootEngine → RootEngine) : (s.modRoot k f).ronbin = s.ronbin := rfl

/-! `modPort` -/
@[simp] theorem State.modPort_pending (k : Nat) (f : Port → Port) : (s.modPort k f).pending = s.pending := rfl
@[simp] theorem State.modPort_freeCount (k : Nat) (f : Port → Port) : (s.modPort k f).freeCount = s.freeCount := rfl
@[simp] theorem State.modPort_out (k : Nat) (f : Port → Port) : (s.modPort k f).out = s.out := rfl
@[simp] theorem State.modPort_regs (k : Nat) (f : Port → Port) : (s.modPort k f).regs = s.regs := rfl
@[simp] theorem State.modPort_mem (k : Nat) (f : Port → Port) : (s.modPort k f).mem = s.mem := rfl
@[simp] theorem State.modPort_badWords (k : Nat) (f : Port → Port) : (s.modPort k f).badWords = s.badWords := rfl
@[simp] theorem State.modPort_threads (k : Nat) (f : Port → Port) : (s.modPort k f).threads = s.threads := rfl
@[simp] theorem State.modPort_tiles (k : Nat) (f : Port → Port) : (s.modPort k f).tiles = s.tiles := rfl
@[simp] theorem State.modPort_ctxs (k : Nat) (f : Port → Port) : (s.modPort k f).ctxs = s.ctxs := rfl
@[simp] theorem State.modPort_hamper (k : Nat) (f : Port → Port) : (s.modPort k f).hamper = s.hamper := rfl
@[simp] theorem State.modPort_roots (k : Nat) (f : Port → Port) : (s.modPort k f).roots = s.roots := rfl
@[simp] theorem State.modPort_log (k : Nat) (f : Port → Port) : (s.modPort k f).log = s.log := rfl
@[simp] theorem State.modPort_hist (k : Nat) (f : Port → Port) : (s.modPort k f).hist = s.hist := rfl
@[simp] theorem State.modPort_notices (k : Nat) (f : Port → Port) : (s.modPort k f).notices = s.notices := rfl
@[simp] theorem State.modPort_faultLow (k : Nat) (f : Port → Port) : (s.modPort k f).faultLow = s.faultLow := rfl
@[simp] theorem State.modPort_stopFrozen (k : Nat) (f : Port → Port) : (s.modPort k f).stopFrozen = s.stopFrozen := rfl
@[simp] theorem State.modPort_vecCount (k : Nat) (f : Port → Port) : (s.modPort k f).vecCount = s.vecCount := rfl
@[simp] theorem State.modPort_coordKnown (k : Nat) (f : Port → Port) : (s.modPort k f).coordKnown = s.coordKnown := rfl
@[simp] theorem State.modPort_lasers (k : Nat) (f : Port → Port) : (s.modPort k f).lasers = s.lasers := rfl
@[simp] theorem State.modPort_stileAcks (k : Nat) (f : Port → Port) : (s.modPort k f).stileAcks = s.stileAcks := rfl
@[simp] theorem State.modPort_xfers (k : Nat) (f : Port → Port) : (s.modPort k f).xfers = s.xfers := rfl
@[simp] theorem State.modPort_nextTid (k : Nat) (f : Port → Port) : (s.modPort k f).nextTid = s.nextTid := rfl
@[simp] theorem State.modPort_streams (k : Nat) (f : Port → Port) : (s.modPort k f).streams = s.streams := rfl
@[simp] theorem State.modPort_launches (k : Nat) (f : Port → Port) : (s.modPort k f).launches = s.launches := rfl
@[simp] theorem State.modPort_reassemblies (k : Nat) (f : Port → Port) : (s.modPort k f).reassemblies = s.reassemblies := rfl
@[simp] theorem State.modPort_rxWait (k : Nat) (f : Port → Port) : (s.modPort k f).rxWait = s.rxWait := rfl
@[simp] theorem State.modPort_arrived (k : Nat) (f : Port → Port) : (s.modPort k f).arrived = s.arrived := rfl
@[simp] theorem State.modPort_accepted (k : Nat) (f : Port → Port) : (s.modPort k f).accepted = s.accepted := rfl
@[simp] theorem State.modPort_shardFailed (k : Nat) (f : Port → Port) : (s.modPort k f).shardFailed = s.shardFailed := rfl
@[simp] theorem State.modPort_lark (k : Nat) (f : Port → Port) : (s.modPort k f).lark = s.lark := rfl
@[simp] theorem State.modPort_rings (k : Nat) (f : Port → Port) : (s.modPort k f).rings = s.rings := rfl
@[simp] theorem State.modPort_intakes (k : Nat) (f : Port → Port) : (s.modPort k f).intakes = s.intakes := rfl
@[simp] theorem State.modPort_publishes (k : Nat) (f : Port → Port) : (s.modPort k f).publishes = s.publishes := rfl
@[simp] theorem State.modPort_d3hot (k : Nat) (f : Port → Port) : (s.modPort k f).d3hot = s.d3hot := rfl
@[simp] theorem State.modPort_cfg (k : Nat) (f : Port → Port) : (s.modPort k f).cfg = s.cfg := rfl
@[simp] theorem State.modPort_maxRead (k : Nat) (f : Port → Port) : (s.modPort k f).maxRead = s.maxRead := rfl
@[simp] theorem State.modPort_maxPayload (k : Nat) (f : Port → Port) : (s.modPort k f).maxPayload = s.maxPayload := rfl
@[simp] theorem State.modPort_scaleFail (k : Nat) (f : Port → Port) : (s.modPort k f).scaleFail = s.scaleFail := rfl
@[simp] theorem State.modPort_tileFail (k : Nat) (f : Port → Port) : (s.modPort k f).tileFail = s.tileFail := rfl
@[simp] theorem State.modPort_objs (k : Nat) (f : Port → Port) : (s.modPort k f).objs = s.objs := rfl
@[simp] theorem State.modPort_causes (k : Nat) (f : Port → Port) : (s.modPort k f).causes = s.causes := rfl
@[simp] theorem State.modPort_fwCores (k : Nat) (f : Port → Port) : (s.modPort k f).fwCores = s.fwCores := rfl
@[simp] theorem State.modPort_boot (k : Nat) (f : Port → Port) : (s.modPort k f).boot = s.boot := rfl
@[simp] theorem State.modPort_bring (k : Nat) (f : Port → Port) : (s.modPort k f).bring = s.bring := rfl
@[simp] theorem State.modPort_fresets (k : Nat) (f : Port → Port) : (s.modPort k f).fresets = s.fresets := rfl
@[simp] theorem State.modPort_flash (k : Nat) (f : Port → Port) : (s.modPort k f).flash = s.flash := rfl
@[simp] theorem State.modPort_ronbin (k : Nat) (f : Port → Port) : (s.modPort k f).ronbin = s.ronbin := rfl

/-! `modRing` -/
@[simp] theorem State.modRing_pending (k : Nat) (f : Ring → Ring) : (s.modRing k f).pending = s.pending := rfl
@[simp] theorem State.modRing_freeCount (k : Nat) (f : Ring → Ring) : (s.modRing k f).freeCount = s.freeCount := rfl
@[simp] theorem State.modRing_out (k : Nat) (f : Ring → Ring) : (s.modRing k f).out = s.out := rfl
@[simp] theorem State.modRing_regs (k : Nat) (f : Ring → Ring) : (s.modRing k f).regs = s.regs := rfl
@[simp] theorem State.modRing_mem (k : Nat) (f : Ring → Ring) : (s.modRing k f).mem = s.mem := rfl
@[simp] theorem State.modRing_badWords (k : Nat) (f : Ring → Ring) : (s.modRing k f).badWords = s.badWords := rfl
@[simp] theorem State.modRing_threads (k : Nat) (f : Ring → Ring) : (s.modRing k f).threads = s.threads := rfl
@[simp] theorem State.modRing_tiles (k : Nat) (f : Ring → Ring) : (s.modRing k f).tiles = s.tiles := rfl
@[simp] theorem State.modRing_ctxs (k : Nat) (f : Ring → Ring) : (s.modRing k f).ctxs = s.ctxs := rfl
@[simp] theorem State.modRing_hamper (k : Nat) (f : Ring → Ring) : (s.modRing k f).hamper = s.hamper := rfl
@[simp] theorem State.modRing_roots (k : Nat) (f : Ring → Ring) : (s.modRing k f).roots = s.roots := rfl
@[simp] theorem State.modRing_log (k : Nat) (f : Ring → Ring) : (s.modRing k f).log = s.log := rfl
@[simp] theorem State.modRing_hist (k : Nat) (f : Ring → Ring) : (s.modRing k f).hist = s.hist := rfl
@[simp] theorem State.modRing_notices (k : Nat) (f : Ring → Ring) : (s.modRing k f).notices = s.notices := rfl
@[simp] theorem State.modRing_faultLow (k : Nat) (f : Ring → Ring) : (s.modRing k f).faultLow = s.faultLow := rfl
@[simp] theorem State.modRing_stopFrozen (k : Nat) (f : Ring → Ring) : (s.modRing k f).stopFrozen = s.stopFrozen := rfl
@[simp] theorem State.modRing_vecCount (k : Nat) (f : Ring → Ring) : (s.modRing k f).vecCount = s.vecCount := rfl
@[simp] theorem State.modRing_ports (k : Nat) (f : Ring → Ring) : (s.modRing k f).ports = s.ports := rfl
@[simp] theorem State.modRing_coordKnown (k : Nat) (f : Ring → Ring) : (s.modRing k f).coordKnown = s.coordKnown := rfl
@[simp] theorem State.modRing_lasers (k : Nat) (f : Ring → Ring) : (s.modRing k f).lasers = s.lasers := rfl
@[simp] theorem State.modRing_stileAcks (k : Nat) (f : Ring → Ring) : (s.modRing k f).stileAcks = s.stileAcks := rfl
@[simp] theorem State.modRing_xfers (k : Nat) (f : Ring → Ring) : (s.modRing k f).xfers = s.xfers := rfl
@[simp] theorem State.modRing_nextTid (k : Nat) (f : Ring → Ring) : (s.modRing k f).nextTid = s.nextTid := rfl
@[simp] theorem State.modRing_streams (k : Nat) (f : Ring → Ring) : (s.modRing k f).streams = s.streams := rfl
@[simp] theorem State.modRing_launches (k : Nat) (f : Ring → Ring) : (s.modRing k f).launches = s.launches := rfl
@[simp] theorem State.modRing_reassemblies (k : Nat) (f : Ring → Ring) : (s.modRing k f).reassemblies = s.reassemblies := rfl
@[simp] theorem State.modRing_rxWait (k : Nat) (f : Ring → Ring) : (s.modRing k f).rxWait = s.rxWait := rfl
@[simp] theorem State.modRing_arrived (k : Nat) (f : Ring → Ring) : (s.modRing k f).arrived = s.arrived := rfl
@[simp] theorem State.modRing_accepted (k : Nat) (f : Ring → Ring) : (s.modRing k f).accepted = s.accepted := rfl
@[simp] theorem State.modRing_shardFailed (k : Nat) (f : Ring → Ring) : (s.modRing k f).shardFailed = s.shardFailed := rfl
@[simp] theorem State.modRing_lark (k : Nat) (f : Ring → Ring) : (s.modRing k f).lark = s.lark := rfl
@[simp] theorem State.modRing_intakes (k : Nat) (f : Ring → Ring) : (s.modRing k f).intakes = s.intakes := rfl
@[simp] theorem State.modRing_publishes (k : Nat) (f : Ring → Ring) : (s.modRing k f).publishes = s.publishes := rfl
@[simp] theorem State.modRing_d3hot (k : Nat) (f : Ring → Ring) : (s.modRing k f).d3hot = s.d3hot := rfl
@[simp] theorem State.modRing_cfg (k : Nat) (f : Ring → Ring) : (s.modRing k f).cfg = s.cfg := rfl
@[simp] theorem State.modRing_maxRead (k : Nat) (f : Ring → Ring) : (s.modRing k f).maxRead = s.maxRead := rfl
@[simp] theorem State.modRing_maxPayload (k : Nat) (f : Ring → Ring) : (s.modRing k f).maxPayload = s.maxPayload := rfl
@[simp] theorem State.modRing_scaleFail (k : Nat) (f : Ring → Ring) : (s.modRing k f).scaleFail = s.scaleFail := rfl
@[simp] theorem State.modRing_tileFail (k : Nat) (f : Ring → Ring) : (s.modRing k f).tileFail = s.tileFail := rfl
@[simp] theorem State.modRing_objs (k : Nat) (f : Ring → Ring) : (s.modRing k f).objs = s.objs := rfl
@[simp] theorem State.modRing_causes (k : Nat) (f : Ring → Ring) : (s.modRing k f).causes = s.causes := rfl
@[simp] theorem State.modRing_fwCores (k : Nat) (f : Ring → Ring) : (s.modRing k f).fwCores = s.fwCores := rfl
@[simp] theorem State.modRing_boot (k : Nat) (f : Ring → Ring) : (s.modRing k f).boot = s.boot := rfl
@[simp] theorem State.modRing_bring (k : Nat) (f : Ring → Ring) : (s.modRing k f).bring = s.bring := rfl
@[simp] theorem State.modRing_fresets (k : Nat) (f : Ring → Ring) : (s.modRing k f).fresets = s.fresets := rfl
@[simp] theorem State.modRing_flash (k : Nat) (f : Ring → Ring) : (s.modRing k f).flash = s.flash := rfl
@[simp] theorem State.modRing_ronbin (k : Nat) (f : Ring → Ring) : (s.modRing k f).ronbin = s.ronbin := rfl

/-! `modFwCore` -/
@[simp] theorem State.modFwCore_pending (k : Nat) (f : FwCore → FwCore) : (s.modFwCore k f).pending = s.pending := rfl
@[simp] theorem State.modFwCore_freeCount (k : Nat) (f : FwCore → FwCore) : (s.modFwCore k f).freeCount = s.freeCount := rfl
@[simp] theorem State.modFwCore_out (k : Nat) (f : FwCore → FwCore) : (s.modFwCore k f).out = s.out := rfl
@[simp] theorem State.modFwCore_regs (k : Nat) (f : FwCore → FwCore) : (s.modFwCore k f).regs = s.regs := rfl
@[simp] theorem State.modFwCore_mem (k : Nat) (f : FwCore → FwCore) : (s.modFwCore k f).mem = s.mem := rfl
@[simp] theorem State.modFwCore_badWords (k : Nat) (f : FwCore → FwCore) : (s.modFwCore k f).badWords = s.badWords := rfl
@[simp] theorem State.modFwCore_threads (k : Nat) (f : FwCore → FwCore) : (s.modFwCore k f).threads = s.threads := rfl
@[simp] theorem State.modFwCore_tiles (k : Nat) (f : FwCore → FwCore) : (s.modFwCore k f).tiles = s.tiles := rfl
@[simp] theorem State.modFwCore_ctxs (k : Nat) (f : FwCore → FwCore) : (s.modFwCore k f).ctxs = s.ctxs := rfl
@[simp] theorem State.modFwCore_hamper (k : Nat) (f : FwCore → FwCore) : (s.modFwCore k f).hamper = s.hamper := rfl
@[simp] theorem State.modFwCore_roots (k : Nat) (f : FwCore → FwCore) : (s.modFwCore k f).roots = s.roots := rfl
@[simp] theorem State.modFwCore_log (k : Nat) (f : FwCore → FwCore) : (s.modFwCore k f).log = s.log := rfl
@[simp] theorem State.modFwCore_hist (k : Nat) (f : FwCore → FwCore) : (s.modFwCore k f).hist = s.hist := rfl
@[simp] theorem State.modFwCore_notices (k : Nat) (f : FwCore → FwCore) : (s.modFwCore k f).notices = s.notices := rfl
@[simp] theorem State.modFwCore_faultLow (k : Nat) (f : FwCore → FwCore) : (s.modFwCore k f).faultLow = s.faultLow := rfl
@[simp] theorem State.modFwCore_stopFrozen (k : Nat) (f : FwCore → FwCore) : (s.modFwCore k f).stopFrozen = s.stopFrozen := rfl
@[simp] theorem State.modFwCore_vecCount (k : Nat) (f : FwCore → FwCore) : (s.modFwCore k f).vecCount = s.vecCount := rfl
@[simp] theorem State.modFwCore_ports (k : Nat) (f : FwCore → FwCore) : (s.modFwCore k f).ports = s.ports := rfl
@[simp] theorem State.modFwCore_coordKnown (k : Nat) (f : FwCore → FwCore) : (s.modFwCore k f).coordKnown = s.coordKnown := rfl
@[simp] theorem State.modFwCore_lasers (k : Nat) (f : FwCore → FwCore) : (s.modFwCore k f).lasers = s.lasers := rfl
@[simp] theorem State.modFwCore_stileAcks (k : Nat) (f : FwCore → FwCore) : (s.modFwCore k f).stileAcks = s.stileAcks := rfl
@[simp] theorem State.modFwCore_xfers (k : Nat) (f : FwCore → FwCore) : (s.modFwCore k f).xfers = s.xfers := rfl
@[simp] theorem State.modFwCore_nextTid (k : Nat) (f : FwCore → FwCore) : (s.modFwCore k f).nextTid = s.nextTid := rfl
@[simp] theorem State.modFwCore_streams (k : Nat) (f : FwCore → FwCore) : (s.modFwCore k f).streams = s.streams := rfl
@[simp] theorem State.modFwCore_launches (k : Nat) (f : FwCore → FwCore) : (s.modFwCore k f).launches = s.launches := rfl
@[simp] theorem State.modFwCore_reassemblies (k : Nat) (f : FwCore → FwCore) : (s.modFwCore k f).reassemblies = s.reassemblies := rfl
@[simp] theorem State.modFwCore_rxWait (k : Nat) (f : FwCore → FwCore) : (s.modFwCore k f).rxWait = s.rxWait := rfl
@[simp] theorem State.modFwCore_arrived (k : Nat) (f : FwCore → FwCore) : (s.modFwCore k f).arrived = s.arrived := rfl
@[simp] theorem State.modFwCore_accepted (k : Nat) (f : FwCore → FwCore) : (s.modFwCore k f).accepted = s.accepted := rfl
@[simp] theorem State.modFwCore_shardFailed (k : Nat) (f : FwCore → FwCore) : (s.modFwCore k f).shardFailed = s.shardFailed := rfl
@[simp] theorem State.modFwCore_lark (k : Nat) (f : FwCore → FwCore) : (s.modFwCore k f).lark = s.lark := rfl
@[simp] theorem State.modFwCore_rings (k : Nat) (f : FwCore → FwCore) : (s.modFwCore k f).rings = s.rings := rfl
@[simp] theorem State.modFwCore_intakes (k : Nat) (f : FwCore → FwCore) : (s.modFwCore k f).intakes = s.intakes := rfl
@[simp] theorem State.modFwCore_publishes (k : Nat) (f : FwCore → FwCore) : (s.modFwCore k f).publishes = s.publishes := rfl
@[simp] theorem State.modFwCore_d3hot (k : Nat) (f : FwCore → FwCore) : (s.modFwCore k f).d3hot = s.d3hot := rfl
@[simp] theorem State.modFwCore_cfg (k : Nat) (f : FwCore → FwCore) : (s.modFwCore k f).cfg = s.cfg := rfl
@[simp] theorem State.modFwCore_maxRead (k : Nat) (f : FwCore → FwCore) : (s.modFwCore k f).maxRead = s.maxRead := rfl
@[simp] theorem State.modFwCore_maxPayload (k : Nat) (f : FwCore → FwCore) : (s.modFwCore k f).maxPayload = s.maxPayload := rfl
@[simp] theorem State.modFwCore_scaleFail (k : Nat) (f : FwCore → FwCore) : (s.modFwCore k f).scaleFail = s.scaleFail := rfl
@[simp] theorem State.modFwCore_tileFail (k : Nat) (f : FwCore → FwCore) : (s.modFwCore k f).tileFail = s.tileFail := rfl
@[simp] theorem State.modFwCore_objs (k : Nat) (f : FwCore → FwCore) : (s.modFwCore k f).objs = s.objs := rfl
@[simp] theorem State.modFwCore_causes (k : Nat) (f : FwCore → FwCore) : (s.modFwCore k f).causes = s.causes := rfl
@[simp] theorem State.modFwCore_boot (k : Nat) (f : FwCore → FwCore) : (s.modFwCore k f).boot = s.boot := rfl
@[simp] theorem State.modFwCore_bring (k : Nat) (f : FwCore → FwCore) : (s.modFwCore k f).bring = s.bring := rfl
@[simp] theorem State.modFwCore_fresets (k : Nat) (f : FwCore → FwCore) : (s.modFwCore k f).fresets = s.fresets := rfl
@[simp] theorem State.modFwCore_flash (k : Nat) (f : FwCore → FwCore) : (s.modFwCore k f).flash = s.flash := rfl
@[simp] theorem State.modFwCore_ronbin (k : Nat) (f : FwCore → FwCore) : (s.modFwCore k f).ronbin = s.ronbin := rfl

/-! `modBoot` -/
@[simp] theorem State.modBoot_pending (f : Boot → Boot) : (s.modBoot f).pending = s.pending := rfl
@[simp] theorem State.modBoot_freeCount (f : Boot → Boot) : (s.modBoot f).freeCount = s.freeCount := rfl
@[simp] theorem State.modBoot_out (f : Boot → Boot) : (s.modBoot f).out = s.out := rfl
@[simp] theorem State.modBoot_regs (f : Boot → Boot) : (s.modBoot f).regs = s.regs := rfl
@[simp] theorem State.modBoot_mem (f : Boot → Boot) : (s.modBoot f).mem = s.mem := rfl
@[simp] theorem State.modBoot_badWords (f : Boot → Boot) : (s.modBoot f).badWords = s.badWords := rfl
@[simp] theorem State.modBoot_threads (f : Boot → Boot) : (s.modBoot f).threads = s.threads := rfl
@[simp] theorem State.modBoot_tiles (f : Boot → Boot) : (s.modBoot f).tiles = s.tiles := rfl
@[simp] theorem State.modBoot_ctxs (f : Boot → Boot) : (s.modBoot f).ctxs = s.ctxs := rfl
@[simp] theorem State.modBoot_hamper (f : Boot → Boot) : (s.modBoot f).hamper = s.hamper := rfl
@[simp] theorem State.modBoot_roots (f : Boot → Boot) : (s.modBoot f).roots = s.roots := rfl
@[simp] theorem State.modBoot_log (f : Boot → Boot) : (s.modBoot f).log = s.log := rfl
@[simp] theorem State.modBoot_hist (f : Boot → Boot) : (s.modBoot f).hist = s.hist := rfl
@[simp] theorem State.modBoot_notices (f : Boot → Boot) : (s.modBoot f).notices = s.notices := rfl
@[simp] theorem State.modBoot_faultLow (f : Boot → Boot) : (s.modBoot f).faultLow = s.faultLow := rfl
@[simp] theorem State.modBoot_stopFrozen (f : Boot → Boot) : (s.modBoot f).stopFrozen = s.stopFrozen := rfl
@[simp] theorem State.modBoot_vecCount (f : Boot → Boot) : (s.modBoot f).vecCount = s.vecCount := rfl
@[simp] theorem State.modBoot_ports (f : Boot → Boot) : (s.modBoot f).ports = s.ports := rfl
@[simp] theorem State.modBoot_coordKnown (f : Boot → Boot) : (s.modBoot f).coordKnown = s.coordKnown := rfl
@[simp] theorem State.modBoot_lasers (f : Boot → Boot) : (s.modBoot f).lasers = s.lasers := rfl
@[simp] theorem State.modBoot_stileAcks (f : Boot → Boot) : (s.modBoot f).stileAcks = s.stileAcks := rfl
@[simp] theorem State.modBoot_xfers (f : Boot → Boot) : (s.modBoot f).xfers = s.xfers := rfl
@[simp] theorem State.modBoot_nextTid (f : Boot → Boot) : (s.modBoot f).nextTid = s.nextTid := rfl
@[simp] theorem State.modBoot_streams (f : Boot → Boot) : (s.modBoot f).streams = s.streams := rfl
@[simp] theorem State.modBoot_launches (f : Boot → Boot) : (s.modBoot f).launches = s.launches := rfl
@[simp] theorem State.modBoot_reassemblies (f : Boot → Boot) : (s.modBoot f).reassemblies = s.reassemblies := rfl
@[simp] theorem State.modBoot_rxWait (f : Boot → Boot) : (s.modBoot f).rxWait = s.rxWait := rfl
@[simp] theorem State.modBoot_arrived (f : Boot → Boot) : (s.modBoot f).arrived = s.arrived := rfl
@[simp] theorem State.modBoot_accepted (f : Boot → Boot) : (s.modBoot f).accepted = s.accepted := rfl
@[simp] theorem State.modBoot_shardFailed (f : Boot → Boot) : (s.modBoot f).shardFailed = s.shardFailed := rfl
@[simp] theorem State.modBoot_lark (f : Boot → Boot) : (s.modBoot f).lark = s.lark := rfl
@[simp] theorem State.modBoot_rings (f : Boot → Boot) : (s.modBoot f).rings = s.rings := rfl
@[simp] theorem State.modBoot_intakes (f : Boot → Boot) : (s.modBoot f).intakes = s.intakes := rfl
@[simp] theorem State.modBoot_publishes (f : Boot → Boot) : (s.modBoot f).publishes = s.publishes := rfl
@[simp] theorem State.modBoot_d3hot (f : Boot → Boot) : (s.modBoot f).d3hot = s.d3hot := rfl
@[simp] theorem State.modBoot_cfg (f : Boot → Boot) : (s.modBoot f).cfg = s.cfg := rfl
@[simp] theorem State.modBoot_maxRead (f : Boot → Boot) : (s.modBoot f).maxRead = s.maxRead := rfl
@[simp] theorem State.modBoot_maxPayload (f : Boot → Boot) : (s.modBoot f).maxPayload = s.maxPayload := rfl
@[simp] theorem State.modBoot_scaleFail (f : Boot → Boot) : (s.modBoot f).scaleFail = s.scaleFail := rfl
@[simp] theorem State.modBoot_tileFail (f : Boot → Boot) : (s.modBoot f).tileFail = s.tileFail := rfl
@[simp] theorem State.modBoot_objs (f : Boot → Boot) : (s.modBoot f).objs = s.objs := rfl
@[simp] theorem State.modBoot_causes (f : Boot → Boot) : (s.modBoot f).causes = s.causes := rfl
@[simp] theorem State.modBoot_fwCores (f : Boot → Boot) : (s.modBoot f).fwCores = s.fwCores := rfl
@[simp] theorem State.modBoot_bring (f : Boot → Boot) : (s.modBoot f).bring = s.bring := rfl
@[simp] theorem State.modBoot_fresets (f : Boot → Boot) : (s.modBoot f).fresets = s.fresets := rfl
@[simp] theorem State.modBoot_flash (f : Boot → Boot) : (s.modBoot f).flash = s.flash := rfl
@[simp] theorem State.modBoot_ronbin (f : Boot → Boot) : (s.modBoot f).ronbin = s.ronbin := rfl

/-! `modBring` -/
@[simp] theorem State.modBring_pending (f : Bring → Bring) : (s.modBring f).pending = s.pending := rfl
@[simp] theorem State.modBring_freeCount (f : Bring → Bring) : (s.modBring f).freeCount = s.freeCount := rfl
@[simp] theorem State.modBring_out (f : Bring → Bring) : (s.modBring f).out = s.out := rfl
@[simp] theorem State.modBring_regs (f : Bring → Bring) : (s.modBring f).regs = s.regs := rfl
@[simp] theorem State.modBring_mem (f : Bring → Bring) : (s.modBring f).mem = s.mem := rfl
@[simp] theorem State.modBring_badWords (f : Bring → Bring) : (s.modBring f).badWords = s.badWords := rfl
@[simp] theorem State.modBring_threads (f : Bring → Bring) : (s.modBring f).threads = s.threads := rfl
@[simp] theorem State.modBring_tiles (f : Bring → Bring) : (s.modBring f).tiles = s.tiles := rfl
@[simp] theorem State.modBring_ctxs (f : Bring → Bring) : (s.modBring f).ctxs = s.ctxs := rfl
@[simp] theorem State.modBring_hamper (f : Bring → Bring) : (s.modBring f).hamper = s.hamper := rfl
@[simp] theorem State.modBring_roots (f : Bring → Bring) : (s.modBring f).roots = s.roots := rfl
@[simp] theorem State.modBring_log (f : Bring → Bring) : (s.modBring f).log = s.log := rfl
@[simp] theorem State.modBring_hist (f : Bring → Bring) : (s.modBring f).hist = s.hist := rfl
@[simp] theorem State.modBring_notices (f : Bring → Bring) : (s.modBring f).notices = s.notices := rfl
@[simp] theorem State.modBring_faultLow (f : Bring → Bring) : (s.modBring f).faultLow = s.faultLow := rfl
@[simp] theorem State.modBring_stopFrozen (f : Bring → Bring) : (s.modBring f).stopFrozen = s.stopFrozen := rfl
@[simp] theorem State.modBring_vecCount (f : Bring → Bring) : (s.modBring f).vecCount = s.vecCount := rfl
@[simp] theorem State.modBring_ports (f : Bring → Bring) : (s.modBring f).ports = s.ports := rfl
@[simp] theorem State.modBring_coordKnown (f : Bring → Bring) : (s.modBring f).coordKnown = s.coordKnown := rfl
@[simp] theorem State.modBring_lasers (f : Bring → Bring) : (s.modBring f).lasers = s.lasers := rfl
@[simp] theorem State.modBring_stileAcks (f : Bring → Bring) : (s.modBring f).stileAcks = s.stileAcks := rfl
@[simp] theorem State.modBring_xfers (f : Bring → Bring) : (s.modBring f).xfers = s.xfers := rfl
@[simp] theorem State.modBring_nextTid (f : Bring → Bring) : (s.modBring f).nextTid = s.nextTid := rfl
@[simp] theorem State.modBring_streams (f : Bring → Bring) : (s.modBring f).streams = s.streams := rfl
@[simp] theorem State.modBring_launches (f : Bring → Bring) : (s.modBring f).launches = s.launches := rfl
@[simp] theorem State.modBring_reassemblies (f : Bring → Bring) : (s.modBring f).reassemblies = s.reassemblies := rfl
@[simp] theorem State.modBring_rxWait (f : Bring → Bring) : (s.modBring f).rxWait = s.rxWait := rfl
@[simp] theorem State.modBring_arrived (f : Bring → Bring) : (s.modBring f).arrived = s.arrived := rfl
@[simp] theorem State.modBring_accepted (f : Bring → Bring) : (s.modBring f).accepted = s.accepted := rfl
@[simp] theorem State.modBring_shardFailed (f : Bring → Bring) : (s.modBring f).shardFailed = s.shardFailed := rfl
@[simp] theorem State.modBring_lark (f : Bring → Bring) : (s.modBring f).lark = s.lark := rfl
@[simp] theorem State.modBring_rings (f : Bring → Bring) : (s.modBring f).rings = s.rings := rfl
@[simp] theorem State.modBring_intakes (f : Bring → Bring) : (s.modBring f).intakes = s.intakes := rfl
@[simp] theorem State.modBring_publishes (f : Bring → Bring) : (s.modBring f).publishes = s.publishes := rfl
@[simp] theorem State.modBring_d3hot (f : Bring → Bring) : (s.modBring f).d3hot = s.d3hot := rfl
@[simp] theorem State.modBring_cfg (f : Bring → Bring) : (s.modBring f).cfg = s.cfg := rfl
@[simp] theorem State.modBring_maxRead (f : Bring → Bring) : (s.modBring f).maxRead = s.maxRead := rfl
@[simp] theorem State.modBring_maxPayload (f : Bring → Bring) : (s.modBring f).maxPayload = s.maxPayload := rfl
@[simp] theorem State.modBring_scaleFail (f : Bring → Bring) : (s.modBring f).scaleFail = s.scaleFail := rfl
@[simp] theorem State.modBring_tileFail (f : Bring → Bring) : (s.modBring f).tileFail = s.tileFail := rfl
@[simp] theorem State.modBring_objs (f : Bring → Bring) : (s.modBring f).objs = s.objs := rfl
@[simp] theorem State.modBring_causes (f : Bring → Bring) : (s.modBring f).causes = s.causes := rfl
@[simp] theorem State.modBring_fwCores (f : Bring → Bring) : (s.modBring f).fwCores = s.fwCores := rfl
@[simp] theorem State.modBring_boot (f : Bring → Bring) : (s.modBring f).boot = s.boot := rfl
@[simp] theorem State.modBring_fresets (f : Bring → Bring) : (s.modBring f).fresets = s.fresets := rfl
@[simp] theorem State.modBring_flash (f : Bring → Bring) : (s.modBring f).flash = s.flash := rfl
@[simp] theorem State.modBring_ronbin (f : Bring → Bring) : (s.modBring f).ronbin = s.ronbin := rfl

/-! `modFlash` -/
@[simp] theorem State.modFlash_pending (f : Flash → Flash) : (s.modFlash f).pending = s.pending := rfl
@[simp] theorem State.modFlash_freeCount (f : Flash → Flash) : (s.modFlash f).freeCount = s.freeCount := rfl
@[simp] theorem State.modFlash_out (f : Flash → Flash) : (s.modFlash f).out = s.out := rfl
@[simp] theorem State.modFlash_regs (f : Flash → Flash) : (s.modFlash f).regs = s.regs := rfl
@[simp] theorem State.modFlash_mem (f : Flash → Flash) : (s.modFlash f).mem = s.mem := rfl
@[simp] theorem State.modFlash_badWords (f : Flash → Flash) : (s.modFlash f).badWords = s.badWords := rfl
@[simp] theorem State.modFlash_threads (f : Flash → Flash) : (s.modFlash f).threads = s.threads := rfl
@[simp] theorem State.modFlash_tiles (f : Flash → Flash) : (s.modFlash f).tiles = s.tiles := rfl
@[simp] theorem State.modFlash_ctxs (f : Flash → Flash) : (s.modFlash f).ctxs = s.ctxs := rfl
@[simp] theorem State.modFlash_hamper (f : Flash → Flash) : (s.modFlash f).hamper = s.hamper := rfl
@[simp] theorem State.modFlash_roots (f : Flash → Flash) : (s.modFlash f).roots = s.roots := rfl
@[simp] theorem State.modFlash_log (f : Flash → Flash) : (s.modFlash f).log = s.log := rfl
@[simp] theorem State.modFlash_hist (f : Flash → Flash) : (s.modFlash f).hist = s.hist := rfl
@[simp] theorem State.modFlash_notices (f : Flash → Flash) : (s.modFlash f).notices = s.notices := rfl
@[simp] theorem State.modFlash_faultLow (f : Flash → Flash) : (s.modFlash f).faultLow = s.faultLow := rfl
@[simp] theorem State.modFlash_stopFrozen (f : Flash → Flash) : (s.modFlash f).stopFrozen = s.stopFrozen := rfl
@[simp] theorem State.modFlash_vecCount (f : Flash → Flash) : (s.modFlash f).vecCount = s.vecCount := rfl
@[simp] theorem State.modFlash_ports (f : Flash → Flash) : (s.modFlash f).ports = s.ports := rfl
@[simp] theorem State.modFlash_coordKnown (f : Flash → Flash) : (s.modFlash f).coordKnown = s.coordKnown := rfl
@[simp] theorem State.modFlash_lasers (f : Flash → Flash) : (s.modFlash f).lasers = s.lasers := rfl
@[simp] theorem State.modFlash_stileAcks (f : Flash → Flash) : (s.modFlash f).stileAcks = s.stileAcks := rfl
@[simp] theorem State.modFlash_xfers (f : Flash → Flash) : (s.modFlash f).xfers = s.xfers := rfl
@[simp] theorem State.modFlash_nextTid (f : Flash → Flash) : (s.modFlash f).nextTid = s.nextTid := rfl
@[simp] theorem State.modFlash_streams (f : Flash → Flash) : (s.modFlash f).streams = s.streams := rfl
@[simp] theorem State.modFlash_launches (f : Flash → Flash) : (s.modFlash f).launches = s.launches := rfl
@[simp] theorem State.modFlash_reassemblies (f : Flash → Flash) : (s.modFlash f).reassemblies = s.reassemblies := rfl
@[simp] theorem State.modFlash_rxWait (f : Flash → Flash) : (s.modFlash f).rxWait = s.rxWait := rfl
@[simp] theorem State.modFlash_arrived (f : Flash → Flash) : (s.modFlash f).arrived = s.arrived := rfl
@[simp] theorem State.modFlash_accepted (f : Flash → Flash) : (s.modFlash f).accepted = s.accepted := rfl
@[simp] theorem State.modFlash_shardFailed (f : Flash → Flash) : (s.modFlash f).shardFailed = s.shardFailed := rfl
@[simp] theorem State.modFlash_lark (f : Flash → Flash) : (s.modFlash f).lark = s.lark := rfl
@[simp] theorem State.modFlash_rings (f : Flash → Flash) : (s.modFlash f).rings = s.rings := rfl
@[simp] theorem State.modFlash_intakes (f : Flash → Flash) : (s.modFlash f).intakes = s.intakes := rfl
@[simp] theorem State.modFlash_publishes (f : Flash → Flash) : (s.modFlash f).publishes = s.publishes := rfl
@[simp] theorem State.modFlash_d3hot (f : Flash → Flash) : (s.modFlash f).d3hot = s.d3hot := rfl
@[simp] theorem State.modFlash_cfg (f : Flash → Flash) : (s.modFlash f).cfg = s.cfg := rfl
@[simp] theorem State.modFlash_maxRead (f : Flash → Flash) : (s.modFlash f).maxRead = s.maxRead := rfl
@[simp] theorem State.modFlash_maxPayload (f : Flash → Flash) : (s.modFlash f).maxPayload = s.maxPayload := rfl
@[simp] theorem State.modFlash_scaleFail (f : Flash → Flash) : (s.modFlash f).scaleFail = s.scaleFail := rfl
@[simp] theorem State.modFlash_tileFail (f : Flash → Flash) : (s.modFlash f).tileFail = s.tileFail := rfl
@[simp] theorem State.modFlash_objs (f : Flash → Flash) : (s.modFlash f).objs = s.objs := rfl
@[simp] theorem State.modFlash_causes (f : Flash → Flash) : (s.modFlash f).causes = s.causes := rfl
@[simp] theorem State.modFlash_fwCores (f : Flash → Flash) : (s.modFlash f).fwCores = s.fwCores := rfl
@[simp] theorem State.modFlash_boot (f : Flash → Flash) : (s.modFlash f).boot = s.boot := rfl
@[simp] theorem State.modFlash_bring (f : Flash → Flash) : (s.modFlash f).bring = s.bring := rfl
@[simp] theorem State.modFlash_fresets (f : Flash → Flash) : (s.modFlash f).fresets = s.fresets := rfl
@[simp] theorem State.modFlash_ronbin (f : Flash → Flash) : (s.modFlash f).ronbin = s.ronbin := rfl

/-! `modRonbin` -/
@[simp] theorem State.modRonbin_pending (f : Ronbin → Ronbin) : (s.modRonbin f).pending = s.pending := rfl
@[simp] theorem State.modRonbin_freeCount (f : Ronbin → Ronbin) : (s.modRonbin f).freeCount = s.freeCount := rfl
@[simp] theorem State.modRonbin_out (f : Ronbin → Ronbin) : (s.modRonbin f).out = s.out := rfl
@[simp] theorem State.modRonbin_regs (f : Ronbin → Ronbin) : (s.modRonbin f).regs = s.regs := rfl
@[simp] theorem State.modRonbin_mem (f : Ronbin → Ronbin) : (s.modRonbin f).mem = s.mem := rfl
@[simp] theorem State.modRonbin_badWords (f : Ronbin → Ronbin) : (s.modRonbin f).badWords = s.badWords := rfl
@[simp] theorem State.modRonbin_threads (f : Ronbin → Ronbin) : (s.modRonbin f).threads = s.threads := rfl
@[simp] theorem State.modRonbin_tiles (f : Ronbin → Ronbin) : (s.modRonbin f).tiles = s.tiles := rfl
@[simp] theorem State.modRonbin_ctxs (f : Ronbin → Ronbin) : (s.modRonbin f).ctxs = s.ctxs := rfl
@[simp] theorem State.modRonbin_hamper (f : Ronbin → Ronbin) : (s.modRonbin f).hamper = s.hamper := rfl
@[simp] theorem State.modRonbin_roots (f : Ronbin → Ronbin) : (s.modRonbin f).roots = s.roots := rfl
@[simp] theorem State.modRonbin_log (f : Ronbin → Ronbin) : (s.modRonbin f).log = s.log := rfl
@[simp] theorem State.modRonbin_hist (f : Ronbin → Ronbin) : (s.modRonbin f).hist = s.hist := rfl
@[simp] theorem State.modRonbin_notices (f : Ronbin → Ronbin) : (s.modRonbin f).notices = s.notices := rfl
@[simp] theorem State.modRonbin_faultLow (f : Ronbin → Ronbin) : (s.modRonbin f).faultLow = s.faultLow := rfl
@[simp] theorem State.modRonbin_stopFrozen (f : Ronbin → Ronbin) : (s.modRonbin f).stopFrozen = s.stopFrozen := rfl
@[simp] theorem State.modRonbin_vecCount (f : Ronbin → Ronbin) : (s.modRonbin f).vecCount = s.vecCount := rfl
@[simp] theorem State.modRonbin_ports (f : Ronbin → Ronbin) : (s.modRonbin f).ports = s.ports := rfl
@[simp] theorem State.modRonbin_coordKnown (f : Ronbin → Ronbin) : (s.modRonbin f).coordKnown = s.coordKnown := rfl
@[simp] theorem State.modRonbin_lasers (f : Ronbin → Ronbin) : (s.modRonbin f).lasers = s.lasers := rfl
@[simp] theorem State.modRonbin_stileAcks (f : Ronbin → Ronbin) : (s.modRonbin f).stileAcks = s.stileAcks := rfl
@[simp] theorem State.modRonbin_xfers (f : Ronbin → Ronbin) : (s.modRonbin f).xfers = s.xfers := rfl
@[simp] theorem State.modRonbin_nextTid (f : Ronbin → Ronbin) : (s.modRonbin f).nextTid = s.nextTid := rfl
@[simp] theorem State.modRonbin_streams (f : Ronbin → Ronbin) : (s.modRonbin f).streams = s.streams := rfl
@[simp] theorem State.modRonbin_launches (f : Ronbin → Ronbin) : (s.modRonbin f).launches = s.launches := rfl
@[simp] theorem State.modRonbin_reassemblies (f : Ronbin → Ronbin) : (s.modRonbin f).reassemblies = s.reassemblies := rfl
@[simp] theorem State.modRonbin_rxWait (f : Ronbin → Ronbin) : (s.modRonbin f).rxWait = s.rxWait := rfl
@[simp] theorem State.modRonbin_arrived (f : Ronbin → Ronbin) : (s.modRonbin f).arrived = s.arrived := rfl
@[simp] theorem State.modRonbin_accepted (f : Ronbin → Ronbin) : (s.modRonbin f).accepted = s.accepted := rfl
@[simp] theorem State.modRonbin_shardFailed (f : Ronbin → Ronbin) : (s.modRonbin f).shardFailed = s.shardFailed := rfl
@[simp] theorem State.modRonbin_lark (f : Ronbin → Ronbin) : (s.modRonbin f).lark = s.lark := rfl
@[simp] theorem State.modRonbin_rings (f : Ronbin → Ronbin) : (s.modRonbin f).rings = s.rings := rfl
@[simp] theorem State.modRonbin_intakes (f : Ronbin → Ronbin) : (s.modRonbin f).intakes = s.intakes := rfl
@[simp] theorem State.modRonbin_publishes (f : Ronbin → Ronbin) : (s.modRonbin f).publishes = s.publishes := rfl
@[simp] theorem State.modRonbin_d3hot (f : Ronbin → Ronbin) : (s.modRonbin f).d3hot = s.d3hot := rfl
@[simp] theorem State.modRonbin_cfg (f : Ronbin → Ronbin) : (s.modRonbin f).cfg = s.cfg := rfl
@[simp] theorem State.modRonbin_maxRead (f : Ronbin → Ronbin) : (s.modRonbin f).maxRead = s.maxRead := rfl
@[simp] theorem State.modRonbin_maxPayload (f : Ronbin → Ronbin) : (s.modRonbin f).maxPayload = s.maxPayload := rfl
@[simp] theorem State.modRonbin_scaleFail (f : Ronbin → Ronbin) : (s.modRonbin f).scaleFail = s.scaleFail := rfl
@[simp] theorem State.modRonbin_tileFail (f : Ronbin → Ronbin) : (s.modRonbin f).tileFail = s.tileFail := rfl
@[simp] theorem State.modRonbin_objs (f : Ronbin → Ronbin) : (s.modRonbin f).objs = s.objs := rfl
@[simp] theorem State.modRonbin_causes (f : Ronbin → Ronbin) : (s.modRonbin f).causes = s.causes := rfl
@[simp] theorem State.modRonbin_fwCores (f : Ronbin → Ronbin) : (s.modRonbin f).fwCores = s.fwCores := rfl
@[simp] theorem State.modRonbin_boot (f : Ronbin → Ronbin) : (s.modRonbin f).boot = s.boot := rfl
@[simp] theorem State.modRonbin_bring (f : Ronbin → Ronbin) : (s.modRonbin f).bring = s.bring := rfl
@[simp] theorem State.modRonbin_fresets (f : Ronbin → Ronbin) : (s.modRonbin f).fresets = s.fresets := rfl
@[simp] theorem State.modRonbin_flash (f : Ronbin → Ronbin) : (s.modRonbin f).flash = s.flash := rfl

/-! `modSession` -/
@[simp] theorem State.modSession_pending (n : Nat) (f : Session → Session) : (s.modSession n f).pending = s.pending := rfl
@[simp] theorem State.modSession_freeCount (n : Nat) (f : Session → Session) : (s.modSession n f).freeCount = s.freeCount := rfl
@[simp] theorem State.modSession_out (n : Nat) (f : Session → Session) : (s.modSession n f).out = s.out := rfl
@[simp] theorem State.modSession_regs (n : Nat) (f : Session → Session) : (s.modSession n f).regs = s.regs := rfl
@[simp] theorem State.modSession_mem (n : Nat) (f : Session → Session) : (s.modSession n f).mem = s.mem := rfl
@[simp] theorem State.modSession_badWords (n : Nat) (f : Session → Session) : (s.modSession n f).badWords = s.badWords := rfl
@[simp] theorem State.modSession_threads (n : Nat) (f : Session → Session) : (s.modSession n f).threads = s.threads := rfl
@[simp] theorem State.modSession_tiles (n : Nat) (f : Session → Session) : (s.modSession n f).tiles = s.tiles := rfl
@[simp] theorem State.modSession_ctxs (n : Nat) (f : Session → Session) : (s.modSession n f).ctxs = s.ctxs := rfl
@[simp] theorem State.modSession_hamper (n : Nat) (f : Session → Session) : (s.modSession n f).hamper = s.hamper := rfl
@[simp] theorem State.modSession_roots (n : Nat) (f : Session → Session) : (s.modSession n f).roots = s.roots := rfl
@[simp] theorem State.modSession_log (n : Nat) (f : Session → Session) : (s.modSession n f).log = s.log := rfl
@[simp] theorem State.modSession_hist (n : Nat) (f : Session → Session) : (s.modSession n f).hist = s.hist := rfl
@[simp] theorem State.modSession_notices (n : Nat) (f : Session → Session) : (s.modSession n f).notices = s.notices := rfl
@[simp] theorem State.modSession_faultLow (n : Nat) (f : Session → Session) : (s.modSession n f).faultLow = s.faultLow := rfl
@[simp] theorem State.modSession_stopFrozen (n : Nat) (f : Session → Session) : (s.modSession n f).stopFrozen = s.stopFrozen := rfl
@[simp] theorem State.modSession_vecCount (n : Nat) (f : Session → Session) : (s.modSession n f).vecCount = s.vecCount := rfl
@[simp] theorem State.modSession_ports (n : Nat) (f : Session → Session) : (s.modSession n f).ports = s.ports := rfl
@[simp] theorem State.modSession_coordKnown (n : Nat) (f : Session → Session) : (s.modSession n f).coordKnown = s.coordKnown := rfl
@[simp] theorem State.modSession_lasers (n : Nat) (f : Session → Session) : (s.modSession n f).lasers = s.lasers := rfl
@[simp] theorem State.modSession_stileAcks (n : Nat) (f : Session → Session) : (s.modSession n f).stileAcks = s.stileAcks := rfl
@[simp] theorem State.modSession_xfers (n : Nat) (f : Session → Session) : (s.modSession n f).xfers = s.xfers := rfl
@[simp] theorem State.modSession_nextTid (n : Nat) (f : Session → Session) : (s.modSession n f).nextTid = s.nextTid := rfl
@[simp] theorem State.modSession_streams (n : Nat) (f : Session → Session) : (s.modSession n f).streams = s.streams := rfl
@[simp] theorem State.modSession_launches (n : Nat) (f : Session → Session) : (s.modSession n f).launches = s.launches := rfl
@[simp] theorem State.modSession_reassemblies (n : Nat) (f : Session → Session) : (s.modSession n f).reassemblies = s.reassemblies := rfl
@[simp] theorem State.modSession_rxWait (n : Nat) (f : Session → Session) : (s.modSession n f).rxWait = s.rxWait := rfl
@[simp] theorem State.modSession_arrived (n : Nat) (f : Session → Session) : (s.modSession n f).arrived = s.arrived := rfl
@[simp] theorem State.modSession_accepted (n : Nat) (f : Session → Session) : (s.modSession n f).accepted = s.accepted := rfl
@[simp] theorem State.modSession_shardFailed (n : Nat) (f : Session → Session) : (s.modSession n f).shardFailed = s.shardFailed := rfl
@[simp] theorem State.modSession_lark (n : Nat) (f : Session → Session) : (s.modSession n f).lark = s.lark := rfl
@[simp] theorem State.modSession_rings (n : Nat) (f : Session → Session) : (s.modSession n f).rings = s.rings := rfl
@[simp] theorem State.modSession_intakes (n : Nat) (f : Session → Session) : (s.modSession n f).intakes = s.intakes := rfl
@[simp] theorem State.modSession_publishes (n : Nat) (f : Session → Session) : (s.modSession n f).publishes = s.publishes := rfl
@[simp] theorem State.modSession_d3hot (n : Nat) (f : Session → Session) : (s.modSession n f).d3hot = s.d3hot := rfl
@[simp] theorem State.modSession_cfg (n : Nat) (f : Session → Session) : (s.modSession n f).cfg = s.cfg := rfl
@[simp] theorem State.modSession_maxRead (n : Nat) (f : Session → Session) : (s.modSession n f).maxRead = s.maxRead := rfl
@[simp] theorem State.modSession_maxPayload (n : Nat) (f : Session → Session) : (s.modSession n f).maxPayload = s.maxPayload := rfl
@[simp] theorem State.modSession_scaleFail (n : Nat) (f : Session → Session) : (s.modSession n f).scaleFail = s.scaleFail := rfl
@[simp] theorem State.modSession_tileFail (n : Nat) (f : Session → Session) : (s.modSession n f).tileFail = s.tileFail := rfl
@[simp] theorem State.modSession_objs (n : Nat) (f : Session → Session) : (s.modSession n f).objs = s.objs := rfl
@[simp] theorem State.modSession_causes (n : Nat) (f : Session → Session) : (s.modSession n f).causes = s.causes := rfl
@[simp] theorem State.modSession_fwCores (n : Nat) (f : Session → Session) : (s.modSession n f).fwCores = s.fwCores := rfl
@[simp] theorem State.modSession_boot (n : Nat) (f : Session → Session) : (s.modSession n f).boot = s.boot := rfl
@[simp] theorem State.modSession_bring (n : Nat) (f : Session → Session) : (s.modSession n f).bring = s.bring := rfl
@[simp] theorem State.modSession_fresets (n : Nat) (f : Session → Session) : (s.modSession n f).fresets = s.fresets := rfl
@[simp] theorem State.modSession_flash (n : Nat) (f : Session → Session) : (s.modSession n f).flash = s.flash := rfl

/-! `send` -/
@[simp] theorem State.send_pending (o : Out) : (s.send o).pending = s.pending := rfl
@[simp] theorem State.send_freeCount (o : Out) : (s.send o).freeCount = s.freeCount := rfl
@[simp] theorem State.send_regs (o : Out) : (s.send o).regs = s.regs := rfl
@[simp] theorem State.send_mem (o : Out) : (s.send o).mem = s.mem := rfl
@[simp] theorem State.send_badWords (o : Out) : (s.send o).badWords = s.badWords := rfl
@[simp] theorem State.send_threads (o : Out) : (s.send o).threads = s.threads := rfl
@[simp] theorem State.send_tiles (o : Out) : (s.send o).tiles = s.tiles := rfl
@[simp] theorem State.send_ctxs (o : Out) : (s.send o).ctxs = s.ctxs := rfl
@[simp] theorem State.send_hamper (o : Out) : (s.send o).hamper = s.hamper := rfl
@[simp] theorem State.send_roots (o : Out) : (s.send o).roots = s.roots := rfl
@[simp] theorem State.send_log (o : Out) : (s.send o).log = s.log := rfl
@[simp] theorem State.send_hist (o : Out) : (s.send o).hist = s.hist := rfl
@[simp] theorem State.send_notices (o : Out) : (s.send o).notices = s.notices := rfl
@[simp] theorem State.send_faultLow (o : Out) : (s.send o).faultLow = s.faultLow := rfl
@[simp] theorem State.send_stopFrozen (o : Out) : (s.send o).stopFrozen = s.stopFrozen := rfl
@[simp] theorem State.send_vecCount (o : Out) : (s.send o).vecCount = s.vecCount := rfl
@[simp] theorem State.send_ports (o : Out) : (s.send o).ports = s.ports := rfl
@[simp] theorem State.send_coordKnown (o : Out) : (s.send o).coordKnown = s.coordKnown := rfl
@[simp] theorem State.send_lasers (o : Out) : (s.send o).lasers = s.lasers := rfl
@[simp] theorem State.send_stileAcks (o : Out) : (s.send o).stileAcks = s.stileAcks := rfl
@[simp] theorem State.send_xfers (o : Out) : (s.send o).xfers = s.xfers := rfl
@[simp] theorem State.send_nextTid (o : Out) : (s.send o).nextTid = s.nextTid := rfl
@[simp] theorem State.send_streams (o : Out) : (s.send o).streams = s.streams := rfl
@[simp] theorem State.send_launches (o : Out) : (s.send o).launches = s.launches := rfl
@[simp] theorem State.send_reassemblies (o : Out) : (s.send o).reassemblies = s.reassemblies := rfl
@[simp] theorem State.send_rxWait (o : Out) : (s.send o).rxWait = s.rxWait := rfl
@[simp] theorem State.send_arrived (o : Out) : (s.send o).arrived = s.arrived := rfl
@[simp] theorem State.send_accepted (o : Out) : (s.send o).accepted = s.accepted := rfl
@[simp] theorem State.send_shardFailed (o : Out) : (s.send o).shardFailed = s.shardFailed := rfl
@[simp] theorem State.send_lark (o : Out) : (s.send o).lark = s.lark := rfl
@[simp] theorem State.send_rings (o : Out) : (s.send o).rings = s.rings := rfl
@[simp] theorem State.send_intakes (o : Out) : (s.send o).intakes = s.intakes := rfl
@[simp] theorem State.send_publishes (o : Out) : (s.send o).publishes = s.publishes := rfl
@[simp] theorem State.send_d3hot (o : Out) : (s.send o).d3hot = s.d3hot := rfl
@[simp] theorem State.send_cfg (o : Out) : (s.send o).cfg = s.cfg := rfl
@[simp] theorem State.send_maxRead (o : Out) : (s.send o).maxRead = s.maxRead := rfl
@[simp] theorem State.send_maxPayload (o : Out) : (s.send o).maxPayload = s.maxPayload := rfl
@[simp] theorem State.send_scaleFail (o : Out) : (s.send o).scaleFail = s.scaleFail := rfl
@[simp] theorem State.send_tileFail (o : Out) : (s.send o).tileFail = s.tileFail := rfl
@[simp] theorem State.send_objs (o : Out) : (s.send o).objs = s.objs := rfl
@[simp] theorem State.send_causes (o : Out) : (s.send o).causes = s.causes := rfl
@[simp] theorem State.send_fwCores (o : Out) : (s.send o).fwCores = s.fwCores := rfl
@[simp] theorem State.send_boot (o : Out) : (s.send o).boot = s.boot := rfl
@[simp] theorem State.send_bring (o : Out) : (s.send o).bring = s.bring := rfl
@[simp] theorem State.send_fresets (o : Out) : (s.send o).fresets = s.fresets := rfl
@[simp] theorem State.send_flash (o : Out) : (s.send o).flash = s.flash := rfl
@[simp] theorem State.send_ronbin (o : Out) : (s.send o).ronbin = s.ronbin := rfl

@[simp] theorem State.free_snd_field (s : State) : s.free.2 = { s with freeCount := s.freeCount + 1 } := rfl
theorem State.free_fst (s : State) : s.free.1 = Config.freeWord s.freeCount := rfl

/-! `setBytes` changes memory only. -/
theorem State.setBytes_with (l : List Byte) : ∀ (s : State) (a : Nat), ∃ m, s.setBytes a l = { s with mem := m } := by
  induction l with
  | nil => exact fun s _ => ⟨s.mem, rfl⟩
  | cons b l ih =>
    intro s a
    obtain ⟨m, hm⟩ := ih (s.setByte a b) (a + 1)
    exact ⟨m, hm⟩

@[simp] theorem State.setBytes_pending (a : Nat) (l : List Byte) : (s.setBytes a l).pending = s.pending := by
  obtain ⟨m, hm⟩ := State.setBytes_with l s a; rw [hm]
@[simp] theorem State.setBytes_freeCount (a : Nat) (l : List Byte) : (s.setBytes a l).freeCount = s.freeCount := by
  obtain ⟨m, hm⟩ := State.setBytes_with l s a; rw [hm]
@[simp] theorem State.setBytes_out (a : Nat) (l : List Byte) : (s.setBytes a l).out = s.out := by
  obtain ⟨m, hm⟩ := State.setBytes_with l s a; rw [hm]
@[simp] theorem State.setBytes_regs (a : Nat) (l : List Byte) : (s.setBytes a l).regs = s.regs := by
  obtain ⟨m, hm⟩ := State.setBytes_with l s a; rw [hm]
@[simp] theorem State.setBytes_badWords (a : Nat) (l : List Byte) : (s.setBytes a l).badWords = s.badWords := by
  obtain ⟨m, hm⟩ := State.setBytes_with l s a; rw [hm]
@[simp] theorem State.setBytes_threads (a : Nat) (l : List Byte) : (s.setBytes a l).threads = s.threads := by
  obtain ⟨m, hm⟩ := State.setBytes_with l s a; rw [hm]
@[simp] theorem State.setBytes_tiles (a : Nat) (l : List Byte) : (s.setBytes a l).tiles = s.tiles := by
  obtain ⟨m, hm⟩ := State.setBytes_with l s a; rw [hm]
@[simp] theorem State.setBytes_ctxs (a : Nat) (l : List Byte) : (s.setBytes a l).ctxs = s.ctxs := by
  obtain ⟨m, hm⟩ := State.setBytes_with l s a; rw [hm]
@[simp] theorem State.setBytes_hamper (a : Nat) (l : List Byte) : (s.setBytes a l).hamper = s.hamper := by
  obtain ⟨m, hm⟩ := State.setBytes_with l s a; rw [hm]
@[simp] theorem State.setBytes_roots (a : Nat) (l : List Byte) : (s.setBytes a l).roots = s.roots := by
  obtain ⟨m, hm⟩ := State.setBytes_with l s a; rw [hm]
@[simp] theorem State.setBytes_log (a : Nat) (l : List Byte) : (s.setBytes a l).log = s.log := by
  obtain ⟨m, hm⟩ := State.setBytes_with l s a; rw [hm]
@[simp] theorem State.setBytes_hist (a : Nat) (l : List Byte) : (s.setBytes a l).hist = s.hist := by
  obtain ⟨m, hm⟩ := State.setBytes_with l s a; rw [hm]
@[simp] theorem State.setBytes_notices (a : Nat) (l : List Byte) : (s.setBytes a l).notices = s.notices := by
  obtain ⟨m, hm⟩ := State.setBytes_with l s a; rw [hm]
@[simp] theorem State.setBytes_faultLow (a : Nat) (l : List Byte) : (s.setBytes a l).faultLow = s.faultLow := by
  obtain ⟨m, hm⟩ := State.setBytes_with l s a; rw [hm]
@[simp] theorem State.setBytes_stopFrozen (a : Nat) (l : List Byte) : (s.setBytes a l).stopFrozen = s.stopFrozen := by
  obtain ⟨m, hm⟩ := State.setBytes_with l s a; rw [hm]
@[simp] theorem State.setBytes_vecCount (a : Nat) (l : List Byte) : (s.setBytes a l).vecCount = s.vecCount := by
  obtain ⟨m, hm⟩ := State.setBytes_with l s a; rw [hm]
@[simp] theorem State.setBytes_ports (a : Nat) (l : List Byte) : (s.setBytes a l).ports = s.ports := by
  obtain ⟨m, hm⟩ := State.setBytes_with l s a; rw [hm]
@[simp] theorem State.setBytes_coordKnown (a : Nat) (l : List Byte) : (s.setBytes a l).coordKnown = s.coordKnown := by
  obtain ⟨m, hm⟩ := State.setBytes_with l s a; rw [hm]
@[simp] theorem State.setBytes_lasers (a : Nat) (l : List Byte) : (s.setBytes a l).lasers = s.lasers := by
  obtain ⟨m, hm⟩ := State.setBytes_with l s a; rw [hm]
@[simp] theorem State.setBytes_stileAcks (a : Nat) (l : List Byte) : (s.setBytes a l).stileAcks = s.stileAcks := by
  obtain ⟨m, hm⟩ := State.setBytes_with l s a; rw [hm]
@[simp] theorem State.setBytes_xfers (a : Nat) (l : List Byte) : (s.setBytes a l).xfers = s.xfers := by
  obtain ⟨m, hm⟩ := State.setBytes_with l s a; rw [hm]
@[simp] theorem State.setBytes_nextTid (a : Nat) (l : List Byte) : (s.setBytes a l).nextTid = s.nextTid := by
  obtain ⟨m, hm⟩ := State.setBytes_with l s a; rw [hm]
@[simp] theorem State.setBytes_streams (a : Nat) (l : List Byte) : (s.setBytes a l).streams = s.streams := by
  obtain ⟨m, hm⟩ := State.setBytes_with l s a; rw [hm]
@[simp] theorem State.setBytes_launches (a : Nat) (l : List Byte) : (s.setBytes a l).launches = s.launches := by
  obtain ⟨m, hm⟩ := State.setBytes_with l s a; rw [hm]
@[simp] theorem State.setBytes_reassemblies (a : Nat) (l : List Byte) : (s.setBytes a l).reassemblies = s.reassemblies := by
  obtain ⟨m, hm⟩ := State.setBytes_with l s a; rw [hm]
@[simp] theorem State.setBytes_rxWait (a : Nat) (l : List Byte) : (s.setBytes a l).rxWait = s.rxWait := by
  obtain ⟨m, hm⟩ := State.setBytes_with l s a; rw [hm]
@[simp] theorem State.setBytes_arrived (a : Nat) (l : List Byte) : (s.setBytes a l).arrived = s.arrived := by
  obtain ⟨m, hm⟩ := State.setBytes_with l s a; rw [hm]
@[simp] theorem State.setBytes_accepted (a : Nat) (l : List Byte) : (s.setBytes a l).accepted = s.accepted := by
  obtain ⟨m, hm⟩ := State.setBytes_with l s a; rw [hm]
@[simp] theorem State.setBytes_shardFailed (a : Nat) (l : List Byte) : (s.setBytes a l).shardFailed = s.shardFailed := by
  obtain ⟨m, hm⟩ := State.setBytes_with l s a; rw [hm]
@[simp] theorem State.setBytes_lark (a : Nat) (l : List Byte) : (s.setBytes a l).lark = s.lark := by
  obtain ⟨m, hm⟩ := State.setBytes_with l s a; rw [hm]
@[simp] theorem State.setBytes_rings (a : Nat) (l : List Byte) : (s.setBytes a l).rings = s.rings := by
  obtain ⟨m, hm⟩ := State.setBytes_with l s a; rw [hm]
@[simp] theorem State.setBytes_intakes (a : Nat) (l : List Byte) : (s.setBytes a l).intakes = s.intakes := by
  obtain ⟨m, hm⟩ := State.setBytes_with l s a; rw [hm]
@[simp] theorem State.setBytes_publishes (a : Nat) (l : List Byte) : (s.setBytes a l).publishes = s.publishes := by
  obtain ⟨m, hm⟩ := State.setBytes_with l s a; rw [hm]
@[simp] theorem State.setBytes_d3hot (a : Nat) (l : List Byte) : (s.setBytes a l).d3hot = s.d3hot := by
  obtain ⟨m, hm⟩ := State.setBytes_with l s a; rw [hm]
@[simp] theorem State.setBytes_cfg (a : Nat) (l : List Byte) : (s.setBytes a l).cfg = s.cfg := by
  obtain ⟨m, hm⟩ := State.setBytes_with l s a; rw [hm]
@[simp] theorem State.setBytes_maxRead (a : Nat) (l : List Byte) : (s.setBytes a l).maxRead = s.maxRead := by
  obtain ⟨m, hm⟩ := State.setBytes_with l s a; rw [hm]
@[simp] theorem State.setBytes_maxPayload (a : Nat) (l : List Byte) : (s.setBytes a l).maxPayload = s.maxPayload := by
  obtain ⟨m, hm⟩ := State.setBytes_with l s a; rw [hm]
@[simp] theorem State.setBytes_scaleFail (a : Nat) (l : List Byte) : (s.setBytes a l).scaleFail = s.scaleFail := by
  obtain ⟨m, hm⟩ := State.setBytes_with l s a; rw [hm]
@[simp] theorem State.setBytes_tileFail (a : Nat) (l : List Byte) : (s.setBytes a l).tileFail = s.tileFail := by
  obtain ⟨m, hm⟩ := State.setBytes_with l s a; rw [hm]
@[simp] theorem State.setBytes_objs (a : Nat) (l : List Byte) : (s.setBytes a l).objs = s.objs := by
  obtain ⟨m, hm⟩ := State.setBytes_with l s a; rw [hm]
@[simp] theorem State.setBytes_causes (a : Nat) (l : List Byte) : (s.setBytes a l).causes = s.causes := by
  obtain ⟨m, hm⟩ := State.setBytes_with l s a; rw [hm]
@[simp] theorem State.setBytes_fwCores (a : Nat) (l : List Byte) : (s.setBytes a l).fwCores = s.fwCores := by
  obtain ⟨m, hm⟩ := State.setBytes_with l s a; rw [hm]
@[simp] theorem State.setBytes_boot (a : Nat) (l : List Byte) : (s.setBytes a l).boot = s.boot := by
  obtain ⟨m, hm⟩ := State.setBytes_with l s a; rw [hm]
@[simp] theorem State.setBytes_bring (a : Nat) (l : List Byte) : (s.setBytes a l).bring = s.bring := by
  obtain ⟨m, hm⟩ := State.setBytes_with l s a; rw [hm]
@[simp] theorem State.setBytes_fresets (a : Nat) (l : List Byte) : (s.setBytes a l).fresets = s.fresets := by
  obtain ⟨m, hm⟩ := State.setBytes_with l s a; rw [hm]
@[simp] theorem State.setBytes_flash (a : Nat) (l : List Byte) : (s.setBytes a l).flash = s.flash := by
  obtain ⟨m, hm⟩ := State.setBytes_with l s a; rw [hm]
@[simp] theorem State.setBytes_ronbin (a : Nat) (l : List Byte) : (s.setBytes a l).ronbin = s.ronbin := by
  obtain ⟨m, hm⟩ := State.setBytes_with l s a; rw [hm]

/-! Reading a register, a byte or an entry of a table after an update of another part. -/
@[simp] theorem State.byte_setReg (k : Nat) (v : Word) (x : Nat) : (s.setReg k v).byte x = s.byte x := rfl
@[simp] theorem State.thread_setReg (k : Nat) (v : Word) (x : Nat) : (s.setReg k v).thread x = s.thread x := rfl
@[simp] theorem State.tile_setReg (k : Nat) (v : Word) (x : Nat) : (s.setReg k v).tile x = s.tile x := rfl
@[simp] theorem State.ctx_setReg (k : Nat) (v : Word) (x : Nat) : (s.setReg k v).ctx x = s.ctx x := rfl
@[simp] theorem State.root_setReg (k : Nat) (v : Word) (x : Nat) : (s.setReg k v).root x = s.root x := rfl
@[simp] theorem State.logSlot_setReg (k : Nat) (v : Word) (x : Nat) : (s.setReg k v).logSlot x = s.logSlot x := rfl
@[simp] theorem State.port_setReg (k : Nat) (v : Word) (x : Nat) : (s.setReg k v).port x = s.port x := rfl
@[simp] theorem State.ring_setReg (k : Nat) (v : Word) (x : Nat) : (s.setReg k v).ring x = s.ring x := rfl
@[simp] theorem State.obj_setReg (k : Nat) (v : Word) (x : Nat) : (s.setReg k v).obj x = s.obj x := rfl
@[simp] theorem State.slice_setReg (k : Nat) (v : Word) (x y : Nat) : (s.setReg k v).slice x y = s.slice x y := rfl
@[simp] theorem State.fwCore_setReg (k : Nat) (v : Word) (x : Nat) : (s.setReg k v).fwCore x = s.fwCore x := rfl
@[simp] theorem State.session_setReg (k : Nat) (v : Word) (x : Nat) : (s.setReg k v).session x = s.session x := rfl
@[simp] theorem State.byte_setFld (f : Fld) (v : Nat) (x : Nat) : (s.setFld f v).byte x = s.byte x := rfl
@[simp] theorem State.thread_setFld (f : Fld) (v : Nat) (x : Nat) : (s.setFld f v).thread x = s.thread x := rfl
@[simp] theorem State.tile_setFld (f : Fld) (v : Nat) (x : Nat) : (s.setFld f v).tile x = s.tile x := rfl
@[simp] theorem State.ctx_setFld (f : Fld) (v : Nat) (x : Nat) : (s.setFld f v).ctx x = s.ctx x := rfl
@[simp] theorem State.root_setFld (f : Fld) (v : Nat) (x : Nat) : (s.setFld f v).root x = s.root x := rfl
@[simp] theorem State.logSlot_setFld (f : Fld) (v : Nat) (x : Nat) : (s.setFld f v).logSlot x = s.logSlot x := rfl
@[simp] theorem State.port_setFld (f : Fld) (v : Nat) (x : Nat) : (s.setFld f v).port x = s.port x := rfl
@[simp] theorem State.ring_setFld (f : Fld) (v : Nat) (x : Nat) : (s.setFld f v).ring x = s.ring x := rfl
@[simp] theorem State.obj_setFld (f : Fld) (v : Nat) (x : Nat) : (s.setFld f v).obj x = s.obj x := rfl
@[simp] theorem State.slice_setFld (f : Fld) (v : Nat) (x y : Nat) : (s.setFld f v).slice x y = s.slice x y := rfl
@[simp] theorem State.fwCore_setFld (f : Fld) (v : Nat) (x : Nat) : (s.setFld f v).fwCore x = s.fwCore x := rfl
@[simp] theorem State.session_setFld (f : Fld) (v : Nat) (x : Nat) : (s.setFld f v).session x = s.session x := rfl
@[simp] theorem State.byte_setBit (f : Fld) (v : Bool) (x : Nat) : (s.setBit f v).byte x = s.byte x := rfl
@[simp] theorem State.thread_setBit (f : Fld) (v : Bool) (x : Nat) : (s.setBit f v).thread x = s.thread x := rfl
@[simp] theorem State.tile_setBit (f : Fld) (v : Bool) (x : Nat) : (s.setBit f v).tile x = s.tile x := rfl
@[simp] theorem State.ctx_setBit (f : Fld) (v : Bool) (x : Nat) : (s.setBit f v).ctx x = s.ctx x := rfl
@[simp] theorem State.root_setBit (f : Fld) (v : Bool) (x : Nat) : (s.setBit f v).root x = s.root x := rfl
@[simp] theorem State.logSlot_setBit (f : Fld) (v : Bool) (x : Nat) : (s.setBit f v).logSlot x = s.logSlot x := rfl
@[simp] theorem State.port_setBit (f : Fld) (v : Bool) (x : Nat) : (s.setBit f v).port x = s.port x := rfl
@[simp] theorem State.ring_setBit (f : Fld) (v : Bool) (x : Nat) : (s.setBit f v).ring x = s.ring x := rfl
@[simp] theorem State.obj_setBit (f : Fld) (v : Bool) (x : Nat) : (s.setBit f v).obj x = s.obj x := rfl
@[simp] theorem State.slice_setBit (f : Fld) (v : Bool) (x y : Nat) : (s.setBit f v).slice x y = s.slice x y := rfl
@[simp] theorem State.fwCore_setBit (f : Fld) (v : Bool) (x : Nat) : (s.setBit f v).fwCore x = s.fwCore x := rfl
@[simp] theorem State.session_setBit (f : Fld) (v : Bool) (x : Nat) : (s.setBit f v).session x = s.session x := rfl
@[simp] theorem State.byte_bump (f : Fld) (v : Nat) (x : Nat) : (s.bump f v).byte x = s.byte x := rfl
@[simp] theorem State.thread_bump (f : Fld) (v : Nat) (x : Nat) : (s.bump f v).thread x = s.thread x := rfl
@[simp] theorem State.tile_bump (f : Fld) (v : Nat) (x : Nat) : (s.bump f v).tile x = s.tile x := rfl
@[simp] theorem State.ctx_bump (f : Fld) (v : Nat) (x : Nat) : (s.bump f v).ctx x = s.ctx x := rfl
@[simp] theorem State.root_bump (f : Fld) (v : Nat) (x : Nat) : (s.bump f v).root x = s.root x := rfl
@[simp] theorem State.logSlot_bump (f : Fld) (v : Nat) (x : Nat) : (s.bump f v).logSlot x = s.logSlot x := rfl
@[simp] theorem State.port_bump (f : Fld) (v : Nat) (x : Nat) : (s.bump f v).port x = s.port x := rfl
@[simp] theorem State.ring_bump (f : Fld) (v : Nat) (x : Nat) : (s.bump f v).ring x = s.ring x := rfl
@[simp] theorem State.obj_bump (f : Fld) (v : Nat) (x : Nat) : (s.bump f v).obj x = s.obj x := rfl
@[simp] theorem State.slice_bump (f : Fld) (v : Nat) (x y : Nat) : (s.bump f v).slice x y = s.slice x y := rfl
@[simp] theorem State.fwCore_bump (f : Fld) (v : Nat) (x : Nat) : (s.bump f v).fwCore x = s.fwCore x := rfl
@[simp] theorem State.session_bump (f : Fld) (v : Nat) (x : Nat) : (s.bump f v).session x = s.session x := rfl
@[simp] theorem State.byte_bumpReg (k v : Nat) (x : Nat) : (s.bumpReg k v).byte x = s.byte x := rfl
@[simp] theorem State.thread_bumpReg (k v : Nat) (x : Nat) : (s.bumpReg k v).thread x = s.thread x := rfl
@[simp] theorem State.tile_bumpReg (k v : Nat) (x : Nat) : (s.bumpReg k v).tile x = s.tile x := rfl
@[simp] theorem State.ctx_bumpReg (k v : Nat) (x : Nat) : (s.bumpReg k v).ctx x = s.ctx x := rfl
@[simp] theorem State.root_bumpReg (k v : Nat) (x : Nat) : (s.bumpReg k v).root x = s.root x := rfl
@[simp] theorem State.logSlot_bumpReg (k v : Nat) (x : Nat) : (s.bumpReg k v).logSlot x = s.logSlot x := rfl
@[simp] theorem State.port_bumpReg (k v : Nat) (x : Nat) : (s.bumpReg k v).port x = s.port x := rfl
@[simp] theorem State.ring_bumpReg (k v : Nat) (x : Nat) : (s.bumpReg k v).ring x = s.ring x := rfl
@[simp] theorem State.obj_bumpReg (k v : Nat) (x : Nat) : (s.bumpReg k v).obj x = s.obj x := rfl
@[simp] theorem State.slice_bumpReg (k v : Nat) (x y : Nat) : (s.bumpReg k v).slice x y = s.slice x y := rfl
@[simp] theorem State.fwCore_bumpReg (k v : Nat) (x : Nat) : (s.bumpReg k v).fwCore x = s.fwCore x := rfl
@[simp] theorem State.session_bumpReg (k v : Nat) (x : Nat) : (s.bumpReg k v).session x = s.session x := rfl
@[simp] theorem State.byte_dropRegs (p : Nat → Bool) (x : Nat) : (s.dropRegs p).byte x = s.byte x := rfl
@[simp] theorem State.thread_dropRegs (p : Nat → Bool) (x : Nat) : (s.dropRegs p).thread x = s.thread x := rfl
@[simp] theorem State.tile_dropRegs (p : Nat → Bool) (x : Nat) : (s.dropRegs p).tile x = s.tile x := rfl
@[simp] theorem State.ctx_dropRegs (p : Nat → Bool) (x : Nat) : (s.dropRegs p).ctx x = s.ctx x := rfl
@[simp] theorem State.root_dropRegs (p : Nat → Bool) (x : Nat) : (s.dropRegs p).root x = s.root x := rfl
@[simp] theorem State.logSlot_dropRegs (p : Nat → Bool) (x : Nat) : (s.dropRegs p).logSlot x = s.logSlot x := rfl
@[simp] theorem State.port_dropRegs (p : Nat → Bool) (x : Nat) : (s.dropRegs p).port x = s.port x := rfl
@[simp] theorem State.ring_dropRegs (p : Nat → Bool) (x : Nat) : (s.dropRegs p).ring x = s.ring x := rfl
@[simp] theorem State.obj_dropRegs (p : Nat → Bool) (x : Nat) : (s.dropRegs p).obj x = s.obj x := rfl
@[simp] theorem State.slice_dropRegs (p : Nat → Bool) (x y : Nat) : (s.dropRegs p).slice x y = s.slice x y := rfl
@[simp] theorem State.fwCore_dropRegs (p : Nat → Bool) (x : Nat) : (s.dropRegs p).fwCore x = s.fwCore x := rfl
@[simp] theorem State.session_dropRegs (p : Nat → Bool) (x : Nat) : (s.dropRegs p).session x = s.session x := rfl
@[simp] theorem State.reg_setByte (a : Nat) (b : Byte) (k : Nat) : (s.setByte a b).reg k = s.reg k := rfl
@[simp] theorem State.fld_setByte (a : Nat) (b : Byte) (g : Fld) : (s.setByte a b).fld g = s.fld g := rfl
@[simp] theorem State.bit_setByte (a : Nat) (b : Byte) (g : Fld) : (s.setByte a b).bit g = s.bit g := rfl
@[simp] theorem State.thread_setByte (a : Nat) (b : Byte) (x : Nat) : (s.setByte a b).thread x = s.thread x := rfl
@[simp] theorem State.tile_setByte (a : Nat) (b : Byte) (x : Nat) : (s.setByte a b).tile x = s.tile x := rfl
@[simp] theorem State.ctx_setByte (a : Nat) (b : Byte) (x : Nat) : (s.setByte a b).ctx x = s.ctx x := rfl
@[simp] theorem State.root_setByte (a : Nat) (b : Byte) (x : Nat) : (s.setByte a b).root x = s.root x := rfl
@[simp] theorem State.logSlot_setByte (a : Nat) (b : Byte) (x : Nat) : (s.setByte a b).logSlot x = s.logSlot x := rfl
@[simp] theorem State.port_setByte (a : Nat) (b : Byte) (x : Nat) : (s.setByte a b).port x = s.port x := rfl
@[simp] theorem State.ring_setByte (a : Nat) (b : Byte) (x : Nat) : (s.setByte a b).ring x = s.ring x := rfl
@[simp] theorem State.obj_setByte (a : Nat) (b : Byte) (x : Nat) : (s.setByte a b).obj x = s.obj x := rfl
@[simp] theorem State.slice_setByte (a : Nat) (b : Byte) (x y : Nat) : (s.setByte a b).slice x y = s.slice x y := rfl
@[simp] theorem State.fwCore_setByte (a : Nat) (b : Byte) (x : Nat) : (s.setByte a b).fwCore x = s.fwCore x := rfl
@[simp] theorem State.session_setByte (a : Nat) (b : Byte) (x : Nat) : (s.setByte a b).session x = s.session x := rfl
@[simp] theorem State.reg_dropMem (p : Nat → Bool) (k : Nat) : (s.dropMem p).reg k = s.reg k := rfl
@[simp] theorem State.fld_dropMem (p : Nat → Bool) (g : Fld) : (s.dropMem p).fld g = s.fld g := rfl
@[simp] theorem State.bit_dropMem (p : Nat → Bool) (g : Fld) : (s.dropMem p).bit g = s.bit g := rfl
@[simp] theorem State.thread_dropMem (p : Nat → Bool) (x : Nat) : (s.dropMem p).thread x = s.thread x := rfl
@[simp] theorem State.tile_dropMem (p : Nat → Bool) (x : Nat) : (s.dropMem p).tile x = s.tile x := rfl
@[simp] theorem State.ctx_dropMem (p : Nat → Bool) (x : Nat) : (s.dropMem p).ctx x = s.ctx x := rfl
@[simp] theorem State.root_dropMem (p : Nat → Bool) (x : Nat) : (s.dropMem p).root x = s.root x := rfl
@[simp] theorem State.logSlot_dropMem (p : Nat → Bool) (x : Nat) : (s.dropMem p).logSlot x = s.logSlot x := rfl
@[simp] theorem State.port_dropMem (p : Nat → Bool) (x : Nat) : (s.dropMem p).port x = s.port x := rfl
@[simp] theorem State.ring_dropMem (p : Nat → Bool) (x : Nat) : (s.dropMem p).ring x = s.ring x := rfl
@[simp] theorem State.obj_dropMem (p : Nat → Bool) (x : Nat) : (s.dropMem p).obj x = s.obj x := rfl
@[simp] theorem State.slice_dropMem (p : Nat → Bool) (x y : Nat) : (s.dropMem p).slice x y = s.slice x y := rfl
@[simp] theorem State.fwCore_dropMem (p : Nat → Bool) (x : Nat) : (s.dropMem p).fwCore x = s.fwCore x := rfl
@[simp] theorem State.session_dropMem (p : Nat → Bool) (x : Nat) : (s.dropMem p).session x = s.session x := rfl
@[simp] theorem State.reg_setThread (k : Nat) (v : Thread) (j : Nat) : (s.setThread k v).reg j = s.reg j := rfl
@[simp] theorem State.fld_setThread (k : Nat) (v : Thread) (g : Fld) : (s.setThread k v).fld g = s.fld g := rfl
@[simp] theorem State.bit_setThread (k : Nat) (v : Thread) (g : Fld) : (s.setThread k v).bit g = s.bit g := rfl
@[simp] theorem State.byte_setThread (k : Nat) (v : Thread) (x : Nat) : (s.setThread k v).byte x = s.byte x := rfl
@[simp] theorem State.tile_setThread (k : Nat) (v : Thread) (x : Nat) : (s.setThread k v).tile x = s.tile x := rfl
@[simp] theorem State.ctx_setThread (k : Nat) (v : Thread) (x : Nat) : (s.setThread k v).ctx x = s.ctx x := rfl
@[simp] theorem State.root_setThread (k : Nat) (v : Thread) (x : Nat) : (s.setThread k v).root x = s.root x := rfl
@[simp] theorem State.logSlot_setThread (k : Nat) (v : Thread) (x : Nat) : (s.setThread k v).logSlot x = s.logSlot x := rfl
@[simp] theorem State.port_setThread (k : Nat) (v : Thread) (x : Nat) : (s.setThread k v).port x = s.port x := rfl
@[simp] theorem State.ring_setThread (k : Nat) (v : Thread) (x : Nat) : (s.setThread k v).ring x = s.ring x := rfl
@[simp] theorem State.obj_setThread (k : Nat) (v : Thread) (x : Nat) : (s.setThread k v).obj x = s.obj x := rfl
@[simp] theorem State.slice_setThread (k : Nat) (v : Thread) (x y : Nat) : (s.setThread k v).slice x y = s.slice x y := rfl
@[simp] theorem State.fwCore_setThread (k : Nat) (v : Thread) (x : Nat) : (s.setThread k v).fwCore x = s.fwCore x := rfl
@[simp] theorem State.session_setThread (k : Nat) (v : Thread) (x : Nat) : (s.setThread k v).session x = s.session x := rfl
@[simp] theorem State.reg_setTile (k : Nat) (v : Tile) (j : Nat) : (s.setTile k v).reg j = s.reg j := rfl
@[simp] theorem State.fld_setTile (k : Nat) (v : Tile) (g : Fld) : (s.setTile k v).fld g = s.fld g := rfl
@[simp] theorem State.bit_setTile (k : Nat) (v : Tile) (g : Fld) : (s.setTile k v).bit g = s.bit g := rfl
@[simp] theorem State.byte_setTile (k : Nat) (v : Tile) (x : Nat) : (s.setTile k v).byte x = s.byte x := rfl
@[simp] theorem State.thread_setTile (k : Nat) (v : Tile) (x : Nat) : (s.setTile k v).thread x = s.thread x := rfl
@[simp] theorem State.ctx_setTile (k : Nat) (v : Tile) (x : Nat) : (s.setTile k v).ctx x = s.ctx x := rfl
@[simp] theorem State.root_setTile (k : Nat) (v : Tile) (x : Nat) : (s.setTile k v).root x = s.root x := rfl
@[simp] theorem State.logSlot_setTile (k : Nat) (v : Tile) (x : Nat) : (s.setTile k v).logSlot x = s.logSlot x := rfl
@[simp] theorem State.port_setTile (k : Nat) (v : Tile) (x : Nat) : (s.setTile k v).port x = s.port x := rfl
@[simp] theorem State.ring_setTile (k : Nat) (v : Tile) (x : Nat) : (s.setTile k v).ring x = s.ring x := rfl
@[simp] theorem State.obj_setTile (k : Nat) (v : Tile) (x : Nat) : (s.setTile k v).obj x = s.obj x := rfl
@[simp] theorem State.slice_setTile (k : Nat) (v : Tile) (x y : Nat) : (s.setTile k v).slice x y = s.slice x y := rfl
@[simp] theorem State.fwCore_setTile (k : Nat) (v : Tile) (x : Nat) : (s.setTile k v).fwCore x = s.fwCore x := rfl
@[simp] theorem State.session_setTile (k : Nat) (v : Tile) (x : Nat) : (s.setTile k v).session x = s.session x := rfl
@[simp] theorem State.reg_setCtx (k : Nat) (v : Ctx) (j : Nat) : (s.setCtx k v).reg j = s.reg j := rfl
@[simp] theorem State.fld_setCtx (k : Nat) (v : Ctx) (g : Fld) : (s.setCtx k v).fld g = s.fld g := rfl
@[simp] theorem State.bit_setCtx (k : Nat) (v : Ctx) (g : Fld) : (s.setCtx k v).bit g = s.bit g := rfl
@[simp] theorem State.byte_setCtx (k : Nat) (v : Ctx) (x : Nat) : (s.setCtx k v).byte x = s.byte x := rfl
@[simp] theorem State.thread_setCtx (k : Nat) (v : Ctx) (x : Nat) : (s.setCtx k v).thread x = s.thread x := rfl
@[simp] theorem State.tile_setCtx (k : Nat) (v : Ctx) (x : Nat) : (s.setCtx k v).tile x = s.tile x := rfl
@[simp] theorem State.root_setCtx (k : Nat) (v : Ctx) (x : Nat) : (s.setCtx k v).root x = s.root x := rfl
@[simp] theorem State.logSlot_setCtx (k : Nat) (v : Ctx) (x : Nat) : (s.setCtx k v).logSlot x = s.logSlot x := rfl
@[simp] theorem State.port_setCtx (k : Nat) (v : Ctx) (x : Nat) : (s.setCtx k v).port x = s.port x := rfl
@[simp] theorem State.ring_setCtx (k : Nat) (v : Ctx) (x : Nat) : (s.setCtx k v).ring x = s.ring x := rfl
@[simp] theorem State.obj_setCtx (k : Nat) (v : Ctx) (x : Nat) : (s.setCtx k v).obj x = s.obj x := rfl
@[simp] theorem State.slice_setCtx (k : Nat) (v : Ctx) (x y : Nat) : (s.setCtx k v).slice x y = s.slice x y := rfl
@[simp] theorem State.fwCore_setCtx (k : Nat) (v : Ctx) (x : Nat) : (s.setCtx k v).fwCore x = s.fwCore x := rfl
@[simp] theorem State.session_setCtx (k : Nat) (v : Ctx) (x : Nat) : (s.setCtx k v).session x = s.session x := rfl
@[simp] theorem State.reg_setSlice (t c : Nat) (v : HSlice) (k : Nat) : (s.setSlice t c v).reg k = s.reg k := rfl
@[simp] theorem State.fld_setSlice (t c : Nat) (v : HSlice) (g : Fld) : (s.setSlice t c v).fld g = s.fld g := rfl
@[simp] theorem State.bit_setSlice (t c : Nat) (v : HSlice) (g : Fld) : (s.setSlice t c v).bit g = s.bit g := rfl
@[simp] theorem State.byte_setSlice (t c : Nat) (v : HSlice) (x : Nat) : (s.setSlice t c v).byte x = s.byte x := rfl
@[simp] theorem State.thread_setSlice (t c : Nat) (v : HSlice) (x : Nat) : (s.setSlice t c v).thread x = s.thread x := rfl
@[simp] theorem State.tile_setSlice (t c : Nat) (v : HSlice) (x : Nat) : (s.setSlice t c v).tile x = s.tile x := rfl
@[simp] theorem State.ctx_setSlice (t c : Nat) (v : HSlice) (x : Nat) : (s.setSlice t c v).ctx x = s.ctx x := rfl
@[simp] theorem State.root_setSlice (t c : Nat) (v : HSlice) (x : Nat) : (s.setSlice t c v).root x = s.root x := rfl
@[simp] theorem State.logSlot_setSlice (t c : Nat) (v : HSlice) (x : Nat) : (s.setSlice t c v).logSlot x = s.logSlot x := rfl
@[simp] theorem State.port_setSlice (t c : Nat) (v : HSlice) (x : Nat) : (s.setSlice t c v).port x = s.port x := rfl
@[simp] theorem State.ring_setSlice (t c : Nat) (v : HSlice) (x : Nat) : (s.setSlice t c v).ring x = s.ring x := rfl
@[simp] theorem State.obj_setSlice (t c : Nat) (v : HSlice) (x : Nat) : (s.setSlice t c v).obj x = s.obj x := rfl
@[simp] theorem State.fwCore_setSlice (t c : Nat) (v : HSlice) (x : Nat) : (s.setSlice t c v).fwCore x = s.fwCore x := rfl
@[simp] theorem State.session_setSlice (t c : Nat) (v : HSlice) (x : Nat) : (s.setSlice t c v).session x = s.session x := rfl
@[simp] theorem State.reg_setRoot (k : Nat) (v : RootEngine) (j : Nat) : (s.setRoot k v).reg j = s.reg j := rfl
@[simp] theorem State.fld_setRoot (k : Nat) (v : RootEngine) (g : Fld) : (s.setRoot k v).fld g = s.fld g := rfl
@[simp] theorem State.bit_setRoot (k : Nat) (v : RootEngine) (g : Fld) : (s.setRoot k v).bit g = s.bit g := rfl
@[simp] theorem State.byte_setRoot (k : Nat) (v : RootEngine) (x : Nat) : (s.setRoot k v).byte x = s.byte x := rfl
@[simp] theorem State.thread_setRoot (k : Nat) (v : RootEngine) (x : Nat) : (s.setRoot k v).thread x = s.thread x := rfl
@[simp] theorem State.tile_setRoot (k : Nat) (v : RootEngine) (x : Nat) : (s.setRoot k v).tile x = s.tile x := rfl
@[simp] theorem State.ctx_setRoot (k : Nat) (v : RootEngine) (x : Nat) : (s.setRoot k v).ctx x = s.ctx x := rfl
@[simp] theorem State.logSlot_setRoot (k : Nat) (v : RootEngine) (x : Nat) : (s.setRoot k v).logSlot x = s.logSlot x := rfl
@[simp] theorem State.port_setRoot (k : Nat) (v : RootEngine) (x : Nat) : (s.setRoot k v).port x = s.port x := rfl
@[simp] theorem State.ring_setRoot (k : Nat) (v : RootEngine) (x : Nat) : (s.setRoot k v).ring x = s.ring x := rfl
@[simp] theorem State.obj_setRoot (k : Nat) (v : RootEngine) (x : Nat) : (s.setRoot k v).obj x = s.obj x := rfl
@[simp] theorem State.slice_setRoot (k : Nat) (v : RootEngine) (x y : Nat) : (s.setRoot k v).slice x y = s.slice x y := rfl
@[simp] theorem State.fwCore_setRoot (k : Nat) (v : RootEngine) (x : Nat) : (s.setRoot k v).fwCore x = s.fwCore x := rfl
@[simp] theorem State.session_setRoot (k : Nat) (v : RootEngine) (x : Nat) : (s.setRoot k v).session x = s.session x := rfl
@[simp] theorem State.reg_setLogSlot (k : Nat) (v : LogSlot) (j : Nat) : (s.setLogSlot k v).reg j = s.reg j := rfl
@[simp] theorem State.fld_setLogSlot (k : Nat) (v : LogSlot) (g : Fld) : (s.setLogSlot k v).fld g = s.fld g := rfl
@[simp] theorem State.bit_setLogSlot (k : Nat) (v : LogSlot) (g : Fld) : (s.setLogSlot k v).bit g = s.bit g := rfl
@[simp] theorem State.byte_setLogSlot (k : Nat) (v : LogSlot) (x : Nat) : (s.setLogSlot k v).byte x = s.byte x := rfl
@[simp] theorem State.thread_setLogSlot (k : Nat) (v : LogSlot) (x : Nat) : (s.setLogSlot k v).thread x = s.thread x := rfl
@[simp] theorem State.tile_setLogSlot (k : Nat) (v : LogSlot) (x : Nat) : (s.setLogSlot k v).tile x = s.tile x := rfl
@[simp] theorem State.ctx_setLogSlot (k : Nat) (v : LogSlot) (x : Nat) : (s.setLogSlot k v).ctx x = s.ctx x := rfl
@[simp] theorem State.root_setLogSlot (k : Nat) (v : LogSlot) (x : Nat) : (s.setLogSlot k v).root x = s.root x := rfl
@[simp] theorem State.port_setLogSlot (k : Nat) (v : LogSlot) (x : Nat) : (s.setLogSlot k v).port x = s.port x := rfl
@[simp] theorem State.ring_setLogSlot (k : Nat) (v : LogSlot) (x : Nat) : (s.setLogSlot k v).ring x = s.ring x := rfl
@[simp] theorem State.obj_setLogSlot (k : Nat) (v : LogSlot) (x : Nat) : (s.setLogSlot k v).obj x = s.obj x := rfl
@[simp] theorem State.slice_setLogSlot (k : Nat) (v : LogSlot) (x y : Nat) : (s.setLogSlot k v).slice x y = s.slice x y := rfl
@[simp] theorem State.fwCore_setLogSlot (k : Nat) (v : LogSlot) (x : Nat) : (s.setLogSlot k v).fwCore x = s.fwCore x := rfl
@[simp] theorem State.session_setLogSlot (k : Nat) (v : LogSlot) (x : Nat) : (s.setLogSlot k v).session x = s.session x := rfl
@[simp] theorem State.reg_setPort (k : Nat) (v : Port) (j : Nat) : (s.setPort k v).reg j = s.reg j := rfl
@[simp] theorem State.fld_setPort (k : Nat) (v : Port) (g : Fld) : (s.setPort k v).fld g = s.fld g := rfl
@[simp] theorem State.bit_setPort (k : Nat) (v : Port) (g : Fld) : (s.setPort k v).bit g = s.bit g := rfl
@[simp] theorem State.byte_setPort (k : Nat) (v : Port) (x : Nat) : (s.setPort k v).byte x = s.byte x := rfl
@[simp] theorem State.thread_setPort (k : Nat) (v : Port) (x : Nat) : (s.setPort k v).thread x = s.thread x := rfl
@[simp] theorem State.tile_setPort (k : Nat) (v : Port) (x : Nat) : (s.setPort k v).tile x = s.tile x := rfl
@[simp] theorem State.ctx_setPort (k : Nat) (v : Port) (x : Nat) : (s.setPort k v).ctx x = s.ctx x := rfl
@[simp] theorem State.root_setPort (k : Nat) (v : Port) (x : Nat) : (s.setPort k v).root x = s.root x := rfl
@[simp] theorem State.logSlot_setPort (k : Nat) (v : Port) (x : Nat) : (s.setPort k v).logSlot x = s.logSlot x := rfl
@[simp] theorem State.ring_setPort (k : Nat) (v : Port) (x : Nat) : (s.setPort k v).ring x = s.ring x := rfl
@[simp] theorem State.obj_setPort (k : Nat) (v : Port) (x : Nat) : (s.setPort k v).obj x = s.obj x := rfl
@[simp] theorem State.slice_setPort (k : Nat) (v : Port) (x y : Nat) : (s.setPort k v).slice x y = s.slice x y := rfl
@[simp] theorem State.fwCore_setPort (k : Nat) (v : Port) (x : Nat) : (s.setPort k v).fwCore x = s.fwCore x := rfl
@[simp] theorem State.session_setPort (k : Nat) (v : Port) (x : Nat) : (s.setPort k v).session x = s.session x := rfl
@[simp] theorem State.reg_setRing (k : Nat) (v : Ring) (j : Nat) : (s.setRing k v).reg j = s.reg j := rfl
@[simp] theorem State.fld_setRing (k : Nat) (v : Ring) (g : Fld) : (s.setRing k v).fld g = s.fld g := rfl
@[simp] theorem State.bit_setRing (k : Nat) (v : Ring) (g : Fld) : (s.setRing k v).bit g = s.bit g := rfl
@[simp] theorem State.byte_setRing (k : Nat) (v : Ring) (x : Nat) : (s.setRing k v).byte x = s.byte x := rfl
@[simp] theorem State.thread_setRing (k : Nat) (v : Ring) (x : Nat) : (s.setRing k v).thread x = s.thread x := rfl
@[simp] theorem State.tile_setRing (k : Nat) (v : Ring) (x : Nat) : (s.setRing k v).tile x = s.tile x := rfl
@[simp] theorem State.ctx_setRing (k : Nat) (v : Ring) (x : Nat) : (s.setRing k v).ctx x = s.ctx x := rfl
@[simp] theorem State.root_setRing (k : Nat) (v : Ring) (x : Nat) : (s.setRing k v).root x = s.root x := rfl
@[simp] theorem State.logSlot_setRing (k : Nat) (v : Ring) (x : Nat) : (s.setRing k v).logSlot x = s.logSlot x := rfl
@[simp] theorem State.port_setRing (k : Nat) (v : Ring) (x : Nat) : (s.setRing k v).port x = s.port x := rfl
@[simp] theorem State.obj_setRing (k : Nat) (v : Ring) (x : Nat) : (s.setRing k v).obj x = s.obj x := rfl
@[simp] theorem State.slice_setRing (k : Nat) (v : Ring) (x y : Nat) : (s.setRing k v).slice x y = s.slice x y := rfl
@[simp] theorem State.fwCore_setRing (k : Nat) (v : Ring) (x : Nat) : (s.setRing k v).fwCore x = s.fwCore x := rfl
@[simp] theorem State.session_setRing (k : Nat) (v : Ring) (x : Nat) : (s.setRing k v).session x = s.session x := rfl
@[simp] theorem State.reg_setObj (k v : Nat) (j : Nat) : (s.setObj k v).reg j = s.reg j := rfl
@[simp] theorem State.fld_setObj (k v : Nat) (g : Fld) : (s.setObj k v).fld g = s.fld g := rfl
@[simp] theorem State.bit_setObj (k v : Nat) (g : Fld) : (s.setObj k v).bit g = s.bit g := rfl
@[simp] theorem State.byte_setObj (k v : Nat) (x : Nat) : (s.setObj k v).byte x = s.byte x := rfl
@[simp] theorem State.thread_setObj (k v : Nat) (x : Nat) : (s.setObj k v).thread x = s.thread x := rfl
@[simp] theorem State.tile_setObj (k v : Nat) (x : Nat) : (s.setObj k v).tile x = s.tile x := rfl
@[simp] theorem State.ctx_setObj (k v : Nat) (x : Nat) : (s.setObj k v).ctx x = s.ctx x := rfl
@[simp] theorem State.root_setObj (k v : Nat) (x : Nat) : (s.setObj k v).root x = s.root x := rfl
@[simp] theorem State.logSlot_setObj (k v : Nat) (x : Nat) : (s.setObj k v).logSlot x = s.logSlot x := rfl
@[simp] theorem State.port_setObj (k v : Nat) (x : Nat) : (s.setObj k v).port x = s.port x := rfl
@[simp] theorem State.ring_setObj (k v : Nat) (x : Nat) : (s.setObj k v).ring x = s.ring x := rfl
@[simp] theorem State.slice_setObj (k v : Nat) (x y : Nat) : (s.setObj k v).slice x y = s.slice x y := rfl
@[simp] theorem State.fwCore_setObj (k v : Nat) (x : Nat) : (s.setObj k v).fwCore x = s.fwCore x := rfl
@[simp] theorem State.session_setObj (k v : Nat) (x : Nat) : (s.setObj k v).session x = s.session x := rfl
@[simp] theorem State.reg_modThread (k : Nat) (f : Thread → Thread) (j : Nat) : (s.modThread k f).reg j = s.reg j := rfl
@[simp] theorem State.fld_modThread (k : Nat) (f : Thread → Thread) (g : Fld) : (s.modThread k f).fld g = s.fld g := rfl
@[simp] theorem State.bit_modThread (k : Nat) (f : Thread → Thread) (g : Fld) : (s.modThread k f).bit g = s.bit g := rfl
@[simp] theorem State.byte_modThread (k : Nat) (f : Thread → Thread) (x : Nat) : (s.modThread k f).byte x = s.byte x := rfl
@[simp] theorem State.tile_modThread (k : Nat) (f : Thread → Thread) (x : Nat) : (s.modThread k f).tile x = s.tile x := rfl
@[simp] theorem State.ctx_modThread (k : Nat) (f : Thread → Thread) (x : Nat) : (s.modThread k f).ctx x = s.ctx x := rfl
@[simp] theorem State.root_modThread (k : Nat) (f : Thread → Thread) (x : Nat) : (s.modThread k f).root x = s.root x := rfl
@[simp] theorem State.logSlot_modThread (k : Nat) (f : Thread → Thread) (x : Nat) : (s.modThread k f).logSlot x = s.logSlot x := rfl
@[simp] theorem State.port_modThread (k : Nat) (f : Thread → Thread) (x : Nat) : (s.modThread k f).port x = s.port x := rfl
@[simp] theorem State.ring_modThread (k : Nat) (f : Thread → Thread) (x : Nat) : (s.modThread k f).ring x = s.ring x := rfl
@[simp] theorem State.obj_modThread (k : Nat) (f : Thread → Thread) (x : Nat) : (s.modThread k f).obj x = s.obj x := rfl
@[simp] theorem State.slice_modThread (k : Nat) (f : Thread → Thread) (x y : Nat) : (s.modThread k f).slice x y = s.slice x y := rfl
@[simp] theorem State.fwCore_modThread (k : Nat) (f : Thread → Thread) (x : Nat) : (s.modThread k f).fwCore x = s.fwCore x := rfl
@[simp] theorem State.session_modThread (k : Nat) (f : Thread → Thread) (x : Nat) : (s.modThread k f).session x = s.session x := rfl
@[simp] theorem State.reg_modTile (k : Nat) (f : Tile → Tile) (j : Nat) : (s.modTile k f).reg j = s.reg j := rfl
@[simp] theorem State.fld_modTile (k : Nat) (f : Tile → Tile) (g : Fld) : (s.modTile k f).fld g = s.fld g := rfl
@[simp] theorem State.bit_modTile (k : Nat) (f : Tile → Tile) (g : Fld) : (s.modTile k f).bit g = s.bit g := rfl
@[simp] theorem State.byte_modTile (k : Nat) (f : Tile → Tile) (x : Nat) : (s.modTile k f).byte x = s.byte x := rfl
@[simp] theorem State.thread_modTile (k : Nat) (f : Tile → Tile) (x : Nat) : (s.modTile k f).thread x = s.thread x := rfl
@[simp] theorem State.ctx_modTile (k : Nat) (f : Tile → Tile) (x : Nat) : (s.modTile k f).ctx x = s.ctx x := rfl
@[simp] theorem State.root_modTile (k : Nat) (f : Tile → Tile) (x : Nat) : (s.modTile k f).root x = s.root x := rfl
@[simp] theorem State.logSlot_modTile (k : Nat) (f : Tile → Tile) (x : Nat) : (s.modTile k f).logSlot x = s.logSlot x := rfl
@[simp] theorem State.port_modTile (k : Nat) (f : Tile → Tile) (x : Nat) : (s.modTile k f).port x = s.port x := rfl
@[simp] theorem State.ring_modTile (k : Nat) (f : Tile → Tile) (x : Nat) : (s.modTile k f).ring x = s.ring x := rfl
@[simp] theorem State.obj_modTile (k : Nat) (f : Tile → Tile) (x : Nat) : (s.modTile k f).obj x = s.obj x := rfl
@[simp] theorem State.slice_modTile (k : Nat) (f : Tile → Tile) (x y : Nat) : (s.modTile k f).slice x y = s.slice x y := rfl
@[simp] theorem State.fwCore_modTile (k : Nat) (f : Tile → Tile) (x : Nat) : (s.modTile k f).fwCore x = s.fwCore x := rfl
@[simp] theorem State.session_modTile (k : Nat) (f : Tile → Tile) (x : Nat) : (s.modTile k f).session x = s.session x := rfl
@[simp] theorem State.reg_modCtx (k : Nat) (f : Ctx → Ctx) (j : Nat) : (s.modCtx k f).reg j = s.reg j := rfl
@[simp] theorem State.fld_modCtx (k : Nat) (f : Ctx → Ctx) (g : Fld) : (s.modCtx k f).fld g = s.fld g := rfl
@[simp] theorem State.bit_modCtx (k : Nat) (f : Ctx → Ctx) (g : Fld) : (s.modCtx k f).bit g = s.bit g := rfl
@[simp] theorem State.byte_modCtx (k : Nat) (f : Ctx → Ctx) (x : Nat) : (s.modCtx k f).byte x = s.byte x := rfl
@[simp] theorem State.thread_modCtx (k : Nat) (f : Ctx → Ctx) (x : Nat) : (s.modCtx k f).thread x = s.thread x := rfl
@[simp] theorem State.tile_modCtx (k : Nat) (f : Ctx → Ctx) (x : Nat) : (s.modCtx k f).tile x = s.tile x := rfl
@[simp] theorem State.root_modCtx (k : Nat) (f : Ctx → Ctx) (x : Nat) : (s.modCtx k f).root x = s.root x := rfl
@[simp] theorem State.logSlot_modCtx (k : Nat) (f : Ctx → Ctx) (x : Nat) : (s.modCtx k f).logSlot x = s.logSlot x := rfl
@[simp] theorem State.port_modCtx (k : Nat) (f : Ctx → Ctx) (x : Nat) : (s.modCtx k f).port x = s.port x := rfl
@[simp] theorem State.ring_modCtx (k : Nat) (f : Ctx → Ctx) (x : Nat) : (s.modCtx k f).ring x = s.ring x := rfl
@[simp] theorem State.obj_modCtx (k : Nat) (f : Ctx → Ctx) (x : Nat) : (s.modCtx k f).obj x = s.obj x := rfl
@[simp] theorem State.slice_modCtx (k : Nat) (f : Ctx → Ctx) (x y : Nat) : (s.modCtx k f).slice x y = s.slice x y := rfl
@[simp] theorem State.fwCore_modCtx (k : Nat) (f : Ctx → Ctx) (x : Nat) : (s.modCtx k f).fwCore x = s.fwCore x := rfl
@[simp] theorem State.session_modCtx (k : Nat) (f : Ctx → Ctx) (x : Nat) : (s.modCtx k f).session x = s.session x := rfl
@[simp] theorem State.reg_modSlice (t c : Nat) (f : HSlice → HSlice) (k : Nat) : (s.modSlice t c f).reg k = s.reg k := rfl
@[simp] theorem State.fld_modSlice (t c : Nat) (f : HSlice → HSlice) (g : Fld) : (s.modSlice t c f).fld g = s.fld g := rfl
@[simp] theorem State.bit_modSlice (t c : Nat) (f : HSlice → HSlice) (g : Fld) : (s.modSlice t c f).bit g = s.bit g := rfl
@[simp] theorem State.byte_modSlice (t c : Nat) (f : HSlice → HSlice) (x : Nat) : (s.modSlice t c f).byte x = s.byte x := rfl
@[simp] theorem State.thread_modSlice (t c : Nat) (f : HSlice → HSlice) (x : Nat) : (s.modSlice t c f).thread x = s.thread x := rfl
@[simp] theorem State.tile_modSlice (t c : Nat) (f : HSlice → HSlice) (x : Nat) : (s.modSlice t c f).tile x = s.tile x := rfl
@[simp] theorem State.ctx_modSlice (t c : Nat) (f : HSlice → HSlice) (x : Nat) : (s.modSlice t c f).ctx x = s.ctx x := rfl
@[simp] theorem State.root_modSlice (t c : Nat) (f : HSlice → HSlice) (x : Nat) : (s.modSlice t c f).root x = s.root x := rfl
@[simp] theorem State.logSlot_modSlice (t c : Nat) (f : HSlice → HSlice) (x : Nat) : (s.modSlice t c f).logSlot x = s.logSlot x := rfl
@[simp] theorem State.port_modSlice (t c : Nat) (f : HSlice → HSlice) (x : Nat) : (s.modSlice t c f).port x = s.port x := rfl
@[simp] theorem State.ring_modSlice (t c : Nat) (f : HSlice → HSlice) (x : Nat) : (s.modSlice t c f).ring x = s.ring x := rfl
@[simp] theorem State.obj_modSlice (t c : Nat) (f : HSlice → HSlice) (x : Nat) : (s.modSlice t c f).obj x = s.obj x := rfl
@[simp] theorem State.fwCore_modSlice (t c : Nat) (f : HSlice → HSlice) (x : Nat) : (s.modSlice t c f).fwCore x = s.fwCore x := rfl
@[simp] theorem State.session_modSlice (t c : Nat) (f : HSlice → HSlice) (x : Nat) : (s.modSlice t c f).session x = s.session x := rfl
@[simp] theorem State.reg_modRoot (k : Nat) (f : RootEngine → RootEngine) (j : Nat) : (s.modRoot k f).reg j = s.reg j := rfl
@[simp] theorem State.fld_modRoot (k : Nat) (f : RootEngine → RootEngine) (g : Fld) : (s.modRoot k f).fld g = s.fld g := rfl
@[simp] theorem State.bit_modRoot (k : Nat) (f : RootEngine → RootEngine) (g : Fld) : (s.modRoot k f).bit g = s.bit g := rfl
@[simp] theorem State.byte_modRoot (k : Nat) (f : RootEngine → RootEngine) (x : Nat) : (s.modRoot k f).byte x = s.byte x := rfl
@[simp] theorem State.thread_modRoot (k : Nat) (f : RootEngine → RootEngine) (x : Nat) : (s.modRoot k f).thread x = s.thread x := rfl
@[simp] theorem State.tile_modRoot (k : Nat) (f : RootEngine → RootEngine) (x : Nat) : (s.modRoot k f).tile x = s.tile x := rfl
@[simp] theorem State.ctx_modRoot (k : Nat) (f : RootEngine → RootEngine) (x : Nat) : (s.modRoot k f).ctx x = s.ctx x := rfl
@[simp] theorem State.logSlot_modRoot (k : Nat) (f : RootEngine → RootEngine) (x : Nat) : (s.modRoot k f).logSlot x = s.logSlot x := rfl
@[simp] theorem State.port_modRoot (k : Nat) (f : RootEngine → RootEngine) (x : Nat) : (s.modRoot k f).port x = s.port x := rfl
@[simp] theorem State.ring_modRoot (k : Nat) (f : RootEngine → RootEngine) (x : Nat) : (s.modRoot k f).ring x = s.ring x := rfl
@[simp] theorem State.obj_modRoot (k : Nat) (f : RootEngine → RootEngine) (x : Nat) : (s.modRoot k f).obj x = s.obj x := rfl
@[simp] theorem State.slice_modRoot (k : Nat) (f : RootEngine → RootEngine) (x y : Nat) : (s.modRoot k f).slice x y = s.slice x y := rfl
@[simp] theorem State.fwCore_modRoot (k : Nat) (f : RootEngine → RootEngine) (x : Nat) : (s.modRoot k f).fwCore x = s.fwCore x := rfl
@[simp] theorem State.session_modRoot (k : Nat) (f : RootEngine → RootEngine) (x : Nat) : (s.modRoot k f).session x = s.session x := rfl
@[simp] theorem State.reg_modPort (k : Nat) (f : Port → Port) (j : Nat) : (s.modPort k f).reg j = s.reg j := rfl
@[simp] theorem State.fld_modPort (k : Nat) (f : Port → Port) (g : Fld) : (s.modPort k f).fld g = s.fld g := rfl
@[simp] theorem State.bit_modPort (k : Nat) (f : Port → Port) (g : Fld) : (s.modPort k f).bit g = s.bit g := rfl
@[simp] theorem State.byte_modPort (k : Nat) (f : Port → Port) (x : Nat) : (s.modPort k f).byte x = s.byte x := rfl
@[simp] theorem State.thread_modPort (k : Nat) (f : Port → Port) (x : Nat) : (s.modPort k f).thread x = s.thread x := rfl
@[simp] theorem State.tile_modPort (k : Nat) (f : Port → Port) (x : Nat) : (s.modPort k f).tile x = s.tile x := rfl
@[simp] theorem State.ctx_modPort (k : Nat) (f : Port → Port) (x : Nat) : (s.modPort k f).ctx x = s.ctx x := rfl
@[simp] theorem State.root_modPort (k : Nat) (f : Port → Port) (x : Nat) : (s.modPort k f).root x = s.root x := rfl
@[simp] theorem State.logSlot_modPort (k : Nat) (f : Port → Port) (x : Nat) : (s.modPort k f).logSlot x = s.logSlot x := rfl
@[simp] theorem State.ring_modPort (k : Nat) (f : Port → Port) (x : Nat) : (s.modPort k f).ring x = s.ring x := rfl
@[simp] theorem State.obj_modPort (k : Nat) (f : Port → Port) (x : Nat) : (s.modPort k f).obj x = s.obj x := rfl
@[simp] theorem State.slice_modPort (k : Nat) (f : Port → Port) (x y : Nat) : (s.modPort k f).slice x y = s.slice x y := rfl
@[simp] theorem State.fwCore_modPort (k : Nat) (f : Port → Port) (x : Nat) : (s.modPort k f).fwCore x = s.fwCore x := rfl
@[simp] theorem State.session_modPort (k : Nat) (f : Port → Port) (x : Nat) : (s.modPort k f).session x = s.session x := rfl
@[simp] theorem State.reg_modRing (k : Nat) (f : Ring → Ring) (j : Nat) : (s.modRing k f).reg j = s.reg j := rfl
@[simp] theorem State.fld_modRing (k : Nat) (f : Ring → Ring) (g : Fld) : (s.modRing k f).fld g = s.fld g := rfl
@[simp] theorem State.bit_modRing (k : Nat) (f : Ring → Ring) (g : Fld) : (s.modRing k f).bit g = s.bit g := rfl
@[simp] theorem State.byte_modRing (k : Nat) (f : Ring → Ring) (x : Nat) : (s.modRing k f).byte x = s.byte x := rfl
@[simp] theorem State.thread_modRing (k : Nat) (f : Ring → Ring) (x : Nat) : (s.modRing k f).thread x = s.thread x := rfl
@[simp] theorem State.tile_modRing (k : Nat) (f : Ring → Ring) (x : Nat) : (s.modRing k f).tile x = s.tile x := rfl
@[simp] theorem State.ctx_modRing (k : Nat) (f : Ring → Ring) (x : Nat) : (s.modRing k f).ctx x = s.ctx x := rfl
@[simp] theorem State.root_modRing (k : Nat) (f : Ring → Ring) (x : Nat) : (s.modRing k f).root x = s.root x := rfl
@[simp] theorem State.logSlot_modRing (k : Nat) (f : Ring → Ring) (x : Nat) : (s.modRing k f).logSlot x = s.logSlot x := rfl
@[simp] theorem State.port_modRing (k : Nat) (f : Ring → Ring) (x : Nat) : (s.modRing k f).port x = s.port x := rfl
@[simp] theorem State.obj_modRing (k : Nat) (f : Ring → Ring) (x : Nat) : (s.modRing k f).obj x = s.obj x := rfl
@[simp] theorem State.slice_modRing (k : Nat) (f : Ring → Ring) (x y : Nat) : (s.modRing k f).slice x y = s.slice x y := rfl
@[simp] theorem State.fwCore_modRing (k : Nat) (f : Ring → Ring) (x : Nat) : (s.modRing k f).fwCore x = s.fwCore x := rfl
@[simp] theorem State.session_modRing (k : Nat) (f : Ring → Ring) (x : Nat) : (s.modRing k f).session x = s.session x := rfl
@[simp] theorem State.reg_modFwCore (k : Nat) (f : FwCore → FwCore) (j : Nat) : (s.modFwCore k f).reg j = s.reg j := rfl
@[simp] theorem State.fld_modFwCore (k : Nat) (f : FwCore → FwCore) (g : Fld) : (s.modFwCore k f).fld g = s.fld g := rfl
@[simp] theorem State.bit_modFwCore (k : Nat) (f : FwCore → FwCore) (g : Fld) : (s.modFwCore k f).bit g = s.bit g := rfl
@[simp] theorem State.byte_modFwCore (k : Nat) (f : FwCore → FwCore) (x : Nat) : (s.modFwCore k f).byte x = s.byte x := rfl
@[simp] theorem State.thread_modFwCore (k : Nat) (f : FwCore → FwCore) (x : Nat) : (s.modFwCore k f).thread x = s.thread x := rfl
@[simp] theorem State.tile_modFwCore (k : Nat) (f : FwCore → FwCore) (x : Nat) : (s.modFwCore k f).tile x = s.tile x := rfl
@[simp] theorem State.ctx_modFwCore (k : Nat) (f : FwCore → FwCore) (x : Nat) : (s.modFwCore k f).ctx x = s.ctx x := rfl
@[simp] theorem State.root_modFwCore (k : Nat) (f : FwCore → FwCore) (x : Nat) : (s.modFwCore k f).root x = s.root x := rfl
@[simp] theorem State.logSlot_modFwCore (k : Nat) (f : FwCore → FwCore) (x : Nat) : (s.modFwCore k f).logSlot x = s.logSlot x := rfl
@[simp] theorem State.port_modFwCore (k : Nat) (f : FwCore → FwCore) (x : Nat) : (s.modFwCore k f).port x = s.port x := rfl
@[simp] theorem State.ring_modFwCore (k : Nat) (f : FwCore → FwCore) (x : Nat) : (s.modFwCore k f).ring x = s.ring x := rfl
@[simp] theorem State.obj_modFwCore (k : Nat) (f : FwCore → FwCore) (x : Nat) : (s.modFwCore k f).obj x = s.obj x := rfl
@[simp] theorem State.slice_modFwCore (k : Nat) (f : FwCore → FwCore) (x y : Nat) : (s.modFwCore k f).slice x y = s.slice x y := rfl
@[simp] theorem State.session_modFwCore (k : Nat) (f : FwCore → FwCore) (x : Nat) : (s.modFwCore k f).session x = s.session x := rfl
@[simp] theorem State.reg_modBoot (f : Boot → Boot) (k : Nat) : (s.modBoot f).reg k = s.reg k := rfl
@[simp] theorem State.fld_modBoot (f : Boot → Boot) (g : Fld) : (s.modBoot f).fld g = s.fld g := rfl
@[simp] theorem State.bit_modBoot (f : Boot → Boot) (g : Fld) : (s.modBoot f).bit g = s.bit g := rfl
@[simp] theorem State.byte_modBoot (f : Boot → Boot) (x : Nat) : (s.modBoot f).byte x = s.byte x := rfl
@[simp] theorem State.thread_modBoot (f : Boot → Boot) (x : Nat) : (s.modBoot f).thread x = s.thread x := rfl
@[simp] theorem State.tile_modBoot (f : Boot → Boot) (x : Nat) : (s.modBoot f).tile x = s.tile x := rfl
@[simp] theorem State.ctx_modBoot (f : Boot → Boot) (x : Nat) : (s.modBoot f).ctx x = s.ctx x := rfl
@[simp] theorem State.root_modBoot (f : Boot → Boot) (x : Nat) : (s.modBoot f).root x = s.root x := rfl
@[simp] theorem State.logSlot_modBoot (f : Boot → Boot) (x : Nat) : (s.modBoot f).logSlot x = s.logSlot x := rfl
@[simp] theorem State.port_modBoot (f : Boot → Boot) (x : Nat) : (s.modBoot f).port x = s.port x := rfl
@[simp] theorem State.ring_modBoot (f : Boot → Boot) (x : Nat) : (s.modBoot f).ring x = s.ring x := rfl
@[simp] theorem State.obj_modBoot (f : Boot → Boot) (x : Nat) : (s.modBoot f).obj x = s.obj x := rfl
@[simp] theorem State.slice_modBoot (f : Boot → Boot) (x y : Nat) : (s.modBoot f).slice x y = s.slice x y := rfl
@[simp] theorem State.fwCore_modBoot (f : Boot → Boot) (x : Nat) : (s.modBoot f).fwCore x = s.fwCore x := rfl
@[simp] theorem State.session_modBoot (f : Boot → Boot) (x : Nat) : (s.modBoot f).session x = s.session x := rfl
@[simp] theorem State.reg_modBring (f : Bring → Bring) (k : Nat) : (s.modBring f).reg k = s.reg k := rfl
@[simp] theorem State.fld_modBring (f : Bring → Bring) (g : Fld) : (s.modBring f).fld g = s.fld g := rfl
@[simp] theorem State.bit_modBring (f : Bring → Bring) (g : Fld) : (s.modBring f).bit g = s.bit g := rfl
@[simp] theorem State.byte_modBring (f : Bring → Bring) (x : Nat) : (s.modBring f).byte x = s.byte x := rfl
@[simp] theorem State.thread_modBring (f : Bring → Bring) (x : Nat) : (s.modBring f).thread x = s.thread x := rfl
@[simp] theorem State.tile_modBring (f : Bring → Bring) (x : Nat) : (s.modBring f).tile x = s.tile x := rfl
@[simp] theorem State.ctx_modBring (f : Bring → Bring) (x : Nat) : (s.modBring f).ctx x = s.ctx x := rfl
@[simp] theorem State.root_modBring (f : Bring → Bring) (x : Nat) : (s.modBring f).root x = s.root x := rfl
@[simp] theorem State.logSlot_modBring (f : Bring → Bring) (x : Nat) : (s.modBring f).logSlot x = s.logSlot x := rfl
@[simp] theorem State.port_modBring (f : Bring → Bring) (x : Nat) : (s.modBring f).port x = s.port x := rfl
@[simp] theorem State.ring_modBring (f : Bring → Bring) (x : Nat) : (s.modBring f).ring x = s.ring x := rfl
@[simp] theorem State.obj_modBring (f : Bring → Bring) (x : Nat) : (s.modBring f).obj x = s.obj x := rfl
@[simp] theorem State.slice_modBring (f : Bring → Bring) (x y : Nat) : (s.modBring f).slice x y = s.slice x y := rfl
@[simp] theorem State.fwCore_modBring (f : Bring → Bring) (x : Nat) : (s.modBring f).fwCore x = s.fwCore x := rfl
@[simp] theorem State.session_modBring (f : Bring → Bring) (x : Nat) : (s.modBring f).session x = s.session x := rfl
@[simp] theorem State.reg_modFlash (f : Flash → Flash) (k : Nat) : (s.modFlash f).reg k = s.reg k := rfl
@[simp] theorem State.fld_modFlash (f : Flash → Flash) (g : Fld) : (s.modFlash f).fld g = s.fld g := rfl
@[simp] theorem State.bit_modFlash (f : Flash → Flash) (g : Fld) : (s.modFlash f).bit g = s.bit g := rfl
@[simp] theorem State.byte_modFlash (f : Flash → Flash) (x : Nat) : (s.modFlash f).byte x = s.byte x := rfl
@[simp] theorem State.thread_modFlash (f : Flash → Flash) (x : Nat) : (s.modFlash f).thread x = s.thread x := rfl
@[simp] theorem State.tile_modFlash (f : Flash → Flash) (x : Nat) : (s.modFlash f).tile x = s.tile x := rfl
@[simp] theorem State.ctx_modFlash (f : Flash → Flash) (x : Nat) : (s.modFlash f).ctx x = s.ctx x := rfl
@[simp] theorem State.root_modFlash (f : Flash → Flash) (x : Nat) : (s.modFlash f).root x = s.root x := rfl
@[simp] theorem State.logSlot_modFlash (f : Flash → Flash) (x : Nat) : (s.modFlash f).logSlot x = s.logSlot x := rfl
@[simp] theorem State.port_modFlash (f : Flash → Flash) (x : Nat) : (s.modFlash f).port x = s.port x := rfl
@[simp] theorem State.ring_modFlash (f : Flash → Flash) (x : Nat) : (s.modFlash f).ring x = s.ring x := rfl
@[simp] theorem State.obj_modFlash (f : Flash → Flash) (x : Nat) : (s.modFlash f).obj x = s.obj x := rfl
@[simp] theorem State.slice_modFlash (f : Flash → Flash) (x y : Nat) : (s.modFlash f).slice x y = s.slice x y := rfl
@[simp] theorem State.fwCore_modFlash (f : Flash → Flash) (x : Nat) : (s.modFlash f).fwCore x = s.fwCore x := rfl
@[simp] theorem State.session_modFlash (f : Flash → Flash) (x : Nat) : (s.modFlash f).session x = s.session x := rfl
@[simp] theorem State.reg_modRonbin (f : Ronbin → Ronbin) (k : Nat) : (s.modRonbin f).reg k = s.reg k := rfl
@[simp] theorem State.fld_modRonbin (f : Ronbin → Ronbin) (g : Fld) : (s.modRonbin f).fld g = s.fld g := rfl
@[simp] theorem State.bit_modRonbin (f : Ronbin → Ronbin) (g : Fld) : (s.modRonbin f).bit g = s.bit g := rfl
@[simp] theorem State.byte_modRonbin (f : Ronbin → Ronbin) (x : Nat) : (s.modRonbin f).byte x = s.byte x := rfl
@[simp] theorem State.thread_modRonbin (f : Ronbin → Ronbin) (x : Nat) : (s.modRonbin f).thread x = s.thread x := rfl
@[simp] theorem State.tile_modRonbin (f : Ronbin → Ronbin) (x : Nat) : (s.modRonbin f).tile x = s.tile x := rfl
@[simp] theorem State.ctx_modRonbin (f : Ronbin → Ronbin) (x : Nat) : (s.modRonbin f).ctx x = s.ctx x := rfl
@[simp] theorem State.root_modRonbin (f : Ronbin → Ronbin) (x : Nat) : (s.modRonbin f).root x = s.root x := rfl
@[simp] theorem State.logSlot_modRonbin (f : Ronbin → Ronbin) (x : Nat) : (s.modRonbin f).logSlot x = s.logSlot x := rfl
@[simp] theorem State.port_modRonbin (f : Ronbin → Ronbin) (x : Nat) : (s.modRonbin f).port x = s.port x := rfl
@[simp] theorem State.ring_modRonbin (f : Ronbin → Ronbin) (x : Nat) : (s.modRonbin f).ring x = s.ring x := rfl
@[simp] theorem State.obj_modRonbin (f : Ronbin → Ronbin) (x : Nat) : (s.modRonbin f).obj x = s.obj x := rfl
@[simp] theorem State.slice_modRonbin (f : Ronbin → Ronbin) (x y : Nat) : (s.modRonbin f).slice x y = s.slice x y := rfl
@[simp] theorem State.fwCore_modRonbin (f : Ronbin → Ronbin) (x : Nat) : (s.modRonbin f).fwCore x = s.fwCore x := rfl
@[simp] theorem State.reg_modSession (n : Nat) (f : Session → Session) (k : Nat) : (s.modSession n f).reg k = s.reg k := rfl
@[simp] theorem State.fld_modSession (n : Nat) (f : Session → Session) (g : Fld) : (s.modSession n f).fld g = s.fld g := rfl
@[simp] theorem State.bit_modSession (n : Nat) (f : Session → Session) (g : Fld) : (s.modSession n f).bit g = s.bit g := rfl
@[simp] theorem State.byte_modSession (n : Nat) (f : Session → Session) (x : Nat) : (s.modSession n f).byte x = s.byte x := rfl
@[simp] theorem State.thread_modSession (n : Nat) (f : Session → Session) (x : Nat) : (s.modSession n f).thread x = s.thread x := rfl
@[simp] theorem State.tile_modSession (n : Nat) (f : Session → Session) (x : Nat) : (s.modSession n f).tile x = s.tile x := rfl
@[simp] theorem State.ctx_modSession (n : Nat) (f : Session → Session) (x : Nat) : (s.modSession n f).ctx x = s.ctx x := rfl
@[simp] theorem State.root_modSession (n : Nat) (f : Session → Session) (x : Nat) : (s.modSession n f).root x = s.root x := rfl
@[simp] theorem State.logSlot_modSession (n : Nat) (f : Session → Session) (x : Nat) : (s.modSession n f).logSlot x = s.logSlot x := rfl
@[simp] theorem State.port_modSession (n : Nat) (f : Session → Session) (x : Nat) : (s.modSession n f).port x = s.port x := rfl
@[simp] theorem State.ring_modSession (n : Nat) (f : Session → Session) (x : Nat) : (s.modSession n f).ring x = s.ring x := rfl
@[simp] theorem State.obj_modSession (n : Nat) (f : Session → Session) (x : Nat) : (s.modSession n f).obj x = s.obj x := rfl
@[simp] theorem State.slice_modSession (n : Nat) (f : Session → Session) (x y : Nat) : (s.modSession n f).slice x y = s.slice x y := rfl
@[simp] theorem State.fwCore_modSession (n : Nat) (f : Session → Session) (x : Nat) : (s.modSession n f).fwCore x = s.fwCore x := rfl
@[simp] theorem State.reg_send (o : Out) (k : Nat) : (s.send o).reg k = s.reg k := rfl
@[simp] theorem State.fld_send (o : Out) (g : Fld) : (s.send o).fld g = s.fld g := rfl
@[simp] theorem State.bit_send (o : Out) (g : Fld) : (s.send o).bit g = s.bit g := rfl
@[simp] theorem State.byte_send (o : Out) (x : Nat) : (s.send o).byte x = s.byte x := rfl
@[simp] theorem State.thread_send (o : Out) (x : Nat) : (s.send o).thread x = s.thread x := rfl
@[simp] theorem State.tile_send (o : Out) (x : Nat) : (s.send o).tile x = s.tile x := rfl
@[simp] theorem State.ctx_send (o : Out) (x : Nat) : (s.send o).ctx x = s.ctx x := rfl
@[simp] theorem State.root_send (o : Out) (x : Nat) : (s.send o).root x = s.root x := rfl
@[simp] theorem State.logSlot_send (o : Out) (x : Nat) : (s.send o).logSlot x = s.logSlot x := rfl
@[simp] theorem State.port_send (o : Out) (x : Nat) : (s.send o).port x = s.port x := rfl
@[simp] theorem State.ring_send (o : Out) (x : Nat) : (s.send o).ring x = s.ring x := rfl
@[simp] theorem State.obj_send (o : Out) (x : Nat) : (s.send o).obj x = s.obj x := rfl
@[simp] theorem State.slice_send (o : Out) (x y : Nat) : (s.send o).slice x y = s.slice x y := rfl
@[simp] theorem State.fwCore_send (o : Out) (x : Nat) : (s.send o).fwCore x = s.fwCore x := rfl
@[simp] theorem State.session_send (o : Out) (x : Nat) : (s.send o).session x = s.session x := rfl
@[simp] theorem State.reg_setBytes (a : Nat) (l : List Byte) (k : Nat) : (s.setBytes a l).reg k = s.reg k := by
  obtain ⟨m, hm⟩ := State.setBytes_with l s a; rw [hm]; rfl
@[simp] theorem State.fld_setBytes (a : Nat) (l : List Byte) (g : Fld) : (s.setBytes a l).fld g = s.fld g := by
  obtain ⟨m, hm⟩ := State.setBytes_with l s a; rw [hm]; rfl
@[simp] theorem State.bit_setBytes (a : Nat) (l : List Byte) (g : Fld) : (s.setBytes a l).bit g = s.bit g := by
  obtain ⟨m, hm⟩ := State.setBytes_with l s a; rw [hm]; rfl
@[simp] theorem State.thread_setBytes (a : Nat) (l : List Byte) (x : Nat) : (s.setBytes a l).thread x = s.thread x := by
  obtain ⟨m, hm⟩ := State.setBytes_with l s a; rw [hm]; rfl
@[simp] theorem State.tile_setBytes (a : Nat) (l : List Byte) (x : Nat) : (s.setBytes a l).tile x = s.tile x := by
  obtain ⟨m, hm⟩ := State.setBytes_with l s a; rw [hm]; rfl
@[simp] theorem State.ctx_setBytes (a : Nat) (l : List Byte) (x : Nat) : (s.setBytes a l).ctx x = s.ctx x := by
  obtain ⟨m, hm⟩ := State.setBytes_with l s a; rw [hm]; rfl
@[simp] theorem State.root_setBytes (a : Nat) (l : List Byte) (x : Nat) : (s.setBytes a l).root x = s.root x := by
  obtain ⟨m, hm⟩ := State.setBytes_with l s a; rw [hm]; rfl
@[simp] theorem State.logSlot_setBytes (a : Nat) (l : List Byte) (x : Nat) : (s.setBytes a l).logSlot x = s.logSlot x := by
  obtain ⟨m, hm⟩ := State.setBytes_with l s a; rw [hm]; rfl
@[simp] theorem State.port_setBytes (a : Nat) (l : List Byte) (x : Nat) : (s.setBytes a l).port x = s.port x := by
  obtain ⟨m, hm⟩ := State.setBytes_with l s a; rw [hm]; rfl
@[simp] theorem State.ring_setBytes (a : Nat) (l : List Byte) (x : Nat) : (s.setBytes a l).ring x = s.ring x := by
  obtain ⟨m, hm⟩ := State.setBytes_with l s a; rw [hm]; rfl
@[simp] theorem State.obj_setBytes (a : Nat) (l : List Byte) (x : Nat) : (s.setBytes a l).obj x = s.obj x := by
  obtain ⟨m, hm⟩ := State.setBytes_with l s a; rw [hm]; rfl
@[simp] theorem State.slice_setBytes (a : Nat) (l : List Byte) (x y : Nat) : (s.setBytes a l).slice x y = s.slice x y := by
  obtain ⟨m, hm⟩ := State.setBytes_with l s a; rw [hm]; rfl
@[simp] theorem State.fwCore_setBytes (a : Nat) (l : List Byte) (x : Nat) : (s.setBytes a l).fwCore x = s.fwCore x := by
  obtain ⟨m, hm⟩ := State.setBytes_with l s a; rw [hm]; rfl
@[simp] theorem State.session_setBytes (a : Nat) (l : List Byte) (x : Nat) : (s.setBytes a l).session x = s.session x := by
  obtain ⟨m, hm⟩ := State.setBytes_with l s a; rw [hm]; rfl

end Sys2Proof.Machine
end

