-- ==== Sys2Proof/Laws/Tab.lean ====
section
/-! SUPPORT. The laws of tables: reading what was stored, reading elsewhere, and keeping the canonical form. -/

namespace Sys2Proof.Machine

variable {α : Type}

theorem Tab.get_nil (d : Nat → α) (k : Nat) : Tab.get d [] k = d k := rfl

theorem Tab.get_cons (d : Nat → α) (e : Nat × α) (l : Tab α) (k : Nat) :
    Tab.get d (e :: l) k = if e.1 = k then e.2 else Tab.get d l k := rfl

theorem Tab.get_filter (d : Nat → α) (p : Nat → Bool) (l : Tab α) (k : Nat) :
    Tab.get d (l.filter fun e => p e.1) k = if p k then Tab.get d l k else d k := by
  induction l with
  | nil => simp [Tab.get_nil]
  | cons e l ih =>
    by_cases he : p e.1 <;> by_cases hk : e.1 = k
    · subst hk; simp [Tab.get_cons, he]
    · simp [Tab.get_cons, he, hk, ih]
    · subst hk; simp [he, ih]
    · simp [Tab.get_cons, he, hk, ih]

theorem Tab.get_erase (d : Nat → α) (l : Tab α) (j k : Nat) :
    Tab.get d (Tab.erase l j) k = if k = j then d k else Tab.get d l k := by
  simpa [Tab.erase, bne_iff_ne, ite_not] using Tab.get_filter d (fun x => x != j) l k

theorem Tab.get_drop (d : Nat → α) (l : Tab α) (p : Nat → Bool) (k : Nat) :
    Tab.get d (Tab.drop l p) k = if p k then d k else Tab.get d l k := by
  have h := Tab.get_filter d (fun x => !p x) l k
  by_cases hp : p k <;> simpa [Tab.drop, hp] using h

theorem Tab.mem_keys_insert (l : Tab α) (j : Nat) (v : α) (e : Nat × α) :
    e ∈ Tab.insert j v l ↔ e = (j, v) ∨ e ∈ l := by
  induction l with
  | nil => simp [Tab.insert]
  | cons f l ih =>
    by_cases h : j < f.1
    · simp [Tab.insert, h]
    · simp only [Tab.insert, h, if_false, List.mem_cons, ih]; tauto

theorem Tab.get_insert (d : Nat → α) (l : Tab α) (j k : Nat) (v : α) (h : ∀ e ∈ l, e.1 ≠ j) :
    Tab.get d (Tab.insert j v l) k = if j = k then v else Tab.get d l k := by
  induction l with
  | nil => rfl
  | cons e l ih =>
    have he : e.1 ≠ j := h e (by simp)
    have ih := ih fun x hx => h x (by simp [hx])
    by_cases hlt : j < e.1
    · simp [Tab.insert, hlt, Tab.get_cons]
    · simp only [Tab.insert, hlt, if_false, Tab.get_cons, ih]
      by_cases h1 : e.1 = k <;> by_cases h2 : j = k <;> simp [h1, h2]
      exact absurd (h1.trans h2.symm) he

/-- The entry just stored, and every other entry as before. -/
theorem Tab.get_put [DecidableEq α] (d : Nat → α) (l : Tab α) (j k : Nat) (v : α) :
    Tab.get d (Tab.put d l j v) k = if j = k then v else Tab.get d l k := by
  unfold Tab.put
  split
  · rename_i hv
    by_cases h : j = k
    · subst h; simp [Tab.get_erase, hv]
    · simp [Tab.get_erase, h, Ne.symm h]
  · rw [Tab.get_insert]
    · by_cases h : j = k
      · simp [h]
      · simp [Tab.get_erase, h, Ne.symm h]
    · intro e he; simpa [Tab.erase] using (List.mem_filter.1 he).2

@[simp] theorem Tab.get_put_same [DecidableEq α] (d : Nat → α) (l : Tab α) (k : Nat) (v : α) :
    Tab.get d (Tab.put d l k v) k = v := by simp [Tab.get_put]

theorem Tab.get_put_other [DecidableEq α] (d : Nat → α) (l : Tab α) {j k : Nat} (v : α) (h : j ≠ k) :
    Tab.get d (Tab.put d l j v) k = Tab.get d l k := by simp [Tab.get_put, h]

/-! ### The canonical form -/

theorem Tab.rising_iff (l : Tab α) : Tab.rising l = true ↔ l.Pairwise fun a b => a.1 < b.1 := by
  induction l with
  | nil => simp [Tab.rising]
  | cons e l ih => simp [Tab.rising, ih]

theorem Tab.wf_iff [DecidableEq α] (d : Nat → α) (l : Tab α) :
    Tab.wf d l = true ↔ (l.Pairwise fun a b => a.1 < b.1) ∧ ∀ e ∈ l, e.2 ≠ d e.1 := by
  simp only [Tab.wf, Bool.and_eq_true, Tab.rising_iff, List.all_eq_true, bne_iff_ne]

theorem Tab.wf_nil [DecidableEq α] (d : Nat → α) : Tab.wf d [] = true := rfl

theorem Tab.wf_filter [DecidableEq α] (d : Nat → α) (l : Tab α) (p : Nat × α → Bool) (h : Tab.wf d l = true) :
    Tab.wf d (l.filter p) = true := by
  rw [Tab.wf_iff] at *
  exact ⟨h.1.filter _, fun e he => h.2 e (List.mem_filter.1 he).1⟩

theorem Tab.wf_erase [DecidableEq α] (d : Nat → α) (l : Tab α) (k : Nat) (h : Tab.wf d l = true) :
    Tab.wf d (Tab.erase l k) = true := Tab.wf_filter d l _ h

theorem Tab.wf_drop [DecidableEq α] (d : Nat → α) (l : Tab α) (p : Nat → Bool) (h : Tab.wf d l = true) :
    Tab.wf d (Tab.drop l p) = true := Tab.wf_filter d l _ h

theorem Tab.rising_insert (l : Tab α) (k : Nat) (v : α) (h : l.Pairwise fun a b => a.1 < b.1)
    (hk : ∀ e ∈ l, e.1 ≠ k) : (Tab.insert k v l).Pairwise fun a b => a.1 < b.1 := by
  induction l with
  | nil => simp [Tab.insert]
  | cons e l ih =>
    have ⟨h1, h2⟩ := List.pairwise_cons.1 h
    have hek : e.1 ≠ k := hk e (by simp)
    by_cases hlt : k < e.1
    · simp only [Tab.insert, hlt, if_true, List.pairwise_cons]
      refine ⟨fun b hb => ?_, h1, h2⟩
      rcases List.mem_cons.1 hb with rfl | hb
      · exact hlt
      · exact lt_trans hlt (h1 b hb)
    · simp only [Tab.insert, hlt, if_false, List.pairwise_cons]
      refine ⟨fun b hb => ?_, ih h2 fun x hx => hk x (by simp [hx])⟩
      rcases (Tab.mem_keys_insert l k v b).1 hb with rfl | hb
      · show e.1 < k; omega
      · exact h1 b hb

/-- Storing keeps the canonical form. -/
theorem Tab.wf_put [DecidableEq α] (d : Nat → α) (l : Tab α) (k : Nat) (v : α) (h : Tab.wf d l = true) :
    Tab.wf d (Tab.put d l k v) = true := by
  unfold Tab.put
  split
  · exact Tab.wf_erase d l k h
  · rename_i hv
    have he := (Tab.wf_iff d _).1 (Tab.wf_erase d l k h)
    rw [Tab.wf_iff]
    refine ⟨Tab.rising_insert _ k v he.1 fun e hm => by simpa [Tab.erase] using (List.mem_filter.1 hm).2, fun e hm => ?_⟩
    rcases (Tab.mem_keys_insert _ k v e).1 hm with rfl | hm
    · exact hv
    · exact he.2 e hm

/-- An entry of a table after a store was there before, or is the one stored. -/
theorem Tab.mem_put [DecidableEq α] {d : Nat → α} {l : Tab α} {k : Nat} {v : α} {e : Nat × α} (h : e ∈ Tab.put d l k v) :
    e ∈ l ∨ e = (k, v) := by
  unfold Tab.put at h
  split at h
  · exact .inl (List.mem_of_mem_filter h)
  · rcases (Tab.mem_keys_insert _ k v e).1 h with h | h
    · exact .inr h
    · exact .inl (List.mem_of_mem_filter h)

/-- What is read and is not the default stands in the table. -/
theorem Tab.mem_of_get {d : Nat → α} {l : Tab α} {k : Nat} (P : α → Prop) (hd : ¬ P (d k)) (h : P (Tab.get d l k)) : ∃ e ∈ l, P e.2 := by
  induction l with
  | nil => exact absurd h hd
  | cons e l ih =>
    rw [Tab.get_cons] at h
    split at h
    · exact ⟨e, by simp, h⟩
    · obtain ⟨f, hf, hp⟩ := ih h
      exact ⟨f, by simp [hf], hp⟩

end Sys2Proof.Machine
end

