-- ==== Sys2Proof/Laws/Tables.lean ====
section
/-! SUPPORT. Reading an entry of a typed table after storing one: the one stored, and another. -/

namespace Sys2Proof.Machine

variable (s : State)

theorem State.thread_setThread (j k : Nat) (v : Thread) : (s.setThread j v).thread k = if j = k then v else s.thread k := by
  unfold State.setThread State.thread; exact Tab.get_put _ _ _ _ _
@[simp] theorem State.thread_setThread_same (k : Nat) (v : Thread) : (s.setThread k v).thread k = v := by simp [State.thread_setThread]
theorem State.thread_modThread (j k : Nat) (f : Thread → Thread) : (s.modThread j f).thread k = if j = k then f (s.thread k) else s.thread k := by
  rw [State.modThread, State.thread_setThread]; split <;> simp_all
@[simp] theorem State.thread_modThread_same (k : Nat) (f : Thread → Thread) : (s.modThread k f).thread k = f (s.thread k) := by simp [State.thread_modThread]
theorem State.tile_setTile (j k : Nat) (v : Tile) : (s.setTile j v).tile k = if j = k then v else s.tile k := by
  unfold State.setTile State.tile; exact Tab.get_put _ _ _ _ _
@[simp] theorem State.tile_setTile_same (k : Nat) (v : Tile) : (s.setTile k v).tile k = v := by simp [State.tile_setTile]
theorem State.tile_modTile (j k : Nat) (f : Tile → Tile) : (s.modTile j f).tile k = if j = k then f (s.tile k) else s.tile k := by
  rw [State.modTile, State.tile_setTile]; split <;> simp_all
@[simp] theorem State.tile_modTile_same (k : Nat) (f : Tile → Tile) : (s.modTile k f).tile k = f (s.tile k) := by simp [State.tile_modTile]
theorem State.ctx_setCtx (j k : Nat) (v : Ctx) : (s.setCtx j v).ctx k = if j = k then v else s.ctx k := by
  unfold State.setCtx State.ctx; exact Tab.get_put _ _ _ _ _
@[simp] theorem State.ctx_setCtx_same (k : Nat) (v : Ctx) : (s.setCtx k v).ctx k = v := by simp [State.ctx_setCtx]
theorem State.ctx_modCtx (j k : Nat) (f : Ctx → Ctx) : (s.modCtx j f).ctx k = if j = k then f (s.ctx k) else s.ctx k := by
  rw [State.modCtx, State.ctx_setCtx]; split <;> simp_all
@[simp] theorem State.ctx_modCtx_same (k : Nat) (f : Ctx → Ctx) : (s.modCtx k f).ctx k = f (s.ctx k) := by simp [State.ctx_modCtx]
theorem State.root_setRoot (j k : Nat) (v : RootEngine) : (s.setRoot j v).root k = if j = k then v else s.root k := by
  unfold State.setRoot State.root; exact Tab.get_put _ _ _ _ _
@[simp] theorem State.root_setRoot_same (k : Nat) (v : RootEngine) : (s.setRoot k v).root k = v := by simp [State.root_setRoot]
theorem State.root_modRoot (j k : Nat) (f : RootEngine → RootEngine) : (s.modRoot j f).root k = if j = k then f (s.root k) else s.root k := by
  rw [State.modRoot, State.root_setRoot]; split <;> simp_all
@[simp] theorem State.root_modRoot_same (k : Nat) (f : RootEngine → RootEngine) : (s.modRoot k f).root k = f (s.root k) := by simp [State.root_modRoot]
theorem State.port_setPort (j k : Nat) (v : Port) : (s.setPort j v).port k = if j = k then v else s.port k := by
  unfold State.setPort State.port; exact Tab.get_put _ _ _ _ _
@[simp] theorem State.port_setPort_same (k : Nat) (v : Port) : (s.setPort k v).port k = v := by simp [State.port_setPort]
theorem State.port_modPort (j k : Nat) (f : Port → Port) : (s.modPort j f).port k = if j = k then f (s.port k) else s.port k := by
  rw [State.modPort, State.port_setPort]; split <;> simp_all
@[simp] theorem State.port_modPort_same (k : Nat) (f : Port → Port) : (s.modPort k f).port k = f (s.port k) := by simp [State.port_modPort]
theorem State.ring_setRing (j k : Nat) (v : Ring) : (s.setRing j v).ring k = if j = k then v else s.ring k := by
  unfold State.setRing State.ring; exact Tab.get_put _ _ _ _ _
@[simp] theorem State.ring_setRing_same (k : Nat) (v : Ring) : (s.setRing k v).ring k = v := by simp [State.ring_setRing]
theorem State.ring_modRing (j k : Nat) (f : Ring → Ring) : (s.modRing j f).ring k = if j = k then f (s.ring k) else s.ring k := by
  rw [State.modRing, State.ring_setRing]; split <;> simp_all
@[simp] theorem State.ring_modRing_same (k : Nat) (f : Ring → Ring) : (s.modRing k f).ring k = f (s.ring k) := by simp [State.ring_modRing]
theorem State.logSlot_setLogSlot (j k : Nat) (v : LogSlot) : (s.setLogSlot j v).logSlot k = if j = k then v else s.logSlot k := by
  unfold State.setLogSlot State.logSlot; exact Tab.get_put _ _ _ _ _
@[simp] theorem State.logSlot_setLogSlot_same (k : Nat) (v : LogSlot) : (s.setLogSlot k v).logSlot k = v := by simp [State.logSlot_setLogSlot]
theorem State.obj_setObj (j k : Nat) (v : Nat) : (s.setObj j v).obj k = if j = k then v else s.obj k := by
  unfold State.setObj State.obj; exact Tab.get_put _ _ _ _ _
@[simp] theorem State.obj_setObj_same (k : Nat) (v : Nat) : (s.setObj k v).obj k = v := by simp [State.obj_setObj]
theorem State.slice_setSlice (a b t c : Nat) (v : HSlice) :
    (s.setSlice a b v).slice t c = if 8 * a + b = 8 * t + c then v else s.slice t c :=
  by unfold State.setSlice State.slice; exact Tab.get_put _ _ _ _ _
@[simp] theorem State.slice_setSlice_same (t c : Nat) (v : HSlice) : (s.setSlice t c v).slice t c = v := by simp [State.slice_setSlice]
@[simp] theorem State.slice_modSlice_same (t c : Nat) (f : HSlice → HSlice) : (s.modSlice t c f).slice t c = f (s.slice t c) := by
  simp [State.modSlice]
@[simp] theorem State.fwCore_modFwCore_same (k : Nat) (f : FwCore → FwCore) : (s.modFwCore k f).fwCore k = f (s.fwCore k) := by
  simp [State.modFwCore, State.fwCore]
@[simp] theorem State.session_modSession_same (k : Nat) (f : Session → Session) : (s.modSession k f).session k = f (s.session k) := by
  simp [State.modSession, State.session, State.modRonbin]
@[simp] theorem State.boot_modBoot (f : Boot → Boot) : (s.modBoot f).boot = f s.boot := rfl
@[simp] theorem State.bring_modBring (f : Bring → Bring) : (s.modBring f).bring = f s.bring := rfl
@[simp] theorem State.flash_modFlash (f : Flash → Flash) : (s.modFlash f).flash = s.flash.recorded (f s.flash) := rfl
@[simp] theorem Flash.recorded_bankA (old new : Flash) : (old.recorded new).bankA = new.bankA := by unfold Flash.recorded; split <;> rfl
@[simp] theorem Flash.recorded_bankB (old new : Flash) : (old.recorded new).bankB = new.bankB := by unfold Flash.recorded; split <;> rfl
@[simp] theorem Flash.recorded_confirmed (old new : Flash) : (old.recorded new).confirmed = new.confirmed := by unfold Flash.recorded; split <;> rfl
@[simp] theorem Flash.recorded_stageId (old new : Flash) : (old.recorded new).stageId = new.stageId := by unfold Flash.recorded; split <;> rfl
@[simp] theorem Flash.recorded_stageLen (old new : Flash) : (old.recorded new).stageLen = new.stageLen := by unfold Flash.recorded; split <;> rfl
@[simp] theorem Flash.recorded_cal0 (old new : Flash) : (old.recorded new).cal0 = new.cal0 := by unfold Flash.recorded; split <;> rfl
@[simp] theorem Flash.recorded_cal1 (old new : Flash) : (old.recorded new).cal1 = new.cal1 := by unfold Flash.recorded; split <;> rfl
@[simp] theorem Flash.recorded_fusePending (old new : Flash) : (old.recorded new).fusePending = new.fusePending := by unfold Flash.recorded; split <;> rfl
@[simp] theorem Flash.recorded_mgmtSvn (old new : Flash) : (old.recorded new).mgmtSvn = new.mgmtSvn := by unfold Flash.recorded; split <;> rfl
@[simp] theorem Flash.recorded_rtSvn (old new : Flash) : (old.recorded new).rtSvn = new.rtSvn := by unfold Flash.recorded; split <;> rfl
@[simp] theorem Flash.recorded_revoked (old new : Flash) : (old.recorded new).revoked = new.revoked := by unfold Flash.recorded; split <;> rfl
@[simp] theorem Flash.recorded_bitmapCopy (old new : Flash) : (old.recorded new).bitmapCopy = new.bitmapCopy := by unfold Flash.recorded; split <;> rfl
@[simp] theorem Flash.recorded_bitmapSeq (old new : Flash) : (old.recorded new).bitmapSeq = new.bitmapSeq := by unfold Flash.recorded; split <;> rfl
@[simp] theorem State.ronbin_modRonbin (f : Ronbin → Ronbin) : (s.modRonbin f).ronbin = f s.ronbin := rfl
@[simp] theorem State.out_send (o : Out) : (s.send o).out = s.out ++ [o] := rfl

end Sys2Proof.Machine
end

