-- ==== Sys2Proof/Laws/Flash.lean ====
section
/-! SUPPORT. What an update of the management flash leaves of the rest of it, and what the shared operations of the sweep and of the Hamper do where
nothing stands in their way. -/

namespace Sys2Proof.Machine

variable {s u : State}

/-! ### Banks -/

/-- A record that is not changed is not written. -/
theorem Flash.recorded_same (a b : Flash) (h : b.record = a.record) : Flash.recorded a b = b := by simp [Flash.recorded, h]

@[simp] theorem State.bank_setBank_same (k : Nat) (b : Bank) : (s.setBank k b).bank k = b := by
  by_cases h : k = 0 <;> simp [State.bank, State.setBank, State.modFlash, h]

@[simp] theorem State.bank_modBank_same (k : Nat) (f : Bank → Bank) : (s.modBank k f).bank k = f (s.bank k) := by simp [State.modBank]

/-- Writing bank `k` leaves the other one. -/
theorem State.bank_setBank_other {j k : Nat} (b : Bank) (h : (j = 0) ≠ (k = 0)) : (s.setBank k b).bank j = s.bank j := by
  by_cases hj : j = 0 <;> by_cases hk : k = 0 <;> simp_all [State.bank, State.setBank, State.modFlash]

/-- Writing a bank leaves the fuses. -/
theorem State.setBank_fuses (k : Nat) (b : Bank) : (s.setBank k b).flash.mgmtSvn = s.flash.mgmtSvn
    ∧ (s.setBank k b).flash.rtSvn = s.flash.rtSvn ∧ (s.setBank k b).flash.revoked = s.flash.revoked := by
  by_cases h : k = 0 <;> simp [State.setBank, State.modFlash, h]

/-! ### The sweep and the Hamper -/

/-- Pieces that all can be read hold the sweep up nowhere. -/
theorem State.sweepReads_ok {c i : Nat} {l : List (Nat × Nat)} (f : State → State) (h : ∀ a ∈ l, (s.readData a.1 a.2).isSome = true) :
    s.sweepReads c i l f = f s := by
  have : l.find? (fun a => (s.readData a.1 a.2).isNone) = none := by
    rw [List.find?_eq_none]
    intro a ha hn
    have := h a ha
    cases hr : s.readData a.1 a.2 <;> simp_all
  simp only [State.sweepReads, this]

/-- The first piece that cannot be read ends the sweep. -/
theorem State.sweepReads_fails {c i : Nat} {l : List (Nat × Nat)} (f : State → State) {a : Nat × Nat}
    (h : l.find? (fun a => (s.readData a.1 a.2).isNone) = some a) : s.sweepReads c i l f = s.sweepReadFails c i a.1 a.2 := by
  simp only [State.sweepReads, h]

/-- A slice that has not changed frees nothing for a waiting `PUSH`. -/
theorem State.hamperFreed_same {t c : Nat} (h : u.hamper = s.hamper) : s.hamperFreed u t c = u := if_pos h

end Sys2Proof.Machine
end

