-- ==== Sys2Proof/Laws/Memory.lean ====
section
/-! SUPPORT. Reading a byte after a write, and that every memory operation keeps the canonical form. -/

namespace Sys2Proof.Machine

variable (s : State)

theorem State.byte_setByte (a b : Nat) (v : Byte) : (s.setByte a v).byte b = if a = b then v else s.byte b :=
  Tab.get_put memReset s.mem a b v

@[simp] theorem State.byte_setByte_same (a : Nat) (v : Byte) : (s.setByte a v).byte a = v := by simp [State.byte_setByte]

theorem State.byte_setByte_other {a b : Nat} (v : Byte) (h : a ≠ b) : (s.setByte a v).byte b = s.byte b := by
  simp [State.byte_setByte, h]

/-- Storing bytes leaves every byte outside them alone. -/
theorem State.byte_setBytes_other (l : List Byte) (b : Nat) :
    ∀ (s : State) (a : Nat), b < a ∨ a + l.length ≤ b → (s.setBytes a l).byte b = s.byte b := by
  induction l with
  | nil => exact fun _ _ _ => rfl
  | cons v l ih =>
    intro s a h
    simp only [List.length_cons] at h
    show ((s.setByte a v).setBytes (a + 1) l).byte b = s.byte b
    rw [ih _ _ (by omega), s.byte_setByte_other v (by omega)]

/-- A stored byte reads back. -/
theorem State.byte_setBytes (l : List Byte) :
    ∀ (s : State) (a i : Nat) (h : i < l.length), (s.setBytes a l).byte (a + i) = l[i] := by
  induction l with
  | nil => intro _ _ i h; simp at h
  | cons v l ih =>
    intro s a i h
    show ((s.setByte a v).setBytes (a + 1) l).byte (a + i) = _
    cases i with
    | zero => rw [State.byte_setBytes_other l _ _ _ (by omega)]; simp
    | succ i =>
      have := ih (s.setByte a v) (a + 1) i (by simpa using h)
      simpa [Nat.add_assoc, Nat.add_comm 1 i] using this

@[simp] theorem State.length_bytes (n : Nat) : ∀ (s : State) (a : Nat), (s.bytes a n).length = n := by
  induction n with
  | zero => exact fun _ _ => rfl
  | succ n ih => intro s a; simp [State.bytes, ih]

theorem State.bytes_congr (n : Nat) :
    ∀ (s t : State) (a : Nat), (∀ i < n, s.byte (a + i) = t.byte (a + i)) → s.bytes a n = t.bytes a n := by
  induction n with
  | zero => exact fun _ _ _ _ => rfl
  | succ n ih =>
    intro s t a h
    simp only [State.bytes]
    rw [ih s t (a + 1) fun i hi => by simpa [Nat.add_assoc, Nat.add_comm 1 i] using h (i + 1) (by omega)]
    exact congrArg (· :: _) (by simpa using h 0 (by omega))

/-- Bytes just stored read back. -/
theorem State.bytes_setBytes (l : List Byte) :
    ∀ (s : State) (a : Nat), (s.setBytes a l).bytes a l.length = l := by
  induction l with
  | nil => exact fun _ _ => rfl
  | cons v l ih =>
    intro s a
    show ((s.setByte a v).setBytes (a + 1) l).byte a :: ((s.setByte a v).setBytes (a + 1) l).bytes (a + 1) l.length = _
    rw [ih, State.byte_setBytes_other l _ _ _ (by omega)]
    simp

/-! ### The canonical form -/

theorem State.wf_setByte (a : Nat) (b : Byte) (h : Memory.wf s.mem = true) : Memory.wf (s.setByte a b).mem = true :=
  Tab.wf_put memReset s.mem a b h

theorem State.wf_dropMem (p : Nat → Bool) (h : Memory.wf s.mem = true) : Memory.wf (s.dropMem p).mem = true :=
  Tab.wf_drop memReset s.mem p h

theorem State.wf_setBytes (l : List Byte) :
    ∀ (s : State) (a : Nat), Memory.wf s.mem = true → Memory.wf (s.setBytes a l).mem = true := by
  induction l with
  | nil => exact fun _ _ h => h
  | cons b l ih => exact fun s a h => ih _ _ (s.wf_setByte a b h)

theorem State.wf_setMemNat (a n v : Nat) (h : Memory.wf s.mem = true) : Memory.wf (s.setMemNat a n v).mem = true :=
  State.wf_setBytes _ s a h

theorem wf_reset : Memory.wf State.reset.mem = true := rfl

end Sys2Proof.Machine
end

