-- ==== Sys2Proof/Laws/Regs.lean ====
section
/-! SUPPORT. Reading a register or a field after a write: the one written, another register, another field. -/

namespace Sys2Proof.Machine

variable (s : State)

theorem State.reg_setReg (j k : Nat) (v : Word) : (s.setReg j v).reg k = if j = k then v else s.reg k :=
  Tab.get_put regReset s.regs j k v

@[simp] theorem State.reg_setReg_same (k : Nat) (v : Word) : (s.setReg k v).reg k = v := by simp [State.reg_setReg]

theorem State.reg_setReg_other {j k : Nat} (v : Word) (h : j ≠ k) : (s.setReg j v).reg k = s.reg k := by
  simp [State.reg_setReg, h]

theorem State.reg_dropRegs (p : Nat → Bool) (k : Nat) :
    (s.dropRegs p).reg k = if p k then regReset k else s.reg k := Tab.get_drop regReset s.regs p k

theorem getLsbD_maskBits (lo width i : Nat) (hi : i < 64) :
    (maskBits lo width).getLsbD i = (decide (lo ≤ i) && decide (i - lo < width)) := by
  rw [maskBits, BitVec.getLsbD_ofNat, Nat.testBit_mul_two_pow, Nat.testBit_two_pow_sub_one]
  simp [hi]

/-- Bit `i` of a register with a field replaced. -/
theorem getLsbD_withBits (r : Word) (lo width v i : Nat) (hi : i < 64) :
    (withBits r lo width v).getLsbD i = if lo ≤ i ∧ i < lo + width then v.testBit (i - lo) else r.getLsbD i := by
  rw [withBits, BitVec.getLsbD_or, BitVec.getLsbD_and, BitVec.getLsbD_and, BitVec.getLsbD_not, getLsbD_maskBits _ _ _ hi,
    BitVec.getLsbD_ofNat, Nat.testBit_mul_two_pow]
  by_cases h1 : lo ≤ i <;> by_cases h2 : i - lo < width <;> simp [hi, h1, h2] <;> omega

/-- The field reads as what was stored, cut to its width. -/
theorem extract_withBits_same (r : Word) (lo width v : Nat) (h : lo + width ≤ 64) :
    ((withBits r lo width v).extractLsb' lo width).toNat = v % 2 ^ width := by
  apply Nat.eq_of_testBit_eq
  intro i
  rw [BitVec.testBit_toNat, BitVec.getLsbD_extractLsb', Nat.testBit_mod_two_pow]
  by_cases hi : i < width
  · rw [getLsbD_withBits _ _ _ _ _ (by omega)]; simp [hi]
  · simp [hi]

/-- A field apart from the one stored reads as before. -/
theorem extract_withBits_other (r : Word) (lo width v lo' width' : Nat) (h : lo' + width' ≤ lo ∨ lo + width ≤ lo') :
    (withBits r lo width v).extractLsb' lo' width' = r.extractLsb' lo' width' := by
  apply BitVec.eq_of_getLsbD_eq
  intro i hi
  rw [BitVec.getLsbD_extractLsb', BitVec.getLsbD_extractLsb']
  by_cases h64 : lo' + i < 64
  · rw [getLsbD_withBits _ _ _ _ _ h64, if_neg]
    rintro ⟨a, b⟩; rcases h with h | h <;> omega
  · rw [BitVec.getLsbD_of_ge _ _ (by omega), BitVec.getLsbD_of_ge _ _ (by omega)]

theorem State.fld_setFld_same (f : Fld) (v : Nat) (h : f.lo + f.width ≤ 64) : (s.setFld f v).fld f = v % 2 ^ f.width := by
  simp only [State.fld, State.setFld, State.reg_setReg_same]
  exact extract_withBits_same _ _ _ _ h

theorem State.fld_setFld_other_reg (f g : Fld) (v : Nat) (h : f.reg ≠ g.reg) : (s.setFld f v).fld g = s.fld g := by
  simp only [State.fld, State.setFld, State.reg_setReg_other s _ h]

theorem State.fld_setFld_other (f g : Fld) (v : Nat) (h : g.lo + g.width ≤ f.lo ∨ f.lo + f.width ≤ g.lo) :
    (s.setFld f v).fld g = s.fld g := by
  by_cases hr : f.reg = g.reg
  · simp only [State.fld, State.setFld, ← hr, State.reg_setReg_same, extract_withBits_other _ _ _ _ _ _ h]
  · exact s.fld_setFld_other_reg f g v hr

theorem extract_one (r : Word) (lo : Nat) : (r.extractLsb' lo 1).toNat = (r.getLsbD lo).toNat := by
  apply Nat.eq_of_testBit_eq
  intro i
  rw [BitVec.testBit_toNat, BitVec.getLsbD_extractLsb']
  cases i <;> cases r.getLsbD lo <;> simp [Nat.testBit_succ, *]

theorem State.bit_eq_fld (f : Fld) (h : f.width = 1) : s.bit f = (s.fld f == 1) := by
  obtain ⟨r, lo, width⟩ := f
  subst h
  simp only [State.bit, State.fld, extract_one]
  cases (s.reg r).getLsbD lo <;> rfl

theorem State.setFld_eq (f : Fld) (v : Nat) : s.setFld f v = s.setReg f.reg (withBits (s.reg f.reg) f.lo f.width v) := rfl
theorem State.setBit_eq (f : Fld) (b : Bool) : s.setBit f b = s.setFld f (if b then 1 else 0) := rfl

theorem State.reg_setFld_other (f : Fld) (v k : Nat) (h : f.reg ≠ k) : (s.setFld f v).reg k = s.reg k :=
  s.reg_setReg_other _ h

theorem State.reg_setBit_other (f : Fld) (b : Bool) (k : Nat) (h : f.reg ≠ k) : (s.setBit f b).reg k = s.reg k :=
  s.reg_setReg_other _ h

end Sys2Proof.Machine
end

