-- ==== Sys2Proof/Laws/Reads.lean ====
section
/-! SUPPORT. What the read-only operations look at: two states with the same registers, memory, uncorrectable words and objects
translate and read alike. -/

namespace Sys2Proof.Machine

/-- Two states that the translation and the memory reads cannot tell apart. -/
structure SameView (s u : State) : Prop where
  regs : u.regs = s.regs
  mem : u.mem = s.mem
  bad : u.badWords = s.badWords
  objs : u.objs = s.objs

variable {s u : State}

theorem SameView.refl (s : State) : SameView s s := ⟨rfl, rfl, rfl, rfl⟩

theorem SameView.reg (h : SameView s u) : u.reg = s.reg := by funext k; simp only [State.reg, h.regs]
theorem SameView.fld (h : SameView s u) : u.fld = s.fld := by funext f; simp only [State.fld, h.reg]
theorem SameView.bit (h : SameView s u) : u.bit = s.bit := by funext f; simp only [State.bit, h.reg]
theorem SameView.byte (h : SameView s u) : u.byte = s.byte := by funext a; simp only [State.byte, h.mem]
theorem SameView.obj (h : SameView s u) : u.obj = s.obj := by funext a; simp only [State.obj, h.objs]
theorem SameView.coord (h : SameView s u) : u.coord = s.coord := by simp only [State.coord, h.obj]
theorem SameView.ix (h : SameView s u) : u.ix = s.ix := by funext t n k; simp only [State.ix, h.reg]
theorem SameView.aop (h : SameView s u) : u.aop = s.aop := by funext t n w l; simp only [State.aop, h.ix]
theorem SameView.formOf (h : SameView s u) : u.formOf = s.formOf := by
  funext a; simp only [State.formOf, h.coord]
theorem SameView.segFind (h : SameView s u) : u.segFind = s.segFind := by
  funext c o; simp only [State.segFind, h.bit, h.fld]
theorem SameView.segRights (h : SameView s u) : u.segRights = s.segRights := by
  funext c i; simp only [State.segRights, h.bit]
theorem SameView.controlAllowed (h : SameView s u) : u.controlAllowed = s.controlAllowed := by
  funext c o n; simp only [State.controlAllowed, h.fld]
theorem SameView.translate (h : SameView s u) (c o n need : Nat) (e : Bool) :
    u.translate c o n need e = s.translate c o n need e := by
  simp only [State.translate, h.segFind, h.fld, h.segRights, h.bit, h.controlAllowed]
theorem SameView.translateObj (h : SameView s u) (c o : Nat) (e : Bool) :
    u.translateObj c o e = s.translateObj c o e := by
  simp only [State.translateObj, h.segFind, h.fld, h.bit]
theorem SameView.localPhys (h : SameView s u) : u.localPhys = s.localPhys := by
  funext c a n need; simp only [State.localPhys, h.formOf, h.translate]
theorem SameView.placeReady (h : SameView s u) : u.placeReady = s.placeReady := by
  funext p; cases p <;> simp only [State.placeReady, h.fld]
theorem SameView.rangeReady (h : SameView s u) : u.rangeReady = s.rangeReady := by
  funext o n; simp only [State.rangeReady, h.placeReady]
theorem SameView.dataByte (h : SameView s u) : u.dataByte = s.dataByte := by
  funext o; simp only [State.dataByte, h.reg, h.byte]
theorem SameView.badIn (h : SameView s u) : u.badIn = s.badIn := by
  funext k n; simp only [State.badIn, h.bad]
theorem SameView.readData (h : SameView s u) : u.readData = s.readData := by
  funext o n; simp only [State.readData, h.rangeReady, h.bad, h.badIn, h.dataByte]
theorem SameView.ctxRead (h : SameView s u) : u.ctxRead = s.ctxRead := by
  funext c a n; simp only [State.ctxRead, h.localPhys, h.readData]

theorem SameView.bytes (h : SameView s u) (n : Nat) : ∀ a, u.bytes a n = s.bytes a n := by
  induction n with
  | zero => exact fun _ => rfl
  | succ n ih => intro a; simp only [State.bytes, ih, h.byte]

theorem SameView.memNat (h : SameView s u) : u.memNat = s.memNat := by
  funext a n; simp only [State.memNat, h.bytes]

end Sys2Proof.Machine
end

