-- ==== Sys2Proof/Laws/Issue.lean ====
section
/-! SUPPORT. What issuing a descriptor does before its meaning runs, and what going on to the next descriptor does. -/

namespace Sys2Proof.Machine

variable {s : State} {t n op : Nat} {w : Desc}

/-- A thread that may issue holds no descriptor. -/
theorem held_of_canIssue (h : s.canIssue t n = true) : (s.thread (thrKey t n)).held = none := by
  simp only [State.canIssue, Bool.and_eq_true, Option.isNone_iff_eq_none] at h
  exact h.1.1.1.1.2

/-- A descriptor that can issue runs its meaning on the state after the fetch. -/
theorem Issues.issue (h : Issues s t n w op) (hl : opListed op = true) {sub : Desc → Option Bool} (hs : sub w = some true)
    (run : Iss → State → State) : s.issue t n w op sub run = run (s.nextIss t n w) (s.afterFetch t n w) := by
  obtain ⟨may, ⟨p, hp, hf⟩, row⟩ := h
  subst row
  simp only [State.ctxOf, State.pcOf] at hp hf
  simp [State.issue, State.runRow, held_of_canIssue may, may, hp, hf, hl, hs, State.nextIss, State.afterFetch, State.ctxOf, State.pcOf]

/-- A row whose descriptor can issue is carried out with what its meaning gives. -/
theorem Issues.does {c : Instr} {post : State → Prop} {sub : Desc → Option Bool} {run : Iss → State → State} {u : State}
    (h : Issues s t n w op) (he : exec c s = .next (s.issue t n w op sub run)) (hs : sub w = some true) (hl : opListed op = true)
    (hr : run (s.nextIss t n w) (s.afterFetch t n w) = u) (hp : post u) : Does c s post :=
  ⟨u, by rw [he, h.issue hl hs, hr], hp⟩

@[simp] theorem State.afterFetch_reg (k : Nat) : (s.afterFetch t n w).reg k = s.reg k := rfl
@[simp] theorem State.afterFetch_fld (f : Fld) : (s.afterFetch t n w).fld f = s.fld f := rfl
@[simp] theorem State.afterFetch_byte (a : Nat) : (s.afterFetch t n w).byte a = s.byte a := rfl
@[simp] theorem State.afterFetch_thread (k : Nat) : (s.afterFetch t n w).thread k = s.thread k := rfl
@[simp] theorem State.afterFetch_regs : (s.afterFetch t n w).regs = s.regs := rfl
@[simp] theorem State.afterFetch_mem : (s.afterFetch t n w).mem = s.mem := rfl

/-- The fetch changes nothing that translation and reads look at. -/
theorem sameView_afterFetch : SameView s (s.afterFetch t n w) := ⟨rfl, rfl, rfl, rfl⟩

theorem RegsBut.refl (s : State) (ks : List Nat) : RegsBut s s ks := fun _ _ => rfl

theorem threadPc_ne_status (t n : Nat) : R.threadPc t n ≠ R.threadStatus t n := by
  unfold R.threadPc R.threadStatus; omega

theorem state_reg (t n : Nat) : (F.threadStatus.state t n).reg = R.threadStatus t n := rfl

/-- Arriving at an address at which no loop's body ends only sets `THREAD_PC`. -/
theorem State.arriveAt_straight (u : State) (t n a : Nat) (l : List LoopFrame) (h : ∀ f ∈ l.head?, f.stop ≠ a % 2 ^ 40) :
    u.arriveAt t n a l = (u.modThread (thrKey t n) fun th => { th with loops := l }).setReg (R.threadPc t n) (BitVec.ofNat 64 a) := by
  cases l with
  | nil => rfl
  | cons f l =>
    have hf : f.stop ≠ a % 2 ^ 40 := h f (by simp)
    simp only [State.arriveAt, if_neg hf]

theorem flags_setFld_state (m : State) (t n v : Nat) : (m.setFld (F.threadStatus.state t n) v).flags t n = m.flags t n :=
  m.fld_setFld_other (F.threadStatus.state t n) ⟨R.threadStatus t n, 13, 4⟩ v (Or.inr (by decide : (0:Nat) + 3 ≤ 13))

theorem fld_state_setFld (m : State) (t n v : Nat) (hv : v < 8) :
    (m.setFld (F.threadStatus.state t n) v).fld (F.threadStatus.state t n) = v := by
  rw [m.fld_setFld_same _ v (by decide : (0:Nat) + 3 ≤ 64)]
  exact Nat.mod_eq_of_lt hv

theorem State.fld_setReg_other (m : State) {f : Fld} {k : Nat} (v : Word) (h : k ≠ f.reg) : (m.setReg k v).fld f = m.fld f := by
  simp only [State.fld, State.reg_setReg_other _ _ h]

/-! ### Updates nobody waits for -/

theorem forEach_id {α : Type} (f : State → α → State) (l : List α) (h : ∀ x ∈ l, f s x = s) : forEach l f s = s := by
  induction l with
  | nil => rfl
  | cons x l ih =>
    show forEach l f (f s x) = s
    rw [h x (by simp)]
    exact ih fun y hy => h y (by simp [hy])

theorem mem_upto {k n : Nat} : k ∈ upto n ↔ k < n := List.mem_range

/-- Where no thread of this module waits on the counter at `p`, noting its update touches only the retried watches of its tile. -/
theorem State.noteHits_quiet {m : State} {p : Nat} (hw : ∀ e ∈ m.threads, ∀ x, e.2.wait = some x → x.obj ≠ p) :
    ∃ l, m.noteHits p = { m with tiles := l } ∧ ∀ k, ((m.noteHits p).tile k).watches = (m.tile k).watches := by
  have none : (m.threads.filter fun e => e.2.wait.any fun wt =>
      wt.watch == .retry && (wt.obj == p && waitHolds wt.cond (m.reg p) wt.comparand)) = [] := by
    rw [List.filter_eq_nil_iff]
    intro e he
    cases hx : e.2.wait with
    | none => simp
    | some x => simp [hw e he x hx]
  unfold State.noteHits
  simp only [none, forEach]
  split
  · refine ⟨_, rfl, fun k => ?_⟩
    rw [State.tile_setTile]
    split
    · next h => subst h; rfl
    · rfl
  · exact ⟨m.tiles, rfl, fun _ => rfl⟩

/-- An update of a counter of which nothing is to be told sets it, and no register, byte, thread or watch besides. -/
theorem State.syncSet_quiet {p : Nat} (v : Word) (h : QuietCounter (s.setReg p v) p) :
    s.syncSet p v = (s.setReg p v).noteHits p := by
  obtain ⟨hw, hx, hg⟩ := h
  unfold State.syncSet
  rw [show s.threads.length = (s.setReg p v).threads.length from rfl]
  generalize s.setReg p v = m at *
  obtain ⟨l, hl, htl⟩ := State.noteHits_quiet hw
  have hreg : (m.noteHits p).reg = m.reg := by rw [hl]; rfl
  have hth : (m.noteHits p).threads = m.threads := by rw [hl]
  have hrel : (m.noteHits p).releasable p ((m.noteHits p).reg p) = [] := by
    simp only [State.releasable, List.map_eq_nil_iff, List.filter_eq_nil_iff, hth]
    intro e he
    cases hx : e.2.wait with
    | none => simp
    | some x => simp [hw e he x hx]
  have hany (f : WatchEntry → Bool) : ((m.noteHits p).tile (objTile p)).watches.any (fun e => e.obj == p && f e) = false := by
    rw [List.any_eq_false, htl]
    intro e he
    simp [hx e he]
  have hfil (f : WatchEntry → Option Arrived) (hf : ∀ e, e.obj ≠ p → f e = none) :
      ((m.noteHits p).tile (objTile p)).watches.filterMap f = [] := by
    rw [List.filterMap_eq_nil_iff, htl]
    exact fun e he => hf e (hx e he)
  have hrw : m.releaseWaiters p = (m.noteHits p, []) := by
    unfold State.releaseWaiters
    simp only [hrel, List.flatMap_nil, hany, Bool.false_eq_true, if_false]
    rw [hfil _ (by intro e he; cases e.waiter <;> simp [he])]
    rfl
  have hgen : (m.noteHits p).noteGeneration p = m.noteHits p := by
    unfold State.noteGeneration
    refine forEach_id _ _ fun c hc => ?_
    obtain ⟨h1, h2⟩ := hg c (mem_upto.mp hc)
    have e1 : (m.noteHits p).batchObj c = m.batchObj c := by rw [hl]; rfl
    simp only [e1, h1, and_false, if_false]
    refine forEach_id _ _ fun j hj => ?_
    have e2 : (m.noteHits p).fld (F.genUseObj.val c j) = m.fld (F.genUseObj.val c j) := by rw [hl]; rfl
    simp only [e2, h2 j (mem_upto.mp hj), false_and, and_false, if_false]
  simp only [hrw, hgen]
  cases m.threads.length <;> rfl

/-- What the completion of a descriptor signals, where nothing is to be told of it: 1 is added to its `DONE_OBJ`. -/
theorem State.signalDone_quiet (m : State) (h : dDoneEn w = true →
      QuietCounter (m.setReg (R.syncCount t (dDoneObj w)) (m.reg (R.syncCount t (dDoneObj w)) + 1)) (R.syncCount t (dDoneObj w))) :
    (m.signalDone t w).threads = m.threads ∧ (m.signalDone t w).mem = m.mem ∧ ∀ k, (m.signalDone t w).reg k = m.reg k + doneAdd t w k := by
  unfold State.signalDone
  cases hd : dDoneEn w with
  | false => exact ⟨by simp, by simp, fun k => by simp [doneAdd, hd]⟩
  | true =>
    rw [if_pos rfl]
    unfold State.syncAdd
    obtain ⟨l, hl, -⟩ := State.noteHits_quiet (h hd).waits
    rw [State.syncSet_quiet _ (h hd), hl]
    refine ⟨rfl, rfl, fun k => ?_⟩
    show (m.setReg _ _).reg k = _
    by_cases hk : R.syncCount t (dDoneObj w) = k
    · subst hk; simp [doneAdd, hd]
    · rw [State.reg_setReg_other _ _ hk]; simp [doneAdd, Ne.symm hk]

/-- A counter is quiet in a state whose threads wait as those of `s` do, whose watches are those of `s`, and whose generations look at what
those of `s` look at. -/
theorem QuietCounter.of {m : State} {p : Nat} (h : QuietCounter s p)
    (hw : ∀ e ∈ m.threads, ∀ x, e.2.wait = some x → ∃ f ∈ s.threads, f.2.wait = some x)
    (ht : (m.tile (objTile p)).watches = (s.tile (objTile p)).watches)
    (hg : ∀ c, c < 8 → m.reg (R.fcObj c) = s.reg (R.fcObj c) ∧ m.reg (R.genBatchObj c) = s.reg (R.genBatchObj c)
      ∧ ∀ j, j < 2 → m.reg (R.genUseObj c j) = s.reg (R.genUseObj c j)) : QuietCounter m p := by
  refine ⟨fun e he x hx => ?_, ht ▸ h.watches, fun c hc => ?_⟩
  · obtain ⟨f, hf, hfx⟩ := hw e he x hx
    exact h.waits f hf x hfx
  · obtain ⟨h1, h2, h3⟩ := hg c hc
    refine ⟨?_, fun j hj => ?_⟩
    · have := (h.slots c hc).1
      have e1 : m.fld (F.genBatchObj.val c) = s.fld (F.genBatchObj.val c) := by simp only [State.fld, F.genBatchObj.val, h2]
      have e2 : m.fld (F.fcObj.val c) = s.fld (F.fcObj.val c) := by simp only [State.fld, F.fcObj.val, h1]
      have e : m.batchObj c = s.batchObj c := by unfold State.batchObj; rw [e1, e2]
      rw [e]; exact this
    · have := (h.slots c hc).2 j hj
      have e : m.fld (F.genUseObj.val c j) = s.fld (F.genUseObj.val c j) := by simp only [State.fld, F.genUseObj.val, h3 j hj]
      rw [e]; exact this

/-- Registers of tiles are no registers of the generation slots or of frame contracts. -/
theorem tileReg_ne {k : Nat} (h : k < 0x200000000) : ∀ c, k ≠ R.fcObj c ∧ k ≠ R.genBatchObj c ∧ ∀ j, k ≠ R.genUseObj c j := by
  intro c
  unfold R.fcObj R.genBatchObj R.genUseObj
  exact ⟨by omega, by omega, fun j => by omega⟩

theorem dDoneObj_lt (w : Desc) : dDoneObj w < 64 := (w.extractLsb' 116 6).isLt

/-- A `DONE_OBJ` is none of its thread's registers. -/
theorem doneAdd_thread (hn : n < 16) : doneAdd t w (R.threadPc t n) = 0 ∧ doneAdd t w (R.threadStatus t n) = 0 := by
  have h := dDoneObj_lt w
  unfold doneAdd R.threadPc R.threadStatus R.syncCount
  exact ⟨if_neg (by omega), if_neg (by omega)⟩

/-! ### Completion of a synchronous descriptor -/

/-- Of the states before and after the thread of a synchronous descriptor went on: what it left apart from its `THREAD_PC` and `STATE`. -/
structure WentOn (s m : State) (t n a : Nat) (ks : List Nat) : Prop where
  pc : m.reg (R.threadPc t n) = BitVec.ofNat 64 a
  ready : m.fld (F.threadStatus.state t n) = 1
  flags : m.flags t n = s.flags t n
  regs : RegsBut s m (ks ++ threadRegs t n)
  waits : ∀ e ∈ m.threads, ∀ x, e.2.wait = some x → ∃ f ∈ s.threads, f.2.wait = some x
  watches : ∀ k, (m.tile k).watches = (s.tile k).watches
  mem : m.mem = s.mem

/-- Its completion then signals. -/
theorem WentOn.signal {m : State} {a : Nat} {ks : List Nat} (h : WentOn s m t n a ks) (hq : s.doneQuiet t w) (ht : t < 256) (hn : n < 16)
    (hks : ∀ k ∈ ks, k < 0x200000000) :
    (m.signalDone t w).reg (R.threadPc t n) = BitVec.ofNat 64 a ∧ (m.signalDone t w).fld (F.threadStatus.state t n) = 1
    ∧ (m.signalDone t w).flags t n = s.flags t n ∧ RegsDone s (m.signalDone t w) t n w ks ∧ SameBytes s (m.signalDone t w) := by
  have hsc : R.syncCount t (dDoneObj w) < 0x200000000 := by
    have := dDoneObj_lt w
    unfold R.syncCount; omega
  have hout : ∀ k, 0x200000000 ≤ k → k ∉ ks ++ threadRegs t n := by
    intro k hk hm
    simp only [List.mem_append, threadRegs, List.mem_cons, List.not_mem_nil, or_false] at hm
    rcases hm with hm | hm | hm
    · exact absurd (hks k hm) (by omega)
    · unfold R.threadPc at hm; omega
    · unfold R.threadStatus at hm; omega
  have hquiet : ∀ v, dDoneEn w = true → QuietCounter (m.setReg (R.syncCount t (dDoneObj w)) v) (R.syncCount t (dDoneObj w)) := by
    intro v hd
    refine (hq hd).of h.waits (h.watches _) fun c hc => ?_
    obtain ⟨h1, h2, h3⟩ := tileReg_ne hsc c
    refine ⟨?_, ?_, fun j hj => ?_⟩
    · rw [State.reg_setReg_other _ _ h1, h.regs _ (hout _ (by unfold R.fcObj; omega))]
    · rw [State.reg_setReg_other _ _ h2, h.regs _ (hout _ (by unfold R.genBatchObj; omega))]
    · rw [State.reg_setReg_other _ _ (h3 j), h.regs _ (hout _ (by unfold R.genUseObj; omega))]
  obtain ⟨-, hmem, hreg⟩ := m.signalDone_quiet (hquiet _)
  obtain ⟨h1, h2⟩ := doneAdd_thread (t := t) (w := w) hn
  have hs : (m.signalDone t w).reg (R.threadStatus t n) = m.reg (R.threadStatus t n) := by rw [hreg, h2]; simp
  refine ⟨by rw [hreg, h1, h.pc]; simp, ?_, ?_, fun k hk => by rw [hreg, h.regs k hk], fun b => by simp only [State.byte, hmem, h.mem]⟩
  · have := h.ready
    simpa only [State.fld, F.threadStatus.state, hs] using this
  · have := h.flags
    simpa only [State.flags, hs] using this

/-- Changing the loops and calls of a thread changes no wait. -/
theorem waits_modThread (m : State) (k : Nat) (f : Thread → Thread) (hf : ∀ x, (f x).wait = x.wait) :
    ∀ e ∈ (m.modThread k f).threads, ∀ x, e.2.wait = some x → ∃ g ∈ m.threads, g.2.wait = some x := by
  intro e he x hx
  have he : e ∈ Tab.put (fun _ => ({} : Thread)) m.threads k (f (m.thread k)) := he
  rcases Tab.mem_put he with h | h
  · exact ⟨e, h, hx⟩
  · subst h
    rw [hf] at hx
    exact Tab.mem_of_get (fun y : Thread => y.wait = some x) (by simp) hx

/-- Arriving where no loop's body ends, from a state with the waits and the memory of `s`. -/
theorem wentOn_arriveAt {m : State} {ks : List Nat} (a : Nat) (l : List LoopFrame) (h : ∀ f ∈ l.head?, f.stop ≠ a % 2 ^ 40)
    (hw : ∀ e ∈ m.threads, ∀ x, e.2.wait = some x → ∃ f ∈ s.threads, f.2.wait = some x)
    (htl : ∀ k, (m.tile k).watches = (s.tile k).watches)
    (hr : RegsBut s m ks) (hks : R.threadStatus t n ∉ ks) (hmem : m.mem = s.mem) :
    WentOn s ((m.setFld (F.threadStatus.state t n) 1).arriveAt t n a l) t n a ks := by
  have hne := threadPc_ne_status t n
  have e := State.arriveAt_straight (m.setFld (F.threadStatus.state t n) 1) t n a l h
  rw [e]
  generalize hm1 : m.setFld (F.threadStatus.state t n) 1 = m1
  refine ⟨?_, ?_, ?_, ?_, ?_, ?_, ?_⟩
  · rw [State.reg_setReg_same]
  · rw [State.fld_setReg_other _ _ (by rw [state_reg]; exact hne), State.fld_modThread, ← hm1, fld_state_setFld m _ _ 1 (by decide)]
  · have hfl := flags_setFld_state m t n 1
    rw [hm1] at hfl
    simp only [State.flags, State.reg_setReg_other _ _ hne, State.reg_modThread, hr _ hks] at hfl ⊢
    exact hfl
  · intro k hk
    simp only [threadRegs, List.mem_append, List.mem_cons, List.not_mem_nil, or_false, not_or] at hk
    rw [State.reg_setReg_other _ _ (Ne.symm hk.2.1), State.reg_modThread, ← hm1,
      State.reg_setFld_other _ _ _ _ (by rw [state_reg]; exact Ne.symm hk.2.2), hr k hk.1]
  · intro e he x hx
    obtain ⟨g, hg, hgx⟩ := waits_modThread m1 (thrKey t n) (fun th => { th with loops := l }) (fun _ => rfl) e he x hx
    subst hm1
    exact hw g hg x hgx
  · intro k; subst hm1; exact htl k
  · subst hm1; exact hmem

/-- A synchronous descriptor whose effect `m` made to `s`: it goes on, signals its `DONE_OBJ`, and what `m` left is left. -/
theorem stepsOn_syncDone {m : State} {ks : List Nat} (ht : t < 256) (hn : n < 16) (hs : s.plain t n w) (hth : m.threads = s.threads)
    (htl : ∀ k, (m.tile k).watches = (s.tile k).watches) (hr : RegsBut s m ks) (hks : R.threadStatus t n ∉ ks)
    (hlow : ∀ k ∈ ks, k < 0x200000000) (hmem : m.mem = s.mem) : StepsOn s (m.syncDone (s.nextIss t n w)) t n w ks := by
  have hl : (m.thread (thrKey t n)).loops = (s.thread (thrKey t n)).loops := by simp only [State.thread, hth]
  have h := wentOn_arriveAt (s := s) (t := t) (n := n) (pcPlus (s.pcOf t n) 1) (s.thread (thrKey t n)).loops
    hs.straight (m := m) (by rw [hth]; exact fun e he x hx => ⟨e, he, hx⟩) htl hr hks hmem
  obtain ⟨h1, h2, h3, h4, h5⟩ := h.signal hs.done ht hn hlow
  have e : m.syncDone (s.nextIss t n w)
      = ((m.setFld (F.threadStatus.state t n) 1).arriveAt t n (pcPlus (s.pcOf t n) 1) (s.thread (thrKey t n)).loops).signalDone t w := by
    show (((m.setFld (F.threadStatus.state t n) 1).arriveAt t n _ _).signalDone t w) = _
    rw [← hl]; rfl
  rw [e]
  exact ⟨⟨h1, h2⟩, h3, h4, h5⟩

/-- Going to an address, from a state with the waits, registers and memory of `s`. -/
theorem goesTo_goTo {m : State} (ht : t < 256) (hn : n < 16) (hq : s.doneQuiet t w) (a : Nat)
    (hw : ∀ e ∈ m.threads, ∀ x, e.2.wait = some x → ∃ f ∈ s.threads, f.2.wait = some x)
    (htl : ∀ k, (m.tile k).watches = (s.tile k).watches) (hr : m.regs = s.regs) (hm : m.mem = s.mem) :
    GoesTo s (m.goTo (s.nextIss t n w) a) t n w a := by
  have hne := threadPc_ne_status t n
  have hreg : m.reg = s.reg := by funext k; simp only [State.reg, hr]
  have h : WentOn s ((m.setFld (F.threadStatus.state t n) 1).setReg (R.threadPc t n) (BitVec.ofNat 64 a)) t n a [] := by
    refine ⟨by rw [State.reg_setReg_same], ?_, ?_, ?_, hw, htl, hm⟩
    · rw [State.fld_setReg_other _ _ (by rw [state_reg]; exact hne), fld_state_setFld m _ _ 1 (by decide)]
    · have hfl := flags_setFld_state m t n 1
      simp only [State.flags, State.reg_setReg_other _ _ hne, hreg] at hfl ⊢
      exact hfl
    · intro k hk
      simp only [threadRegs, List.nil_append, List.mem_cons, List.not_mem_nil, or_false, not_or] at hk
      rw [State.reg_setReg_other _ _ (Ne.symm hk.1), State.reg_setFld_other _ _ _ _ (by rw [state_reg]; exact Ne.symm hk.2), hreg]
  obtain ⟨h1, h2, -, h4, h5⟩ := h.signal hq ht hn (by simp)
  exact ⟨h1, h2, h4, h5⟩

/-- The fetch leaves every wait and every watch. -/
theorem watches_afterFetch (k : Nat) : ((s.afterFetch t n w).tile k).watches = (s.tile k).watches := by
  unfold State.afterFetch
  rw [State.tile_modTile]
  split
  · next h => subst h; rfl
  · rfl

/-- A taken branch or a jump goes to its address. -/
theorem jump_spec (ht : t < 256) (hn : n < 16) (hq : s.doneQuiet t w) :
    GoesTo s ((s.afterFetch t n w).jump (s.nextIss t n w)) t n w (pcPlus (s.pcOf t n) (dTarget w)) :=
  goesTo_goTo ht hn hq _ (fun e he x hx => waits_modThread (s.afterFetch t n w) _ _ (by intro y; rfl) e he x hx) watches_afterFetch rfl rfl

/-- A descriptor that only goes on. -/
theorem stepsOn_nothing (ht : t < 256) (hn : n < 16) (hs : s.plain t n w) :
    StepsOn s ((s.afterFetch t n w).syncDone (s.nextIss t n w)) t n w :=
  stepsOn_syncDone (ks := []) ht hn hs rfl watches_afterFetch (RegsBut.refl _ _) (by simp) (by simp) rfl

/-- An object operand on this module, on a tile that is ready. -/
theorem onObject_here {m : State} {i : Iss} {p o : Nat} (h1 : m.aop i.t i.n i.w 80 % 8 = 0)
    (h2 : m.formOf (m.aop i.t i.n i.w 80) = .here o) (h3 : m.translateObj i.c o = .inr p) (h4 : m.tileReady (objTile p) = true)
    (here : State → Nat → State) (away : Nat → Ask) : m.onObject i here away = here m p := by
  simp only [State.onObject, State.objAop, h1, h2, h3, ne_eq, not_true_eq_false, if_false, State.withObject, h4, if_true]

theorem onObject_afterFetch {p : Nat} (h : CounterHere s t n w p) (here : State → Nat → State) (away : Nat → Ask) :
    (s.afterFetch t n w).onObject (s.nextIss t n w) here away = here (s.afterFetch t n w) p := by
  obtain ⟨h1, ⟨o, h2, h3⟩, h4⟩ := h
  refine onObject_here (o := o) ?_ ?_ ?_ ?_ here away
  · rw [sameView_afterFetch.aop]; exact h1
  · rw [sameView_afterFetch.aop, sameView_afterFetch.formOf]; exact h2
  · rw [sameView_afterFetch.translateObj]; exact h3
  · simpa only [State.tileReady, State.afterFetch_fld] using h4

end Sys2Proof.Machine
end

