-- ==== Sys2Proof/Tests/Slice0.lean ====
section
/-! SUPPORT. Small states and the witnesses of the statements' hypotheses: each theorem shows operands and a state that meet
all hypotheses of one clause together. Bool forms of the hypotheses let the kernel decide them. -/

namespace Sys2Proof.Tests

-- one theorem after the other: a thread for each would not fit the memory of the check
set_option Elab.async false
open Sys2Proof.Machine

/-! ### The hypotheses as Bool -/

theorem all_upto {n : Nat} {p : Nat → Bool} (h : (upto n).all p = true) : ∀ i, i < n → p i = true :=
  fun i hi => List.all_eq_true.mp h i (by simpa [upto] using hi)

def okIs {ε α : Type} [DecidableEq α] (x : Except ε α) (v : α) : Bool :=
  match x with
  | .ok a => decide (a = v)
  | .error _ => false

theorem of_okIs {ε α : Type} [DecidableEq α] {x : Except ε α} {v : α} (h : okIs x v = true) : x = .ok v := by
  unfold okIs at h
  split at h
  · exact congrArg _ (of_decide_eq_true h)
  · cases h

theorem ok_pair {ε α σ : Type} {x : Except ε α × σ} {a : α} (h : x.1 = .ok a) : x = (.ok a, x.2) := by
  rw [← h]

def isOk {ε α : Type} : Except ε α → Bool
  | .ok _ => true
  | .error _ => false

theorem ok_of {ε α : Type} {x : Except ε α} (h : isOk x = true) : ∃ a, x = .ok a := by
  cases x with
  | ok a => exact ⟨a, rfl⟩
  | error _ => cases h

def issuesB (s : State) (t n : Nat) (w : Desc) (op : Nat) : Bool :=
  s.canIssue t n && (match s.fetchAddr t (s.ctxOf t n) (s.pcOf t n) with
    | .inr p => s.fetched t (s.ctxOf t n) (s.pcOf t n) p w
    | .inl _ => false) && dOp w == op

theorem issues_of {s : State} {t n : Nat} {w : Desc} {op : Nat} (h : issuesB s t n w op = true) : Issues s t n w op := by
  simp only [issuesB, Bool.and_eq_true, beq_iff_eq] at h
  obtain ⟨⟨a, b⟩, c⟩ := h
  refine ⟨a, ?_, c⟩
  split at b
  · rename_i p hp
    exact ⟨p, hp, b⟩
  · cases b

def straightB (s : State) (t n : Nat) : Bool :=
  match (s.thread (thrKey t n)).loops.head? with
  | none => true
  | some f => f.stop != pcPlus (s.pcOf t n) 1 % 2 ^ 40

theorem straight_of {s : State} {t n : Nat} (h : straightB s t n = true) : s.straight t n := by
  intro f hf
  have hf' : (s.thread (thrKey t n)).loops.head? = some f := hf
  simp only [straightB, hf'] at h
  simpa using h

def counterB (s : State) (t n : Nat) (w : Desc) (p : Nat) : Bool :=
  s.aop t n w 80 % 8 == 0 && match s.formOf (s.aop t n w 80) with
    | .here o => decide (s.translateObj (s.ctxOf t n) o = .inr p) && s.tileReady (objTile p)
    | _ => false

theorem counter_of {s : State} {t n : Nat} {w : Desc} {p : Nat} (h : counterB s t n w p = true) : CounterHere s t n w p := by
  simp only [counterB, Bool.and_eq_true, beq_iff_eq] at h
  have := h.2
  split at this
  · rename_i o ho
    simp only [Bool.and_eq_true, decide_eq_true_eq] at this
    exact ⟨h.1, ⟨o, ho, this.1⟩, this.2⟩
  · cases this

def quietB (s : State) (p : Nat) : Bool :=
  (s.threads.all fun e => match e.2.wait with
    | none => true
    | some x => x.obj != p)
  && ((s.tile (objTile p)).watches.all fun e => e.obj != p)
  && (upto 8).all fun c => s.batchObj c != p && (upto 2).all fun j => s.fld (F.genUseObj.val c j) != p

theorem quiet_of {s : State} {p : Nat} (h : quietB s p = true) : QuietCounter s p := by
  simp only [quietB, Bool.and_eq_true] at h
  obtain ⟨⟨a, b⟩, c⟩ := h
  refine ⟨fun e he x hx => ?_, fun e he => ?_, fun i hi => ?_⟩
  · have := List.all_eq_true.mp a e he
    simpa [hx] using this
  · simpa using List.all_eq_true.mp b e he
  · have := all_upto c i hi
    simp only [Bool.and_eq_true, bne_iff_ne, ne_eq] at this
    exact ⟨this.1, fun j hj => by simpa using all_upto this.2 j hj⟩

def doneQuietB (s : State) (t : Nat) (w : Desc) : Bool := !dDoneEn w || quietB s (R.syncCount t (dDoneObj w))

theorem doneQuiet_of {s : State} {t : Nat} {w : Desc} (h : doneQuietB s t w = true) : s.doneQuiet t w := by
  intro hd
  simp only [doneQuietB, hd, Bool.not_true, Bool.false_or] at h
  exact quiet_of h

def plainWB (s : State) (t n : Nat) (w : Desc) : Bool := straightB s t n && doneQuietB s t w

theorem plainW_of {s : State} {t n : Nat} {w : Desc} (h : plainWB s t n w = true) : s.plain t n w := by
  simp only [plainWB, Bool.and_eq_true] at h
  exact ⟨straight_of h.1, doneQuiet_of h.2⟩

def pendQuietB (s : State) (t : Nat) (p : Pend) : Bool := !p.signal || doneQuietB s t p.word

theorem pendQuiet_of {s : State} {t : Nat} {p : Pend} (h : pendQuietB s t p = true) : s.pendQuiet t p := by
  intro hp
  simp only [pendQuietB, hp, Bool.not_true, Bool.false_or] at h
  exact doneQuiet_of h

def dmaStillB (s : State) (t n : Nat) : Bool := decide (s.dmaNext (thrKey t n) 8 = s)

theorem dmaStill_of {s : State} {t n : Nat} (h : dmaStillB s t n = true) : s.dmaStill t n :=
  (of_decide_eq_true h : s.dmaNext (thrKey t n) 8 = s)

def noneQueuedB (s : State) : Bool := s.threads.all fun e => e.2.pend.all fun p => p.phase != .queued

theorem noneQueued_of {s : State} (h : noneQueuedB s = true) : s.noneQueued := by
  intro e he p hp
  simpa using List.all_eq_true.mp (List.all_eq_true.mp h e he) p hp

def roomB (s : State) (t n : Nat) (w : Desc) (e : Engine) : Bool := decide (s.asyncBlocked (s.nextIss t n w) e = none)

theorem room_of {s : State} {t n : Nat} {w : Desc} {e : Engine} (h : roomB s t n w e = true) : s.roomFor t n w e := by
  simpa [roomB, State.roomFor] using h

def plainB (s : State) (p n : Nat) : Bool :=
  s.rangeReady p n && decide (p + n ≤ 0x80000000 ∨ (0x4000000000 ≤ p ∧ p + n ≤ 2 ^ 40)) && decide (s.tablesHeld = [])

theorem plain_of {s : State} {p n : Nat} (h : plainB s p n = true) : PlainRange s p n := by
  simp only [plainB, Bool.and_eq_true, decide_eq_true_eq] at h
  exact ⟨h.1.1, h.1.2, h.2⟩

def nearB (s : State) (a : Nat) : Bool :=
  match s.formOf a with
  | .away _ _ => false
  | _ => true

def localDmaB (s : State) (t n : Nat) (w : Desc) : Bool :=
  straightB s t n && roomB s t n w .dma && decide (firstOpen (s.thread (thrKey t n)).pend = none) && nearB s (s.nextIss t n w).farEnd
    && !s.anyAway (s.nextIss t n w).nearEnds && !s.dmaHeld (s.nextIss t n w)

theorem localDma_of {s : State} {t n : Nat} {w : Desc} (h : localDmaB s t n w = true) : LocalDma s t n w := by
  simp only [localDmaB, Bool.and_eq_true, decide_eq_true_eq, Bool.not_eq_true'] at h
  obtain ⟨⟨⟨⟨⟨a, b⟩, c⟩, d⟩, e⟩, f⟩ := h
  exact ⟨straight_of a, room_of b, c, fun x o e => by simp [nearB, e] at d, e, f⟩

def vecReadyB (s : State) (t n : Nat) (w : Desc) (sub : Nat) (ks : List Nat) : Bool :=
  issuesB s t n w 0x18 && dSub w == sub && straightB s t n && roomB s t n w .vec && !vecFieldFault w
    && ks.all fun k => !s.isAway (s.ix t n k).toNat

theorem vecReady_of {s : State} {t n : Nat} {w : Desc} {sub : Nat} {ks : List Nat} (h : vecReadyB s t n w sub ks = true) :
    VecReady s t n w sub ks := by
  simp only [vecReadyB, Bool.and_eq_true, beq_iff_eq, Bool.not_eq_true'] at h
  obtain ⟨⟨⟨⟨⟨a, b⟩, c⟩, d⟩, e⟩, f⟩ := h
  exact ⟨issues_of a, b, straight_of c, room_of d, e, fun k hk => by simpa using List.all_eq_true.mp f k hk⟩

def noBacklogB (s : State) : Bool := (upto 4).all fun e => (s.root e).backlog == []

theorem noBacklog_of {s : State} (h : noBacklogB s = true) : s.noBacklog :=
  fun e he => by simpa using all_upto h e he

def noneArrayQueuedB (s : State) (t : Nat) : Bool :=
  (upto 16).all fun m => (s.thread (thrKey t m)).pend.all fun x => x.eng != .array || x.phase != .queued

theorem noneArrayQueued_of {s : State} {t : Nat} (h : noneArrayQueuedB s t = true) : s.noneArrayQueued t := by
  intro m hm x hx he
  have := List.all_eq_true.mp (all_upto h m hm) x hx
  simpa [he] using this

def arrayReadyB (s : State) (t n : Nat) (w : Desc) (op : Nat) : Bool :=
  issuesB s t n w op && straightB s t n && roomB s t n w .array && decide ((s.tile t).preemptedOf n = none) && !s.arrayPends t n

theorem arrayReady_of {s : State} {t n : Nat} {w : Desc} {op : Nat} (h : arrayReadyB s t n w op = true) : ArrayReady s t n w op := by
  simp only [arrayReadyB, Bool.and_eq_true, decide_eq_true_eq, Bool.not_eq_true'] at h
  obtain ⟨⟨⟨⟨a, b⟩, c⟩, d⟩, e⟩ := h
  exact ⟨issues_of a, straight_of b, room_of c, d, e⟩

def logRoomB (s : State) (code sev func unit k : Nat) : Bool :=
  decide (s.mergeSlot code func unit = none) && decide (s.freeSlot sev = some k)

theorem logRoom_of {s : State} {code sev func unit k : Nat} (h : logRoomB s code sev func unit k = true) :
    LogRoom s code sev func unit k := by
  simp only [logRoomB, Bool.and_eq_true, decide_eq_true_eq] at h
  exact ⟨h.1, h.2⟩

def comesB (s : State) (k : Nat) (a : Arrived) : Bool := decide (s.arrived[k]? = some a) && s.inTurn k a && !a.poison && s.remoteAllowed a

theorem comes_of {s : State} {k : Nat} {a : Arrived} (h : comesB s k a = true) : Comes s k a := by
  simp only [comesB, Bool.and_eq_true, decide_eq_true_eq, Bool.not_eq_true'] at h
  exact ⟨h.1.1.1, h.1.1.2, h.1.2, h.2⟩

def answersB (s : State) (k : Nat) (a : Arrived) (x : Xfer) : Bool :=
  decide (s.arrived[k]? = some a) && s.inTurn k a && !a.poison && decide (s.answeredBy a = some x)

theorem answers_of {s : State} {k : Nat} {a : Arrived} {x : Xfer} (h : answersB s k a x = true) : AnswersXfer s k a x := by
  simp only [answersB, Bool.and_eq_true, decide_eq_true_eq, Bool.not_eq_true'] at h
  exact ⟨h.1.1.1, h.1.1.2, h.1.2, h.2⟩

def awaitingB (s : State) (t n : Nat) (w : Desc) (x : Xfer) : Bool :=
  decide ((s.thread (thrKey t n)).syncTid = some x.tid) && decide ((s.thread (thrKey t n)).held = some w)
    && s.fld (F.threadStatus.state t n) != 7 && plainWB s t n w

theorem awaiting_of {s : State} {t n : Nat} {w : Desc} {x : Xfer} (h : awaitingB s t n w x = true) : Awaiting s t n w x := by
  simp only [awaitingB, Bool.and_eq_true, decide_eq_true_eq, bne_iff_ne, ne_eq] at h
  exact ⟨h.1.1.1, h.1.1.2, h.1.2, plainW_of h.2⟩

def takesB (s : State) (r op : Nat) (c : RingCmd) : Bool :=
  s.mayTake r && decide (s.cmdEntry r (s.ring r).cmdHead = c) && c.seq == next32 (s.ring r).lastSeq && c.op == op && opValid r op
    && next32 (s.ring r).cmdHead == (s.ring r).cmdTail

theorem takes_of {s : State} {r op : Nat} {c : RingCmd} (h : takesB s r op c = true) : TakesCmd s r op c := by
  simp only [takesB, Bool.and_eq_true, decide_eq_true_eq, beq_iff_eq] at h
  obtain ⟨⟨⟨⟨⟨a, b⟩, c⟩, d⟩, e⟩, f⟩ := h
  exact ⟨a, b, c, d, e, f⟩

def isCounterKeyB (k : Nat) : Bool := (upto 256).any fun t => (upto 64).any fun o => k == R.syncCount t o

theorem isCounterKey_of {k : Nat} (h : isCounterKeyB k = true) : isCounterKey k := by
  simp only [isCounterKeyB, List.any_eq_true, beq_iff_eq] at h
  obtain ⟨t, ht, o, ho, e⟩ := h
  exact ⟨t, o, by simpa [upto] using ht, by simpa [upto] using ho, e⟩

def inThermosB (p n : Nat) : Bool := decide (0x4000000000 ≤ p ∧ p + n ≤ 0xC000000000)

theorem inThermos_of {p n : Nat} (h : inThermosB p n = true) : inThermos p n := by
  simpa [inThermosB, inThermos] using h

def noPushB (s : State) (c : Nat) : Bool := s.threads.all fun e => decide (s.waitingPushes (e.1 / 16) c = [])

theorem noPush_of {s : State} {c : Nat} (h : noPushB s c = true) : s.noPushWaits c :=
  fun e he => by simpa using List.all_eq_true.mp h e he

def loadingB (s : State) : Bool := s.bring.released && decide (s.bring.step < 4)

theorem loading_of {s : State} (h : loadingB s = true) : s.loading := by
  simpa [loadingB, State.loading] using h

theorem notLoading_of {s : State} (h : loadingB s = false) : ¬ s.loading := by
  simpa [loadingB, State.loading] using h

def mayResetB (s : State) (func unit : Nat) : Bool :=
  resetAllowed func unit && resetDrains func && !s.inReset && !s.inOptions && decide (s.findReset func unit = none)
    && (func != 9 || (upto 8).all fun c => !([2, 3, 4].contains (s.fld (F.sweepStatus.state c))))
    && (func != 0xC || !(s.ctx unit).running)

theorem mayReset_of {s : State} {func unit : Nat} (h : mayResetB s func unit = true) : MayReset s func unit := by
  simp only [mayResetB, Bool.and_eq_true, Bool.or_eq_true, bne_iff_ne, ne_eq, Bool.not_eq_true', decide_eq_true_eq] at h
  obtain ⟨⟨⟨⟨⟨⟨a, b⟩, c⟩, g⟩, d⟩, e⟩, f⟩ := h
  refine ⟨a, b, c, g, d, fun hf => ?_, fun hf => ?_⟩
  · rcases e with e | e
    · exact absurd hf e
    · intro i hi
      simpa using all_upto e i hi
  · rcases f with f | f
    · exact absurd hf f
    · exact f

def waitsB (s : State) (q : Request) (op : Nat) : Bool :=
  s.ronbinUp && decide (s.ronbin.requests = [q]) && q.headerGood && pduOp q.pdu == op && decide (s.kept q = none)
    && decide (q.slot = none → pduDst q.pdu = 0xFF → op < 5 ∨ 7 < op)

theorem waits_of {s : State} {q : Request} {op : Nat} (h : waitsB s q op = true) : Waits s q op := by
  simp only [waitsB, Bool.and_eq_true, decide_eq_true_eq, beq_iff_eq] at h
  obtain ⟨⟨⟨⟨⟨a, b⟩, c⟩, d⟩, e⟩, f⟩ := h
  exact ⟨a, b, c, d, e, f⟩

/-- Registers set to values. -/
def regsTo (l : List (Nat × Word)) (s : State) : State := l.foldl (fun s e => s.setReg e.1 e.2) s

/-- Fields set to values. -/
def fldsTo (l : List (Fld × Nat)) (s : State) : State := l.foldl (fun s e => s.setFld e.1 e.2) s

/-- A module in `RUN`: every function ready, firmware running, link and Lark up at Lark time 5 s; context 0 runs over the whole local map. Its
registers are written out, with literal keys, so that the kernel reads them fast; `live_regs` says what they are. -/
def live : State :=
  { regs :=
      [(12901679104, 0x48c27395000#64), (12901679120, 2#64), (12918456368, 2#64), (12918460416, 3#64), (12968787976, 2#64), (12968788232, 2#64),
       (12968788488, 2#64), (12968788744, 2#64), (12968789000, 2#64), (12968789256, 2#64), (13002342400, 0xffffff0000000000#64),
       (13002342408, 0x3f000000000000#64), (2199023255560, 0x1ffe#64), (2199023255568, 0x3ffffffffff#64), (2199023259648, 5#64)]
    bring := { mainOk := true, auxOk := true, resetN := true, perst := true, step := 4, released := true, latched := true, linkDone := true
               trained := [0, 1, 2, 3, 4, 5, 6, 7], tilesDone := true }
    ctxs := [(0, { running := true })], coordKnown := true }

theorem live_regs : live.regs =
    (regsTo [(R.funcReady, 0x1FFE), (R.unitReady, 0x3FFFFFFFFFF), (R.larkTime, 5000000000000), (R.segLo 0 0, 0xFFFFFF0000000000),
        (R.segHi 0 0, 0x3F000000000000)]
      (fldsTo ([(F.pwrStatus.state, 3), (F.phaseStatus.phase, 2), (F.larkStatus.state, 2), (F.bootState.state, 5)]
        ++ (upto 6).map fun n => (F.coreStatus.state n, 2)) {})).regs := by decide +kernel

/-- Thread `n` of tile `t` is ready at a descriptor `w` in its tile's Meadow. -/
def at_ (t n : Nat) (w : Desc) (s : State) : State :=
  let a := 2 ^ 23 * t + 0x1000
  ((regsTo [(R.threadPc t n, BitVec.ofNat 64 a)] s).setFld (F.threadStatus.state t n) 1).setBytes a (leBytes 16 w.toNat)

/-- A descriptor from its fields: value and lowest bit of each. -/
def word (l : List (Nat × Nat)) : Desc := BitVec.ofNat 128 (l.foldl (fun a e => a + e.1 * 2 ^ e.2) 0)

/-- A flit as it stands on the wire, with its `CRC`. -/
def wf (f : Flit) : WireFlit := { hdr := f.header, payload := f.payload, crc := crc32c (leBytes 12 f.header.toNat ++ padTo 240 f.payload) }

/-- The same with a `CRC` that does not hold. -/
def badW (f : Flit) : WireFlit := { wf f with crc := (wf f).crc + 1 }

theorem goodCrc_wf (f : Flit) : goodCrc (wf f) = true := beq_self_eq_true _

theorem goodCrc_badW (f : Flit) : goodCrc (badW f) = false := by
  simp [goodCrc, badW, wf]

theorem receives_wf {s : State} {p ty : Nat} (f : Flit) (h : s.portLive p = true) (k : (fieldsOf (wf f)).type = ty) :
    Receives s p ty (wf f) (s.takeAck p (fieldsOf (wf f))) := ⟨h, goodCrc_wf f, k, rfl⟩


/-- A helper of the tests. -/
def pendOne : Pend := { eng := .dma, word := 0, pc := 0, phase := .done, signal := true }
/-- A helper of the tests. -/
def lastPend (k : Nat) (u : State) : Pend := (u.thread k).pend.getLast?.getD pendOne
/-- A helper of the tests. -/
def lastFlit (u : State) : Flit := match u.out.reverse.find? (fun o => o matches .flit _ _) with | some (.flit _ f) => f | _ => {}
/-- A helper of the tests. -/
def okD (x : Except ε α) (d : α) : α := match x with | .ok a => a | _ => d


/-! ### Ill-formed terms are refused -/

/-- No term of the list is well formed. -/
def refuses (l : List Instr) : Bool := l.all fun c => !c.wf

/-- Every term of the list is. -/
def accepts (l : List Instr) : Bool := l.all Instr.wf

/-- Opcode 0 spells no row; the opcode of Table 2.6 in bits 127:122 spells each. -/
theorem test_wf_rows : refuses
    [.load 0 0 0, .load2d 0 0 0, .loadPanel 0 0 0, .store 0 0 0, .store2d 0 0 0, .fill 0 0 0, .gather 0 0 0, .scatter 0 0 0,
     .scatterAdd 0 0 0, .mmaStart 0 0 0, .mmaStep 0 0 0, .mmaUnload 0 0 0, .wait 0 0 0, .arrive 0 0 0, .fence 0 0 0, .syncRead 0 0 0,
     .loop 0 0 0, .branch 0 0 0, .jump 0 0 0, .call 0 0 0, .ret 0 0 0, .halt 0 0 0, .yield 0 0 0, .nop 0 0 0, .ixSet 0 0 0, .ixAdd 0 0 0,
     .ixLoad 0 0 0, .push 0 0 0, .pop 0 0 0, .time 0 0 0, .trace 0 0 0, .event 0 0 0] = true := by decide +kernel

theorem test_wf_rows_accept : accepts
    [.load 0 0 (0x01 <<< 122), .load2d 0 0 (0x02 <<< 122), .loadPanel 0 0 (0x03 <<< 122), .store 0 0 (0x04 <<< 122),
     .store2d 0 0 (0x05 <<< 122), .fill 0 0 (0x06 <<< 122), .gather 0 0 (0x07 <<< 122), .scatter 0 0 (0x08 <<< 122),
     .scatterAdd 0 0 (0x09 <<< 122), .mmaStart 0 0 (0x10 <<< 122), .mmaStep 0 0 (0x11 <<< 122), .mmaUnload 0 0 (0x12 <<< 122),
     .wait 0 0 (0x21 <<< 122), .arrive 0 0 (0x22 <<< 122), .fence 0 0 (0x23 <<< 122), .syncRead 0 0 (0x24 <<< 122),
     .loop 0 0 (0x28 <<< 122), .branch 0 0 (0x29 <<< 122), .jump 0 0 (0x2a <<< 122), .call 0 0 (0x2b <<< 122), .ret 0 0 (0x2c <<< 122),
     .halt 0 0 (0x2d <<< 122), .yield 0 0 (0x2e <<< 122), .nop 0 0 (0x2f <<< 122), .ixSet 0 0 (0x30 <<< 122), .ixAdd 0 0 (0x31 <<< 122),
     .ixLoad 0 0 (0x32 <<< 122), .push 0 0 (0x38 <<< 122), .pop 0 0 (0x39 <<< 122), .time 0 0 (0x3a <<< 122), .trace 0 0 (0x3b <<< 122),
     .event 0 0 (0x3c <<< 122)] = true := by decide +kernel

/-- A `VEC` word of another sub-operation, and the right one (R40). -/
theorem test_wf_vec : refuses
    [.copy 0 0 (0x18 <<< 122 ||| 0xff <<< 104), .add 0 0 (0x18 <<< 122 ||| 0xff <<< 104), .sub 0 0 (0x18 <<< 122 ||| 0xff <<< 104),
     .mul 0 0 (0x18 <<< 122 ||| 0xff <<< 104), .fma 0 0 (0x18 <<< 122 ||| 0xff <<< 104), .axpby 0 0 (0x18 <<< 122 ||| 0xff <<< 104),
     .scale 0 0 (0x18 <<< 122 ||| 0xff <<< 104), .max 0 0 (0x18 <<< 122 ||| 0xff <<< 104), .min 0 0 (0x18 <<< 122 ||| 0xff <<< 104),
     .abs 0 0 (0x18 <<< 122 ||| 0xff <<< 104), .sign 0 0 (0x18 <<< 122 ||| 0xff <<< 104), .relu 0 0 (0x18 <<< 122 ||| 0xff <<< 104),
     .leakyRelu 0 0 (0x18 <<< 122 ||| 0xff <<< 104), .tanh 0 0 (0x18 <<< 122 ||| 0xff <<< 104),
     .sigmoid 0 0 (0x18 <<< 122 ||| 0xff <<< 104), .elu 0 0 (0x18 <<< 122 ||| 0xff <<< 104),
     .heathGate 0 0 (0x18 <<< 122 ||| 0xff <<< 104), .gelu 0 0 (0x18 <<< 122 ||| 0xff <<< 104),
     .silu 0 0 (0x18 <<< 122 ||| 0xff <<< 104), .exp 0 0 (0x18 <<< 122 ||| 0xff <<< 104), .recip 0 0 (0x18 <<< 122 ||| 0xff <<< 104),
     .rsqrt 0 0 (0x18 <<< 122 ||| 0xff <<< 104), .rowMax 0 0 (0x18 <<< 122 ||| 0xff <<< 104),
     .rowSum 0 0 (0x18 <<< 122 ||| 0xff <<< 104), .rowSumsq 0 0 (0x18 <<< 122 ||| 0xff <<< 104),
     .deriv 0 0 (0x18 <<< 122 ||| 0xff <<< 104), .srBf16 0 0 (0x18 <<< 122 ||| 0xff <<< 104), .quant 0 0 (0x18 <<< 122 ||| 0xff <<< 104),
     .dequant 0 0 (0x18 <<< 122 ||| 0xff <<< 104), .select 0 0 (0x18 <<< 122 ||| 0xff <<< 104),
     .check 0 0 (0x18 <<< 122 ||| 0xff <<< 104)] = true := by decide +kernel

theorem test_wf_vec_accept : accepts
    [.copy 0 0 (0x18 <<< 122 ||| 0x00 <<< 104), .add 0 0 (0x18 <<< 122 ||| 0x01 <<< 104), .sub 0 0 (0x18 <<< 122 ||| 0x02 <<< 104),
     .mul 0 0 (0x18 <<< 122 ||| 0x03 <<< 104), .fma 0 0 (0x18 <<< 122 ||| 0x04 <<< 104), .axpby 0 0 (0x18 <<< 122 ||| 0x05 <<< 104),
     .scale 0 0 (0x18 <<< 122 ||| 0x06 <<< 104), .max 0 0 (0x18 <<< 122 ||| 0x07 <<< 104), .min 0 0 (0x18 <<< 122 ||| 0x08 <<< 104),
     .abs 0 0 (0x18 <<< 122 ||| 0x09 <<< 104), .sign 0 0 (0x18 <<< 122 ||| 0x0a <<< 104), .relu 0 0 (0x18 <<< 122 ||| 0x0b <<< 104),
     .leakyRelu 0 0 (0x18 <<< 122 ||| 0x0c <<< 104), .tanh 0 0 (0x18 <<< 122 ||| 0x0d <<< 104),
     .sigmoid 0 0 (0x18 <<< 122 ||| 0x0e <<< 104), .elu 0 0 (0x18 <<< 122 ||| 0x0f <<< 104),
     .heathGate 0 0 (0x18 <<< 122 ||| 0x10 <<< 104), .gelu 0 0 (0x18 <<< 122 ||| 0x11 <<< 104),
     .silu 0 0 (0x18 <<< 122 ||| 0x12 <<< 104), .exp 0 0 (0x18 <<< 122 ||| 0x13 <<< 104), .recip 0 0 (0x18 <<< 122 ||| 0x14 <<< 104),
     .rsqrt 0 0 (0x18 <<< 122 ||| 0x15 <<< 104), .rowMax 0 0 (0x18 <<< 122 ||| 0x16 <<< 104),
     .rowSum 0 0 (0x18 <<< 122 ||| 0x17 <<< 104), .rowSumsq 0 0 (0x18 <<< 122 ||| 0x18 <<< 104),
     .deriv 0 0 (0x18 <<< 122 ||| 0x19 <<< 104), .srBf16 0 0 (0x18 <<< 122 ||| 0x1a <<< 104), .quant 0 0 (0x18 <<< 122 ||| 0x1b <<< 104),
     .dequant 0 0 (0x18 <<< 122 ||| 0x1c <<< 104), .select 0 0 (0x18 <<< 122 ||| 0x1d <<< 104),
     .check 0 0 (0x18 <<< 122 ||| 0x1e <<< 104)] = true := by decide +kernel

/-- A `SIGNAL` word of another operation, and the right one (R44). -/
theorem test_wf_signal : refuses
    [.signalAdd 0 0 (0x20 <<< 122 ||| 7 <<< 76), .signalSet 0 0 (0x20 <<< 122 ||| 7 <<< 76), .signalMax 0 0 (0x20 <<< 122 ||| 7 <<< 76),
     .signalMin 0 0 (0x20 <<< 122 ||| 7 <<< 76), .signalOr 0 0 (0x20 <<< 122 ||| 7 <<< 76), .signalAnd 0 0 (0x20 <<< 122 ||| 7 <<< 76),
     .signalArm 0 0 (0x20 <<< 122 ||| 7 <<< 76)] = true := by decide +kernel

theorem test_wf_signal_accept : accepts
    [.signalAdd 0 0 (0x20 <<< 122 ||| 0 <<< 76), .signalSet 0 0 (0x20 <<< 122 ||| 1 <<< 76), .signalMax 0 0 (0x20 <<< 122 ||| 2 <<< 76),
     .signalMin 0 0 (0x20 <<< 122 ||| 3 <<< 76), .signalOr 0 0 (0x20 <<< 122 ||| 4 <<< 76), .signalAnd 0 0 (0x20 <<< 122 ||| 5 <<< 76),
     .signalArm 0 0 (0x20 <<< 122 ||| 6 <<< 76)] = true := by decide +kernel

/-- A flit of 241 payload bytes. -/
def long : WireFlit := { hdr := 0, payload := List.replicate 241 0, crc := 0 }

/-- A flit of 241 payload bytes, host accesses that move nothing or leave the aperture, a PDU of 1,501 bytes, tile 256, layer 2,048, a link
of no lanes. -/
theorem test_wf_operands : refuses
    ([.linkCtlReceived 0 long, .dataFlitReceived 0 long, .nakReceived 0 long, .timeFlitReceived 0 long 0, .stileNoticeReceived 0 long,
      .idleFlitReceived 0 long, .reservedTypeFlitReceived 0 long]
     ++ [.bar2Read 0 0, .bar2Read 0xFFFFFFFFF 2, .bar2Write 0 [], .bar2Write 0xFFFFFFFFF [1, 2], .bar2Write 0 (List.replicate 4097 0)]
     ++ [.dopFrameReceived 0 0 { tagged := false, pdu := List.replicate 1501 0 }, .write { failed := [256] }, .writeList { failed := [256] },
         .arraySelftestRun 0 [256] 0, .tilesBringup [256] 0, .functionResetReady 0 0 [256] false, .voteArrival 0 false (some 2048) [], .linkEntersL0 0 1,
         .linkEntersL0 17 1, .linkEntersL0 4 0, .linkEntersL0 4 8]) = true := by decide +kernel

namespace W10

/-- An operand or a state of the witnesses below. -/
def cnt : Nat := R.syncCount 0 3
/-- An operand or a state of the witnesses below. -/
def base : State := regsTo [(R.ix 0 0 1, 0x1234), (R.ix 0 0 2, BitVec.ofNat 64 cnt), (cnt, 77)] (live.setBytes 0x2000 (leBytes 8 0xABCDEF))
/-- An operand or a state of the witnesses below. -/
def base2 : State := { base with boot := { base.boot with trace := true } }
/-- An operand or a state of the witnesses below. -/
def w1 := word [(0x2F,122)]
/-- An operand or a state of the witnesses below. -/
def w2 := word [(0x2E,122)]
/-- An operand or a state of the witnesses below. -/
def w3 := word [(0x23,122)]
/-- An operand or a state of the witnesses below. -/
def w4 := word [(0x30,122),(3,109),(55,0)]
/-- An operand or a state of the witnesses below. -/
def w5 := word [(0x31,122),(3,109),(1,106),(55,0)]
/-- An operand or a state of the witnesses below. -/
def w6 := word [(0x32,122),(3,109),(0x2000,48)]
/-- An operand or a state of the witnesses below. -/
def w7 := word [(0x3A,122),(4,109)]
/-- An operand or a state of the witnesses below. -/
def w8 := word [(0x3B,122),(99,0)]
/-- An operand or a state of the witnesses below. -/
def w9 := word [(0x24,122),(2,109),(5,72)]  -- aop at 80, reg 2
/-- An operand or a state of the witnesses below. -/
def w10 := word [(0x2F,122),(1,115),(5,116)]
/-- An operand or a state of the witnesses below. -/
def w11 := word [(0x24,122),(2,109),(5,72),(1,115),(3,116)]
/-- An operand or a state of the witnesses below. -/
def w12 := word [(0x2E,122),(1,115),(9,116)]

/-! Witnesses of `Obligations.IndexRowsComplete`, by clause. -/

theorem test_IndexRowsComplete_1 :
    (at_ 0 0 w1 base).plain 0 0 w1
    ∧ Issues (at_ 0 0 w1 base) 0 0 w1 47 :=
  ⟨plainW_of (by decide +kernel), issues_of (by decide +kernel)⟩

theorem test_IndexRowsComplete_2 :
    (at_ 0 0 w2 base).plain 0 0 w2
    ∧ Issues (at_ 0 0 w2 base) 0 0 w2 46 :=
  ⟨plainW_of (by decide +kernel), issues_of (by decide +kernel)⟩

theorem test_IndexRowsComplete_3 :
    (at_ 0 0 w3 base).plain 0 0 w3
    ∧ Issues (at_ 0 0 w3 base) 0 0 w3 35
    ∧ ((at_ 0 0 w3 base).thread (thrKey 0 0)).pend = [] :=
  ⟨plainW_of (by decide +kernel), issues_of (by decide +kernel), by decide +kernel⟩

theorem test_IndexRowsComplete_4 :
    (at_ 0 0 w4 base).plain 0 0 w4
    ∧ Issues (at_ 0 0 w4 base) 0 0 w4 48 :=
  ⟨plainW_of (by decide +kernel), issues_of (by decide +kernel)⟩

theorem test_IndexRowsComplete_5 :
    (at_ 0 0 w5 base).plain 0 0 w5
    ∧ Issues (at_ 0 0 w5 base) 0 0 w5 49 :=
  ⟨plainW_of (by decide +kernel), issues_of (by decide +kernel)⟩

theorem test_IndexRowsComplete_6 :
    (at_ 0 0 w6 base).plain 0 0 w6
    ∧ Issues (at_ 0 0 w6 base) 0 0 w6 50
    ∧ (at_ 0 0 w6 base).ctxRead ((at_ 0 0 w6 base).ctxOf 0 0) ((at_ 0 0 w6 base).aop 0 0 w6 48) 8 = Except.ok (leBytes 8 11259375) :=
  ⟨plainW_of (by decide +kernel), issues_of (by decide +kernel), of_okIs (by decide +kernel)⟩

theorem test_IndexRowsComplete_7 :
    (at_ 0 0 w7 base).plain 0 0 w7
    ∧ Issues (at_ 0 0 w7 base) 0 0 w7 58 :=
  ⟨plainW_of (by decide +kernel), issues_of (by decide +kernel)⟩

theorem test_IndexRowsComplete_8 :
    (at_ 0 0 w8 base).plain 0 0 w8
    ∧ Issues (at_ 0 0 w8 base) 0 0 w8 59
    ∧ (at_ 0 0 w8 base).boot.trace = true
    ∧ (at_ 0 0 w8 base).coreRuns 5 = true :=
  ⟨plainW_of (by decide +kernel), issues_of (by decide +kernel), by decide +kernel⟩

theorem test_IndexRowsComplete_9 :
    (at_ 0 0 w9 base).plain 0 0 w9
    ∧ Issues (at_ 0 0 w9 base) 0 0 w9 36
    ∧ CounterHere (at_ 0 0 w9 base) 0 0 w9 cnt :=
  ⟨plainW_of (by decide +kernel), issues_of (by decide +kernel), counter_of (by decide +kernel)⟩

end W10

namespace W10b

/-- An operand or a state of the witnesses below. -/
def cnt : Nat := R.syncCount 0 3
/-- An operand or a state of the witnesses below. -/
def base : State := regsTo [(R.ix 0 0 1, 7), (R.ix 0 0 2, BitVec.ofNat 64 cnt), (cnt, 77)] live
/-- An operand or a state of the witnesses below. -/
def jump := word [(0x2A,122),(0xFFFFFFFE,32)]
/-- An operand or a state of the witnesses below. -/
def br1 := word [(0x29,122),(1,72),(2,69),(8,32)]
/-- An operand or a state of the witnesses below. -/
def br2 := word [(0x29,122),(2,72),(2,69),(8,32)]
/-- An operand or a state of the witnesses below. -/
def br3 := word [(0x29,122),(3,72),(1,69),(8,32)]
/-- An operand or a state of the witnesses below. -/
def br4 := word [(0x29,122),(4,72),(1,69),(0xFFFFFFF0,32)]
/-- An operand or a state of the witnesses below. -/
def br0 := word [(0x29,122),(0,72),(1,76),(1,69),(8,32),(2,109)]  -- sel 0
/-- An operand or a state of the witnesses below. -/
def br0b := word [(0x29,122),(0,72),(0,76),(1,69),(8,32),(2,109)]
/-- An operand or a state of the witnesses below. -/
def call := word [(0x2B,122),(5,32)]
/-- An operand or a state of the witnesses below. -/
def ret := word [(0x2C,122)]
/-- An operand or a state of the witnesses below. -/
def lp := word [(0x28,122),(3,64),(2,48),(1,45),(4,25),(2,22),(0xFFFFF,2)]
/-- An operand or a state of the witnesses below. -/
def lp0 := word [(0x28,122),(0,64),(2,48)]
/-- An operand or a state of the witnesses below. -/
def halt := word [(0x2D,122)]
/-- An operand or a state of the witnesses below. -/
def nop := word [(0x2F,122)]
/-- An operand or a state of the witnesses below. -/
def jumpd := word [(0x2A,122),(0xFFFFFFFE,32),(1,115),(9,116)]
/-- An operand or a state of the witnesses below. -/
def retd := word [(0x2C,122),(1,115),(9,116)]
/-- An operand or a state of the witnesses below. -/
def lpd := word [(0x28,122),(3,64),(2,48),(1,45),(4,25),(2,22),(0xFFFFF,2),(1,115),(9,116)]
/-- An operand or a state of the witnesses below. -/
def haltd := word [(0x2D,122),(1,115),(9,116)]
/-- An operand or a state of the witnesses below. -/
def nopd := word [(0x2F,122),(1,115),(9,116)]
/-- An operand or a state of the witnesses below. -/
def fr : LoopFrame := { first := 0x900, stop := 0x1010, left := 3, ixa := 1, inca := 4, ixb := 2, incb := -1 }
/-- An operand or a state of the witnesses below. -/
def withT (th : Thread) (s : State) : State := s.setThread 0 th

/-! Witnesses of `Obligations.FlowRowsComplete`, by clause. -/

theorem test_FlowRowsComplete_1 :
    (at_ 0 0 jump base).doneQuiet 0 jump
    ∧ Issues (at_ 0 0 jump base) 0 0 jump 42 :=
  ⟨doneQuiet_of (by decide +kernel), issues_of (by decide +kernel)⟩

theorem test_FlowRowsComplete_2 :
    (at_ 0 0 br1 base).doneQuiet 0 br1
    ∧ Issues (at_ 0 0 br1 base) 0 0 br1 41
    ∧ (dSel br1 ≤ 2 → dNum br1 < 4)
    ∧ (at_ 0 0 br1 base).straight 0 0
    ∧ 1 ≤ dSel br1
    ∧ dSel br1 ≤ 4 :=
  ⟨doneQuiet_of (by decide +kernel), issues_of (by decide +kernel), fun _ => by decide +kernel, straight_of (by decide +kernel), by decide +kernel⟩

theorem test_FlowRowsComplete_3 :
    (at_ 0 0 br0 base).doneQuiet 0 br0
    ∧ Issues (at_ 0 0 br0 base) 0 0 br0 41
    ∧ CounterHere (at_ 0 0 br0 base) 0 0 br0 cnt
    ∧ (at_ 0 0 br0 base).straight 0 0
    ∧ dSel br0 = 0
    ∧ dCond br0 < 6 :=
  ⟨doneQuiet_of (by decide +kernel), issues_of (by decide +kernel), counter_of (by decide +kernel), straight_of (by decide +kernel), by decide +kernel⟩

theorem test_FlowRowsComplete_4 :
    (at_ 0 0 call base).doneQuiet 0 call
    ∧ Issues (at_ 0 0 call base) 0 0 call 43
    ∧ ((at_ 0 0 call base).thread (thrKey 0 0)).calls.length < 4 :=
  ⟨doneQuiet_of (by decide +kernel), issues_of (by decide +kernel), by decide +kernel⟩

theorem test_FlowRowsComplete_5 :
    (withT { calls := [8192], loops := [fr] : Thread } (at_ 0 0 ret base)).doneQuiet 0 ret
    ∧ Issues (withT { calls := [8192], loops := [fr] : Thread } (at_ 0 0 ret base)) 0 0 ret 44
    ∧ ((withT { calls := [8192], loops := [fr] : Thread } (at_ 0 0 ret base)).thread (thrKey 0 0)).calls = [8192]
    ∧ (∀ (f : LoopFrame),
      f ∈ ((withT { calls := [8192], loops := [fr] : Thread } (at_ 0 0 ret base)).thread (thrKey 0 0)).loops.head? →
        f.stop ≠ 8192 % 2 ^ 40) :=
  ⟨doneQuiet_of (by decide +kernel), issues_of (by decide +kernel), by decide +kernel⟩

theorem test_FlowRowsComplete_6 :
    (at_ 0 0 lp base).doneQuiet 0 lp
    ∧ Issues (at_ 0 0 lp base) 0 0 lp 40
    ∧ dBody lp ≠ 0
    ∧ ((at_ 0 0 lp base).thread (thrKey 0 0)).loops.length < 4
    ∧ dLoopCount lp ≠ 0 :=
  ⟨doneQuiet_of (by decide +kernel), issues_of (by decide +kernel), by decide +kernel⟩

theorem test_FlowRowsComplete_7 :
    (at_ 0 0 lp0 base).doneQuiet 0 lp0
    ∧ Issues (at_ 0 0 lp0 base) 0 0 lp0 40
    ∧ dBody lp0 ≠ 0
    ∧ ((at_ 0 0 lp0 base).thread (thrKey 0 0)).loops = []
    ∧ dLoopCount lp0 = 0 :=
  ⟨doneQuiet_of (by decide +kernel), issues_of (by decide +kernel), by decide +kernel⟩

theorem test_FlowRowsComplete_8 :
    (at_ 0 0 halt base).doneQuiet 0 halt
    ∧ Issues (at_ 0 0 halt base) 0 0 halt 45
    ∧ (at_ 0 0 halt base).straight 0 0
    ∧ ((at_ 0 0 halt base).bit (F.threadCtl.exitEn 0 0) = true →
      QuietCounter (at_ 0 0 halt base) (R.syncCount 0 ((at_ 0 0 halt base).fld (F.threadCtl.exitObj 0 0))))
    ∧ ((at_ 0 0 halt base).thread (thrKey 0 0)).pend = [] :=
  ⟨doneQuiet_of (by decide +kernel), issues_of (by decide +kernel), straight_of (by decide +kernel), fun h => absurd h (by decide +kernel), by decide +kernel⟩

theorem test_FlowRowsComplete_9 :
    (withT { pend := [pendOne] : Thread } (at_ 0 0 halt base)).doneQuiet 0 halt
    ∧ Issues (withT { pend := [pendOne] : Thread } (at_ 0 0 halt base)) 0 0 halt 45
    ∧ (withT { pend := [pendOne] : Thread } (at_ 0 0 halt base)).straight 0 0
    ∧ ((withT { pend := [pendOne] : Thread } (at_ 0 0 halt base)).thread (thrKey 0 0)).pend ≠ [] :=
  ⟨doneQuiet_of (by decide +kernel), issues_of (by decide +kernel), straight_of (by decide +kernel), by decide +kernel⟩

theorem test_FlowRowsComplete_10 :
    (withT { calls := [8192], loops := [fr] : Thread } (at_ 0 0 nop base)).doneQuiet 0 nop
    ∧ Issues (withT { calls := [8192], loops := [fr] : Thread } (at_ 0 0 nop base)) 0 0 nop 47
    ∧ ((withT { calls := [8192], loops := [fr] : Thread } (at_ 0 0 nop base)).thread (thrKey 0 0)).loops = [fr]
    ∧ fr.stop = pcPlus ((withT { calls := [8192], loops := [fr] : Thread } (at_ 0 0 nop base)).pcOf 0 0) 1 % 2 ^ 40
    ∧ 1 < fr.left
    ∧ fr.ixa < 8
    ∧ fr.ixb < 8
    ∧ fr.ixa ≠ fr.ixb :=
  ⟨doneQuiet_of (by decide +kernel), issues_of (by decide +kernel), by decide +kernel⟩

end W10b

namespace W20

/-- An operand or a state of the witnesses below. -/
def cnt : Nat := R.syncCount 0 3
/-- An operand or a state of the witnesses below. -/
def cnt1 : Nat := R.syncCount 1 3
/-- An operand or a state of the witnesses below. -/
def base : State := regsTo [(R.ix 0 0 1, 70), (R.ix 0 0 2, BitVec.ofNat 64 cnt),(R.ix 0 0 3, BitVec.ofNat 64 cnt1), (cnt, 77)] (live.setBytes 0x2000 (leBytes 8 0xABCDEF ++ leBytes 8 5))
/-- An operand or a state of the witnesses below. -/
def sg (k : Nat) := word [(0x20,122),(2,109),(k,76),(33,0)]
/-- An operand or a state of the witnesses below. -/
def sgr (k : Nat) := word [(0x20,122),(2,109),(k,76),(1,75),(1,72)]
/-- An operand or a state of the witnesses below. -/
def ar (k : Nat) := word [(0x22,122),(2,109),(k,76),(2,56),(0x2000,24)]
/-- An operand or a state of the witnesses below. -/
def wt (k v : Nat) := word [(0x21,122),(2,109),(k,76),(v,0),(3,64)]
/-- An operand or a state of the witnesses below. -/
def withW (w : Wait) (s : State) : State := (s.setThread 0 {wait := some w}).setFld (F.threadStatus.state 0 0) 2
/-- An operand or a state of the witnesses below. -/
def w1 : Wait := { obj := cnt, cond := 0, comparand := 99, tmo := 3, watch := .none, since := 0, pc := 0x1000 }
/-- An operand or a state of the witnesses below. -/
def w2 : Wait := { obj := cnt1, cond := 0, comparand := 99, tmo := 3, watch := .retry, since := 0, pc := 0x1000 }
/-- An operand or a state of the witnesses below. -/
def w3 : Wait := { w2 with hit := true }

/-! Witnesses of `Obligations.SignalAndArriveComplete`, by clause. -/

theorem test_SignalAndArriveComplete_1 :
    Issues (at_ 0 0 (sg 0) base) 0 0 (sg 0) 32
    ∧ (at_ 0 0 (sg 0) base).plain 0 0 (sg 0)
    ∧ CounterHere (at_ 0 0 (sg 0) base) 0 0 (sg 0) cnt
    ∧ QuietCounter (at_ 0 0 (sg 0) base) cnt
    ∧ ((at_ 0 0 (sg 0) base).thread (thrKey 0 0)).pend = []
    ∧ dOpc (sg 0) = 0 :=
  ⟨issues_of (by decide +kernel), plainW_of (by decide +kernel), counter_of (by decide +kernel), quiet_of (by decide +kernel), by decide +kernel⟩

theorem test_SignalAndArriveComplete_2 :
    Issues (at_ 0 0 (sg 1) base) 0 0 (sg 1) 32
    ∧ (at_ 0 0 (sg 1) base).plain 0 0 (sg 1)
    ∧ CounterHere (at_ 0 0 (sg 1) base) 0 0 (sg 1) cnt
    ∧ QuietCounter (at_ 0 0 (sg 1) base) cnt
    ∧ ((at_ 0 0 (sg 1) base).thread (thrKey 0 0)).pend = []
    ∧ dOpc (sg 1) = 1 :=
  ⟨issues_of (by decide +kernel), plainW_of (by decide +kernel), counter_of (by decide +kernel), quiet_of (by decide +kernel), by decide +kernel⟩

theorem test_SignalAndArriveComplete_3 :
    Issues (at_ 0 0 (sg 2) base) 0 0 (sg 2) 32
    ∧ (at_ 0 0 (sg 2) base).plain 0 0 (sg 2)
    ∧ CounterHere (at_ 0 0 (sg 2) base) 0 0 (sg 2) cnt
    ∧ QuietCounter (at_ 0 0 (sg 2) base) cnt
    ∧ ((at_ 0 0 (sg 2) base).thread (thrKey 0 0)).pend = []
    ∧ dOpc (sg 2) = 2 :=
  ⟨issues_of (by decide +kernel), plainW_of (by decide +kernel), counter_of (by decide +kernel), quiet_of (by decide +kernel), by decide +kernel⟩

theorem test_SignalAndArriveComplete_4 :
    Issues (at_ 0 0 (sg 3) base) 0 0 (sg 3) 32
    ∧ (at_ 0 0 (sg 3) base).plain 0 0 (sg 3)
    ∧ CounterHere (at_ 0 0 (sg 3) base) 0 0 (sg 3) cnt
    ∧ QuietCounter (at_ 0 0 (sg 3) base) cnt
    ∧ ((at_ 0 0 (sg 3) base).thread (thrKey 0 0)).pend = []
    ∧ dOpc (sg 3) = 3 :=
  ⟨issues_of (by decide +kernel), plainW_of (by decide +kernel), counter_of (by decide +kernel), quiet_of (by decide +kernel), by decide +kernel⟩

theorem test_SignalAndArriveComplete_5 :
    Issues (at_ 0 0 (sg 4) base) 0 0 (sg 4) 32
    ∧ (at_ 0 0 (sg 4) base).plain 0 0 (sg 4)
    ∧ CounterHere (at_ 0 0 (sg 4) base) 0 0 (sg 4) cnt
    ∧ QuietCounter (at_ 0 0 (sg 4) base) cnt
    ∧ ((at_ 0 0 (sg 4) base).thread (thrKey 0 0)).pend = []
    ∧ dOpc (sg 4) = 4 :=
  ⟨issues_of (by decide +kernel), plainW_of (by decide +kernel), counter_of (by decide +kernel), quiet_of (by decide +kernel), by decide +kernel⟩

theorem test_SignalAndArriveComplete_6 :
    Issues (at_ 0 0 (sg 5) base) 0 0 (sg 5) 32
    ∧ (at_ 0 0 (sg 5) base).plain 0 0 (sg 5)
    ∧ CounterHere (at_ 0 0 (sg 5) base) 0 0 (sg 5) cnt
    ∧ QuietCounter (at_ 0 0 (sg 5) base) cnt
    ∧ ((at_ 0 0 (sg 5) base).thread (thrKey 0 0)).pend = []
    ∧ dOpc (sg 5) = 5 :=
  ⟨issues_of (by decide +kernel), plainW_of (by decide +kernel), counter_of (by decide +kernel), quiet_of (by decide +kernel), by decide +kernel⟩

theorem test_SignalAndArriveComplete_7 :
    Issues (at_ 0 0 (sg 6) base) 0 0 (sg 6) 32
    ∧ (at_ 0 0 (sg 6) base).plain 0 0 (sg 6)
    ∧ CounterHere (at_ 0 0 (sg 6) base) 0 0 (sg 6) cnt
    ∧ QuietCounter (at_ 0 0 (sg 6) base) cnt
    ∧ ((at_ 0 0 (sg 6) base).thread (thrKey 0 0)).pend = []
    ∧ dOpc (sg 6) = 6
    ∧ BitVec.toNat ((at_ 0 0 (sg 6) base).syncValue 0 0 (sg 6)) % 16 < 10
    ∧ BitVec.toNat ((at_ 0 0 (sg 6) base).syncValue 0 0 (sg 6)) % 16 ≠ 0 :=
  ⟨issues_of (by decide +kernel), plainW_of (by decide +kernel), counter_of (by decide +kernel), quiet_of (by decide +kernel), by decide +kernel⟩

theorem test_SignalAndArriveComplete_8 :
    Issues (at_ 0 0 (ar 1) base) 0 0 (ar 1) 34
    ∧ (at_ 0 0 (ar 1) base).plain 0 0 (ar 1)
    ∧ CounterHere (at_ 0 0 (ar 1) base) 0 0 (ar 1) cnt
    ∧ QuietCounter (at_ 0 0 (ar 1) base) cnt
    ∧ (at_ 0 0 (ar 1) base).ctxRead ((at_ 0 0 (ar 1) base).ctxOf 0 0) ((at_ 0 0 (ar 1) base).aop 0 0 (ar 1) 24) (8 * dWords (ar 1)) =
      Except.ok (leBytes 8 11259375 ++ leBytes 8 5)
    ∧ ((at_ 0 0 (ar 1) base).thread (thrKey 0 0)).pend = []
    ∧ dOpc (ar 1) < 10
    ∧ dOpc (ar 1) ≠ 0
    ∧ 0 < dWords (ar 1)
    ∧ dWords (ar 1) ≤ 32 :=
  ⟨issues_of (by decide +kernel), plainW_of (by decide +kernel), counter_of (by decide +kernel), quiet_of (by decide +kernel), of_okIs (by decide +kernel), by decide +kernel⟩

/-! Witnesses of `Obligations.WaitsComplete`, by clause. -/

theorem test_WaitsComplete_1 :
    Issues (at_ 0 0 (wt 0 77) base) 0 0 (wt 0 77) 33
    ∧ (at_ 0 0 (wt 0 77) base).straight 0 0
    ∧ CounterHere (at_ 0 0 (wt 0 77) base) 0 0 (wt 0 77) cnt
    ∧ (at_ 0 0 (wt 0 77) base).doneQuiet 0 (wt 0 77)
    ∧ objTile cnt = 0
    ∧ dOpc (wt 0 77) < 6
    ∧ dTmo (wt 0 77) ≤ 40
    ∧ waitHolds (dOpc (wt 0 77)) ((at_ 0 0 (wt 0 77) base).reg cnt) ((at_ 0 0 (wt 0 77) base).syncValue 0 0 (wt 0 77)) = true :=
  ⟨issues_of (by decide +kernel), straight_of (by decide +kernel), counter_of (by decide +kernel), doneQuiet_of (by decide +kernel), by decide +kernel⟩

theorem test_WaitsComplete_2 :
    Issues (at_ 0 0 (wt 0 78) base) 0 0 (wt 0 78) 33
    ∧ (at_ 0 0 (wt 0 78) base).straight 0 0
    ∧ CounterHere (at_ 0 0 (wt 0 78) base) 0 0 (wt 0 78) cnt
    ∧ objTile cnt = 0
    ∧ dOpc (wt 0 78) < 6
    ∧ dTmo (wt 0 78) ≤ 40
    ∧ waitHolds (dOpc (wt 0 78)) ((at_ 0 0 (wt 0 78) base).reg cnt) ((at_ 0 0 (wt 0 78) base).syncValue 0 0 (wt 0 78)) = false :=
  ⟨issues_of (by decide +kernel), straight_of (by decide +kernel), counter_of (by decide +kernel), by decide +kernel⟩

theorem test_WaitsComplete_3 :
    (w1.watch = Watch.none ∨ w1.watch = Watch.retry)
    ∧ (withW w1 base).doneQuiet 0 w1.word
    ∧ ((withW w1 base).thread (thrKey 0 0)).wait = some w1
    ∧ w1.tmo ≠ 0 :=
  ⟨.inl (by decide +kernel), doneQuiet_of (by decide +kernel), by decide +kernel⟩

theorem test_WaitsComplete_4 :
    (w3.hit = true ∨ waitHolds w3.cond ((withW w3 base).reg w3.obj) w3.comparand = true)
    ∧ (withW w3 base).doneQuiet 0 w3.word
    ∧ ((withW w3 base).thread (thrKey 0 0)).wait = some w3
    ∧ w3.watch = Watch.retry
    ∧ (withW w3 base).formOf w3.obj = AddrForm.here cnt1
    ∧ (withW w3 base).tileReady (objTile w3.obj) = true :=
  ⟨.inl (by decide +kernel), doneQuiet_of (by decide +kernel), by decide +kernel⟩

theorem test_WaitsComplete_5 :
    ((withW w2 base).thread (thrKey 0 0)).wait = some w2
    ∧ w2.watch = Watch.retry
    ∧ (withW w2 base).formOf w2.obj = AddrForm.here cnt1
    ∧ w2.hit = false
    ∧ waitHolds w2.cond ((withW w2 base).reg w2.obj) w2.comparand = false
    ∧ objTile w2.obj ≠ 0
    ∧ (withW w2 base).tileReady (objTile w2.obj) = true
    ∧ ((withW w2 base).tile (objTile w2.obj)).watches.length < 32 :=
  by decide +kernel

end W20

namespace W30

/-- An operand or a state of the witnesses below. -/
def cnt : Nat := R.syncCount 0 3
/-- An operand or a state of the witnesses below. -/
def data : List Byte := (upto 6).map fun i => BitVec.ofNat 8 (3*i+1)
/-- An operand or a state of the witnesses below. -/
def base : State := regsTo [(R.ix 0 0 1, 0xA1B2C3D4), (R.ix 0 0 2, 64),(R.ix 0 0 3, 128), (R.ix 0 0 4, 0x6000)] ((live.setBytes 0x2000 data).setBytes 0x6000 (leBytes 4 3 ++ leBytes 4 1 ++ leBytes 4 7 ++ leBytes 4 3))
/-- An operand or a state of the witnesses below. -/
def ld := word [(1,122),(0x2000,80),(0x4000,48),(12,24)]
/-- An operand or a state of the witnesses below. -/
def st := word [(4,122),(0x2010,80),(0x2000,48),(16,24)]   -- overlapping
/-- An operand or a state of the witnesses below. -/
def fl := word [(6,122),(0x4000,48),(10,24),(1,9)]
/-- An operand or a state of the witnesses below. -/
def l2 := word [(2,122),(0x2000,80),(0x4000,48),(16,24),(3,12),(2,9),(3,6)]
/-- An operand or a state of the witnesses below. -/
def s2 := word [(5,122),(0x2000,80),(0x4000,48),(16,24),(3,12),(2,9),(3,6)]
/-- An operand or a state of the witnesses below. -/
def l2x := word [(2,122),(0x2000,80),(0x4000,48),(16,24),(8,12),(2,9),(3,6),(1,0)]
/-- An operand or a state of the witnesses below. -/
def s2x := word [(5,122),(0x2000,80),(0x4000,48),(16,24),(8,12),(2,9),(3,6),(1,0)]
/-- An operand or a state of the witnesses below. -/
def lx := word [(1,122),(0x2000,80),(0x4000,48),(16,24),(2,9),(3,6),(1,0)]
/-- An operand or a state of the witnesses below. -/
def sx := word [(4,122),(0x2000,80),(0x4000,48),(16,24),(2,9),(3,6),(1,0)]
/-- An operand or a state of the witnesses below. -/
def lp := word [(3,122),(0x2000,80),(0x4000,48),(2,24),(0,12),(3,9),(5,0)]
/-- An operand or a state of the witnesses below. -/
def ga := word [(7,122),(0x2000,80),(0x4000,48),(4,45),(4,24),(16,8)]
/-- An operand or a state of the witnesses below. -/
def sc := word [(8,122),(0x4000,80),(0x2000,48),(4,45),(4,24),(16,8)]
/-- An operand or a state of the witnesses below. -/
def sa := word [(9,122),(0x4000,80),(0x2000,48),(4,45),(4,24),(4,8)]
/-- An operand or a state of the witnesses below. -/
def ex (x : Except Why α) (d : α) : α := match x with | .ok a => a | _ => d
/-- An operand or a state of the witnesses below. -/
def cRows (t : Fin 256) (n : Fin 16) (w : Desc) (s : State) : State := ((s.afterFetch t n w).copyRows (s.nextIss t n w) (upto (dRows w))).1
/-- An operand or a state of the witnesses below. -/
def cTurn (t : Fin 256) (n : Fin 16) (w : Desc) (s : State) : State :=
  ((s.afterFetch t n w).landRows w (ex (s.dstPlan (s.nextIss t n w)) []) (ex (s.readRows (s.nextIss t n w)) [])).1
/-- An operand or a state of the witnesses below. -/
def cG (t : Fin 256) (n : Fin 16) (w : Desc) (s : State) : State :=
  let i := s.nextIss t n w
  let l := ex (s.indexList i) []
  if dOp w = 7 then ((s.afterFetch t n w).copyElems i (l.zipIdx.map fun e => (i.tableElem e.1, i.localElem e.2))).1
  else if dOp w = 8 then ((s.afterFetch t n w).copyElems i (l.zipIdx.map fun e => (i.localElem e.2, i.tableElem e.1))).1
  else ((s.afterFetch t n w).addElems i (l.zipIdx.map fun e => (i.localElem e.2, i.tableElem e.1))).1

/-! Witnesses of `Obligations.DmaRowsComplete`, by clause. -/

theorem test_DmaRowsComplete_1 :
    LocalDma (at_ 0 0 ld base) 0 0 ld
    ∧ (PlainRange (at_ 0 0 ld base) (if dOp ld = 4 then 8192 else 16384) (dLen ld))
    ∧ Issues (at_ 0 0 ld base) 0 0 ld 1
    ∧ (dXform ld = 0 ∧
      (at_ 0 0 ld base).localPhys ((at_ 0 0 ld base).nextIss 0 0 ld).c (((at_ 0 0 ld base).nextIss 0 0 ld).srcRow 0) (dLen ld)
            rightR =
          Except.ok (if dOp ld = 4 then 8208 else 8192) ∧
        (at_ 0 0 ld base).readData (if dOp ld = 4 then 8208 else 8192) (dLen ld) =
            some (((at_ 0 0 ld base).readData (if dOp ld = 4 then 8208 else 8192) (dLen ld)).getD []) ∧
          (at_ 0 0 ld base).localPhys ((at_ 0 0 ld base).nextIss 0 0 ld).c (((at_ 0 0 ld base).nextIss 0 0 ld).dstRow 0) (dLen ld)
              rightW =
            Except.ok (if dOp ld = 4 then 8192 else 16384))
    ∧ moveFieldFault ld = none :=
  ⟨localDma_of (by decide +kernel), plain_of (by decide +kernel), issues_of (by decide +kernel), ⟨by decide +kernel, ⟨of_okIs (by decide +kernel), ⟨by decide +kernel, of_okIs (by decide +kernel)⟩⟩⟩, by decide +kernel⟩

theorem test_DmaRowsComplete_2 :
    LocalDma (at_ 0 0 st base) 0 0 st
    ∧ (PlainRange (at_ 0 0 st base) (if dOp st = 4 then 8192 else 16384) (dLen st))
    ∧ Issues (at_ 0 0 st base) 0 0 st 4
    ∧ (dXform st = 0 ∧
      (at_ 0 0 st base).localPhys ((at_ 0 0 st base).nextIss 0 0 st).c (((at_ 0 0 st base).nextIss 0 0 st).srcRow 0) (dLen st)
            rightR =
          Except.ok (if dOp st = 4 then 8208 else 8192) ∧
        (at_ 0 0 st base).readData (if dOp st = 4 then 8208 else 8192) (dLen st) =
            some (((at_ 0 0 st base).readData (if dOp st = 4 then 8208 else 8192) (dLen st)).getD []) ∧
          (at_ 0 0 st base).localPhys ((at_ 0 0 st base).nextIss 0 0 st).c (((at_ 0 0 st base).nextIss 0 0 st).dstRow 0) (dLen st)
              rightW =
            Except.ok (if dOp st = 4 then 8192 else 16384))
    ∧ moveFieldFault st = none :=
  ⟨localDma_of (by decide +kernel), plain_of (by decide +kernel), issues_of (by decide +kernel), ⟨by decide +kernel, ⟨of_okIs (by decide +kernel), ⟨by decide +kernel, of_okIs (by decide +kernel)⟩⟩⟩, by decide +kernel⟩

theorem test_DmaRowsComplete_3 :
    LocalDma (at_ 0 0 fl base) 0 0 fl
    ∧ (PlainRange (at_ 0 0 fl base) (if dOp fl = 4 then 8192 else 16384) (dLen fl))
    ∧ Issues (at_ 0 0 fl base) 0 0 fl 6
    ∧ ((at_ 0 0 fl base).localPhys ((at_ 0 0 fl base).nextIss 0 0 fl).c ((at_ 0 0 fl base).nextIss 0 0 fl).moveDst (dLen fl) rightW =
      Except.ok (if dOp fl = 4 then 8192 else 16384))
    ∧ moveFieldFault fl = none :=
  ⟨localDma_of (by decide +kernel), plain_of (by decide +kernel), issues_of (by decide +kernel), of_okIs (by decide +kernel), by decide +kernel⟩

theorem test_DmaRowsComplete_4 :
    LocalDma (at_ 0 0 l2 base) 0 0 l2
    ∧ Issues (at_ 0 0 l2 base) 0 0 l2 2
    ∧ (moveFieldFault l2 = none ∧
        dXform l2 = 0 ∧
          ((at_ 0 0 l2 base).afterFetch 0 0 l2).copyRows ((at_ 0 0 l2 base).nextIss 0 0 l2) (upto (dRows l2)) =
            (cRows 0 0 l2 (at_ 0 0 l2 base), none) ∨
      moveFieldFault l2 = none ∧
        dXform l2 ≠ 0 ∧
          ∃ rows dst,
            (at_ 0 0 l2 base).readRows ((at_ 0 0 l2 base).nextIss 0 0 l2) = Except.ok rows ∧
              (at_ 0 0 l2 base).dstPlan ((at_ 0 0 l2 base).nextIss 0 0 l2) = Except.ok dst ∧
                ((at_ 0 0 l2 base).afterFetch 0 0 l2).landRows l2 dst rows = (cRows 0 0 l2 (at_ 0 0 l2 base), none)) :=
  ⟨localDma_of (by decide +kernel), issues_of (by decide +kernel), .inl (⟨by decide +kernel, ⟨by decide +kernel, by decide +kernel⟩⟩)⟩

theorem test_DmaRowsComplete_4b :
    LocalDma (at_ 0 0 l2x base) 0 0 l2x
    ∧ Issues (at_ 0 0 l2x base) 0 0 l2x 2
    ∧ (moveFieldFault l2x = none ∧
        dXform l2x = 0 ∧
          ((at_ 0 0 l2x base).afterFetch 0 0 l2x).copyRows ((at_ 0 0 l2x base).nextIss 0 0 l2x) (upto (dRows l2x)) =
            (cTurn 0 0 l2x (at_ 0 0 l2x base), none) ∨
      moveFieldFault l2x = none ∧
        dXform l2x ≠ 0 ∧
          ∃ rows dst,
            (at_ 0 0 l2x base).readRows ((at_ 0 0 l2x base).nextIss 0 0 l2x) = Except.ok rows ∧
              (at_ 0 0 l2x base).dstPlan ((at_ 0 0 l2x base).nextIss 0 0 l2x) = Except.ok dst ∧
                ((at_ 0 0 l2x base).afterFetch 0 0 l2x).landRows l2x dst rows = (cTurn 0 0 l2x (at_ 0 0 l2x base), none)) :=
  ⟨localDma_of (by decide +kernel), issues_of (by decide +kernel), .inr (⟨by decide +kernel, ⟨by decide +kernel, ⟨ex ((at_ 0 0 l2x base).readRows ((at_ 0 0 l2x base).nextIss 0 0 l2x)) [], ⟨ex ((at_ 0 0 l2x base).dstPlan ((at_ 0 0 l2x base).nextIss 0 0 l2x)) [], ⟨of_okIs (by decide +kernel), ⟨of_okIs (by decide +kernel), by decide +kernel⟩⟩⟩⟩⟩⟩)⟩

theorem test_DmaRowsComplete_5 :
    LocalDma (at_ 0 0 s2 base) 0 0 s2
    ∧ Issues (at_ 0 0 s2 base) 0 0 s2 5
    ∧ (moveFieldFault s2 = none ∧
        dXform s2 = 0 ∧
          ((at_ 0 0 s2 base).afterFetch 0 0 s2).copyRows ((at_ 0 0 s2 base).nextIss 0 0 s2) (upto (dRows s2)) =
            (cRows 0 0 s2 (at_ 0 0 s2 base), none) ∨
      moveFieldFault s2 = none ∧
        dXform s2 ≠ 0 ∧
          ∃ rows dst,
            (at_ 0 0 s2 base).readRows ((at_ 0 0 s2 base).nextIss 0 0 s2) = Except.ok rows ∧
              (at_ 0 0 s2 base).dstPlan ((at_ 0 0 s2 base).nextIss 0 0 s2) = Except.ok dst ∧
                ((at_ 0 0 s2 base).afterFetch 0 0 s2).landRows s2 dst rows = (cRows 0 0 s2 (at_ 0 0 s2 base), none)) :=
  ⟨localDma_of (by decide +kernel), issues_of (by decide +kernel), .inl (⟨by decide +kernel, ⟨by decide +kernel, by decide +kernel⟩⟩)⟩

theorem test_DmaRowsComplete_5b :
    LocalDma (at_ 0 0 s2x base) 0 0 s2x
    ∧ Issues (at_ 0 0 s2x base) 0 0 s2x 5
    ∧ (moveFieldFault s2x = none ∧
        dXform s2x = 0 ∧
          ((at_ 0 0 s2x base).afterFetch 0 0 s2x).copyRows ((at_ 0 0 s2x base).nextIss 0 0 s2x) (upto (dRows s2x)) =
            (cTurn 0 0 s2x (at_ 0 0 s2x base), none) ∨
      moveFieldFault s2x = none ∧
        dXform s2x ≠ 0 ∧
          ∃ rows dst,
            (at_ 0 0 s2x base).readRows ((at_ 0 0 s2x base).nextIss 0 0 s2x) = Except.ok rows ∧
              (at_ 0 0 s2x base).dstPlan ((at_ 0 0 s2x base).nextIss 0 0 s2x) = Except.ok dst ∧
                ((at_ 0 0 s2x base).afterFetch 0 0 s2x).landRows s2x dst rows = (cTurn 0 0 s2x (at_ 0 0 s2x base), none)) :=
  ⟨localDma_of (by decide +kernel), issues_of (by decide +kernel), .inr (⟨by decide +kernel, ⟨by decide +kernel, ⟨ex ((at_ 0 0 s2x base).readRows ((at_ 0 0 s2x base).nextIss 0 0 s2x)) [], ⟨ex ((at_ 0 0 s2x base).dstPlan ((at_ 0 0 s2x base).nextIss 0 0 s2x)) [], ⟨of_okIs (by decide +kernel), ⟨of_okIs (by decide +kernel), by decide +kernel⟩⟩⟩⟩⟩⟩)⟩

theorem test_DmaRowsComplete_6 :
    LocalDma (at_ 0 0 lx base) 0 0 lx
    ∧ Issues (at_ 0 0 lx base) 0 0 lx 1
    ∧ (moveFieldFault lx = none ∧
      dXform lx ≠ 0 ∧
        ∃ rows dst,
          (at_ 0 0 lx base).readRows ((at_ 0 0 lx base).nextIss 0 0 lx) = Except.ok rows ∧
            (at_ 0 0 lx base).dstPlan ((at_ 0 0 lx base).nextIss 0 0 lx) = Except.ok dst ∧
              ((at_ 0 0 lx base).afterFetch 0 0 lx).landRows lx dst rows = (cTurn 0 0 lx (at_ 0 0 lx base), none)) :=
  ⟨localDma_of (by decide +kernel), issues_of (by decide +kernel), ⟨by decide +kernel, ⟨by decide +kernel, ⟨ex ((at_ 0 0 lx base).readRows ((at_ 0 0 lx base).nextIss 0 0 lx)) [], ⟨ex ((at_ 0 0 lx base).dstPlan ((at_ 0 0 lx base).nextIss 0 0 lx)) [], ⟨of_okIs (by decide +kernel), ⟨of_okIs (by decide +kernel), by decide +kernel⟩⟩⟩⟩⟩⟩⟩

theorem test_DmaRowsComplete_7 :
    LocalDma (at_ 0 0 sx base) 0 0 sx
    ∧ Issues (at_ 0 0 sx base) 0 0 sx 4
    ∧ (moveFieldFault sx = none ∧
      dXform sx ≠ 0 ∧
        ∃ rows dst,
          (at_ 0 0 sx base).readRows ((at_ 0 0 sx base).nextIss 0 0 sx) = Except.ok rows ∧
            (at_ 0 0 sx base).dstPlan ((at_ 0 0 sx base).nextIss 0 0 sx) = Except.ok dst ∧
              ((at_ 0 0 sx base).afterFetch 0 0 sx).landRows sx dst rows = (cTurn 0 0 sx (at_ 0 0 sx base), none)) :=
  ⟨localDma_of (by decide +kernel), issues_of (by decide +kernel), ⟨by decide +kernel, ⟨by decide +kernel, ⟨ex ((at_ 0 0 sx base).readRows ((at_ 0 0 sx base).nextIss 0 0 sx)) [], ⟨ex ((at_ 0 0 sx base).dstPlan ((at_ 0 0 sx base).nextIss 0 0 sx)) [], ⟨of_okIs (by decide +kernel), ⟨of_okIs (by decide +kernel), by decide +kernel⟩⟩⟩⟩⟩⟩⟩

theorem test_DmaRowsComplete_8 :
    LocalDma (at_ 0 0 lp base) 0 0 lp
    ∧ Issues (at_ 0 0 lp base) 0 0 lp 3
    ∧ (moveFieldFault lp = none ∧
      dXform lp ≠ 0 ∧
        ∃ rows dst,
          (at_ 0 0 lp base).readRows ((at_ 0 0 lp base).nextIss 0 0 lp) = Except.ok rows ∧
            (at_ 0 0 lp base).dstPlan ((at_ 0 0 lp base).nextIss 0 0 lp) = Except.ok dst ∧
              ((at_ 0 0 lp base).afterFetch 0 0 lp).landRows lp dst rows = (cTurn 0 0 lp (at_ 0 0 lp base), none))
    ∧ ((at_ 0 0 lp base).nextIss 0 0 lp).moveDst % 256 = 0 :=
  ⟨localDma_of (by decide +kernel), issues_of (by decide +kernel), ⟨by decide +kernel, ⟨by decide +kernel, ⟨ex ((at_ 0 0 lp base).readRows ((at_ 0 0 lp base).nextIss 0 0 lp)) [], ⟨ex ((at_ 0 0 lp base).dstPlan ((at_ 0 0 lp base).nextIss 0 0 lp)) [], ⟨of_okIs (by decide +kernel), ⟨of_okIs (by decide +kernel), by decide +kernel⟩⟩⟩⟩⟩⟩, by decide +kernel⟩

theorem test_DmaRowsComplete_9 :
    LocalDma (at_ 0 0 ga base) 0 0 ga
    ∧ Issues (at_ 0 0 ga base) 0 0 ga 7
    ∧ (at_ 0 0 ga base).indexList ((at_ 0 0 ga base).nextIss 0 0 ga) =
      Except.ok (ex ((at_ 0 0 ga base).indexList ((at_ 0 0 ga base).nextIss 0 0 ga)) [])
    ∧ listFieldFault ga = none
    ∧ ((at_ 0 0 ga base).afterFetch 0 0 ga).copyElems ((at_ 0 0 ga base).nextIss 0 0 ga)
        (List.map
          (fun e => (((at_ 0 0 ga base).nextIss 0 0 ga).tableElem e.fst, ((at_ 0 0 ga base).nextIss 0 0 ga).localElem e.snd))
          (ex ((at_ 0 0 ga base).indexList ((at_ 0 0 ga base).nextIss 0 0 ga)) []).zipIdx) =
      (cG 0 0 ga (at_ 0 0 ga base), none) :=
  ⟨localDma_of (by decide +kernel), issues_of (by decide +kernel), of_okIs (by decide +kernel), by decide +kernel⟩

theorem test_DmaRowsComplete_10 :
    LocalDma (at_ 0 0 sc base) 0 0 sc
    ∧ Issues (at_ 0 0 sc base) 0 0 sc 8
    ∧ (at_ 0 0 sc base).indexList ((at_ 0 0 sc base).nextIss 0 0 sc) =
      Except.ok (ex ((at_ 0 0 sc base).indexList ((at_ 0 0 sc base).nextIss 0 0 sc)) [])
    ∧ listFieldFault sc = none
    ∧ ((at_ 0 0 sc base).afterFetch 0 0 sc).copyElems ((at_ 0 0 sc base).nextIss 0 0 sc)
        (List.map
          (fun e => (((at_ 0 0 sc base).nextIss 0 0 sc).localElem e.snd, ((at_ 0 0 sc base).nextIss 0 0 sc).tableElem e.fst))
          (ex ((at_ 0 0 sc base).indexList ((at_ 0 0 sc base).nextIss 0 0 sc)) []).zipIdx) =
      (cG 0 0 sc (at_ 0 0 sc base), none) :=
  ⟨localDma_of (by decide +kernel), issues_of (by decide +kernel), of_okIs (by decide +kernel), by decide +kernel⟩

theorem test_DmaRowsComplete_11 :
    LocalDma (at_ 0 0 sa base) 0 0 sa
    ∧ Issues (at_ 0 0 sa base) 0 0 sa 9
    ∧ (at_ 0 0 sa base).indexList ((at_ 0 0 sa base).nextIss 0 0 sa) =
      Except.ok (ex ((at_ 0 0 sa base).indexList ((at_ 0 0 sa base).nextIss 0 0 sa)) [])
    ∧ listFieldFault sa = none
    ∧ ((at_ 0 0 sa base).afterFetch 0 0 sa).addElems ((at_ 0 0 sa base).nextIss 0 0 sa)
        (List.map
          (fun e => (((at_ 0 0 sa base).nextIss 0 0 sa).localElem e.snd, ((at_ 0 0 sa base).nextIss 0 0 sa).tableElem e.fst))
          (ex ((at_ 0 0 sa base).indexList ((at_ 0 0 sa base).nextIss 0 0 sa)) []).zipIdx) =
      (cG 0 0 sa (at_ 0 0 sa base), none) :=
  ⟨localDma_of (by decide +kernel), issues_of (by decide +kernel), of_okIs (by decide +kernel), by decide +kernel⟩

end W30

namespace W31

/-- An operand or a state of the witnesses below. -/
def f32s : List Byte := leBytes 4 0x3FC00000 ++ leBytes 4 0xC0200000
/-- An operand or a state of the witnesses below. -/
def g32s : List Byte := leBytes 4 0x40400000 ++ leBytes 4 0x3F000000
/-- An operand or a state of the witnesses below. -/
def base : State := regsTo [(R.ix 0 0 1, 0x4000), (R.ix 0 0 2, 0x2000), (R.ix 0 0 3, 0x2100), (R.ix 0 0 4, 0x2200)]
  (((live.setBytes 0x2000 f32s).setBytes 0x2100 g32s).setBytes 0x2200 f32s)
/-- An operand or a state of the witnesses below. -/
def hbase : State := { (base.setFld (F.hamperCfg.sliceGranules 0) 2) with
  hamper := [(0, { piles := [(0, [{ len := 64, fmt := 1, seq := 4, grans := [.slice 1] }])], nextSeq := 5 })] }
/-- An operand or a state of the witnesses below. -/
def ph := word [(0x38,122),(0x2000,80),(64,56),(1,52)]
/-- An operand or a state of the witnesses below. -/
def po := word [(0x39,122),(0x4000,80),(64,56),(1,52)]
/-- An operand or a state of the witnesses below. -/
def vw (k : Nat) := word [(0x18,122),(k,104),(1,101),(2,98),(3,95),(4,92),(2,72),(0,68),(1,64),(0x3F000000,32),(0x40000000,0)]
/-- An operand or a state of the witnesses below. -/
def dv (fn : Nat) := word [(0x18,122),(0x19,104),(1,101),(2,98),(3,95),(4,92),(2,72),(0,68),(1,64),(0x3F000000,32),(fn,0)]
/-- An operand or a state of the witnesses below. -/
def rw_ (k : Nat) := word [(0x18,122),(k,104),(1,101),(2,98),(3,95),(2,72),(0,68),(1,64),(2,0)]
/-- An operand or a state of the witnesses below. -/
def sr := word [(0x18,122),(0x1A,104),(1,101),(2,98),(3,95),(2,72),(0,68),(1,64)]
/-- An operand or a state of the witnesses below. -/
def qu := word [(0x18,122),(0x1B,104),(1,101),(2,98),(3,95),(2,72),(0,68),(4,64),(1,2),(2,12)]
/-- An operand or a state of the witnesses below. -/
def dq := word [(0x18,122),(0x1C,104),(1,101),(2,98),(3,95),(2,72),(4,68),(1,64),(2,12)]
/-- An operand or a state of the witnesses below. -/
def ck := word [(0x18,122),(0x1E,104),(2,98),(2,72),(0,68),(0,64),(2,0)]
/-- An operand or a state of the witnesses below. -/
def qGs (w : Desc) (codes : List Nat) : List GroupOut := (rowsOf (qGroupLen w) (qGroupList w).length (codes.map (decodeElem (dFmtIn w)))).map (calGroup (dFmtOut w) (qZpe w))
/-- An operand or a state of the witnesses below. -/
def qM (w : Desc) (s : State) : State := let codes := okD (s.vecCodes (s.nextIss 0 0 w) (dS0 w) (dFmtIn w) (dVecLen w)) []
  okD ((s.afterFetch 0 0 w).vecWrite 0x4000 (dFmtOut w) ((qGs w codes).map (·.codes)).flatten) {}
/-- An operand or a state of the witnesses below. -/
def qV (w : Desc) (s : State) : State := let codes := okD (s.vecCodes (s.nextIss 0 0 w) (dS0 w) (dFmtIn w) (dVecLen w)) []
  okD ((qM w s).writeEntries 0x2100 w (dFmtOut w) ((qGroupList w).zip ((qGs w codes).map fun g => g.scale.word (dFmtOut w)))) {}

/-! Witnesses of `Obligations.HamperRowsComplete`, by clause. -/

theorem test_HamperRowsComplete_1 :
    (at_ 0 0 ph hbase).straight 0 0
    ∧ (at_ 0 0 ph hbase).roomFor 0 0 ph Engine.dma
    ∧ Issues (at_ 0 0 ph hbase) 0 0 ph 56
    ∧ (at_ 0 0 ph hbase).hamperAop ((at_ 0 0 ph hbase).nextIss 0 0 ph) rightR = Except.ok 8192
    ∧ firstOpen ((at_ 0 0 ph hbase).thread (thrKey 0 0)).pend = none
    ∧ dHFmt ph ≤ 9
    ∧ (at_ 0 0 ph hbase).readData 8192 (dHLen ph) = some (((at_ 0 0 ph hbase).readData 8192 (dHLen ph)).getD [])
    ∧ (((at_ 0 0 ph hbase).slice 0 ((at_ 0 0 ph hbase).ctxOf 0 0)).stack 0).length < 64
    ∧ granulesFor (dHLen ph) ≤ ((at_ 0 0 ph hbase).freeGranules 0 ((at_ 0 0 ph hbase).ctxOf 0 0)).length :=
  ⟨straight_of (by decide +kernel), room_of (by decide +kernel), issues_of (by decide +kernel), of_okIs (by decide +kernel), by decide +kernel⟩

theorem test_HamperRowsComplete_2 :
    (at_ 0 0 po hbase).straight 0 0
    ∧ (at_ 0 0 po hbase).roomFor 0 0 po Engine.dma
    ∧ Issues (at_ 0 0 po hbase) 0 0 po 57
    ∧ (at_ 0 0 po hbase).hamperAop ((at_ 0 0 po hbase).nextIss 0 0 po) rightW = Except.ok 16384
    ∧ PlainRange (at_ 0 0 po hbase) 16384 (dHLen po)
    ∧ firstOpen ((at_ 0 0 po hbase).thread (thrKey 0 0)).pend = none
    ∧ dHFmt po ≤ 9
    ∧ ((at_ 0 0 po hbase).slice 0 ((at_ 0 0 po hbase).ctxOf 0 0)).stack 0 =
      [{ len := 64, fmt := 1, seq := 4, grans := [HPlace.slice 1] : HEntry }]
    ∧ { len := 64, fmt := 1, seq := 4, grans := [HPlace.slice 1] : HEntry }.len = dHLen po
    ∧ { len := 64, fmt := 1, seq := 4, grans := [HPlace.slice 1] : HEntry }.fmt = dHFmt po
    ∧ { len := 64, fmt := 1, seq := 4, grans := [HPlace.slice 1] : HEntry }.slots = []
    ∧ List.map
        (fun g =>
          (at_ 0 0 po hbase).granuleBytesOf 0 ((at_ 0 0 po hbase).ctxOf 0 0)
            { len := 64, fmt := 1, seq := 4, grans := [HPlace.slice 1] : HEntry } g.snd g.fst)
        { len := 64, fmt := 1, seq := 4, grans := [HPlace.slice 1] : HEntry }.grans.zipIdx =
      List.map some [List.replicate 64 0]
    ∧ [List.replicate 64 0].flatten.length = dHLen po
    ∧ (at_ 0 0 po hbase).waitingPushes 0 ((at_ 0 0 po hbase).ctxOf 0 0) = [] :=
  ⟨straight_of (by decide +kernel), room_of (by decide +kernel), issues_of (by decide +kernel), of_okIs (by decide +kernel), plain_of (by decide +kernel), by decide +kernel⟩

/-! Witnesses of `Obligations.VecElementRowsComplete`, by clause. -/

theorem test_VecElementRowsComplete_24 :
    VecReady (at_ 0 0 (dv 1) base) 0 0 (dv 1) 25 [dD (dv 1), dS0 (dv 1), dS1 (dv 1)]
    ∧ (at_ 0 0 (dv 1) base).vecSources ((at_ 0 0 (dv 1) base).nextIss 0 0 (dv 1)) [dS0 (dv 1), dS1 (dv 1)] =
      Except.ok (okD ((at_ 0 0 (dv 1) base).vecSources ((at_ 0 0 (dv 1) base).nextIss 0 0 (dv 1)) [dS0 (dv 1), dS1 (dv 1)]) [])
    ∧ (at_ 0 0 (dv 1) base).vecPhys ((at_ 0 0 (dv 1) base).nextIss 0 0 (dv 1)) (dD (dv 1))
        (elemBytes (dFmtOut (dv 1)) (dVecLen (dv 1))) rightW =
      Except.ok 16384
    ∧ PlainRange (at_ 0 0 (dv 1) base) 16384 (elemBytes (dFmtOut (dv 1)) (dVecLen (dv 1)))
    ∧ derivListed 1 = true
    ∧ BitVec.toNat (dImm2 (dv 1)) % 256 = 1 :=
  ⟨vecReady_of (by decide +kernel), of_okIs (by decide +kernel), of_okIs (by decide +kernel), plain_of (by decide +kernel), by decide +kernel⟩

/-! Witnesses of `Obligations.VecReductionAndFormatRowsComplete`, by clause. -/

theorem test_VecReductionAndFormatRowsComplete_4 :
    VecReady (at_ 0 0 sr base) 0 0 sr 26 [dD sr, dS0 sr, dS1 sr]
    ∧ (at_ 0 0 sr base).vecCodes ((at_ 0 0 sr base).nextIss 0 0 sr) (dS0 sr) (dFmtIn sr) (dVecLen sr) =
      Except.ok (okD ((at_ 0 0 sr base).vecCodes ((at_ 0 0 sr base).nextIss 0 0 sr) (dS0 sr) (dFmtIn sr) (dVecLen sr)) [])
    ∧ (at_ 0 0 sr base).vecBytes ((at_ 0 0 sr base).nextIss 0 0 sr) (dS1 sr) 32 =
      Except.ok (okD ((at_ 0 0 sr base).vecBytes ((at_ 0 0 sr base).nextIss 0 0 sr) (dS1 sr) 32) [])
    ∧ (at_ 0 0 sr base).vecPhys ((at_ 0 0 sr base).nextIss 0 0 sr) (dD sr) (elemBytes 1 (dVecLen sr)) rightW = Except.ok 16384
    ∧ PlainRange (at_ 0 0 sr base) 16384 (elemBytes 1 (dVecLen sr))
    ∧ dFmtOut sr = 1
    ∧ (okD ((at_ 0 0 sr base).vecCodes ((at_ 0 0 sr base).nextIss 0 0 sr) (dS0 sr) (dFmtIn sr) (dVecLen sr)) []).length = dVecLen sr :=
  ⟨vecReady_of (by decide +kernel), of_okIs (by decide +kernel), of_okIs (by decide +kernel), of_okIs (by decide +kernel), plain_of (by decide +kernel), by decide +kernel⟩

theorem test_VecReductionAndFormatRowsComplete_6 :
    VecReady (at_ 0 0 dq base) 0 0 dq 28 [dD dq, dS0 dq, dS1 dq]
    ∧ (at_ 0 0 dq base).vecCodes ((at_ 0 0 dq base).nextIss 0 0 dq) (dS0 dq) (dFmtIn dq) (dVecLen dq) =
      Except.ok (okD ((at_ 0 0 dq base).vecCodes ((at_ 0 0 dq base).nextIss 0 0 dq) (dS0 dq) (dFmtIn dq) (dVecLen dq)) [])
    ∧ (at_ 0 0 dq base).vecBytes ((at_ 0 0 dq base).nextIss 0 0 dq) (dS1 dq) (qBlockBytes dq (dFmtIn dq)) =
      Except.ok (okD ((at_ 0 0 dq base).vecBytes ((at_ 0 0 dq base).nextIss 0 0 dq) (dS1 dq) (qBlockBytes dq (dFmtIn dq))) [])
    ∧ (at_ 0 0 dq base).vecPhys ((at_ 0 0 dq base).nextIss 0 0 dq) (dD dq) (elemBytes (dFmtOut dq) (dVecLen dq)) rightW =
      Except.ok 16384
    ∧ PlainRange (at_ 0 0 dq base) 16384 (elemBytes (dFmtOut dq) (dVecLen dq))
    ∧ qBad dq (dFmtIn dq) = false
    ∧ dFmtOut dq ≤ 1
    ∧ (List.map
            (fun e =>
              List.map
                (dequantElem (dFmtIn dq)
                  (scaleOf (dFmtIn dq)
                    (natAt
                      (okD ((at_ 0 0 dq base).vecBytes ((at_ 0 0 dq base).nextIss 0 0 dq) (dS1 dq) (qBlockBytes dq (dFmtIn dq))) [])
                      (qEntryOff dq (dFmtIn dq) e.fst.fst e.fst.snd) (qEntrySize (dFmtIn dq)))))
                e.snd)
            ((qGroupList dq).zip
              (rowsOf (qGroupLen dq) (qGroupList dq).length
                (okD ((at_ 0 0 dq base).vecCodes ((at_ 0 0 dq base).nextIss 0 0 dq) (dS0 dq) (dFmtIn dq) (dVecLen dq))
                  [])))).flatten.length =
      dVecLen dq :=
  ⟨vecReady_of (by decide +kernel), of_okIs (by decide +kernel), of_okIs (by decide +kernel), of_okIs (by decide +kernel), plain_of (by decide +kernel), by decide +kernel⟩

theorem test_VecReductionAndFormatRowsComplete_7 :
    VecReady (at_ 0 0 ck base) 0 0 ck 30 [dS0 ck]
    ∧ (at_ 0 0 ck base).vecSources ((at_ 0 0 ck base).nextIss 0 0 ck) [dS0 ck] =
      Except.ok [(okD ((at_ 0 0 ck base).vecSources ((at_ 0 0 ck base).nextIss 0 0 ck) [dS0 ck]) []).headD []] :=
  ⟨vecReady_of (by decide +kernel), of_okIs (by decide +kernel)⟩

theorem test_VecReductionAndFormatRowsComplete_5 :
    VecReady (at_ 0 0 qu base) 0 0 qu 27 [dD qu, dS0 qu, dS1 qu]
    ∧ (qZpe qu = true → isFloatCode (dFmtOut qu) = false)
    ∧ (at_ 0 0 qu base).vecCodes ((at_ 0 0 qu base).nextIss 0 0 qu) (dS0 qu) (dFmtIn qu) (dVecLen qu) =
      Except.ok (okD ((at_ 0 0 qu base).vecCodes ((at_ 0 0 qu base).nextIss 0 0 qu) (dS0 qu) (dFmtIn qu) (dVecLen qu)) [])
    ∧ (at_ 0 0 qu base).vecPhys ((at_ 0 0 qu base).nextIss 0 0 qu) (dS1 qu) (qBlockBytes qu (dFmtOut qu)) rightW = Except.ok 8448
    ∧ (at_ 0 0 qu base).vecPhys ((at_ 0 0 qu base).nextIss 0 0 qu) (dD qu) (elemBytes (dFmtOut qu) (dVecLen qu)) rightW =
      Except.ok 16384
    ∧ ((at_ 0 0 qu base).afterFetch 0 0 qu).vecWrite 16384 (dFmtOut qu)
        (List.map (fun x => x.codes)
            (List.map (calGroup (dFmtOut qu) (qZpe qu))
              (rowsOf (qGroupLen qu) (qGroupList qu).length
                (List.map (decodeElem (dFmtIn qu))
                  (okD ((at_ 0 0 qu base).vecCodes ((at_ 0 0 qu base).nextIss 0 0 qu) (dS0 qu) (dFmtIn qu) (dVecLen qu))
                    []))))).flatten =
      Except.ok (qM qu (at_ 0 0 qu base))
    ∧ (qM qu (at_ 0 0 qu base)).writeEntries 8448 qu (dFmtOut qu)
        ((qGroupList qu).zip
          (List.map (fun g => g.scale.word (dFmtOut qu))
            (List.map (calGroup (dFmtOut qu) (qZpe qu))
              (rowsOf (qGroupLen qu) (qGroupList qu).length
                (List.map (decodeElem (dFmtIn qu))
                  (okD ((at_ 0 0 qu base).vecCodes ((at_ 0 0 qu base).nextIss 0 0 qu) (dS0 qu) (dFmtIn qu) (dVecLen qu)) [])))))) =
      Except.ok (qV qu (at_ 0 0 qu base))
    ∧ qCal qu = true
    ∧ qOvb qu = false
    ∧ qBad qu (dFmtOut qu) = false
    ∧ dFmtIn qu ≤ 1
    ∧ (∀ (g : GroupOut),
      g ∈
          List.map (calGroup (dFmtOut qu) (qZpe qu))
            (rowsOf (qGroupLen qu) (qGroupList qu).length
              (List.map (decodeElem (dFmtIn qu))
                (okD ((at_ 0 0 qu base).vecCodes ((at_ 0 0 qu base).nextIss 0 0 qu) (dS0 qu) (dFmtIn qu) (dVecLen qu)) []))) →
        g.const = false) :=
  ⟨vecReady_of (by decide +kernel), fun h => absurd h (by decide +kernel), of_okIs (by decide +kernel), of_okIs (by decide +kernel), of_okIs (by decide +kernel), of_okIs (by decide +kernel), of_okIs (by decide +kernel), by decide +kernel⟩

end W31

namespace W32

/-- An operand or a state of the witnesses below. -/
def data : List Byte := (upto 16).map fun i => BitVec.ofNat 8 (16*i+63)
/-- An operand or a state of the witnesses below. -/
def base : State := regsTo [(R.arraySaveBase 0 0, 0x100080)] ((live.setBytes 0x2000 data).setBytes 0x100080 data)
/-- An operand or a state of the witnesses below. -/
def cl7 : Claim := { thread := 0, ctx := 0, fmt := 7, rows := 2, cols := 2 }
/-- An operand or a state of the witnesses below. -/
def cl8 : Claim := { thread := 0, ctx := 0, fmt := 8, rows := 2, cols := 2 }
/-- An operand or a state of the witnesses below. -/
def withTile (tl : Tile) (s : State) : State := s.modTile 0 fun x => { tl with cache := x.cache }
/-- An operand or a state of the witnesses below. -/
def ms (mode fmt : Nat) := word [(0x10,122),(0x2000,80),(mode,76),(fmt,72)]
/-- An operand or a state of the witnesses below. -/
def st (fa k : Nat) := word [(0x11,122),(0x2000,80),(0x2100,48),(k,32),(fa,28),(fa,24),(1,16),(2,10)]
/-- An operand or a state of the witnesses below. -/
def un (o : Nat) := word [(0x12,122),(0x4000,80),(o,76)]
/-- An operand or a state of the witnesses below. -/
def accs : Tab (BitVec 128) := [(0, 0x3F80000000000000), (1, 5), (64, 0x40)]
/-- An operand or a state of the witnesses below. -/
def pss (w : Desc) (s : State) : List Nat := okD ((upto 2).mapM fun r => s.ownPhys (s.nextIss 0 0 w) (addrPlus (s.aop 0 0 w 80) (r * (8 * fmtBits (dArrayOut w)) : Nat)) (2 * fmtBits (dArrayOut w) / 8) rightW 0x05) []
/-- An operand or a state of the witnesses below. -/
def unM (w : Desc) (s : State) : State := ((s.afterFetch 0 0 w).writeRows (pss w s) ((upto 2).map fun r => unloadRow (s.tile 0) ((s.tile 0).claim.getD cl7) (dArrayOut w) r)).1
/-- An operand or a state of the witnesses below. -/
def s5 : State := (withTile { claim := some cl7, acc := accs, preempting := some 3 } base).setFld (F.threadCtl.prio 0 3) 3
/-- An operand or a state of the witnesses below. -/
def s5b : State := (withTile { claim := some cl8, acc := accs, preempting := some 3 } base).setFld (F.threadCtl.prio 0 3) 3
/-- An operand or a state of the witnesses below. -/
def s5c : State := withTile { claim := some cl8, acc := accs, preempting := some 3 } base
/-- An operand or a state of the witnesses below. -/
def pd : Pend := { eng := .array, word := st 1 2, pc := 0x1000, phase := .done, signal := false }
/-- An operand or a state of the witnesses below. -/
def pq : Pend := { eng := .array, word := st 1 2, pc := 0x1010, phase := .queued, signal := false }
/-- An operand or a state of the witnesses below. -/
def s8 (w : Desc) : State := at_ 0 0 w ((withTile { claim := some cl7, acc := accs } base).setThread 0 { pend := [pd] })
/-- An operand or a state of the witnesses below. -/
def s9 : State := ((withTile { claim := some cl7, acc := accs } base).setThread 0 { pend := [pd, pq] })
/-- An operand or a state of the witnesses below. -/
def m9 : State := (((s9.asyncComplete 0 0 0)).arrayReach ((s9.asyncComplete 0 0 0).issOf 0 pq)).1
/-- An operand or a state of the witnesses below. -/
def s6 : State := withTile { preempted := [cl8] } base
/-- An operand or a state of the witnesses below. -/
def s6b : State := withTile { preempted := [cl7] } base
/-- An operand or a state of the witnesses below. -/
def s7 : State := (withTile { claim := some cl7, acc := accs } base).setFld (F.threadStatus.state 0 0) 6

/-! Witnesses of `Obligations.ArrayRowsComplete`, by clause. -/

theorem test_ArrayRowsComplete_1 :
    ArrayReady (at_ 0 0 (ms 0 7) base) 0 0 (ms 0 7) 16
    ∧ (dAccFmt (ms 0 7) = 7 ∨ dAccFmt (ms 0 7) = 8)
    ∧ (at_ 0 0 (ms 0 7) base).arrayFree 0 0 = true
    ∧ dMode (ms 0 7) = 0 :=
  ⟨arrayReady_of (by decide +kernel), .inl (by decide +kernel), by decide +kernel⟩

theorem test_ArrayRowsComplete_2 :
    ArrayReady (at_ 0 0 (ms 2 7) base) 0 0 (ms 2 7) 16
    ∧ (dAccFmt (ms 2 7) = 7 ∨ dAccFmt (ms 2 7) = 8)
    ∧ (at_ 0 0 (ms 2 7) base).ownRead ((at_ 0 0 (ms 2 7) base).nextIss 0 0 (ms 2 7)) ((at_ 0 0 (ms 2 7) base).aop 0 0 (ms 2 7) 80)
        (rawBytes (dAccFmt (ms 2 7))) 5 =
      Except.ok 8192
    ∧ (at_ 0 0 (ms 2 7) base).arrayFree 0 0 = true
    ∧ dMode (ms 2 7) = 2 :=
  ⟨arrayReady_of (by decide +kernel), .inl (by decide +kernel), of_okIs (by decide +kernel), by decide +kernel⟩

theorem test_ArrayRowsComplete_3 :
    ArrayReady (at_ 0 0 (ms 1 7) base) 0 0 (ms 1 7) 16
    ∧ (dAccFmt (ms 1 7) = 7 ∨ dAccFmt (ms 1 7) = 8)
    ∧ (at_ 0 0 (ms 1 7) base).ownRead ((at_ 0 0 (ms 1 7) base).nextIss 0 0 (ms 1 7)) ((at_ 0 0 (ms 1 7) base).aop 0 0 (ms 1 7) 80)
        16384 5 =
      Except.ok 8192
    ∧ (at_ 0 0 (ms 1 7) base).arrayFree 0 0 = true
    ∧ dMode (ms 1 7) = 1 :=
  ⟨arrayReady_of (by decide +kernel), .inl (by decide +kernel), of_okIs (by decide +kernel), by decide +kernel⟩

theorem test_ArrayRowsComplete_4 :
    (ArrayReady (at_ 0 0 (st 1 2) (withTile { claim := some (if dFmtA (st 1 2) = 1 then cl7 else cl8), acc := accs : Tile } base)) 0
      0 (st 1 2) 17)
    ∧ (dFmtA (st 1 2) = 1 ∨
      dGroup (st 1 2) = 0 ∨
        (at_ 0 0 (st 1 2) (withTile { claim := some (if dFmtA (st 1 2) = 1 then cl7 else cl8), acc := accs : Tile } base)).safeMode
            (0 / 64) =
          false)
    ∧ ((at_ 0 0 (st 1 2) (withTile { claim := some (if dFmtA (st 1 2) = 1 then cl7 else cl8), acc := accs : Tile } base)).stepPanels
        ((at_ 0 0 (st 1 2) (withTile { claim := some (if dFmtA (st 1 2) = 1 then cl7 else cl8), acc := accs : Tile } base)).nextIss
          0 0 (st 1 2)) =
      Except.ok
        (okD
          ((at_ 0 0 (st 1 2)
                (withTile { claim := some (if dFmtA (st 1 2) = 1 then cl7 else cl8), acc := accs : Tile } base)).stepPanels
            ((at_ 0 0 (st 1 2)
                  (withTile { claim := some (if dFmtA (st 1 2) = 1 then cl7 else cl8), acc := accs : Tile } base)).nextIss
              0 0 (st 1 2)))
          { a := 0, b := 0, sa := 0, sb := 0, fa := 0, fb := 0, k := 0, group := 0 : Panels }))
    ∧ (((at_ 0 0 (st 1 2) (withTile { claim := some (if dFmtA (st 1 2) = 1 then cl7 else cl8), acc := accs : Tile } base)).tile
          0).claim =
      some (if dFmtA (st 1 2) = 1 then cl7 else cl8))
    ∧ ((if dFmtA (st 1 2) = 1 then cl7 else cl8).thread = 0)
    ∧ dK (st 1 2) ≠ 0
    ∧ classAllowed (dFmtA (st 1 2)) (dFmtB (st 1 2)) = true
    ∧ ((if dFmtA (st 1 2) = 1 then cl7 else cl8).fmt = if dFmtA (st 1 2) = 1 then 7 else 8) :=
  ⟨arrayReady_of (by decide +kernel), .inl (by decide +kernel), of_okIs (by decide +kernel), by decide +kernel⟩

theorem test_ArrayRowsComplete_5 :
    ArrayReady (at_ 0 0 (un 0) (withTile { claim := some cl7, acc := accs : Tile } base)) 0 0 (un 0) 18
    ∧ List.mapM
        (fun r =>
          (at_ 0 0 (un 0) (withTile { claim := some cl7, acc := accs : Tile } base)).ownPhys
            ((at_ 0 0 (un 0) (withTile { claim := some cl7, acc := accs : Tile } base)).nextIss 0 0 (un 0))
            (addrPlus ((at_ 0 0 (un 0) (withTile { claim := some cl7, acc := accs : Tile } base)).aop 0 0 (un 0) 80)
              (↑(r * (8 * fmtBits (dArrayOut (un 0)))) : Int))
            (cl7.cols * fmtBits (dArrayOut (un 0)) / 8) rightW 5)
        (upto cl7.rows) =
      Except.ok (pss (un 0) (at_ 0 0 (un 0) (withTile { claim := some cl7, acc := accs : Tile } base)))
    ∧ ((at_ 0 0 (un 0) (withTile { claim := some cl7, acc := accs : Tile } base)).tile 0).claim = some cl7
    ∧ cl7.thread = 0
    ∧ unloadAllowed cl7.fmt (dArrayOut (un 0)) = true
    ∧ ((at_ 0 0 (un 0) (withTile { claim := some cl7, acc := accs : Tile } base)).afterFetch 0 0 (un 0)).writeRows
        (pss (un 0) (at_ 0 0 (un 0) (withTile { claim := some cl7, acc := accs : Tile } base)))
        (List.map
          (fun r =>
            unloadRow ((at_ 0 0 (un 0) (withTile { claim := some cl7, acc := accs : Tile } base)).tile 0) cl7 (dArrayOut (un 0)) r)
          (upto cl7.rows)) =
      (unM (un 0) (at_ 0 0 (un 0) (withTile { claim := some cl7, acc := accs : Tile } base)), none) :=
  ⟨arrayReady_of (by decide +kernel), of_okIs (by decide +kernel), by decide +kernel⟩

theorem test_ArrayRowsComplete_8 :
    PlainRange s5 (s5.saveBase 0 cl7.ctx) (rawBytes cl7.fmt)
    ∧ (cl7.fmt = 7 ∨ cl7.fmt = 8)
    ∧ (s5.tile 0).preempting = some 3
    ∧ (s5.tile 0).claim = some cl7
    ∧ s5.arrayBusy 0 cl7.thread = false
    ∧ s5.prio 0 3 = 3
    ∧ s5.prio 0 cl7.thread ≠ 3
    ∧ inMeadow 0 (s5.saveBase 0 cl7.ctx) (rawBytes cl7.fmt) = true :=
  ⟨plain_of (by decide +kernel), .inl (by decide +kernel), by decide +kernel⟩

theorem test_ArrayRowsComplete_9 :
    (s5c.arrayBusy 0 cl8.thread = true ∨ s5c.prio 0 3 ≠ 3 ∨ s5c.prio 0 cl8.thread = 3)
    ∧ (s5c.tile 0).preempting = some 3
    ∧ (s5c.tile 0).claim = some cl8 :=
  ⟨.inr (.inl (by decide +kernel)), by decide +kernel⟩

theorem test_ArrayRowsComplete_10 :
    s6.noneArrayQueued 0
    ∧ (s6.tile 0).claim = none
    ∧ (s6.tile 0).preempted = [cl8]
    ∧ cl8.lost = false
    ∧ s6.keptFor 0 cl8.thread = false
    ∧ (s6.readData (s6.saveBase 0 cl8.ctx) (rawBytes cl8.fmt)).isSome = true :=
  ⟨noneArrayQueued_of (by decide +kernel), by decide +kernel⟩

theorem test_ArrayRowsComplete_11 :
    s7.noneArrayQueued 0
    ∧ (s7.tile 0).claim = some cl7
    ∧ (s7.tile 0).preempted = []
    ∧ cl7.thread = 0
    ∧ s7.fld (F.threadStatus.state 0 0) = 6
    ∧ (∀ (x : Pend), x ∈ (s7.thread (thrKey 0 0)).pend → x.eng ≠ Engine.array) :=
  ⟨noneArrayQueued_of (by decide +kernel), by decide +kernel⟩

theorem test_ArrayRowsComplete_6 :
    Issues (s8 (st 1 2)) 0 0 (st 1 2) (Instr.mmaStep, 17).snd
    ∧ (s8 (st 1 2)).straight 0 0
    ∧ (s8 (st 1 2)).roomFor 0 0 (st 1 2) Engine.array
    ∧ (s8 (st 1 2)).arrayPends 0 0 = true
    ∧ ((s8 (st 1 2)).tile 0).preemptedOf 0 = none
    ∧ Option.any (fun c => c.thread == 0) ((s8 (st 1 2)).tile 0).claim = true :=
  ⟨issues_of (by decide +kernel), straight_of (by decide +kernel), room_of (by decide +kernel), by decide +kernel⟩

theorem test_ArrayRowsComplete_7 :
    (dOp pd.word = 16 ∨ dOp pd.word = 17)
    ∧ s9.dmaStill 0 0
    ∧ (s9.thread (thrKey 0 0)).pend[0]? = some pd
    ∧ pd.eng = Engine.array
    ∧ pd.phase = PendPhase.done
    ∧ oldestOfEngine (s9.thread (thrKey 0 0)).pend 0 = true
    ∧ ((s9.asyncComplete 0 0 0).thread (thrKey 0 0)).pend[0]? = some pq
    ∧ ((List.take 0 ((s9.asyncComplete 0 0 0).thread (thrKey 0 0)).pend).all fun x => x.eng != Engine.array) = true
    ∧ pq.eng = Engine.array
    ∧ pq.phase = PendPhase.queued
    ∧ (s9.asyncComplete 0 0 0).arrayBusy 0 0 = false
    ∧ (s9.asyncComplete 0 0 0).arrayTurn 0 0 (dOp pq.word) = true
    ∧ (s9.asyncComplete 0 0 0).arrayReach ((s9.asyncComplete 0 0 0).issOf (thrKey 0 0) pq) = (m9, none) :=
  ⟨.inr (by decide +kernel), dmaStill_of (by decide +kernel), by decide +kernel⟩

end W32

namespace W40

/-- An operand or a state of the witnesses below. -/
def base : State := live
/-- An operand or a state of the witnesses below. -/
def evw := word [(0x3C,122),(0x4321,48),(0x123456,0)]
/-- An operand or a state of the witnesses below. -/
def pe (op : Nat) (done : Nat) : Pend := { eng := if op = 0x12 then .array else .dma, word := word [(op,122),(5,116),(done,115)], pc := 0x1000, phase := .done, signal := true }
/-- An operand or a state of the witnesses below. -/
def cl7 : Claim := { thread := 0, ctx := 0, fmt := 7, rows := 2, cols := 2 }
/-- An operand or a state of the witnesses below. -/
def run1 (th : Thread) (st : Nat) : State := ((live.setThread 0 th).setFld (F.threadStatus.state 0 0) st).setReg (R.threadPc 0 0) 0x1000
/-- An operand or a state of the witnesses below. -/
def e1 : State := run1 { pend := [pe 1 1] } 1
/-- An operand or a state of the witnesses below. -/
def e2 : State := run1 { pend := [pe 1 0, pe 2 1] } 7
/-- An operand or a state of the witnesses below. -/
def e3 : State := run1 { pend := [pe 1 0], ending := .stop } 7
/-- An operand or a state of the witnesses below. -/
def e4 : State := (run1 { pend := [pe 0x12 1, pe 1 1] } 3).modTile 0 fun x => { x with claim := some cl7 }
/-- An operand or a state of the witnesses below. -/
def haltw : Desc := word [(0x2D,122),(1,115),(9,116)]
/-- An operand or a state of the witnesses below. -/
def e5 : State := (run1 { pend := [pe 0x12 1, pe 1 1] } 3).modTile 0 fun x => { x with preempted := [cl7] }
/-- An operand or a state of the witnesses below. -/
def pq : Pend := { pe 0x12 1 with phase := .queued }
/-- An operand or a state of the witnesses below. -/
def e7 : State := (run1 { pend := [pe 0x12 1, pq] } 3).modTile 0 fun x => { x with claim := some cl7 }
/-- An operand or a state of the witnesses below. -/
def e6 : State := run1 { pend := [pe 1 1], ending := .halt, held := some haltw } 7
/-- An operand or a state of the witnesses below. -/
def i0 : State := (live.setThread 0 { pend := [pe 1 1], calls := [5] }).setReg (R.threadStatus 0 0) 0x1E006
/-- An operand or a state of the witnesses below. -/
def i1 : State := run1 {} 1
/-- An operand or a state of the witnesses below. -/
def i2 : State := run1 { pend := [pe 1 1] } 3
/-- An operand or a state of the witnesses below. -/
def i3 : State := run1 { wait := some { obj := 5, cond := 0, comparand := 0, tmo := 0, watch := .none, since := 0, pc := 0x2000 } } 2
/-- An operand or a state of the witnesses below. -/
def i4 : State := run1 { pend := [pe 1 1] } 7

/-! Witnesses of `Obligations.EventAndCompletionComplete`, by clause. -/

theorem test_EventAndCompletionComplete_1 :
    (at_ 0 0 evw base).plain 0 0 evw
    ∧ Issues (at_ 0 0 evw base) 0 0 evw 60
    ∧ LogRoom (at_ 0 0 evw base) (bitsAt evw 48 16) 0 12 (threadUnit 0 0 ((at_ 0 0 evw base).ctxOf 0 0))
      (((at_ 0 0 evw base).freeSlot 0).getD 0) :=
  ⟨plainW_of (by decide +kernel), issues_of (by decide +kernel), logRoom_of (by decide +kernel)⟩

theorem test_EventAndCompletionComplete_2 :
    e7.dmaStill 0 0
    ∧ (e7.arrayBusy 0 0 = true ∨
      e7.arrayTurn 0 0 (dOp pq.word) = false ∧ ∀ (q : Pend), q ∈ List.take 1 (e7.thread (thrKey 0 0)).pend → q.eng ≠ Engine.array)
    ∧ (e7.thread (thrKey 0 0)).pend[1]? = some pq
    ∧ pq.phase = PendPhase.queued
    ∧ pq.eng = Engine.array :=
  ⟨dmaStill_of (by decide +kernel), .inl (by decide +kernel), by decide +kernel⟩

theorem test_EventAndCompletionComplete_3 :
    e1.noneArrayQueued 0
    ∧ e1.dmaStill 0 0
    ∧ e1.pendQuiet 0 (pe 1 1)
    ∧ (e1.thread (thrKey 0 0)).pend[0]? = some (pe 1 1)
    ∧ (pe 1 1).phase = PendPhase.done
    ∧ oldestOfEngine (e1.thread (thrKey 0 0)).pend 0 = true
    ∧ ¬((e1.thread (thrKey 0 0)).ending = Ending.halt ∧
        (e1.thread (thrKey 0 0)).pend.length = 1 ∧ e1.fld (F.threadStatus.state 0 0) = 7) :=
  ⟨noneArrayQueued_of (by decide +kernel), dmaStill_of (by decide +kernel), pendQuiet_of (by decide +kernel), by decide +kernel⟩

theorem test_EventAndCompletionComplete_4 :
    e6.noneArrayQueued 0
    ∧ e6.dmaStill 0 0
    ∧ e6.pendQuiet 0 (pe 1 1)
    ∧ e6.doneQuiet 0 haltw
    ∧ (e6.bit (F.threadCtl.exitEn 0 0) = true → QuietCounter e6 (R.syncCount 0 (e6.fld (F.threadCtl.exitObj 0 0))))
    ∧ (e6.thread (thrKey 0 0)).pend[0]? = some (pe 1 1)
    ∧ (pe 1 1).phase = PendPhase.done
    ∧ oldestOfEngine (e6.thread (thrKey 0 0)).pend 0 = true
    ∧ (e6.thread (thrKey 0 0)).ending = Ending.halt
    ∧ (e6.thread (thrKey 0 0)).held = some haltw
    ∧ (e6.thread (thrKey 0 0)).pend.length = 1
    ∧ e6.fld (F.threadStatus.state 0 0) = 7 :=
  ⟨noneArrayQueued_of (by decide +kernel), dmaStill_of (by decide +kernel), pendQuiet_of (by decide +kernel), doneQuiet_of (by decide +kernel), fun h => absurd h (by decide +kernel), by decide +kernel⟩

/-! Witnesses of `Obligations.ThreadControlCompletes`, by clause. -/

theorem test_ThreadControlCompletes_1 :
    live.tileReady 0 = true
    ∧ live.threadRuns 0 0 = false
    ∧ (8#64).getLsbD 1 = false :=
  by decide +kernel

theorem test_ThreadControlCompletes_2 :
    i1.tileReady 0 = true
    ∧ i1.threadRuns 0 0 = true
    ∧ (8#64).getLsbD 1 = false :=
  by decide +kernel

theorem test_ThreadControlCompletes_3 :
    live.tileReady 0 = true
    ∧ (3#64).getLsbD 1 = true :=
  by decide +kernel

theorem test_ThreadControlCompletes_4 :
    i1.tileReady 0 = true
    ∧ i1.threadRuns 0 0 = true
    ∧ i1.fld (F.threadStatus.state 0 0) ≠ 7
    ∧ (i1.thread (thrKey 0 0)).pend = []
    ∧ (i1.thread (thrKey 0 0)).held = none :=
  by decide +kernel

theorem test_ThreadControlCompletes_5 :
    ((i2.thread (thrKey 0 0)).pend ≠ [] ∨ (i2.thread (thrKey 0 0)).held ≠ none)
    ∧ i2.tileReady 0 = true
    ∧ i2.threadRuns 0 0 = true
    ∧ i2.fld (F.threadStatus.state 0 0) ≠ 7 :=
  ⟨.inl (by decide +kernel), by decide +kernel⟩

theorem test_ThreadControlCompletes_6 :
    i4.tileReady 0 = true
    ∧ i4.fld (F.threadStatus.state 0 0) = 7 :=
  by decide +kernel

theorem test_ThreadControlCompletes_7 :
    live.tileReady 0 = true
    ∧ live.threadRuns 0 0 = false :=
  by decide +kernel

/-! Witnesses of `Obligations.SegmentWriteCompletes`, by clause. -/

theorem test_SegmentWriteCompletes_1 :
    (0#128).getLsbD 112 = false ∨ segReason (bitsAt (0#128) 16 24) (bitsAt (0#128) 40 24) (bitsAt (0#128) 80 24) = 0 :=
  .inl (by decide +kernel)

theorem test_SegmentWriteCompletes_2 :
    (BitVec.ofNat 128 (16777215 * 2 ^ 16 + 2 ^ 42 + 2 ^ 112)).getLsbD 112 = true
    ∧ segReason (bitsAt (BitVec.ofNat 128 (16777215 * 2 ^ 16 + 2 ^ 42 + 2 ^ 112)) 16 24)
        (bitsAt (BitVec.ofNat 128 (16777215 * 2 ^ 16 + 2 ^ 42 + 2 ^ 112)) 40 24)
        (bitsAt (BitVec.ofNat 128 (16777215 * 2 ^ 16 + 2 ^ 42 + 2 ^ 112)) 80 24) ≠
      0 :=
  by decide +kernel

end W40

namespace W41

/-- An operand or a state of the witnesses below. -/
def cnt : Nat := R.syncCount 0 3
/-- An operand or a state of the witnesses below. -/
def ports : State := fldsTo ((upto 8).map fun p => (F.portStatus.state p, psUp)) live
/-- An operand or a state of the witnesses below. -/
def base : State := (ports.setBytes 0x2000 ((upto 16).map fun i => BitVec.ofNat 8 (16*i+63))).setReg cnt 77
/-- An operand or a state of the witnesses below. -/
def arr (kind off len aux : Nat) (data : List Byte) : Arrived :=
  { kind := kind, len := len, offset := off, deadline := 4900000000000, ref := 3 + 2^17 * 5 + 2^21 * 7, aux := aux, data := data, src := 3, stream := 5, vc := 1, port := 2 }
/-- An operand or a state of the witnesses below. -/
def rd : Arrived := arr 1 0x2000 8 0 []
/-- An operand or a state of the witnesses below. -/
def wr : Arrived := { arr 3 0x2004 8 0 (leBytes 8 0x1122334455667788) with deadline := 6000000000000 }
/-- An operand or a state of the witnesses below. -/
def wr8 : Arrived := { wr with kind := 8 }
/-- An operand or a state of the witnesses below. -/
def ad : Arrived := arr 4 0x2000 8 0 (leBytes 4 0x40400000 ++ leBytes 4 0x3F000000)
/-- An operand or a state of the witnesses below. -/
def bad : Arrived := arr 3 0xFFFFFFFFF8 8 0 (leBytes 8 1)
/-- An operand or a state of the witnesses below. -/
def sy (aux v : Nat) : Arrived := { arr 5 cnt 8 aux (leBytes 8 v) with deadline := 6000000000000 }
/-- An operand or a state of the witnesses below. -/
def arv : Arrived := arr 5 cnt 16 (2 + 16 * 2 + 256 * 2) (leBytes 8 9 ++ leBytes 8 10)
/-- An operand or a state of the witnesses below. -/
def full : State := base.modTile 0 fun x => { x with watches := List.replicate 32 { obj := cnt + 8, cond := 0, comparand := 0, waiter := .inl 3 } }
/-- An operand or a state of the witnesses below. -/
def on (a : Arrived) (s : State) : State := { s with arrived := [{ rd with len := 99, stream := 4 }, a] }
/-- An operand or a state of the witnesses below. -/
def acc (a : Arrived) (s : State) : State := { s with accepted := [{ arrived := a, phys := 0x2000 }] }
/-- An operand or a state of the witnesses below. -/
def psn : Arrived := { wr with poison := true }
/-- An operand or a state of the witnesses below. -/
def stop_ (s : State) : State := s.modCtx 0 fun x => { x with running := false }
/-- Engine 0 copies in a factor buffer of 4 KiB at 0x2000. -/
def blk : RootBlock := { entry := { record := 0, ctx := 0, force := false, prev := 0, pend := 0, cap := 0 }, layer := 0, block := 0, n := 32, p := 2, hash := 0, step := 0, sel := 0, users := [], base := 0x2000, factor := [] }
/-- An operand or a state of the witnesses below. -/
def lock (s : State) : State := (s.modRoot 0 fun r => { r with cur := some blk }).setFld (F.rootStatus.state 0) 1
/-- The word at 0x2000 fails. -/
def failW (s : State) : State := { s with badWords := [0x2000] }
/-- An operand or a state of the witnesses below. -/
def wc : Arrived := { wr with offset := cnt }
/-- An operand or a state of the witnesses below. -/
def accC (a : Arrived) (s : State) : State := { s with accepted := [{ arrived := a, phys := cnt }] }
/-- An operand or a state of the witnesses below. -/
def down (s : State) : State := s.setFld F.unitReady.tiles 0
/-- An operand or a state of the witnesses below. -/
def xf (use : Use) (kind : Nat) : Xfer :=
  { tid := 9, kind := kind, ctx := 0, tclass := 0, dest := 3, offset := 0x2000, len := 8, aux := 0x77, data := [1,2,3], stream := 5, order := 7, issue := 4000000000000
    deadline := 4800000000000, check := 4900000000000, primary := 4700000000000, use := use }
/-- An operand or a state of the witnesses below. -/
def ans (k aux : Nat) (data : List Byte) : Arrived := { kind := k, ref := 2^17 * 5 + 2^21 * 7, aux := aux, data := data, src := 3, stream := 5, vc := 1, port := 2 }
/-- The word of a `SIGNAL` that is under way. -/
def sw : Desc := word [(0x20,122),(1,115),(9,116)]
/-- An operand or a state of the witnesses below. -/
def wp (w : Option Wait) (p : List Pend) (x : Xfer) (a : Arrived) (st : Nat) : State :=
  { (((base.setThread 0 { syncTid := some 9, held := some sw, wait := w, pend := p }).setFld (F.threadStatus.state 0 0) st).setReg (R.threadPc 0 0) 0x1000) with xfers := [{ x with tid := 4, order := 1, aux := 0 }, x], arrived := [a] }
/-- An operand or a state of the witnesses below. -/
def aw : Wait := { obj := 2^63 + 2^46 * 3 + 5, cond := 0, comparand := 7, tmo := 3, watch := .remote 9, since := 0, pc := 0x1000 }
/-- An operand or a state of the witnesses below. -/
def pp : Pend := { eng := .dma, word := word [(1,122)], pc := 0x1000, phase := .transfer [9, 10], signal := true }
/-- An operand or a state of the witnesses below. -/
def c1 := ans 0x0B 0 []
/-- An operand or a state of the witnesses below. -/
def c2 := { ans 2 0 (leBytes 8 0xAABB) with deadline := 6000000000000 }
/-- An operand or a state of the witnesses below. -/
def c3 := ans 0x0B (2^31) []
/-- An operand or a state of the witnesses below. -/
def c4 := ans 0x0C 0 []
/-- An operand or a state of the witnesses below. -/
def xs := xf (.sync 0) 5
/-- An operand or a state of the witnesses below. -/
def xr := xf (.syncRead 0 3) 5
/-- An operand or a state of the witnesses below. -/
def xw := xf (.row 0 1) 1
/-- An operand or a state of the witnesses below. -/
def xz := xf (.watch 0) 5
/-- An operand or a state of the witnesses below. -/
def none_ : Arrived := { kind := 0 }
/-- An operand or a state of the witnesses below. -/
def shd (data : List Byte) (ok poison : Bool) : Arrived := { wr with kind := 9, data := data ++ leBytes 4 (if ok then (crc32c data).toNat else 1), poison := poison, aux := 6 }
/-- An operand or a state of the witnesses below. -/
def g1 := shd [1,2,3,4] true false
/-- An operand or a state of the witnesses below. -/
def g2 := shd [1,2,3,4] false false
/-- An operand or a state of the witnesses below. -/
def g3 := shd [1,2,3,4] true true
/-- An operand or a state of the witnesses below. -/
def sfs : State := { base with shardFailed := [(3 + 2^17*5, 6), (1,1)] }
/-- An operand or a state of the witnesses below. -/
def rr (b : Nat) : Arrived := { kind := 0x0A, ref := 2^17 * 5, aux := 0x77 + b * 65536, src := 3, stream := 5, vc := 1, port := 2 }
/-- An operand or a state of the witnesses below. -/
def x9 := xf .none_ 9
/-- An operand or a state of the witnesses below. -/
def x9b := { x9 with resent := true, asked := true }
/-- An operand or a state of the witnesses below. -/
def x9c := { x9 with resent := true }

/-! Witnesses of `Obligations.RemoteRequestsComplete`, by clause. -/

theorem test_RemoteRequestsComplete_1 :
    Comes (on rd base) 1 rd
    ∧ (rd.kind = 1 ∨ rd.kind = 3 ∨ rd.kind = 4 ∨ rd.kind = 8)
    ∧ (on rd base).translate rd.ctx rd.offset (max 1 rd.len) (kindRight rd.kind) true = Sum.inr 8192 :=
  ⟨comes_of (by decide +kernel), .inl (by decide +kernel), by decide +kernel⟩

theorem test_RemoteRequestsComplete_2 :
    Comes (on bad (base.setReg (R.segHi 0 0) 0)) 1 bad
    ∧ (bad.kind = 1 ∨ bad.kind = 3 ∨ bad.kind = 4 ∨ bad.kind = 8)
    ∧ (on bad (base.setReg (R.segHi 0 0) 0)).translate bad.ctx bad.offset (max 1 bad.len) (kindRight bad.kind) true =
      Sum.inl
        (match (on bad (base.setReg (R.segHi 0 0) 0)).translate bad.ctx bad.offset (max 1 bad.len) (kindRight bad.kind) true with
        | Sum.inl f => f
        | Sum.inr val => { miss := true : SegFault }) :=
  ⟨comes_of (by decide +kernel), .inr (.inl (by decide +kernel)), by decide +kernel⟩

theorem test_RemoteRequestsComplete_3 :
    (psn.kind = 1 ∨ psn.kind = 3 ∨ psn.kind = 4 ∨ psn.kind = 8)
    ∧ (on psn base).arrived[1]? = some psn
    ∧ (on psn base).inTurn 1 psn = true
    ∧ psn.poison = true :=
  ⟨.inr (.inl (by decide +kernel)), by decide +kernel⟩

theorem test_RemoteRequestsComplete_4 :
    (wr.kind = 1 ∨ wr.kind = 3 ∨ wr.kind = 4 ∨ wr.kind = 8)
    ∧ (stop_ (on wr base)).arrived[1]? = some wr
    ∧ (stop_ (on wr base)).inTurn 1 wr = true
    ∧ wr.poison = false
    ∧ (stop_ (on wr base)).remoteAllowed wr = false :=
  ⟨.inr (.inl (by decide +kernel)), by decide +kernel⟩

theorem test_RemoteRequestsComplete_5 :
    (lock (acc wr base)).accepted[0]? = some { arrived := wr, phys := 8192 : Accepted }
    ∧ (lock (acc wr base)).serveHeld { arrived := wr, phys := 8192 : Accepted } = true :=
  by decide +kernel

theorem test_RemoteRequestsComplete_6 :
    (acc rd base).accepted[0]? = some { arrived := rd, phys := 8192 : Accepted }
    ∧ (acc rd base).serveHeld { arrived := rd, phys := 8192 : Accepted } = false
    ∧ ((List.take 0 (acc rd base).accepted).any fun y => { arrived := rd, phys := 8192 : Accepted }.arrived.sameStream y.arrived) =
      false
    ∧ { arrived := rd, phys := 8192 : Accepted }.arrived.kind = 1
    ∧ (acc rd base).readData { arrived := rd, phys := 8192 : Accepted }.phys { arrived := rd, phys := 8192 : Accepted }.arrived.len =
      some (((acc rd base).readData 8192 8).getD []) :=
  by decide +kernel

theorem test_RemoteRequestsComplete_7 :
    (failW (acc rd base)).accepted[0]? = some { arrived := rd, phys := 8192 : Accepted }
    ∧ (failW (acc rd base)).serveHeld { arrived := rd, phys := 8192 : Accepted } = false
    ∧ ((List.take 0 (failW (acc rd base)).accepted).any fun y =>
        { arrived := rd, phys := 8192 : Accepted }.arrived.sameStream y.arrived) =
      false
    ∧ { arrived := rd, phys := 8192 : Accepted }.arrived.kind = 1
    ∧ (failW (acc rd base)).readData { arrived := rd, phys := 8192 : Accepted }.phys
        { arrived := rd, phys := 8192 : Accepted }.arrived.len =
      none :=
  by decide +kernel

theorem test_RemoteRequestsComplete_8 :
    ({ arrived := wr, phys := 8192 : Accepted }.arrived.kind = 3 ∨ { arrived := wr, phys := 8192 : Accepted }.arrived.kind = 8)
    ∧ PlainRange (acc wr base) { arrived := wr, phys := 8192 : Accepted }.phys
      { arrived := wr, phys := 8192 : Accepted }.arrived.data.length
    ∧ (acc wr base).accepted[0]? = some { arrived := wr, phys := 8192 : Accepted }
    ∧ (acc wr base).serveHeld { arrived := wr, phys := 8192 : Accepted } = false
    ∧ ((List.take 0 (acc wr base).accepted).any fun y => { arrived := wr, phys := 8192 : Accepted }.arrived.sameStream y.arrived) =
      false :=
  ⟨.inl (by decide +kernel), plain_of (by decide +kernel), by decide +kernel⟩

theorem test_RemoteRequestsComplete_9 :
    QuietCounter (accC wc base) { arrived := wc, phys := cnt : Accepted }.phys
    ∧ (accC wc base).accepted[0]? = some { arrived := wc, phys := cnt : Accepted }
    ∧ (accC wc base).serveHeld { arrived := wc, phys := cnt : Accepted } = false
    ∧ ((List.take 0 (accC wc base).accepted).any fun y => { arrived := wc, phys := cnt : Accepted }.arrived.sameStream y.arrived) =
      false
    ∧ { arrived := wc, phys := cnt : Accepted }.arrived.kind = 3
    ∧ placeOf { arrived := wc, phys := cnt : Accepted }.phys = Place.control 0 4120
    ∧ isCounterOff 4120 = true
    ∧ 4120 % 8 = 0
    ∧ { arrived := wc, phys := cnt : Accepted }.arrived.data.length = 8
    ∧ (accC wc base).tileReady 0 = true :=
  ⟨quiet_of (by decide +kernel), by decide +kernel⟩

theorem test_RemoteRequestsComplete_10 :
    PlainRange (acc ad base) { arrived := ad, phys := 8192 : Accepted }.phys
      (4 * ({ arrived := ad, phys := 8192 : Accepted }.arrived.len / 4))
    ∧ (acc ad base).accepted[0]? = some { arrived := ad, phys := 8192 : Accepted }
    ∧ (acc ad base).serveHeld { arrived := ad, phys := 8192 : Accepted } = false
    ∧ ((List.take 0 (acc ad base).accepted).any fun y => { arrived := ad, phys := 8192 : Accepted }.arrived.sameStream y.arrived) =
      false
    ∧ { arrived := ad, phys := 8192 : Accepted }.arrived.kind = 4
    ∧ ((acc ad base).readData { arrived := ad, phys := 8192 : Accepted }.phys
          (4 * ({ arrived := ad, phys := 8192 : Accepted }.arrived.len / 4))).isSome =
      true :=
  ⟨plain_of (by decide +kernel), by decide +kernel⟩

theorem test_RemoteRequestsComplete_11 :
    Comes (down (on (sy 0 5) base)) 1 (sy 0 5)
    ∧ (sy 0 5).kind = 5
    ∧ (down (on (sy 0 5) base)).translateObj (sy 0 5).ctx (sy 0 5).offset true = Sum.inr cnt
    ∧ (down (on (sy 0 5) base)).tileReady (objTile cnt) = false :=
  ⟨comes_of (by decide +kernel), by decide +kernel⟩

theorem test_RemoteRequestsComplete_12 :
    Comes (on (sy 0 5) base) 1 (sy 0 5)
    ∧ QuietCounter (on (sy 0 5) base) cnt
    ∧ (sy 0 5).kind = 5
    ∧ (on (sy 0 5) base).translateObj (sy 0 5).ctx (sy 0 5).offset true = Sum.inr cnt
    ∧ (on (sy 0 5) base).tileReady (objTile cnt) = true
    ∧ (sy 0 5).aux / 16 % 16 = 0
    ∧ (sy 0 5).aux % 16 < 6 :=
  ⟨comes_of (by decide +kernel), quiet_of (by decide +kernel), by decide +kernel⟩

theorem test_RemoteRequestsComplete_13 :
    Comes (on (sy 6 2) base) 1 (sy 6 2)
    ∧ (sy 6 2).kind = 5
    ∧ (on (sy 6 2) base).translateObj (sy 6 2).ctx (sy 6 2).offset true = Sum.inr cnt
    ∧ (on (sy 6 2) base).tileReady (objTile cnt) = true
    ∧ (sy 6 2).aux / 16 % 16 = 0
    ∧ (sy 6 2).aux % 16 = 6
    ∧ (BitVec.ofNat 64 (natAt (sy 6 2).data 0 8)).toNat % 16 < 10
    ∧ (BitVec.ofNat 64 (natAt (sy 6 2).data 0 8)).toNat % 16 ≠ 0 :=
  ⟨comes_of (by decide +kernel), by decide +kernel⟩

theorem test_RemoteRequestsComplete_14 :
    Comes (on arv base) 1 arv
    ∧ QuietCounter (on arv base) cnt
    ∧ arv.kind = 5
    ∧ (on arv base).translateObj arv.ctx arv.offset true = Sum.inr cnt
    ∧ (on arv base).tileReady (objTile cnt) = true
    ∧ arv.aux / 16 % 16 = 2
    ∧ arv.aux % 16 < 10
    ∧ arv.aux % 16 ≠ 0
    ∧ arv.aux / 256 % 256 ≤ 32 :=
  ⟨comes_of (by decide +kernel), quiet_of (by decide +kernel), by decide +kernel⟩

theorem test_RemoteRequestsComplete_15 :
    Comes (on (sy 32 0) base) 1 (sy 32 0)
    ∧ QuietCounter (on (sy 32 0) base) cnt
    ∧ (sy 32 0).kind = 5
    ∧ (on (sy 32 0) base).translateObj (sy 32 0).ctx (sy 32 0).offset true = Sum.inr cnt
    ∧ (on (sy 32 0) base).tileReady (objTile cnt) = true
    ∧ (sy 32 0).aux / 16 % 16 = 2
    ∧ (sy 32 0).aux % 16 = 0
    ∧ (sy 32 0).aux / 256 % 256 ≤ 32 :=
  ⟨comes_of (by decide +kernel), quiet_of (by decide +kernel), by decide +kernel⟩

theorem test_RemoteRequestsComplete_16 :
    Comes (on (sy 16 77) base) 1 (sy 16 77)
    ∧ (waitHolds ((sy 16 77).aux % 16) ((on (sy 16 77) base).reg cnt) (BitVec.ofNat 64 (natAt (sy 16 77).data 0 8)) = true ∨
      (on (sy 16 77) base).wasHit (sy 16 77) cnt = true)
    ∧ (sy 16 77).kind = 5
    ∧ (on (sy 16 77) base).translateObj (sy 16 77).ctx (sy 16 77).offset true = Sum.inr cnt
    ∧ (on (sy 16 77) base).tileReady (objTile cnt) = true
    ∧ (sy 16 77).aux / 16 % 16 = 1
    ∧ (sy 16 77).aux % 16 < 6 :=
  ⟨comes_of (by decide +kernel), .inl (by decide +kernel), by decide +kernel⟩

theorem test_RemoteRequestsComplete_17 :
    Comes (on (sy 16 78) base) 1 (sy 16 78)
    ∧ (sy 16 78).kind = 5
    ∧ (on (sy 16 78) base).translateObj (sy 16 78).ctx (sy 16 78).offset true = Sum.inr cnt
    ∧ (on (sy 16 78) base).tileReady (objTile cnt) = true
    ∧ (sy 16 78).aux / 16 % 16 = 1
    ∧ (sy 16 78).aux % 16 < 6
    ∧ waitHolds ((sy 16 78).aux % 16) ((on (sy 16 78) base).reg cnt) (BitVec.ofNat 64 (natAt (sy 16 78).data 0 8)) = false
    ∧ (on (sy 16 78) base).wasHit (sy 16 78) cnt = false
    ∧ (((((on (sy 16 78) base).untaken 1).forgetRetried (sy 16 78) cnt).judgeArrival (sy 16 78)).tile (objTile cnt)).watches.length <
      32 :=
  ⟨comes_of (by decide +kernel), by decide +kernel⟩

theorem test_RemoteRequestsComplete_18 :
    Comes (on (sy 16 78) full) 1 (sy 16 78)
    ∧ (sy 16 78).kind = 5
    ∧ (on (sy 16 78) full).translateObj (sy 16 78).ctx (sy 16 78).offset true = Sum.inr cnt
    ∧ (on (sy 16 78) full).tileReady (objTile cnt) = true
    ∧ (sy 16 78).aux / 16 % 16 = 1
    ∧ (sy 16 78).aux % 16 < 6
    ∧ waitHolds ((sy 16 78).aux % 16) ((on (sy 16 78) full).reg cnt) (BitVec.ofNat 64 (natAt (sy 16 78).data 0 8)) = false
    ∧ (on (sy 16 78) full).wasHit (sy 16 78) cnt = false
    ∧ 32 ≤
      (((((on (sy 16 78) full).untaken 1).forgetRetried (sy 16 78) cnt).judgeArrival (sy 16 78)).tile (objTile cnt)).watches.length :=
  ⟨comes_of (by decide +kernel), by decide +kernel⟩

theorem test_RemoteRequestsComplete_19 :
    Comes (on (sy 48 0) base) 1 (sy 48 0)
    ∧ (sy 48 0).kind = 5
    ∧ (on (sy 48 0) base).translateObj (sy 48 0).ctx (sy 48 0).offset true = Sum.inr cnt
    ∧ (on (sy 48 0) base).tileReady (objTile cnt) = true
    ∧ (sy 48 0).aux / 16 % 16 = 3 :=
  ⟨comes_of (by decide +kernel), by decide +kernel⟩

/-! Witnesses of `Obligations.AnswersComplete`, by clause. -/

theorem test_AnswersComplete_1 :
    AnswersXfer (wp none [] xs c1 1) 0 c1 xs
    ∧ (c1.kind = 11 ∨ c1.kind = 2 ∧ (wp none [] xs c1 1).now ≤ c1.deadline)
    ∧ Awaiting (wp none [] xs c1 1) 0 0 sw xs
    ∧ xs.use = Use.sync (thrKey 0 0) :=
  ⟨answers_of (by decide +kernel), .inl (by decide +kernel), awaiting_of (by decide +kernel), by decide +kernel⟩

theorem test_AnswersComplete_2 :
    AnswersXfer (wp none [] xr c2 1) 0 c2 xr
    ∧ (c2.kind = 11 ∨ c2.kind = 2 ∧ (wp none [] xr c2 1).now ≤ c2.deadline)
    ∧ Awaiting (wp none [] xr c2 1) 0 0 sw xr
    ∧ 3 < 8
    ∧ xr.use = Use.syncRead (thrKey 0 0) 3 :=
  ⟨answers_of (by decide +kernel), .inr (⟨by decide +kernel, by decide +kernel⟩), awaiting_of (by decide +kernel), by decide +kernel⟩

theorem test_AnswersComplete_3 :
    AnswersXfer (wp none [pp] xw c2 1) 0 c2 xw
    ∧ (c2.kind = 11 ∨ c2.kind = 2 ∧ (wp none [pp] xw c2 1).now ≤ c2.deadline)
    ∧ xw.use = Use.row (thrKey 0 0) 1
    ∧ (wp none [pp] xw c2 1).pendOf (thrKey 0 0) xw.tid = some 0
    ∧ ((wp none [pp] xw c2 1).thread (thrKey 0 0)).pend[0]? = some pp
    ∧ pp.phase = PendPhase.transfer [9, 10]
    ∧ List.filter (fun y => y != xw.tid) [9, 10] ≠ []
    ∧ c2.data ≠ [] :=
  ⟨answers_of (by decide +kernel), .inr (⟨by decide +kernel, by decide +kernel⟩), by decide +kernel⟩

theorem test_AnswersComplete_4 :
    AnswersXfer (wp (some aw) [] xz c1 2) 0 c1 xz
    ∧ (wp (some aw) [] xz c1 2).doneQuiet 0 aw.word
    ∧ c1.kind = 11
    ∧ xz.use = Use.watch (thrKey 0 0)
    ∧ ((wp (some aw) [] xz c1 2).thread (thrKey 0 0)).wait = some aw
    ∧ aw.watch = Watch.remote xz.tid :=
  ⟨answers_of (by decide +kernel), doneQuiet_of (by decide +kernel), by decide +kernel⟩

theorem test_AnswersComplete_5 :
    AnswersXfer (wp none [] xs c4 1) 0 c4 xs
    ∧ Awaiting (wp none [] xs c4 1) 0 0 sw xs
    ∧ c4.kind = 12
    ∧ xs.kind ≠ 9
    ∧ xs.use = Use.sync (thrKey 0 0) :=
  ⟨answers_of (by decide +kernel), awaiting_of (by decide +kernel), by decide +kernel⟩

theorem test_AnswersComplete_6 :
    LogRoom (wp none [] xs none_ 1) 8196 2 4 ((wp none [] xs none_ 1).firstPort xs) (((wp none [] xs none_ 1).freeSlot 2).getD 0)
    ∧ (wp none [] xs none_ 1).findXfer xs.tid = some xs
    ∧ xs.placed = false
    ∧ xs.voided = false
    ∧ xs.kind ≠ 9
    ∧ xs.check < (wp none [] xs none_ 1).now :=
  ⟨logRoom_of (by decide +kernel), by decide +kernel⟩

theorem test_AnswersComplete_7 :
    Awaiting (wp none [] xs none_ 1) 0 0 sw xs
    ∧ (wp none [] xs none_ 1).findXfer xs.tid = some xs
    ∧ xs.placed = false
    ∧ xs.check + 1000000 * (wp none [] xs none_ 1).fld F.voidGrace.val ≤ (wp none [] xs none_ 1).now
    ∧ xs.use = Use.sync (thrKey 0 0) :=
  ⟨awaiting_of (by decide +kernel), by decide +kernel⟩

/-! Witnesses of `Obligations.ShardPacketsComplete`, by clause. -/

theorem test_ShardPacketsComplete_1 :
    (lock (on g1 base)).arrived[1]? = some g1
    ∧ g1.kind = 9
    ∧ (lock (on g1 base)).shardHeld 1 = true :=
  by decide +kernel

theorem test_ShardPacketsComplete_2 :
    PlainRange (on g1 base) 8196 (List.take (g1.data.length - 4) g1.data).length
    ∧ (on g1 base).arrived[1]? = some g1
    ∧ g1.kind = 9
    ∧ (on g1 base).shardHeld 1 = false
    ∧ (on g1 base).inTurn 1 g1 = true
    ∧ shardGood g1 = true
    ∧ (on g1 base).remoteAllowed g1 = true
    ∧ (on g1 base).translate g1.ctx g1.offset (max 1 (List.take (g1.data.length - 4) g1.data).length) rightW true = Sum.inr 8196 :=
  ⟨plain_of (by decide +kernel), by decide +kernel⟩

theorem test_ShardPacketsComplete_3 :
    ((stop_ (on g1 base)).remoteAllowed g1 = false ∨
      ∃ f,
        (stop_ (on g1 base)).translate g1.ctx g1.offset (max 1 (List.take (g1.data.length - 4) g1.data).length) rightW true =
          Sum.inl f)
    ∧ (stop_ (on g1 base)).arrived[1]? = some g1
    ∧ g1.kind = 9
    ∧ (stop_ (on g1 base)).shardHeld 1 = false
    ∧ (stop_ (on g1 base)).inTurn 1 g1 = true
    ∧ shardGood g1 = true :=
  ⟨.inl (by decide +kernel), by decide +kernel⟩

theorem test_ShardPacketsComplete_4 :
    LogRoom (on g2 base) 8193 1 4 g2.port (((on g2 base).freeSlot 1).getD 0)
    ∧ (on g2 base).arrived[1]? = some g2
    ∧ g2.kind = 9
    ∧ (on g2 base).shardHeld 1 = false
    ∧ (on g2 base).inTurn 1 g2 = true
    ∧ shardGood g2 = false :=
  ⟨logRoom_of (by decide +kernel), by decide +kernel⟩

theorem test_ShardPacketsComplete_5 :
    (wp none [] x9 (rr 0) 1).arrived[0]? = some (rr 0)
    ∧ (wp none [] x9 (rr 0) 1).inTurn 0 (rr 0) = true
    ∧ (rr 0).kind = 10
    ∧ (wp none [] x9 (rr 0) 1).findXfer x9.tid = some x9
    ∧ List.find? (fun y => y.kind == 9 && y.dest == (rr 0).src && y.stream == (rr 0).stream && y.aux % 2 ^ 16 == (rr 0).aux % 2 ^ 16)
        (wp none [] x9 (rr 0) 1).xfers =
      some x9
    ∧ x9.resent = false :=
  by decide +kernel

theorem test_ShardPacketsComplete_6 :
    (x9c.asked = false ∨ x9c.voided = true)
    ∧ (wp none [] x9c (rr 1) 1).arrived[0]? = some (rr 1)
    ∧ (wp none [] x9c (rr 1) 1).inTurn 0 (rr 1) = true
    ∧ (rr 1).kind = 10
    ∧ (wp none [] x9c (rr 1) 1).findXfer x9c.tid = some x9c
    ∧ List.find? (fun y => y.kind == 9 && y.dest == (rr 1).src && y.stream == (rr 1).stream && y.aux % 2 ^ 16 == (rr 1).aux % 2 ^ 16)
        (wp none [] x9c (rr 1) 1).xfers =
      some x9c
    ∧ x9c.resent = true :=
  ⟨.inl (by decide +kernel), by decide +kernel⟩

theorem test_ShardPacketsComplete_7 :
    LogRoom (wp none [] x9b (rr 1) 1) 8194 3 4 ((wp none [] x9b (rr 1) 1).firstPort x9b)
      (((wp none [] x9b (rr 1) 1).freeSlot 3).getD 0)
    ∧ (wp none [] x9b (rr 1) 1).arrived[0]? = some (rr 1)
    ∧ (wp none [] x9b (rr 1) 1).inTurn 0 (rr 1) = true
    ∧ (rr 1).kind = 10
    ∧ (wp none [] x9b (rr 1) 1).findXfer x9b.tid = some x9b
    ∧ List.find? (fun y => y.kind == 9 && y.dest == (rr 1).src && y.stream == (rr 1).stream && y.aux % 2 ^ 16 == (rr 1).aux % 2 ^ 16)
        (wp none [] x9b (rr 1) 1).xfers =
      some x9b
    ∧ x9b.resent = true
    ∧ x9b.asked = true
    ∧ x9b.voided = false :=
  ⟨logRoom_of (by decide +kernel), by decide +kernel⟩

theorem test_ShardPacketsComplete_8 :
    (wp none [] x9 (rr 0) 1).findXfer x9.tid = some x9
    ∧ x9.kind = 9
    ∧ x9.resent = false
    ∧ x9.primary ≤ (wp none [] x9 (rr 0) 1).now :=
  by decide +kernel

theorem test_ShardPacketsComplete_9 :
    LogRoom (wp none [] x9 (rr 0) 1) 8194 3 4 ((wp none [] x9 (rr 0) 1).firstPort x9) (((wp none [] x9 (rr 0) 1).freeSlot 3).getD 0)
    ∧ (wp none [] x9 (rr 0) 1).findXfer x9.tid = some x9
    ∧ x9.kind = 9
    ∧ x9.voided = false
    ∧ x9.deadline ≤ (wp none [] x9 (rr 0) 1).now :=
  ⟨logRoom_of (by decide +kernel), by decide +kernel⟩

end W41

namespace W42

/-- An operand or a state of the witnesses below. -/
def lv : State := live
/-- An operand or a state of the witnesses below. -/
def ringed (x : Ring) (s : State) : State := s.setRing 0 x
/-- An operand or a state of the witnesses below. -/
def r1 : Ring := { cmdTail := 5, cmdHead := 3, lastSeq := 2, cqTail := 7, cqHead := 2, eqTail := 9, eqHead := 4, eqFull := true }
/-- An operand or a state of the witnesses below. -/
def h1 : State := ringed r1 lv
/-- An operand or a state of the witnesses below. -/
def h2 : State := { (h1.setFld (F.intMod.holdoffNs 3) 100) with vecCount := [(3, 4)] }
/-- An operand or a state of the witnesses below. -/
def h3 : State := { h1 with bring := { h1.bring with step := 3 } }
/-- An operand or a state of the witnesses below. -/
def mem : State := (h1.setFld F.bar2Sel.sel 0).setBytes 0x2000 [1,2,3,4,5,6,7,8,9]
/-- An operand or a state of the witnesses below. -/
def memBad : State := { mem with badWords := [0x2000] }
/-- An operand or a state of the witnesses below. -/
def down : State := mem.setFld F.pwrStatus.state 1
/-- An operand or a state of the witnesses below. -/
def down2 : State := mem.setReg R.funcReady 0
/-- An operand or a state of the witnesses below. -/
def rd : Arrived := { kind := 6, len := 5, offset := 0x2001, deadline := 4900000000000, ref := 3 + 2^17 * 5, src := 3, stream := 5, vc := 1, port := 2 }
/-- An operand or a state of the witnesses below. -/
def wr : Arrived := { rd with kind := 7, data := [9,8,7] }
/-- An operand or a state of the witnesses below. -/
def m1 : State := { mem with arrived := [rd] }
/-- An operand or a state of the witnesses below. -/
def m2 : State := { mem with arrived := [wr] }
/-- An operand or a state of the witnesses below. -/
def m3 : State := { memBad with arrived := [rd] }
/-- An operand or a state of the witnesses below. -/
def wrB : Arrived := { wr with offset := 0x1F00000000 }
/-- An operand or a state of the witnesses below. -/
def m4 : State := { mem with arrived := [wrB] }

/-! Witnesses of `Obligations.HostRegistersComplete`, by clause. -/

theorem test_HostRegistersComplete_1 :
    h1.hostUp = true :=
  by decide +kernel

theorem test_HostRegistersComplete_5 :
    ((3#64).getLsbD 0 = false ∨ versionsMatch (bitsAt (3#64) 32 32) (h1.fld F.moduleVersions.hostIf) = true)
    ∧ h1.hostUp = true :=
  ⟨.inr (by decide +kernel), by decide +kernel⟩

theorem test_HostRegistersComplete_6 :
    h2.hostUp = true
    ∧ h2.fld (F.intMod.holdoffNs 3) ≠ 0
    ∧ Tab.get (fun x => 0) h2.vecCount 3 ≠ 0
    ∧ h2.d3hot = false :=
  by decide +kernel

theorem test_HostRegistersComplete_7 :
    h1.hostUp = true
    ∧ (∀ (c : Nat), c < 8 → (h1.ctx c).slowRead = [] ∧ (h1.ctx c).slowWrite = []) :=
  by decide +kernel

/-! Witnesses of `Obligations.HostLinkCompletes`, by clause. -/

theorem test_HostLinkCompletes_1 :
    live.bring.perst = true
    ∧ [1, 2, 4, 8, 16].contains 8 = true
    ∧ 1 ≤ 1
    ∧ 1 ≤ 7
    ∧ live.bring.step = 4 :=
  by decide +kernel

theorem test_HostLinkCompletes_2 :
    h3.bring.perst = true
    ∧ h3.bring.step ≠ 4 :=
  by decide +kernel

theorem test_HostLinkCompletes_3 :
    live.bring.perst = true
    ∧ live.bring.step = 4 :=
  by decide +kernel

/-! Witnesses of `Obligations.PhysicalAccessesComplete`, by clause. -/

theorem test_PhysicalAccessesComplete_1 :
    mem.hostUp = true :=
  by decide +kernel

theorem test_PhysicalAccessesComplete_2 :
    (mem.bar2Offset (8192#36).toNat + 4 ≤ 2147483648 ∨ 274877906944 ≤ mem.bar2Offset (8192#36).toNat)
    ∧ mem.hostUp = true
    ∧ mem.rangeReady (mem.bar2Offset (8192#36).toNat) 4 = true
    ∧ mem.badWords = [] :=
  ⟨.inl (by decide +kernel), by decide +kernel⟩

theorem test_PhysicalAccessesComplete_3 :
    down2.hostUp = false :=
  by decide +kernel

theorem test_PhysicalAccessesComplete_5 :
    PlainRange mem (mem.bar2Offset (8192#36).toNat) [1, 2, 3].length
    ∧ (mem.bar2Offset (8192#36).toNat < 2147483648 ∨ 274877906944 ≤ mem.bar2Offset (8192#36).toNat)
    ∧ mem.hostUp = true :=
  ⟨plain_of (by decide +kernel), .inl (by decide +kernel), by decide +kernel⟩

theorem test_PhysicalAccessesComplete_6 :
    mem.hostUp = true :=
  by decide +kernel

theorem test_PhysicalAccessesComplete_7 :
    m1.arrived[0]? = some rd
    ∧ m1.inTurn 0 rd = true
    ∧ rd.kind = 6 :=
  by decide +kernel

theorem test_PhysicalAccessesComplete_8 :
    m2.arrived[0]? = some wr
    ∧ m2.inTurn 0 wr = true
    ∧ wr.kind = 7 :=
  by decide +kernel

theorem test_PhysicalAccessesComplete_9 :
    PlainRange m2 wr.offset wr.data.length
    ∧ (wr.offset < 2147483648 ∨ 274877906944 ≤ wr.offset)
    ∧ m2.arrived[0]? = some wr
    ∧ m2.inTurn 0 wr = true
    ∧ wr.kind = 7 :=
  ⟨plain_of (by decide +kernel), .inl (by decide +kernel), by decide +kernel⟩

theorem test_PhysicalAccessesComplete_10 :
    targetOf 12972982336 = Target.store
    ∧ 12972982336 % 8 = 0
    ∧ (regSpecOf 12972982336).isSome = false
    ∧ mem.busReady 12972982336 = true
    ∧ mem.storeOpen 12972982336 = true :=
  by decide +kernel

theorem test_PhysicalAccessesComplete_11 :
    plainBar0 R.errSummary = true
    ∧ regSpecOf R.errSummary = some ((regSpecOf R.errSummary).getD { base := 0, dims := [], rw := 0, w1c := 0 : RegSpec })
    ∧ mem.hostUp = true :=
  by decide +kernel

theorem test_PhysicalAccessesComplete_12 :
    plainReg R.fenceStatus = true
    ∧ regSpecOf R.fenceStatus = some ((regSpecOf R.fenceStatus).getD { base := 0, dims := [], rw := 0, w1c := 0 : RegSpec })
    ∧ mem.busReady R.fenceStatus = true :=
  by decide +kernel

theorem test_PhysicalAccessesComplete_13 :
    R.threadCtl 0 0 < 2199023255552
    ∧ (regSpecOf (R.threadCtl 0 0)).isSome = true
    ∧ mem.busReady (R.threadCtl 0 0) = true :=
  by decide +kernel

end W42

namespace W42b

/-- An operand or a state of the witnesses below. -/
def entry (op : Nat) (args : List Byte) : List Byte := leBytes 1 op ++ leBytes 3 0 ++ leBytes 4 3 ++ leBytes 8 0xC00C ++ args
/-- An operand or a state of the witnesses below. -/
def ringed (r : Nat) (e : List Byte) (s : State) : State := (s.setBytes (cmdAt r 3) e).setRing r { cmdTail := 4, cmdHead := 3, lastSeq := 2, cqTail := 7, cqHead := 2 }
/-- An operand or a state of the witnesses below. -/
def up : State := (live.setBit F.hostReady.driverUp true)
/-- An operand or a state of the witnesses below. -/
def stopped : State := { (up.setFld F.unitReady.contexts 255) with ctxs := [] }
/-- An operand or a state of the witnesses below. -/
def cs : State := ringed 0 (entry 1 []) stopped
/-- An operand or a state of the witnesses below. -/
def cs2 : State := cs.setFld (F.coreStatus.state 3) 3
/-- An operand or a state of the witnesses below. -/
def ct : State := ringed 0 (entry 2 []) up
/-- An operand or a state of the witnesses below. -/
def ca : State := ringed 0 (entry 4 []) up
/-- An operand or a state of the witnesses below. -/
def cf : State := ringed 8 (entry 8 []) up
/-- An operand or a state of the witnesses below. -/
def don : State := up.setRing 1 { cqTail := 7, done := [{ cmd := { count := 3, op := 1, flags := 0, seq := 3, cookie := 9, args := leBytes 48 7 }, status := 2, detail := 5, count := 1, time := 88 }] }
/-- An operand or a state of the witnesses below. -/
def gs (pend a b : Nat) (s : State) : State := ((s.setBit (F.genStatus.pending 0) (pend = 1)).setGenSlot 0 0 a).setGenSlot 0 1 b
/-- An operand or a state of the witnesses below. -/
def cnt : Nat := R.syncCount 0 3
/-- An operand or a state of the witnesses below. -/
def g1 : State := ringed 0 (entry 7 []) (gs 0 3 2 up)
/-- An operand or a state of the witnesses below. -/
def g2 : State := ringed 0 (entry 7 []) (gs 1 3 2 up)
/-- An operand or a state of the witnesses below. -/
def g3 : State := gs 1 3 2 { ((up.setReg (F.genCurObj.val 0).reg (BitVec.ofNat 64 cnt)).setReg (R.genNum 0 1) 12) with ctxs := [(0, { running := true, batchSeen := true })] }
/-- An operand or a state of the witnesses below. -/
def g5 : State := gs 1 3 0 g3
/-- An operand or a state of the witnesses below. -/
def g4 : State := gs 0 3 4 up
/-- An operand or a state of the witnesses below. -/
def pub : State := ringed 0 (entry 6 (leBytes 1 2)) ({ (up.setBit (F.sweepCtl.enable 0) true) with ctxs := [(0, { running := true, mayPublish := true })] })
/-- An operand or a state of the witnesses below. -/
def sized (s : State) : State := s.setFld (F.genSlotSize.val 2) 64
/-- An operand or a state of the witnesses below. -/
def gs2 (a b : Nat) (s : State) : State := ((sized s).setGenSlot 2 0 a).setGenSlot 2 1 b
/-- An operand or a state of the witnesses below. -/
def pubA : State := gs2 0 3 pub
/-- An operand or a state of the witnesses below. -/
def pubB : State := gs2 3 0 pub
/-- An operand or a state of the witnesses below. -/
def pubC : State := gs2 3 2 pub
/-- An operand or a state of the witnesses below. -/
def part1 : PubPart := { shard := 0, first := 0, len := 4, bytes := 8, coord := 0, base := 0, size := 64, offset := 16 }
/-- An operand or a state of the witnesses below. -/
def hdr0 : List Byte := leBytes 4 0x31435850 ++ leBytes 4 1 ++ leBytes 4 1
/-- An operand or a state of the witnesses below. -/
def hdr : List Byte := hdr0 ++ leBytes 4 (crc32c (hdr0 ++ leBytes 48 0)).toNat ++ leBytes 48 0
/-- An operand or a state of the witnesses below. -/
def pay : List Byte := [1,2,3,4,5,6,7,8]
/-- An operand or a state of the witnesses below. -/
def ch0 : List Byte := leBytes 4 0 ++ leBytes 4 8 ++ leBytes 1 0 ++ leBytes 1 1 ++ leBytes 1 1 ++ leBytes 1 0 ++ leBytes 4 4 ++ leBytes 8 0 ++ leBytes 4 4 ++ leBytes 32 0
/-- An operand or a state of the witnesses below. -/
def ch : List Byte := ch0 ++ leBytes 4 (crc32c (ch0 ++ pay)).toNat ++ pay
/-- An operand or a state of the witnesses below. -/
def inp : State := ringed 0 (entry 5 (leBytes 8 0x5000 ++ leBytes 8 192 ++ leBytes 8 0x5000000000 ++ leBytes 1 0)) up
/-- An operand or a state of the witnesses below. -/
def ix (l : List Nat) (n : Nat) : Intake := { set := 0, cmd := inp.cmdEntry 0 3, address := 0x5000, dest := 0x5000000000, limit := 2^64, slot := none, switch := false, gen := 0, chunks := [(64, 128)], reading := l, next := n }
/-- An operand or a state of the witnesses below. -/
def in1 : State := { ((up.setFld (F.coreStatus.state 0) 3).setRing 0 { run := [inp.cmdEntry 0 3] }) with intakes := [ix [0] 1] }
/-- An operand or a state of the witnesses below. -/
def in2 : State := { (up.setRing 0 { run := [inp.cmdEntry 0 3] }) with intakes := [ix [0, 1] 2] }

/-! Witnesses of `Obligations.RingCommandsComplete`, by clause. -/

theorem test_RingCommandsComplete_1 :
    TakesCmd cs 0 1 (cs.cmdEntry 0 3)
    ∧ cs.coreRuns 2 = true
    ∧ cs.coreRuns 3 = true
    ∧ (cs.ctx 0).running = false
    ∧ (cs.ctx 0).halted = false
    ∧ cs.quiet 0 = true
    ∧ (cs.fld F.unitReady.contexts).testBit 0 = true
    ∧ cs.fld F.fenceStatus.level = 0
    ∧ cs.fld (F.genSlotSize.val 0) = 0
    ∧ cs.cutsReason 0 = 0
    ∧ cs.hashesHold 0 = true
    ∧ 5#64 = ~~~18446744073709551610#64
    ∧ (cs.ctx 0).discardDue = false
    ∧ cs.sliceOverlap 0 (cs.objBase 0) (cs.objGranules 0) = false
    ∧ (have m := cs.hamperFromObjects 0;
    m.sliceOverlap 0 (m.fld (F.hamperCfg.sliceBase 0)) (m.sliceGranules 0) = false) :=
  ⟨takes_of (by decide +kernel), by decide +kernel⟩

theorem test_RingCommandsComplete_2 :
    TakesCmd cs2 0 1 (cs2.cmdEntry 0 3)
    ∧ (cs2.coreRuns 2 = false ∨ cs2.coreRuns 3 = false) :=
  ⟨takes_of (by decide +kernel), .inr (by decide +kernel)⟩

theorem test_RingCommandsComplete_3 :
    TakesCmd ct 0 2 (ct.cmdEntry 0 3)
    ∧ ct.noneQueued
    ∧ (ct.ring 0).run = []
    ∧ (∀ (tn : Nat × Nat), tn ∈ ct.activeThreads → ct.fld (F.threadCtl.ctx tn.fst tn.snd) ≠ 0) :=
  ⟨takes_of (by decide +kernel), noneQueued_of (by decide +kernel), by decide +kernel⟩

theorem test_RingCommandsComplete_4 :
    TakesCmd ca 0 4 (ca.cmdEntry 0 3)
    ∧ (ca.ctx 0).running = true
    ∧ (ca.ctx 0).phase = StepPhase.compute :=
  ⟨takes_of (by decide +kernel), by decide +kernel⟩

theorem test_RingCommandsComplete_5 :
    TakesCmd cf 8 8 (cf.cmdEntry 8 3)
    ∧ (cf.ring 8).run = [] :=
  ⟨takes_of (by decide +kernel), by decide +kernel⟩

theorem test_RingCommandsComplete_6 :
    don.coreRuns 0 = true
    ∧ (don.ring 1).run = []
    ∧ (don.ring 1).done = [(don.ring 1).done.headD { cmd := don.cmdEntry 0 0, status := 0, time := 0 : RingDone }] :=
  by decide +kernel

/-! Witnesses of `Obligations.GenerationsComplete`, by clause. -/

theorem test_GenerationsComplete_1 :
    TakesCmd g1 0 7 (g1.cmdEntry 0 3)
    ∧ g1.bit (F.genStatus.pending 0) = false
    ∧ g1.genSlot 0 (1 - g1.fld (F.genStatus.cur 0)) = 2 :=
  ⟨takes_of (by decide +kernel), by decide +kernel⟩

theorem test_GenerationsComplete_2 :
    TakesCmd g2 0 7 (g2.cmdEntry 0 3)
    ∧ (g2.bit (F.genStatus.pending 0) = true ∨ g2.genSlot 0 (1 - g2.fld (F.genStatus.cur 0)) ≠ 2) :=
  ⟨takes_of (by decide +kernel), .inl (by decide +kernel)⟩

theorem test_GenerationsComplete_3 :
    g5.bit (F.genStatus.pending 0) = true
    ∧ (g5.ctx 0).batchSeen = true
    ∧ g5.genSlot 0 (1 - g5.fld (F.genStatus.cur 0)) ≠ 2 :=
  by decide +kernel

theorem test_GenerationsComplete_4 :
    isCounterKey (g3.fld (F.genCurObj.val 0))
    ∧ QuietCounter g3 (g3.fld (F.genCurObj.val 0))
    ∧ g3.bit (F.genStatus.pending 0) = true
    ∧ (g3.ctx 0).batchSeen = true
    ∧ g3.genSlot 0 (g3.fld (F.genStatus.cur 0)) = 3
    ∧ g3.genSlot 0 (1 - g3.fld (F.genStatus.cur 0)) = 2 :=
  ⟨isCounterKey_of (by decide +kernel), quiet_of (by decide +kernel), by decide +kernel⟩

theorem test_GenerationsComplete_5 :
    ((g4.ctx 0).drainSeen = true ∨ g4.reg (g4.fld (F.genUseObj.val 0 1)) = 0)
    ∧ List.find? (fun i => g4.genSlot 0 i == 4) (upto 2) = some 1 :=
  ⟨.inr (by decide +kernel), by decide +kernel⟩

theorem test_GenerationsComplete_6 :
    TakesCmd pub 0 6 (pub.cmdEntry 0 3)
    ∧ (pub.ctx 0).running = true
    ∧ pub.bit (F.sweepCtl.enable 0) = true
    ∧ (pub.ctx 0).mayPublish = true
    ∧ (pub.cmdEntry 0 3).arg 16 1 < 8
    ∧ (∀ (p : PubPart),
      p ∈ [] →
        p.offset + p.bytes ≤ if p.coord = pub.coord then pub.fld (F.genSlotSize.val ((pub.cmdEntry 0 3).arg 16 1)) else p.size)
    ∧ pub.fld (F.genSlotSize.val ((pub.cmdEntry 0 3).arg 16 1)) = 0 :=
  ⟨takes_of (by decide +kernel), by decide +kernel⟩

theorem test_GenerationsComplete_7 :
    TakesCmd pubA 0 6 (pubA.cmdEntry 0 3)
    ∧ (pubA.ctx 0).running = true
    ∧ pubA.bit (F.sweepCtl.enable 0) = true
    ∧ (pubA.ctx 0).mayPublish = true
    ∧ (pubA.cmdEntry 0 3).arg 16 1 < 8
    ∧ (∀ (p : PubPart),
      p ∈ [part1] →
        p.offset + p.bytes ≤ if p.coord = pubA.coord then pubA.fld (F.genSlotSize.val ((pubA.cmdEntry 0 3).arg 16 1)) else p.size)
    ∧ 0 < 2
    ∧ pubA.fld (F.genSlotSize.val ((pubA.cmdEntry 0 3).arg 16 1)) ≠ 0
    ∧ pubA.genSlot ((pubA.cmdEntry 0 3).arg 16 1) 0 = 0
    ∧ pubA.genSlot ((pubA.cmdEntry 0 3).arg 16 1) (1 - 0) ≠ 0 :=
  ⟨takes_of (by decide +kernel), by decide +kernel⟩

theorem test_GenerationsComplete_8 :
    TakesCmd pubC 0 6 (pubC.cmdEntry 0 3)
    ∧ (pubC.ctx 0).running = true
    ∧ pubC.bit (F.sweepCtl.enable 0) = true
    ∧ (pubC.ctx 0).mayPublish = true
    ∧ (pubC.cmdEntry 0 3).arg 16 1 < 8
    ∧ (∀ (p : PubPart),
      p ∈ [part1] →
        p.offset + p.bytes ≤ if p.coord = pubC.coord then pubC.fld (F.genSlotSize.val ((pubC.cmdEntry 0 3).arg 16 1)) else p.size)
    ∧ pubC.fld (F.genSlotSize.val ((pubC.cmdEntry 0 3).arg 16 1)) ≠ 0
    ∧ pubC.genSlot ((pubC.cmdEntry 0 3).arg 16 1) 0 ≠ 0
    ∧ pubC.genSlot ((pubC.cmdEntry 0 3).arg 16 1) 1 ≠ 0 :=
  ⟨takes_of (by decide +kernel), by decide +kernel⟩

/-! Witnesses of `Obligations.IntakeCompletes`, by clause. -/

theorem test_IntakeCompletes_1 :
    TakesCmd inp 0 5 (inp.cmdEntry 0 3)
    ∧ pxcHeaderGood hdr = true
    ∧ [List.take 64 ch].length = natAt hdr 8 4
    ∧ (inp.cmdEntry 0 3).arg 40 1 = 0
    ∧ 64 + (List.map (fun x => x.snd) (pxcChunks 64 [List.take 64 ch])).sum = (inp.cmdEntry 0 3).arg 24 8
    ∧ inp.findIntake 0 (inp.cmdEntry 0 3).count = none :=
  ⟨takes_of (by decide +kernel), by decide +kernel⟩

theorem test_IntakeCompletes_2 :
    in1.findIntake 0 3 = some (ix [0] 1)
    ∧ (ix [0] 1).reading = [0]
    ∧ (ix [0] 1).got = []
    ∧ (ix [0] 1).slot = none
    ∧ (ix [0] 1).next = (ix [0] 1).chunks.length
    ∧ chunkGood ch = true
    ∧ natAt ch 0 4 = 0
    ∧ in1.chunkWrite
        { set := (ix [0] 1).set, cmd := (ix [0] 1).cmd, address := (ix [0] 1).address, dest := (ix [0] 1).dest,
          limit := (ix [0] 1).limit, slot := (ix [0] 1).slot, switch := (ix [0] 1).switch, gen := (ix [0] 1).gen,
          chunks := (ix [0] 1).chunks, reading := (ix [0] 1).reading, next := (ix [0] 1).next, got := [(0, some ch)],
          failed := (ix [0] 1).failed, written := (ix [0] 1).written : Intake }
        0 ch =
      ((in1.chunkWrite
            (let __src := ix [0] 1;
            { set := __src.set, cmd := __src.cmd, address := __src.address, dest := __src.dest, limit := __src.limit,
              slot := __src.slot, switch := __src.switch, gen := __src.gen, chunks := __src.chunks, reading := __src.reading,
              next := __src.next, got := [(0, some ch)], failed := __src.failed, written := __src.written : Intake })
            0 ch).fst,
        some
          ((in1.chunkWrite
                  (let __src := ix [0] 1;
                  { set := __src.set, cmd := __src.cmd, address := __src.address, dest := __src.dest, limit := __src.limit,
                    slot := __src.slot, switch := __src.switch, gen := __src.gen, chunks := __src.chunks, reading := __src.reading,
                    next := __src.next, got := [(0, some ch)], failed := __src.failed, written := __src.written : Intake })
                  0 ch).snd.getD
            (ix [] 0)))
    ∧ ((in1.chunkWrite
                (let __src := ix [0] 1;
                { set := __src.set, cmd := __src.cmd, address := __src.address, dest := __src.dest, limit := __src.limit,
                  slot := __src.slot, switch := __src.switch, gen := __src.gen, chunks := __src.chunks, reading := __src.reading,
                  next := __src.next, got := [(0, some ch)], failed := __src.failed, written := __src.written : Intake })
                0 ch).snd.getD
          (ix [] 0)).written =
      (ix [0] 1).chunks.length
    ∧ in1.coreRuns 0 = false
    ∧ (in1.ring 0).run = [(ix [0] 1).cmd] :=
  by decide +kernel

theorem test_IntakeCompletes_3 :
    in1.findIntake 0 3 = some (ix [0] 1)
    ∧ (ix [0] 1).reading = [0]
    ∧ (ix [0] 1).got = []
    ∧ Tab.get (fun x => 0) (ix [0] 1).failed 0 < 3
    ∧ chunkGood pay = false :=
  by decide +kernel

theorem test_IntakeCompletes_4 :
    in1.findIntake 0 3 = some (ix [0] 1)
    ∧ (ix [0] 1).reading = [0]
    ∧ (ix [0] 1).got = []
    ∧ Tab.get (fun x => 0) (ix [0] 1).failed 0 < 3 :=
  by decide +kernel

end W42b

namespace W43

/-- An operand or a state of the witnesses below. -/
def ph := word [(0x38,122),(0x2000,80),(64,56),(1,52)]
/-- An operand or a state of the witnesses below. -/
def po := word [(0x39,122),(0x4000,80),(64,56),(1,52)]
/-- An operand or a state of the witnesses below. -/
def ixs0 : List Word := List.replicate 8 0
/-- An operand or a state of the witnesses below. -/
def pnd (w : Desc) (q : Nat) : Pend := { eng := .dma, word := w, pc := 0x1000, ixs := ixs0, phase := .hamper, signal := true, seq := q }
/-- An operand or a state of the witnesses below. -/
def hb (g slots : Nat) (s : State) : State :=
  (fldsTo [(F.hamperCfg.sliceGranules 0, g), (F.hamperCfg.sliceBase 0, 8), (F.hamperSpillBase.slots 0, slots), (F.hamperSpillBase.base 0, 0x400400)] s)
/-- An operand or a state of the witnesses below. -/
def en (q : Nat) (l : List HPlace) : HEntry := { len := 64, fmt := 1, seq := q, grans := l }
/-- An operand or a state of the witnesses below. -/
def idle : State := { live with ctxs := [] }
/-- An operand or a state of the witnesses below. -/
def sp : State := { ((hb 1 4 live).setThread 0 { pend := [pnd ph 6] }).setBytes 0x80000 [1,0x3f,2,0x40] with hamper := [(0, { piles := [(0, [en 4 [.slice 0]])], nextSeq := 7 })] }
/-- An operand or a state of the witnesses below. -/
def pf : State := { ((hb 4 4 live).setBytes 0x4004000000 [1,2,3,4]) with hamper := [(0, { piles := [(0, [en 4 [.slot 0 true], en 3 [.slot 1 false]])], windows := [0], nextSeq := 7 })] }
/-- An operand or a state of the witnesses below. -/
def od : State := { ((hb 4 4 live).setThread 0 { pend := [pnd po 6] }).setBytes 0x4004000000 [1,2,3,4] with hamper := [(0, { piles := [(0, [en 4 [.slot 0 true]])], nextSeq := 7 })] }
/-- An operand or a state of the witnesses below. -/
def two : State := { idle with ctxs := [(1, { running := true })], hamper := [(0, { piles := [(0, [en 4 [.slice 0]])], nextSeq := 7 })] }
/-- An operand or a state of the witnesses below. -/
def gb (s : State) (t : Fin 256) (c : Fin 8) (e : HEntry) (j k : Nat) (raw : Bool) : List Byte := (s.granuleBytesOf t c e j (.slot k raw)).getD []
/-- An operand or a state of the witnesses below. -/
def stw : Desc := word [(4,122),(0x2000,80),(1,77),(0x100,48),(64,24)]
/-- An operand or a state of the witnesses below. -/
def ldw : Desc := word [(1,122),(1,109),(0x100,80),(0x4000,48),(64,24)]
/-- An operand or a state of the witnesses below. -/
def pa (w : Desc) : Pend := { eng := .dma, word := w, pc := 0x1000, ixs := 0 :: BitVec.ofNat 64 (2 ^ 63 + 2 ^ 46 * 3) :: List.replicate 6 0, phase := .admission, signal := true }
/-- An operand or a state of the witnesses below. -/
def admb : State := (fldsTo (((upto 8).flatMap fun p => [(F.portStatus.state p, psUp), (F.portStatus.width p, 3)]) ++ [(F.torusDims.z, 7), (F.xportCtl.admitEn, 1), (F.admitMaxBoundNs.val 0, 0xFFFFFFFF)]) live).setBytes 0x2000 [1,2,3]
/-- An operand or a state of the witnesses below. -/
def ad1 (w : Desc) : State := admb.setThread 0 { pend := [pa w] }
/-- An operand or a state of the witnesses below. -/
def ad2 (w : Desc) : State := (ad1 w).setFld (F.admitMaxBoundNs.val 0) 0
/-- An operand or a state of the witnesses below. -/
def ad3 (w : Desc) : State := (ad1 w).setFld F.xportCtl.admitEn 0
/-- An operand or a state of the witnesses below. -/
def ad4 (w : Desc) : State := (ad1 w).modCtx 0 fun x => { x with admitDue := true }
/-- An operand or a state of the witnesses below. -/
def ad5 (w : Desc) : State := (ad3 w).setFld (F.coreStatus.state 1) 3
/-- An operand or a state of the witnesses below. -/
def tidsOf (u : State) : List Nat := match (lastPend 0 u).phase with | .transfer l => l | _ => []
/-- An operand or a state of the witnesses below. -/
def jd (m : State) (p : Pend) (asks : List Ask) : Nat ⊕ (Nat × List Nat × Nat) :=
  m.judgeAdmission 0 3 ((asks.map fun a => flitsOf a.data.length).sum) (if dOp p.word ≤ 0x03 ∨ dOp p.word = 0x07 then some ((asks.map fun a => flitsOf a.len).sum) else none)

/-! Witnesses of `Obligations.HamperControlAndGranulesComplete`, by clause. -/

theorem test_HamperControlAndGranulesComplete_1 :
    ((idle.ctx 0).running = false ∨
      ¬(bitsAt (260#64) 0 7 ≠ idle.sliceGranules 0 ∨ bitsAt (260#64) 8 7 ≠ idle.fld (F.hamperCfg.sliceBase 0)))
    ∧ (bitsAt (260#64) 0 7 ≤ 96 ∧
      bitsAt (260#64) 8 7 + bitsAt (260#64) 0 7 ≤ 128 ∧
        bitsAt (260#64) 16 4 ≤ 8 ∧
          idle.sliceOverlap 0 (bitsAt (260#64) 8 7) (bitsAt (260#64) 0 7) = false ∧
            (bitsAt (260#64) 0 7 ≠ idle.sliceGranules 0 ∨ bitsAt (260#64) 8 7 ≠ idle.fld (F.hamperCfg.sliceBase 0) →
              idle.hamperEntries 0 = 0)) :=
  ⟨.inl (by decide +kernel), ⟨by decide +kernel, ⟨by decide +kernel, ⟨by decide +kernel, ⟨by decide +kernel, fun _ => by decide +kernel⟩⟩⟩⟩⟩

theorem test_HamperControlAndGranulesComplete_2 :
    (two.ctx 0).running = false
    ∧ ¬(bitsAt (260#64) 0 7 ≤ 96 ∧
        bitsAt (260#64) 8 7 + bitsAt (260#64) 0 7 ≤ 128 ∧
          bitsAt (260#64) 16 4 ≤ 8 ∧
            two.sliceOverlap 0 (bitsAt (260#64) 8 7) (bitsAt (260#64) 0 7) = false ∧
              (bitsAt (260#64) 0 7 ≠ two.sliceGranules 0 ∨ bitsAt (260#64) 8 7 ≠ two.fld (F.hamperCfg.sliceBase 0) →
                two.hamperEntries 0 = 0)) :=
  by decide +kernel

theorem test_HamperControlAndGranulesComplete_3 :
    (bitsAt (260#64) 0 7 ≠ live.sliceGranules 0 ∨ bitsAt (260#64) 8 7 ≠ live.fld (F.hamperCfg.sliceBase 0))
    ∧ (live.ctx 0).running = true :=
  ⟨.inl (by decide +kernel), by decide +kernel⟩

theorem test_HamperControlAndGranulesComplete_5 :
    live.noPushWaits 0 :=
  noPush_of (by decide +kernel)

theorem test_HamperControlAndGranulesComplete_8 :
    (pf.pushAgain 0 0 pushFuel).waitingPushes 0 0 = [] :=
  by decide +kernel

theorem test_HamperControlAndGranulesComplete_9 :
    pf.prefetchNext 0 0 = some (en 3 [HPlace.slot 1 false])
    ∧ 2 ≤ (pf.freeGranules 0 0).length
    ∧ (∀ (x : HPlace × Nat),
      x ∈ (en 3 [HPlace.slot 1 false]).grans.zipIdx → (pf.granuleBytesOf 0 0 (en 3 [HPlace.slot 1 false]) x.snd x.fst).isSome = true) :=
  by decide +kernel

theorem test_HamperControlAndGranulesComplete_10 :
    od.hamperAop (od.issOf (thrKey 0 0) (pnd po 6)) rightW = Except.ok 16384
    ∧ PlainRange od 16384 [[1, 2, 3, 4] ++ List.replicate 60 0].flatten.length
    ∧ od.hamperPend (thrKey 0 0) 57 = some (0, pnd po 6)
    ∧ (od.slice 0 (od.ctxOf 0 0)).stack 0 = [en 4 [HPlace.slot 0 true]]
    ∧ (en 4 [HPlace.slot 0 true]).len = dHLen (pnd po 6).word
    ∧ (en 4 [HPlace.slot 0 true]).fmt = dHFmt (pnd po 6).word
    ∧ List.map (fun g => od.granuleBytesOf 0 (od.ctxOf 0 0) (en 4 [HPlace.slot 0 true]) g.snd g.fst)
        (en 4 [HPlace.slot 0 true]).grans.zipIdx =
      List.map some [[1, 2, 3, 4] ++ List.replicate 60 0] :=
  ⟨of_okIs (by decide +kernel), plain_of (by decide +kernel), by decide +kernel⟩

/-! Witnesses of `Obligations.AdmissionCompletes`, by clause. -/

theorem test_AdmissionCompletes_3 :
    (ad3 stw).bit F.xportCtl.admitEn = false ∨ ((ad3 stw).ctx ((ad3 stw).ctxOf 0 0)).admitDue = true :=
  .inl (by decide +kernel)

theorem test_AdmissionCompletes_4 :
    (ad5 stw).coreRuns 1 = false :=
  by decide +kernel

theorem test_AdmissionCompletes_5 :
    (ad1 stw).coreRuns 1 = true :=
  by decide +kernel

theorem test_HamperControlAndGranulesComplete_7 :
    (∀ k : Nat, k ∈ sp.freeSpillSlots 0 → PlainRange sp (sp.slotAt 0 k)
        (spillForm (sp.bit (F.hamperCfg.spillRaw 0)) (en 4 [HPlace.slice 0]).fmt ((sp.readData 524288 64).getD [])).length)
    ∧ sp.waitingPushes 0 0 ≠ [] ∧ sp.pushReady 0 0 = none ∧ sp.freeSpillSlots 0 ≠ []
    ∧ sp.victims 0 0 = [(en 4 [HPlace.slice 0], 0, 0)]
    ∧ sp.readData (sp.granuleAt 0 0 0) ((en 4 [HPlace.slice 0]).partLen 0) = some ((sp.readData 524288 64).getD []) :=
  ⟨fun k h => plain_of
    ((by decide +kernel : ∀ k ∈ sp.freeSpillSlots 0, plainB sp (sp.slotAt 0 k)
      (spillForm (sp.bit (F.hamperCfg.spillRaw 0)) (en 4 [HPlace.slice 0]).fmt ((sp.readData 524288 64).getD [])).length = true) k h),
    by decide +kernel⟩

/-- The state in which the transfer is judged, and what it asks for. -/
def judged (s : State) : State := (s.asksOf (s.issOf 0 (pa stw)) 3).2
def asked (s : State) : List Ask := (okD (s.asksOf (s.issOf 0 (pa stw)) 3).1 ([], [])).1

theorem asked_ok (s : State) (h : isOk (s.asksOf (s.issOf 0 (pa stw)) 3).1 = true) :
    ∃ dst, s.asksOf (s.issOf 0 (pa stw)) 3 = (.ok (asked s, dst), judged s) := by
  obtain ⟨a, e⟩ := ok_of h
  refine ⟨a.2, ?_⟩
  rw [ok_pair e, judged, asked, e]
  rfl

/-- What is judged, with both settings of the largest bound. -/
theorem test_AdmissionCompletes_1 (s : State) (h : s = ad1 stw ∨ s = ad2 stw) :
    (∃ dst, s.asksOf (s.issOf 0 (pa stw)) 3 = (.ok (asked s, dst), judged s)) ∧ s.bit F.xportCtl.admitEn = true
    ∧ (s.ctx (s.ctxOf 0 0)).admitDue = false
    ∧ List.findIdx? (fun q => q.phase == PendPhase.admission) (s.thread (thrKey 0 0)).pend = some 0
    ∧ (s.thread (thrKey 0 0)).pend[0]? = some (pa stw)
    ∧ s.formOf (s.issOf (thrKey 0 0) (pa stw)).farEnd = AddrForm.away 3 256
    ∧ asked s ≠ [] ∧ (judged s).fld F.fenceStatus.level = 0 ∧ ((asked s).map fun a => flitsOf a.data.length).sum = 1
    ∧ ¬ (dOp (pa stw).word ≤ 3 ∨ dOp (pa stw).word = 7) :=
  h.elim (· ▸ ⟨asked_ok _ (by decide +kernel), by decide +kernel⟩) (· ▸ ⟨asked_ok _ (by decide +kernel), by decide +kernel⟩)

theorem judged_slots (s : State) (h : s = judged (ad1 stw) ∨ s = judged (ad2 stw)) :
    s.outPort 3 (s.dirsTo 3 false) = some 6 ∧ s.grantSlots 6 64 (s.now / framePs + 1) 1 = [8234823680] ∧ s.now = 5000000000000 :=
  h.elim (· ▸ ⟨by decide +kernel, by decide +kernel, by decide +kernel⟩) (· ▸ ⟨by decide +kernel, by decide +kernel, by decide +kernel⟩)

/-- It is refused where the largest bound allowed is 0, -/
theorem test_AdmissionCompletes_2 : (judged (ad2 stw)).judgeAdmission 0 3 1 none = .inl 1 := by
  obtain ⟨p, g, n⟩ := judged_slots _ (.inr rfl)
  rw [n] at g
  have m : (judged (ad2 stw)).fld (F.admitMaxBoundNs.val 0) = 0 := by decide +kernel
  unfold State.judgeAdmission
  rw [p]
  simp only [g, n, m]
  rw [if_neg (by decide +kernel), if_pos]
  have pos : ∀ w, 0 < w → 1000 * 0 < (judged (ad2 stw)).admittedBound 3 w none := fun w h => by
    unfold State.admittedBound
    simp only
    omega
  exact pos _ (by decide +kernel)

/-- and granted where the length of the route, a constant of `Config`, keeps the bound within the largest one allowed. -/
theorem test_AdmissionCompletes_2b
    (h : ∀ w, w ≤ 3000000 → (judged (ad1 stw)).admittedBound 3 w none ≤ 1000 * (judged (ad1 stw)).fld (F.admitMaxBoundNs.val 0)) :
    ∃ b, (judged (ad1 stw)).judgeAdmission 0 3 1 none = .inr (6, [8234823680], b) := by
  obtain ⟨p, g, n⟩ := judged_slots _ (.inl rfl)
  rw [n] at g
  unfold State.judgeAdmission
  rw [p]
  simp only [g, n]
  rw [if_neg (by decide +kernel), if_neg (Nat.not_lt.mpr (h _ (by decide +kernel))), if_neg (by decide +kernel), if_neg (by decide +kernel),
    if_neg (by decide +kernel)]
  exact ⟨_, rfl⟩

end W43

namespace W44

/-- An operand or a state of the witnesses below. -/
def lt : Nat := 0x4010000000
/-- An operand or a state of the witnesses below. -/
def sch : Nat := 0x4010100000
/-- An operand or a state of the witnesses below. -/
def recd : Nat := sch + 64
/-- An operand or a state of the witnesses below. -/
def fac : Nat := 0x4010200000
/-- An operand or a state of the witnesses below. -/
def prv : Nat := 0x4010300000
/-- An operand or a state of the witnesses below. -/
def qb : Nat := 0x4010400000
/-- An operand or a state of the witnesses below. -/
def slot : Nat := 0x4010500000
/-- An operand or a state of the witnesses below. -/
def sched : List Byte := leBytes 4 0 ++ leBytes 4 0xABCD ++ leBytes 2 4 ++ leBytes 2 1
/-- An operand or a state of the witnesses below. -/
def recB : List Byte := leBytes 2 0 ++ leBytes 1 0 ++ leBytes 1 0 ++ leBytes 4 0 ++ leBytes 2 2 ++ leBytes 1 1 ++ leBytes 1 1 ++ leBytes 4 0 ++ leBytes 8 fac ++ leBytes 8 0 ++ leBytes 8 (sch + 0x1000)
/-- An operand or a state of the witnesses below. -/
def prvB : List Byte := leBytes 2 1 ++ leBytes 2 2 ++ leBytes 4 0xABCD ++ leBytes 8 0 ++ leBytes 4 0x3F800000
/-- An operand or a state of the witnesses below. -/
def ent (f : Bool) (p : Nat) : RootEntry := { record := recd, ctx := 0, force := f, prev := p, pend := slot, cap := 7 }
/-- An operand or a state of the witnesses below. -/
def base : State :=
  (fldsTo [(F.rootQueueSize.val 0, 8), (F.rootQueueTail.val 0, 1), (F.rootCtl.enable 0, 1)] ((live.setReg (R.rootQueueBase 0) (BitVec.ofNat 64 qb)).setObj (O.rootLayerTable 0) lt))
/-- An operand or a state of the witnesses below. -/
def mem (x : RootEntry) : State := (((((base.setBytes lt (leBytes 8 sch)).setBytes sch sched).setBytes recd recB).setBytes qb x.bytes).setBytes prv prvB).setBytes (fac + 64) (leBytes 4 0x40000000 ++ leBytes 8 0 ++ leBytes 4 0x3F800000)
/-- An operand or a state of the witnesses below. -/
def m1 : State := mem (ent true prv)
/-- An operand or a state of the witnesses below. -/
def m2 : State := mem (ent false 0)
/-- An operand or a state of the witnesses below. -/
def m3 : State := mem (ent false prv)
/-- An operand or a state of the witnesses below. -/
def m4 : State := m3.setBytes (prv + 4) [0x11]
/-- An operand or a state of the witnesses below. -/
def m5 : State := m3.setBytes (prv + 2) [3]
/-- An operand or a state of the witnesses below. -/
def blk (p : Nat) (r : Option RootResult) : RootBlock :=
  { entry := ent true 0, layer := 0, block := 0, n := 2, p := p, hash := 0xABCD, step := 0, sel := 0, users := [{ coord := 0, lo := 0, hi := 2, slot := slot }], base := fac, factor := [[0x40000000, 0], [0, 0x3F800000]], result := r }
/-- An operand or a state of the witnesses below. -/
def re (x : RootEngine) : State := base.setRoot 0 x
/-- An operand or a state of the witnesses below. -/
def b0 : State := re { cur := some (blk 1 none), held := [ent true 0], acks := [{ entry := ent true 0, tids := [5] }], backlog := [ent false 3] }
/-- An operand or a state of the witnesses below. -/
def b1 : State := re { cur := some (blk 4 none) }
/-- An operand or a state of the witnesses below. -/
def res2 : RootResult := { mode := 2, result := 0, scale := 0x3F800000, iters := 9 }
/-- An operand or a state of the witnesses below. -/
def b2 : State := re { cur := some (blk 4 (some res2)) }
/-- An operand or a state of the witnesses below. -/
def res1 : RootResult := { mode := 1, result := 0, scale := 0x3F800000, iters := 9, rows := [[1, 2], [3, 4]] }
/-- An operand or a state of the witnesses below. -/
def bkm : RootBlock := { blk 4 (some res1) with users := [] }
/-- An operand or a state of the witnesses below. -/
def b4 : State := re { cur := some bkm }
/-- An operand or a state of the witnesses below. -/
def b5 : State := (re { held := [ent true 0], acks := [{ entry := ent true 0, tids := [] }] }).setFld (F.rootDoneSignal.val 0) (R.syncCount 0 3)
/-- An operand or a state of the witnesses below. -/
def b3 : State := re { held := [ent true 0], acks := [{ entry := ent true 0, tids := [] }] }

/-! Witnesses of `Obligations.RootEngineCompletes`, by clause. -/

theorem test_RootEngineCompletes_1 :
    ((base.root 0).cur = none ∧ (base.root 0).acks = [] ∧ base.rootUsable 0 = true)
    ∧ (base.fld F.unitReady.root).testBit 0 = true :=
  ⟨⟨by decide +kernel, ⟨by decide +kernel, by decide +kernel⟩⟩, by decide +kernel⟩

theorem test_RootEngineCompletes_3 :
    (b0.fld F.unitReady.root).testBit 0 = true
    ∧ (b0.root 0).cur ≠ none :=
  by decide +kernel

theorem test_RootEngineCompletes_4 :
    base.noneQueued
    ∧ (base.fld F.unitReady.root).testBit 0 = true :=
  ⟨noneQueued_of (by decide +kernel), by decide +kernel⟩

theorem test_RootEngineCompletes_5 :
    (base.fld F.unitReady.root).testBit 0 = true :=
  by decide +kernel

theorem test_RootEngineCompletes_6 :
    (m1.schedP (m1.layerSched (entryOf ((m1.rootRead qb 32).getD [])).ctx 0) = 1 ∨
      m1.schedP (m1.layerSched (entryOf ((m1.rootRead qb 32).getD [])).ctx 0) = 2 ∨
        m1.schedP (m1.layerSched (entryOf ((m1.rootRead qb 32).getD [])).ctx 0) = 4)
    ∧ ((entryOf ((m1.rootRead qb 32).getD [])).force = true ∨ (entryOf ((m1.rootRead qb 32).getD [])).prev = 0)
    ∧ m1.rootUsable 0 = true
    ∧ m1.bit (F.rootCtl.enable 0) = true
    ∧ (m1.root 0).cur = none
    ∧ (m1.root 0).draining = false
    ∧ ((m1.root 0).acks.any fun x => x.dropped) = false
    ∧ m1.rootQueued 0 ≠ 0
    ∧ m1.fld (F.rootQueueSize.val 0) ≤ 1024
    ∧ (m1.root 0).skips = []
    ∧ (m1.root 0).backlog = []
    ∧ m1.rootRead (m1.queueEntryAt 0 (m1.fld (F.rootQueueHead.val 0))) 32 = some ((m1.rootRead qb 32).getD [])
    ∧ m1.rootRead (entryOf ((m1.rootRead qb 32).getD [])).record 64 = some ((m1.rootRead recd 64).getD [])
    ∧ m1.layerOfRecord (entryOf ((m1.rootRead qb 32).getD [])).ctx (entryOf ((m1.rootRead qb 32).getD [])).record = some 0
    ∧ (m1.rootRead (m1.layerAt (entryOf ((m1.rootRead qb 32).getD [])).ctx 0) 64).isSome = true
    ∧ (m1.rootRead (m1.layerSched (entryOf ((m1.rootRead qb 32).getD [])).ctx 0) 64).isSome = true
    ∧ 1 ≤ m1.recN (entryOf ((m1.rootRead qb 32).getD [])).record
    ∧ m1.recN (entryOf ((m1.rootRead qb 32).getD [])).record ≤ 512
    ∧ 1 ≤ m1.recPieces (entryOf ((m1.rootRead qb 32).getD [])).record
    ∧ m1.recPieces (entryOf ((m1.rootRead qb 32).getD [])).record ≤ 16
    ∧ 1 ≤ m1.recUsers (entryOf ((m1.rootRead qb 32).getD [])).record
    ∧ m1.recUsers (entryOf ((m1.rootRead qb 32).getD [])).record ≤ 64
    ∧ (m1.rootRead (m1.physNat ((entryOf ((m1.rootRead qb 32).getD [])).record + 32) 8)
          (16 * m1.recUsers (entryOf ((m1.rootRead qb 32).getD [])).record)).isSome =
      true
    ∧ m1.rootRead
        (m1.physNat ((entryOf ((m1.rootRead qb 32).getD [])).record + 16) 8 + 64 +
          BitVec.toNat (m1.reg (R.sweepStep (entryOf ((m1.rootRead qb 32).getD [])).ctx)) % 2 *
            (4 * (m1.recN (entryOf ((m1.rootRead qb 32).getD [])).record * m1.recN (entryOf ((m1.rootRead qb 32).getD [])).record)))
        (4 * (m1.recN (entryOf ((m1.rootRead qb 32).getD [])).record * m1.recN (entryOf ((m1.rootRead qb 32).getD [])).record)) =
      some ((m1.rootRead (fac + 64) 16).getD []) :=
  ⟨.inr (.inr (by decide +kernel)), .inl (by decide +kernel), by decide +kernel⟩

theorem test_RootEngineCompletes_7 :
    (m3.schedP (m3.layerSched (entryOf ((m3.rootRead qb 32).getD [])).ctx 0) = 1 ∨
      m3.schedP (m3.layerSched (entryOf ((m3.rootRead qb 32).getD [])).ctx 0) = 2 ∨
        m3.schedP (m3.layerSched (entryOf ((m3.rootRead qb 32).getD [])).ctx 0) = 4)
    ∧ m3.rootUsable 0 = true
    ∧ m3.bit (F.rootCtl.enable 0) = true
    ∧ (m3.root 0).cur = none
    ∧ (m3.root 0).draining = false
    ∧ ((m3.root 0).acks.any fun x => x.dropped) = false
    ∧ m3.rootQueued 0 ≠ 0
    ∧ m3.fld (F.rootQueueSize.val 0) ≤ 1024
    ∧ (m3.root 0).skips = []
    ∧ (m3.root 0).backlog = []
    ∧ m3.rootRead (m3.queueEntryAt 0 (m3.fld (F.rootQueueHead.val 0))) 32 = some ((m3.rootRead qb 32).getD [])
    ∧ m3.rootRead (entryOf ((m3.rootRead qb 32).getD [])).record 64 = some ((m3.rootRead recd 64).getD [])
    ∧ m3.layerOfRecord (entryOf ((m3.rootRead qb 32).getD [])).ctx (entryOf ((m3.rootRead qb 32).getD [])).record = some 0
    ∧ (m3.rootRead (m3.layerAt (entryOf ((m3.rootRead qb 32).getD [])).ctx 0) 64).isSome = true
    ∧ (m3.rootRead (m3.layerSched (entryOf ((m3.rootRead qb 32).getD [])).ctx 0) 64).isSome = true
    ∧ 1 ≤ m3.recN (entryOf ((m3.rootRead qb 32).getD [])).record
    ∧ m3.recN (entryOf ((m3.rootRead qb 32).getD [])).record ≤ 512
    ∧ 1 ≤ m3.recPieces (entryOf ((m3.rootRead qb 32).getD [])).record
    ∧ m3.recPieces (entryOf ((m3.rootRead qb 32).getD [])).record ≤ 16
    ∧ 1 ≤ m3.recUsers (entryOf ((m3.rootRead qb 32).getD [])).record
    ∧ m3.recUsers (entryOf ((m3.rootRead qb 32).getD [])).record ≤ 64
    ∧ (m3.rootRead (m3.physNat ((entryOf ((m3.rootRead qb 32).getD [])).record + 32) 8)
          (16 * m3.recUsers (entryOf ((m3.rootRead qb 32).getD [])).record)).isSome =
      true
    ∧ m3.rootRead
        (m3.physNat ((entryOf ((m3.rootRead qb 32).getD [])).record + 16) 8 + 64 +
          BitVec.toNat (m3.reg (R.sweepStep (entryOf ((m3.rootRead qb 32).getD [])).ctx)) % 2 *
            (4 * (m3.recN (entryOf ((m3.rootRead qb 32).getD [])).record * m3.recN (entryOf ((m3.rootRead qb 32).getD [])).record)))
        (4 * (m3.recN (entryOf ((m3.rootRead qb 32).getD [])).record * m3.recN (entryOf ((m3.rootRead qb 32).getD [])).record)) =
      some ((m3.rootRead (fac + 64) 16).getD [])
    ∧ (entryOf ((m3.rootRead qb 32).getD [])).force = false
    ∧ (entryOf ((m3.rootRead qb 32).getD [])).prev ≠ 0
    ∧ m3.rootRead (entryOf ((m3.rootRead qb 32).getD [])).prev 64 = some ((m3.rootRead prv 64).getD [])
    ∧ m3.rootRead ((entryOf ((m3.rootRead qb 32).getD [])).prev + 64)
        (4 * (m3.recN (entryOf ((m3.rootRead qb 32).getD [])).record * m3.recN (entryOf ((m3.rootRead qb 32).getD [])).record)) =
      some ((m3.rootRead (prv + 64) 16).getD [])
    ∧ prevOf ((m3.rootRead prv 64).getD []) (m3.schedHash (m3.layerSched (entryOf ((m3.rootRead qb 32).getD [])).ctx 0))
        (m3.recN (entryOf ((m3.rootRead qb 32).getD [])).record) ((m3.rootRead (prv + 64) 16).getD []) =
      Sum.inr
        (match prevOf ((m3.rootRead prv 64).getD []) 43981 2 ((m3.rootRead (prv + 64) 16).getD []) with
        | Sum.inr x => x
        | Sum.inl val => (0, 0, [])) :=
  ⟨.inr (.inr (by decide +kernel)), by decide +kernel⟩

theorem test_RootEngineCompletes_8 :
    (m4.schedP (m4.layerSched (entryOf ((m4.rootRead qb 32).getD [])).ctx 0) = 1 ∨
      m4.schedP (m4.layerSched (entryOf ((m4.rootRead qb 32).getD [])).ctx 0) = 2 ∨
        m4.schedP (m4.layerSched (entryOf ((m4.rootRead qb 32).getD [])).ctx 0) = 4)
    ∧ (natAt ((m4.rootRead prv 64).getD []) 4 4 ≠ m4.schedHash (m4.layerSched (entryOf ((m4.rootRead qb 32).getD [])).ctx 0) ∨
      natAt ((m4.rootRead prv 64).getD []) 2 2 ≠ m4.recN (entryOf ((m4.rootRead qb 32).getD [])).record)
    ∧ m4.rootUsable 0 = true
    ∧ m4.bit (F.rootCtl.enable 0) = true
    ∧ (m4.root 0).cur = none
    ∧ (m4.root 0).draining = false
    ∧ ((m4.root 0).acks.any fun x => x.dropped) = false
    ∧ m4.rootQueued 0 ≠ 0
    ∧ m4.fld (F.rootQueueSize.val 0) ≤ 1024
    ∧ (m4.root 0).skips = []
    ∧ (m4.root 0).backlog = []
    ∧ m4.rootRead (m4.queueEntryAt 0 (m4.fld (F.rootQueueHead.val 0))) 32 = some ((m4.rootRead qb 32).getD [])
    ∧ m4.rootRead (entryOf ((m4.rootRead qb 32).getD [])).record 64 = some ((m4.rootRead recd 64).getD [])
    ∧ m4.layerOfRecord (entryOf ((m4.rootRead qb 32).getD [])).ctx (entryOf ((m4.rootRead qb 32).getD [])).record = some 0
    ∧ (m4.rootRead (m4.layerAt (entryOf ((m4.rootRead qb 32).getD [])).ctx 0) 64).isSome = true
    ∧ (m4.rootRead (m4.layerSched (entryOf ((m4.rootRead qb 32).getD [])).ctx 0) 64).isSome = true
    ∧ 1 ≤ m4.recN (entryOf ((m4.rootRead qb 32).getD [])).record
    ∧ m4.recN (entryOf ((m4.rootRead qb 32).getD [])).record ≤ 512
    ∧ 1 ≤ m4.recPieces (entryOf ((m4.rootRead qb 32).getD [])).record
    ∧ m4.recPieces (entryOf ((m4.rootRead qb 32).getD [])).record ≤ 16
    ∧ 1 ≤ m4.recUsers (entryOf ((m4.rootRead qb 32).getD [])).record
    ∧ m4.recUsers (entryOf ((m4.rootRead qb 32).getD [])).record ≤ 64
    ∧ (m4.rootRead (m4.physNat ((entryOf ((m4.rootRead qb 32).getD [])).record + 32) 8)
          (16 * m4.recUsers (entryOf ((m4.rootRead qb 32).getD [])).record)).isSome =
      true
    ∧ m4.rootRead
        (m4.physNat ((entryOf ((m4.rootRead qb 32).getD [])).record + 16) 8 + 64 +
          BitVec.toNat (m4.reg (R.sweepStep (entryOf ((m4.rootRead qb 32).getD [])).ctx)) % 2 *
            (4 * (m4.recN (entryOf ((m4.rootRead qb 32).getD [])).record * m4.recN (entryOf ((m4.rootRead qb 32).getD [])).record)))
        (4 * (m4.recN (entryOf ((m4.rootRead qb 32).getD [])).record * m4.recN (entryOf ((m4.rootRead qb 32).getD [])).record)) =
      some ((m4.rootRead (fac + 64) 16).getD [])
    ∧ (entryOf ((m4.rootRead qb 32).getD [])).force = false
    ∧ (entryOf ((m4.rootRead qb 32).getD [])).prev ≠ 0
    ∧ m4.rootRead (entryOf ((m4.rootRead qb 32).getD [])).prev 64 = some ((m4.rootRead prv 64).getD [])
    ∧ m4.rootRead ((entryOf ((m4.rootRead qb 32).getD [])).prev + 64)
        (4 * (m4.recN (entryOf ((m4.rootRead qb 32).getD [])).record * m4.recN (entryOf ((m4.rootRead qb 32).getD [])).record)) =
      some ((m4.rootRead (prv + 64) 16).getD []) :=
  ⟨.inr (.inr (by decide +kernel)), .inl (by decide +kernel), by decide +kernel⟩

theorem test_RootEngineCompletes_9 :
    b0.noneQueued
    ∧ b0.rootUsable 0 = true
    ∧ (b0.root 0).cur = some (blk 1 none)
    ∧ (blk 1 none).result = none
    ∧ ((b0.root 0).acks.any fun x => x.dropped) = false
    ∧ (matrixBytes (b0.rootResult (blk 1 none)).rows).length ≤ 4 * ((blk 1 none).n * (blk 1 none).n) :=
  ⟨noneQueued_of (by decide +kernel), by decide +kernel⟩

theorem test_RootEngineCompletes_10 :
    b2.rootWrites 0 (blk 4 (some res2)).entry.ctx
        (List.map
            (fun u =>
              (u.coord, u.slot + (1 - (blk 4 (some res2)).sel % 2) * (64 + 4 * ((u.hi - u.lo) * (u.hi - u.lo))),
                slotHeader (blk 4 (some res2)) res2 res2.scale ++ resultPart res2 u.lo u.hi))
            (blk 4 (some res2)).users ++
          [(b2.coord, (blk 4 (some res2)).entry.pend,
              slotHeader (blk 4 (some res2)) res2 res2.scale ++ resultPart res2 0 (blk 4 (some res2)).n)])
        [] =
      Except.ok
        ((okD
              (b2.rootWrites 0 0
                ([(0, slot + 80, slotHeader (blk 4 (some res2)) res2 res2.scale ++ resultPart res2 0 2)] ++
                  [(b2.coord, slot, slotHeader (blk 4 (some res2)) res2 res2.scale ++ resultPart res2 0 2)])
                [])
              ({ : State }, [])).fst,
          [])
    ∧ b2.rootUsable 0 = true
    ∧ (b2.root 0).cur = some (blk 4 (some res2))
    ∧ (blk 4 (some res2)).result = some res2
    ∧ ((b2.root 0).acks.any fun x => x.dropped) = false
    ∧ ((res2.scale, b2) = if res2.mode = 2 then (res2.scale, b2) else (BitVec.extractLsb' 0 32 b2.free.fst, b2.free.snd)) :=
  ⟨of_okIs (by decide +kernel), by decide +kernel⟩

theorem test_RootEngineCompletes_11 :
    PlainRange b4 bkm.entry.pend (64 + (resultPart res1 0 bkm.n).length)
    ∧ b4.rootUsable 0 = true
    ∧ (b4.root 0).cur = some bkm
    ∧ bkm.result = some res1
    ∧ res1.mode = 1
    ∧ res1.result ≠ 2
    ∧ res1.result ≠ 3
    ∧ res1.floored = 0
    ∧ bkm.users = []
    ∧ onThermos bkm.entry.pend (64 + (resultPart res1 0 bkm.n).length) = true :=
  ⟨plain_of (by decide +kernel), by decide +kernel⟩

theorem test_RootEngineCompletes_12 :
    (b3.fld (F.rootDoneSignal.val 0) = 0 ∨
      isCounterKey (b3.fld (F.rootDoneSignal.val 0)) ∧ QuietCounter b3 (b3.fld (F.rootDoneSignal.val 0)))
    ∧ b3.rootUsable 0 = true
    ∧ List.find? (fun a => a.tids == [] && !a.dropped) (b3.root 0).acks = some { entry := ent true 0, tids := [] : RootAck } :=
  ⟨.inl (by decide +kernel), by decide +kernel⟩

end W44

namespace W45

/-- An operand or a state of the witnesses below. -/
def sb : Nat := 0x4020000000
/-- An operand or a state of the witnesses below. -/
def shardB (flags repl ng : Nat) : List Byte :=
  leBytes 2 0 ++ leBytes 1 flags ++ leBytes 1 0 ++ leBytes 4 ng ++ leBytes 8 0x4020010000 ++ leBytes 8 0x4020020000 ++ leBytes 8 0x4020030000 ++ leBytes 8 0x4020030100
    ++ leBytes 8 0x4020030200 ++ leBytes 8 0x70000 ++ leBytes 8 640 ++ leBytes 8 0 ++ leBytes 1 repl ++ leBytes 1 1
/-- An operand or a state of the witnesses below. -/
def job (flags repl ng : Nat) (x : Ctx) : State :=
  { (((fldsTo [(F.shardTable.base 0, sb / 128), (F.shardTable.count 0, 1), (F.sweepCtl.enable 0, 1)] live).setReg (R.sweepStep 0) 5).setBytes sb (shardB flags repl ng)).setBytes 0x4020030100 [1]
    with ctxs := [(0, x)] }
/-- An operand or a state of the witnesses below. -/
def idle : Ctx := {}
/-- An operand or a state of the witnesses below. -/
def run : Ctx := { running := true }
/-- An operand or a state of the witnesses below. -/
def s0 : State := job 0 1 2 idle
/-- An operand or a state of the witnesses below. -/
def s1 : State := job 0 1 2 run
/-- An operand or a state of the witnesses below. -/
def cnt : Nat := R.syncCount 0 3
/-- An operand or a state of the witnesses below. -/
def own : State := { s0 with regs := (s0.setFld (F.syncOwner.ctx 0 (objOfOff (cnt % 65536))) 0).regs }
/-- An operand or a state of the witnesses below. -/
def thr (x : Ctx) : State := ((((job 0 1 2 x).setFld (F.threadStatus.state 0 0) 1).setFld (F.threadStatus.state 0 1) 2).setThread 1 { wait := some { obj := 5, cond := 0, comparand := 0, tmo := 0, watch := .none, since := 0, pc := 0x2000 } }).setThread 2 {}
/-- An operand or a state of the witnesses below. -/
def vw : Ctx := { run with phase := .voteWait, voteBits := 5 }
/-- An operand or a state of the witnesses below. -/
def v1 : State := thr vw
/-- An operand or a state of the witnesses below. -/
def sw : Ctx := { run with phase := .sweep }
/-- An operand or a state of the witnesses below. -/
def s2 : State := job 0 1 2 sw
/-- An operand or a state of the witnesses below. -/
def s3 : State := (job 0 1 2 { sw with installed := true, install := none }).setObj (O.rootPrecondEn 0) 0
/-- An operand or a state of the witnesses below. -/
def v2 : State := v1.setObj (O.skewLimit 0) 1
/-- An operand or a state of the witnesses below. -/
def v3 : State := thr { vw with lossNan := some (true, some 3) }
/-- One layer with a schedule of `nb` blocks, written out: its table at 0x4010000000, the schedule at 0x4010100000, one record behind it. -/
def rf (nb : Nat) : State :=
  { live with
    objs := [(4194344, 275146342400)], ctxs := [(0, run)]
    mem := [(275146342402, 0x10#8), (275146342403, 0x10#8), (275146342404, 0x40#8), (275147390980, 0xcd#8), (275147390981, 0xab#8),
        (275147390984, 4#8)] ++ (if nb = 0 then [] else [(275147390986, 1#8)])
      ++ [(275147391048, 2#8), (275147391050, 1#8), (275147391051, 1#8), (275147391073, 0x10#8), (275147391074, 0x10#8), (275147391075, 0x10#8),
        (275147391076, 0x40#8), (275147395078, 2#8), (275147395082, 0x50#8), (275147395083, 0x10#8), (275147395084, 0x40#8)] }
/-- The layer in a state, of an age and a use, in step 5 of the sweep's context `x`. -/
def lay (st age use : Byte) (x : Ctx) : State :=
  { rf 1 with
    regs := (((fldsTo [(F.sweepCtl.enable 0, 1)] live).setReg (R.sweepStep 0) 5)).regs
    ctxs := [(0, x)]
    mem := [(275146342402, 0x10#8), (275146342403, 0x10#8), (275146342404, 0x40#8), (275146342408, st), (275146342409, age), (275146342411, use),
      (275147390980, 0xcd#8), (275147390981, 0xab#8), (275147390984, 4#8), (275147390986, 1#8)] }
/-- An operand or a state of the witnesses below. -/
def swi : Ctx := { sw with installed := true, install := none }
/-- An operand or a state of the witnesses below. -/
def l1 : State := lay 2 3 1 swi
/-- An operand or a state of the witnesses below. -/
def l2 : State := lay 1 200 1 swi
/-- An operand or a state of the witnesses below. -/
def l4 : State := (lay 1 1 0 swi).setObj (O.rootPrecondEn 0) 0
/-- An operand or a state of the witnesses below. -/
def l3 : State := lay 1 1 0 swi
/-- An operand or a state of the witnesses below. -/
def swst (x : Ctx) : Ctx := { x with phase := .sweep, started := true, installed := true }
/-- An operand or a state of the witnesses below. -/
def noPre (s : State) : State := s.setObj (O.rootPrecondEn 0) 0
/-- An operand or a state of the witnesses below. -/
def badS (s : State) : State := { s with badWords := [0x4020010100] }
/-- An operand or a state of the witnesses below. -/
def u7 : State := badS (noPre (job 0 1 2 (swst run)))
/-- An operand or a state of the witnesses below. -/
def u1 : State := noPre (job 2 1 2 { swst run with slowRead := [(0, 0)] })
/-- An operand or a state of the witnesses below. -/
def u2 : State := noPre (job 0 1 2 (swst run))
/-- An operand or a state of the witnesses below. -/
def u3 : State := (noPre (job 0 3 2 (swst run))).setBit (F.sweepStatus.dueNow 0) true
/-- An operand or a state of the witnesses below. -/
def u4 : State := noPre (job 2 1 2 { swst run with slowWrite := [(0, 0), (0, 1)] })
/-- An operand or a state of the witnesses below. -/
def partOf : PubPart := { shard := 0, first := 0, len := 4, bytes := 8, coord := 0, base := 0, size := 64, offset := 16 }
/-- An operand or a state of the witnesses below. -/
def u5 : State := { u2 with publishes := [{ set := 0, cmd := u2.cmdEntry 0 0, target := 0, slot := none, switch := false, gen := 0, parts := [partOf], opened := true, left := [0] }] }
/-- An operand or a state of the witnesses below. -/
def dir64 : List F32 := List.replicate 128 0x3F800000#32
/-- An operand or a state of the witnesses below. -/
def u6 : State := (noPre (job 2 1 2 { swst run with slowRead := [(0, 0)], sweeping := some { shard := 0, left := [0], dir := dir64 } })).setBytes 0x4020030200 [1]
/-- An operand or a state of the witnesses below. -/
def hs : Shard := s1.shard 0 0
/-- An operand or a state of the witnesses below. -/
def dg (x : DigestPhase) (repl ng : Nat) : State := job 0 repl ng { swst run with digests := [(0, x)] }
/-- An operand or a state of the witnesses below. -/
def cm : State := noPre (job 0 1 2 { swst run with swept := [0] })
/-- An operand or a state of the witnesses below. -/
def cw : State := noPre ((job 0 1 2 { swst run with phase := .commitWait, swept := [0] }).setBytes 0x4020030000 [2])
/-- An operand or a state of the witnesses below. -/
def rb : State := (((fldsTo [(F.qCfg.v 0 3, 1), (F.qCfg.obj 0 3, cnt), (F.qCfg.depthM1 0 3, 2), (F.ctxCuts.m 0, 4)] (job 0 1 2 { run with rebase := true })).setReg (R.threadStatus 0 0) 0))
/-- An operand or a state of the witnesses below. -/
def rb2 : State := rb.setFld (F.qCfg.kind 0 3) 1
/-- An operand or a state of the witnesses below. -/
def cl1 : State := lay 3 3 1 { swst run with phase := .commitWait }
/-- An operand or a state of the witnesses below. -/
def cl2 : State := lay 1 3 1 { swst run with phase := .commitWait, prov := [(0, 9, 1)] }
/-- An operand or a state of the witnesses below. -/
def rd (nb : Nat) : State := { rf nb with ctxs := [(0, { run with refreshDue := true })] }

/-! Witnesses of `Obligations.StepAndVoteComplete`, by clause. -/

theorem test_StepAndVoteComplete_1 :
    (s0.ctx 0).running = false :=
  by decide +kernel

theorem test_StepAndVoteComplete_2 :
    (s1.ctx 0).running = true :=
  by decide +kernel

theorem test_StepAndVoteComplete_4 :
    s0.stepOf 0 + 2 ≤ (7#64).toNat
    ∧ s0.ronbin.recovery = false :=
  by decide +kernel

theorem test_StepAndVoteComplete_5 :
    (6#64).toNat < s0.stepOf 0 + 2 :=
  by decide +kernel

theorem test_StepAndVoteComplete_8 :
    ((7#64).getLsbD 63 = false ∨ s0.ownsCounter 0 (bitsAt (7#64) 0 40) = true)
    ∧ (s0.ctx 0).running = false :=
  ⟨.inl (by decide +kernel), by decide +kernel⟩

theorem test_StepAndVoteComplete_9 :
    (s0.ctx 0).running = false
    ∧ (18446744073709551615#64).getLsbD 63 = true
    ∧ s0.ownsCounter 0 (bitsAt (18446744073709551615#64) 0 40) = false :=
  by decide +kernel

theorem test_StepAndVoteComplete_11 :
    s1.mayVote 0 = true
    ∧ s1.fld (F.sweepStatus.state 0) ≤ 4
    ∧ (forEach ((s1.ctx 0).masks ++ List.map s1.collapseMap []) (fun s m => s.maskRows 0 m) s1).slowGranules 0 = [] :=
  by decide +kernel

theorem test_StepAndVoteComplete_19 :
    (l4.ctx 0).phase = StepPhase.sweep
    ∧ (l4.ctx 0).installed = true
    ∧ (l4.ctx 0).started = false
    ∧ (l4.ctx 0).running = true
    ∧ l4.sweepsRun 0 = true
    ∧ l4.sweepReset = false
    ∧ l4.fld (F.sweepStatus.state 0) ≤ 4
    ∧ l4.inForce 0 (O.rootPrecondEn 0) (l4.stepOf 0) = 0 :=
  by decide +kernel

theorem test_StepAndVoteComplete_12 :
    v1.noPushWaits 0
    ∧ (v1.ctx 0).phase = StepPhase.voteWait
    ∧ v1.sweepsRun 0 = true
    ∧ voteFails (BitVec.ofNat 64 (5 * 2 ^ 16 + 5 * 2 ^ 40)) = false
    ∧ (v1.ctx 0).running = true
    ∧ (v1.ctx 0).install = none :=
  ⟨noPush_of (by decide +kernel), by decide +kernel⟩

theorem test_StepAndVoteComplete_13 :
    v1.noPushWaits 0
    ∧ v1.noneQueued
    ∧ v1.noBacklog
    ∧ (v1.ctx 0).phase = StepPhase.voteWait
    ∧ v1.sweepsRun 0 = true
    ∧ voteFails (BitVec.ofNat 64 (5 * 2 ^ 16 + 5 * 2 ^ 40 + 3)) = true
    ∧ (v1.ctx 0).running = true
    ∧ (v1.ctx 0).held = []
    ∧ v1.fld (F.sweepStatus.state 0) ≤ 4
    ∧ bitsAt (BitVec.ofNat 64 (5 * 2 ^ 16 + 5 * 2 ^ 40 + 3)) 16 24 = bitsAt (BitVec.ofNat 64 (5 * 2 ^ 16 + 5 * 2 ^ 40 + 3)) 40 24
    ∧ (v1.ctx 0).lossNan = none :=
  ⟨noPush_of (by decide +kernel), noneQueued_of (by decide +kernel), noBacklog_of (by decide +kernel), by decide +kernel⟩

theorem test_StepAndVoteComplete_14 :
    v3.noPushWaits 0
    ∧ v3.noneQueued
    ∧ v3.noBacklog
    ∧ (v3.ctx 0).phase = StepPhase.voteWait
    ∧ v3.sweepsRun 0 = true
    ∧ voteFails (BitVec.ofNat 64 (5 * 2 ^ 16 + 5 * 2 ^ 40 + 3)) = true
    ∧ (v3.ctx 0).running = true
    ∧ (v3.ctx 0).held = []
    ∧ v3.fld (F.sweepStatus.state 0) ≤ 4
    ∧ bitsAt (BitVec.ofNat 64 (5 * 2 ^ 16 + 5 * 2 ^ 40 + 3)) 16 24 = bitsAt (BitVec.ofNat 64 (5 * 2 ^ 16 + 5 * 2 ^ 40 + 3)) 40 24
    ∧ (v3.ctx 0).lossNan = some (true, some 3) :=
  ⟨noPush_of (by decide +kernel), noneQueued_of (by decide +kernel), noBacklog_of (by decide +kernel), by decide +kernel⟩

theorem test_StepAndVoteComplete_15 :
    v1.noPushWaits 0
    ∧ v1.noneQueued
    ∧ v1.noBacklog
    ∧ (v1.ctx 0).phase = StepPhase.voteWait
    ∧ v1.sweepsRun 0 = true
    ∧ voteFails (BitVec.ofNat 64 (5 * 2 ^ 16 + 7 * 2 ^ 40)) = true
    ∧ (v1.ctx 0).running = true
    ∧ (v1.ctx 0).held = []
    ∧ v1.fld (F.sweepStatus.state 0) ≤ 4
    ∧ bitsAt (BitVec.ofNat 64 (5 * 2 ^ 16 + 7 * 2 ^ 40)) 16 24 ≠ bitsAt (BitVec.ofNat 64 (5 * 2 ^ 16 + 7 * 2 ^ 40)) 40 24
    ∧ (v1.ctx 0).lossNan = none
    ∧ min (v1.fld (F.sweepStatus.skewRun 0) + 1) (2 ^ (F.sweepStatus.skewRun 0).width - 1) < v1.obj (O.skewLimit 0) :=
  ⟨noPush_of (by decide +kernel), noneQueued_of (by decide +kernel), noBacklog_of (by decide +kernel), by decide +kernel⟩

theorem test_StepAndVoteComplete_16 :
    v2.noPushWaits 0
    ∧ v2.noneQueued
    ∧ v2.noBacklog
    ∧ (v2.ctx 0).phase = StepPhase.voteWait
    ∧ v2.sweepsRun 0 = true
    ∧ voteFails (BitVec.ofNat 64 (5 * 2 ^ 16 + 7 * 2 ^ 40)) = true
    ∧ (v2.ctx 0).running = true
    ∧ (v2.ctx 0).held = []
    ∧ v2.fld (F.sweepStatus.state 0) ≤ 4
    ∧ bitsAt (BitVec.ofNat 64 (5 * 2 ^ 16 + 7 * 2 ^ 40)) 16 24 ≠ bitsAt (BitVec.ofNat 64 (5 * 2 ^ 16 + 7 * 2 ^ 40)) 40 24
    ∧ (v2.ctx 0).lossNan = none
    ∧ v2.obj (O.skewLimit 0) ≤ min (v2.fld (F.sweepStatus.skewRun 0) + 1) (2 ^ (F.sweepStatus.skewRun 0).width - 1) :=
  ⟨noPush_of (by decide +kernel), noneQueued_of (by decide +kernel), noBacklog_of (by decide +kernel), by decide +kernel⟩

theorem test_StepAndVoteComplete_17 :
    (v1.ctx 0).phase = StepPhase.voteWait :=
  by decide +kernel

theorem test_StepAndVoteComplete_18 :
    (s2.ctx 0).phase = StepPhase.sweep
    ∧ (s2.ctx 0).installed = false :=
  by decide +kernel

/-! Witnesses of `Obligations.ShardUpdateCompletes`, by clause. -/

theorem test_ShardUpdateCompletes_5 :
    (0, 0) ∈ (u1.ctx 0).slowRead
    ∧ (u1.ctx 0).sweeping = none :=
  by decide +kernel

theorem test_ShardUpdateCompletes_6 :
    (0, 0) ∈ (u6.ctx 0).slowRead
    ∧ (u6.ctx 0).sweeping = some { shard := 0, left := [0], dir := dir64 : Sweeping }
    ∧ u6.isSlow (u6.shard 0 0) 0 = true
    ∧ (u6.ctx 0).running = true
    ∧ (u6.ctx 0).phase = StepPhase.sweep
    ∧ u6.bit (F.sweepStatus.dueNow 0) = false :=
  by decide +kernel

theorem test_ShardUpdateCompletes_7 :
    (0, 0) ∈ (u1.ctx 0).slowRead :=
  by decide +kernel

theorem test_ShardUpdateCompletes_9 :
    (0, 0) ∈ (u4.ctx 0).slowWrite :=
  by decide +kernel

/-! Witnesses of `Obligations.GranuleUpdatesByTheRule`, by clause. -/

theorem test_GranuleUpdatesByTheRule_1 :
    inThermos (hs.mSel + 0 / 8) 1
    ∧ (hs.mSel + 0 / 8 < hs.weights (s1.stepOf 0 + 1) + 128 * 0 ∨ hs.weights (s1.stepOf 0 + 1) + 128 * 0 + 128 ≤ hs.mSel + 0 / 8)
    ∧ inThermos (hs.weights (s1.stepOf 0 + 1) + 128 * 0) 128
    ∧ inThermos (hs.momentum (1 - boolNat (s1.mapBit hs.mSel 0)) 0) 256
    ∧ (hs.weights (s1.stepOf 0 + 1) + 128 * 0 + 128 ≤ hs.momentum (1 - boolNat (s1.mapBit hs.mSel 0)) 0 ∨
      hs.momentum (1 - boolNat (s1.mapBit hs.mSel 0)) 0 + 256 ≤ hs.weights (s1.stepOf 0 + 1) + 128 * 0)
    ∧ hs.flags.testBit 1 = false
    ∧ 0 < 64 :=
  ⟨inThermos_of (by decide +kernel), .inr (by decide +kernel), inThermos_of (by decide +kernel), inThermos_of (by decide +kernel), .inl (by decide +kernel), by decide +kernel⟩

theorem test_GranuleUpdatesByTheRule_3 :
    inThermos (hs.mSel + 0 / 8) 1
    ∧ (hs.mSel + 0 / 8 < hs.weights (s1.stepOf 0 + 1) + 128 * 0 ∨ hs.weights (s1.stepOf 0 + 1) + 128 * 0 + 128 ≤ hs.mSel + 0 / 8)
    ∧ inThermos (hs.weights (s1.stepOf 0 + 1) + 128 * 0) 128
    ∧ inThermos (hs.momentum (1 - boolNat (s1.mapBit hs.mSel 0)) 0) 256
    ∧ (hs.weights (s1.stepOf 0 + 1) + 128 * 0 + 128 ≤ hs.momentum (1 - boolNat (s1.mapBit hs.mSel 0)) 0 ∨
      hs.momentum (1 - boolNat (s1.mapBit hs.mSel 0)) 0 + 256 ≤ hs.weights (s1.stepOf 0 + 1) + 128 * 0)
    ∧ (275414843648 < hs.weights (s1.stepOf 0 + 1) + 128 * 0 ∨ hs.weights (s1.stepOf 0 + 1) + 128 * 0 + 128 ≤ 275414843648)
    ∧ (275414843648 < hs.momentum (1 - boolNat (s1.mapBit hs.mSel 0)) 0 ∨
      hs.momentum (1 - boolNat (s1.mapBit hs.mSel 0)) 0 + 256 ≤ 275414843648)
    ∧ hs.flags.testBit 1 = false :=
  ⟨inThermos_of (by decide +kernel), .inr (by decide +kernel), inThermos_of (by decide +kernel), inThermos_of (by decide +kernel), .inl (by decide +kernel), .inr (by decide +kernel), .inl (by decide +kernel), by decide +kernel⟩

theorem test_GranuleUpdatesByTheRule_4 :
    inThermos (hs.mSel + 0 / 8) 1
    ∧ (hs.mSel + 0 / 8 < hs.weights (s1.stepOf 0 + 1) + 128 * 0 ∨ hs.weights (s1.stepOf 0 + 1) + 128 * 0 + 128 ≤ hs.mSel + 0 / 8)
    ∧ inThermos (hs.weights (s1.stepOf 0 + 1) + 128 * 0) 128
    ∧ inThermos (hs.momentum (1 - boolNat (s1.mapBit hs.mSel 0)) 0) 256
    ∧ (hs.weights (s1.stepOf 0 + 1) + 128 * 0 + 128 ≤ hs.momentum (1 - boolNat (s1.mapBit hs.mSel 0)) 0 ∨
      hs.momentum (1 - boolNat (s1.mapBit hs.mSel 0)) 0 + 256 ≤ hs.weights (s1.stepOf 0 + 1) + 128 * 0)
    ∧ hs.flags.testBit 1 = false :=
  ⟨inThermos_of (by decide +kernel), .inr (by decide +kernel), inThermos_of (by decide +kernel), inThermos_of (by decide +kernel), .inl (by decide +kernel), by decide +kernel⟩

/-! Witnesses of `Obligations.DigestsComplete`, by clause. -/

theorem test_DigestsComplete_1 :
    (dg DigestPhase.compare 3 2).noneQueued
    ∧ ((dg DigestPhase.compare 3 2).ctx 0).running = true
    ∧ (dg DigestPhase.compare 3 2).coreRuns 2 = true
    ∧ (dg DigestPhase.compare 3 2).fld (F.sweepStatus.state 0) ≤ 4
    ∧ ((dg DigestPhase.compare 3 2).readData ((dg DigestPhase.compare 3 2).shadowOf 0 ((dg DigestPhase.compare 3 2).shard 0 0)).fst
          ((dg DigestPhase.compare 3 2).shadowOf 0 ((dg DigestPhase.compare 3 2).shard 0 0)).snd).isSome =
      true
    ∧ (dg DigestPhase.compare 3 2).digestPhase 0 0 = some DigestPhase.compare
    ∧ 5#64 = ~~~~~~5#64 :=
  ⟨noneQueued_of (by decide +kernel), by decide +kernel⟩

theorem test_DigestsComplete_2 :
    (dg DigestPhase.compare 2 300).noneQueued
    ∧ ((dg DigestPhase.compare 2 300).ctx 0).running = true
    ∧ (dg DigestPhase.compare 2 300).coreRuns 2 = true
    ∧ (dg DigestPhase.compare 2 300).fld (F.sweepStatus.state 0) ≤ 4
    ∧ ((dg DigestPhase.compare 2 300).readData
          ((dg DigestPhase.compare 2 300).shadowOf 0 ((dg DigestPhase.compare 2 300).shard 0 0)).fst
          ((dg DigestPhase.compare 2 300).shadowOf 0 ((dg DigestPhase.compare 2 300).shard 0 0)).snd).isSome =
      true
    ∧ (dg DigestPhase.compare 2 300).digestPhase 0 0 = some DigestPhase.compare
    ∧ 5#64 ≠ ~~~5#64
    ∧ 1 < ((dg DigestPhase.compare 2 300).shard 0 0).runs :=
  ⟨noneQueued_of (by decide +kernel), by decide +kernel⟩

theorem test_DigestsComplete_3 :
    (dg DigestPhase.compare 3 2).noneQueued
    ∧ ((dg DigestPhase.compare 3 2).ctx 0).running = true
    ∧ (dg DigestPhase.compare 3 2).coreRuns 2 = true
    ∧ (dg DigestPhase.compare 3 2).fld (F.sweepStatus.state 0) ≤ 4
    ∧ ((dg DigestPhase.compare 3 2).readData ((dg DigestPhase.compare 3 2).shadowOf 0 ((dg DigestPhase.compare 3 2).shard 0 0)).fst
          ((dg DigestPhase.compare 3 2).shadowOf 0 ((dg DigestPhase.compare 3 2).shard 0 0)).snd).isSome =
      true
    ∧ (dg DigestPhase.compare 3 2).digestPhase 0 0 = some DigestPhase.compare
    ∧ 5#64 ≠ ~~~5#64
    ∧ ((dg DigestPhase.compare 3 2).shard 0 0).runs ≤ 1 :=
  ⟨noneQueued_of (by decide +kernel), by decide +kernel⟩

theorem test_DigestsComplete_4 :
    (dg (DigestPhase.recheck [0]) 3 2).noneQueued
    ∧ ((dg (DigestPhase.recheck [0]) 3 2).ctx 0).running = true
    ∧ (dg (DigestPhase.recheck [0]) 3 2).coreRuns 2 = true
    ∧ (dg (DigestPhase.recheck [0]) 3 2).fld (F.sweepStatus.state 0) ≤ 4
    ∧ ((dg (DigestPhase.recheck [0]) 3 2).readData
          ((dg (DigestPhase.recheck [0]) 3 2).shadowOf 0 ((dg (DigestPhase.recheck [0]) 3 2).shard 0 0)).fst
          ((dg (DigestPhase.recheck [0]) 3 2).shadowOf 0 ((dg (DigestPhase.recheck [0]) 3 2).shard 0 0)).snd).isSome =
      true
    ∧ (dg (DigestPhase.recheck [0]) 3 2).digestPhase 0 0 = some (DigestPhase.recheck [0])
    ∧ 5#64 = ~~~~~~5#64 :=
  ⟨noneQueued_of (by decide +kernel), by decide +kernel⟩

theorem test_DigestsComplete_5 :
    (dg (DigestPhase.recheck [0]) 3 2).noneQueued
    ∧ ((dg (DigestPhase.recheck [0]) 3 2).ctx 0).running = true
    ∧ (dg (DigestPhase.recheck [0]) 3 2).coreRuns 2 = true
    ∧ (dg (DigestPhase.recheck [0]) 3 2).fld (F.sweepStatus.state 0) ≤ 4
    ∧ ((dg (DigestPhase.recheck [0]) 3 2).readData
          ((dg (DigestPhase.recheck [0]) 3 2).shadowOf 0 ((dg (DigestPhase.recheck [0]) 3 2).shard 0 0)).fst
          ((dg (DigestPhase.recheck [0]) 3 2).shadowOf 0 ((dg (DigestPhase.recheck [0]) 3 2).shard 0 0)).snd).isSome =
      true
    ∧ (dg (DigestPhase.recheck [0]) 3 2).digestPhase 0 0 = some (DigestPhase.recheck [0])
    ∧ 5#64 ≠ ~~~5#64
    ∧ [0] ≠ [] :=
  ⟨noneQueued_of (by decide +kernel), by decide +kernel⟩

theorem test_DigestsComplete_6 :
    (dg (DigestPhase.bisect [(0, 3), (3, 2)] [7]) 2 300).noneQueued
    ∧ ((dg (DigestPhase.bisect [(0, 3), (3, 2)] [7]) 2 300).ctx 0).running = true
    ∧ (dg (DigestPhase.bisect [(0, 3), (3, 2)] [7]) 2 300).coreRuns 2 = true
    ∧ (dg (DigestPhase.bisect [(0, 3), (3, 2)] [7]) 2 300).fld (F.sweepStatus.state 0) ≤ 4
    ∧ ((dg (DigestPhase.bisect [(0, 3), (3, 2)] [7]) 2 300).readData
          ((dg (DigestPhase.bisect [(0, 3), (3, 2)] [7]) 2 300).shadowOf 0
              ((dg (DigestPhase.bisect [(0, 3), (3, 2)] [7]) 2 300).shard 0 0)).fst
          ((dg (DigestPhase.bisect [(0, 3), (3, 2)] [7]) 2 300).shadowOf 0
              ((dg (DigestPhase.bisect [(0, 3), (3, 2)] [7]) 2 300).shard 0 0)).snd).isSome =
      true
    ∧ (dg (DigestPhase.bisect [(0, 3), (3, 2)] [7]) 2 300).digestPhase 0 0 = some (DigestPhase.bisect [(0, 3), (3, 2)] [7]) :=
  ⟨noneQueued_of (by decide +kernel), by decide +kernel⟩

theorem test_DigestsComplete_7 :
    (dg (DigestPhase.read [1]) 2 300).noneQueued
    ∧ ((dg (DigestPhase.read [1]) 2 300).ctx 0).running = true
    ∧ (dg (DigestPhase.read [1]) 2 300).coreRuns 2 = true
    ∧ (dg (DigestPhase.read [1]) 2 300).fld (F.sweepStatus.state 0) ≤ 4
    ∧ ((dg (DigestPhase.read [1]) 2 300).readData
          ((dg (DigestPhase.read [1]) 2 300).shadowOf 0 ((dg (DigestPhase.read [1]) 2 300).shard 0 0)).fst
          ((dg (DigestPhase.read [1]) 2 300).shadowOf 0 ((dg (DigestPhase.read [1]) 2 300).shard 0 0)).snd).isSome =
      true
    ∧ (dg (DigestPhase.read [1]) 2 300).digestPhase 0 0 = some (DigestPhase.read [1])
    ∧ ((dg (DigestPhase.read [1]) 2 300).shard 0 0).replicas = 2 :=
  ⟨noneQueued_of (by decide +kernel), by decide +kernel⟩

theorem test_DigestsComplete_8 :
    (dg (DigestPhase.read [0]) 3 2).noneQueued
    ∧ inThermos (((dg (DigestPhase.read [0]) 3 2).shard 0 0).weights ((dg (DigestPhase.read [0]) 3 2).stepOf 0 + 1) + 8192 * 0)
      (((dg (DigestPhase.read [0]) 3 2).shard 0 0).runBytes 0)
    ∧ ((dg (DigestPhase.read [0]) 3 2).ctx 0).running = true
    ∧ (dg (DigestPhase.read [0]) 3 2).coreRuns 2 = true
    ∧ (dg (DigestPhase.read [0]) 3 2).fld (F.sweepStatus.state 0) ≤ 4
    ∧ ((dg (DigestPhase.read [0]) 3 2).readData
          ((dg (DigestPhase.read [0]) 3 2).shadowOf 0 ((dg (DigestPhase.read [0]) 3 2).shard 0 0)).fst
          ((dg (DigestPhase.read [0]) 3 2).shadowOf 0 ((dg (DigestPhase.read [0]) 3 2).shard 0 0)).snd).isSome =
      true
    ∧ (dg (DigestPhase.read [0]) 3 2).digestPhase 0 0 = some (DigestPhase.read [0])
    ∧ ((dg (DigestPhase.read [0]) 3 2).shard 0 0).replicas = 3
    ∧ (List.replicate 256 5).length = ((dg (DigestPhase.read [0]) 3 2).shard 0 0).runBytes 0
    ∧ ((dg (DigestPhase.read [0]) 3 2).shard 0 0).runBytes 0 % 2 = 0 :=
  ⟨noneQueued_of (by decide +kernel), inThermos_of (by decide +kernel), by decide +kernel⟩

/-! Witnesses of `Obligations.CommitCompletes`, by clause. -/

theorem test_CommitCompletes_6 :
    cl1.noneQueued
    ∧ cl1.noBacklog
    ∧ cl1.noPushWaits 0
    ∧ cl1.sweepsRun 0 = true
    ∧ cl1.fld (F.sweepStatus.state 0) ≤ 4
    ∧ (cl1.ctx 0).phase = StepPhase.commitWait
    ∧ (cl1.ctx 0).held = []
    ∧ commitFails (BitVec.ofNat 64 (5 * 2 ^ 16 + 5 * 2 ^ 40 + 3)) = true :=
  ⟨noneQueued_of (by decide +kernel), noBacklog_of (by decide +kernel), noPush_of (by decide +kernel), by decide +kernel⟩

theorem test_CommitCompletes_1 :
    cm.noneQueued
    ∧ cm.noBacklog
    ∧ cm.sweepsRun 0 = true
    ∧ cm.fld (F.sweepStatus.state 0) ≤ 4
    ∧ (cm.ctx 0).phase = StepPhase.sweep
    ∧ (cm.ctx 0).running = true
    ∧ cm.sweepDone 0 = true :=
  ⟨noneQueued_of (by decide +kernel), noBacklog_of (by decide +kernel), by decide +kernel⟩

theorem test_CommitCompletes_5 :
    cw.noneQueued
    ∧ cw.noBacklog
    ∧ cw.sweepsRun 0 = true
    ∧ cw.fld (F.sweepStatus.state 0) ≤ 4
    ∧ (cw.ctx 0).phase = StepPhase.commitWait
    ∧ (cw.ctx 0).held = []
    ∧ commitFails (BitVec.ofNat 64 (5 * 2 ^ 16 + 5 * 2 ^ 40)) = false
    ∧ cw.precondOn 0 = false :=
  ⟨noneQueued_of (by decide +kernel), noBacklog_of (by decide +kernel), by decide +kernel⟩

theorem test_CommitCompletes_6b :
    cw.noneQueued
    ∧ cw.noBacklog
    ∧ cw.noPushWaits 0
    ∧ cw.sweepsRun 0 = true
    ∧ cw.fld (F.sweepStatus.state 0) ≤ 4
    ∧ (cw.ctx 0).phase = StepPhase.commitWait
    ∧ (cw.ctx 0).held = []
    ∧ commitFails (BitVec.ofNat 64 (5 * 2 ^ 16 + 5 * 2 ^ 40 + 3)) = true :=
  ⟨noneQueued_of (by decide +kernel), noBacklog_of (by decide +kernel), noPush_of (by decide +kernel), by decide +kernel⟩

theorem test_CommitCompletes_7 :
    rb.noneQueued
    ∧ rb.noBacklog
    ∧ isCounterKey (rb.fld (F.qCfg.obj 0 3))
    ∧ QuietCounter rb (rb.fld (F.qCfg.obj 0 3))
    ∧ rb.sweepsRun 0 = true
    ∧ rb.fld (F.sweepStatus.state 0) ≤ 4
    ∧ (rb.ctx 0).rebase = true
    ∧ (rb.ctx 0).running = true
    ∧ rb.runningThreads 0 = []
    ∧ (rb.ctx 0).discardDue = false
    ∧ (rb.ctx 0).restart = []
    ∧ List.filter (fun k => rb.bit (F.qCfg.v 0 k)) (upto 16) = [3] :=
  ⟨noneQueued_of (by decide +kernel), noBacklog_of (by decide +kernel), isCounterKey_of (by decide +kernel), quiet_of (by decide +kernel), by decide +kernel⟩

/-! Witnesses of `Obligations.RefreshCompletes`, by clause. -/

theorem test_RefreshCompletes_1 :
    ((rf 0).ctx 0).running = true
    ∧ (rf 0).rootsRun 0 = true
    ∧ (rf 0).precondOn 0 = true
    ∧ ((rf 0).ctx 0).refreshDue = false :=
  by decide +kernel

/-- No shard goes before itself. -/
theorem not_first (s : State) (c i : Nat) : s.sweptFirst c i i = false := decide_eq_false (List.lt_irrefl _)

theorem pair_of {α β : Type} (x : α × β) : ∃ p d, x = (p, d) := ⟨x.1, x.2, rfl⟩

/-- The only shard is the next one. -/
theorem maySweep_of {s : State} {c : Nat} (h : s.shardCount c = 1 ∧ (!s.sweepReset && (s.ctx c).running && (s.ctx c).phase == .sweep && (s.ctx c).started
    && (s.ctx c).sweeping.isNone && !s.shardOver c 0) = true) : s.maySweep c 0 = true := by
  obtain ⟨n, h⟩ := h
  simp only [Bool.and_eq_true] at h
  simp [State.maySweep, h, n, upto, not_first]

theorem test_ShardUpdateCompletes_1 : u5.maySweep 0 0 = true ∧ u5.stagingHolds 0 0 = true :=
  ⟨maySweep_of (by decide +kernel), by decide +kernel⟩

theorem test_ShardUpdateCompletes_2 :
    u7.maySweep 0 0 = true
    ∧ u7.stagingHolds 0 0 = false
    ∧ (u7.ctx 0).stageFrom = none
    ∧ List.find? (fun a => (u7.readData a.fst a.snd).isNone) (u7.sweepInputs 0 0 (u7.shard 0 0) ([] ++ [])) = some (275414843648, 256) :=
  ⟨maySweep_of (by decide +kernel), by decide +kernel⟩

theorem test_ShardUpdateCompletes_3 :
    u1.noneQueued
    ∧ u1.maySweep 0 0 = true
    ∧ u1.stagingHolds 0 0 = false
    ∧ (u1.ctx 0).stageFrom = none
    ∧ (∀ (a : Nat × Nat), a ∈ u1.sweepInputs 0 0 (u1.shard 0 0) ([] ++ []) → (u1.readData a.fst a.snd).isSome = true)
    ∧ (u1.readData ((u1.shard 0 0).weights (u1.stepOf 0)) (128 * (u1.shard 0 0).ngran)).isSome = true
    ∧ u1.presentGranules (u1.shard 0 0) = [] ++ [0]
    ∧ (∀ q ∈ ([] : List Nat), u1.slowMissing 0 0 q = false ∧ (u1.momentumOf 0 0 (u1.shard 0 0) q).isSome = true)
    ∧ (∃ p d, u1.direction 0 (u1.shard 0 0) [1065353216#32, 1073741824#32] [] [] = (p, d))
    ∧ u1.slowMissing 0 0 0 = true :=
  ⟨noneQueued_of (by decide +kernel), maySweep_of (by decide +kernel), by decide +kernel, by decide +kernel, by decide +kernel, by decide +kernel, by decide +kernel, by decide +kernel, pair_of _, by decide +kernel⟩

theorem test_ShardUpdateCompletes_4 :
    u2.noneQueued
    ∧ u2.maySweep 0 0 = true
    ∧ u2.stagingHolds 0 0 = false
    ∧ (u2.ctx 0).stageFrom = none
    ∧ (∀ (a : Nat × Nat), a ∈ u2.sweepInputs 0 0 (u2.shard 0 0) ([] ++ []) → (u2.readData a.fst a.snd).isSome = true)
    ∧ (u2.readData ((u2.shard 0 0).weights (u2.stepOf 0)) (128 * (u2.shard 0 0).ngran)).isSome = true
    ∧ u2.presentGranules (u2.shard 0 0) = [0] ++ []
    ∧ (∀ (q : Nat), q ∈ [0] → u2.slowMissing 0 0 q = false ∧ (u2.momentumOf 0 0 (u2.shard 0 0) q).isSome = true)
    ∧ (∃ p d, u2.direction 0 (u2.shard 0 0) [1065353216#32, 1073741824#32] [] [] = (p, d)) :=
  ⟨noneQueued_of (by decide +kernel), maySweep_of (by decide +kernel), by decide +kernel, by decide +kernel, by decide +kernel, by decide +kernel, by decide +kernel, by decide +kernel, pair_of _⟩

theorem get_unlisted (l : Tab Byte) (k : Nat) (h : ∀ e ∈ l, e.1 ≠ k) : Tab.get memReset l k = 0 := by
  induction l with
  | nil => rfl
  | cons e r ih =>
    simp only [Tab.get, if_neg (h e (List.mem_cons_self ..))]
    exact ih fun x hx => h x (List.mem_cons_of_mem _ hx)

theorem leNat_zeros (n : Nat) : leNat (List.replicate n 0) = 0 := by
  induction n with
  | zero => rfl
  | succ n ih =>
    show 0 + 256 * leNat (List.replicate n 0) = 0
    rw [ih]

/-- A table whose first entry alone is not all zero lists one layer. -/
theorem layers_one {s : State} (tbl : s.obj (O.rootLayerTable 0) = 275146342400)
    (mem : ∀ x ∈ s.mem, x.1 < 275146342464 ∨ 275146473472 ≤ x.1) (first : s.layerSched 0 0 ≠ 0) : s.layers 0 = [0] := by
  have unlisted : ∀ k, 275146342400 + 64 ≤ k → k < 275146342400 + 64 * 2048 → s.dataByte k = 0 := by
    intro k lo hi
    have e : s.dataByte k = s.byte k := by
      have p : placeOf k = .thermos (thermosRoute k).1 (thermosRoute k).2 := by
        unfold placeOf
        repeat rw [if_neg (by omega)]
        rw [if_pos (by omega)]
      simp only [State.dataByte, p, memKey]
      rw [if_neg (by omega)]
    rw [e]
    refine get_unlisted _ _ fun x hx => ?_
    have := mem x hx
    omega
  have zero : ∀ l, l < 2047 → s.layerSched 0 (l + 1) = 0 := by
    intro l hl
    have a : s.layerAt 0 (l + 1) = 275146342400 + 64 * (l + 1) := by
      show s.obj (O.rootLayerTable 0) + 64 * (l + 1) = _
      rw [tbl]
    rw [State.layerSched, State.physNat, a, ← leNat_zeros 8]
    congr 1
    refine List.ext_getElem (by simp [upto]) fun i hi _ => ?_
    simp only [upto, List.length_map, List.length_range] at hi
    simp only [upto, List.getElem_map, List.getElem_range, List.getElem_replicate]
    exact unlisted _ (by omega) (by omega)
  have r : List.range 2048 = 0 :: (List.range 2047).map (· + 1) := List.range_succ_eq_map
  rw [State.layers, if_neg (by rw [tbl]; decide), upto, r, List.filter_cons, if_pos (by simpa using first), List.filter_eq_nil_iff.mpr]
  intro l hl
  simp only [List.mem_map, List.mem_range] at hl
  obtain ⟨m, hm, rfl⟩ := hl
  simp [zero m hm]

theorem rd0_layers : (rd 0).layers 0 = [0] := layers_one (by decide +kernel) (by decide +kernel) (by decide +kernel)

theorem rd1_layers : (rd 1).layers 0 = [0] := layers_one (by decide +kernel) (by decide +kernel) (by decide +kernel)

theorem test_RefreshCompletes_2 : inThermos ((rd 0).layerAt 0 0) 64
    ∧ List.filter (fun l => (rd 0).layerState 0 l == 0) ((rd 0).layers 0) = [0]
    ∧ ((rd 0).ctx 0).running = true ∧ (rd 0).rootsRun 0 = true ∧ (rd 0).precondOn 0 = true
    ∧ ((rd 0).ctx 0).forceCold = false ∧ ((rd 0).ctx 0).refreshDue = true ∧ (rd 0).refreshBlocks 0 0 false = [] :=
  ⟨inThermos_of (by decide +kernel), by rw [rd0_layers]; decide +kernel, by decide +kernel⟩

theorem test_RefreshCompletes_3 : inThermos ((rd 1).layerAt 0 0) 64
    ∧ List.filter (fun l => (rd 1).layerState 0 l == 0) ((rd 1).layers 0) = [0]
    ∧ ((rd 1).ctx 0).running = true ∧ (rd 1).rootsRun 0 = true ∧ (rd 1).precondOn 0 = true
    ∧ ((rd 1).ctx 0).forceCold = false ∧ ((rd 1).ctx 0).refreshDue = true
    ∧ (rd 1).refreshBlocks 0 0 false
      = [(0, (((rd 1).refreshBlocks 0 0 false).map (·.2)).headD { record := 0, ctx := 0, force := false, prev := 0, pend := 0, cap := 0 })] :=
  ⟨inThermos_of (by decide +kernel), by rw [rd1_layers]; decide +kernel, by decide +kernel⟩

theorem test_StepAndVoteComplete_20 :
    inThermos (l1.layerAt 0 0) 64
    ∧ (l1.ctx 0).phase = StepPhase.sweep
    ∧ (l1.ctx 0).installed = true
    ∧ (l1.ctx 0).started = false
    ∧ (l1.ctx 0).running = true
    ∧ l1.sweepsRun 0 = true
    ∧ l1.sweepReset = false
    ∧ l1.fld (F.sweepStatus.state 0) ≤ 4
    ∧ (l1.ctx 0).committed = []
    ∧ l1.precondOn 0 = true
    ∧ l1.layers 0 = [0]
    ∧ l1.layerState 0 0 = 2
    ∧ l1.layerUse 0 0 ≠ 2 :=
  ⟨inThermos_of (by decide +kernel), by decide +kernel, by decide +kernel, by decide +kernel, by decide +kernel, by decide +kernel, by decide +kernel, by decide +kernel, by decide +kernel, by decide +kernel,
    layers_one (by decide +kernel) (by decide +kernel) (by decide +kernel), by decide +kernel⟩

theorem test_StepAndVoteComplete_21 :
    inThermos (l2.layerAt 0 0) 64
    ∧ inThermos (l2.layerSched 0 0) 64
    ∧ (l2.ctx 0).phase = StepPhase.sweep
    ∧ (l2.ctx 0).installed = true
    ∧ (l2.ctx 0).started = false
    ∧ (l2.ctx 0).running = true
    ∧ l2.sweepsRun 0 = true
    ∧ l2.sweepReset = false
    ∧ l2.fld (F.sweepStatus.state 0) ≤ 4
    ∧ (l2.ctx 0).committed = []
    ∧ l2.precondOn 0 = true
    ∧ l2.layers 0 = [0]
    ∧ l2.layerState 0 0 = 1 :=
  ⟨inThermos_of (by decide +kernel), inThermos_of (by decide +kernel), by decide +kernel, by decide +kernel, by decide +kernel, by decide +kernel, by decide +kernel, by decide +kernel, by decide +kernel, by decide +kernel, by decide +kernel,
    layers_one (by decide +kernel) (by decide +kernel) (by decide +kernel), by decide +kernel⟩

theorem test_CommitCompletes_2 :
    cl1.noneQueued
    ∧ cl1.noBacklog
    ∧ inThermos (cl1.layerAt 0 0) 64
    ∧ inThermos (cl1.layerSched 0 0) 64
    ∧ cl1.sweepsRun 0 = true
    ∧ cl1.fld (F.sweepStatus.state 0) ≤ 4
    ∧ (cl1.ctx 0).phase = StepPhase.commitWait
    ∧ (cl1.ctx 0).held = []
    ∧ commitFails (BitVec.ofNat 64 (5 * 2 ^ 16 + 5 * 2 ^ 40)) = false
    ∧ cl1.precondOn 0 = true
    ∧ cl1.shardCount 0 = 0
    ∧ cl1.layers 0 = [0]
    ∧ cl1.layerState 0 0 = 3
    ∧ cl1.layerAt 0 0 + 64 ≤ cl1.layerSched 0 0 :=
  ⟨noneQueued_of (by decide +kernel), noBacklog_of (by decide +kernel), inThermos_of (by decide +kernel), inThermos_of (by decide +kernel), by decide +kernel, by decide +kernel, by decide +kernel, by decide +kernel, by decide +kernel, by decide +kernel, by decide +kernel,
    layers_one (by decide +kernel) (by decide +kernel) (by decide +kernel), by decide +kernel⟩

theorem test_CommitCompletes_3 :
    cl2.noneQueued
    ∧ cl2.noBacklog
    ∧ cl2.noPushWaits 0
    ∧ inThermos (cl2.layerAt 0 0) 64
    ∧ cl2.sweepsRun 0 = true
    ∧ cl2.fld (F.sweepStatus.state 0) ≤ 4
    ∧ (cl2.ctx 0).phase = StepPhase.commitWait
    ∧ (cl2.ctx 0).held = []
    ∧ commitFails (BitVec.ofNat 64 (5 * 2 ^ 16 + 5 * 2 ^ 40 + 3)) = true
    ∧ cl2.shardCount 0 = 0
    ∧ cl2.layers 0 = [0]
    ∧ cl2.layerState 0 0 ≠ 3
    ∧ (cl2.ctx 0).prov = [(0, 9, 1)]
    ∧ 9 < 256
    ∧ 1 < 256 :=
  ⟨noneQueued_of (by decide +kernel), noBacklog_of (by decide +kernel), noPush_of (by decide +kernel), inThermos_of (by decide +kernel), by decide +kernel, by decide +kernel, by decide +kernel, by decide +kernel, by decide +kernel, by decide +kernel,
    layers_one (by decide +kernel) (by decide +kernel) (by decide +kernel), by decide +kernel⟩

theorem test_CommitCompletes_4 :
    cl1.noneQueued
    ∧ cl1.noBacklog
    ∧ cl1.noPushWaits 0
    ∧ inThermos (cl1.layerAt 0 0) 64
    ∧ cl1.sweepsRun 0 = true
    ∧ cl1.fld (F.sweepStatus.state 0) ≤ 4
    ∧ (cl1.ctx 0).phase = StepPhase.commitWait
    ∧ (cl1.ctx 0).held = []
    ∧ commitFails (BitVec.ofNat 64 (5 * 2 ^ 16 + 5 * 2 ^ 40 + 3)) = true
    ∧ cl1.shardCount 0 = 0
    ∧ cl1.layers 0 = [0]
    ∧ cl1.layerState 0 0 = 3 :=
  ⟨noneQueued_of (by decide +kernel), noBacklog_of (by decide +kernel), noPush_of (by decide +kernel), inThermos_of (by decide +kernel), by decide +kernel, by decide +kernel, by decide +kernel, by decide +kernel, by decide +kernel, by decide +kernel,
    layers_one (by decide +kernel) (by decide +kernel) (by decide +kernel), by decide +kernel⟩

end W45

namespace W50

/-- An operand or a state of the witnesses below. -/
def pst (n : Nat) (s : State) : State := (s.setFld (F.portStatus.state 2) n).setBit (F.portCtl.enable 2) true
/-- An operand or a state of the witnesses below. -/
def at_s (n : Nat) (x : Port) : State := (pst n live).setPort 2 x
/-- An operand or a state of the witnesses below. -/
def prt : Port := { expect := 7, nextSeq := 9, replay := [{ flit := { seq := 8, type := 1 } }], txq := [{ flit := {} }], whole := 3 }
/-- An operand or a state of the witnesses below. -/
def closed (s : State) : State := s.setFld F.stileStatus.closed 15
/-- An operand or a state of the witnesses below. -/
def ctl (co port whole ver : Nat) : List Byte := leBytes 4 co ++ leBytes 1 port ++ leBytes 1 whole ++ leBytes 2 0 ++ leBytes 4 ver ++ ((upto 8).map fun v => leBytes 2 (100 + v)).flatten
/-- An operand or a state of the witnesses below. -/
def cf (co port whole ver : Nat) : WireFlit := wf { type := 3, first := true, last := true, len := (ctl co port whole ver).length, payload := ctl co port whole ver }
/-- An operand or a state of the witnesses below. -/
def hx : State := ((at_s psHandshake { prt with replay := [], txq := [] }).setFld F.torusDims.x 7).setFld F.stileStatus.closed 0
/-- An operand or a state of the witnesses below. -/
def hr : State := hx.setPort 2 { (hx.port 2) with retraining := true }
/-- An operand or a state of the witnesses below. -/
def las (n : Nat) (s : State) : State := { s with lasers := if n = 0 then [] else [(3, n), (19, n)] }
/-- An operand or a state of the witnesses below. -/
def wid (w half : Nat) (s : State) : State := fldsTo [(F.portStatus.width 2, w), (F.portCtl.halfOk 2, half)] s
/-- An operand or a state of the witnesses below. -/
def dfl (dest dirs seq : Nat) (first last : Bool) : Flit := { type := 1, vc := 1, first := first, last := last, seq := seq, ack := 8, crVc := 3, crCount := 5, len := 40, dest := dest, dirs := dirs, tag := 0x12345, payload := transportHeader 3 0 0 0 8 0x2000 4900000000000 0x12345 0 ++ leBytes 8 5 }
/-- An operand or a state of the witnesses below. -/
def ups (s : State) : State := fldsTo ((upto 8).map fun p => (F.portStatus.state p, psUp)) s
/-- An operand or a state of the witnesses below. -/
def du : State := (ups (fldsTo [(F.torusDims.x, 7), (F.torusDims.y, 7), (F.stileStatus.closed, 0)] live)).setPort 2 prt
/-- An operand or a state of the witnesses below. -/
def dn : State := du.setPort 2 { prt with nakOut := true }
/-- An operand or a state of the witnesses below. -/
def wtype (ty seq : Nat) : WireFlit := wf { dfl 0 0 seq true true with type := ty, ack := 6 }
/-- An operand or a state of the witnesses below. -/
def rp (n : Nat) (l : List Byte) : State := du.setPort 2 { prt with replay := [{ flit := { seq := 8, type := 1, payload := l, len := l.length }, fails := n }], nakOut := true }
/-- An operand or a state of the witnesses below. -/
def sx (moving closed pend : Nat) (s : State) : State := fldsTo [(F.stileStatus.moving, moving), (F.stileStatus.closed, closed), (F.stileStatus.openPending, pend)] s
/-- An operand or a state of the witnesses below. -/
def loops (s : State) : State := fldsTo ((upto 8).map fun p => (F.portStatus.state p, psLoop)) s

/-! Witnesses of `Obligations.TrainingAndHandshakeComplete`, by clause. -/

theorem test_TrainingAndHandshakeComplete_1 :
    (let __src := at_s psLaser prt;
          { pending := __src.pending, freeCount := __src.freeCount, out := __src.out, regs := __src.regs, mem := __src.mem,
            badWords := __src.badWords, threads := __src.threads, tiles := __src.tiles, ctxs := __src.ctxs, hamper := __src.hamper,
            roots := __src.roots, log := __src.log, hist := __src.hist, notices := __src.notices, faultLow := __src.faultLow,
            stopFrozen := __src.stopFrozen, vecCount := __src.vecCount, ports := __src.ports, coordKnown := __src.coordKnown,
            lasers := __src.lasers, stileAcks := __src.stileAcks, xfers := __src.xfers, nextTid := __src.nextTid,
            streams := __src.streams, launches := __src.launches, reassemblies := __src.reassemblies, rxWait := __src.rxWait,
            arrived := __src.arrived, accepted := __src.accepted, shardFailed := __src.shardFailed, lark := __src.lark,
            rings := __src.rings, intakes := __src.intakes, publishes := __src.publishes, d3hot := __src.d3hot, cfg := __src.cfg,
            maxRead := __src.maxRead, maxPayload := __src.maxPayload, scaleFail := __src.scaleFail, tileFail := __src.tileFail,
            objs := __src.objs, causes := __src.causes, fwCores := __src.fwCores, boot := __src.boot,
            bring :=
              let __src := live.bring;
              { mainOk := __src.mainOk, auxOk := __src.auxOk, resetN := __src.resetN, perst := __src.perst, pulse := __src.pulse,
                step := 3, released := __src.released, latched := __src.latched, pllFailed := __src.pllFailed,
                linkDone := __src.linkDone, trained := __src.trained, fails := __src.fails, tilesDone := __src.tilesDone,
                dieFailed := __src.dieFailed, warm := __src.warm, fwClosed := __src.fwClosed, held := __src.held,
                alive := __src.alive : Bring },
            fresets := __src.fresets, flash := __src.flash, ronbin := __src.ronbin : State }).mayTrain
        2 =
      false :=
  by decide +kernel

theorem test_TrainingAndHandshakeComplete_2 :
    (at_s psLaser prt).mayTrain 2 = true
    ∧ (at_s psLaser prt).portState 2 = psLaser :=
  by decide +kernel

theorem test_TrainingAndHandshakeComplete_3 :
    (at_s psDetect prt).mayTrain 2 = true
    ∧ (at_s psDetect prt).portState 2 = psDetect
    ∧ 3#2 ≠ 0 :=
  by decide +kernel

theorem test_TrainingAndHandshakeComplete_4 :
    (at_s psDetect prt).mayTrain 2 = true
    ∧ (at_s psDetect prt).portState 2 = psDetect
    ∧ 0#2 = 0 :=
  by decide +kernel

theorem test_TrainingAndHandshakeComplete_5 :
    (at_s psEqualise prt).mayTrain 2 = true
    ∧ (at_s psEqualise prt).portState 2 = psEqualise :=
  by decide +kernel

theorem test_TrainingAndHandshakeComplete_6 :
    (at_s psAlign prt).mayTrain 2 = true
    ∧ (at_s psAlign prt).portState 2 = psAlign :=
  by decide +kernel

theorem test_TrainingAndHandshakeComplete_7 :
    (at_s psHandshake prt).mayTrain 2 = true
    ∧ (at_s psHandshake prt).portState 2 = psHandshake
    ∧ (at_s psHandshake prt).stileClosed (portAxis 2) = true :=
  by decide +kernel

theorem test_TrainingAndHandshakeComplete_8 :
    (at_s psLaser prt).bring.step = 4
    ∧ isTraining ((at_s psLaser prt).portState 2) = true :=
  by decide +kernel

theorem test_TrainingAndHandshakeComplete_10 :
    (at_s psDown prt).bring.step = 4
    ∧ (at_s psDown prt).portState 2 = psDown
    ∧ (at_s psDown prt).bit (F.portCtl.enable 2) = true :=
  by decide +kernel

theorem test_TrainingAndHandshakeComplete_11 :
    goodCrc (cf (2 ^ 31 + 256) 3 3 linkVersion) = true
    ∧ (closed hx).portState 2 = psHandshake
    ∧ (fieldsOf (cf (2 ^ 31 + 256) 3 3 linkVersion)).type = 3
    ∧ (closed hx).stileClosed (portAxis 2) = true :=
  ⟨goodCrc_wf _, by decide +kernel⟩

theorem test_TrainingAndHandshakeComplete_12 :
    goodCrc (cf (2 ^ 31 + 256) 3 3 linkVersion) = true
    ∧ (natAt (fieldsOf (cf (2 ^ 31 + 256) 3 3 linkVersion)).payload 8 4 / 2 ^ 16 = linkVersion / 2 ^ 16 ∧
      (natAt (fieldsOf (cf (2 ^ 31 + 256) 3 3 linkVersion)).payload 4 1 = if 2 % 2 = 0 then 2 + 1 else 2 - 1) ∧
        ((natAt (fieldsOf (cf (2 ^ 31 + 256) 3 3 linkVersion)).payload 0 4).testBit 31 = true ∧ hx.coordKnown = true →
          hx.neighbourFits 2 (natAt (fieldsOf (cf (2 ^ 31 + 256) 3 3 linkVersion)).payload 0 4 % 2 ^ 17) = true))
    ∧ ((hx.port 2).retraining = false ∨
      ((natAt (fieldsOf (cf (2 ^ 31 + 256) 3 3 linkVersion)).payload 0 4).testBit 31 = true ∧ hx.coordKnown = true) ∧
        hx.newPartner 2 (natAt (fieldsOf (cf (2 ^ 31 + 256) 3 3 linkVersion)).payload 0 4 % 2 ^ 17)
            (natAt (fieldsOf (cf (2 ^ 31 + 256) 3 3 linkVersion)).payload 4 1) =
          true)
    ∧ hx.portState 2 = psHandshake
    ∧ (fieldsOf (cf (2 ^ 31 + 256) 3 3 linkVersion)).type = 3
    ∧ hx.stileClosed (portAxis 2) = false
    ∧ (hx.port 2).whole &&& natAt (fieldsOf (cf (2 ^ 31 + 256) 3 3 linkVersion)).payload 5 1 % 4 = 3
    ∧ hx.bit (F.portCtl.reinsertArm 2) = false :=
  ⟨goodCrc_wf _, ⟨by decide +kernel, ⟨by decide +kernel, fun _ => by decide +kernel⟩⟩, .inl (by decide +kernel), by decide +kernel⟩

theorem test_TrainingAndHandshakeComplete_13 :
    goodCrc (cf 0 3 3 linkVersion) = true
    ∧ (natAt (fieldsOf (cf 0 3 3 linkVersion)).payload 8 4 / 2 ^ 16 = linkVersion / 2 ^ 16 ∧
      (natAt (fieldsOf (cf 0 3 3 linkVersion)).payload 4 1 = if 2 % 2 = 0 then 2 + 1 else 2 - 1) ∧
        ((natAt (fieldsOf (cf 0 3 3 linkVersion)).payload 0 4).testBit 31 = true ∧ hr.coordKnown = true →
          hr.neighbourFits 2 (natAt (fieldsOf (cf 0 3 3 linkVersion)).payload 0 4 % 2 ^ 17) = true))
    ∧ hr.portState 2 = psHandshake
    ∧ (fieldsOf (cf 0 3 3 linkVersion)).type = 3
    ∧ hr.stileClosed (portAxis 2) = false
    ∧ (hr.port 2).whole &&& natAt (fieldsOf (cf 0 3 3 linkVersion)).payload 5 1 % 4 = 3
    ∧ hr.bit (F.portCtl.reinsertArm 2) = false
    ∧ (hr.port 2).retraining = true
    ∧ ¬(((natAt (fieldsOf (cf 0 3 3 linkVersion)).payload 0 4).testBit 31 = true ∧ hr.coordKnown = true) ∧
        hr.newPartner 2 (natAt (fieldsOf (cf 0 3 3 linkVersion)).payload 0 4 % 2 ^ 17)
            (natAt (fieldsOf (cf 0 3 3 linkVersion)).payload 4 1) =
          true)
    ∧ (fieldsOf (cf 0 3 3 linkVersion)).crCount = 0
    ∧ (hr.port 2).arming = false :=
  ⟨goodCrc_wf _, ⟨by decide +kernel, ⟨by decide +kernel, fun h => absurd h (by decide +kernel)⟩⟩, by decide +kernel⟩

theorem test_TrainingAndHandshakeComplete_14 :
    goodCrc (cf 0 3 3 (linkVersion + 65536)) = true
    ∧ hx.portState 2 = psHandshake
    ∧ (fieldsOf (cf 0 3 3 (linkVersion + 65536))).type = 3
    ∧ hx.stileClosed (portAxis 2) = false
    ∧ natAt (fieldsOf (cf 0 3 3 (linkVersion + 65536))).payload 8 4 / 2 ^ 16 ≠ linkVersion / 2 ^ 16 :=
  ⟨goodCrc_wf _, by decide +kernel⟩

theorem test_TrainingAndHandshakeComplete_15 :
    goodCrc (cf 0 2 3 linkVersion) = true
    ∧ hx.portState 2 = psHandshake
    ∧ (fieldsOf (cf 0 2 3 linkVersion)).type = 3
    ∧ hx.stileClosed (portAxis 2) = false
    ∧ natAt (fieldsOf (cf 0 2 3 linkVersion)).payload 8 4 / 2 ^ 16 = linkVersion / 2 ^ 16
    ∧ (¬natAt (fieldsOf (cf 0 2 3 linkVersion)).payload 4 1 = if 2 % 2 = 0 then 2 + 1 else 2 - 1) :=
  ⟨goodCrc_wf _, by decide +kernel⟩

/-! Witnesses of `Obligations.PortControlCompletes`, by clause. -/

theorem test_PortControlCompletes_1 :
    (live.setFld (F.portStatus.state 2) psDisabled).portState 2 = psDisabled
    ∧ (live.setFld (F.portStatus.state 2) psDisabled).ronbin.recovery = false :=
  by decide +kernel

theorem test_PortControlCompletes_2 :
    (wid 3 1 (at_s psUp prt)).portState 2 ≠ psDisabled :=
  by decide +kernel

theorem test_PortControlCompletes_3 :
    (wid 3 1 (at_s psUp prt)).portLive 2 = true :=
  by decide +kernel

theorem test_PortControlCompletes_5 :
    (at_s psUp
            (let __src := prt;
            { txq := __src.txq, replayAt := __src.replayAt, nextSeq := __src.nextSeq, expect := __src.expect,
              nakOut := __src.nakOut, owed := __src.owed, creditTurn := __src.creditTurn, frame := __src.frame,
              control := __src.control, overrun := __src.overrun, ledger := __src.ledger, swapFrame := __src.swapFrame,
              failReason := __src.failReason, retraining := __src.retraining, arming := __src.arming, whole := __src.whole,
              raised := __src.raised, exchange := __src.exchange, sentAt := __src.sentAt, partner := __src.partner,
              lost := __src.lost : Port })).portState
        2 =
      psUp
    ∧ ((at_s psUp
              (let __src := prt;
              { txq := __src.txq, replayAt := __src.replayAt, nextSeq := __src.nextSeq, expect := __src.expect,
                nakOut := __src.nakOut, owed := __src.owed, creditTurn := __src.creditTurn, frame := __src.frame,
                control := __src.control, overrun := __src.overrun, ledger := __src.ledger, swapFrame := __src.swapFrame,
                failReason := __src.failReason, retraining := __src.retraining, arming := __src.arming, whole := __src.whole,
                raised := __src.raised, exchange := __src.exchange, sentAt := __src.sentAt, partner := __src.partner,
                lost := __src.lost : Port })).port
          2).replay =
      [] :=
  by decide +kernel

theorem test_PortControlCompletes_6 :
    (wid 3 1 (at_s psUp prt)).portState 2 = psUp
    ∧ ((wid 3 1 (at_s psUp prt)).port 2).replay ≠ [] :=
  by decide +kernel

theorem test_PortControlCompletes_7 :
    (at_s psArmed prt).portState 2 = psArmed :=
  by decide +kernel

theorem test_PortControlCompletes_8 :
    ((wid 3 1 (at_s psUp prt)).portState 2 = psUp ∨ (wid 3 1 (at_s psUp prt)).portState 2 = psArmed)
    ∧ (wid 3 1 (at_s psUp prt)).fld (F.portStatus.width 2) = 3
    ∧ (wid 3 1 (at_s psUp prt)).bit (F.portCtl.halfOk 2) = true :=
  ⟨.inl (by decide +kernel), by decide +kernel⟩

theorem test_PortControlCompletes_9 :
    ((wid 3 0 (at_s psUp prt)).portState 2 = psUp ∨ (wid 3 0 (at_s psUp prt)).portState 2 = psArmed)
    ∧ ((wid 3 0 (at_s psUp prt)).fld (F.portStatus.width 2) ≠ 3 ∨ (wid 3 0 (at_s psUp prt)).bit (F.portCtl.halfOk 2) = false) :=
  ⟨.inl (by decide +kernel), .inr (by decide +kernel)⟩

theorem test_PortControlCompletes_10 :
    Tab.get (fun x => 0) (live.setFld (F.portStatus.state 2) psDisabled).lasers (16 * 0 + 3) = 0 :=
  by decide +kernel

theorem test_PortControlCompletes_11 :
    Tab.get (fun x => 0) (las 1 (at_s psUp prt)).lasers (16 * 0 + 3) = 1 :=
  by decide +kernel

/-! Witnesses of `Obligations.DataFlitCompletes`, by clause. -/

theorem test_DataFlitCompletes_1 :
    Receives du 2 1 (wf (dfl 0 0 7 true true)) (du.takeAck 2 (fieldsOf (wf (dfl 0 0 7 true true))))
    ∧ (fieldsOf (wf (dfl 0 0 7 true true))).seq = (du.port 2).expect
    ∧ du.nextAxis (fieldsOf (wf (dfl 0 0 7 true true))).dest = none
    ∧ (fieldsOf (wf (dfl 0 0 7 true true))).first = true
    ∧ (fieldsOf (wf (dfl 0 0 7 true true))).last = true
    ∧ du.rxWait = []
    ∧ du.reassemblies = [] :=
  ⟨receives_wf _ (by decide +kernel) (by decide +kernel), by decide +kernel⟩

theorem test_DataFlitCompletes_2 :
    Receives du 2 1 (wf (dfl 16 4 7 true true)) (du.takeAck 2 (fieldsOf (wf (dfl 16 4 7 true true))))
    ∧ (fieldsOf (wf (dfl 16 4 7 true true))).seq = (du.port 2).expect
    ∧ du.nextAxis (fieldsOf (wf (dfl 16 4 7 true true))).dest = some 2
    ∧ 2 * 2 + dirOf (fieldsOf (wf (dfl 16 4 7 true true))).dirs 2 ≠ 2
    ∧ (du.takeAck 2 (fieldsOf (wf (dfl 16 4 7 true true)))).portGone (2 * 2 + dirOf (fieldsOf (wf (dfl 16 4 7 true true))).dirs 2) =
      false
    ∧ du.stileClosed 2 = false :=
  ⟨receives_wf _ (by decide +kernel) (by decide +kernel), by decide +kernel⟩

theorem test_DataFlitCompletes_3 :
    goodCrc (badW (dfl 0 0 7 true true)) = false
    ∧ du.portLive 2 = true
    ∧ (du.port 2).nakOut = false :=
  ⟨goodCrc_badW _, by decide +kernel⟩

/-! Witnesses of `Obligations.AckAndCreditsTake`, by clause. -/

theorem test_AckAndCreditsTake_1 :
    (dfl 0 0 7 true true).crVc < 8
    ∧ (du.port 2).arming = false
    ∧ List.findIdx? (fun r => r.flit.seq == (dfl 0 0 7 true true).ack) (du.port 2).replay = some 0 :=
  by decide +kernel

theorem test_AckAndCreditsTake_2 :
    (let __src := dfl 0 0 7 true true;
        { type := __src.type, vc := __src.vc, first := __src.first, last := __src.last, seq := __src.seq, ack := 6,
          crVc := __src.crVc, len := __src.len, dest := __src.dest, dirs := __src.dirs, alt := __src.alt, poison := __src.poison,
          tag := __src.tag, payload := __src.payload : Flit }).crVc <
      8
    ∧ (du.port 2).arming = false
    ∧ List.findIdx?
        (fun r =>
          r.flit.seq ==
            (let __src := dfl 0 0 7 true true;
              { type := __src.type, vc := __src.vc, first := __src.first, last := __src.last, seq := __src.seq, ack := 6,
                crVc := __src.crVc, len := __src.len, dest := __src.dest, dirs := __src.dirs, alt := __src.alt,
                poison := __src.poison, tag := __src.tag, payload := __src.payload : Flit }).ack)
        (du.port 2).replay =
      none :=
  by decide +kernel

theorem test_AckAndCreditsTake_3 :
    (dfl 0 0 7 true true).crVc < 8
    ∧ (du.port 2).arming = false :=
  by decide +kernel

/-! Witnesses of `Obligations.LinkEventsComplete`, by clause. -/

theorem test_LinkEventsComplete_1 :
    Receives du 2 5 (wtype 5 0) (du.takeAck 2 (fieldsOf (wtype 5 0))) :=
  receives_wf _ (by decide +kernel) (by decide +kernel)

theorem test_LinkEventsComplete_2 :
    Receives du 2 3 (wtype 3 0) (du.takeAck 2 (fieldsOf (wtype 3 0))) :=
  receives_wf _ (by decide +kernel) (by decide +kernel)

theorem test_LinkEventsComplete_3 :
    Receives du 2 0 (wtype 0 0) (du.takeAck 2 (fieldsOf (wtype 0 0))) :=
  receives_wf _ (by decide +kernel) (by decide +kernel)

theorem test_LinkEventsComplete_4 :
    Receives du 2 6 (wtype 6 0) (du.takeAck 2 (fieldsOf (wtype 6 0)))
    ∧ 6 ≤ 6 :=
  ⟨receives_wf _ (by decide +kernel) (by decide +kernel), by decide +kernel⟩

theorem test_LinkEventsComplete_5 :
    ((du.setFld (F.portStatus.state 2) psHandshake).portState 2 = psHandshake ∨
      (du.setFld (F.portStatus.state 2) psHandshake).portState 2 = psLoop)
    ∧ goodCrc (wtype 6 0) = true
    ∧ 6 ≤ (fieldsOf (wtype 6 0)).type :=
  ⟨.inl (by decide +kernel), goodCrc_wf _, by decide +kernel⟩

theorem test_LinkEventsComplete_6 :
    Receives du 2 2 (wtype 2 8) (du.takeAck 2 (fieldsOf (wtype 2 8)))
    ∧ List.findIdx? (fun r => r.flit.seq == (fieldsOf (wtype 2 8)).seq) ((du.takeAck 2 (fieldsOf (wtype 2 8))).port 2).replay = some 0
    ∧ ((du.takeAck 2 (fieldsOf (wtype 2 8))).port 2).replay[0]? = some { flit := { type := 1, seq := 8 : Flit } : Sent }
    ∧ { flit := { type := 1, seq := 8 : Flit } : Sent }.fails < 2 :=
  ⟨receives_wf _ (by decide +kernel) (by decide +kernel), by decide +kernel⟩

theorem test_LinkEventsComplete_7 :
    du.portLive 2 = true :=
  by decide +kernel

theorem test_LinkEventsComplete_8 :
    hx.portState 2 = psHandshake ∨ hx.portState 2 = psLoop :=
  .inl (by decide +kernel)

theorem test_LinkEventsComplete_9 :
    du.portLive 2 = true
    ∧ (du.port 2).replay = [{ flit := { type := 1, seq := 8 : Flit } : Sent }]
    ∧ { flit := { type := 1, seq := 8 : Flit } : Sent }.fails < 2 :=
  by decide +kernel

theorem test_LinkEventsComplete_10 :
    (rp 2 [2]).portLive 2 = true
    ∧ ((rp 2 [2]).port 2).replay = [((rp 2 [2]).port 2).replay.headD { flit := { : Flit } : Sent }]
    ∧ (((rp 2 [2]).port 2).replay.headD { flit := { : Flit } : Sent }).fails = 2
    ∧ (((rp 2 [2]).port 2).replay.headD { flit := { : Flit } : Sent }).flit.poison = false :=
  by decide +kernel

theorem test_LinkEventsComplete_11 :
    dn.portLive 2 = true
    ∧ (dn.port 2).nakOut = true :=
  by decide +kernel

/-! Witnesses of `Obligations.StileCompletes`, by clause. -/

theorem test_StileCompletes_1 :
    true = true → (ups (sx 0 0 0 live)).dictServes O.stileClose = true :=
  fun _ => by decide +kernel

theorem test_StileCompletes_3 :
    (ups (sx 0 0 0 live)).fld F.stileStatus.openPending = 0 :=
  by decide +kernel

theorem test_StileCompletes_4 :
    ((loops (sx 0 15 5 live)).fld F.stileStatus.openPending).testBit 0 = true
    ∧ ((loops (sx 0 15 5 live)).stileAcks ||| (3#8).toNat).testBit (2 * 0) = true
    ∧ ((loops (sx 0 15 5 live)).stileAcks ||| (3#8).toNat).testBit (2 * 0 + 1) = true :=
  by decide +kernel

theorem test_StileCompletes_5 :
    ((loops (sx 0 15 5 live)).fld F.stileStatus.openPending).testBit 0 = true :=
  by decide +kernel

theorem test_StileCompletes_6 :
    (ups (sx 5 4 0 (fldsTo (List.map (fun p => (F.portCtl.enable p, 1)) (upto 8)) live))).stileMoving 0 = true :=
  by decide +kernel

end W50

namespace W51

/-- An operand or a state of the witnesses below. -/
def up1 (x : Port) (s : State) : State := (fldsTo ((upto 8).map (fun p => (F.portStatus.state p, psUp)) ++ [(F.stileStatus.closed, 0), (F.portVcCredit.val 2 1, 9), (F.portVcCredit.val 2 4, 9)]) s).setPort 2 x
/-- An operand or a state of the witnesses below. -/
def fr : Nat := live.now / framePs
/-- An operand or a state of the witnesses below. -/
def fl : Flit := { type := 1, vc := 1, first := true, last := true, len := 3, dest := 0x10, tag := 0x12345, payload := [1, 2, 3] }
/-- An operand or a state of the witnesses below. -/
def q4 : QFlit := { flit := { fl with vc := 4 } }
/-- An operand or a state of the witnesses below. -/
def q1 : QFlit := { flit := fl }
/-- An operand or a state of the witnesses below. -/
def p0 : Port := { frame := fr, expect := 7, nextSeq := 9 }
/-- An operand or a state of the witnesses below. -/
def sA : State := up1 p0 live
/-- An operand or a state of the witnesses below. -/
def sB : State := up1 { p0 with txq := [q1] } live
/-- An operand or a state of the witnesses below. -/
def sC : State := up1 { p0 with replay := [{ flit := { fl with seq := 3 } }, { flit := { fl with seq := 4 } }], replayAt := some 1 } live
/-- An operand or a state of the witnesses below. -/
def tab (b n : Nat) (s : State) : State := { s with mem := ((upto n).map fun i => (resEntry 2 b i, 2)) }
/-- An operand or a state of the witnesses below. -/
def sD : State := tab 0 8 sC
/-- An operand or a state of the witnesses below. -/
def sG : State := (tab 0 209 sC).setByte (resEntry 2 0 4095) 1
/-- An operand or a state of the witnesses below. -/
def sE : State := (tab 0 8 sB).setByte (resEntry 2 0 20) 1
/-- An operand or a state of the witnesses below. -/
def bk (s : State) : State := tab 1 210 s
/-- An operand or a state of the witnesses below. -/
def bp : State := (bk (up1 { p0 with swapFrame := fr } live)).setBit (F.resStatus.swapPending 2) true
/-- An operand or a state of the witnesses below. -/
def lk (s : State) : State := s.setFld F.larkGmCoord.val 0x120
/-- An operand or a state of the witnesses below. -/
def lU : State := (lk (up1 { p0 with exchange := 6 } (fldsTo [(F.torusDims.x, 7), (F.torusDims.y, 7)] live))).setPort 4 { exchange := 6, expect := 7 }
/-- An operand or a state of the witnesses below. -/
def tp (msg seq tx rx txq dist : Nat) : List Byte := leBytes 1 msg ++ leBytes 1 0 ++ leBytes 2 seq ++ leBytes 4 0x120 ++ leBytes 8 tx ++ leBytes 8 rx ++ leBytes 8 txq ++ leBytes 4 0 ++ leBytes 1 dist
/-- An operand or a state of the witnesses below. -/
def tpd : List Byte := (tp 0 3 100 0 0 2).set 1 2
/-- An operand or a state of the witnesses below. -/
def lG : State := ((lU.setBit F.larkCtl.gm true).setObj O.moduleCoordinate 0x130)
/-- An operand or a state of the witnesses below. -/
def lD : State := { (lU.setFld F.strapLatch.val 8) with coordKnown := false }
/-- An operand or a state of the witnesses below. -/
def tf (l : List Byte) : WireFlit := wf { type := 4, first := true, last := true, ack := 6, len := l.length, payload := l }
/-- An operand or a state of the witnesses below. -/
def pl (l : List (Fld × Nat)) : State := fldsTo l lU
/-- An operand or a state of the witnesses below. -/
def gm (l : List (Fld × Nat)) (t per : Nat) : State := regsTo [(R.larkTime, BitVec.ofNat 64 t), (R.larkEpochPeriod, BitVec.ofNat 64 per)] (fldsTo ([(F.larkCtl.gm, 1), (F.larkCtl.epochInEn, 1), (F.larkCtl.epochOutEn, 1)] ++ l) live)
/-- An operand or a state of the witnesses below. -/
def cnt : Nat := R.syncCount 0 3
/-- An operand or a state of the witnesses below. -/
def fcs (en obj start per bud : Nat) (x : Ctx) : State :=
  { (regsTo [(R.fcStart 0, BitVec.ofNat 64 start), (R.fcPeriod 0, BitVec.ofNat 64 per), (R.fcBudget 0, BitVec.ofNat 64 bud), (cnt, 2)] (fldsTo [(F.fcCtl.enable 0, en), (F.fcObj.val 0, obj), (F.genBatchObj.val 0, cnt + 8)] live)) with ctxs := [(0, x)] }
/-- An operand or a state of the witnesses below. -/
def r0 : Ctx := { running := true }
/-- An operand or a state of the witnesses below. -/
def frz : Ctx := { running := true, frozen := true }
/-- An operand or a state of the witnesses below. -/
def arm (t : Nat) : State := ((live.setBit (F.snapStatus.armed 0) true).setReg (R.snapTime 0) (BitVec.ofNat 64 t))

/-! Witnesses of `Obligations.SlotStartCompletes`, by clause. -/

theorem test_SlotStartCompletes_1 :
    sA.portLive 2 = true
    ∧ sA.stileMoving (portAxis 2) = false
    ∧ (sA.port 2).frame = sA.now / framePs
    ∧ sA.slotPick 2 (sA.now / framePs) 5 = none :=
  by decide +kernel

theorem test_SlotStartCompletes_2 :
    (up1
            (let __src := p0;
            { txq := [q4], replay := __src.replay, replayAt := __src.replayAt, nextSeq := __src.nextSeq, expect := __src.expect,
              nakOut := __src.nakOut, owed := __src.owed, creditTurn := __src.creditTurn, frame := __src.frame,
              control := __src.control, overrun := __src.overrun, ledger := __src.ledger, swapFrame := __src.swapFrame,
              failReason := __src.failReason, retraining := __src.retraining, arming := __src.arming, whole := __src.whole,
              raised := __src.raised, exchange := __src.exchange, sentAt := __src.sentAt, partner := __src.partner,
              lost := __src.lost : Port })
            live).portLive
        2 =
      true
    ∧ (up1
            (let __src := p0;
            { txq := [q4], replay := __src.replay, replayAt := __src.replayAt, nextSeq := __src.nextSeq, expect := __src.expect,
              nakOut := __src.nakOut, owed := __src.owed, creditTurn := __src.creditTurn, frame := __src.frame,
              control := __src.control, overrun := __src.overrun, ledger := __src.ledger, swapFrame := __src.swapFrame,
              failReason := __src.failReason, retraining := __src.retraining, arming := __src.arming, whole := __src.whole,
              raised := __src.raised, exchange := __src.exchange, sentAt := __src.sentAt, partner := __src.partner,
              lost := __src.lost : Port })
            live).stileMoving
        (portAxis 2) =
      false
    ∧ ((up1
              (let __src := p0;
              { txq := [q4], replay := __src.replay, replayAt := __src.replayAt, nextSeq := __src.nextSeq, expect := __src.expect,
                nakOut := __src.nakOut, owed := __src.owed, creditTurn := __src.creditTurn, frame := __src.frame,
                control := __src.control, overrun := __src.overrun, ledger := __src.ledger, swapFrame := __src.swapFrame,
                failReason := __src.failReason, retraining := __src.retraining, arming := __src.arming, whole := __src.whole,
                raised := __src.raised, exchange := __src.exchange, sentAt := __src.sentAt, partner := __src.partner,
                lost := __src.lost : Port })
              live).port
          2).frame =
      (up1
            (let __src := p0;
            { txq := [q4], replay := __src.replay, replayAt := __src.replayAt, nextSeq := __src.nextSeq, expect := __src.expect,
              nakOut := __src.nakOut, owed := __src.owed, creditTurn := __src.creditTurn, frame := __src.frame,
              control := __src.control, overrun := __src.overrun, ledger := __src.ledger, swapFrame := __src.swapFrame,
              failReason := __src.failReason, retraining := __src.retraining, arming := __src.arming, whole := __src.whole,
              raised := __src.raised, exchange := __src.exchange, sentAt := __src.sentAt, partner := __src.partner,
              lost := __src.lost : Port })
            live).now /
        framePs
    ∧ (up1
            (let __src := p0;
            { txq := [q4], replay := __src.replay, replayAt := __src.replayAt, nextSeq := __src.nextSeq, expect := __src.expect,
              nakOut := __src.nakOut, owed := __src.owed, creditTurn := __src.creditTurn, frame := __src.frame,
              control := __src.control, overrun := __src.overrun, ledger := __src.ledger, swapFrame := __src.swapFrame,
              failReason := __src.failReason, retraining := __src.retraining, arming := __src.arming, whole := __src.whole,
              raised := __src.raised, exchange := __src.exchange, sentAt := __src.sentAt, partner := __src.partner,
              lost := __src.lost : Port })
            live).slotPick
        2
        ((up1
              (let __src := p0;
              { txq := [q4], replay := __src.replay, replayAt := __src.replayAt, nextSeq := __src.nextSeq, expect := __src.expect,
                nakOut := __src.nakOut, owed := __src.owed, creditTurn := __src.creditTurn, frame := __src.frame,
                control := __src.control, overrun := __src.overrun, ledger := __src.ledger, swapFrame := __src.swapFrame,
                failReason := __src.failReason, retraining := __src.retraining, arming := __src.arming, whole := __src.whole,
                raised := __src.raised, exchange := __src.exchange, sentAt := __src.sentAt, partner := __src.partner,
                lost := __src.lost : Port })
              live).now /
          framePs)
        5 =
      some (SlotPick.queued 0)
    ∧ ((up1
                (let __src := p0;
                { txq := [q4], replay := __src.replay, replayAt := __src.replayAt, nextSeq := __src.nextSeq, expect := __src.expect,
                  nakOut := __src.nakOut, owed := __src.owed, creditTurn := __src.creditTurn, frame := __src.frame,
                  control := __src.control, overrun := __src.overrun, ledger := __src.ledger, swapFrame := __src.swapFrame,
                  failReason := __src.failReason, retraining := __src.retraining, arming := __src.arming, whole := __src.whole,
                  raised := __src.raised, exchange := __src.exchange, sentAt := __src.sentAt, partner := __src.partner,
                  lost := __src.lost : Port })
                live).port
            2).txq[0]? =
      some q4
    ∧ q4.flit.vc < 8 :=
  by decide +kernel

theorem test_SlotStartCompletes_3 :
    sG.portLive 2 = true
    ∧ sG.stileMoving (portAxis 2) = false
    ∧ (sG.port 2).frame = sG.now / framePs
    ∧ sG.slotPick 2 (sG.now / framePs) 5 = some SlotPick.replay
    ∧ (sG.port 2).replayAt = some 1
    ∧ (sG.port 2).replay[1]? =
      some
        {
          flit :=
            let __src := fl;
            { type := __src.type, vc := __src.vc, first := __src.first, last := __src.last, seq := 4, ack := __src.ack,
              crVc := __src.crVc, crCount := __src.crCount, len := __src.len, dest := __src.dest, dirs := __src.dirs,
              alt := __src.alt, poison := __src.poison, tag := __src.tag, payload := __src.payload : Flit } :
          Sent } :=
  by decide +kernel

theorem test_SlotStartCompletes_4 :
    sE.activeUse 2 20 = 1
    ∧ (sE.port 2).replayAt = none
    ∧ sE.portState 2 = psUp
    ∧ (sE.port 2).replay.length < 1024
    ∧ sE.pick 2 (isClass 0) = some 0 :=
  by decide +kernel

theorem test_SlotStartCompletes_5 :
    sG.activeUse 2 4095 = 1
    ∧ (sG.port 2).replayAt.isSome = true
    ∧ sG.reserveLeft 2 4095 = false
    ∧ sG.freeLeft 2 fr 4095 = false :=
  by decide +kernel

theorem test_SlotStartCompletes_6 :
    sG.activeUse 2 5 = 2
    ∧ (sG.port 2).replayAt.isSome = true :=
  by decide +kernel

theorem test_SlotStartCompletes_7 :
    sC.activeUse 2 5 = 0
    ∧ (sC.port 2).replayAt.isSome = true
    ∧ sC.reserveLeft 2 5 = false :=
  by decide +kernel

/-! Witnesses of `Obligations.BankSwapCompletes`, by clause. -/

theorem test_BankSwapCompletes_2 :
    (BitVec.ofNat 64 (fr + 1)).toNat ≤ sA.now / framePs ∨ sA.bankPasses 2 (1 - sA.fld (F.resStatus.active 2)) = false :=
  .inr (by decide +kernel)

theorem test_BankSwapCompletes_3 :
    sA.publishes = [] :=
  by decide +kernel

/-! Witnesses of `Obligations.LarkCompletes`, by clause. -/

theorem test_LarkCompletes_1 :
    lU.portLive 2 = true :=
  by decide +kernel

theorem test_LarkCompletes_2 :
    Receives lU 2 4 (tf (tp 0 3 100 0 0 2)) (lU.takeAck 2 (fieldsOf (tf (tp 0 3 100 0 0 2))))
    ∧ lU.discovers = false
    ∧ lU.isGm = false
    ∧ natAt (fieldsOf (tf (tp 0 3 100 0 0 2))).payload 0 1 = 0 :=
  ⟨receives_wf _ (by decide +kernel) (by decide +kernel), by decide +kernel⟩

theorem test_LarkCompletes_3 :
    Receives lU 4 4 (tf (tp 1 6 4999999000050 4999998999950 4999998000000 2))
      (lU.takeAck 4 (fieldsOf (tf (tp 1 6 4999999000050 4999998999950 4999998000000 2))))
    ∧ lU.discovers = false
    ∧ lU.isGm = false
    ∧ natAt (fieldsOf (tf (tp 1 6 4999999000050 4999998999950 4999998000000 2))).payload 0 1 = 1
    ∧ natAt (fieldsOf (tf (tp 1 6 4999999000050 4999998999950 4999998000000 2))).payload 2 2 = (lU.port 4).exchange
    ∧ lU.parentPort ≠ some 4 :=
  ⟨receives_wf _ (by decide +kernel) (by decide +kernel), by decide +kernel⟩

theorem test_LarkCompletes_4 :
    Receives
      (let __src := lU;
      { pending := __src.pending, freeCount := __src.freeCount, out := __src.out, regs := __src.regs, mem := __src.mem,
        badWords := __src.badWords, threads := __src.threads, tiles := __src.tiles, ctxs := __src.ctxs, hamper := __src.hamper,
        roots := __src.roots, log := __src.log, hist := __src.hist, notices := __src.notices, faultLow := __src.faultLow,
        stopFrozen := __src.stopFrozen, vecCount := __src.vecCount, ports := __src.ports, coordKnown := __src.coordKnown,
        lasers := __src.lasers, stileAcks := __src.stileAcks, xfers := __src.xfers, nextTid := __src.nextTid,
        streams := __src.streams, launches := __src.launches, reassemblies := __src.reassemblies, rxWait := __src.rxWait,
        arrived := __src.arrived, accepted := __src.accepted, shardFailed := __src.shardFailed,
        lark :=
          let __src := lU.lark;
          { fraction := __src.fraction, good := __src.good, alt := __src.alt, epochSeen := __src.epochSeen, relock := false,
            source := __src.source : Lark },
        rings := __src.rings, intakes := __src.intakes, publishes := __src.publishes, d3hot := __src.d3hot, cfg := __src.cfg,
        maxRead := __src.maxRead, maxPayload := __src.maxPayload, scaleFail := __src.scaleFail, tileFail := __src.tileFail,
        objs := __src.objs, causes := __src.causes, fwCores := __src.fwCores, boot := __src.boot, bring := __src.bring,
        fresets := __src.fresets, flash := __src.flash, ronbin := __src.ronbin : State })
      2 4 (tf (tp 1 6 4999999000050 4999998999950 4999998000000 2))
      ((let __src := lU;
          { pending := __src.pending, freeCount := __src.freeCount, out := __src.out, regs := __src.regs, mem := __src.mem,
            badWords := __src.badWords, threads := __src.threads, tiles := __src.tiles, ctxs := __src.ctxs, hamper := __src.hamper,
            roots := __src.roots, log := __src.log, hist := __src.hist, notices := __src.notices, faultLow := __src.faultLow,
            stopFrozen := __src.stopFrozen, vecCount := __src.vecCount, ports := __src.ports, coordKnown := __src.coordKnown,
            lasers := __src.lasers, stileAcks := __src.stileAcks, xfers := __src.xfers, nextTid := __src.nextTid,
            streams := __src.streams, launches := __src.launches, reassemblies := __src.reassemblies, rxWait := __src.rxWait,
            arrived := __src.arrived, accepted := __src.accepted, shardFailed := __src.shardFailed,
            lark :=
              let __src := lU.lark;
              { fraction := __src.fraction, good := __src.good, alt := __src.alt, epochSeen := __src.epochSeen, relock := false,
                source := __src.source : Lark },
            rings := __src.rings, intakes := __src.intakes, publishes := __src.publishes, d3hot := __src.d3hot, cfg := __src.cfg,
            maxRead := __src.maxRead, maxPayload := __src.maxPayload, scaleFail := __src.scaleFail, tileFail := __src.tileFail,
            objs := __src.objs, causes := __src.causes, fwCores := __src.fwCores, boot := __src.boot, bring := __src.bring,
            fresets := __src.fresets, flash := __src.flash, ronbin := __src.ronbin : State }).takeAck
        2 (fieldsOf (tf (tp 1 6 4999999000050 4999998999950 4999998000000 2))))
    ∧ (let __src := lU;
        { pending := __src.pending, freeCount := __src.freeCount, out := __src.out, regs := __src.regs, mem := __src.mem,
          badWords := __src.badWords, threads := __src.threads, tiles := __src.tiles, ctxs := __src.ctxs, hamper := __src.hamper,
          roots := __src.roots, log := __src.log, hist := __src.hist, notices := __src.notices, faultLow := __src.faultLow,
          stopFrozen := __src.stopFrozen, vecCount := __src.vecCount, ports := __src.ports, coordKnown := __src.coordKnown,
          lasers := __src.lasers, stileAcks := __src.stileAcks, xfers := __src.xfers, nextTid := __src.nextTid,
          streams := __src.streams, launches := __src.launches, reassemblies := __src.reassemblies, rxWait := __src.rxWait,
          arrived := __src.arrived, accepted := __src.accepted, shardFailed := __src.shardFailed,
          lark :=
            let __src := lU.lark;
            { fraction := __src.fraction, good := __src.good, alt := __src.alt, epochSeen := __src.epochSeen, relock := false,
              source := __src.source : Lark },
          rings := __src.rings, intakes := __src.intakes, publishes := __src.publishes, d3hot := __src.d3hot, cfg := __src.cfg,
          maxRead := __src.maxRead, maxPayload := __src.maxPayload, scaleFail := __src.scaleFail, tileFail := __src.tileFail,
          objs := __src.objs, causes := __src.causes, fwCores := __src.fwCores, boot := __src.boot, bring := __src.bring,
          fresets := __src.fresets, flash := __src.flash, ronbin := __src.ronbin : State }).discovers =
      false
    ∧ (let __src := lU;
        { pending := __src.pending, freeCount := __src.freeCount, out := __src.out, regs := __src.regs, mem := __src.mem,
          badWords := __src.badWords, threads := __src.threads, tiles := __src.tiles, ctxs := __src.ctxs, hamper := __src.hamper,
          roots := __src.roots, log := __src.log, hist := __src.hist, notices := __src.notices, faultLow := __src.faultLow,
          stopFrozen := __src.stopFrozen, vecCount := __src.vecCount, ports := __src.ports, coordKnown := __src.coordKnown,
          lasers := __src.lasers, stileAcks := __src.stileAcks, xfers := __src.xfers, nextTid := __src.nextTid,
          streams := __src.streams, launches := __src.launches, reassemblies := __src.reassemblies, rxWait := __src.rxWait,
          arrived := __src.arrived, accepted := __src.accepted, shardFailed := __src.shardFailed,
          lark :=
            let __src := lU.lark;
            { fraction := __src.fraction, good := __src.good, alt := __src.alt, epochSeen := __src.epochSeen, relock := false,
              source := __src.source : Lark },
          rings := __src.rings, intakes := __src.intakes, publishes := __src.publishes, d3hot := __src.d3hot, cfg := __src.cfg,
          maxRead := __src.maxRead, maxPayload := __src.maxPayload, scaleFail := __src.scaleFail, tileFail := __src.tileFail,
          objs := __src.objs, causes := __src.causes, fwCores := __src.fwCores, boot := __src.boot, bring := __src.bring,
          fresets := __src.fresets, flash := __src.flash, ronbin := __src.ronbin : State }).isGm =
      false
    ∧ natAt (fieldsOf (tf (tp 1 6 4999999000050 4999998999950 4999998000000 2))).payload 0 1 = 1
    ∧ natAt (fieldsOf (tf (tp 1 6 4999999000050 4999998999950 4999998000000 2))).payload 2 2 =
      ((let __src := lU;
            { pending := __src.pending, freeCount := __src.freeCount, out := __src.out, regs := __src.regs, mem := __src.mem,
              badWords := __src.badWords, threads := __src.threads, tiles := __src.tiles, ctxs := __src.ctxs,
              hamper := __src.hamper, roots := __src.roots, log := __src.log, hist := __src.hist, notices := __src.notices,
              faultLow := __src.faultLow, stopFrozen := __src.stopFrozen, vecCount := __src.vecCount, ports := __src.ports,
              coordKnown := __src.coordKnown, lasers := __src.lasers, stileAcks := __src.stileAcks, xfers := __src.xfers,
              nextTid := __src.nextTid, streams := __src.streams, launches := __src.launches, reassemblies := __src.reassemblies,
              rxWait := __src.rxWait, arrived := __src.arrived, accepted := __src.accepted, shardFailed := __src.shardFailed,
              lark :=
                let __src := lU.lark;
                { fraction := __src.fraction, good := __src.good, alt := __src.alt, epochSeen := __src.epochSeen, relock := false,
                  source := __src.source : Lark },
              rings := __src.rings, intakes := __src.intakes, publishes := __src.publishes, d3hot := __src.d3hot, cfg := __src.cfg,
              maxRead := __src.maxRead, maxPayload := __src.maxPayload, scaleFail := __src.scaleFail, tileFail := __src.tileFail,
              objs := __src.objs, causes := __src.causes, fwCores := __src.fwCores, boot := __src.boot, bring := __src.bring,
              fresets := __src.fresets, flash := __src.flash, ronbin := __src.ronbin : State }).port
          2).exchange
    ∧ (let __src := lU;
        { pending := __src.pending, freeCount := __src.freeCount, out := __src.out, regs := __src.regs, mem := __src.mem,
          badWords := __src.badWords, threads := __src.threads, tiles := __src.tiles, ctxs := __src.ctxs, hamper := __src.hamper,
          roots := __src.roots, log := __src.log, hist := __src.hist, notices := __src.notices, faultLow := __src.faultLow,
          stopFrozen := __src.stopFrozen, vecCount := __src.vecCount, ports := __src.ports, coordKnown := __src.coordKnown,
          lasers := __src.lasers, stileAcks := __src.stileAcks, xfers := __src.xfers, nextTid := __src.nextTid,
          streams := __src.streams, launches := __src.launches, reassemblies := __src.reassemblies, rxWait := __src.rxWait,
          arrived := __src.arrived, accepted := __src.accepted, shardFailed := __src.shardFailed,
          lark :=
            let __src := lU.lark;
            { fraction := __src.fraction, good := __src.good, alt := __src.alt, epochSeen := __src.epochSeen, relock := false,
              source := __src.source : Lark },
          rings := __src.rings, intakes := __src.intakes, publishes := __src.publishes, d3hot := __src.d3hot, cfg := __src.cfg,
          maxRead := __src.maxRead, maxPayload := __src.maxPayload, scaleFail := __src.scaleFail, tileFail := __src.tileFail,
          objs := __src.objs, causes := __src.causes, fwCores := __src.fwCores, boot := __src.boot, bring := __src.bring,
          fresets := __src.fresets, flash := __src.flash, ronbin := __src.ronbin : State }).parentPort =
      some 2
    ∧ natAt (fieldsOf (tf (tp 1 6 4999999000050 4999998999950 4999998000000 2))).payload 36 1 < 255
    ∧ (let __src := lU;
          { pending := __src.pending, freeCount := __src.freeCount, out := __src.out, regs := __src.regs, mem := __src.mem,
            badWords := __src.badWords, threads := __src.threads, tiles := __src.tiles, ctxs := __src.ctxs, hamper := __src.hamper,
            roots := __src.roots, log := __src.log, hist := __src.hist, notices := __src.notices, faultLow := __src.faultLow,
            stopFrozen := __src.stopFrozen, vecCount := __src.vecCount, ports := __src.ports, coordKnown := __src.coordKnown,
            lasers := __src.lasers, stileAcks := __src.stileAcks, xfers := __src.xfers, nextTid := __src.nextTid,
            streams := __src.streams, launches := __src.launches, reassemblies := __src.reassemblies, rxWait := __src.rxWait,
            arrived := __src.arrived, accepted := __src.accepted, shardFailed := __src.shardFailed,
            lark :=
              let __src := lU.lark;
              { fraction := __src.fraction, good := __src.good, alt := __src.alt, epochSeen := __src.epochSeen, relock := false,
                source := __src.source : Lark },
            rings := __src.rings, intakes := __src.intakes, publishes := __src.publishes, d3hot := __src.d3hot, cfg := __src.cfg,
            maxRead := __src.maxRead, maxPayload := __src.maxPayload, scaleFail := __src.scaleFail, tileFail := __src.tileFail,
            objs := __src.objs, causes := __src.causes, fwCores := __src.fwCores, boot := __src.boot, bring := __src.bring,
            fresets := __src.fresets, flash := __src.flash, ronbin := __src.ronbin : State }).fld
        F.larkStatus.state =
      2
    ∧ (let __src := lU;
          { pending := __src.pending, freeCount := __src.freeCount, out := __src.out, regs := __src.regs, mem := __src.mem,
            badWords := __src.badWords, threads := __src.threads, tiles := __src.tiles, ctxs := __src.ctxs, hamper := __src.hamper,
            roots := __src.roots, log := __src.log, hist := __src.hist, notices := __src.notices, faultLow := __src.faultLow,
            stopFrozen := __src.stopFrozen, vecCount := __src.vecCount, ports := __src.ports, coordKnown := __src.coordKnown,
            lasers := __src.lasers, stileAcks := __src.stileAcks, xfers := __src.xfers, nextTid := __src.nextTid,
            streams := __src.streams, launches := __src.launches, reassemblies := __src.reassemblies, rxWait := __src.rxWait,
            arrived := __src.arrived, accepted := __src.accepted, shardFailed := __src.shardFailed,
            lark :=
              let __src := lU.lark;
              { fraction := __src.fraction, good := __src.good, alt := __src.alt, epochSeen := __src.epochSeen, relock := false,
                source := __src.source : Lark },
            rings := __src.rings, intakes := __src.intakes, publishes := __src.publishes, d3hot := __src.d3hot, cfg := __src.cfg,
            maxRead := __src.maxRead, maxPayload := __src.maxPayload, scaleFail := __src.scaleFail, tileFail := __src.tileFail,
            objs := __src.objs, causes := __src.causes, fwCores := __src.fwCores, boot := __src.boot, bring := __src.bring,
            fresets := __src.fresets, flash := __src.flash, ronbin := __src.ronbin : State }).lark.relock =
      false
    ∧ ((↑(natAt (fieldsOf (tf (tp 1 6 4999999000050 4999998999950 4999998000000 2))).payload 16 8) : Int) -
            (↑(natAt (fieldsOf (tf (tp 1 6 4999999000050 4999998999950 4999998000000 2))).payload 24 8) : Int) -
          (((↑(5000000000000#64).toNat : Int) -
                  (↑(natAt (fieldsOf (tf (tp 1 6 4999999000050 4999998999950 4999998000000 2))).payload 24 8) : Int) -
                ((↑(natAt (fieldsOf (tf (tp 1 6 4999999000050 4999998999950 4999998000000 2))).payload 8 8) : Int) -
                  (↑(natAt (fieldsOf (tf (tp 1 6 4999999000050 4999998999950 4999998000000 2))).payload 16 8) : Int))) /
              2 +
            (BitVec.extractLsb' 0 32
                ((let __src := lU;
                    { pending := __src.pending, freeCount := __src.freeCount, out := __src.out, regs := __src.regs,
                      mem := __src.mem, badWords := __src.badWords, threads := __src.threads, tiles := __src.tiles,
                      ctxs := __src.ctxs, hamper := __src.hamper, roots := __src.roots, log := __src.log, hist := __src.hist,
                      notices := __src.notices, faultLow := __src.faultLow, stopFrozen := __src.stopFrozen,
                      vecCount := __src.vecCount, ports := __src.ports, coordKnown := __src.coordKnown, lasers := __src.lasers,
                      stileAcks := __src.stileAcks, xfers := __src.xfers, nextTid := __src.nextTid, streams := __src.streams,
                      launches := __src.launches, reassemblies := __src.reassemblies, rxWait := __src.rxWait,
                      arrived := __src.arrived, accepted := __src.accepted, shardFailed := __src.shardFailed,
                      lark :=
                        let __src := lU.lark;
                        { fraction := __src.fraction, good := __src.good, alt := __src.alt, epochSeen := __src.epochSeen,
                          relock := false, source := __src.source : Lark },
                      rings := __src.rings, intakes := __src.intakes, publishes := __src.publishes, d3hot := __src.d3hot,
                      cfg := __src.cfg, maxRead := __src.maxRead, maxPayload := __src.maxPayload, scaleFail := __src.scaleFail,
                      tileFail := __src.tileFail, objs := __src.objs, causes := __src.causes, fwCores := __src.fwCores,
                      boot := __src.boot, bring := __src.bring, fresets := __src.fresets, flash := __src.flash,
                      ronbin := __src.ronbin : State }).reg
                  (R.portAsym 2))).toInt)).natAbs ≤
      1000000 :=
  ⟨receives_wf _ (by decide +kernel) (by decide +kernel), by decide +kernel⟩

theorem test_LarkCompletes_5 :
    Receives lU 2 4 (tf (tp 1 6 4999999000100 4999999000000 4999998000000 2))
      (lU.takeAck 2 (fieldsOf (tf (tp 1 6 4999999000100 4999999000000 4999998000000 2))))
    ∧ (lU.lark.relock = true ∧
        (↑(natAt (fieldsOf (tf (tp 1 6 4999999000100 4999999000000 4999998000000 2))).payload 16 8) : Int) -
              (↑(natAt (fieldsOf (tf (tp 1 6 4999999000100 4999999000000 4999998000000 2))).payload 24 8) : Int) -
            (((↑(5000000000000#64).toNat : Int) -
                    (↑(natAt (fieldsOf (tf (tp 1 6 4999999000100 4999999000000 4999998000000 2))).payload 24 8) : Int) -
                  ((↑(natAt (fieldsOf (tf (tp 1 6 4999999000100 4999999000000 4999998000000 2))).payload 8 8) : Int) -
                    (↑(natAt (fieldsOf (tf (tp 1 6 4999999000100 4999999000000 4999998000000 2))).payload 16 8) : Int))) /
                2 +
              (BitVec.extractLsb' 0 32 (lU.reg (R.portAsym 2))).toInt) ≠
          0 ∨
      1000000 <
        ((↑(natAt (fieldsOf (tf (tp 1 6 4999999000100 4999999000000 4999998000000 2))).payload 16 8) : Int) -
              (↑(natAt (fieldsOf (tf (tp 1 6 4999999000100 4999999000000 4999998000000 2))).payload 24 8) : Int) -
            (((↑(5000000000000#64).toNat : Int) -
                    (↑(natAt (fieldsOf (tf (tp 1 6 4999999000100 4999999000000 4999998000000 2))).payload 24 8) : Int) -
                  ((↑(natAt (fieldsOf (tf (tp 1 6 4999999000100 4999999000000 4999998000000 2))).payload 8 8) : Int) -
                    (↑(natAt (fieldsOf (tf (tp 1 6 4999999000100 4999999000000 4999998000000 2))).payload 16 8) : Int))) /
                2 +
              (BitVec.extractLsb' 0 32 (lU.reg (R.portAsym 2))).toInt)).natAbs)
    ∧ lU.discovers = false
    ∧ lU.isGm = false
    ∧ natAt (fieldsOf (tf (tp 1 6 4999999000100 4999999000000 4999998000000 2))).payload 0 1 = 1
    ∧ natAt (fieldsOf (tf (tp 1 6 4999999000100 4999999000000 4999998000000 2))).payload 2 2 = (lU.port 2).exchange
    ∧ lU.parentPort = some 2
    ∧ natAt (fieldsOf (tf (tp 1 6 4999999000100 4999999000000 4999998000000 2))).payload 36 1 < 255 :=
  ⟨receives_wf _ (by decide +kernel) (by decide +kernel), .inl (⟨by decide +kernel, by decide +kernel⟩), by decide +kernel⟩

theorem test_LarkCompletes_6 :
    Receives lU 2 4 (tf (tp 1 6 4999999000050 4999998999950 4999998000000 2))
      (lU.takeAck 2 (fieldsOf (tf (tp 1 6 4999999000050 4999998999950 4999998000000 2))))
    ∧ lU.discovers = false
    ∧ lU.isGm = false
    ∧ natAt (fieldsOf (tf (tp 1 6 4999999000050 4999998999950 4999998000000 2))).payload 0 1 = 1
    ∧ natAt (fieldsOf (tf (tp 1 6 4999999000050 4999998999950 4999998000000 2))).payload 2 2 = (lU.port 2).exchange
    ∧ lU.parentPort = some 2
    ∧ natAt (fieldsOf (tf (tp 1 6 4999999000050 4999998999950 4999998000000 2))).payload 36 1 < 255
    ∧ ((↑(natAt (fieldsOf (tf (tp 1 6 4999999000050 4999998999950 4999998000000 2))).payload 16 8) : Int) -
            (↑(natAt (fieldsOf (tf (tp 1 6 4999999000050 4999998999950 4999998000000 2))).payload 24 8) : Int) -
          (((↑(5000000000000#64).toNat : Int) -
                  (↑(natAt (fieldsOf (tf (tp 1 6 4999999000050 4999998999950 4999998000000 2))).payload 24 8) : Int) -
                ((↑(natAt (fieldsOf (tf (tp 1 6 4999999000050 4999998999950 4999998000000 2))).payload 8 8) : Int) -
                  (↑(natAt (fieldsOf (tf (tp 1 6 4999999000050 4999998999950 4999998000000 2))).payload 16 8) : Int))) /
              2 +
            (BitVec.extractLsb' 0 32 (lU.reg (R.portAsym 2))).toInt)).natAbs ≤
      20 :=
  ⟨receives_wf _ (by decide +kernel) (by decide +kernel), by decide +kernel⟩

theorem test_LarkCompletes_7 :
    Receives lU 2 4 (tf (tp 1 6 4999999000100 4999999000000 4999998000000 2))
      (lU.takeAck 2 (fieldsOf (tf (tp 1 6 4999999000100 4999999000000 4999998000000 2))))
    ∧ lU.discovers = false
    ∧ lU.isGm = false
    ∧ natAt (fieldsOf (tf (tp 1 6 4999999000100 4999999000000 4999998000000 2))).payload 0 1 = 1
    ∧ natAt (fieldsOf (tf (tp 1 6 4999999000100 4999999000000 4999998000000 2))).payload 2 2 = (lU.port 2).exchange
    ∧ lU.parentPort = some 2
    ∧ natAt (fieldsOf (tf (tp 1 6 4999999000100 4999999000000 4999998000000 2))).payload 36 1 < 255
    ∧ 20 <
      ((↑(natAt (fieldsOf (tf (tp 1 6 4999999000100 4999999000000 4999998000000 2))).payload 16 8) : Int) -
            (↑(natAt (fieldsOf (tf (tp 1 6 4999999000100 4999999000000 4999998000000 2))).payload 24 8) : Int) -
          (((↑(5000000000000#64).toNat : Int) -
                  (↑(natAt (fieldsOf (tf (tp 1 6 4999999000100 4999999000000 4999998000000 2))).payload 24 8) : Int) -
                ((↑(natAt (fieldsOf (tf (tp 1 6 4999999000100 4999999000000 4999998000000 2))).payload 8 8) : Int) -
                  (↑(natAt (fieldsOf (tf (tp 1 6 4999999000100 4999999000000 4999998000000 2))).payload 16 8) : Int))) /
              2 +
            (BitVec.extractLsb' 0 32 (lU.reg (R.portAsym 2))).toInt)).natAbs :=
  ⟨receives_wf _ (by decide +kernel) (by decide +kernel), by decide +kernel⟩

theorem test_LarkCompletes_8 :
    Receives lG 2 4 (tf (tp 0 3 100 0 0 2)) (lG.takeAck 2 (fieldsOf (tf (tp 0 3 100 0 0 2))))
    ∧ natAt (fieldsOf (tf (tp 0 3 100 0 0 2))).payload 0 1 = 0
    ∧ lG.discovers = false
    ∧ lG.isGm = true
    ∧ natAt (fieldsOf (tf (tp 0 3 100 0 0 2))).payload 4 4 % 2 ^ 17 < lG.coord :=
  ⟨receives_wf _ (by decide +kernel) (by decide +kernel), by decide +kernel⟩

theorem test_LarkCompletes_10 :
    lU.isGm = false
    ∧ lU.parentVia false = some 2
    ∧ lU.portState 2 = psUp :=
  by decide +kernel

theorem test_LarkCompletes_11 :
    (let __src := pl [(F.portStatus.state 2, psDown), (F.portStatus.state 3, psDown)];
        { pending := __src.pending, freeCount := __src.freeCount, out := __src.out, regs := __src.regs, mem := __src.mem,
          badWords := __src.badWords, threads := __src.threads, tiles := __src.tiles, ctxs := __src.ctxs, hamper := __src.hamper,
          roots := __src.roots, log := __src.log, hist := __src.hist, notices := __src.notices, faultLow := __src.faultLow,
          stopFrozen := __src.stopFrozen, vecCount := __src.vecCount, ports := __src.ports, coordKnown := __src.coordKnown,
          lasers := __src.lasers, stileAcks := __src.stileAcks, xfers := __src.xfers, nextTid := __src.nextTid,
          streams := __src.streams, launches := __src.launches, reassemblies := __src.reassemblies, rxWait := __src.rxWait,
          arrived := __src.arrived, accepted := __src.accepted, shardFailed := __src.shardFailed, lark := { alt := true : Lark },
          rings := __src.rings, intakes := __src.intakes, publishes := __src.publishes, d3hot := __src.d3hot, cfg := __src.cfg,
          maxRead := __src.maxRead, maxPayload := __src.maxPayload, scaleFail := __src.scaleFail, tileFail := __src.tileFail,
          objs := __src.objs, causes := __src.causes, fwCores := __src.fwCores, boot := __src.boot, bring := __src.bring,
          fresets := __src.fresets, flash := __src.flash, ronbin := __src.ronbin : State }).isGm =
      false
    ∧ (let __src := pl [(F.portStatus.state 2, psDown), (F.portStatus.state 3, psDown)];
          { pending := __src.pending, freeCount := __src.freeCount, out := __src.out, regs := __src.regs, mem := __src.mem,
            badWords := __src.badWords, threads := __src.threads, tiles := __src.tiles, ctxs := __src.ctxs, hamper := __src.hamper,
            roots := __src.roots, log := __src.log, hist := __src.hist, notices := __src.notices, faultLow := __src.faultLow,
            stopFrozen := __src.stopFrozen, vecCount := __src.vecCount, ports := __src.ports, coordKnown := __src.coordKnown,
            lasers := __src.lasers, stileAcks := __src.stileAcks, xfers := __src.xfers, nextTid := __src.nextTid,
            streams := __src.streams, launches := __src.launches, reassemblies := __src.reassemblies, rxWait := __src.rxWait,
            arrived := __src.arrived, accepted := __src.accepted, shardFailed := __src.shardFailed, lark := { alt := true : Lark },
            rings := __src.rings, intakes := __src.intakes, publishes := __src.publishes, d3hot := __src.d3hot, cfg := __src.cfg,
            maxRead := __src.maxRead, maxPayload := __src.maxPayload, scaleFail := __src.scaleFail, tileFail := __src.tileFail,
            objs := __src.objs, causes := __src.causes, fwCores := __src.fwCores, boot := __src.boot, bring := __src.bring,
            fresets := __src.fresets, flash := __src.flash, ronbin := __src.ronbin : State }).parentVia
        false =
      some 2
    ∧ (let __src := pl [(F.portStatus.state 2, psDown), (F.portStatus.state 3, psDown)];
          { pending := __src.pending, freeCount := __src.freeCount, out := __src.out, regs := __src.regs, mem := __src.mem,
            badWords := __src.badWords, threads := __src.threads, tiles := __src.tiles, ctxs := __src.ctxs, hamper := __src.hamper,
            roots := __src.roots, log := __src.log, hist := __src.hist, notices := __src.notices, faultLow := __src.faultLow,
            stopFrozen := __src.stopFrozen, vecCount := __src.vecCount, ports := __src.ports, coordKnown := __src.coordKnown,
            lasers := __src.lasers, stileAcks := __src.stileAcks, xfers := __src.xfers, nextTid := __src.nextTid,
            streams := __src.streams, launches := __src.launches, reassemblies := __src.reassemblies, rxWait := __src.rxWait,
            arrived := __src.arrived, accepted := __src.accepted, shardFailed := __src.shardFailed, lark := { alt := true : Lark },
            rings := __src.rings, intakes := __src.intakes, publishes := __src.publishes, d3hot := __src.d3hot, cfg := __src.cfg,
            maxRead := __src.maxRead, maxPayload := __src.maxPayload, scaleFail := __src.scaleFail, tileFail := __src.tileFail,
            objs := __src.objs, causes := __src.causes, fwCores := __src.fwCores, boot := __src.boot, bring := __src.bring,
            fresets := __src.fresets, flash := __src.flash, ronbin := __src.ronbin : State }).portState
        2 ≠
      psUp
    ∧ (let __src := pl [(F.portStatus.state 2, psDown), (F.portStatus.state 3, psDown)];
          { pending := __src.pending, freeCount := __src.freeCount, out := __src.out, regs := __src.regs, mem := __src.mem,
            badWords := __src.badWords, threads := __src.threads, tiles := __src.tiles, ctxs := __src.ctxs, hamper := __src.hamper,
            roots := __src.roots, log := __src.log, hist := __src.hist, notices := __src.notices, faultLow := __src.faultLow,
            stopFrozen := __src.stopFrozen, vecCount := __src.vecCount, ports := __src.ports, coordKnown := __src.coordKnown,
            lasers := __src.lasers, stileAcks := __src.stileAcks, xfers := __src.xfers, nextTid := __src.nextTid,
            streams := __src.streams, launches := __src.launches, reassemblies := __src.reassemblies, rxWait := __src.rxWait,
            arrived := __src.arrived, accepted := __src.accepted, shardFailed := __src.shardFailed, lark := { alt := true : Lark },
            rings := __src.rings, intakes := __src.intakes, publishes := __src.publishes, d3hot := __src.d3hot, cfg := __src.cfg,
            maxRead := __src.maxRead, maxPayload := __src.maxPayload, scaleFail := __src.scaleFail, tileFail := __src.tileFail,
            objs := __src.objs, causes := __src.causes, fwCores := __src.fwCores, boot := __src.boot, bring := __src.bring,
            fresets := __src.fresets, flash := __src.flash, ronbin := __src.ronbin : State }).parentVia
        true =
      some 3
    ∧ (let __src := pl [(F.portStatus.state 2, psDown), (F.portStatus.state 3, psDown)];
          { pending := __src.pending, freeCount := __src.freeCount, out := __src.out, regs := __src.regs, mem := __src.mem,
            badWords := __src.badWords, threads := __src.threads, tiles := __src.tiles, ctxs := __src.ctxs, hamper := __src.hamper,
            roots := __src.roots, log := __src.log, hist := __src.hist, notices := __src.notices, faultLow := __src.faultLow,
            stopFrozen := __src.stopFrozen, vecCount := __src.vecCount, ports := __src.ports, coordKnown := __src.coordKnown,
            lasers := __src.lasers, stileAcks := __src.stileAcks, xfers := __src.xfers, nextTid := __src.nextTid,
            streams := __src.streams, launches := __src.launches, reassemblies := __src.reassemblies, rxWait := __src.rxWait,
            arrived := __src.arrived, accepted := __src.accepted, shardFailed := __src.shardFailed, lark := { alt := true : Lark },
            rings := __src.rings, intakes := __src.intakes, publishes := __src.publishes, d3hot := __src.d3hot, cfg := __src.cfg,
            maxRead := __src.maxRead, maxPayload := __src.maxPayload, scaleFail := __src.scaleFail, tileFail := __src.tileFail,
            objs := __src.objs, causes := __src.causes, fwCores := __src.fwCores, boot := __src.boot, bring := __src.bring,
            fresets := __src.fresets, flash := __src.flash, ronbin := __src.ronbin : State }).lark.alt =
      true :=
  by decide +kernel

theorem test_LarkCompletes_12 :
    (pl [(F.portStatus.state 2, psDown)]).isGm = false
    ∧ (pl [(F.portStatus.state 2, psDown)]).parentVia false = some 2
    ∧ (pl [(F.portStatus.state 2, psDown)]).portState 2 ≠ psUp
    ∧ (pl [(F.portStatus.state 2, psDown)]).parentVia true = some 3
    ∧ (pl [(F.portStatus.state 2, psDown)]).lark.alt = false
    ∧ (pl [(F.portStatus.state 2, psDown)]).portState 3 = psUp :=
  by decide +kernel

theorem test_LarkCompletes_13 :
    (pl [(F.portStatus.state 2, psDown), (F.portStatus.state 3, psDown), (F.larkStatus.state, 1)]).isGm = false
    ∧ (pl [(F.portStatus.state 2, psDown), (F.portStatus.state 3, psDown), (F.larkStatus.state, 1)]).parentVia false = some 2
    ∧ (pl [(F.portStatus.state 2, psDown), (F.portStatus.state 3, psDown), (F.larkStatus.state, 1)]).portState 2 ≠ psUp
    ∧ (pl [(F.portStatus.state 2, psDown), (F.portStatus.state 3, psDown), (F.larkStatus.state, 1)]).parentVia true = some 3
    ∧ (pl [(F.portStatus.state 2, psDown), (F.portStatus.state 3, psDown), (F.larkStatus.state, 1)]).portState 3 ≠ psUp
    ∧ (pl [(F.portStatus.state 2, psDown), (F.portStatus.state 3, psDown), (F.larkStatus.state, 1)]).fld F.larkStatus.state = 1
    ∧ (pl [(F.portStatus.state 2, psDown), (F.portStatus.state 3, psDown), (F.larkStatus.state, 1)]).fld F.larkStatus.depth = 0 :=
  by decide +kernel

theorem test_LarkCompletes_14 :
    ((pl [(F.portStatus.state 2, psDown), (F.portStatus.state 3, psDown)]).fld F.larkStatus.state = 2 ∨
      (pl [(F.portStatus.state 2, psDown), (F.portStatus.state 3, psDown)]).fld F.larkStatus.state = 1 ∧
        (pl [(F.portStatus.state 2, psDown), (F.portStatus.state 3, psDown)]).fld F.larkStatus.depth ≠ 0)
    ∧ (pl [(F.portStatus.state 2, psDown), (F.portStatus.state 3, psDown)]).isGm = false
    ∧ (pl [(F.portStatus.state 2, psDown), (F.portStatus.state 3, psDown)]).parentVia false = some 2
    ∧ (pl [(F.portStatus.state 2, psDown), (F.portStatus.state 3, psDown)]).portState 2 ≠ psUp
    ∧ (pl [(F.portStatus.state 2, psDown), (F.portStatus.state 3, psDown)]).parentVia true = some 3
    ∧ (pl [(F.portStatus.state 2, psDown), (F.portStatus.state 3, psDown)]).portState 3 ≠ psUp :=
  ⟨.inl (by decide +kernel), by decide +kernel⟩

theorem test_LarkCompletes_15 :
    (pl [(F.larkStatus.state, 3)]).fld F.larkStatus.state = 3 :=
  by decide +kernel

theorem test_LarkCompletes_16 :
    (gm [] 1000000500 1000000000).bit F.larkCtl.epochOutEn = true
    ∧ (gm [] 1000000500 1000000000).fld F.phaseStatus.phase = 2 :=
  by decide +kernel

theorem test_LarkCompletes_17 :
    (let __src := gm [] 1000000500 1000000000;
        { pending := __src.pending, freeCount := __src.freeCount, out := __src.out, regs := __src.regs, mem := __src.mem,
          badWords := __src.badWords, threads := __src.threads, tiles := __src.tiles, hamper := __src.hamper, roots := __src.roots,
          log := __src.log, hist := __src.hist, notices := __src.notices, faultLow := __src.faultLow,
          stopFrozen := __src.stopFrozen, vecCount := __src.vecCount, ports := __src.ports, coordKnown := __src.coordKnown,
          lasers := __src.lasers, stileAcks := __src.stileAcks, xfers := __src.xfers, nextTid := __src.nextTid,
          streams := __src.streams, launches := __src.launches, reassemblies := __src.reassemblies, rxWait := __src.rxWait,
          arrived := __src.arrived, accepted := __src.accepted, shardFailed := __src.shardFailed, lark := __src.lark,
          rings := __src.rings, intakes := __src.intakes, publishes := __src.publishes, d3hot := __src.d3hot, cfg := __src.cfg,
          maxRead := __src.maxRead, maxPayload := __src.maxPayload, scaleFail := __src.scaleFail, tileFail := __src.tileFail,
          objs := __src.objs, causes := __src.causes, fwCores := __src.fwCores, boot := __src.boot, bring := __src.bring,
          fresets := __src.fresets, flash := __src.flash, ronbin := __src.ronbin : State }).isGm =
      true
    ∧ (let __src := gm [] 1000000500 1000000000;
        { pending := __src.pending, freeCount := __src.freeCount, out := __src.out, regs := __src.regs, mem := __src.mem,
          badWords := __src.badWords, threads := __src.threads, tiles := __src.tiles, hamper := __src.hamper, roots := __src.roots,
          log := __src.log, hist := __src.hist, notices := __src.notices, faultLow := __src.faultLow,
          stopFrozen := __src.stopFrozen, vecCount := __src.vecCount, ports := __src.ports, coordKnown := __src.coordKnown,
          lasers := __src.lasers, stileAcks := __src.stileAcks, xfers := __src.xfers, nextTid := __src.nextTid,
          streams := __src.streams, launches := __src.launches, reassemblies := __src.reassemblies, rxWait := __src.rxWait,
          arrived := __src.arrived, accepted := __src.accepted, shardFailed := __src.shardFailed, lark := __src.lark,
          rings := __src.rings, intakes := __src.intakes, publishes := __src.publishes, d3hot := __src.d3hot, cfg := __src.cfg,
          maxRead := __src.maxRead, maxPayload := __src.maxPayload, scaleFail := __src.scaleFail, tileFail := __src.tileFail,
          objs := __src.objs, causes := __src.causes, fwCores := __src.fwCores, boot := __src.boot, bring := __src.bring,
          fresets := __src.fresets, flash := __src.flash, ronbin := __src.ronbin : State }).anyRunning =
      false :=
  by decide +kernel

theorem test_LarkCompletes_18 :
    (gm [] 1000000500 1000000000).isGm = true
    ∧ (gm [] 1000000500 1000000000).bit F.larkCtl.epochInEn = true
    ∧ (gm [] 1000000500 1000000000).fld F.phaseStatus.phase = 2
    ∧ (gm [] 1000000500 1000000000).reg R.larkEpochPeriod ≠ 0
    ∧ (gm [] 1000000500 1000000000).lark.epochSeen = false :=
  by decide +kernel

theorem test_LarkCompletes_19 :
    (let __src := gm [] 1999999500 1000000000;
        { pending := __src.pending, freeCount := __src.freeCount, out := __src.out, regs := __src.regs, mem := __src.mem,
          badWords := __src.badWords, threads := __src.threads, tiles := __src.tiles, ctxs := __src.ctxs, hamper := __src.hamper,
          roots := __src.roots, log := __src.log, hist := __src.hist, notices := __src.notices, faultLow := __src.faultLow,
          stopFrozen := __src.stopFrozen, vecCount := __src.vecCount, ports := __src.ports, coordKnown := __src.coordKnown,
          lasers := __src.lasers, stileAcks := __src.stileAcks, xfers := __src.xfers, nextTid := __src.nextTid,
          streams := __src.streams, launches := __src.launches, reassemblies := __src.reassemblies, rxWait := __src.rxWait,
          arrived := __src.arrived, accepted := __src.accepted, shardFailed := __src.shardFailed,
          lark := { epochSeen := true : Lark }, rings := __src.rings, intakes := __src.intakes, publishes := __src.publishes,
          d3hot := __src.d3hot, cfg := __src.cfg, maxRead := __src.maxRead, maxPayload := __src.maxPayload,
          scaleFail := __src.scaleFail, tileFail := __src.tileFail, objs := __src.objs, causes := __src.causes,
          fwCores := __src.fwCores, boot := __src.boot, bring := __src.bring, fresets := __src.fresets, flash := __src.flash,
          ronbin := __src.ronbin : State }).isGm =
      true
    ∧ (let __src := gm [] 1999999500 1000000000;
          { pending := __src.pending, freeCount := __src.freeCount, out := __src.out, regs := __src.regs, mem := __src.mem,
            badWords := __src.badWords, threads := __src.threads, tiles := __src.tiles, ctxs := __src.ctxs, hamper := __src.hamper,
            roots := __src.roots, log := __src.log, hist := __src.hist, notices := __src.notices, faultLow := __src.faultLow,
            stopFrozen := __src.stopFrozen, vecCount := __src.vecCount, ports := __src.ports, coordKnown := __src.coordKnown,
            lasers := __src.lasers, stileAcks := __src.stileAcks, xfers := __src.xfers, nextTid := __src.nextTid,
            streams := __src.streams, launches := __src.launches, reassemblies := __src.reassemblies, rxWait := __src.rxWait,
            arrived := __src.arrived, accepted := __src.accepted, shardFailed := __src.shardFailed,
            lark := { epochSeen := true : Lark }, rings := __src.rings, intakes := __src.intakes, publishes := __src.publishes,
            d3hot := __src.d3hot, cfg := __src.cfg, maxRead := __src.maxRead, maxPayload := __src.maxPayload,
            scaleFail := __src.scaleFail, tileFail := __src.tileFail, objs := __src.objs, causes := __src.causes,
            fwCores := __src.fwCores, boot := __src.boot, bring := __src.bring, fresets := __src.fresets, flash := __src.flash,
            ronbin := __src.ronbin : State }).bit
        F.larkCtl.epochInEn =
      true
    ∧ (let __src := gm [] 1999999500 1000000000;
          { pending := __src.pending, freeCount := __src.freeCount, out := __src.out, regs := __src.regs, mem := __src.mem,
            badWords := __src.badWords, threads := __src.threads, tiles := __src.tiles, ctxs := __src.ctxs, hamper := __src.hamper,
            roots := __src.roots, log := __src.log, hist := __src.hist, notices := __src.notices, faultLow := __src.faultLow,
            stopFrozen := __src.stopFrozen, vecCount := __src.vecCount, ports := __src.ports, coordKnown := __src.coordKnown,
            lasers := __src.lasers, stileAcks := __src.stileAcks, xfers := __src.xfers, nextTid := __src.nextTid,
            streams := __src.streams, launches := __src.launches, reassemblies := __src.reassemblies, rxWait := __src.rxWait,
            arrived := __src.arrived, accepted := __src.accepted, shardFailed := __src.shardFailed,
            lark := { epochSeen := true : Lark }, rings := __src.rings, intakes := __src.intakes, publishes := __src.publishes,
            d3hot := __src.d3hot, cfg := __src.cfg, maxRead := __src.maxRead, maxPayload := __src.maxPayload,
            scaleFail := __src.scaleFail, tileFail := __src.tileFail, objs := __src.objs, causes := __src.causes,
            fwCores := __src.fwCores, boot := __src.boot, bring := __src.bring, fresets := __src.fresets, flash := __src.flash,
            ronbin := __src.ronbin : State }).fld
        F.phaseStatus.phase =
      2
    ∧ (let __src := gm [] 1999999500 1000000000;
          { pending := __src.pending, freeCount := __src.freeCount, out := __src.out, regs := __src.regs, mem := __src.mem,
            badWords := __src.badWords, threads := __src.threads, tiles := __src.tiles, ctxs := __src.ctxs, hamper := __src.hamper,
            roots := __src.roots, log := __src.log, hist := __src.hist, notices := __src.notices, faultLow := __src.faultLow,
            stopFrozen := __src.stopFrozen, vecCount := __src.vecCount, ports := __src.ports, coordKnown := __src.coordKnown,
            lasers := __src.lasers, stileAcks := __src.stileAcks, xfers := __src.xfers, nextTid := __src.nextTid,
            streams := __src.streams, launches := __src.launches, reassemblies := __src.reassemblies, rxWait := __src.rxWait,
            arrived := __src.arrived, accepted := __src.accepted, shardFailed := __src.shardFailed,
            lark := { epochSeen := true : Lark }, rings := __src.rings, intakes := __src.intakes, publishes := __src.publishes,
            d3hot := __src.d3hot, cfg := __src.cfg, maxRead := __src.maxRead, maxPayload := __src.maxPayload,
            scaleFail := __src.scaleFail, tileFail := __src.tileFail, objs := __src.objs, causes := __src.causes,
            fwCores := __src.fwCores, boot := __src.boot, bring := __src.bring, fresets := __src.fresets, flash := __src.flash,
            ronbin := __src.ronbin : State }).reg
        R.larkEpochPeriod ≠
      0
    ∧ (let __src := gm [] 1999999500 1000000000;
          { pending := __src.pending, freeCount := __src.freeCount, out := __src.out, regs := __src.regs, mem := __src.mem,
            badWords := __src.badWords, threads := __src.threads, tiles := __src.tiles, ctxs := __src.ctxs, hamper := __src.hamper,
            roots := __src.roots, log := __src.log, hist := __src.hist, notices := __src.notices, faultLow := __src.faultLow,
            stopFrozen := __src.stopFrozen, vecCount := __src.vecCount, ports := __src.ports, coordKnown := __src.coordKnown,
            lasers := __src.lasers, stileAcks := __src.stileAcks, xfers := __src.xfers, nextTid := __src.nextTid,
            streams := __src.streams, launches := __src.launches, reassemblies := __src.reassemblies, rxWait := __src.rxWait,
            arrived := __src.arrived, accepted := __src.accepted, shardFailed := __src.shardFailed,
            lark := { epochSeen := true : Lark }, rings := __src.rings, intakes := __src.intakes, publishes := __src.publishes,
            d3hot := __src.d3hot, cfg := __src.cfg, maxRead := __src.maxRead, maxPayload := __src.maxPayload,
            scaleFail := __src.scaleFail, tileFail := __src.tileFail, objs := __src.objs, causes := __src.causes,
            fwCores := __src.fwCores, boot := __src.boot, bring := __src.bring, fresets := __src.fresets, flash := __src.flash,
            ronbin := __src.ronbin : State }).lark.epochSeen =
      true
    ∧ (if
            2 *
                ((let __src := gm [] 1999999500 1000000000;
                    { pending := __src.pending, freeCount := __src.freeCount, out := __src.out, regs := __src.regs,
                      mem := __src.mem, badWords := __src.badWords, threads := __src.threads, tiles := __src.tiles,
                      ctxs := __src.ctxs, hamper := __src.hamper, roots := __src.roots, log := __src.log, hist := __src.hist,
                      notices := __src.notices, faultLow := __src.faultLow, stopFrozen := __src.stopFrozen,
                      vecCount := __src.vecCount, ports := __src.ports, coordKnown := __src.coordKnown, lasers := __src.lasers,
                      stileAcks := __src.stileAcks, xfers := __src.xfers, nextTid := __src.nextTid, streams := __src.streams,
                      launches := __src.launches, reassemblies := __src.reassemblies, rxWait := __src.rxWait,
                      arrived := __src.arrived, accepted := __src.accepted, shardFailed := __src.shardFailed,
                      lark := { epochSeen := true : Lark }, rings := __src.rings, intakes := __src.intakes,
                      publishes := __src.publishes, d3hot := __src.d3hot, cfg := __src.cfg, maxRead := __src.maxRead,
                      maxPayload := __src.maxPayload, scaleFail := __src.scaleFail, tileFail := __src.tileFail, objs := __src.objs,
                      causes := __src.causes, fwCores := __src.fwCores, boot := __src.boot, bring := __src.bring,
                      fresets := __src.fresets, flash := __src.flash, ronbin := __src.ronbin : State }).now %
                  BitVec.toNat
                    ((let __src := gm [] 1999999500 1000000000;
                        { pending := __src.pending, freeCount := __src.freeCount, out := __src.out, regs := __src.regs,
                          mem := __src.mem, badWords := __src.badWords, threads := __src.threads, tiles := __src.tiles,
                          ctxs := __src.ctxs, hamper := __src.hamper, roots := __src.roots, log := __src.log, hist := __src.hist,
                          notices := __src.notices, faultLow := __src.faultLow, stopFrozen := __src.stopFrozen,
                          vecCount := __src.vecCount, ports := __src.ports, coordKnown := __src.coordKnown, lasers := __src.lasers,
                          stileAcks := __src.stileAcks, xfers := __src.xfers, nextTid := __src.nextTid, streams := __src.streams,
                          launches := __src.launches, reassemblies := __src.reassemblies, rxWait := __src.rxWait,
                          arrived := __src.arrived, accepted := __src.accepted, shardFailed := __src.shardFailed,
                          lark := { epochSeen := true : Lark }, rings := __src.rings, intakes := __src.intakes,
                          publishes := __src.publishes, d3hot := __src.d3hot, cfg := __src.cfg, maxRead := __src.maxRead,
                          maxPayload := __src.maxPayload, scaleFail := __src.scaleFail, tileFail := __src.tileFail,
                          objs := __src.objs, causes := __src.causes, fwCores := __src.fwCores, boot := __src.boot,
                          bring := __src.bring, fresets := __src.fresets, flash := __src.flash, ronbin := __src.ronbin :
                          State }).reg
                      R.larkEpochPeriod)) <
              BitVec.toNat
                ((let __src := gm [] 1999999500 1000000000;
                    { pending := __src.pending, freeCount := __src.freeCount, out := __src.out, regs := __src.regs,
                      mem := __src.mem, badWords := __src.badWords, threads := __src.threads, tiles := __src.tiles,
                      ctxs := __src.ctxs, hamper := __src.hamper, roots := __src.roots, log := __src.log, hist := __src.hist,
                      notices := __src.notices, faultLow := __src.faultLow, stopFrozen := __src.stopFrozen,
                      vecCount := __src.vecCount, ports := __src.ports, coordKnown := __src.coordKnown, lasers := __src.lasers,
                      stileAcks := __src.stileAcks, xfers := __src.xfers, nextTid := __src.nextTid, streams := __src.streams,
                      launches := __src.launches, reassemblies := __src.reassemblies, rxWait := __src.rxWait,
                      arrived := __src.arrived, accepted := __src.accepted, shardFailed := __src.shardFailed,
                      lark := { epochSeen := true : Lark }, rings := __src.rings, intakes := __src.intakes,
                      publishes := __src.publishes, d3hot := __src.d3hot, cfg := __src.cfg, maxRead := __src.maxRead,
                      maxPayload := __src.maxPayload, scaleFail := __src.scaleFail, tileFail := __src.tileFail, objs := __src.objs,
                      causes := __src.causes, fwCores := __src.fwCores, boot := __src.boot, bring := __src.bring,
                      fresets := __src.fresets, flash := __src.flash, ronbin := __src.ronbin : State }).reg
                  R.larkEpochPeriod) then
          -(↑((let __src := gm [] 1999999500 1000000000;
                    { pending := __src.pending, freeCount := __src.freeCount, out := __src.out, regs := __src.regs,
                      mem := __src.mem, badWords := __src.badWords, threads := __src.threads, tiles := __src.tiles,
                      ctxs := __src.ctxs, hamper := __src.hamper, roots := __src.roots, log := __src.log, hist := __src.hist,
                      notices := __src.notices, faultLow := __src.faultLow, stopFrozen := __src.stopFrozen,
                      vecCount := __src.vecCount, ports := __src.ports, coordKnown := __src.coordKnown, lasers := __src.lasers,
                      stileAcks := __src.stileAcks, xfers := __src.xfers, nextTid := __src.nextTid, streams := __src.streams,
                      launches := __src.launches, reassemblies := __src.reassemblies, rxWait := __src.rxWait,
                      arrived := __src.arrived, accepted := __src.accepted, shardFailed := __src.shardFailed,
                      lark := { epochSeen := true : Lark }, rings := __src.rings, intakes := __src.intakes,
                      publishes := __src.publishes, d3hot := __src.d3hot, cfg := __src.cfg, maxRead := __src.maxRead,
                      maxPayload := __src.maxPayload, scaleFail := __src.scaleFail, tileFail := __src.tileFail, objs := __src.objs,
                      causes := __src.causes, fwCores := __src.fwCores, boot := __src.boot, bring := __src.bring,
                      fresets := __src.fresets, flash := __src.flash, ronbin := __src.ronbin : State }).now %
                  BitVec.toNat
                    ((let __src := gm [] 1999999500 1000000000;
                        { pending := __src.pending, freeCount := __src.freeCount, out := __src.out, regs := __src.regs,
                          mem := __src.mem, badWords := __src.badWords, threads := __src.threads, tiles := __src.tiles,
                          ctxs := __src.ctxs, hamper := __src.hamper, roots := __src.roots, log := __src.log, hist := __src.hist,
                          notices := __src.notices, faultLow := __src.faultLow, stopFrozen := __src.stopFrozen,
                          vecCount := __src.vecCount, ports := __src.ports, coordKnown := __src.coordKnown, lasers := __src.lasers,
                          stileAcks := __src.stileAcks, xfers := __src.xfers, nextTid := __src.nextTid, streams := __src.streams,
                          launches := __src.launches, reassemblies := __src.reassemblies, rxWait := __src.rxWait,
                          arrived := __src.arrived, accepted := __src.accepted, shardFailed := __src.shardFailed,
                          lark := { epochSeen := true : Lark }, rings := __src.rings, intakes := __src.intakes,
                          publishes := __src.publishes, d3hot := __src.d3hot, cfg := __src.cfg, maxRead := __src.maxRead,
                          maxPayload := __src.maxPayload, scaleFail := __src.scaleFail, tileFail := __src.tileFail,
                          objs := __src.objs, causes := __src.causes, fwCores := __src.fwCores, boot := __src.boot,
                          bring := __src.bring, fresets := __src.fresets, flash := __src.flash, ronbin := __src.ronbin :
                          State }).reg
                      R.larkEpochPeriod)) :
              Int)
        else
          (↑(BitVec.toNat
                  ((let __src := gm [] 1999999500 1000000000;
                      { pending := __src.pending, freeCount := __src.freeCount, out := __src.out, regs := __src.regs,
                        mem := __src.mem, badWords := __src.badWords, threads := __src.threads, tiles := __src.tiles,
                        ctxs := __src.ctxs, hamper := __src.hamper, roots := __src.roots, log := __src.log, hist := __src.hist,
                        notices := __src.notices, faultLow := __src.faultLow, stopFrozen := __src.stopFrozen,
                        vecCount := __src.vecCount, ports := __src.ports, coordKnown := __src.coordKnown, lasers := __src.lasers,
                        stileAcks := __src.stileAcks, xfers := __src.xfers, nextTid := __src.nextTid, streams := __src.streams,
                        launches := __src.launches, reassemblies := __src.reassemblies, rxWait := __src.rxWait,
                        arrived := __src.arrived, accepted := __src.accepted, shardFailed := __src.shardFailed,
                        lark := { epochSeen := true : Lark }, rings := __src.rings, intakes := __src.intakes,
                        publishes := __src.publishes, d3hot := __src.d3hot, cfg := __src.cfg, maxRead := __src.maxRead,
                        maxPayload := __src.maxPayload, scaleFail := __src.scaleFail, tileFail := __src.tileFail,
                        objs := __src.objs, causes := __src.causes, fwCores := __src.fwCores, boot := __src.boot,
                        bring := __src.bring, fresets := __src.fresets, flash := __src.flash, ronbin := __src.ronbin : State }).reg
                    R.larkEpochPeriod) -
                (let __src := gm [] 1999999500 1000000000;
                    { pending := __src.pending, freeCount := __src.freeCount, out := __src.out, regs := __src.regs,
                      mem := __src.mem, badWords := __src.badWords, threads := __src.threads, tiles := __src.tiles,
                      ctxs := __src.ctxs, hamper := __src.hamper, roots := __src.roots, log := __src.log, hist := __src.hist,
                      notices := __src.notices, faultLow := __src.faultLow, stopFrozen := __src.stopFrozen,
                      vecCount := __src.vecCount, ports := __src.ports, coordKnown := __src.coordKnown, lasers := __src.lasers,
                      stileAcks := __src.stileAcks, xfers := __src.xfers, nextTid := __src.nextTid, streams := __src.streams,
                      launches := __src.launches, reassemblies := __src.reassemblies, rxWait := __src.rxWait,
                      arrived := __src.arrived, accepted := __src.accepted, shardFailed := __src.shardFailed,
                      lark := { epochSeen := true : Lark }, rings := __src.rings, intakes := __src.intakes,
                      publishes := __src.publishes, d3hot := __src.d3hot, cfg := __src.cfg, maxRead := __src.maxRead,
                      maxPayload := __src.maxPayload, scaleFail := __src.scaleFail, tileFail := __src.tileFail, objs := __src.objs,
                      causes := __src.causes, fwCores := __src.fwCores, boot := __src.boot, bring := __src.bring,
                      fresets := __src.fresets, flash := __src.flash, ronbin := __src.ronbin : State }).now %
                  BitVec.toNat
                    ((let __src := gm [] 1999999500 1000000000;
                        { pending := __src.pending, freeCount := __src.freeCount, out := __src.out, regs := __src.regs,
                          mem := __src.mem, badWords := __src.badWords, threads := __src.threads, tiles := __src.tiles,
                          ctxs := __src.ctxs, hamper := __src.hamper, roots := __src.roots, log := __src.log, hist := __src.hist,
                          notices := __src.notices, faultLow := __src.faultLow, stopFrozen := __src.stopFrozen,
                          vecCount := __src.vecCount, ports := __src.ports, coordKnown := __src.coordKnown, lasers := __src.lasers,
                          stileAcks := __src.stileAcks, xfers := __src.xfers, nextTid := __src.nextTid, streams := __src.streams,
                          launches := __src.launches, reassemblies := __src.reassemblies, rxWait := __src.rxWait,
                          arrived := __src.arrived, accepted := __src.accepted, shardFailed := __src.shardFailed,
                          lark := { epochSeen := true : Lark }, rings := __src.rings, intakes := __src.intakes,
                          publishes := __src.publishes, d3hot := __src.d3hot, cfg := __src.cfg, maxRead := __src.maxRead,
                          maxPayload := __src.maxPayload, scaleFail := __src.scaleFail, tileFail := __src.tileFail,
                          objs := __src.objs, causes := __src.causes, fwCores := __src.fwCores, boot := __src.boot,
                          bring := __src.bring, fresets := __src.fresets, flash := __src.flash, ronbin := __src.ronbin :
                          State }).reg
                      R.larkEpochPeriod)) :
            Int)).natAbs ≤
      1000000 :=
  by decide +kernel

theorem test_LarkCompletes_20 :
    (let __src := gm [] 1500000000 1000000000;
        { pending := __src.pending, freeCount := __src.freeCount, out := __src.out, regs := __src.regs, mem := __src.mem,
          badWords := __src.badWords, threads := __src.threads, tiles := __src.tiles, ctxs := __src.ctxs, hamper := __src.hamper,
          roots := __src.roots, log := __src.log, hist := __src.hist, notices := __src.notices, faultLow := __src.faultLow,
          stopFrozen := __src.stopFrozen, vecCount := __src.vecCount, ports := __src.ports, coordKnown := __src.coordKnown,
          lasers := __src.lasers, stileAcks := __src.stileAcks, xfers := __src.xfers, nextTid := __src.nextTid,
          streams := __src.streams, launches := __src.launches, reassemblies := __src.reassemblies, rxWait := __src.rxWait,
          arrived := __src.arrived, accepted := __src.accepted, shardFailed := __src.shardFailed,
          lark := { epochSeen := true : Lark }, rings := __src.rings, intakes := __src.intakes, publishes := __src.publishes,
          d3hot := __src.d3hot, cfg := __src.cfg, maxRead := __src.maxRead, maxPayload := __src.maxPayload,
          scaleFail := __src.scaleFail, tileFail := __src.tileFail, objs := __src.objs, causes := __src.causes,
          fwCores := __src.fwCores, boot := __src.boot, bring := __src.bring, fresets := __src.fresets, flash := __src.flash,
          ronbin := __src.ronbin : State }).isGm =
      true
    ∧ (let __src := gm [] 1500000000 1000000000;
          { pending := __src.pending, freeCount := __src.freeCount, out := __src.out, regs := __src.regs, mem := __src.mem,
            badWords := __src.badWords, threads := __src.threads, tiles := __src.tiles, ctxs := __src.ctxs, hamper := __src.hamper,
            roots := __src.roots, log := __src.log, hist := __src.hist, notices := __src.notices, faultLow := __src.faultLow,
            stopFrozen := __src.stopFrozen, vecCount := __src.vecCount, ports := __src.ports, coordKnown := __src.coordKnown,
            lasers := __src.lasers, stileAcks := __src.stileAcks, xfers := __src.xfers, nextTid := __src.nextTid,
            streams := __src.streams, launches := __src.launches, reassemblies := __src.reassemblies, rxWait := __src.rxWait,
            arrived := __src.arrived, accepted := __src.accepted, shardFailed := __src.shardFailed,
            lark := { epochSeen := true : Lark }, rings := __src.rings, intakes := __src.intakes, publishes := __src.publishes,
            d3hot := __src.d3hot, cfg := __src.cfg, maxRead := __src.maxRead, maxPayload := __src.maxPayload,
            scaleFail := __src.scaleFail, tileFail := __src.tileFail, objs := __src.objs, causes := __src.causes,
            fwCores := __src.fwCores, boot := __src.boot, bring := __src.bring, fresets := __src.fresets, flash := __src.flash,
            ronbin := __src.ronbin : State }).bit
        F.larkCtl.epochInEn =
      true
    ∧ (let __src := gm [] 1500000000 1000000000;
          { pending := __src.pending, freeCount := __src.freeCount, out := __src.out, regs := __src.regs, mem := __src.mem,
            badWords := __src.badWords, threads := __src.threads, tiles := __src.tiles, ctxs := __src.ctxs, hamper := __src.hamper,
            roots := __src.roots, log := __src.log, hist := __src.hist, notices := __src.notices, faultLow := __src.faultLow,
            stopFrozen := __src.stopFrozen, vecCount := __src.vecCount, ports := __src.ports, coordKnown := __src.coordKnown,
            lasers := __src.lasers, stileAcks := __src.stileAcks, xfers := __src.xfers, nextTid := __src.nextTid,
            streams := __src.streams, launches := __src.launches, reassemblies := __src.reassemblies, rxWait := __src.rxWait,
            arrived := __src.arrived, accepted := __src.accepted, shardFailed := __src.shardFailed,
            lark := { epochSeen := true : Lark }, rings := __src.rings, intakes := __src.intakes, publishes := __src.publishes,
            d3hot := __src.d3hot, cfg := __src.cfg, maxRead := __src.maxRead, maxPayload := __src.maxPayload,
            scaleFail := __src.scaleFail, tileFail := __src.tileFail, objs := __src.objs, causes := __src.causes,
            fwCores := __src.fwCores, boot := __src.boot, bring := __src.bring, fresets := __src.fresets, flash := __src.flash,
            ronbin := __src.ronbin : State }).fld
        F.phaseStatus.phase =
      2
    ∧ (let __src := gm [] 1500000000 1000000000;
          { pending := __src.pending, freeCount := __src.freeCount, out := __src.out, regs := __src.regs, mem := __src.mem,
            badWords := __src.badWords, threads := __src.threads, tiles := __src.tiles, ctxs := __src.ctxs, hamper := __src.hamper,
            roots := __src.roots, log := __src.log, hist := __src.hist, notices := __src.notices, faultLow := __src.faultLow,
            stopFrozen := __src.stopFrozen, vecCount := __src.vecCount, ports := __src.ports, coordKnown := __src.coordKnown,
            lasers := __src.lasers, stileAcks := __src.stileAcks, xfers := __src.xfers, nextTid := __src.nextTid,
            streams := __src.streams, launches := __src.launches, reassemblies := __src.reassemblies, rxWait := __src.rxWait,
            arrived := __src.arrived, accepted := __src.accepted, shardFailed := __src.shardFailed,
            lark := { epochSeen := true : Lark }, rings := __src.rings, intakes := __src.intakes, publishes := __src.publishes,
            d3hot := __src.d3hot, cfg := __src.cfg, maxRead := __src.maxRead, maxPayload := __src.maxPayload,
            scaleFail := __src.scaleFail, tileFail := __src.tileFail, objs := __src.objs, causes := __src.causes,
            fwCores := __src.fwCores, boot := __src.boot, bring := __src.bring, fresets := __src.fresets, flash := __src.flash,
            ronbin := __src.ronbin : State }).reg
        R.larkEpochPeriod ≠
      0
    ∧ (let __src := gm [] 1500000000 1000000000;
          { pending := __src.pending, freeCount := __src.freeCount, out := __src.out, regs := __src.regs, mem := __src.mem,
            badWords := __src.badWords, threads := __src.threads, tiles := __src.tiles, ctxs := __src.ctxs, hamper := __src.hamper,
            roots := __src.roots, log := __src.log, hist := __src.hist, notices := __src.notices, faultLow := __src.faultLow,
            stopFrozen := __src.stopFrozen, vecCount := __src.vecCount, ports := __src.ports, coordKnown := __src.coordKnown,
            lasers := __src.lasers, stileAcks := __src.stileAcks, xfers := __src.xfers, nextTid := __src.nextTid,
            streams := __src.streams, launches := __src.launches, reassemblies := __src.reassemblies, rxWait := __src.rxWait,
            arrived := __src.arrived, accepted := __src.accepted, shardFailed := __src.shardFailed,
            lark := { epochSeen := true : Lark }, rings := __src.rings, intakes := __src.intakes, publishes := __src.publishes,
            d3hot := __src.d3hot, cfg := __src.cfg, maxRead := __src.maxRead, maxPayload := __src.maxPayload,
            scaleFail := __src.scaleFail, tileFail := __src.tileFail, objs := __src.objs, causes := __src.causes,
            fwCores := __src.fwCores, boot := __src.boot, bring := __src.bring, fresets := __src.fresets, flash := __src.flash,
            ronbin := __src.ronbin : State }).lark.epochSeen =
      true
    ∧ 1000000 <
      (if
            2 *
                ((let __src := gm [] 1500000000 1000000000;
                    { pending := __src.pending, freeCount := __src.freeCount, out := __src.out, regs := __src.regs,
                      mem := __src.mem, badWords := __src.badWords, threads := __src.threads, tiles := __src.tiles,
                      ctxs := __src.ctxs, hamper := __src.hamper, roots := __src.roots, log := __src.log, hist := __src.hist,
                      notices := __src.notices, faultLow := __src.faultLow, stopFrozen := __src.stopFrozen,
                      vecCount := __src.vecCount, ports := __src.ports, coordKnown := __src.coordKnown, lasers := __src.lasers,
                      stileAcks := __src.stileAcks, xfers := __src.xfers, nextTid := __src.nextTid, streams := __src.streams,
                      launches := __src.launches, reassemblies := __src.reassemblies, rxWait := __src.rxWait,
                      arrived := __src.arrived, accepted := __src.accepted, shardFailed := __src.shardFailed,
                      lark := { epochSeen := true : Lark }, rings := __src.rings, intakes := __src.intakes,
                      publishes := __src.publishes, d3hot := __src.d3hot, cfg := __src.cfg, maxRead := __src.maxRead,
                      maxPayload := __src.maxPayload, scaleFail := __src.scaleFail, tileFail := __src.tileFail, objs := __src.objs,
                      causes := __src.causes, fwCores := __src.fwCores, boot := __src.boot, bring := __src.bring,
                      fresets := __src.fresets, flash := __src.flash, ronbin := __src.ronbin : State }).now %
                  BitVec.toNat
                    ((let __src := gm [] 1500000000 1000000000;
                        { pending := __src.pending, freeCount := __src.freeCount, out := __src.out, regs := __src.regs,
                          mem := __src.mem, badWords := __src.badWords, threads := __src.threads, tiles := __src.tiles,
                          ctxs := __src.ctxs, hamper := __src.hamper, roots := __src.roots, log := __src.log, hist := __src.hist,
                          notices := __src.notices, faultLow := __src.faultLow, stopFrozen := __src.stopFrozen,
                          vecCount := __src.vecCount, ports := __src.ports, coordKnown := __src.coordKnown, lasers := __src.lasers,
                          stileAcks := __src.stileAcks, xfers := __src.xfers, nextTid := __src.nextTid, streams := __src.streams,
                          launches := __src.launches, reassemblies := __src.reassemblies, rxWait := __src.rxWait,
                          arrived := __src.arrived, accepted := __src.accepted, shardFailed := __src.shardFailed,
                          lark := { epochSeen := true : Lark }, rings := __src.rings, intakes := __src.intakes,
                          publishes := __src.publishes, d3hot := __src.d3hot, cfg := __src.cfg, maxRead := __src.maxRead,
                          maxPayload := __src.maxPayload, scaleFail := __src.scaleFail, tileFail := __src.tileFail,
                          objs := __src.objs, causes := __src.causes, fwCores := __src.fwCores, boot := __src.boot,
                          bring := __src.bring, fresets := __src.fresets, flash := __src.flash, ronbin := __src.ronbin :
                          State }).reg
                      R.larkEpochPeriod)) <
              BitVec.toNat
                ((let __src := gm [] 1500000000 1000000000;
                    { pending := __src.pending, freeCount := __src.freeCount, out := __src.out, regs := __src.regs,
                      mem := __src.mem, badWords := __src.badWords, threads := __src.threads, tiles := __src.tiles,
                      ctxs := __src.ctxs, hamper := __src.hamper, roots := __src.roots, log := __src.log, hist := __src.hist,
                      notices := __src.notices, faultLow := __src.faultLow, stopFrozen := __src.stopFrozen,
                      vecCount := __src.vecCount, ports := __src.ports, coordKnown := __src.coordKnown, lasers := __src.lasers,
                      stileAcks := __src.stileAcks, xfers := __src.xfers, nextTid := __src.nextTid, streams := __src.streams,
                      launches := __src.launches, reassemblies := __src.reassemblies, rxWait := __src.rxWait,
                      arrived := __src.arrived, accepted := __src.accepted, shardFailed := __src.shardFailed,
                      lark := { epochSeen := true : Lark }, rings := __src.rings, intakes := __src.intakes,
                      publishes := __src.publishes, d3hot := __src.d3hot, cfg := __src.cfg, maxRead := __src.maxRead,
                      maxPayload := __src.maxPayload, scaleFail := __src.scaleFail, tileFail := __src.tileFail, objs := __src.objs,
                      causes := __src.causes, fwCores := __src.fwCores, boot := __src.boot, bring := __src.bring,
                      fresets := __src.fresets, flash := __src.flash, ronbin := __src.ronbin : State }).reg
                  R.larkEpochPeriod) then
          -(↑((let __src := gm [] 1500000000 1000000000;
                    { pending := __src.pending, freeCount := __src.freeCount, out := __src.out, regs := __src.regs,
                      mem := __src.mem, badWords := __src.badWords, threads := __src.threads, tiles := __src.tiles,
                      ctxs := __src.ctxs, hamper := __src.hamper, roots := __src.roots, log := __src.log, hist := __src.hist,
                      notices := __src.notices, faultLow := __src.faultLow, stopFrozen := __src.stopFrozen,
                      vecCount := __src.vecCount, ports := __src.ports, coordKnown := __src.coordKnown, lasers := __src.lasers,
                      stileAcks := __src.stileAcks, xfers := __src.xfers, nextTid := __src.nextTid, streams := __src.streams,
                      launches := __src.launches, reassemblies := __src.reassemblies, rxWait := __src.rxWait,
                      arrived := __src.arrived, accepted := __src.accepted, shardFailed := __src.shardFailed,
                      lark := { epochSeen := true : Lark }, rings := __src.rings, intakes := __src.intakes,
                      publishes := __src.publishes, d3hot := __src.d3hot, cfg := __src.cfg, maxRead := __src.maxRead,
                      maxPayload := __src.maxPayload, scaleFail := __src.scaleFail, tileFail := __src.tileFail, objs := __src.objs,
                      causes := __src.causes, fwCores := __src.fwCores, boot := __src.boot, bring := __src.bring,
                      fresets := __src.fresets, flash := __src.flash, ronbin := __src.ronbin : State }).now %
                  BitVec.toNat
                    ((let __src := gm [] 1500000000 1000000000;
                        { pending := __src.pending, freeCount := __src.freeCount, out := __src.out, regs := __src.regs,
                          mem := __src.mem, badWords := __src.badWords, threads := __src.threads, tiles := __src.tiles,
                          ctxs := __src.ctxs, hamper := __src.hamper, roots := __src.roots, log := __src.log, hist := __src.hist,
                          notices := __src.notices, faultLow := __src.faultLow, stopFrozen := __src.stopFrozen,
                          vecCount := __src.vecCount, ports := __src.ports, coordKnown := __src.coordKnown, lasers := __src.lasers,
                          stileAcks := __src.stileAcks, xfers := __src.xfers, nextTid := __src.nextTid, streams := __src.streams,
                          launches := __src.launches, reassemblies := __src.reassemblies, rxWait := __src.rxWait,
                          arrived := __src.arrived, accepted := __src.accepted, shardFailed := __src.shardFailed,
                          lark := { epochSeen := true : Lark }, rings := __src.rings, intakes := __src.intakes,
                          publishes := __src.publishes, d3hot := __src.d3hot, cfg := __src.cfg, maxRead := __src.maxRead,
                          maxPayload := __src.maxPayload, scaleFail := __src.scaleFail, tileFail := __src.tileFail,
                          objs := __src.objs, causes := __src.causes, fwCores := __src.fwCores, boot := __src.boot,
                          bring := __src.bring, fresets := __src.fresets, flash := __src.flash, ronbin := __src.ronbin :
                          State }).reg
                      R.larkEpochPeriod)) :
              Int)
        else
          (↑(BitVec.toNat
                  ((let __src := gm [] 1500000000 1000000000;
                      { pending := __src.pending, freeCount := __src.freeCount, out := __src.out, regs := __src.regs,
                        mem := __src.mem, badWords := __src.badWords, threads := __src.threads, tiles := __src.tiles,
                        ctxs := __src.ctxs, hamper := __src.hamper, roots := __src.roots, log := __src.log, hist := __src.hist,
                        notices := __src.notices, faultLow := __src.faultLow, stopFrozen := __src.stopFrozen,
                        vecCount := __src.vecCount, ports := __src.ports, coordKnown := __src.coordKnown, lasers := __src.lasers,
                        stileAcks := __src.stileAcks, xfers := __src.xfers, nextTid := __src.nextTid, streams := __src.streams,
                        launches := __src.launches, reassemblies := __src.reassemblies, rxWait := __src.rxWait,
                        arrived := __src.arrived, accepted := __src.accepted, shardFailed := __src.shardFailed,
                        lark := { epochSeen := true : Lark }, rings := __src.rings, intakes := __src.intakes,
                        publishes := __src.publishes, d3hot := __src.d3hot, cfg := __src.cfg, maxRead := __src.maxRead,
                        maxPayload := __src.maxPayload, scaleFail := __src.scaleFail, tileFail := __src.tileFail,
                        objs := __src.objs, causes := __src.causes, fwCores := __src.fwCores, boot := __src.boot,
                        bring := __src.bring, fresets := __src.fresets, flash := __src.flash, ronbin := __src.ronbin : State }).reg
                    R.larkEpochPeriod) -
                (let __src := gm [] 1500000000 1000000000;
                    { pending := __src.pending, freeCount := __src.freeCount, out := __src.out, regs := __src.regs,
                      mem := __src.mem, badWords := __src.badWords, threads := __src.threads, tiles := __src.tiles,
                      ctxs := __src.ctxs, hamper := __src.hamper, roots := __src.roots, log := __src.log, hist := __src.hist,
                      notices := __src.notices, faultLow := __src.faultLow, stopFrozen := __src.stopFrozen,
                      vecCount := __src.vecCount, ports := __src.ports, coordKnown := __src.coordKnown, lasers := __src.lasers,
                      stileAcks := __src.stileAcks, xfers := __src.xfers, nextTid := __src.nextTid, streams := __src.streams,
                      launches := __src.launches, reassemblies := __src.reassemblies, rxWait := __src.rxWait,
                      arrived := __src.arrived, accepted := __src.accepted, shardFailed := __src.shardFailed,
                      lark := { epochSeen := true : Lark }, rings := __src.rings, intakes := __src.intakes,
                      publishes := __src.publishes, d3hot := __src.d3hot, cfg := __src.cfg, maxRead := __src.maxRead,
                      maxPayload := __src.maxPayload, scaleFail := __src.scaleFail, tileFail := __src.tileFail, objs := __src.objs,
                      causes := __src.causes, fwCores := __src.fwCores, boot := __src.boot, bring := __src.bring,
                      fresets := __src.fresets, flash := __src.flash, ronbin := __src.ronbin : State }).now %
                  BitVec.toNat
                    ((let __src := gm [] 1500000000 1000000000;
                        { pending := __src.pending, freeCount := __src.freeCount, out := __src.out, regs := __src.regs,
                          mem := __src.mem, badWords := __src.badWords, threads := __src.threads, tiles := __src.tiles,
                          ctxs := __src.ctxs, hamper := __src.hamper, roots := __src.roots, log := __src.log, hist := __src.hist,
                          notices := __src.notices, faultLow := __src.faultLow, stopFrozen := __src.stopFrozen,
                          vecCount := __src.vecCount, ports := __src.ports, coordKnown := __src.coordKnown, lasers := __src.lasers,
                          stileAcks := __src.stileAcks, xfers := __src.xfers, nextTid := __src.nextTid, streams := __src.streams,
                          launches := __src.launches, reassemblies := __src.reassemblies, rxWait := __src.rxWait,
                          arrived := __src.arrived, accepted := __src.accepted, shardFailed := __src.shardFailed,
                          lark := { epochSeen := true : Lark }, rings := __src.rings, intakes := __src.intakes,
                          publishes := __src.publishes, d3hot := __src.d3hot, cfg := __src.cfg, maxRead := __src.maxRead,
                          maxPayload := __src.maxPayload, scaleFail := __src.scaleFail, tileFail := __src.tileFail,
                          objs := __src.objs, causes := __src.causes, fwCores := __src.fwCores, boot := __src.boot,
                          bring := __src.bring, fresets := __src.fresets, flash := __src.flash, ronbin := __src.ronbin :
                          State }).reg
                      R.larkEpochPeriod)) :
            Int)).natAbs :=
  by decide +kernel

/-! Witnesses of `Obligations.ContractsAndSnapshotsComplete`, by clause. -/

theorem test_ContractsAndSnapshotsComplete_1 :
    (fcs 0 0 4999999000000 1000 100 r0).bit (F.fcCtl.enable 0) = false
    ∧ (fcs 0 0 4999999000000 1000 100 r0).budgetExceeded 0 = false
    ∧ isCounter ((fcs 0 0 4999999000000 1000 100 r0).fld (F.fcObj.val 0)) = false :=
  by decide +kernel

theorem test_ContractsAndSnapshotsComplete_2 :
    isCounterKey ((fcs 0 cnt 4999999000500 1000 500 r0).fld (F.fcObj.val 0))
    ∧ QuietCounter (fcs 0 cnt 4999999000500 1000 500 r0) ((fcs 0 cnt 4999999000500 1000 500 r0).fld (F.fcObj.val 0))
    ∧ (fcs 0 cnt 4999999000500 1000 500 r0).bit (F.fcCtl.enable 0) = false
    ∧ (fcs 0 cnt 4999999000500 1000 500 r0).budgetExceeded 0 = false :=
  ⟨isCounterKey_of (by decide +kernel), quiet_of (by decide +kernel), by decide +kernel⟩

theorem test_ContractsAndSnapshotsComplete_3 :
    (fcs 0 cnt 6000000000000 1000 501 r0).bit (F.fcCtl.enable 0) = false
    ∧ (fcs 0 cnt 6000000000000 1000 501 r0).budgetExceeded 0 = true :=
  by decide +kernel

theorem test_ContractsAndSnapshotsComplete_5 :
    (fcs 1 cnt 4999999999000 300 10
            (let __src := r0;
            { running := __src.running, halted := __src.halted, phase := __src.phase, voteBits := __src.voteBits,
              commitBits := __src.commitBits, accessFault := __src.accessFault, batchSeen := __src.batchSeen,
              drainSeen := __src.drainSeen, fcNext := 1, frozen := __src.frozen, forceCold := __src.forceCold,
              coldTaken := __src.coldTaken, install := __src.install, installed := __src.installed, started := __src.started,
              prov := __src.prov, swept := __src.swept, digests := __src.digests, slowRead := __src.slowRead,
              slowData := __src.slowData, slowWrite := __src.slowWrite, slowAt := __src.slowAt, sweeping := __src.sweeping,
              masks := __src.masks, rebase := __src.rebase, restart := __src.restart, discardDue := __src.discardDue,
              owed := __src.owed, f3Out := __src.f3Out, admitDue := __src.admitDue, fcSeen := __src.fcSeen,
              stageFrom := __src.stageFrom, refreshDue := __src.refreshDue, staged := __src.staged, committed := __src.committed,
              held := __src.held, lossNan := __src.lossNan, mayPublish := __src.mayPublish, starting := __src.starting : Ctx })).bit
        (F.fcCtl.enable 0) =
      true
    ∧ BitVec.toNat
          ((fcs 1 cnt 4999999999000 300 10
                (let __src := r0;
                { running := __src.running, halted := __src.halted, phase := __src.phase, voteBits := __src.voteBits,
                  commitBits := __src.commitBits, accessFault := __src.accessFault, batchSeen := __src.batchSeen,
                  drainSeen := __src.drainSeen, fcNext := 1, frozen := __src.frozen, forceCold := __src.forceCold,
                  coldTaken := __src.coldTaken, install := __src.install, installed := __src.installed, started := __src.started,
                  prov := __src.prov, swept := __src.swept, digests := __src.digests, slowRead := __src.slowRead,
                  slowData := __src.slowData, slowWrite := __src.slowWrite, slowAt := __src.slowAt, sweeping := __src.sweeping,
                  masks := __src.masks, rebase := __src.rebase, restart := __src.restart, discardDue := __src.discardDue,
                  owed := __src.owed, f3Out := __src.f3Out, admitDue := __src.admitDue, fcSeen := __src.fcSeen,
                  stageFrom := __src.stageFrom, refreshDue := __src.refreshDue, staged := __src.staged,
                  committed := __src.committed, held := __src.held, lossNan := __src.lossNan, mayPublish := __src.mayPublish,
                  starting := __src.starting : Ctx })).reg
            (R.fcStart 0)) +
        (((fcs 1 cnt 4999999999000 300 10
                    (let __src := r0;
                    { running := __src.running, halted := __src.halted, phase := __src.phase, voteBits := __src.voteBits,
                      commitBits := __src.commitBits, accessFault := __src.accessFault, batchSeen := __src.batchSeen,
                      drainSeen := __src.drainSeen, fcNext := 1, frozen := __src.frozen, forceCold := __src.forceCold,
                      coldTaken := __src.coldTaken, install := __src.install, installed := __src.installed,
                      started := __src.started, prov := __src.prov, swept := __src.swept, digests := __src.digests,
                      slowRead := __src.slowRead, slowData := __src.slowData, slowWrite := __src.slowWrite, slowAt := __src.slowAt,
                      sweeping := __src.sweeping, masks := __src.masks, rebase := __src.rebase, restart := __src.restart,
                      discardDue := __src.discardDue, owed := __src.owed, f3Out := __src.f3Out, admitDue := __src.admitDue,
                      fcSeen := __src.fcSeen, stageFrom := __src.stageFrom, refreshDue := __src.refreshDue, staged := __src.staged,
                      committed := __src.committed, held := __src.held, lossNan := __src.lossNan, mayPublish := __src.mayPublish,
                      starting := __src.starting : Ctx })).ctx
                0).fcNext +
            1) *
          BitVec.toNat
            ((fcs 1 cnt 4999999999000 300 10
                  (let __src := r0;
                  { running := __src.running, halted := __src.halted, phase := __src.phase, voteBits := __src.voteBits,
                    commitBits := __src.commitBits, accessFault := __src.accessFault, batchSeen := __src.batchSeen,
                    drainSeen := __src.drainSeen, fcNext := 1, frozen := __src.frozen, forceCold := __src.forceCold,
                    coldTaken := __src.coldTaken, install := __src.install, installed := __src.installed, started := __src.started,
                    prov := __src.prov, swept := __src.swept, digests := __src.digests, slowRead := __src.slowRead,
                    slowData := __src.slowData, slowWrite := __src.slowWrite, slowAt := __src.slowAt, sweeping := __src.sweeping,
                    masks := __src.masks, rebase := __src.rebase, restart := __src.restart, discardDue := __src.discardDue,
                    owed := __src.owed, f3Out := __src.f3Out, admitDue := __src.admitDue, fcSeen := __src.fcSeen,
                    stageFrom := __src.stageFrom, refreshDue := __src.refreshDue, staged := __src.staged,
                    committed := __src.committed, held := __src.held, lossNan := __src.lossNan, mayPublish := __src.mayPublish,
                    starting := __src.starting : Ctx })).reg
              (R.fcPeriod 0)) ≤
      (fcs 1 cnt 4999999999000 300 10
          (let __src := r0;
          { running := __src.running, halted := __src.halted, phase := __src.phase, voteBits := __src.voteBits,
            commitBits := __src.commitBits, accessFault := __src.accessFault, batchSeen := __src.batchSeen,
            drainSeen := __src.drainSeen, fcNext := 1, frozen := __src.frozen, forceCold := __src.forceCold,
            coldTaken := __src.coldTaken, install := __src.install, installed := __src.installed, started := __src.started,
            prov := __src.prov, swept := __src.swept, digests := __src.digests, slowRead := __src.slowRead,
            slowData := __src.slowData, slowWrite := __src.slowWrite, slowAt := __src.slowAt, sweeping := __src.sweeping,
            masks := __src.masks, rebase := __src.rebase, restart := __src.restart, discardDue := __src.discardDue,
            owed := __src.owed, f3Out := __src.f3Out, admitDue := __src.admitDue, fcSeen := __src.fcSeen,
            stageFrom := __src.stageFrom, refreshDue := __src.refreshDue, staged := __src.staged, committed := __src.committed,
            held := __src.held, lossNan := __src.lossNan, mayPublish := __src.mayPublish, starting := __src.starting : Ctx })).now
    ∧ ((fcs 1 cnt 4999999999000 300 10
                (let __src := r0;
                { running := __src.running, halted := __src.halted, phase := __src.phase, voteBits := __src.voteBits,
                  commitBits := __src.commitBits, accessFault := __src.accessFault, batchSeen := __src.batchSeen,
                  drainSeen := __src.drainSeen, fcNext := 1, frozen := __src.frozen, forceCold := __src.forceCold,
                  coldTaken := __src.coldTaken, install := __src.install, installed := __src.installed, started := __src.started,
                  prov := __src.prov, swept := __src.swept, digests := __src.digests, slowRead := __src.slowRead,
                  slowData := __src.slowData, slowWrite := __src.slowWrite, slowAt := __src.slowAt, sweeping := __src.sweeping,
                  masks := __src.masks, rebase := __src.rebase, restart := __src.restart, discardDue := __src.discardDue,
                  owed := __src.owed, f3Out := __src.f3Out, admitDue := __src.admitDue, fcSeen := __src.fcSeen,
                  stageFrom := __src.stageFrom, refreshDue := __src.refreshDue, staged := __src.staged,
                  committed := __src.committed, held := __src.held, lossNan := __src.lossNan, mayPublish := __src.mayPublish,
                  starting := __src.starting : Ctx })).ctx
            0).fcNext +
        1 ≤
      if
          isCounter
              ((fcs 1 cnt 4999999999000 300 10
                    (let __src := r0;
                    { running := __src.running, halted := __src.halted, phase := __src.phase, voteBits := __src.voteBits,
                      commitBits := __src.commitBits, accessFault := __src.accessFault, batchSeen := __src.batchSeen,
                      drainSeen := __src.drainSeen, fcNext := 1, frozen := __src.frozen, forceCold := __src.forceCold,
                      coldTaken := __src.coldTaken, install := __src.install, installed := __src.installed,
                      started := __src.started, prov := __src.prov, swept := __src.swept, digests := __src.digests,
                      slowRead := __src.slowRead, slowData := __src.slowData, slowWrite := __src.slowWrite, slowAt := __src.slowAt,
                      sweeping := __src.sweeping, masks := __src.masks, rebase := __src.rebase, restart := __src.restart,
                      discardDue := __src.discardDue, owed := __src.owed, f3Out := __src.f3Out, admitDue := __src.admitDue,
                      fcSeen := __src.fcSeen, stageFrom := __src.stageFrom, refreshDue := __src.refreshDue, staged := __src.staged,
                      committed := __src.committed, held := __src.held, lossNan := __src.lossNan, mayPublish := __src.mayPublish,
                      starting := __src.starting : Ctx })).fld
                (F.fcObj.val 0)) =
            true then
        BitVec.toNat
          ((fcs 1 cnt 4999999999000 300 10
                (let __src := r0;
                { running := __src.running, halted := __src.halted, phase := __src.phase, voteBits := __src.voteBits,
                  commitBits := __src.commitBits, accessFault := __src.accessFault, batchSeen := __src.batchSeen,
                  drainSeen := __src.drainSeen, fcNext := 1, frozen := __src.frozen, forceCold := __src.forceCold,
                  coldTaken := __src.coldTaken, install := __src.install, installed := __src.installed, started := __src.started,
                  prov := __src.prov, swept := __src.swept, digests := __src.digests, slowRead := __src.slowRead,
                  slowData := __src.slowData, slowWrite := __src.slowWrite, slowAt := __src.slowAt, sweeping := __src.sweeping,
                  masks := __src.masks, rebase := __src.rebase, restart := __src.restart, discardDue := __src.discardDue,
                  owed := __src.owed, f3Out := __src.f3Out, admitDue := __src.admitDue, fcSeen := __src.fcSeen,
                  stageFrom := __src.stageFrom, refreshDue := __src.refreshDue, staged := __src.staged,
                  committed := __src.committed, held := __src.held, lossNan := __src.lossNan, mayPublish := __src.mayPublish,
                  starting := __src.starting : Ctx })).reg
            ((fcs 1 cnt 4999999999000 300 10
                  (let __src := r0;
                  { running := __src.running, halted := __src.halted, phase := __src.phase, voteBits := __src.voteBits,
                    commitBits := __src.commitBits, accessFault := __src.accessFault, batchSeen := __src.batchSeen,
                    drainSeen := __src.drainSeen, fcNext := 1, frozen := __src.frozen, forceCold := __src.forceCold,
                    coldTaken := __src.coldTaken, install := __src.install, installed := __src.installed, started := __src.started,
                    prov := __src.prov, swept := __src.swept, digests := __src.digests, slowRead := __src.slowRead,
                    slowData := __src.slowData, slowWrite := __src.slowWrite, slowAt := __src.slowAt, sweeping := __src.sweeping,
                    masks := __src.masks, rebase := __src.rebase, restart := __src.restart, discardDue := __src.discardDue,
                    owed := __src.owed, f3Out := __src.f3Out, admitDue := __src.admitDue, fcSeen := __src.fcSeen,
                    stageFrom := __src.stageFrom, refreshDue := __src.refreshDue, staged := __src.staged,
                    committed := __src.committed, held := __src.held, lossNan := __src.lossNan, mayPublish := __src.mayPublish,
                    starting := __src.starting : Ctx })).fld
              (F.fcObj.val 0)))
      else 0 :=
  by decide +kernel

theorem test_ContractsAndSnapshotsComplete_6 :
    (fcs 1 cnt 4999999999000 300 10
            (let __src := r0;
            { running := __src.running, halted := __src.halted, phase := __src.phase, voteBits := __src.voteBits,
              commitBits := __src.commitBits, accessFault := __src.accessFault, batchSeen := __src.batchSeen,
              drainSeen := __src.drainSeen, fcNext := 2, frozen := __src.frozen, forceCold := __src.forceCold,
              coldTaken := __src.coldTaken, install := __src.install, installed := __src.installed, started := __src.started,
              prov := __src.prov, swept := __src.swept, digests := __src.digests, slowRead := __src.slowRead,
              slowData := __src.slowData, slowWrite := __src.slowWrite, slowAt := __src.slowAt, sweeping := __src.sweeping,
              masks := __src.masks, rebase := __src.rebase, restart := __src.restart, discardDue := __src.discardDue,
              owed := __src.owed, f3Out := __src.f3Out, admitDue := __src.admitDue, fcSeen := __src.fcSeen,
              stageFrom := __src.stageFrom, refreshDue := __src.refreshDue, staged := __src.staged, committed := __src.committed,
              held := __src.held, lossNan := __src.lossNan, mayPublish := __src.mayPublish, starting := __src.starting : Ctx })).bit
        (F.fcCtl.enable 0) =
      true
    ∧ BitVec.toNat
          ((fcs 1 cnt 4999999999000 300 10
                (let __src := r0;
                { running := __src.running, halted := __src.halted, phase := __src.phase, voteBits := __src.voteBits,
                  commitBits := __src.commitBits, accessFault := __src.accessFault, batchSeen := __src.batchSeen,
                  drainSeen := __src.drainSeen, fcNext := 2, frozen := __src.frozen, forceCold := __src.forceCold,
                  coldTaken := __src.coldTaken, install := __src.install, installed := __src.installed, started := __src.started,
                  prov := __src.prov, swept := __src.swept, digests := __src.digests, slowRead := __src.slowRead,
                  slowData := __src.slowData, slowWrite := __src.slowWrite, slowAt := __src.slowAt, sweeping := __src.sweeping,
                  masks := __src.masks, rebase := __src.rebase, restart := __src.restart, discardDue := __src.discardDue,
                  owed := __src.owed, f3Out := __src.f3Out, admitDue := __src.admitDue, fcSeen := __src.fcSeen,
                  stageFrom := __src.stageFrom, refreshDue := __src.refreshDue, staged := __src.staged,
                  committed := __src.committed, held := __src.held, lossNan := __src.lossNan, mayPublish := __src.mayPublish,
                  starting := __src.starting : Ctx })).reg
            (R.fcStart 0)) +
        (((fcs 1 cnt 4999999999000 300 10
                    (let __src := r0;
                    { running := __src.running, halted := __src.halted, phase := __src.phase, voteBits := __src.voteBits,
                      commitBits := __src.commitBits, accessFault := __src.accessFault, batchSeen := __src.batchSeen,
                      drainSeen := __src.drainSeen, fcNext := 2, frozen := __src.frozen, forceCold := __src.forceCold,
                      coldTaken := __src.coldTaken, install := __src.install, installed := __src.installed,
                      started := __src.started, prov := __src.prov, swept := __src.swept, digests := __src.digests,
                      slowRead := __src.slowRead, slowData := __src.slowData, slowWrite := __src.slowWrite, slowAt := __src.slowAt,
                      sweeping := __src.sweeping, masks := __src.masks, rebase := __src.rebase, restart := __src.restart,
                      discardDue := __src.discardDue, owed := __src.owed, f3Out := __src.f3Out, admitDue := __src.admitDue,
                      fcSeen := __src.fcSeen, stageFrom := __src.stageFrom, refreshDue := __src.refreshDue, staged := __src.staged,
                      committed := __src.committed, held := __src.held, lossNan := __src.lossNan, mayPublish := __src.mayPublish,
                      starting := __src.starting : Ctx })).ctx
                0).fcNext +
            1) *
          BitVec.toNat
            ((fcs 1 cnt 4999999999000 300 10
                  (let __src := r0;
                  { running := __src.running, halted := __src.halted, phase := __src.phase, voteBits := __src.voteBits,
                    commitBits := __src.commitBits, accessFault := __src.accessFault, batchSeen := __src.batchSeen,
                    drainSeen := __src.drainSeen, fcNext := 2, frozen := __src.frozen, forceCold := __src.forceCold,
                    coldTaken := __src.coldTaken, install := __src.install, installed := __src.installed, started := __src.started,
                    prov := __src.prov, swept := __src.swept, digests := __src.digests, slowRead := __src.slowRead,
                    slowData := __src.slowData, slowWrite := __src.slowWrite, slowAt := __src.slowAt, sweeping := __src.sweeping,
                    masks := __src.masks, rebase := __src.rebase, restart := __src.restart, discardDue := __src.discardDue,
                    owed := __src.owed, f3Out := __src.f3Out, admitDue := __src.admitDue, fcSeen := __src.fcSeen,
                    stageFrom := __src.stageFrom, refreshDue := __src.refreshDue, staged := __src.staged,
                    committed := __src.committed, held := __src.held, lossNan := __src.lossNan, mayPublish := __src.mayPublish,
                    starting := __src.starting : Ctx })).reg
              (R.fcPeriod 0)) ≤
      (fcs 1 cnt 4999999999000 300 10
          (let __src := r0;
          { running := __src.running, halted := __src.halted, phase := __src.phase, voteBits := __src.voteBits,
            commitBits := __src.commitBits, accessFault := __src.accessFault, batchSeen := __src.batchSeen,
            drainSeen := __src.drainSeen, fcNext := 2, frozen := __src.frozen, forceCold := __src.forceCold,
            coldTaken := __src.coldTaken, install := __src.install, installed := __src.installed, started := __src.started,
            prov := __src.prov, swept := __src.swept, digests := __src.digests, slowRead := __src.slowRead,
            slowData := __src.slowData, slowWrite := __src.slowWrite, slowAt := __src.slowAt, sweeping := __src.sweeping,
            masks := __src.masks, rebase := __src.rebase, restart := __src.restart, discardDue := __src.discardDue,
            owed := __src.owed, f3Out := __src.f3Out, admitDue := __src.admitDue, fcSeen := __src.fcSeen,
            stageFrom := __src.stageFrom, refreshDue := __src.refreshDue, staged := __src.staged, committed := __src.committed,
            held := __src.held, lossNan := __src.lossNan, mayPublish := __src.mayPublish, starting := __src.starting : Ctx })).now
    ∧ (if
          isCounter
              ((fcs 1 cnt 4999999999000 300 10
                    (let __src := r0;
                    { running := __src.running, halted := __src.halted, phase := __src.phase, voteBits := __src.voteBits,
                      commitBits := __src.commitBits, accessFault := __src.accessFault, batchSeen := __src.batchSeen,
                      drainSeen := __src.drainSeen, fcNext := 2, frozen := __src.frozen, forceCold := __src.forceCold,
                      coldTaken := __src.coldTaken, install := __src.install, installed := __src.installed,
                      started := __src.started, prov := __src.prov, swept := __src.swept, digests := __src.digests,
                      slowRead := __src.slowRead, slowData := __src.slowData, slowWrite := __src.slowWrite, slowAt := __src.slowAt,
                      sweeping := __src.sweeping, masks := __src.masks, rebase := __src.rebase, restart := __src.restart,
                      discardDue := __src.discardDue, owed := __src.owed, f3Out := __src.f3Out, admitDue := __src.admitDue,
                      fcSeen := __src.fcSeen, stageFrom := __src.stageFrom, refreshDue := __src.refreshDue, staged := __src.staged,
                      committed := __src.committed, held := __src.held, lossNan := __src.lossNan, mayPublish := __src.mayPublish,
                      starting := __src.starting : Ctx })).fld
                (F.fcObj.val 0)) =
            true then
        BitVec.toNat
          ((fcs 1 cnt 4999999999000 300 10
                (let __src := r0;
                { running := __src.running, halted := __src.halted, phase := __src.phase, voteBits := __src.voteBits,
                  commitBits := __src.commitBits, accessFault := __src.accessFault, batchSeen := __src.batchSeen,
                  drainSeen := __src.drainSeen, fcNext := 2, frozen := __src.frozen, forceCold := __src.forceCold,
                  coldTaken := __src.coldTaken, install := __src.install, installed := __src.installed, started := __src.started,
                  prov := __src.prov, swept := __src.swept, digests := __src.digests, slowRead := __src.slowRead,
                  slowData := __src.slowData, slowWrite := __src.slowWrite, slowAt := __src.slowAt, sweeping := __src.sweeping,
                  masks := __src.masks, rebase := __src.rebase, restart := __src.restart, discardDue := __src.discardDue,
                  owed := __src.owed, f3Out := __src.f3Out, admitDue := __src.admitDue, fcSeen := __src.fcSeen,
                  stageFrom := __src.stageFrom, refreshDue := __src.refreshDue, staged := __src.staged,
                  committed := __src.committed, held := __src.held, lossNan := __src.lossNan, mayPublish := __src.mayPublish,
                  starting := __src.starting : Ctx })).reg
            ((fcs 1 cnt 4999999999000 300 10
                  (let __src := r0;
                  { running := __src.running, halted := __src.halted, phase := __src.phase, voteBits := __src.voteBits,
                    commitBits := __src.commitBits, accessFault := __src.accessFault, batchSeen := __src.batchSeen,
                    drainSeen := __src.drainSeen, fcNext := 2, frozen := __src.frozen, forceCold := __src.forceCold,
                    coldTaken := __src.coldTaken, install := __src.install, installed := __src.installed, started := __src.started,
                    prov := __src.prov, swept := __src.swept, digests := __src.digests, slowRead := __src.slowRead,
                    slowData := __src.slowData, slowWrite := __src.slowWrite, slowAt := __src.slowAt, sweeping := __src.sweeping,
                    masks := __src.masks, rebase := __src.rebase, restart := __src.restart, discardDue := __src.discardDue,
                    owed := __src.owed, f3Out := __src.f3Out, admitDue := __src.admitDue, fcSeen := __src.fcSeen,
                    stageFrom := __src.stageFrom, refreshDue := __src.refreshDue, staged := __src.staged,
                    committed := __src.committed, held := __src.held, lossNan := __src.lossNan, mayPublish := __src.mayPublish,
                    starting := __src.starting : Ctx })).fld
              (F.fcObj.val 0)))
      else 0) <
      ((fcs 1 cnt 4999999999000 300 10
                (let __src := r0;
                { running := __src.running, halted := __src.halted, phase := __src.phase, voteBits := __src.voteBits,
                  commitBits := __src.commitBits, accessFault := __src.accessFault, batchSeen := __src.batchSeen,
                  drainSeen := __src.drainSeen, fcNext := 2, frozen := __src.frozen, forceCold := __src.forceCold,
                  coldTaken := __src.coldTaken, install := __src.install, installed := __src.installed, started := __src.started,
                  prov := __src.prov, swept := __src.swept, digests := __src.digests, slowRead := __src.slowRead,
                  slowData := __src.slowData, slowWrite := __src.slowWrite, slowAt := __src.slowAt, sweeping := __src.sweeping,
                  masks := __src.masks, rebase := __src.rebase, restart := __src.restart, discardDue := __src.discardDue,
                  owed := __src.owed, f3Out := __src.f3Out, admitDue := __src.admitDue, fcSeen := __src.fcSeen,
                  stageFrom := __src.stageFrom, refreshDue := __src.refreshDue, staged := __src.staged,
                  committed := __src.committed, held := __src.held, lossNan := __src.lossNan, mayPublish := __src.mayPublish,
                  starting := __src.starting : Ctx })).ctx
            0).fcNext +
        1 :=
  by decide +kernel

theorem test_ContractsAndSnapshotsComplete_7 :
    5000010000000#64 ≠ 0
    ∧ 10000000 + (fcs 0 0 4999999000000 1000 100 r0).now ≤ (5000010000000#64).toNat
    ∧ (fcs 0 0 4999999000000 1000 100 r0).larkCounts = true :=
  by decide +kernel

theorem test_ContractsAndSnapshotsComplete_8 :
    ((5000009999999#64).toNat < 10000000 + (fcs 0 0 4999999000000 1000 100 r0).now ∨
      (fcs 0 0 4999999000000 1000 100 r0).larkCounts = false)
    ∧ 5000009999999#64 ≠ 0 :=
  ⟨.inl (by decide +kernel), by decide +kernel⟩

theorem test_ContractsAndSnapshotsComplete_10 :
    (arm 5000000000000).bit (F.snapStatus.armed 0) = true
    ∧ BitVec.toNat ((arm 5000000000000).reg (R.snapTime 0)) ≤ (arm 5000000000000).now :=
  by decide +kernel

theorem test_ContractsAndSnapshotsComplete_11 :
    ((fcs 0 0 0 1 0 frz).ctx 0).frozen = true
    ∧ (fcs 0 0 0 1 0 frz).bit (F.snapStatus.ready 0) = false
    ∧ (fcs 0 0 0 1 0 frz).ctxDrained 0 = true
    ∧ above ((fcs 0 0 0 1 0 frz).ring 0).eqTail ((fcs 0 0 0 1 0 frz).ring 0).eqHead < 8192 :=
  by decide +kernel

theorem test_ContractsAndSnapshotsComplete_12 :
    ((fcs 0 0 0 1 0 frz).ctx 0).frozen = true
    ∧ BitVec.toNat ((fcs 0 0 0 1 0 frz).reg (R.snapResume 0)) ≤ (fcs 0 0 0 1 0 frz).now :=
  by decide +kernel

theorem get_two (l : Tab Byte) (h : ∀ e ∈ l, e.2 = 2) (k : Nat) :
    (Tab.get memReset l k = 2 ∨ Tab.get memReset l k = 0) ∧ (k ∈ l.map (·.1) → Tab.get memReset l k = 2) := by
  induction l with
  | nil => exact ⟨.inr rfl, fun m => by cases m⟩
  | cons e r ih =>
    obtain ⟨a, b⟩ := ih fun x hx => h x (List.mem_cons_of_mem _ hx)
    by_cases c : e.1 = k
    · have : Tab.get memReset (e :: r) k = 2 := by simp only [Tab.get, if_pos c]; exact h e (List.mem_cons_self ..)
      exact ⟨.inl this, fun _ => this⟩
    · have t : Tab.get memReset (e :: r) k = Tab.get memReset r k := by simp only [Tab.get, if_neg c]
      rw [t]
      refine ⟨a, fun m => b ?_⟩
      simp only [List.map_cons, List.mem_cons] at m
      exact m.resolve_left fun x => c x.symm

/-- The inactive bank of `bk` passes the checks. -/
theorem bk_passes (s : State) : (bk s).bankPasses 2 1 = true := by
  have two : ∀ e ∈ (bk s).mem, e.2 = 2 := by
    intro e he
    simp only [bk, tab, List.mem_map] at he
    obtain ⟨_, _, rfl⟩ := he
    rfl
  have use (n : Nat) := get_two (bk s).mem two (resEntry 2 1 n)
  have none1 : (bk s).countUse 2 1 1 = 0 := by
    rw [State.countUse, List.filter_eq_nil_iff.mpr]
    · rfl
    intro n _
    rcases (use n).1 with h | h <;> simp [State.slotUse, State.byte, h]
  have some2 : 210 ≤ (bk s).countUse 2 1 2 := by
    have sub := (List.range_sublist.mpr (by decide : 210 ≤ 4096)).filter fun n => (bk s).slotUse 2 1 n == 2
    have all : (List.range 210).filter (fun n => (bk s).slotUse 2 1 n == 2) = List.range 210 := by
      refine List.filter_eq_self.mpr fun n hn => ?_
      have := (use n).2 (by simp only [bk, tab, List.map_map, List.mem_map, upto]; exact ⟨n, hn, rfl⟩)
      simp [State.slotUse, State.byte, this]
    have len := sub.length_le
    rw [all, List.length_range] at len
    exact len
  simp only [State.bankPasses, none1, Bool.and_eq_true, decide_eq_true_eq]
  exact ⟨by decide, by omega⟩

theorem test_BankSwapCompletes_1 : (bk sA).now / framePs < (BitVec.ofNat 64 (fr + 1)).toNat
    ∧ (bk sA).bankPasses 2 (1 - (bk sA).fld (F.resStatus.active 2)) = true :=
  ⟨by decide +kernel, (by decide +kernel : 1 - (bk sA).fld (F.resStatus.active 2) = 1) ▸ bk_passes sA⟩

theorem test_LarkCompletes_9 :
    Receives lD 2 4 (tf tpd) (lD.takeAck 2 (fieldsOf (tf tpd)))
    ∧ (∀ (j : Nat),
      1 ≤ j →
        j < 1 →
          (lD.takeAck 2 (fieldsOf (tf tpd))).activeAt (portAxis 2)
              (if portDir 2 = 1 then
                (coordAt (natAt (fieldsOf (tf tpd)).payload 32 4 % 2 ^ 17) (portAxis 2) + j) %
                  (lD.takeAck 2 (fieldsOf (tf tpd))).ringLen (portAxis 2)
              else
                (coordAt (natAt (fieldsOf (tf tpd)).payload 32 4 % 2 ^ 17) (portAxis 2) +
                      (lD.takeAck 2 (fieldsOf (tf tpd))).ringLen (portAxis 2) -
                    j % (lD.takeAck 2 (fieldsOf (tf tpd))).ringLen (portAxis 2)) %
                  (lD.takeAck 2 (fieldsOf (tf tpd))).ringLen (portAxis 2)) =
            false)
    ∧ natAt (fieldsOf (tf tpd)).payload 0 1 = 0
    ∧ (natAt (fieldsOf (tf tpd)).payload 1 1).testBit 1 = true
    ∧ (lD.takeAck 2 (fieldsOf (tf tpd))).betterSource (natAt (fieldsOf (tf tpd)).payload 36 1) 2 = true
    ∧ 1 ≤ 1
    ∧ 1 ≤ (lD.takeAck 2 (fieldsOf (tf tpd))).ringLen (portAxis 2)
    ∧ ((lD.takeAck 2 (fieldsOf (tf tpd))).activeAt (portAxis 2)
        (if portDir 2 = 1 then
          (coordAt (natAt (fieldsOf (tf tpd)).payload 32 4 % 2 ^ 17) (portAxis 2) + 1) %
            (lD.takeAck 2 (fieldsOf (tf tpd))).ringLen (portAxis 2)
        else
          (coordAt (natAt (fieldsOf (tf tpd)).payload 32 4 % 2 ^ 17) (portAxis 2) +
                (lD.takeAck 2 (fieldsOf (tf tpd))).ringLen (portAxis 2) -
              1 % (lD.takeAck 2 (fieldsOf (tf tpd))).ringLen (portAxis 2)) %
            (lD.takeAck 2 (fieldsOf (tf tpd))).ringLen (portAxis 2)) =
      true) :=
  ⟨receives_wf _ (by decide +kernel) (by decide +kernel), fun j a b => absurd a (by omega), by decide +kernel⟩

end W51

namespace W60

/-- An operand or a state of the witnesses below. -/
def cmdE (op : Nat) (args : List Byte) : List Byte := leBytes 1 op ++ leBytes 3 0 ++ leBytes 4 3 ++ leBytes 8 0xC00C ++ args
/-- An operand or a state of the witnesses below. -/
def withCmd (r op : Nat) (args : List Byte) (s : State) : State := (s.setBytes (cmdAt r 3) (cmdE op args)).setRing r { cmdTail := 4, cmdHead := 3, lastSeq := 2, cqTail := 7, cqHead := 2 }
/-- An operand or a state of the witnesses below. -/
def hup : State := fldsTo [(F.hostReady.driverUp, 1), (F.fwEscCtl.l3En, 1), (F.rstCause.source, 2)] live
/-- An operand or a state of the witnesses below. -/
def ldg (k : Nat) : State := { (hup.setFld F.pwrStatus.state 2) with bring := { hup.bring with step := 3 }, ronbin := { resetKind := k } }
/-- An operand or a state of the witnesses below. -/
def kind (k : Nat) : State := { hup with ronbin := { resetKind := k } }
/-- An operand or a state of the witnesses below. -/
def noRail : State := { hup with bring := { hup.bring with mainOk := false } }
/-- An operand or a state of the witnesses below. -/
def warmC : State := withCmd 8 0x10 [] hup
/-- An operand or a state of the witnesses below. -/
def warming : State := { (fldsTo [(F.fenceStatus.level, 1)] hup) with bring := { hup.bring with warm := true } }
/-- An operand or a state of the witnesses below. -/
def bst (b : Bring) (l : List (Fld × Nat)) : State := { (fldsTo l {}) with bring := b }
/-- An operand or a state of the witnesses below. -/
def b2 : State := bst { step := 2 } [(F.pwrStatus.state, 2)]
/-- An operand or a state of the witnesses below. -/
def b3 : State := bst { step := 3, resetN := true, released := true } []
/-- An operand or a state of the witnesses below. -/
def b3n : State := bst { step := 3, resetN := true } []
/-- An operand or a state of the witnesses below. -/
def b3l : State := bst { step := 3, resetN := true, released := true, latched := true } []
/-- An operand or a state of the witnesses below. -/
def b4 (l : List (Fld × Nat)) : State := bst { step := 4, resetN := true, released := true, latched := true } l
/-- An operand or a state of the witnesses below. -/
def links : State := b4 [(F.portCtl.enable 0, 1), (F.portCtl.enable 2, 1), (F.stileStatus.closed, 15)]
/-- An operand or a state of the witnesses below. -/
def trn : State := bst { step := 4, trained := [2] } []
/-- An operand or a state of the witnesses below. -/
def b5 : State := b4 [(F.bootState.state, 5)]
/-- An operand or a state of the witnesses below. -/
def b0 (r : Bool) : State := let s := b4 [(F.unitReady.thermos, 255)]; { s with ronbin := { recovery := r } }
/-- An operand or a state of the witnesses below. -/
def phB (all : Bool) : State := b4 ([(F.phaseStatus.phase, 1)] ++ (if all then [(F.unitReady.thermos, 255), (F.unitReady.tiles, 15), (F.unitReady.meadow, 15), (F.unitReady.root, 15), (F.unitReady.contexts, 255), (F.unitReady.fwCores, 63), (⟨R.funcReady, 0, 13⟩, 0x1FFF)] else []))
/-- An operand or a state of the witnesses below. -/
def phC : State := b4 [(F.phaseStatus.phase, 2)]
/-- An operand or a state of the witnesses below. -/
def emer : State := live.setBit F.pwrStatus.emergency true
/-- An operand or a state of the witnesses below. -/
def cx : State := withCmd 3 0x03 [] { hup with ctxs := [(3, {})] }
/-- An operand or a state of the witnesses below. -/
def fc (f u : Nat) : State := withCmd 8 0x11 (leBytes 1 f ++ leBytes 1 u) hup
/-- An operand or a state of the witnesses below. -/
def fr (f u : Nat) (drain : Bool) (st : Nat) (th : Bool) : State :=
  let s := hup.setFld (F.rootStatus.state 1) st
  { s with fresets := [{ func := f, unit := u, drain := drain, since := 4 * 10 ^ 12 }], threads := if th then [(1, { pend := [pendOne] })] else [] }
/-- An operand or a state of the witnesses below. -/
def cores (n st bst : Nat) : State :=
  let s := fldsTo [(F.bootState.state, bst), (F.coreStatus.state n, st), (F.unitReady.fwCores, 63 - 2 ^ n)] hup
  { s with fwCores := [(n, { loaded := true })], boot := { loadAt := 7 } }
/-- An operand or a state of the witnesses below. -/
def rd7 : RingDone := { cmd := { count := 3, op := 1, flags := 0, seq := 3, cookie := 9, args := leBytes 48 7 }, status := 2, detail := 5, count := 1, time := 88 }
/-- An operand or a state of the witnesses below. -/
def core0 : State := ((cores 0 3 5).setRing 1 { cqTail := 7, done := [rd7] }).setBytes (markAt 1 3) (leBytes 8 3)
/-- An operand or a state of the witnesses below. -/
def c7 : State := { cores 3 1 5 with fresets := [{ func := 7, unit := 3, drain := false, since := 4 * 10 ^ 12 }] }
/-- An operand or a state of the witnesses below. -/
def core2 : State := let s := fldsTo [(F.sweepCtl.enable 0, 1), (F.sweepCtl.enable 3, 1)] (cores 2 3 5); { s with ctxs := [(0, { running := true }), (3, { running := true, phase := .sweep })] }
/-- An operand or a state of the witnesses below. -/
def core3 : State := { cores 3 3 5 with roots := [(1, { enableDue := true })] }

/-! Witnesses of `Obligations.ResetSourcesComplete`, by clause. -/

theorem test_ResetSourcesComplete_2 :
    ¬hup.loading :=
  notLoading_of (by decide +kernel)

theorem test_ResetSourcesComplete_4 :
    (ldg 0).loading :=
  loading_of (by decide +kernel)

theorem test_ResetSourcesComplete_6 :
    noRail.railsOk = false :=
  by decide +kernel

theorem test_ResetSourcesComplete_8 :
    (ldg 0).loading
    ∧ (ldg 0).railsOk = true :=
  ⟨loading_of (by decide +kernel), by decide +kernel⟩

theorem test_ResetSourcesComplete_11 :
    (ldg 0).loading
    ∧ (ldg 0).railsOk = true
    ∧ (ldg 0).bit F.fwEscCtl.l3En = true :=
  ⟨loading_of (by decide +kernel), by decide +kernel⟩

theorem test_ResetSourcesComplete_12 :
    (ldg 0).loading
    ∧ (ldg 0).railsOk = true
    ∧ (ldg 0).hostUp = true :=
  ⟨loading_of (by decide +kernel), by decide +kernel⟩

theorem test_ResetSourcesComplete_13 :
    (ldg 1).loading
    ∧ ((ldg 1).ronbin.resetKind = 1 ∨ (ldg 1).ronbin.resetKind = 2)
    ∧ (ldg 1).railsOk = true :=
  ⟨loading_of (by decide +kernel), .inl (by decide +kernel), by decide +kernel⟩

theorem test_ResetSourcesComplete_14 :
    (ldg 0).loading
    ∧ (ldg 0).railsOk = true
    ∧ resetAllowed (1#8).toNat (0#8).toNat = true :=
  ⟨loading_of (by decide +kernel), by decide +kernel⟩

theorem test_ResetSourcesComplete_15 :
    (ldg 0).loading
    ∧ (ldg 0).railsOk = true
    ∧ (ldg 0).ronbin.recovery = false
    ∧ resetAllowed ((1#16).toNat % 256) ((1#16).toNat / 256) = true :=
  ⟨loading_of (by decide +kernel), by decide +kernel⟩

theorem test_ResetSourcesComplete_16 :
    ¬hup.loading
    ∧ hup.railsOk = true :=
  ⟨notLoading_of (by decide +kernel), by decide +kernel⟩

theorem test_ResetSourcesComplete_17 :
    ¬hup.loading
    ∧ hup.railsOk = true
    ∧ hup.bit F.fwEscCtl.l3En = true
    ∧ hup.fld F.pwrStatus.state ≠ 1 :=
  ⟨notLoading_of (by decide +kernel), by decide +kernel⟩

theorem test_ResetSourcesComplete_18 :
    ¬(kind 2).loading
    ∧ (kind 2).railsOk = true
    ∧ (kind 2).ronbin.resetKind = 2 :=
  ⟨notLoading_of (by decide +kernel), by decide +kernel⟩

theorem test_ResetSourcesComplete_19 :
    hup.bring.step = 4
    ∧ hup.railsOk = true
    ∧ hup.fld F.pwrStatus.state = 3 :=
  by decide +kernel

theorem test_ResetSourcesComplete_20 :
    hup.bring.step = 4
    ∧ hup.railsOk = true
    ∧ hup.fld F.pwrStatus.state = 3
    ∧ hup.hostUp = true :=
  by decide +kernel

theorem test_ResetSourcesComplete_21 :
    (kind 1).bring.step = 4
    ∧ (kind 1).railsOk = true
    ∧ (kind 1).fld F.pwrStatus.state = 3
    ∧ (kind 1).ronbin.resetKind = 1 :=
  by decide +kernel

theorem test_ResetSourcesComplete_23 :
    TakesCmd warmC 8 16 (warmC.cmdEntry 8 3)
    ∧ warmC.bring.step = 4
    ∧ warmC.railsOk = true
    ∧ warmC.fld F.pwrStatus.state = 3 :=
  ⟨takes_of (by decide +kernel), by decide +kernel⟩

theorem test_ResetSourcesComplete_24 :
    warming.bring.warm = true :=
  by decide +kernel

/-! Witnesses of `Obligations.BringUpCompletes`, by clause. -/

theorem test_BringUpCompletes_1 :
    { : State }.bring.auxOk = true
    ∧ { : State }.bring.step < 2 :=
  by decide +kernel

theorem test_BringUpCompletes_2 :
    (true = true ∨ b2.bring.held = false)
    ∧ b2.bring.step = 2
    ∧ b2.bring.mainOk = true
    ∧ b2.bring.pllFailed = false
    ∧ b2.fld F.pwrStatus.state = 2 :=
  ⟨.inl (rfl), by decide +kernel⟩

theorem test_BringUpCompletes_3 :
    b2.bring.step = 2 :=
  by decide +kernel

theorem test_BringUpCompletes_4 :
    b3.bring.step = 3
    ∧ b3.bring.resetN = true
    ∧ b3.bring.pulse = false :=
  by decide +kernel

theorem test_BringUpCompletes_5 :
    b3.bring.released = true
    ∧ b3.bring.latched = false
    ∧ b3.bring.step = 3
    ∧ (5#8).getLsbD 4 = false :=
  by decide +kernel

theorem test_BringUpCompletes_6 :
    b3l.bring.latched = true
    ∧ b3l.bring.step = 3
    ∧ b3l.ronbin.recovery = false :=
  by decide +kernel

theorem test_BringUpCompletes_7 :
    links.bring.step = 4
    ∧ links.ronbin.recovery = false
    ∧ links.bring.linkDone = false :=
  by decide +kernel

theorem test_BringUpCompletes_8 :
    links.bring.step = 4
    ∧ ¬2 ∈ links.bring.trained
    ∧ Tab.get (fun x => 0) links.bring.fails 2 < 3 :=
  by decide +kernel

theorem test_BringUpCompletes_9 :
    2 ∈ trn.bring.trained
    ∧ trn.bring.warm = false
    ∧ trn.findReset 3 2 = none
    ∧ trn.unitUp F.unitReady.thermos 2 = false :=
  by decide +kernel

theorem test_BringUpCompletes_10 :
    (b0 false).bring.step = 4
    ∧ (b0 false).bring.warm = false
    ∧ (b0 false).fld F.bootState.state = 0
    ∧ (b0 false).fld F.unitReady.thermos = 255 :=
  by decide +kernel

theorem test_BringUpCompletes_11 :
    b5.bring.tilesDone = false
    ∧ b5.fld F.bootState.state = 5
    ∧ (∀ (e : Nat), e < 4 → (b5.root e).backlog = []) :=
  by decide +kernel

theorem test_BringUpCompletes_12 :
    5#4 ≠ 0
    ∧ (∀ (e : Nat × Tile), e ∈ { : State }.tiles → e.snd.claimed = false)
    ∧ { : State }.ronbin.recovery = false :=
  by decide +kernel

theorem test_BringUpCompletes_13 :
    (phB true).fld F.phaseStatus.phase = 1
    ∧ (phB true).notReady = 0 :=
  by decide +kernel

theorem test_BringUpCompletes_14 :
    (phB false).fld F.phaseStatus.phase = 1
    ∧ (phB false).notReady ≠ 0 :=
  by decide +kernel

theorem test_BringUpCompletes_15 :
    phC.fld F.phaseStatus.phase = 2 :=
  by decide +kernel

theorem test_BringUpCompletes_16 :
    ({ : State }.bring.latched = false ∨ { : State }.discovers = false)
    ∧ (131071#32).toNat < 2 ^ 17
    ∧ { : State }.ronbin.recovery = false
    ∧ (upto 8).any { : State }.portLive = false :=
  ⟨.inl (by decide +kernel), by decide +kernel⟩

theorem test_BringUpCompletes_17 :
    ¬emer.fld F.pwrStatus.state ∈ [0, 1]
    ∧ emer.bring.auxOk = true
    ∧ emer.bit F.pwrStatus.emergency = true :=
  by decide +kernel

theorem test_BringUpCompletes_18 :
    ¬{ : State }.fld F.pwrStatus.state ∈ [0, 1]
    ∧ { : State }.bring.auxOk = true
    ∧ 4 < 16 :=
  by decide +kernel

/-! Witnesses of `Obligations.FunctionResetsComplete`, by clause. -/

theorem test_FunctionResetsComplete_1 :
    TakesCmd cx 3 3 (cx.cmdEntry 3 3)
    ∧ MayReset cx 12 3 :=
  ⟨takes_of (by decide +kernel), mayReset_of (by decide +kernel)⟩

theorem test_FunctionResetsComplete_2 :
    TakesCmd (fc 8 1) 8 17 ((fc 8 1).cmdEntry 8 3)
    ∧ MayReset (fc 8 1) (((fc 8 1).cmdEntry 8 3).arg 16 1) (((fc 8 1).cmdEntry 8 3).arg 17 1) :=
  ⟨takes_of (by decide +kernel), mayReset_of (by decide +kernel)⟩

theorem test_FunctionResetsComplete_3 :
    MayReset cx (8#8).toNat (1#8).toNat :=
  mayReset_of (by decide +kernel)

theorem test_FunctionResetsComplete_4 :
    resetAllowed (8#8).toNat (77#8).toNat = false :=
  by decide +kernel

theorem test_FunctionResetsComplete_5 :
    MayReset cx ((264#16).toNat % 256) ((264#16).toNat / 256)
    ∧ cx.ronbin.recovery = false :=
  ⟨mayReset_of (by decide +kernel), by decide +kernel⟩

theorem test_FunctionResetsComplete_6 :
    resetAllowed ((19718#16).toNat % 256) ((19718#16).toNat / 256) = false :=
  by decide +kernel

theorem test_FunctionResetsComplete_7 :
    (3#8).toNat < 8
    ∧ (fr 12 3 true 5 false).findReset 12 (3#8).toNat =
      some ((fr 12 3 true 5 false).fresets.headD { func := 0, unit := 0, drain := true, since := 0 : FuncReset })
    ∧ ((fr 12 3 true 5 false).fresets.headD { func := 0, unit := 0, drain := true, since := 0 : FuncReset }).drain = true
    ∧ ((fr 12 3 true 5 false).fresets.headD { func := 0, unit := 0, drain := true, since := 0 : FuncReset }).cmds = []
    ∧ (fr 12 3 true 5 false).resetIdle
        ((fr 12 3 true 5 false).fresets.headD { func := 0, unit := 0, drain := true, since := 0 : FuncReset }) =
      true :=
  by decide +kernel

theorem test_FunctionResetsComplete_8 :
    (3#8).toNat < 8
    ∧ (fr 12 3 true 5 false).findReset 12 (3#8).toNat =
      some ((fr 12 3 true 5 false).fresets.headD { func := 0, unit := 0, drain := true, since := 0 : FuncReset })
    ∧ ((fr 12 3 true 5 false).fresets.headD { func := 0, unit := 0, drain := true, since := 0 : FuncReset }).drain = true
    ∧ ((fr 12 3 true 5 false).fresets.headD { func := 0, unit := 0, drain := true, since := 0 : FuncReset }).cmds = [] :=
  by decide +kernel

theorem test_FunctionResetsComplete_9 :
    (1#8).toNat < 4
    ∧ (fr 8 1 true 5 false).findReset 8 (1#8).toNat =
      some ((fr 8 1 true 5 false).fresets.headD { func := 0, unit := 0, drain := true, since := 0 : FuncReset })
    ∧ ((fr 8 1 true 5 false).fresets.headD { func := 0, unit := 0, drain := true, since := 0 : FuncReset }).drain = true
    ∧ (fr 8 1 true 5 false).resetIdle
        ((fr 8 1 true 5 false).fresets.headD { func := 0, unit := 0, drain := true, since := 0 : FuncReset }) =
      true :=
  by decide +kernel

theorem test_FunctionResetsComplete_10 :
    (fr 8 1 false 5 false).noneQueued
    ∧ (1#8).toNat < 4
    ∧ (fr 8 1 false 5 false).findReset 8 (1#8).toNat =
      some ((fr 8 1 false 5 false).fresets.headD { func := 0, unit := 0, drain := true, since := 0 : FuncReset })
    ∧ ((fr 8 1 false 5 false).fresets.headD { func := 0, unit := 0, drain := true, since := 0 : FuncReset }).drain = false
    ∧ ((fr 8 1 false 5 false).fresets.headD { func := 0, unit := 0, drain := true, since := 0 : FuncReset }).cmds = []
    ∧ ((fr 8 1 false 5 false).root (1#8).toNat).backlog = []
    ∧ (fr 8 1 false 5 false).runtimeUp = true :=
  ⟨noneQueued_of (by decide +kernel), by decide +kernel⟩

theorem test_FunctionResetsComplete_11 :
    ((1#8).toNat = 1 ∨ (1#8).toNat = 2)
    ∧ (1#8).toNat < 4
    ∧ (fr 1 1 true 5 false).findReset (1#8).toNat (1#8).toNat =
      some ((fr 1 1 true 5 false).fresets.headD { func := 0, unit := 0, drain := true, since := 0 : FuncReset })
    ∧ ((fr 1 1 true 5 false).fresets.headD { func := 0, unit := 0, drain := true, since := 0 : FuncReset }).unit = (1#8).toNat
    ∧ resetFunc ((fr 1 1 true 5 false).fresets.headD { func := 0, unit := 0, drain := true, since := 0 : FuncReset }).func = 1
    ∧ ((fr 1 1 true 5 false).fresets.headD { func := 0, unit := 0, drain := true, since := 0 : FuncReset }).drain = true
    ∧ (fr 1 1 true 5 false).resetIdle
        ((fr 1 1 true 5 false).fresets.headD { func := 0, unit := 0, drain := true, since := 0 : FuncReset }) =
      true :=
  ⟨.inl (by decide +kernel), by decide +kernel⟩

theorem test_FunctionResetsComplete_12 :
    ((1#8).toNat = 1 ∨ (1#8).toNat = 2)
    ∧ (1#8).toNat < 4
    ∧ (fr 1 1 false 5 false).findReset (1#8).toNat (1#8).toNat =
      some ((fr 1 1 false 5 false).fresets.headD { func := 0, unit := 0, drain := true, since := 0 : FuncReset })
    ∧ ((fr 1 1 false 5 false).fresets.headD { func := 0, unit := 0, drain := true, since := 0 : FuncReset }).unit = (1#8).toNat
    ∧ resetFunc ((fr 1 1 false 5 false).fresets.headD { func := 0, unit := 0, drain := true, since := 0 : FuncReset }).func = 1
    ∧ ((fr 1 1 false 5 false).fresets.headD { func := 0, unit := 0, drain := true, since := 0 : FuncReset }).drain = false
    ∧ ((fr 1 1 false 5 false).fresets.headD { func := 0, unit := 0, drain := true, since := 0 : FuncReset }).cmds = [] :=
  ⟨.inl (by decide +kernel), by decide +kernel⟩

theorem test_FunctionResetsComplete_13 :
    (fr 3 3 false 5 false).findReset 3 (3#8).toNat =
      some ((fr 3 3 false 5 false).fresets.headD { func := 0, unit := 0, drain := true, since := 0 : FuncReset })
    ∧ ((fr 3 3 false 5 false).fresets.headD { func := 0, unit := 0, drain := true, since := 0 : FuncReset }).func = 3
    ∧ ((fr 3 3 false 5 false).fresets.headD { func := 0, unit := 0, drain := true, since := 0 : FuncReset }).unit = (3#8).toNat
    ∧ (3#8).toNat < 8
    ∧ ((fr 3 3 false 5 false).fresets.headD { func := 0, unit := 0, drain := true, since := 0 : FuncReset }).drain = false
    ∧ ((fr 3 3 false 5 false).fresets.headD { func := 0, unit := 0, drain := true, since := 0 : FuncReset }).cmds = [] :=
  by decide +kernel

theorem test_FunctionResetsComplete_14 :
    ((fr 4 3 false 5 false).setFld (F.portStatus.state 3) psUp).findReset 4 (3#8).toNat =
      some
        (((fr 4 3 false 5 false).setFld (F.portStatus.state 3) psUp).fresets.headD
          { func := 0, unit := 0, drain := true, since := 0 : FuncReset })
    ∧ (((fr 4 3 false 5 false).setFld (F.portStatus.state 3) psUp).fresets.headD
          { func := 0, unit := 0, drain := true, since := 0 : FuncReset }).func =
      4
    ∧ (((fr 4 3 false 5 false).setFld (F.portStatus.state 3) psUp).fresets.headD
          { func := 0, unit := 0, drain := true, since := 0 : FuncReset }).unit =
      (3#8).toNat
    ∧ (((fr 4 3 false 5 false).setFld (F.portStatus.state 3) psUp).fresets.headD
          { func := 0, unit := 0, drain := true, since := 0 : FuncReset }).drain =
      false
    ∧ (((fr 4 3 false 5 false).setFld (F.portStatus.state 3) psUp).fresets.headD
          { func := 0, unit := 0, drain := true, since := 0 : FuncReset }).cmds =
      []
    ∧ (if (3#8).toNat = 255 then
      ∀ (p : Nat),
        p < 8 →
          ((fr 4 3 false 5 false).setFld (F.portStatus.state 3) psUp).portLive p = true ∨
            ((fr 4 3 false 5 false).setFld (F.portStatus.state 3) psUp).portState p = psLoop ∨
              ((fr 4 3 false 5 false).setFld (F.portStatus.state 3) psUp).bit (F.portCtl.enable p) = false
    else
      ((fr 4 3 false 5 false).setFld (F.portStatus.state 3) psUp).portLive (3#8).toNat = true ∨
        ((fr 4 3 false 5 false).setFld (F.portStatus.state 3) psUp).portState (3#8).toNat = psLoop ∨
          ((fr 4 3 false 5 false).setFld (F.portStatus.state 3) psUp).bit (F.portCtl.enable (3#8).toNat) = false) :=
  by decide +kernel

theorem test_FunctionResetsComplete_15 :
    (fr 4 255 false 5 false).findReset 4 (255#8).toNat =
      some ((fr 4 255 false 5 false).fresets.headD { func := 0, unit := 0, drain := true, since := 0 : FuncReset })
    ∧ ((fr 4 255 false 5 false).fresets.headD { func := 0, unit := 0, drain := true, since := 0 : FuncReset }).func = 4
    ∧ ((fr 4 255 false 5 false).fresets.headD { func := 0, unit := 0, drain := true, since := 0 : FuncReset }).unit = (255#8).toNat
    ∧ ((fr 4 255 false 5 false).fresets.headD { func := 0, unit := 0, drain := true, since := 0 : FuncReset }).drain = false
    ∧ ((fr 4 255 false 5 false).fresets.headD { func := 0, unit := 0, drain := true, since := 0 : FuncReset }).cmds = []
    ∧ (¬if (255#8).toNat = 255 then
        ∀ (p : Nat),
          p < 8 →
            (fr 4 255 false 5 false).portLive p = true ∨
              (fr 4 255 false 5 false).portState p = psLoop ∨ (fr 4 255 false 5 false).bit (F.portCtl.enable p) = false
      else
        (fr 4 255 false 5 false).portLive (255#8).toNat = true ∨
          (fr 4 255 false 5 false).portState (255#8).toNat = psLoop ∨
            (fr 4 255 false 5 false).bit (F.portCtl.enable (255#8).toNat) = false) :=
  by decide +kernel

theorem test_FunctionResetsComplete_16 :
    cx.inReset = false
    ∧ cx.inOptions = false
    ∧ cx.anyRunning = false
    ∧ cx.findReset 5 255 = none :=
  by decide +kernel

theorem test_FunctionResetsComplete_17 :
    (fr 9 255 true 5 false).findReset 9 255 =
      some ((fr 9 255 true 5 false).fresets.headD { func := 0, unit := 0, drain := true, since := 0 : FuncReset })
    ∧ ((fr 9 255 true 5 false).fresets.headD { func := 0, unit := 0, drain := true, since := 0 : FuncReset }).func = 9
    ∧ ((fr 9 255 true 5 false).fresets.headD { func := 0, unit := 0, drain := true, since := 0 : FuncReset }).unit = 255
    ∧ ((fr 9 255 true 5 false).fresets.headD { func := 0, unit := 0, drain := true, since := 0 : FuncReset }).drain = true :=
  by decide +kernel

theorem test_FunctionResetsComplete_18 :
    (fr 9 255 false 5 false).findReset 9 255 =
      some ((fr 9 255 false 5 false).fresets.headD { func := 0, unit := 0, drain := true, since := 0 : FuncReset })
    ∧ ((fr 9 255 false 5 false).fresets.headD { func := 0, unit := 0, drain := true, since := 0 : FuncReset }).func = 9
    ∧ ((fr 9 255 false 5 false).fresets.headD { func := 0, unit := 0, drain := true, since := 0 : FuncReset }).unit = 255
    ∧ ((fr 9 255 false 5 false).fresets.headD { func := 0, unit := 0, drain := true, since := 0 : FuncReset }).drain = false
    ∧ ((fr 9 255 false 5 false).fresets.headD { func := 0, unit := 0, drain := true, since := 0 : FuncReset }).cmds = [] :=
  by decide +kernel

theorem test_FunctionResetsComplete_19 :
    c7.noBacklog
    ∧ (c7.fwCore 3).loaded = true
    ∧ (∀ (c : Nat), c < 8 → (c7.ctx c).starting = none)
    ∧ c7.publishes = []
    ∧ c7.findReset 7 3 = some (c7.fresets.headD { func := 0, unit := 0, drain := true, since := 0 : FuncReset })
    ∧ (c7.fresets.headD { func := 0, unit := 0, drain := true, since := 0 : FuncReset }).func = 7
    ∧ (c7.fresets.headD { func := 0, unit := 0, drain := true, since := 0 : FuncReset }).unit = 3
    ∧ (c7.fresets.headD { func := 0, unit := 0, drain := true, since := 0 : FuncReset }).cmds = []
    ∧ c7.coreState 3 = 1 :=
  ⟨noBacklog_of (by decide +kernel), by decide +kernel⟩

theorem test_FunctionResetsComplete_20 :
    (cores 3 1 4).noBacklog
    ∧ ((cores 3 1 4).fwCore 3).loaded = true
    ∧ (∀ (c : Nat), c < 8 → ((cores 3 1 4).ctx c).starting = none)
    ∧ (cores 3 1 4).publishes = []
    ∧ (cores 3 1 4).findReset 7 3 = none
    ∧ (cores 3 1 4).coreState 3 = 1 :=
  ⟨noBacklog_of (by decide +kernel), by decide +kernel⟩

theorem test_FunctionResetsComplete_21 :
    core0.noBacklog
    ∧ (core0.fwCore 0).loaded = true
    ∧ (∀ (c : Nat), c < 8 → (core0.ctx c).starting = none)
    ∧ core0.publishes = []
    ∧ core0.findReset 7 0 = none
    ∧ 0 = 0
    ∧ (∀ (i : Nat), i < 9 → (core0.ring i).run = [] ∧ (core0.ring i).cmdHead = (core0.ring i).cmdTail)
    ∧ (core0.ring 1).done = [rd7]
    ∧ core0.memNat (markAt 1 rd7.cmd.count) 8 = rd7.cmd.seq
    ∧ (∀ (i : Nat), i < 9 → i ≠ 1 → (core0.ring i).done = [])
    ∧ core0.coreState 0 = 3 :=
  ⟨noBacklog_of (by decide +kernel), by decide +kernel⟩

theorem test_FunctionResetsComplete_22 :
    (cores 1 3 5).noBacklog
    ∧ ((cores 1 3 5).fwCore 1).loaded = true
    ∧ (∀ (c : Nat), c < 8 → ((cores 1 3 5).ctx c).starting = none)
    ∧ (cores 1 3 5).publishes = []
    ∧ (cores 1 3 5).findReset 7 1 = none
    ∧ 1 = 1
    ∧ (cores 1 3 5).coreState 1 = 3 :=
  ⟨noBacklog_of (by decide +kernel), by decide +kernel⟩

theorem test_FunctionResetsComplete_23 :
    core2.noBacklog
    ∧ (core2.fwCore 2).loaded = true
    ∧ (∀ (c : Nat), c < 8 → (core2.ctx c).starting = none)
    ∧ core2.publishes = []
    ∧ core2.findReset 7 2 = none
    ∧ 2 = 2
    ∧ core2.coreState 2 = 3 :=
  ⟨noBacklog_of (by decide +kernel), by decide +kernel⟩

theorem test_FunctionResetsComplete_24 :
    core3.noBacklog
    ∧ (core3.fwCore 3).loaded = true
    ∧ (∀ (c : Nat), c < 8 → (core3.ctx c).starting = none)
    ∧ core3.publishes = []
    ∧ core3.findReset 7 3 = none
    ∧ 3 = 3
    ∧ core3.coreState 3 = 3 :=
  ⟨noBacklog_of (by decide +kernel), by decide +kernel⟩

theorem test_FunctionResetsComplete_25 :
    (cores 4 3 5).noBacklog
    ∧ ((cores 4 3 5).fwCore 4).loaded = true
    ∧ (∀ (c : Nat), c < 8 → ((cores 4 3 5).ctx c).starting = none)
    ∧ (cores 4 3 5).publishes = []
    ∧ (cores 4 3 5).findReset 7 4 = none
    ∧ 4 = 4
    ∧ (cores 4 3 5).coreState 4 = 3 :=
  ⟨noBacklog_of (by decide +kernel), by decide +kernel⟩

theorem test_FunctionResetsComplete_26 :
    (cores 5 3 5).noBacklog
    ∧ ((cores 5 3 5).fwCore 5).loaded = true
    ∧ (∀ (c : Nat), c < 8 → ((cores 5 3 5).ctx c).starting = none)
    ∧ (cores 5 3 5).publishes = []
    ∧ (cores 5 3 5).findReset 7 5 = none
    ∧ 5 = 5
    ∧ (cores 5 3 5).coreState 5 = 3 :=
  ⟨noBacklog_of (by decide +kernel), by decide +kernel⟩

end W60

namespace W61

/-- An operand or a state of the witnesses below. -/
def hup : State := fldsTo [(F.hostReady.driverUp, 1)] live
/-- An operand or a state of the witnesses below. -/
def boot1 : State := fldsTo [(F.bootState.state, 1), (F.bootImageLen.val, 1030), (F.bootImageAddr.val, 5)] hup
/-- An operand or a state of the witnesses below. -/
def boot6 : State := fldsTo [(F.bootState.state, 6), (F.bootImageLen.val, 1030)] hup
/-- An operand or a state of the witnesses below. -/
def hot : State := { boot1 with d3hot := true }
/-- An operand or a state of the witnesses below. -/
def read (n : Nat) : State := fldsTo [(F.bootState.state, 2), (F.bootImageLen.val, n)] hup
/-- An image header alone, its length field `len`. -/
def img (len key : Nat) : List Byte := leBytes 4 0x31545250 ++ leBytes 2 1 ++ leBytes 2 0 ++ leBytes 4 0x0105 ++ leBytes 4 0x0203 ++ leBytes 4 4 ++ leBytes 1 key ++ leBytes 3 0 ++ leBytes 4 len
/-- An operand or a state of the witnesses below. -/
def seg (core kind off len file entry : Nat) : List Byte := leBytes 1 core ++ leBytes 1 kind ++ leBytes 2 0 ++ leBytes 4 off ++ leBytes 4 len ++ leBytes 4 file ++ leBytes 4 entry ++ leBytes 12 0
/-- An operand or a state of the witnesses below. -/
def cst (n st : Nat) (loaded : Bool) (w : List Nat) : State :=
  let s := fldsTo [(F.coreStatus.state n, st), (F.wdtCfg.en n, 1)] hup
  { s with fwCores := [(n, { loaded := loaded, window := w })] }
/-- An operand or a state of the witnesses below. -/
def held (l : List FwSeg) : State := { (cst 3 5 false []) with boot := { segs := l } }
/-- An operand or a state of the witnesses below. -/
def oneSeg : FwSeg := { core := 3, kind := 0, off := 0x180000, len := 8, file := 0x200, entry := 0x180000 }
/-- An operand or a state of the witnesses below. -/
def again (d : BitVec 384) : State := { (cst 3 3 false []) with boot := { segs := [oneSeg] }, fwCores := [(3, { digest := d })] }
/-- An operand or a state of the witnesses below. -/
def con (tx : Nat) (l : Tab LogSlot) : State := { (fldsTo [(F.conCtl.rxEn, 1), (F.conCtl.txEn, tx)] hup) with log := l }
/-- An operand or a state of the witnesses below. -/
def ent (code : Nat) (sev : Nat) (st : Nat) (k : Nat) : LogSlot := { code := code, sev := sev, func := 3, unit := 1, time := 77, state := st, merged := 1, lastTime := 77, seq := k }
/-- An operand or a state of the witnesses below. -/
def two : Tab LogSlot := [(0, ent 0x3003 1 1 1), (5, ent 0x6001 2 2 2)]
/-- An operand or a state of the witnesses below. -/
def merged : State := { hup with log := [(0, { ent 0x3001 1 1 1 with func := 2, unit := 0 })] }
/-- An operand or a state of the witnesses below. -/
def bad : State := { hup with badWords := [thermosKey 2 0x40] }
/-- An operand or a state of the witnesses below. -/
def newest (n : Nat) (u : State) : List LogSlot := ((u.log.filter fun e => e.2.state != 0).map (·.2) |>.reverse).take n
/-- An operand or a state of the witnesses below. -/
def conFull : State := let s := (con 0 []).setBytes conBase (List.replicate 8180 (65 : Byte)); { s.setFld F.conStatus.bytes 8180 with boot := { s.boot with lines := [100,8080] } }
/-- An operand or a state of the witnesses below. -/
def patrol (en : Nat) : State := (hup.setFld (F.thermosCtl.patrolEn 2) en).setReg (R.thermosPatrolPos 2) 0xFFFFFFFE0
/-- An operand or a state of the witnesses below. -/
def coreUp : State := cst 3 2 true []

/-! Witnesses of `Obligations.FirmwareCoresComplete`, by clause. -/

theorem test_FirmwareCoresComplete_1 :
    (boot1.fld F.bootState.state = 1 ∨ boot1.fld F.bootState.state = 6)
    ∧ boot1.hostUp = true
    ∧ boot1.d3hot = false :=
  ⟨.inl (by decide +kernel), by decide +kernel⟩

theorem test_FirmwareCoresComplete_2 :
    (read 1030).fld F.bootState.state = 2
    ∧ (read 1030).ronbin.restart = none :=
  by decide +kernel

theorem test_FirmwareCoresComplete_3 :
    (read 1030).fld F.bootState.state = 2
    ∧ (read 1030).ronbin.restart = none
    ∧ (read 1030).imageReject (padTo ((read 1030).fld F.bootImageLen.val) (img 1030 0))
        (List.map (segOf (padTo ((read 1030).fld F.bootImageLen.val) (img 1030 0)))
          (upto (natAt (padTo ((read 1030).fld F.bootImageLen.val) (img 1030 0)) 6 2))) ≠
      0 :=
  by decide +kernel

theorem test_FirmwareCoresComplete_5 :
    hup.bit (F.wdtCfg.en 3) = true
    ∧ hup.coreAlive 3 = true
    ∧ hup.coreState 3 ≠ 3
    ∧ (hup.windowOf 3).length < 2 :=
  by decide +kernel

theorem test_FirmwareCoresComplete_6 :
    (cst 3 2 true [4900000000000, 4950000000000]).bit (F.wdtCfg.en 3) = true
    ∧ (cst 3 2 true [4900000000000, 4950000000000]).coreAlive 3 = true
    ∧ (cst 3 2 true [4900000000000, 4950000000000]).coreState 3 ≠ 3
    ∧ 2 ≤ ((cst 3 2 true [4900000000000, 4950000000000]).windowOf 3).length :=
  by decide +kernel

theorem test_FirmwareCoresComplete_7 :
    hup.coreAlive 3 = true
    ∧ (hup.windowOf 3).length < 2 :=
  by decide +kernel

theorem test_FirmwareCoresComplete_8 :
    (cst 3 2 true [4900000000000, 4950000000000]).coreAlive 3 = true
    ∧ 2 ≤ ((cst 3 2 true [4900000000000, 4950000000000]).windowOf 3).length :=
  by decide +kernel

theorem test_FirmwareCoresComplete_9 :
    hup.coreAlive 3 = true :=
  by decide +kernel

theorem test_FirmwareCoresComplete_10 :
    hup.coreState 3 ≠ 4
    ∧ hup.coreState 3 ≠ 5 :=
  by decide +kernel

theorem test_FirmwareCoresComplete_11 :
    (held []).coreState 3 = 5
    ∧ (held []).boot.segs = [] :=
  by decide +kernel

theorem test_FirmwareCoresComplete_12 :
    (held [oneSeg]).coreState 3 = 5
    ∧ (held [oneSeg]).boot.segs ≠ [] :=
  by decide +kernel

theorem test_FirmwareCoresComplete_13 :
    (again (sha384 ((again 0).segBytes 3))).coreState 3 = 3
    ∧ (again (sha384 ((again 0).segBytes 3))).ronbin.restart = none
    ∧ ((again (sha384 ((again 0).segBytes 3))).fwCore 3).loaded = false
    ∧ sha384 ((again (sha384 ((again 0).segBytes 3))).segBytes 3) = ((again (sha384 ((again 0).segBytes 3))).fwCore 3).digest :=
  by decide +kernel

theorem test_FirmwareCoresComplete_14 :
    (again 5).coreState 3 = 3
    ∧ (again 5).ronbin.restart = none
    ∧ ((again 5).fwCore 3).loaded = false
    ∧ sha384 ((again 5).segBytes 3) ≠ ((again 5).fwCore 3).digest :=
  by decide +kernel

theorem test_FirmwareCoresComplete_15 :
    hup.coreRuns 3 = true :=
  by decide +kernel

/-! Witnesses of `Obligations.ConsoleAndWordsComplete`, by clause. -/

theorem test_ConsoleAndWordsComplete_1 :
    (con 1 two).consoleOn = true :=
  by decide +kernel

theorem test_ConsoleAndWordsComplete_4 :
    (0 = 0 ∨ 64 < 0)
    ∧ (con 1 two).consoleOn = true :=
  ⟨.inl (rfl), by decide +kernel⟩

theorem test_ConsoleAndWordsComplete_5 :
    (con 1 two).consoleOn = true
    ∧ 0 < 1
    ∧ 1 ≤ 64
    ∧ (con 1 two).bit F.conCtl.txEn = true
    ∧ (con 1 two).boot.lines = [] :=
  by decide +kernel

theorem test_ConsoleAndWordsComplete_9 :
    LogRoom hup 12289 1 2 (1 / 64) 0
    ∧ placeOf 8392704 = Place.meadow 1 :=
  ⟨logRoom_of (by decide +kernel), by decide +kernel⟩

theorem test_ConsoleAndWordsComplete_10 :
    LogRoom hup 12291 1 3 2 0
    ∧ placeOf 1236950581503 =
      Place.thermos 2
        (match placeOf 1236950581503 with
        | Place.thermos stack i => i
        | x => 0) :=
  ⟨logRoom_of (by decide +kernel), by decide +kernel⟩

theorem test_ConsoleAndWordsComplete_11 :
    fwSram ≤ fwSram
    ∧ fwSram < 4194304 + fwSram :=
  by decide +kernel

theorem test_ConsoleAndWordsComplete_12 :
    LogRoom hup 12290 2 2 (1 / 64) 0
    ∧ placeOf 8392704 = Place.meadow 1 :=
  ⟨logRoom_of (by decide +kernel), by decide +kernel⟩

theorem test_ConsoleAndWordsComplete_13 :
    placeOf 1236950581503 =
      Place.thermos 2
        (match placeOf 1236950581503 with
        | Place.thermos stack i => i
        | x => 0) :=
  by decide +kernel

theorem test_ConsoleAndWordsComplete_14 :
    524288 * 3 + fwSram ≤ fwSram + 2097144
    ∧ fwSram + 2097144 < 524288 * (3 + 1) + fwSram
    ∧ hup.coreAlive 3 = true
    ∧ (hup.windowOf 3).length < 2 :=
  by decide +kernel

theorem test_ConsoleAndWordsComplete_15 :
    hup.bit (F.thermosCtl.patrolEn 2) = true
    ∧ hup.unitUp F.unitReady.thermos 2 = true
    ∧ hup.badIn (thermosKey 2 (hup.fld (F.thermosPatrolPos.val 2))) 32 = none :=
  by decide +kernel

/-- An image of the six cores. -/
def image6 : List Byte :=
  leBytes 4 0x31545250 ++ leBytes 2 1 ++ leBytes 2 6 ++ leBytes 4 0x0105 ++ leBytes 4 0x0203 ++ leBytes 4 4 ++ leBytes 4 0 ++ leBytes 4 1030
    ++ leBytes 100 0 ++ (upto 6).flatMap fun n => seg n 3 (0x80000 * n) 8 512 (0x80000 * n)

def segs6 : List FwSeg := (upto 6).map fun n => { core := n, kind := 3, off := 0x80000 * n, len := 8, file := 512, entry := 0x80000 * n }

/-- An image passes every check where its signature holds (the public key is a constant of `Config`). -/
theorem test_FirmwareCoresComplete_16 : (read 1030).fld F.bootState.state = 2 ∧ (read 1030).ronbin.restart = none
    ∧ (upto (natAt image6 6 2)).map (segOf image6) = segs6
    ∧ (signatureHolds 0 1030 image6 = true → (read 1030).imageReject image6 segs6 = 0) := by
  refine ⟨by decide +kernel, by decide +kernel, by decide +kernel, fun h => ?_⟩
  have len : (read 1030).fld F.bootImageLen.val = 1030 := by decide +kernel
  have key : natAt image6 20 1 = 0 := by decide +kernel
  simp only [State.imageReject, len, key]
  rw [if_neg (by decide +kernel), if_neg (by decide +kernel), if_neg (by decide +kernel), if_neg (by decide +kernel),
    if_neg (by decide +kernel), if_neg (by decide +kernel), if_neg (by simpa using h), if_neg (by decide +kernel)]

end W61

namespace W62

/-- Cause `b` holds level `v`. -/
def cause (b v : Nat) (s : State) : State := s.setCause b v
/-- An operand or a state of the witnesses below. -/
def emer (s : State) : State := s.setBit F.pwrStatus.emergency true
/-- An operand or a state of the witnesses below. -/
def pins (s : State) : State := fldsTo [(F.pinCtl.throttleInEn, 1), (F.pinCtl.stopInEn, 1)] s
/-- An operand or a state of the witnesses below. -/
def peakV (u : State) : Nat := match u.out.getLast? with | some (.readData l) => leNat l | _ => 0
/-- An operand or a state of the witnesses below. -/
def ent (code : Nat) (sev : Nat) (st : Nat) (fl : Nat) : LogSlot := { code := code, sev := sev, func := 3, unit := 1, time := 77, state := st, flags := fl, merged := 1, lastTime := 77, seq := 9 }
/-- An operand or a state of the witnesses below. -/
def logs (l : Tab LogSlot) : State := { live with log := l }
/-- An operand or a state of the witnesses below. -/
def named (a : Word) : List Nat := raisedContexts (bitsAt a 0 16) (bitsAt a 24 8) (bitsAt a 32 32)
/-- An operand or a state of the witnesses below. -/
def cx (ph : StepPhase) : State := { live with ctxs := [(0, { running := true, phase := ph })] }
/-- An operand or a state of the witnesses below. -/
def fen (l : Nat) (s : State) : State := s.setFld F.fenceStatus.level l
/-- An operand or a state of the witnesses below. -/
def moving (s : State) : State := s.setFld F.stileStatus.moving 1
/-- An operand or a state of the witnesses below. -/
def fatal (s : State) : State := { s with log := [(7, ent 0x6004 5 1 1)] }

/-! Witnesses of `Obligations.PowerAndPinsComplete`, by clause. -/

theorem test_PowerAndPinsComplete_1 :
    (let __src := live;
          { pending := __src.pending, freeCount := __src.freeCount, out := __src.out, regs := __src.regs, mem := __src.mem,
            badWords := __src.badWords, threads := __src.threads, tiles := __src.tiles, ctxs := __src.ctxs, hamper := __src.hamper,
            roots := __src.roots, log := __src.log, hist := __src.hist, notices := __src.notices, faultLow := __src.faultLow,
            stopFrozen := __src.stopFrozen, vecCount := __src.vecCount, ports := __src.ports, coordKnown := __src.coordKnown,
            lasers := __src.lasers, stileAcks := __src.stileAcks, xfers := __src.xfers, nextTid := __src.nextTid,
            streams := __src.streams, launches := __src.launches, reassemblies := __src.reassemblies, rxWait := __src.rxWait,
            arrived := __src.arrived, accepted := __src.accepted, shardFailed := __src.shardFailed, lark := __src.lark,
            rings := __src.rings, intakes := __src.intakes, publishes := __src.publishes, d3hot := __src.d3hot, cfg := __src.cfg,
            maxRead := __src.maxRead, maxPayload := __src.maxPayload, scaleFail := __src.scaleFail, tileFail := __src.tileFail,
            objs := __src.objs, causes := __src.causes, fwCores := __src.fwCores, boot := __src.boot,
            bring :=
              let __src := live.bring;
              { mainOk := __src.mainOk, auxOk := false, resetN := __src.resetN, perst := __src.perst, pulse := __src.pulse,
                step := __src.step, released := __src.released, latched := __src.latched, pllFailed := __src.pllFailed,
                linkDone := __src.linkDone, trained := __src.trained, fails := __src.fails, tilesDone := __src.tilesDone,
                dieFailed := __src.dieFailed, warm := __src.warm, fwClosed := __src.fwClosed, held := __src.held,
                alive := __src.alive : Bring },
            fresets := __src.fresets, flash := __src.flash, ronbin := __src.ronbin : State }).bring.auxOk =
      false :=
  by decide +kernel

theorem test_PowerAndPinsComplete_4 :
    live.bring.auxOk = true
    ∧ causeSteps 2 = true :=
  by decide +kernel

theorem test_PowerAndPinsComplete_5 :
    live.bring.auxOk = true
    ∧ 3 = 3 :=
  by decide +kernel

theorem test_PowerAndPinsComplete_6 :
    live.bring.auxOk = true
    ∧ causeReleases 4 = true :=
  by decide +kernel

theorem test_PowerAndPinsComplete_7 :
    (cause 5 3 live).bring.auxOk = true
    ∧ causeSteps 5 = true
    ∧ (cause 5 3 live).causeLevel 5 ≠ 0 :=
  by decide +kernel

theorem test_PowerAndPinsComplete_8 :
    live.bring.auxOk = true
    ∧ live.bit F.pwrStatus.emergency = false
    ∧ causeStepsDown 2 = true :=
  by decide +kernel

theorem test_PowerAndPinsComplete_9 :
    live.bring.auxOk = true
    ∧ live.bit F.pwrStatus.emergency = false
    ∧ causeReleases 4 = true :=
  by decide +kernel

theorem test_PowerAndPinsComplete_10 :
    (emer (cause 5 3 live)).bring.auxOk = true
    ∧ (emer (cause 5 3 live)).bit F.pwrStatus.emergency = true :=
  by decide +kernel

theorem test_PowerAndPinsComplete_12 :
    live.bring.auxOk = true :=
  by decide +kernel

theorem test_PowerAndPinsComplete_18 :
    live.bring.auxOk = true
    ∧ 3 ≤ 3
    ∧ (live.fld F.emergCause.val).testBit 3 = false :=
  by decide +kernel

theorem test_PowerAndPinsComplete_20 :
    live.bring.auxOk = true
    ∧ live.disturbed = false :=
  by decide +kernel

theorem test_PowerAndPinsComplete_21 :
    (cause 5 3 live).bring.auxOk = true
    ∧ (cause 5 3 live).disturbed = true :=
  by decide +kernel

/-! Witnesses of `Obligations.LogAndFenceComplete`, by clause. -/

theorem test_LogAndFenceComplete_1 :
    (logs [(3, ent 12291 1 1 1)]).coreRuns 4 = true
    ∧ (logs [(3, ent 12291 1 1 1)]).handlingSlot = none
    ∧ (logs [(3, ent 12291 1 1 1)]).nextSlot = some (3, ent 12291 1 1 1)
    ∧ (ent 12291 1 1 1).flags.testBit 0 = true :=
  by decide +kernel

theorem test_LogAndFenceComplete_2 :
    (logs [(3, ent 12291 1 1 0)]).coreRuns 4 = true
    ∧ (logs [(3, ent 12291 1 1 0)]).handlingSlot = none
    ∧ (logs [(3, ent 12291 1 1 0)]).nextSlot = some (3, ent 12291 1 1 0)
    ∧ (ent 12291 1 1 0).flags.testBit 0 = false
    ∧ above
        ((logs [(3, ent 12291 1 1 0)]).ring
            (eventRing (ent 12291 1 1 0).code (ent 12291 1 1 0).func (ent 12291 1 1 0).unit (ent 12291 1 1 0).flags)).eqTail
        ((logs [(3, ent 12291 1 1 0)]).ring
            (eventRing (ent 12291 1 1 0).code (ent 12291 1 1 0).func (ent 12291 1 1 0).unit (ent 12291 1 1 0).flags)).eqHead <
      8192 :=
  by decide +kernel

theorem test_LogAndFenceComplete_3 :
    (logs [(3, ent 12291 1 2 0)]).coreRuns 4 = true
    ∧ (logs [(3, ent 12291 1 2 0)]).handlingSlot = some 3 :=
  by decide +kernel

theorem test_LogAndFenceComplete_4 :
    (logs [(3, ent 12291 1 2 0), (4, ent 24577 2 1 0)]).coreRuns 4 = true
    ∧ (logs [(3, ent 12291 1 2 0), (4, ent 24577 2 1 0)]).handlingSlot = some 3
    ∧ (logs [(3, ent 12291 1 2 0), (4, ent 24577 2 1 0)]).preempt = true :=
  by decide +kernel

theorem test_LogAndFenceComplete_5 :
    bitsAt (50409473#64) 16 3 < 3 :=
  by decide +kernel

theorem test_LogAndFenceComplete_6 :
    bitsAt (201551874#64) 16 3 = 3 :=
  by decide +kernel

theorem test_LogAndFenceComplete_7 :
    bitsAt (151281665#64) 16 3 = 4 :=
  by decide +kernel

theorem test_LogAndFenceComplete_8 :
    bitsAt (50683905#64) 16 3 = 5 :=
  by decide +kernel

theorem test_LogAndFenceComplete_9 :
    5 < bitsAt (50749441#64) 16 3 :=
  by decide +kernel

theorem test_LogAndFenceComplete_10 :
    live.fld F.fenceStatus.level = 0 :=
  by decide +kernel

theorem test_LogAndFenceComplete_11 :
    (fen 1 live).fld F.fenceStatus.level ≠ 0 :=
  by decide +kernel

theorem test_LogAndFenceComplete_12 :
    (upto 4).any live.closeRefused = false :=
  by decide +kernel

theorem test_LogAndFenceComplete_13 :
    (upto 4).any live.closeRefused = false
    ∧ live.ronbin.recovery = false
    ∧ live.fld F.fenceStatus.level ≤ 2 :=
  by decide +kernel

theorem test_LogAndFenceComplete_14 :
    (upto 4).any (moving live).closeRefused = true :=
  by decide +kernel

theorem test_LogAndFenceComplete_15 :
    (List.any (fen 1 live).log fun e => e.snd.state != 0 && e.snd.sev == 5) = false
    ∧ (fen 1 live).fld F.fenceStatus.level ≠ 0 :=
  by decide +kernel

theorem test_LogAndFenceComplete_16 :
    (List.any live.log fun e => e.snd.state != 0 && e.snd.sev == 5) = false
    ∧ live.fld F.fenceStatus.level = 0 :=
  by decide +kernel

theorem test_LogAndFenceComplete_17 :
    (List.any (fatal (fen 1 live)).log fun e => e.snd.state != 0 && e.snd.sev == 5) = true :=
  by decide +kernel

theorem test_LogAndFenceComplete_18 :
    (fen 1 live).ronbin.recovery = false
    ∧ (List.any (fen 1 live).log fun e => e.snd.state != 0 && e.snd.sev == 5) = false
    ∧ 0 < (fen 1 live).fld F.fenceStatus.level :=
  by decide +kernel

theorem test_LogAndFenceComplete_19 :
    live.ronbin.recovery = false
    ∧ live.fld F.fenceStatus.level = 0 :=
  by decide +kernel

theorem test_LogAndFenceComplete_20 :
    live.ronbin.recovery = false :=
  by decide +kernel

end W62

namespace W63

/-- A request in mailbox slot 0. -/
def rq (op : Nat) (body : List Byte) : Request := { slot := some 0, pdu := pduOf op 0x1234 1 0 body }
/-- A request by frame. -/
def fq (op : Nat) (body : List Byte) : Request := { slot := none, mac := 0x020000000005, pdu := pduOf op 0x1234 1 0 body }
/-- An operand or a state of the witnesses below. -/
def ky (k : Nat) : List Byte := leBytes 2 (k / 256) ++ leBytes 1 k ++ leBytes 1 0
/-- The request waits alone. -/
def wt (q : Request) (s : State) : State := { s with ronbin := { s.ronbin with running := some 0, requests := [q] } }
/-- The request that waits. -/
def rqOf (s : State) : Request := s.ronbin.requests.headD { slot := none, pdu := [] }
/-- An operand or a state of the witnesses below. -/
def keyOf (q : Request) : Nat := keyAt (pduBody q.pdu) 0
/-- The object a request names. -/
def defOf (k : Nat) : ObjDef := (objDefOf k).getD { base := 0, dims := [], type := .u8, access := .ro, cls := .l, dflt := 0, range := .any }
/-- An operand or a state of the witnesses below. -/
def down : State := live.setReg R.funcReady 0
/-- An operand or a state of the witnesses below. -/
def idleM : State := { live with ctxs := [] }
/-- An operand or a state of the witnesses below. -/
def expert : State := { idleM with ronbin := { sessions := [(0, { opened := true, level := 1 })] } }
/-- An operand or a state of the witnesses below. -/
def it (k type : Nat) (v : List Byte) : List Byte := itemOf k type v
/-- An operand or a state of the witnesses below. -/
def seg (xid seq : Nat) (l : List Byte) : List Byte := leBytes 2 xid ++ leBytes 2 seq ++ leBytes 2 l.length ++ leBytes 2 0 ++ l
/-- An operand or a state of the witnesses below. -/
def tr (w : Bool) (total crc : Nat) (l : List Byte) : Transfer := { xid := 7, key := 0x380020, write := w, total := total, crc := crc, data := l }
/-- An operand or a state of the witnesses below. -/
def xs (y : Transfer) (q : Request) : State := wt q { expert with ronbin := { sessions := [(0, { opened := true, level := 1, transfer := some y })] } }
/-- An operand or a state of the witnesses below. -/
def vc : List Byte := (List.replicate 8 [(32 : Byte), 0]).flatten
/-- An operand or a state of the witnesses below. -/
def yOf (s : State) : Transfer := ((s.session 0).transfer).getD (tr false 0 0 [])
/-- An operand or a state of the witnesses below. -/
def nextVal (u : State) : Nat := natAt (u.bytes (mbxRsp 0) 64) 10 2
/-- An operand or a state of the witnesses below. -/
def ronUp (s : State) : State := { s with ronbin := { s.ronbin with running := some 0 } }
/-- An operand or a state of the witnesses below. -/
def fr (op dst : Nat) : List Byte := pduOf op 0x1234 1 dst (ky 0x10000B)
/-- An operand or a state of the witnesses below. -/
def known : State := ronUp { live with ronbin := { sessions := [(2, { opened := true, mac := 0x020000000005, record := [(0x1234, [1,2,3])] })] } }
/-- An operand or a state of the witnesses below. -/
def mbx (st n : Nat) (q : Request) : State := ((ronUp (fldsTo [(F.mbxStatus.state 0, st), (F.mbxReqLen.val 0, n)] live)).setBytes (mbxReq 0) q.pdu)
/-- An operand or a state of the witnesses below. -/
def opn : State := ronUp { live with ronbin := { sessions := [(0, { opened := true, transfer := some (tr false 3 5 [1]) }), (1, { opened := true, transfer := some (tr false 3 5 [1]) }), (3, { opened := true, level := 1, transfer := some (tr false 3 5 [1]) })] } }
/-- An operand or a state of the witnesses below. -/
def lvl1 : State := opn.setFld F.strapLatch.val 0x40
/-- An operand or a state of the witnesses below. -/
def ntc : Notice := { seq := 5, entry := { code := 0x6001, sev := 2 } }
/-- An operand or a state of the witnesses below. -/
def noti : State := (opn.setObj O.evtSubMac 0x020000000009) |> fun s => { s with notices := [ntc] }
/-- An operand or a state of the witnesses below. -/
def defr (k v : Nat) (s : State) : State := { s with ronbin := { deferred := [(k, v)] } }
/-- An operand or a state of the witnesses below. -/
def dopW (u : State) : Nat := match u.out.getLast? with | some (.dop _ _ l) => natAt l 5 1 | _ => 0
/-- An operand or a state of the witnesses below. -/
def rec_ (l : Nat) (ps : Tab (List Byte)) (s : State) : State := { s with flash := { bankB := { state := .receiving, pieces := ps }, stageId := 9, stageLen := l }, ronbin := { running := some 0 } }
/-- An operand or a state of the witnesses below. -/
def hdrI (len : Nat) : List Byte := leBytes 4 0x31474D50 ++ leBytes 4 1 ++ leBytes 4 len ++ leBytes 4 0x0107 ++ leBytes 4 2 ++ leBytes 2 1 ++ leBytes 2 1 ++ leBytes 2 300
/-- An operand or a state of the witnesses below. -/
def pc (l : List Byte) : BitVec 32 := crc32c (leBytes 8 (0x0000000900000001#64).toNat ++ padTo 1024 l)
/-- An operand or a state of the witnesses below. -/
def cardF (l : List Byte) : List Byte :=
  let e := leBytes 4 3 ++ leBytes 4 64 ++ leBytes 4 l.length ++ leBytes 4 (crc32c l).toNat ++ leBytes 4 0x512 ++ leBytes 12 0
  let h := leBytes 4 0x4B505650 ++ leBytes 2 2 ++ leBytes 2 1 ++ leBytes 4 (64 + l.length)
  h ++ leBytes 4 (crc32c (h ++ leBytes 16 0 ++ e)).toNat ++ leBytes 16 0 ++ e ++ l
/-- An operand or a state of the witnesses below. -/
def card (n : Nat) (s : State) : State := { s with ronbin := { running := some 0, card := n } }
/-- An operand or a state of the witnesses below. -/
def calm : State := live.setFld F.quietS.val 60
/-- An operand or a state of the witnesses below. -/
def stg (s : State) : State := { s with flash := { bankB := { state := .staged, svn := 3 } }, ronbin := { running := some 0 } }
/-- An operand or a state of the witnesses below. -/
def stgNone : State := let s := stg calm; { s with ronbin := { s.ronbin with recovery := true }, flash := { s.flash with confirmed := none, bankA := { state := .staged, svn := 3 }, bankB := {} } }
/-- An operand or a state of the witnesses below. -/
def act (s : State) : State := { s with ronbin := { s.ronbin with activation := true } }
/-- An operand or a state of the witnesses below. -/
def tri (r : Option (Fin 2)) (s : State) : State := { s with flash := { bankB := { state := .trial, svn := 3, rtMin := 70 } }, ronbin := { running := some 1, restart := r } }
/-- An operand or a state of the witnesses below. -/
def triNone : State := { (tri none calm) with flash := { (tri none calm).flash with confirmed := none } }
/-- An operand or a state of the witnesses below. -/
def ers (s : State) : State := { s with ronbin := { s.ronbin with erasing := true, scan := [(0, [1]), (1, [2])] } }
/-- A whole piece. -/
def full : List Byte := List.replicate 1024 (5 : Byte)
/-- An operand or a state of the witnesses below. -/
def bufd (s : State) : State := { s with ronbin := { s.ronbin with buffer := [(1, full)] } }
/-- An operand or a state of the witnesses below. -/
def stgBad : State := let s := stg calm; { s with ronbin := { recovery := true, noBank := true } }
/-- An operand or a state of the witnesses below. -/
def cfl (b : Bank) : State := { calm with flash := { bankB := b }, ronbin := { restart := some 0 } }

/-! Witnesses of `Obligations.DopOperationsComplete`, by clause. -/

theorem test_DopOperationsComplete_1 :
    Waits (wt (rq 1 (ky 5242881)) live) (rq 1 (ky 5242881)) 1
    ∧ (pduBody (rq 1 (ky 5242881)).pdu).length = 4
    ∧ ((wt (rq 1 (ky 5242881)) live).atService (rq 1 (ky 5242881))).snd.objLookup (keyAt (pduBody (rq 1 (ky 5242881)).pdu) 0) =
      Sum.inl 2
    ∧ keyAt (pduBody (rq 1 (ky 5242881)).pdu) 0 % 256 ≠ 0 :=
  ⟨waits_of (by decide +kernel), by decide +kernel⟩

theorem test_DopOperationsComplete_2 :
    Waits (wt (rq 1 (ky 4194352)) live) (rq 1 (ky 4194352)) 1
    ∧ (pduBody (rq 1 (ky 4194352)).pdu).length = 4
    ∧ ((wt (rq 1 (ky 4194352)) live).atService (rq 1 (ky 4194352))).snd.objLookup (keyAt (pduBody (rq 1 (ky 4194352)).pdu) 0) =
      Sum.inr (defOf (keyOf (rq 1 (ky 4194352))))
    ∧ (defOf (keyOf (rq 1 (ky 4194352)))).access = ObjAccess.wo :=
  ⟨waits_of (by decide +kernel), by decide +kernel⟩

theorem test_DopOperationsComplete_3 :
    Waits (wt (rq 1 (ky 6553616)) down) (rq 1 (ky 6553616)) 1
    ∧ (pduBody (rq 1 (ky 6553616)).pdu).length = 4
    ∧ ((wt (rq 1 (ky 6553616)) down).atService (rq 1 (ky 6553616))).snd.objLookup (keyAt (pduBody (rq 1 (ky 6553616)).pdu) 0) =
      Sum.inr (defOf (keyOf (rq 1 (ky 6553616))))
    ∧ (defOf (keyOf (rq 1 (ky 6553616)))).access = ObjAccess.ro
    ∧ ((wt (rq 1 (ky 6553616)) down).atService (rq 1 (ky 6553616))).snd.funcUp
        (objFunc (keyAt (pduBody (rq 1 (ky 6553616)).pdu) 0 / 256)) =
      false :=
  ⟨waits_of (by decide +kernel), by decide +kernel⟩

theorem test_DopOperationsComplete_4 :
    Waits (wt (rq 1 (ky 7344132)) live) (rq 1 (ky 7344132)) 1
    ∧ ((defOf (keyOf (rq 1 (ky 7344132)))).access = ObjAccess.ro →
      ((wt (rq 1 (ky 7344132)) live).atService (rq 1 (ky 7344132))).snd.funcUp
          (objFunc (keyAt (pduBody (rq 1 (ky 7344132)).pdu) 0 / 256)) =
        true)
    ∧ (pduBody (rq 1 (ky 7344132)).pdu).length = 4
    ∧ ((wt (rq 1 (ky 7344132)) live).atService (rq 1 (ky 7344132))).snd.objLookup (keyAt (pduBody (rq 1 (ky 7344132)).pdu) 0) =
      Sum.inr (defOf (keyOf (rq 1 (ky 7344132))))
    ∧ (defOf (keyOf (rq 1 (ky 7344132)))).access ≠ ObjAccess.wo
    ∧ 1024 < objLen (defOf (keyOf (rq 1 (ky 7344132)))) :=
  ⟨waits_of (by decide +kernel), fun _ => by decide +kernel, by decide +kernel⟩

theorem test_DopOperationsComplete_5 :
    Waits (wt (rq 1 (ky 1048587)) live) (rq 1 (ky 1048587)) 1
    ∧ ((defOf (keyOf (rq 1 (ky 1048587)))).access = ObjAccess.ro →
      ((wt (rq 1 (ky 1048587)) live).atService (rq 1 (ky 1048587))).snd.funcUp
          (objFunc (keyAt (pduBody (rq 1 (ky 1048587)).pdu) 0 / 256)) =
        true)
    ∧ (pduBody (rq 1 (ky 1048587)).pdu).length = 4
    ∧ ((wt (rq 1 (ky 1048587)) live).atService (rq 1 (ky 1048587))).snd.objLookup (keyAt (pduBody (rq 1 (ky 1048587)).pdu) 0) =
      Sum.inr (defOf (keyOf (rq 1 (ky 1048587))))
    ∧ (defOf (keyOf (rq 1 (ky 1048587)))).access ≠ ObjAccess.wo
    ∧ objLen (defOf (keyOf (rq 1 (ky 1048587)))) ≤ 1024 :=
  ⟨waits_of (by decide +kernel), fun _ => by decide +kernel, by decide +kernel⟩

theorem test_DopOperationsComplete_6 :
    Waits (wt (rq 1 [1]) live) (rq 1 [1]) 1
    ∧ (pduBody (rq 1 [1]).pdu).length ≠ 4 :=
  ⟨waits_of (by decide +kernel), by decide +kernel⟩

theorem test_DopOperationsComplete_7 :
    Waits (wt (rq 2 (it 1048587 4 (leBytes 4 1))) live) (rq 2 (it 1048587 4 (leBytes 4 1))) 2
    ∧ itemsOf 1 (pduBody (rq 2 (it 1048587 4 (leBytes 4 1))).pdu) =
      some [(keyOf (rq 2 (it 1048587 4 (leBytes 4 1))), 4, List.drop 6 (pduBody (rq 2 (it 1048587 4 (leBytes 4 1))).pdu))]
    ∧ (List.drop 6 (pduBody (rq 2 (it 1048587 4 (leBytes 4 1))).pdu)).length ≤ 1024
    ∧ ((wt (rq 2 (it 1048587 4 (leBytes 4 1))) live).atService (rq 2 (it 1048587 4 (leBytes 4 1)))).snd.writeCheck
        ((wt (rq 2 (it 1048587 4 (leBytes 4 1))) live).atService (rq 2 (it 1048587 4 (leBytes 4 1)))).fst
        (keyOf (rq 2 (it 1048587 4 (leBytes 4 1)))) 4 (List.drop 6 (pduBody (rq 2 (it 1048587 4 (leBytes 4 1))).pdu)).length =
      Sum.inl 4 :=
  ⟨waits_of (by decide +kernel), by decide +kernel⟩

theorem test_DopOperationsComplete_8 :
    Waits (wt (rq 2 (it 2621456 1 [1])) live) (rq 2 (it 2621456 1 [1])) 2
    ∧ ((defOf (keyOf (rq 2 (it 2621456 1 [1])))).access = ObjAccess.rw ∧
      ((wt (rq 2 (it 2621456 1 [1])) live).atService (rq 2 (it 2621456 1 [1]))).snd.objWaits (keyOf (rq 2 (it 2621456 1 [1])))
            (defOf (keyOf (rq 2 (it 2621456 1 [1])))) =
          false ∧
        ((wt (rq 2 (it 2621456 1 [1])) live).atService (rq 2 (it 2621456 1 [1]))).snd.objForce
            ((wt (rq 2 (it 2621456 1 [1])) live).atService (rq 2 (it 2621456 1 [1]))).fst (keyOf (rq 2 (it 2621456 1 [1])))
            (defOf (keyOf (rq 2 (it 2621456 1 [1])))) =
          leNat (List.drop 6 (pduBody (rq 2 (it 2621456 1 [1])).pdu)))
    ∧ itemsOf 1 (pduBody (rq 2 (it 2621456 1 [1])).pdu) =
      some [(keyOf (rq 2 (it 2621456 1 [1])), 1, List.drop 6 (pduBody (rq 2 (it 2621456 1 [1])).pdu))]
    ∧ (List.drop 6 (pduBody (rq 2 (it 2621456 1 [1])).pdu)).length ≤ 1024
    ∧ ((wt (rq 2 (it 2621456 1 [1])) live).atService (rq 2 (it 2621456 1 [1]))).snd.writeCheck
        ((wt (rq 2 (it 2621456 1 [1])) live).atService (rq 2 (it 2621456 1 [1]))).fst (keyOf (rq 2 (it 2621456 1 [1]))) 1
        (List.drop 6 (pduBody (rq 2 (it 2621456 1 [1])).pdu)).length =
      Sum.inr (defOf (keyOf (rq 2 (it 2621456 1 [1])))) :=
  ⟨waits_of (by decide +kernel), ⟨by decide +kernel, ⟨by decide +kernel, by decide +kernel⟩⟩, by decide +kernel⟩

theorem test_DopOperationsComplete_9 :
    Waits (wt (rq 2 (it 2687040 2 [4])) live) (rq 2 (it 2687040 2 [4])) 2
    ∧ itemsOf 1 (pduBody (rq 2 (it 2687040 2 [4])).pdu) =
      some [(keyOf (rq 2 (it 2687040 2 [4])), 2, List.drop 6 (pduBody (rq 2 (it 2687040 2 [4])).pdu))]
    ∧ (List.drop 6 (pduBody (rq 2 (it 2687040 2 [4])).pdu)).length ≤ 1024
    ∧ ((wt (rq 2 (it 2687040 2 [4])) live).atService (rq 2 (it 2687040 2 [4]))).snd.writeCheck
        ((wt (rq 2 (it 2687040 2 [4])) live).atService (rq 2 (it 2687040 2 [4]))).fst (keyOf (rq 2 (it 2687040 2 [4]))) 2
        (List.drop 6 (pduBody (rq 2 (it 2687040 2 [4])).pdu)).length =
      Sum.inr (defOf (keyOf (rq 2 (it 2687040 2 [4]))))
    ∧ ¬((defOf (keyOf (rq 2 (it 2687040 2 [4])))).access = ObjAccess.rw ∧
        ((wt (rq 2 (it 2687040 2 [4])) live).atService (rq 2 (it 2687040 2 [4]))).snd.objWaits (keyOf (rq 2 (it 2687040 2 [4])))
              (defOf (keyOf (rq 2 (it 2687040 2 [4])))) =
            false ∧
          ((wt (rq 2 (it 2687040 2 [4])) live).atService (rq 2 (it 2687040 2 [4]))).snd.objForce
              ((wt (rq 2 (it 2687040 2 [4])) live).atService (rq 2 (it 2687040 2 [4]))).fst (keyOf (rq 2 (it 2687040 2 [4])))
              (defOf (keyOf (rq 2 (it 2687040 2 [4])))) =
            leNat (List.drop 6 (pduBody (rq 2 (it 2687040 2 [4])).pdu)))
    ∧ ¬(rangeHolds (defOf (keyOf (rq 2 (it 2687040 2 [4])))) (leNat (List.drop 6 (pduBody (rq 2 (it 2687040 2 [4])).pdu))) = true ∧
        ((wt (rq 2 (it 2687040 2 [4])) live).atService (rq 2 (it 2687040 2 [4]))).snd.rangeMore
            (defOf (keyOf (rq 2 (it 2687040 2 [4]))))
            (objIdx (defOf (keyOf (rq 2 (it 2687040 2 [4])))) (keyOf (rq 2 (it 2687040 2 [4])))).fst
            (leNat (List.drop 6 (pduBody (rq 2 (it 2687040 2 [4])).pdu))) =
          true) :=
  ⟨waits_of (by decide +kernel), by decide +kernel⟩

theorem test_DopOperationsComplete_10 :
    Waits (wt (rq 2 (it 2621456 1 [0])) down) (rq 2 (it 2621456 1 [0])) 2
    ∧ (rangeHolds (defOf (keyOf (rq 2 (it 2621456 1 [0])))) (leNat (List.drop 6 (pduBody (rq 2 (it 2621456 1 [0])).pdu))) = true ∧
      ((wt (rq 2 (it 2621456 1 [0])) down).atService (rq 2 (it 2621456 1 [0]))).snd.rangeMore
          (defOf (keyOf (rq 2 (it 2621456 1 [0]))))
          (objIdx (defOf (keyOf (rq 2 (it 2621456 1 [0])))) (keyOf (rq 2 (it 2621456 1 [0])))).fst
          (leNat (List.drop 6 (pduBody (rq 2 (it 2621456 1 [0])).pdu))) =
        true)
    ∧ ((defOf (keyOf (rq 2 (it 2621456 1 [0])))).access = ObjAccess.rw ∧
      ((wt (rq 2 (it 2621456 1 [0])) down).atService (rq 2 (it 2621456 1 [0]))).snd.funcUp
          (objFunc (keyOf (rq 2 (it 2621456 1 [0])) / 256)) =
        false)
    ∧ itemsOf 1 (pduBody (rq 2 (it 2621456 1 [0])).pdu) =
      some [(keyOf (rq 2 (it 2621456 1 [0])), 1, List.drop 6 (pduBody (rq 2 (it 2621456 1 [0])).pdu))]
    ∧ (List.drop 6 (pduBody (rq 2 (it 2621456 1 [0])).pdu)).length ≤ 1024
    ∧ ((wt (rq 2 (it 2621456 1 [0])) down).atService (rq 2 (it 2621456 1 [0]))).snd.writeCheck
        ((wt (rq 2 (it 2621456 1 [0])) down).atService (rq 2 (it 2621456 1 [0]))).fst (keyOf (rq 2 (it 2621456 1 [0]))) 1
        (List.drop 6 (pduBody (rq 2 (it 2621456 1 [0])).pdu)).length =
      Sum.inr (defOf (keyOf (rq 2 (it 2621456 1 [0]))))
    ∧ ¬((defOf (keyOf (rq 2 (it 2621456 1 [0])))).access = ObjAccess.rw ∧
        ((wt (rq 2 (it 2621456 1 [0])) down).atService (rq 2 (it 2621456 1 [0]))).snd.objWaits (keyOf (rq 2 (it 2621456 1 [0])))
              (defOf (keyOf (rq 2 (it 2621456 1 [0])))) =
            false ∧
          ((wt (rq 2 (it 2621456 1 [0])) down).atService (rq 2 (it 2621456 1 [0]))).snd.objForce
              ((wt (rq 2 (it 2621456 1 [0])) down).atService (rq 2 (it 2621456 1 [0]))).fst (keyOf (rq 2 (it 2621456 1 [0])))
              (defOf (keyOf (rq 2 (it 2621456 1 [0])))) =
            leNat (List.drop 6 (pduBody (rq 2 (it 2621456 1 [0])).pdu)))
    ∧ ((((wt (rq 2 (it 2621456 1 [0])) down).atService (rq 2 (it 2621456 1 [0]))).snd.applyDeferred
                (objFunc (keyOf (rq 2 (it 2621456 1 [0])) / 256))).objTake
            ((wt (rq 2 (it 2621456 1 [0])) down).atService (rq 2 (it 2621456 1 [0]))).fst (keyOf (rq 2 (it 2621456 1 [0])))
            (defOf (keyOf (rq 2 (it 2621456 1 [0])))) (leNat (List.drop 6 (pduBody (rq 2 (it 2621456 1 [0])).pdu)))
            { : Around }).snd %
        32 =
      0 :=
  ⟨waits_of (by decide +kernel), ⟨by decide +kernel, by decide +kernel⟩, ⟨by decide +kernel, by decide +kernel⟩, by decide +kernel⟩

theorem test_DopOperationsComplete_11 :
    Waits (wt (rq 2 (it 2359297 4 (leBytes 4 7))) down) (rq 2 (it 2359297 4 (leBytes 4 7))) 2
    ∧ (rangeHolds (defOf (keyOf (rq 2 (it 2359297 4 (leBytes 4 7)))))
          (leNat (List.drop 6 (pduBody (rq 2 (it 2359297 4 (leBytes 4 7))).pdu))) =
        true ∧
      ((wt (rq 2 (it 2359297 4 (leBytes 4 7))) down).atService (rq 2 (it 2359297 4 (leBytes 4 7)))).snd.rangeMore
          (defOf (keyOf (rq 2 (it 2359297 4 (leBytes 4 7)))))
          (objIdx (defOf (keyOf (rq 2 (it 2359297 4 (leBytes 4 7))))) (keyOf (rq 2 (it 2359297 4 (leBytes 4 7))))).fst
          (leNat (List.drop 6 (pduBody (rq 2 (it 2359297 4 (leBytes 4 7))).pdu))) =
        true)
    ∧ ((defOf (keyOf (rq 2 (it 2359297 4 (leBytes 4 7))))).access = ObjAccess.rw ∧
      ((wt (rq 2 (it 2359297 4 (leBytes 4 7))) down).atService (rq 2 (it 2359297 4 (leBytes 4 7)))).snd.funcUp
          (objFunc (keyOf (rq 2 (it 2359297 4 (leBytes 4 7))) / 256)) =
        false)
    ∧ itemsOf 1 (pduBody (rq 2 (it 2359297 4 (leBytes 4 7))).pdu) =
      some [(keyOf (rq 2 (it 2359297 4 (leBytes 4 7))), 4, List.drop 6 (pduBody (rq 2 (it 2359297 4 (leBytes 4 7))).pdu))]
    ∧ (List.drop 6 (pduBody (rq 2 (it 2359297 4 (leBytes 4 7))).pdu)).length ≤ 1024
    ∧ ((wt (rq 2 (it 2359297 4 (leBytes 4 7))) down).atService (rq 2 (it 2359297 4 (leBytes 4 7)))).snd.writeCheck
        ((wt (rq 2 (it 2359297 4 (leBytes 4 7))) down).atService (rq 2 (it 2359297 4 (leBytes 4 7)))).fst
        (keyOf (rq 2 (it 2359297 4 (leBytes 4 7)))) 4 (List.drop 6 (pduBody (rq 2 (it 2359297 4 (leBytes 4 7))).pdu)).length =
      Sum.inr (defOf (keyOf (rq 2 (it 2359297 4 (leBytes 4 7)))))
    ∧ ¬((defOf (keyOf (rq 2 (it 2359297 4 (leBytes 4 7))))).access = ObjAccess.rw ∧
        ((wt (rq 2 (it 2359297 4 (leBytes 4 7))) down).atService (rq 2 (it 2359297 4 (leBytes 4 7)))).snd.objWaits
              (keyOf (rq 2 (it 2359297 4 (leBytes 4 7)))) (defOf (keyOf (rq 2 (it 2359297 4 (leBytes 4 7))))) =
            false ∧
          ((wt (rq 2 (it 2359297 4 (leBytes 4 7))) down).atService (rq 2 (it 2359297 4 (leBytes 4 7)))).snd.objForce
              ((wt (rq 2 (it 2359297 4 (leBytes 4 7))) down).atService (rq 2 (it 2359297 4 (leBytes 4 7)))).fst
              (keyOf (rq 2 (it 2359297 4 (leBytes 4 7)))) (defOf (keyOf (rq 2 (it 2359297 4 (leBytes 4 7))))) =
            leNat (List.drop 6 (pduBody (rq 2 (it 2359297 4 (leBytes 4 7))).pdu)))
    ∧ ((((wt (rq 2 (it 2359297 4 (leBytes 4 7))) down).atService (rq 2 (it 2359297 4 (leBytes 4 7)))).snd.applyDeferred
                (objFunc (keyOf (rq 2 (it 2359297 4 (leBytes 4 7))) / 256))).objTake
            ((wt (rq 2 (it 2359297 4 (leBytes 4 7))) down).atService (rq 2 (it 2359297 4 (leBytes 4 7)))).fst
            (keyOf (rq 2 (it 2359297 4 (leBytes 4 7)))) (defOf (keyOf (rq 2 (it 2359297 4 (leBytes 4 7)))))
            (leNat (List.drop 6 (pduBody (rq 2 (it 2359297 4 (leBytes 4 7))).pdu))) { : Around }).snd %
        32 ≠
      0 :=
  ⟨waits_of (by decide +kernel), ⟨by decide +kernel, by decide +kernel⟩, ⟨by decide +kernel, by decide +kernel⟩, by decide +kernel⟩

theorem test_DopOperationsComplete_12 :
    Waits (wt (rq 2 (it 2359297 4 (leBytes 4 7))) live) (rq 2 (it 2359297 4 (leBytes 4 7))) 2
    ∧ (rangeHolds (defOf (keyOf (rq 2 (it 2359297 4 (leBytes 4 7)))))
          (leNat (List.drop 6 (pduBody (rq 2 (it 2359297 4 (leBytes 4 7))).pdu))) =
        true ∧
      ((wt (rq 2 (it 2359297 4 (leBytes 4 7))) live).atService (rq 2 (it 2359297 4 (leBytes 4 7)))).snd.rangeMore
          (defOf (keyOf (rq 2 (it 2359297 4 (leBytes 4 7)))))
          (objIdx (defOf (keyOf (rq 2 (it 2359297 4 (leBytes 4 7))))) (keyOf (rq 2 (it 2359297 4 (leBytes 4 7))))).fst
          (leNat (List.drop 6 (pduBody (rq 2 (it 2359297 4 (leBytes 4 7))).pdu))) =
        true)
    ∧ itemsOf 1 (pduBody (rq 2 (it 2359297 4 (leBytes 4 7))).pdu) =
      some [(keyOf (rq 2 (it 2359297 4 (leBytes 4 7))), 4, List.drop 6 (pduBody (rq 2 (it 2359297 4 (leBytes 4 7))).pdu))]
    ∧ (List.drop 6 (pduBody (rq 2 (it 2359297 4 (leBytes 4 7))).pdu)).length ≤ 1024
    ∧ ((wt (rq 2 (it 2359297 4 (leBytes 4 7))) live).atService (rq 2 (it 2359297 4 (leBytes 4 7)))).snd.writeCheck
        ((wt (rq 2 (it 2359297 4 (leBytes 4 7))) live).atService (rq 2 (it 2359297 4 (leBytes 4 7)))).fst
        (keyOf (rq 2 (it 2359297 4 (leBytes 4 7)))) 4 (List.drop 6 (pduBody (rq 2 (it 2359297 4 (leBytes 4 7))).pdu)).length =
      Sum.inr (defOf (keyOf (rq 2 (it 2359297 4 (leBytes 4 7)))))
    ∧ ¬((defOf (keyOf (rq 2 (it 2359297 4 (leBytes 4 7))))).access = ObjAccess.rw ∧
        ((wt (rq 2 (it 2359297 4 (leBytes 4 7))) live).atService (rq 2 (it 2359297 4 (leBytes 4 7)))).snd.objWaits
              (keyOf (rq 2 (it 2359297 4 (leBytes 4 7)))) (defOf (keyOf (rq 2 (it 2359297 4 (leBytes 4 7))))) =
            false ∧
          ((wt (rq 2 (it 2359297 4 (leBytes 4 7))) live).atService (rq 2 (it 2359297 4 (leBytes 4 7)))).snd.objForce
              ((wt (rq 2 (it 2359297 4 (leBytes 4 7))) live).atService (rq 2 (it 2359297 4 (leBytes 4 7)))).fst
              (keyOf (rq 2 (it 2359297 4 (leBytes 4 7)))) (defOf (keyOf (rq 2 (it 2359297 4 (leBytes 4 7))))) =
            leNat (List.drop 6 (pduBody (rq 2 (it 2359297 4 (leBytes 4 7))).pdu)))
    ∧ ¬((defOf (keyOf (rq 2 (it 2359297 4 (leBytes 4 7))))).access = ObjAccess.rw ∧
        ((wt (rq 2 (it 2359297 4 (leBytes 4 7))) live).atService (rq 2 (it 2359297 4 (leBytes 4 7)))).snd.funcUp
            (objFunc (keyOf (rq 2 (it 2359297 4 (leBytes 4 7))) / 256)) =
          false)
    ∧ ((wt (rq 2 (it 2359297 4 (leBytes 4 7))) live).atService (rq 2 (it 2359297 4 (leBytes 4 7)))).snd.objBusy
        (defOf (keyOf (rq 2 (it 2359297 4 (leBytes 4 7)))))
        (objIdx (defOf (keyOf (rq 2 (it 2359297 4 (leBytes 4 7))))) (keyOf (rq 2 (it 2359297 4 (leBytes 4 7))))).fst
        (leNat (List.drop 6 (pduBody (rq 2 (it 2359297 4 (leBytes 4 7))).pdu))) =
      true :=
  ⟨waits_of (by decide +kernel), ⟨by decide +kernel, by decide +kernel⟩, by decide +kernel⟩

theorem test_DopOperationsComplete_13 :
    Waits (wt (rq 2 (it 2621456 1 [0])) live) (rq 2 (it 2621456 1 [0])) 2
    ∧ (rangeHolds (defOf (keyOf (rq 2 (it 2621456 1 [0])))) (leNat (List.drop 6 (pduBody (rq 2 (it 2621456 1 [0])).pdu))) = true ∧
      ((wt (rq 2 (it 2621456 1 [0])) live).atService (rq 2 (it 2621456 1 [0]))).snd.rangeMore
          (defOf (keyOf (rq 2 (it 2621456 1 [0]))))
          (objIdx (defOf (keyOf (rq 2 (it 2621456 1 [0])))) (keyOf (rq 2 (it 2621456 1 [0])))).fst
          (leNat (List.drop 6 (pduBody (rq 2 (it 2621456 1 [0])).pdu))) =
        true)
    ∧ itemsOf 1 (pduBody (rq 2 (it 2621456 1 [0])).pdu) =
      some [(keyOf (rq 2 (it 2621456 1 [0])), 1, List.drop 6 (pduBody (rq 2 (it 2621456 1 [0])).pdu))]
    ∧ (List.drop 6 (pduBody (rq 2 (it 2621456 1 [0])).pdu)).length ≤ 1024
    ∧ ((wt (rq 2 (it 2621456 1 [0])) live).atService (rq 2 (it 2621456 1 [0]))).snd.writeCheck
        ((wt (rq 2 (it 2621456 1 [0])) live).atService (rq 2 (it 2621456 1 [0]))).fst (keyOf (rq 2 (it 2621456 1 [0]))) 1
        (List.drop 6 (pduBody (rq 2 (it 2621456 1 [0])).pdu)).length =
      Sum.inr (defOf (keyOf (rq 2 (it 2621456 1 [0]))))
    ∧ ¬((defOf (keyOf (rq 2 (it 2621456 1 [0])))).access = ObjAccess.rw ∧
        ((wt (rq 2 (it 2621456 1 [0])) live).atService (rq 2 (it 2621456 1 [0]))).snd.objWaits (keyOf (rq 2 (it 2621456 1 [0])))
              (defOf (keyOf (rq 2 (it 2621456 1 [0])))) =
            false ∧
          ((wt (rq 2 (it 2621456 1 [0])) live).atService (rq 2 (it 2621456 1 [0]))).snd.objForce
              ((wt (rq 2 (it 2621456 1 [0])) live).atService (rq 2 (it 2621456 1 [0]))).fst (keyOf (rq 2 (it 2621456 1 [0])))
              (defOf (keyOf (rq 2 (it 2621456 1 [0])))) =
            leNat (List.drop 6 (pduBody (rq 2 (it 2621456 1 [0])).pdu)))
    ∧ ¬((defOf (keyOf (rq 2 (it 2621456 1 [0])))).access = ObjAccess.rw ∧
        ((wt (rq 2 (it 2621456 1 [0])) live).atService (rq 2 (it 2621456 1 [0]))).snd.funcUp
            (objFunc (keyOf (rq 2 (it 2621456 1 [0])) / 256)) =
          false)
    ∧ ((wt (rq 2 (it 2621456 1 [0])) live).atService (rq 2 (it 2621456 1 [0]))).snd.objBusy (defOf (keyOf (rq 2 (it 2621456 1 [0]))))
        (objIdx (defOf (keyOf (rq 2 (it 2621456 1 [0])))) (keyOf (rq 2 (it 2621456 1 [0])))).fst
        (leNat (List.drop 6 (pduBody (rq 2 (it 2621456 1 [0])).pdu))) =
      false
    ∧ (defOf (keyOf (rq 2 (it 2621456 1 [0])))).cls = ObjClass.b
    ∧ (((wt (rq 2 (it 2621456 1 [0])) live).atService (rq 2 (it 2621456 1 [0]))).snd.ctx
          (objIdx (defOf (keyOf (rq 2 (it 2621456 1 [0])))) (keyOf (rq 2 (it 2621456 1 [0])))).fst).running =
      true :=
  ⟨waits_of (by decide +kernel), ⟨by decide +kernel, by decide +kernel⟩, by decide +kernel⟩

theorem test_DopOperationsComplete_14 :
    Waits (wt (rq 2 (it 2687040 2 [3])) live) (rq 2 (it 2687040 2 [3])) 2
    ∧ (rangeHolds (defOf (keyOf (rq 2 (it 2687040 2 [3])))) (leNat (List.drop 6 (pduBody (rq 2 (it 2687040 2 [3])).pdu))) = true ∧
      ((wt (rq 2 (it 2687040 2 [3])) live).atService (rq 2 (it 2687040 2 [3]))).snd.rangeMore
          (defOf (keyOf (rq 2 (it 2687040 2 [3]))))
          (objIdx (defOf (keyOf (rq 2 (it 2687040 2 [3])))) (keyOf (rq 2 (it 2687040 2 [3])))).fst
          (leNat (List.drop 6 (pduBody (rq 2 (it 2687040 2 [3])).pdu))) =
        true)
    ∧ itemsOf 1 (pduBody (rq 2 (it 2687040 2 [3])).pdu) =
      some [(keyOf (rq 2 (it 2687040 2 [3])), 2, List.drop 6 (pduBody (rq 2 (it 2687040 2 [3])).pdu))]
    ∧ (List.drop 6 (pduBody (rq 2 (it 2687040 2 [3])).pdu)).length ≤ 1024
    ∧ ((wt (rq 2 (it 2687040 2 [3])) live).atService (rq 2 (it 2687040 2 [3]))).snd.writeCheck
        ((wt (rq 2 (it 2687040 2 [3])) live).atService (rq 2 (it 2687040 2 [3]))).fst (keyOf (rq 2 (it 2687040 2 [3]))) 2
        (List.drop 6 (pduBody (rq 2 (it 2687040 2 [3])).pdu)).length =
      Sum.inr (defOf (keyOf (rq 2 (it 2687040 2 [3]))))
    ∧ ¬((defOf (keyOf (rq 2 (it 2687040 2 [3])))).access = ObjAccess.rw ∧
        ((wt (rq 2 (it 2687040 2 [3])) live).atService (rq 2 (it 2687040 2 [3]))).snd.objWaits (keyOf (rq 2 (it 2687040 2 [3])))
              (defOf (keyOf (rq 2 (it 2687040 2 [3])))) =
            false ∧
          ((wt (rq 2 (it 2687040 2 [3])) live).atService (rq 2 (it 2687040 2 [3]))).snd.objForce
              ((wt (rq 2 (it 2687040 2 [3])) live).atService (rq 2 (it 2687040 2 [3]))).fst (keyOf (rq 2 (it 2687040 2 [3])))
              (defOf (keyOf (rq 2 (it 2687040 2 [3])))) =
            leNat (List.drop 6 (pduBody (rq 2 (it 2687040 2 [3])).pdu)))
    ∧ ¬((defOf (keyOf (rq 2 (it 2687040 2 [3])))).access = ObjAccess.rw ∧
        ((wt (rq 2 (it 2687040 2 [3])) live).atService (rq 2 (it 2687040 2 [3]))).snd.funcUp
            (objFunc (keyOf (rq 2 (it 2687040 2 [3])) / 256)) =
          false)
    ∧ ((wt (rq 2 (it 2687040 2 [3])) live).atService (rq 2 (it 2687040 2 [3]))).snd.objBusy (defOf (keyOf (rq 2 (it 2687040 2 [3]))))
        (objIdx (defOf (keyOf (rq 2 (it 2687040 2 [3])))) (keyOf (rq 2 (it 2687040 2 [3])))).fst
        (leNat (List.drop 6 (pduBody (rq 2 (it 2687040 2 [3])).pdu))) =
      false
    ∧ (defOf (keyOf (rq 2 (it 2687040 2 [3])))).cls = ObjClass.s :=
  ⟨waits_of (by decide +kernel), ⟨by decide +kernel, by decide +kernel⟩, by decide +kernel⟩

theorem test_DopOperationsComplete_15 :
    Waits (wt (rq 2 (it 2621456 1 [0])) idleM) (rq 2 (it 2621456 1 [0])) 2
    ∧ (rangeHolds (defOf (keyOf (rq 2 (it 2621456 1 [0])))) (leNat (List.drop 6 (pduBody (rq 2 (it 2621456 1 [0])).pdu))) = true ∧
      ((wt (rq 2 (it 2621456 1 [0])) idleM).atService (rq 2 (it 2621456 1 [0]))).snd.rangeMore
          (defOf (keyOf (rq 2 (it 2621456 1 [0]))))
          (objIdx (defOf (keyOf (rq 2 (it 2621456 1 [0])))) (keyOf (rq 2 (it 2621456 1 [0])))).fst
          (leNat (List.drop 6 (pduBody (rq 2 (it 2621456 1 [0])).pdu))) =
        true)
    ∧ itemsOf 1 (pduBody (rq 2 (it 2621456 1 [0])).pdu) =
      some [(keyOf (rq 2 (it 2621456 1 [0])), 1, List.drop 6 (pduBody (rq 2 (it 2621456 1 [0])).pdu))]
    ∧ (List.drop 6 (pduBody (rq 2 (it 2621456 1 [0])).pdu)).length ≤ 1024
    ∧ ((wt (rq 2 (it 2621456 1 [0])) idleM).atService (rq 2 (it 2621456 1 [0]))).snd.writeCheck
        ((wt (rq 2 (it 2621456 1 [0])) idleM).atService (rq 2 (it 2621456 1 [0]))).fst (keyOf (rq 2 (it 2621456 1 [0]))) 1
        (List.drop 6 (pduBody (rq 2 (it 2621456 1 [0])).pdu)).length =
      Sum.inr (defOf (keyOf (rq 2 (it 2621456 1 [0]))))
    ∧ ¬((defOf (keyOf (rq 2 (it 2621456 1 [0])))).access = ObjAccess.rw ∧
        ((wt (rq 2 (it 2621456 1 [0])) idleM).atService (rq 2 (it 2621456 1 [0]))).snd.objWaits (keyOf (rq 2 (it 2621456 1 [0])))
              (defOf (keyOf (rq 2 (it 2621456 1 [0])))) =
            false ∧
          ((wt (rq 2 (it 2621456 1 [0])) idleM).atService (rq 2 (it 2621456 1 [0]))).snd.objForce
              ((wt (rq 2 (it 2621456 1 [0])) idleM).atService (rq 2 (it 2621456 1 [0]))).fst (keyOf (rq 2 (it 2621456 1 [0])))
              (defOf (keyOf (rq 2 (it 2621456 1 [0])))) =
            leNat (List.drop 6 (pduBody (rq 2 (it 2621456 1 [0])).pdu)))
    ∧ ¬((defOf (keyOf (rq 2 (it 2621456 1 [0])))).access = ObjAccess.rw ∧
        ((wt (rq 2 (it 2621456 1 [0])) idleM).atService (rq 2 (it 2621456 1 [0]))).snd.funcUp
            (objFunc (keyOf (rq 2 (it 2621456 1 [0])) / 256)) =
          false)
    ∧ ((wt (rq 2 (it 2621456 1 [0])) idleM).atService (rq 2 (it 2621456 1 [0]))).snd.objBusy (defOf (keyOf (rq 2 (it 2621456 1 [0]))))
        (objIdx (defOf (keyOf (rq 2 (it 2621456 1 [0])))) (keyOf (rq 2 (it 2621456 1 [0])))).fst
        (leNat (List.drop 6 (pduBody (rq 2 (it 2621456 1 [0])).pdu))) =
      false
    ∧ (defOf (keyOf (rq 2 (it 2621456 1 [0])))).cls ≠ ObjClass.s
    ∧ ¬((defOf (keyOf (rq 2 (it 2621456 1 [0])))).cls = ObjClass.b ∧
        (((wt (rq 2 (it 2621456 1 [0])) idleM).atService (rq 2 (it 2621456 1 [0]))).snd.ctx
              (objIdx (defOf (keyOf (rq 2 (it 2621456 1 [0])))) (keyOf (rq 2 (it 2621456 1 [0])))).fst).running =
          true) :=
  ⟨waits_of (by decide +kernel), ⟨by decide +kernel, by decide +kernel⟩, by decide +kernel⟩

theorem test_DopOperationsComplete_16 :
    Waits (wt (rq 3 (leBytes 4 3 ++ ky 1048587 ++ ky 5242881 ++ ky 2621456)) live)
      (rq 3 (leBytes 4 3 ++ ky 1048587 ++ ky 5242881 ++ ky 2621456)) 3
    ∧ 0 < natAt (pduBody (rq 3 (leBytes 4 3 ++ ky 1048587 ++ ky 5242881 ++ ky 2621456)).pdu) 0 1
    ∧ natAt (pduBody (rq 3 (leBytes 4 3 ++ ky 1048587 ++ ky 5242881 ++ ky 2621456)).pdu) 0 1 ≤ 64
    ∧ (pduBody (rq 3 (leBytes 4 3 ++ ky 1048587 ++ ky 5242881 ++ ky 2621456)).pdu).length =
      4 + 4 * natAt (pduBody (rq 3 (leBytes 4 3 ++ ky 1048587 ++ ky 5242881 ++ ky 2621456)).pdu) 0 1 :=
  ⟨waits_of (by decide +kernel), by decide +kernel⟩

theorem test_DopOperationsComplete_18 :
    Waits (wt (fq 4 (leBytes 4 2 ++ it 2621456 1 [0] ++ it 1048587 4 (leBytes 4 1))) live)
      (fq 4 (leBytes 4 2 ++ it 2621456 1 [0] ++ it 1048587 4 (leBytes 4 1))) 4
    ∧ 0 < natAt (pduBody (fq 4 (leBytes 4 2 ++ it 2621456 1 [0] ++ it 1048587 4 (leBytes 4 1))).pdu) 0 1
    ∧ itemsOf (natAt (pduBody (fq 4 (leBytes 4 2 ++ it 2621456 1 [0] ++ it 1048587 4 (leBytes 4 1))).pdu) 0 1)
        (List.drop 4 (pduBody (fq 4 (leBytes 4 2 ++ it 2621456 1 [0] ++ it 1048587 4 (leBytes 4 1))).pdu)) =
      some [(2621456, 1, [0]), (1048587, 4, leBytes 4 1)] :=
  ⟨waits_of (by decide +kernel), by decide +kernel⟩

theorem test_DopOperationsComplete_20 :
    Waits (wt (rq 5 (ky 3670048)) live) (rq 5 (ky 3670048)) 5
    ∧ (pduBody (rq 5 (ky 3670048)).pdu).length = 4
    ∧ (((wt (rq 5 (ky 3670048)) live).atService (rq 5 (ky 3670048))).snd.objGet
            ((wt (rq 5 (ky 3670048)) live).atService (rq 5 (ky 3670048))).fst (keyAt (pduBody (rq 5 (ky 3670048)).pdu) 0)
            true).fst.fst =
      0
    ∧ (((wt (rq 5 (ky 3670048)) live).atService (rq 5 (ky 3670048))).snd.objGet
              ((wt (rq 5 (ky 3670048)) live).atService (rq 5 (ky 3670048))).fst (keyAt (pduBody (rq 5 (ky 3670048)).pdu) 0)
              true).fst.snd.fst =
      typeCode ObjType.blob
    ∧ ((wt (rq 5 (ky 3670048)) live).atService (rq 5 (ky 3670048))).snd.transfersFull
        ((wt (rq 5 (ky 3670048)) live).atService (rq 5 (ky 3670048))).fst =
      false :=
  ⟨waits_of (by decide +kernel), by decide +kernel⟩

theorem test_DopOperationsComplete_21 :
    Waits
      (wt (rq 5 (ky 3670048))
        (let __src := live;
        { pending := __src.pending, freeCount := __src.freeCount, out := __src.out, regs := __src.regs, mem := __src.mem,
          badWords := __src.badWords, threads := __src.threads, tiles := __src.tiles, ctxs := __src.ctxs, hamper := __src.hamper,
          roots := __src.roots, log := __src.log, hist := __src.hist, notices := __src.notices, faultLow := __src.faultLow,
          stopFrozen := __src.stopFrozen, vecCount := __src.vecCount, ports := __src.ports, coordKnown := __src.coordKnown,
          lasers := __src.lasers, stileAcks := __src.stileAcks, xfers := __src.xfers, nextTid := __src.nextTid,
          streams := __src.streams, launches := __src.launches, reassemblies := __src.reassemblies, rxWait := __src.rxWait,
          arrived := __src.arrived, accepted := __src.accepted, shardFailed := __src.shardFailed, lark := __src.lark,
          rings := __src.rings, intakes := __src.intakes, publishes := __src.publishes, d3hot := __src.d3hot, cfg := __src.cfg,
          maxRead := __src.maxRead, maxPayload := __src.maxPayload, scaleFail := __src.scaleFail, tileFail := __src.tileFail,
          objs := __src.objs, causes := __src.causes, fwCores := __src.fwCores, boot := __src.boot, bring := __src.bring,
          fresets := __src.fresets, flash := __src.flash,
          ronbin :=
            {
              sessions :=
                [(0,
                    { opened := true, transfer := some { xid := 7, key := 0, write := false, total := 0, crc := 0 : Transfer } :
                      Session })] :
              Ronbin } :
          State }))
      (rq 5 (ky 3670048)) 5
    ∧ (pduBody (rq 5 (ky 3670048)).pdu).length = 4
    ∧ (((wt (rq 5 (ky 3670048))
                      (let __src := live;
                      { pending := __src.pending, freeCount := __src.freeCount, out := __src.out, regs := __src.regs,
                        mem := __src.mem, badWords := __src.badWords, threads := __src.threads, tiles := __src.tiles,
                        ctxs := __src.ctxs, hamper := __src.hamper, roots := __src.roots, log := __src.log, hist := __src.hist,
                        notices := __src.notices, faultLow := __src.faultLow, stopFrozen := __src.stopFrozen,
                        vecCount := __src.vecCount, ports := __src.ports, coordKnown := __src.coordKnown, lasers := __src.lasers,
                        stileAcks := __src.stileAcks, xfers := __src.xfers, nextTid := __src.nextTid, streams := __src.streams,
                        launches := __src.launches, reassemblies := __src.reassemblies, rxWait := __src.rxWait,
                        arrived := __src.arrived, accepted := __src.accepted, shardFailed := __src.shardFailed, lark := __src.lark,
                        rings := __src.rings, intakes := __src.intakes, publishes := __src.publishes, d3hot := __src.d3hot,
                        cfg := __src.cfg, maxRead := __src.maxRead, maxPayload := __src.maxPayload, scaleFail := __src.scaleFail,
                        tileFail := __src.tileFail, objs := __src.objs, causes := __src.causes, fwCores := __src.fwCores,
                        boot := __src.boot, bring := __src.bring, fresets := __src.fresets, flash := __src.flash,
                        ronbin :=
                          {
                            sessions :=
                              [(0,
                                  { opened := true,
                                    transfer := some { xid := 7, key := 0, write := false, total := 0, crc := 0 : Transfer } :
                                    Session })] :
                            Ronbin } :
                        State })).atService
                  (rq 5 (ky 3670048))).snd.objGet
            ((wt (rq 5 (ky 3670048))
                    (let __src := live;
                    { pending := __src.pending, freeCount := __src.freeCount, out := __src.out, regs := __src.regs,
                      mem := __src.mem, badWords := __src.badWords, threads := __src.threads, tiles := __src.tiles,
                      ctxs := __src.ctxs, hamper := __src.hamper, roots := __src.roots, log := __src.log, hist := __src.hist,
                      notices := __src.notices, faultLow := __src.faultLow, stopFrozen := __src.stopFrozen,
                      vecCount := __src.vecCount, ports := __src.ports, coordKnown := __src.coordKnown, lasers := __src.lasers,
                      stileAcks := __src.stileAcks, xfers := __src.xfers, nextTid := __src.nextTid, streams := __src.streams,
                      launches := __src.launches, reassemblies := __src.reassemblies, rxWait := __src.rxWait,
                      arrived := __src.arrived, accepted := __src.accepted, shardFailed := __src.shardFailed, lark := __src.lark,
                      rings := __src.rings, intakes := __src.intakes, publishes := __src.publishes, d3hot := __src.d3hot,
                      cfg := __src.cfg, maxRead := __src.maxRead, maxPayload := __src.maxPayload, scaleFail := __src.scaleFail,
                      tileFail := __src.tileFail, objs := __src.objs, causes := __src.causes, fwCores := __src.fwCores,
                      boot := __src.boot, bring := __src.bring, fresets := __src.fresets, flash := __src.flash,
                      ronbin :=
                        {
                          sessions :=
                            [(0,
                                { opened := true,
                                  transfer := some { xid := 7, key := 0, write := false, total := 0, crc := 0 : Transfer } :
                                  Session })] :
                          Ronbin } :
                      State })).atService
                (rq 5 (ky 3670048))).fst
            (keyAt (pduBody (rq 5 (ky 3670048)).pdu) 0) true).fst.fst =
      0
    ∧ (((wt (rq 5 (ky 3670048))
                        (let __src := live;
                        { pending := __src.pending, freeCount := __src.freeCount, out := __src.out, regs := __src.regs,
                          mem := __src.mem, badWords := __src.badWords, threads := __src.threads, tiles := __src.tiles,
                          ctxs := __src.ctxs, hamper := __src.hamper, roots := __src.roots, log := __src.log, hist := __src.hist,
                          notices := __src.notices, faultLow := __src.faultLow, stopFrozen := __src.stopFrozen,
                          vecCount := __src.vecCount, ports := __src.ports, coordKnown := __src.coordKnown, lasers := __src.lasers,
                          stileAcks := __src.stileAcks, xfers := __src.xfers, nextTid := __src.nextTid, streams := __src.streams,
                          launches := __src.launches, reassemblies := __src.reassemblies, rxWait := __src.rxWait,
                          arrived := __src.arrived, accepted := __src.accepted, shardFailed := __src.shardFailed,
                          lark := __src.lark, rings := __src.rings, intakes := __src.intakes, publishes := __src.publishes,
                          d3hot := __src.d3hot, cfg := __src.cfg, maxRead := __src.maxRead, maxPayload := __src.maxPayload,
                          scaleFail := __src.scaleFail, tileFail := __src.tileFail, objs := __src.objs, causes := __src.causes,
                          fwCores := __src.fwCores, boot := __src.boot, bring := __src.bring, fresets := __src.fresets,
                          flash := __src.flash,
                          ronbin :=
                            {
                              sessions :=
                                [(0,
                                    { opened := true,
                                      transfer := some { xid := 7, key := 0, write := false, total := 0, crc := 0 : Transfer } :
                                      Session })] :
                              Ronbin } :
                          State })).atService
                    (rq 5 (ky 3670048))).snd.objGet
              ((wt (rq 5 (ky 3670048))
                      (let __src := live;
                      { pending := __src.pending, freeCount := __src.freeCount, out := __src.out, regs := __src.regs,
                        mem := __src.mem, badWords := __src.badWords, threads := __src.threads, tiles := __src.tiles,
                        ctxs := __src.ctxs, hamper := __src.hamper, roots := __src.roots, log := __src.log, hist := __src.hist,
                        notices := __src.notices, faultLow := __src.faultLow, stopFrozen := __src.stopFrozen,
                        vecCount := __src.vecCount, ports := __src.ports, coordKnown := __src.coordKnown, lasers := __src.lasers,
                        stileAcks := __src.stileAcks, xfers := __src.xfers, nextTid := __src.nextTid, streams := __src.streams,
                        launches := __src.launches, reassemblies := __src.reassemblies, rxWait := __src.rxWait,
                        arrived := __src.arrived, accepted := __src.accepted, shardFailed := __src.shardFailed, lark := __src.lark,
                        rings := __src.rings, intakes := __src.intakes, publishes := __src.publishes, d3hot := __src.d3hot,
                        cfg := __src.cfg, maxRead := __src.maxRead, maxPayload := __src.maxPayload, scaleFail := __src.scaleFail,
                        tileFail := __src.tileFail, objs := __src.objs, causes := __src.causes, fwCores := __src.fwCores,
                        boot := __src.boot, bring := __src.bring, fresets := __src.fresets, flash := __src.flash,
                        ronbin :=
                          {
                            sessions :=
                              [(0,
                                  { opened := true,
                                    transfer := some { xid := 7, key := 0, write := false, total := 0, crc := 0 : Transfer } :
                                    Session })] :
                            Ronbin } :
                        State })).atService
                  (rq 5 (ky 3670048))).fst
              (keyAt (pduBody (rq 5 (ky 3670048)).pdu) 0) true).fst.snd.fst =
      typeCode ObjType.blob
    ∧ ((wt (rq 5 (ky 3670048))
                  (let __src := live;
                  { pending := __src.pending, freeCount := __src.freeCount, out := __src.out, regs := __src.regs, mem := __src.mem,
                    badWords := __src.badWords, threads := __src.threads, tiles := __src.tiles, ctxs := __src.ctxs,
                    hamper := __src.hamper, roots := __src.roots, log := __src.log, hist := __src.hist, notices := __src.notices,
                    faultLow := __src.faultLow, stopFrozen := __src.stopFrozen, vecCount := __src.vecCount, ports := __src.ports,
                    coordKnown := __src.coordKnown, lasers := __src.lasers, stileAcks := __src.stileAcks, xfers := __src.xfers,
                    nextTid := __src.nextTid, streams := __src.streams, launches := __src.launches,
                    reassemblies := __src.reassemblies, rxWait := __src.rxWait, arrived := __src.arrived,
                    accepted := __src.accepted, shardFailed := __src.shardFailed, lark := __src.lark, rings := __src.rings,
                    intakes := __src.intakes, publishes := __src.publishes, d3hot := __src.d3hot, cfg := __src.cfg,
                    maxRead := __src.maxRead, maxPayload := __src.maxPayload, scaleFail := __src.scaleFail,
                    tileFail := __src.tileFail, objs := __src.objs, causes := __src.causes, fwCores := __src.fwCores,
                    boot := __src.boot, bring := __src.bring, fresets := __src.fresets, flash := __src.flash,
                    ronbin :=
                      {
                        sessions :=
                          [(0,
                              { opened := true,
                                transfer := some { xid := 7, key := 0, write := false, total := 0, crc := 0 : Transfer } :
                                Session })] :
                        Ronbin } :
                    State })).atService
              (rq 5 (ky 3670048))).snd.transfersFull
        ((wt (rq 5 (ky 3670048))
                (let __src := live;
                { pending := __src.pending, freeCount := __src.freeCount, out := __src.out, regs := __src.regs, mem := __src.mem,
                  badWords := __src.badWords, threads := __src.threads, tiles := __src.tiles, ctxs := __src.ctxs,
                  hamper := __src.hamper, roots := __src.roots, log := __src.log, hist := __src.hist, notices := __src.notices,
                  faultLow := __src.faultLow, stopFrozen := __src.stopFrozen, vecCount := __src.vecCount, ports := __src.ports,
                  coordKnown := __src.coordKnown, lasers := __src.lasers, stileAcks := __src.stileAcks, xfers := __src.xfers,
                  nextTid := __src.nextTid, streams := __src.streams, launches := __src.launches,
                  reassemblies := __src.reassemblies, rxWait := __src.rxWait, arrived := __src.arrived, accepted := __src.accepted,
                  shardFailed := __src.shardFailed, lark := __src.lark, rings := __src.rings, intakes := __src.intakes,
                  publishes := __src.publishes, d3hot := __src.d3hot, cfg := __src.cfg, maxRead := __src.maxRead,
                  maxPayload := __src.maxPayload, scaleFail := __src.scaleFail, tileFail := __src.tileFail, objs := __src.objs,
                  causes := __src.causes, fwCores := __src.fwCores, boot := __src.boot, bring := __src.bring,
                  fresets := __src.fresets, flash := __src.flash,
                  ronbin :=
                    {
                      sessions :=
                        [(0,
                            { opened := true,
                              transfer := some { xid := 7, key := 0, write := false, total := 0, crc := 0 : Transfer } :
                              Session })] :
                      Ronbin } :
                  State })).atService
            (rq 5 (ky 3670048))).fst =
      true :=
  ⟨waits_of (by decide +kernel), by decide +kernel⟩

theorem test_DopOperationsComplete_22 :
    Waits (wt (rq 5 (ky 5242881)) live) (rq 5 (ky 5242881)) 5
    ∧ (pduBody (rq 5 (ky 5242881)).pdu).length = 4
    ∧ (((wt (rq 5 (ky 5242881)) live).atService (rq 5 (ky 5242881))).snd.objGet
            ((wt (rq 5 (ky 5242881)) live).atService (rq 5 (ky 5242881))).fst (keyAt (pduBody (rq 5 (ky 5242881)).pdu) 0)
            true).fst.fst ≠
      0 :=
  ⟨waits_of (by decide +kernel), by decide +kernel⟩

theorem test_DopOperationsComplete_23 :
    Waits (wt (rq 6 (ky 3670048 ++ leBytes 4 16 ++ leBytes 4 43981)) expert) (rq 6 (ky 3670048 ++ leBytes 4 16 ++ leBytes 4 43981))
      6
    ∧ (pduBody (rq 6 (ky 3670048 ++ leBytes 4 16 ++ leBytes 4 43981)).pdu).length = 12
    ∧ ((wt (rq 6 (ky 3670048 ++ leBytes 4 16 ++ leBytes 4 43981)) expert).atService
              (rq 6 (ky 3670048 ++ leBytes 4 16 ++ leBytes 4 43981))).snd.writeCheck
        ((wt (rq 6 (ky 3670048 ++ leBytes 4 16 ++ leBytes 4 43981)) expert).atService
            (rq 6 (ky 3670048 ++ leBytes 4 16 ++ leBytes 4 43981))).fst
        (keyAt (pduBody (rq 6 (ky 3670048 ++ leBytes 4 16 ++ leBytes 4 43981)).pdu) 0) (typeCode ObjType.blob)
        (natAt (pduBody (rq 6 (ky 3670048 ++ leBytes 4 16 ++ leBytes 4 43981)).pdu) 4 4) =
      Sum.inr (defOf 3670048)
    ∧ ((wt (rq 6 (ky 3670048 ++ leBytes 4 16 ++ leBytes 4 43981)) expert).atService
              (rq 6 (ky 3670048 ++ leBytes 4 16 ++ leBytes 4 43981))).snd.transfersFull
        ((wt (rq 6 (ky 3670048 ++ leBytes 4 16 ++ leBytes 4 43981)) expert).atService
            (rq 6 (ky 3670048 ++ leBytes 4 16 ++ leBytes 4 43981))).fst =
      false :=
  ⟨waits_of (by decide +kernel), by decide +kernel⟩

theorem test_DopOperationsComplete_24 :
    Waits (wt (rq 6 (ky 3670048 ++ leBytes 4 16 ++ leBytes 4 43981)) live) (rq 6 (ky 3670048 ++ leBytes 4 16 ++ leBytes 4 43981)) 6
    ∧ (pduBody (rq 6 (ky 3670048 ++ leBytes 4 16 ++ leBytes 4 43981)).pdu).length = 12
    ∧ ((wt (rq 6 (ky 3670048 ++ leBytes 4 16 ++ leBytes 4 43981)) live).atService
              (rq 6 (ky 3670048 ++ leBytes 4 16 ++ leBytes 4 43981))).snd.writeCheck
        ((wt (rq 6 (ky 3670048 ++ leBytes 4 16 ++ leBytes 4 43981)) live).atService
            (rq 6 (ky 3670048 ++ leBytes 4 16 ++ leBytes 4 43981))).fst
        (keyAt (pduBody (rq 6 (ky 3670048 ++ leBytes 4 16 ++ leBytes 4 43981)).pdu) 0) (typeCode ObjType.blob)
        (natAt (pduBody (rq 6 (ky 3670048 ++ leBytes 4 16 ++ leBytes 4 43981)).pdu) 4 4) =
      Sum.inl 8 :=
  ⟨waits_of (by decide +kernel), by decide +kernel⟩

theorem test_DopOperationsComplete_25 :
    Waits (xs (tr true 16 (crc32c vc).toNat []) (rq 7 (seg 9 0 []))) (rq 7 (seg 9 0 [])) 7
    ∧ 8 ≤ (pduBody (rq 7 (seg 9 0 [])).pdu).length
    ∧ (pduBody (rq 7 (seg 9 0 [])).pdu).length = 8 + natAt (pduBody (rq 7 (seg 9 0 [])).pdu) 4 2
    ∧ (((xs (tr true 16 (crc32c vc).toNat []) (rq 7 (seg 9 0 []))).atService (rq 7 (seg 9 0 []))).snd.session
          ((xs (tr true 16 (crc32c vc).toNat []) (rq 7 (seg 9 0 []))).atService (rq 7 (seg 9 0 []))).fst).transfer =
      some (yOf (xs (tr true 16 (crc32c vc).toNat []) (rq 7 (seg 9 0 []))))
    ∧ (yOf (xs (tr true 16 (crc32c vc).toNat []) (rq 7 (seg 9 0 [])))).xid ≠ natAt (pduBody (rq 7 (seg 9 0 [])).pdu) 0 2 :=
  ⟨waits_of (by decide +kernel), by decide +kernel⟩

theorem test_DopOperationsComplete_26 :
    Waits (xs (tr false 3 5 [1, 2, 3]) (rq 7 (seg 7 0 vc))) (rq 7 (seg 7 0 vc)) 7
    ∧ 8 ≤ (pduBody (rq 7 (seg 7 0 vc)).pdu).length
    ∧ (pduBody (rq 7 (seg 7 0 vc)).pdu).length = 8 + natAt (pduBody (rq 7 (seg 7 0 vc)).pdu) 4 2
    ∧ (((xs (tr false 3 5 [1, 2, 3]) (rq 7 (seg 7 0 vc))).atService (rq 7 (seg 7 0 vc))).snd.session
          ((xs (tr false 3 5 [1, 2, 3]) (rq 7 (seg 7 0 vc))).atService (rq 7 (seg 7 0 vc))).fst).transfer =
      some (yOf (xs (tr false 3 5 [1, 2, 3]) (rq 7 (seg 7 0 vc))))
    ∧ (yOf (xs (tr false 3 5 [1, 2, 3]) (rq 7 (seg 7 0 vc)))).xid = natAt (pduBody (rq 7 (seg 7 0 vc)).pdu) 0 2
    ∧ (yOf (xs (tr false 3 5 [1, 2, 3]) (rq 7 (seg 7 0 vc)))).write = false
    ∧ List.take 1024
        (List.drop (1024 * natAt (pduBody (rq 7 (seg 7 0 vc)).pdu) 2 2)
          (yOf (xs (tr false 3 5 [1, 2, 3]) (rq 7 (seg 7 0 vc)))).data) ≠
      [] :=
  ⟨waits_of (by decide +kernel), by decide +kernel⟩

theorem test_DopOperationsComplete_28 :
    Waits (xs (tr true 16 (crc32c vc).toNat []) (rq 7 (seg 7 0 vc))) (rq 7 (seg 7 0 vc)) 7
    ∧ 8 ≤ (pduBody (rq 7 (seg 7 0 vc)).pdu).length
    ∧ (pduBody (rq 7 (seg 7 0 vc)).pdu).length = 8 + natAt (pduBody (rq 7 (seg 7 0 vc)).pdu) 4 2
    ∧ (((xs (tr true 16 (crc32c vc).toNat []) (rq 7 (seg 7 0 vc))).atService (rq 7 (seg 7 0 vc))).snd.session
          ((xs (tr true 16 (crc32c vc).toNat []) (rq 7 (seg 7 0 vc))).atService (rq 7 (seg 7 0 vc))).fst).transfer =
      some (yOf (xs (tr true 16 (crc32c vc).toNat []) (rq 7 (seg 7 0 vc))))
    ∧ (yOf (xs (tr true 16 (crc32c vc).toNat []) (rq 7 (seg 7 0 vc)))).xid = natAt (pduBody (rq 7 (seg 7 0 vc)).pdu) 0 2
    ∧ (yOf (xs (tr true 16 (crc32c vc).toNat []) (rq 7 (seg 7 0 vc)))).write = true
    ∧ 1024 * natAt (pduBody (rq 7 (seg 7 0 vc)).pdu) 2 2 =
      (yOf (xs (tr true 16 (crc32c vc).toNat []) (rq 7 (seg 7 0 vc)))).data.length
    ∧ (List.drop 8 (pduBody (rq 7 (seg 7 0 vc)).pdu)).length =
      min 1024
        ((yOf (xs (tr true 16 (crc32c vc).toNat []) (rq 7 (seg 7 0 vc)))).total -
          (yOf (xs (tr true 16 (crc32c vc).toNat []) (rq 7 (seg 7 0 vc)))).data.length)
    ∧ ((yOf (xs (tr true 16 (crc32c vc).toNat []) (rq 7 (seg 7 0 vc)))).data ++
          List.drop 8 (pduBody (rq 7 (seg 7 0 vc)).pdu)).length =
      (yOf (xs (tr true 16 (crc32c vc).toNat []) (rq 7 (seg 7 0 vc)))).total
    ∧ (crc32c
          ((yOf (xs (tr true 16 (crc32c vc).toNat []) (rq 7 (seg 7 0 vc)))).data ++
            List.drop 8 (pduBody (rq 7 (seg 7 0 vc)).pdu))).toNat =
      (yOf (xs (tr true 16 (crc32c vc).toNat []) (rq 7 (seg 7 0 vc)))).crc :=
  ⟨waits_of (by decide +kernel), by decide +kernel⟩

theorem test_DopOperationsComplete_29 :
    Waits (xs (tr true 16 5 []) (rq 7 (seg 7 0 vc))) (rq 7 (seg 7 0 vc)) 7
    ∧ 8 ≤ (pduBody (rq 7 (seg 7 0 vc)).pdu).length
    ∧ (pduBody (rq 7 (seg 7 0 vc)).pdu).length = 8 + natAt (pduBody (rq 7 (seg 7 0 vc)).pdu) 4 2
    ∧ (((xs (tr true 16 5 []) (rq 7 (seg 7 0 vc))).atService (rq 7 (seg 7 0 vc))).snd.session
          ((xs (tr true 16 5 []) (rq 7 (seg 7 0 vc))).atService (rq 7 (seg 7 0 vc))).fst).transfer =
      some (yOf (xs (tr true 16 5 []) (rq 7 (seg 7 0 vc))))
    ∧ (yOf (xs (tr true 16 5 []) (rq 7 (seg 7 0 vc)))).xid = natAt (pduBody (rq 7 (seg 7 0 vc)).pdu) 0 2
    ∧ (yOf (xs (tr true 16 5 []) (rq 7 (seg 7 0 vc)))).write = true
    ∧ 1024 * natAt (pduBody (rq 7 (seg 7 0 vc)).pdu) 2 2 = (yOf (xs (tr true 16 5 []) (rq 7 (seg 7 0 vc)))).data.length
    ∧ (List.drop 8 (pduBody (rq 7 (seg 7 0 vc)).pdu)).length =
      min 1024
        ((yOf (xs (tr true 16 5 []) (rq 7 (seg 7 0 vc)))).total - (yOf (xs (tr true 16 5 []) (rq 7 (seg 7 0 vc)))).data.length)
    ∧ ((yOf (xs (tr true 16 5 []) (rq 7 (seg 7 0 vc)))).data ++ List.drop 8 (pduBody (rq 7 (seg 7 0 vc)).pdu)).length =
      (yOf (xs (tr true 16 5 []) (rq 7 (seg 7 0 vc)))).total
    ∧ (crc32c ((yOf (xs (tr true 16 5 []) (rq 7 (seg 7 0 vc)))).data ++ List.drop 8 (pduBody (rq 7 (seg 7 0 vc)).pdu))).toNat ≠
      (yOf (xs (tr true 16 5 []) (rq 7 (seg 7 0 vc)))).crc :=
  ⟨waits_of (by decide +kernel), by decide +kernel⟩

theorem test_DopOperationsComplete_30 :
    Waits (xs (tr true 16 (crc32c vc).toNat []) (rq 8 (leBytes 2 7))) (rq 8 (leBytes 2 7)) 8
    ∧ (∃ y,
      (((xs (tr true 16 (crc32c vc).toNat []) (rq 8 (leBytes 2 7))).atService (rq 8 (leBytes 2 7))).snd.session
              ((xs (tr true 16 (crc32c vc).toNat []) (rq 8 (leBytes 2 7))).atService (rq 8 (leBytes 2 7))).fst).transfer =
          some y ∧
        y.xid = natAt (pduBody (rq 8 (leBytes 2 7)).pdu) 0 2)
    ∧ (pduBody (rq 8 (leBytes 2 7)).pdu).length = 2 :=
  ⟨waits_of (by decide +kernel), ⟨yOf (xs (tr true 16 (crc32c vc).toNat []) (rq 8 (leBytes 2 7))), ⟨by decide +kernel, by decide +kernel⟩⟩, by decide +kernel⟩

theorem test_DopOperationsComplete_31 :
    Waits (xs (tr true 16 (crc32c vc).toNat []) (rq 8 (leBytes 2 8))) (rq 8 (leBytes 2 8)) 8
    ∧ (pduBody (rq 8 (leBytes 2 8)).pdu).length = 2
    ∧ (∀ (y : Transfer),
      (((xs (tr true 16 (crc32c vc).toNat []) (rq 8 (leBytes 2 8))).atService (rq 8 (leBytes 2 8))).snd.session
              ((xs (tr true 16 (crc32c vc).toNat []) (rq 8 (leBytes 2 8))).atService (rq 8 (leBytes 2 8))).fst).transfer =
          some y →
        y.xid ≠ natAt (pduBody (rq 8 (leBytes 2 8)).pdu) 0 2) :=
  ⟨waits_of (by decide +kernel), by decide +kernel⟩

theorem test_DopOperationsComplete_32 :
    Waits (xs (tr true 16 (crc32c vc).toNat []) (rq 9 [1, 0, 0, 0])) (rq 9 [1, 0, 0, 0]) 9
    ∧ (natAt (pduBody (rq 9 [1, 0, 0, 0]).pdu) 0 1 = 1 ∨ natAt (pduBody (rq 9 [1, 0, 0, 0]).pdu) 0 1 = 2)
    ∧ (pduBody (rq 9 [1, 0, 0, 0]).pdu).length = 4 :=
  ⟨waits_of (by decide +kernel), .inl (by decide +kernel), by decide +kernel⟩

theorem test_DopOperationsComplete_33 :
    Waits (xs (tr true 16 (crc32c vc).toNat []) (rq 9 [3, 0, 0, 0])) (rq 9 [3, 0, 0, 0]) 9
    ∧ (pduBody (rq 9 [3, 0, 0, 0]).pdu).length = 4
    ∧ natAt (pduBody (rq 9 [3, 0, 0, 0]).pdu) 0 1 ≠ 1
    ∧ natAt (pduBody (rq 9 [3, 0, 0, 0]).pdu) 0 1 ≠ 2 :=
  ⟨waits_of (by decide +kernel), by decide +kernel⟩

theorem test_DopOperationsComplete_27 :
    Waits (xs (tr true 1040 5 []) (rq 7 (seg 7 0 (List.replicate 1024 5)))) (rq 7 (seg 7 0 (List.replicate 1024 5))) 7
    ∧ 8 ≤ (pduBody (rq 7 (seg 7 0 (List.replicate 1024 5))).pdu).length
    ∧ (pduBody (rq 7 (seg 7 0 (List.replicate 1024 5))).pdu).length =
      8 + natAt (pduBody (rq 7 (seg 7 0 (List.replicate 1024 5))).pdu) 4 2
    ∧ (((xs (tr true 1040 5 []) (rq 7 (seg 7 0 (List.replicate 1024 5)))).atService
                (rq 7 (seg 7 0 (List.replicate 1024 5)))).snd.session
          ((xs (tr true 1040 5 []) (rq 7 (seg 7 0 (List.replicate 1024 5)))).atService
              (rq 7 (seg 7 0 (List.replicate 1024 5)))).fst).transfer =
      some (yOf (xs (tr true 1040 5 []) (rq 7 (seg 7 0 (List.replicate 1024 5)))))
    ∧ (yOf (xs (tr true 1040 5 []) (rq 7 (seg 7 0 (List.replicate 1024 5))))).xid =
      natAt (pduBody (rq 7 (seg 7 0 (List.replicate 1024 5))).pdu) 0 2
    ∧ (yOf (xs (tr true 1040 5 []) (rq 7 (seg 7 0 (List.replicate 1024 5))))).write = true
    ∧ 1024 * natAt (pduBody (rq 7 (seg 7 0 (List.replicate 1024 5))).pdu) 2 2 =
      (yOf (xs (tr true 1040 5 []) (rq 7 (seg 7 0 (List.replicate 1024 5))))).data.length
    ∧ (List.drop 8 (pduBody (rq 7 (seg 7 0 (List.replicate 1024 5))).pdu)).length =
      min 1024
        ((yOf (xs (tr true 1040 5 []) (rq 7 (seg 7 0 (List.replicate 1024 5))))).total -
          (yOf (xs (tr true 1040 5 []) (rq 7 (seg 7 0 (List.replicate 1024 5))))).data.length)
    ∧ ((yOf (xs (tr true 1040 5 []) (rq 7 (seg 7 0 (List.replicate 1024 5))))).data ++
          List.drop 8 (pduBody (rq 7 (seg 7 0 (List.replicate 1024 5))).pdu)).length <
      (yOf (xs (tr true 1040 5 []) (rq 7 (seg 7 0 (List.replicate 1024 5))))).total :=
  ⟨waits_of (by decide +kernel), by decide +kernel⟩

/-! Witnesses of `Obligations.ManagementEventsComplete`, by clause. -/

theorem test_ManagementEventsComplete_1 :
    (Config.mgmtMac = Config.mgmtMac ∨ Config.mgmtMac = dopGroup)
    ∧ ({ tagged := false, pdu := [1, 2] : DopFrame }.tagged = true ∨ { tagged := false, pdu := [1, 2] : DopFrame }.pdu.length < 8)
    ∧ (ronUp live).ronbinUp = true :=
  ⟨.inl (rfl), .inr (by decide +kernel), by decide +kernel⟩

theorem test_ManagementEventsComplete_2 :
    (Config.mgmtMac = Config.mgmtMac ∨ Config.mgmtMac = dopGroup)
    ∧ (pduDst { tagged := false, pdu := fr 1 0 : DopFrame }.pdu = (ronUp live).nodeId ∨
      pduDst { tagged := false, pdu := fr 1 0 : DopFrame }.pdu = 255)
    ∧ (ronUp live).ronbinUp = true
    ∧ { tagged := false, pdu := fr 1 0 : DopFrame }.tagged = false
    ∧ 8 ≤ { tagged := false, pdu := fr 1 0 : DopFrame }.pdu.length
    ∧ (ronUp live).ronbin.requests = []
    ∧ { slot := none, mac := (2199023255557#48).toNat, pdu := { tagged := false, pdu := fr 1 0 : DopFrame }.pdu :
          Request }.headerGood =
      true
    ∧ (ronUp live).kept
        { slot := none, mac := (2199023255557#48).toNat, pdu := { tagged := false, pdu := fr 1 0 : DopFrame }.pdu : Request } =
      none
    ∧ ¬(pduDst { tagged := false, pdu := fr 1 0 : DopFrame }.pdu = 255 ∧
        5 ≤ pduOp { tagged := false, pdu := fr 1 0 : DopFrame }.pdu ∧ pduOp { tagged := false, pdu := fr 1 0 : DopFrame }.pdu ≤ 7) :=
  ⟨.inl (rfl), .inl (by decide +kernel), by decide +kernel⟩

theorem test_ManagementEventsComplete_3 :
    (Config.mgmtMac = Config.mgmtMac ∨ Config.mgmtMac = dopGroup)
    ∧ (pduDst { tagged := false, pdu := fr 1 0 : DopFrame }.pdu = known.nodeId ∨
      pduDst { tagged := false, pdu := fr 1 0 : DopFrame }.pdu = 255)
    ∧ known.ronbinUp = true
    ∧ { tagged := false, pdu := fr 1 0 : DopFrame }.tagged = false
    ∧ 8 ≤ { tagged := false, pdu := fr 1 0 : DopFrame }.pdu.length
    ∧ known.ronbin.requests = []
    ∧ { slot := none, mac := (2199023255557#48).toNat, pdu := { tagged := false, pdu := fr 1 0 : DopFrame }.pdu :
          Request }.headerGood =
      true
    ∧ known.kept
        { slot := none, mac := (2199023255557#48).toNat, pdu := { tagged := false, pdu := fr 1 0 : DopFrame }.pdu : Request } =
      some (2, [1, 2, 3])
    ∧ ¬(pduDst { tagged := false, pdu := fr 1 0 : DopFrame }.pdu = 255 ∧
        5 ≤ pduOp { tagged := false, pdu := fr 1 0 : DopFrame }.pdu ∧ pduOp { tagged := false, pdu := fr 1 0 : DopFrame }.pdu ≤ 7) :=
  ⟨.inl (rfl), .inl (by decide +kernel), by decide +kernel⟩

theorem test_ManagementEventsComplete_4 :
    (mbx 1 12 (rq 1 (ky 1048587))).fld (F.mbxStatus.state 0) = 1 :=
  by decide +kernel

theorem test_ManagementEventsComplete_5 :
    ((mbx 0 5 (rq 1 (ky 1048587))).fld (F.mbxReqLen.val 0) < 8 ∨ 1500 < (mbx 0 5 (rq 1 (ky 1048587))).fld (F.mbxReqLen.val 0))
    ∧ (mbx 0 5 (rq 1 (ky 1048587))).fld (F.mbxStatus.state 0) ≠ 1 :=
  ⟨.inl (by decide +kernel), by decide +kernel⟩

theorem test_ManagementEventsComplete_6 :
    (mbx 0 12 (rq 1 (ky 1048587))).fld (F.mbxStatus.state 0) ≠ 1
    ∧ 8 ≤ (mbx 0 12 (rq 1 (ky 1048587))).fld (F.mbxReqLen.val 0)
    ∧ (mbx 0 12 (rq 1 (ky 1048587))).fld (F.mbxReqLen.val 0) ≤ 1500
    ∧ (mbx 0 12 (rq 1 (ky 1048587))).ronbin.requests = []
    ∧ { slot := some 0,
          pdu := (mbx 0 12 (rq 1 (ky 1048587))).bytes (mbxReq 0) ((mbx 0 12 (rq 1 (ky 1048587))).fld (F.mbxReqLen.val 0)) :
          Request }.headerGood =
      true :=
  by decide +kernel

theorem test_ManagementEventsComplete_10 :
    noti.notices = [ntc]
    ∧ noti.ronbinUp = true
    ∧ noti.obj O.evtSubMac ≠ 0 :=
  by decide +kernel

theorem test_ManagementEventsComplete_11 :
    (0 < 2 ∨ (opn.session 0).opened = true)
    ∧ ((0#8).toNat = 0 ∨ (0#8).toNat = 1 ∧ opn.strap 6 = true) :=
  ⟨.inl (by decide +kernel), .inl (by decide +kernel)⟩

theorem test_ManagementEventsComplete_12 :
    (0 < 2 ∨ (opn.session 0).opened = true)
    ∧ (1 < (1#8).toNat ∨ (1#8).toNat = 1 ∧ opn.strap 6 = false) :=
  ⟨.inl (by decide +kernel), .inr (⟨by decide +kernel, by decide +kernel⟩)⟩

theorem test_ManagementEventsComplete_13 :
    opn.ronbin.recovery = false
    ∧ opn.obj O.configEpoch ≠ (119#32).toNat :=
  by decide +kernel

theorem test_ManagementEventsComplete_14 :
    opn.ronbin.recovery = false
    ∧ opn.obj O.configEpoch = (0#32).toNat :=
  by decide +kernel

theorem test_ManagementEventsComplete_15 :
    (defr 2621456 0 idleM).ronbin.deferred = [(2621456, 0)]
    ∧ objFunc (2621456 / 256) = 8
    ∧ objDefOf 2621456 = some (defOf 2621456) :=
  by decide +kernel

theorem test_ManagementEventsComplete_16 :
    (let __src := idleM;
          { pending := __src.pending, freeCount := __src.freeCount, out := __src.out, regs := __src.regs, mem := __src.mem,
            badWords := __src.badWords, threads := __src.threads, tiles := __src.tiles, ctxs := __src.ctxs, hamper := __src.hamper,
            roots := __src.roots, log := __src.log, hist := __src.hist, notices := __src.notices, faultLow := __src.faultLow,
            stopFrozen := __src.stopFrozen, vecCount := __src.vecCount, ports := __src.ports, coordKnown := __src.coordKnown,
            lasers := __src.lasers, stileAcks := __src.stileAcks, xfers := __src.xfers, nextTid := __src.nextTid,
            streams := __src.streams, launches := __src.launches, reassemblies := __src.reassemblies, rxWait := __src.rxWait,
            arrived := __src.arrived, accepted := __src.accepted, shardFailed := __src.shardFailed, lark := __src.lark,
            rings := __src.rings, intakes := __src.intakes, publishes := __src.publishes, d3hot := __src.d3hot, cfg := __src.cfg,
            maxRead := __src.maxRead, maxPayload := __src.maxPayload, scaleFail := __src.scaleFail, tileFail := __src.tileFail,
            objs := __src.objs, causes := __src.causes, fwCores := __src.fwCores, boot := __src.boot, bring := __src.bring,
            fresets := __src.fresets, flash := __src.flash, ronbin := { recovery := true : Ronbin } : State }).ronbin.recovery =
      true :=
  by decide +kernel

theorem test_ManagementEventsComplete_19 :
    (defr 2621456 0 idleM).ronbin.recovery = false
    ∧ ((defr 2621456 0 idleM).ctx 0).running = false :=
  by decide +kernel

theorem test_ManagementEventsComplete_20 :
    opn.ronbin.recovery = false
    ∧ (opn.ctx 0).running = true :=
  by decide +kernel

theorem test_ManagementEventsComplete_21 :
    idleM.ronbin.recovery = false
    ∧ BitVec.getLsbD (idleM.reg R.funcReady) 8 = true
    ∧ idleM.ronbin.deferred = []
    ∧ (idleM.ctx 0).held = []
    ∧ idleM.obj (O.rootPrecondEn 0) ≠ boolNat false
    ∧ (idleM.ctx 0).running = false :=
  by decide +kernel

theorem test_ManagementEventsComplete_22 :
    opn.ronbin.recovery = false
    ∧ BitVec.getLsbD (opn.reg R.funcReady) 8 = true
    ∧ opn.ronbin.deferred = []
    ∧ (opn.ctx 0).held = []
    ∧ opn.obj (O.rootPrecondEn 0) ≠ boolNat false
    ∧ (opn.ctx 0).running = true :=
  by decide +kernel

/-! Witnesses of `Obligations.ImageRowsComplete`, by clause. -/

theorem test_ImageRowsComplete_1 :
    (34359738377#64).toNat % 2 ^ 32 ≠ 0
    ∧ (34359738377#64).toNat / 2 ^ 32 ≤ 786432
    ∧ live.stageBusy = false :=
  by decide +kernel

theorem test_ImageRowsComplete_2 :
    (34359738377#64).toNat % 2 ^ 32 ≠ 0
    ∧ (34359738377#64).toNat / 2 ^ 32 ≤ 786432
    ∧ (ers (rec_ 2000 [] live)).stageBusy = true :=
  by decide +kernel

theorem test_ImageRowsComplete_6 :
    (bufd (rec_ 2000 [] live)).ronbin.buffer = [(1, full)]
    ∧ full.length = 1024
    ∧ (bufd (rec_ 2000 [] live)).ronbin.erasing = false
    ∧ (bufd (rec_ 2000 [] live)).ronbin.card ≠ 2
    ∧ (bufd (rec_ 2000 [] live)).ronbin.scan = [] :=
  by decide +kernel

theorem test_ImageRowsComplete_7 :
    (act (rec_ 2000 [] live)).ronbin.activation = true :=
  by decide +kernel

theorem test_ImageRowsComplete_8 :
    (rec_ 2000 [] live).ronbin.activation = false
    ∧ ((rec_ 2000 [] live).bank (↑(rec_ 2000 [] live).stageBank : Nat)).state = BankState.receiving :=
  by decide +kernel

theorem test_ImageRowsComplete_9 :
    ((rec_ 2000 [] live).bank (↑(rec_ 2000 [] live).stageBank : Nat)).state = BankState.receiving :=
  by decide +kernel

theorem test_ImageRowsComplete_10 :
    (live.bank (↑live.stageBank : Nat)).state ≠ BankState.receiving :=
  by decide +kernel

theorem test_ImageRowsComplete_12 :
    (card 1 live).stageBusy = false
    ∧ (card 1 live).ronbin.card ≠ 0
    ∧ List.findSome? cardEntry [cardF (List.replicate 40 6)] = some (List.replicate 40 6, (crc32c (List.replicate 40 6)).toNat)
    ∧ (List.replicate 40 6).length ≤ 786432 :=
  by decide +kernel

theorem test_ImageRowsComplete_13 :
    (card 1 live).stageBusy = false
    ∧ (card 1 live).ronbin.card ≠ 0
    ∧ List.findSome? cardEntry [[1, 2, 3]] = none :=
  by decide +kernel

theorem test_ImageRowsComplete_14 :
    (ers (rec_ 2000 [] live)).stageBusy = true :=
  by decide +kernel

theorem test_ImageRowsComplete_17 :
    ((stg calm).bit F.pwrStatus.emergency = false ∧ 60 ≤ (stg calm).fld F.quietS.val)
    ∧ (stg calm).ronbin.activation = false
    ∧ ((stg calm).bank (↑(stg calm).stageBank : Nat)).state = BankState.staged
    ∧ (stg calm).ronbin.calErase = false
    ∧ (stg calm).flash.mgmtSvn ≤ ((stg calm).bank (↑(stg calm).stageBank : Nat)).svn
    ∧ (stg calm).noValidBank = false :=
  ⟨⟨by decide +kernel, by decide +kernel⟩, by decide +kernel⟩

theorem test_ImageRowsComplete_18 :
    (stgNone.bit F.pwrStatus.emergency = false ∧ 60 ≤ stgNone.fld F.quietS.val)
    ∧ stgNone.ronbin.activation = false
    ∧ (stgNone.bank (↑stgNone.stageBank : Nat)).state = BankState.staged
    ∧ stgNone.ronbin.calErase = false
    ∧ stgNone.flash.mgmtSvn ≤ (stgNone.bank (↑stgNone.stageBank : Nat)).svn
    ∧ ¬stgNone.noValidBank = false :=
  ⟨⟨by decide +kernel, by decide +kernel⟩, by decide +kernel⟩

theorem test_ImageRowsComplete_19 :
    (stg live).ronbin.activation = false
    ∧ ((stg live).bank (↑(stg live).stageBank : Nat)).state = BankState.staged
    ∧ (stg live).ronbin.calErase = false
    ∧ (stg live).flash.mgmtSvn ≤ ((stg live).bank (↑(stg live).stageBank : Nat)).svn
    ∧ ¬((stg live).bit F.pwrStatus.emergency = false ∧ 60 ≤ (stg live).fld F.quietS.val) :=
  by decide +kernel

theorem test_ImageRowsComplete_20 :
    live.ronbin.activation = false
    ∧ (live.bank (↑live.stageBank : Nat)).state ≠ BankState.staged :=
  by decide +kernel

theorem test_ImageRowsComplete_21 :
    ((act (stg calm)).bit F.pwrStatus.emergency = false ∧ 60 ≤ (act (stg calm)).fld F.quietS.val)
    ∧ (act (stg calm)).ronbin.activation = true
    ∧ (act (stg calm)).noValidBank = false :=
  ⟨⟨by decide +kernel, by decide +kernel⟩, by decide +kernel⟩

theorem test_ImageRowsComplete_22 :
    ((act stgBad).bit F.pwrStatus.emergency = false ∧ 60 ≤ (act stgBad).fld F.quietS.val)
    ∧ (act stgBad).ronbin.activation = true
    ∧ ¬(act stgBad).noValidBank = false :=
  ⟨⟨by decide +kernel, by decide +kernel⟩, by decide +kernel⟩

theorem test_ImageRowsComplete_23 :
    (((cfl { state := BankState.staged, svn := 3 : Bank }).bank 0).state = BankState.trial → { : Restart }.converted = true)
    ∧ (cfl { state := BankState.staged, svn := 3 : Bank }).ronbin.restart = some 0
    ∧ ((cfl { state := BankState.staged, svn := 3 : Bank }).imagePasses 0 (if 0 = 0 then true else true) = true) :=
  ⟨fun h => absurd h (by decide +kernel), by decide +kernel⟩

theorem test_ImageRowsComplete_24 :
    ((tri (some 1) calm).imagePasses 1 (if 1 = 0 then true else true) = false ∨ { converted := false : Restart }.converted = false)
    ∧ (tri (some 1) calm).ronbin.restart = some 1
    ∧ (tri (some 1) calm).trialBank = some 1 :=
  ⟨.inr (by decide +kernel), by decide +kernel⟩

theorem test_ImageRowsComplete_25 :
    (cfl { state := BankState.staged, svn := 3 : Bank }).ronbin.restart = some 0
    ∧ (cfl { state := BankState.staged, svn := 3 : Bank }).flash.confirmed = some 0
    ∧ (cfl { state := BankState.staged, svn := 3 : Bank }).trialBank = none
    ∧ ((cfl { state := BankState.staged, svn := 3 : Bank }).imagePasses 0 (if 0 = 0 then false else true) = false)
    ∧ ((cfl { state := BankState.staged, svn := 3 : Bank }).bank (1 - 0)).state = BankState.staged
    ∧ (cfl { state := BankState.staged, svn := 3 : Bank }).flash.fusePending = false
    ∧ ((cfl { state := BankState.staged, svn := 3 : Bank }).imagePasses (↑(1 - 0) : Nat) (if 0 = 0 then true else false) = true) :=
  by decide +kernel

theorem test_ImageRowsComplete_26 :
    (cfl { : Bank }).ronbin.restart = some 0
    ∧ (cfl { : Bank }).flash.confirmed = some 0
    ∧ (cfl { : Bank }).trialBank = none
    ∧ ((cfl { : Bank }).imagePasses 0 (if 0 = 0 then false else true) = false)
    ∧ ((cfl { : Bank }).bank (1 - 0)).state ≠ BankState.staged :=
  by decide +kernel

theorem test_ImageRowsComplete_27 :
    (tri none calm).trialBank = some 1
    ∧ (tri none calm).ronbin.restart = none
    ∧ (tri none calm).ronbin.served = false :=
  by decide +kernel

theorem test_ImageRowsComplete_28 :
    (tri none calm).trialBank = some 1
    ∧ (tri none calm).ronbin.restart = none :=
  by decide +kernel

theorem test_ImageRowsComplete_4 : let s := rec_ 2000 [] live
    (crc32c (leBytes 8 (0x0000000900000001#64).toNat ++ padTo 1024 [1, 2, 3])).toNat = (pc [1, 2, 3]).toNat
    ∧ (s.bank s.stageBank).state = .receiving ∧ (0x0000000900000001#64).toNat / 2 ^ 32 = s.flash.stageId
    ∧ (0x0000000900000001#64).toNat % 2 ^ 32 < s.pieceCount
    ∧ Tab.get (fun _ => []) (s.bank s.stageBank).pieces ((0x0000000900000001#64).toNat % 2 ^ 32) = [] ∧ s.ronbin.buffer.length < 16 :=
  ⟨rfl, by decide +kernel, by decide +kernel, by decide +kernel, by decide +kernel, by decide +kernel⟩

theorem test_ImageRowsComplete_5 : ∃ c : BitVec 32,
    (crc32c (leBytes 8 (0x0000000900000001#64).toNat ++ padTo 1024 [1, 2, 3])).toNat ≠ c.toNat :=
  ⟨crc32c (leBytes 8 (0x0000000900000001#64).toNat ++ padTo 1024 [1, 2, 3]) + 1, fun h => by
    have := BitVec.eq_of_toNat_eq h
    simp at this⟩

end W63

namespace W70

/-- An operand or a state of the witnesses below. -/
def hup : State := live.setBit F.hostReady.driverUp true
/-- An operand or a state of the witnesses below. -/
def q2 : State := { live with pending := [.powerOn, .peakPRead] }
/-- An operand or a state of the witnesses below. -/
def thr : State := fldsTo [(F.pwrStatus.level, 2), (⟨R.larkRate, 0, 32⟩, 0xFFFFFF00)] live
/-- An operand or a state of the witnesses below. -/
def pp (co : Nat) : PubPart := { shard := 0, first := 0, len := 4, bytes := 8, coord := co, base := 2^40, size := 64, offset := 16 }
/-- An operand or a state of the witnesses below. -/
def pubX : Publish := { set := 0, cmd := live.cmdEntry 0 0, target := 0, slot := none, switch := false, gen := 0, parts := [pp 3, pp 0], opened := true, left := [0, 1] }
/-- An operand or a state of the witnesses below. -/
def pubX1 : Publish := { pubX with left := [1] }
/-- An operand or a state of the witnesses below. -/
def pubs : State := { live with publishes := [pubX] }
/-- An operand or a state of the witnesses below. -/
def pubs1 : State := { live with publishes := [pubX1] }
/-- A confirmation has left its fuse burn pending. -/
def burn : State := { live with flash := { live.flash with confirmed := some 0, fusePending := true, bankA := { state := .confirmed, svn := 5, rtMin := 70, key := 1, revoke := 6 } }, ronbin := { running := some 0 } }
/-- A trial runs. -/
def trial : State := { live with flash := { live.flash with bankB := { state := .trial } }, ronbin := { running := some 1 } }
/-- An operand or a state of the witnesses below. -/
def ent (sev st : Nat) : LogSlot := { code := 0x6004, sev := sev, state := st }
/-- An operand or a state of the witnesses below. -/
def esc (s : State) : State := { fldsTo [(F.fwEscCtl.l3En, 1), (F.fenceStatus.level, 2)] s with ronbin := { resetKind := 2 } }
/-- An operand or a state of the witnesses below. -/
def fen (l : Nat) (s : State) : State := { (s.setFld F.fenceStatus.level l) with faultLow := true }
/-- An operand or a state of the witnesses below. -/
def shT (base : Nat) : State := (live.setFld (F.shardTable.base 0) (base / 128)).setFld (F.shardTable.count 0) 2

/-! Witnesses of `Obligations.StepTakesFront`, by clause. -/

theorem test_StepTakesFront_1 :
    q2.pending = [Instr.powerOn, Instr.peakPRead] :=
  by decide +kernel

/-! Witnesses of `Obligations.EmptyQueueTicks`, by clause. -/

theorem test_EmptyQueueTicks_1 :
    burn.pending = []
    ∧ (∀ (x : Publish), x ∈ burn.publishes → x.opened = true → x.staged = true) :=
  by decide +kernel

/-! Witnesses of `Obligations.ResetValuesHold`, by clause. -/

theorem test_ResetValuesHold_18 :
    0 < 4 :=
  by decide +kernel

theorem test_ResetValuesHold_20 :
    0 < 8 :=
  by decide +kernel

theorem test_ResetValuesHold_24 :
    0 < 6 :=
  by decide +kernel

theorem test_ResetValuesHold_26 :
    0 < 256
    ∧ 0 < 16 :=
  by decide +kernel

/-! Witnesses of `Obligations.OnlyAMismatchStops`, by clause. -/

theorem test_OnlyAMismatchStops_2 :
    hup.hostUp = true
    ∧ (281474976710657#64).getLsbD 0 = true
    ∧ versionsMatch (bitsAt (281474976710657#64) 32 32) (hup.fld F.moduleVersions.hostIf) = false :=
  by decide +kernel

/-! Witnesses of `Obligations.ThermosViewsAreOne`, by clause. -/

theorem test_ThermosViewsAreOne_1 :
    274877906944 ≤ 274877906944
    ∧ 274877906944 < 824633720832 :=
  by decide +kernel

/-! Witnesses of `Obligations.FenceIsLoweredByTheRule`, by clause. -/

theorem test_FenceIsLoweredByTheRule_1 :
    2 ≤ List.count true [(6#64).getLsbD 0, (6#64).getLsbD 1, (6#64).getLsbD 2] :=
  by decide +kernel

theorem test_FenceIsLoweredByTheRule_2 :
    [(4#64).getLsbD 0, (4#64).getLsbD 1, (4#64).getLsbD 2] = [false, false, true]
    ∧ (let __src := fen 1 live;
        { pending := __src.pending, freeCount := __src.freeCount, out := __src.out, regs := __src.regs, mem := __src.mem,
          badWords := __src.badWords, threads := __src.threads, tiles := __src.tiles, ctxs := __src.ctxs, hamper := __src.hamper,
          roots := __src.roots, log := [(3, ent 5 1)], hist := __src.hist, notices := __src.notices, faultLow := __src.faultLow,
          stopFrozen := __src.stopFrozen, vecCount := __src.vecCount, ports := __src.ports, coordKnown := __src.coordKnown,
          lasers := __src.lasers, stileAcks := __src.stileAcks, xfers := __src.xfers, nextTid := __src.nextTid,
          streams := __src.streams, launches := __src.launches, reassemblies := __src.reassemblies, rxWait := __src.rxWait,
          arrived := __src.arrived, accepted := __src.accepted, shardFailed := __src.shardFailed, lark := __src.lark,
          rings := __src.rings, intakes := __src.intakes, publishes := __src.publishes, d3hot := __src.d3hot, cfg := __src.cfg,
          maxRead := __src.maxRead, maxPayload := __src.maxPayload, scaleFail := __src.scaleFail, tileFail := __src.tileFail,
          objs := __src.objs, causes := __src.causes, fwCores := __src.fwCores, boot := __src.boot, bring := __src.bring,
          fresets := __src.fresets, flash := __src.flash, ronbin := __src.ronbin : State }).fatalWaits =
      true :=
  by decide +kernel

theorem test_FenceIsLoweredByTheRule_3 :
    [(4#64).getLsbD 0, (4#64).getLsbD 1, (4#64).getLsbD 2] = [false, false, true]
    ∧ (fen 1 live).fatalWaits = false :=
  by decide +kernel

theorem test_FenceIsLoweredByTheRule_4 :
    (let __src := fen 1 live;
          { pending := __src.pending, freeCount := __src.freeCount, out := __src.out, regs := __src.regs, mem := __src.mem,
            badWords := __src.badWords, threads := __src.threads, tiles := __src.tiles, ctxs := __src.ctxs, hamper := __src.hamper,
            roots := __src.roots, log := __src.log, hist := __src.hist, notices := __src.notices, faultLow := __src.faultLow,
            stopFrozen := __src.stopFrozen, vecCount := __src.vecCount, ports := __src.ports, coordKnown := __src.coordKnown,
            lasers := __src.lasers, stileAcks := __src.stileAcks, xfers := __src.xfers, nextTid := __src.nextTid,
            streams := __src.streams, launches := __src.launches, reassemblies := __src.reassemblies, rxWait := __src.rxWait,
            arrived := __src.arrived, accepted := __src.accepted, shardFailed := __src.shardFailed, lark := __src.lark,
            rings := __src.rings, intakes := __src.intakes, publishes := __src.publishes, d3hot := __src.d3hot, cfg := __src.cfg,
            maxRead := __src.maxRead, maxPayload := __src.maxPayload, scaleFail := __src.scaleFail, tileFail := __src.tileFail,
            objs := __src.objs, causes := __src.causes, fwCores := __src.fwCores, boot := __src.boot,
            bring :=
              let __src := live.bring;
              { mainOk := __src.mainOk, auxOk := __src.auxOk, resetN := __src.resetN, perst := __src.perst, pulse := __src.pulse,
                step := __src.step, released := __src.released, latched := __src.latched, pllFailed := __src.pllFailed,
                linkDone := __src.linkDone, trained := __src.trained, fails := __src.fails, tilesDone := __src.tilesDone,
                dieFailed := __src.dieFailed, warm := true, fwClosed := __src.fwClosed, held := __src.held, alive := __src.alive :
                Bring },
            fresets := __src.fresets, flash := __src.flash, ronbin := __src.ronbin : State }).bring.warm =
      true :=
  by decide +kernel

theorem test_FenceIsLoweredByTheRule_6 :
    ¬(fen 1 live).loading :=
  notLoading_of (by decide +kernel)

theorem test_FenceIsLoweredByTheRule_8 :
    ¬(fen 1 live).loading
    ∧ (fen 1 live).railsOk = true :=
  ⟨notLoading_of (by decide +kernel), by decide +kernel⟩

theorem test_FenceIsLoweredByTheRule_9 :
    ¬(fen 1 live).loading
    ∧ (fen 1 live).railsOk = true
    ∧ (fen 1 live).bit F.fwEscCtl.l3En = true
    ∧ (fen 1 live).fld F.pwrStatus.state ≠ 1 :=
  ⟨notLoading_of (by decide +kernel), by decide +kernel⟩

theorem test_FenceIsLoweredByTheRule_10 :
    ¬(esc live).loading
    ∧ (esc live).railsOk = true
    ∧ (esc live).ronbin.resetKind = 2 :=
  ⟨notLoading_of (by decide +kernel), by decide +kernel⟩

/-! Witnesses of `Obligations.RunningContextKeepsItsTable`, by clause. -/

theorem test_RunningContextKeepsItsTable_1 :
    ((shT 275146342400).ctx 0).running = true :=
  by decide +kernel

theorem test_RunningContextKeepsItsTable_4 :
    ((shT 275146342400).ctx 0).running = true
    ∧ 274877906944 ≤ 275146342398
    ∧ (shT 275146342400).tableHolds 275146342400 0 = true :=
  by decide +kernel

theorem test_RunningContextKeepsItsTable_5 :
    ((shT 275146342400).ctx 0).running = true
    ∧ 274877906944 ≤ 275146342398
    ∧ 2 < [1, 2, 3, 4].length
    ∧ (shT 275146342400).rangeReady 275146342398 [1, 2, 3, 4].length = true
    ∧ (shT 275146342400).tableHolds (275146342398 + 2) 0 = true :=
  by decide +kernel

/-! Witnesses of the statements over every command and every state. -/

theorem test_EmptyQueueTicks_1b : thr.pending = [] ∧ thr.publishes = [] ∧ thr.fld F.pwrStatus.level ≠ 0 := by decide +kernel

theorem test_EmptyQueueTicks_2 : pubs.throttleTick.nextPart pubX = some (0, pp 3) ∧ (∃ j ∈ pubX.left, j ≠ 0)
    ∧ pubs.pending = [] ∧ pubs.publishes = [pubX] ∧ pubX.opened = true ∧ pubX.staged = false
    ∧ (pubs.throttleTick.stagePart pubX 0 (pp 3)).isSome = true ∧ (pp 3).coord ≠ pubs.coord := by
  refine ⟨?_, ⟨1, by decide⟩, by decide +kernel⟩
  have self : ∀ s : State, s.sweptFirst pubX.set 0 0 = false := fun s => decide_eq_false (List.lt_irrefl _)
  have parts : (pubX.left.filterMap fun k => (pubX.parts[k]?).map fun p => (k, p)) = [(0, pp 3), (1, pp 0)] := rfl
  simp only [State.nextPart, parts]
  simp [pp, self]

theorem test_StepKeepsInv : ({ State.reset with pending := [.resetNRise] } : State).Inv ∧ ∃ u, step { State.reset with pending := [.resetNRise] } = .next u := ⟨⟨by decide +kernel, by decide +kernel⟩, _, rfl⟩

theorem test_FusesChangeOnlyToOne : ∃ u, exec .resetNRise q2 = .next u := ⟨_, rfl⟩
end W70

end Sys2Proof.Tests
end

section
/-! SUPPORT. What a command leaves in order: the commands that wait, and the canonical form of the register table and memory. A state
keeps both when it is made from another by writes of registers and bytes and by updates of other fields; one lemma per operation of the
model says so, in the order of the model. -/

namespace Sys2Proof.Machine

/-- `u` has the commands waiting that `s` has, and a register table and memory in canonical form if `s` has. -/
structure Keeps (s u : State) : Prop where
  pending : u.pending = s.pending
  inv : s.Inv → u.Inv

/-- What holds of the value of an operation that may be refused. -/
def OnOk (P : α → Prop) : Except ε α → Prop
  | .ok a => P a
  | .error _ => True

/-- What holds of the value of an operation that may answer nothing. -/
def OnSome (P : α → Prop) : Option α → Prop
  | some a => P a
  | none => True

section Results
variable {P : α → Prop} {a : α}

theorem OnOk.mk (h : P a) : OnOk P (.ok a : Except ε α) := h
theorem OnOk.error {e : ε} : OnOk P (.error e : Except ε α) := trivial
theorem OnSome.mk (h : P a) : OnSome P (some a) := h
theorem OnSome.none : OnSome P none := trivial

theorem OnOk.of {x : Except ε α} (h : OnOk P x) (e : x = .ok a) : P a := by
  subst e
  exact h

theorem OnSome.of {x : Option α} (h : OnSome P x) (e : x = some a) : P a := by
  subst e
  exact h

theorem OnOk.ite {x y : Except ε α} {c : Prop} {_ : Decidable c} (hx : OnOk P x) (hy : OnOk P y) : OnOk P (if c then x else y) := by
  split
  · exact hx
  · exact hy

end Results

variable {s₀ s : State}

theorem Keeps.refl (s : State) : Keeps s s := ⟨rfl, id⟩

/-! ### The writes of the tables, and the updates of every other field -/

theorem Keeps.setReg (h : Keeps s₀ s) {k v} : Keeps s₀ (s.setReg k v) :=
  ⟨h.pending, fun i => ⟨Tab.wf_put _ _ _ _ (h.inv i).regs, (h.inv i).mem⟩⟩

theorem Keeps.dropRegs (h : Keeps s₀ s) {p} : Keeps s₀ (s.dropRegs p) :=
  ⟨h.pending, fun i => ⟨Tab.wf_drop _ _ _ (h.inv i).regs, (h.inv i).mem⟩⟩

theorem Keeps.setByte (h : Keeps s₀ s) {a b} : Keeps s₀ (s.setByte a b) :=
  ⟨h.pending, fun i => ⟨(h.inv i).regs, s.wf_setByte _ _ (h.inv i).mem⟩⟩

theorem Keeps.dropMem (h : Keeps s₀ s) {p} : Keeps s₀ (s.dropMem p) :=
  ⟨h.pending, fun i => ⟨(h.inv i).regs, s.wf_dropMem _ (h.inv i).mem⟩⟩

theorem Keeps.update (h : Keeps s₀ s)
    {freeCount out badWords threads tiles ctxs hamper roots log hist notices faultLow stopFrozen vecCount ports coordKnown lasers
      stileAcks xfers nextTid streams launches reassemblies rxWait arrived accepted shardFailed lark rings intakes publishes d3hot
      cfg maxRead maxPayload scaleFail tileFail objs causes fwCores boot bring fresets flash ronbin} :
    Keeps s₀ { s with
      freeCount, out, badWords, threads, tiles, ctxs, hamper, roots, log, hist, notices, faultLow, stopFrozen, vecCount, ports,
      coordKnown, lasers, stileAcks, xfers, nextTid, streams, launches, reassemblies, rxWait, arrived, accepted, shardFailed, lark,
      rings, intakes, publishes, d3hot, cfg, maxRead, maxPayload, scaleFail, tileFail, objs, causes, fwCores, boot, bring, fresets,
      flash, ronbin } :=
  ⟨h.pending, fun i => ⟨(h.inv i).regs, (h.inv i).mem⟩⟩

/-! ### How the model puts operations together -/

section Branches
variable {c : Prop} {_ : Decidable c}

theorem Keeps.ite {a b : State} (ha : Keeps s₀ a) (hb : Keeps s₀ b) : Keeps s₀ (if c then a else b) := by
  split
  · exact ha
  · exact hb

theorem Keeps.iteFst {a b : State × α} (ha : Keeps s₀ a.1) (hb : Keeps s₀ b.1) : Keeps s₀ (if c then a else b).1 := by
  split
  · exact ha
  · exact hb

theorem Keeps.iteSnd {a b : α × State} (ha : Keeps s₀ a.2) (hb : Keeps s₀ b.2) : Keeps s₀ (if c then a else b).2 := by
  split
  · exact ha
  · exact hb

end Branches

theorem Keeps.mkFst {x : α} (h : Keeps s₀ s) : Keeps s₀ (s, x).1 := h
theorem Keeps.mkSnd {x : α} (h : Keeps s₀ s) : Keeps s₀ (x, s).2 := h

theorem Keeps.fst {x : α} {p : State × α} (h : Keeps s₀ p.1) (e : p = (s, x)) : Keeps s₀ s := by
  subst e
  exact h

theorem Keeps.snd {x : α} {p : α × State} (h : Keeps s₀ p.2) (e : p = (x, s)) : Keeps s₀ s := by
  subst e
  exact h

theorem Keeps.forEach {l : List α} {f : State → α → State} (h : Keeps s₀ s) (hf : ∀ {s a}, Keeps s₀ s → Keeps s₀ (f s a)) :
    Keeps s₀ (forEach l f s) := by
  induction l generalizing s with
  | nil => exact h
  | cons a l ih => exact ih (hf h)

theorem Keeps.foldl {l : List α} {f : State → α → State} (h : Keeps s₀ s) (hf : ∀ {s a}, Keeps s₀ s → Keeps s₀ (f s a)) :
    Keeps s₀ (l.foldl f s) := h.forEach hf

theorem Keeps.foldlFst {l : List α} {f : State × β → α → State × β} {p : State × β} (h : Keeps s₀ p.1)
    (hf : ∀ {p a}, Keeps s₀ p.1 → Keeps s₀ (f p a).1) : Keeps s₀ (l.foldl f p).1 := by
  induction l generalizing p with
  | nil => exact h
  | cons a l ih => exact ih (hf h)

end Sys2Proof.Machine
end

section
/-! SUPPORT. The operations of the model keep the waiting commands and the tables, chapter by chapter. -/

namespace Sys2Proof.Machine

variable {s₀ s : State}

/-! ### Ops -/

theorem Keeps.setFld (h : Keeps s₀ s) {f v} : Keeps s₀ (s.setFld f v) := h.setReg
theorem Keeps.setBit (h : Keeps s₀ s) {f b} : Keeps s₀ (s.setBit f b) := h.setFld
theorem Keeps.bump (h : Keeps s₀ s) {f by_} : Keeps s₀ (s.bump f by_) := h.setFld
theorem Keeps.bumpReg (h : Keeps s₀ s) {k by_} : Keeps s₀ (s.bumpReg k by_) := h.setReg

theorem Keeps.setBytes (h : Keeps s₀ s) {n l} : Keeps s₀ (s.setBytes n l) := by
  fun_induction State.setBytes s n l
  case case1 => exact h
  case case2 ih => exact ih h.setByte

theorem Keeps.setMemNat (h : Keeps s₀ s) {n n1 v} : Keeps s₀ (s.setMemNat n n1 v) := h.setBytes
theorem Keeps.setThread (h : Keeps s₀ s) {k v} : Keeps s₀ (s.setThread k v) := h.update
theorem Keeps.setTile (h : Keeps s₀ s) {k v} : Keeps s₀ (s.setTile k v) := h.update
theorem Keeps.setCtx (h : Keeps s₀ s) {k v} : Keeps s₀ (s.setCtx k v) := h.update
theorem Keeps.setLogSlot (h : Keeps s₀ s) {k v} : Keeps s₀ (s.setLogSlot k v) := h.update
theorem Keeps.setObj (h : Keeps s₀ s) {k v} : Keeps s₀ (s.setObj k v) := h.update
theorem Keeps.setPort (h : Keeps s₀ s) {k v} : Keeps s₀ (s.setPort k v) := h.update
theorem Keeps.modPort (h : Keeps s₀ s) {k f} : Keeps s₀ (s.modPort k f) := h.setPort
theorem Keeps.modCtx (h : Keeps s₀ s) {k f} : Keeps s₀ (s.modCtx k f) := h.setCtx
theorem Keeps.setSlice (h : Keeps s₀ s) {t c v} : Keeps s₀ (s.setSlice t c v) := h.update
theorem Keeps.modSlice (h : Keeps s₀ s) {t c f} : Keeps s₀ (s.modSlice t c f) := h.setSlice
theorem Keeps.setRoot (h : Keeps s₀ s) {e v} : Keeps s₀ (s.setRoot e v) := h.update
theorem Keeps.modRoot (h : Keeps s₀ s) {e f} : Keeps s₀ (s.modRoot e f) := h.setRoot
theorem Keeps.modThread (h : Keeps s₀ s) {k f} : Keeps s₀ (s.modThread k f) := h.setThread
theorem Keeps.modTile (h : Keeps s₀ s) {k f} : Keeps s₀ (s.modTile k f) := h.setTile
theorem Keeps.send (h : Keeps s₀ s) {o} : Keeps s₀ (s.send o) := h.update
theorem Keeps.free (h : Keeps s₀ s) : Keeps s₀ s.free.2 := .mkSnd h.update

theorem Keeps.freeList (h : Keeps s₀ s) {n} : Keeps s₀ (s.freeList n).2 := by
  fun_induction State.freeList s n
  case case1 => exact .mkSnd h
  case case2 e _ _ e1 ih => exact .mkSnd (.snd (ih (h.free.snd e)) e1)

theorem Keeps.fire (h : Keeps s₀ s) {v} : Keeps s₀ (s.fire v) := .ite h.send h.setBit
theorem Keeps.firePending (h : Keeps s₀ s) : Keeps s₀ s.firePending := .forEach h fun h => h.setBit.fire
theorem Keeps.toHost (h : Keeps s₀ s) {o} : Keeps s₀ (s.toHost o) := .ite h h.send
theorem Keeps.setRing (h : Keeps s₀ s) {r v} : Keeps s₀ (s.setRing r v) := h.update
theorem Keeps.modRing (h : Keeps s₀ s) {r f} : Keeps s₀ (s.modRing r f) := h.setRing
theorem Keeps.modFwCore (h : Keeps s₀ s) {n f} : Keeps s₀ (s.modFwCore n f) := h.update
theorem Keeps.modBoot (h : Keeps s₀ s) {f} : Keeps s₀ (s.modBoot f) := h.update
theorem Keeps.modBring (h : Keeps s₀ s) {f} : Keeps s₀ (s.modBring f) := h.update
theorem Keeps.modFlash (h : Keeps s₀ s) {f} : Keeps s₀ (s.modFlash f) := h.update
theorem Keeps.modRonbin (h : Keeps s₀ s) {f} : Keeps s₀ (s.modRonbin f) := h.update
theorem Keeps.modSession (h : Keeps s₀ s) {n f} : Keeps s₀ (s.modSession n f) := h.modRonbin
theorem Keeps.inDict (h : Keeps s₀ s) {t : State} (ht : Keeps s₀ t) {k} : Keeps s₀ (s.inDict k t) := .ite ht h

/-! ### Flags -/

theorem Keeps.flagTmo (h : Keeps s₀ s) {t n timedOut} : Keeps s₀ (s.flagTmo t n timedOut) := h.setBit
theorem Keeps.flagNan (h : Keeps s₀ s) {t n found} : Keeps s₀ (s.flagNan t n found) := .ite h.setBit h
theorem Keeps.flagRef (h : Keeps s₀ s) {t n refused} : Keeps s₀ (s.flagRef t n refused) := h.setBit
theorem Keeps.flagUsr (h : Keeps s₀ s) {t n imm2} : Keeps s₀ (s.flagUsr t n imm2) := .ite (.setBit (.ite h.setBit h)) (.ite h.setBit h)

/-! ### Waits -/

theorem Keeps.dropXfer (h : Keeps s₀ s) {tid} : Keeps s₀ (s.dropXfer tid) := h.update
theorem Keeps.queueBlocked (h : Keeps s₀ s) {c obj} : Keeps s₀ (s.queueBlocked c obj) := .forEach h fun h => h.bumpReg

theorem Keeps.queueWaited (h : Keeps s₀ s) {c obj} : Keeps s₀ (s.queueWaited c obj) :=
  .forEach (.forEach h fun h => h.bumpReg) fun h => h.modThread

theorem Keeps.unreserve (h : Keeps s₀ s) {t n} : Keeps s₀ (s.unreserve t n) := .ite h.modTile h
theorem Keeps.dropWatch (h : Keeps s₀ s) {obj k} : Keeps s₀ (s.dropWatch obj k) := h.modTile

theorem Keeps.leaveWait (h : Keeps s₀ s) {t n} : Keeps s₀ (s.leaveWait t n) := by
  fun_cases State.leaveWait s t n with
  | case1 => exact h
  | case2 => exact h.queueWaited.modThread.dropWatch
  | case3 => exact h.queueWaited.modThread.dropXfer
  | case4 => exact h.queueWaited.modThread

/-! ### Done -/

theorem Keeps.mark (h : Keeps s₀ s) {r c} : Keeps s₀ (s.mark r c) := h.setMemNat

theorem Keeps.finishOne (h : Keeps s₀ s) {r c status detail count} : Keeps s₀ (s.finishOne r c status detail count) :=
  .ite h.modRing.mark h.modRing

theorem Keeps.fences (h : Keeps s₀ s) {r n} : Keeps s₀ (s.fences r n) := by
  fun_induction State.fences s r n
  case case1 | case2 | case4 => exact h
  case case3 ih => exact ih h.finishOne

theorem Keeps.finish (h : Keeps s₀ s) {r c status detail count} : Keeps s₀ (s.finish r c status detail count) := h.finishOne.fences
theorem Keeps.settleRing (h : Keeps s₀ s) {r} : Keeps s₀ (s.settleRing r) := .fences (.forEach h fun h => .ite h.finish h)
theorem Keeps.threadStops (h : Keeps s₀ s) {c} : Keeps s₀ (s.threadStops c) := .ite h h.settleRing

/-! ### Log -/

theorem Keeps.retryTile (h : Keeps s₀ s) {t} : Keeps s₀ (s.retryTile t) := .forEach h fun h => .ite h.setFld h

theorem Keeps.stopThread (h : Keeps s₀ s) {t n} : Keeps s₀ (s.stopThread t n) :=
  .ite h (.ite h.leaveWait.unreserve.setThread.setFld.threadStops h.leaveWait.unreserve.setThread.setFld)

theorem Keeps.stopThreads (h : Keeps s₀ s) {c} : Keeps s₀ (s.stopThreads c) := .forEach h fun h => h.stopThread
theorem Keeps.setStep (h : Keeps s₀ s) {c v} : Keeps s₀ (s.setStep c v) := .ite h.setFld h

theorem Keeps.stageWaited (h : Keeps s₀ s) {c} : Keeps s₀ (s.stageWaited c) := by
  fun_cases State.stageWaited s c with
  | case1 => exact h
  | case2 => exact h.setObj.modCtx

theorem Keeps.arriveAbsent (h : Keeps s₀ s) {c} : Keeps s₀ (s.arriveAbsent c) := by
  fun_cases State.arriveAbsent s c with
  | case1 => exact h
  | case2 => exact h.setCtx
  | case3 | case4 => exact h.stageWaited.setCtx.setStep.send
  | case5 => exact h.stageWaited.setCtx

theorem Keeps.haltCtx (h : Keeps s₀ s) {c} : Keeps s₀ (s.haltCtx c) := .ite h.modCtx.stopThreads.arriveAbsent h.modCtx.stopThreads
theorem Keeps.vectorEntry (h : Keeps s₀ s) {v now} : Keeps s₀ (s.vectorEntry v now) := .ite h (.ite h.update.fire h.update)
theorem Keeps.interrupt (h : Keeps s₀ s) {bit_ vector now} : Keeps s₀ (s.interrupt bit_ vector now) := .ite h.setFld h.setFld.vectorEntry
theorem Keeps.notify (h : Keeps s₀ s) {e} : Keeps s₀ (s.notify e) := .ite h (.ite h.setObj.update h.setObj.setObj)
theorem Keeps.countDrop (h : Keeps s₀ s) {sev} : Keeps s₀ (s.countDrop sev) := h.setFld.bump

theorem Keeps.openSlot (h : Keeps s₀ s) {i code sev func unit data flags} : Keeps s₀ (s.openSlot i code sev func unit data flags) :=
  h.setLogSlot.bumpReg.notify

theorem Keeps.logPlace (h : Keeps s₀ s) {code sev func unit data flags} : Keeps s₀ (s.logPlace code sev func unit data flags) := by
  fun_cases State.logPlace s code sev func unit data flags with
  | case1 => exact h.setLogSlot.notify
  | case2 => exact h.setLogSlot
  | case3 => exact h.openSlot
  | case4 | case5 => exact h.countDrop
  | case6 => exact h.countDrop.openSlot

theorem Keeps.raiseFence (h : Keeps s₀ s) : Keeps s₀ s.raiseFence := .ite (.logPlace (.forEach h.setFld fun h => h.haltCtx)) h

theorem Keeps.outcome (h : Keeps s₀ s) {sev ctxs} : Keeps s₀ (s.outcome sev ctxs) := by
  fun_cases State.outcome s sev ctxs with
  | case1 => exact .forEach h fun h => h.modCtx
  | case2 => exact .interrupt (.forEach h fun h => h.haltCtx)
  | case3 => exact .raiseFence (.interrupt (.update (.forEach h fun h => h.haltCtx)))
  | case4 => exact h

theorem Keeps.raise (h : Keeps s₀ s) {code sev func unit data ctxs flags} : Keeps s₀ (s.raise code sev func unit data ctxs flags) :=
  h.logPlace.outcome

/-! ### Link -/

theorem Keeps.setFuncReady (h : Keeps s₀ s) {b v} : Keeps s₀ (s.setFuncReady b v) := .ite h h.setBit.interrupt
theorem Keeps.portsReady (h : Keeps s₀ s) : Keeps s₀ s.portsReady := .setFuncReady (.forEach h fun h => h.setBit)
theorem Keeps.enterPort (h : Keeps s₀ s) {p st} : Keeps s₀ (s.enterPort p st) := h.setFld.portsReady
theorem Keeps.markSeen (h : Keeps s₀ s) {b} : Keeps s₀ (s.markSeen b) := .update (.forEach h fun h => h.modCtx)

theorem Keeps.linkDegraded (h : Keeps s₀ s) {p reason} : Keeps s₀ (s.linkDegraded p reason) :=
  .ite (.ite h.logPlace h) h.modPort.raise.markSeen

theorem Keeps.sendFlit (h : Keeps s₀ s) {p f} : Keeps s₀ (s.sendFlit p f) := by
  fun_cases State.sendFlit s p f with
  | case1 => exact h.send
  | case2 => exact h.setPort.send

theorem Keeps.oweCredit (h : Keeps s₀ s) {p v} : Keeps s₀ (s.oweCredit p v) := h.modPort
theorem Keeps.queueFlit (h : Keeps s₀ s) {p q} : Keeps s₀ (s.queueFlit p q) := h.modPort
theorem Keeps.sendNak (h : Keeps s₀ s) {p} : Keeps s₀ (s.sendNak p) := h.modPort.sendFlit
theorem Keeps.nakOnce (h : Keeps s₀ s) {p} : Keeps s₀ (s.nakOnce p) := .ite h h.sendNak
theorem Keeps.startTraining (h : Keeps s₀ s) {p keep} : Keeps s₀ (s.startTraining p keep) := h.bumpReg.setReg.modPort.setFld.enterPort
theorem Keeps.retrain (h : Keeps s₀ s) {p reason} : Keeps s₀ (s.retrain p reason) := .ite h.startTraining.linkDegraded.modPort.markSeen h
theorem Keeps.refOf (h : Keeps s₀ s) {tag} : Keeps s₀ (s.refOf tag).2 := .mkSnd h.free

theorem Keeps.launch (h : Keeps s₀ s) {dest stream cls alt bodies grants minus} :
    Keeps s₀ (s.launch dest stream cls alt bodies grants minus).1 := by
  fun_cases State.launch s dest stream cls alt bodies grants minus with
  | case1 | case2 => exact .mkFst h
  | case3 => exact .mkFst h.modPort.update

theorem Keeps.answer (h : Keeps s₀ s) {kind tag vc ctx tclass jobTag deadline aux data} :
    Keeps s₀ (s.answer kind tag vc ctx tclass jobTag deadline aux data) := by
  unfold State.answer
  with_reducible exact h.refOf.launch

theorem Keeps.answerTo (h : Keeps s₀ s) {a kind aux data} : Keeps s₀ (s.answerTo a kind aux data) := h.answer
theorem Keeps.answerError (h : Keeps s₀ s) {f} : Keeps s₀ (s.answerError f) := .ite h.answer h

theorem Keeps.portDown (h : Keeps s₀ s) {p reason} : Keeps s₀ (s.portDown p reason) :=
  .linkDegraded (.setFld (.setFld (.enterPort (.setFld (.forEach h.modPort fun h => h.oweCredit)))))

theorem Keeps.takeAck (h : Keeps s₀ s) {p f} : Keeps s₀ (s.takeAck p f) := by
  unfold State.takeAck
  extract_lets _ s1 s2
  have h1 : Keeps s₀ s1 := by
    dsimp only [s1]
    split
    · exact h
    · exact h.setPort
  have h2 : Keeps s₀ s2 := .ite h1 h1.setFld
  exact .ite h2.modPort.enterPort h2

theorem Keeps.crcFail (h : Keeps s₀ s) {p} : Keeps s₀ (s.crcFail p) := h.bumpReg
theorem Keeps.assemble (h : Keeps s₀ s) {p f} : Keeps s₀ (s.assemble p f) := .ite h.oweCredit.update h.oweCredit.update
theorem Keeps.deliver (h : Keeps s₀ s) {p f} : Keeps s₀ (s.deliver p f) := .ite h.update h.assemble
theorem Keeps.retryRx (h : Keeps s₀ s) : Keeps s₀ s.retryRx := .ite h (.forEach h.update fun h => h.deliver)

theorem Keeps.transit (h : Keeps s₀ s) {p f} : Keeps s₀ (s.transit p f) := by
  fun_cases State.transit s p f with
  | case1 => exact h.deliver.retryRx
  | case2 => exact h.oweCredit.answerError
  | case3 => exact h.oweCredit
  | case4 => exact h.queueFlit

theorem Keeps.nameFlit (h : Keeps s₀ s) {p i} : Keeps s₀ (s.nameFlit p i) := by
  fun_cases State.nameFlit s p i with
  | case1 => exact h
  | case2 => exact .retrain (.modPort (.ite h.bumpReg.setPort.bumpReg.linkDegraded h.bumpReg.setPort))
  | case3 => exact .ite h.bumpReg.setPort.bumpReg.linkDegraded h.bumpReg.setPort

/-! ### Operands -/

theorem Keeps.setIx (h : Keeps s₀ s) {t n k v} : Keeps s₀ (s.setIx t n k v) := h.setReg

/-! ### Sync -/

theorem Keeps.noteOverlap (h : Keeps s₀ s) {c} : Keeps s₀ (s.noteOverlap c) := .ite h.setBit h
theorem Keeps.endWait (h : Keeps s₀ s) {t n tmo} : Keeps s₀ (s.endWait t n tmo) := .ite h h.leaveWait.flagTmo.setFld

theorem Keeps.noteHits (h : Keeps s₀ s) {obj} : Keeps s₀ (s.noteHits obj) :=
  .ite (.setTile (.forEach h fun h => h.modThread)) (.forEach h fun h => h.modThread)

theorem Keeps.releaseWaiters (h : Keeps s₀ s) {obj} : Keeps s₀ (s.releaseWaiters obj).1 :=
  .mkFst (.forEach (.forEach (.ite h.noteHits.setTile h.noteHits) fun h => h.endWait) fun h => h.answerTo)

theorem Keeps.layersCold (h : Keeps s₀ s) {c} : Keeps s₀ (s.layersCold c) := .ite h (.forEach h fun h => .ite h h.setByte)

theorem Keeps.applyB (h : Keeps s₀ s) {c key v} : Keeps s₀ (s.applyB c key v) := by
  fun_cases State.applyB s c key v with
  | case1 => exact h.modCtx
  | case2 | case3 => exact h.setFld
  | case4 | case5 => exact h.setObj.setFld
  | case6 => exact h.setObj.layersCold
  | case7 => exact h.setObj

theorem Keeps.boundary (h : Keeps s₀ s) {c} : Keeps s₀ (s.boundary c) := .ite h (.forEach h.modCtx fun h => h.applyB)

theorem Keeps.noteGeneration (h : Keeps s₀ s) {obj} : Keeps s₀ (s.noteGeneration obj) := by
  unfold State.noteGeneration
  exact .forEach h fun h => .forEach (.ite (.modCtx (.ite h.boundary h)) (.ite h.boundary h)) fun h => .ite h.modCtx h

theorem Keeps.signalAll (h : Keeps s₀ s) {n l} : Keeps s₀ (s.signalAll n l) := by
  fun_induction State.signalAll s n l
  case case1 | case2 => exact h
  case case3 e ih => exact ih (h.setReg.releaseWaiters.fst e).noteGeneration

theorem Keeps.syncSet (h : Keeps s₀ s) {obj v} : Keeps s₀ (s.syncSet obj v) := by
  unfold State.syncSet
  with_reducible exact h.setReg.releaseWaiters.noteGeneration.signalAll

theorem Keeps.syncAdd (h : Keeps s₀ s) {obj v} : Keeps s₀ (s.syncAdd obj v) := h.syncSet
theorem Keeps.signalDone (h : Keeps s₀ s) {t w} : Keeps s₀ (s.signalDone t w) := .ite h.syncAdd h
theorem Keeps.finishWait (h : Keeps s₀ s) {t n tmo} : Keeps s₀ (s.finishWait t n tmo) := h.endWait.signalAll

theorem Keeps.combinePayload (h : Keeps s₀ s) {obj red n l} : Keeps s₀ (s.combinePayload obj red n l) := by
  fun_induction State.combinePayload s obj red n l
  case case1 => exact h
  case case2 ih => exact ih (.ite h h.setMemNat)

theorem Keeps.arrive (h : Keeps s₀ s) {obj red words} : Keeps s₀ (s.arrive obj red words) := h.combinePayload.syncAdd
theorem Keeps.arm (h : Keeps s₀ s) {obj red} : Keeps s₀ (s.arm obj red) := .ite h (.forEach h fun h => h.setMemNat)
theorem Keeps.signalObj (h : Keeps s₀ s) {obj opc v} : Keeps s₀ (s.signalObj obj opc v) := .ite h.arm h.syncSet

/-! ### Access -/

theorem Keeps.heal (h : Keeps s₀ s) {k n} : Keeps s₀ (s.heal k n) := .ite h h.update

theorem Keeps.raiseBad (h : Keeps s₀ s) {b patrol} : Keeps s₀ (s.raiseBad b patrol) := by
  fun_cases State.raiseBad s b patrol with
  | case1 => exact h.bumpReg.setFld.setFld.raise
  | case2 => exact h.bumpReg.setFld.setFld.setFld.raise
  | case3 => exact h

theorem Keeps.noteBadRead (h : Keeps s₀ s) {off n} : Keeps s₀ (s.noteBadRead off n) := by
  fun_cases State.noteBadRead s off n with
  | case1 | case3 => exact h
  | case2 => exact h.raiseBad

theorem Keeps.storeCounters (h : Keeps s₀ s) {n n1 l} : Keeps s₀ (s.storeCounters n n1 l) := by
  fun_induction State.storeCounters s n n1 l
  case case1 | case2 => exact h
  case case3 ih => exact ih h.syncSet

theorem Keeps.storeMem (h : Keeps s₀ s) {off l} : Keeps s₀ (s.storeMem off l) := by
  fun_induction State.storeMem s off l
  case case1 => exact h
  case case2 ih => exact ih h.setByte

theorem Keeps.healBytes (h : Keeps s₀ s) {off n} : Keeps s₀ (s.healBytes off n) := .ite h h.update
theorem Keeps.storeHeal (h : Keeps s₀ s) {off bs} : Keeps s₀ (s.storeHeal off bs) := h.storeMem.healBytes

theorem Keeps.storeGuarded (h : Keeps s₀ s) {held off l} : Keeps s₀ (s.storeGuarded held off l) := by
  fun_induction State.storeGuarded s held off l
  case case1 => exact h
  case case2 ih => exact ih (.ite h.setByte (.forEach h fun h => h.setBit))

theorem Keeps.storeData (h : Keeps s₀ s) {off bs} : Keeps s₀ (s.storeData off bs) := .ite h.storeMem h.storeGuarded
theorem Keeps.storeReady (h : Keeps s₀ s) {off bs} : Keeps s₀ (s.storeReady off bs) := .forEach h fun h => h.storeData

theorem Keeps.writeData (h : Keeps s₀ s) {off bs} : Keeps s₀ (s.writeData off bs).1 := by
  fun_cases State.writeData s off bs with
  | case1 => exact .mkFst h.storeReady
  | case2 => exact .mkFst h.storeCounters
  | case3 => exact .mkFst h.storeMem
  | case4 => exact .mkFst h.storeData.healBytes

theorem Keeps.recordSegFault (h : Keeps s₀ s) {c n f} : Keeps s₀ (s.recordSegFault c n f) := .ite h h.modCtx.setReg.setReg
theorem Keeps.recordAccess (h : Keeps s₀ s) {c n} : Keeps s₀ (s.recordAccess c n) := h.recordSegFault

theorem Keeps.threadFault (h : Keeps s₀ s) {t n code op pc sub} : Keeps s₀ (s.threadFault t n code op pc sub) :=
  h.setReg.leaveWait.unreserve.modThread.setFld.threadStops.raise

theorem Keeps.segViolation (h : Keeps s₀ s) {t n op pc n1 f} : Keeps s₀ (s.segViolation t n op pc n1 f) := h.recordSegFault.threadFault

/-! ### Issue -/

theorem Keeps.arriveAt (h : Keeps s₀ s) {t n n1 l} : Keeps s₀ (s.arriveAt t n n1 l) := by
  fun_induction State.arriveAt s t n n1 l
  case case1 | case4 => exact h.modThread.setReg
  case case2 => exact h.setIx.setIx.modThread.setReg
  case case3 ih => exact ih h.setIx.setIx

theorem Keeps.advance (h : Keeps s₀ s) {i} : Keeps s₀ (s.advance i) := h.arriveAt
theorem Keeps.block (h : Keeps s₀ s) {i st} : Keeps s₀ (s.block i st) := h.setFld
theorem Keeps.enqueue (h : Keeps s₀ s) {i e ph} : Keeps s₀ (s.enqueue i e ph) := h.modThread.setFld.advance

theorem Keeps.async (h : Keeps s₀ s) {f : State → State} (hf : ∀ {s}, Keeps s₀ s → Keeps s₀ (f s)) {i e} : Keeps s₀ (s.async i e f) := by
  fun_cases State.async s i e f with
  | case1 => exact h.block
  | case2 => exact hf h

theorem Keeps.syncDone (h : Keeps s₀ s) {i} : Keeps s₀ (s.syncDone i) := h.setFld.advance.signalDone
theorem Keeps.hold (h : Keeps s₀ s) {i} : Keeps s₀ (s.hold i) := h.modThread

theorem Keeps.drained (h : Keeps s₀ s) {f : State → State} (hf : ∀ {s}, Keeps s₀ s → Keeps s₀ (f s)) {i} : Keeps s₀ (s.drained i f) :=
  .ite (hf h) h.hold.block

theorem Keeps.faultAt (h : Keeps s₀ s) {i code sub} : Keeps s₀ (s.faultAt i code sub) := h.threadFault
theorem Keeps.violate (h : Keeps s₀ s) {i n f} : Keeps s₀ (s.violate i n f) := h.segViolation

theorem Keeps.runRow (h : Keeps s₀ s) {s' : State} (hs' : Keeps s₀ s') {run : Iss → State → State}
    (hrun : ∀ {x0 s}, Keeps s₀ s → Keeps s₀ (run x0 s)) {i op sub} : Keeps s₀ (s.runRow s' i op sub run) := by
  fun_cases State.runRow s s' i op sub run with
  | case1 | case3 => exact hs'.faultAt
  | case2 | case4 => exact h
  | case5 => exact hrun hs'

theorem Keeps.goIdle (h : Keeps s₀ s) {t n} : Keeps s₀ (s.goIdle t n) := by
  fun_cases State.goIdle s t n with
  | case1 => exact .signalDone (.ite h.setThread.setFld.threadStops.syncAdd h.setThread.setFld.threadStops)
  | case2 => exact .ite h.setThread.setFld.threadStops.syncAdd h.setThread.setFld.threadStops
  | case3 => exact h.setThread.setFld.threadStops

theorem Keeps.stopsNow (h : Keeps s₀ s) {t n} : Keeps s₀ (s.stopsNow t n) := .ite h (.ite h.setFld.goIdle h.setFld)

theorem Keeps.resume (h : Keeps s₀ s) {run : Iss → State → State} (hrun : ∀ {x0 s}, Keeps s₀ s → Keeps s₀ (run x0 s)) {t n w op sub} :
    Keeps s₀ (s.resume t n w op sub run) :=
  .ite h (.ite h (.ite (hrun h.setThread).stopsNow (hrun h.setThread)))

theorem Keeps.issue (h : Keeps s₀ s) {run : Iss → State → State} (hrun : ∀ {x0 s}, Keeps s₀ s → Keeps s₀ (run x0 s)) {t n w op sub} :
    Keeps s₀ (s.issue t n w op sub run) := by
  fun_cases State.issue s t n w op sub run with
  | case1 => exact .resume h fun h => hrun h
  | case2 | case7 => exact h
  | case3 => exact h.segViolation
  | case4 => exact h.recordAccess.threadFault
  | case5 => exact .runRow h h.modTile fun h => hrun h
  | case6 => exact h.noteBadRead.recordAccess.threadFault

theorem Keeps.afterComplete (h : Keeps s₀ s) {t n before} : Keeps s₀ (s.afterComplete t n before) := .ite h.goIdle (.ite h.setFld h)

theorem Keeps.finishPend (h : Keeps s₀ s) {t n k} : Keeps s₀ (s.finishPend t n k) := by
  fun_cases State.finishPend s t n k with
  | case1 => exact h
  | case2 => exact .retryTile (.afterComplete (.ite h.setThread.signalDone h.setThread))

/-! ### Ports -/

theorem Keeps.noteLinks (h : Keeps s₀ s) : Keeps s₀ s.noteLinks := .ite h.modBring h

theorem Keeps.trainStep (h : Keeps s₀ s) {p whole failed} : Keeps s₀ (s.trainStep p whole failed) := by
  fun_cases State.trainStep s p whole failed with
  | case1 | case9 | case10 => exact h
  | case2 | case5 => exact h.enterPort
  | case3 => exact h.modPort.setFld.modPort
  | case4 => exact h.modPort.setFld.enterPort
  | case6 => exact h.setFld.setFld.enterPort
  | case7 => exact h.setFld.setFld.enterPort.sendFlit
  | case8 => exact h.enterPort.noteLinks

theorem Keeps.trainLimit (h : Keeps s₀ s) {p} : Keeps s₀ (s.trainLimit p) := .ite h.modPort.enterPort h
theorem Keeps.trainBudget (h : Keeps s₀ s) {p} : Keeps s₀ (s.trainBudget p) := .ite h.portDown h
theorem Keeps.armPort (h : Keeps s₀ s) {p} : Keeps s₀ (s.armPort p) := .ite (.ite h.sendFlit.enterPort h.sendFlit.modPort) h

theorem Keeps.linkUp (h : Keeps s₀ s) {p width co port k bufs keep} : Keeps s₀ (s.linkUp p width co port k bufs keep) := by
  unfold State.linkUp
  extract_lets _ _ _ s1 s2 s3 s4 s5 s6 s7
  have h1 : Keeps s₀ s1 := .ite h (.forEach h.modPort fun h => h.setFld)
  have h4 : Keeps s₀ s4 := .ite h1.setReg.modPort h1.setReg.modPort.bumpReg
  have h5 : Keeps s₀ s5 := h4.setFld.enterPort.noteLinks
  have h6 : Keeps s₀ s6 := .ite h5 h5.linkDegraded
  have h7 : Keeps s₀ s7 := .ite h6.raise h6
  exact .ite (.ite h7.armPort h7.setBit) h7

theorem Keeps.handshakeIn (h : Keeps s₀ s) {p x} : Keeps s₀ (s.handshakeIn p x) := by
  fun_cases State.handshakeIn s p x with
  | case1 => exact h.crcFail
  | case2 => exact h
  | case3 => exact h.enterPort.noteLinks
  | case4 | case5 => exact h.portDown
  | case6 | case8 => exact .linkUp (.ite h.takeAck h)
  | case7 => exact .portDown (.ite h.takeAck h)

theorem Keeps.spareTrain (h : Keeps s₀ s) {p} : Keeps s₀ (s.spareTrain p) := .ite h.retrain (.ite h.startTraining h)
theorem Keeps.loseLanes (h : Keeps s₀ s) {p w} : Keeps s₀ (s.loseLanes p w) := h.setFld.setFld

theorem Keeps.laserFails (h : Keeps s₀ s) {u w} : Keeps s₀ (s.laserFails u w) := by
  fun_cases State.laserFails s u w with
  | case1 => exact .forEach h.update fun h => h.spareTrain.setBit.linkDegraded
  | case2 => exact .forEach h.update fun h => .ite h.loseLanes h.loseLanes.portDown
  | case3 => exact h.update

theorem Keeps.lossOfLight (h : Keeps s₀ s) {p pair} : Keeps s₀ (s.lossOfLight p pair) :=
  .ite h (.ite h.modPort.setFld.setFld.linkDegraded.markSeen h.modPort.retrain)

theorem Keeps.portOff (h : Keeps s₀ s) {p} : Keeps s₀ (s.portOff p) :=
  .ite h (.noteLinks (.enterPort (.setFld (.setFld (.forEach h.modPort fun h => h.oweCredit)))))

theorem Keeps.portEnable (h : Keeps s₀ s) {p v} : Keeps s₀ (s.portEnable p v) :=
  .ite (.ite h.setBit.startTraining h.setBit) h.setBit.portOff

theorem Keeps.clearCounters (h : Keeps s₀ s) {p} : Keeps s₀ (s.clearCounters p) := .forEach h fun h => h.setReg

theorem Keeps.reinsertArm (h : Keeps s₀ s) {p v} : Keeps s₀ (s.reinsertArm p v) :=
  .ite h.setBit.armPort (.ite h.setBit.modPort.enterPort h.setBit.modPort)

theorem Keeps.badFlit (h : Keeps s₀ s) {p} : Keeps s₀ (s.badFlit p) := h.crcFail.nakOnce

theorem Keeps.onFlit (h : Keeps s₀ s) {f : State → Flit → State} (hf : ∀ {s x1}, Keeps s₀ s → Keeps s₀ (f s x1)) {p ty x} :
    Keeps s₀ (s.onFlit p ty x f) :=
  .ite h (.ite h.badFlit (.ite h (hf h.takeAck)))

theorem Keeps.linkCtlIn (h : Keeps s₀ s) {p x} : Keeps s₀ (s.linkCtlIn p x) := .ite h.handshakeIn (.onFlit h fun h => h)
theorem Keeps.dataIn (h : Keeps s₀ s) {p f} : Keeps s₀ (s.dataIn p f) := .ite h.modPort.transit (.ite h.nakOnce h)

theorem Keeps.nakIn (h : Keeps s₀ s) {p f} : Keeps s₀ (s.nakIn p f) := by
  fun_cases State.nakIn s p f with
  | case1 => exact h
  | case2 => exact h.nameFlit

theorem Keeps.reservedIn (h : Keeps s₀ s) {p x} : Keeps s₀ (s.reservedIn p x) :=
  .ite h (.ite (.ite h.badFlit h.crcFail) (.ite h (.linkDegraded (.bumpReg (.ite h.takeAck h)))))

theorem Keeps.codewordBad (h : Keeps s₀ s) {p} : Keeps s₀ (s.codewordBad p) :=
  .ite (.nakOnce (.ite h.bumpReg.bumpReg h.bumpReg)) (.ite h.bumpReg.bumpReg h.bumpReg)

theorem Keeps.fecWindow (h : Keeps s₀ s) {p corrected ratio} : Keeps s₀ (s.fecWindow p corrected ratio) :=
  .ite h.bumpReg.linkDegraded h.bumpReg

theorem Keeps.stileRefuse (h : Keeps s₀ s) {reason} : Keeps s₀ (s.stileRefuse reason) := h.setBit.setFld
theorem Keeps.setAxisBit (h : Keeps s₀ s) {f n v} : Keeps s₀ (s.setAxisBit f n v) := h.setBit

theorem Keeps.startClose (h : Keeps s₀ s) {n cause} : Keeps s₀ (s.startClose n cause) :=
  .ite h h.setAxisBit.setAxisBit.setAxisBit.setFld.markSeen

theorem Keeps.closeAll (h : Keeps s₀ s) {cause} : Keeps s₀ (s.closeAll cause) := .forEach h fun h => h.startClose

theorem Keeps.closeAxis (h : Keeps s₀ s) {n cause force} : Keeps s₀ (s.closeAxis n cause force) :=
  .ite h.stileRefuse (.ite h (.ite h.stileRefuse h.startClose))

theorem Keeps.stileClose (h : Keeps s₀ s) {mask cause force} : Keeps s₀ (s.stileClose mask cause force) := .forEach h fun h => h.closeAxis
theorem Keeps.startOpen (h : Keeps s₀ s) {n} : Keeps s₀ (s.startOpen n) := h.update.setAxisBit.setAxisBit.markSeen

theorem Keeps.openAxis (h : Keeps s₀ s) {n} : Keeps s₀ (s.openAxis n) :=
  .ite h.stileRefuse (.ite h (.ite h.stileRefuse (.ite h.startOpen h.setAxisBit)))

theorem Keeps.stileOpen (h : Keeps s₀ s) {mask} : Keeps s₀ (s.stileOpen mask) := .forEach h fun h => h.openAxis

theorem Keeps.stileAck (h : Keeps s₀ s) {mask} : Keeps s₀ (s.stileAck mask) :=
  .forEach h.update fun h => .ite h (.ite h.startOpen h.setAxisBit.stileRefuse)

theorem Keeps.openLapse (h : Keeps s₀ s) {n} : Keeps s₀ (s.openLapse n) := .ite h.setAxisBit.stileRefuse h

theorem Keeps.stileMoved (h : Keeps s₀ s) {n} : Keeps s₀ (s.stileMoved n) := by
  fun_cases State.stileMoved s n
  case case1 => exact h
  case case2 s2 s3 =>
    have h2 : Keeps s₀ s2 := .ite h.setAxisBit.setAxisBit h.setAxisBit.setAxisBit.setFld
    have h3 : Keeps s₀ s3 := .ite h2.raise h2
    exact .forEach h3.markSeen fun h => .ite h h.startTraining

/-! ### Transport -/

theorem Keeps.issueXfer (h : Keeps s₀ s) {a bound grants alt} : Keeps s₀ (s.issueXfer a bound grants alt).1 := by
  unfold State.issueXfer
  with_reducible exact .mkFst (.ite (.iteFst (.mkFst h.update) h.update.launch) (.update (.iteFst (.mkFst h.update) h.update.launch)))

theorem Keeps.issueAll (h : Keeps s₀ s) {l} : Keeps s₀ (s.issueAll l).1 := by
  unfold State.issueAll
  with_reducible exact .foldlFst (.mkFst h) fun h => .mkFst h.issueXfer

theorem Keeps.setXfer (h : Keeps s₀ s) {x} : Keeps s₀ (s.setXfer x) := h.update

theorem Keeps.promiseVoid (h : Keeps s₀ s) {unit other stream c kind flags latePs} :
    Keeps s₀ (s.promiseVoid unit other stream c kind flags latePs) :=
  h.bumpReg.raise

theorem Keeps.judgeArrival (h : Keeps s₀ s) {a} : Keeps s₀ (s.judgeArrival a) := .ite h.promiseVoid h
theorem Keeps.admitRefused (h : Keeps s₀ s) {c dest n reason} : Keeps s₀ (s.admitRefused c dest n reason) := h.bumpReg.raise

/-! ### Move -/

theorem Keeps.failWith (h : Keeps s₀ s) {i a} : Keeps s₀ (s.failWith i a) := by
  fun_cases State.failWith s i a with
  | case1 => exact h.violate
  | case2 => exact h.faultAt
  | case3 => exact h.recordAccess.faultAt
  | case4 => exact h.noteBadRead.recordAccess.faultAt
  | case5 => exact .faultAt (.ite (.setBit (.ite h.setReg h)) (.ite h.setReg h))

theorem Keeps.physWrite (h : Keeps s₀ s) {p bs} : OnOk (Keeps s₀) (s.physWrite p bs) := OnOk.ite (.mk h.writeData) .error

theorem Keeps.shapeRows (h : Keeps s₀ s) {w rows} : Keeps s₀ (s.shapeRows w rows).2 :=
  .iteSnd (.mkSnd h) (.iteSnd (.mkSnd h.free) (.mkSnd h))

theorem Keeps.writeRows (h : Keeps s₀ s) {l l1} : Keeps s₀ (s.writeRows l l1).1 := by
  fun_induction State.writeRows s l l1
  case case1 e ih => exact ih (h.writeData.fst e)
  case case2 e => exact .mkFst (h.writeData.fst e)
  case case3 => exact .mkFst h

theorem Keeps.writePanel (h : Keeps s₀ s) {base w rows} : Keeps s₀ (s.writePanel base w rows).1 := h.writeRows
theorem Keeps.landRows (h : Keeps s₀ s) {w dst rows} : Keeps s₀ (s.landRows w dst rows).1 := .iteFst h.writePanel h.shapeRows.writeRows

theorem Keeps.deliverReady (h : Keeps s₀ s) {dst a} : Keeps s₀ (s.deliverReady dst a) := by
  fun_cases State.deliverReady s dst a with
  | case1 => exact .forEach h fun h => h.writeData
  | case2 | case3 => exact h

theorem Keeps.copyRows (h : Keeps s₀ s) {i l} : Keeps s₀ (s.copyRows i l).1 := by
  fun_induction State.copyRows s i l
  case case1 | case3 => exact .mkFst h
  case case2 => exact .mkFst h.deliverReady
  case case4 e2 ih => exact ih (h.writeData.fst e2)
  case case5 e2 => exact .mkFst (h.writeData.fst e2)

theorem Keeps.writeMasked (h : Keeps s₀ s) {p l l1} : Keeps s₀ (s.writeMasked p l l1) := by
  fun_induction State.writeMasked s p l l1
  case case1 ih => exact ih (.ite h h.writeData)
  case case2 => exact h

theorem Keeps.landReady (h : Keeps s₀ s) {i} : Keeps s₀ (s.landReady i) := by
  fun_cases State.landReady s i with
  | case1 => exact h
  | case2 => exact .forEach h fun h => h.writeMasked

theorem Keeps.moveLocal (h : Keeps s₀ s) {i} : Keeps s₀ (s.moveLocal i).1 := by
  fun_cases State.moveLocal s i
  case case1 => exact h.copyRows
  case case2 => exact .mkFst (.ite h.landReady h)
  case case3 => exact .mkFst h
  case case4 e3 => exact .mkFst (h.landRows.fst e3)

theorem Keeps.copyElems (h : Keeps s₀ s) {i l} : Keeps s₀ (s.copyElems i l).1 := by
  fun_induction State.copyElems s i l
  case case1 | case3 => exact .mkFst h
  case case2 => exact .mkFst h.deliverReady
  case case4 e2 ih => exact ih (h.writeData.fst e2)
  case case5 e2 => exact .mkFst (h.writeData.fst e2)

theorem Keeps.addF32At (h : Keeps s₀ s) {p v} : OnOk (Keeps s₀) (s.addF32At p v) := by
  fun_cases State.addF32At s p v with
  | case1 => exact .error
  | case2 => exact h.physWrite

theorem Keeps.addElems (h : Keeps s₀ s) {i l} : Keeps s₀ (s.addElems i l).1 := by
  fun_induction State.addElems s i l
  case case1 | case2 | case3 | case4 => exact .mkFst h
  case case5 e2 ih => exact ih (h.addF32At.of e2)

theorem Keeps.asksOf (h : Keeps s₀ s) {i dest} : Keeps s₀ (s.asksOf i dest).2 := by
  fun_cases State.asksOf s i dest
  case case1 | case2 | case3 | case4 | case6 | case7 | case8 | case9 | case10 => exact .mkSnd h
  case case5 e1 => exact .mkSnd (h.shapeRows.snd e1)

/-! ### Rings -/

theorem Keeps.errSummary (h : Keeps s₀ s) {b} : Keeps s₀ (s.errSummary b) := h.setFld.interrupt
theorem Keeps.hostReadFails (h : Keeps s₀ s) : Keeps s₀ s.hostReadFails := h.errSummary
theorem Keeps.readHost (h : Keeps s₀ s) {n n1} : Keeps s₀ (s.readHost n n1) := .forEach h fun h => h.toHost
theorem Keeps.writeHost (h : Keeps s₀ s) {n bs} : Keeps s₀ (s.writeHost n bs) := .forEach h fun h => h.toHost
theorem Keeps.statusLine (h : Keeps s₀ s) {r} : Keeps s₀ (s.statusLine r) := .ite h (.ite h.setBit.errSummary h.toHost)
theorem Keeps.takeHead (h : Keeps s₀ s) {r} : Keeps s₀ (s.takeHead r).2 := .mkSnd h.setRing

theorem Keeps.skipBad (h : Keeps s₀ s) {r n} : Keeps s₀ (s.skipBad r n) := by
  fun_induction State.skipBad s r n
  case case1 | case2 | case5 => exact h
  case case3 ih => exact ih h.takeHead.finish
  case case4 ih => exact ih h.takeHead.finish

theorem Keeps.take (h : Keeps s₀ s) {f : State → RingCmd → State} (hf : ∀ {s x1}, Keeps s₀ s → Keeps s₀ (f s x1)) {r op} :
    Keeps s₀ (s.take r op f) :=
  .ite h.skipBad (.ite h.skipBad (hf h.skipBad.takeHead).skipBad)

theorem Keeps.postCompletion (h : Keeps s₀ s) {r} : Keeps s₀ (s.postCompletion r) := by
  fun_cases State.postCompletion s r with
  | case1 | case2 => exact h
  | case3 => exact h.mark.setBytes.modRing.statusLine.interrupt

theorem Keeps.postEvent (h : Keeps s₀ s) {r entry} : Keeps s₀ (s.postEvent r entry) :=
  .ite h.setBytes.setRing.statusLine.interrupt (.ite h.setRing h.setRing.raise)

theorem Keeps.dbCmd (h : Keeps s₀ s) {r v} : Keeps s₀ (s.dbCmd r v) := .ite h.setRing.skipBad h.errSummary
theorem Keeps.dbCq (h : Keeps s₀ s) {r v} : Keeps s₀ (s.dbCq r v) := .ite h.setRing.skipBad h.errSummary
theorem Keeps.dbEq (h : Keeps s₀ s) {r v} : Keeps s₀ (s.dbEq r v) := .ite h.setRing h.errSummary
theorem Keeps.bar2SelWrite (h : Keeps s₀ s) {v} : Keeps s₀ (s.bar2SelWrite v) := .ite h.setFld h
theorem Keeps.holdoff (h : Keeps s₀ s) {v} : Keeps s₀ (s.holdoff v) := .ite h h.update.fire

/-! ### Shards -/

theorem Keeps.setPhysNat (h : Keeps s₀ s) {off n v} : Keeps s₀ (s.setPhysNat off n v) := h.storeHeal
theorem Keeps.setMapBit (h : Keeps s₀ s) {base g v} : Keeps s₀ (s.setMapBit base g v) := h.storeMem
theorem Keeps.clearPresence (h : Keeps s₀ s) {c} : Keeps s₀ (s.clearPresence c) := .forEach h fun h => h.storeHeal
theorem Keeps.markPresent (h : Keeps s₀ s) {c marks} : Keeps s₀ (s.markPresent c marks) := .forEach h fun h => .ite h.setMapBit h

/-! ### Gens -/

theorem Keeps.setGenSlot (h : Keeps s₀ s) {c j v} : Keeps s₀ (s.setGenSlot c j v) := h.setFld

theorem Keeps.freeGenSlot (h : Keeps s₀ s) {c} : Keeps s₀ (s.freeGenSlot c).2 :=
  .iteSnd (.mkSnd h.free) (.iteSnd (.mkSnd h) (.iteSnd (.mkSnd h) (.mkSnd h)))

theorem Keeps.requestSwitch (h : Keeps s₀ s) {c} : OnSome (Keeps s₀) (s.requestSwitch c) := by
  fun_cases State.requestSwitch s c with
  | case1 => exact .none
  | case2 => exact .mk h.setBit.modCtx

theorem Keeps.switched (h : Keeps s₀ s) {c} : Keeps s₀ (s.switched c).1 := by
  fun_cases State.switched s c with
  | case1 _ e => exact .mkFst (h.requestSwitch.of e)
  | case2 => exact .mkFst h

theorem Keeps.genFilled (h : Keeps s₀ s) {c j gen switch} : Keeps s₀ (s.genFilled c j gen switch).1 :=
  .iteFst h.setGenSlot.setReg.switched (.mkFst h.setGenSlot.setReg)

theorem Keeps.makeCurrent (h : Keeps s₀ s) {c j} : Keeps s₀ (s.makeCurrent c j) := h.setGenSlot.setFld.syncSet
theorem Keeps.genSwitch (h : Keeps s₀ s) {c} : Keeps s₀ (s.genSwitch c) := .ite h (.setBit (.makeCurrent (.modCtx (.ite h.setGenSlot h))))

theorem Keeps.genDrained (h : Keeps s₀ s) {c} : Keeps s₀ (s.genDrained c) := by
  fun_cases State.genDrained s c with
  | case1 | case3 => exact h
  | case2 => exact h.modCtx.setGenSlot

theorem Keeps.dropPublish (h : Keeps s₀ s) {x} : Keeps s₀ (s.dropPublish x) := h.update
theorem Keeps.putPublish (h : Keeps s₀ s) {x} : Keeps s₀ (s.putPublish x) := h.update

theorem Keeps.publishEnds (h : Keeps s₀ s) {x status detail} : Keeps s₀ (s.publishEnds x status detail) := by
  unfold State.publishEnds
  split
  · exact h.dropPublish.setGenSlot.finish
  · exact h.dropPublish.finish

theorem Keeps.publishOver (h : Keeps s₀ s) {x} : Keeps s₀ (s.publishOver x) := by
  unfold State.publishOver
  extract_lets s1
  split
  · exact h
  · refine .finish ?_
    split
    · exact h.dropPublish.genFilled
    · exact .mkFst h.dropPublish

theorem Keeps.publishSend (h : Keeps s₀ s) {x} : Keeps s₀ (s.publishSend x) := by
  fun_cases State.publishSend s x
  case case1 => exact h
  case case2 e =>
    refine .publishOver (.putPublish (.fst (.foldlFst (.mkFst h) fun h => ?_) e))
    dsimp only
    split
    · exact .mkFst h
    · split
      · exact .mkFst h.admitRefused
      · exact .mkFst h.modPort.issueXfer

theorem Keeps.stageOne (h : Keeps s₀ s) {x} : Keeps s₀ (s.stageOne x) := by
  unfold State.stageOne
  split
  · exact h.putPublish.publishSend
  · split
    · exact h.noteBadRead.publishEnds
    · extract_lets _
      split
      next u _ e =>
      have hu : Keeps s₀ u := by
        refine .fst ?_ e
        split
        · exact .mkFst h.writeData
        · exact .mkFst h
        · exact .mkFst h
      exact .ite hu.putPublish.publishSend hu.putPublish

theorem Keeps.publishStage (h : Keeps s₀ s) {c} : Keeps s₀ (s.publishStage c) := h.update
theorem Keeps.stageTick (h : Keeps s₀ s) : Keeps s₀ s.stageTick := .forEach h fun h => h.stageOne
theorem Keeps.publishRetry (h : Keeps s₀ s) : Keeps s₀ s.publishRetry := .forEach h fun h => h.publishSend

theorem Keeps.published (h : Keeps s₀ s) {set count tid len} : Keeps s₀ (s.published set count tid len) := by
  fun_cases State.published s set count tid len with
  | case1 => exact h
  | case2 => exact h.putPublish.publishOver

theorem Keeps.publishFails (h : Keeps s₀ s) {set count _tid} : Keeps s₀ (s.publishFails set count _tid) := by
  fun_cases State.publishFails s set count _tid
  case case1 => exact h
  case case2 e1 => exact (h.free.snd e1).publishEnds

theorem Keeps.publish (h : Keeps s₀ s) {r cmd table} : Keeps s₀ (s.publish r cmd table) := by
  fun_cases State.publish s r cmd table
  case case1 | case2 => exact h.finish
  case case3 => exact h.update
  case case4 e => exact (h.freeGenSlot.snd e).finish
  case case5 e _ => exact (h.freeGenSlot.snd e).setGenSlot.update

theorem Keeps.genReset (h : Keeps s₀ s) {c} : Keeps s₀ (s.genReset c) := .dropRegs (.modCtx (.forEach h fun h => h.publishEnds))

/-! ### Hamper -/

theorem Keeps.noteHighWater (h : Keeps s₀ s) {t c} : Keeps s₀ (s.noteHighWater t c) := h.setFld

theorem Keeps.choose (h : Keeps s₀ s) {n l} : Keeps s₀ (s.choose n l).2 := by
  fun_induction State.choose s n l
  case case1 | case2 => exact .mkSnd h
  case case3 e _ _ _ e1 ih => exact .mkSnd (.snd (ih (h.free.snd e)) e1)

theorem Keeps.fillGranules (h : Keeps s₀ s) {t c e bytes} : Keeps s₀ (s.fillGranules t c e bytes) := by
  unfold State.fillGranules
  refine .forEach h fun h => ?_
  split
  · exact h.storeHeal
  · exact h

theorem Keeps.pushNow (h : Keeps s₀ s) {i seq src} : Keeps s₀ (s.pushNow i seq src).1 := by
  fun_cases State.pushNow s i seq src
  case case1 => exact .mkFst h.noteBadRead
  case case2 e1 _ _ => exact .mkFst (h.choose.snd e1).modSlice.fillGranules.noteHighWater

theorem Keeps.pushReach (h : Keeps s₀ s) {i seq retry} : Keeps s₀ (s.pushReach i seq retry).1 := by
  fun_cases State.pushReach s i seq retry with
  | case1 | case2 => exact .mkFst h
  | case3 => exact .pushNow (.ite h h.modSlice)
  | case4 | case5 => exact .mkFst (.ite h h.modSlice)

theorem Keeps.noteGranule (h : Keeps s₀ s) {t c e j a} : Keeps s₀ (s.noteGranule t c e j a) := by
  fun_cases State.noteGranule s t c e j a with
  | case1 | case2 => exact h.noteBadRead

theorem Keeps.popNow (h : Keeps s₀ s) {i e dst} : Keeps s₀ (s.popNow i e dst).1 := by
  fun_cases State.popNow s i e dst
  case case1 => exact .mkFst h.modSlice.noteGranule
  case case2 => exact .mkFst h.modSlice
  case case3 e2 => exact .mkFst (h.modSlice.physWrite.of e2)

theorem Keeps.popReach (h : Keeps s₀ s) {i} : Keeps s₀ (s.popReach i).1 := by
  fun_cases State.popReach s i with
  | case1 | case2 => exact .mkFst h
  | case3 => exact h.modSlice.popNow
  | case4 => exact .mkFst h.modSlice

theorem Keeps.popStream (h : Keeps s₀ s) {i} : Keeps s₀ (s.popStream i).1 := by
  fun_cases State.popStream s i with
  | case1 | case2 => exact .mkFst h
  | case3 => exact h.popNow

theorem Keeps.spillFirst (h : Keeps s₀ s) {t c slot l} : Keeps s₀ (s.spillFirst t c slot l) := by
  fun_induction State.spillFirst s t c slot l
  case case1 => exact h
  case case2 ih => exact ih h.noteBadRead
  case case3 e2 => exact (h.writeData.fst e2).modSlice.bumpReg.raise
  case case4 e2 => exact (h.writeData.fst e2).modSlice.bumpReg
  case case5 ih => exact ih h

theorem Keeps.spillGranule (h : Keeps s₀ s) {t c} : Keeps s₀ (s.spillGranule t c) := by
  fun_cases State.spillGranule s t c
  case case1 e => exact h.choose.snd e
  case case2 e => exact (h.choose.snd e).spillFirst

theorem Keeps.prefetch (h : Keeps s₀ s) {t c} : Keeps s₀ (s.prefetch t c) := by
  unfold State.prefetch
  split
  · exact h
  · extract_lets free
    split
    · exact h
    · split
      next e1 =>
      split
      next e2 =>
      have h2 := (h.choose.snd e1).choose.snd e2
      split
      · split
        · exact h2.noteGranule
        · exact h2.storeHeal.modSlice.noteHighWater
      · exact h2

theorem Keeps.emptySlices (h : Keeps s₀ s) {p} : Keeps s₀ (s.emptySlices p) := .forEach h fun h => h.modSlice
theorem Keeps.hamperDiscard (h : Keeps s₀ s) {c} : Keeps s₀ (s.hamperDiscard c) := h.emptySlices.bumpReg.setBit

/-! ### Dma -/

theorem Keeps.fillLocal (h : Keeps s₀ s) {i} : Keeps s₀ (s.fillLocal i).1 := by
  fun_cases State.fillLocal s i
  case case1 => exact .mkFst h
  case case2 e1 => exact .mkFst (h.writeData.fst e1)

theorem Keeps.withList (h : Keeps s₀ s) {f : State → List (ℕ × ℕ) → State × Option Why} (hf : ∀ {s x1}, Keeps s₀ s → Keeps s₀ (f s x1).1)
    {i} : Keeps s₀ (s.withList i f).1 := by
  fun_cases State.withList s i f with
  | case1 => exact .mkFst h
  | case2 => exact hf h

theorem Keeps.gatherLocal (h : Keeps s₀ s) {i} : Keeps s₀ (s.gatherLocal i).1 := .withList h fun h => h.copyElems
theorem Keeps.scatterLocal (h : Keeps s₀ s) {i} : Keeps s₀ (s.scatterLocal i).1 := .withList h fun h => h.copyElems
theorem Keeps.scatterAddLocal (h : Keeps s₀ s) {i} : Keeps s₀ (s.scatterAddLocal i).1 := .withList h fun h => h.addElems

theorem Keeps.dmaHere (h : Keeps s₀ s) {i} : Keeps s₀ (s.dmaHere i).1 := by
  fun_cases State.dmaHere s i with
  | case1 => exact h.fillLocal
  | case2 => exact h.gatherLocal
  | case3 => exact h.scatterLocal
  | case4 => exact h.scatterAddLocal
  | case5 => exact h.moveLocal

theorem Keeps.hamperPhase {p : State × Except Why Bool} (h : Keeps s₀ p.1) : Keeps s₀ (hamperPhase p).1 := by
  obtain ⟨u, e | b⟩ := p
  · exact h
  · exact h

theorem Keeps.dmaReach (h : Keeps s₀ s) {i seq} : Keeps s₀ (s.dmaReach i seq).1 := by
  fun_cases State.dmaReach s i seq
  case case1 => exact .hamperPhase h.pushReach
  case case2 => exact .hamperPhase h.popReach
  case case3 | case4 | case5 => exact .mkFst h
  case case6 u e hu =>
    have hu : Keeps s₀ u := h.asksOf.snd hu
    exact .mkFst (.ite hu.issueAll hu)
  case case7 u asks dst v tids hv hu => exact .mkFst ((h.asksOf.snd hu).issueAll.fst hv)
  case case8 u e hu _ => exact .mkFst (h.dmaHere.fst hu)
  case case9 u hu _ => exact .mkFst (h.dmaHere.fst hu)

theorem Keeps.setPend (h : Keeps s₀ s) {key k p} : Keeps s₀ (s.setPend key k p) := h.modThread
theorem Keeps.pendFails (h : Keeps s₀ s) {key k p e} : Keeps s₀ (s.pendFails key k p e) := h.modThread.failWith

theorem Keeps.dmaTake (h : Keeps s₀ s) {key n} : Keeps s₀ (s.dmaTake key n) := by
  fun_induction State.dmaTake s key n
  case case1 | case2 | case3 | case4 => exact h
  case case5 e3 => exact (h.dmaReach.fst e3).pendFails
  case case6 e2 ih => exact ih (h.dmaReach.fst e2).setPend

theorem Keeps.noteLast (h : Keeps s₀ s) {k dst seq} : Keeps s₀ (s.noteLast k dst seq) := h.modThread
theorem Keeps.takeSeq (h : Keeps s₀ s) {i} : Keeps s₀ (s.takeSeq i).2 := .iteSnd (.mkSnd h.modSlice) (.mkSnd h)

theorem Keeps.runDma (h : Keeps s₀ s) {i fault} : Keeps s₀ (s.runDma i fault) := by
  unfold State.runDma
  refine .async h fun h => ?_
  split
  · exact h.faultAt
  · split
    · next e =>
      split
      · exact (h.takeSeq.snd e).enqueue.noteLast
      · split
        · next e2 => exact ((h.takeSeq.snd e).dmaReach.fst e2).failWith
        · next e1 => exact ((h.takeSeq.snd e).dmaReach.fst e1).enqueue.noteLast

theorem Keeps.runMove (h : Keeps s₀ s) {i} : Keeps s₀ (s.runMove i) := h.runDma
theorem Keeps.runPanel (h : Keeps s₀ s) {i} : Keeps s₀ (s.runPanel i) := h.runDma

theorem Keeps.hamperAnswer (h : Keeps s₀ s) {key k p r} : Keeps s₀ (s.hamperAnswer key k p r) := by
  fun_cases State.hamperAnswer s key k p r with
  | case1 => exact h.pendFails
  | case2 => exact h.setPend.dmaTake
  | case3 => exact h

theorem Keeps.pushAgain (h : Keeps s₀ s) {t c n} : Keeps s₀ (s.pushAgain t c n) := by
  fun_induction State.pushAgain s t c n
  case case1 | case2 => exact h
  case case3 e1 ih => exact ih (h.pushReach.fst e1).hamperAnswer

theorem Keeps.hamperFreed {u : State} (h : Keeps s₀ u) {s t c} : Keeps s₀ (State.hamperFreed s u t c) := .ite h h.pushAgain
theorem Keeps.dmaNext (h : Keeps s₀ s) {key fuel} : Keeps s₀ (s.dmaNext key fuel) := h.dmaTake.hamperFreed
theorem Keeps.dmaWake (h : Keeps s₀ s) : Keeps s₀ s.dmaWake := .forEach h fun h => h.dmaNext
theorem Keeps.runPop (h : Keeps s₀ s) {i} : Keeps s₀ (s.runPop i) := h.runDma.hamperFreed
theorem Keeps.hamperSpill (h : Keeps s₀ s) {t c} : Keeps s₀ (s.hamperSpill t c) := .ite h.pushAgain h.pushAgain.spillGranule.pushAgain

theorem Keeps.popArrives (h : Keeps s₀ s) {t n} : Keeps s₀ (s.popArrives t n) := by
  fun_cases State.popArrives s t n
  case case1 => exact h
  case case2 e1 => exact (h.popStream.fst e1).hamperAnswer.pushAgain

theorem Keeps.hamperCfgWrite (h : Keeps s₀ s) {c v} : Keeps s₀ (s.hamperCfgWrite c v) :=
  .ite (.setBit (.ite h.setBit h)) (.setReg (.ite h.setBit h))

theorem Keeps.hamperSpillBaseWrite (h : Keeps s₀ s) {c v} : Keeps s₀ (s.hamperSpillBaseWrite c v) := .ite h.setReg h.setReg.setBit
theorem Keeps.discard (h : Keeps s₀ s) {c} : Keeps s₀ (s.discard c) := .forEach h.hamperDiscard fun h => h.pushAgain

theorem Keeps.issueGranted (h : Keeps s₀ s) {bound l l1 l2} : Keeps s₀ (s.issueGranted bound l l1 l2).1 := by
  fun_induction State.issueGranted s bound l l1 l2
  case case1 => exact .mkFst h
  case case2 e ih => exact ih (h.issueXfer.fst e)

theorem Keeps.admitPend (h : Keeps s₀ s) {t n k p} : Keeps s₀ (s.admitPend t n k p) := by
  fun_cases State.admitPend s t n k p
  case case1 e2 => exact (h.asksOf.snd e2).pendFails
  case case2 e1 e2 =>
    exact .setPend (.admitRefused (.flagRef (.snd (.iteSnd (.mkSnd (h.asksOf.snd e1).free) (.mkSnd (h.asksOf.snd e1))) e2)))
  case case3 s3 _ _ e1 e2 e3 =>
    have h3 : Keeps s₀ s3 := .modPort (.snd (.iteSnd (.mkSnd (h.asksOf.snd e2).free) (.mkSnd (h.asksOf.snd e2))) e3)
    exact (h3.issueGranted.fst e1).flagRef.setPend
  case case4 => exact h.setPend

theorem Keeps.admission (h : Keeps s₀ s) {t n} : Keeps s₀ (s.admission t n) := by
  fun_cases State.admission s t n with
  | case1 | case3 | case4 => exact h
  | case2 => exact h.admitPend.dmaNext

theorem Keeps.admitAgain (h : Keeps s₀ s) {c} : Keeps s₀ (s.admitAgain c) :=
  .ite h (.publishRetry (.forEach h.setBit.modCtx fun h => .forEach h fun h => h.admission))

/-! ### Flow -/

theorem Keeps.withObject (h : Keeps s₀ s) {f : State → State} (hf : ∀ {s}, Keeps s₀ s → Keeps s₀ (f s)) {i p} :
    Keeps s₀ (s.withObject i p f) :=
  .ite (hf h) h.recordAccess.faultAt

theorem Keeps.onObject (h : Keeps s₀ s) {here : State → ℕ → State} (hhere : ∀ {s x1}, Keeps s₀ s → Keeps s₀ (here s x1)) {i away} :
    Keeps s₀ (s.onObject i here away) := by
  fun_cases State.onObject s i here away
  case case1 => exact h.faultAt
  case case2 | case3 => exact h.violate
  case case4 => exact .withObject h fun h => hhere h
  case case5 e1 => exact (h.issueXfer.fst e1).hold.modThread

theorem Keeps.runSignal (h : Keeps s₀ s) {i} : Keeps s₀ (s.runSignal i) :=
  .drained h fun h => .ite h.faultAt (.onObject h fun h => h.signalObj.syncDone)

theorem Keeps.blockWait (h : Keeps s₀ s) {i wt} : Keeps s₀ (s.blockWait i wt) := h.advance.modThread.setFld

theorem Keeps.askWatch (h : Keeps s₀ s) {key wt} : Keeps s₀ (s.askWatch key wt).1 :=
  .iteFst (.mkFst h) (.iteFst (.mkFst h.setTile) (.mkFst h))

theorem Keeps.waitHere (h : Keeps s₀ s) {i p v} : Keeps s₀ (s.waitHere i p v) := .ite h.flagTmo.syncDone h.askWatch.blockWait.queueBlocked

theorem Keeps.waitAway (h : Keeps s₀ s) {i dest v} : Keeps s₀ (s.waitAway i dest v) := by
  unfold State.waitAway
  with_reducible exact h.issueXfer.blockWait

theorem Keeps.runWait (h : Keeps s₀ s) {i} : Keeps s₀ (s.runWait i) := by
  fun_cases State.runWait s i with
  | case1 | case2 => exact h.faultAt
  | case3 | case4 => exact h.violate
  | case5 => exact .withObject h fun h => h.waitHere
  | case6 => exact h.waitAway

theorem Keeps.waitTimeout (h : Keeps s₀ s) {t n} : Keeps s₀ (s.waitTimeout t n) := by
  fun_cases State.waitTimeout s t n with
  | case1 | case2 => exact h
  | case3 => exact h.finishWait

theorem Keeps.watchRetry (h : Keeps s₀ s) {t n} : Keeps s₀ (s.watchRetry t n) := by
  fun_cases State.watchRetry s t n
  case case1 | case2 => exact h
  case case3 e2 => exact (h.issueXfer.fst e2).modThread
  case case4 => exact h.recordAccess.threadFault
  case case5 => exact h.finishWait
  case case6 e1 _ => exact (h.askWatch.fst e1).modThread

theorem Keeps.runArrive (h : Keeps s₀ s) {i} : Keeps s₀ (s.runArrive i) := by
  unfold State.runArrive
  refine .drained h fun h => ?_
  split
  · exact h.faultAt
  · split
    · exact h.failWith
    · exact .onObject h fun h => h.arrive.syncDone

theorem Keeps.goTo (h : Keeps s₀ s) {i n} : Keeps s₀ (s.goTo i n) := h.setFld.setReg.signalDone
theorem Keeps.goBehind (h : Keeps s₀ s) {i n l} : Keeps s₀ (s.goBehind i n l) := h.setFld.arriveAt.signalDone
theorem Keeps.jump (h : Keeps s₀ s) {i} : Keeps s₀ (s.jump i) := h.modThread.goTo
theorem Keeps.branchOn (h : Keeps s₀ s) {i taken} : Keeps s₀ (s.branchOn i taken) := .ite h.jump h.syncDone

theorem Keeps.runBranch (h : Keeps s₀ s) {i} : Keeps s₀ (s.runBranch i) := by
  fun_cases State.runBranch s i with
  | case1 => exact h.faultAt
  | case2 => exact .onObject h fun h => h.branchOn
  | case3 | case4 | case5 | case6 => exact h.branchOn

theorem Keeps.runLoop (h : Keeps s₀ s) {i} : Keeps s₀ (s.runLoop i) := .ite h.faultAt (.ite h.faultAt (.ite h.goBehind h.modThread.goTo))
theorem Keeps.runCall (h : Keeps s₀ s) {i} : Keeps s₀ (s.runCall i) := .ite h.faultAt h.setThread.goTo

theorem Keeps.runReturn (h : Keeps s₀ s) {i} : Keeps s₀ (s.runReturn i) := by
  fun_cases State.runReturn s i with
  | case1 => exact h.faultAt
  | case2 => exact h.setThread.goBehind

theorem Keeps.runHalt (h : Keeps s₀ s) {i} : Keeps s₀ (s.runHalt i) :=
  .ite h.advance.hold.modThread.setFld.goIdle h.advance.hold.modThread.setFld

theorem Keeps.runIxLoad (h : Keeps s₀ s) {i} : Keeps s₀ (s.runIxLoad i) := by
  fun_cases State.runIxLoad s i with
  | case1 => exact h.failWith
  | case2 => exact h.setIx.syncDone

theorem Keeps.traceOut (h : Keeps s₀ s) {i} : Keeps s₀ (s.traceOut i) := .ite h.send h

/-! ### Roots -/

theorem Keeps.setLayerState (h : Keeps s₀ s) {c l v} : Keeps s₀ (s.setLayerState c l v) := h.setPhysNat
theorem Keeps.setLayerAge (h : Keeps s₀ s) {c l v} : Keeps s₀ (s.setLayerAge c l v) := h.setPhysNat
theorem Keeps.setLayerSel (h : Keeps s₀ s) {c l v} : Keeps s₀ (s.setLayerSel c l v) := h.setPhysNat
theorem Keeps.setLayerUse (h : Keeps s₀ s) {c l v} : Keeps s₀ (s.setLayerUse c l v) := h.setPhysNat
theorem Keeps.setLayerHash (h : Keeps s₀ s) {c l v} : Keeps s₀ (s.setLayerHash c l v) := h.setPhysNat

theorem Keeps.rootStale (h : Keeps s₀ s) {c layer warning reason block age} : Keeps s₀ (s.rootStale c layer warning reason block age) :=
  h.raise

theorem Keeps.rootFault (h : Keeps s₀ s) {e code ctx record} : Keeps s₀ (s.rootFault e code ctx record) := h.setFld.setFld.setFld.raise
theorem Keeps.rootShow (h : Keeps s₀ s) {e} : Keeps s₀ (s.rootShow e) := h.setFld

theorem Keeps.rootFeed (h : Keeps s₀ s) {e n} : Keeps s₀ (s.rootFeed e n) := by
  fun_induction State.rootFeed s e n
  case case1 | case2 | case3 => exact h
  case case4 ih => exact ih h.modRoot.storeHeal.setFld

theorem Keeps.rootsFeed (h : Keeps s₀ s) : Keeps s₀ s.rootsFeed := .forEach h fun h => h.rootFeed
theorem Keeps.rootReady (h : Keeps s₀ s) {e} : Keeps s₀ (s.rootReady e) := .ite h.setBit.modRoot.rootFeed h
theorem Keeps.rootEnqueue (h : Keeps s₀ s) {e x} : Keeps s₀ (s.rootEnqueue e x) := h.modRoot.rootFeed
theorem Keeps.rootEnable (h : Keeps s₀ s) {e v} : Keeps s₀ (s.rootEnable e v) := .ite h.setBit.rootShow h.setBit
theorem Keeps.rootDrain (h : Keeps s₀ s) {e} : Keeps s₀ (s.rootDrain e) := .ite h.rootEnable h.modRoot

theorem Keeps.rootAbandon (h : Keeps s₀ s) {e c} : Keeps s₀ (s.rootAbandon e c) := by
  fun_cases State.rootAbandon s e c with
  | case1 => exact .rootShow (.ite h.setFld.setRoot.setReg h.setFld.setRoot)
  | case2 => exact .ite h.setFld.setRoot.setReg h.setFld.setRoot

theorem Keeps.rootReadFails (h : Keeps s₀ s) {e c r a} : Keeps s₀ (s.rootReadFails e c r a) := h.noteBadRead.rootFault

theorem Keeps.rootTake (h : Keeps s₀ s) {e n} : Keeps s₀ (s.rootTake e n).2 := by
  fun_induction State.rootTake s e n
  case case1 | case2 => exact .mkSnd h
  case case3 ih => exact ih h.setFld.modRoot
  case case4 => exact .mkSnd h.setFld

theorem Keeps.rootBegin (h : Keeps s₀ s) {e b} : Keeps s₀ (s.rootBegin e b) := h.modRoot.rootShow.setFld.setFld.setReg.setReg
theorem Keeps.scratchResult (h : Keeps s₀ s) {e b r} : Keeps s₀ (s.scratchResult e b r) := h.freeList.storeHeal.storeHeal

theorem Keeps.rootCopyIn (h : Keeps s₀ s) {e x} : Keeps s₀ (s.rootCopyIn e x) := by
  unfold State.rootCopyIn
  dsimp only
  split
  · exact h.modRoot.rootReadFails
  · exact h.modRoot.rootFault
  · split
    · exact h.modRoot.rootReadFails
    · split
      · exact h.modRoot.rootFault
      · split
        · exact h.modRoot.rootReadFails
        · split
          · exact h.modRoot.storeHeal.rootBegin
          · split
            · exact h.modRoot.storeHeal.rootReadFails
            · split
              · exact h.modRoot.storeHeal.storeHeal.rootBegin
              · exact h.modRoot.storeHeal.storeHeal.raise.rootBegin

theorem Keeps.rootStart (h : Keeps s₀ s) {e} : Keeps s₀ (s.rootStart e) := by
  fun_cases State.rootStart s e
  case case1 => exact h
  case case2 e1 => exact h.rootFeed.rootTake.snd e1
  case case3 e1 _ => exact (h.rootFeed.rootTake.snd e1).rootReadFails
  case case4 e1 _ _ => exact (h.rootFeed.rootTake.snd e1).rootCopyIn.rootFeed

theorem Keeps.rootCompute (h : Keeps s₀ s) {e} : Keeps s₀ (s.rootCompute e) := by
  fun_cases State.rootCompute s e with
  | case1 | case2 => exact h
  | case3 => exact h.modRoot.scratchResult.rootShow.setFld.setFld.dmaWake

theorem Keeps.rootWrite (h : Keeps s₀ s) {e ctx coord off data} : OnOk (fun p => Keeps s₀ p.1) (s.rootWrite e ctx coord off data) := by
  fun_cases State.rootWrite s e ctx coord off data
  case case1 | case3 => exact .error
  case case2 e2 => exact .mk (.mkFst (h.physWrite.of e2))
  case case4 e1 => exact .mk (.mkFst (h.issueXfer.fst e1))

theorem Keeps.rootWrites (h : Keeps s₀ s) {e ctx l l1} : OnOk (fun p => Keeps s₀ p.1) (s.rootWrites e ctx l l1) := by
  fun_induction State.rootWrites s e ctx l l1
  case case1 => exact .mk (.mkFst h)
  case case2 => exact .error
  case case3 e1 ih => exact ih (h.rootWrite.of e1)

theorem Keeps.rootWriteOut (h : Keeps s₀ s) {e} : Keeps s₀ (s.rootWriteOut e) := by
  unfold State.rootWriteOut
  split
  · exact h
  · split
    · exact h
    · split
      · exact h
      · extract_lets _
        split
        next u hu =>
        have hu : Keeps s₀ u := .snd (.iteSnd (.mkSnd h) (.mkSnd h.free)) hu
        extract_lets _ _
        split
        · exact hu.rootFault
        · next v _ hv =>
          have hv : Keeps s₀ v := (hu.rootWrites).of hv
          extract_lets s1 s2 s3
          have h3 : Keeps s₀ s3 := .ite hv.modRoot.rootShow.rootStale hv.modRoot.rootShow
          exact .ite h3 h3.raise

theorem Keeps.rootSettle (h : Keeps s₀ s) {e} : Keeps s₀ (s.rootSettle e) :=
  .ite h (.ite h.rootShow (.rootShow (.setReg (.ite h.modRoot.setBit h))))

theorem Keeps.rootAcked (h : Keeps s₀ s) {e tid} : Keeps s₀ (s.rootAcked e tid) := .ite h.modRoot.rootSettle h.modRoot

theorem Keeps.rootWriteFails (h : Keeps s₀ s) {e tid} : Keeps s₀ (s.rootWriteFails e tid) := by
  fun_cases State.rootWriteFails s e tid with
  | case1 => exact h
  | case2 => exact h.rootAcked
  | case3 => exact h.modRoot.rootFault

theorem Keeps.rootComplete (h : Keeps s₀ s) {e} : Keeps s₀ (s.rootComplete e) := by
  fun_cases State.rootComplete s e
  case case1 | case2 => exact h
  case case3 s3 =>
    have h3 : Keeps s₀ s3 := by
      dsimp only [s3]
      split
      · exact .ite h.modRoot.setReg.syncAdd h.modRoot.setReg
      · exact h.modRoot.setReg
    exact h3.rootSettle

theorem Keeps.rootless (h : Keeps s₀ s) {c} : Keeps s₀ (s.rootless c) := .forEach h fun h => h.setLayerUse

theorem Keeps.refreshLayer (h : Keeps s₀ s) {c l} : Keeps s₀ (s.refreshLayer c l) :=
  .forEach (.setLayerState (.ite h.modCtx h)) fun h => h.rootEnqueue

theorem Keeps.refresh (h : Keeps s₀ s) {c key} : Keeps s₀ (s.refresh c key) := .ite h (.forEach h.modCtx fun h => h.refreshLayer)

/-! ### Arrive -/

theorem Keeps.takeArrived (h : Keeps s₀ s) {k kinds} : OnSome (fun p => Keeps s₀ p.2) (s.takeArrived k kinds) := by
  fun_cases State.takeArrived s k kinds with
  | case1 | case3 => exact .none
  | case2 => exact .mk (.mkSnd h.update)

theorem Keeps.onArrived (h : Keeps s₀ s) {f : State → Arrived → State} (hf : ∀ {s x1}, Keeps s₀ s → Keeps s₀ (f s x1)) {k kinds} :
    Keeps s₀ (s.onArrived k kinds f) := by
  fun_cases State.onArrived s k kinds f with
  | case1 => exact h
  | case2 _ _ e => exact hf (h.takeArrived.of e)

theorem Keeps.refuseRemote (h : Keeps s₀ s) {a} : Keeps s₀ (s.refuseRemote a) := h.bumpReg.answerTo

theorem Keeps.remoteAccess (h : Keeps s₀ s) {a} : Keeps s₀ (s.remoteAccess a) := by
  fun_cases State.remoteAccess s a with
  | case1 => exact h
  | case2 | case3 => exact h.refuseRemote
  | case4 => exact h.update

theorem Keeps.addF32s (h : Keeps s₀ s) {n n1 l} : Keeps s₀ (s.addF32s n n1 l).1 := by
  fun_induction State.addF32s s n n1 l
  case case1 | case2 => exact .mkFst h
  case case3 e ih => exact ih (h.addF32At.of e)

theorem Keeps.serve (h : Keeps s₀ s) {x} : Keeps s₀ (s.serve x) := by
  fun_cases State.serve s x
  case case1 => exact h.answerTo
  case case2 => exact h.noteBadRead.answerTo
  case case3 e => exact .answerTo (.judgeArrival (.fst (.iteFst h.addF32s h.writeData) e))
  case case4 e => exact .answerTo (.ite (.noteBadRead (.fst (.iteFst h.addF32s h.writeData) e)) (.fst (.iteFst h.addF32s h.writeData) e))

theorem Keeps.transferArrival (h : Keeps s₀ s) {k} : Keeps s₀ (s.transferArrival k) := by
  fun_cases State.transferArrival s k with
  | case1 | case2 => exact h
  | case3 => exact h.update.serve

theorem Keeps.forgetRetried (h : Keeps s₀ s) {a p} : Keeps s₀ (s.forgetRetried a p) := .ite h h.setTile

theorem Keeps.syncOperation (h : Keeps s₀ s) {a p} : OnSome (Keeps s₀) (s.syncOperation a p) := by
  fun_cases State.syncOperation s a p with
  | case1 | case3 | case7 | case10 => exact .none
  | case2 => exact .mk h.signalObj.judgeArrival.answerTo
  | case4 => exact .mk h.forgetRetried.judgeArrival.answerTo
  | case5 | case6 => exact .mk h.forgetRetried.judgeArrival.setTile.answerTo
  | case8 => exact .mk h.arrive.judgeArrival.answerTo
  | case9 => exact .mk h.judgeArrival.answerTo

theorem Keeps.remoteSync (h : Keeps s₀ s) {a} : Keeps s₀ (s.remoteSync a) := by
  fun_cases State.remoteSync s a
  case case1 => exact h
  case case2 | case3 | case5 => exact h.refuseRemote
  case case4 => exact h.answerTo
  case case6 e1 => exact h.syncOperation.of e1

theorem Keeps.rowDone (h : Keeps s₀ s) {tid key part data} : Keeps s₀ (s.rowDone tid key part data) := by
  fun_cases State.rowDone s tid key part data
  case case1 | case2 => exact h
  case case3 => exact h.setPend
  case case4 e2 => exact .dmaNext (.setPend (.fst (.iteFst h.landRows h.writeRows) e2))
  case case5 e3 _ => exact .pendFails (.fst (.iteFst h.landRows h.writeRows) e3)

theorem Keeps.syncAnswered (h : Keeps s₀ s) {finish : State → Iss → State} (hfinish : ∀ {s x1}, Keeps s₀ s → Keeps s₀ (finish s x1)) {key} :
    Keeps s₀ (s.syncAnswered key finish) :=
  .ite (hfinish h.modThread).stopsNow (hfinish h.modThread)

theorem Keeps.completed (h : Keeps s₀ s) {x a} : Keeps s₀ (s.completed x a) := by
  fun_cases State.completed s x a with
  | case1 => exact h.rowDone
  | case2 => exact .syncAnswered h fun h => h.syncDone
  | case3 | case5 | case7 | case8 | case9 | case15 => exact h
  | case4 => exact .syncAnswered h fun h => h.setIx.syncDone
  | case6 => exact .syncAnswered h fun h => h.branchOn
  | case10 => exact h.update
  | case11 => exact h.modThread
  | case12 => exact h.finishWait
  | case13 => exact h.rootAcked
  | case14 => exact h.published

theorem Keeps.completion (h : Keeps s₀ s) {a} : Keeps s₀ (s.completion a) := by
  fun_cases State.completion s a with
  | case1 | case2 => exact h
  | case3 => exact .completed (.dropXfer (.ite h.judgeArrival h))

theorem Keeps.shardLost (h : Keeps s₀ s) {x why} : Keeps s₀ (s.shardLost x why) := h.modCtx.raise

theorem Keeps.failXfer (h : Keeps s₀ s) {x} : Keeps s₀ (s.failXfer x) := by
  fun_cases State.failXfer s x with
  | case1 | case2 | case7 | case9 | case12 => exact h.dropXfer
  | case3 => exact h.dropXfer.pendFails
  | case4 | case5 | case6 => exact .ite h.dropXfer.recordAccess.threadFault h.dropXfer
  | case8 => exact h.dropXfer.recordAccess.threadFault
  | case10 => exact h.dropXfer.rootWriteFails
  | case11 => exact h.dropXfer.publishFails

theorem Keeps.errorResponse (h : Keeps s₀ s) {a} : Keeps s₀ (s.errorResponse a) := by
  fun_cases State.errorResponse s a with
  | case1 => exact h
  | case2 => exact .failXfer (.ite h.shardLost h)

theorem Keeps.checkExpired (h : Keeps s₀ s) {tid} : Keeps s₀ (s.checkExpired tid) := by
  fun_cases State.checkExpired s tid with
  | case1 | case2 => exact h
  | case3 => exact h.setXfer.promiseVoid

theorem Keeps.graceExpired (h : Keeps s₀ s) {tid} : Keeps s₀ (s.graceExpired tid) := by
  fun_cases State.graceExpired s tid with
  | case1 | case2 => exact h
  | case3 => exact h.failXfer

theorem Keeps.shardBad (h : Keeps s₀ s) {a} : Keeps s₀ (s.shardBad a) := h.update.raise.launch

theorem Keeps.shardIn (h : Keeps s₀ s) {a marks} : Keeps s₀ (s.shardIn a marks) := by
  fun_cases State.shardIn s a marks
  case case1 => exact h.shardBad
  case case2 | case3 => exact h.refuseRemote
  case case4 e1 => exact (h.writeData.fst e1).answerTo
  case case5 e1 _ _ => exact (h.writeData.fst e1).update.markPresent.modCtx.judgeArrival.answerTo

theorem Keeps.resendShard (h : Keeps s₀ s) {x} : Keeps s₀ (s.resendShard x) := .ite h.setXfer h.launch.setXfer

theorem Keeps.rerequest (h : Keeps s₀ s) {a} : Keeps s₀ (s.rerequest a) := by
  fun_cases State.rerequest s a with
  | case1 => exact h
  | case2 => exact h.resendShard
  | case3 => exact h.setXfer.shardLost
  | case4 => exact h.setXfer

theorem Keeps.shardPrimary (h : Keeps s₀ s) {tid} : Keeps s₀ (s.shardPrimary tid) := by
  fun_cases State.shardPrimary s tid with
  | case1 | case3 => exact h
  | case2 => exact h.resendShard

theorem Keeps.shardDeadline (h : Keeps s₀ s) {tid} : Keeps s₀ (s.shardDeadline tid) := by
  fun_cases State.shardDeadline s tid with
  | case1 | case3 => exact h
  | case2 => exact h.setXfer.shardLost

theorem Keeps.asyncComplete (h : Keeps s₀ s) {t n k} : Keeps s₀ (s.asyncComplete t n k) := by
  fun_cases State.asyncComplete s t n k with
  | case1 | case3 => exact h.dmaNext
  | case2 => exact h.dmaNext.finishPend

/-! ### Array -/

theorem Keeps.dropClaim (h : Keeps s₀ s) {t n} : Keeps s₀ (s.dropClaim t n) := .ite h (.ite h.setTile.retryTile h)
theorem Keeps.discardClaims (h : Keeps s₀ s) {t} : Keeps s₀ (s.discardClaims t) := .forEach h fun h => h.dropClaim

theorem Keeps.onArray (h : Keeps s₀ s) {f : State → State} (hf : ∀ {s}, Keeps s₀ s → Keeps s₀ (f s)) {i start} :
    Keeps s₀ (s.onArray i start f) := by
  fun_cases State.onArray s i start f with
  | case1 => exact h.setTile.modThread.faultAt
  | case2 | case5 | case7 => exact h.block
  | case3 | case6 => exact .async h fun h => hf h
  | case4 => exact h.setTile.block

theorem Keeps.claimArray (h : Keeps s₀ s) {i acc} : Keeps s₀ (s.claimArray i acc) := h.modTile

theorem Keeps.reachStart (h : Keeps s₀ s) {i} : Keeps s₀ (s.reachStart i).1 := by
  fun_cases State.reachStart s i with
  | case1 | case3 => exact .mkFst h
  | case2 | case4 => exact .mkFst h.claimArray

theorem Keeps.reachStep (h : Keeps s₀ s) {i} : Keeps s₀ (s.reachStep i).1 := by
  fun_cases State.reachStep s i with
  | case1 | case2 | case3 | case4 => exact .mkFst h
  | case5 => exact .mkFst h.setTile

theorem Keeps.reachUnload (h : Keeps s₀ s) {i} : Keeps s₀ (s.reachUnload i).1 := by
  fun_cases State.reachUnload s i with
  | case1 | case2 | case3 => exact .mkFst h
  | case4 => exact h.writeRows

theorem Keeps.arrayReach (h : Keeps s₀ s) {i} : Keeps s₀ (s.arrayReach i).1 := by
  fun_cases State.arrayReach s i with
  | case1 => exact h.reachStart
  | case2 => exact h.reachStep
  | case3 => exact h.reachUnload

theorem Keeps.runArray (h : Keeps s₀ s) {i start} : Keeps s₀ (s.runArray i start) := by
  unfold State.runArray
  refine .onArray h fun h => ?_
  split
  · exact h.enqueue
  · split
    · next e1 => exact (h.arrayReach.fst e1).failWith
    · next e => exact (h.arrayReach.fst e).enqueue

theorem Keeps.arrayNext (h : Keeps s₀ s) {t n} : Keeps s₀ (s.arrayNext t n) := by
  fun_cases State.arrayNext s t n
  case case1 | case2 | case3 | case4 => exact h
  case case5 e3 => exact (h.arrayReach.fst e3).pendFails
  case case6 e2 => exact (h.arrayReach.fst e2).setPend

theorem Keeps.arrayWake (h : Keeps s₀ s) {t} : Keeps s₀ (s.arrayWake t) := .forEach h fun h => h.arrayNext

theorem Keeps.preemptSave (h : Keeps s₀ s) {t} : Keeps s₀ (s.preemptSave t) := by
  fun_cases State.preemptSave s t
  case case1 | case4 => exact h
  case case2 e2 _ _ => exact .setFld (.modTile (.fst (.iteFst h.writeData (.mkFst h)) e2))
  case case3 e2 _ _ => exact .modTile (.fst (.iteFst h.writeData (.mkFst h)) e2)

theorem Keeps.lostHolder (h : Keeps s₀ s) {t c} : Keeps s₀ (s.lostHolder t c) := by
  fun_cases State.lostHolder s t c with
  | case1 => exact h
  | case2 => exact h.modTile.modThread.faultAt

theorem Keeps.arrayRestore (h : Keeps s₀ s) {t} : Keeps s₀ (s.arrayRestore t) := by
  fun_cases State.arrayRestore s t
  case case1 | case3 => exact h
  case case2 s1 =>
    have h1 : Keeps s₀ s1 := .ite h.lostHolder (.ite h.noteBadRead.modTile.lostHolder h.modTile)
    exact .arrayNext (.ite h1.setFld h1)

theorem Keeps.releaseArray (h : Keeps s₀ s) {t n} : Keeps s₀ (s.releaseArray t n) := .ite h.modTile.retryTile h

theorem Keeps.pendCompletes (h : Keeps s₀ s) {t n k} : Keeps s₀ (s.pendCompletes t n k) := by
  fun_cases State.pendCompletes s t n k with
  | case1 | case4 => exact h.arrayNext.asyncComplete
  | case2 => exact h.arrayNext.asyncComplete.releaseArray.arrayWake
  | case3 => exact h.arrayNext.asyncComplete.arrayNext

/-! ### Vec -/

theorem Keeps.vecWrite (h : Keeps s₀ s) {p fmt codes} : OnOk (Keeps s₀) (s.vecWrite p fmt codes) := h.physWrite

theorem Keeps.vecResult (h : Keeps s₀ s) {i p fmt vals} : OnOk (Keeps s₀) (s.vecResult i p fmt vals) := by
  fun_cases State.vecResult s i p fmt vals with
  | case1 => exact .error
  | case2 _ _ e => exact .mk (h.vecWrite.of e).flagNan

theorem Keeps.runVec (h : Keeps s₀ s) {f : State → Except Why State} (hf : ∀ {s}, Keeps s₀ s → OnOk (Keeps s₀) (f s)) {i bad regs} :
    Keeps s₀ (s.runVec i bad regs f) := by
  unfold State.runVec
  refine .async h fun h => ?_
  split
  · exact h.faultAt
  · split
    · exact h.faultAt
    · split
      · exact h.failWith
      · next e => exact ((hf h).of e).enqueue

theorem Keeps.runElems (h : Keeps s₀ s) {i ks f} : Keeps s₀ (s.runElems i ks f) := by
  unfold State.runElems
  refine .runVec h fun h => ?_
  split
  · exact .error
  · split
    · exact .error
    · exact h.vecResult

theorem Keeps.arith1 (h : Keeps s₀ s) {i f} : Keeps s₀ (s.arith1 i f) := h.runElems
theorem Keeps.arith2 (h : Keeps s₀ s) {i f} : Keeps s₀ (s.arith2 i f) := h.runElems

theorem Keeps.vecRow (h : Keeps s₀ s) {run : Iss → State → State} (hrun : ∀ {x0 s}, Keeps s₀ s → Keeps s₀ (run x0 s)) {t n w sub} :
    Keeps s₀ (s.vecRow t n w sub run) :=
  .issue h fun h => hrun h

theorem Keeps.runRows (h : Keeps s₀ s) {i f} : Keeps s₀ (s.runRows i f) := by
  unfold State.runRows
  refine .runVec h fun h => ?_
  dsimp only
  split
  · exact .error
  · split
    · exact .error
    · exact h.vecResult

theorem Keeps.runDeriv (h : Keeps s₀ s) {i} : Keeps s₀ (s.runDeriv i) := .ite h.arith2 (.runVec h fun h => .mk h)

theorem Keeps.runSr (h : Keeps s₀ s) {i} : Keeps s₀ (s.runSr i) := by
  unfold State.runSr
  refine .runVec h fun h => ?_
  dsimp only
  split
  · exact .error
  · split
    · exact .error
    · split
      · exact .error
      · exact h.vecWrite

theorem Keeps.writeEntries (h : Keeps s₀ s) {p w fmt l} : OnOk (Keeps s₀) (s.writeEntries p w fmt l) := by
  fun_induction State.writeEntries s p w fmt l
  case case1 => exact .mk h
  case case2 => exact .error
  case case3 e ih => exact ih (h.physWrite.of e)

theorem Keeps.setMapBits (h : Keeps s₀ s) {p l} : OnOk (Keeps s₀) (s.setMapBits p l) := by
  fun_induction State.setMapBits s p l
  case case1 => exact .mk h
  case case2 => exact .error
  case case3 e ih => exact ih (h.physWrite.of e)

theorem Keeps.recordOverflow (h : Keeps s₀ s) {i fmt pscale pmap gs} : OnOk (Keeps s₀) (s.recordOverflow i fmt pscale pmap gs) := by
  unfold State.recordOverflow
  dsimp only
  split
  · exact .error
  · next u hu =>
    have hu : Keeps s₀ u := h.setMapBits.of hu
    split
    · exact .error
    · next v hv =>
      have hv : Keeps s₀ v := OnOk.of (OnOk.ite (.mk hu) hu.writeEntries) hv
      exact .mk (.ite hv hv.modCtx.raise)

theorem Keeps.noteConstants (h : Keeps s₀ s) {i gs} : Keeps s₀ (s.noteConstants i gs) := .ite h h.raise

theorem Keeps.runQuant (h : Keeps s₀ s) {i} : Keeps s₀ (s.runQuant i) := by
  unfold State.runQuant
  refine .runVec h fun {s} h => ?_
  split
  · exact .error
  · extract_lets nb _ s1
    split
    · exact .error
    · exact .error
    · exact .error
    · split
      · exact .error
      · extract_lets _ _
        have h1 : Keeps s₀ s1 := .ite h h.update
        split
        · exact .error
        · next s2 e2 =>
          have h2 : Keeps s₀ s2 := h1.vecWrite.of e2
          split
          · exact .error
          · next s3 e3 =>
            have h3 : Keeps s₀ s3 := OnOk.of (OnOk.ite h2.writeEntries (.mk h2)) e3
            exact .ite h3.flagNan.noteConstants.recordOverflow (.mk h3.flagNan.noteConstants)

theorem Keeps.runDequant (h : Keeps s₀ s) {i} : Keeps s₀ (s.runDequant i) := by
  unfold State.runDequant
  refine .runVec h fun h => ?_
  dsimp only
  split
  · exact .error
  · exact .error
  · exact .error
  · exact h.vecResult

theorem Keeps.runCheck (h : Keeps s₀ s) {i} : Keeps s₀ (s.runCheck i) := by
  unfold State.runCheck
  refine .runVec h fun h => ?_
  dsimp only
  split
  · exact .error
  · exact .mk h.flagNan.flagUsr

/-! ### Intake -/

theorem Keeps.dropIntake (h : Keeps s₀ s) {x} : Keeps s₀ (s.dropIntake x) := h.update
theorem Keeps.putIntake (h : Keeps s₀ s) {x} : Keeps s₀ (s.putIntake x) := h.update

theorem Keeps.intakeEnds (h : Keeps s₀ s) {x status detail} : Keeps s₀ (s.intakeEnds x status detail) := by
  unfold State.intakeEnds
  extract_lets s1
  refine .finish ?_
  split
  · exact .iteFst h.dropIntake.genFilled (.mkFst h.dropIntake.setGenSlot)
  · exact .iteFst h.dropIntake.switched (.mkFst h.dropIntake)

theorem Keeps.intakeFetch (h : Keeps s₀ s) {x n} : Keeps s₀ (s.intakeFetch x n).1 := by
  fun_induction State.intakeFetch s x n
  case case1 | case2 | case3 => exact .mkFst h
  case case4 ih => exact ih h.readHost

theorem Keeps.chunkFails (h : Keeps s₀ s) {x n code} : Keeps s₀ (s.chunkFails x n code).1 := by
  fun_cases State.chunkFails s x n code with
  | case1 => exact .mkFst (.readHost (.setObj (.raise (.ite h.hostReadFails h))))
  | case2 => exact .mkFst (.intakeEnds (.raise (.raise (.ite h.hostReadFails h))))

theorem Keeps.chunkConst (h : Keeps s₀ s) {x o} : Keeps s₀ (s.chunkConst x o) := .ite h h.free.raise

theorem Keeps.chunkWrite (h : Keeps s₀ s) {x n d} : Keeps s₀ (s.chunkWrite x n d).1 := by
  fun_cases State.chunkWrite s x n d
  case case1 | case2 => exact .mkFst h.intakeEnds
  case case3 e1 _ _ _ e2 =>
    exact .mkFst (.intakeEnds (.snd (.free (.fst (.foldlFst (.mkFst h.chunkConst) fun h => .mkFst h.writeData) e1)) e2))
  case case4 e1 _ _ => exact .mkFst (.setObj (.fst (.foldlFst (.mkFst h.chunkConst) fun h => .mkFst h.writeData) e1))

theorem Keeps.intakeTake (h : Keeps s₀ s) {x n} : Keeps s₀ (s.intakeTake x n) := by
  induction n generalizing s x with
  | zero => exact h.putIntake
  | succ n ih =>
    unfold State.intakeTake
    split
    · exact .ite h.intakeEnds h.putIntake
    · split
      · exact h.putIntake
      · extract_lets t
        have ht : Keeps s₀ t.1 := by
          dsimp only [t]
          split
          · exact h.chunkFails
          · exact .iteFst h.chunkFails (.iteFst h.chunkFails h.chunkWrite)
        split
        · exact ht
        · split
          next u y hu => exact ih (ht.intakeFetch.fst hu)

theorem Keeps.intakesFetch (h : Keeps s₀ s) : Keeps s₀ s.intakesFetch := by
  unfold State.intakesFetch
  with_reducible exact .forEach h fun h => h.intakeFetch.putIntake

theorem Keeps.chunkArrival (h : Keeps s₀ s) {r k n data} : Keeps s₀ (s.chunkArrival r k n data) := by
  fun_cases State.chunkArrival s r k n data with
  | case1 | case2 => exact h
  | case3 => exact h.intakeTake.intakesFetch

theorem Keeps.intakeStart (h : Keeps s₀ s) {r c x3 heads} : Keeps s₀ (s.intakeStart r c x3 heads) := by
  fun_cases State.intakeStart s r c x3 heads
  case case1 => exact h.finish
  case case2 => with_reducible exact h.update.intakeFetch.intakeTake
  case case3 e => exact (h.freeGenSlot.snd e).finish
  case case4 e => with_reducible exact (h.freeGenSlot.snd e).setGenSlot.update.intakeFetch.intakeTake

theorem Keeps.intake (h : Keeps s₀ s) {r c hdr heads} : Keeps s₀ (s.intake r c hdr heads) := by
  fun_cases State.intake s r c hdr heads with
  | case1 => exact h.finish
  | case2 | case3 => exact h.hostReadFails.finish
  | case4 => exact h.intakeStart

theorem Keeps.intakeReset (h : Keeps s₀ s) {c} : Keeps s₀ (s.intakeReset c) := .intakesFetch (.forEach h fun h => h.intakeEnds)

/-! ### Flash -/

theorem Keeps.writeBitmap (h : Keeps s₀ s) : Keeps s₀ s.writeBitmap := h.modFlash
theorem Keeps.setBank (h : Keeps s₀ s) {k b} : Keeps s₀ (s.setBank k b) := h.modFlash
theorem Keeps.modBank (h : Keeps s₀ s) {k f} : Keeps s₀ (s.modBank k f) := h.setBank
theorem Keeps.repairBank (h : Keeps s₀ s) {k} : Keeps s₀ (s.repairBank k) := .forEach h fun h => h.modBank.writeBitmap

theorem Keeps.burnFuses (h : Keeps s₀ s) {k} : Keeps s₀ (s.burnFuses k) := by
  unfold State.burnFuses
  with_reducible exact h.modFlash

theorem Keeps.fuseTurn (h : Keeps s₀ s) : Keeps s₀ s.fuseTurn := by
  fun_cases State.fuseTurn s with
  | case1 => exact h.burnFuses
  | case2 => exact h

/-! ### Slots -/

theorem Keeps.sendReplay (h : Keeps s₀ s) {p} : Keeps s₀ (s.sendReplay p) := by
  fun_cases State.sendReplay s p with
  | case1 => exact h
  | case2 => exact h.setPort
  | case3 => exact h.setPort.sendFlit

theorem Keeps.sendQueued (h : Keeps s₀ s) {p i} : Keeps s₀ (s.sendQueued p i) := by
  fun_cases State.sendQueued s p i
  case case1 => exact h
  case case2 s2 =>
    have h2 : Keeps s₀ s2 := by
      dsimp only [s2]
      split
      · exact h.setPort.setFld.oweCredit
      · exact h.setPort.setFld
    exact h2.sendFlit

theorem Keeps.enterFrame (h : Keeps s₀ s) {p frame} : Keeps s₀ (s.enterFrame p frame) := .ite h h.modPort
theorem Keeps.noteOverrun (h : Keeps s₀ s) {p frame n pick} : Keeps s₀ (s.noteOverrun p frame n pick) := .ite h.modPort.bumpReg.markSeen h

theorem Keeps.slotStart (h : Keeps s₀ s) {p n} : Keeps s₀ (s.slotStart p n) := by
  fun_cases State.slotStart s p n with
  | case1 => exact h
  | case2 => exact h.enterFrame.noteOverrun.sendFlit
  | case3 => exact h.enterFrame.noteOverrun.sendReplay
  | case4 => exact h.enterFrame.noteOverrun.sendQueued

theorem Keeps.resSwap (h : Keeps s₀ s) {p k} : Keeps s₀ (s.resSwap p k) := .ite h.setBit h.modPort.setBit
theorem Keeps.swapDue (h : Keeps s₀ s) {p} : Keeps s₀ (s.swapDue p) := .ite h.setFld.setBit.setFld.setFld h

/-! ### Lark -/

theorem Keeps.throttleTick (h : Keeps s₀ s) : Keeps s₀ s.throttleTick := .ite h h.bumpReg
theorem Keeps.plcaTick (h : Keeps s₀ s) : Keeps s₀ s.plcaTick := h.modRonbin
theorem Keeps.flashTick (h : Keeps s₀ s) : Keeps s₀ s.flashTick := .ite h (.fuseTurn (.ite h.modRonbin h))
theorem Keeps.tick (h : Keeps s₀ s) : Keeps s₀ s.tick := h.throttleTick.stageTick.plcaTick.flashTick.update.setReg
theorem Keeps.setLarkState (h : Keeps s₀ s) {v} : Keeps s₀ (s.setLarkState v) := .setFuncReady (.ite h.setFld h.setFld.markSeen)

theorem Keeps.steer (h : Keeps s₀ s) {off} : Keeps s₀ (s.steer off) := by
  fun_cases State.steer s off with
  | case1 => exact .setLarkState (.update (.ite h.update.setReg.setReg.bump.setReg h.update.setReg.setFld))
  | case2 => exact .ite h.update.setReg.setReg.bump.setReg h.update.setReg.setFld
  | case3 => exact .setLarkState (.ite h.update.setReg.setReg.bump.setReg h.update.setReg.setFld)

theorem Keeps.larkExchange (h : Keeps s₀ s) {p} : Keeps s₀ (s.larkExchange p) := .ite h h.modPort.sendFlit
theorem Keeps.placeAt (h : Keeps s₀ s) {co source} : Keeps s₀ (s.placeAt co source) := h.setObj.update.setBit
theorem Keeps.gmPlace (h : Keeps s₀ s) : Keeps s₀ s.gmPlace := .ite h.placeAt h
theorem Keeps.discover (h : Keeps s₀ s) {p co dist} : Keeps s₀ (s.discover p co dist) := h.placeAt

theorem Keeps.timeIn (h : Keeps s₀ s) {p f t} : Keeps s₀ (s.timeIn p f t) := by
  fun_cases State.timeIn s p f t
  case case1 => exact .sendFlit (.ite (.setLarkState (.setFld (.setBit (.setBit (.ite h.discover h))))) (.ite h.discover h))
  case case2 | case5 => exact .ite (.setLarkState (.setFld (.setBit (.setBit (.ite h.discover h))))) (.ite h.discover h)
  case case3 s1 s2 _ _ _ _ _ _ _ _ _ _ _ s5 =>
    have h1 : Keeps s₀ s1 := .ite h.discover h
    have h2 : Keeps s₀ s2 := .ite h1.setBit.setBit.setFld.setLarkState h1
    have h5 : Keeps s₀ s5 := h2.setReg.update.setFld.setFld
    exact h5.steer
  case case4 => exact .setReg (.ite (.setLarkState (.setFld (.setBit (.setBit (.ite h.discover h))))) (.ite h.discover h))

theorem Keeps.parentLost (h : Keeps s₀ s) : Keeps s₀ s.parentLost := .ite h (.ite h.update.setFld (.ite h.setLarkState h))
theorem Keeps.epochIn (h : Keeps s₀ s) : Keeps s₀ s.epochIn := .ite h (.ite h.update.setReg (.ite h.setFld h.bump))
theorem Keeps.larkSet (h : Keeps s₀ s) {v} : Keeps s₀ (s.larkSet v) := .ite h.setReg h

theorem Keeps.larkGm (h : Keeps s₀ s) {v} : Keeps s₀ (s.larkGm v) :=
  .ite (.ite h.update.setBit.setFld.setLarkState.gmPlace h) (.ite h.setBit.setLarkState h)

theorem Keeps.fcEnable (h : Keeps s₀ s) {c v} : Keeps s₀ (s.fcEnable c v) :=
  .ite h.setBit (.ite h (.ite h.free.setBit.raise (.ite h.setBit.modCtx.syncSet h.setBit.modCtx)))

theorem Keeps.judgeFrame (h : Keeps s₀ s) {c} : Keeps s₀ (s.judgeFrame c) := .ite h (.ite h (.ite h.modCtx h.modCtx.free.bump.promiseVoid))

theorem Keeps.snapWrite (h : Keeps s₀ s) {c v} : Keeps s₀ (s.snapWrite c v) :=
  .ite h.setReg.setBit (.ite h.setReg.setBit.setBit (.forEach h.setReg.setBit fun h => h.setBit))

theorem Keeps.snapReached (h : Keeps s₀ s) {c} : Keeps s₀ (s.snapReached c) := by
  fun_cases State.snapReached s c with
  | case1 => exact h
  | case2 => exact .setBit (.ite h.setBit.modCtx h.setBit.modCtx.setBit)
  | case3 => exact .ite h.setBit.modCtx h.setBit.modCtx.setBit

theorem Keeps.snapDrained (h : Keeps s₀ s) {post : State → State} (hpost : ∀ {s}, Keeps s₀ s → Keeps s₀ (post s)) {c} :
    Keeps s₀ (s.snapDrained c post) :=
  .ite (hpost h.setBit) h

theorem Keeps.snapResume (h : Keeps s₀ s) {c} : Keeps s₀ (s.snapResume c) := .ite h (.ite h.modCtx h.modCtx.setBit)

/-! ### Threads -/

theorem Keeps.startThread (h : Keeps s₀ s) {t n} : Keeps s₀ (s.startThread t n) := h.modThread.modTile.setReg

theorem Keeps.protectedWrite (h : Keeps s₀ s) {t n key mask v} : Keeps s₀ (s.protectedWrite t n key mask v) :=
  .ite (.ite h h.setBit) h.setReg

theorem Keeps.writeThreadCtl (h : Keeps s₀ s) {t n v} : Keeps s₀ (s.writeThreadCtl t n v) :=
  .ite h (.ite h.stopThread (.ite h.protectedWrite.startThread h.protectedWrite))

theorem Keeps.segWrite (h : Keeps s₀ s) {c i v} : Keeps s₀ (s.segWrite c i v) := .ite h.setReg.setReg.setFld.setBit.setFld h.setReg.setReg

/-! ### Sweep -/

theorem Keeps.noteLr (h : Keeps s₀ s) {c} : Keeps s₀ (s.noteLr c) := h.setReg

theorem Keeps.noteCycle (h : Keeps s₀ s) {c} : Keeps s₀ (s.noteCycle c) := by
  unfold State.noteCycle
  extract_lets p t
  by_cases hc : t < p.warmup ∨ p.kind = 3
  · simp only [hc, if_true]
    exact h.free.free.setReg.setReg.noteLr
  · simp only [hc, if_false]
    exact h.setReg.setReg.noteLr

theorem Keeps.applyCommitted (h : Keeps s₀ s) {c t} : Keeps s₀ (s.applyCommitted c t) := by
  unfold State.applyCommitted
  with_reducible exact .modCtx (.forEach h fun h => .forEach h fun h => h.setObj)

theorem Keeps.heathCommit (h : Keeps s₀ s) {c n} : OnSome (Keeps s₀) (s.heathCommit c n) := by
  fun_cases State.heathCommit s c n with
  | case1 => exact .none
  | case2 => exact .mk h.modCtx

theorem Keeps.sweepStepWrite (h : Keeps s₀ s) {c v} : Keeps s₀ (s.sweepStepWrite c v) := .ite h.setBit h.setReg.noteCycle
theorem Keeps.shardTableWrite (h : Keeps s₀ s) {c v} : Keeps s₀ (s.shardTableWrite c v) := .ite h.setBit h.setReg
theorem Keeps.clearSkew (h : Keeps s₀ s) {c} : Keeps s₀ (s.clearSkew c) := h.setFld
theorem Keeps.ctxCutsWrite (h : Keeps s₀ s) {c v} : Keeps s₀ (s.ctxCutsWrite c v) := .ite h.setBit h.setReg
theorem Keeps.qCfgWrite (h : Keeps s₀ s) {c k v} : Keeps s₀ (s.qCfgWrite c k v) := .ite h.setBit (.ite h.setBit.setFld h.setReg)
theorem Keeps.maskRows (h : Keeps s₀ s) {c m} : Keeps s₀ (s.maskRows c m) := .ite (.forEach h fun h => .ite h.setMapBit h) h

theorem Keeps.sweepStop (h : Keeps s₀ s) {c bit_ state code func data} : Keeps s₀ (s.sweepStop c bit_ state code func data) :=
  .setFld (.raise (.ite h.setCtx.stageWaited.modCtx.setStep.send h.setCtx))

theorem Keeps.slowFails (h : Keeps s₀ s) {c i reason} : Keeps s₀ (s.slowFails c i reason) := h.modCtx.sweepStop

theorem Keeps.startSlowReads (h : Keeps s₀ s) {c} : Keeps s₀ (s.startSlowReads c) := by
  fun_cases State.startSlowReads s c with
  | case1 => exact h.modCtx
  | case2 => exact h.modCtx.slowFails
  | case3 => exact .forEach h.modCtx fun h => h.readHost

theorem Keeps.voteArrival (h : Keeps s₀ s) {c loss grad maps} : Keeps s₀ (s.voteArrival c loss grad maps) :=
  .ite h (.startSlowReads (.send (.send (.setStep (.modCtx (.forEach h fun h => h.maskRows))))))

theorem Keeps.giveUp (h : Keeps s₀ s) {key} : Keeps s₀ (s.giveUp key) := .forEach h.modThread fun h => h.dropXfer
theorem Keeps.stepAgain (h : Keeps s₀ s) {c} : Keeps s₀ (s.stepAgain c) := .ite h (.stopThreads (.forEach h.modCtx fun h => h.giveUp))
theorem Keeps.stepSkipped (h : Keeps s₀ s) {c} : Keeps s₀ (s.stepSkipped c) := h.bumpReg.clearPresence

theorem Keeps.raiseNan (h : Keeps s₀ s) {c} : Keeps s₀ (s.raiseNan c) := by
  fun_cases State.raiseNan s c with
  | case1 => exact h
  | case2 => exact h.modCtx.raise

theorem Keeps.judgeSkew (h : Keeps s₀ s) {c w} : Keeps s₀ (s.judgeSkew c w) := .ite h.setFld (.ite h.bump.raise.setFld h.bump.raise)

theorem Keeps.voteFailed (h : Keeps s₀ s) {c w} : Keeps s₀ (s.voteFailed c w) :=
  h.modCtx.setStep.stepSkipped.raiseNan.judgeSkew.stepAgain.boundary.rootsFeed.dmaWake

theorem Keeps.applyInstall (h : Keeps s₀ s) {c v} : Keeps s₀ (s.applyInstall c v) :=
  .ite h.modCtx (.forEach h.modCtx fun h => h.setLayerState)

theorem Keeps.votePassed (h : Keeps s₀ s) {c w} : Keeps s₀ (s.votePassed c w) := by
  unfold State.votePassed
  extract_lets s1 s2
  have h1 : Keeps s₀ s1 := h.judgeSkew.modCtx.noteOverlap
  have h2 : Keeps s₀ s2 := by
    dsimp only [s2]
    split
    · exact h1.applyInstall
    · exact h1
  exact .ite h2 h2.modCtx.setStep.send

theorem Keeps.voteComplete (h : Keeps s₀ s) {c w} : Keeps s₀ (s.voteComplete c w) :=
  .ite h (.ite h.setReg.discard.voteFailed h.setReg.discard.votePassed)

theorem Keeps.installComplete (h : Keeps s₀ s) {c v} : Keeps s₀ (s.installComplete c v) := by
  fun_cases State.installComplete s c v with
  | case1 => exact h.setCtx
  | case2 | case4 => exact h
  | case3 => exact h.applyInstall

theorem Keeps.ageLayer (h : Keeps s₀ s) {c l} : Keeps s₀ (s.ageLayer c l) := by
  fun_cases State.ageLayer s c l with
  | case1 => exact h.modCtx.setLayerAge
  | case2 => exact .rootStale (.ite h.modCtx.setLayerAge.setLayerUse (.ite h.modCtx.setLayerAge.setLayerUse h.modCtx.setLayerAge))

theorem Keeps.rootsAtSweep (h : Keeps s₀ s) {c} : Keeps s₀ (s.rootsAtSweep c) := by
  fun_cases State.rootsAtSweep s c with
  | case1 => exact .setObj (.forEach (.forEach h fun h => h.setLayerState) fun h => h.ageLayer)
  | case2 => exact .forEach (.forEach h fun h => h.setLayerState) fun h => h.ageLayer

theorem Keeps.sweepStart (h : Keeps s₀ s) {c} : Keeps s₀ (s.sweepStart c) := by
  unfold State.sweepStart
  extract_lets _
  split
  · exact h
  next s3 s4 _ =>
    have h3 : Keeps s₀ s3 := h.applyCommitted.modCtx.setStep.setBit
    have h4 : Keeps s₀ s4 := .ite h3.rootsAtSweep h3
    exact .ite h4.noteCycle h4.noteLr

theorem Keeps.direction (h : Keeps s₀ s) {c x2 g rows cols} : Keeps s₀ (s.direction c x2 g rows cols).2 := by
  fun_cases State.direction s c x2 g rows cols
  case case1 => exact .mkSnd h
  case case2 e _ _ e1 =>
    exact .mkSnd (.snd (.iteSnd (.freeList (.snd (.iteSnd h.freeList (.mkSnd h)) e)) (.mkSnd (.snd (.iteSnd h.freeList (.mkSnd h)) e))) e1)

theorem Keeps.updateGranule (h : Keeps s₀ s) {c i x3 hp p g m} : Keeps s₀ (s.updateGranule c i x3 hp p g m) :=
  .ite h.storeHeal.modCtx.writeHost h.storeHeal.storeHeal

theorem Keeps.setDigest (h : Keeps s₀ s) {c i p} : Keeps s₀ (s.setDigest c i p) := h.modCtx
theorem Keeps.markSwept (h : Keeps s₀ s) {c i} : Keeps s₀ (s.markSwept c i) := h.modCtx.dmaWake
theorem Keeps.sweepReadFails (h : Keeps s₀ s) {c i n n1} : Keeps s₀ (s.sweepReadFails c i n n1) := h.modCtx.noteBadRead.raise

theorem Keeps.sweepReads (h : Keeps s₀ s) {f : State → State} (hf : ∀ {s}, Keeps s₀ s → Keeps s₀ (f s)) {c i l} :
    Keeps s₀ (s.sweepReads c i l f) := by
  fun_cases State.sweepReads s c i l f with
  | case1 => exact h.sweepReadFails
  | case2 => exact hf h

theorem Keeps.compareDigests (h : Keeps s₀ s) {c i words} : Keeps s₀ (s.compareDigests c i words) := .ite (.sweepReads h fun h => h.send) h
theorem Keeps.shardWritten (h : Keeps s₀ s) {c i x3} : Keeps s₀ (s.shardWritten c i x3) := .ite h.setDigest.compareDigests h.markSwept

theorem Keeps.sweepOn (h : Keeps s₀ s) {c i x3 p l} : Keeps s₀ (s.sweepOn c i x3 p l) := by
  fun_induction State.sweepOn s c i x3 p l
  case case1 => exact h.modCtx.setBit.shardWritten
  case case2 => exact h.modCtx.setBit
  case case3 => exact h.sweepReadFails
  case case4 ih => exact ih h.updateGranule

theorem Keeps.writeShard (h : Keeps s₀ s) {c i g rows cols} : Keeps s₀ (s.writeShard c i g rows cols) := by
  unfold State.writeShard
  with_reducible exact .sweepReads h fun h => h.direction.storeHeal.sweepOn

theorem Keeps.shardSwept (h : Keeps s₀ s) {c i g rows cols} : Keeps s₀ (s.shardSwept c i g rows cols) :=
  .ite h (.ite h.modCtx h.stageWaited.writeShard)

theorem Keeps.sweepAgain (h : Keeps s₀ s) {c} : Keeps s₀ (s.sweepAgain c) := by
  fun_cases State.sweepAgain s c with
  | case1 => exact h.sweepOn
  | case2 | case3 => exact h

theorem Keeps.slowArrival (h : Keeps s₀ s) {c i g data} : Keeps s₀ (s.slowArrival c i g data) := by
  fun_cases State.slowArrival s c i g data with
  | case1 => exact h
  | case2 => exact h.hostReadFails.slowFails
  | case3 => exact .sweepAgain (.ite h.setCtx.setReg h.setCtx)

theorem Keeps.slowWritten (h : Keeps s₀ s) {c i g ok} : Keeps s₀ (s.slowWritten c i g ok) := .ite h (.ite h.modCtx h.modCtx.slowFails)

theorem Keeps.slowLinkDown (h : Keeps s₀ s) : Keeps s₀ s.slowLinkDown := by
  unfold State.slowLinkDown
  refine .forEach h fun h => ?_
  split
  · exact h
  · exact h.slowFails

theorem Keeps.bisectOn (h : Keeps s₀ s) {c i ranges single} : Keeps s₀ (s.bisectOn c i ranges single) :=
  .ite (.ite h.setDigest.compareDigests h.setDigest.send) h.setDigest.compareDigests

theorem Keeps.digestAgrees (h : Keeps s₀ s) {c i} : Keeps s₀ (s.digestAgrees c i) := .markSwept (.ite h h.setStep)

theorem Keeps.digestCompared (h : Keeps s₀ s) {c i lo hi} : Keeps s₀ (s.digestCompared c i lo hi) := by
  fun_cases State.digestCompared s c i lo hi with
  | case1 | case7 => exact h
  | case2 | case5 => exact h.digestAgrees
  | case3 | case4 => exact h.setStep.bisectOn
  | case6 => exact h.bisectOn

theorem Keeps.bisected (h : Keeps s₀ s) {c i differs} : Keeps s₀ (s.bisected c i differs) := by
  fun_cases State.bisected s c i differs with
  | case1 | case3 => exact h
  | case2 => exact h.bisectOn

theorem Keeps.runsRead (h : Keeps s₀ s) {c i others} : Keeps s₀ (s.runsRead c i others) := by
  fun_cases State.runsRead s c i others with
  | case1 | case3 => exact h
  | case2 =>
    refine .sweepReads h fun h => ?_
    dsimp only
    split
    · refine .compareDigests (.setDigest (.raise (.setObj (.forEach ?_ fun h => h.storeHeal))))
      split
      · exact h
      · exact h.setFld.setFld
    · refine .sweepStop ?_
      split
      · exact h
      · exact h.setFld.setFld

theorem Keeps.commitArrival (h : Keeps s₀ s) {c} : Keeps s₀ (s.commitArrival c) := .ite h h.setCtx.setStep.send
theorem Keeps.flipMomentum (h : Keeps s₀ s) {c} : Keeps s₀ (s.flipMomentum c) := .forEach h fun h => .forEach h fun h => h.setMapBit

theorem Keeps.installRoots (h : Keeps s₀ s) {c} : Keeps s₀ (s.installRoots c) := by
  fun_cases State.installRoots s c with
  | case1 => exact .forEach h fun h => h.setLayerSel.setLayerUse.setLayerAge.setLayerHash.setLayerState
  | case2 => exact .setObj (.forEach h fun h => h.setLayerSel.setLayerUse.setLayerAge.setLayerHash.setLayerState)

theorem Keeps.stepOver (h : Keeps s₀ s) {c} : Keeps s₀ (s.stepOver c) := h.modCtx.setBit.setBit.stageWaited.setStep.rootsFeed.dmaWake

theorem Keeps.committed (h : Keeps s₀ s) {c} : Keeps s₀ (s.committed c) := by
  unfold State.committed
  extract_lets s1 s2 s3
  have h2 : Keeps s₀ s2 := .ite h.flipMomentum.setReg.installRoots h.flipMomentum.setReg
  have h3 : Keeps s₀ s3 := h2.clearPresence.stepOver.modCtx
  exact h3.noteCycle.boundary

theorem Keeps.dueDiscard (h : Keeps s₀ s) {c} : Keeps s₀ (s.dueDiscard c) := .ite h.modCtx.discard h

theorem Keeps.aborted (h : Keeps s₀ s) {c} : Keeps s₀ (s.aborted c) := by
  unfold State.aborted
  extract_lets s1 s2 s3 s4
  have h2 : Keeps s₀ s2 := .forEach h.stepSkipped fun h => h.setLayerState
  have h3 : Keeps s₀ s3 := .forEach h2 fun h => h.setLayerAge.setLayerUse
  have h4 : Keeps s₀ s4 := h3.stepOver.boundary.modCtx
  exact h4.stepAgain.dueDiscard

theorem Keeps.commitComplete (h : Keeps s₀ s) {c w} : Keeps s₀ (s.commitComplete c w) :=
  .ite h (.ite h.setReg.publishStage.noteOverlap.aborted h.setReg.publishStage.noteOverlap.committed)

theorem Keeps.queueRebase (h : Keeps s₀ s) {c} : Keeps s₀ (s.queueRebase c) := by
  fun_cases State.queueRebase s c with
  | case1 => exact h.dueDiscard
  | case2 => exact .forEach (.modCtx (.send (.forEach h.dueDiscard.send fun h => h.syncSet))) fun h => h.startThread

/-! ### Host -/

theorem Keeps.someError (h : Keeps s₀ s) : Keeps s₀ s.someError.2 := .mkSnd h.free
theorem Keeps.startGen (h : Keeps s₀ s) {c j} : Keeps s₀ (s.startGen c j) := .makeCurrent (.ite h.setBit.setGenSlot.modCtx h.setBit)
theorem Keeps.hamperFromObjects (h : Keeps s₀ s) {c} : Keeps s₀ (s.hamperFromObjects c) := h.hamperCfgWrite

theorem Keeps.startCounts (h : Keeps s₀ s) {c} : Keeps s₀ (s.startCounts c) :=
  .forEach (.setObj (.setFld (.forEach h fun h => h.setReg))) fun h => h.setFld

theorem Keeps.ctxRuns (h : Keeps s₀ s) {c} : Keeps s₀ (s.ctxRuns c) := h.setCtx.startCounts.setFld.setBit.setBit.rootsFeed

theorem Keeps.ctxStart (h : Keeps s₀ s) {c cmd lo hi queues} : Keeps s₀ (s.ctxStart c cmd lo hi queues) := by
  fun_cases State.ctxStart s c cmd lo hi queues
  case case1 | case2 | case3 => exact h.finish
  case case4 => exact h.setBit.setFld.someError.finish
  case case5 | case6 => exact h.someError.finish
  case case7 => exact h.dueDiscard.hamperFromObjects.someError.finish
  case case8 s1 _ s2 _ s4 =>
    have h1 : Keeps s₀ s1 := h.dueDiscard.hamperFromObjects
    have h2 : Keeps s₀ s2 := .forEach h1 fun h => h.qCfgWrite
    have h4 : Keeps s₀ s4 := by
      dsimp only [s4]
      split
      · exact h2.rootless.ctxRuns
      · split
        · exact h2.rootless.ctxRuns.startGen
        · exact h2.rootless.ctxRuns
    exact h4.finish

theorem Keeps.startGoes (h : Keeps s₀ s) {c} : Keeps s₀ (s.startGoes c) := by
  fun_cases State.startGoes s c with
  | case1 | case3 => exact h
  | case2 => exact h.modCtx.ctxStart

theorem Keeps.takeStart (h : Keeps s₀ s) {c cmd lo hi queues} : Keeps s₀ (s.takeStart c cmd lo hi queues) := h.modCtx.startGoes
theorem Keeps.ctxStop (h : Keeps s₀ s) {c} : Keeps s₀ (s.ctxStop c) := h.stageWaited.modCtx.stopThreads.dmaWake.settleRing
theorem Keeps.abortStep (h : Keeps s₀ s) {c cmd} : Keeps s₀ (s.abortStep c cmd) := .ite h.finish h.modCtx.finish
theorem Keeps.snapEntry (h : Keeps s₀ s) {c} : Keeps s₀ (s.snapEntry c) := h.free.postEvent
theorem Keeps.linkEnters (h : Keeps s₀ s) {width rate} : Keeps s₀ (s.linkEnters width rate) := .ite h h.setFld.setFld.setBit.setFuncReady
theorem Keeps.setCfgWord (h : Keeps s₀ s) {k v} : Keeps s₀ (s.setCfgWord k v) := h.update

theorem Keeps.aerNote (h : Keeps s₀ s) {uncorr corr dev} : Keeps s₀ (s.aerNote uncorr corr dev) := by
  fun_cases State.aerNote s uncorr corr dev
  case case1 => exact h.setCfgWord.setCfgWord.setCfgWord
  case case2 e _ => exact .forEach (h.setCfgWord.setCfgWord.setCfgWord.freeList.snd e).setCfgWord fun h => h.setCfgWord

theorem Keeps.aerUnsupported (h : Keeps s₀ s) : Keeps s₀ s.aerUnsupported := h.aerNote
theorem Keeps.aerTimeout (h : Keeps s₀ s) : Keeps s₀ s.aerTimeout := h.aerNote
theorem Keeps.setPayload (h : Keeps s₀ s) {n} : Keeps s₀ (s.setPayload n) := .ite h.update h
theorem Keeps.setReadSize (h : Keeps s₀ s) {n} : Keeps s₀ (s.setReadSize n) := .ite h.update h

theorem Keeps.configWrite (h : Keeps s₀ s) {k v} : Keeps s₀ (s.configWrite k v) := by
  fun_cases State.configWrite s k v with
  | case1 | case2 => exact h.setCfgWord.update
  | case3 | case6 => exact h.setCfgWord
  | case4 => exact h.setCfgWord.setPayload.setReadSize
  | case5 => exact h.setCfgWord.firePending

theorem Keeps.configRequest (h : Keeps s₀ s) {a} : Keeps s₀ (s.configRequest a) := by
  fun_cases State.configRequest s a with
  | case1 => exact h.send
  | case2 => exact h.configWrite
  | case3 => exact h.update
  | case4 => exact h.setPayload
  | case5 => exact h.setReadSize

/-! ### Errors -/

theorem Keeps.takeSlot (h : Keeps s₀ s) {i e} : Keeps s₀ (s.takeSlot i e) := .ite h.setLogSlot h.setLogSlot.postEvent

theorem Keeps.logTake (h : Keeps s₀ s) : Keeps s₀ s.logTake := by
  fun_cases State.logTake s with
  | case1 | case3 => exact h
  | case2 => exact h.takeSlot

theorem Keeps.logRetire (h : Keeps s₀ s) : Keeps s₀ s.logRetire := by
  fun_cases State.logRetire s with
  | case1 | case3 => exact h
  | case2 => exact h.update.setFld.setLogSlot

theorem Keeps.logRequeue (h : Keeps s₀ s) : Keeps s₀ s.logRequeue := by
  fun_cases State.logRequeue s with
  | case1 => exact h.setLogSlot
  | case2 | case3 => exact h

theorem Keeps.logUnhandle (h : Keeps s₀ s) : Keeps s₀ s.logUnhandle := by
  fun_cases State.logUnhandle s with
  | case1 => exact h.setLogSlot
  | case2 => exact h

theorem Keeps.logRaise (h : Keeps s₀ s) {b} : Keeps s₀ (s.logRaise b) := .ite h h.raise
theorem Keeps.fenceRefuse (h : Keeps s₀ s) : Keeps s₀ s.fenceRefuse := h.setBit
theorem Keeps.fenceEvent (h : Keeps s₀ s) : Keeps s₀ s.fenceEvent := h.raise

theorem Keeps.fenceBypass (h : Keeps s₀ s) {cause} : Keeps s₀ (s.fenceBypass cause) :=
  .ite h.fenceRefuse (.ite h.raiseFence.stileClose h.raiseFence.stileClose.setFld.fenceEvent)

theorem Keeps.fenceClear (h : Keeps s₀ s) : Keeps s₀ s.fenceClear := .ite h.fenceRefuse (.ite h h.setFld.fenceEvent)

theorem Keeps.fenceCtlWrite (h : Keeps s₀ s) {v} : Keeps s₀ (s.fenceCtlWrite v) := by
  fun_cases State.fenceCtlWrite s v with
  | case1 => exact h
  | case2 => exact h.raiseFence
  | case3 => exact h.fenceBypass
  | case4 => exact h.fenceClear
  | case5 => exact h.fenceRefuse

theorem Keeps.fenceLevelWrite (h : Keeps s₀ s) {v} : Keeps s₀ (s.fenceLevelWrite v).1 := by
  fun_cases State.fenceLevelWrite s v with
  | case1 => exact .mkFst (.foldl h (fun h => .ite h.fenceClear h))
  | case2 => exact .mkFst h.raiseFence
  | case3 => exact .mkFst h.fenceBypass
  | case4 => exact .mkFst h

theorem Keeps.overflowClear (h : Keeps s₀ s) : Keeps s₀ s.overflowClear := h.setBit

/-! ### Power -/

theorem Keeps.putCause (h : Keeps s₀ s) {b v} : Keeps s₀ (s.putCause b v) := h.update

theorem Keeps.throttleSettle (h : Keeps s₀ s) : Keeps s₀ s.throttleSettle := by
  unfold State.throttleSettle
  extract_lets _ _ _ _ s2 s3
  have h2 : Keeps s₀ s2 := .ite h.setFld.setFld.setFld h.setFld.setFld
  have h3 : Keeps s₀ s3 := .ite h2 h2.markSeen
  exact .ite h3.raise h3

theorem Keeps.setCause (h : Keeps s₀ s) {b v} : Keeps s₀ (s.setCause b v) := .ite h.putCause.throttleSettle h
theorem Keeps.causeRise (h : Keeps s₀ s) {b} : Keeps s₀ (s.causeRise b) := .ite h.setCause (.ite h.setCause (.ite h.setCause h))
theorem Keeps.causeEscalate (h : Keeps s₀ s) {b} : Keeps s₀ (s.causeEscalate b) := .ite h.setCause h
theorem Keeps.causeStepDown (h : Keeps s₀ s) {b} : Keeps s₀ (s.causeStepDown b) := .ite h.setCause h
theorem Keeps.causeRelease (h : Keeps s₀ s) {b} : Keeps s₀ (s.causeRelease b) := .ite h.setCause h
theorem Keeps.forceWrite (h : Keeps s₀ s) {v} : Keeps s₀ (s.forceWrite v) := h.setFld.setCause

theorem Keeps.throttleCtlWrite (h : Keeps s₀ s) {v} : Keeps s₀ (s.throttleCtlWrite v) := by
  unfold State.throttleCtlWrite
  extract_lets _ s1 s2 s3
  have h1 : Keeps s₀ s1 := .ite h.setFld h
  have h2 : Keeps s₀ s2 := .ite h1.setFld h1
  have h3 : Keeps s₀ s3 := .ite h2.setFld h2
  exact .forceWrite (.ite h3.setFld h3)

theorem Keeps.pinsJudge (h : Keeps s₀ s) : Keeps s₀ s.pinsJudge := .ite (.setCause (.update (.ite h.markSeen h))) (.ite h.markSeen h)
theorem Keeps.pinSet (h : Keeps s₀ s) {n v} : Keeps s₀ (s.pinSet n v) := h.setBit.pinsJudge
theorem Keeps.faultRelease (h : Keeps s₀ s) : Keeps s₀ s.faultRelease := h.update
theorem Keeps.pinCtlWrite (h : Keeps s₀ s) {v} : Keeps s₀ (s.pinCtlWrite v) := .ite h.setReg.pinsJudge.faultRelease h.setReg.pinsJudge
theorem Keeps.emergencyEvent (h : Keeps s₀ s) {shutdown sensor} : Keeps s₀ (s.emergencyEvent shutdown sensor) := h.raise

theorem Keeps.emergencyBegin (h : Keeps s₀ s) {b sensor} : Keeps s₀ (s.emergencyBegin b sensor) :=
  .ite h (.emergencyEvent (.markSeen (.throttleSettle (.forEach h.setBit.setBit fun h => h.putCause))))

theorem Keeps.emergencyClear (h : Keeps s₀ s) {left} : Keeps s₀ (s.emergencyClear left) := .ite h (.ite h.setFld.setBit h.setFld)
theorem Keeps.measure (h : Keeps s₀ s) {k} : Keeps s₀ (s.measure k).2 := .iteSnd (.mkSnd h.free.bumpReg) (.mkSnd h.free)

/-! ### Firmware -/

theorem Keeps.setCoreReady (h : Keeps s₀ s) {n v} : Keeps s₀ (s.setCoreReady n v) := h.setBit.modBring.setFuncReady

theorem Keeps.coreFails (h : Keeps s₀ s) {n} : Keeps s₀ (s.coreFails n) :=
  .forEach h.setFld.setCoreReady.setFld.raise fun h => h.haltCtx.postEvent

theorem Keeps.coreRestarts (h : Keeps s₀ s) {n cause} : Keeps s₀ (s.coreRestarts n cause) := by
  unfold State.coreRestarts
  extract_lets _ _ s2
  have h2 : Keeps s₀ s2 := h.setFld.setFld.setCoreReady.bumpReg
  split
  next e =>
  extract_lets _ s5 s6 _ s7
  have h5 : Keeps s₀ s5 := (h2.free.snd e).setReg.modFwCore
  have h6 : Keeps s₀ s6 := .ite h5.setBit (.ite h5.logUnhandle h5)
  exact .ite h6.raise.coreFails h6.raise

theorem Keeps.watchdog (h : Keeps s₀ s) {n} : Keeps s₀ (s.watchdog n) := .ite h.coreRestarts h
theorem Keeps.trap (h : Keeps s₀ s) {n} : Keeps s₀ (s.trap n) := .ite h.coreRestarts h
theorem Keeps.restartRequest (h : Keeps s₀ s) {n} : Keeps s₀ (s.restartRequest n) := .ite h.coreRestarts h

theorem Keeps.coreHold (h : Keeps s₀ s) {n v} : Keeps s₀ (s.coreHold n v) := by
  fun_cases State.coreHold s n v with
  | case1 | case4 => exact h.setBit
  | case2 => exact h.setBit.setFld.setCoreReady.modFwCore.setBit
  | case3 => exact h.setBit.setFld.setCoreReady.modFwCore
  | case5 => exact h.setBit.setFld
  | case6 => exact h.setBit.coreRestarts

theorem Keeps.loadSegs (h : Keeps s₀ s) {n} : Keeps s₀ (s.loadSegs n) := .forEach h fun h => h.setBytes
theorem Keeps.rewrite (h : Keeps s₀ s) {n} : Keeps s₀ (s.rewrite n) := h.dropMem.loadSegs.update
theorem Keeps.coreReload (h : Keeps s₀ s) {n} : Keeps s₀ (s.coreReload n) := .ite h (.ite h.setFld.coreFails h.rewrite.modFwCore)
theorem Keeps.kick (h : Keeps s₀ s) {n} : Keeps s₀ (s.kick n) := .ite h.modFwCore h
theorem Keeps.bootLoad (h : Keeps s₀ s) : Keeps s₀ s.bootLoad := .ite h h.setFld.setFld.modBoot.readHost
theorem Keeps.rejectImage (h : Keeps s₀ s) {why version} : Keeps s₀ (s.rejectImage why version) := h.setFld.setFld.raise

theorem Keeps.acceptImage (h : Keeps s₀ s) {l segs} : Keeps s₀ (s.acceptImage l segs) := by
  unfold State.acceptImage
  extract_lets s1 s2 s3 s4 s5
  have h2 : Keeps s₀ s2 := .forEach h.modBoot fun h => h.loadSegs.modFwCore
  have h4 : Keeps s₀ s4 := h2.loadSegs.setFld.setFld
  have h5 : Keeps s₀ s5 := .forEach h4 fun h => .ite h h.setFld
  exact h5.setFld

theorem Keeps.imageRead (h : Keeps s₀ s) {image} : Keeps s₀ (s.imageRead image) := by
  fun_cases State.imageRead s image with
  | case1 => exact h
  | case2 => exact h.hostReadFails.rejectImage
  | case3 => exact h.setBytes.acceptImage
  | case4 => exact h.setBytes.rejectImage

theorem Keeps.setCon (h : Keeps s₀ s) {lines text} : Keeps s₀ (s.setCon lines text) := h.setBytes.modBoot.setFld
theorem Keeps.conPush (h : Keeps s₀ s) {line} : Keeps s₀ (s.conPush line) := .setCon (.ite h h.setBit)
theorem Keeps.conDrain (h : Keeps s₀ s) : Keeps s₀ s.conDrain := .ite (.setCon (.forEach h fun h => h.send)) h
theorem Keeps.conLine (h : Keeps s₀ s) {text} : Keeps s₀ (s.conLine text) := .ite h.conDrain.send h.conPush
theorem Keeps.conReply (h : Keeps s₀ s) {text} : Keeps s₀ (s.conReply text) := .ite h.conLine h
theorem Keeps.setTrace (h : Keeps s₀ s) {v} : Keeps s₀ (s.setTrace v) := .ite h.modBoot h

theorem Keeps.conCtlWrite (h : Keeps s₀ s) {v} : Keeps s₀ (s.conCtlWrite v) :=
  .conDrain (.ite (.ite h.setBit.setBit h.setBit) h.setBit.setBit)

theorem Keeps.eccCorrected (h : Keeps s₀ s) {off patrol} : Keeps s₀ (s.eccCorrected off patrol) := by
  fun_cases State.eccCorrected s off patrol with
  | case1 | case2 => exact h.bumpReg.raise
  | case3 => exact h.bump
  | case4 | case5 => exact h

theorem Keeps.eccFails (h : Keeps s₀ s) {off} : Keeps s₀ (s.eccFails off) := by
  unfold State.eccFails
  extract_lets b mark
  have hm {u : State} (hu : Keeps s₀ u) : Keeps s₀ (mark u) := .ite hu hu.update
  split
  · exact (hm h).raiseBad
  · exact (hm h).raiseBad
  · split
    · split
      · exact (hm h.bump).trap
      · exact (hm h.bump).raise
    · exact h
  · exact h

theorem Keeps.patrol (h : Keeps s₀ s) {st corrected} : Keeps s₀ (s.patrol st corrected) := by
  fun_cases State.patrol s st corrected with
  | case1 => exact h
  | case2 => exact h.setFld.raiseBad
  | case3 => exact h.setFld.eccCorrected
  | case4 => exact h.setFld

/-! ### Image -/

theorem Keeps.closeSession (h : Keeps s₀ s) {n} : Keeps s₀ (s.closeSession n) := h.modRonbin
theorem Keeps.closeSessions (h : Keeps s₀ s) : Keeps s₀ s.closeSessions := h.modRonbin
theorem Keeps.setCalSlot (h : Keeps s₀ s) {k v} : Keeps s₀ (s.setCalSlot k v) := h.modFlash
theorem Keeps.imageEvent (h : Keeps s₀ s) {code sev low mid high} : Keeps s₀ (s.imageEvent code sev low mid high) := h.raise

theorem Keeps.tear (h : Keeps s₀ s) : Keeps s₀ s.tear := by
  fun_cases State.tear s with
  | case1 | case3 => exact h
  | case2 => exact h.modBank

theorem Keeps.openStage (h : Keeps s₀ s) {id len} : Keeps s₀ (s.openStage id len) := by
  unfold State.openStage
  with_reducible exact h.modFlash.writeBitmap.modRonbin

theorem Keeps.stageBegin (h : Keeps s₀ s) {v} : Keeps s₀ (s.stageBegin v).1 := .iteFst (.mkFst h) (.iteFst (.mkFst h) (.mkFst h.openStage))
theorem Keeps.refill (h : Keeps s₀ s) : Keeps s₀ s.refill := h.modRonbin
theorem Keeps.pieceBad (h : Keeps s₀ s) {reason num id} : Keeps s₀ (s.pieceBad reason num id) := h.imageEvent

theorem Keeps.piece (h : Keeps s₀ s) {num crc data} : Keeps s₀ (s.piece num crc data).1 := by
  fun_cases State.piece s num crc data with
  | case1 | case2 | case3 | case4 => exact .mkFst h.pieceBad
  | case5 | case6 => exact .mkFst h
  | case7 => exact .mkFst h.modRonbin

theorem Keeps.dropStage (h : Keeps s₀ s) : Keeps s₀ s.dropStage := by
  unfold State.dropStage
  with_reducible exact .modRonbin (.ite h.setBank.modFlash h)

theorem Keeps.stageAbort (h : Keeps s₀ s) : Keeps s₀ s.stageAbort := .ite h.modRonbin h.dropStage

theorem Keeps.verifyStage (h : Keeps s₀ s) : Keeps s₀ s.verifyStage := by
  fun_cases State.verifyStage s with
  | case1 => exact h.modBank.setCalSlot.modRonbin
  | case2 | case3 => exact h.modBank

theorem Keeps.verify (h : Keeps s₀ s) : Keeps s₀ s.verify.1 := .iteFst (.mkFst h.verifyStage) (.mkFst h)
theorem Keeps.scanEnds (h : Keeps s₀ s) : Keeps s₀ s.scanEnds := .ite h.verifyStage.modRonbin h
theorem Keeps.bankErased (h : Keeps s₀ s) : Keeps s₀ s.bankErased := h.modRonbin.refill.scanEnds

theorem Keeps.programPiece (h : Keeps s₀ s) : Keeps s₀ s.programPiece := by
  fun_cases State.programPiece s with
  | case1 | case2 => exact h
  | case3 => exact h.modRonbin.modBank.refill.scanEnds

theorem Keeps.cardEmpty (h : Keeps s₀ s) : Keeps s₀ s.cardEmpty := by
  fun_cases State.cardEmpty s with
  | case1 | case2 => exact h.modRonbin.pieceBad.modBank
  | case3 => exact h.modRonbin.pieceBad

theorem Keeps.scanCard (h : Keeps s₀ s) {files} : Keeps s₀ (s.scanCard files) := by
  fun_cases State.scanCard s files with
  | case1 | case2 => exact h.cardEmpty
  | case3 => exact h.openStage.modRonbin

theorem Keeps.cardScan (h : Keeps s₀ s) {files} : Keeps s₀ (s.cardScan files).1 := .iteFst (.mkFst h) (.mkFst h.scanCard)
theorem Keeps.cardRemoved (h : Keeps s₀ s) : Keeps s₀ s.cardRemoved := .ite h.dropStage.modRonbin.pieceBad h.modRonbin
theorem Keeps.ronbinRestart (h : Keeps s₀ s) {k} : Keeps s₀ (s.ronbinRestart k) := h.tear.closeSessions.modRonbin

theorem Keeps.confirmBank (h : Keeps s₀ s) {k} : Keeps s₀ (s.confirmBank k) := by
  unfold State.confirmBank
  with_reducible exact .modFlash (.modBank (.ite h.modBank h))

theorem Keeps.activate (h : Keeps s₀ s) : Keeps s₀ s.activate := by
  fun_cases State.activate s with
  | case1 _ _ s1 =>
    have h1 : Keeps s₀ s1 := by
      dsimp only [s1]
      split
      · exact h.confirmBank.modBank
      · exact h.confirmBank
    exact h1.modRonbin
  | case2 => exact h.modBank.ronbinRestart

theorem Keeps.imgActivate (h : Keeps s₀ s) : Keeps s₀ s.imgActivate.1 :=
  .iteFst (.mkFst h) (.iteFst (.mkFst h) (.iteFst (.mkFst h.modRonbin.imageEvent) (.mkFst h.activate)))

theorem Keeps.deferredActivation (h : Keeps s₀ s) : Keeps s₀ s.deferredActivation := .ite h.activate h

theorem Keeps.trialEnds (h : Keeps s₀ s) {reason secs} : Keeps s₀ (s.trialEnds reason secs) := by
  fun_cases State.trialEnds s reason secs with
  | case1 => exact h
  | case2 => exact h.imageEvent.modBank.ronbinRestart
  | case3 => exact h.imageEvent.modBank.modRonbin

theorem Keeps.imgFallback (h : Keeps s₀ s) : Keeps s₀ s.imgFallback.1 := .iteFst (.mkFst h.trialEnds) (.mkFst h)

theorem Keeps.imgConfirm (h : Keeps s₀ s) : Keeps s₀ s.imgConfirm.1 := by
  fun_cases State.imgConfirm s with
  | case1 => exact .mkFst h.confirmBank
  | case2 => exact .mkFst h

theorem Keeps.romOnly (h : Keeps s₀ s) : Keeps s₀ s.romOnly := .ite h (.forEach h.closeAll.setFld fun h => h.portOff)
theorem Keeps.recover (h : Keeps s₀ s) {files} : Keeps s₀ (s.recover files) := h.modRonbin.romOnly.scanCard
theorem Keeps.raiseCut (h : Keeps s₀ s) {k} : Keeps s₀ (s.raiseCut k) := .ite h.modBank.imageEvent h
theorem Keeps.imageRuns (h : Keeps s₀ s) {k} : Keeps s₀ (s.imageRuns k) := h.modRonbin.raiseCut.raiseCut
theorem Keeps.ronbinRuns (h : Keeps s₀ s) {k} : Keeps s₀ (s.ronbinRuns k) := h.setFuncReady.imageRuns

theorem Keeps.cutTrial (h : Keeps s₀ s) : Keeps s₀ s.cutTrial := by
  fun_cases State.cutTrial s with
  | case1 => exact h.modBank
  | case2 => exact h

theorem Keeps.ronbinBoot (h : Keeps s₀ s) {a b files} : Keeps s₀ (s.ronbinBoot a b files) := by
  fun_cases State.ronbinBoot s a b files with
  | case1 => exact h.fuseTurn.repairBank.repairBank.cutTrial.ronbinRuns
  | case2 s1 _ _ _ _ _ s2 =>
    have h1 : Keeps s₀ s1 := h.fuseTurn.repairBank.repairBank.cutTrial
    have h2 : Keeps s₀ s2 := by
      dsimp only [s2]
      split
      · exact h1.modBank
      · exact h1
    exact h2.modBank.modFlash.ronbinRuns
  | case3 => exact h.fuseTurn.repairBank.repairBank.cutTrial.modRonbin.recover

theorem Keeps.ronbinRestarted (h : Keeps s₀ s) {a b x} : Keeps s₀ (s.ronbinRestarted a b x) := by
  fun_cases State.ronbinRestarted s a b x with
  | case1 => exact h
  | case2 => exact h.repairBank.repairBank.setCalSlot.modRonbin.imageRuns
  | case3 => exact h.repairBank.repairBank.trialEnds
  | case4 => exact h.repairBank.repairBank.modRonbin.imageRuns
  | case5 => exact h.repairBank.repairBank.modRonbin.ronbinBoot

/-! ### Recover -/

theorem Keeps.setUnit (h : Keeps s₀ s) {f fn i v} : Keeps s₀ (s.setUnit f fn i v) := h.setBit.setFuncReady
theorem Keeps.markStale (h : Keeps s₀ s) {fn} : Keeps s₀ (s.markStale fn) := h.setObj
theorem Keeps.readyUnit (h : Keeps s₀ s) {f fn i} : Keeps s₀ (s.readyUnit f fn i) := .ite h.setUnit h

theorem Keeps.dropWatches (h : Keeps s₀ s) {p} : Keeps s₀ (s.dropWatches p) := by
  unfold State.dropWatches
  extract_lets _ s1 s2
  have h1 : Keeps s₀ s1 := .forEach h fun h => .ite h.modTile h
  have h2 : Keeps s₀ s2 := .forEach h1 fun h => h.answerTo
  exact .forEach h2 fun h => h.recordAccess.threadFault

theorem Keeps.forgetThreads (h : Keeps s₀ s) {p} : Keeps s₀ (s.forgetThreads p) := h.update
theorem Keeps.flagSteps (h : Keeps s₀ s) : Keeps s₀ s.flagSteps := .forEach h fun h => .ite h.modCtx h

theorem Keeps.resetDie (h : Keeps s₀ s) {d} : Keeps s₀ (s.resetDie d) := by
  unfold State.resetDie
  extract_lets _ _ _ s1 s2 s3 s4 s5
  have h1 : Keeps s₀ s1 := .forEach h.flagSteps fun h => h.leaveWait
  have h3 : Keeps s₀ s3 := h1.dropWatches.forgetThreads
  have h5 : Keeps s₀ s5 := h3.emptySlices.dropRegs.dropMem
  exact h5.update

theorem Keeps.hamperDefaults (h : Keeps s₀ s) {c} : Keeps s₀ (s.hamperDefaults c) := h.setObj.setObj.setObj.setObj

theorem Keeps.resetCtx (h : Keeps s₀ s) {c} : Keeps s₀ (s.resetCtx c) := by
  unfold State.resetCtx
  extract_lets _ s1 s2 s3 s4 s5 s6 s7 s8 s9 s10 s11 s12
  have h1 : Keeps s₀ s1 := .forEach h fun h => h.leaveWait.setThread.dropRegs
  have h3 : Keeps s₀ s3 := h1.dropWatches.dropRegs.dropMem
  have h4 : Keeps s₀ s4 := .forEach h3 fun h => h.unreserve
  have h5 : Keeps s₀ s5 := .forEach h4 fun h => h.modTile
  have h7 : Keeps s₀ s7 := .forEach h5.update fun h => h.rootAbandon
  have h8 : Keeps s₀ s8 := .forEach h7 fun h => h.setLayerState.setLayerUse.setLayerAge
  have h9 : Keeps s₀ s9 := .forEach h8 fun h => h.finishOne
  have h11 : Keeps s₀ s11 := .forEach h9.intakeReset.genReset fun h => h.finishOne
  exact h11.dropRegs.hamperDefaults.setCtx.markStale

theorem Keeps.resetPort (h : Keeps s₀ s) {p} : Keeps s₀ (s.resetPort p) := by
  unfold State.resetPort
  extract_lets _ s1 s2
  have h2 : Keeps s₀ s2 := by
    refine .forEach h.modPort fun {s q} h => ?_
    have owed : Keeps s₀ (match q.held with | some (a, v) => s.oweCredit a v | none => s) := by
      split
      · exact h.oweCredit
      · exact h
    exact .ite owed.answerError owed
  exact .ite h2.startTraining h2

theorem Keeps.resetRoot (h : Keeps s₀ s) {e} : Keeps s₀ (s.resetRoot e) := h.dropRegs.dropMem.update.setRoot
theorem Keeps.resetLark (h : Keeps s₀ s) : Keeps s₀ s.resetLark := h.dropRegs.update.setLarkState
theorem Keeps.dropReset (h : Keeps s₀ s) {x} : Keeps s₀ (s.dropReset x) := h.update
theorem Keeps.putReset (h : Keeps s₀ s) {x} : Keeps s₀ (s.putReset x) := h.update

theorem Keeps.resetEnds (h : Keeps s₀ s) {x} : Keeps s₀ (s.resetEnds x) :=
  .forEach h.dropReset.setFld.setFld.setFld.setBit fun h => h.finish

theorem Keeps.applyReset (h : Keeps s₀ s) {x} : Keeps s₀ (s.applyReset x) := by
  fun_cases State.applyReset s x with
  | case1 => exact h.putReset.setUnit.setUnit.resetDie.markStale.markStale
  | case2 => exact h.putReset.setUnit.modBring.markStale.dropMem.update
  | case3 => exact .markStale (.forEach h.putReset.closeAll fun h => h.resetPort)
  | case4 => exact h.putReset.resetPort.markStale
  | case5 => exact h.putReset.setUnit.resetRoot.markStale
  | case6 => exact .markStale (.forEach h.putReset.setFuncReady fun h => h.noteCycle)
  | case7 => exact h.putReset.setUnit.resetCtx.readyUnit.resetEnds
  | case8 => exact h.putReset.setUnit.resetCtx.readyUnit
  | case9 => exact h.putReset

theorem Keeps.stopDie (h : Keeps s₀ s) {d} : Keeps s₀ (s.stopDie d) := .forEach h fun h => h.stopThread

theorem Keeps.startReset (h : Keeps s₀ s) {x} : Keeps s₀ (s.startReset x) := by
  fun_cases State.startReset s x with
  | case1 => exact h.update.setBit.bump.stopDie
  | case2 => exact h.update.setBit.bump.resetLark.markStale.resetEnds
  | case3 => exact h.update.setBit.bump.restartRequest.markStale
  | case4 => exact h.update.setBit.bump.markStale.resetEnds
  | case5 => exact h.update.setBit.bump.rootDrain
  | case6 => exact h.update.setBit.bump
  | case7 => exact .stopThreads (.modCtx (.ite h.update.setBit.bump.arriveAbsent h.update.setBit.bump))
  | case8 => exact h.update.setBit.bump.applyReset

theorem Keeps.optRestart (h : Keeps s₀ s) {src} : Keeps s₀ (s.optRestart src) := h.modBring.bump.setReg.setFld.setFld

theorem Keeps.requestReset (h : Keeps s₀ s) {func unit cmds} : Keeps s₀ (s.requestReset func unit cmds).1 := by
  fun_cases State.requestReset s func unit cmds with
  | case1 | case3 | case4 => exact .mkFst h
  | case2 => exact .mkFst h.optRestart
  | case5 => exact .mkFst h.putReset
  | case6 => exact .mkFst h.startReset

theorem Keeps.ringReset (h : Keeps s₀ s) {r c func unit} : Keeps s₀ (s.ringReset r c func unit) := by
  fun_cases State.ringReset s r c func unit
  case case1 e => exact h.requestReset.fst e
  case case2 e => exact (h.requestReset.fst e).finish

theorem Keeps.frstGo (h : Keeps s₀ s) {func unit} : Keeps s₀ (s.frstGo func unit) := by
  fun_cases State.frstGo s func unit
  case case1 e => exact h.requestReset.fst e
  case case2 e => exact (h.requestReset.fst e).setFld

theorem Keeps.frstWrite (h : Keeps s₀ s) {v} : Keeps s₀ (s.frstWrite v) := .ite h.setFld.setFld.frstGo h.setFld.setFld

theorem Keeps.resetObject (h : Keeps s₀ s) {v} : Keeps s₀ (s.resetObject v).1 := by
  fun_cases State.resetObject s v
  case case1 e => exact .mkFst (h.requestReset.fst e)
  case case2 e => exact .mkFst (h.requestReset.fst e)

theorem Keeps.drainIdle (h : Keeps s₀ s) {func unit} : Keeps s₀ (s.drainIdle func unit) := by
  fun_cases State.drainIdle s func unit with
  | case1 => exact h.applyReset
  | case2 | case3 => exact h

theorem Keeps.drainExpires (h : Keeps s₀ s) {func unit} : Keeps s₀ (s.drainExpires func unit) := by
  fun_cases State.drainExpires s func unit with
  | case1 | case3 => exact h
  | case2 => exact h.bump.raise.putReset.applyReset

theorem Keeps.selfTest (h : Keeps s₀ s) {d failed scale} : Keeps s₀ (s.selfTest d failed scale) := h.update

theorem Keeps.resetReady (h : Keeps s₀ s) {func unit failed scale} : Keeps s₀ (s.resetReady func unit failed scale) := by
  fun_cases State.resetReady s func unit failed scale with
  | case1 | case2 | case6 | case9 => exact h
  | case3 => exact .resetEnds (.ite h.selfTest.readyUnit h.selfTest.readyUnit.readyUnit)
  | case4 => exact h.modBring.setUnit.resetEnds
  | case5 => exact h.resetEnds
  | case7 => exact h.readyUnit.rootReady.dmaWake.resetEnds
  | case8 => exact .resetEnds (.ite h.setFuncReady h)

theorem Keeps.rescan (h : Keeps s₀ s) {r} : Keeps s₀ (s.rescan r) :=
  .skipBad (.settleRing (.forEach h.setRing fun h => .ite h.ringReset h.ringReset))

theorem Keeps.stepLost (h : Keeps s₀ s) {c} : Keeps s₀ (s.stepLost c) := by
  fun_cases State.stepLost s c with
  | case1 | case4 => exact h.arriveAbsent
  | case2 | case5 => exact h
  | case3 => exact h.modCtx

theorem Keeps.ledgerAgain (h : Keeps s₀ s) : Keeps s₀ s.ledgerAgain := .forEach h fun h => h.modPort
theorem Keeps.rootsResume (h : Keeps s₀ s) : Keeps s₀ s.rootsResume := .forEach (.forEach h fun h => h.modCtx) fun h => h.rootReady

theorem Keeps.coreResumes (h : Keeps s₀ s) {n} : Keeps s₀ (s.coreResumes n) := by
  fun_cases State.coreResumes s n with
  | case1 => exact .forEach h fun h => h.rescan
  | case2 => exact .publishRetry (.ledgerAgain (.forEach h.setBit fun h => h.modCtx))
  | case3 => exact .forEach h fun h => h.stepLost
  | case4 => exact h.rootsResume.rootsFeed
  | case5 => exact h.modBoot.conDrain
  | case6 => exact h

theorem Keeps.coreInit (h : Keeps s₀ s) {n} : Keeps s₀ (s.coreInit n) := by
  unfold State.coreInit
  extract_lets _
  split
  · exact h
  next s2 s3 s4 s5 _ =>
    have h2 : Keeps s₀ s2 := .ite h.setFld.setCoreReady.setBit h.setFld.setCoreReady
    have h3 : Keeps s₀ s3 := .ite (.forEach h2 fun h => h.rootReady) h2
    have h4 : Keeps s₀ s4 := .ite h3.setFld.setReg h3
    have h5 : Keeps s₀ s5 := .forEach (.ite h4.coreResumes h4) fun h => h.startGoes
    split
    · exact h5.resetEnds
    · exact h5

/-! ### Reset -/

theorem Keeps.noteRun (h : Keeps s₀ s) : Keeps s₀ s.noteRun := by
  fun_cases State.noteRun s with
  | case1 => exact h.modBank
  | case2 => exact h

theorem Keeps.coldStart {old : State} (h : Keeps s₀ old) {src} : Keeps s₀ (old.coldStart src) := by
  unfold State.coldStart
  extract_lets old' power _ s1 s2 s3 s4 s5
  have h1 : Keeps s₀ s1 := ⟨h.tear.noteRun.pending, fun _ => ⟨rfl, rfl⟩⟩
  have h3 : Keeps s₀ s3 := .ite h1.setReg.setFld h1.setReg.setFld.setFld
  exact .ite h3 (.forEach h3.setFld.setReg.bump.setReg fun h => h.raise)

theorem Keeps.isolate (h : Keeps s₀ s) : Keeps s₀ s.isolate := by
  unfold State.isolate
  extract_lets s1 s2 s3 s4 s5 s6
  have h1 : Keeps s₀ s1 := .forEach h fun h => h.setFuncReady
  have h2 : Keeps s₀ s2 := .forEach h1 fun h => h.setFld
  have h4 : Keeps s₀ s4 := .forEach h2.setObj.setObj fun h => h.modCtx
  have h5 : Keeps s₀ s5 := .forEach h4.setFld fun h => h.setFld
  exact h5.update.setBit.setBit.closeSession.closeSession

theorem Keeps.configReset (h : Keeps s₀ s) : Keeps s₀ s.configReset := h.dropRegs.update

theorem Keeps.warmBegin (h : Keeps s₀ s) {src} : Keeps s₀ (s.warmBegin src) :=
  .ite h.setFld.setFld.bump.isolate.modBring.configReset h.setFld.setFld.bump.isolate.modBring

theorem Keeps.clearMain (h : Keeps s₀ s) : Keeps s₀ s.clearMain :=
  .update (.forEach h.dropRegs.dropMem fun h => h.setObj.setObj.hamperDefaults)

theorem Keeps.warmClear (h : Keeps s₀ s) : Keeps s₀ s.warmClear := by
  unfold State.warmClear
  extract_lets s1 s2
  have h1 : Keeps s₀ s1 := h.clearMain.logUnhandle.modBring
  have h2 : Keeps s₀ s2 := .ite h1.setFld h1
  exact .forEach h2 fun h => h.setFld

theorem Keeps.resetAny (h : Keeps s₀ s) {src} : Keeps s₀ (s.resetAny src) :=
  .ite h (.ite h.optRestart (.ite (.ite h h.coldStart) (.ite h.warmBegin h)))

theorem Keeps.powerOn (h : Keeps s₀ s) : Keeps s₀ s.powerOn := .ite h.modBring.optRestart h.modBring.coldStart
theorem Keeps.railOut (h : Keeps s₀ s) {aux} : Keeps s₀ (s.railOut aux) := .ite h.modBring.setFld.optRestart h.modBring.coldStart
theorem Keeps.warmReq (h : Keeps s₀ s) : Keeps s₀ s.warmReq := h.resetAny

theorem Keeps.dopReset (h : Keeps s₀ s) : Keeps s₀ s.dopReset := by
  fun_cases State.dopReset s with
  | case1 | case2 => exact h.modRonbin.resetAny
  | case3 => exact h.modRonbin

theorem Keeps.stepTwo (h : Keeps s₀ s) {a b files} : Keeps s₀ (s.stepTwo a b files) := .ite h.ronbinBoot.modBring h
theorem Keeps.coldSteps (h : Keeps s₀ s) {a b cool files} : Keeps s₀ (s.coldSteps a b cool files) := .ite h.stepTwo.modBring h.stepTwo
theorem Keeps.release (h : Keeps s₀ s) : Keeps s₀ s.release := .ite h.modBring h

theorem Keeps.latchStraps (h : Keeps s₀ s) {pins files} : Keeps s₀ (s.latchStraps pins files) := by
  fun_cases State.latchStraps s pins files with
  | case1 => exact h
  | case2 => exact .recover (.ite h.setFld.setFld.setFld.modBring.update h.setFld.setFld.setFld.modBring)
  | case3 => exact .ite h.setFld.setFld.setFld.modBring.update h.setFld.setFld.setFld.modBring

theorem Keeps.stepFour (h : Keeps s₀ s) : Keeps s₀ s.stepFour := by
  fun_cases State.stepFour s with
  | case1 => exact h
  | case2 => exact .forEach (.forEach h.modBring.setFuncReady.setFld fun h => h.setFld) fun h => h.setFld
  | case3 => exact .forEach h.modBring.setFuncReady.setFld fun h => h.setFld

theorem Keeps.linkBringup (h : Keeps s₀ s) {good} : Keeps s₀ (s.linkBringup good) := by
  fun_cases State.linkBringup s good with
  | case1 => exact h
  | case2 => exact .noteLinks (.forEach h fun h => .ite (.foldl h.startTraining (fun h => h.trainStep)) h.startTraining.trainBudget)

theorem Keeps.hbmTrain (h : Keeps s₀ s) {st ok} : Keeps s₀ (s.hbmTrain st ok) := .ite h h.modBring
theorem Keeps.hbmScrub (h : Keeps s₀ s) {st} : Keeps s₀ (s.hbmScrub st) := .ite h h.dropMem.update.setUnit
theorem Keeps.romChecks (h : Keeps s₀ s) : Keeps s₀ s.romChecks := .ite h.setFld h
theorem Keeps.selfTests (h : Keeps s₀ s) {dies failed scale} : Keeps s₀ (s.selfTests dies failed scale) := .forEach h fun h => h.selfTest

theorem Keeps.tilesUp (h : Keeps s₀ s) {failed scale} : Keeps s₀ (s.tilesUp failed scale) := by
  fun_cases State.tilesUp s failed scale
  case case1 => exact h
  case case2 => exact h.selfTests.modBring.modBring
  case case3 s2 _ s3 s4 =>
    have h2 : Keeps s₀ s2 := h.selfTests.modBring.modBring
    have h3 : Keeps s₀ s3 := by
      refine .forEach h2 fun {s d} h => ?_
      have root : Keeps s₀ (if (s.findReset 0x08 d).isSome then s else (s.setUnit F.unitReady.root 8 d true).rootReady d) :=
        .ite h h.setUnit.rootReady
      exact .ite root (.ite root.setUnit root.setUnit.setUnit)
    have h4 : Keeps s₀ s4 := .ite h3 h3.setFuncReady
    exact .forEach h4 fun h => h.setUnit

theorem Keeps.selfTestRun (h : Keeps s₀ s) {dies failed scale} : Keeps s₀ (s.selfTestRun dies failed scale).1 :=
  .iteFst (.mkFst h) (.iteFst (.mkFst h) (.mkFst h.selfTests))

theorem Keeps.phaseC (h : Keeps s₀ s) : Keeps s₀ s.phaseC := h.setFld.setFld.pinsJudge.modBring.conDrain
theorem Keeps.phaseBEnd (h : Keeps s₀ s) : Keeps s₀ s.phaseBEnd := .ite h.phaseC h
theorem Keeps.phaseBLimit (h : Keeps s₀ s) : Keeps s₀ s.phaseBLimit := .ite h (.ite h.phaseC h.setBit.phaseC.raise)
theorem Keeps.aliveToggle (h : Keeps s₀ s) : Keeps s₀ s.aliveToggle := .ite h h.modBring.send

theorem Keeps.coordSet (h : Keeps s₀ s) {v} : Keeps s₀ (s.coordSet v).1 :=
  .iteFst (.mkFst h) (.iteFst (.mkFst h) (.iteFst (.mkFst h) (.mkFst h.setObj.setObj.update)))

theorem Keeps.shutDown (h : Keeps s₀ s) {bits sensor byTime} : Keeps s₀ (s.shutDown bits sensor byTime) := by
  fun_cases State.shutDown s bits sensor byTime
  case case1 => exact h
  case case2 s2 _ s4 s5 _ s7 =>
    have h2 : Keeps s₀ s2 := h.emergencyEvent.setFld.setFld.setBit
    have h4 : Keeps s₀ s4 := h2.closeAll.setFld.isolate.clearMain.dropRegs
    have h5 : Keeps s₀ s5 := h4.setFuncReady.setFuncReady
    have h7 : Keeps s₀ s7 := h5.setFld.dropMem.update
    exact h7.modBring

/-! ### RegView -/

theorem Keeps.regRead (h : Keeps s₀ s) {k} : Keeps s₀ (s.regRead k).2 := .iteSnd h.measure (.mkSnd h)

theorem Keeps.plainWrite (h : Keeps s₀ s) {k v} : Keeps s₀ (s.plainWrite k v) := by
  fun_cases State.plainWrite s k v with
  | case1 => exact h.setReg
  | case2 => exact h

theorem Keeps.putRange (h : Keeps s₀ s) {f lo hi v} : Keeps s₀ (s.putRange f lo hi v) := .ite h.setFld h

theorem Keeps.tileWrite (h : Keeps s₀ s) {k v} : Keeps s₀ (s.tileWrite k v) := by
  fun_cases State.tileWrite s k v with
  | case1 => exact h.writeThreadCtl
  | case2 | case3 => exact h.protectedWrite
  | case4 => exact h
  | case5 => exact h.syncSet
  | case6 => exact h.plainWrite

theorem Keeps.rootRegWrite (h : Keeps s₀ s) {e off k v} : Keeps s₀ (s.rootRegWrite e off k v) := by
  fun_cases State.rootRegWrite s e off k v with
  | case1 => exact .rootAbandon (.ite h.setFld.rootEnable.rootDrain h.setFld.rootEnable)
  | case2 => exact .ite h.setFld.rootEnable.rootDrain h.setFld.rootEnable
  | case3 => exact h.putRange.rootFeed
  | case4 => exact h.plainWrite

theorem Keeps.portCtlWrite (h : Keeps s₀ s) {p v} : Keeps s₀ (s.portCtlWrite p v) := by
  unfold State.portCtlWrite
  extract_lets _ s2 s3
  have h2 : Keeps s₀ s2 := .ite h.portEnable.setBit.clearCounters h.portEnable.setBit
  have h3 : Keeps s₀ s3 := .ite h2 h2.reinsertArm
  exact .ite h3.retrain h3

theorem Keeps.vcBufWrite (h : Keeps s₀ s) {p v n} : Keeps s₀ (s.vcBufWrite p v n) := .ite h h.setFld
theorem Keeps.stileCtlWrite (h : Keeps s₀ s) {v} : Keeps s₀ (s.stileCtlWrite v) := h.stileClose.stileAck.stileOpen

theorem Keeps.torusWrite (h : Keeps s₀ s) {k v} : Keeps s₀ (s.torusWrite k v) :=
  .ite (.ite h.portCtlWrite (.ite h.vcBufWrite h)) (.ite h.stileCtlWrite h.plainWrite)

theorem Keeps.larkWrite (h : Keeps s₀ s) {k v} : Keeps s₀ (s.larkWrite k v) := by
  fun_cases State.larkWrite s k v with
  | case1 => exact h.setBit.setBit.larkGm
  | case2 => exact h.plainWrite.gmPlace
  | case3 => exact h.larkSet
  | case4 => exact h.setReg
  | case5 | case10 => exact h
  | case6 | case7 | case8 => exact h.putRange
  | case9 => exact h.plainWrite.fcEnable
  | case11 | case14 => exact h.plainWrite
  | case12 => exact h.resSwap
  | case13 => exact h.snapWrite

theorem Keeps.powerWrite (h : Keeps s₀ s) {k v} : Keeps s₀ (s.powerWrite k v) := by
  fun_cases State.powerWrite s k v with
  | case1 => exact h.warmReq
  | case2 => exact h
  | case3 => exact h.frstWrite
  | case4 => exact h.putRange
  | case5 => exact h.pinCtlWrite
  | case6 => exact h.throttleCtlWrite
  | case7 => exact h.plainWrite

theorem Keeps.logWrite (h : Keeps s₀ s) {k v} : Keeps s₀ (s.logWrite k v) :=
  .ite h.setReg (.ite h.logRaise (.ite h.fenceCtlWrite h.plainWrite))

theorem Keeps.fwWrite (h : Keeps s₀ s) {k v} : Keeps s₀ (s.fwWrite k v) := by
  fun_cases State.fwWrite s k v with
  | case1 => exact .restartRequest (.ite h h.coreHold)
  | case2 => exact .ite h h.coreHold
  | case3 | case5 => exact h.setBit.putRange
  | case4 => exact h
  | case6 => exact h.conCtlWrite
  | case7 => exact h.plainWrite

theorem Keeps.sweepWrite (h : Keeps s₀ s) {k v} : Keeps s₀ (s.sweepWrite k v) := by
  fun_cases State.sweepWrite s k v with
  | case1 => exact h.sweepStepWrite
  | case2 => exact h.shardTableWrite
  | case3 => exact h.plainWrite.clearSkew
  | case4 | case5 => exact h.plainWrite

theorem Keeps.ctxWrite (h : Keeps s₀ s) {k v} : Keeps s₀ (s.ctxWrite k v) := by
  fun_cases State.ctxWrite s k v with
  | case1 => exact h.segWrite
  | case2 => exact h.hamperCfgWrite
  | case3 => exact h.hamperSpillBaseWrite
  | case4 => exact h.discard
  | case5 | case8 => exact h
  | case6 => exact h.ctxCutsWrite
  | case7 => exact h.qCfgWrite
  | case9 => exact h.plainWrite

theorem Keeps.thermosWrite (h : Keeps s₀ s) {k v} : Keeps s₀ (s.thermosWrite k v) := .ite h.setBit.putRange h.plainWrite

theorem Keeps.bar0Write (h : Keeps s₀ s) {k v} : Keeps s₀ (s.bar0Write k v) := by
  fun_cases State.bar0Write s k v with
  | case1 => exact h.plainWrite.firePending
  | case2 => exact h.bar2SelWrite
  | case3 => exact h.bootLoad
  | case4 => exact h.warmReq
  | case5 => exact h
  | case6 => exact h.dbCmd
  | case7 => exact h.dbCq
  | case8 => exact h.dbEq
  | case9 => exact h.plainWrite

theorem Keeps.regWrite (h : Keeps s₀ s) {k v} : Keeps s₀ (s.regWrite k v) := by
  fun_cases State.regWrite s k v with
  | case1 => exact h.tileWrite
  | case2 => exact h.rootRegWrite
  | case3 => exact h.bar0Write
  | case4 => exact h.torusWrite
  | case5 => exact h.larkWrite
  | case6 => exact h.powerWrite
  | case7 => exact h.logWrite
  | case8 => exact h.fwWrite
  | case9 => exact h.sweepWrite
  | case10 => exact h.ctxWrite
  | case11 => exact h.thermosWrite
  | case12 => exact h.plainWrite

/-! ### Dict -/

theorem Keeps.objRead (h : Keeps s₀ s) {sn k d} : Keeps s₀ (s.objRead sn k d).2 := by
  fun_cases State.objRead s sn k d
  case case1 e1 => exact .mkSnd (h.free.snd e1)
  case case2 e => exact .mkSnd (h.free.snd e)
  case case3 | case4 | case5 | case6 | case8 => exact .mkSnd h
  case case7 e1 _ _ => exact .mkSnd (h.regRead.snd e1)

theorem Keeps.fieldWrite (h : Keeps s₀ s) {f v} : Keeps s₀ (s.fieldWrite f v) := by
  fun_cases State.fieldWrite s f v with
  | case1 => exact h.regWrite
  | case2 => exact h

theorem Keeps.withCheck (h : Keeps s₀ s) {op : State → State} (hop : ∀ {s}, Keeps s₀ s → Keeps s₀ (op s)) {f} :
    Keeps s₀ (s.withCheck f op).1 :=
  .mkFst (.ite (hop h.setBit).setBit (hop h.setBit))

theorem Keeps.objApplyImage (h : Keeps s₀ s) {sn k v env} : Keeps s₀ (s.objApplyImage sn k v env).1 := by
  fun_cases State.objApplyImage s sn k v env with
  | case1 => exact h.stageBegin
  | case2 | case3 => exact .mkFst h.modSession
  | case4 => exact h.piece
  | case5 => exact .mkFst h.stageAbort
  | case6 => exact h.verify
  | case7 => exact h.imgActivate
  | case8 => exact h.imgConfirm
  | case9 => exact h.imgFallback
  | case10 => exact h.cardScan
  | case11 => exact .mkFst h

theorem Keeps.objApplyTorus (h : Keeps s₀ s) {k d i v} : Keeps s₀ (s.objApplyTorus k d i v).1 := by
  fun_cases State.objApplyTorus s k d i v with
  | case1 => exact .withCheck h.setObj fun h => h.stileClose
  | case2 => exact .withCheck h fun h => h.stileOpen
  | case3 => exact .mkFst h.stileAck
  | case4 => exact .mkFst (.forEach h fun h => .ite h h.reinsertArm)
  | case5 => exact .mkFst (.forEach h fun h => h.setFld)
  | case6 => exact .withCheck h fun h => h.fcEnable
  | case7 => exact .withCheck h fun h => h.snapWrite
  | case8 => exact .withCheck h.setObj fun h => h.resSwap
  | case9 => exact .mkFst h.larkSet
  | case10 => exact .mkFst h
  | case11 => exact h.coordSet
  | case12 => exact .mkFst h.fieldWrite
  | case13 => exact .mkFst h.setObj

theorem Keeps.epochWrite (h : Keeps s₀ s) {v} : Keeps s₀ (s.epochWrite v) := .ite h h.setObj.setObj

theorem Keeps.levelWrite (h : Keeps s₀ s) {sn v} : Keeps s₀ (s.levelWrite sn v).1 :=
  .iteFst (.mkFst h) (.iteFst (.mkFst h) (.mkFst h.modSession))

theorem Keeps.objApply (h : Keeps s₀ s) {sn k d v env} : Keeps s₀ (s.objApply sn k d v env).1 := by
  fun_cases State.objApply s sn k d v env
  case case1 => exact h.levelWrite
  case case2 => exact .mkFst h.epochWrite
  case case3 => exact h.objApplyImage
  case case4 => exact h.objApplyTorus
  case case5 => exact .mkFst h.applyB
  case case6 => exact h.selfTestRun
  case case7 e1 => exact .mkFst (h.heathCommit.of e1)
  case case8 => exact .mkFst h
  case case9 => exact .mkFst h.regWrite
  case case10 | case11 => exact .mkFst (.forEach h fun h => h.fieldWrite)
  case case12 => exact .mkFst h.overflowClear
  case case13 e1 => exact .mkFst (h.fenceLevelWrite.fst e1)
  case case14 => exact h.resetObject
  case case15 => exact .mkFst h.faultRelease
  case case16 => exact .mkFst h.fieldWrite
  case case17 => exact .mkFst h.setObj

theorem Keeps.objStage (h : Keeps s₀ s) {k d v} : Keeps s₀ (s.objStage k d v) := .ite h.setBytes.setObj h.modCtx
theorem Keeps.objUnhold (h : Keeps s₀ s) {k d} : Keeps s₀ (s.objUnhold k d) := .ite h.modCtx h

theorem Keeps.objEnter (h : Keeps s₀ s) {sn k d v env} : Keeps s₀ (s.objEnter sn k d v env).1 :=
  .iteFst (.mkFst h.modCtx) (.iteFst (.mkFst h.objStage) h.objUnhold.objApply)

theorem Keeps.objTake (h : Keeps s₀ s) {sn k d v env} : Keeps s₀ (s.objTake sn k d v env).1 := .iteFst (.mkFst h) h.objEnter

theorem Keeps.applyDeferred (h : Keeps s₀ s) {f} : Keeps s₀ (s.applyDeferred f) := by
  unfold State.applyDeferred
  extract_lets _ s1
  refine .forEach h.modRonbin fun h => ?_
  split
  · exact h.objEnter
  · exact h

theorem Keeps.objDefer (h : Keeps s₀ s) {sn k d v env} : Keeps s₀ (s.objDefer sn k d v env).1 :=
  .iteFst (.mkFst h.objUnhold.modRonbin) (.mkFst h)

theorem Keeps.objSame (h : Keeps s₀ s) {k} : Keeps s₀ (s.objSame k) := .ite h.update h

theorem Keeps.objPut (h : Keeps s₀ s) {sn k d v env} : Keeps s₀ (s.objPut sn k d v env).1 :=
  .iteFst (.mkFst h.objSame) (.iteFst (.mkFst h) (.iteFst h.objDefer h.objTake))

theorem Keeps.objWrite (h : Keeps s₀ s) {sn k type raw env} : Keeps s₀ (s.objWrite sn k type raw env).1 := by
  fun_cases State.objWrite s sn k type raw env with
  | case1 => exact .mkFst h
  | case2 => exact h.objPut

theorem Keeps.objGet (h : Keeps s₀ s) {sn k long} : Keeps s₀ (s.objGet sn k long).2 := by
  fun_cases State.objGet s sn k long
  case case1 | case2 | case3 | case4 | case5 | case6 => exact .mkSnd h
  case case7 e1 => exact .mkSnd (h.objRead.snd e1)

theorem Keeps.objSet (h : Keeps s₀ s) {sn k v} : Keeps s₀ (s.objSet sn k v) := by
  fun_cases State.objSet s sn k v with
  | case1 => exact h.objPut
  | case2 => exact h

/-! ### Dop -/

theorem Keeps.countObj (h : Keeps s₀ s) {k} : Keeps s₀ (s.countObj k) := h.setObj
theorem Keeps.sendDop (h : Keeps s₀ s) {mac p} : Keeps s₀ (s.sendDop mac p) := h.send.countObj

theorem Keeps.sendResponse (h : Keeps s₀ s) {q p} : Keeps s₀ (s.sendResponse q p) := by
  fun_cases State.sendResponse s q p with
  | case1 => exact h.setBytes.setFld.setFld
  | case2 => exact h.sendDop

theorem Keeps.sessionFor (h : Keeps s₀ s) {q} : Keeps s₀ (s.sessionFor q).2 := by
  unfold State.sessionFor
  extract_lets s1
  refine .mkSnd (.modSession ?_)
  split
  · exact .mkSnd h.modRonbin
  · exact .mkSnd h.modRonbin
  · exact .mkSnd h.modRonbin.closeSession

theorem Keeps.keep (h : Keeps s₀ s) {q p} : Keeps s₀ (s.keep q p) := by
  fun_cases State.keep s q p with
  | case1 => exact h.modSession
  | case2 => exact h

theorem Keeps.popRequest (h : Keeps s₀ s) : Keeps s₀ s.popRequest := h.modRonbin

theorem Keeps.settleRequests (h : Keeps s₀ s) {n} : Keeps s₀ (s.settleRequests n) := by
  fun_induction State.settleRequests s n
  case case1 | case2 | case3 | case8 => exact h
  case case4 ih => exact ih h.popRequest.countObj
  case case5 ih => exact ih h.popRequest.countObj.sendResponse
  case case6 ih => exact ih h.popRequest.countObj
  case case7 ih => exact ih h.popRequest.sessionFor.countObj.sendResponse

theorem Keeps.settle (h : Keeps s₀ s) : Keeps s₀ s.settle := h.settleRequests
theorem Keeps.addRequest (h : Keeps s₀ s) {q} : Keeps s₀ (s.addRequest q) := h.modRonbin.settle

theorem Keeps.dopReceive (h : Keeps s₀ s) {dst src frame} : Keeps s₀ (s.dopReceive dst src frame) :=
  .ite h (.ite h.countObj (.ite h.countObj (.ite h (.ite h.countObj h.addRequest))))

theorem Keeps.mbxGo (h : Keeps s₀ s) {k} : Keeps s₀ (s.mbxGo k) := .ite h.setBit (.ite h.setFld h.setFld.addRequest)
theorem Keeps.closeTransfer (h : Keeps s₀ s) {sn} : Keeps s₀ (s.closeTransfer sn) := h.modSession

theorem Keeps.serveOp (h : Keeps s₀ s) {f : State → ℕ → ℕ → List Byte → Option (List Byte × State)}
    (hf : ∀ {s x1 x2 x3}, Keeps s₀ s → OnSome (fun p => Keeps s₀ p.2) (f s x1 x2 x3)) {op} : Keeps s₀ (s.serveOp op f) := by
  fun_cases State.serveOp s op f
  case case1 | case2 => exact h.settle
  case case3 e1 s3 _ s4 _ =>
    have h3 : Keeps s₀ s3 := (h.settle.popRequest.sessionFor.snd e1).modRonbin
    have h4 : Keeps s₀ s4 := .ite h3.countObj h3
    exact h4.sendResponse.keep.settle
  case case4 e1 s3 _ _ e2 s5 _ =>
    have h3 : Keeps s₀ s3 := (h.settle.popRequest.sessionFor.snd e1).modRonbin
    have h5 : Keeps s₀ s5 := .ite ((hf h3).of e2).countObj ((hf h3).of e2)
    exact h5.sendResponse.keep.settle

theorem Keeps.opRead (h : Keeps s₀ s) {sn b} : OnSome (fun p => Keeps s₀ p.2) (s.opRead sn b) := by
  fun_cases State.opRead s sn b
  case case1 => exact .none
  case case2 e => exact .mk (.mkSnd (h.objGet.snd e))

theorem Keeps.opWrite (h : Keeps s₀ s) {env sn b} : OnSome (fun p => Keeps s₀ p.2) (s.opWrite env sn b) := by
  fun_cases State.opWrite s env sn b
  case case1 e1 => exact .mk (.mkSnd (.fst (.iteFst (.mkFst h) h.objWrite) e1))
  case case2 => exact .none

theorem Keeps.readEntries (h : Keeps s₀ s) {sn sofar l} : Keeps s₀ (s.readEntries sn sofar l).2 := by
  fun_induction State.readEntries s sn sofar l
  case case1 => exact .mkSnd h
  case case2 e _ _ _ _ _ _ _ e3 ih => exact .mkSnd (.snd (ih (h.objGet.snd e)) e3)

theorem Keeps.opReadList (h : Keeps s₀ s) {sn b} : OnSome (fun p => Keeps s₀ p.2) (s.opReadList sn b) := by
  fun_cases State.opReadList s sn b
  case case1 => exact .none
  case case2 e => exact .mk (.mkSnd (h.readEntries.snd e))

theorem Keeps.writeItems (h : Keeps s₀ s) {env sn l} : Keeps s₀ (s.writeItems env sn l).2 := by
  fun_induction State.writeItems s env sn l
  case case1 => exact .mkSnd h
  case case2 e _ _ e1 ih => exact .mkSnd (.snd (ih (.fst (.iteFst (.mkFst h) h.objWrite) e)) e1)

theorem Keeps.opWriteList (h : Keeps s₀ s) {env sn b} : OnSome (fun p => Keeps s₀ p.2) (s.opWriteList env sn b) := by
  fun_cases State.opWriteList s env sn b
  case case1 e1 => exact .mk (.mkSnd (h.writeItems.snd e1))
  case case2 => exact .none

theorem Keeps.openTransfer (h : Keeps s₀ s) {sn t} : Keeps s₀ (s.openTransfer sn t) := h.modSession

theorem Keeps.opBlobRead (h : Keeps s₀ s) {sn tid b} : OnSome (fun p => Keeps s₀ p.2) (s.opBlobRead sn tid b) := by
  fun_cases State.opBlobRead s sn tid b
  case case1 => exact .none
  case case2 => exact .mk (.mkSnd h)
  case case3 e _ _ _ => exact .mk (.mkSnd (h.objGet.snd e).openTransfer)

theorem Keeps.opBlobWrite (h : Keeps s₀ s) {sn tid b} : OnSome (fun p => Keeps s₀ p.2) (s.opBlobWrite sn tid b) := by
  fun_cases State.opBlobWrite s sn tid b with
  | case1 => exact .none
  | case2 | case3 => exact .mk (.mkSnd h)
  | case4 => exact .mk (.mkSnd h.openTransfer)

theorem Keeps.segmentIn (h : Keeps s₀ s) {sn t seq data} : Keeps s₀ (s.segmentIn sn t seq data).2 :=
  .iteSnd (.mkSnd h.openTransfer) (.iteSnd (.mkSnd h.closeTransfer) (.mkSnd h.closeTransfer.objWrite))

theorem Keeps.segmentOut (h : Keeps s₀ s) {t seq} : Keeps s₀ (s.segmentOut t seq).2 := .iteSnd (.mkSnd h.free) (.mkSnd h.free)

theorem Keeps.opSegment (h : Keeps s₀ s) {sn b} : OnSome (fun p => Keeps s₀ p.2) (s.opSegment sn b) := by
  fun_cases State.opSegment s sn b with
  | case1 => exact .none
  | case2 | case5 => exact .mk (.mkSnd h)
  | case3 => exact .mk h.segmentIn
  | case4 => exact .mk h.segmentOut

theorem Keeps.opAbort (h : Keeps s₀ s) {sn b} : OnSome (fun p => Keeps s₀ p.2) (s.opAbort sn b) := by
  fun_cases State.opAbort s sn b with
  | case1 => exact .none
  | case2 => exact .mk (.mkSnd h.closeTransfer)
  | case3 | case4 => exact .mk (.mkSnd h)

theorem Keeps.opReset (h : Keeps s₀ s) {b} : OnSome (fun p => Keeps s₀ p.2) (s.opReset b) := by
  fun_cases State.opReset s b with
  | case1 => exact .none
  | case2 => exact .mk (.mkSnd h.modRonbin)
  | case3 => exact .mk (.mkSnd h)

theorem Keeps.sendNotice (h : Keeps s₀ s) : Keeps s₀ s.sendNotice := by
  fun_cases State.sendNotice s
  case case1 | case2 => exact h
  case case3 => exact h.update
  case case4 e2 _ _ => exact (h.update.free.snd e2).modRonbin.sendDop

/-! ### Bus -/

theorem Keeps.noteBadSram (h : Keeps s₀ s) {off} : Keeps s₀ (s.noteBadSram off) := by
  unfold State.noteBadSram
  with_reducible exact .ite h.bump h.bump.raise

theorem Keeps.wordRead (h : Keeps s₀ s) {off n} : Keeps s₀ (s.wordRead off n).2 := by
  fun_cases State.wordRead s off n
  case case1 | case5 | case7 | case8 | case9 | case10 => exact .mkSnd h
  case case2 => exact .mkSnd h.noteBadRead
  case case3 => exact .mkSnd h.noteBadSram
  case case4 e1 => exact .mkSnd (h.free.snd e1)
  case case6 e1 => exact .mkSnd (h.regRead.snd e1)

theorem Keeps.wordsRead (h : Keeps s₀ s) {n n1 n2} : Keeps s₀ (s.wordsRead n n1 n2).2 := by
  fun_induction State.wordsRead s n n1 n2
  case case1 | case2 => exact .mkSnd h
  case case3 e _ _ e1 ih => exact .mkSnd (.snd (ih (h.wordRead.snd e)) e1)

theorem Keeps.localRead (h : Keeps s₀ s) {off n} : Keeps s₀ (s.localRead off n).2 := by
  fun_cases State.localRead s off n with
  | case1 | case2 => exact .mkSnd h.noteBadRead
  | case3 => exact h.wordsRead

theorem Keeps.mbxCtlWrite (h : Keeps s₀ s) {k v} : Keeps s₀ (s.mbxCtlWrite k v) :=
  .ite (.mbxGo (.ite h.closeTransfer h)) (.ite h.closeTransfer h)

theorem Keeps.anyWrite (h : Keeps s₀ s) {k v} : Keeps s₀ (s.anyWrite k v) := .ite h.mbxCtlWrite (.ite h.mbxCtlWrite (.ite h h.regWrite))

theorem Keeps.wordWrite (h : Keeps s₀ s) {off bs} : Keeps s₀ (s.wordWrite off bs).1 := by
  fun_cases State.wordWrite s off bs with
  | case1 | case6 | case7 | case8 => exact .mkFst h
  | case2 => exact h.writeData
  | case3 => exact .mkFst (.ite h.setBytes.heal h)
  | case4 => exact .mkFst h.anyWrite
  | case5 => exact .mkFst (.forEach h fun h => h.setReg)

theorem Keeps.wordsWrite (h : Keeps s₀ s) {n n1 l} : Keeps s₀ (s.wordsWrite n n1 l).1 := by
  fun_induction State.wordsWrite s n n1 l
  case case1 | case2 => exact .mkFst h
  case case3 e _ _ e1 ih => exact .mkFst (.fst (ih (h.wordWrite.fst e)) e1)

theorem Keeps.localWrite (h : Keeps s₀ s) {off bs} : Keeps s₀ (s.localWrite off bs).1 := by
  fun_cases State.localWrite s off bs with
  | case1 | case2 => exact h.writeData
  | case3 => exact h.wordsWrite

theorem Keeps.bar2Read (h : Keeps s₀ s) {off n} : Keeps s₀ (s.bar2Read off n) := by
  fun_cases State.bar2Read s off n
  case case1 => exact h.send.errSummary.aerUnsupported
  case case2 e => exact (h.localRead.snd e).send
  case case3 e => exact (h.localRead.snd e).send.errSummary.aerUnsupported

theorem Keeps.bar2Write (h : Keeps s₀ s) {off bs} : Keeps s₀ (s.bar2Write off bs) := by
  fun_cases State.bar2Write s off bs with
  | case1 => exact h.bumpReg.errSummary
  | case2 _ _ e => exact h.localWrite.fst e
  | case3 _ _ e => exact (h.localWrite.fst e).bumpReg.errSummary

theorem Keeps.firmwareAccess (h : Keeps s₀ s) {a} : Keeps s₀ (s.firmwareAccess a) := by
  fun_cases State.firmwareAccess s a
  case case1 e1 => exact (h.localRead.snd e1).answerTo
  case case2 e1 => exact (h.localRead.snd e1).answerTo
  case case3 e => exact (h.localWrite.fst e).judgeArrival.answerTo
  case case4 e => exact (h.localWrite.fst e).answerTo

theorem Keeps.readTimesOut (h : Keeps s₀ s) {a} : Keeps s₀ (s.readTimesOut a) := by
  fun_cases State.readTimesOut s a with
  | case1 => exact h.chunkArrival
  | case2 => exact h.slowArrival
  | case3 => exact h.imageRead

theorem Keeps.completionTimeout (h : Keeps s₀ s) {q} : Keeps s₀ (s.completionTimeout q) := h.aerTimeout.readTimesOut

end Sys2Proof.Machine
end

section
/-! SUPPORT. What the commands and a step answer, and the statements about every step. -/

namespace Sys2Proof.Machine

/-! ### The commands -/

/-- `DRV_UP` of a driver whose host interface version does not match the module's (R10). -/
def Mismatch (s : State) (v : Word) : Prop :=
  v.getLsbD 0 = true ∧ versionsMatch (bitsAt v 32 32) (s.fld F.moduleVersions.hostIf) = false

/-- What a command may answer: a next state that keeps what `Keeps` says, or the fault of a mismatched `DRV_UP`. -/
def Settles (c : Instr) (s : State) (r : Result) : Prop :=
  (∃ u, r = .next u ∧ Keeps s u)
    ∨ r = .fault .versionMismatch ∧ ∃ v, (c = .hostReadyWrite v ∨ c = .registerWrite R.hostReady v) ∧ Mismatch s v

section
variable {c : Instr} {s : State}

theorem Settles.next {u : State} (h : Keeps s u) : Settles c s (.next u) := .inl ⟨u, rfl, h⟩

theorem State.hostReadyWrite_of_mismatch {v : Word} (h : Mismatch s v) : s.hostReadyWrite v = .fault .versionMismatch := by
  obtain ⟨hup, hver⟩ := h
  simp [State.hostReadyWrite, hup, hver]

theorem Settles.hostReadyWrite {v : Word} (hc : c = .hostReadyWrite v ∨ c = .registerWrite R.hostReady v) :
    Settles c s (s.hostReadyWrite v) := by
  by_cases h : Mismatch s v
  · exact .inr ⟨State.hostReadyWrite_of_mismatch h, v, hc, h⟩
  · have hver : ¬ (v.getLsbD 0 ∧ ¬ versionsMatch (bitsAt v 32 32) (s.fld F.moduleVersions.hostIf)) := by
      simpa [Mismatch] using h
    unfold State.hostReadyWrite
    rw [if_neg hver]
    exact .next (.forEach (Keeps.refl s).setReg.setObj fun h => h.skipBad)

theorem Settles.ite {p : Prop} {_ : Decidable p} {a b : Result} (ha : p → Settles c s a) (hb : ¬ p → Settles c s b) :
    Settles c s (if p then a else b) := by
  split
  case isTrue h => exact ha h
  case isFalse h => exact hb h

theorem Settles.execHostReadyWrite {v : Word} : Settles (.hostReadyWrite v) s (execHostReadyWrite v s) :=
  .ite (fun _ => .hostReadyWrite (.inl rfl)) fun _ => .next (.refl s)

theorem Settles.execRegisterWrite {k : Nat} {v : Word} : Settles (.registerWrite k v) s (execRegisterWrite k v s) := by
  unfold Machine.execRegisterWrite
  refine .ite (fun _ => .next (.ite (Keeps.refl s).wordWrite (.refl s))) fun _ => ?_
  refine .ite (fun _ => .next (.refl s)) fun _ => .ite (fun hk => ?_) fun _ => ?_
  · exact .hostReadyWrite (.inr (by rw [hk]))
  · exact .next (Keeps.refl s).anyWrite

theorem Settles.execHeathCommitStep {d : Fin 8} {v : Word} : Settles c s (execHeathCommitStep d v s) := by
  unfold Machine.execHeathCommitStep
  cases hu : s.heathCommit d v.toNat with
  | none => exact .next (.inDict (.refl s) (.refl s))
  | some u => exact .next (.inDict (.refl s) ((Keeps.refl s).heathCommit.of hu))

theorem Settles.execPeakPRead : Settles c s (execPeakPRead s) := by
  unfold Machine.execPeakPRead
  split
  next w u hu => exact .next ((Keeps.refl s).measure.snd hu).send

theorem Settles.execSwitchGen {r : Fin 8} : Settles c s (execSwitchGen r s) := by
  refine .next (.take (.refl s) fun {s _} h => ?_)
  cases hu : s.requestSwitch r with
  | none => exact h.finish
  | some u => exact (h.requestSwitch.of hu).finish

/-- Each command of chapters 3 to 17: what its row changes goes through operations that keep the tables. -/
theorem exec_settles (c : Instr) (s : State) : Settles c s (exec c s) := by
  have h := Keeps.refl s
  cases c with
  | hostReadyWrite v => exact .execHostReadyWrite
  | registerWrite k v => exact .execRegisterWrite
  | heathCommitStep d v => exact .execHeathCommitStep
  | peakPRead => exact .execPeakPRead
  | switchGen r => exact .execSwitchGen
  | load | load2d | store | store2d => exact .next (.issue h fun h => h.runMove)
  | loadPanel => exact .next (.issue h fun h => h.runPanel)
  | fill | gather | scatter | scatterAdd | push => exact .next (.issue h fun h => h.runDma)
  | mmaStart | mmaStep | mmaUnload => exact .next (.issue h fun h => h.runArray)
  | copy | fma | select => exact .next (.vecRow h fun h => h.runElems)
  | add | sub | mul | axpby | max | min => exact .next (.vecRow h fun h => h.arith2)
  | scale | abs | sign | relu | leakyRelu | tanh | sigmoid | elu | heathGate | gelu | silu | exp | recip | rsqrt =>
    exact .next (.vecRow h fun h => h.arith1)
  | rowMax | rowSum | rowSumsq => exact .next (.vecRow h fun h => h.runRows)
  | deriv => exact .next (.vecRow h fun h => h.runDeriv)
  | srBf16 => exact .next (.vecRow h fun h => h.runSr)
  | quant => exact .next (.vecRow h fun h => h.runQuant)
  | dequant => exact .next (.vecRow h fun h => h.runDequant)
  | check => exact .next (.vecRow h fun h => h.runCheck)
  | signalAdd | signalSet | signalMax | signalMin | signalOr | signalAnd | signalArm => exact .next (.issue h fun h => h.runSignal)
  | wait => exact .next (.issue h fun h => h.runWait)
  | waitTimeout => exact .next h.waitTimeout
  | watchRetry => exact .next h.watchRetry
  | arrive => exact .next (.issue h fun h => h.runArrive)
  | fence => exact .next (.issue h fun h => .drained h fun h => h.syncDone)
  | syncRead => exact .next (.issue h fun h => .onObject h fun h => h.setIx.syncDone)
  | loop => exact .next (.issue h fun h => h.runLoop)
  | branch => exact .next (.issue h fun h => h.runBranch)
  | jump => exact .next (.issue h fun h => h.jump)
  | call => exact .next (.issue h fun h => h.runCall)
  | ret => exact .next (.issue h fun h => h.runReturn)
  | halt => exact .next (.issue h fun h => h.runHalt)
  | yield | nop => exact .next (.issue h fun h => h.syncDone)
  | ixSet | ixAdd | time => exact .next (.issue h fun h => h.setIx.syncDone)
  | ixLoad => exact .next (.issue h fun h => h.runIxLoad)
  | pop => exact .next (.issue h fun h => h.runPop)
  | trace => exact .next (.issue h fun h => h.traceOut.syncDone)
  | event => exact .next (.issue h fun h => h.raise.syncDone)
  | asyncDescriptorComplete => exact .next h.pendCompletes
  | arrayPreemptSave => exact .next h.preemptSave
  | arrayRestore => exact .next h.arrayRestore
  | arrayClaimDiscard => exact .next h.discardClaims.arrayWake
  | threadStart | threadStop => exact .next h.writeThreadCtl
  | segWrite => exact .next h.segWrite
  | remoteAccessArrival => exact .next (.onArrived h fun h => h.remoteAccess)
  | remoteSyncOperation => exact .next (.onArrived h fun h => h.remoteSync)
  | firmwareAccessArrival => exact .next (.onArrived h fun h => h.firmwareAccess)
  | bar2Read => exact .next h.bar2Read
  | bar2Write => exact .next h.bar2Write
  | configurationRequest => exact .next (.ite h.configRequest h)
  | hamperCfgWrite => exact .next h.hamperCfgWrite
  | hamperSpillBaseWrite => exact .next h.hamperSpillBaseWrite
  | discard => exact .next h.discard
  | discardComplete => exact .next h.setBit
  | hamperSpillGranule => exact .next h.hamperSpill
  | prefetchRestore => exact .next h.prefetch
  | onDemandRestoreComplete => exact .next h.popArrives
  | rootEnable => exact .next (.ite h.rootEnable h)
  | rootDrain => exact .next (.ite h.rootDrain h)
  | rootAbandon => exact .next (.ite h.rootAbandon.dmaWake h)
  | rootQueueTailWrite => exact .next (.ite h.setFld h)
  | rootBlockStart => exact .next h.rootStart
  | rootCompute => exact .next h.rootCompute
  | rootWriteOut => exact .next h.rootWriteOut
  | rootBlockComplete => exact .next h.rootComplete
  | refreshStart => exact .next (.ite h.refresh h)
  | voteArrival => exact .next h.voteArrival
  | voteComplete => exact .next h.voteComplete
  | installBarrierComplete => exact .next h.installComplete
  | sweepStart => exact .next h.sweepStart
  | shardSwept => exact .next h.shardSwept
  | slowTierDataArrival => exact .next h.slowArrival
  | slowTierWriteBackComplete => exact .next h.slowWritten
  | digestCompareComplete => exact .next h.digestCompared
  | bisectionRoundComplete => exact .next h.bisected
  | runReadComplete => exact .next h.runsRead
  | commitArrival => exact .next h.commitArrival
  | commitBarrierComplete => exact .next h.commitComplete
  | queueRebase => exact .next h.queueRebase
  | clearSkew => exact .next h.clearSkew
  | sweepStepWrite => exact .next h.sweepStepWrite
  | ctxCutsWrite => exact .next h.ctxCutsWrite
  | qCfgWrite => exact .next h.qCfgWrite
  | portTrainingStep => exact .next h.trainStep
  | trainingLimitExpired => exact .next h.trainLimit
  | trainingBudgetExpired => exact .next h.trainBudget
  | trainingRetry => exact .next (.ite h.startTraining h)
  | linkCtlReceived => exact .next h.linkCtlIn
  | laserFailure => exact .next h.laserFails
  | retrain => exact .next h.retrain
  | portEnableWrite => exact .next h.portEnable
  | clrCnt => exact .next h.clearCounters
  | reinsertArm => exact .next h.reinsertArm
  | dataFlitReceived => exact .next (.onFlit h fun h => h.dataIn)
  | nakReceived => exact .next (.onFlit h fun h => h.nakIn)
  | timeFlitReceived => exact .next (.onFlit h fun h => h.timeIn)
  | stileNoticeReceived | idleFlitReceived => exact .next (.onFlit h fun h => h)
  | codewordUncorrectable => exact .next h.codewordBad
  | replayTimeout => exact .next (.ite h.nameFlit h)
  | nakResend => exact .next (.ite h.sendNak h)
  | stileClose => exact .next (.ite h h.stileClose)
  | stileOpen => exact .next h.stileOpen
  | stileNeighAck => exact .next h.stileAck
  | stileOpenLapse => exact .next h.openLapse
  | stileMovementComplete => exact .next h.stileMoved
  | powerLossStileClose => exact .next h.closeAll
  | slotStart => exact .next h.slotStart
  | frameStart => exact .next (.publishRetry (.forEach h fun h => h.enterFrame.swapDue))
  | resSwapFrame => exact .next h.resSwap
  | admission => exact .next h.admission
  | admissionReenable => exact .next h.admitAgain
  | transferArrival => exact .next h.transferArrival
  | completionArrival => exact .next (.onArrived h fun h => h.completion)
  | errorResponseArrival => exact .next (.onArrived h fun h => h.errorResponse)
  | completionCheckExpired => exact .next h.checkExpired
  | voidGraceExpired => exact .next h.graceExpired
  | shardPacketReceived => exact .next (.ite h (.onArrived h fun h => h.shardIn))
  | shardRerequestReceived => exact .next (.onArrived h fun h => h.rerequest)
  | shardPrimaryDeadline => exact .next h.shardPrimary
  | shardLost => exact .next h.shardDeadline
  | fcEnableWrite => exact .next h.fcEnable
  | frameContractJudgement => exact .next h.judgeFrame
  | larkSyncExchange => exact .next h.larkExchange
  | parentPortLost => exact .next h.parentLost
  | holdoverExpiry => exact .next (.ite h.setLarkState h)
  | epochEdgeIn => exact .next h.epochIn
  | epochPulseOut => exact .next (.ite h.send h)
  | larkSet => exact .next h.larkSet
  | snapTimeWrite => exact .next h.snapWrite
  | snapTimeReached => exact .next h.snapReached
  | snapDrainComplete => exact .next (.snapDrained h fun h => h.snapEntry)
  | snapResumeReached => exact .next h.snapResume
  | bar2SelWrite => exact .next (.ite h.bar2SelWrite h)
  | dbCmd => exact .next (.ite h.dbCmd h)
  | dbCq => exact .next (.ite h.dbCq h)
  | dbEq => exact .next (.ite h.dbEq h)
  | ctxStart => exact .next (.take h fun h => h.takeStart)
  | ctxStop => exact .next (.take h fun h => h.ctxStop)
  | ctxReset | funcReset => exact .next (.take h fun h => h.ringReset)
  | abortStep => exact .next (.take h fun h => h.abortStep)
  | intake => exact .next (.take h fun h => h.intake)
  | intakeChunkArrival => exact .next h.chunkArrival
  | publish => exact .next (.take h fun h => h.publish)
  | ringFence => exact .next (.take h fun h => h.settleRing)
  | moduleWarmReset => exact .next (.take h fun h => h.warmReq)
  | completionPost => exact .next h.postCompletion
  | interruptHoldoffExpired => exact .next h.holdoff
  | generationSwitch => exact .next h.genSwitch
  | drainingSlotFreed => exact .next h.genDrained
  | linkLeavesL0 => exact .next h.setFuncReady.slowLinkDown
  | bootLoad => exact .next (.ite h.bootLoad h)
  | bootReload => exact .next (.ite h.warmReq h)
  | bootImageReadComplete => exact .next h.imageRead
  | coreInitComplete => exact .next h.coreInit
  | watchdogExpiry => exact .next h.watchdog
  | fatalTrap => exact .next h.trap
  | coreRestart => exact .next h.coreReload
  | coreRestartRequest => exact .next h.restartRequest
  | coreHold => exact .next h.coreHold
  | wdtKick => exact .next h.kick
  | fwL3Kick => exact .next h
  | level3Expiry => exact .next (.ite h.resetAny h)
  | consoleVer | consoleCores | consoleReady | consoleUnknownLine => exact .next h.conReply
  | consoleLog => exact .next (.ite h.conReply (.forEach h fun h => h.conReply))
  | consoleTraceOn | consoleTraceOff => exact .next h.setTrace
  | dopFrameReceived => exact .next h.dopReceive
  | read => exact .next (.serveOp h fun h => h.opRead)
  | write => exact .next (.serveOp h fun h => h.opWrite)
  | readList => exact .next (.serveOp h fun h => h.opReadList)
  | writeList => exact .next (.serveOp h fun h => h.opWriteList)
  | blobRead => exact .next (.serveOp h fun h => h.opBlobRead)
  | blobWrite => exact .next (.serveOp h fun h => h.opBlobWrite)
  | segment => exact .next (.serveOp h fun h => h.opSegment)
  | abort => exact .next (.serveOp h fun h => h.opAbort)
  | reset => exact .next (.serveOp h fun h => h.opReset)
  | resetCommandStart => exact .next h.dopReset
  | transferIdleExpiry | abortXfer => exact .next h.closeTransfer
  | sessionIdleExpiry => exact .next h.closeSession
  | mbxGo => exact .next h.mbxGo
  | accessLevelWrite => exact .next (.ite h.levelWrite h)
  | configEpochWrite => exact .next (h.inDict h.epochWrite)
  | deferredSettingsApply => exact .next h.applyDeferred
  | eventNotificationSend => exact .next h.sendNotice
  | arraySelftestRun => exact .next (h.inDict h.selfTestRun)
  | rootForceCold | rootPrecondEnWrite => exact .next (h.inDict h.objSet)
  | moduleCoordinateSet => exact .next (h.inDict h.coordSet)
  | powerOn => exact .next h.powerOn
  | railOutOfRange => exact .next h.railOut
  | resetNLow => exact .next h.modBring.resetAny
  | resetNRise | perstRise | internalResetPulseEnd => exact .next h.modBring
  | perstLow => exact .next h.modBring.setFuncReady.resetAny
  | warmReq => exact .next h.warmReq
  | coldReset => exact .next h.coldSteps
  | internalRelease => exact .next h.release
  | strapLatch => exact .next h.latchStraps
  | optionLoadingComplete => exact .next h.stepFour
  | linkDomainBringup => exact .next h.linkBringup
  | hbmTraining => exact .next h.hbmTrain
  | hbmScrubComplete => exact .next h.hbmScrub
  | bootRomChecks => exact .next h.romChecks
  | tilesBringup => exact .next h.tilesUp
  | pllLockTimeout => exact .next (.ite h.modBring h)
  | phaseBTimeLimit => exact .next h.phaseBLimit
  | phaseBEnd => exact .next h.phaseBEnd
  | aliveToggle => exact .next h.aliveToggle
  | stopNLow | stopNHigh | throttleNLow | throttleNHigh => exact .next h.pinSet
  | faultNRelease => exact .next h.faultRelease
  | warmReset => exact .next (.ite h.warmClear h)
  | frstCtlGo => exact .next h.frstWrite
  | funcResetReq => exact .next (h.inDict h.resetObject)
  | drainIdleReached => exact .next h.drainIdle
  | drainTimeoutExpiry => exact .next h.drainExpires
  | functionResetReady => exact .next h.resetReady
  | logTake => exact .next h.logTake
  | logRetire => exact .next h.logRetire
  | logRequeue => exact .next h.logRequeue
  | logRaise => exact .next h.setReg.logRaise
  | fenceSet => exact .next h.raiseFence
  | fenceBypass => exact .next h.fenceBypass
  | fenceClear => exact .next h.fenceClear
  | fenceLevelWrite => exact .next (h.inDict h.fenceLevelWrite)
  | logOverflowClear => exact .next (h.inDict h.overflowClear)
  | eccCorrection => exact .next h.eccCorrected
  | eccUncorrectable => exact .next h.eccFails
  | patrolRead => exact .next h.patrol
  | throttleCauseRise => exact .next h.causeRise
  | throttleCauseEscalate => exact .next h.causeEscalate
  | throttleStepDown => exact .next h.causeStepDown
  | throttleForceWrite => exact .next h.forceWrite
  | emergencyBegin => exact .next h.emergencyBegin
  | emergencyClear => exact .next h.emergencyClear
  | emergencyShutdownExpiry | shutdownThreshold => exact .next (.ite h.shutDown h)
  | quietSecondTick => exact .next (.ite h h.bump)
  | ronbinBoot => exact .next h.stepTwo
  | imgStageBegin => exact .next h.stageBegin
  | bankEraseComplete => exact .next h.bankErased
  | imgPieceData => exact .next h.piece
  | pieceProgramComplete => exact .next h.programPiece
  | imgStageAbort => exact .next h.stageAbort
  | imgVerify => exact .next h.verify
  | calibrationEraseComplete => exact .next h.modRonbin
  | imgCardScan => exact .next h.cardScan
  | cardRemoved => exact .next h.cardRemoved
  | cardInserted => exact .next (.ite h.modRonbin h)
  | imgActivate => exact .next h.imgActivate
  | deferredActivation => exact .next h.deferredActivation
  | ronbinRestart => exact .next h.ronbinRestarted
  | trialServiceTimeout | trialWindowExpiry => exact .next (.ite h.trialEnds h)
  | imgConfirm => exact .next h.imgConfirm
  | imgFallback => exact .next h.imgFallback
  | lossOfLight => exact .next h.lossOfLight
  | reservedTypeFlitReceived => exact .next h.reservedIn
  | fecSymbolErrorRatio => exact .next h.fecWindow
  | linkEntersL0 => exact .next h.linkEnters
  | completionTimeout => exact .next h.completionTimeout
  | throttleCauseRelease => exact .next h.causeRelease

end

/-! ### The statements -/

/-- Settles O55: the command at the front of the queue, and the tick of an empty queue, keep the tables. -/
theorem stepKeepsInv : Obligations.StepKeepsInv := by
  intro s u hs hu
  unfold step at hu
  split at hu
  next c rest _ =>
    have start : ({ s with pending := rest } : State).Inv := ⟨hs.regs, hs.mem⟩
    obtain ⟨v, hv, keeps⟩ | ⟨fault, _⟩ := exec_settles c { s with pending := rest }
    · cases hv.symm.trans hu
      exact keeps.inv start
    · cases fault.symm.trans hu
  next =>
    cases hu
    exact (Keeps.refl s).tick.inv hs

/-- Settles O58: a case split over the commands; only a write of `HOST_READY` reaches the fault. -/
theorem onlyAMismatchStops : Obligations.OnlyAMismatchStops := by
  refine ⟨fun c s => ?_, fun s v hup hbit hver => ?_⟩
  · obtain ⟨u, hu, keeps⟩ | mismatch := exec_settles c s
    · exact .inl ⟨u, hu, keeps.pending⟩
    · exact .inr mismatch
  · show (if s.hostUp then s.hostReadyWrite v else .next s) = _
    rw [if_pos hup, State.hostReadyWrite_of_mismatch ⟨hbit, hver⟩]

end Sys2Proof.Machine
end

section
/-! SUPPORT. The state right after reset. -/

namespace Sys2Proof.Machine

theorem State.reg_reset (k : Nat) : State.reset.reg k = regReset k := rfl

/-- The addresses below the first port's registers hold no table with a reset value other than 0. -/
theorem regReset_of_lt {k : Nat} (h : k < 0x300000000) : regReset k = 0 := if_pos h

theorem State.fld_reset_of_lt {f : Fld} (h : f.reg < 0x300000000) : State.reset.fld f = 0 := by
  simp [State.fld, State.reg_reset, regReset_of_lt h]

theorem threadStatus_lt {t n : Nat} (ht : t < 256) (hn : n < 16) : R.threadStatus t n < 0x300000000 := by
  unfold R.threadStatus
  omega

/-- Settles O53: single registers and small families by evaluation, the threads by where their registers stand. -/
theorem resetValuesHold : Obligations.ResetValuesHold := by
  have stiles : ∀ a, a < 4 → State.reset.stileClosed a = true ∧ State.reset.stileMoving a = false := by decide
  have ports : ∀ p, p < 8 → State.reset.portState p = 1 ∧ State.reset.fld (F.portVcBuf.val p 0) = 768
      ∧ State.reset.fld (F.portVcBuf.val p 1) = 512 ∧ State.reset.fld (F.portVcBuf.val p 7) = 128 := by decide
  have watchdogs : ∀ n, n < 6 → State.reset.fld (F.wdtCfg.timeoutMs n) = 50 ∧ State.reset.bit (F.wdtCfg.en n) = true := by decide
  have threads : ∀ t n, t < 256 → n < 16 → State.reset.fld (F.threadStatus.state t n) = 0 :=
    fun t n ht hn => State.fld_reset_of_lt (threadStatus_lt ht hn)
  exact ⟨rfl, rfl, rfl, rfl, rfl, rfl, rfl, rfl, rfl, rfl, rfl, rfl, rfl, rfl, rfl, rfl, rfl, stiles, ports, watchdogs, threads,
    rfl, rfl, rfl⟩

end Sys2Proof.Machine
end

section
/-! SUPPORT. Counterexamples to the statements of the training step. Each lets the last thread of a running context stop while a `CTX_STOP` is
still in progress on its ring set: the stop completes with that thread, and F0 writes its executed mark into memory (R323, R357), which the
frames of these statements leave out. -/

namespace Sys2Proof.Machine

variable {s u : State}

/-- What a command brings about holds of the state it leads to. -/
theorem Does.post {c : Instr} {P : State → Prop} (h : Does c s P) (hu : exec c s = .next u) : P u := by
  obtain ⟨v, hv, hP⟩ := h
  cases hv.symm.trans hu
  exact hP

theorem State.noneQueued_of_threads (h : s.threads = []) : s.noneQueued := by simp [State.noneQueued, h]

theorem State.noPushWaits_of_threads {c : Nat} (h : s.threads = []) : s.noPushWaits c := by simp [State.noPushWaits, h]

theorem State.noBacklog_of_roots (h : s.roots = []) : s.noBacklog := fun e _ => by simp [State.root, h, Tab.get_nil]

/-- The only shard of a context is the next one to be written, once its sweep is under way. -/
theorem State.maySweep_only {c : Nat} (one : s.shardCount c = 1) (free : s.sweepReset = false) (runs : (s.ctx c).running = true)
    (phase : (s.ctx c).phase = .sweep) (started : (s.ctx c).started = true) (idle : (s.ctx c).sweeping = none)
    (due : s.shardOver c 0 = false) : s.maySweep c 0 = true := by
  have first : s.sweptFirst c 0 0 = false := decide_eq_false (List.lt_irrefl _)
  simp [State.maySweep, one, free, runs, phase, started, idle, due, first, upto]

/-- A shard of which something cannot be read ends the sweep. -/
theorem State.shardSwept_unreadable {c i : Nat} {g : List F32} {rows cols : List RootSeg} {a : Nat × Nat} (may : s.maySweep c i = true)
    (staged : s.stagingHolds c i = false) (unwaited : (s.ctx c).stageFrom = none)
    (bad : ((s.sweepInputs c i (s.shard c i) (rows ++ cols)).find? fun a => (s.readData a.1 a.2).isNone) = some a) :
    s.shardSwept c i g rows cols = s.sweepReadFails c i a.1 a.2 := by
  have waited : s.stageWaited c = s := by simp only [State.stageWaited, unwaited]
  simp only [State.shardSwept, may, staged, waited, State.writeShard, not_true_eq_false, Bool.false_eq_true, if_false]
  exact State.sweepReads_fails _ bad

/-- A `CTX_STOP` taken from position 0 of a ring, with `SEQ` 1. -/
def stopCmd : RingCmd := { count := 0, op := 0x02, flags := 0, seq := 1, cookie := 0, args := [] }

/-- Context 0 as `x` has it, its sweeps enabled, with one ready thread, and with a `CTX_STOP` in progress on its ring set; F0 and F2 run. -/
def stopping (x : Ctx) : State :=
  { (((State.reset.setFld (F.coreStatus.state 0) 2).setFld (F.coreStatus.state 2) 2).setBit (F.sweepCtl.enable 0) true).setFld
      (F.threadStatus.state 0 0) 1 with
    ctxs := [(0, x)], rings := [(0, { run := [stopCmd] })] }

/-! ### A failed vote -/

/-- The context waits for its vote. -/
def stoppingAtVote : State := stopping { running := true, phase := .voteWait }

/-- A failed vote stops the thread, and with it the `CTX_STOP` completes. -/
theorem marked_of_voteFailed : (stoppingAtVote.voteComplete 0 1).byte (markAt 0 0) = 1 := by decide +kernel

theorem unmarked_of_clearPresence : (stoppingAtVote.clearPresence 0).byte (markAt 0 0) = 0 := by decide +kernel

/-- Refutes O25: behind a failed vote memory is not always what clearing the presence bitmaps leaves, since a `CTX_STOP` in progress is
marked as executed once the vote has stopped the last thread of its context. -/
theorem not_stepAndVoteComplete : ¬ Obligations.StepAndVoteComplete := by
  unfold Obligations.StepAndVoteComplete
  rintro ⟨-, -, vote, -⟩
  obtain ⟨-, fails⟩ := vote 0 stoppingAtVote 1 rfl (by decide +kernel) (State.noPushWaits_of_threads rfl)
  obtain ⟨same, -⟩ := fails (by decide) rfl rfl (State.noneQueued_of_threads rfl) (State.noBacklog_of_roots rfl) (by decide +kernel)
  obtain ⟨⟨⟨-, -, -, -, bytes⟩, -⟩, -⟩ := (same (by decide) rfl).post rfl
  have equal : (1 : Byte) = 0 := marked_of_voteFailed.symm.trans ((bytes _).trans unmarked_of_clearPresence)
  exact absurd equal (by decide)

/-! ### A read of the sweep that fails -/

/-- The context sweeps its only shard, whose table entry lies in Meadow, and no die of Meadow is ready. -/
def stoppingInSweep : State := (stopping { running := true, phase := .sweep, started := true }).setFld (F.shardTable.count 0) 1

theorem unreadable_inSweep : ((stoppingInSweep.sweepInputs 0 0 (stoppingInSweep.shard 0 0) ([] ++ [])).find? fun a =>
    (stoppingInSweep.readData a.1 a.2).isNone) = some (0, 96) := by decide +kernel

theorem maySweep_stoppingInSweep : stoppingInSweep.maySweep 0 0 = true :=
  State.maySweep_only (by decide +kernel) rfl rfl rfl rfl rfl (by decide +kernel)

/-- The failing read stops the context, and with its thread the `CTX_STOP` completes. -/
theorem marked_of_shardUnreadable : (stoppingInSweep.shardSwept 0 0 [] [] []).byte (markAt 0 0) = 1 := by
  rw [State.shardSwept_unreadable maySweep_stoppingInSweep rfl rfl unreadable_inSweep]
  decide +kernel

theorem unmarked_inSweep : stoppingInSweep.byte (markAt 0 0) = 0 := by decide +kernel

/-- Refutes O26: the end of a sweep that reads what it cannot read changes memory when it stops the last thread of a context whose
`CTX_STOP` is in progress. -/
theorem not_shardUpdateCompletes : ¬ Obligations.ShardUpdateCompletes := by
  unfold Obligations.ShardUpdateCompletes
  intro h
  obtain ⟨-, fails, -⟩ := h 0 0 stoppingInSweep
  obtain ⟨-, -, -, bytes⟩ :=
    (fails [] [] [] (0, 96) maySweep_stoppingInSweep rfl rfl unreadable_inSweep).post rfl
  have equal : (1 : Byte) = 0 := marked_of_shardUnreadable.symm.trans ((bytes _).trans unmarked_inSweep)
  exact absurd equal (by decide)

/-! ### An aborted commit -/

/-- What is left of an aborted commit once the skipped step is counted, `ls` being the layers of the context. -/
def State.abortLayers (s : State) (c : Nat) (ls : List Nat) : State :=
  let s := forEach (ls.filter fun l => s.layerState c l == 3) (fun s l => s.setLayerState c l 2) s
  let s := forEach (s.ctx c).prov (fun s p => (s.setLayerAge c p.1 p.2.1).setLayerUse c p.1 p.2.2) s
  let s := ((s.stepOver c).boundary c).modCtx c fun x => { x with voteBits := 0, discardDue := true, masks := [], refreshDue := false }
  (s.stepAgain c).dueDiscard c

theorem State.commitComplete_aborts {c : Nat} {w : Word} (phase : (s.ctx c).phase = .commitWait) (runs : s.sweepsRun c = true)
    (fails : commitFails w = true) (hu : u = (((s.setReg (R.commitLast c) w).publishStage c).noteOverlap c).stepSkipped c) :
    s.commitComplete c w = u.abortLayers c (u.layers c) := by
  subst hu
  simp only [State.commitComplete, phase, runs, fails, ne_eq, not_true_eq_false, or_self, if_false, if_true]
  rfl

theorem Tab.get_unlisted {α : Type} {d : Nat → α} {l : Tab α} {k : Nat} (h : ∀ e ∈ l, e.1 ≠ k) : Tab.get d l k = d k := by
  induction l with
  | nil => rfl
  | cons e l ih => rw [Tab.get_cons, if_neg (h e (by simp)), ih fun x hx => h x (by simp [hx])]

/-- A byte of the interleaved view of Thermos is a byte of memory. -/
theorem State.dataByte_thermos {a : Nat} (h : inThermos a 1) : s.dataByte a = s.byte a := by
  obtain ⟨lo, hi⟩ := h
  have place : placeOf a = .thermos (thermosRoute a).1 (thermosRoute a).2 := by
    unfold placeOf
    rw [if_neg (by omega), if_neg (by omega), if_neg (by omega), if_neg (by omega), if_pos (by omega)]
  simp only [State.dataByte, place, memKey]
  rw [if_neg (by omega)]

theorem leNat_eq_zero {l : List Byte} (h : ∀ b ∈ l, b = 0) : leNat l = 0 := by
  induction l with
  | nil => rfl
  | cons b l ih => simp [leNat, h b (by simp), ih fun x hx => h x (by simp [hx])]

/-- A layer table in Thermos behind whose first entry no byte of memory is listed has one layer, if that entry names a schedule. -/
theorem State.layers_only {c : Nat} (table : inThermos (s.obj (O.rootLayerTable c)) (64 * 2048))
    (mem : ∀ e ∈ s.mem, e.1 < s.obj (O.rootLayerTable c) + 64) (first : s.layerSched c 0 ≠ 0) : s.layers c = [0] := by
  obtain ⟨lo, hi⟩ := table
  have empty : ∀ l, l < 2047 → s.layerSched c (l + 1) = 0 := by
    intro l hl
    refine leNat_eq_zero fun b hb => ?_
    obtain ⟨i, hi', rfl⟩ := List.mem_map.mp hb
    have := mem_upto.mp hi'
    rw [State.layerAt, State.dataByte_thermos ⟨by omega, by omega⟩]
    exact Tab.get_unlisted fun e he => by have := mem e he; omega
  unfold State.layers
  rw [if_neg (by omega), upto, List.range_succ_eq_map, List.filter_cons_of_pos (by simpa using first), List.filter_eq_nil_iff.mpr]
  intro l hl
  obtain ⟨k, hk, rfl⟩ := List.mem_map.mp hl
  simp [empty k (List.mem_range.mp hk)]

/-- The context waits for the commit barrier. The entry of its only layer, with provisional roots, reaches into the marks of its ring set:
`STATE` is the first byte of the mark of the `CTX_STOP`. -/
def stoppingAtCommit : State :=
  { stopping { running := true, phase := .commitWait } with
    objs := [(O.rootLayerTable 0, markAt 0 0 - 8)], mem := [(markAt 0 0 - 8, 1), (markAt 0 0, 3)] }

/-- The same with the commit barrier complete and the skipped step counted. -/
def skippedAtCommit : State := (((stoppingAtCommit.setReg (R.commitLast 0) 1).publishStage 0).noteOverlap 0).stepSkipped 0

theorem layers_stoppingAtCommit : stoppingAtCommit.layers 0 = [0] :=
  State.layers_only ⟨by decide +kernel, by decide +kernel⟩ (by decide +kernel) (by decide +kernel)

theorem layers_skippedAtCommit : skippedAtCommit.layers 0 = [0] :=
  State.layers_only ⟨by decide +kernel, by decide +kernel⟩ (by decide +kernel) (by decide +kernel)

/-- The aborted commit stops the thread, and the mark of the `CTX_STOP` is written over `STATE`. -/
theorem layerState_of_commitAborted : (stoppingAtCommit.commitComplete 0 1).layerState 0 0 = 1 := by
  rw [State.commitComplete_aborts (u := skippedAtCommit) rfl (by decide +kernel) (by decide) rfl, layers_skippedAtCommit]
  decide +kernel

/-- Refutes O29: behind an aborted commit `STATE` of a layer with provisional roots is not always complete again, since the executed mark
of a `CTX_STOP` that completes with the last stopped thread may be written over it. -/
theorem not_commitCompletes : ¬ Obligations.CommitCompletes := by
  unfold Obligations.CommitCompletes
  intro h
  obtain ⟨-, barrier, -⟩ := h 0 stoppingAtCommit (by decide +kernel) (State.noneQueued_of_threads rfl) (State.noBacklog_of_roots rfl)
    (by decide +kernel)
  obtain ⟨-, -, provisional, -⟩ := barrier 1 rfl rfl
  have inside : inThermos (stoppingAtCommit.layerAt 0 0) 64 := ⟨by decide +kernel, by decide +kernel⟩
  have complete : (stoppingAtCommit.commitComplete 0 1).layerState 0 0 = 2 :=
    (provisional 0 (by decide) (State.noPushWaits_of_threads rfl) (by decide +kernel) layers_stoppingAtCommit inside
      (by decide +kernel)).post rfl
  exact absurd (layerState_of_commitAborted.symm.trans complete) (by decide)

end Sys2Proof.Machine
end

section
/-! SUPPORT. Updates of a counter of which nothing is to be told, and the completion of a synchronous descriptor behind its effect (R34, R45). -/

namespace Sys2Proof.Machine

variable {s m u : State} {t n p : Nat} {w : Desc} {ks : List Nat}

theorem State.fld_congr {f : Fld} (h : m.reg f.reg = s.reg f.reg) : m.fld f = s.fld f := by simp only [State.fld, h]
theorem State.bit_congr {f : Fld} (h : m.reg f.reg = s.reg f.reg) : m.bit f = s.bit f := by simp only [State.bit, h]

/-! ### Adding to counters -/

/-- `u` is `s` with `add k` added to each register `k`, and perhaps hits noted at watches that were answered with retry. -/
structure Adds (s u : State) (add : Nat → Word) : Prop where
  reg : ∀ k, u.reg k = s.reg k + add k
  only : ∃ r l, u = { s with regs := r, tiles := l }
  tile : ∀ k, ∃ r, u.tile k = { s.tile k with retried := r }

theorem Adds.refl (s : State) : Adds s s fun _ => 0 :=
  ⟨fun _ => (add_zero _).symm, ⟨s.regs, s.tiles, rfl⟩, fun k => ⟨(s.tile k).retried, rfl⟩⟩

theorem Adds.trans {a b : Nat → Word} (h : Adds s m a) (h' : Adds m u b) : Adds s u fun k => a k + b k := by
  obtain ⟨r, l, rfl⟩ := h.only
  obtain ⟨r', l', rfl⟩ := h'.only
  refine ⟨fun k => ?_, ⟨r', l', rfl⟩, fun k => ?_⟩
  · rw [h'.reg, h.reg, BitVec.add_assoc]
  · obtain ⟨x, hx⟩ := h.tile k
    obtain ⟨y, hy⟩ := h'.tile k
    exact ⟨y, by rw [hy, hx]⟩

theorem Adds.mem {a : Nat → Word} (h : Adds s u a) : u.mem = s.mem := by obtain ⟨r, l, rfl⟩ := h.only; rfl
theorem Adds.threads {a : Nat → Word} (h : Adds s u a) : u.threads = s.threads := by obtain ⟨r, l, rfl⟩ := h.only; rfl
theorem Adds.out {a : Nat → Word} (h : Adds s u a) : u.out = s.out := by obtain ⟨r, l, rfl⟩ := h.only; rfl
theorem Adds.log {a : Nat → Word} (h : Adds s u a) : u.log = s.log := by obtain ⟨r, l, rfl⟩ := h.only; rfl
theorem Adds.rings {a : Nat → Word} (h : Adds s u a) : u.rings = s.rings := by obtain ⟨r, l, rfl⟩ := h.only; rfl
theorem Adds.thread {a : Nat → Word} (h : Adds s u a) (k : Nat) : u.thread k = s.thread k := by simp only [State.thread, h.threads]
theorem Adds.watches {a : Nat → Word} (h : Adds s u a) (k : Nat) : (u.tile k).watches = (s.tile k).watches := by
  obtain ⟨r, hr⟩ := h.tile k; rw [hr]
theorem Adds.fld {a : Nat → Word} (h : Adds s u a) {f : Fld} (hf : a f.reg = 0) : u.fld f = s.fld f := State.fld_congr (by simp [h.reg, hf])
theorem Adds.bit {a : Nat → Word} (h : Adds s u a) {f : Fld} (hf : a f.reg = 0) : u.bit f = s.bit f := State.bit_congr (by simp [h.reg, hf])

/-- Where no thread waits on the counter at `p`, noting its update adds nothing. -/
theorem Adds.noteHits (hw : ∀ e ∈ m.threads, ∀ x, e.2.wait = some x → x.obj ≠ p) : Adds m (m.noteHits p) fun _ => 0 := by
  obtain ⟨l, hl, -⟩ := State.noteHits_quiet hw
  refine ⟨fun k => by rw [hl]; exact (add_zero _).symm, ⟨m.regs, l, hl⟩, fun k => ?_⟩
  have none : (m.threads.filter fun e => e.2.wait.any fun wt =>
      wt.watch == .retry && (wt.obj == p && waitHolds wt.cond (m.reg p) wt.comparand)) = [] := by
    rw [List.filter_eq_nil_iff]
    intro e he
    cases hx : e.2.wait with
    | none => simp
    | some x => simp [hw e he x hx]
  unfold State.noteHits
  simp only [none, forEach, List.foldl_nil]
  split
  · rw [State.tile_setTile]
    split
    · next h => subst h; exact ⟨_, rfl⟩
    · exact ⟨_, rfl⟩
  · exact ⟨_, rfl⟩

/-- The registers that tell of counters: the frame contracts and generation slots of the contexts (R336). -/
def tellers (k : Nat) : Prop := ∃ c, c < 8 ∧ (k = R.fcObj c ∨ k = R.genBatchObj c ∨ ∃ j, j < 2 ∧ k = R.genUseObj c j)

theorem not_tellers_of_lt {k : Nat} (h : k < 0x200000000) : ¬ tellers k := by
  rintro ⟨c, -, h' | h' | ⟨j, -, h'⟩⟩
  · exact (tileReg_ne h c).1 h'
  · exact (tileReg_ne h c).2.1 h'
  · exact (tileReg_ne h c).2.2 j h'

/-- A counter is quiet in a state with no waits on other objects, no other watches and the same tellers. -/
theorem QuietCounter.fewer (h : QuietCounter s p) (hw : ∀ e ∈ m.threads, ∀ x, e.2.wait = some x → ∃ f ∈ s.threads, ∃ y, f.2.wait = some y ∧ y.obj = x.obj)
    (ht : ∀ e ∈ (m.tile (objTile p)).watches, e ∈ (s.tile (objTile p)).watches) (hr : ∀ k, tellers k → m.reg k = s.reg k) : QuietCounter m p := by
  refine ⟨fun e he x hx => ?_, fun e he => h.watches e (ht e he), fun c hc => ?_⟩
  · obtain ⟨f, hf, y, hy, hobj⟩ := hw e he x hx
    exact hobj ▸ h.waits f hf y hy
  · have h1 : m.fld (F.fcObj.val c) = s.fld (F.fcObj.val c) := State.fld_congr (hr _ ⟨c, hc, .inl rfl⟩)
    have h2 : m.fld (F.genBatchObj.val c) = s.fld (F.genBatchObj.val c) := State.fld_congr (hr _ ⟨c, hc, .inr (.inl rfl)⟩)
    obtain ⟨batch, use⟩ := h.slots c hc
    refine ⟨?_, fun j hj => ?_⟩
    · simpa only [State.batchObj, h1, h2] using batch
    · have h3 : m.fld (F.genUseObj.val c j) = s.fld (F.genUseObj.val c j) := State.fld_congr (hr _ ⟨c, hc, .inr (.inr ⟨j, hj, rfl⟩)⟩)
      exact h3 ▸ use j hj

/-- A counter is quiet in a state with waits on the same objects, the same watches and the same tellers. -/
theorem QuietCounter.congr (h : QuietCounter s p) (hw : ∀ e ∈ m.threads, ∀ x, e.2.wait = some x → ∃ f ∈ s.threads, ∃ y, f.2.wait = some y ∧ y.obj = x.obj)
    (ht : (m.tile (objTile p)).watches = (s.tile (objTile p)).watches) (hr : ∀ k, tellers k → m.reg k = s.reg k) : QuietCounter m p :=
  h.fewer hw (fun _ he => ht ▸ he) hr

theorem waits_of_eq (h : m.threads = s.threads) :
    ∀ e ∈ m.threads, ∀ x, e.2.wait = some x → ∃ f ∈ s.threads, ∃ y, f.2.wait = some y ∧ y.obj = x.obj :=
  fun e he x hx => ⟨e, h ▸ he, x, hx, rfl⟩

theorem QuietCounter.setReg {k : Nat} {v : Word} (h : QuietCounter s p) (hk : k < 0x200000000) : QuietCounter (s.setReg k v) p :=
  h.congr (waits_of_eq rfl) rfl fun _ hj => State.reg_setReg_other _ _ fun e => not_tellers_of_lt hk (e ▸ hj)

theorem QuietCounter.adds {a : Nat → Word} (h : QuietCounter s p) (ha : Adds s m a) (low : ∀ k, tellers k → a k = 0) : QuietCounter m p :=
  h.congr (waits_of_eq ha.threads) (ha.watches _) fun k hk => by rw [ha.reg, low k hk, add_zero]

/-- Setting a counter of which nothing is to be told. -/
theorem Adds.syncSet (hq : QuietCounter s p) (hp : p < 0x200000000) (v : Word) :
    Adds s (s.syncSet p v) fun k => if k = p then v - s.reg p else 0 := by
  rw [State.syncSet_quiet v (hq.setReg hp)]
  have h := Adds.noteHits (hq.setReg (v := v) hp).waits
  obtain ⟨r, l, hl⟩ := h.only
  refine ⟨fun k => ?_, ⟨r, l, by rw [hl]; rfl⟩, h.tile⟩
  rw [h.reg, add_zero, State.reg_setReg]
  by_cases hk : k = p
  · subst hk; simp
  · simp [hk, Ne.symm hk]

theorem Adds.syncAdd (hq : QuietCounter s p) (hp : p < 0x200000000) : Adds s (s.syncAdd p 1) fun k => if k = p then 1 else 0 := by
  have h := Adds.syncSet hq hp (s.reg p + 1)
  rwa [show s.reg p + 1 - s.reg p = 1 by rw [BitVec.add_comm, BitVec.add_sub_cancel]] at h

theorem syncCount_lt (ht : t < 256) (w : Desc) : R.syncCount t (dDoneObj w) < 0x200000000 := by
  have := dDoneObj_lt w
  unfold R.syncCount
  omega

/-- What a completion signals where nothing is to be told of it (R34). -/
theorem Adds.signalDone (hq : s.doneQuiet t w) (ht : t < 256) : Adds s (s.signalDone t w) (doneAdd t w) := by
  unfold State.signalDone
  cases hd : dDoneEn w with
  | false =>
    have : doneAdd t w = fun _ => 0 := by funext k; simp [doneAdd, hd]
    simpa [this] using Adds.refl s
  | true =>
    have : doneAdd t w = fun k => if k = R.syncCount t (dDoneObj w) then 1 else 0 := by funext k; simp [doneAdd, hd]
    simpa [this] using Adds.syncAdd (hq hd) (syncCount_lt ht w)

/-- A `DONE_OBJ` is a counter of a tile. -/
theorem doneAdd_eq_zero {k : Nat} (h : k ≠ R.syncCount t (dDoneObj w)) : doneAdd t w k = 0 := if_neg fun e => h e.2

/-- A `DONE_OBJ` is no index register. -/
theorem doneAdd_ix {k : Nat} (hn : n < 16) (hk : k < 8) : doneAdd t w (R.ix t n k) = 0 :=
  doneAdd_eq_zero (by have := dDoneObj_lt w; unfold R.ix R.syncCount; omega)

theorem threadRegs_not_tellers {k : Nat} (ht : t < 256) (hn : n < 16) (hk : k ∈ threadRegs t n) : ¬ tellers k := by
  simp only [threadRegs, List.mem_cons, List.not_mem_nil, or_false] at hk
  rcases hk with rfl | rfl
  · exact not_tellers_of_lt (by unfold R.threadPc; omega)
  · exact not_tellers_of_lt (by unfold R.threadStatus; omega)

/-- A thread that went on tells nothing new of a quiet `DONE_OBJ`. -/
theorem WentOn.doneQuiet {a : Nat} (h : WentOn s m t n a ks) (ht : t < 256) (hn : n < 16) (hks : ∀ k ∈ ks, ¬ tellers k)
    (hq : s.doneQuiet t w) : m.doneQuiet t w := fun hd =>
  (hq hd).congr
    (fun e he x hx => by
      obtain ⟨f, hf, hx⟩ := h.waits e he x hx
      exact ⟨f, hf, x, hx, rfl⟩)
    (h.watches _)
    fun k hk => h.regs k fun hm => (List.mem_append.mp hm).elim (fun hm => hks k hm hk) fun hm => threadRegs_not_tellers ht hn hm hk

/-! ### An effect, and the completion behind it -/

/-- `m` is `s` after an effect that changes no register but those in `ks`, among which no `THREAD_PC` and none that tells of counters, and
neither threads nor watches. -/
structure Effect (s m : State) (t n : Nat) (ks : List Nat) : Prop where
  threads : m.threads = s.threads
  watches : ∀ k, (m.tile k).watches = (s.tile k).watches
  regs : RegsBut s m ks
  pc : R.threadPc t n ∉ ks
  apart : ∀ k ∈ ks, ¬ tellers k

theorem Effect.pcOf (h : Effect s m t n ks) : m.pcOf t n = s.pcOf t n := by simp only [State.pcOf, h.regs _ h.pc]

theorem Effect.thread (h : Effect s m t n ks) (k : Nat) : m.thread k = s.thread k := by simp only [State.thread, h.threads]

theorem Effect.quiet (h : Effect s m t n ks) (hq : QuietCounter s p) : QuietCounter m p :=
  hq.congr (waits_of_eq h.threads) (h.watches _) fun k hk => h.regs k fun hm => h.apart k hm hk

theorem Effect.doneQuiet (h : Effect s m t n ks) (hq : s.doneQuiet t w) : m.doneQuiet t w := fun hd => h.quiet (hq hd)

theorem Effect.straight (h : Effect s m t n ks) (hs : s.straight t n) : m.straight t n := by
  simpa only [State.straight, h.thread, h.pcOf] using hs

theorem Effect.plain (h : Effect s m t n ks) (hs : s.plain t n w) : m.plain t n w := ⟨h.straight hs.straight, h.doneQuiet hs.done⟩

theorem Effect.syncDone (h : Effect s m t n ks) : m.syncDone (s.nextIss t n w) = m.syncDone (m.nextIss t n w) := by
  have hpc : (s.reg (R.threadPc t n)).toNat = (m.reg (R.threadPc t n)).toNat := h.pcOf.symm
  simp only [State.syncDone, State.advance, State.nextIss, Iss.key, hpc]

theorem Effect.fetched (s : State) (t n : Nat) (w : Desc) : Effect s (s.afterFetch t n w) t n [] :=
  ⟨rfl, watches_afterFetch, RegsBut.refl _ _, by simp, by simp⟩

theorem RegsBut.setReg {k : Nat} {v : Word} (h : RegsBut s m ks) : RegsBut s (m.setReg k v) (k :: ks) := fun j hj => by
  simp only [List.mem_cons, not_or] at hj
  rw [State.reg_setReg_other _ _ (Ne.symm hj.1), h j hj.2]

/-- Writing a register of a tile that is not `THREAD_PC` is such an effect. -/
theorem Effect.setReg {k : Nat} {v : Word} (h : Effect s m t n ks) (hk : k < 0x200000000) (hpc : R.threadPc t n ≠ k) :
    Effect s (m.setReg k v) t n (k :: ks) :=
  ⟨h.threads, h.watches, h.regs.setReg, by simpa using ⟨hpc, h.pc⟩, by
    simpa using ⟨not_tellers_of_lt hk, h.apart⟩⟩

theorem threadPc_ne_ix {k : Nat} (hk : k < 8) : R.threadPc t n ≠ R.ix t n k := by unfold R.threadPc R.ix; omega
theorem threadStatus_ne_ix {k : Nat} (hk : k < 8) : R.threadStatus t n ≠ R.ix t n k := by unfold R.threadStatus R.ix; omega

theorem Effect.setIx {k : Nat} {v : Word} (h : Effect s m t n ks) (ht : t < 256) (hn : n < 16) (hk : k < 8) :
    Effect s (m.setIx t n k v) t n (R.ix t n k :: ks) :=
  h.setReg (by unfold R.ix; omega) (threadPc_ne_ix hk)

/-- What a synchronous descriptor's completion does behind its effect: the thread goes on, `DONE_OBJ` is signalled, and besides only its loops are written
again. -/
structure Done (m u : State) (t n : Nat) (w : Desc) : Prop extends StepsOn m u t n w where
  out : u.out = m.out
  log : u.log = m.log
  tile : ∀ k, ∃ r, u.tile k = { m.tile k with retried := r }
  loops : (u.thread (thrKey t n)).loops = (m.thread (thrKey t n)).loops

theorem done_syncDone (ht : t < 256) (hn : n < 16) (hs : m.plain t n w) : Done m (m.syncDone (m.nextIss t n w)) t n w := by
  have steps : StepsOn m (m.syncDone (m.nextIss t n w)) t n w :=
    stepsOn_syncDone ht hn hs rfl (fun _ => rfl) (RegsBut.refl _ _) (by simp) (by simp) rfl
  have went := wentOn_arriveAt (s := m) (m := m) (t := t) (n := n) (ks := []) (pcPlus (m.pcOf t n) 1) (m.thread (thrKey t n)).loops hs.straight
    (fun e he x hx => ⟨e, he, hx⟩) (fun _ => rfl) (RegsBut.refl _ _) (by simp) rfl
  have form := (m.setFld (F.threadStatus.state t n) 1).arriveAt_straight t n (pcPlus (m.pcOf t n) 1) (m.thread (thrKey t n)).loops hs.straight
  have eq : m.syncDone (m.nextIss t n w)
      = ((m.setFld (F.threadStatus.state t n) 1).arriveAt t n (pcPlus (m.pcOf t n) 1) (m.thread (thrKey t n)).loops).signalDone t w := rfl
  have adds := Adds.signalDone (went.doneQuiet ht hn (by simp) hs.done) ht
  rw [← eq] at adds
  refine ⟨steps, ?_, ?_, fun k => ?_, ?_⟩
  · rw [adds.out, form]; rfl
  · rw [adds.log, form]; rfl
  · obtain ⟨r, hr⟩ := adds.tile k
    exact ⟨r, by rw [hr, form]; rfl⟩
  · rw [adds.thread, form]
    simp

/-- The completion behind an effect, seen from the state before it. -/
theorem Effect.done (h : Effect s m t n ks) (ht : t < 256) (hn : n < 16) (hs : s.plain t n w) : Done m (m.syncDone (s.nextIss t n w)) t n w := by
  rw [h.syncDone]
  exact done_syncDone ht hn (h.plain hs)

theorem Effect.goesOn (h : Effect s m t n ks) (hd : GoesOn m u t n) : GoesOn s u t n := ⟨h.pcOf ▸ hd.pc, hd.ready⟩

theorem Effect.regsDone (h : Effect s m t n ks) (hd : RegsDone m u t n w []) : RegsDone s u t n w ks := fun k hk => by
  simp only [List.mem_append, not_or] at hk
  rw [hd k (by simpa using hk.2), h.regs k hk.1]

theorem Effect.stepsOn (h : Effect s m t n ks) (hks : R.threadStatus t n ∉ ks) (hmem : SameBytes s m) (hd : StepsOn m u t n w) :
    StepsOn s u t n w ks :=
  ⟨h.goesOn hd.toGoesOn, by rw [hd.flags]; simp only [State.flags, h.regs _ hks], h.regsDone hd.regs, fun b => by rw [hd.mem, hmem]⟩

/-- A register the effect leaves to the completion, read after it. -/
theorem Done.reg {k : Nat} (h : Done m u t n w) (hk : k ∉ threadRegs t n) : u.reg k = m.reg k + doneAdd t w k := h.regs k (by simpa using hk)

theorem ix_not_threadRegs {k : Nat} (hk : k < 8) : R.ix t n k ∉ threadRegs t n := by
  simp [threadRegs, Ne.symm (threadPc_ne_ix hk), Ne.symm (threadStatus_ne_ix hk)]

theorem sameBytes_of_mem (h : m.mem = s.mem) : SameBytes s m := fun b => by simp only [State.byte, h]

end Sys2Proof.Machine
end

section
/-! SUPPORT. The index rows and the rows that only go on (R35, R37, R49, R54, R503). -/

namespace Sys2Proof.Machine

variable {s m u : State} {t n p : Nat} {w : Desc}

/-- A row that writes `v` to index register `k` completes with it. -/
theorem stepsOn_setIx {k : Nat} (v : Word) (ht : t < 256) (hn : n < 16) (hk : k < 8) (hs : s.plain t n w)
    (hu : u = ((s.afterFetch t n w).setIx t n k v).syncDone (s.nextIss t n w)) : u.ix t n k = v ∧ StepsOn s u t n w [R.ix t n k] := by
  subst hu
  have effect := (Effect.fetched s t n w).setIx (v := v) ht hn hk
  have done := effect.done ht hn hs
  refine ⟨?_, effect.stepsOn (by simpa using threadStatus_ne_ix hk) (fun _ => rfl) done.toStepsOn⟩
  rw [State.ix, done.reg (ix_not_threadRegs hk), doneAdd_ix hn hk, add_zero]
  exact State.reg_setReg_same _ _ _

theorem dDst_lt (w : Desc) : dDst w < 8 := (w.extractLsb' 109 3).isLt
theorem dVreg_lt (w : Desc) : dVreg w < 8 := (w.extractLsb' 72 3).isLt

/-- Issuing moves a thread to the end of the round robin (R28). -/
theorem robin_afterFetch (s : State) (t n : Nat) (w : Desc) : ((s.afterFetch t n w).tile t).robin.getLast? = some n := by
  simp [State.afterFetch, robinTouch]

theorem State.runIxLoad_ok {i : Iss} {b : List Byte} (h : s.ctxRead i.c (s.aop i.t i.n i.w 48) 8 = .ok b) :
    s.runIxLoad i = (s.setIx i.t i.n (dDst i.w) (BitVec.ofNat 64 (leNat b))).syncDone i := by
  simp only [State.runIxLoad, h]

/-- Settles O1: each row's effect on the state behind the fetch, and the completion of a synchronous descriptor behind it. -/
theorem indexRowsComplete : Obligations.IndexRowsComplete := by
  unfold Obligations.IndexRowsComplete
  intro t n w s hs
  have fetched := Effect.fetched s t n w
  have goes : Done (s.afterFetch t n w) _ t n w := fetched.done t.isLt n.isLt hs
  have on : StepsOn s ((s.afterFetch t n w).syncDone (s.nextIss t n w)) t n w := fetched.stepsOn (by simp) (fun _ => rfl) goes.toStepsOn
  refine ⟨fun i => ?nop, fun i => ?yield, fun i hp => ?fence, fun i => ?ixSet, fun i => ?ixAdd, fun b i hb => ?ixLoad, fun i => ?time,
    fun i ht hc => ?trace, fun p i hp => ?syncRead⟩
  case nop => exact i.does rfl rfl rfl rfl on
  case yield =>
    obtain ⟨r, hr⟩ := goes.tile t
    exact i.does rfl rfl rfl rfl ⟨on, by rw [hr]; exact robin_afterFetch s t n w⟩
  case fence => exact i.does rfl rfl rfl (if_pos hp) on
  case ixSet => exact i.does rfl rfl rfl rfl (stepsOn_setIx _ t.isLt n.isLt (dDst_lt w) hs rfl)
  case ixAdd => exact i.does rfl rfl rfl rfl (stepsOn_setIx _ t.isLt n.isLt (dDst_lt w) hs rfl)
  case ixLoad =>
    refine i.does rfl rfl rfl (State.runIxLoad_ok ?_) (stepsOn_setIx _ t.isLt n.isLt (dDst_lt w) hs rfl)
    rw [sameView_afterFetch.ctxRead, sameView_afterFetch.aop]
    exact hb
  case time => exact i.does rfl rfl rfl rfl (stepsOn_setIx _ t.isLt n.isLt (dDst_lt w) hs rfl)
  case trace =>
    have effect : Effect s ((s.afterFetch t n w).send (.trace t n (dImm w) s.now)) t n [] :=
      ⟨fetched.threads, fetched.watches, fetched.regs, by simp, by simp⟩
    have done := effect.done t.isLt n.isLt hs
    refine i.does rfl rfl rfl ?_ ⟨done.out, effect.stepsOn (by simp) (fun _ => rfl) done.toStepsOn⟩
    have on : ((s.afterFetch t n w).boot.trace && (s.afterFetch t n w).coreRuns 5) = true := by
      show (s.boot.trace && s.coreRuns 5) = true
      rw [ht, hc]; rfl
    exact congrArg (State.syncDone · _) (if_pos on)
  case syncRead => exact i.does rfl rfl rfl (onObject_afterFetch hp _ _) (stepsOn_setIx _ t.isLt n.isLt (dVreg_lt w) hs rfl)

end Sys2Proof.Machine
end

section
/-! SUPPORT. A thread that stops: what its stopping lets complete on its ring set, and what it signals (R33, R34, R37, R357). -/

namespace Sys2Proof.Machine

variable {s m u : State} {t n c : Nat} {w : Desc}

@[simp] theorem length_leBytes (n : Nat) : ∀ v, (leBytes n v).length = n := by
  induction n with
  | zero => exact fun _ => rfl
  | succ n ih => exact fun v => by simp [leBytes, ih]

theorem leNat_leBytes (n : Nat) : ∀ v, leNat (leBytes n v) = v % 2 ^ (8 * n) := by
  induction n with
  | zero => intro v; simp [leBytes, leNat, Nat.mod_one]
  | succ n ih =>
    intro v
    have : 2 ^ (8 * (n + 1)) = 256 * 2 ^ (8 * n) := by rw [Nat.mul_succ, Nat.pow_add, Nat.mul_comm]
    simp only [leBytes, leNat, ih, BitVec.toNat_ofNat, this, Nat.mod_mul]

/-- Writing bytes changes memory alone. -/
theorem State.setBytes_only (l : List Byte) : ∀ (s : State) (a : Nat), ∃ x, s.setBytes a l = { s with mem := x } := by
  induction l with
  | nil => exact fun s _ => ⟨s.mem, rfl⟩
  | cons b l ih => exact fun s a => ih (s.setByte a b) (a + 1)

theorem State.byte_setMemNat_other {a k v b : Nat} (h : b < a ∨ a + k ≤ b) : (s.setMemNat a k v).byte b = s.byte b :=
  State.byte_setBytes_other _ _ _ _ (by simpa using h)

/-- A stored number reads back, cut to its bytes. -/
theorem State.memNat_setMemNat {a k v : Nat} : (s.setMemNat a k v).memNat a k = v % 2 ^ (8 * k) := by
  have h := State.bytes_setBytes (leBytes k v) s a
  rw [length_leBytes] at h
  rw [State.memNat, State.setMemNat, h, leNat_leBytes]

theorem State.memNat_congr {a k : Nat} (h : ∀ i, i < k → u.byte (a + i) = s.byte (a + i)) : u.memNat a k = s.memNat a k := by
  rw [State.memNat, State.memNat, State.bytes_congr k u s a h]

/-! ### What a stopping thread lets complete -/

/-- `u` is `s` with commands of ring set `c` completed: no byte has changed but its executed marks. -/
structure Marks (s u : State) (c : Nat) : Prop where
  only : ∃ r l, u = { s with rings := r, mem := l }
  mem : BytesBut s u (markAt c 0) 0x10000

theorem Marks.refl (s : State) (c : Nat) : Marks s s c := ⟨⟨s.rings, s.mem, rfl⟩, fun _ _ => rfl⟩

theorem Marks.reg (h : Marks s u c) (k : Nat) : u.reg k = s.reg k := by obtain ⟨r, l, rfl⟩ := h.only; rfl
theorem Marks.fld (h : Marks s u c) (f : Fld) : u.fld f = s.fld f := State.fld_congr (h.reg _)
theorem Marks.threads (h : Marks s u c) : u.threads = s.threads := by obtain ⟨r, l, rfl⟩ := h.only; rfl
theorem Marks.thread (h : Marks s u c) (k : Nat) : u.thread k = s.thread k := by simp only [State.thread, h.threads]
theorem Marks.tile (h : Marks s u c) (k : Nat) : u.tile k = s.tile k := by obtain ⟨r, l, rfl⟩ := h.only; rfl

theorem Marks.trans (h : Marks s m c) (h' : Marks m u c) : Marks s u c := by
  obtain ⟨r, l, rfl⟩ := h.only
  obtain ⟨r', l', rfl⟩ := h'.only
  exact ⟨⟨r', l', rfl⟩, fun b hb => (h'.mem b hb).trans (h.mem b hb)⟩

/-- The executed marks of a ring set lie in its table of marks (Table 12.9). -/
theorem markAt_bounds (c k : Nat) : markAt c 0 ≤ markAt c k ∧ markAt c k + 8 ≤ markAt c 0 + 0x10000 := by
  have := Nat.mod_lt k (by decide : 0 < 8192)
  simp only [markAt, Nat.zero_mod]
  omega

theorem Marks.mark {x : RingCmd} : Marks s (s.mark c x) c := by
  obtain ⟨l, hl⟩ := State.setBytes_only (leBytes 8 x.seq) s (markAt c x.count)
  refine ⟨⟨s.rings, l, hl⟩, fun b hb => ?_⟩
  obtain ⟨lo, hi⟩ := markAt_bounds c x.count
  exact State.byte_setMemNat_other (by omega)

theorem Marks.modRing {f : Ring → Ring} : Marks s (s.modRing c f) c := ⟨⟨_, s.mem, rfl⟩, fun _ _ => rfl⟩

theorem Marks.finishOne {x : RingCmd} {st d k : Nat} : Marks s (s.finishOne c x st d k) c := by
  unfold State.finishOne
  dsimp only
  split
  · exact Marks.modRing.trans Marks.mark
  · exact Marks.modRing

theorem Marks.fences : ∀ {k : Nat} {s : State}, Marks s (s.fences c k) c := by
  intro k
  induction k with
  | zero => exact Marks.refl _ _
  | succ k ih =>
    intro s
    unfold State.fences
    split
    · exact Marks.refl _ _
    · split
      · exact Marks.finishOne.trans ih
      · exact Marks.refl _ _

theorem Marks.settleRing : Marks s (s.settleRing c) c := by
  have each : ∀ (l : List RingCmd) (s : State), Marks s (forEach l (fun s x => if s.quiet c then s.finish c x 0 else s) s) c := by
    intro l
    induction l with
    | nil => exact fun s => Marks.refl _ _
    | cons x l ih =>
      intro s
      refine Marks.trans ?_ (ih _)
      show Marks s (if s.quiet c then s.finish c x 0 else s) c
      split
      · exact Marks.finishOne.trans Marks.fences
      · exact Marks.refl _ _
  exact (each _ s).trans Marks.fences

/-- A thread of context `c` that stops changes the ring set of its context and the marks there, and without a command in progress nothing (R357). -/
theorem State.threadStops_marks (s : State) (c : Nat) : Marks s (s.threadStops c) c ∧ MarksOnly s (s.threadStops c) c := by
  unfold State.threadStops
  split
  · exact ⟨Marks.refl _ _, fun _ _ => rfl, fun _ _ => rfl⟩
  · next h => exact ⟨Marks.settleRing, Marks.settleRing.mem, fun e => absurd e h⟩

/-! ### Becoming idle -/

theorem waits_setThread {k : Nat} {v : Thread} (hv : ∀ x, v.wait = some x → ∃ y, (s.thread k).wait = some y ∧ y.obj = x.obj) :
    ∀ e ∈ (s.setThread k v).threads, ∀ x, e.2.wait = some x → ∃ f ∈ s.threads, ∃ y, f.2.wait = some y ∧ y.obj = x.obj := by
  intro e he x hx
  have he : e ∈ Tab.put (fun _ => ({} : Thread)) s.threads k v := he
  rcases Tab.mem_put he with h | rfl
  · exact ⟨e, h, x, hx, rfl⟩
  · obtain ⟨y, hy, obj⟩ := hv x hx
    obtain ⟨f, hf, hfy⟩ := Tab.mem_of_get (fun z : Thread => z.wait = some y) (by simp) hy
    exact ⟨f, hf, y, hfy, obj⟩

/-- `u` is `s` with thread `n` of tile `t` idle, `add k` added to each register `k`, and no command waiting or memory changed but those of the ring
set of its context. -/
structure Idles (s u : State) (t n : Nat) (add : Nat → Word) : Prop where
  state : u.fld (F.threadStatus.state t n) = 0
  thread : u.thread (thrKey t n) = { s.thread (thrKey t n) with ending := .none, held := none }
  others : ∀ k, k ≠ thrKey t n → u.thread k = s.thread k
  tile : ∀ k, ∃ r, u.tile k = { s.tile k with retried := r }
  regs : ∀ k, k ≠ R.threadStatus t n → u.reg k = s.reg k + add k
  marks : MarksOnly s u (s.ctxOf t n)

theorem Idles.adds {a b : Nat → Word} (h : Idles s m t n a) (h' : Adds m u b) (hb : b (R.threadStatus t n) = 0) :
    Idles s u t n fun k => a k + b k := by
  refine ⟨by rw [h'.fld hb, h.state], by rw [h'.thread, h.thread], fun k hk => by rw [h'.thread, h.others k hk], fun k => ?_, fun k hk => ?_,
    fun x hx => ?_, fun hr x => ?_⟩
  · obtain ⟨r, hr⟩ := h.tile k
    obtain ⟨r', hr'⟩ := h'.tile k
    exact ⟨r', by rw [hr', hr]⟩
  · rw [h'.reg, h.regs k hk, add_assoc]
  · rw [← h.marks.mem x hx]; simp only [State.byte, h'.mem]
  · rw [← h.marks.none hr x]; simp only [State.byte, h'.mem]

/-- Thread `n` of tile `t` reads idle, and ends in nothing. -/
def State.ended (s : State) (t n : Nat) : State :=
  (s.setThread (thrKey t n) { s.thread (thrKey t n) with ending := .none, held := none }).setFld (F.threadStatus.state t n) 0

theorem thread_ended (s : State) (t n k : Nat) : (s.ended t n).thread k =
    if thrKey t n = k then { s.thread (thrKey t n) with ending := .none, held := none } else s.thread k := State.thread_setThread _ _ _ _

theorem reg_ended (s : State) {t n k : Nat} (h : k ≠ R.threadStatus t n) : (s.ended t n).reg k = s.reg k :=
  State.reg_setFld_other _ (F.threadStatus.state t n) 0 k (Ne.symm h)

/-- The state in which a thread has become idle, before what its end signals. -/
def State.idled (s : State) (t n : Nat) : State := (s.ended t n).threadStops (s.ctxOf t n)

theorem idles_idled (s : State) (t n : Nat) : Idles s (s.idled t n) t n fun _ => 0 := by
  obtain ⟨marks, only⟩ := State.threadStops_marks (s.ended t n) (s.ctxOf t n)
  exact {
    state := (marks.fld _).trans (fld_state_setFld _ t n 0 (by decide))
    thread := (marks.thread _).trans ((thread_ended ..).trans (if_pos rfl))
    others := fun k hk => (marks.thread _).trans ((thread_ended ..).trans (if_neg (Ne.symm hk)))
    tile := fun k => ⟨(s.tile k).retried, marks.tile k⟩
    regs := fun k hk => by rw [add_zero]; exact (marks.reg _).trans (reg_ended s hk)
    marks := ⟨only.mem, only.none⟩ }

theorem QuietCounter.idled {p : Nat} (hq : QuietCounter s p) (ht : t < 256) (hn : n < 16) : QuietCounter (s.idled t n) p := by
  obtain ⟨marks, -⟩ := State.threadStops_marks (s.ended t n) (s.ctxOf t n)
  refine hq.congr ?_ (congrArg Tile.watches (marks.tile _)) fun k hk => (marks.reg k).trans (reg_ended s ?_)
  · rw [State.idled, marks.threads]
    exact waits_setThread fun x hx => ⟨x, hx, rfl⟩
  · exact fun e => threadRegs_not_tellers (t := t) (n := n) ht hn (by simp [threadRegs, e]) hk

/-- What a thread that ends in no `HALT` does as it becomes idle. -/
theorem State.goIdle_stop (h : (s.thread (thrKey t n)).ending ≠ .halt) : s.goIdle t n = s.idled t n := if_neg h

theorem syncCount_ne_status {o : Nat} (hn : n < 16) (ho : o < 64) : R.threadStatus t n ≠ R.syncCount t o := by
  unfold R.threadStatus R.syncCount; omega

theorem exitObj_lt (s : State) (t n : Nat) : s.fld (F.threadCtl.exitObj t n) < 64 := BitVec.isLt _

theorem threadCtl_ne_status : R.threadCtl t n ≠ R.threadStatus t n := by unfold R.threadCtl R.threadStatus; omega

theorem exitObj_count_lt (ht : t < 256) (s : State) (n : Nat) : R.syncCount t (s.fld (F.threadCtl.exitObj t n)) < 0x200000000 := by
  have := exitObj_lt s t n
  unfold R.syncCount; omega

/-- The `EXIT_OBJ` add of a thread that ends (R37). -/
def State.exits (s : State) (t n : Nat) : State :=
  if s.bit (F.threadCtl.exitEn t n) then s.syncAdd (R.syncCount t (s.fld (F.threadCtl.exitObj t n))) 1 else s

theorem Adds.exits (ht : t < 256)
    (hx : s.bit (F.threadCtl.exitEn t n) = true → QuietCounter s (R.syncCount t (s.fld (F.threadCtl.exitObj t n)))) :
    Adds s (s.exits t n) (s.exitAdd t n) := by
  unfold State.exits
  cases he : s.bit (F.threadCtl.exitEn t n) with
  | false =>
    have : s.exitAdd t n = fun _ => 0 := by funext k; simp [State.exitAdd, he]
    simpa [this] using Adds.refl s
  | true =>
    have : s.exitAdd t n = fun k => if k = R.syncCount t (s.fld (F.threadCtl.exitObj t n)) then 1 else 0 := by
      funext k; simp [State.exitAdd, he]
    simpa [this] using Adds.syncAdd (hx he) (exitObj_count_lt ht s n)

theorem exitAdd_tellers (ht : t < 256) {k : Nat} (h : tellers k) : s.exitAdd t n k = 0 := by
  unfold State.exitAdd
  refine if_neg ?_
  rintro ⟨-, rfl⟩
  exact not_tellers_of_lt (exitObj_count_lt ht s n) h

theorem exitAdd_status (hn : n < 16) : s.exitAdd t n (R.threadStatus t n) = 0 := by
  unfold State.exitAdd
  refine if_neg ?_
  rintro ⟨-, e⟩
  exact syncCount_ne_status hn (exitObj_lt s t n) e

/-- What a thread that ends in the `HALT` it holds does as it becomes idle: the `EXIT_OBJ` add, and the `DONE_OBJ` of the `HALT` (R34, R37). -/
theorem idles_goIdle_halt (ht : t < 256) (hn : n < 16) (ending : (s.thread (thrKey t n)).ending = .halt)
    (held : (s.thread (thrKey t n)).held = some w) (hd : s.doneQuiet t w)
    (hx : s.bit (F.threadCtl.exitEn t n) = true → QuietCounter s (R.syncCount t (s.fld (F.threadCtl.exitObj t n)))) :
    Idles s (s.goIdle t n) t n fun k => s.exitAdd t n k + doneAdd t w k := by
  have idle := idles_idled s t n
  have goes : s.goIdle t n = ((s.idled t n).exits t n).signalDone t w := by
    unfold State.goIdle
    simp only [ending, held, if_true]
    rfl
  have ctl : (s.idled t n).reg (R.threadCtl t n) = s.reg (R.threadCtl t n) := by rw [idle.regs _ threadCtl_ne_status, add_zero]
  have en : (s.idled t n).bit (F.threadCtl.exitEn t n) = s.bit (F.threadCtl.exitEn t n) := State.bit_congr ctl
  have obj : (s.idled t n).fld (F.threadCtl.exitObj t n) = s.fld (F.threadCtl.exitObj t n) := State.fld_congr ctl
  have same : (s.idled t n).exitAdd t n = s.exitAdd t n := by funext k; simp only [State.exitAdd, en, obj]
  have exits : Adds (s.idled t n) ((s.idled t n).exits t n) (s.exitAdd t n) :=
    same ▸ Adds.exits ht fun e => obj ▸ (hx (en ▸ e)).idled ht hn
  have quiet : (s.idled t n).doneQuiet t w := fun e => (hd e).idled ht hn
  have quiet : ((s.idled t n).exits t n).doneQuiet t w := fun e => (quiet e).adds exits fun _ hk => exitAdd_tellers ht hk
  rw [goes]
  have h := (idle.adds exits (exitAdd_status hn)).adds (Adds.signalDone quiet ht) (doneAdd_thread hn).2
  simpa only [zero_add] using h

end Sys2Proof.Machine
end

section
/-! SUPPORT. The flow rows (R37, R38, R503). -/

namespace Sys2Proof.Machine

variable {s m u : State} {t n : Nat} {w : Desc}

/-! ### Going to an address -/

/-- A thread that has gone elsewhere tells nothing new of a quiet `DONE_OBJ`. -/
theorem State.doneQuiet_of_regs (ht : t < 256) (hn : n < 16) (hw : ∀ e ∈ m.threads, ∀ x, e.2.wait = some x → ∃ f ∈ s.threads, f.2.wait = some x)
    (htl : ∀ k, (m.tile k).watches = (s.tile k).watches) (hr : RegsBut s m (threadRegs t n)) (hq : s.doneQuiet t w) : m.doneQuiet t w := fun hd =>
  (hq hd).congr
    (fun e he x hx => by
      obtain ⟨f, hf, hx⟩ := hw e he x hx
      exact ⟨f, hf, x, hx, rfl⟩)
    (htl _) fun k hk => hr k fun hm => threadRegs_not_tellers ht hn hm hk

/-- The waits and watches behind the fetch and a change to the calls and loops of a thread are those before. -/
theorem waits_fetched_modThread (s : State) (w : Desc) {f : Thread → Thread} (hf : ∀ x, (f x).wait = x.wait) :
    ∀ e ∈ ((s.afterFetch t n w).modThread (thrKey t n) f).threads, ∀ x, e.2.wait = some x → ∃ g ∈ s.threads, g.2.wait = some x :=
  waits_modThread (s.afterFetch t n w) (thrKey t n) f hf

/-- A flow descriptor changes its thread's stacks by `f` and goes to `a`. -/
theorem goesTo_goTo_modThread (ht : t < 256) (hn : n < 16) (hq : s.doneQuiet t w) (a : Nat) {f : Thread → Thread} (hf : ∀ x, (f x).wait = x.wait)
    (hu : u = ((s.afterFetch t n w).modThread (thrKey t n) f).goTo (s.nextIss t n w) a) :
    GoesTo s u t n w a ∧ u.thread (thrKey t n) = f (s.thread (thrKey t n)) := by
  subst hu
  refine ⟨goesTo_goTo ht hn hq a (waits_fetched_modThread s w hf) watches_afterFetch rfl rfl, ?_⟩
  have quiet : ((((s.afterFetch t n w).modThread (thrKey t n) f).setFld (F.threadStatus.state t n) 1).setReg (R.threadPc t n)
      (BitVec.ofNat 64 a)).doneQuiet t w :=
    State.doneQuiet_of_regs ht hn (waits_fetched_modThread s w hf) watches_afterFetch (fun k hk => by
      simp only [threadRegs, List.mem_cons, List.not_mem_nil, or_false, not_or] at hk
      rw [State.reg_setReg_other _ _ (Ne.symm hk.1), State.reg_setFld_other _ _ _ _ (by rw [state_reg]; exact Ne.symm hk.2)]
      rfl) hq
  exact ((Adds.signalDone quiet ht).thread _).trans (by simp)

/-- The same where loops may end, and none does: the thread keeps the loops `l`. -/
theorem goesTo_goBehind (ht : t < 256) (hn : n < 16) (hq : s.doneQuiet t w) (a : Nat) {l : List LoopFrame} (hl : ∀ g ∈ l.head?, g.stop ≠ a % 2 ^ 40)
    (hw : ∀ e ∈ m.threads, ∀ x, e.2.wait = some x → ∃ f ∈ s.threads, f.2.wait = some x) (htl : ∀ k, (m.tile k).watches = (s.tile k).watches)
    (hr : RegsBut s m []) (hm : m.mem = s.mem) :
    GoesTo s (m.goBehind (s.nextIss t n w) a l) t n w a
    ∧ (m.goBehind (s.nextIss t n w) a l).thread (thrKey t n) = { m.thread (thrKey t n) with loops := l } := by
  have went : WentOn s ((m.setFld (F.threadStatus.state t n) 1).arriveAt t n a l) t n a [] := wentOn_arriveAt a l hl hw htl hr (by simp) hm
  obtain ⟨pc, ready, -, regs, mem⟩ := went.signal hq ht hn (by simp)
  refine ⟨⟨pc, ready, regs, mem⟩, ?_⟩
  have adds := Adds.signalDone (went.doneQuiet ht hn (by simp) hq) ht
  refine (adds.thread _).trans ?_
  rw [State.arriveAt_straight _ t n a l hl]
  simp

/-! ### BRANCH -/

theorem State.runBranch_test {i : Iss} (lo : 1 ≤ dSel i.w) (hi : dSel i.w ≤ 4) (flag : dSel i.w ≤ 2 → dNum i.w < 4) :
    m.runBranch i = m.branchOn i (branchTest m i.t i.n i.w) := by
  unfold State.runBranch branchTest
  obtain h | h | h | h : dSel i.w = 1 ∨ dSel i.w = 2 ∨ dSel i.w = 3 ∨ dSel i.w = 4 := by omega
  · have := flag (by omega)
    simp only [h]; exact if_neg (by omega)
  · have := flag (by omega)
    simp only [h]; exact if_neg (by omega)
  · simp only [h]; exact if_neg (by omega)
  · simp only [h]; exact if_neg (by omega)

theorem State.runBranch_object {i : Iss} (sel : dSel i.w = 0) (cond : dCond i.w < 6) :
    ∃ away, m.runBranch i = m.onObject i (fun s p => s.branchOn i (waitHolds (dCond i.w) (s.reg p) (m.ix i.t i.n (dNum i.w)))) away := by
  unfold State.runBranch
  simp only [sel]
  exact ⟨_, if_neg (by omega)⟩

/-! ### HALT -/

theorem advance_straight (h : s.straight t n) : (s.afterFetch t n w).advance (s.nextIss t n w) =
    ((s.afterFetch t n w).modThread (thrKey t n) fun th => { th with loops := (s.thread (thrKey t n)).loops }).setReg (R.threadPc t n)
      (BitVec.ofNat 64 (pcPlus (s.pcOf t n) 1)) :=
  State.arriveAt_straight _ t n (pcPlus (s.pcOf t n) 1) _ h

/-- A thread that has come to a `HALT`: it goes on, holds the `HALT` and stops (R37). -/
def State.atHalt (s : State) (t n : Nat) (w : Desc) : State :=
  ((((s.afterFetch t n w).advance (s.nextIss t n w)).hold (s.nextIss t n w)).modThread (thrKey t n) fun th => { th with ending := .halt }).setFld
    (F.threadStatus.state t n) 7

theorem runHalt_eq : (s.afterFetch t n w).runHalt (s.nextIss t n w) =
    if ((s.atHalt t n w).thread (thrKey t n)).pend = [] then (s.atHalt t n w).goIdle t n else s.atHalt t n w := rfl

theorem atHalt_straight (h : s.straight t n) : s.atHalt t n w =
    (((((s.afterFetch t n w).modThread (thrKey t n) fun th => { th with loops := (s.thread (thrKey t n)).loops }).setReg (R.threadPc t n)
      (BitVec.ofNat 64 (pcPlus (s.pcOf t n) 1))).modThread (thrKey t n) (fun th => { th with held := some w })).modThread (thrKey t n)
        (fun th => { th with ending := .halt })).setFld (F.threadStatus.state t n) 7 := by
  unfold State.atHalt
  rw [advance_straight h]
  rfl

theorem thread_atHalt (h : s.straight t n) :
    (s.atHalt t n w).thread (thrKey t n) = { s.thread (thrKey t n) with held := some w, ending := .halt } := by
  rw [atHalt_straight h]
  simp

theorem regs_atHalt (h : s.straight t n) : RegsBut s (s.atHalt t n w) (threadRegs t n) := fun k hk => by
  simp only [threadRegs, List.mem_cons, List.not_mem_nil, or_false, not_or] at hk
  rw [atHalt_straight h, State.reg_setFld_other _ _ _ _ (by rw [state_reg]; exact Ne.symm hk.2)]
  exact State.reg_setReg_other _ _ (Ne.symm hk.1)

/-- Every wait of `m` is one of `s`. -/
def WaitsFrom (s m : State) : Prop := ∀ e ∈ m.threads, ∀ x, e.2.wait = some x → ∃ f ∈ s.threads, f.2.wait = some x

theorem WaitsFrom.modThread {k : Nat} {f : Thread → Thread} (h : WaitsFrom s m) (hf : ∀ x, (f x).wait = x.wait) : WaitsFrom s (m.modThread k f) := by
  intro e he x hx
  obtain ⟨g, hg, hx⟩ := waits_modThread m k f hf e he x hx
  exact h g hg x hx

theorem WaitsFrom.setReg {k : Nat} {v : Word} (h : WaitsFrom s m) : WaitsFrom s (m.setReg k v) := h
theorem WaitsFrom.setFld {f : Fld} {v : Nat} (h : WaitsFrom s m) : WaitsFrom s (m.setFld f v) := h

theorem waits_atHalt (h : s.straight t n) : WaitsFrom s (s.atHalt t n w) := by
  have fetched : WaitsFrom s (s.afterFetch t n w) := fun e he x hx => ⟨e, he, hx⟩
  rw [atHalt_straight h]
  exact .setFld (.modThread (.modThread (.setReg (.modThread fetched fun _ => rfl)) fun _ => rfl) fun _ => rfl)

theorem watches_atHalt (h : s.straight t n) (k : Nat) : ((s.atHalt t n w).tile k).watches = (s.tile k).watches := by
  rw [atHalt_straight h]
  exact watches_afterFetch k

theorem state_atHalt : (s.atHalt t n w).fld (F.threadStatus.state t n) = 7 := fld_state_setFld _ t n 7 (by decide)

theorem MarksOnly.of_eq {c : Nat} (h : MarksOnly m u c) (hm : m.mem = s.mem) (hr : m.rings = s.rings) : MarksOnly s u c := by
  have same : SameBytes s m := sameBytes_of_mem hm
  refine ⟨fun b hb => (h.mem b hb).trans (same b), fun hn b => (h.none ?_ b).trans (same b)⟩
  simpa only [State.ring, hr] using hn

/-! ### The end of a loop's body -/

theorem State.arriveAt_again {f : LoopFrame} {rest : List LoopFrame} {a : Nat} (stop : f.stop = a % 2 ^ 40) (left : 1 < f.left) :
    m.arriveAt t n a (f :: rest) =
      let v := m.setIx t n f.ixa (m.ix t n f.ixa + BitVec.ofInt 64 (16 * f.inca))
      ((v.setIx t n f.ixb (v.ix t n f.ixb + BitVec.ofInt 64 (16 * f.incb))).modThread (thrKey t n) fun th =>
        { th with loops := { f with left := f.left - 1 } :: rest }).setReg (R.threadPc t n) (BitVec.ofNat 64 (2 ^ 40 * (a / 2 ^ 40) + f.first)) := by
  simp only [State.arriveAt, if_pos stop, if_pos left]

end Sys2Proof.Machine
end

section
/-! SUPPORT. The flow rows, and the end of a loop's body, settled. -/

namespace Sys2Proof.Machine

variable {s m u : State} {t n : Nat} {w : Desc}

/-- A `HALT` with nothing outstanding: the thread is idle, with the adds of its end. -/
theorem halt_idle (ht : t < 256) (hn : n < 16) (hs : s.straight t n) (hq : s.doneQuiet t w)
    (hx : s.bit (F.threadCtl.exitEn t n) = true → QuietCounter s (R.syncCount t (s.fld (F.threadCtl.exitObj t n)))) :
    (((s.atHalt t n w).goIdle t n).fld (F.threadStatus.state t n) = 0)
    ∧ (∀ k, k ∉ threadRegs t n → ((s.atHalt t n w).goIdle t n).reg k = s.reg k + s.exitAdd t n k + doneAdd t w k)
    ∧ MarksOnly s ((s.atHalt t n w).goIdle t n) (s.ctxOf t n) := by
  have regs := regs_atHalt (w := w) hs
  have ctl : (s.atHalt t n w).reg (R.threadCtl t n) = s.reg (R.threadCtl t n) :=
    regs _ (by simp [threadRegs, threadCtl_ne_status]; unfold R.threadCtl R.threadPc; omega)
  have en : (s.atHalt t n w).bit (F.threadCtl.exitEn t n) = s.bit (F.threadCtl.exitEn t n) := State.bit_congr ctl
  have obj : (s.atHalt t n w).fld (F.threadCtl.exitObj t n) = s.fld (F.threadCtl.exitObj t n) := State.fld_congr ctl
  have ctx : (s.atHalt t n w).ctxOf t n = s.ctxOf t n := State.fld_congr (f := F.threadCtl.ctx t n) ctl
  have adds : (s.atHalt t n w).exitAdd t n = s.exitAdd t n := by funext k; simp only [State.exitAdd, en, obj]
  have quiet {p} (h : QuietCounter s p) : QuietCounter (s.atHalt t n w) p :=
    h.congr (fun e he x hx => by
      obtain ⟨f, hf, hx⟩ := waits_atHalt hs e he x hx
      exact ⟨f, hf, x, hx, rfl⟩) (watches_atHalt hs _) fun k hk => regs k fun hm => threadRegs_not_tellers ht hn hm hk
  have th := thread_atHalt (w := w) hs
  have idles := idles_goIdle_halt (s := s.atHalt t n w) (w := w) ht hn (by rw [th]) (by rw [th]) (fun e => quiet (hq e)) fun e => obj ▸ quiet (hx (en ▸ e))
  refine ⟨idles.state, fun k hk => ?_, ?_⟩
  · rw [idles.regs k fun e => hk (by simp [threadRegs, e]), regs k hk, adds, add_assoc]
  · refine MarksOnly.of_eq (m := s.atHalt t n w) (ctx ▸ idles.marks) ?_ ?_ <;> rw [atHalt_straight hs] <;> rfl

/-- The state in which a thread comes round a loop behind a `NOP`, before `DONE_OBJ` is signalled. -/
def State.comesRound (s : State) (t n : Nat) (w : Desc) (f : LoopFrame) (rest : List LoopFrame) : State :=
  let v := ((s.afterFetch t n w).setFld (F.threadStatus.state t n) 1).setIx t n f.ixa (s.ix t n f.ixa + BitVec.ofInt 64 (16 * f.inca))
  ((v.setIx t n f.ixb (s.ix t n f.ixb + BitVec.ofInt 64 (16 * f.incb))).modThread (thrKey t n) fun th =>
    { th with loops := { f with left := f.left - 1 } :: rest }).setReg (R.threadPc t n)
      (BitVec.ofNat 64 (2 ^ 40 * (pcPlus (s.pcOf t n) 1 / 2 ^ 40) + f.first))

theorem ix_ne_ix {j k : Nat} (h : j ≠ k) : R.ix t n j ≠ R.ix t n k := by unfold R.ix; omega

theorem syncDone_comesRound {f : LoopFrame} {rest : List LoopFrame} (hl : (s.thread (thrKey t n)).loops = f :: rest)
    (stop : f.stop = pcPlus (s.pcOf t n) 1 % 2 ^ 40) (left : 1 < f.left) (ha : f.ixa < 8) (hb : f.ixb < 8) (hab : f.ixa ≠ f.ixb) :
    (s.afterFetch t n w).syncDone (s.nextIss t n w) = (s.comesRound t n w f rest).signalDone t w := by
  have status {k : Nat} (hk : k < 8) (m : State) : (m.setFld (F.threadStatus.state t n) 1).ix t n k = m.ix t n k :=
    State.reg_setFld_other _ _ _ _ (threadStatus_ne_ix hk)
  have loops : ((s.afterFetch t n w).thread (thrKey t n)).loops = f :: rest := hl
  show ((((s.afterFetch t n w).setFld (F.threadStatus.state t n) 1).arriveAt t n (pcPlus (s.pcOf t n) 1)
    ((s.afterFetch t n w).thread (thrKey t n)).loops).signalDone t w) = _
  rw [loops, State.arriveAt_again stop left]
  dsimp only
  have ixb (v : Word) : ((((s.afterFetch t n w).setFld (F.threadStatus.state t n) 1).setIx t n f.ixa v).ix t n f.ixb) = s.ix t n f.ixb :=
    (State.reg_setReg_other _ _ (ix_ne_ix hab)).trans (status hb _)
  have ixa : ((s.afterFetch t n w).setFld (F.threadStatus.state t n) 1).ix t n f.ixa = s.ix t n f.ixa := status ha _
  rw [ixb, ixa]
  rfl

theorem reg_comesRound {f : LoopFrame} {rest : List LoopFrame} {k : Nat} (hk : k ∉ [R.ix t n f.ixa, R.ix t n f.ixb] ++ threadRegs t n) :
    (s.comesRound t n w f rest).reg k = s.reg k := by
  simp only [threadRegs, List.cons_append, List.nil_append, List.mem_cons, List.not_mem_nil, or_false, not_or] at hk
  obtain ⟨a, b, pc, status⟩ := hk
  unfold State.comesRound
  rw [State.reg_setReg_other _ _ (Ne.symm pc)]
  exact (State.reg_setReg_other _ _ (Ne.symm b)).trans
    ((State.reg_setReg_other _ _ (Ne.symm a)).trans (State.reg_setFld_other _ _ _ _ (Ne.symm status)))

theorem loops_comesRound {f : LoopFrame} {rest : List LoopFrame} :
    ((s.comesRound t n w f rest).thread (thrKey t n)).loops = { f with left := f.left - 1 } :: rest := by
  simp [State.comesRound]

theorem waits_comesRound {f : LoopFrame} {rest : List LoopFrame} : WaitsFrom s (s.comesRound t n w f rest) := by
  have fetched : WaitsFrom s (s.afterFetch t n w) := fun e he x hx => ⟨e, he, hx⟩
  unfold State.comesRound
  exact .setReg (.modThread (.setReg (.setReg (.setFld fetched))) fun _ => rfl)

/-- Behind the last descriptor of a loop's body both increments are applied and the thread is at the first again (R38). -/
theorem comesRound_spec (ht : t < 256) (hn : n < 16) {f : LoopFrame} {rest : List LoopFrame} (hq : s.doneQuiet t w) (ha : f.ixa < 8)
    (hb : f.ixb < 8) (hab : f.ixa ≠ f.ixb) (hu : u = (s.comesRound t n w f rest).signalDone t w) :
    u.reg (R.threadPc t n) = BitVec.ofNat 64 (2 ^ 40 * (pcPlus (s.pcOf t n) 1 / 2 ^ 40) + f.first)
    ∧ u.ix t n f.ixa = s.ix t n f.ixa + BitVec.ofInt 64 (16 * f.inca)
    ∧ u.ix t n f.ixb = s.ix t n f.ixb + BitVec.ofInt 64 (16 * f.incb)
    ∧ (u.thread (thrKey t n)).loops = { f with left := f.left - 1 } :: rest
    ∧ RegsDone s u t n w [R.ix t n f.ixa, R.ix t n f.ixb] ∧ SameBytes s u := by
  subst hu
  have quiet : (s.comesRound t n w f rest).doneQuiet t w := fun hd =>
    (hq hd).congr (fun e he x hx => by
      obtain ⟨g, hg, hx⟩ := waits_comesRound e he x hx
      exact ⟨g, hg, x, hx, rfl⟩) (watches_afterFetch _) fun k hk => reg_comesRound (fun hm => by
        rcases List.mem_append.mp hm with hm | hm
        · simp only [List.mem_cons, List.not_mem_nil, or_false] at hm
          rcases hm with rfl | rfl <;> exact not_tellers_of_lt (by unfold R.ix; omega) hk
        · exact threadRegs_not_tellers ht hn hm hk)
  have adds := Adds.signalDone quiet ht
  refine ⟨?_, ?_, ?_, ?_, fun k hk => by rw [adds.reg, reg_comesRound hk], sameBytes_of_mem adds.mem⟩
  · rw [adds.reg, (doneAdd_thread hn).1, add_zero]
    exact State.reg_setReg_same _ _ _
  · rw [State.ix, adds.reg, doneAdd_ix hn ha, add_zero]
    exact (State.reg_setReg_other _ _ (threadPc_ne_ix ha)).trans
      ((State.reg_setReg_other _ _ (Ne.symm (ix_ne_ix hab))).trans (State.reg_setReg_same _ _ _))
  · rw [State.ix, adds.reg, doneAdd_ix hn hb, add_zero]
    exact (State.reg_setReg_other _ _ (threadPc_ne_ix hb)).trans (State.reg_setReg_same _ _ _)
  · rw [adds.thread, loops_comesRound]

/-- The loop a `LOOP` enters. -/
def State.loopFrame (s : State) (t n : Nat) (w : Desc) : LoopFrame where
  first := pcPlus (s.pcOf t n) 1 % 2 ^ 40
  stop := pcPlus (s.pcOf t n) (1 + dBody w) % 2 ^ 40
  left := dLoopCount w
  ixa := dIxa w
  inca := dInca w
  ixb := dIxb w
  incb := dIncb w

/-- A `JUMP`, or a `BRANCH` that is taken, leaves the loops that do not hold its target. -/
theorem jump_loops (ht : t < 256) (hn : n < 16) (hq : s.doneQuiet t w) :
    GoesTo s ((s.afterFetch t n w).jump (s.nextIss t n w)) t n w (pcPlus (s.pcOf t n) (dTarget w))
    ∧ (((s.afterFetch t n w).jump (s.nextIss t n w)).thread (thrKey t n)).loops
        = loopsAt (s.thread (thrKey t n)).loops (pcPlus (s.pcOf t n) (dTarget w) % 2 ^ 40) := by
  obtain ⟨goes, th⟩ := goesTo_goTo_modThread ht hn hq (pcPlus (s.pcOf t n) (dTarget w))
    (f := fun th => { th with loops := loopsAt th.loops (pcPlus (s.pcOf t n) (dTarget w) % 2 ^ 40) }) (fun _ => rfl) rfl
  exact ⟨goes, congrArg Thread.loops th⟩

/-- Settles O2: each row's change to its thread's stacks, and the address it goes to; a `HALT` by what a thread does as it becomes idle; the end of a
loop's body by the step of the loops there. -/
theorem flowRowsComplete : Obligations.FlowRowsComplete := by
  unfold Obligations.FlowRowsComplete
  refine ⟨fun t n w s hq => ⟨fun i => ?jump, fun i lo hi flag hs => ?branch, fun p i sel cond hp hs => ?object, fun i room => ?call,
    fun a rest i calls hl => ?ret, fun i body room count => ?loop, fun i body none count => ?skip, fun i hs pend hx => ?halt, fun i hs pend => ?halting⟩,
    fun t n w s f rest hq i hl stop left ha hb hab => ?round⟩
  case jump =>
    exact i.does rfl rfl rfl rfl (jump_loops t.isLt n.isLt hq)
  case branch =>
    refine i.does rfl rfl rfl (State.runBranch_test lo hi flag) ?_
    split
    · next taken => exact (congrArg (State.branchOn _ _) taken).symm ▸ jump_loops t.isLt n.isLt hq
    · next missed =>
      have done := (Effect.fetched s t n w).done t.isLt n.isLt ⟨hs, hq⟩
      exact (congrArg (State.branchOn _ _) (Bool.eq_false_iff.mpr missed)).symm ▸ ⟨stepsOn_nothing t.isLt n.isLt ⟨hs, hq⟩, done.loops⟩
  case object =>
    obtain ⟨away, run⟩ := State.runBranch_object (m := s.afterFetch t n w) (i := s.nextIss t n w) sel cond
    refine i.does rfl rfl rfl (run.trans (onObject_afterFetch hp _ _)) ?_
    split
    · next taken => exact (congrArg (State.branchOn _ _) taken).symm ▸ jump_spec t.isLt n.isLt hq
    · next missed => exact (congrArg (State.branchOn _ _) (Bool.eq_false_iff.mpr missed)).symm ▸ stepsOn_nothing t.isLt n.isLt ⟨hs, hq⟩
  case call =>
    obtain ⟨goes, th⟩ := goesTo_goTo_modThread t.isLt n.isLt hq (pcPlus (s.pcOf t n) (dTarget w))
      (f := fun th => { th with calls := pcPlus (s.pcOf t n) 1 :: th.calls }) (fun _ => rfl) rfl
    exact i.does rfl rfl rfl (if_neg (Nat.not_le.mpr room)) ⟨goes, congrArg Thread.calls th⟩
  case ret =>
    have top : ((s.afterFetch t n w).thread (s.nextIss t n w).key).calls = a :: rest := calls
    obtain ⟨goes, th⟩ := goesTo_goBehind (m := (s.afterFetch t n w).modThread (thrKey t n) fun th => { th with calls := rest }) t.isLt n.isLt hq a
      hl (waits_fetched_modThread s w fun _ => rfl) watches_afterFetch (RegsBut.refl _ _) rfl
    refine i.does rfl rfl rfl ?_ ⟨goes, ?_⟩
    · simp only [State.runReturn, top]
      rfl
    · rw [th, State.thread_modThread_same]
  case loop =>
    obtain ⟨goes, th⟩ := goesTo_goTo_modThread t.isLt n.isLt hq (pcPlus (s.pcOf t n) 1)
      (f := fun th => { th with loops := s.loopFrame t n w :: th.loops }) (fun _ => rfl) rfl
    exact i.does rfl rfl rfl ((if_neg body).trans ((if_neg (Nat.not_le.mpr room)).trans (if_neg count))) ⟨goes, congrArg Thread.loops th⟩
  case skip =>
    have room : ¬ 4 ≤ ((s.afterFetch t n w).thread (s.nextIss t n w).key).loops.length := by
      rw [show ((s.afterFetch t n w).thread (s.nextIss t n w).key).loops = [] from none]; decide
    obtain ⟨goes, th⟩ := goesTo_goBehind (m := s.afterFetch t n w) t.isLt n.isLt hq (pcPlus (s.pcOf t n) (1 + dBody w)) (l := []) (by simp)
      (fun e he x hx => ⟨e, he, hx⟩) watches_afterFetch (RegsBut.refl _ _) rfl
    refine i.does rfl rfl rfl ((if_neg body).trans ((if_neg room).trans ((if_pos count).trans ?_))) ⟨goes, by rw [th]⟩
    exact congrArg ((s.afterFetch t n w).goBehind (s.nextIss t n w) _) none
  case halt =>
    obtain ⟨idle, regs, marks⟩ := halt_idle t.isLt n.isLt hs hq hx
    refine i.does rfl rfl rfl (runHalt_eq.trans (if_pos ?_)) ⟨idle, regs, marks⟩
    rw [thread_atHalt hs]
    exact pend
  case halting =>
    refine i.does rfl rfl rfl (runHalt_eq.trans (if_neg ?_)) ⟨state_atHalt, by rw [thread_atHalt hs], regs_atHalt hs, ?_⟩
    · rw [thread_atHalt hs]
      exact pend
    · rw [atHalt_straight hs]
      exact fun _ => rfl
  case round =>
    exact i.does rfl rfl rfl (syncDone_comesRound hl stop left ha hb hab) (comesRound_spec t.isLt n.isLt hq ha hb hab rfl)

end Sys2Proof.Machine
end

section
/-! SUPPORT. A `WAIT` that is over (R33, R45, R245), and `START` and `STOP` of a thread (R33). -/

namespace Sys2Proof.Machine

variable {s m u : State} {t n c : Nat} {w : Desc}

/-- `u` is `s` with time that threads of context `c` were blocked counted (R245), and perhaps waits and watches given up. -/
structure Unwaits (s u : State) (c : Nat) : Prop where
  regs : RegsBut s u (waitTimes c)
  mem : u.mem = s.mem
  rings : u.rings = s.rings
  thread : ∀ k, u.thread k = { s.thread k with wait := (u.thread k).wait }
  waits : ∀ e ∈ u.threads, ∀ x, e.2.wait = some x → ∃ f ∈ s.threads, ∃ y, f.2.wait = some y ∧ y.obj = x.obj
  watches : ∀ k, ∀ e ∈ (u.tile k).watches, e ∈ (s.tile k).watches

theorem Unwaits.refl (s : State) (c : Nat) : Unwaits s s c :=
  ⟨RegsBut.refl _ _, rfl, rfl, fun _ => rfl, fun e he x hx => ⟨e, he, x, hx, rfl⟩, fun _ _ => id⟩

theorem Unwaits.bumpReg {k ps : Nat} (h : Unwaits s m c) (hk : k ∈ waitTimes c) : Unwaits s (m.bumpReg k ps) c :=
  ⟨fun j hj => (State.reg_setReg_other _ _ (ne_of_mem_of_not_mem hk hj)).trans (h.regs j hj), h.mem, h.rings, h.thread, h.waits, h.watches⟩

/-- Nothing but a thread's wait has changed, and it waits on no other object. -/
theorem Unwaits.setWait {k : Nat} (f : Option Wait → Option Wait) (h : Unwaits s m c)
    (hf : ∀ x, f (m.thread k).wait = some x → ∃ y, (m.thread k).wait = some y ∧ y.obj = x.obj) :
    Unwaits s (m.modThread k fun th => { th with wait := f th.wait }) c := by
  refine ⟨h.regs, h.mem, h.rings, fun j => ?_, fun e he x hx => ?_, h.watches⟩
  · rw [State.modThread, State.thread_setThread]
    split
    · next e => subst e; rw [h.thread k]
    · exact h.thread j
  · obtain ⟨g, hg, y, hy, obj⟩ := waits_setThread hf e he x hx
    obtain ⟨g', hg', z, hz, obj'⟩ := h.waits g hg y hy
    exact ⟨g', hg', z, hz, obj'.trans obj⟩

/-- What holds before, and is kept by the step for each element, holds after. -/
theorem forEach_induction {α : Type} {P : State → Prop} {l : List α} {f : State → α → State} (h : P s) (hf : ∀ m, P m → ∀ a ∈ l, P (f m a)) :
    P (forEach l f s) := List.foldlRecOn (motive := P) l f h hf

theorem Unwaits.queueWaited (s : State) (c obj : Nat) : Unwaits s (s.queueWaited c obj) c := by
  refine forEach_induction (P := fun m => Unwaits s m c) (forEach_induction (P := fun m => Unwaits s m c) (.refl s c) fun m h k hk => h.bumpReg ?_)
    fun m h k _ => h.setWait (Option.map _) fun x hx => ?_
  · exact List.mem_map.mpr ⟨k, (List.mem_filter.mp hk).1, rfl⟩
  · obtain ⟨y, hy, rfl⟩ := Option.map_eq_some_iff.mp hx
    exact ⟨y, hy, rfl⟩

theorem Unwaits.dropWatch {obj k : Nat} (h : Unwaits s m c) : Unwaits s (m.dropWatch obj k) c := by
  refine ⟨h.regs, h.mem, h.rings, h.thread, h.waits, fun j e he => h.watches j e ?_⟩
  simp only [State.dropWatch, State.modTile, State.tile_setTile] at he
  split at he
  · next eq => exact eq ▸ (List.mem_filter.mp he).1
  · exact he

theorem Unwaits.dropXfer {tid : Nat} (h : Unwaits s m c) : Unwaits s (m.dropXfer tid) c :=
  ⟨h.regs, h.mem, h.rings, h.thread, h.waits, h.watches⟩

/-- A thread gives up the `WAIT` it is blocked in. -/
theorem State.leaveWait_spec (s : State) (t n : Nat) :
    Unwaits s (s.leaveWait t n) (s.ctxOf t n) ∧ ((s.leaveWait t n).thread (thrKey t n)).wait = none := by
  have left (o : Nat) := (Unwaits.queueWaited s (s.ctxOf t n) o).setWait (k := thrKey t n) (fun _ => none) (by simp)
  have gone (o : Nat) : (((s.queueWaited (s.ctxOf t n) o).modThread (thrKey t n) fun th => { th with wait := none }).thread (thrKey t n)).wait = none := by
    rw [State.thread_modThread_same]
  unfold State.leaveWait
  dsimp only
  split
  · next none => exact ⟨.refl _ _, none⟩
  · next x _ =>
    split
    · exact ⟨(left x.obj).dropWatch, gone x.obj⟩
    · exact ⟨(left x.obj).dropXfer, gone x.obj⟩
    · exact ⟨left x.obj, gone x.obj⟩

theorem Unwaits.unreserve (h : Unwaits s m c) : Unwaits s (m.unreserve t n) c := by
  unfold State.unreserve
  split
  · refine ⟨h.regs, h.mem, h.rings, h.thread, h.waits, fun j e he => h.watches j e ?_⟩
    simp only [State.modTile, State.tile_setTile] at he
    split at he
    · next eq => exact eq ▸ he
    · exact he
  · exact h

end Sys2Proof.Machine
end

section
/-! SUPPORT. `START` and `STOP` of a thread (R33). -/

namespace Sys2Proof.Machine

variable {s m u : State} {t n c : Nat} {v : Word}

theorem or_and_mask {a mask : Word} (h : a &&& mask = 0) (v : Word) : (v ||| a) &&& mask = v &&& mask := by
  ext i hi
  have bit := congrArg (fun x : Word => x[i]) h
  simp only [BitVec.getElem_and, BitVec.getElem_or] at bit ⊢
  cases hm : mask[i]
  · simp
  · simp_all

/-! ### The three ways a write of `THREAD_CTL` goes -/

/-- A write with `STOP` set. -/
theorem writeThreadCtl_stop (ready : s.tileReady t = true) (stop : v.getLsbD 1 = true) : s.writeThreadCtl t n v =
    if s.threadRuns t n then s.stopThread t n else s.setReg (R.threadCtl t n) (v &&& threadCtlMask) := by
  unfold State.writeThreadCtl
  rw [if_neg (not_not.mpr ready)]
  simp only [stop, true_and, not_true, false_and, and_false, if_false]
  split
  · rfl
  · next idle => exact if_neg idle

theorem threadRuns_congr (h : m.reg (R.threadStatus t n) = s.reg (R.threadStatus t n)) : m.threadRuns t n = s.threadRuns t n := by
  simp only [State.threadRuns, State.fld_congr (f := F.threadStatus.state t n) h]

/-- A write with `START` alone to a thread that is idle or faulted. -/
theorem writeThreadCtl_start (ready : s.tileReady t = true) (start : v.getLsbD 0 = true) (stop : v.getLsbD 1 = false)
    (runs : s.threadRuns t n = false) : s.writeThreadCtl t n v = (s.setReg (R.threadCtl t n) (v &&& threadCtlMask)).startThread t n := by
  have still : (s.setReg (R.threadCtl t n) (v &&& threadCtlMask)).threadRuns t n = false :=
    (threadRuns_congr (State.reg_setReg_other _ _ threadCtl_ne_status)).trans runs
  simp only [State.writeThreadCtl, State.protectedWrite, ready, start, stop, runs, still, Bool.false_eq_true, not_true, not_false_iff, if_false, if_true,
    false_and, true_and]

/-- A write with `START` alone to a thread that runs: only its `WR_IGNORED` may change. -/
theorem writeThreadCtl_running (ready : s.tileReady t = true) (stop : v.getLsbD 1 = false) (runs : s.threadRuns t n = true) :
    s.writeThreadCtl t n v = if v &&& threadCtlMask = s.reg (R.threadCtl t n) &&& threadCtlMask then s
      else s.setBit (F.threadStatus.wrIgnored t n) true := by
  have state : (s.setBit (F.threadStatus.wrIgnored t n) true).threadRuns t n = s.threadRuns t n := by
    unfold State.threadRuns
    rw [show (s.setBit (F.threadStatus.wrIgnored t n) true).fld (F.threadStatus.state t n) = s.fld (F.threadStatus.state t n) from
      State.fld_setFld_other _ _ _ _ (.inl (by show 3 ≤ 17; decide))]
  simp only [State.writeThreadCtl, State.protectedWrite, ready, stop, runs, Bool.false_eq_true, not_true, if_false, false_and, if_true, not_false_iff, true_and]
  split
  · simp [runs]
  · simp [state, runs]

/-! ### START -/

theorem startThread_spec (s : State) (t n : Nat) :
    (s.startThread t n).reg (R.threadStatus t n) = 1 ∧ RegsBut s (s.startThread t n) [R.threadStatus t n]
    ∧ (s.startThread t n).thread (thrKey t n) = { pend := (s.thread (thrKey t n)).pend }
    ∧ (∀ l ∈ ((s.startThread t n).tile t).cache, l.ctx ≠ s.ctxOf t n) ∧ SameBytes s (s.startThread t n) := by
  refine ⟨State.reg_setReg_same _ _ _, fun k hk => State.reg_setReg_other _ _ (Ne.symm (by simpa using hk)), ?_, fun l hl => ?_, fun _ => rfl⟩
  · simp [State.startThread]
  · simp only [State.startThread, State.tile_setReg, State.tile_modTile_same, State.tile_modThread, List.mem_filter, bne_iff_ne] at hl
    exact hl.2

/-! ### STOP -/

/-- A thread that has given up what it waits for. -/
def State.withdrawn (s : State) (t n : Nat) : State := (s.leaveWait t n).unreserve t n

theorem withdrawn_spec (s : State) (t n : Nat) :
    Unwaits s (s.withdrawn t n) (s.ctxOf t n) ∧ (s.withdrawn t n).thread (thrKey t n) = { s.thread (thrKey t n) with wait := none } := by
  obtain ⟨left, none⟩ := s.leaveWait_spec t n
  have same : (s.withdrawn t n).thread (thrKey t n) = (s.leaveWait t n).thread (thrKey t n) := by
    unfold State.withdrawn State.unreserve
    split
    · rfl
    · rfl
  exact ⟨left.unreserve, by rw [same, left.thread, none]⟩

theorem threadCtl_not_waitTimes (c : Nat) : R.threadCtl t n ∉ waitTimes c := by
  simp only [waitTimes, List.mem_map, not_exists, not_and]
  unfold R.threadCtl R.qWaitPs
  omega

theorem stopThread_eq (runs : s.threadRuns t n = true) (going : s.fld (F.threadStatus.state t n) ≠ 7) : s.stopThread t n =
    let m := s.withdrawn t n
    let th := m.thread (thrKey t n)
    if th.pend.isEmpty && th.held.isNone then
      ((m.setThread (thrKey t n) { th with ending := .none }).setFld (F.threadStatus.state t n) 0).threadStops (m.ctxOf t n)
    else (m.setThread (thrKey t n) { th with ending := .stop }).setFld (F.threadStatus.state t n) 7 := by
  simp only [State.threadRuns, Bool.and_eq_true, bne_iff_ne] at runs
  exact if_neg (by omega)

/-- A thread that stops with nothing outstanding is idle. -/
theorem stopThread_idle (runs : s.threadRuns t n = true) (going : s.fld (F.threadStatus.state t n) ≠ 7) (pend : (s.thread (thrKey t n)).pend = [])
    (held : (s.thread (thrKey t n)).held = none) :
    (s.stopThread t n).fld (F.threadStatus.state t n) = 0 ∧ ((s.stopThread t n).thread (thrKey t n)).wait = none
    ∧ RegsBut s (s.stopThread t n) (R.threadStatus t n :: waitTimes (s.ctxOf t n)) ∧ MarksOnly s (s.stopThread t n) (s.ctxOf t n) := by
  obtain ⟨un, th⟩ := withdrawn_spec s t n
  have ctx : (s.withdrawn t n).ctxOf t n = s.ctxOf t n := State.fld_congr (f := F.threadCtl.ctx t n) (un.regs _ (threadCtl_not_waitTimes _))
  rw [stopThread_eq runs going]
  simp only [th, pend, held, List.isEmpty_nil, Option.isNone_none, Bool.and_true, if_true, ctx]
  generalize hm : ((s.withdrawn t n).setThread _ _).setFld (F.threadStatus.state t n) 0 = m
  obtain ⟨marks, only⟩ := State.threadStops_marks m (s.ctxOf t n)
  refine ⟨?_, ?_, fun k hk => ?_, only.of_eq (by rw [← hm]; exact un.mem) (by rw [← hm]; exact un.rings)⟩
  · rw [marks.fld, ← hm]
    exact fld_state_setFld _ t n 0 (by decide)
  · rw [marks.thread, ← hm]
    simp
  · simp only [List.mem_cons, not_or] at hk
    rw [marks.reg, ← hm]
    exact (State.reg_setFld_other _ _ _ _ (Ne.symm hk.1)).trans (un.regs k hk.2)

/-- A thread that stops with descriptors outstanding, or one it holds, reads stopping. -/
theorem stopThread_stopping (runs : s.threadRuns t n = true) (going : s.fld (F.threadStatus.state t n) ≠ 7)
    (left : (s.thread (thrKey t n)).pend ≠ [] ∨ (s.thread (thrKey t n)).held ≠ none) :
    (s.stopThread t n).fld (F.threadStatus.state t n) = 7
    ∧ (s.stopThread t n).thread (thrKey t n) = { s.thread (thrKey t n) with wait := none, ending := .stop }
    ∧ RegsBut s (s.stopThread t n) (R.threadStatus t n :: waitTimes (s.ctxOf t n)) ∧ SameBytes s (s.stopThread t n) := by
  obtain ⟨un, th⟩ := withdrawn_spec s t n
  have busy : ¬ ((s.thread (thrKey t n)).pend.isEmpty && (s.thread (thrKey t n)).held.isNone) = true := by
    simpa [imp_iff_not_or] using left
  rw [stopThread_eq runs going]
  simp only [th, busy]
  refine ⟨fld_state_setFld _ t n 7 (by decide), by simp, fun k hk => ?_, sameBytes_of_mem un.mem⟩
  simp only [List.mem_cons, not_or] at hk
  exact (State.reg_setFld_other _ _ _ _ (Ne.symm hk.1)).trans (un.regs k hk.2)

theorem bit_setBit_wrIgnored (s : State) (t n : Nat) : (s.setBit (F.threadStatus.wrIgnored t n) true).bit (F.threadStatus.wrIgnored t n) = true := by
  rw [State.bit_eq_fld _ _ rfl]
  exact beq_iff_eq.mpr (State.fld_setFld_same _ _ _ (by show 18 ≤ 64; decide))

/-- Settles O11, by the way each write of `THREAD_CTL` goes. -/
theorem threadControlCompletes : Obligations.ThreadControlCompletes := by
  unfold Obligations.ThreadControlCompletes
  intro t n v s ready
  have start0 : (v ||| 1).getLsbD 0 = true := by simp
  have start1 : (v ||| 1).getLsbD 1 = v.getLsbD 1 := by rw [BitVec.getLsbD_or, show (1 : Word).getLsbD 1 = false from rfl, Bool.or_false]
  have stop1 : (v ||| 2).getLsbD 1 = true := by rw [BitVec.getLsbD_or, show (2 : Word).getLsbD 1 = true from rfl, Bool.or_true]
  have mask1 : (v ||| 1) &&& threadCtlMask = v &&& threadCtlMask := or_and_mask (by decide) v
  have mask2 : (v ||| 2) &&& threadCtlMask = v &&& threadCtlMask := or_and_mask (by decide) v
  have stops (runs : s.threadRuns t n = true) : s.writeThreadCtl t n (v ||| 2) = s.stopThread t n :=
    (writeThreadCtl_stop ready stop1).trans (if_pos runs)
  refine ⟨fun runs stop => ⟨_, rfl, ?start⟩, fun runs stop => ⟨_, rfl, ?ignored⟩, fun stop => ⟨_, rfl, ?both⟩,
    fun runs going pend held => ⟨_, rfl, ?idle⟩, fun runs going left => ⟨_, rfl, ?stopping⟩, fun state => ⟨_, rfl, ?stopped⟩,
    fun runs => ⟨_, rfl, ?still⟩⟩
  case start =>
    rw [writeThreadCtl_start ready start0 (start1.trans stop) runs, mask1]
    obtain ⟨status, regs, thread, cache, mem⟩ := startThread_spec (s.setReg (R.threadCtl t n) (v &&& threadCtlMask)) t n
    have ctl := regs (R.threadCtl t n) (by simpa using threadCtl_ne_status)
    refine ⟨status, ctl.trans (State.reg_setReg_same _ _ _), thread, fun l hl => ?_, fun k hk => ?_, mem⟩
    · exact fun e => cache l hl (e.trans (State.fld_congr (f := F.threadCtl.ctx t n) ctl))
    · simp only [List.mem_cons, List.not_mem_nil, or_false, not_or] at hk
      rw [regs k (by simpa using hk.2)]
      exact State.reg_setReg_other _ _ (Ne.symm hk.1)
  case ignored =>
    rw [writeThreadCtl_running ready (start1.trans stop) runs, mask1]
    split
    · next same => exact ⟨by simp [same], RegsBut.refl _ _, rfl⟩
    · next changed =>
      refine ⟨?_, fun k hk => State.reg_setBit_other _ _ _ _ (Ne.symm (List.ne_of_not_mem_cons hk)), rfl⟩
      rw [bit_setBit_wrIgnored, bne_iff_ne.mpr changed, Bool.or_true]
  case both =>
    have same : s.writeThreadCtl t n (v ||| 2) = s.writeThreadCtl t n (v ||| 1) := by
      rw [writeThreadCtl_stop ready stop1, writeThreadCtl_stop ready (start1.trans stop), mask1, mask2]
    exact congrArg _ same
  case idle =>
    rw [stops runs]
    exact stopThread_idle runs going pend held
  case stopping =>
    rw [stops runs]
    obtain ⟨state, thread, regs, mem⟩ := stopThread_stopping runs going left
    exact ⟨state, by rw [thread], by rw [thread], by rw [thread], regs, mem⟩
  case stopped =>
    have runs : s.threadRuns t n = true := by simp [State.threadRuns, state]
    rw [stops runs]
    exact if_pos (.inr (.inr state))
  case still =>
    rw [writeThreadCtl_stop ready stop1, mask2, runs]
    exact ⟨State.reg_setReg_same _ _ _, fun k hk => State.reg_setReg_other _ _ (Ne.symm (by simpa using hk)), rfl⟩

end Sys2Proof.Machine
end

section
/-! SUPPORT. `EVENT`, and the completion of an asynchronous descriptor (R30, R31, R33, R34, R37). -/

namespace Sys2Proof.Machine

variable {s m u : State} {t n k : Nat} {w : Desc} {p : Pend}

/-! ### An event -/

/-- Queuing a notification of a log entry changes nothing but the objects of the subscription and the notices (R385). -/
theorem State.notify_only (s : State) (e : LogSlot) : ∃ o l, s.notify e = { s with objs := o, notices := l } := by
  unfold State.notify
  dsimp only
  split
  · exact ⟨s.objs, s.notices, rfl⟩
  · split
    · exact ⟨_, _, rfl⟩
    · exact ⟨_, _, rfl⟩

theorem logNextSeq_not_tellers : ¬ tellers R.logNextSeq := by
  rintro ⟨c, -, h | h | ⟨j, -, h⟩⟩
  · unfold R.logNextSeq R.fcObj at h; omega
  · unfold R.logNextSeq R.genBatchObj at h; omega
  · unfold R.logNextSeq R.genUseObj at h; omega

/-- An event of severity 0 that takes a slot of its own is there, and besides only `LOG_NEXT_SEQ` moves. -/
theorem raise_spec {code func unit data flags : Nat} (h : LogRoom m code 0 func unit k) :
    (m.raise code 0 func unit data [] flags).logSlot k = m.entryNow code 0 func unit data flags
    ∧ Effect m (m.raise code 0 func unit data [] flags) t n [R.logNextSeq] ∧ (m.raise code 0 func unit data [] flags).mem = m.mem := by
  have placed : m.raise code 0 func unit data [] flags
      = ((m.setLogSlot k (m.entryNow code 0 func unit data flags)).bumpReg R.logNextSeq).notify (m.entryNow code 0 func unit data flags) := by
    simp [State.raise, State.logPlace, h.apart, h.room, State.outcome, State.openSlot, State.entryNow]
  obtain ⟨o, l, eq⟩ := State.notify_only ((m.setLogSlot k (m.entryNow code 0 func unit data flags)).bumpReg R.logNextSeq)
    (m.entryNow code 0 func unit data flags)
  rw [placed, eq]
  refine ⟨Tab.get_put_same _ _ _ _, ⟨rfl, fun _ => rfl, fun j hj => ?_, ?_, ?_⟩, rfl⟩
  · exact State.reg_setReg_other _ _ (Ne.symm (by simpa using hj))
  · simp only [List.mem_singleton]; unfold R.threadPc R.logNextSeq; omega
  · simpa using logNextSeq_not_tellers

theorem Effect.behindFetch {ks : List Nat} (h : Effect (s.afterFetch t n w) m t n ks) : Effect s m t n ks :=
  ⟨h.threads, fun j => (h.watches j).trans (watches_afterFetch j), h.regs, h.pc, h.apart⟩

theorem Done.logSlot (h : Done m u t n w) (j : Nat) : u.logSlot j = m.logSlot j := by simp only [State.logSlot, h.log]

/-! ### A descriptor leaves its thread's list -/

/-- The state with descriptor `k` taken off its thread's list. -/
def State.pended (s : State) (t n k : Nat) : State :=
  s.setThread (thrKey t n) { s.thread (thrKey t n) with pend := (s.thread (thrKey t n)).pend.eraseIdx k }

/-- Its `DONE_OBJ` signalled, where it is to be. -/
def State.pendSignalled (s : State) (t n k : Nat) (p : Pend) : State :=
  if p.signal then (s.pended t n k).signalDone t p.word else s.pended t n k

theorem finishPend_eq (h : (s.thread (thrKey t n)).pend[k]? = some p) :
    s.finishPend t n k = ((s.pendSignalled t n k p).afterComplete t n (s.thread (thrKey t n)).pend.length).retryTile t := by
  simp only [State.finishPend, h]
  rfl

theorem QuietCounter.pended {o : Nat} (h : QuietCounter s o) : QuietCounter (s.pended t n k) o :=
  h.congr (waits_setThread fun x hx => ⟨x, hx, rfl⟩) rfl fun _ _ => rfl

theorem adds_pendSignalled (ht : t < 256) (hq : s.pendQuiet t p) : Adds (s.pended t n k) (s.pendSignalled t n k p) (pendAdd t p) := by
  unfold State.pendSignalled
  split
  · next signal =>
    have : pendAdd t p = doneAdd t p.word := by funext r; exact if_pos signal
    exact this ▸ Adds.signalDone (fun e => (hq signal e).pended) ht
  · next signal =>
    have : pendAdd t p = fun _ => 0 := by funext r; exact if_neg signal
    exact this ▸ Adds.refl _

theorem thread_pendSignalled (ht : t < 256) (hq : s.pendQuiet t p) (j : Nat) : (s.pendSignalled t n k p).thread j =
    if thrKey t n = j then { s.thread (thrKey t n) with pend := (s.thread (thrKey t n)).pend.eraseIdx k } else s.thread j := by
  rw [(adds_pendSignalled ht hq).thread]
  exact State.thread_setThread _ _ _ _

theorem pendAdd_eq_zero {r : Nat} (h : r ≠ R.syncCount t (dDoneObj p.word)) : pendAdd t p r = 0 := by
  unfold pendAdd
  split
  · exact doneAdd_eq_zero h
  · rfl

/-! ### The thread goes on, and the tile's threads look at its queues again -/

theorem status_mem_tileStatuses (hn : n < 16) : R.threadStatus t n ∈ tileStatuses t := List.mem_map.mpr ⟨n, List.mem_range.mpr hn, rfl⟩

/-- `u` is `s` with threads of tile `t` that read blocked on a queue reading ready. -/
structure Retried (s u : State) (t : Nat) : Prop where
  only : ∃ r, u = { s with regs := r }
  regs : RegsBut s u (tileStatuses t)
  state : ∀ n, n < 16 → s.fld (F.threadStatus.state t n) ≠ 3 → u.fld (F.threadStatus.state t n) = s.fld (F.threadStatus.state t n)

theorem Retried.mem (h : Retried s u t) : u.mem = s.mem := by obtain ⟨r, rfl⟩ := h.only; rfl
theorem Retried.rings (h : Retried s u t) : u.rings = s.rings := by obtain ⟨r, rfl⟩ := h.only; rfl
theorem Retried.threads (h : Retried s u t) : u.threads = s.threads := by obtain ⟨r, rfl⟩ := h.only; rfl
theorem Retried.thread (h : Retried s u t) (j : Nat) : u.thread j = s.thread j := by simp only [State.thread, h.threads]
theorem Retried.tile (h : Retried s u t) (j : Nat) : u.tile j = s.tile j := by obtain ⟨r, rfl⟩ := h.only; rfl

theorem Retried.ready {j : Nat} (h : Retried s m t) (hj : j < 16) (blocked : m.fld (F.threadStatus.state t j) = 3) :
    Retried s (m.setFld (F.threadStatus.state t j) 1) t := by
  obtain ⟨r, only⟩ := h.only
  refine ⟨⟨_, by rw [only]; rfl⟩, fun r hr => ?_, fun n hn ready => ?_⟩
  · exact (State.reg_setFld_other _ _ _ _ (ne_of_mem_of_not_mem (status_mem_tileStatuses hj) hr)).trans (h.regs r hr)
  · have apart : n ≠ j := by rintro rfl; exact ready ((h.state n hn ready).symm.trans blocked)
    refine (State.fld_setFld_other_reg _ _ _ _ ?_).trans (h.state n hn ready)
    show R.threadStatus t j ≠ R.threadStatus t n
    unfold R.threadStatus
    omega

theorem State.retryTile_spec (s : State) (t : Nat) : Retried s (s.retryTile t) t := by
  unfold State.retryTile
  refine forEach_induction (P := fun m => Retried s m t) ⟨⟨s.regs, rfl⟩, RegsBut.refl _ _, fun _ _ _ => rfl⟩ fun m h j hj => ?_
  split
  · next blocked => exact h.ready (List.mem_range.mp hj) blocked
  · exact h

/-- `u` is `s` with `add r` added to each register `r`, but for `THREAD_STATUS` of the tile's threads; with the lists of outstanding descriptors as they
were, and the same holder of the array; and with no byte changed but marks of the thread's ring set. -/
structure Completes (s u : State) (t n : Nat) (add : Nat → Word) : Prop where
  pend : ∀ j, (u.thread j).pend = (s.thread j).pend
  tile : ∀ j, ∃ r, u.tile j = { s.tile j with retried := r }
  regs : ∀ r, r ∉ tileStatuses t → u.reg r = s.reg r + add r
  marks : MarksOnly s u (s.ctxOf t n)

theorem Completes.refl (s : State) (t n : Nat) : Completes s s t n fun _ => 0 :=
  ⟨fun _ => rfl, fun j => ⟨(s.tile j).retried, rfl⟩, fun _ _ => (add_zero _).symm, fun _ _ => rfl, fun _ _ => rfl⟩

theorem Completes.retryTile {a : Nat → Word} (h : Completes s m t n a) : Completes s (m.retryTile t) t n a := by
  have retried := m.retryTile_spec t
  have same : SameBytes m (m.retryTile t) := sameBytes_of_mem retried.mem
  refine ⟨fun j => by rw [retried.thread, h.pend], fun j => ?_, fun r hr => (retried.regs r hr).trans (h.regs r hr), fun b hb => ?_, fun e b => ?_⟩
  · rw [retried.tile]
    exact h.tile j
  · rw [same b]
    exact h.marks.mem b hb
  · rw [same b]
    exact h.marks.none e b

theorem Idles.completes {a : Nat → Word} (h : Idles s u t n a) (hn : n < 16) : Completes s u t n a := by
  refine ⟨fun j => ?_, h.tile, fun r hr => h.regs r fun e => hr (e ▸ status_mem_tileStatuses hn), h.marks⟩
  by_cases e : j = thrKey t n
  · rw [e, h.thread]
  · rw [h.others j e]

/-- The same behind adds to counters. -/
theorem Completes.behind {a b : Nat → Word} (h : Adds s m a) (h' : Completes m u t n b) (ha : a (R.threadCtl t n) = 0) :
    Completes s u t n fun r => a r + b r := by
  have ctx : m.ctxOf t n = s.ctxOf t n := h.fld (f := F.threadCtl.ctx t n) ha
  refine ⟨fun j => by rw [h'.pend, h.thread], fun j => ?_, fun r hr => by rw [h'.regs r hr, h.reg, add_assoc], (ctx ▸ h'.marks).of_eq h.mem h.rings⟩
  obtain ⟨x, hx⟩ := h.tile j
  obtain ⟨y, hy⟩ := h'.tile j
  exact ⟨y, by rw [hy, hx]⟩

/-- The thread stays as it is, or reads ready where it was blocked (R29). -/
theorem afterComplete_goesOn {before : Nat} (hn : n < 16) (h : ¬ (m.fld (F.threadStatus.state t n) = 7 ∧ (m.thread (thrKey t n)).pend = []
    ∧ ((m.thread (thrKey t n)).held = none ∨ (m.thread (thrKey t n)).ending = .halt))) : Completes m (m.afterComplete t n before) t n fun _ => 0 := by
  unfold State.afterComplete
  dsimp only
  rw [if_neg h]
  split
  · refine ⟨fun _ => rfl, fun j => ⟨(m.tile j).retried, rfl⟩, fun r hr => ?_, fun _ _ => rfl, fun _ _ => rfl⟩
    rw [add_zero]
    exact State.reg_setFld_other _ _ _ _ (ne_of_mem_of_not_mem (status_mem_tileStatuses hn) hr)
  · exact Completes.refl m t n

theorem pendAdd_ctl (hn : n < 16) : pendAdd t p (R.threadCtl t n) = 0 := pendAdd_eq_zero (by unfold R.threadCtl R.syncCount; omega)
theorem pendAdd_status (hn : n < 16) : pendAdd t p (R.threadStatus t n) = 0 := pendAdd_eq_zero (syncCount_ne_status hn (dDoneObj_lt _))

theorem state_pendSignalled (ht : t < 256) (hn : n < 16) (hq : s.pendQuiet t p) :
    (s.pendSignalled t n k p).fld (F.threadStatus.state t n) = s.fld (F.threadStatus.state t n) :=
  (adds_pendSignalled ht hq).fld (pendAdd_status hn)

theorem eraseIdx_eq_nil (hk : (s.thread (thrKey t n)).pend[k]? = some p) :
    (s.thread (thrKey t n)).pend.eraseIdx k = [] ↔ (s.thread (thrKey t n)).pend.length = 1 := by
  obtain ⟨lt, -⟩ := List.getElem?_eq_some_iff.mp hk
  rw [← List.length_eq_zero_iff, List.length_eraseIdx_of_lt lt]
  omega

/-- A thread that becomes idle reads so. -/
theorem finishPend_idle {add : Nat → Word} (hn : n < 16) (hk : (s.thread (thrKey t n)).pend[k]? = some p)
    (h : Idles (s.pendSignalled t n k p)
    ((s.pendSignalled t n k p).afterComplete t n (s.thread (thrKey t n)).pend.length) t n add) :
    (s.finishPend t n k).fld (F.threadStatus.state t n) = 0 ∧ ((s.finishPend t n k).thread (thrKey t n)).held = none := by
  rw [finishPend_eq hk]
  have retried := State.retryTile_spec ((s.pendSignalled t n k p).afterComplete t n (s.thread (thrKey t n)).pend.length) t
  refine ⟨(retried.state n hn (by rw [h.state]; decide)).trans h.state, ?_⟩
  rw [retried.thread, h.thread]

section Finish
variable (ht : t < 256) (hn : n < 16) (hk : (s.thread (thrKey t n)).pend[k]? = some p) (hq : s.pendQuiet t p)
include ht hn hk hq

/-- What the end of an outstanding descriptor does, by what its thread does behind it. -/
theorem finishPend_completes {add : Nat → Word}
    (h : Completes (s.pendSignalled t n k p) ((s.pendSignalled t n k p).afterComplete t n (s.thread (thrKey t n)).pend.length) t n add) :
    Completes (s.pended t n k) (s.finishPend t n k) t n fun r => pendAdd t p r + add r := by
  rw [finishPend_eq hk]
  exact h.retryTile.behind (adds_pendSignalled ht hq) (pendAdd_ctl hn)

/-- The thread does not end in a `HALT`. -/
theorem finishPend_stop (going : ¬ ((s.thread (thrKey t n)).ending = .halt ∧ (s.thread (thrKey t n)).pend.length = 1
      ∧ s.fld (F.threadStatus.state t n) = 7)) :
    Completes (s.pended t n k) (s.finishPend t n k) t n (pendAdd t p)
    ∧ (s.fld (F.threadStatus.state t n) = 7 → (s.thread (thrKey t n)).pend.length = 1 → (s.thread (thrKey t n)).held = none →
      (s.finishPend t n k).fld (F.threadStatus.state t n) = 0) := by
  have state := state_pendSignalled (k := k) ht hn hq
  have thread := (thread_pendSignalled (k := k) ht hq (thrKey t n)).trans (if_pos rfl)
  have nil := eraseIdx_eq_nil hk
  have add : (fun r => pendAdd t p r + 0) = pendAdd t p := by funext r; exact add_zero _
  by_cases ends : s.fld (F.threadStatus.state t n) = 7 ∧ (s.thread (thrKey t n)).pend.length = 1 ∧ (s.thread (thrKey t n)).held = none
  · obtain ⟨seven, one, held⟩ := ends
    have idle : (s.pendSignalled t n k p).afterComplete t n (s.thread (thrKey t n)).pend.length = (s.pendSignalled t n k p).idled t n := by
      have goes : (s.pendSignalled t n k p).goIdle t n = (s.pendSignalled t n k p).idled t n :=
        State.goIdle_stop (by rw [thread]; exact fun e => going ⟨e, one, seven⟩)
      unfold State.afterComplete
      dsimp only
      rw [if_pos ⟨state.trans seven, by rw [thread]; exact nil.mpr one, .inl (by rw [thread]; exact held)⟩, goes]
    have idles := idle ▸ idles_idled (s.pendSignalled t n k p) t n
    exact ⟨add ▸ finishPend_completes ht hn hk hq (idles.completes hn), fun _ _ _ => (finishPend_idle hn hk idles).1⟩
  · have on := afterComplete_goesOn (m := s.pendSignalled t n k p) (t := t) (before := (s.thread (thrKey t n)).pend.length) hn (by
      rw [state, thread]
      rintro ⟨seven, empty, held | halt⟩
      · exact ends ⟨seven, nil.mp empty, held⟩
      · exact going ⟨halt, nil.mp empty, seven⟩)
    exact ⟨add ▸ finishPend_completes ht hn hk hq on, fun seven one held => absurd ⟨seven, one, held⟩ ends⟩

/-- The thread ends in the `HALT` it holds, of which the descriptor was the last outstanding. -/
theorem finishPend_halt (halt : (s.thread (thrKey t n)).ending = .halt) (held : (s.thread (thrKey t n)).held = some w)
    (one : (s.thread (thrKey t n)).pend.length = 1) (seven : s.fld (F.threadStatus.state t n) = 7) (hd : s.doneQuiet t w)
    (hx : s.bit (F.threadCtl.exitEn t n) = true → QuietCounter s (R.syncCount t (s.fld (F.threadCtl.exitObj t n)))) :
    Completes (s.pended t n k) (s.finishPend t n k) t n (fun r => pendAdd t p r + (s.exitAdd t n r + doneAdd t w r))
    ∧ (s.finishPend t n k).fld (F.threadStatus.state t n) = 0 ∧ ((s.finishPend t n k).thread (thrKey t n)).held = none := by
  have state := state_pendSignalled (k := k) ht hn hq
  have thread := (thread_pendSignalled (k := k) ht hq (thrKey t n)).trans (if_pos rfl)
  have adds := adds_pendSignalled (n := n) (k := k) ht hq
  have en : (s.pendSignalled t n k p).bit (F.threadCtl.exitEn t n) = s.bit (F.threadCtl.exitEn t n) := adds.bit (pendAdd_ctl hn)
  have obj : (s.pendSignalled t n k p).fld (F.threadCtl.exitObj t n) = s.fld (F.threadCtl.exitObj t n) := adds.fld (pendAdd_ctl hn)
  have same : (s.pendSignalled t n k p).exitAdd t n = s.exitAdd t n := by funext r; simp only [State.exitAdd, en, obj]
  have quiet {o : Nat} (h : QuietCounter s o) : QuietCounter (s.pendSignalled t n k p) o :=
    h.pended.adds adds fun r hr => pendAdd_eq_zero fun e => not_tellers_of_lt (syncCount_lt ht p.word) (e ▸ hr)
  have idles := idles_goIdle_halt (s := s.pendSignalled t n k p) ht hn (by rw [thread]; exact halt) (by rw [thread]; exact held)
    (fun e => quiet (hd e)) fun e => obj ▸ quiet (hx (en ▸ e))
  have goes : (s.pendSignalled t n k p).afterComplete t n (s.thread (thrKey t n)).pend.length = (s.pendSignalled t n k p).goIdle t n :=
    if_pos ⟨state.trans seven, by rw [thread]; exact (eraseIdx_eq_nil hk).mpr one, .inr (by rw [thread]; exact halt)⟩
  rw [same, ← goes] at idles
  exact ⟨finishPend_completes ht hn hk hq (idles.completes hn), finishPend_idle hn hk idles⟩

end Finish

/-! ### The array behind a completion -/

theorem noneArrayQueued_of_pend (h : s.noneArrayQueued t) (hp : ∀ j, ∀ x ∈ (u.thread j).pend, x ∈ (s.thread j).pend) : u.noneArrayQueued t :=
  fun m hm x hx => h m hm x (hp _ x hx)

/-- With nothing queued for the array its look at a queue changes nothing. -/
theorem arrayNext_of_none (h : s.noneArrayQueued t) (hn : n < 16) : s.arrayNext t n = s := by
  have none : ((s.thread (thrKey t n)).pend.findIdx? fun p => p.eng == .array && p.phase == .queued) = none := by
    rw [List.findIdx?_eq_none_iff]
    intro x hx
    have := h n hn x hx
    simpa using this
  unfold State.arrayNext
  simp only [none]
  split
  · rfl
  · rfl

theorem arrayWake_of_none (h : s.noneArrayQueued t) : s.arrayWake t = s :=
  forEach_induction (P := fun m => m = s) rfl fun m hm j hj => by
    rw [hm]; exact arrayNext_of_none h (List.mem_range.mp hj)

/-- The array of tile `t` is given up where thread `n` holds it. -/
structure Released (s u : State) (t n : Nat) : Prop where
  threads : u.threads = s.threads
  regs : RegsBut s u (tileStatuses t)
  mem : u.mem = s.mem
  state : n < 16 → s.fld (F.threadStatus.state t n) ≠ 3 → u.fld (F.threadStatus.state t n) = s.fld (F.threadStatus.state t n)
  free : ∀ c, (s.tile t).claim = some c → c.thread = n → (u.tile t).claim = none ∧ (u.tile t).acc = []

theorem State.releaseArray_spec (s : State) (t n : Nat) : Released s (s.releaseArray t n) t n := by
  unfold State.releaseArray
  split
  · have retried := State.retryTile_spec (s.modTile t fun tl => { tl with claim := none, acc := [] }) t
    refine ⟨retried.threads, retried.regs, retried.mem, retried.state n, fun c hc ht => ?_⟩
    rw [retried.tile, State.tile_modTile_same]
    exact ⟨rfl, rfl⟩
  · next free =>
    refine ⟨rfl, RegsBut.refl _ _, rfl, fun _ _ => rfl, fun c hc ht => absurd ?_ free⟩
    simp [State.claimOf, hc, ht]


/-- A descriptor queued for the array that cannot be taken stays where it is. -/
theorem arrayNext_waits (hk : (s.thread (thrKey t n)).pend[k]? = some p) (queued : p.phase = .queued) (array : p.eng = .array)
    (h : s.arrayBusy t n = true ∨ (s.arrayTurn t n (dOp p.word) = false ∧ ∀ q ∈ (s.thread (thrKey t n)).pend.take k, q.eng ≠ .array)) :
    s.arrayNext t n = s := by
  unfold State.arrayNext
  dsimp only
  rcases h with busy | ⟨turn, first⟩
  · exact if_pos busy
  · obtain ⟨lt, at_⟩ := List.getElem?_eq_some_iff.mp hk
    have index : ((s.thread (thrKey t n)).pend.findIdx? fun p => p.eng == .array && p.phase == .queued) = some k := by
      rw [List.findIdx?_eq_some_iff_getElem]
      refine ⟨lt, by simp [at_, queued, array], fun j hj => ?_⟩
      have := first _ (List.mem_take_iff_getElem.mpr ⟨j, by omega, rfl⟩)
      simpa using fun e => absurd e this
    simp only [index, hk, turn, Bool.false_eq_true, not_false_iff, if_true, ite_self]

/-- A descriptor that is not done does not complete. -/
theorem pendCompletes_waits (hk : (s.thread (thrKey t n)).pend[k]? = some p) (queued : p.phase = .queued) (still : s.dmaStill t n)
    (next : s.arrayNext t n = s) : s.pendCompletes t n k = s := by
  have stays : s.asyncComplete t n k = s := by
    have still : s.dmaNext (thrKey t n) 8 = s := still
    simp [State.asyncComplete, still, hk, queued]
  simp [State.pendCompletes, next, stays]

/-- What the completion of a descriptor comes to where nothing waits for the engines. -/
theorem pendCompletes_eq (hn : n < 16) (hk : (s.thread (thrKey t n)).pend[k]? = some p) (done : p.phase = .done)
    (oldest : oldestOfEngine (s.thread (thrKey t n)).pend k = true) (none : s.noneArrayQueued t) (still : s.dmaStill t n)
    (hp : ∀ j, ((s.finishPend t n k).thread j).pend = ((s.pended t n k).thread j).pend) :
    s.pendCompletes t n k = if dOp p.word = 0x12 then (s.finishPend t n k).releaseArray t n else s.finishPend t n k := by
  have still : s.dmaNext (thrKey t n) 8 = s := still
  have finishes : s.asyncComplete t n k = s.finishPend t n k := by simp [State.asyncComplete, still, hk, done, oldest]
  have mine : ((s.finishPend t n k).thread (thrKey t n)).pend = (s.thread (thrKey t n)).pend.eraseIdx k := by
    rw [hp, State.pended, State.thread_setThread_same]
  obtain ⟨lt, -⟩ := List.getElem?_eq_some_iff.mp hk
  have shorter : ((s.finishPend t n k).thread (thrKey t n)).pend.length ≠ (s.thread (thrKey t n)).pend.length := by
    rw [mine, List.length_eraseIdx_of_lt lt]
    omega
  have none' : (s.finishPend t n k).noneArrayQueued t := noneArrayQueued_of_pend none fun j x hx => by
    rw [hp, State.pended, State.thread_setThread] at hx
    split at hx
    · next e => exact e ▸ List.mem_of_mem_eraseIdx hx
    · exact hx
  have wakes : ((s.finishPend t n k).releaseArray t n).arrayWake t = (s.finishPend t n k).releaseArray t n :=
    arrayWake_of_none (noneArrayQueued_of_pend none' fun j x hx => by
      simpa only [State.thread, (State.releaseArray_spec _ t n).threads] using hx)
  simp only [State.pendCompletes, arrayNext_of_none none hn, finishes, shorter, if_false, hk, Option.map_some, Option.some.injEq, wakes,
    arrayNext_of_none none' hn, ite_self]

/-- A completion, seen from the state before it. -/
theorem pendCompletes_spec {add : Nat → Word} (hn : n < 16) (hk : (s.thread (thrKey t n)).pend[k]? = some p) (done : p.phase = .done)
    (oldest : oldestOfEngine (s.thread (thrKey t n)).pend k = true) (none : s.noneArrayQueued t) (still : s.dmaStill t n)
    (h : Completes (s.pended t n k) (s.finishPend t n k) t n add) (hu : u = s.pendCompletes t n k) :
    (u.thread (thrKey t n)).pend = (s.thread (thrKey t n)).pend.eraseIdx k
    ∧ (∀ c, dOp p.word = 0x12 → (s.tile t).claim = some c → c.thread = n → (u.tile t).claim = .none ∧ (u.tile t).acc = [])
    ∧ ((s.finishPend t n k).fld (F.threadStatus.state t n) = 0 → u.fld (F.threadStatus.state t n) = 0)
    ∧ (u.thread (thrKey t n)).held = ((s.finishPend t n k).thread (thrKey t n)).held
    ∧ (∀ r, r ∉ tileStatuses t → u.reg r = s.reg r + add r) ∧ MarksOnly s u (s.ctxOf t n) := by
  have mine : ((s.finishPend t n k).thread (thrKey t n)).pend = (s.thread (thrKey t n)).pend.eraseIdx k := by
    rw [h.pend, State.pended, State.thread_setThread_same]
  have marks : MarksOnly s (s.finishPend t n k) (s.ctxOf t n) := h.marks.of_eq rfl rfl
  rw [pendCompletes_eq hn hk done oldest none still h.pend] at hu
  split at hu
  · next unload =>
    subst hu
    have released := (s.finishPend t n k).releaseArray_spec t n
    have same := sameBytes_of_mem released.mem
    have thread : ((s.finishPend t n k).releaseArray t n).thread (thrKey t n) = (s.finishPend t n k).thread (thrKey t n) := by
      simp only [State.thread, released.threads]
    refine ⟨by rw [thread, mine], fun c _ hc ht => released.free c ?_ ht, fun idle => ?_, by rw [thread], fun r hr => ?_, fun b hb => ?_, fun e b => ?_⟩
    · obtain ⟨r, hr⟩ := h.tile t
      rw [hr]
      exact hc
    · exact (released.state hn (by rw [idle]; decide)).trans idle
    · exact (released.regs r hr).trans (h.regs r hr)
    · exact (same b).trans (marks.mem b hb)
    · exact (same b).trans (marks.none e b)
  · next other =>
    subst hu
    exact ⟨mine, fun _ unload => absurd unload other, id, rfl, h.regs, marks⟩

/-- Settles O10: an event by the slot it takes; a completion by what leaves its thread's list, what its thread does behind it and what the array does
behind that. -/
theorem eventAndCompletionComplete : Obligations.EventAndCompletionComplete := by
  unfold Obligations.EventAndCompletionComplete
  refine ⟨fun t n w s k plain i room => ?event, fun t n k s p hk => ⟨fun queued array still h => ⟨_, rfl, ?waits⟩,
    fun done oldest none still hq => ⟨fun going => ⟨_, rfl, ?stop⟩, fun w halt held one seven hd hx => ⟨_, rfl, ?halt⟩⟩⟩⟩
  case event =>
    have room : LogRoom (s.afterFetch t n w) (bitsAt w 48 16) 0 0x0C (threadUnit t n (s.ctxOf t n)) k := ⟨room.apart, room.room⟩
    obtain ⟨slot, raised, mem⟩ := raise_spec (t := t) (n := n) (data := bitsAt w 0 48) (flags := 2) room
    have effect := raised.behindFetch
    have done := effect.done t.isLt n.isLt plain
    refine i.does rfl rfl rfl rfl ⟨?_, effect.goesOn done.toGoesOn, effect.regsDone done.regs, fun b => (done.mem b).trans (sameBytes_of_mem mem b)⟩
    exact (done.logSlot k).trans slot
  case waits => exact pendCompletes_waits hk queued still (arrayNext_waits hk queued array h)
  case stop =>
    obtain ⟨completes, idle⟩ := finishPend_stop t.isLt n.isLt hk hq going
    obtain ⟨pend, claim, state, -, regs, marks⟩ := pendCompletes_spec n.isLt hk done oldest none still completes rfl
    exact ⟨pend, claim, fun seven one held => state (idle seven one held), regs, marks⟩
  case halt =>
    obtain ⟨completes, idle, freed⟩ := finishPend_halt t.isLt n.isLt hk hq halt held one seven hd hx
    obtain ⟨pend, -, state, same, regs, marks⟩ := pendCompletes_spec n.isLt hk done oldest none still completes rfl
    refine ⟨?_, same.trans freed, state idle, fun r hr => by rw [regs r hr]; simp only [add_assoc], marks⟩
    exact pend.trans ((eraseIdx_eq_nil hk).mpr one)

end Sys2Proof.Machine
end

section
/-! SUPPORT. `SIGNAL` and `ARRIVE` on a counter of this module (R43, R44, R47). -/

namespace Sys2Proof.Machine

variable {s m u : State} {t n p : Nat} {w : Desc} {ks : List Nat}

/-! ### Counters -/

/-- A counter of this module is one of the 64 of a tile (R32). -/
structure IsCounter (p : Nat) : Prop where
  low : p < 0x101000000
  slot : 0x1000 ≤ p % 0x10000

theorem placeOf_control {off j o : Nat} (h : placeOf off = .control j o) : off < 0x101000000 ∧ o = off % 0x10000 := by
  unfold placeOf at h
  split_ifs at h with _ range
  cases h
  exact ⟨range.2, rfl⟩

theorem counter_of_translateObj {c o : Nat} (h : s.translateObj c o = .inr p) : IsCounter p := by
  unfold State.translateObj at h
  split at h
  · cases h
  · dsimp only at h
    split_ifs at h
    split at h
    · next place =>
      split_ifs at h with counter
      cases h
      obtain ⟨low, rfl⟩ := placeOf_control place
      simp only [isCounterOff, Bool.and_eq_true, decide_eq_true_eq] at counter
      exact ⟨low, counter.1.1⟩
    · cases h

theorem CounterHere.counter (h : CounterHere s t n w p) : IsCounter p := by
  obtain ⟨o, -, ho⟩ := h.found
  exact counter_of_translateObj ho

theorem IsCounter.lt (h : IsCounter p) : p < 0x200000000 := Nat.lt_trans h.low (by decide)
theorem IsCounter.ne_pc (h : IsCounter p) (hn : n < 16) : R.threadPc t n ≠ p := by
  have := h.slot
  unfold R.threadPc; omega
theorem IsCounter.ne_status (h : IsCounter p) (hn : n < 16) : R.threadStatus t n ≠ p := by
  have := h.slot
  unfold R.threadStatus; omega
theorem IsCounter.not_threadRegs (h : IsCounter p) (hn : n < 16) : p ∉ threadRegs t n := by
  simp [threadRegs, Ne.symm (h.ne_pc hn), Ne.symm (h.ne_status hn)]

/-- Setting a counter of which nothing is to be told, behind an effect. -/
theorem Effect.syncSet {v : Word} (h : Effect s m t n ks) (hn : n < 16) (hp : IsCounter p) (hq : QuietCounter s p) :
    Effect s (m.syncSet p v) t n (p :: ks) ∧ (m.syncSet p v).reg p = v ∧ (m.syncSet p v).mem = m.mem := by
  have adds := Adds.syncSet (h.quiet hq) hp.lt v
  refine ⟨⟨adds.threads.trans h.threads, fun k => (adds.watches k).trans (h.watches k), fun k hk => ?_, ?_, ?_⟩, ?_, adds.mem⟩
  · simp only [List.mem_cons, not_or] at hk
    rw [adds.reg, if_neg hk.1, add_zero, h.regs k hk.2]
  · simpa using ⟨hp.ne_pc hn, h.pc⟩
  · simpa using ⟨not_tellers_of_lt hp.lt, h.apart⟩
  · rw [adds.reg, if_pos rfl, add_comm, sub_add_cancel]

/-! ### SIGNAL -/

/-- A `SIGNAL` that sets its counter. -/
theorem signal_spec (ht : t < 256) (hn : n < 16) (hs : s.plain t n w) (hp : IsCounter p) (hq : QuietCounter s p) {v : Word}
    (hu : u = ((s.afterFetch t n w).syncSet p v).syncDone (s.nextIss t n w)) : u.reg p = v + doneAdd t w p ∧ StepsOn s u t n w [p] := by
  subst hu
  obtain ⟨effect, value, mem⟩ := (Effect.fetched s t n w).syncSet (v := v) hn hp hq
  have done := effect.done ht hn hs
  refine ⟨by rw [done.reg (hp.not_threadRegs hn), value], effect.stepsOn ?_ (sameBytes_of_mem mem) done.toStepsOn⟩
  simpa using hp.ne_status hn

theorem signalApply_max (c v : Word) : signalApply 2 c v = BitVec.ofNat 64 (max c.toNat v.toNat) := by
  show (if c < v then v else c) = _
  split
  · next h => rw [max_eq_right (Nat.le_of_lt h), BitVec.ofNat_toNat, BitVec.setWidth_eq]
  · next h => rw [max_eq_left (Nat.not_lt.mp h), BitVec.ofNat_toNat, BitVec.setWidth_eq]

theorem signalApply_min (c v : Word) : signalApply 3 c v = BitVec.ofNat 64 (min c.toNat v.toNat) := by
  show (if v < c then v else c) = _
  split
  · next h => rw [min_eq_right (Nat.le_of_lt h), BitVec.ofNat_toNat, BitVec.setWidth_eq]
  · next h => rw [min_eq_left (Nat.not_lt.mp h), BitVec.ofNat_toNat, BitVec.setWidth_eq]

/-- A `SIGNAL` on a counter of this module, with nothing outstanding before it (R51). -/
theorem runSignal_here (hd : (s.thread (thrKey t n)).pend = []) (hp : CounterHere s t n w p) (hv : dOpc w = 6 → (s.syncValue t n w).toNat % 16 < 0xA) :
    (s.afterFetch t n w).runSignal (s.nextIss t n w) = ((s.afterFetch t n w).signalObj p (dOpc w) (s.syncValue t n w)).syncDone (s.nextIss t n w) := by
  refine (if_pos hd).trans ((if_neg ?_).trans (onObject_afterFetch hp _ _))
  rintro ⟨arm, big⟩
  exact absurd (hv arm) (Nat.not_lt.mpr big)

/-! ### The payload of an object -/

/-- `m` is `s` with bytes changed, all among the `k` from `a`. -/
structure Pours (s m : State) (a k : Nat) : Prop where
  only : ∃ l, m = { s with mem := l }
  bytes : BytesBut s m a k

theorem Pours.refl (s : State) (a k : Nat) : Pours s s a k := ⟨⟨s.mem, rfl⟩, fun _ _ => rfl⟩

theorem Pours.setMemNat {a k b j v : Nat} (h : Pours s m a k) (lo : a ≤ b) (hi : b + j ≤ a + k) : Pours s (m.setMemNat b j v) a k := by
  obtain ⟨l, rfl⟩ := h.only
  exact ⟨State.setBytes_only _ _ _, fun x hx => (State.byte_setMemNat_other (by omega)).trans (h.bytes x hx)⟩

theorem Pours.trans {a k : Nat} (h : Pours s m a k) (h' : Pours m u a k) : Pours s u a k := by
  obtain ⟨l, rfl⟩ := h.only
  obtain ⟨l', rfl⟩ := h'.only
  exact ⟨⟨l', rfl⟩, fun x hx => (h'.bytes x hx).trans (h.bytes x hx)⟩

theorem Pours.reg {a k : Nat} (h : Pours s m a k) (j : Nat) : m.reg j = s.reg j := by obtain ⟨l, rfl⟩ := h.only; rfl

theorem Effect.pours {a k : Nat} (h : Pours (s.afterFetch t n w) m a k) : Effect s m t n [] := by
  obtain ⟨l, rfl⟩ := h.only
  exact ⟨rfl, watches_afterFetch, fun _ _ => rfl, by simp, by simp⟩

/-- Where an effect pours bytes, the thread goes on with them. -/
theorem pours_done {a k : Nat} (ht : t < 256) (hn : n < 16) (hs : s.plain t n w) (h : Pours (s.afterFetch t n w) m a k)
    (hu : u = m.syncDone (s.nextIss t n w)) : SameBytes m u ∧ GoesOn s u t n ∧ RegsDone s u t n w [] ∧ BytesBut s u a k := by
  subst hu
  have effect := Effect.pours h
  have done := effect.done ht hn hs
  exact ⟨done.mem, effect.goesOn done.toGoesOn, effect.regsDone done.regs, fun b hb => (done.mem b).trans (h.bytes b hb)⟩

theorem toNat_mod_word (v : Word) : v.toNat % 2 ^ (8 * 8) = v.toNat := Nat.mod_eq_of_lt v.isLt

/-- Words `v` at the places of a list, of 8 bytes each. -/
theorem pours_forEach (a : Nat) (v : Word) (l : List Nat) (hl : ∀ i ∈ l, i < 32) : ∀ s : State,
    Pours s (forEach l (fun s i => s.setMemNat (a + 8 * i) 8 v.toNat) s) a 256
    ∧ ∀ i, (forEach l (fun s i => s.setMemNat (a + 8 * i) 8 v.toNat) s).memNat (a + 8 * i) 8 = if i ∈ l then v.toNat else s.memNat (a + 8 * i) 8 := by
  induction l with
  | nil => exact fun s => ⟨.refl _ _ _, fun i => (if_neg List.not_mem_nil).symm⟩
  | cons j l ih =>
    intro s
    obtain ⟨pours, read⟩ := ih (fun i hi => hl i (.tail _ hi)) (s.setMemNat (a + 8 * j) 8 v.toNat)
    have here := hl j (.head _)
    have first : Pours s (s.setMemNat (a + 8 * j) 8 v.toNat) a 256 := (Pours.refl s a 256).setMemNat (by omega) (by omega)
    have step : forEach (j :: l) (fun s i => s.setMemNat (a + 8 * i) 8 v.toNat) s
        = forEach l (fun s i => s.setMemNat (a + 8 * i) 8 v.toNat) (s.setMemNat (a + 8 * j) 8 v.toNat) := by
      rw [forEach, List.foldl_cons, ← forEach]
    rw [step]
    refine ⟨first.trans pours, fun i => (read i).trans ?_⟩
    by_cases e : i = j
    · subst e
      rw [State.memNat_setMemNat, toNat_mod_word, ite_self, if_pos (.head _)]
    · have same : (s.setMemNat (a + 8 * j) 8 v.toNat).memNat (a + 8 * i) 8 = s.memNat (a + 8 * i) 8 :=
        State.memNat_congr fun x hx => State.byte_setMemNat_other (by omega)
      simp only [same, List.mem_cons, e, false_or]

/-- `ARM` with a reduction writes its identity into the 32 words of the slot (R44). -/
theorem pours_arm (s : State) (p red : Nat) (h : red ≠ 0) : Pours s (s.arm p red) (payloadOf p) 256
    ∧ ∀ i, i < 32 → (s.arm p red).memNat (payloadOf p + 8 * i) 8 = (reduceIdentity red).toNat := by
  obtain ⟨pours, read⟩ := pours_forEach (payloadOf p) (reduceIdentity red) (upto 32) (fun i => mem_upto.mp) s
  rw [State.arm, if_neg h]
  exact ⟨pours, fun i hi => (read i).trans (if_pos (mem_upto.mpr hi))⟩

/-- Combining words into a payload slot from word `j` on. -/
theorem combinePayload_spec (p red : Nat) (h : red ≠ 0) (l : List Word) : ∀ (s : State) (j : Nat),
    Pours s (s.combinePayload p red j l) (payloadOf p + 8 * j) (8 * l.length)
    ∧ ∀ i v, l[i]? = some v → (s.combinePayload p red j l).memNat (payloadOf p + 8 * (j + i)) 8
        = (reduceWord red (BitVec.ofNat 64 (s.memNat (payloadOf p + 8 * (j + i)) 8)) v).toNat := by
  induction l with
  | nil => exact fun s j => ⟨.refl _ _ _, fun i v hv => by simp at hv⟩
  | cons x l ih =>
    intro s j
    generalize hm : s.setMemNat (payloadOf p + 8 * j) 8 (reduceWord red (BitVec.ofNat 64 (s.memNat (payloadOf p + 8 * j) 8)) x).toNat = m
    have step : s.combinePayload p red j (x :: l) = m.combinePayload p red (j + 1) l := by rw [State.combinePayload, if_neg h, hm]
    have first : Pours s m (payloadOf p + 8 * j) (8 * (x :: l).length) := by
      rw [← hm, List.length_cons]
      exact (Pours.refl _ _ _).setMemNat (by omega) (by omega)
    obtain ⟨pours, read⟩ := ih m (j + 1)
    have behind : ∀ b, b < payloadOf p + 8 * (j + 1) → (m.combinePayload p red (j + 1) l).byte b = m.byte b := fun b hb => pours.bytes b (.inl hb)
    rw [step]
    refine ⟨first.trans ⟨pours.only, fun b hb => pours.bytes b ?_⟩, fun i v hv => ?_⟩
    · rw [List.length_cons] at hb
      omega
    · cases i with
      | zero =>
        obtain rfl : x = v := by simpa using hv
        simp only [Nat.add_zero]
        rw [State.memNat_congr fun i hi => behind _ (by omega), ← hm, State.memNat_setMemNat, toNat_mod_word]
      | succ i =>
        have there := read i v (by simpa using hv)
        have same : m.memNat (payloadOf p + 8 * (j + 1 + i)) 8 = s.memNat (payloadOf p + 8 * (j + 1 + i)) 8 := by
          rw [← hm]
          exact State.memNat_congr fun b hb => State.byte_setMemNat_other (by omega)
        have place : j + 1 + i = j + (i + 1) := Nat.add_right_comm j 1 i
        rw [same, place] at there
        exact there

theorem length_wordsOf (k : Nat) : ∀ l, (wordsOf k l).length = k := by
  induction k with
  | zero => exact fun _ => rfl
  | succ k ih => exact fun l => congrArg (· + 1) (ih _)

theorem getElem?_wordsOf {k i : Nat} (h : i < k) (l : List Byte) : (wordsOf k l)[i]? = some (BitVec.ofNat 64 (leNat ((l.drop (8 * i)).take 8))) := by
  induction k generalizing i l with
  | zero => exact absurd h (Nat.not_lt_zero _)
  | succ k ih =>
    cases i with
    | zero => simp [wordsOf]
    | succ i =>
      rw [wordsOf, List.getElem?_cons_succ, ih (Nat.lt_of_succ_lt_succ h), List.drop_drop, show 8 + 8 * i = 8 * (i + 1) by omega]

/-- An `ARRIVE` at a counter of this module with nothing outstanding before it (R47, R51). -/
theorem runArrive_here {b : List Byte} (hd : (s.thread (thrKey t n)).pend = []) (hp : CounterHere s t n w p) (red : dOpc w < 0xA) (some_ : 0 < dWords w)
    (few : dWords w ≤ 32) (hb : s.ctxRead (s.ctxOf t n) (s.aop t n w 24) (8 * dWords w) = .ok b) :
    (s.afterFetch t n w).runArrive (s.nextIss t n w) = ((s.afterFetch t n w).arrive p (dOpc w) (wordsOf (dWords w) b)).syncDone (s.nextIss t n w) := by
  have words : (s.afterFetch t n w).payloadWords (s.nextIss t n w) = .ok b := by
    refine (if_neg (Nat.pos_iff_ne_zero.mp some_)).trans ?_
    show (s.afterFetch t n w).ctxRead (s.ctxOf t n) ((s.afterFetch t n w).aop t n w 24) (8 * dWords w) = _
    rw [sameView_afterFetch.ctxRead, sameView_afterFetch.aop]
    exact hb
  refine (if_pos hd).trans ((if_neg ?_).trans ?_)
  · rintro (big | many)
    · exact absurd red (Nat.not_lt.mpr big)
    · exact absurd few (Nat.not_le.mpr many)
  · rw [words]
    exact onObject_afterFetch hp _ _

/-- Settles O3: a counter nothing waits at is set alone, and the words of its payload one after another. -/
theorem signalAndArriveComplete : Obligations.SignalAndArriveComplete := by
  unfold Obligations.SignalAndArriveComplete
  refine ⟨fun t n w s p i hd hs hp hq => ?signal, fun t n w s p b i hd hs hp hq red none some_ few hb => ?arrive⟩
  case signal =>
    have sub {k : Nat} (hk : k < 7) (h : dOpc w = k) : signalSub k w = some true := by simp [signalSub, h, Nat.not_le.mpr hk]
    have run {k : Nat} (hk : k < 6) (h : dOpc w = k) : (s.afterFetch t n w).runSignal (s.nextIss t n w) =
        ((s.afterFetch t n w).syncSet p (signalApply k (s.reg p) (s.syncValue t n w))).syncDone (s.nextIss t n w) := by
      rw [runSignal_here hd hp (by omega), State.signalObj, if_neg (by omega), h]
      rfl
    have set {k : Nat} := signal_spec (v := signalApply k (s.reg p) (s.syncValue t n w)) t.isLt n.isLt hs hp.counter hq rfl
    refine ⟨fun h => ?_, fun h => ?_, fun h => ?_, fun h => ?_, fun h => ?_, fun h => ?_, fun h red none => ?_⟩
    · exact i.does rfl (sub (by decide) h) rfl (run (by decide) h) set
    · exact i.does rfl (sub (by decide) h) rfl (run (by decide) h) set
    · exact i.does rfl (sub (by decide) h) rfl (run (by decide) h) (signalApply_max _ _ ▸ set)
    · exact i.does rfl (sub (by decide) h) rfl (run (by decide) h) (signalApply_min _ _ ▸ set)
    · exact i.does rfl (sub (by decide) h) rfl (run (by decide) h) set
    · exact i.does rfl (sub (by decide) h) rfl (run (by decide) h) set
    · obtain ⟨pours, read⟩ := pours_arm (s.afterFetch t n w) p ((s.syncValue t n w).toNat % 16) none
      have run : (s.afterFetch t n w).runSignal (s.nextIss t n w)
          = ((s.afterFetch t n w).arm p ((s.syncValue t n w).toNat % 16)).syncDone (s.nextIss t n w) := by
        rw [runSignal_here hd hp fun _ => red, State.signalObj, if_pos h]
      obtain ⟨same, goes, regs, bytes⟩ := pours_done t.isLt n.isLt hs pours rfl
      exact i.does rfl (sub (by decide) h) rfl run ⟨fun i hi => (State.memNat_congr fun b _ => same _).trans (read i hi), goes, regs, bytes⟩
  case arrive =>
    obtain ⟨pours, read⟩ := combinePayload_spec p (dOpc w) none (wordsOf (dWords w) b) (s.afterFetch t n w) 0
    rw [length_wordsOf, Nat.mul_zero, Nat.add_zero] at pours
    obtain ⟨effect, value, mem⟩ := (Effect.pours pours).syncSet (v := _ + 1) n.isLt hp.counter hq
    have done := effect.done t.isLt n.isLt hs
    refine i.does rfl rfl rfl (runArrive_here hd hp red some_ few hb) ⟨?_, fun i hi => ?_, effect.goesOn done.toGoesOn, effect.regsDone done.regs, fun b hb => ?_⟩
    · refine (done.reg (hp.counter.not_threadRegs n.isLt)).trans ?_
      rw [value, pours.reg]
      rfl
    · have same := read i _ (getElem?_wordsOf hi b)
      rw [Nat.zero_add] at same
      exact (State.memNat_congr fun x _ => (done.mem _).trans (sameBytes_of_mem mem _)).trans same
    · exact (done.mem b).trans ((sameBytes_of_mem mem b).trans (pours.bytes b hb))

end Sys2Proof.Machine
end

section
/-! SUPPORT. `WAIT` on a counter of the own tile, its timeout, and a watch asked for again (R34, R45, R48). -/

namespace Sys2Proof.Machine

variable {s m u : State} {t n p c : Nat} {w : Desc} {x : Wait}

/-! ### FLAG_TMO -/

theorem flagTmo_bit (s : State) (t n : Nat) (b : Bool) : (s.flagTmo t n b).bit (F.threadStatus.flagTmo t n) = b := by
  rw [State.bit_eq_fld _ _ rfl]
  unfold State.flagTmo State.setBit
  rw [State.fld_setFld_same _ _ _ (by show 14 ≤ 64; decide)]
  cases b <;> rfl

/-- A flag of a thread is a bit of the four that stand together (R40, R45). -/
theorem bit_of_flags {f : Fld} (reg : f.reg = R.threadStatus t n) (lo : 13 ≤ f.lo) (hi : f.lo < 17) (h : u.flags t n = m.flags t n) : u.bit f = m.bit f := by
  have flag (s : State) : s.bit f = (s.flags t n).testBit (f.lo - 13) := by
    simp only [State.bit, State.flags, bitsAt, reg, BitVec.testBit_toNat, BitVec.getLsbD_extractLsb', Nat.add_sub_cancel' lo]
    simp only [show f.lo - 13 < 4 by omega, decide_true, Bool.true_and]
  rw [flag, flag, h]

theorem flagTmo_of_flags (h : u.flags t n = m.flags t n) : u.bit (F.threadStatus.flagTmo t n) = m.bit (F.threadStatus.flagTmo t n) :=
  bit_of_flags rfl (by show 13 ≤ 13; decide) (by show 13 < 17; decide) h

theorem flagTmo_setFld_state (s : State) (t n v : Nat) :
    (s.setFld (F.threadStatus.state t n) v).bit (F.threadStatus.flagTmo t n) = s.bit (F.threadStatus.flagTmo t n) :=
  flagTmo_of_flags (flags_setFld_state s t n v)

/-! ### WAIT -/

theorem objAop_afterFetch : (s.afterFetch t n w).objAop (s.nextIss t n w) = s.aop t n w 80 := by
  rw [State.objAop, sameView_afterFetch.aop]
  rfl

theorem runWait_here (hp : CounterHere s t n w p) (cond : dOpc w < 6) (tmo : dTmo w ≤ 40) :
    (s.afterFetch t n w).runWait (s.nextIss t n w) = (s.afterFetch t n w).waitHere (s.nextIss t n w) p (s.syncValue t n w) := by
  obtain ⟨aligned, ⟨o, form, object⟩, ready⟩ := hp
  have fields : ¬ (6 ≤ dOpc (s.nextIss t n w).w ∨ 41 ≤ dTmo (s.nextIss t n w).w) := by
    show ¬ (6 ≤ dOpc w ∨ 41 ≤ dTmo w)
    omega
  have form : (s.afterFetch t n w).formOf (s.aop t n w 80) = .here o := by rw [sameView_afterFetch.formOf]; exact form
  have object : (s.afterFetch t n w).translateObj (s.nextIss t n w).c o = .inr p := by rw [sameView_afterFetch.translateObj]; exact object
  have ready : (s.afterFetch t n w).tileReady (objTile p) = true := ready
  simp only [State.runWait, fields, objAop_afterFetch, aligned, form, object, State.withObject, ready, if_false, if_true, ne_eq, not_true]
  rfl

/-- `u` is `s` with `WAIT`s that block counted for context `c` (R245). -/
structure Counted (s u : State) (c : Nat) : Prop where
  only : ∃ r, u = { s with regs := r }
  regs : RegsBut s u (waitCounters c)

theorem queueBlocked_counted (s : State) (c obj : Nat) : Counted s (s.queueBlocked c obj) c := by
  refine forEach_induction (P := fun m => Counted s m c) ⟨⟨s.regs, rfl⟩, RegsBut.refl _ _⟩ fun m h k hk => ⟨?_, fun j hj => ?_⟩
  · obtain ⟨r, hr⟩ := h.only
    exact ⟨_, by rw [hr]; rfl⟩
  · have counter : R.qWaits c k ∈ waitCounters c := List.mem_map.mpr ⟨k, (List.mem_filter.mp hk).1, rfl⟩
    exact (State.reg_setReg_other _ _ (ne_of_mem_of_not_mem counter hj)).trans (h.regs j hj)

theorem Counted.mem (h : Counted s u c) : u.mem = s.mem := by obtain ⟨r, rfl⟩ := h.only; rfl
theorem Counted.thread (h : Counted s u c) (k : Nat) : u.thread k = s.thread k := by obtain ⟨r, rfl⟩ := h.only; rfl

theorem threadRegs_not_waitCounters (ht : t < 256) (hn : n < 16) {k : Nat} (hk : k ∈ threadRegs t n) : k ∉ waitCounters c := by
  simp only [threadRegs, List.mem_cons, List.not_mem_nil, or_false] at hk
  simp only [waitCounters, List.mem_map, not_exists, not_and]
  rcases hk with rfl | rfl
  · unfold R.threadPc R.qWaits; omega
  · unfold R.threadStatus R.qWaits; omega

/-- A thread that blocks in a `WAIT`, its program counter at the next descriptor. -/
theorem blockWait_spec (hs : s.straight t n) (hu : u = (s.afterFetch t n w).blockWait (s.nextIss t n w) x) :
    u.fld (F.threadStatus.state t n) = 2 ∧ u.reg (R.threadPc t n) = BitVec.ofNat 64 (pcPlus (s.pcOf t n) 1)
    ∧ (u.thread (thrKey t n)).wait = some x ∧ RegsBut s u (threadRegs t n) ∧ SameBytes s u := by
  have form : u = ((((s.afterFetch t n w).modThread (thrKey t n) fun th => { th with loops := (s.thread (thrKey t n)).loops }).setReg (R.threadPc t n)
      (BitVec.ofNat 64 (pcPlus (s.pcOf t n) 1))).modThread (thrKey t n) fun th => { th with wait := some x }).setFld (F.threadStatus.state t n) 2 := by
    rw [hu, State.blockWait, advance_straight hs]
    rfl
  refine ⟨by rw [form]; exact fld_state_setFld _ t n 2 (by decide), ?_, ?_, fun k hk => ?_, ?_⟩
  · rw [form, State.reg_setFld_other _ _ _ _ (by rw [state_reg]; exact Ne.symm (threadPc_ne_status t n))]
    exact State.reg_setReg_same _ _ _
  · rw [form]
    simp
  · simp only [threadRegs, List.mem_cons, List.not_mem_nil, or_false, not_or] at hk
    rw [form, State.reg_setFld_other _ _ _ _ (by rw [state_reg]; exact Ne.symm hk.2)]
    exact State.reg_setReg_other _ _ (Ne.symm hk.1)
  · rw [form]
    exact fun _ => rfl

theorem keyTile_thrKey (hn : n < 16) : keyTile (thrKey t n) = t := by unfold keyTile thrKey; omega

/-- The wait of a thread that blocks on a counter of its own tile. -/
def State.waitOf (s : State) (t n : Nat) (w : Desc) (p : Nat) : Wait where
  obj := p
  cond := dOpc w
  comparand := s.syncValue t n w
  tmo := dTmo w
  watch := .none
  since := s.now
  pc := s.pcOf t n
  addr := s.aop t n w 80
  word := w

/-- Without its condition a `WAIT` on a counter of its own tile blocks, and needs no watch (R48). -/
theorem waitHere_blocks (hn : n < 16) (tile : objTile p = t) (fails : waitHolds (dOpc w) (s.reg p) (s.syncValue t n w) = false) :
    (s.afterFetch t n w).waitHere (s.nextIss t n w) p (s.syncValue t n w)
      = ((s.afterFetch t n w).blockWait (s.nextIss t n w) (s.waitOf t n w p)).queueBlocked (s.ctxOf t n) p := by
  have own : (s.afterFetch t n w).askWatch (s.nextIss t n w).key (s.waitOf t n w p) = (s.afterFetch t n w, .none) :=
    if_pos ((keyTile_thrKey hn).trans tile.symm)
  refine (if_neg (Bool.eq_false_iff.mp fails)).trans ?_
  rw [objAop_afterFetch]
  show (match (s.afterFetch t n w).askWatch (s.nextIss t n w).key (s.waitOf t n w p) with
    | (m, wa) => (m.blockWait (s.nextIss t n w) { s.waitOf t n w p with watch := wa }).queueBlocked (s.ctxOf t n) p) = _
  rw [own]
  rfl

/-! ### The end of a wait -/

theorem releaseWaiters_quiet (h : QuietCounter m p) : m.releaseWaiters p = (m.noteHits p, []) := by
  obtain ⟨l, only, watches⟩ := State.noteHits_quiet h.waits
  have threads : (m.noteHits p).threads = m.threads := by rw [only]
  have waiters : (m.noteHits p).releasable p ((m.noteHits p).reg p) = [] := by
    simp only [State.releasable, List.map_eq_nil_iff, List.filter_eq_nil_iff, threads]
    intro e he
    cases hx : e.2.wait with
    | none => simp
    | some x => simp [h.waits e he x hx]
  have apart (e) (he : e ∈ ((m.noteHits p).tile (objTile p)).watches) : (e.obj == p) = false := by
    rw [watches] at he
    simpa using h.watches e he
  have fires : (((m.noteHits p).tile (objTile p)).watches.any fun e => e.obj == p && waitHolds e.cond ((m.noteHits p).reg p) e.comparand) = false := by
    rw [List.any_eq_false]
    intro e he
    simp [apart e he]
  unfold State.releaseWaiters
  simp only [waiters, fires, List.flatMap_nil, Bool.false_eq_true, if_false]
  rw [List.filterMap_eq_nil_iff.mpr fun e he => by cases e.waiter <;> simp [apart e he]]
  rfl

/-- The one counter a `WAIT` that is over signals is added to as a completion adds to it. -/
theorem signalAll_one {f : Nat} (hq : QuietCounter m p) (hp : p < 0x200000000) : m.signalAll (f + 1) [p] = m.syncAdd p 1 := by
  have none := releaseWaiters_quiet (hq.setReg (v := m.reg p + 1) hp)
  have nil (f : Nat) (m : State) : m.signalAll f [] = m := by cases f <;> rfl
  simp only [State.signalAll, State.syncAdd, State.syncSet, none, List.nil_append, nil]

/-- What the end of the `WAIT` of a thread signals (R34). -/
theorem signalAll_waitDone {f : Nat} (ht : t < 256) (hn : n < 16) (hx : (s.thread (thrKey t n)).wait = some x) (hq : m.doneQuiet t x.word) :
    m.signalAll (f + 1) (s.waitDone (thrKey t n)) = m.signalDone t x.word := by
  simp only [State.waitDone, hx, keyTile_thrKey hn, State.signalDone]
  split
  · next signals => exact signalAll_one (hq signals) (syncCount_lt ht _)
  · rfl

theorem waitTimes_not_tellers {k : Nat} (hk : k ∈ waitTimes c) : ¬ tellers k := by
  obtain ⟨j, hj, rfl⟩ := List.mem_map.mp hk
  have := mem_upto.mp hj
  rintro ⟨d, hd, h | h | ⟨i, hi, h⟩⟩
  · unfold R.qWaitPs R.fcObj at h; omega
  · unfold R.qWaitPs R.genBatchObj at h; omega
  · unfold R.qWaitPs R.genUseObj at h; omega

/-- The `WAIT` of a thread is over: what the thread reads, and what is counted and signalled. -/
theorem finishWait_spec {tmo : Bool} (ht : t < 256) (hn : n < 16) (hx : (s.thread (thrKey t n)).wait = some x) (hq : s.doneQuiet t x.word)
    (hu : u = s.finishWait t n tmo) : u.bit (F.threadStatus.flagTmo t n) = tmo ∧ u.fld (F.threadStatus.state t n) = 1
    ∧ (u.thread (thrKey t n)).wait = none
    ∧ (∀ k, k ∉ R.threadStatus t n :: waitTimes (s.ctxOf t n) → u.reg k = s.reg k + doneAdd t x.word k) ∧ SameBytes s u := by
  obtain ⟨un, none⟩ := s.leaveWait_spec t n
  have ended : s.endWait t n tmo = ((s.leaveWait t n).flagTmo t n tmo).setFld (F.threadStatus.state t n) 1 := if_neg (by simp [hx])
  generalize hm : s.endWait t n tmo = m at ended
  have regs : RegsBut s m (R.threadStatus t n :: waitTimes (s.ctxOf t n)) := fun k hk => by
    simp only [List.mem_cons, not_or] at hk
    rw [ended, State.reg_setFld_other _ _ _ _ (by rw [state_reg]; exact Ne.symm hk.1)]
    exact (State.reg_setBit_other _ _ _ _ (Ne.symm hk.1)).trans (un.regs k hk.2)
  have quiet : m.doneQuiet t x.word := fun e => (hq e).fewer (by rw [ended]; exact un.waits) (by rw [ended]; exact un.watches _) fun k hk =>
    regs k fun hm => by
      rcases List.mem_cons.mp hm with rfl | hm
      · exact threadRegs_not_tellers ht hn (by simp [threadRegs]) hk
      · exact waitTimes_not_tellers hm hk
  have signals : u = m.signalDone t x.word := by
    rw [hu, State.finishWait, hm, signalAll_waitDone ht hn hx quiet]
  have adds := Adds.signalDone quiet ht
  rw [← signals] at adds
  have status := (doneAdd_thread (t := t) (w := x.word) hn).2
  refine ⟨?_, ?_, ?_, fun k hk => by rw [adds.reg, regs k hk], fun b => ?_⟩
  · rw [adds.bit (f := F.threadStatus.flagTmo t n) status, ended, flagTmo_setFld_state, flagTmo_bit]
  · rw [adds.fld (f := F.threadStatus.state t n) status, ended]
    exact fld_state_setFld _ t n 1 (by decide)
  · rw [adds.thread, ended]
    exact none
  · refine (sameBytes_of_mem adds.mem b).trans (sameBytes_of_mem ?_ b)
    rw [ended]
    exact un.mem

/-- A watch asked for again is placed where its tile has room. -/
theorem watchRetry_places {o : Nat} (hx : (s.thread (thrKey t n)).wait = some x) (watch : x.watch = .retry) (here : s.formOf x.obj = .here o)
    (missed : x.hit = false) (fails : waitHolds x.cond (s.reg x.obj) x.comparand = false) (away : keyTile (thrKey t n) ≠ objTile x.obj)
    (ready : s.tileReady (objTile x.obj) = true) (room : (s.tile (objTile x.obj)).watches.length < 32) :
    s.watchRetry t n = (s.setTile (objTile x.obj) { s.tile (objTile x.obj) with watches := (s.tile (objTile x.obj)).watches ++
      [{ obj := x.obj, cond := x.cond, comparand := x.comparand, waiter := .inl (thrKey t n) }] }).modThread (thrKey t n) fun th =>
        { th with wait := some { x with watch := .placed } } := by
  have no : ¬ (x.hit || waitHolds x.cond (s.reg x.obj) x.comparand) = true := by simp [missed, fails]
  simp only [State.watchRetry, hx, watch, here, ready, no, State.askWatch, away, room, ne_eq, not_true, if_false, if_true,
    Bool.false_eq_true]

/-- Settles O4: a `WAIT` that goes on by the completion behind a change of `FLAG_TMO`, one that blocks by what blocking leaves, and the end of a wait by
what giving it up leaves. -/
theorem waitsComplete : Obligations.WaitsComplete := by
  unfold Obligations.WaitsComplete
  refine ⟨fun t n w s p i hs hp tile cond tmo => ⟨fun holds hq => ?goes, fun fails => ?blocks⟩,
    fun t n s x hx => ⟨fun tmo watch hq => ⟨_, rfl, ?timeout⟩, fun o watch here hit ready hq => ⟨_, rfl, ?released⟩,
      fun o watch here missed fails away ready room => ⟨_, rfl, ?placed⟩⟩⟩
  case goes =>
    have effect : Effect s ((s.afterFetch t n w).flagTmo t n false) t n [R.threadStatus t n] :=
      (Effect.fetched s t n w).setReg (by show R.threadStatus t n < _; unfold R.threadStatus; omega) (threadPc_ne_status t n)
    have done := effect.done t.isLt n.isLt ⟨hs, hq⟩
    refine i.does rfl rfl rfl ((runWait_here hp cond tmo).trans (if_pos holds)) ⟨effect.goesOn done.toGoesOn, ?_, fun k hk => ?_, done.mem⟩
    · exact (flagTmo_of_flags done.flags).trans (flagTmo_bit _ _ _ _)
    · exact effect.regsDone done.regs k fun hm => hk (List.mem_append.mp hm |>.elim (fun e => by simp_all [threadRegs]) id)
  case blocks =>
    generalize hb : (s.afterFetch t n w).blockWait (s.nextIss t n w) (s.waitOf t n w p) = m
    obtain ⟨state, pc, wait, regs, mem⟩ := blockWait_spec hs hb.symm
    have counted := queueBlocked_counted m (s.ctxOf t n) p
    have status := counted.regs _ (threadRegs_not_waitCounters t.isLt n.isLt (k := R.threadStatus t n) (by simp [threadRegs]))
    have goes := counted.regs _ (threadRegs_not_waitCounters t.isLt n.isLt (k := R.threadPc t n) (by simp [threadRegs]))
    refine i.does rfl rfl rfl ((runWait_here hp cond tmo).trans ((waitHere_blocks n.isLt tile fails).trans (congrArg (State.queueBlocked · _ p) hb)))
      ⟨(State.fld_congr (f := F.threadStatus.state t n) status).trans state, ?_, ?_, fun k hk => ?_, fun b => (sameBytes_of_mem counted.mem b).trans (mem b)⟩
    · rw [State.pcOf, goes, pc, BitVec.toNat_ofNat]
    · rw [counted.thread]
      exact wait
    · simp only [List.mem_append, not_or] at hk
      rw [counted.regs k hk.1, regs k hk.2]
  case timeout =>
    have eq : s.waitTimeout t n = s.finishWait t n (!x.hit) := by
      simp only [State.waitTimeout, hx, tmo, if_false]
    exact finishWait_spec t.isLt n.isLt hx hq eq
  case released =>
    have eq : s.watchRetry t n = s.finishWait t n false := by
      simp only [State.watchRetry, hx, watch, here, ready, ne_eq, not_true, if_false]
      exact if_pos (by simpa using hit)
    exact finishWait_spec t.isLt n.isLt hx hq eq
  case placed =>
    rw [watchRetry_places hx watch here missed fails (by rw [keyTile_thrKey n.isLt]; exact Ne.symm away) ready room]
    refine ⟨by rw [State.thread_modThread_same], ?_, fun _ _ => rfl, fun _ => rfl⟩
    rw [State.tile_modThread, State.tile_setTile_same]

end Sys2Proof.Machine
end

section
/-! SUPPORT. A claim of a thread that no tile has: what its restore reaches. -/

namespace Sys2Proof.Machine

/-- A preempted claim of a thread 16, whose key is that of thread 0 of the next tile. -/
def strayClaim : Claim where
  thread := 16
  ctx := 0
  fmt := 7
  rows := 64
  cols := 64

/-- Tile 0 has that claim to restore, and thread 0 of tile 1 an `MMA_UNLOAD` in the queue of the array there, which it has not claimed. -/
def strayState : State where
  regs := [(R.unitReady, 0x3FFFFFFFFFF#64)]
  tiles := [(0, { preempted := [strayClaim] })]
  threads := [(thrKey 1 0, { pend := [{ eng := .array, word := 0x12#128 <<< 122, pc := 0, phase := .queued, signal := true }] })]

theorem noneArrayQueued_strayState : strayState.noneArrayQueued 0 := by
  intro j hj x hx
  have idle : ((strayState.thread (thrKey 0 j)).pend) = [] := by
    unfold strayState State.thread thrKey
    rw [Tab.get_cons, if_neg (by show ¬ (16 * 1 + 0 = 16 * 0 + j); omega)]
    rfl
  rw [idle] at hx
  cases hx

/-- The restore looks at the queue of thread 0 of tile 1, whose descriptor faults there. -/
theorem restore_faults : (strayState.arrayRestore 0).reg (R.threadFault 1 0) = 0x120B#64 := by decide +kernel

/-- Refutes O9: the restore of a claim of thread 16 of tile 0, which no tile has, goes on to the queue of thread 0 of tile 1, and the `MMA_UNLOAD`
there, of a thread without a claim, faults: `THREAD_FAULT` of that thread changes. -/
theorem not_arrayRowsComplete : ¬ Obligations.ArrayRowsComplete := by
  unfold Obligations.ArrayRowsComplete
  intro h
  obtain ⟨-, -, -, -, -, -, -, -, -, restore, -⟩ := h 0 0 0 strayState
  have restored := restore strayClaim [] rfl rfl rfl rfl noneArrayQueued_strayState (by decide +kernel)
  obtain ⟨-, -, -, regs, -⟩ := restored.post rfl
  have same := regs (R.threadFault 1 0) (by decide)
  exact absurd (restore_faults.symm.trans same) (by decide +kernel)

end Sys2Proof.Machine
end

section
/-! SUPPORT. Plain writes of a unit of the module (R69, R222, R430), and a descriptor placed in its engine's queue (R29, R30). -/

namespace Sys2Proof.Machine

variable {s m u : State} {t n p : Nat} {w : Desc} {l : List Byte} {e : Engine} {ph : PendPhase}

/-! ### Writing plain memory -/

/-- `u` is `s` with the bytes `l` at `p`, and what they heal. -/
structure Stored (s u : State) (p : Nat) (l : List Byte) : Prop where
  only : ∃ x y, u = { s with mem := x, badWords := y }
  bytes : u.bytes p l.length = l
  others : BytesBut s u p l.length

theorem Stored.reg (h : Stored s u p l) (k : Nat) : u.reg k = s.reg k := by obtain ⟨x, y, rfl⟩ := h.only; rfl
theorem Stored.thread (h : Stored s u p l) (k : Nat) : u.thread k = s.thread k := by obtain ⟨x, y, rfl⟩ := h.only; rfl

/-- Below the per-stack view every byte is its own key (R66). -/
theorem State.storeMem_eq_setBytes (l : List Byte) : ∀ (s : State) (a : Nat), a + l.length ≤ 2 ^ 40 → s.storeMem a l = s.setBytes a l := by
  induction l with
  | nil => exact fun _ _ _ => rfl
  | cons b l ih =>
    intro s a h
    rw [List.length_cons] at h
    have key : memKey a = a := if_neg (by omega)
    rw [State.storeMem, key, ih _ _ (by omega)]
    rfl

theorem State.healBytes_only (s : State) (a k : Nat) : ∃ y, s.healBytes a k = { s with badWords := y } := by
  unfold State.healBytes
  split
  · exact ⟨s.badWords, rfl⟩
  · exact ⟨_, rfl⟩

theorem stored_setBytes_heal (s : State) (p : Nat) (l : List Byte) : Stored s ((s.setBytes p l).healBytes p l.length) p l := by
  obtain ⟨x, hx⟩ := State.setBytes_only l s p
  obtain ⟨y, hy⟩ := State.healBytes_only (s.setBytes p l) p l.length
  have byte (b : Nat) : ((s.setBytes p l).healBytes p l.length).byte b = (s.setBytes p l).byte b := by rw [hy]; rfl
  refine ⟨⟨x, y, by rw [hy, hx]⟩, ?_, fun b hb => (byte b).trans (State.byte_setBytes_other l b s p hb)⟩
  rw [State.bytes_congr _ _ _ _ fun i _ => byte _]
  exact State.bytes_setBytes l s p

/-- A plain range lies in no tile's control (R69). -/
theorem PlainRange.not_control {k j o : Nat} (h : PlainRange s p k) : placeOf p ≠ .control j o := by
  intro c
  unfold placeOf at c
  split_ifs at c with _ range
  have := h.plain
  omega

theorem PlainRange.writeData (h : PlainRange s p l.length) : (s.writeData p l).2 = true ∧ Stored s (s.writeData p l).1 p l := by
  have below : p + l.length ≤ 2 ^ 40 := by
    have := h.plain
    omega
  have eq : s.writeData p l = ((s.setBytes p l).healBytes p l.length, true) := by
    unfold State.writeData
    rw [if_neg (not_not.mpr h.ready)]
    split
    · next c => exact absurd c h.not_control
    · rw [State.storeData, if_pos h.free, State.storeMem_eq_setBytes l s p below]
  rw [eq]
  exact ⟨rfl, stored_setBytes_heal s p l⟩

theorem PlainRange.physWrite (h : PlainRange s p l.length) : ∃ m, s.physWrite p l = .ok m ∧ Stored s m p l := by
  obtain ⟨ok, stored⟩ := h.writeData
  exact ⟨_, if_pos ok, stored⟩

theorem PlainRange.afterFetch {k : Nat} (h : PlainRange s p k) : PlainRange (s.afterFetch t n w) p k :=
  ⟨by rw [sameView_afterFetch.rangeReady]; exact h.ready, h.plain, h.free⟩

/-! ### Placing a descriptor -/

theorem Issues.few {op : Nat} (h : Issues s t n w op) : (s.thread (thrKey t n)).pend.length < 8 := by
  have may := h.may
  simp only [State.canIssue, Bool.and_eq_true, Bool.not_eq_true', State.atLimit, decide_eq_false_iff_not] at may
  omega

/-- `m` has the outstanding descriptors and loops of `s` in the thread that issues. -/
structure SameQueue (s m : State) (t n : Nat) : Prop where
  pend : (m.thread (thrKey t n)).pend = (s.thread (thrKey t n)).pend
  loops : (m.thread (thrKey t n)).loops = (s.thread (thrKey t n)).loops

/-- What the sequencer leaves of a state when it places a descriptor. -/
structure Enqueued (m u : State) (t n : Nat) : Prop where
  regs : RegsBut m u (threadRegs t n)
  flags : u.flags t n = m.flags t n
  mem : u.mem = m.mem
  tile : ∀ k, u.tile k = m.tile k

/-- The entry of the issuing thread's list for a descriptor on engine `e` in phase `ph` (log entry 7). -/
def State.entry (s : State) (t n : Nat) (w : Desc) (e : Engine) (ph : PendPhase) : Pend where
  eng := e
  word := w
  pc := s.pcOf t n
  phase := ph
  signal := true
  ixs := if e = .vec then [] else (s.nextIss t n w).ixs

theorem enqueue_eq (hs : s.straight t n) (few : (s.thread (thrKey t n)).pend.length < 8) (same : SameQueue s m t n) :
    m.enqueue (s.nextIss t n w) e ph = (((((m.modThread (thrKey t n) fun th => { th with pend := th.pend ++ [s.entry t n w e ph] }).setFld
      (F.threadStatus.state t n) (if (s.thread (thrKey t n)).pend.length = 7 then 4 else 1))).modThread (thrKey t n) fun th =>
        { th with loops := (s.thread (thrKey t n)).loops }).setReg (R.threadPc t n) (BitVec.ofNat 64 (pcPlus (s.pcOf t n) 1))) := by
  generalize hv : (if (s.thread (thrKey t n)).pend.length = 7 then 4 else 1) = v
  generalize hq : (m.modThread (thrKey t n) fun th => { th with pend := th.pend ++ [s.entry t n w e ph] }) = q
  have thread : q.thread (thrKey t n) = { m.thread (thrKey t n) with pend := (m.thread (thrKey t n)).pend ++ [s.entry t n w e ph] } := by
    rw [← hq, State.thread_modThread_same]
  have length : (q.thread (thrKey t n)).pend.length = (s.thread (thrKey t n)).pend.length + 1 := by
    rw [thread, same.pend, List.length_append, List.length_singleton]
  have state : (if 8 ≤ (q.thread (thrKey t n)).pend.length then 4 else 1) = v := by
    rw [length, ← hv]
    exact if_congr (by omega) rfl rfl
  have go : m.enqueue (s.nextIss t n w) e ph = (q.setFld (F.threadStatus.state t n) (if 8 ≤ (q.thread (thrKey t n)).pend.length then 4 else 1)).arriveAt t n
      (pcPlus (s.pcOf t n) 1) (q.thread (thrKey t n)).loops := by
    rw [← hq]
    rfl
  have loops : (q.thread (thrKey t n)).loops = (s.thread (thrKey t n)).loops := by rw [thread, same.loops]
  rw [go, state, loops]
  exact State.arriveAt_straight _ t n _ _ hs

/-- A descriptor that is placed is the newest of its thread's list, and the thread has gone on. -/
theorem enqueue_spec (hs : s.straight t n) (few : (s.thread (thrKey t n)).pend.length < 8) (same : SameQueue s m t n)
    (hu : u = m.enqueue (s.nextIss t n w) e ph) : Placed s u t n w e ph ∧ Enqueued m u t n := by
  have form := hu.trans (enqueue_eq hs few same)
  refine ⟨⟨?_, ?_, s.entry t n w e ph, ?_, rfl, rfl, rfl, rfl, rfl⟩, ⟨fun k hk => ?_, ?_, ?_, fun k => ?_⟩⟩
  · rw [form, State.reg_setReg_same]
  · rw [form, State.fld_setReg_other _ _ (by rw [state_reg]; exact threadPc_ne_status t n), State.fld_modThread, fld_state_setFld]
    split <;> decide
  · rw [form]
    simp [same.pend]
  · simp only [threadRegs, List.mem_cons, List.not_mem_nil, or_false, not_or] at hk
    rw [form, State.reg_setReg_other _ _ (Ne.symm hk.1)]
    exact State.reg_setFld_other _ _ _ _ (by rw [state_reg]; exact Ne.symm hk.2)
  · rw [form]
    simp only [State.flags, State.reg_setReg_other _ _ (threadPc_ne_status t n), State.reg_modThread]
    exact flags_setFld_state _ t n _
  · rw [form]
    rfl
  · rw [form]
    rfl

end Sys2Proof.Machine
end

section
/-! SUPPORT. The elementwise rows of the vector engine (R40, R501, R502). -/

namespace Sys2Proof.Machine

variable {s m u v : State} {t n p : Nat} {w : Desc}

/-! ### Operands -/

theorem SameView.vecAddr (h : SameView s v) : v.vecAddr = s.vecAddr := by funext i k; simp only [State.vecAddr, h.ix]
theorem SameView.isAway (h : SameView s v) : v.isAway = s.isAway := by funext a; simp only [State.isAway, h.formOf]
theorem SameView.ownPhys (h : SameView s v) : v.ownPhys = s.ownPhys := by funext i a k need other; simp only [State.ownPhys, h.localPhys]
theorem SameView.vecPhys (h : SameView s v) : v.vecPhys = s.vecPhys := by funext i k l need; simp only [State.vecPhys, h.vecAddr, h.ownPhys]
theorem SameView.vecBytes (h : SameView s v) : v.vecBytes = s.vecBytes := by
  funext i k l; simp only [State.vecBytes, h.vecPhys, h.readData, h.vecAddr]
theorem SameView.vecCodes (h : SameView s v) : v.vecCodes = s.vecCodes := by funext i k f l; simp only [State.vecCodes, h.vecBytes]
theorem SameView.vecSources (h : SameView s v) : v.vecSources = s.vecSources := by funext i ks; simp only [State.vecSources, h.vecCodes]
theorem SameView.packFor (h : SameView s v) : v.packFor = s.packFor := by funext a f l; simp only [State.packFor, h.byte]

/-- Codes packed for a write fill the bytes of their elements (R106). -/
theorem length_packFor (s : State) (p fmt : Nat) (codes : List Nat) : (s.packFor p fmt codes).length = elemBytes fmt codes.length := by
  unfold State.packFor packElems elemBytes
  rw [length_leBytes]
  split
  · next odd =>
    rw [List.length_append, List.length_singleton, odd.1]
    omega
  · rfl

/-! ### A result written -/

theorem flagNan_bit (s : State) (t n : Nat) (b : Bool) :
    (s.flagNan t n b).bit (F.threadStatus.flagNan t n) = (s.bit (F.threadStatus.flagNan t n) || b) := by
  cases b with
  | false => exact (Bool.or_false _).symm
  | true =>
    rw [Bool.or_true, State.bit_eq_fld _ _ rfl]
    exact beq_iff_eq.mpr (State.fld_setFld_same _ _ _ (by show 15 ≤ 64; decide))

theorem flagNan_only (s : State) (t n : Nat) (b : Bool) :
    (s.flagNan t n b).mem = s.mem ∧ (s.flagNan t n b).threads = s.threads ∧ RegsBut s (s.flagNan t n b) (threadRegs t n) := by
  cases b with
  | false => exact ⟨rfl, rfl, RegsBut.refl _ _⟩
  | true => exact ⟨rfl, rfl, fun k hk => State.reg_setBit_other _ _ _ _ fun e => hk (e ▸ by simp [threadRegs, F.threadStatus.flagNan])⟩

/-- A result written to plain memory, and its descriptor placed. -/
theorem wrote_of_stored {fmt : Nat} {codes : List Nat} {nan : Bool} (hs : s.straight t n) (few : (s.thread (thrKey t n)).pend.length < 8)
    (stored : Stored (s.afterFetch t n w) m p (s.packFor p fmt codes)) (hu : u = (m.flagNan t n nan).enqueue (s.nextIss t n w) .vec) :
    Wrote s u t n w p fmt codes nan := by
  obtain ⟨mem, threads, regs⟩ := flagNan_only m t n nan
  have thread : (m.flagNan t n nan).thread (thrKey t n) = s.thread (thrKey t n) := by
    simp only [State.thread, threads]
    exact stored.thread _
  obtain ⟨placed, enqueued⟩ := enqueue_spec hs few ⟨congrArg Thread.pend thread, congrArg Thread.loops thread⟩ hu
  have byte : ∀ b, u.byte b = m.byte b := sameBytes_of_mem (enqueued.mem.trans mem)
  have length := length_packFor s p fmt codes
  refine ⟨placed, ?_, ?_, fun k hk => ?_, fun b hb => ?_⟩
  · rw [← length, State.bytes_congr _ _ _ _ fun i _ => byte _]
    exact stored.bytes
  · rw [bit_of_flags (f := F.threadStatus.flagNan t n) rfl (by show 13 ≤ 14; decide) (by show 14 < 17; decide) enqueued.flags, flagNan_bit]
    exact congrArg (· || nan) (State.bit_congr (stored.reg _))
  · exact (enqueued.regs k hk).trans ((regs k hk).trans (stored.reg k))
  · exact (byte b).trans (stored.others b (by rwa [length]))

/-! ### The rows -/

@[simp] theorem nextIss_w (s : State) (t n : Nat) (w : Desc) : (s.nextIss t n w).w = w := rfl

theorem VecReady.vecSub {sub : Nat} {ks : List Nat} (h : VecReady s t n w sub ks) (listed : sub < 0x1F) : vecSub sub w = some true := by
  simp [Machine.vecSub, h.row, Nat.not_le.mpr listed]

theorem VecReady.run {sub : Nat} {ks : List Nat} (h : VecReady s t n w sub ks) (f : State → Except Why State) (hm : f (s.afterFetch t n w) = .ok m) :
    (s.afterFetch t n w).runVec (s.nextIss t n w) false ks f = m.enqueue (s.nextIss t n w) .vec := by
  have room : (s.afterFetch t n w).asyncBlocked (s.nextIss t n w) .vec = none := h.room
  have fields : vecFieldFault (s.nextIss t n w).w = false := h.fields
  have near : ¬ (ks.any fun k => (s.afterFetch t n w).isAway ((s.afterFetch t n w).vecAddr (s.nextIss t n w) k)) = true := by
    rw [sameView_afterFetch.isAway, sameView_afterFetch.vecAddr, List.any_eq_true]
    rintro ⟨k, hk, away⟩
    exact Bool.false_ne_true ((h.near k hk).symm.trans away)
  simp only [State.runVec, State.async, room, fields, near, hm, Bool.false_eq_true, or_self, if_false]

/-- An elementwise row makes of each element what its function says. -/
theorem runElems_wrote {sub : Nat} {ks : List Nat} {f : List FVal → FVal} {srcs : List (List FVal)} (h : VecReady s t n w sub (dD w :: ks))
    (hsrcs : s.vecSources (s.nextIss t n w) ks = .ok srcs) (hp : s.vecPhys (s.nextIss t n w) (dD w) (elemBytes (dFmtOut w) (dVecLen w)) rightW = .ok p)
    (plain : PlainRange s p (elemBytes (dFmtOut w) (dVecLen w))) :
    let r := (upto (dVecLen w)).map fun j => encodeElem (dFmtOut w) (f (srcs.map fun l => l.getD j (.fin false 0 0)))
    Wrote s ((s.afterFetch t n w).runElems (s.nextIss t n w) ks f) t n w p (dFmtOut w) (r.map (·.1)) (r.any (·.2)) := by
  intro r
  have vals : ((upto (dVecLen w)).map fun j => f (srcs.map fun l => l.getD j (.fin false 0 0))).map (encodeElem (dFmtOut w)) = r := List.map_map
  have length : (s.packFor p (dFmtOut w) (r.map (·.1))).length = elemBytes (dFmtOut w) (dVecLen w) := by
    rw [length_packFor]
    simp [r, upto]
  obtain ⟨m, write, stored⟩ := (length ▸ plain.afterFetch (t := t) (n := n) (w := w) : PlainRange _ p (s.packFor p (dFmtOut w) (r.map (·.1))).length).physWrite
  have sources : (s.afterFetch t n w).vecSources (s.nextIss t n w) ks = .ok srcs := by rw [sameView_afterFetch.vecSources]; exact hsrcs
  have place : (s.afterFetch t n w).vecPhys (s.nextIss t n w) (dD w) (elemBytes (dFmtOut w) (dVecLen w)) rightW = .ok p := by
    rw [sameView_afterFetch.vecPhys]; exact hp
  have result : (s.afterFetch t n w).vecResult (s.nextIss t n w) p (dFmtOut w)
      ((upto (dVecLen w)).map fun j => f (srcs.map fun l => l.getD j (.fin false 0 0))) = .ok (m.flagNan t n (r.any (·.2))) := by
    simp only [State.vecResult, State.vecWrite, vals, sameView_afterFetch.packFor, write]
    rfl
  refine wrote_of_stored h.straight h.issues.few stored (h.run _ ?_)
  simp only [nextIss_w, sources, place, result]

/-- A row that runs elementwise. -/
theorem elemRow {row : Fin 256 → Fin 16 → Desc → Instr} {sub : Nat} {ks : Desc → List Nat} {f : Desc → List FVal → FVal} (listed : sub < 0x1F)
    (run : ∀ t n w s, exec (row t n w) s = .next (s.issue t n w 0x18 (vecSub sub) fun i s => s.runElems i (ks i.w) (f i.w))) : ElemRow row sub ks f := by
  intro t n w s srcs p h hsrcs hp plain r
  exact h.issues.does (run t n w s) (h.vecSub listed) rfl rfl (runElems_wrote h hsrcs hp plain)

/-- Settles O7: every row is the same elementwise run, with its own function. -/
theorem vecElementRowsComplete : Obligations.VecElementRowsComplete := by
  unfold Obligations.VecElementRowsComplete
  refine ⟨⟨?_, ?_, ?_, ?_, ?_, ?_, ?_, ?_, ?_, ?_, ?_, ?_, ?_, ?_, ?_⟩, ?_, ?_, ?_, ?_, ?_, ?_, ?_, ?_, ?deriv⟩
  case deriv =>
    intro fn listed t n w s srcs p code h hsrcs hp plain r
    have row : (s.afterFetch t n w).runDeriv (s.nextIss t n w)
        = (s.afterFetch t n w).runElems (s.nextIss t n w) [dS0 w, dS1 w] (onTwo (fun w => f32Deriv fn (dImmF w)) w) := by
      subst code
      exact if_pos listed
    exact h.issues.does rfl (h.vecSub (by decide)) rfl row (runElems_wrote h hsrcs hp plain)
  all_goals exact elemRow (by decide) fun _ _ _ _ => rfl

end Sys2Proof.Machine
end

section
/-! SUPPORT. What the writes of a unit leave of the threads: the lists of outstanding descriptors and of open loops (R30, R38). A write to a
counter may end a `WAIT` (R45, R49), which changes neither. -/

namespace Sys2Proof.Machine

variable {s m u : State}

/-- `u` has the outstanding descriptors and the open loops of `s` in every thread. -/
structure SameLists (s u : State) : Prop where
  pend : ∀ k, (u.thread k).pend = (s.thread k).pend
  loops : ∀ k, (u.thread k).loops = (s.thread k).loops

theorem SameLists.refl (s : State) : SameLists s s := ⟨fun _ => rfl, fun _ => rfl⟩

theorem SameLists.trans (h : SameLists s m) (g : SameLists m u) : SameLists s u :=
  ⟨fun k => (g.pend k).trans (h.pend k), fun k => (g.loops k).trans (h.loops k)⟩

theorem SameLists.of_threads (h : u.threads = s.threads) : SameLists s u := by
  constructor <;> intro k <;> simp only [State.thread, h]

theorem SameLists.queue (h : SameLists s m) (t n : Nat) : SameQueue s m t n := ⟨h.pend _, h.loops _⟩

theorem sameLists_setReg (s : State) (k : Nat) (v : Word) : SameLists s (s.setReg k v) := .of_threads rfl

theorem sameLists_setWait (s : State) (k : Nat) (f : Option Wait → Option Wait) : SameLists s (s.modThread k fun th => { th with wait := f th.wait }) := by
  constructor <;> intro j <;> rw [State.modThread, State.thread_setThread] <;> split <;> simp [*]

theorem SameLists.forEach {α : Type} {l : List α} {f : State → α → State} (h : SameLists s m) (hf : ∀ m a, SameLists m (f m a)) :
    SameLists s (forEach l f m) := forEach_induction (P := SameLists s) h fun m g a _ => g.trans (hf m a)

theorem SameLists.ite {c : Prop} {_ : Decidable c} (h : SameLists s m) (g : SameLists s u) : SameLists s (if c then m else u) := by
  split
  · exact h
  · exact g

/-! ### Released waits -/

theorem sameLists_leaveWait (s : State) (t n : Nat) : SameLists s (s.leaveWait t n) := by
  obtain ⟨unwaits, -⟩ := State.leaveWait_spec s t n
  exact ⟨fun k => by rw [unwaits.thread k], fun k => by rw [unwaits.thread k]⟩

theorem sameLists_endWait (s : State) (t n : Nat) (tmo : Bool) : SameLists s (s.endWait t n tmo) :=
  .ite (.refl s) ((sameLists_leaveWait s t n).trans (.of_threads rfl))

theorem sameLists_noteHits (s : State) (obj : Nat) : SameLists s (s.noteHits obj) := by
  have hits := (SameLists.refl s).forEach (l := s.threads.filter fun e => e.2.wait.any fun wt =>
    wt.watch == .retry && (wt.obj == obj && waitHolds wt.cond (s.reg obj) wt.comparand)) fun m e => sameLists_setWait m e.1 (Option.map fun wt => { wt with hit := true })
  exact .ite (hits.trans (.of_threads rfl)) hits

theorem sameLists_launch (s : State) (dest stream cls : Nat) (alt : Bool) (bodies : List (List Byte)) (grants : List Nat) (minus : Bool) :
    SameLists s (s.launch dest stream cls alt bodies grants minus).1 := by
  fun_cases State.launch s dest stream cls alt bodies grants minus with
  | case1 | case2 => exact .refl s
  | case3 => exact .of_threads rfl

theorem sameLists_answerTo (s : State) (a : Arrived) (kind aux : Nat) (data : List Byte) : SameLists s (s.answerTo a kind aux data) := by
  unfold State.answerTo State.answer
  exact .trans (.of_threads (u := (s.refOf 0).2) rfl) (sameLists_launch (s.refOf 0).2 _ _ _ _ _ _ _)

theorem sameLists_releaseWaiters (s : State) (obj : Nat) : SameLists s (s.releaseWaiters obj).1 := by
  have hits := sameLists_noteHits s obj
  exact .forEach (.forEach (.ite (hits.trans (.of_threads rfl)) hits) fun m _ => sameLists_endWait m _ _ _) fun m a => sameLists_answerTo m a _ _ _

/-! ### Held values and counters -/

theorem sameLists_layersCold (s : State) (c : Nat) : SameLists s (s.layersCold c) :=
  .ite (.refl s) (.forEach (.refl s) fun m _ => .ite (.refl m) (.of_threads rfl))

theorem sameLists_applyB (s : State) (c key v : Nat) : SameLists s (s.applyB c key v) := by
  fun_cases State.applyB s c key v with
  | case1 | case2 | case3 | case4 | case5 | case7 => exact .of_threads rfl
  | case6 => exact .trans (.of_threads (u := s.setObj key v) rfl) (sameLists_layersCold _ c)

theorem sameLists_boundary (s : State) (c : Nat) : SameLists s (s.boundary c) :=
  .ite (.refl s) (.forEach (.of_threads rfl) fun m _ => sameLists_applyB m c _ _)

theorem sameLists_noteGeneration (s : State) (obj : Nat) : SameLists s (s.noteGeneration obj) := by
  refine .forEach (.refl s) fun m c => .forEach ?_ fun m _ => .ite (.of_threads rfl) (.refl m)
  exact .trans (.ite (sameLists_boundary m c) (.refl m)) (.ite (.of_threads rfl) (.refl _))

theorem sameLists_signalAll (fuel : Nat) (l : List Nat) (s : State) : SameLists s (s.signalAll fuel l) := by
  fun_induction State.signalAll s fuel l
  case case1 | case2 => exact .refl _
  case case3 s fuel obj rest u more e ih =>
    have released := sameLists_releaseWaiters (s.setReg obj (s.reg obj + 1)) obj
    rw [e] at released
    exact (((sameLists_setReg s obj _).trans released).trans (sameLists_noteGeneration u obj)).trans ih

theorem sameLists_syncSet (s : State) (obj : Nat) (v : Word) : SameLists s (s.syncSet obj v) :=
  (((sameLists_setReg s obj v).trans (sameLists_releaseWaiters _ obj)).trans (sameLists_noteGeneration _ obj)).trans (sameLists_signalAll _ _ _)

/-! ### Writes -/

theorem sameLists_storeCounters (fuel off : Nat) (l : List Byte) (s : State) : SameLists s (s.storeCounters fuel off l) := by
  fun_induction State.storeCounters s fuel off l
  case case1 | case2 => exact .refl _
  case case3 ih => exact (sameLists_syncSet _ _ _).trans ih

theorem sameLists_storeMem (off : Nat) (l : List Byte) (s : State) : SameLists s (s.storeMem off l) := by
  fun_induction State.storeMem s off l
  case case1 => exact .refl _
  case case2 s off b _ ih => exact .trans (.of_threads (u := s.setByte (memKey off) b) rfl) ih

theorem sameLists_storeGuarded (held : List Nat) (off : Nat) (l : List Byte) (s : State) : SameLists s (s.storeGuarded held off l) := by
  fun_induction State.storeGuarded s held off l
  case case1 => exact .refl _
  case case2 s off b _ hit u ih =>
    have byte : SameLists s u := .ite (.of_threads rfl) (.forEach (.refl s) fun m c => .of_threads (u := m.setBit (F.sweepStatus.wrIgnored c) true) rfl)
    exact byte.trans ih

theorem sameLists_healBytes (s : State) (off k : Nat) : SameLists s (s.healBytes off k) := .ite (.refl s) (.of_threads rfl)

theorem sameLists_storeData (s : State) (off : Nat) (l : List Byte) : SameLists s (s.storeData off l) :=
  .ite (sameLists_storeMem off l s) (sameLists_storeGuarded _ off l s)

theorem sameLists_writeData (s : State) (off : Nat) (l : List Byte) : SameLists s (s.writeData off l).1 := by
  fun_cases State.writeData s off l with
  | case1 => exact .forEach (.refl s) fun m _ => sameLists_storeData m _ _
  | case2 => exact sameLists_storeCounters _ _ _ s
  | case3 => exact sameLists_storeMem _ _ s
  | case4 => exact (sameLists_storeData s off l).trans (sameLists_healBytes _ _ _)

/-! ### Copies -/

theorem sameLists_writeRows (ps : List Nat) (rows : List (List Byte)) (s : State) : SameLists s (s.writeRows ps rows).1 := by
  fun_induction State.writeRows s ps rows
  case case1 s p _ b _ _ e ih => exact (e ▸ sameLists_writeData s p b).trans ih
  case case2 s p _ b _ _ e =>
    have written := sameLists_writeData s p b
    rw [e] at written
    exact written
  case case3 => exact .refl _

theorem sameLists_shapeRows (s : State) (w : Desc) (rows : List (List Byte)) : SameLists s (s.shapeRows w rows).2 := by
  unfold State.shapeRows
  dsimp only
  split_ifs
  · exact .refl s
  · exact .of_threads rfl
  · exact .refl s

theorem sameLists_landRows (s : State) (w : Desc) (dst : List Nat) (rows : List (List Byte)) : SameLists s (s.landRows w dst rows).1 := by
  unfold State.landRows
  split
  · exact sameLists_writeRows _ _ s
  · exact (sameLists_shapeRows s w rows).trans (sameLists_writeRows _ _ _)

theorem sameLists_copyRows (i : Iss) (l : List Nat) (s : State) (h : s.copyRows i l = (m, none)) : SameLists s m := by
  fun_induction State.copyRows s i l
  case case1 => cases h; exact .refl _
  case case2 | case3 | case5 => cases h
  case case4 s _ _ _ b p _ _ _ e ih => exact (e ▸ sameLists_writeData s p b).trans (ih h)

theorem sameLists_copyElems (i : Iss) (l : List (Nat × Nat)) (s : State) (h : s.copyElems i l = (m, none)) : SameLists s m := by
  fun_induction State.copyElems s i l
  case case1 => cases h; exact .refl _
  case case2 | case3 | case5 => cases h
  case case4 s _ _ _ _ b p _ _ _ e ih => exact (e ▸ sameLists_writeData s p b).trans (ih h)

theorem sameLists_physWrite (s : State) (p : Nat) (l : List Byte) : OnOk (SameLists s) (s.physWrite p l) :=
  .ite (.mk (sameLists_writeData s p l)) .error

theorem sameLists_addF32At (s : State) (p : Nat) (v : List Byte) : OnOk (SameLists s) (s.addF32At p v) := by
  fun_cases State.addF32At s p v with
  | case1 => exact .error
  | case2 => exact sameLists_physWrite s p _

theorem sameLists_addElems (i : Iss) (l : List (Nat × Nat)) (s : State) (h : s.addElems i l = (m, none)) : SameLists s m := by
  fun_induction State.addElems s i l
  case case1 => cases h; exact .refl _
  case case2 | case3 | case4 => cases h
  case case5 added ih => exact ((sameLists_addF32At _ _ _).of added).trans (ih h)

end Sys2Proof.Machine
end

section
/-! SUPPORT. The data-movement rows with both ends on this module (R30, R37, R59, R72). -/

namespace Sys2Proof.Machine

variable {s m u : State} {t n p op : Nat} {w : Desc} {l : List Byte} {e : Engine} {ph : PendPhase}

/-! ### The fetch changes nothing a data movement reads -/

theorem SameView.readRows {v : State} (h : SameView s v) : v.readRows = s.readRows := by funext i; simp only [State.readRows, h.ctxRead]
theorem SameView.dstPlan {v : State} (h : SameView s v) : v.dstPlan = s.dstPlan := by funext i; simp only [State.dstPlan, h.localPhys]
theorem SameView.indexList {v : State} (h : SameView s v) : v.indexList = s.indexList := by funext i; simp only [State.indexList, h.ctxRead]
theorem SameView.anyAway {v : State} (h : SameView s v) : v.anyAway = s.anyAway := by funext l; simp only [State.anyAway, h.formOf]

theorem dmaHeld_afterFetch (i : Iss) : (s.afterFetch t n w).dmaHeld i = s.dmaHeld i := rfl

/-! ### The engine reaches a descriptor -/

/-- The note of what a descriptor brings is about the newest of the thread's list. -/
theorem Placed.noteLast (h : Placed s u t n w e ph) (dst : List Nat) (seq : Nat) : Placed s (u.noteLast (thrKey t n) dst seq) t n w e ph := by
  obtain ⟨x, pend, eng, word, pc, phase, signal⟩ := h.pend
  refine ⟨h.pc, h.state, { x with dst := dst, seq := seq }, ?_, eng, word, pc, phase, signal⟩
  rw [State.noteLast, State.thread_modThread_same, pend]
  simp

/-- A descriptor the engine carries out at once: it is outstanding and done, with the registers and the memory the copy leaves. -/
structure Carried (s m u : State) (t n : Nat) (w : Desc) : Prop where
  placed : Placed s u t n w .dma .done
  regs : RegsBut m u (threadRegs t n)
  mem : u.mem = m.mem

theorem LocalDma.reach (h : LocalDma s t n w) (move : dOp w < 0x10) (here : (s.afterFetch t n w).dmaHere (s.nextIss t n w) = (m, none)) :
    (s.afterFetch t n w).dmaReach (s.nextIss t n w) 0 = (m, .ok (.done, [])) := by
  have push : dOp (s.nextIss t n w).w ≠ 0x38 := by rw [nextIss_w]; omega
  have pop : dOp (s.nextIss t n w).w ≠ 0x39 := by rw [nextIss_w]; omega
  unfold State.dmaReach
  rw [if_neg push, if_neg pop, sameView_afterFetch.anyAway, h.ends, if_neg Bool.false_ne_true, sameView_afterFetch.formOf, here]
  split
  · next d o away => exact absurd away (h.near d o)
  · rfl

theorem LocalDma.run (h : LocalDma s t n w) (few : (s.thread (thrKey t n)).pend.length < 8) (move : dOp w < 0x10)
    (here : (s.afterFetch t n w).dmaHere (s.nextIss t n w) = (m, none)) (lists : SameLists (s.afterFetch t n w) m) :
    Carried s m ((s.afterFetch t n w).runDma (s.nextIss t n w) none) t n w := by
  have room : (s.afterFetch t n w).asyncBlocked (s.nextIss t n w) .dma = none := h.room
  have front : firstOpen ((s.afterFetch t n w).thread (s.nextIss t n w).key).pend = none := h.front
  have seq : (s.afterFetch t n w).takeSeq (s.nextIss t n w) = (0, s.afterFetch t n w) := if_neg (by rw [nextIss_w]; omega)
  have run : (s.afterFetch t n w).runDma (s.nextIss t n w) none = (m.enqueue (s.nextIss t n w) .dma .done).noteLast (thrKey t n) [] 0 := by
    simp only [State.runDma, State.async, room, seq, front, dmaHeld_afterFetch, h.free, h.reach move here, Option.isSome_none,
      Bool.false_eq_true, or_self, if_false]
    rfl
  have same : SameLists s m := .trans (.of_threads (u := s.afterFetch t n w) rfl) lists
  obtain ⟨placed, enqueued⟩ := enqueue_spec h.straight few (same.queue t n) rfl
  rw [run]
  exact ⟨placed.noteLast [] 0, enqueued.regs, enqueued.mem⟩

/-- A data-movement row that passes its field checks. -/
theorem LocalDma.does {c : Instr} {fault : Iss → Option Nat} {post : State → Prop} (h : LocalDma s t n w) (issues : Issues s t n w op)
    (row : exec c s = .next (s.issue t n w op anySub fun i s => s.runDma i (fault i))) (listed : opListed op = true) (move : op < 0x10)
    (fields : fault (s.nextIss t n w) = none) (here : (s.afterFetch t n w).dmaHere (s.nextIss t n w) = (m, none))
    (lists : SameLists (s.afterFetch t n w) m) (hp : ∀ u, Carried s m u t n w → post u) : Does c s post := by
  refine issues.does row rfl listed rfl (hp _ ?_)
  rw [fields]
  exact h.run issues.few (issues.row ▸ move) here lists

/-! ### What the engine does -/

theorem dmaHere_move {i : Iss} (h : dOp i.w < 0x06) : s.dmaHere i = s.moveLocal i := by
  unfold State.dmaHere
  split
  case h_5 => rfl
  all_goals omega

/-- One row of a plain move. -/
theorem copyRow {a : Nat} (i : Iss) (source : s.localPhys i.c (i.srcRow 0) (dLen i.w) rightR = .ok a) (bytes : s.readData a (dLen i.w) = some l)
    (dest : s.localPhys i.c (i.dstRow 0) (dLen i.w) rightW = .ok p) (written : (s.writeData p l).2 = true) :
    s.copyRows i (upto 1) = ((s.writeData p l).1, none) := by
  have write : s.writeData p l = ((s.writeData p l).1, true) := Prod.ext rfl written
  have read : s.ctxRead i.c (i.srcRow 0) (dLen i.w) = .ok l := by simp only [State.ctxRead, source, bytes]
  show s.copyRows i [0] = _
  rw [State.copyRows, read, dest]
  dsimp only
  rw [write]
  rfl

/-- A reshaping move whose rows pass their checks lands them. -/
theorem moveLocal_turned {i : Iss} {rows : List (List Byte)} {dst : List Nat} (turn : dXform i.w ≠ 0) (read : s.readRows i = .ok rows)
    (plan : s.dstPlan i = .ok dst) (land : s.landRows i.w dst rows = (m, none)) : s.moveLocal i = (m, none) := by
  rw [State.moveLocal, if_neg turn, read]
  dsimp only
  rw [plan]
  dsimp only
  rw [land]
  rfl

theorem withList_ok {i : Iss} {list : List Nat} (h : s.indexList i = .ok list) (f : State → List (Nat × Nat) → State × Option Why) :
    s.withList i f = f s list.zipIdx := by rw [State.withList, h]

theorem dmaHere_gather {i : Iss} {list : List Nat} (h : dOp i.w = 0x07) (read : s.indexList i = .ok list) :
    s.dmaHere i = s.copyElems i (list.zipIdx.map fun e => (i.tableElem e.1, i.localElem e.2)) := by
  simp only [State.dmaHere, h, State.gatherLocal, withList_ok read]

theorem dmaHere_scatter {i : Iss} {list : List Nat} (h : dOp i.w = 0x08) (read : s.indexList i = .ok list) :
    s.dmaHere i = s.copyElems i (list.zipIdx.map fun e => (i.localElem e.2, i.tableElem e.1)) := by
  simp only [State.dmaHere, h, State.scatterLocal, withList_ok read]

theorem dmaHere_scatterAdd {i : Iss} {list : List Nat} (h : dOp i.w = 0x09) (read : s.indexList i = .ok list) :
    s.dmaHere i = s.addElems i (list.zipIdx.map fun e => (i.localElem e.2, i.tableElem e.1)) := by
  simp only [State.dmaHere, h, State.scatterAddLocal, withList_ok read]

theorem length_readData {a k : Nat} (h : s.readData a k = some l) : l.length = k := by
  unfold State.readData at h
  split at h
  · obtain rfl := Option.some.inj h
    simp [upto]
  · cases h

theorem length_fillBytes (pat k : Nat) : (fillBytes pat k).length = k := by simp [fillBytes, upto]

/-! ### One plain row -/

/-- A row of bytes carried to a plain range. -/
theorem Carried.stored (h : Carried s m u t n w) (stored : Stored (s.afterFetch t n w) m p l) :
    u.bytes p l.length = l ∧ Placed s u t n w .dma .done ∧ RegsBut s u (threadRegs t n) ∧ BytesBut s u p l.length := by
  have byte : ∀ b, u.byte b = m.byte b := sameBytes_of_mem h.mem
  refine ⟨?_, h.placed, fun k hk => (h.regs k hk).trans (stored.reg k), fun b hb => (byte b).trans (stored.others b hb)⟩
  rw [State.bytes_congr _ _ _ _ fun i _ => byte _]
  exact stored.bytes

end Sys2Proof.Machine
end

section
/-! SUPPORT. Data movement inside the module (R37, R72). -/

namespace Sys2Proof.Machine

variable {s m u : State} {t n p op : Nat} {w : Desc} {l : List Byte} {c : Instr}

/-! ### Rows whose bytes are stated -/

/-- A plain row of a descriptor of one row (log entry 17). -/
theorem does_plainRow {a : Nat} (h : LocalDma s t n w) (issues : Issues s t n w op) (one : op = 0x01 ∨ op = 0x04)
    (row : exec c s = .next (s.issue t n w op anySub fun i s => s.runMove i)) (fields : moveFieldFault w = none) (plain : PlainRange s p (dLen w))
    (straight : dXform w = 0) (source : s.localPhys (s.nextIss t n w).c ((s.nextIss t n w).srcRow 0) (dLen w) rightR = .ok a)
    (bytes : s.readData a (dLen w) = some l) (dest : s.localPhys (s.nextIss t n w).c ((s.nextIss t n w).dstRow 0) (dLen w) rightW = .ok p) :
    Does c s fun u => u.bytes p (dLen w) = l ∧ Placed s u t n w .dma .done ∧ RegsBut s u (threadRegs t n) ∧ BytesBut s u p (dLen w) := by
  have length : dLen w = l.length := (length_readData bytes).symm
  obtain ⟨written, stored⟩ := PlainRange.writeData (length ▸ plain.afterFetch (t := t) (n := n) (w := w))
  have opcode : dOp w = 0x01 ∨ dOp w = 0x04 := issues.row ▸ one
  have rows : moveRows w = 1 := if_neg (by omega)
  have here : (s.afterFetch t n w).dmaHere (s.nextIss t n w) = (((s.afterFetch t n w).writeData p l).1, none) := by
    rw [dmaHere_move (by rw [nextIss_w]; omega), State.moveLocal, nextIss_w, if_pos straight, rows]
    exact copyRow _ (by rw [sameView_afterFetch.localPhys]; exact source) (by rw [sameView_afterFetch.readData]; exact bytes)
      (by rw [sameView_afterFetch.localPhys]; exact dest) written
  have listed : opListed op = true ∧ op < 0x10 := by rcases one with rfl | rfl <;> decide
  refine h.does issues row listed.1 listed.2 fields here (sameLists_writeData _ p l) fun u carried => ?_
  rw [length]
  exact carried.stored stored

theorem does_fill (h : LocalDma s t n w) (issues : Issues s t n w 0x06) (row : exec c s = .next (s.issue t n w 0x06 anySub fun i s => s.runDma i (moveFieldFault i.w)))
    (fields : moveFieldFault w = none) (plain : PlainRange s p (dLen w))
    (dest : s.localPhys (s.nextIss t n w).c (s.nextIss t n w).moveDst (dLen w) rightW = .ok p) :
    Does c s fun u => u.bytes p (dLen w) = (s.nextIss t n w).fillOf ∧ Placed s u t n w .dma .done ∧ RegsBut s u (threadRegs t n)
      ∧ BytesBut s u p (dLen w) := by
  have length : dLen w = (s.nextIss t n w).fillOf.length := (length_fillBytes _ _).symm
  obtain ⟨written, stored⟩ := PlainRange.writeData (length ▸ plain.afterFetch (t := t) (n := n) (w := w))
  have place : (s.afterFetch t n w).localPhys (s.nextIss t n w).c (s.nextIss t n w).moveDst (dLen w) rightW = .ok p := by
    rw [sameView_afterFetch.localPhys]; exact dest
  have here : (s.afterFetch t n w).dmaHere (s.nextIss t n w) = (((s.afterFetch t n w).writeData p (s.nextIss t n w).fillOf).1, none) := by
    have fill : (s.afterFetch t n w).dmaHere (s.nextIss t n w) = (s.afterFetch t n w).fillLocal (s.nextIss t n w) := by
      simp only [State.dmaHere, nextIss_w, issues.row]
    rw [fill, State.fillLocal, nextIss_w, place]
    simp only [written, if_true]
  refine h.does issues row rfl (by decide) fields here (sameLists_writeData _ _ _) fun u carried => ?_
  rw [length]
  exact carried.stored stored

/-! ### Rows stated through the engine's copy -/

/-- The memory and the registers of `m`, and the descriptor outstanding and done. -/
theorem Carried.moved (h : Carried s m u t n w) :
    (∀ b, u.byte b = m.byte b) ∧ Placed s u t n w .dma .done ∧ ∀ k, k ∉ threadRegs t n → u.reg k = m.reg k :=
  ⟨sameBytes_of_mem h.mem, h.placed, h.regs⟩

theorem here_copied (move : dOp w < 0x06) (rows : moveRows w = dRows w) (straight : dXform w = 0)
    (copy : (s.afterFetch t n w).copyRows (s.nextIss t n w) (upto (dRows w)) = (m, none)) :
    (s.afterFetch t n w).dmaHere (s.nextIss t n w) = (m, none) ∧ SameLists (s.afterFetch t n w) m := by
  refine ⟨?_, sameLists_copyRows _ _ _ copy⟩
  rw [dmaHere_move (i := s.nextIss t n w) move, State.moveLocal, nextIss_w, if_pos straight, rows, copy]

theorem here_turned {rows : List (List Byte)} {dst : List Nat} (move : dOp w < 0x06) (turn : dXform w ≠ 0)
    (read : s.readRows (s.nextIss t n w) = .ok rows) (plan : s.dstPlan (s.nextIss t n w) = .ok dst)
    (land : (s.afterFetch t n w).landRows w dst rows = (m, none)) :
    (s.afterFetch t n w).dmaHere (s.nextIss t n w) = (m, none) ∧ SameLists (s.afterFetch t n w) m := by
  have lists := sameLists_landRows (s.afterFetch t n w) w dst rows
  rw [land] at lists
  rw [dmaHere_move (i := s.nextIss t n w) move]
  exact ⟨moveLocal_turned turn (by rw [sameView_afterFetch.readRows]; exact read) (by rw [sameView_afterFetch.dstPlan]; exact plan) land, lists⟩

/-- The descriptor reshapes its rows, which pass their checks and land in `m` (log entry 17). -/
def Turned (s m : State) (t n : Nat) (w : Desc) : Prop :=
  moveFieldFault w = none ∧ dXform w ≠ 0 ∧ ∃ rows dst, s.readRows (s.nextIss t n w) = .ok rows ∧ s.dstPlan (s.nextIss t n w) = .ok dst
    ∧ (s.afterFetch t n w).landRows w dst rows = (m, none)

/-- The engine copies its rows one after another, which leaves `m`. -/
def Copied (s m : State) (t n : Nat) (w : Desc) : Prop :=
  moveFieldFault w = none ∧ dXform w = 0 ∧ (s.afterFetch t n w).copyRows (s.nextIss t n w) (upto (dRows w)) = (m, none)

theorem does_turned {fault : Iss → Option Nat} (h : LocalDma s t n w) (issues : Issues s t n w op)
    (row : exec c s = .next (s.issue t n w op anySub fun i s => s.runDma i (fault i))) (listed : opListed op = true) (move : op < 0x06)
    (fields : moveFieldFault w = none → fault (s.nextIss t n w) = none) (turned : Turned s m t n w) : Does c s fun u =>
      (∀ b, u.byte b = m.byte b) ∧ Placed s u t n w .dma .done ∧ ∀ k, k ∉ threadRegs t n → u.reg k = m.reg k := by
  obtain ⟨ok, turn, rows, dst, read, plan, land⟩ := turned
  obtain ⟨here, lists⟩ := here_turned (issues.row ▸ move) turn read plan land
  exact h.does issues row listed (by omega) (fields ok) here lists fun _ => Carried.moved

theorem does_move2d (h : LocalDma s t n w) (issues : Issues s t n w op) (row : exec c s = .next (s.issue t n w op anySub fun i s => s.runMove i))
    (two : op = 0x02 ∨ op = 0x05) (moved : Copied s m t n w ∨ Turned s m t n w) : Does c s fun u =>
      (∀ b, u.byte b = m.byte b) ∧ Placed s u t n w .dma .done ∧ ∀ k, k ∉ threadRegs t n → u.reg k = m.reg k := by
  have listed : opListed op = true ∧ op < 0x06 := by rcases two with rfl | rfl <;> decide
  rcases moved with ⟨fields, straight, copy⟩ | turned
  · have rows : moveRows w = dRows w := if_pos (by rw [issues.row]; omega)
    obtain ⟨here, lists⟩ := here_copied (issues.row ▸ listed.2) rows straight copy
    exact h.does issues row listed.1 (by omega) fields here lists fun _ => Carried.moved
  · exact does_turned h issues row listed.1 listed.2 id turned

theorem indexList_fetched {i : Iss} {list : List Nat} (h : s.indexList i = .ok list) : (s.afterFetch t n w).indexList i = .ok list := by
  rw [sameView_afterFetch.indexList]; exact h

/-- Settles O5: at the front of its queue the engine carries a descriptor out at once, and its writes leave every list of outstanding
descriptors as it is. -/
theorem dmaRowsComplete : Obligations.DmaRowsComplete := by
  unfold Obligations.DmaRowsComplete
  refine ⟨fun t n w s a p b h fields plain => ⟨?_, ?_, ?_⟩, fun t n w s m h => ⟨?_, ?_, ?_, ?_, ?_, ?_, ?_, ?_⟩⟩
  case refine_1 =>
    rintro issues ⟨straight, source, bytes, dest⟩
    exact does_plainRow h issues (.inl rfl) rfl fields plain straight source bytes dest
  case refine_2 =>
    rintro issues ⟨straight, source, bytes, dest⟩
    exact does_plainRow h issues (.inr rfl) rfl fields plain straight source bytes dest
  case refine_3 => exact fun issues dest => does_fill h issues rfl fields plain dest
  case refine_4 => exact fun issues moved => does_move2d h issues rfl (.inl rfl) moved
  case refine_5 => exact fun issues moved => does_move2d h issues rfl (.inr rfl) moved
  case refine_6 => exact fun issues turned => does_turned (fault := fun i => moveFieldFault i.w) h issues rfl rfl (by decide) id turned
  case refine_7 => exact fun issues turned => does_turned (fault := fun i => moveFieldFault i.w) h issues rfl rfl (by decide) id turned
  case refine_8 =>
    intro issues base turned
    refine does_turned h issues rfl rfl (by decide) (fun ok => ?_) turned
    rw [nextIss_w, ok]
    exact if_pos base
  case refine_9 =>
    intro list issues fields read copy
    have here := (dmaHere_gather (i := s.nextIss t n w) issues.row (indexList_fetched read)).trans copy
    exact h.does (fault := fun i => listFieldFault i.w) issues rfl rfl (by decide) fields here (sameLists_copyElems _ _ _ copy) fun _ => Carried.moved
  case refine_10 =>
    intro list issues fields read copy
    have here := (dmaHere_scatter (i := s.nextIss t n w) issues.row (indexList_fetched read)).trans copy
    exact h.does (fault := fun i => listFieldFault i.w) issues rfl rfl (by decide) fields here (sameLists_copyElems _ _ _ copy) fun _ => Carried.moved
  case refine_11 =>
    intro list issues fields read add
    have here := (dmaHere_scatterAdd (i := s.nextIss t n w) issues.row (indexList_fetched read)).trans add
    exact h.does (fault := fun i => listFieldFault i.w) issues rfl rfl (by decide) fields here (sameLists_addElems _ _ _ add) fun _ => Carried.moved

end Sys2Proof.Machine
end

section
/-! SUPPORT. The two views of Thermos (R66, R67), and the write of a segment entry (R73). -/

namespace Sys2Proof.Machine

variable {s : State} {p : Nat}

/-! ### Reset -/

/-- Settles O54: after reset no register and no byte of memory is listed. -/
theorem resetHoldsInv : Obligations.ResetHoldsInv := ⟨Tab.wf_nil _, wf_reset⟩

/-! ### The two views of Thermos -/

/-- Below or above the registers: an offset that tile control does not hold. -/
def outsideControl (p : Nat) : Prop := p < 0x80000000 ∨ 0x4000000000 ≤ p

theorem placeOf_ne_control {t o : Nat} (h : outsideControl p) : placeOf p ≠ .control t o := by
  intro c
  unfold placeOf at c
  unfold outsideControl at h
  split_ifs at c
  omega

/-- A byte of plain memory is read from its key. -/
theorem State.dataByte_plain (h : outsideControl p) : s.dataByte p = s.byte (memKey p) := by
  unfold State.dataByte
  split
  · next place => exact absurd place (placeOf_ne_control h)
  · rfl

theorem placeOf_interleaved {a : Nat} (h : inThermos a 1) : placeOf a = .thermos (thermosRoute a).1 (thermosRoute a).2 := by
  obtain ⟨lo, hi⟩ := h
  unfold placeOf
  rw [if_neg (by omega), if_neg (by omega), if_neg (by omega), if_neg (by omega), if_pos (by omega)]

theorem placeOf_perStack {st inner : Nat} (hst : st < 8) (hin : inner < 2 ^ 36) :
    placeOf (0x10000000000 + 2 ^ 36 * st + inner) = .thermos st inner := by
  have stack : (0x10000000000 + 2 ^ 36 * st + inner - 0x10000000000) / 2 ^ 36 = st := by omega
  have within : (0x10000000000 + 2 ^ 36 * st + inner) % 2 ^ 36 = inner := by omega
  unfold placeOf
  rw [if_neg (by omega), if_neg (by omega), if_neg (by omega), if_neg (by omega), if_neg (by omega), if_pos (by omega), stack, within]

theorem memKey_perStack {st inner : Nat} (hin : inner < 2 ^ 36) : memKey (0x10000000000 + 2 ^ 36 * st + inner) = thermosKey st inner := by
  have stack : (0x10000000000 + 2 ^ 36 * st + inner - 0x10000000000) / 2 ^ 36 = st := by omega
  have within : (0x10000000000 + 2 ^ 36 * st + inner) % 2 ^ 36 = inner := by omega
  rw [memKey, if_pos (by omega), stack, within]

theorem memKey_interleaved {a : Nat} (h : inThermos a 1) : memKey a = a := if_neg (by obtain ⟨lo, hi⟩ := h; omega)

theorem thermosRoute_lt {a : Nat} (h : inThermos a 1) : (thermosRoute a).1 < 8 ∧ (thermosRoute a).2 < 2 ^ 36 := by
  obtain ⟨lo, hi⟩ := h
  simp only [thermosRoute]
  omega

/-- The key of a per-stack place is the interleaved offset whose route it is: one memory stands behind both views. -/
theorem thermosKey_route {a : Nat} (h : inThermos a 1) : thermosKey (thermosRoute a).1 (thermosRoute a).2 = a := by
  obtain ⟨lo, hi⟩ := h
  simp only [thermosKey, thermosRoute]
  omega

/-- Settles O59: a byte's route leads back to the key it is stored under, and neither view lies in tile control. -/
theorem thermosViewsAreOne : Obligations.ThermosViewsAreOne := by
  unfold Obligations.ThermosViewsAreOne
  intro a lo hi
  have inside : inThermos a 1 := ⟨lo, Nat.succ_le_of_lt hi⟩
  obtain ⟨stack, inner⟩ := thermosRoute_lt inside
  have place := placeOf_interleaved inside
  have linear := placeOf_perStack stack inner
  have key : memKey (0x10000000000 + 2 ^ 36 * (thermosRoute a).1 + (thermosRoute a).2) = memKey a := by
    rw [memKey_perStack inner, thermosKey_route inside, memKey_interleaved inside]
  refine ⟨rfl, rfl, stack, inner, place, linear, key, fun s => ?_⟩
  rw [State.dataByte_plain (.inr (by omega)), State.dataByte_plain (.inr lo), key]

/-! ### Writes of a segment entry -/

theorem extract_and_mask {r m : Word} {lo width : Nat} (h : m.extractLsb' lo width = BitVec.allOnes width) :
    (r &&& m).extractLsb' lo width = r.extractLsb' lo width := by
  rw [BitVec.extractLsb'_and, h, BitVec.and_allOnes]

/-- A part of a part is a part. -/
theorem extract_extract {w lo width lo' width' : Nat} (v : BitVec w) (h : lo' + width' ≤ width) :
    (v.extractLsb' lo width).extractLsb' lo' width' = v.extractLsb' (lo + lo') width' := by
  apply BitVec.eq_of_getLsbD_eq
  intro i hi
  have inside : lo' + i < width := by omega
  simp [hi, inside, Nat.add_assoc]

/-- Clearing a bit that is set takes its weight away. -/
theorem clear_bit48 {x : Word} (h : x.getLsbD 48 = true) : x &&& 0xFFFEFFFFFFFFFFFF#64 = x - 2 ^ 48 := by
  have mask : (0xFFFEFFFFFFFFFFFF#64 : Word) = ~~~(BitVec.twoPow 64 48) := by decide
  have weight : (2 ^ 48 : Word) = BitVec.twoPow 64 48 := by decide
  rw [mask, weight, eq_sub_iff_add_eq, BitVec.add_eq_or_of_and_eq_zero]
  · apply BitVec.eq_of_getLsbD_eq
    intro i hi
    by_cases e : i = 48
    · subst e; simp [h]
    · simp [e, hi]
  · apply BitVec.eq_of_getLsbD_eq
    intro i hi
    by_cases e : i = 48
    · subst e; simp
    · simp [Ne.symm e]

theorem segReason_lt (vbase size pbase : Nat) : segReason vbase size pbase < 8 := by
  unfold segReason
  dsimp only
  split_ifs <;> decide

theorem segLo_ne_segHi (c i : Nat) : R.segLo c i ≠ R.segHi c i := by unfold R.segLo R.segHi; omega

theorem segStatus_apart {i : Nat} (c : Nat) (hi : i < 64) : R.segStatus c ≠ R.segLo c i ∧ R.segStatus c ≠ R.segHi c i := by
  unfold R.segStatus R.segLo R.segHi; omega

/-- Entry `i` of context `c` with both its words written. -/
def State.setSeg (s : State) (c i : Nat) (lo hi : Word) : State := (s.setReg (R.segLo c i) lo).setReg (R.segHi c i) hi

theorem State.setSeg_lo (s : State) (c i : Nat) (lo hi : Word) : (s.setSeg c i lo hi).reg (R.segLo c i) = lo := by
  rw [State.setSeg, State.reg_setReg_other _ _ (Ne.symm (segLo_ne_segHi c i)), State.reg_setReg_same]

theorem State.setSeg_hi (s : State) (c i : Nat) (lo hi : Word) : (s.setSeg c i lo hi).reg (R.segHi c i) = hi := State.reg_setReg_same _ _ _

theorem State.setSeg_only (s : State) (c i : Nat) (lo hi : Word) : OnlyRegs s (s.setSeg c i lo hi) [R.segLo c i, R.segHi c i] := by
  refine ⟨fun k hk => ?_, rfl⟩
  simp only [List.mem_cons, List.not_mem_nil, or_false, not_or] at hk
  rw [State.setSeg, State.reg_setReg_other _ _ (Ne.symm hk.2), State.reg_setReg_other _ _ (Ne.symm hk.1)]

/-- The fields of the low word a write of an entry stores: the reserved bits alone are masked. -/
theorem segLo_fields {u : State} {c i : Nat} {v : BitVec 128} (h : u.reg (R.segLo c i) = v.extractLsb' 0 64 &&& 0xFFFFFFFFFFFF0000#64) :
    u.fld (F.segLo.vbase c i) = bitsAt v 16 24 ∧ u.fld (F.segLo.size c i) = bitsAt v 40 24 := by
  have field (lo : Nat) (hlo : lo + 24 ≤ 64) (ones : (0xFFFFFFFFFFFF0000#64).extractLsb' lo 24 = BitVec.allOnes 24) :
      ((u.reg (R.segLo c i)).extractLsb' lo 24).toNat = bitsAt v lo 24 := by
    rw [h, extract_and_mask ones, extract_extract v hlo, Nat.zero_add]
    rfl
  exact ⟨field 16 (by decide) (by decide), field 40 (by decide) (by decide)⟩

theorem segHi_pbase {u : State} {c i : Nat} {v : BitVec 128} (h : u.reg (R.segHi c i) = v.extractLsb' 64 64 &&& 0x003F00FFFFFF0000#64) :
    u.fld (F.segHi.pbase c i) = bitsAt v 80 24 := by
  show ((u.reg (R.segHi c i)).extractLsb' 16 24).toNat = _
  rw [h, extract_and_mask (by decide), extract_extract v (by decide)]
  rfl

theorem segHi_v (v : BitVec 128) : (v.extractLsb' 64 64 &&& 0x003F00FFFFFF0000#64).getLsbD 48 = v.getLsbD 112 := by
  rw [BitVec.getLsbD_and, BitVec.getLsbD_extractLsb']
  simp

/-- What is recorded of a refused entry (Table 3.6). -/
def State.noteRefusal (s : State) (c i why : Nat) : State :=
  ((s.setFld (F.segStatus.refIndex c) i).setBit (F.segStatus.refused c) true).setFld (F.segStatus.refReason c) why

theorem State.noteRefusal_fields (s : State) {c i why : Nat} (hi : i < 64) (hw : why < 8) :
    (s.noteRefusal c i why).bit (F.segStatus.refused c) = true ∧ (s.noteRefusal c i why).fld (F.segStatus.refIndex c) = i
    ∧ (s.noteRefusal c i why).fld (F.segStatus.refReason c) = why := by
  refine ⟨?_, ?_, ?_⟩
  · rw [State.bit_eq_fld _ _ rfl, State.noteRefusal, State.fld_setFld_other _ _ _ _ (.inl (by show 7 ≤ 7; decide)), State.setBit_eq,
      State.fld_setFld_same _ _ _ (by show 7 ≤ 64; decide)]
    rfl
  · rw [State.noteRefusal, State.fld_setFld_other _ _ _ _ (.inl (by show 6 ≤ 7; decide)), State.setBit_eq,
      State.fld_setFld_other _ _ _ _ (.inl (by show 6 ≤ 6; decide)), State.fld_setFld_same _ _ _ (by show 6 ≤ 64; decide)]
    exact Nat.mod_eq_of_lt hi
  · rw [State.noteRefusal, State.fld_setFld_same _ _ _ (by show 10 ≤ 64; decide)]
    exact Nat.mod_eq_of_lt hw

theorem State.noteRefusal_only (s : State) (c i why : Nat) : OnlyRegs s (s.noteRefusal c i why) [R.segStatus c] := by
  refine ⟨fun k hk => ?_, rfl⟩
  have apart : R.segStatus c ≠ k := fun e => hk (by simp [e])
  rw [State.noteRefusal, State.reg_setFld_other _ _ _ _ apart, State.reg_setBit_other _ _ _ _ apart, State.reg_setFld_other _ _ _ _ apart]

/-- Settles O12: an entry is stored with its reserved bits masked; a refused one loses `V` besides, and `SEG_STATUS` takes its fields one by
one. -/
theorem segmentWriteCompletes : Obligations.SegmentWriteCompletes := by
  unfold Obligations.SegmentWriteCompletes
  intro c i v s why lo hi
  obtain ⟨statusLo, statusHi⟩ := segStatus_apart c.val i.isLt
  refine ⟨fun accepted => ?stored, fun valid fails => ?refused⟩
  case stored =>
    have row : s.segWrite c i v = s.setSeg c i lo hi := if_neg fun h => accepted.elim (fun e => Bool.noConfusion (e.symm.trans h.1)) h.2
    refine ⟨s.setSeg c i lo hi, by rw [← row]; rfl, ?_⟩
    obtain ⟨vbase, size⟩ := segLo_fields (s.setSeg_lo c i lo hi)
    refine ⟨s.setSeg_lo .., s.setSeg_hi .., vbase, size, segHi_pbase (s.setSeg_hi ..), ?_, s.setSeg_only ..⟩
    exact (congrArg (BitVec.getLsbD · 48) (s.setSeg_hi c i lo hi)).trans (segHi_v v)
  case refused =>
    have cleared : hi &&& 0xFFFEFFFFFFFFFFFF#64 = hi - 2 ^ 48 := clear_bit48 ((segHi_v v).trans valid)
    generalize hm : s.setSeg c i lo (hi - 2 ^ 48) = m
    have row : s.segWrite c i v = m.noteRefusal c i why := by
      rw [← hm, ← cleared]
      exact if_pos ⟨valid, fails⟩
    have mLo : m.reg (R.segLo c i) = lo := hm ▸ s.setSeg_lo ..
    have mHi : m.reg (R.segHi c i) = hi - 2 ^ 48 := hm ▸ s.setSeg_hi ..
    obtain ⟨regs, only⟩ := m.noteRefusal_only c i why
    have keep {k : Nat} (hk : R.segStatus c ≠ k) : (m.noteRefusal c i why).reg k = m.reg k := regs k (by simpa using Ne.symm hk)
    obtain ⟨refused, index, reason⟩ := m.noteRefusal_fields (c := c) i.isLt (segReason_lt ..)
    refine ⟨m.noteRefusal c i why, by rw [← row]; rfl, ?_⟩
    refine ⟨(keep statusLo).trans mLo, (keep statusHi).trans mHi, ?_, refused, index, reason, (segLo_fields ((keep statusLo).trans mLo)).1, ?_, ?_⟩
    · show ((m.noteRefusal c i why).reg (R.segHi c i)).getLsbD 48 = false
      rw [keep statusHi, mHi, ← cleared, BitVec.getLsbD_and]
      simp
    · intro k hk
      simp only [List.mem_cons, List.not_mem_nil, or_false, not_or] at hk
      rw [keep (Ne.symm hk.2.2), ← hm]
      exact (s.setSeg_only c i lo (hi - 2 ^ 48)).1 k (by simp [hk.1, hk.2.1])
    · rw [← hm]; rfl

end Sys2Proof.Machine
end

section
/-! SUPPORT. Plain accesses to memory, through the bus and from other modules (R69, R76, R81, R430), and transfers taken off the list of those
that arrived (R282). -/

namespace Sys2Proof.Machine

variable {s m u : State} {p n k : Nat} {l : List Byte} {a : Arrived}

/-! ### Ranges that are ready -/

/-- The unit that holds the first byte of a ready range is ready. -/
theorem ready_first (h : s.rangeReady p n = true) (hn : 0 < n) : s.placeReady (placeOf p) = true := by
  unfold State.rangeReady at h
  rw [List.all_eq_true] at h
  simpa using h 0 (mem_upto.mpr (by omega))

/-- A ready range outside tile control that is not empty begins in Meadow or Thermos, where the bus moves all bytes at once. -/
theorem ready_memory (h : s.rangeReady p n = true) (hn : 0 < n) (out : outsideControl p) :
    (∃ t, placeOf p = .meadow t) ∨ ∃ st inner, placeOf p = .thermos st inner := by
  have ready := ready_first h hn
  unfold outsideControl at out
  unfold placeOf at ready ⊢
  split_ifs at ready ⊢ with h1 h2 h3 h4
  · exact .inl ⟨_, rfl⟩
  · omega
  · omega
  · omega
  · exact .inr ⟨_, _, rfl⟩
  · exact .inr ⟨_, _, rfl⟩
  · exact absurd ready (by simp [State.placeReady])

/-! ### The bus on plain memory -/

theorem noteBadRead_clean (h : s.badWords = []) : s.noteBadRead p n = s := if_pos (.inl h)

theorem readData_clean (ready : s.rangeReady p n = true) (clean : s.badWords = []) :
    s.readData p n = some ((upto n).map fun i => s.dataByte (p + i)) := if_pos ⟨ready, .inl clean⟩

/-- A physical read of plain memory without errors answers its bytes and notes nothing. -/
theorem localRead_plain (range : p + n ≤ 0x80000000 ∨ 0x4000000000 ≤ p) (ready : s.rangeReady p n = true) (clean : s.badWords = []) :
    s.localRead p n = (some ((upto n).map fun i => s.byte (memKey (p + i))), s) := by
  have bytes : (upto n).map (fun i => s.dataByte (p + i)) = (upto n).map fun i => s.byte (memKey (p + i)) :=
    List.map_congr_left fun i hi => State.dataByte_plain (by have := mem_upto.mp hi; unfold outsideControl; omega)
  have whole : (s.readData p n, s.noteBadRead p n) = (some ((upto n).map fun i => s.byte (memKey (p + i))), s) := by
    rw [readData_clean ready clean, noteBadRead_clean clean, bytes]
  rcases Nat.eq_zero_or_pos n with rfl | hn
  · unfold State.localRead
    split
    · exact whole
    · exact whole
    · rfl
  · rcases ready_memory ready hn (by unfold outsideControl; omega) with ⟨t, place⟩ | ⟨st, inner, place⟩
    · rw [State.localRead, place]
      exact whole
    · rw [State.localRead, place]
      exact whole

theorem Stored.moved (h : Stored s m p l) : Moved s m p l := ⟨h.bytes, h.others, fun k _ => h.reg k⟩

theorem Moved.refl (s : State) (p : Nat) : Moved s s p [] := ⟨rfl, fun _ _ => rfl, fun _ _ => rfl⟩

/-- A physical write of plain memory is carried out, and moves its bytes. -/
theorem localWrite_plain (h : PlainRange s p l.length) (out : outsideControl p) : ∃ m, s.localWrite p l = (m, true) ∧ Moved s m p l := by
  obtain ⟨ok, stored⟩ := h.writeData
  have whole : s.writeData p l = ((s.writeData p l).1, true) := Prod.ext rfl ok
  rcases l.eq_nil_or_concat with rfl | ⟨l', b, hl⟩
  · unfold State.localWrite
    split
    · exact ⟨_, whole, stored.moved⟩
    · exact ⟨_, whole, stored.moved⟩
    · exact ⟨s, rfl, .refl s p⟩
  · have hn : 0 < l.length := by simp [hl]
    refine ⟨_, ?_, stored.moved⟩
    rcases ready_memory h.ready hn out with ⟨t, place⟩ | ⟨st, inner, place⟩
    · rw [State.localWrite, place]
      exact whole
    · rw [State.localWrite, place]
      exact whole

/-! ### Transfers that arrive -/

/-- Taking a transfer off the list leaves everything a translation and a read look at. -/
theorem sameView_untaken (s : State) (k : Nat) : SameView s (s.untaken k) := ⟨rfl, rfl, rfl, rfl⟩

/-- A transfer of one of the kinds, in its turn, is taken off the list and handled. -/
theorem onArrived_eq {kinds : List Nat} {f : State → Arrived → State} (here : s.arrived[k]? = some a) (turn : s.inTurn k a = true)
    (kind : a.kind ∈ kinds) : s.onArrived k kinds f = f (s.untaken k) a := by
  have taken : s.takeArrived k kinds = some (a, s.untaken k) := by
    simp only [State.takeArrived, here]
    exact if_pos ⟨by simpa using kind, turn⟩
  simp only [State.onArrived, taken]

end Sys2Proof.Machine
end

section
/-! SUPPORT. Writes of registers by their address, of tables that stand among them, and what a failing access through BAR2 is noted by (R12, R288, R371,
R391; Tables 12.1, 12.7, 12.8). -/

namespace Sys2Proof.Machine

variable {s m u : State} {k : Nat} {v : Word}

/-! ### Interrupts and the error flags of BAR0 -/

/-- `u` is `s` after registers among `ks` were written and messages sent behind the others. -/
structure Notes (s u : State) (ks : List Nat) : Prop where
  regs : RegsBut s u ks
  out : ∃ l, u.out = s.out ++ l
  mem : u.mem = s.mem
  cfg : u.cfg = s.cfg

theorem Notes.refl (s : State) (ks : List Nat) : Notes s s ks := ⟨.refl s ks, ⟨[], (List.append_nil _).symm⟩, rfl, rfl⟩

theorem Notes.setFld {ks : List Nat} {f : Fld} {x : Nat} (h : Notes s m ks) (hf : f.reg ∈ ks) : Notes s (m.setFld f x) ks :=
  ⟨fun j hj => (State.reg_setFld_other _ _ _ _ fun e : f.reg = j => hj (e ▸ hf)).trans (h.regs j hj), h.out, h.mem, h.cfg⟩

theorem Notes.send {ks : List Nat} {o : Out} (h : Notes s m ks) : Notes s (m.send o) ks := by
  obtain ⟨l, hl⟩ := h.out
  exact ⟨h.regs, ⟨l ++ [o], by rw [State.out_send, hl, List.append_assoc]⟩, h.mem, h.cfg⟩

theorem Notes.vecCount {ks : List Nat} {c : Tab Nat} (h : Notes s m ks) : Notes s { m with vecCount := c } ks := ⟨h.regs, h.out, h.mem, h.cfg⟩

theorem Notes.fire {ks : List Nat} {x : Nat} (h : Notes s m ks) (hp : R.msixPba ∈ ks) : Notes s (m.fire x) ks := by
  unfold State.fire
  split
  · exact h.send
  · exact h.setFld hp

theorem Notes.vectorEntry {ks : List Nat} {x : Nat} {now : Bool} (h : Notes s m ks) (hp : R.msixPba ∈ ks) : Notes s (m.vectorEntry x now) ks := by
  unfold State.vectorEntry
  dsimp only
  split_ifs
  · exact h
  · exact h.vecCount.fire hp
  · exact h.vecCount

theorem Notes.interrupt {ks : List Nat} {b x : Nat} {now : Bool} (h : Notes s m ks) (hc : R.intCause ∈ ks) (hp : R.msixPba ∈ ks) :
    Notes s (m.interrupt b x now) ks := by
  unfold State.interrupt
  dsimp only
  split
  · exact h.setFld hc
  · exact (h.setFld hc).vectorEntry hp

/-- The registers a flag of `ERR_SUMMARY` may change. -/
def errRegs : List Nat := [R.errSummary, R.intCause, R.msixPba]

/-- A flag of `ERR_SUMMARY` is set, with its cause and message (Tables 12.7, 12.8). -/
theorem errSummary_spec (s : State) {b : Nat} (hb : b < 64) :
    (s.errSummary b).bit ⟨R.errSummary, b, 1⟩ = true ∧ Notes s (s.errSummary b) errRegs := by
  have behind : Notes (s.setFld ⟨R.errSummary, b, 1⟩ 1) (s.errSummary b) [R.intCause, R.msixPba] :=
    (Notes.refl _ _).interrupt (.head _) (.tail _ (.head _))
  refine ⟨?_, ((Notes.refl s errRegs).setFld (.head _)).interrupt (.tail _ (.head _)) (.tail _ (.tail _ (.head _)))⟩
  rw [State.bit_congr (behind.regs R.errSummary (by decide)), State.bit_eq_fld _ _ rfl, State.fld_setFld_same _ _ _ (by show b + 1 ≤ 64; omega)]
  rfl

theorem cfgWord_setCfgWord (s : State) (j k : Nat) (v : BitVec 32) : (s.setCfgWord j v).cfgWord k = if j = k then v else s.cfgWord k :=
  Tab.get_put _ _ _ _ _

/-- Only configuration space changed, and in it not the uncorrectable errors; free values may have been taken. -/
structure LogsOnly (s u : State) : Prop where
  only : ∃ c f, u = { s with cfg := c, freeCount := f }
  errors : u.cfgWord 65 = s.cfgWord 65

theorem LogsOnly.setCfgWord {j : Nat} {x : BitVec 32} (h : LogsOnly s m) (hj : j ≠ 65) : LogsOnly s (m.setCfgWord j x) := by
  obtain ⟨⟨c, f, only⟩, errors⟩ := h
  refine ⟨⟨_, f, by rw [only]; rfl⟩, ?_⟩
  rw [cfgWord_setCfgWord, if_neg hj, errors]

theorem LogsOnly.freeList {j : Nat} (h : LogsOnly s m) : LogsOnly s (m.freeList j).2 := by
  induction j generalizing m with
  | zero => exact h
  | succ j ih =>
    obtain ⟨⟨c, f, only⟩, errors⟩ := h
    exact ih ⟨⟨c, _, by rw [only]⟩, errors⟩

theorem LogsOnly.header (h : LogsOnly s m) (l : List (F32 × Nat)) : LogsOnly s (forEach l (fun s e => s.setCfgWord (71 + e.2) e.1) m) := by
  induction l generalizing m with
  | nil => exact h
  | cons e l ih => exact ih (h.setCfgWord (by omega))

/-- An Unsupported Request is noted in configuration space alone: bit 20 of the uncorrectable errors. -/
theorem aerUnsupported_spec (s : State) :
    (s.aerUnsupported.cfgWord 65).getLsbD 20 = true ∧ ∃ c f, s.aerUnsupported = { s with cfg := c, freeCount := f } := by
  let noted := s.setCfgWord 65 (s.cfgWord 65 ||| 1 <<< 20)
  have logs : LogsOnly noted s.aerUnsupported := by
    have start : LogsOnly noted noted := ⟨⟨_, _, rfl⟩, rfl⟩
    unfold State.aerUnsupported State.aerNote
    dsimp only
    split
    · exact (start.setCfgWord (by decide)).setCfgWord (by decide)
    · exact ((((start.setCfgWord (by decide)).setCfgWord (by decide)).freeList.setCfgWord (by decide)).header _)
  obtain ⟨⟨c, f, only⟩, errors⟩ := logs
  refine ⟨?_, c, f, only⟩
  rw [errors, cfgWord_setCfgWord, if_pos rfl, BitVec.getLsbD_or]
  simp

/-! ### A failing access through BAR2 -/

/-- A read that fails: the answer goes out first, then what it sets off. -/
theorem bar2ReadFails_spec (m : State) : let u := ((m.send .readFails).errSummary 1).aerUnsupported
    u.out.take (m.out.length + 1) = m.out ++ [.readFails] ∧ u.bit ⟨R.errSummary, 1, 1⟩ = true ∧ (u.cfgWord 65).getLsbD 20 = true ∧ SameBytes m u := by
  obtain ⟨flag, notes⟩ := errSummary_spec (m.send .readFails) (b := 1) (by decide)
  obtain ⟨aer, c, f, only⟩ := aerUnsupported_spec ((m.send .readFails).errSummary 1)
  obtain ⟨l, out⟩ := notes.out
  refine ⟨?_, ?_, aer, ?_⟩
  · rw [only]
    show ((m.send .readFails).errSummary 1).out.take _ = _
    rw [out, State.out_send, List.take_left' (by simp)]
  · rw [only]
    exact flag
  · rw [only]
    exact sameBytes_of_mem notes.mem

theorem toNat_bumpReg (s : State) (k : Nat) : ((s.bumpReg k).reg k).toNat = min ((s.reg k).toNat + 1) (2 ^ 64 - 1) := by
  rw [State.bumpReg, State.reg_setReg_same, BitVec.toNat_ofNat]
  exact Nat.mod_eq_of_lt (by omega)

/-- A write that fails or is discarded: it is counted, and bit 0 of `ERR_SUMMARY` set. -/
theorem bar2WriteFails_spec (m : State) : let u := (m.bumpReg R.bar2Discards).errSummary 0
    u.bit ⟨R.errSummary, 0, 1⟩ = true ∧ (u.reg R.bar2Discards).toNat = min ((m.reg R.bar2Discards).toNat + 1) (2 ^ 64 - 1) ∧ SameBytes m u := by
  obtain ⟨flag, notes⟩ := errSummary_spec (m.bumpReg R.bar2Discards) (b := 0) (by decide)
  refine ⟨flag, ?_, sameBytes_of_mem notes.mem⟩
  rw [notes.regs _ (by decide), toNat_bumpReg]

theorem bar2Read_eq (up : s.hostUp = true) (off n : Nat) : s.bar2Read off n = match s.localRead (s.bar2Offset off) n with
    | (some l, m) => m.send (.readData l)
    | (none, m) => ((m.send .readFails).errSummary 1).aerUnsupported := if_neg (by simp [up])

theorem bar2Read_down (down : s.hostUp = false) (off n : Nat) : s.bar2Read off n = ((s.send .readFails).errSummary 1).aerUnsupported :=
  if_pos (by simp [down])

/-! ### Registers by their address -/

/-- A plain write of a register: the bits software may write take the value, those written 1 to clear are cleared, the others stay (R12). -/
theorem plainWrite_spec {r : RegSpec} (h : regSpecOf k = some r) :
    (s.plainWrite k v).reg k = ((v &&& r.rw) ||| (s.reg k &&& ~~~r.rw &&& ~~~(v &&& r.w1c))) ∧ OnlyRegs s (s.plainWrite k v) [k] := by
  simp only [State.plainWrite, h]
  refine ⟨State.reg_setReg_same _ _ _, fun j hj => State.reg_setReg_other _ _ (Ne.symm (by simpa using hj)), rfl⟩

/-- A register that is none of the mailbox's own takes its block's write. -/
theorem anyWrite_eq (h : ∀ i, i < 2 → k ≠ R.mbxCtl i ∧ k ≠ R.mbxReqLen i) : s.anyWrite k v = s.regWrite k v := by
  obtain ⟨ctl0, len0⟩ := h 0 (by decide)
  obtain ⟨ctl1, len1⟩ := h 1 (by decide)
  simp only [State.anyWrite, ctl0, ctl1, len0, len1, false_and, or_self, if_false]

theorem find_none_of_ne {f : Nat → Nat} {b : Nat} (h : ∀ i, i < b → k ≠ f i) : (upto b).find? (fun i => k == f i) = none := by
  rw [List.find?_eq_none]
  intro i hi
  simpa using h i (mem_upto.mp hi)

theorem anyWrite_plainBar0 (h : plainBar0 k = true) : s.anyWrite k v = s.plainWrite k v := by
  simp only [plainBar0, Bool.and_eq_true, decide_eq_true_eq, bne_iff_ne, List.all_eq_true] at h
  obtain ⟨⟨⟨⟨⟨⟨lo, hi⟩, -⟩, -⟩, sel⟩, cmd⟩, bells⟩ := h
  have bell (r) (hr : r < 9) := bells r (mem_upto.mpr hr)
  rw [anyWrite_eq fun i hi => by unfold R.mbxCtl R.mbxReqLen; omega]
  rw [State.regWrite, if_neg (by omega), if_neg (by omega), if_pos lo, State.bar0Write, if_neg (by omega), if_neg sel, if_neg cmd,
    find_none_of_ne fun r hr => (bell r hr).1.1, find_none_of_ne fun r hr => (bell r hr).1.2, find_none_of_ne fun r hr => (bell r hr).2]

end Sys2Proof.Machine
end

section
/-! SUPPORT. The plain registers of the hub, the tiles and the root engines, and the accesses of O18 (R12, R76, R81, R288, R371). -/

namespace Sys2Proof.Machine

variable {s m u : State} {k : Nat} {v : Word}

/-! ### Where a register stands -/

theorem placeOf_control_range {t o : Nat} (h : placeOf k = .control t o) : 0x100000000 ≤ k ∧ k < 0x101000000 ∧ o = k % 0x10000 := by
  unfold placeOf at h
  split_ifs at h with _ range
  cases h
  exact ⟨range.1, range.2, rfl⟩

theorem placeOf_root_range {e o : Nat} (h : placeOf k = .root e o) : 0x200000000 ≤ k ∧ k < 0x204000000 ∧ o = k % 0x1000000 := by
  unfold placeOf at h
  split_ifs at h with _ _ range
  cases h
  exact ⟨range.1, range.2, rfl⟩

theorem placeOf_hub_range {o : Nat} (h : placeOf k = .hub o) : 0x300000000 ≤ k ∧ k < 0x310000000 ∧ o = k - 0x300000000 := by
  unfold placeOf at h
  split_ifs at h with _ _ _ range
  exact ⟨range.1, range.2, (Place.hub.inj h).symm⟩

/-! ### The blocks' plain registers -/

theorem torusWrite_plain (past : 8 ≤ (k - 0x300000000) / 0x1000) (ctl : k ≠ R.stileCtl) : s.torusWrite k v = s.plainWrite k v :=
  (if_neg (Nat.not_lt.mpr past)).trans (if_neg ctl)

theorem larkWrite_plain (own : ∀ x ∈ [R.larkCtl, R.larkGmCoord, R.larkSet, R.larkEpochPeriod, R.larkSyncInterval, R.larkHoldover, R.voidGrace], k ≠ x)
    (frames : 0x301002000 ≤ k → k < 0x301002200 → (k - 0x301002000) % 0x40 < 0x18)
    (swap : ∀ i, i < 8 → k ≠ R.resSwapFrame i) (snap : ∀ i, i < 8 → k ≠ R.snapTime i) : s.larkWrite k v = s.plainWrite k v := by
  simp only [List.forall_mem_cons] at own
  obtain ⟨ctl, gm, set, period, sync, hold, grace, -⟩ := own
  unfold State.larkWrite
  rw [if_neg ctl, if_neg gm, if_neg set, if_neg period, if_neg sync, if_neg hold, if_neg grace, find_none_of_ne swap, find_none_of_ne snap]
  by_cases range : 0x301002000 ≤ k ∧ k < 0x301002200
  · have low := frames range.1 range.2
    rw [if_pos range, if_neg (by omega), if_neg fun h => absurd h.1 (by omega)]
  · rw [if_neg range]

theorem powerWrite_plain (own : ∀ x ∈ [R.rstCtl, R.frstCtl, R.drainTimeout, R.pinCtl, R.throttleCtl], k ≠ x) :
    s.powerWrite k v = s.plainWrite k v := by
  simp only [List.forall_mem_cons] at own
  obtain ⟨rst, frst, drain, pin, throttle, -⟩ := own
  rw [State.powerWrite, if_neg rst, if_neg frst, if_neg drain, if_neg pin, if_neg throttle]

theorem logWrite_plain (own : ∀ x ∈ [R.logRaiseA, R.logRaiseB, R.fenceCtl], k ≠ x) : s.logWrite k v = s.plainWrite k v := by
  simp only [List.forall_mem_cons] at own
  obtain ⟨a, b, fence, -⟩ := own
  rw [State.logWrite, if_neg a, if_neg b, if_neg fence]

theorem fwWrite_plain (past : 6 ≤ (k - 0x305000000) / 0x100) (esc : k ≠ R.fwEscCtl) (con : k ≠ R.conCtl) : s.fwWrite k v = s.plainWrite k v :=
  (if_neg (Nat.not_lt.mpr past)).trans ((if_neg esc).trans (if_neg con))

theorem sweepWrite_plain (step : k % 0x1000 ≠ 0) (status : k % 0x1000 ≠ 0x18) (table : k % 0x1000 ≠ 0x40) : s.sweepWrite k v = s.plainWrite k v :=
  (if_neg step).trans ((if_neg table).trans (if_neg status))

theorem ctxWrite_plain (segs : 0x400 ≤ k % 0x10000) (hamper : k % 0x10000 < 0x800 ∨ 0x818 ≤ k % 0x10000) (cuts : k % 0x10000 ≠ 0x900)
    (queues : ¬ (0x940 ≤ k % 0x10000 ∧ k % 0x10000 < 0xB40 ∧ (k % 0x10000 - 0x940) % 0x20 = 0))
    (gens : ¬ (0xC00 ≤ k % 0x10000 ∧ k % 0x10000 < 0xC38)) : s.ctxWrite k v = s.plainWrite k v := by
  unfold State.ctxWrite
  dsimp only
  rw [if_neg (by omega), if_neg (by omega), if_neg (by omega), if_neg (by omega), if_neg cuts, if_neg queues,
    if_neg fun h => gens ⟨h.1, h.2.1⟩]

theorem thermosWrite_plain (own : ∀ i, i < 8 → k ≠ R.thermosCtl i) (stack : (k - 0x308000000) / 0x10000 < 8) :
    s.thermosWrite k v = s.plainWrite k v := if_neg (own _ stack)

/-- The controllers of eight stacks answer, and no other. -/
theorem stack_of_busReady {h : Nat} (place : placeOf k = .hub h) (block : h / 0x1000000 = 8) (ready : s.busReady k = true) :
    (k - 0x308000000) / 0x10000 < 8 := by
  obtain ⟨-, -, offset⟩ := placeOf_hub_range place
  simp only [State.busReady, place, block] at ready
  by_contra past
  have bits : s.fld F.unitReady.thermos < 2 ^ 8 := BitVec.isLt _
  have none : (s.fld F.unitReady.thermos).testBit (h % 0x1000000 / 0x10000) = false :=
    Nat.testBit_lt_two_pow (Nat.lt_of_lt_of_le bits (Nat.pow_le_pow_right (by decide) (by omega)))
  rw [none] at ready
  exact Bool.false_ne_true ready

theorem regWrite_plainHub {h : Nat} (place : placeOf k = .hub h) (plain : plainReg k = true) (ready : s.busReady k = true) :
    s.regWrite k v = s.plainWrite k v := by
  obtain ⟨lo, hi, offset⟩ := placeOf_hub_range place
  simp only [plainReg, place, Bool.and_eq_true, decide_eq_true_eq] at plain
  obtain ⟨-, own⟩ := plain
  rw [State.regWrite, if_neg (by omega), if_neg (by omega), if_neg (by omega), ← offset]
  generalize block : h / 0x1000000 = b at own ⊢
  split
  case h_1 =>
    simp only [Bool.and_eq_true, decide_eq_true_eq, bne_iff_ne] at own
    exact torusWrite_plain (by omega) own.2
  case h_2 =>
    simp only [Bool.and_eq_true, Bool.or_eq_true, decide_eq_true_eq, bne_iff_ne, List.all_eq_true, mem_upto] at own
    obtain ⟨⟨regs, frames⟩, tables⟩ := own
    exact larkWrite_plain regs (by omega) (fun i hi => (tables i hi).1) fun i hi => (tables i hi).2
  case h_3 =>
    simp only [bne_iff_ne, List.all_eq_true] at own
    exact powerWrite_plain own
  case h_4 =>
    simp only [bne_iff_ne, List.all_eq_true] at own
    exact logWrite_plain own
  case h_5 =>
    simp only [Bool.and_eq_true, decide_eq_true_eq, bne_iff_ne] at own
    exact fwWrite_plain (by omega) own.1.2 own.2
  case h_6 =>
    simp only [Bool.and_eq_true, bne_iff_ne] at own
    exact sweepWrite_plain (by omega) (by omega) (by omega)
  case h_7 =>
    simp only [Bool.and_eq_true, Bool.or_eq_true, Bool.not_eq_true', Bool.and_eq_false_iff, decide_eq_true_eq, decide_eq_false_iff_not,
      bne_iff_ne, beq_eq_false_iff_ne, ne_eq] at own
    exact ctxWrite_plain (by omega) (by omega) (by omega) (by omega) (by omega)
  case h_8 =>
    simp only [bne_iff_ne, List.all_eq_true, mem_upto] at own
    exact thermosWrite_plain own (stack_of_busReady place block ready)
  case h_9 => rfl

theorem regWrite_plainReg (plain : plainReg k = true) (ready : s.busReady k = true) : s.regWrite k v = s.plainWrite k v := by
  cases place : placeOf k with
  | control t o =>
    obtain ⟨lo, hi, rfl⟩ := placeOf_control_range place
    simp only [plainReg, place, Bool.and_eq_true, decide_eq_true_eq, Bool.not_eq_true'] at plain
    obtain ⟨-, past, counter⟩ := plain
    exact (if_pos ⟨lo, hi⟩).trans ((if_neg (Nat.not_lt.mpr past)).trans (if_neg (by simp [counter])))
  | root e o =>
    obtain ⟨lo, hi, rfl⟩ := placeOf_root_range place
    simp only [plainReg, place, Bool.and_eq_true, bne_iff_ne] at plain
    obtain ⟨-, ctl, size⟩ := plain
    exact (if_neg (by omega)).trans ((if_pos ⟨lo, hi⟩).trans ((if_neg ctl).trans (if_neg size)))
  | hub h =>
    exact regWrite_plainHub place plain ready
  | meadow t => simp [plainReg, place] at plain
  | thermos st i => simp [plainReg, place] at plain
  | nowhere => simp [plainReg, place] at plain

theorem plainReg_mailbox : ∀ i : Fin 2, plainReg (R.mbxCtl i) = false ∧ plainReg (R.mbxReqLen i) = false := by decide +kernel

theorem anyWrite_plainReg (plain : plainReg k = true) (ready : s.busReady k = true) : s.anyWrite k v = s.plainWrite k v := by
  rw [anyWrite_eq fun i hi => ⟨?ctl, ?len⟩, regWrite_plainReg plain ready]
  case ctl => rintro rfl; exact absurd plain (by simp [(plainReg_mailbox ⟨i, hi⟩).1])
  case len => rintro rfl; exact absurd plain (by simp [(plainReg_mailbox ⟨i, hi⟩).2])

theorem plainReg_low (plain : plainReg k = true) : k < 0x20000000000 := by
  simp only [plainReg, Bool.and_eq_true, decide_eq_true_eq] at plain
  exact plain.1.2

theorem plainBar0_range (plain : plainBar0 k = true) :
    (regSpecOf k).isSome = true ∧ 0x20000000000 ≤ k ∧ k < 0x20100000000 ∧ k ≠ R.hostReady := by
  simp only [plainBar0, Bool.and_eq_true, decide_eq_true_eq, bne_iff_ne] at plain
  obtain ⟨⟨⟨⟨⟨⟨lo, hi⟩, listed⟩, other⟩, -⟩, -⟩, -⟩ := plain
  exact ⟨listed, lo, hi, other⟩

/-! ### A write of a register, or of a table's word, by its address -/

theorem registerWrite_bar0 (listed : (regSpecOf k).isSome = true) (lo : 0x20000000000 ≤ k) (hi : k < 0x20100000000) (up : s.hostUp = true)
    (other : k ≠ R.hostReady) : execRegisterWrite k v s = .next (s.anyWrite k v) := by
  rw [execRegisterWrite, if_neg (by simp [Option.isNone_iff_eq_none, Option.isSome_iff_ne_none.mp listed]), if_neg (by rw [if_pos ⟨lo, hi⟩]; simp [up]), if_neg other]

theorem registerWrite_block (listed : (regSpecOf k).isSome = true) (low : k < 0x20000000000) (ready : s.busReady k = true) :
    execRegisterWrite k v s = .next (s.anyWrite k v) := by
  have other : k ≠ R.hostReady := by unfold R.hostReady; omega
  rw [execRegisterWrite, if_neg (by simp [Option.isNone_iff_eq_none, Option.isSome_iff_ne_none.mp listed]), if_neg (by rw [if_neg (by omega)]; simp [ready]), if_neg other]

theorem heal_only (s : State) (a n : Nat) : ∃ y, s.heal a n = { s with badWords := y } := by
  unfold State.heal
  split
  · exact ⟨s.badWords, rfl⟩
  · exact ⟨_, rfl⟩

/-- A word of a table that stands among the registers is stored whole. -/
theorem registerWrite_store (store : targetOf k = .store) (aligned : k % 8 = 0) (unlisted : (regSpecOf k).isSome = false)
    (ready : s.busReady k = true) (free : s.storeOpen k = true) : execRegisterWrite k v s =
      .next ((s.setBytes k (if inResTable k = true then resBytes (leBytes 8 v.toNat) else leBytes 8 v.toNat)).heal k 8) := by
  have table : isTableWord k = true := by simp [isTableWord, aligned, store]
  rw [execRegisterWrite, if_pos (by simpa using unlisted), if_pos table]
  simp only [State.wordWrite, ready, store, free, not_true, if_false, if_true, length_leBytes]

theorem store_word {bs : List Byte} (eight : bs.length = 8) (hu : u = (s.setBytes k bs).heal k 8) :
    u.bytes k 8 = bs ∧ BytesBut s u k 8 ∧ RegsBut s u [] := by
  obtain ⟨y, only⟩ := heal_only (s.setBytes k bs) k 8
  have mem : u.mem = (s.setBytes k bs).mem := by rw [hu, only]
  have byte (b : Nat) : u.byte b = (s.setBytes k bs).byte b := sameBytes_of_mem mem b
  have words : u.bytes k 8 = (s.setBytes k bs).bytes k bs.length := by rw [eight]; exact State.bytes_congr 8 _ _ k fun i _ => byte (k + i)
  have regs (j : Nat) : u.reg j = (s.setBytes k bs).reg j := by rw [hu, only]; rfl
  exact ⟨words.trans (State.bytes_setBytes bs s k), fun b hb => (byte b).trans (State.byte_setBytes_other bs b s k (by rwa [eight])),
    fun j _ => (regs j).trans (State.reg_setBytes s k bs j)⟩

/-- Settles O18: plain memory by what the bus does with a ready range, failures by the flags they set, registers by the block they stand in. -/
theorem physicalAccessesComplete : Obligations.PhysicalAccessesComplete := by
  unfold Obligations.PhysicalAccessesComplete
  refine ⟨?reads, ?down, ?writes, ?firmware, ?registers⟩
  case reads =>
    intro s off n up p
    refine ⟨⟨_, rfl, ?_⟩, fun range ready clean => ⟨_, rfl, ?_⟩⟩
    · rw [bar2Read_eq up]
      rcases s.localRead p n with ⟨_ | l, m⟩
      · obtain ⟨out, flag, aer, -⟩ := bar2ReadFails_spec m
        exact ⟨out, flag, aer⟩
      · rfl
    · rw [bar2Read_eq up, localRead_plain range ready clean]
      rfl
  case down =>
    intro s off n data down
    refine ⟨⟨_, rfl, ?_⟩, ⟨_, rfl, ?_⟩⟩
    · rw [bar2Read_down down]
      exact bar2ReadFails_spec s
    · rw [State.bar2Write, if_pos (by simp [down])]
      exact bar2WriteFails_spec s
  case writes =>
    intro s off data up p
    refine ⟨fun range out => ⟨_, rfl, ?_⟩, ⟨_, rfl, ?_⟩⟩
    · obtain ⟨m, row, moved⟩ := localWrite_plain range out
      rw [State.bar2Write, if_neg (by simp [up]), row]
      exact moved
    · rw [State.bar2Write, if_neg (by simp [up])]
      rcases s.localWrite p data with ⟨m, _ | _⟩
      · obtain ⟨flag, count, -⟩ := bar2WriteFails_spec m
        exact ⟨flag, count⟩
      · rfl
  case firmware =>
    intro s k a here turn
    refine ⟨fun kind => ⟨_, rfl, ?_⟩, fun kind => ⟨_, rfl, ?_⟩, fun kind range out => ?_⟩
    · rw [onArrived_eq here turn (by simp [kind]), State.firmwareAccess, if_pos kind]
      rcases (s.untaken k).localRead a.offset a.len with ⟨_ | l, m⟩ <;> rfl
    · rw [onArrived_eq here turn (by simp [kind]), State.firmwareAccess, if_neg (by simp [kind])]
      rcases (s.untaken k).localWrite a.offset a.data with ⟨m, _ | _⟩ <;> rfl
    · obtain ⟨m, row, moved⟩ := localWrite_plain (s := s.untaken k) ⟨range.ready, range.plain, range.free⟩ out
      refine ⟨_, rfl, m, moved, ?_⟩
      rw [onArrived_eq here turn (by simp [kind]), State.firmwareAccess, if_neg (by simp [kind]), row]
  case registers =>
    intro s k v
    refine ⟨fun store aligned unlisted ready free => ⟨_, registerWrite_store store aligned unlisted ready free, store_word ?_ rfl⟩,
      fun r plain spec up => ?_, fun r plain spec ready => ?_, fun low listed ready => ⟨_, registerWrite_block listed low ready, rfl⟩⟩
    · split <;> simp [resBytes]
    · obtain ⟨listed, lo, hi, other⟩ := plainBar0_range plain
      refine ⟨_, registerWrite_bar0 listed lo hi up other, ?_⟩
      rw [anyWrite_plainBar0 plain]
      exact plainWrite_spec spec
    · refine ⟨_, registerWrite_block (by simp [spec]) (plainReg_low plain) ready, ?_⟩
      rw [anyWrite_plainReg plain ready]
      exact plainWrite_spec spec

end Sys2Proof.Machine
end

section
/-! SUPPORT. What an access from another module moves at its target: stores, atomic adds, and the judgement of a late one (R39, R49, R69, R296). -/

namespace Sys2Proof.Machine

variable {s m u : State} {p q n j k : Nat} {l : List Byte} {a : Arrived}

/-! ### Readiness, granule by granule -/

theorem granule_sub_div (b c d : Nat) : (4096 * (b / 4096) - 4096 * c) / (4096 * d) = (b - 4096 * c) / (4096 * d) := by
  rw [← Nat.mul_sub, Nat.mul_div_mul_left _ _ (by decide), ← Nat.div_div_eq_div_mul, Nat.sub_mul_div]

/-- The unit that holds a byte holds the whole granule of 4 KiB it lies in. -/
theorem placeReady_granule (s : State) (b : Nat) : s.placeReady (placeOf (4096 * (b / 4096))) = s.placeReady (placeOf b) := by
  have meadow : 4096 * (b / 4096) < 0x80000000 ↔ b < 0x80000000 := by omega
  have control : 0x0100000000 ≤ 4096 * (b / 4096) ∧ 4096 * (b / 4096) < 0x0101000000 ↔ 0x0100000000 ≤ b ∧ b < 0x0101000000 := by omega
  have root : 0x0200000000 ≤ 4096 * (b / 4096) ∧ 4096 * (b / 4096) < 0x0204000000 ↔ 0x0200000000 ≤ b ∧ b < 0x0204000000 := by omega
  have hub : 0x0300000000 ≤ 4096 * (b / 4096) ∧ 4096 * (b / 4096) < 0x0310000000 ↔ 0x0300000000 ≤ b ∧ b < 0x0310000000 := by omega
  have rotated : 0x4000000000 ≤ 4096 * (b / 4096) ∧ 4096 * (b / 4096) < 0xC000000000 ↔ 0x4000000000 ≤ b ∧ b < 0xC000000000 := by omega
  have linear : 0x10000000000 ≤ 4096 * (b / 4096) ∧ 4096 * (b / 4096) < 0x18000000000 ↔ 0x10000000000 ≤ b ∧ b < 0x18000000000 := by omega
  have tile : (4096 * (b / 4096) - 0x0100000000) / 0x10000 = (b - 0x0100000000) / 0x10000 := granule_sub_div b 0x100000 0x10
  have engine : (4096 * (b / 4096) - 0x0200000000) / 0x1000000 = (b - 0x0200000000) / 0x1000000 := granule_sub_div b 0x200000 0x1000
  have granule : (4096 * (b / 4096) - 0x4000000000) / 2 ^ 12 = (b - 0x4000000000) / 2 ^ 12 := granule_sub_div b 0x4000000 1
  have stack : (4096 * (b / 4096) - 0x10000000000) / 2 ^ 36 = (b - 0x10000000000) / 2 ^ 36 := granule_sub_div b 0x10000000 (2 ^ 24)
  have bank : 4096 * (b / 4096) / 2 ^ 23 = b / 2 ^ 23 := by omega
  simp only [placeOf, meadow, control, root, hub, rotated, linear]
  split_ifs <;> simp only [State.placeReady, thermosRoute, tile, engine, granule, stack, bank]

/-- A range is ready when the unit of each of its bytes is. -/
theorem ready_of_bytes (hn : 0 < n) (h : ∀ b, p ≤ b → b < p + n → s.placeReady (placeOf b) = true) : s.rangeReady p n = true := by
  unfold State.rangeReady
  rw [List.all_eq_true]
  intro i hi
  have := mem_upto.mp hi
  split
  · exact h p (by omega) (by omega)
  · exact h _ (by omega) (by omega)

/-- In a ready range the unit of each byte is ready. -/
theorem bytes_of_ready (h : s.rangeReady p n = true) {b : Nat} (lo : p ≤ b) (hi : b < p + n) : s.placeReady (placeOf b) = true := by
  unfold State.rangeReady at h
  rw [List.all_eq_true] at h
  have granule := h (b / 4096 - p / 4096) (mem_upto.mpr (by omega))
  rw [← placeReady_granule]
  split at granule
  · rwa [← placeReady_granule, show p / 4096 = b / 4096 by omega] at granule
  · rwa [show 4096 * (p / 4096) + 4096 * (b / 4096 - p / 4096) = 4096 * (b / 4096) by omega] at granule

/-! ### Adding FP32 elements -/

/-- `n` bytes from `p` can be read and written as plain memory: `PlainRange` byte by byte, and no uncorrectable word among them. -/
structure Addable (s : State) (p n : Nat) : Prop where
  ready : ∀ b, p ≤ b → b < p + n → s.placeReady (placeOf b) = true
  plain : p + n ≤ 0x80000000 ∨ (0x4000000000 ≤ p ∧ p + n ≤ 2 ^ 40)
  free : s.tablesHeld = []
  good : ∀ b, p ≤ b → b < p + n → s.badIn b 1 = none

theorem memKey_low (h : p < 2 ^ 40) : memKey p = p := if_neg (by omega)

theorem State.bytes_eq_map (s : State) (n : Nat) : ∀ a, s.bytes a n = (upto n).map fun i => s.byte (a + i) := by
  induction n with
  | zero => exact fun _ => rfl
  | succ n ih =>
    intro a
    simp only [State.bytes, ih, upto, List.range_succ_eq_map, List.map_cons, List.map_map]
    exact congrArg (s.byte a :: ·) (List.map_congr_left fun i _ => congrArg s.byte ((Nat.add_assoc a 1 i).trans (congrArg (a + ·) (Nat.add_comm 1 i))))

theorem Addable.part (h : Addable s p n) (lo : p ≤ q) (hi : q + j ≤ p + n) : Addable s q j :=
  ⟨fun b hb hb' => h.ready b (by omega) (by omega), by have := h.plain; omega, h.free, fun b hb hb' => h.good b (by omega) (by omega)⟩

theorem Addable.range (h : Addable s p n) (hn : 0 < n) : PlainRange s p n := ⟨ready_of_bytes hn h.ready, h.plain, h.free⟩

theorem addable (range : PlainRange s p n) (read : (s.readData p n).isSome = true) : Addable s p n := by
  refine ⟨fun b lo hi => bytes_of_ready range.ready lo hi, range.plain, range.free, fun b lo hi => ?_⟩
  have fits := range.plain
  unfold State.readData at read
  split at read
  · next h =>
    rcases h.2 with clean | good
    · simp [State.badIn, clean]
    · rw [List.all_eq_true] at good
      have one := good (b - p) (mem_upto.mpr (by omega))
      rw [show p + (b - p) = b by omega, memKey_low (by omega)] at one
      simpa using one
  · cases read

/-- The bytes of an addable range read as they stand in memory. -/
theorem Addable.read (h : Addable s p n) (hn : 0 < n) : s.readData p n = some (s.bytes p n) := by
  have range := h.range hn
  have fits := range.plain
  have good : (upto n).all (fun i => (s.badIn (memKey (p + i)) 1).isNone) = true := by
    rw [List.all_eq_true]
    intro i hi
    have := mem_upto.mp hi
    rw [memKey_low (by omega), h.good _ (by omega) (by omega)]
    rfl
  refine (if_pos ⟨range.ready, .inr good⟩).trans (congrArg some ?_)
  rw [State.bytes_eq_map]
  refine List.map_congr_left fun i hi => ?_
  have := mem_upto.mp hi
  rw [State.dataByte_plain (by unfold outsideControl; omega), memKey_low (by omega)]

/-- A write of plain memory leaves no word uncorrectable that was not so before (R430). -/
theorem PlainRange.badWords (h : PlainRange s p l.length) : ∀ b ∈ (s.writeData p l).1.badWords, b ∈ s.badWords := by
  have below : p + l.length ≤ 2 ^ 40 := by
    have := h.plain
    omega
  obtain ⟨x, mem⟩ := State.setBytes_only l s p
  intro b hb
  unfold State.writeData at hb
  rw [if_neg (not_not.mpr h.ready)] at hb
  split at hb
  · next c => exact absurd c h.not_control
  · rw [State.storeData, if_pos h.free, State.storeMem_eq_setBytes l s p below, mem] at hb
    unfold State.healBytes at hb
    dsimp only at hb
    split at hb
    · exact hb
    · exact List.mem_of_mem_filter hb

theorem PlainRange.badWords_physWrite (h : PlainRange s p l.length) (written : s.physWrite p l = .ok m) : ∀ b ∈ m.badWords, b ∈ s.badWords := by
  obtain ⟨ok, -⟩ := h.writeData
  have eq : s.physWrite p l = .ok (s.writeData p l).1 := if_pos ok
  cases eq.symm.trans written
  exact h.badWords

theorem Addable.stored (h : Addable s p n) (stored : Stored s m q l) (bad : ∀ b ∈ m.badWords, b ∈ s.badWords) : Addable m p n := by
  obtain ⟨x, y, rfl⟩ := stored.only
  refine ⟨h.ready, h.plain, h.free, fun b lo hi => ?_⟩
  have clean := h.good b lo hi
  unfold State.badIn at clean ⊢
  rw [List.find?_eq_none] at clean ⊢
  exact fun w hw => clean w (bad w hw)

/-- Adding one FP32 element. -/
theorem Addable.add (h : Addable s p 4) (v : List Byte) : ∃ m, s.addF32At p v = .ok m
    ∧ Stored s m p (leBytes 4 (f32Add (BitVec.ofNat 32 (s.memNat p 4)) (BitVec.ofNat 32 (leNat v))).toNat) ∧ ∀ b ∈ m.badWords, b ∈ s.badWords := by
  generalize hl : leBytes 4 (f32Add (BitVec.ofNat 32 (s.memNat p 4)) (BitVec.ofNat 32 (leNat v))).toNat = l
  have range : PlainRange s p l.length := by
    rw [← hl, length_leBytes]
    exact h.range (by decide)
  have row : s.addF32At p v = s.physWrite p l := by
    rw [State.addF32At, h.read (by decide)]
    exact congrArg (s.physWrite p) hl
  obtain ⟨m, written, stored⟩ := range.physWrite
  exact ⟨m, row.trans written, stored, range.badWords_physWrite written⟩

/-- Element `i` of an addition in place: what stood there, and what arrived. -/
def f32Sum (s : State) (p : Nat) (l : List Byte) (i : Nat) : Nat :=
  (f32Add (BitVec.ofNat 32 (s.memNat (p + 4 * i) 4)) (BitVec.ofNat 32 (natAt l (4 * i) 4))).toNat

theorem Stored.memNat {x : Nat} (h : Stored s m p (leBytes 4 x)) : m.memNat p 4 = x % 2 ^ 32 := by
  have bytes := h.bytes
  rw [length_leBytes] at bytes
  rw [State.memNat, bytes, leNat_leBytes]

theorem addF32s_spec (n : Nat) : ∀ (s : State) (p : Nat) (l : List Byte), Addable s p (4 * n) → ∃ m, s.addF32s n p l = (m, true)
    ∧ (∃ x y, m = { s with mem := x, badWords := y }) ∧ (∀ i, i < n → m.memNat (p + 4 * i) 4 = f32Sum s p l i) ∧ BytesBut s m p (4 * n) := by
  induction n with
  | zero => exact fun s p l _ => ⟨s, rfl, ⟨s.mem, s.badWords, rfl⟩, fun i hi => absurd hi (Nat.not_lt_zero i), fun _ _ => rfl⟩
  | succ n ih =>
    intro s p l h
    obtain ⟨m, row, stored, bad⟩ := (h.part (q := p) (j := 4) le_rfl (by omega)).add (l.take 4)
    obtain ⟨u, rest, ⟨x, y, only⟩, sums, others⟩ := ih m (p + 4) (l.drop 4) ((h.stored stored bad).part (by omega) (by omega))
    obtain ⟨x', y', first⟩ := stored.only
    have apart {b : Nat} (hb : b < p ∨ p + 4 ≤ b) : m.byte b = s.byte b := stored.others b (by rwa [length_leBytes])
    refine ⟨u, by rw [State.addF32s, row]; exact rest, ⟨x, y, by rw [only, first]⟩, fun i hi => ?_, fun b hb => ?_⟩
    · cases i with
      | zero =>
        rw [Nat.mul_zero, Nat.add_zero, State.memNat_congr fun b hb => others _ (.inl (by omega)), stored.memNat]
        exact Nat.mod_eq_of_lt (BitVec.isLt _)
      | succ i =>
        have sum := sums i (by omega)
        rw [f32Sum, State.memNat_congr (s := s) fun b hb => apart (.inr (by omega)), show p + 4 + 4 * i = p + 4 * (i + 1) by omega] at sum
        rw [sum, f32Sum]
        simp only [natAt, List.drop_drop, show 4 + 4 * i = 4 * (i + 1) by omega]
    · rw [others b (by omega), apart (by omega)]

/-! ### A store to a counter -/

theorem testBit_leNat_cons (b : Byte) (l : List Byte) (i : Nat) :
    (leNat (b :: l)).testBit i = if i < 8 then b.getLsbD i else (leNat l).testBit (i - 8) := by
  have := Nat.testBit_two_pow_mul_add (leNat l) b.isLt i
  rw [leNat, Nat.add_comm, show 256 = 2 ^ 8 from rfl, this]
  rfl

/-- The bits of a word some of whose bytes were replaced. -/
theorem getLsbD_mergeWord (l : List Byte) : ∀ (w : Word) (i j : Nat), i + l.length ≤ 8 → j < 64 →
    (mergeWord w i l).getLsbD j = if 8 * i ≤ j ∧ j < 8 * (i + l.length) then (leNat l).testBit (j - 8 * i) else w.getLsbD j := by
  induction l with
  | nil => exact fun w i j _ _ => (if_neg (by simp only [List.length_nil]; omega)).symm
  | cons b l ih =>
    intro w i j fits hj
    rw [List.length_cons] at fits
    rw [mergeWord, if_pos (by omega), ih _ _ _ (by omega) hj, setByteOf, getLsbD_withBits _ _ _ _ _ hj, testBit_leNat_cons, List.length_cons]
    by_cases before : j < 8 * i
    · rw [if_neg (by omega), if_neg (by omega), if_neg (by omega)]
    · by_cases here : j < 8 * i + 8
      · rw [if_neg (by omega), if_pos (by omega), if_pos (by omega), if_pos (by omega)]
        rfl
      · by_cases behind : j < 8 * (i + 1 + l.length)
        · rw [if_pos (by omega), if_pos (by omega), if_neg (by omega), show j - 8 * (i + 1) = j - 8 * i - 8 by omega]
        · rw [if_neg (by omega), if_neg (by omega), if_neg (by omega)]

/-- Eight bytes replace a word. -/
theorem mergeWord_whole {w : Word} (h : l.length = 8) : mergeWord w 0 l = BitVec.ofNat 64 (leNat l) := by
  apply BitVec.eq_of_getLsbD_eq
  intro j hj
  rw [getLsbD_mergeWord l w 0 j (by omega) hj, if_pos (by omega), BitVec.getLsbD_ofNat]
  simp [hj]

/-- A store of eight bytes to a counter is a `SET` (R49). -/
theorem writeData_counter {t o : Nat} (place : placeOf p = .control t o) (counter : isCounterOff o = true) (aligned : o % 8 = 0) (eight : l.length = 8)
    (ready : s.tileReady t = true) : s.writeData p l = (s.syncSet p (BitVec.ofNat 64 (leNat l)), true) := by
  obtain ⟨-, -, rfl⟩ := placeOf_control_range place
  have whole : 8 * (p / 8) = p := by omega
  have range : s.rangeReady p l.length = true := ready_of_bytes (by omega) fun b lo hi => by
    rw [← placeReady_granule, show b / 4096 = p / 4096 by omega, placeReady_granule, place]
    exact ready
  have one : s.storeCounters (l.length + 1) p l = s.syncSet p (BitVec.ofNat 64 (leNat l)) := by
    obtain ⟨b, l', rfl⟩ := List.exists_cons_of_length_pos (l := l) (by omega)
    have none : ((b :: l').drop 8) = [] := List.drop_eq_nil_of_le (by omega)
    simp only [State.storeCounters, whole, show p % 8 = 0 by omega, Nat.sub_zero, none]
    rw [List.take_of_length_le (by omega), mergeWord_whole eight, eight]
    rfl
  unfold State.writeData
  rw [if_neg (not_not.mpr range), place]
  simp only [counter, if_true, one]

/-! ### The judgement of a late arrival -/

theorem judgeArrival_inTime (h : m.now ≤ a.deadline) : m.judgeArrival a = m := if_neg (Nat.not_lt.mpr h)

/-- Queueing a notification leaves the log and the registers. -/
theorem notify_log (m : State) (e : LogSlot) : (∀ j, (m.notify e).logSlot j = m.logSlot j) ∧ ∀ j, (m.notify e).reg j = m.reg j := by
  obtain ⟨o, l, only⟩ := State.notify_only m e
  rw [only]
  exact ⟨fun _ => rfl, fun _ => rfl⟩

/-- An event of severity 2 that takes a slot of its own stands there; of the registers only `LOG_NEXT_SEQ` moves. -/
theorem raise_opens {code func unit data flags : Nat} (room : LogRoom m code 2 func unit k) :
    (m.raise code 2 func unit data [] flags).logSlot k = m.entryNow code 2 func unit data flags
    ∧ ∀ j, j ≠ R.logNextSeq → (m.raise code 2 func unit data [] flags).reg j = m.reg j := by
  generalize he : m.entryNow code 2 func unit data flags = e
  have placed : m.raise code 2 func unit data [] flags = ((m.setLogSlot k e).bumpReg R.logNextSeq).notify e := by
    simp [← he, State.raise, State.logPlace, room.apart, room.room, State.outcome, State.openSlot, State.entryNow]
  obtain ⟨slots, regs⟩ := notify_log ((m.setLogSlot k e).bumpReg R.logNextSeq) e
  rw [placed]
  exact ⟨(slots k).trans (State.logSlot_setLogSlot_same m k e), fun j hj => (regs j).trans (State.reg_setReg_other _ _ (Ne.symm hj))⟩

/-- A transfer written behind its deadline is a void promise (R296). -/
theorem judgeArrival_late (late : a.deadline < m.now) (room : LogRoom m 0x2004 2 0x04 a.port k) : VoidedAt m (m.judgeArrival a) k a.port a.src := by
  rw [State.judgeArrival, if_pos late, State.promiseVoid]
  generalize hd : a.src % 2 ^ 17 + 2 ^ 17 * (a.stream % 16) + 2 ^ 21 * (a.ctx % 8) + 2 ^ 24 * 0 + 2 ^ 26 * (m.condFlags a.seen % 32)
    + 2 ^ 32 * min ((m.now - a.deadline) / 1000000) 65535 = data
  obtain ⟨slot, regs⟩ := raise_opens (m := m.bumpReg R.promiseVoids) (data := data) (flags := 0) ⟨room.apart, room.room⟩
  refine ⟨?_, (congrArg BitVec.toNat (regs _ (by decide))).trans (toNat_bumpReg _ _)⟩
  rw [slot]
  refine ⟨rfl, rfl, rfl, ?_⟩
  show data % 2 ^ 48 % 2 ^ 17 = _
  omega

end Sys2Proof.Machine
end

section
/-! SUPPORT. Accesses and synchronisation operations from another module (R44, R47, R48, R49, R75, R282, R296). -/

namespace Sys2Proof.Machine

variable {s m u : State} {p k : Nat} {a : Arrived} {x : Accepted} {post : State → Prop}

/-! ### Accesses that arrive -/

theorem refuseRemote_spec (s : State) (a : Arrived) : Refused s (s.refuseRemote a) a :=
  ⟨s.bumpReg (R.remoteRejects a.ctx), rfl, ⟨fun _ hk => State.reg_setReg_other _ _ (Ne.symm (by simpa using hk)), rfl⟩, toNat_bumpReg _ _⟩

/-- A context access in its turn is looked at (R75). -/
theorem does_access (here : s.arrived[k]? = some a) (turn : s.inTurn k a = true) (kind : a.kind = 1 ∨ a.kind = 3 ∨ a.kind = 4 ∨ a.kind = 8)
    (h : post ((s.untaken k).remoteAccess a)) : Does (.remoteAccessArrival k) s post :=
  ⟨_, rfl, by rwa [onArrived_eq here turn (by simpa using kind)]⟩

theorem remoteAccess_poisoned (h : a.poison = true) : s.remoteAccess a = s := if_pos h

theorem remoteAccess_barred (clean : a.poison = false) (barred : s.remoteAllowed a = false) : s.remoteAccess a = s.refuseRemote a :=
  (if_neg (by simp [clean])).trans (if_pos (by simp [barred]))

theorem remoteAccess_allowed (clean : a.poison = false) (allowed : s.remoteAllowed a = true) :
    (∀ p, s.translate a.ctx a.offset (max 1 a.len) (kindRight a.kind) true = .inr p →
      s.remoteAccess a = { s with accepted := s.accepted ++ [{ arrived := a, phys := p }] })
    ∧ ∀ f, s.translate a.ctx a.offset (max 1 a.len) (kindRight a.kind) true = .inl f → s.remoteAccess a = s.refuseRemote a := by
  refine ⟨fun p h => ?_, fun f h => ?_⟩
  · rw [State.remoteAccess, if_neg (by simp [clean]), if_neg (by simp [allowed]), h]
  · rw [State.remoteAccess, if_neg (by simp [clean]), if_neg (by simp [allowed]), h]

/-! ### Accesses that were accepted -/

/-- The state once the accepted access at place `k` is taken off its list. -/
def State.unaccepted (s : State) (k : Nat) : State := { s with accepted := s.accepted.eraseIdx k }

/-- An accepted access that nothing holds back and none of its stream precedes is served (R282). -/
theorem does_served (here : s.accepted[k]? = some x) (free : s.serveHeld x = false)
    (first : ((s.accepted.take k).any fun y => x.arrived.sameStream y.arrived) = false) (h : post ((s.unaccepted k).serve x)) :
    Does (.transferArrival k) s post := by
  refine ⟨_, rfl, ?_⟩
  simp only [State.transferArrival, here, free, first, Bool.false_eq_true, or_self, if_false]
  exact h

theorem transferArrival_held (here : s.accepted[k]? = some x) (held : s.serveHeld x = true) : s.transferArrival k = s := by
  simp only [State.transferArrival, here, held, true_or, if_true]

theorem serve_read (kind : x.arrived.kind = 1) :
    (∀ b, s.readData x.phys x.arrived.len = some b → s.serve x = s.answerTo x.arrived 0x02 0 b)
    ∧ (s.readData x.phys x.arrived.len = none → s.serve x = (s.noteBadRead x.phys x.arrived.len).answerTo x.arrived 0x0C 0 []) := by
  refine ⟨fun b h => ?_, fun h => ?_⟩
  · rw [State.serve, if_pos kind, h]
  · rw [State.serve, if_pos kind, h]

/-- A write that is carried out is judged and answered (R282, R296). -/
theorem serve_write (kind : x.arrived.kind = 3 ∨ x.arrived.kind = 8) (written : s.writeData x.phys x.arrived.data = (m, true)) :
    s.serve x = (m.judgeArrival x.arrived).answerTo x.arrived 0x0B 0 [] := by
  rw [State.serve, if_neg (by omega), if_neg (by omega), written]

theorem serve_add (kind : x.arrived.kind = 4) (added : s.addF32s (x.arrived.len / 4) x.phys x.arrived.data = (m, true)) :
    s.serve x = (m.judgeArrival x.arrived).answerTo x.arrived 0x0B 0 [] := by
  rw [State.serve, if_neg (by omega), if_pos kind, added]

theorem now_congr (h : m.reg R.larkTime = s.reg R.larkTime) : m.now = s.now := congrArg BitVec.toNat h

/-- The judgement behind a change of memory alone is that of the state before. -/
theorem judged_stored {l : List Byte} (h : Stored s m p l) : (s.now ≤ a.deadline → m.judgeArrival a = m)
    ∧ ∀ j, a.deadline < s.now → LogRoom s 0x2004 2 0x04 a.port j → VoidedAt s (m.judgeArrival a) j a.port a.src := by
  have now : m.now = s.now := now_congr (h.reg _)
  refine ⟨fun inTime => judgeArrival_inTime (now ▸ inTime), fun j late room => ?_⟩
  obtain ⟨y, z, only⟩ := h.only
  obtain ⟨slot, count⟩ := judgeArrival_late (now.symm ▸ late) (m := m) (k := j) ⟨only ▸ room.apart, only ▸ room.room⟩
  exact ⟨slot, by rw [count, h.reg]⟩

theorem QuietCounter.unaccepted (h : QuietCounter s p) : QuietCounter (s.unaccepted k) p := ⟨h.waits, h.watches, h.slots⟩
theorem QuietCounter.untaken (h : QuietCounter s p) : QuietCounter (s.untaken k) p := ⟨h.waits, h.watches, h.slots⟩

/-- A counter of which nothing is to be told, set: it alone of the registers changes, and no byte. -/
theorem syncSet_spec (quiet : QuietCounter s p) (low : p < 0x200000000) (v : Word) :
    (s.syncSet p v).reg p = v ∧ RegsBut s (s.syncSet p v) [p] ∧ (s.syncSet p v).mem = s.mem := by
  have adds := Adds.syncSet quiet low v
  refine ⟨?_, fun j hj => ?_, adds.mem⟩
  · rw [adds.reg, if_pos rfl, add_comm, sub_add_cancel]
  · rw [adds.reg, if_neg (by simpa using hj), add_zero]

/-! ### Synchronisation operations -/

/-- The value a synchronisation operation brings. -/
def Arrived.value (a : Arrived) : Word := BitVec.ofNat 64 (natAt a.data 0 8)

/-- An exported counter is one for the module's own accesses as well. -/
theorem translateObj_of_exported {c o : Nat} (h : s.translateObj c o true = .inr p) : s.translateObj c o = .inr p := by
  unfold State.translateObj at h ⊢
  split at h
  · cases h
  · dsimp only at h ⊢
    split_ifs at h with far barred
    rw [if_neg (not_not.mpr far), if_neg fun b => barred (b.imp_right fun e => absurd e.1 Bool.false_ne_true)]
    exact h

/-- A synchronisation operation that its segments allow, at a counter whose tile is ready, is applied (R75, R282). -/
theorem does_sync (comes : Comes s k a) (kind : a.kind = 5) (found : s.translateObj a.ctx a.offset true = .inr p)
    (ready : s.tileReady (objTile p) = true) (op : (s.untaken k).syncOperation a p = some u) (h : post u) : Does (.remoteSyncOperation k) s post := by
  refine ⟨_, rfl, ?_⟩
  have clean : ¬ a.poison = true := by simp [comes.clean]
  have allowed : ¬ ¬ (s.untaken k).remoteAllowed a = true := not_not.mpr comes.allowed
  have ready : ¬ ¬ (s.untaken k).tileReady (objTile p) = true := not_not.mpr ready
  rw [onArrived_eq comes.here comes.turn (by simp [kind]), State.remoteSync, if_neg clean, if_neg allowed, (sameView_untaken s k).translateObj, found]
  simp only [if_neg ready, op]
  exact h

/-- On a die held in reset the operation is answered with an error (R411). -/
theorem does_sync_unready (comes : Comes s k a) (kind : a.kind = 5) (found : s.translateObj a.ctx a.offset true = .inr p)
    (unready : s.tileReady (objTile p) = false) (h : post ((s.untaken k).answerTo a 0x0C 0 [])) : Does (.remoteSyncOperation k) s post := by
  refine ⟨_, rfl, ?_⟩
  have clean : ¬ a.poison = true := by simp [comes.clean]
  have allowed : ¬ ¬ (s.untaken k).remoteAllowed a = true := not_not.mpr comes.allowed
  have unready : ¬ (s.untaken k).tileReady (objTile p) = true := Bool.eq_false_iff.mp unready
  rw [onArrived_eq comes.here comes.turn (by simp [kind]), State.remoteSync, if_neg clean, if_neg allowed, (sameView_untaken s k).translateObj, found]
  simp only [if_pos unready]
  exact h

theorem syncOperation_signal (kind : a.aux / 16 % 16 = 0) (code : a.aux % 16 < 6 ∨ (a.aux % 16 = 6 ∧ a.value.toNat % 16 < 0xA)) :
    s.syncOperation a p = some (((s.signalObj p (a.aux % 16) a.value).judgeArrival a).answerTo a 0x0B 0 []) := by
  simp only [State.syncOperation, kind]
  refine if_neg ?_
  rintro (high | ⟨arm, high⟩)
  · omega
  · exact Nat.not_le.mpr (code.elim (fun low => absurd arm (by omega)) (·.2)) high

theorem syncOperation_arrive (kind : a.aux / 16 % 16 = 2) (code : a.aux % 16 < 0xA) (few : a.aux / 256 % 256 ≤ 32) : s.syncOperation a p
    = some (((s.arrive p (a.aux % 16) (wordsOf (a.aux / 256 % 256) a.data)).judgeArrival a).answerTo a 0x0B 0 []) := by
  simp only [State.syncOperation, kind]
  exact if_neg (by omega)

theorem syncOperation_read (kind : a.aux / 16 % 16 = 3) :
    s.syncOperation a p = some ((s.judgeArrival a).answerTo a 0x0B 0 (leBytes 8 (s.reg p).toNat)) := by
  simp only [State.syncOperation, kind]

theorem reg_forgetRetried (s : State) (a : Arrived) (p j : Nat) : (s.forgetRetried a p).reg j = s.reg j := by
  unfold State.forgetRetried
  dsimp only
  split <;> rfl

/-- The state a watch finds: its earlier request is forgotten, and it has been judged. -/
def State.watched (s : State) (a : Arrived) (p : Nat) : State := (s.forgetRetried a p).judgeArrival a

/-- The watch that is asked for. -/
def Arrived.asks (a : Arrived) (p : Nat) : WatchEntry := { obj := p, cond := a.aux % 16, comparand := a.value, waiter := .inr a }

theorem syncOperation_watch_holds (kind : a.aux / 16 % 16 = 1) (code : a.aux % 16 < 6)
    (holds : waitHolds (a.aux % 16) (s.reg p) a.value = true ∨ s.wasHit a p = true) :
    s.syncOperation a p = some ((s.watched a p).answerTo a 0x0B 0 []) := by
  have satisfied : (s.wasHit a p || waitHolds (a.aux % 16) ((s.forgetRetried a p).reg p) a.value) = true := by
    rw [reg_forgetRetried, Bool.or_eq_true]
    exact holds.symm
  simp only [State.syncOperation, kind]
  exact (if_neg (Nat.not_le.mpr code)).trans (if_pos satisfied)

/-- A watch that must wait is kept while the table has room, and refused when it is full. -/
theorem syncOperation_watch_waits (kind : a.aux / 16 % 16 = 1) (code : a.aux % 16 < 6)
    (fails : waitHolds (a.aux % 16) (s.reg p) a.value = false) (missed : s.wasHit a p = false) :
    (((s.watched a p).tile (objTile p)).watches.length < 32 → s.syncOperation a p = some (((s.watched a p).setTile (objTile p)
      { (s.watched a p).tile (objTile p) with watches := ((s.watched a p).tile (objTile p)).watches ++ [a.asks p] }).answerTo a 0x0B (2 ^ 30) []))
    ∧ (32 ≤ ((s.watched a p).tile (objTile p)).watches.length → s.syncOperation a p = some (((s.watched a p).setTile (objTile p)
      { (s.watched a p).tile (objTile p) with retried := ((s.watched a p).tile (objTile p)).retried ++ [a.asks p] }).answerTo a 0x0B (2 ^ 31) [])) := by
  have waits : ¬ (s.wasHit a p || waitHolds (a.aux % 16) ((s.forgetRetried a p).reg p) a.value) = true := by
    simp [reg_forgetRetried, fails, missed]
  refine ⟨fun room => ?_, fun full => ?_⟩
  · simp only [State.syncOperation, kind]
    exact (if_neg (Nat.not_le.mpr code)).trans ((if_neg waits).trans (if_pos room))
  · simp only [State.syncOperation, kind]
    exact (if_neg (Nat.not_le.mpr code)).trans ((if_neg waits).trans (if_neg (Nat.not_lt.mpr full)))

/-- An arrival that combines no words leaves the payload. -/
theorem combinePayload_none (l : List Word) : ∀ (s : State) (j : Nat), s.combinePayload p 0 j l = s := by
  induction l with
  | nil => exact fun _ _ => rfl
  | cons v l ih => exact fun s j => ih s (j + 1)

/-- The count of an arrival, behind what it combines (R47). -/
theorem arrives_spec {b n : Nat} (pours : Pours s m b n) (quiet : QuietCounter s p) (low : p < 0x200000000) :
    (m.syncAdd p 1).reg p = s.reg p + 1 ∧ RegsBut s (m.syncAdd p 1) [p] ∧ (m.syncAdd p 1).mem = m.mem := by
  obtain ⟨l, rfl⟩ := pours.only
  exact syncSet_spec (s := { s with mem := l }) ⟨quiet.waits, quiet.watches, quiet.slots⟩ low _

end Sys2Proof.Machine
end

section
/-! SUPPORT. Accesses and synchronisation operations from another module, settled. -/

namespace Sys2Proof.Machine

variable {s : State} {k : Nat} {a : Arrived} {x : Accepted}

/-- A plain write from another module is moved, judged and answered. -/
theorem serve_plain (kind : x.arrived.kind = 3 ∨ x.arrived.kind = 8) (range : PlainRange s x.phys x.arrived.data.length) :
    ∃ m, (s.unaccepted k).serve x = (m.judgeArrival x.arrived).answerTo x.arrived 0x0B 0 [] ∧ Stored (s.unaccepted k) m x.phys x.arrived.data := by
  have range : PlainRange (s.unaccepted k) x.phys x.arrived.data.length := ⟨range.ready, range.plain, range.free⟩
  obtain ⟨ok, stored⟩ := range.writeData
  exact ⟨_, serve_write kind (Prod.ext rfl ok), stored⟩

/-- Settles O13: an access is looked at when it arrives and served when it is accepted; an operation is applied at a quiet counter, to the words of
its payload, or to its tile's watches. -/
theorem remoteRequestsComplete : Obligations.RemoteRequestsComplete := by
  unfold Obligations.RemoteRequestsComplete
  refine ⟨⟨?arrival, ?turnedAway, ?served⟩, ?operation⟩
  case arrival =>
    intro s k a comes kind
    obtain ⟨taken, refused⟩ := remoteAccess_allowed (s := s.untaken k) comes.clean comes.allowed
    refine ⟨fun p found => does_access comes.here comes.turn kind (taken p found), fun f missed => does_access comes.here comes.turn kind ?_⟩
    rw [refused f missed]
    exact refuseRemote_spec _ _
  case turnedAway =>
    intro s k a here turn kind
    refine ⟨fun poison => does_access here turn kind (remoteAccess_poisoned poison), fun clean barred => does_access here turn kind ?_⟩
    rw [remoteAccess_barred (s := s.untaken k) clean barred]
    exact refuseRemote_spec _ _
  case served =>
    intro s k x here
    refine ⟨fun held => ⟨_, rfl, transferArrival_held here held⟩, fun free first => ⟨?read, ?unreadable, ?write, ?store, ?add⟩⟩
    case read => exact fun b kind read => does_served here free first ((serve_read kind).1 b read)
    case unreadable => exact fun kind fails => does_served here free first ((serve_read kind).2 fails)
    case write =>
      intro kind range
      obtain ⟨m, row, stored⟩ := serve_plain (k := k) kind range
      obtain ⟨inTime, late⟩ := judged_stored stored (a := x.arrived)
      refine does_served here free first ⟨m, row, stored.moved, inTime, fun j behind room => ?_⟩
      obtain ⟨slot, count⟩ := late j behind ⟨room.apart, room.room⟩
      exact ⟨slot, count⟩
    case store =>
      intro h o kind place counter aligned eight ready quiet
      obtain ⟨-, low, -⟩ := placeOf_control_range place
      obtain ⟨value, regs, mem⟩ := syncSet_spec (quiet.unaccepted (k := k)) (by omega) (BitVec.ofNat 64 (leNat x.arrived.data))
      have row := serve_write (.inl kind) (writeData_counter (s := s.unaccepted k) place counter aligned eight ready)
      exact does_served here free first ⟨_, row, value, regs, sameBytes_of_mem mem⟩
    case add =>
      intro kind range read
      have addable : Addable (s.unaccepted k) x.phys (4 * (x.arrived.len / 4)) := addable ⟨range.ready, range.plain, range.free⟩ read
      obtain ⟨m, row, ⟨y, z, only⟩, sums, others⟩ := addF32s_spec _ _ _ x.arrived.data addable
      exact does_served here free first ⟨m, serve_add kind row, sums, others, fun j _ => by rw [only]; rfl⟩
  case operation =>
    intro s k a p comes kind found
    have low : p < 0x200000000 := (counter_of_translateObj (translateObj_of_exported found)).lt
    refine ⟨fun unready => does_sync_unready comes kind found unready rfl, fun ready =>
      ⟨?signal, ?arm, ?arrive, ?count, ?watchHolds, ?watchWaits, fun op => does_sync comes kind found ready (syncOperation_read op) rfl⟩⟩
    case signal =>
      intro quiet op code
      obtain ⟨value, regs, mem⟩ := syncSet_spec (quiet.untaken (k := k)) low (signalApply (a.aux % 16) (s.reg p) a.value)
      refine does_sync comes kind found ready (syncOperation_signal op (.inl code)) ⟨_, ?_, value, regs, sameBytes_of_mem mem⟩
      rw [State.signalObj, if_neg (by omega)]
      rfl
    case arm =>
      intro op code red none
      obtain ⟨pours, read⟩ := pours_arm (s.untaken k) p (a.value.toNat % 16) none
      refine does_sync comes kind found ready (syncOperation_signal op (.inr ⟨code, red⟩)) ⟨_, ?_, read, fun j _ => pours.reg j, pours.bytes⟩
      rw [State.signalObj, if_pos code]
    case arrive =>
      intro quiet op code none few
      obtain ⟨pours, read⟩ := combinePayload_spec p (a.aux % 16) none (wordsOf (a.aux / 256 % 256) a.data) (s.untaken k) 0
      rw [length_wordsOf, Nat.mul_zero, Nat.add_zero] at pours
      obtain ⟨value, regs, mem⟩ := arrives_spec pours quiet.untaken low
      have same := sameBytes_of_mem mem
      refine does_sync comes kind found ready (syncOperation_arrive op code few) ⟨_, rfl, value, fun i hi => ?_, regs, fun b hb => ?_⟩
      · have word := read i _ (getElem?_wordsOf hi a.data)
        rw [Nat.zero_add] at word
        exact (State.memNat_congr fun b _ => same _).trans word
      · exact (same b).trans (pours.bytes b hb)
    case count =>
      intro quiet op none few
      obtain ⟨value, regs, mem⟩ := arrives_spec (Pours.refl (s.untaken k) 0 0) quiet.untaken low
      refine does_sync comes kind found ready (syncOperation_arrive op (by omega) few) ⟨_, ?_, value, regs, sameBytes_of_mem mem⟩
      rw [State.arrive, none, combinePayload_none]
    case watchHolds => exact fun op code holds => does_sync comes kind found ready (syncOperation_watch_holds (s := s.untaken k) op code holds) rfl
    case watchWaits =>
      intro op code fails missed
      obtain ⟨kept, full⟩ := syncOperation_watch_waits (s := s.untaken k) op code fails missed
      exact ⟨fun room => does_sync comes kind found ready (kept room) rfl, fun none => does_sync comes kind found ready (full none) rfl⟩

end Sys2Proof.Machine
end

section
/-! SUPPORT. The Hamper's state: granules, free values and plain stores (R133, R137, R138). -/

namespace Sys2Proof.Machine

variable {s u : State} {t n c p : Nat} {l : List Byte}

/-! ### What the Hamper's operations read -/

theorem sameView_modSlice (s : State) (t c : Nat) (f : HSlice → HSlice) : SameView s (s.modSlice t c f) := ⟨rfl, rfl, rfl, rfl⟩

theorem SameView.granuleAt (h : SameView s u) : u.granuleAt = s.granuleAt := by funext t c g; simp only [State.granuleAt, h.fld]
theorem SameView.slotAt (h : SameView s u) : u.slotAt = s.slotAt := by funext c k; simp only [State.slotAt, h.fld]
theorem SameView.granuleBytesOf (h : SameView s u) : u.granuleBytesOf = s.granuleBytesOf := by
  funext t c e j g
  cases g <;> simp only [State.granuleBytesOf, h.readData, h.granuleAt, h.slotAt]
theorem SameView.hamperAop (h : SameView s u) : u.hamperAop = s.hamperAop := by
  funext i need
  rw [State.hamperAop, State.hamperAop, State.sliceGranules, State.sliceGranules, h.fld, h.localPhys]

theorem PlainRange.congr (h : PlainRange s p n) (same : SameView s u) (ctxs : u.ctxs = s.ctxs) : PlainRange u p n := by
  refine ⟨by rw [same.rangeReady]; exact h.ready, h.plain, ?_⟩
  rw [← h.free]
  simp only [State.tablesHeld, State.ctx, ctxs, same.fld]

theorem PlainRange.modSlice {f : HSlice → HSlice} (h : PlainRange s p n) : PlainRange (s.modSlice t c f) p n :=
  h.congr (sameView_modSlice s t c f) rfl

/-! ### Stores of the Hamper -/

theorem stored_storeHeal (s : State) (h : p + l.length ≤ 2 ^ 40) : Stored s (s.storeHeal p l) p l := by
  rw [State.storeHeal, State.storeMem_eq_setBytes l s p h]
  exact stored_setBytes_heal s p l

theorem Stored.hamper (h : Stored s u p l) : u.hamper = s.hamper := by obtain ⟨x, y, rfl⟩ := h.only; rfl
theorem Stored.slice (h : Stored s u p l) (t c : Nat) : u.slice t c = s.slice t c := by simp only [State.slice, h.hamper]
theorem Stored.threads (h : Stored s u p l) : u.threads = s.threads := by obtain ⟨x, y, rfl⟩ := h.only; rfl
theorem Stored.granuleAt (h : Stored s u p l) : u.granuleAt = s.granuleAt := by obtain ⟨x, y, rfl⟩ := h.only; rfl

/-- Pieces stored one after another: what changes is memory and what the stores heal. -/
structure StoredAll (s u : State) (ps : List (Nat × List Byte)) : Prop where
  only : ∃ x y, u = { s with mem := x, badWords := y }
  bytes : ∀ e ∈ ps, u.bytes e.1 e.2.length = e.2
  others : ∀ a, (∀ e ∈ ps, a < e.1 ∨ e.1 + e.2.length ≤ a) → u.byte a = s.byte a

/-- The pieces lie apart. -/
def Apart (e f : Nat × List Byte) : Prop := e.1 + e.2.length ≤ f.1 ∨ f.1 + f.2.length ≤ e.1

theorem storedAll (ps : List (Nat × List Byte)) : ∀ s : State, ps.Pairwise Apart → (∀ e ∈ ps, e.1 + e.2.length ≤ 2 ^ 40) →
    StoredAll s (forEach ps (fun s e => s.storeHeal e.1 e.2) s) ps := by
  induction ps with
  | nil => exact fun s _ _ => ⟨⟨s.mem, s.badWords, rfl⟩, by simp, fun _ _ => rfl⟩
  | cons e ps ih =>
    intro s away low
    obtain ⟨first, rest⟩ := List.pairwise_cons.mp away
    have one := stored_storeHeal s (low e (.head _))
    obtain ⟨⟨x, y, only⟩, bytes, others⟩ := ih (s.storeHeal e.1 e.2) rest fun f hf => low f (.tail _ hf)
    obtain ⟨x', y', only'⟩ := one.only
    refine ⟨⟨x, y, ?_⟩, fun f hf => ?_, fun a ha => ?_⟩
    · show forEach ps _ (s.storeHeal e.1 e.2) = _
      rw [only, only']
    · rcases List.mem_cons.mp hf with rfl | hf
      · refine (State.bytes_congr _ _ _ _ fun i hi => others _ fun g hg => ?_).trans one.bytes
        have := first g hg
        unfold Apart at this
        omega
      · exact bytes f hf
    · exact (others a fun f hf => ha f (.tail _ hf)).trans (one.others a (ha e (.head _)))

/-! ### Granules -/

theorem mem_freeGranules {g : Nat} (h : g ∈ s.freeGranules t c) : g < 128 := by
  have small : g < s.sliceGranules c := mem_upto.mp (List.mem_of_mem_filter h)
  have width : s.sliceGranules c < 128 := BitVec.isLt _
  omega

theorem nodup_freeGranules (s : State) (t c : Nat) : (s.freeGranules t c).Nodup := List.nodup_range.filter _

theorem granuleAt_below (ht : t < 256) (g : Nat) : s.granuleAt t c g + granuleBytes ≤ 2 ^ 31 := by
  unfold State.granuleAt granuleBytes
  omega

theorem granuleAt_apart {x y : Nat} (hx : x < 128) (hy : y < 128) (h : x ≠ y) :
    s.granuleAt t c x + granuleBytes ≤ s.granuleAt t c y ∨ s.granuleAt t c y + granuleBytes ≤ s.granuleAt t c x := by
  unfold State.granuleAt granuleBytes
  omega

/-! ### Free values -/

/-- Of a list without repetitions, `choose` takes as many elements as asked for, each once; it uses free values up and nothing else. -/
theorem choose_spec (n : Nat) : ∀ (l : List Nat) (s : State), l.Nodup → n ≤ l.length → ∃ xs k, s.choose n l = (xs, { s with freeCount := k })
    ∧ xs.length = n ∧ xs.Nodup ∧ ∀ x ∈ xs, x ∈ l := by
  induction n with
  | zero => exact fun l s _ _ => ⟨[], s.freeCount, by rw [State.choose], rfl, List.nodup_nil, by simp⟩
  | succ n ih =>
    intro l s nodup long
    have pos : 0 < l.length := by omega
    obtain ⟨a, l', rfl⟩ := List.exists_cons_of_length_pos pos
    generalize hx : (a :: l').getD (s.free.1.toNat % (a :: l').length) 0 = x
    have mem : x ∈ a :: l' := by
      rw [← hx, List.getD_eq_getElem _ _ (Nat.mod_lt _ pos)]
      exact List.getElem_mem _
    have drop : (a :: l').filter (· != x) = (a :: l').erase x := (nodup.erase_eq_filter x).symm
    have length : n ≤ ((a :: l').filter (· != x)).length := by
      rw [drop, List.length_erase_of_mem mem]
      omega
    obtain ⟨xs, k, row, len, nodup', sub⟩ := ih ((a :: l').filter (· != x)) s.free.2 (nodup.filter _) length
    refine ⟨x :: xs, k, ?_, by rw [List.length_cons, len], List.nodup_cons.mpr ⟨fun h => ?_, nodup'⟩, ?_⟩
    · rw [State.choose]
      · simp only [hx, row]
        rfl
      · simp
    · have := List.of_mem_filter (sub x h)
      simp at this
    · intro y hy
      rcases List.mem_cons.mp hy with rfl | hy
      · exact mem
      · exact List.mem_of_mem_filter (sub y hy)

end Sys2Proof.Machine
end

section
/-! SUPPORT. What becomes of a `PUSH` and of a `POP` at the Hamper: the pushed entry fills free granules (R137), the popped one goes to its
destination (R138). -/

namespace Sys2Proof.Machine

variable {s m v : State} {t c p src seq : Nat} {l b : List Byte} {e : HEntry} {i : Iss}

/-! ### Filling granules -/

/-- Two ways of doing each step agree where they agree in every state the steps go through. -/
theorem forEach_congr {α : Type} {P : State → Prop} {l : List α} {f g : State → α → State} (h : P s)
    (step : ∀ m, P m → ∀ a ∈ l, f m a = g m a ∧ P (g m a)) : forEach l f s = forEach l g s := by
  induction l generalizing s with
  | nil => rfl
  | cons a l ih =>
    obtain ⟨same, keeps⟩ := step s h a (.head _)
    show forEach l f (f s a) = forEach l g (g s a)
    rw [same]
    exact ih keeps fun m hm x hx => step m hm x (.tail _ hx)

/-- The pieces of an entry and where they go, its granules being `xs`. -/
def State.pieces (s : State) (t c : Nat) (b : List Byte) (xs : List Nat) : List (Nat × List Byte) :=
  xs.zipIdx.map fun g => (s.granuleAt t c g.1, (b.drop (granuleBytes * g.2)).take granuleBytes)

theorem piece_below (ht : t < 256) (g j : Nat) : s.granuleAt t c g + ((b.drop j).take granuleBytes).length ≤ 2 ^ 40 := by
  have := granuleAt_below (s := s) (c := c) ht g
  rw [List.length_take]
  omega

theorem fillGranules_eq (ht : t < 256) {xs : List Nat} (he : e.grans = xs.map .slice) :
    s.fillGranules t c e b = forEach (s.pieces t c b xs) (fun s e => s.storeHeal e.1 e.2) s := by
  rw [State.fillGranules, he, List.zipIdx_map, forEach, forEach, State.pieces, List.foldl_map, List.foldl_map]
  refine forEach_congr (P := fun m => m.granuleAt = s.granuleAt) rfl fun m same g _ => ⟨?_, ?_⟩
  · rw [← same]
    rfl
  · exact (stored_storeHeal m (piece_below ht _ _)).granuleAt.trans same

theorem pieces_apart {xs : List Nat} (nodup : xs.Nodup) (small : ∀ x ∈ xs, x < 128) : (s.pieces t c b xs).Pairwise Apart := by
  have distinct : xs.zipIdx.Pairwise fun g h => g.1 ≠ h.1 := List.pairwise_map.mp (by rw [List.zipIdx_map_fst]; exact nodup)
  refine List.pairwise_map.mpr (distinct.imp_of_mem fun {g h} hg hh ne => ?_)
  have := granuleAt_apart (s := s) (t := t) (c := c) (small _ (List.fst_mem_of_mem_zipIdx hg)) (small _ (List.fst_mem_of_mem_zipIdx hh)) ne
  simp only [Apart, List.length_take]
  omega

theorem getElem_pieces {xs : List Nat} {j : Nat} (hj : j < xs.length) :
    (s.granuleAt t c (xs.getD j 0), (b.drop (granuleBytes * j)).take granuleBytes) ∈ s.pieces t c b xs :=
  List.mem_map.mpr ⟨(xs.getD j 0, j), List.mem_zipIdx_iff_getElem?.mpr (by simp [hj]), rfl⟩

/-- An entry that has been written to its granules, `xs`. -/
structure Filled (s u : State) (t c : Nat) (b : List Byte) (xs : List Nat) : Prop where
  only : ∃ x y, u = { s with mem := x, badWords := y }
  bytes : ∀ j, j < xs.length →
    u.bytes (s.granuleAt t c (xs.getD j 0)) (min granuleBytes (b.length - granuleBytes * j)) = (b.drop (granuleBytes * j)).take granuleBytes
  others : ∀ a, (∀ j, j < xs.length → a < s.granuleAt t c (xs.getD j 0) ∨ s.granuleAt t c (xs.getD j 0) + granuleBytes ≤ a) → u.byte a = s.byte a

theorem filled (ht : t < 256) {xs : List Nat} (he : e.grans = xs.map .slice) (nodup : xs.Nodup) (small : ∀ x ∈ xs, x < 128) :
    Filled s (s.fillGranules t c e b) t c b xs := by
  have low : ∀ e ∈ s.pieces t c b xs, e.1 + e.2.length ≤ 2 ^ 40 := by
    intro e he
    obtain ⟨g, -, rfl⟩ := List.mem_map.mp he
    exact piece_below ht _ _
  obtain ⟨only, bytes, others⟩ := storedAll _ s (pieces_apart (t := t) (c := c) (b := b) nodup small) low
  rw [fillGranules_eq ht he]
  refine ⟨only, fun j hj => ?_, fun a ha => others a fun e he => ?_⟩
  · have piece := bytes _ (getElem_pieces hj)
    rwa [List.length_take, List.length_drop] at piece
  · obtain ⟨⟨x, j⟩, hg, rfl⟩ := List.mem_map.mp he
    have found : xs[j]? = some x := List.mem_zipIdx_iff_getElem?.mp hg
    have := ha j (List.getElem?_eq_some_iff.mp found).1
    rw [List.getD_eq_getElem?_getD, found] at this
    simp only [Option.getD_some] at this
    simp only [List.length_take]
    omega

/-! ### PUSH -/

theorem noteHighWater_regs (s : State) (t c : Nat) : RegsBut s (s.noteHighWater t c) [(F.hamperStatus.highWater c).reg] := fun k hk =>
  State.reg_setFld_other _ _ _ _ fun e : (F.hamperStatus.highWater c).reg = k => hk (by simp [e])

/-- A push with sequence number `seq` has put its entry into the free granules `xs` of `s`; the next one takes the number `next`. -/
structure Pushed (s m : State) (i : Iss) (seq next : Nat) (b : List Byte) (xs : List Nat) : Prop where
  length : xs.length = granulesFor (dHLen i.w)
  nodup : xs.Nodup
  free : ∀ x ∈ xs, x ∈ s.freeGranules i.t i.c
  stack : (m.slice i.t i.c).stack i.n
    = { len := dHLen i.w, fmt := dHFmt i.w, seq := seq, grans := xs.map .slice } :: (s.slice i.t i.c).stack i.n
  next : (m.slice i.t i.c).nextSeq = next
  threads : m.threads = s.threads
  regs : RegsBut s m [(F.hamperStatus.highWater i.c).reg]
  bytes : ∀ j, j < xs.length → m.bytes (s.granuleAt i.t i.c (xs.getD j 0)) (min granuleBytes (dHLen i.w - granuleBytes * j))
    = (b.drop (granuleBytes * j)).take granuleBytes
  others : ∀ a, (∀ j, j < xs.length → a < s.granuleAt i.t i.c (xs.getD j 0) ∨ s.granuleAt i.t i.c (xs.getD j 0) + granuleBytes ≤ a) →
    m.byte a = s.byte a

@[simp] theorem HSlice.stack_setStack (h : HSlice) (n : Nat) (l : List HEntry) : (h.setStack n l).stack n = l := Tab.get_put_same _ _ _ _

/-- A push the free granules suffice for (R137). -/
theorem pushNow_spec (ht : i.t < 256) (read : s.readData src (dHLen i.w) = some b)
    (room : granulesFor (dHLen i.w) ≤ (s.freeGranules i.t i.c).length) :
    ∃ m xs, s.pushNow i seq src = (m, .ok true) ∧ Pushed s m i seq (s.slice i.t i.c).nextSeq b xs := by
  obtain ⟨xs, k, chosen, length, nodup, free⟩ := choose_spec _ _ s (nodup_freeGranules s i.t i.c) room
  generalize he : ({ len := dHLen i.w, fmt := dHFmt i.w, seq := seq, grans := xs.map .slice } : HEntry) = e
  generalize hv : ({ s with freeCount := k } : State).modSlice i.t i.c (fun h => h.setStack i.n (e :: h.stack i.n)) = v
  have row : s.pushNow i seq src = ((v.fillGranules i.t i.c e b).noteHighWater i.t i.c, .ok true) := by
    simp only [State.pushNow, read, chosen, he, hv]
  have slice : v.slice i.t i.c = (s.slice i.t i.c).setStack i.n (e :: (s.slice i.t i.c).stack i.n) := by
    rw [← hv, State.slice_modSlice_same]
    rfl
  have base : v.threads = s.threads ∧ v.reg = s.reg ∧ v.byte = s.byte ∧ v.granuleAt = s.granuleAt := by rw [← hv]; exact ⟨rfl, rfl, rfl, rfl⟩
  obtain ⟨threads, reg, byte, place⟩ := base
  obtain ⟨⟨x, y, only⟩, bytes, others⟩ := filled (s := v) (c := i.c) (b := b) ht (e := e) (by rw [← he]) nodup fun x hx => mem_freeGranules (free x hx)
  rw [length_readData read, place] at bytes
  rw [place, byte] at others
  refine ⟨_, xs, row, ⟨length, nodup, free, ?_, ?_, ?_, fun j hj => ?_, fun j hj => ?_, others⟩⟩
  · rw [only]
    show (v.slice i.t i.c).stack i.n = _
    rw [slice, HSlice.stack_setStack, he]
  · rw [only]
    show (v.slice i.t i.c).nextSeq = _
    rw [slice]
    rfl
  · rw [only]
    exact threads
  · rw [noteHighWater_regs _ _ _ j hj, only, ← reg]
    rfl
  · refine (State.bytes_congr _ _ _ _ fun _ _ => ?_).trans (bytes j hj)
    rfl

/-! ### POP -/

theorem Moved.view (h : Moved v m p l) (same : SameView s v) : Moved s m p l :=
  ⟨h.bytes, fun a ha => (h.mem a ha).trans (by rw [same.byte]), fun k hk => (h.regs k hk).trans (by rw [same.reg])⟩

/-- A pop has left `rest` of its stack and put the bytes of its entry at `p`. -/
structure Popped (s m : State) (i : Iss) (rest : List HEntry) (p : Nat) (l : List Byte) : Prop where
  stack : (m.slice i.t i.c).stack i.n = rest
  threads : m.threads = s.threads
  moved : Moved s m p l

/-- An entry whose granules can all be read, copied to plain memory (R138). -/
theorem popNow_spec {parts : List (List Byte)} (read : (e.grans.zipIdx.map fun g => s.granuleBytesOf i.t i.c e g.2 g.1) = parts.map some)
    (range : PlainRange s p parts.flatten.length) :
    ∃ m, s.popNow i e p = (m, .ok true) ∧ Popped s m i (((s.slice i.t i.c).stack i.n).drop 1) p parts.flatten := by
  generalize hv : s.modSlice i.t i.c (fun h => h.setStack i.n ((h.stack i.n).drop 1)) = v
  have same : SameView s v := hv ▸ sameView_modSlice ..
  obtain ⟨m, written, stored⟩ := (hv ▸ range.modSlice : PlainRange v p parts.flatten.length).physWrite
  have found : (e.grans.zipIdx.find? fun g => (s.granuleBytesOf i.t i.c e g.2 g.1).isNone) = none := by
    rw [List.find?_eq_none]
    intro g hg
    obtain ⟨part, -, some⟩ := List.mem_map.mp (read ▸ List.mem_map_of_mem hg : s.granuleBytesOf i.t i.c e g.2 g.1 ∈ parts.map some)
    simp [← some]
  have bytes : (parts.map some).flatMap (fun p => p.getD []) = parts.flatten := by
    rw [List.flatMap_def, List.map_map]
    exact congrArg List.flatten (List.map_id parts)
  refine ⟨m, ?_, ?_, ?_, ?_⟩
  · simp only [State.popNow, hv, same.granuleBytesOf, found, read, bytes, written]
  · rw [stored.slice, ← hv, State.slice_modSlice_same, HSlice.stack_setStack]
  · rw [stored.threads, ← hv]
    rfl
  · exact stored.moved.view same

end Sys2Proof.Machine
end

section
/-! SUPPORT. The rows `PUSH` and `POP` (R137, R138). -/

namespace Sys2Proof.Machine

variable {s m u v : State} {t n c p seq : Nat} {w : Desc} {b : List Byte} {e : HEntry}

/-! ### At the front of the queue -/

theorem noteLast_other {key k : Nat} (h : k ≠ key) (dst : List Nat) (seq : Nat) : (u.noteLast key dst seq).thread k = u.thread k := by
  rw [State.noteLast, State.thread_modThread, if_neg (Ne.symm h)]

/-- Placing a descriptor leaves the other threads and the Hamper. -/
theorem enqueue_others {eng : Engine} (hs : s.straight t n) (few : (s.thread (thrKey t n)).pend.length < 8) (same : SameQueue s m t n) :
    (m.enqueue (s.nextIss t n w) eng ph).hamper = m.hamper
    ∧ ∀ k, k ≠ thrKey t n → (m.enqueue (s.nextIss t n w) eng ph).thread k = m.thread k := by
  rw [enqueue_eq hs few same]
  refine ⟨rfl, fun k hk => ?_⟩
  rw [State.thread_setReg, State.thread_modThread, if_neg (Ne.symm hk), State.thread_setFld, State.thread_modThread, if_neg (Ne.symm hk)]

/-- A Hamper descriptor that the engine reaches as it issues and that is over at once: it is outstanding and done, and the rest of the state is
the one the Hamper leaves. -/
structure Ended (s m u : State) (t n : Nat) (w : Desc) : Prop extends Carried s m u t n w where
  hamper : u.hamper = m.hamper
  others : ∀ k, k ≠ thrKey t n → u.thread k = m.thread k

theorem runDma_ended (hs : s.straight t n) (room : s.roomFor t n w .dma) (front : firstOpen (s.thread (thrKey t n)).pend = none)
    (few : (s.thread (thrKey t n)).pend.length < 8) (late : 0x10 ≤ dOp w) (take : (s.afterFetch t n w).takeSeq (s.nextIss t n w) = (seq, v))
    (queue : v.threads = s.threads) (reach : v.dmaReach (s.nextIss t n w) seq = (m, .ok (.done, []))) (kept : m.threads = s.threads) :
    Ended s m ((s.afterFetch t n w).runDma (s.nextIss t n w) none) t n w := by
  have blocked : (s.afterFetch t n w).asyncBlocked (s.nextIss t n w) .dma = none := room
  have first : firstOpen (v.thread (s.nextIss t n w).key).pend = none := by
    simp only [State.thread, queue]
    exact front
  have free : v.dmaHeld (s.nextIss t n w) = false := by simp [State.dmaHeld, State.shadowHeld, State.lockHeld, Nat.not_lt.mpr late]
  have run : (s.afterFetch t n w).runDma (s.nextIss t n w) none = (m.enqueue (s.nextIss t n w) .dma .done).noteLast (thrKey t n) [] seq := by
    simp only [State.runDma, State.async, blocked, take, first, free, reach, Option.isSome_none, Bool.false_eq_true, or_self, if_false]
    rfl
  have same : SameQueue s m t n := (SameLists.of_threads kept).queue t n
  obtain ⟨placed, enqueued⟩ := enqueue_spec (w := w) (e := .dma) (ph := .done) hs few same rfl
  obtain ⟨hamper, others⟩ := enqueue_others (w := w) (eng := .dma) (ph := .done) hs few same
  rw [run]
  exact ⟨⟨placed.noteLast [] seq, enqueued.regs, enqueued.mem⟩, hamper, fun k hk => (noteLast_other hk [] seq).trans (others k hk)⟩

theorem Ended.slice (h : Ended s m u t n w) (t' c : Nat) : u.slice t' c = m.slice t' c := by simp only [State.slice, h.hamper]
theorem Ended.byte (h : Ended s m u t n w) (a : Nat) : u.byte a = m.byte a := sameBytes_of_mem h.mem a
theorem Ended.bytes (h : Ended s m u t n w) (a k : Nat) : u.bytes a k = m.bytes a k := State.bytes_congr _ _ _ _ fun _ _ => h.byte _

theorem hamperFieldFault_none (h : dHFmt w ≤ 9) : hamperFieldFault w = none := if_neg (Nat.not_lt.mpr h)

/-! ### PUSH -/

/-- What a push leaves is told of any state with the same granules, stack and lists. -/
theorem Pushed.view {i : Iss} {next : Nat} {xs : List Nat} (h : Pushed v m i seq next b xs) (same : SameView s v)
    (free : v.freeGranules i.t i.c = s.freeGranules i.t i.c) (stack : (v.slice i.t i.c).stack i.n = (s.slice i.t i.c).stack i.n)
    (threads : v.threads = s.threads) : Pushed s m i seq next b xs := by
  refine ⟨h.length, h.nodup, free ▸ h.free, h.stack.trans (by rw [stack]), h.next, h.threads.trans threads,
    fun k hk => (h.regs k hk).trans (by rw [same.reg]), ?_, ?_⟩
  · rw [← same.granuleAt]
    exact h.bytes
  · rw [← same.granuleAt, ← same.byte]
    exact h.others

theorem pushReach_spec {i : Iss} {src : Nat} (ht : i.t < 256) (addr : s.hamperAop i rightR = .ok src) (read : s.readData src (dHLen i.w) = some b)
    (depth : ((s.slice i.t i.c).stack i.n).length < 64) (room : granulesFor (dHLen i.w) ≤ (s.freeGranules i.t i.c).length) :
    ∃ m xs, s.pushReach i seq false = (m, .ok true) ∧ Pushed s m i seq (s.slice i.t i.c).nextSeq b xs := by
  generalize hv : s.modSlice i.t i.c (fun h => { h with windows := h.windows.filter (· != i.n) }) = v
  have same : SameView s v := hv ▸ sameView_modSlice ..
  have slice : v.slice i.t i.c = { s.slice i.t i.c with windows := (s.slice i.t i.c).windows.filter (· != i.n) } := by
    rw [← hv, State.slice_modSlice_same]
  have free : v.freeGranules i.t i.c = s.freeGranules i.t i.c := by
    simp only [State.freeGranules, State.sliceGranules, same.fld, slice]
    rfl
  obtain ⟨m, xs, row, pushed⟩ := pushNow_spec (s := v) (seq := seq) ht (by rw [same.readData]; exact read) (free ▸ room)
  refine ⟨m, xs, ?_, ?_⟩
  · simp only [State.pushReach, addr, if_neg (Nat.not_le.mpr depth), Bool.false_eq_true, if_false, hv, free, if_pos room, row]
  · rw [show (s.slice i.t i.c).nextSeq = (v.slice i.t i.c).nextSeq by rw [slice]]
    exact pushed.view same free (by rw [slice]; rfl) (by rw [← hv]; rfl)

theorem dmaReach_push {i : Iss} (op : dOp i.w = 0x38) (h : s.pushReach i seq false = (m, .ok true)) : s.dmaReach i seq = (m, .ok (.done, [])) := by
  rw [State.dmaReach, if_pos op, h]
  rfl

/-- A push that takes its sequence number and is reached at once. -/
theorem push_reached {i : Iss} {src : Nat} (op : dOp i.w = 0x38) (ht : i.t < 256) (addr : s.hamperAop i rightR = .ok src)
    (read : s.readData src (dHLen i.w) = some b) (depth : ((s.slice i.t i.c).stack i.n).length < 64)
    (room : granulesFor (dHLen i.w) ≤ (s.freeGranules i.t i.c).length) :
    let seq := (s.slice i.t i.c).nextSeq
    ∃ v m xs, s.takeSeq i = (seq, v) ∧ v.threads = s.threads ∧ v.dmaReach i seq = (m, .ok (.done, [])) ∧ Pushed s m i seq (seq + 1) b xs := by
  intro seq
  generalize hv : s.modSlice i.t i.c (fun h => { h with nextSeq := h.nextSeq + 1 }) = v
  have same : SameView s v := hv ▸ sameView_modSlice ..
  have threads : v.threads = s.threads := by rw [← hv]; rfl
  have slice : v.slice i.t i.c = { s.slice i.t i.c with nextSeq := seq + 1 } := by rw [← hv, State.slice_modSlice_same]
  have stack : (v.slice i.t i.c).stack i.n = (s.slice i.t i.c).stack i.n := by rw [slice]; rfl
  have free : v.freeGranules i.t i.c = s.freeGranules i.t i.c := by
    simp only [State.freeGranules, State.sliceGranules, same.fld, slice]
    rfl
  obtain ⟨m, xs, row, pushed⟩ := pushReach_spec (s := v) (seq := seq) ht (by rw [same.hamperAop]; exact addr) (by rw [same.readData]; exact read)
    (stack ▸ depth) (free ▸ room)
  rw [slice] at pushed
  exact ⟨v, m, xs, by rw [← hv]; exact if_pos op, threads, dmaReach_push op row, pushed.view same free stack threads⟩

/-! ### POP -/

theorem popEntry_eq {i : Iss} {rest : List HEntry} (stack : (s.slice i.t i.c).stack i.n = e :: rest) (len : e.len = dHLen i.w) (fmt : e.fmt = dHFmt i.w) :
    s.popEntry i = .ok e := by
  simp only [State.popEntry, stack, len, fmt, ne_eq, not_true_eq_false, or_self, if_false]

theorem popReach_spec {i : Iss} {rest : List HEntry} {parts : List (List Byte)} (addr : s.hamperAop i rightW = .ok p)
    (stack : (s.slice i.t i.c).stack i.n = e :: rest) (len : e.len = dHLen i.w) (fmt : e.fmt = dHFmt i.w) (resident : e.slots = [])
    (read : (e.grans.zipIdx.map fun g => s.granuleBytesOf i.t i.c e g.2 g.1) = parts.map some) (range : PlainRange s p parts.flatten.length) :
    ∃ m, s.popReach i = (m, .ok true) ∧ Popped s m i rest p parts.flatten := by
  generalize hv : s.modSlice i.t i.c (fun h => { h with windows := if h.windows.contains i.n then h.windows else i.n :: h.windows }) = v
  have same : SameView s v := hv ▸ sameView_modSlice ..
  have kept : (v.slice i.t i.c).stack i.n = e :: rest := by
    rw [← hv, State.slice_modSlice_same]
    exact stack
  obtain ⟨m, row, popped⟩ := popNow_spec (s := v) (i := i) (e := e) (by rw [same.granuleBytesOf]; exact read) (hv ▸ range.modSlice)
  refine ⟨m, ?_, popped.stack.trans (by rw [kept]; rfl), popped.threads.trans (by rw [← hv]; rfl), popped.moved.view same⟩
  simp only [State.popReach, addr, popEntry_eq stack len fmt, hv, resident, if_true, row]

theorem dmaReach_pop {i : Iss} (op : dOp i.w = 0x39) (h : s.popReach i = (m, .ok true)) : s.dmaReach i seq = (m, .ok (.done, [])) := by
  rw [State.dmaReach, if_neg (by omega), if_pos op, h]
  rfl

/-! ### Pushes that wait -/

/-- Where no push waits none looks again (R137). -/
theorem pushAgain_idle {fuel : Nat} (h : s.pushReady t c = none) : s.pushAgain t c fuel = s := by
  cases fuel with
  | zero => rfl
  | succ fuel => simp only [State.pushAgain, h]

theorem pushReady_none (h : s.waitingPushes t c = []) : s.pushReady t c = none := by rw [State.pushReady, h]; rfl

theorem mem_waitingPushes {x : Nat × Nat × Pend} : x ∈ s.waitingPushes t c ↔ ∃ n, n < 16 ∧ s.ctxOf t n = c
    ∧ ∃ y, s.hamperPend (thrKey t n) 0x38 = some y ∧ (thrKey t n, y.1, y.2) = x := by
  simp only [State.waitingPushes, List.mem_filterMap, mem_upto]
  refine exists_congr fun n => and_congr_right fun _ => ?_
  split
  · next h => simp [State.ctxOf, h]
  · next h => simp [State.ctxOf, h]

theorem waitingPushes_nil : s.waitingPushes t c = [] ↔ ∀ n, n < 16 → s.ctxOf t n = c → s.hamperPend (thrKey t n) 0x38 = none := by
  rw [List.eq_nil_iff_forall_not_mem]
  constructor
  · intro h n hn ctx
    cases found : s.hamperPend (thrKey t n) 0x38 with
    | none => rfl
    | some y => exact absurd (mem_waitingPushes.mpr ⟨n, hn, ctx, y, found, rfl⟩) (h _)
  · intro h x hx
    obtain ⟨n, hn, ctx, y, found, -⟩ := mem_waitingPushes.mp hx
    rw [h n hn ctx] at found
    cases found

/-- A descriptor that is done waits for nothing. -/
theorem hamperPend_done {k op : Nat} {x : Pend} (list : (u.thread k).pend = (s.thread k).pend ++ [x]) (done : x.phase = .done)
    (h : s.hamperPend k op = none) : u.hamperPend k op = none := by
  rw [State.hamperPend] at h
  rw [State.hamperPend, list, List.zipIdx_append, List.findSome?_append, h]
  simp [done]

theorem threadCtl_not_threadRegs (t n n' : Nat) : R.threadCtl t n' ∉ threadRegs t n := by
  simp only [threadRegs, List.mem_cons, List.not_mem_nil, or_false, R.threadCtl, R.threadPc, R.threadStatus]
  omega

/-- A descriptor that ends at once makes no push wait. -/
theorem Ended.waitingPushes (h : Ended s m u t n w) (threads : m.threads = s.threads)
    (ctl : ∀ n', n' < 16 → m.reg (R.threadCtl t n') = s.reg (R.threadCtl t n')) (none : s.waitingPushes t c = []) : u.waitingPushes t c = [] := by
  rw [waitingPushes_nil] at none ⊢
  intro n' hn' ctx
  have same : u.ctxOf t n' = s.ctxOf t n' :=
    State.fld_congr (f := F.threadCtl.ctx t n') ((h.regs _ (threadCtl_not_threadRegs t n n')).trans (ctl n' hn'))
  have before := none n' hn' (same.symm.trans ctx)
  by_cases key : n' = n
  · obtain ⟨x, list, -, -, -, done, -⟩ := h.placed.pend
    exact hamperPend_done (key ▸ list) done before
  · have other : u.thread (thrKey t n') = s.thread (thrKey t n') := by
      rw [h.others _ (by unfold thrKey; omega)]
      simp only [State.thread, threads]
    rwa [State.hamperPend, other]

/-! ### The rows -/

theorem late_of_hamper (h : dOp w = 0x38 ∨ dOp w = 0x39) : 0x10 ≤ dOp w := by omega

/-- What is freed lets nothing look again where no push waits. -/
theorem hamperFreed_idle (h : u.waitingPushes t c = []) : s.hamperFreed u t c = u := by
  unfold State.hamperFreed
  split
  · rfl
  · exact pushAgain_idle (pushReady_none h)

/-- Settles O6: the engine reaches the descriptor as it issues; a push fills free granules that lie apart, and a pop finds no push that waits. -/
theorem hamperRowsComplete : Obligations.HamperRowsComplete := by
  unfold Obligations.HamperRowsComplete
  intro t n w s straight room front fmt i h
  have fields := hamperFieldFault_none fmt
  refine ⟨fun src b issues addr read depth free => ?push, fun p e rest parts issues addr stack len fmt' resident read flat range idle => ?pop⟩
  case push =>
    obtain ⟨v, m, xs, take, queue, reach, pushed⟩ := push_reached (s := s.afterFetch t n w) (i := i) issues.row t.isLt
      (by rw [sameView_afterFetch.hamperAop]; exact addr) (by rw [sameView_afterFetch.readData]; exact read) depth free
    have ended := runDma_ended straight room front issues.few (late_of_hamper (.inl issues.row)) take queue reach pushed.threads
    refine issues.does rfl rfl rfl (congrArg _ fields) ⟨⟨xs, (congrArg (HSlice.stack · n) (ended.slice _ _)).trans pushed.stack, pushed.length, pushed.nodup,
      pushed.free, fun j hj => (ended.bytes _ _).trans (pushed.bytes j hj), fun a ha => (ended.byte a).trans (pushed.others a ha)⟩, fun k hk => ?_,
      (congrArg HSlice.nextSeq (ended.slice _ _)).trans pushed.next, ended.placed⟩
    obtain ⟨high, thread⟩ := not_or.mp (List.mem_cons.not.mp hk)
    exact (ended.regs k thread).trans (pushed.regs k (List.mem_singleton.not.mpr high))
  case pop =>
    have take : (s.afterFetch t n w).takeSeq i = (0, s.afterFetch t n w) := if_neg (by rw [nextIss_w, issues.row]; decide)
    obtain ⟨m, row, popped⟩ := popReach_spec (s := s.afterFetch t n w) (i := i) (by rw [sameView_afterFetch.hamperAop]; exact addr) stack len fmt' resident
      (by rw [sameView_afterFetch.granuleBytesOf]; exact read) (flat ▸ range.afterFetch)
    have ended := runDma_ended straight room front issues.few (late_of_hamper (.inr issues.row)) take rfl (dmaReach_pop issues.row row) popped.threads
    have quiet := ended.waitingPushes popped.threads (fun n' _ => popped.moved.regs _ (List.not_mem_nil)) idle
    have run : (s.afterFetch t n w).runPop i = (s.afterFetch t n w).runDma i none := by
      rw [State.runPop, nextIss_w, fields]
      exact hamperFreed_idle quiet
    refine issues.does rfl rfl rfl run ⟨(congrArg (HSlice.stack · n) (ended.slice _ _)).trans popped.stack, ?_, ended.placed,
      fun k hk => (ended.regs k hk).trans (popped.moved.regs k List.not_mem_nil), fun a ha => (ended.byte a).trans (popped.moved.mem a (flat ▸ ha))⟩
    rw [ended.bytes, ← flat]
    exact popped.moved.bytes

end Sys2Proof.Machine
end

section
/-! SUPPORT. Control of a context's Hamper (R135, R147): its configuration, its spill region and the discard of its stacks. -/

namespace Sys2Proof.Machine

variable {s m u : State} {c : Nat} {v : Word}

/-! ### HAMPER_CFG -/

theorem testBit_bitsAt {k : Nat} (x : BitVec k) (lo width i : Nat) : (bitsAt x lo width).testBit i = (decide (i < width) && x.getLsbD (lo + i)) := by
  rw [bitsAt, BitVec.testBit_toNat, BitVec.getLsbD_extractLsb']

theorem bitsAt_lt {k : Nat} (x : BitVec k) (lo width : Nat) : bitsAt x lo width < 2 ^ width := BitVec.isLt _

/-- The word stored of a write of `HAMPER_CFG`: the reserved bits alone are masked. -/
theorem hamperCfg_word (v : Word) : BitVec.ofNat 64 (bitsAt v 0 7 + 2 ^ 8 * bitsAt v 8 7 + 2 ^ 16 * bitsAt v 16 5) = v &&& 0x1F7F7F#64 := by
  have mask : (0x1F7F7F#64 : Word) = maskBits 0 7 ||| maskBits 8 7 ||| maskBits 16 5 := by decide
  have sum : bitsAt v 0 7 + 2 ^ 8 * bitsAt v 8 7 + 2 ^ 16 * bitsAt v 16 5 = 2 ^ 8 * (2 ^ 8 * bitsAt v 16 5 + bitsAt v 8 7) + bitsAt v 0 7 := by omega
  have low : bitsAt v 0 7 < 2 ^ 8 := (bitsAt_lt v 0 7).trans (by decide)
  have mid : bitsAt v 8 7 < 2 ^ 8 := (bitsAt_lt v 8 7).trans (by decide)
  apply BitVec.eq_of_getLsbD_eq
  intro i hi
  rw [mask, sum, BitVec.getLsbD_ofNat, Nat.testBit_two_pow_mul_add _ low, Nat.testBit_two_pow_mul_add _ mid, BitVec.getLsbD_and, BitVec.getLsbD_or, BitVec.getLsbD_or,
    getLsbD_maskBits _ _ _ hi, getLsbD_maskBits _ _ _ hi, getLsbD_maskBits _ _ _ hi, testBit_bitsAt, testBit_bitsAt, testBit_bitsAt]
  by_cases first : i < 8
  · have : ¬ 8 ≤ i := by omega
    have : ¬ 16 ≤ i := by omega
    simp [*, Bool.and_comm]
  · by_cases second : i - 8 < 8
    · have : 8 + (i - 8) = i := by omega
      have : ¬ i < 7 := by omega
      have : ¬ 16 ≤ i := by omega
      have : 8 ≤ i := by omega
      simp [*, Bool.and_comm]
    · have : 16 + (i - 8 - 8) = i := by omega
      have : i - 8 - 8 < 5 ↔ i - 16 < 5 := by omega
      have : ¬ i < 7 := by omega
      have : ¬ i - 8 < 7 := by omega
      have : 16 ≤ i := by omega
      simp [*, Bool.and_comm]

/-- A write of `HAMPER_CFG` changes a slice field. -/
def State.cfgMoves (s : State) (c : Nat) (v : Word) : Prop := bitsAt v 0 7 ≠ s.sliceGranules c ∨ bitsAt v 8 7 ≠ s.fld (F.hamperCfg.sliceBase c)

/-- A write of `HAMPER_CFG` fits (R135). -/
def State.cfgFits (s : State) (c : Nat) (v : Word) : Prop :=
  bitsAt v 0 7 ≤ 96 ∧ bitsAt v 8 7 + bitsAt v 0 7 ≤ 128 ∧ bitsAt v 16 4 ≤ 8 ∧ s.sliceOverlap c (bitsAt v 8 7) (bitsAt v 0 7) = false
    ∧ (s.cfgMoves c v → s.hamperEntries c = 0)

/-- What `HAMPER_CFG` refuses of slice fields `g` and `b`. -/
theorem not_cfgFits_iff : ¬ s.cfgFits c v ↔ 96 < bitsAt v 0 7 ∨ 128 < bitsAt v 8 7 + bitsAt v 0 7 ∨ 8 < bitsAt v 16 4
    ∨ s.sliceOverlap c (bitsAt v 8 7) (bitsAt v 0 7) = true
    ∨ ((bitsAt v 0 7 != s.sliceGranules c || bitsAt v 8 7 != s.fld (F.hamperCfg.sliceBase c)) = true ∧ s.hamperEntries c ≠ 0) := by
  simp only [State.cfgFits, State.cfgMoves, not_and_or, not_le, Bool.not_eq_false, Classical.not_imp, Bool.or_eq_true, bne_iff_ne]

theorem cfgMoves_iff : s.cfgMoves c v ↔ (bitsAt v 0 7 != s.sliceGranules c || bitsAt v 8 7 != s.fld (F.hamperCfg.sliceBase c)) = true := by
  simp only [State.cfgMoves, Bool.or_eq_true, bne_iff_ne]

/-- A write that is not ignored is judged with its own fields. -/
theorem hamperCfgWrite_judged (h : (s.ctx c).running = false ∨ ¬ s.cfgMoves c v) :
    (s.cfgFits c v → s.hamperCfgWrite c v = s.setReg (R.hamperCfg c) (v &&& 0x1F7F7F#64))
    ∧ (¬ s.cfgFits c v → s.hamperCfgWrite c v = s.setBit (F.hamperStatus.cfgRefused c) true) := by
  have heeded : ((s.ctx c).running && (bitsAt v 0 7 != s.sliceGranules c || bitsAt v 8 7 != s.fld (F.hamperCfg.sliceBase c))) = false := by
    rw [cfgMoves_iff, Bool.not_eq_true] at h
    rwa [Bool.and_eq_false_iff]
  rw [State.hamperCfgWrite, heeded]
  constructor
  · intro fits
    rw [← hamperCfg_word]
    exact if_neg fun fails => not_cfgFits_iff.mpr fails fits
  · exact fun fails => if_pos (not_cfgFits_iff.mp fails)

/-- A write that moves the slice of a running context leaves it where it is. -/
theorem hamperCfgWrite_ignored (running : (s.ctx c).running = true) (moves : s.cfgMoves c v) :
    s.hamperCfgWrite c v = (s.setBit (F.hamperStatus.cfgIgnored c) true).setBit (F.hamperStatus.cfgRefused c) true
    ∨ s.hamperCfgWrite c v = (s.setBit (F.hamperStatus.cfgIgnored c) true).setReg (R.hamperCfg c)
      (BitVec.ofNat 64 (s.sliceGranules c + 2 ^ 8 * s.fld (F.hamperCfg.sliceBase c) + 2 ^ 16 * bitsAt v 16 5)) := by
  have ignored : ((s.ctx c).running && (bitsAt v 0 7 != s.sliceGranules c || bitsAt v 8 7 != s.fld (F.hamperCfg.sliceBase c))) = true := by
    rw [running, Bool.true_and, ← cfgMoves_iff]
    exact moves
  rw [State.hamperCfgWrite, ignored]
  exact ite_eq_or_eq ..

theorem hamperStatus_ne_cfg (c : Nat) : R.hamperStatus c ≠ R.hamperCfg c := by unfold R.hamperStatus R.hamperCfg; omega

/-- The slice fields of a word made of them. -/
theorem slice_fields {g b x : Nat} (hu : u.reg (R.hamperCfg c) = BitVec.ofNat 64 (g + 2 ^ 8 * b + 2 ^ 16 * x)) (hg : g < 2 ^ 7) (hb : b < 2 ^ 7) :
    u.sliceGranules c = g ∧ u.fld (F.hamperCfg.sliceBase c) = b := by
  constructor
  · show ((u.reg (R.hamperCfg c)).extractLsb' 0 7).toNat = g
    rw [hu, BitVec.extractLsb'_toNat, BitVec.toNat_ofNat, Nat.shiftRight_eq_div_pow]
    omega
  · show ((u.reg (R.hamperCfg c)).extractLsb' 8 7).toNat = b
    rw [hu, BitVec.extractLsb'_toNat, BitVec.toNat_ofNat, Nat.shiftRight_eq_div_pow]
    omega

/-! ### The clauses of HAMPER_CFG -/

theorem bit_setBit_true (s : State) {f : Fld} (one : f.width = 1) (h : f.lo + f.width ≤ 64) : (s.setBit f true).bit f = true := by
  rw [State.bit_eq_fld _ _ one, State.setBit_eq, State.fld_setFld_same _ _ _ h, one]
  rfl

theorem setBit_only (s : State) (f : Fld) (b : Bool) : OnlyRegs s (s.setBit f b) [f.reg] :=
  ⟨fun _ hk => State.reg_setBit_other _ _ _ _ (Ne.symm (List.mem_singleton.not.mp hk)), rfl⟩

theorem setReg_only (s : State) (k : Nat) (v : Word) : OnlyRegs s (s.setReg k v) [k] :=
  ⟨fun _ hk => State.reg_setReg_other _ _ (Ne.symm (List.mem_singleton.not.mp hk)), rfl⟩

theorem RegsBut.trans {js ks : List Nat} (h : RegsBut s m js) (g : RegsBut m u ks) : RegsBut s u (js ++ ks) := fun k hk =>
  (g k fun hm => hk (List.mem_append_right js hm)).trans (h k fun hm => hk (List.mem_append_left ks hm))

theorem OnlyRegs.trans {js ks : List Nat} (h : OnlyRegs s m js) (g : OnlyRegs m u ks) : OnlyRegs s u (js ++ ks) := by
  refine ⟨h.1.trans g.1, ?_⟩
  rw [g.2, h.2]

theorem OnlyRegs.mono {js ks : List Nat} (h : OnlyRegs s u js) (sub : js ⊆ ks) : OnlyRegs s u ks := ⟨fun k hk => h.1 k fun hm => hk (sub hm), h.2⟩

theorem OnlyRegs.sameBytes {ks : List Nat} (h : OnlyRegs s u ks) : SameBytes s u := sameBytes_of_mem (by rw [h.2])

/-- A write to the slice fields of a running context sets `CFG_IGNORED` and moves nothing (log entry 125 names the writes that are none to them). -/
theorem hamperCfgWrite_running (running : (s.ctx c).running = true) (moves : s.cfgMoves c v) : let u := s.hamperCfgWrite c v
    u.bit (F.hamperStatus.cfgIgnored c) = true ∧ u.sliceGranules c = s.sliceGranules c
    ∧ u.fld (F.hamperCfg.sliceBase c) = s.fld (F.hamperCfg.sliceBase c) ∧ OnlyRegs s u [R.hamperCfg c, R.hamperStatus c] := by
  intro u
  have noted : (s.setBit (F.hamperStatus.cfgIgnored c) true).bit (F.hamperStatus.cfgIgnored c) = true := bit_setBit_true s rfl (by show 2 ≤ 64; decide)
  have first := setBit_only s (F.hamperStatus.cfgIgnored c) true
  rcases hamperCfgWrite_ignored running moves with refused | stored
  · have only : OnlyRegs s u [R.hamperStatus c] := by
      rw [show u = _ from refused]
      exact (first.trans (setBit_only _ _ _)).mono (by simp [F.hamperStatus.cfgIgnored, F.hamperStatus.cfgRefused])
    have cfg : u.reg (R.hamperCfg c) = s.reg (R.hamperCfg c) := only.1 _ (List.mem_singleton.not.mpr (hamperStatus_ne_cfg c).symm)
    refine ⟨?_, State.fld_congr cfg, State.fld_congr cfg, only.mono (by simp)⟩
    rw [show u = _ from refused, State.bit_eq_fld _ _ rfl, State.setBit_eq, State.fld_setFld_other _ _ _ _ (.inl (by show 2 ≤ 2; decide)), ← State.bit_eq_fld _ _ rfl]
    exact noted
  · have only : OnlyRegs s u [R.hamperCfg c, R.hamperStatus c] := by
      rw [show u = _ from stored]
      exact (first.trans (setReg_only _ _ _)).mono (by simp [F.hamperStatus.cfgIgnored])
    obtain ⟨granules, base⟩ := slice_fields ((congrArg (State.reg · (R.hamperCfg c)) stored).trans (State.reg_setReg_same _ _ _)) (BitVec.isLt _) (BitVec.isLt _)
    refine ⟨?_, granules, base, only⟩
    rw [show u = _ from stored, State.bit_congr (State.reg_setReg_other _ _ (hamperStatus_ne_cfg c).symm)]
    exact noted

/-! ### HAMPER_SPILL_BASE -/

/-- The spill region a write names lies in Thermos, or has no slots (R135). -/
def spillFits (v : Word) : Prop :=
  bitsAt v 40 24 = 0 ∨ (0x4004000000 ≤ 65536 * bitsAt v 16 24 ∧ 65536 * bitsAt v 16 24 + 65536 * bitsAt v 40 24 ≤ 0xC000000000)

theorem hamperSpillBase_ne_status (c : Nat) : R.hamperStatus c ≠ R.hamperSpillBase c := by unfold R.hamperStatus R.hamperSpillBase; omega

theorem hamperSpillBaseWrite_fits (h : spillFits v) : let u := s.hamperSpillBaseWrite c v
    u.fld (F.hamperSpillBase.base c) = bitsAt v 16 24 ∧ u.fld (F.hamperSpillBase.slots c) = bitsAt v 40 24 ∧ OnlyRegs s u [R.hamperSpillBase c] := by
  intro u
  have row : u = s.setReg (R.hamperSpillBase c) (v &&& 0xFFFFFFFFFFFF0000#64) := if_pos h
  have word : u.reg (R.hamperSpillBase c) = v &&& 0xFFFFFFFFFFFF0000#64 := by rw [row, State.reg_setReg_same]
  have field (lo : Nat) (ones : (0xFFFFFFFFFFFF0000#64).extractLsb' lo 24 = BitVec.allOnes 24) :
      ((u.reg (R.hamperSpillBase c)).extractLsb' lo 24).toNat = bitsAt v lo 24 := by
    rw [word, extract_and_mask ones]
    rfl
  exact ⟨field 16 (by decide), field 40 (by decide), row ▸ setReg_only s _ _⟩

theorem hamperSpillBaseWrite_refused (h : ¬ spillFits v) : let u := s.hamperSpillBaseWrite c v
    u.fld (F.hamperSpillBase.slots c) = 0 ∧ u.bit (F.hamperStatus.cfgRefused c) = true ∧ OnlyRegs s u [R.hamperSpillBase c, R.hamperStatus c] := by
  intro u
  have row : u = (s.setReg (R.hamperSpillBase c) (v &&& 0x000000FFFFFF0000#64)).setBit (F.hamperStatus.cfgRefused c) true := if_neg h
  refine ⟨?_, ?_, ?_⟩
  · rw [row, State.setBit_eq, State.fld_setFld_other_reg _ _ _ _ (hamperSpillBase_ne_status c)]
    show ((State.reg _ (R.hamperSpillBase c)).extractLsb' 40 24).toNat = 0
    rw [State.reg_setReg_same, BitVec.extractLsb'_and, show (0x000000FFFFFF0000#64).extractLsb' 40 24 = 0#24 by decide, BitVec.and_zero]
    rfl
  · rw [row]
    exact bit_setBit_true _ rfl (by show 3 ≤ 64; decide)
  · rw [row]
    exact (setReg_only s _ _).trans (setBit_only _ _ _)

/-! ### DISCARD -/

theorem Tab.get_of_absent {α : Type} (d : Nat → α) {l : Tab α} {k : Nat} (h : ∀ e ∈ l, e.1 ≠ k) : Tab.get d l k = d k := by
  induction l with
  | nil => rfl
  | cons e l ih => rw [Tab.get_cons, if_neg (h e (.head _)), ih fun f hf => h f (.tail _ hf)]

/-- No stack of the slice holds an entry. -/
def State.sliceEmpty (s : State) (t c : Nat) : Prop := ∀ n, (s.slice t c).stack n = []

theorem slice_modSlice (s : State) (a b t c : Nat) (f : HSlice → HSlice) :
    (s.modSlice a b f).slice t c = if 8 * a + b = 8 * t + c then f (s.slice a b) else s.slice t c := by
  rw [State.modSlice, State.slice_setSlice]

/-- Emptying slices one after another empties each of them, and leaves empty what was so. -/
theorem sliceEmpty_emptied {t : Nat} (l : Tab HSlice) : ∀ m : State, (∃ e ∈ l, e.1 = 8 * t + c) ∨ m.sliceEmpty t c →
    (forEach l (fun s e => s.modSlice (e.1 / 8) (e.1 % 8) fun h => { h with piles := [], windows := [] }) m).sliceEmpty t c := by
  induction l with
  | nil => exact fun m h => h.resolve_left (by simp)
  | cons e l ih =>
    intro m h
    refine ih _ ?_
    have split : 8 * (e.1 / 8) + e.1 % 8 = e.1 := Nat.div_add_mod ..
    by_cases here : e.1 = 8 * t + c
    · right
      intro n
      rw [slice_modSlice, if_pos (split.trans here)]
      rfl
    · rcases h with ⟨f, hf, key⟩ | empty
      · left
        rcases List.mem_cons.mp hf with rfl | hf
        · exact absurd key here
        · exact ⟨f, hf, key⟩
      · right
        intro n
        rw [slice_modSlice, if_neg fun h => here (split.symm.trans h)]
        exact empty n

theorem emptySlices_only (s : State) (p : Nat → Bool) : ∃ x, s.emptySlices p = { s with hamper := x } :=
  forEach_induction (P := fun m => ∃ x, m = { s with hamper := x }) ⟨s.hamper, rfl⟩ fun m hm e _ => by
    obtain ⟨x, rfl⟩ := hm
    exact ⟨_, rfl⟩

theorem stacksEmpty_emptySlices (hc : c < 8) : (s.emptySlices fun k => k % 8 == c).stacksEmpty c := by
  intro t _
  refine sliceEmpty_emptied _ s ?_
  by_cases listed : ∃ e ∈ s.hamper, e.1 = 8 * t + c
  · obtain ⟨e, he, key⟩ := listed
    refine .inl ⟨e, List.mem_filter.mpr ⟨he, ?_⟩, key⟩
    rw [beq_iff_eq]
    omega
  · refine .inr fun n => ?_
    rw [State.slice, Tab.get_of_absent _ fun e he key => listed ⟨e, he, key⟩]
    rfl

theorem waitingPushes_congr {t : Nat} (threads : u.threads = s.threads) (ctl : ∀ n, u.reg (R.threadCtl t n) = s.reg (R.threadCtl t n))
    (h : s.waitingPushes t c = []) : u.waitingPushes t c = [] := by
  rw [waitingPushes_nil] at h ⊢
  intro n hn ctx
  have before := h n hn ((State.fld_congr (f := F.threadCtl.ctx t n) (ctl n)).symm.trans ctx)
  simp only [State.hamperPend, State.thread, threads] at before ⊢
  exact before

theorem toNat_bumpReg_by (s : State) (k x : Nat) : ((s.bumpReg k x).reg k).toNat = min ((s.reg k).toNat + x) (2 ^ 64 - 1) := by
  rw [State.bumpReg, State.reg_setReg_same, BitVec.toNat_ofNat]
  exact Nat.mod_eq_of_lt (by omega)

/-- What a discard leaves (R147). -/
structure Discarded (s u : State) (c : Nat) : Prop where
  empty : u.stacksEmpty c
  busy : u.bit (F.hamperStatus.discardBusy c) = true
  count : (u.reg (R.hamperLeftover c)).toNat = min ((s.reg (R.hamperLeftover c)).toNat + s.hamperEntries c) (2 ^ 64 - 1)
  regs : RegsBut s u [R.hamperLeftover c, R.hamperStatus c]
  mem : SameBytes s u
  threads : u.threads = s.threads

theorem hamperDiscard_spec (hc : c < 8) : Discarded s (s.hamperDiscard c) c := by
  obtain ⟨x, only⟩ := emptySlices_only s fun k => k % 8 == c
  have empty := stacksEmpty_emptySlices (s := s) hc
  generalize hm : s.emptySlices (fun k => k % 8 == c) = m at only empty
  have row : s.hamperDiscard c = (m.bumpReg (R.hamperLeftover c) (s.hamperEntries c)).setBit (F.hamperStatus.discardBusy c) true := by rw [← hm]; rfl
  have reg : m.reg = s.reg := by rw [only]; rfl
  have ne : R.hamperStatus c ≠ R.hamperLeftover c := by unfold R.hamperStatus R.hamperLeftover; omega
  rw [row]
  refine ⟨empty, bit_setBit_true _ rfl (by show 1 ≤ 64; decide), ?_, fun k hk => ?_, sameBytes_of_mem (by rw [only]; rfl), by rw [only]; rfl⟩
  · rw [State.reg_setBit_other _ _ _ _ ne, toNat_bumpReg_by, reg]
  · simp only [List.mem_cons, List.not_mem_nil, or_false, not_or] at hk
    rw [State.reg_setBit_other _ _ _ _ (Ne.symm hk.2), ← reg]
    exact State.reg_setReg_other _ _ (Ne.symm hk.1)

/-- Where no push of the context waits, a discard is over with the emptying. -/
theorem discard_eq (hc : c < 8) (h : s.noPushWaits c) : s.discard c = s.hamperDiscard c := by
  have discarded := hamperDiscard_spec (s := s) hc
  refine forEach_id _ _ fun e he => pushAgain_idle (pushReady_none (waitingPushes_congr discarded.threads (fun n => discarded.regs _ ?_) (h e he)))
  simp only [List.mem_cons, List.not_mem_nil, or_false, R.threadCtl, R.hamperLeftover, R.hamperStatus]
  omega

end Sys2Proof.Machine
end

section
/-! SUPPORT. Granules that move behind the stacks (R137 to R145): the spill of a victim, the restore of prefetch, and the stream of a waiting `POP`. -/

namespace Sys2Proof.Machine

variable {s m u v : State} {t n c j k : Nat} {e : HEntry} {b : List Byte}

/-! ### An event of no consequence -/

/-- The registers of the error log. -/
def logRegs : List Nat := [R.logStatus, R.logDropped, R.logNextSeq]

/-- `u` is `s` with the error log and what notifies of it changed (R385, R420, R421). -/
structure Logged (s u : State) : Prop where
  only : ∃ r l o x, u = { s with regs := r, log := l, objs := o, notices := x }
  regs : RegsBut s u logRegs

theorem Logged.refl (s : State) : Logged s s := ⟨⟨s.regs, s.log, s.objs, s.notices, rfl⟩, RegsBut.refl _ _⟩

theorem Logged.setLogSlot {x : LogSlot} (h : Logged s m) : Logged s (m.setLogSlot k x) := by
  obtain ⟨⟨r, l, o, y, rfl⟩, regs⟩ := h
  exact ⟨⟨_, _, _, _, rfl⟩, regs⟩

theorem Logged.setReg {x : Word} (h : Logged s m) (hk : k ∈ logRegs) : Logged s (m.setReg k x) := by
  obtain ⟨⟨r, l, o, y, rfl⟩, regs⟩ := h
  exact ⟨⟨_, _, _, _, rfl⟩, fun i hi => (State.reg_setReg_other _ _ fun e : k = i => hi (e ▸ hk)).trans (regs i hi)⟩

theorem Logged.notify {x : LogSlot} (h : Logged s m) : Logged s (m.notify x) := by
  obtain ⟨o', l', row⟩ := State.notify_only m x
  rw [row]
  obtain ⟨⟨r, l, o, y, rfl⟩, regs⟩ := h
  exact ⟨⟨_, _, _, _, rfl⟩, regs⟩

theorem Logged.countDrop {sev : Nat} (h : Logged s m) : Logged s (m.countDrop sev) := (h.setReg (.head _)).setReg (.tail _ (.head _))

theorem Logged.openSlot {i code sev func unit data flags : Nat} (h : Logged s m) : Logged s (m.openSlot i code sev func unit data flags) :=
  (h.setLogSlot.setReg (.tail _ (.tail _ (.head _)))).notify

theorem Logged.logPlace {code sev func unit data flags : Nat} (h : Logged s m) : Logged s (m.logPlace code sev func unit data flags) := by
  fun_cases State.logPlace m code sev func unit data flags with
  | case1 => exact h.setLogSlot.notify
  | case2 => exact h.setLogSlot
  | case3 => exact h.openSlot
  | case4 => exact h.countDrop
  | case5 => exact h.countDrop
  | case6 => exact h.countDrop.openSlot

/-- An event of severity 0 has no outcome beyond the log (R418). -/
theorem logged_raise {code func unit data : Nat} : Logged s (s.raise code 0 func unit data) := (Logged.refl s).logPlace

theorem Logged.byte (h : Logged s u) (a : Nat) : u.byte a = s.byte a := by obtain ⟨⟨r, l, o, x, rfl⟩, -⟩ := h; rfl
theorem Logged.slice (h : Logged s u) (t c : Nat) : u.slice t c = s.slice t c := by obtain ⟨⟨r, l, o, x, rfl⟩, -⟩ := h; rfl

/-! ### Spilling -/

/-- The form `form` of granule `j` of an entry stands in spill slot `k`, and is counted (R141). -/
structure Spilled (s m : State) (t c : Nat) (e : HEntry) (j k : Nat) (raw : Bool) (form : List Byte) : Prop where
  bytes : m.bytes (s.slotAt c k) form.length = form
  slice : m.slice t c = (s.slice t c).place e.seq j (.slot k raw)
  others : BytesBut s m (s.slotAt c k) form.length
  count : (m.reg (R.hamperSpilled c)).toNat = min ((s.reg (R.hamperSpilled c)).toNat + 1) (2 ^ 64 - 1)

theorem hamperSpilled_not_log (c : Nat) : R.hamperSpilled c ∉ logRegs := by
  simp only [logRegs, List.mem_cons, List.not_mem_nil, or_false, R.hamperSpilled, R.logStatus, R.logDropped, R.logNextSeq]
  omega

theorem Spilled.logged {raw : Bool} {form : List Byte} (h : Spilled s m t c e j k raw form) (g : Logged m u) : Spilled s u t c e j k raw form := by
  refine ⟨?_, (g.slice t c).trans h.slice, fun a ha => (g.byte a).trans (h.others a ha), ?_⟩
  · rw [State.bytes_congr _ _ _ _ fun _ _ => g.byte _]
    exact h.bytes
  · rw [g.regs _ (hamperSpilled_not_log c)]
    exact h.count

/-- The first victim spills where its bytes can be read and its slot written. -/
theorem spillFirst_spec {g : Nat} {rest : List (HEntry × Nat × Nat)} (read : s.readData (s.granuleAt t c g) (e.partLen j) = some b)
    (range : PlainRange s (s.slotAt c k) (spillForm (s.bit (F.hamperCfg.spillRaw c)) e.fmt b).length) :
    Spilled s (s.spillFirst t c k ((e, j, g) :: rest)) t c e j k (s.bit (F.hamperCfg.spillRaw c)) (spillForm (s.bit (F.hamperCfg.spillRaw c)) e.fmt b) := by
  generalize hraw : s.bit (F.hamperCfg.spillRaw c) = raw at range ⊢
  obtain ⟨ok, stored⟩ := range.writeData
  generalize hm : s.writeData (s.slotAt c k) (spillForm raw e.fmt b) = r at ok stored
  obtain ⟨m, ok'⟩ := r
  obtain rfl : ok' = true := ok
  have moved : Spilled s ((m.modSlice t c fun h => h.place e.seq j (.slot k raw)).bumpReg (R.hamperSpilled c)) t c e j k raw (spillForm raw e.fmt b) := by
    refine ⟨?_, ?_, stored.others, ?_⟩
    · refine (State.bytes_congr _ _ _ _ fun _ _ => ?_).trans stored.bytes
      rfl
    · rw [State.slice_bumpReg, State.slice_modSlice_same, stored.slice]
    · rw [toNat_bumpReg, ← stored.reg]
      rfl
  simp only [State.spillFirst, read, hraw, hm, if_true]
  split
  · exact moved.logged logged_raise
  · exact moved

/-- One element chosen of a list that has one. -/
theorem choose_one {l : List Nat} (s : State) (ne : l ≠ []) : ∃ x f, s.choose 1 l = ([x], { s with freeCount := f }) ∧ x ∈ l := by
  have place := Nat.mod_lt s.free.1.toNat (List.length_pos_iff.mpr ne)
  refine ⟨l.getD (s.free.1.toNat % l.length) 0, s.freeCount + 1, ?_, ?_⟩
  · rw [State.choose]
    · simp only [State.choose]
      rfl
    · exact ne
  · rw [List.getD_eq_getElem _ _ place]
    exact List.getElem_mem _

/-- A spill step takes a free slot for the first victim (R137, R139, R141). -/
theorem hamperSpill_spec {g : Nat} {rest : List (HEntry × Nat × Nat)} (waits : s.waitingPushes t c ≠ []) (stuck : s.pushReady t c = none)
    (room : s.freeSpillSlots c ≠ []) (victim : s.victims t c = (e, j, g) :: rest) (read : s.readData (s.granuleAt t c g) (e.partLen j) = some b)
    (range : ∀ k ∈ s.freeSpillSlots c, PlainRange s (s.slotAt c k) (spillForm (s.bit (F.hamperCfg.spillRaw c)) e.fmt b).length) :
    ∃ m k, k ∈ s.freeSpillSlots c ∧ s.hamperSpill t c = m.pushAgain t c pushFuel
      ∧ Spilled s m t c e j k (s.bit (F.hamperCfg.spillRaw c)) (spillForm (s.bit (F.hamperCfg.spillRaw c)) e.fmt b) := by
  obtain ⟨k, f, row, free⟩ := choose_one s room
  generalize hv : ({ s with freeCount := f } : State) = v at row
  have same : v.victims t c = s.victims t c := by rw [← hv]; rfl
  have spill : s.spillGranule t c = v.spillFirst t c k ((e, j, g) :: rest) := by simp only [State.spillGranule, row, same, victim]
  have go : s.hamperSpill t c = (s.spillGranule t c).pushAgain t c pushFuel := by
    rw [State.hamperSpill, pushAgain_idle stuck]
    exact if_neg (not_or.mpr ⟨waits, room⟩)
  refine ⟨_, k, free, go.trans (by rw [spill]), ?_⟩
  have spilled := spillFirst_spec (s := v) (k := k) (rest := rest) (by rw [← hv]; exact read) (by rw [← hv]; exact (range k free).congr ⟨rfl, rfl, rfl, rfl⟩ rfl)
  rw [← hv] at spilled ⊢
  exact ⟨spilled.bytes, spilled.slice, spilled.others, spilled.count⟩

/-! ### Prefetch -/

theorem length_packElems (w : Nat) (l : List Nat) : (packElems w l).length = (l.length * w + 7) / 8 := length_leBytes _ _

/-- A spilled form restored has the bytes of the entry again, or fewer. -/
theorem length_restoreForm (raw : Bool) (fmt n : Nat) (l : List Byte) (h : l.length = spillLen raw fmt n) : (restoreForm raw fmt n l).length ≤ n := by
  unfold restoreForm spillLen at *
  split
  · next plain =>
    rw [plain] at h
    exact h.le
  · have := Nat.div_mul_le_self (8 * n) (fmtBits fmt)
    rw [length_packElems, List.length_map, upto, List.length_range]
    omega

theorem length_granuleBytesOf {g : HPlace} (h : s.granuleBytesOf t c e j g = some b) : b.length ≤ granuleBytes := by
  refine le_trans ?_ (Nat.min_le_left granuleBytes (e.len - granuleBytes * j))
  cases g with
  | slice g => exact (length_readData h).le
  | slot k raw =>
    obtain ⟨l, read, rfl⟩ := Option.map_eq_some_iff.mp h
    exact length_restoreForm _ _ _ _ (length_readData read)

/-- What a fold over a list picks is what it began with, or stands in the list. -/
theorem foldl_picks {α : Type} {f : Option α → α → Option α} {l : List α} {x : α} (hf : ∀ y a, f y a = y ∨ f y a = some a) :
    ∀ {y : Option α}, l.foldl f y = some x → y = some x ∨ x ∈ l := by
  induction l with
  | nil => exact fun h => .inl h
  | cons a l ih =>
    intro y h
    rcases ih h with h | h
    · rcases hf y a with same | new
      · exact .inl (same ▸ h)
      · obtain rfl := Option.some.inj (new.symm.trans h)
        exact .inr (.head _)
    · exact .inr (.tail _ h)

/-- Prefetch takes an entry that has a spilled granule. -/
theorem slots_of_prefetchNext (h : s.prefetchNext t c = some e) : e.slots ≠ [] := by
  have picked := foldl_picks (fun y a => by
    cases y with
    | none => exact .inr rfl
    | some x => exact (ite_eq_or_eq ..).symm) h
  simpa using List.of_mem_filter (picked.resolve_left (by simp))

theorem mem_slots : k ∈ e.slots ↔ ∃ raw, HPlace.slot k raw ∈ e.grans := by
  rw [HEntry.slots, List.mem_filterMap]
  constructor
  · rintro ⟨p, hp, hk⟩
    cases p with
    | slice g => cases hk
    | slot y raw =>
      obtain rfl := Option.some.inj hk
      exact ⟨raw, hp⟩
  · exact fun ⟨raw, hp⟩ => ⟨_, hp, rfl⟩

/-- A slot of an entry is found among its granules, with its place. -/
theorem find_slot {P : HPlace × Nat → Bool} {x : Option (HPlace × Nat)} (found : e.grans.zipIdx.find? P = x)
    (hP : ∀ y, P y = true ↔ ∃ raw, y.1 = .slot k raw) (hk : k ∈ e.slots) : ∃ j raw, x = some (.slot k raw, j) ∧ e.grans[j]? = some (.slot k raw) := by
  obtain ⟨raw, hp⟩ := mem_slots.mp hk
  obtain ⟨j, hj⟩ := List.mem_iff_getElem?.mp hp
  cases x with
  | none => exact absurd ((hP _).mpr ⟨raw, rfl⟩) (List.find?_eq_none.mp found (_, j) (List.mem_zipIdx_iff_getElem?.mpr hj))
  | some y =>
    obtain ⟨p, i⟩ := y
    obtain ⟨raw', rfl⟩ := (hP (p, i)).mp (List.find?_some found)
    exact ⟨i, raw', rfl, List.mem_zipIdx_iff_getElem?.mp (List.mem_of_find?_eq_some found)⟩

/-- A granule `g` of the slice that was free has taken spilled granule `j` of an entry (R144). -/
structure Restored (s u : State) (t c : Nat) (e : HEntry) (g j : Nat) (b : List Byte) : Prop where
  slice : u.slice t c = (s.slice t c).place e.seq j (.slice g)
  bytes : u.bytes (s.granuleAt t c g) b.length = b
  regs : RegsBut s u [R.hamperStatus c]
  others : BytesBut s u (s.granuleAt t c g) b.length

theorem restored (ht : t < 256) {g : Nat} (h : b.length ≤ granuleBytes) :
    Restored s (((s.storeHeal (s.granuleAt t c g) b).modSlice t c fun h => h.place e.seq j (.slice g)).noteHighWater t c) t c e g j b := by
  have low := granuleAt_below (s := s) (c := c) ht g
  have stored := stored_storeHeal s (p := s.granuleAt t c g) (l := b) (by omega)
  refine ⟨?_, ?_, fun i hi => (noteHighWater_regs _ t c i hi).trans (stored.reg i), stored.others⟩
  · show ((s.storeHeal (s.granuleAt t c g) b).modSlice t c fun h => h.place e.seq j (.slice g)).slice t c = _
    rw [State.slice_modSlice_same, stored.slice]
  · refine (State.bytes_congr _ _ _ _ fun _ _ => ?_).trans stored.bytes
    rfl

theorem prefetch_spec (ht : t < 256) (next : s.prefetchNext t c = some e) (room : 2 ≤ (s.freeGranules t c).length)
    (read : ∀ x ∈ e.grans.zipIdx, (s.granuleBytesOf t c e x.2 x.1).isSome = true) :
    ∃ g j k raw b, g ∈ s.freeGranules t c ∧ e.grans[j]? = some (.slot k raw) ∧ s.granuleBytesOf t c e j (.slot k raw) = some b
      ∧ Restored s (s.prefetch t c) t c e g j b := by
  obtain ⟨k, f, slot, isSlot⟩ := choose_one s (slots_of_prefetchNext next)
  generalize hv : ({ s with freeCount := f } : State) = v at slot
  obtain ⟨g, f', granule, free⟩ := choose_one v (l := s.freeGranules t c) (by rintro h; simp [h] at room)
  generalize hm : ({ v with freeCount := f' } : State) = m at granule
  have go : ¬ (s.freeGranules t c = [] ∨ ((s.freeGranules t c).length = 1 ∧ s.pushWaits t c = true)) := by
    rintro (h | ⟨h, -⟩)
    · simp [h] at room
    · omega
  have row : ∃ j raw b, e.grans[j]? = some (.slot k raw) ∧ s.granuleBytesOf t c e j (.slot k raw) = some b
      ∧ s.prefetch t c = ((m.storeHeal (m.granuleAt t c g) b).modSlice t c fun h => h.place e.seq j (.slice g)).noteHighWater t c := by
    simp only [State.prefetch, next, go, if_false, slot, granule]
    generalize found : List.find? _ e.grans.zipIdx = x
    obtain ⟨j, raw, rfl, here⟩ := find_slot found (fun y => by cases h : y.1 <;> simp [@eq_comm _ k]) isSlot
    obtain ⟨b, bytes⟩ := Option.isSome_iff_exists.mp (read (_, j) (List.mem_zipIdx_iff_getElem?.mpr here))
    have same : m.granuleBytesOf t c e j (.slot k raw) = some b := by rw [← hm, ← hv]; exact bytes
    refine ⟨j, raw, b, here, bytes, ?_⟩
    simp only [same]
  obtain ⟨j, raw, b, here, bytes, row⟩ := row
  refine ⟨g, j, k, raw, b, free, here, bytes, ?_⟩
  have done := restored (s := m) (c := c) (e := e) (g := g) (j := j) ht (length_granuleBytesOf bytes)
  rw [row]
  rw [← hm, ← hv] at done ⊢
  exact ⟨done.slice, done.bytes, done.regs, done.others⟩

/-! ### The stream of a waiting POP -/

theorem issOf_eq (s : State) (t : Nat) {n : Nat} (hn : n < 16) (p : Pend) :
    s.issOf (thrKey t n) p = { t := t, n := n, c := s.ctxOf t n, pc := p.pc, w := p.word, ixs := p.ixs } := by
  have tile : thrKey t n / 16 = t := by unfold thrKey; omega
  have thread : thrKey t n % 16 = n := by unfold thrKey; omega
  rw [State.issOf, tile, thread]
  rfl

/-- The waiting `POP` takes its entry, is done, and lets its thread's queue and the waiting pushes go on (R137, R138). -/
theorem popArrives_spec {p : Pend} {dst : Nat} {rest : List HEntry} {parts : List (List Byte)} (hn : n < 16)
    (waiting : s.hamperPend (thrKey t n) 0x39 = some (k, p)) (addr : s.hamperAop (s.issOf (thrKey t n) p) rightW = .ok dst)
    (stack : (s.slice t (s.ctxOf t n)).stack n = e :: rest) (len : e.len = dHLen p.word) (fmt : e.fmt = dHFmt p.word)
    (read : (e.grans.zipIdx.map fun g => s.granuleBytesOf t (s.ctxOf t n) e g.2 g.1) = parts.map some) (range : PlainRange s dst parts.flatten.length) :
    ∃ m, s.popArrives t n = (m.dmaTake (thrKey t n) 8).pushAgain t (s.ctxOf t n) pushFuel ∧ (m.slice t (s.ctxOf t n)).stack n = rest
      ∧ Moved s m dst parts.flatten ∧ (m.thread (thrKey t n)).pend = (s.thread (thrKey t n)).pend.set k { p with phase := .done } := by
  rw [issOf_eq s t hn] at addr
  generalize hi : ({ t := t, n := n, c := s.ctxOf t n, pc := p.pc, w := p.word, ixs := p.ixs } : Iss) = i at addr
  have entry : s.popEntry i = .ok e := popEntry_eq (by rw [← hi]; exact stack) (by rw [← hi]; exact len) (by rw [← hi]; exact fmt)
  obtain ⟨m, row, popped⟩ := popNow_spec (s := s) (i := i) (e := e) (by rw [← hi]; exact read) range
  have stream : s.popStream i = (m, .ok true) := by simp only [State.popStream, addr, entry, row]
  refine ⟨m.setPend (thrKey t n) k { p with phase := .done }, ?_, ?_, ⟨?_, popped.moved.mem, popped.moved.regs⟩, ?_⟩
  · simp only [State.popArrives, waiting, issOf_eq s t hn, hi, stream]
    rw [← hi]
    rfl
  · have top := popped.stack
    rw [← hi] at top
    exact top.trans (by rw [stack]; rfl)
  · refine (State.bytes_congr _ _ _ _ fun _ _ => ?_).trans popped.moved.bytes
    rfl
  · rw [State.setPend, State.thread_modThread_same, State.thread, popped.threads]
    rfl

/-! ### The statement -/

/-- A command is carried out with the state its operation gives. -/
theorem does_of_eq {i : Instr} {post : State → Prop} (row : exec i s = .next v) (eq : v = u) (h : post u) : Does i s post := ⟨u, eq ▸ row, h⟩

/-- Settles O22: a write of the configuration goes by whether it moves the slice and fits; a discard without waiting pushes is the emptying alone;
of the granules, the places are free values (log entry 85), and the rest follows from what the tables hold. -/
theorem hamperControlAndGranulesComplete : Obligations.HamperControlAndGranulesComplete := by
  unfold Obligations.HamperControlAndGranulesComplete
  refine ⟨fun c v s => ⟨?stored, ?refused, ?running, ?spillBase, ?discard, ?discarded⟩, fun t s => ⟨?spill, ?noSpill, ?prefetch, ?stream⟩⟩
  case stored =>
    intro heeded fits
    have row := (hamperCfgWrite_judged heeded).1 fits
    have only := setReg_only s (R.hamperCfg c) (v &&& 0x1F7F7F#64)
    exact does_of_eq rfl row ⟨State.reg_setReg_same _ _ _, only.1, only.sameBytes⟩
  case refused =>
    intro stopped fails
    have row := (hamperCfgWrite_judged (.inl stopped)).2 fails
    have only := setBit_only s (F.hamperStatus.cfgRefused c) true
    exact does_of_eq rfl row ⟨bit_setBit_true s rfl (by show 3 ≤ 64; decide), only.1, only.sameBytes⟩
  case running =>
    intro running moves
    obtain ⟨ignored, granules, base, only⟩ := hamperCfgWrite_running running moves
    exact does_of_eq rfl rfl ⟨ignored, granules, base, only.1, only.sameBytes⟩
  case spillBase =>
    refine ⟨_, rfl, ?_⟩
    dsimp only
    split
    · next fits => exact hamperSpillBaseWrite_fits fits
    · next fails => exact hamperSpillBaseWrite_refused fails
  case discard =>
    intro quiet
    have done := hamperDiscard_spec (s := s) c.isLt
    exact does_of_eq rfl (discard_eq c.isLt quiet) ⟨done.empty, done.busy, done.count, done.regs, done.mem⟩
  case discarded =>
    have idle : (s.setBit (F.hamperStatus.discardBusy c) false).bit (F.hamperStatus.discardBusy c) = false := by
      rw [State.bit_eq_fld _ _ rfl, State.setBit_eq, State.fld_setFld_same _ _ _ (by show 1 ≤ 64; decide)]
      rfl
    exact does_of_eq rfl rfl ⟨idle, setBit_only s _ _⟩
  case spill =>
    intro c e j g rest b waits stuck room victim read raw form range
    obtain ⟨m, k, free, row, spilled⟩ := hamperSpill_spec waits stuck room victim read range
    exact does_of_eq rfl row ⟨m, k, free, rfl, spilled.bytes, spilled.slice, spilled.others, spilled.count⟩
  case noSpill => exact fun c none => does_of_eq rfl (if_pos (.inl none)) rfl
  case prefetch =>
    intro c e next room read
    obtain ⟨g, j, k, raw, b, free, here, bytes, done⟩ := prefetch_spec t.isLt next room read
    exact does_of_eq rfl rfl ⟨g, j, k, raw, b, free, here, bytes, done.slice, done.bytes, done.regs, done.others⟩
  case stream =>
    intro n k p dst e rest parts c waiting addr stack len fmt read range
    obtain ⟨m, row, top, moved, pend⟩ := popArrives_spec n.isLt waiting addr stack len fmt read range
    exact does_of_eq rfl rfl ⟨m, row, top, moved, pend⟩

end Sys2Proof.Machine
end


section
/-! SUPPORT. A block too wide for the scratch of its engine: its last buffers reach into the per-stack view of Thermos, so the free values that
fill them fall on bytes of Thermos (R66, R169; log entry 114). -/

namespace Sys2Proof.Machine

variable {s u : State} {e k : Nat} {b : RootBlock}

/-! ### Bytes that a store covers -/

theorem byte_storeMem_other (l : List Byte) : ∀ (s : State) (off : Nat), (∀ j, j < l.length → memKey (off + j) ≠ k) →
    (s.storeMem off l).byte k = s.byte k := by
  induction l with
  | nil => exact fun _ _ _ => rfl
  | cons v l ih =>
    intro s off away
    have behind : ∀ j, j < l.length → memKey (off + 1 + j) ≠ k := fun j hj => by
      rw [Nat.add_assoc, Nat.add_comm 1 j]
      exact away (j + 1) (Nat.succ_lt_succ hj)
    exact (ih _ _ behind).trans (State.byte_setByte_other _ _ (away 0 (Nat.succ_pos _)))

/-- A byte under a store reads what is stored there, whatever stood in memory before. -/
theorem byte_storeMem_covered (l : List Byte) : ∀ (s u : State) (off : Nat), (∃ j, j < l.length ∧ memKey (off + j) = k) →
    (s.storeMem off l).byte k = (u.storeMem off l).byte k := by
  induction l with
  | nil => exact fun _ _ _ ⟨_, hj, _⟩ => absurd hj (Nat.not_lt_zero _)
  | cons v l ih =>
    intro s u off ⟨j, hj, key⟩
    by_cases behind : ∃ i, i < l.length ∧ memKey (off + 1 + i) = k
    · exact ih _ _ _ behind
    · have away : ∀ i, i < l.length → memKey (off + 1 + i) ≠ k := fun i hi h => behind ⟨i, hi, h⟩
      cases j with
      | succ i => exact absurd key (by rw [Nat.add_comm i 1, ← Nat.add_assoc]; exact away i (Nat.lt_of_succ_lt_succ hj))
      | zero =>
        have first (t : State) : (t.storeMem off (v :: l)).byte k = v := by
          rw [← key]
          exact (byte_storeMem_other l _ _ (key ▸ away)).trans (State.byte_setByte_same _ _ _)
        rw [first, first]

/-- A write by a unit of the module changes memory, and what it heals. -/
theorem storeMem_only (l : List Byte) : ∀ (s : State) (off : Nat), ∃ x, s.storeMem off l = { s with mem := x } := by
  induction l with
  | nil => exact fun s _ => ⟨s.mem, rfl⟩
  | cons v l ih => exact fun s off => ih (s.setByte (memKey off) v) (off + 1)

theorem storeHeal_only (s : State) (off : Nat) (l : List Byte) : ∃ x y, s.storeHeal off l = { s with mem := x, badWords := y } := by
  obtain ⟨x, stored⟩ := storeMem_only l s off
  obtain ⟨y, healed⟩ := State.healBytes_only (s.storeMem off l) off l.length
  exact ⟨x, y, by rw [State.storeHeal, healed, stored]⟩

theorem byte_storeHeal (s : State) (off : Nat) (l : List Byte) : (s.storeHeal off l).byte k = (s.storeMem off l).byte k := by
  obtain ⟨y, healed⟩ := State.healBytes_only (s.storeMem off l) off l.length
  rw [State.storeHeal, healed]
  rfl

/-! ### The scratch of a block -/

theorem length_freeList : ∀ (n : Nat) (s : State), (s.freeList n).1.length = n
  | 0, _ => rfl
  | n + 1, s => congrArg (· + 1) (length_freeList n s.free.2)

/-- Free values go by how many have been used up (log entry 4). -/
theorem freeList_congr : ∀ (n : Nat) {s u : State}, u.freeCount = s.freeCount → (u.freeList n).1 = (s.freeList n).1
  | 0, _, _, _ => rfl
  | n + 1, s, u, h => by
    have rest : (u.free.2.freeList n).1 = (s.free.2.freeList n).1 := freeList_congr n (congrArg (· + 1) h)
    show (Config.freeWord u.freeCount).extractLsb' 0 32 :: (u.free.2.freeList n).1 = (Config.freeWord s.freeCount).extractLsb' 0 32 :: (s.free.2.freeList n).1
    rw [h, rest]

theorem length_flatMap_words (l : List F32) : (l.flatMap fun x => leBytes 4 x.toNat).length = 4 * l.length := by
  simp [List.length_flatMap, Nat.mul_comm]

/-- The last two buffers of the scratch hold free values: the same bytes in states that have used up as many. -/
theorem byte_scratchResult (r r' : RootResult) (count : u.freeCount = s.freeCount)
    (covered : ∃ j, j < 8 * (b.n * b.n) ∧ memKey (scratchBuf e b.n 2 + j) = k) :
    (u.scratchResult e b r').byte k = (s.scratchResult e b r).byte k := by
  have len : ((s.freeList (2 * (b.n * b.n))).1.flatMap fun x => leBytes 4 x.toNat).length = 8 * (b.n * b.n) := by
    rw [length_flatMap_words, length_freeList]
    omega
  unfold State.scratchResult
  dsimp only
  rw [byte_storeHeal, byte_storeHeal, freeList_congr _ count]
  exact byte_storeMem_covered _ _ _ _ (len ▸ covered)

theorem threads_freeList : ∀ (n : Nat) (s : State), (s.freeList n).2.threads = s.threads
  | 0, _ => rfl
  | n + 1, s => threads_freeList n s.free.2

theorem threads_scratchResult (s : State) (e : Nat) (b : RootBlock) (r : RootResult) : (s.scratchResult e b r).threads = s.threads := by
  obtain ⟨x, y, first⟩ := storeHeal_only (s.freeList (2 * (b.n * b.n))).2 (scratchBuf e b.n 1) (matrixBytes r.rows)
  obtain ⟨x', y', second⟩ := storeHeal_only { (s.freeList (2 * (b.n * b.n))).2 with mem := x, badWords := y } (scratchBuf e b.n 2)
    ((s.freeList (2 * (b.n * b.n))).1.flatMap fun x => leBytes 4 x.toNat)
  unfold State.scratchResult
  dsimp only
  rw [first, second]
  exact threads_freeList _ s

theorem dmaWake_of_threads (h : s.threads = []) : s.dmaWake = s := by rw [State.dmaWake, h]; rfl

/-- With no thread on the module, memory behind the computation of a block is what the scratch of its engine holds. -/
theorem byte_rootCompute (cur : (s.root e).cur = some b) (fresh : b.result = none) (up : s.rootUsable e = true) (idle : s.threads = []) :
    (s.rootCompute e).byte k
      = ((s.modRoot e fun x => { x with cur := some { b with result := some (s.rootResult b) } }).scratchResult e b (s.rootResult b)).byte k := by
  have shown (t : State) (f g h : Fld) (x y z : Nat) (ht : t.threads = []) :
      (((t.setFld f x).setFld g y).setFld h z).dmaWake.byte k = t.byte k := by
    have still : (((t.setFld f x).setFld g y).setFld h z).dmaWake = ((t.setFld f x).setFld g y).setFld h z := dmaWake_of_threads ht
    rw [still]
    rfl
  unfold State.rootCompute
  simp only [cur, fresh, up, Option.isSome_none, Bool.false_eq_true, not_true_eq_false, or_self, if_false]
  exact shown _ _ _ _ _ _ _ ((threads_scratchResult _ _ _ _).trans idle)

/-! ### The result of a cold block -/

theorem length_matrixBytes_matOf (n : Nat) (f : Nat → Nat → F32) : (matrixBytes (matOf n f)).length = 4 * (n * n) := by
  have row (i : Nat) : (((upto n).map fun j => f i j).flatMap fun x => leBytes 4 x.toNat).length = 4 * n := by
    rw [length_flatMap_words, List.length_map, upto, List.length_range]
  unfold matrixBytes matOf
  rw [List.length_flatMap, List.map_map]
  simp only [Function.comp_def, row, List.map_const', List.sum_replicate, smul_eq_mul]
  rw [upto, List.length_range, Nat.mul_left_comm]

/-- A cold block on the Cholesky path gives a scaled identity, which has no rows, or a matrix of its dimension (R177, R178). -/
theorem length_rootResult_cold (cholesky : b.p = 1) (cold : b.prev = none) :
    (matrixBytes (s.rootResult b).rows).length ≤ 4 * (b.n * b.n) := by
  have scaled (t : F32) (r : RootResult) : (matrixBytes (standIn b t r).rows).length ≤ 4 * (b.n * b.n) := by
    simp [standIn, cold, matrixBytes]
  unfold State.rootResult
  dsimp only
  rw [if_pos cholesky]
  split
  · exact scaled _ _
  · split
    · exact Nat.zero_le _
    · unfold choleskyResult
      dsimp only
      split
      · exact (length_matrixBytes_matOf b.n _).le
      · exact scaled _ _

/-! ### The counterexample -/

/-- A block of dimension 2^18, on the Cholesky path and cold, as an engine has it once its inputs are there. The schedule's blocks have at most 512
indices (R161), and no copy-in begins a wider one; the statement bounds no block in progress. -/
def wideBlock : RootBlock where
  entry := { record := 0, ctx := 0, force := true, prev := 0, pend := 0, cap := 0 }
  layer := 0
  block := 0
  n := 2 ^ 18
  p := 1
  hash := 0
  step := 0
  sel := 0
  users := []
  base := 0
  factor := []

/-- Engine 0 is ready and has the wide block in progress; the first byte of Thermos holds `v`. -/
def computesWide (v : Byte) : State :=
  { State.reset.setFld F.unitReady.root 1 with roots := [(0, { cur := some wideBlock })], mem := [(0x4000000000, v)] }

theorem usable_computesWide (v : Byte) : (computesWide v).rootUsable 0 = true := by
  show (State.reset.setFld F.unitReady.root 1).rootUsable 0 = true
  decide +kernel

/-- Offset 2^40, the first of the per-stack view, lies in buffer 2 of the wide block; it is the first byte of Thermos (R66). -/
theorem covers_wideBlock : ∃ j, j < 8 * (wideBlock.n * wideBlock.n) ∧ memKey (scratchBuf 0 wideBlock.n 2 + j) = 0x4000000000 :=
  ⟨0x10000000000 - scratchBuf 0 (2 ^ 18) 2, by decide, by decide⟩

/-- The first byte of Thermos does not read as before: what it holds behind the computation does not go by what it held. -/
theorem byte_computesWide (v w : Byte) : ((computesWide v).rootCompute 0).byte 0x4000000000 = ((computesWide w).rootCompute 0).byte 0x4000000000 := by
  rw [byte_rootCompute (b := wideBlock) rfl rfl (usable_computesWide v) rfl, byte_rootCompute (b := wideBlock) rfl rfl (usable_computesWide w) rfl]
  exact byte_scratchResult _ _ rfl covers_wideBlock

/-- Refutes O24: the clause of the computation bounds no dimension. For a block of dimension 2^18 the buffers behind the result reach offset
2^40, the per-stack view, so the free values in them replace the first byte of Thermos, which the clause says reads as before. -/
theorem not_rootEngineCompletes : ¬ Obligations.RootEngineCompletes := by
  unfold Obligations.RootEngineCompletes
  rintro ⟨-, engine⟩
  have kept (v : Byte) : ((computesWide v).rootCompute 0).byte 0x4000000000 = v := by
    obtain ⟨-, compute, -⟩ := engine 0 (computesWide v) (usable_computesWide v)
    obtain ⟨-, -, -, -, -, -, others⟩ :=
      (compute wideBlock rfl rfl (State.noneQueued_of_threads rfl) rfl (length_rootResult_cold rfl rfl)).post rfl
    exact others 0x4000000000 (.inl (by decide))
  exact absurd ((kept 0).symm.trans ((byte_computesWide 0 1).trans (kept 1))) (by decide)

end Sys2Proof.Machine
end

section
/-! SUPPORT. The start of a refresh behind a commit (R180, R186). -/

namespace Sys2Proof.Machine

variable {s u : State} {c e l : Nat}

/-! ### A layer table in Thermos -/

/-- A write of the module into the interleaved view of Thermos. -/
theorem storeHeal_thermos {p : Nat} {bs : List Byte} (h : inThermos p bs.length) : Stored s (s.storeHeal p bs) p bs :=
  stored_storeHeal s (by have := h.2; omega)

/-- `STATE` of a layer's entry is the byte written to it, and only that byte is written. -/
theorem setLayerState_spec (v : Nat) (table : inThermos (s.layerAt c l) 64) :
    (s.setLayerState c l v).layerState c l = v % 256 ∧ Stored s (s.setLayerState c l v) (s.layerAt c l + 8) (leBytes 1 v) := by
  obtain ⟨lo, hi⟩ := table
  have stored : Stored s (s.setLayerState c l v) (s.layerAt c l + 8) (leBytes 1 v) :=
    storeHeal_thermos ⟨by omega, by rw [length_leBytes]; omega⟩
  obtain ⟨x, y, only⟩ := stored.only
  have place : (s.setLayerState c l v).layerAt c l = s.layerAt c l := by rw [only]; rfl
  refine ⟨?_, stored⟩
  have byte : (s.setLayerState c l v).dataByte (s.layerAt c l + 8) = BitVec.ofNat 8 v := by
    rw [State.dataByte_thermos ⟨by omega, by omega⟩]
    exact (List.cons.inj stored.bytes).1
  simp [State.layerState, State.physNat, place, upto, byte, leNat]

/-! ### The refresh of one layer -/

/-- The refresh behind the last commit is taken: it is not started again. -/
def State.refreshNoted (s : State) (c : Nat) : State := s.modCtx c fun x => { x with refreshDue := false }

/-- One idle layer: its refresh is the one started. -/
theorem refresh_one (key : Nat → Nat) (runs : s.rootsRun c = true) (due : (s.ctx c).refreshDue = true) (on : s.precondOn c = true)
    (idle : ((s.layers c).filter fun l => s.layerState c l == 0) = [l]) : s.refresh c key = (s.refreshNoted c).refreshLayer c l := by
  have layers : (s.refreshNoted c).layers c = s.layers c := rfl
  have state : (s.refreshNoted c).layerState c = s.layerState c := rfl
  unfold State.refresh
  rw [if_neg (by simp [runs, due, on])]
  dsimp only
  rw [← State.refreshNoted, layers, state, idle, List.foldr_cons, List.foldr_nil, insertLayer, forEach, List.foldl_cons, List.foldl_nil]

/-- A warm start of a layer's refresh: its state reads running, and its owned blocks are queued (R180). -/
theorem refreshLayer_warm (warm : (s.ctx c).forceCold = false) :
    s.refreshLayer c l = forEach (s.refreshBlocks c l false) (fun s e => s.rootEnqueue e.1 e.2) (s.setLayerState c l 1) := by
  unfold State.refreshLayer
  simp only [warm, Bool.false_and, Bool.false_eq_true, if_false]

/-- What one turn of F3's feeding leaves: it moves at most the first entry held back into the queue. -/
structure Fed (s u : State) (e : Nat) : Prop where
  held : (u.root e).held = (s.root e).held
  ctxs : u.ctxs = s.ctxs
  regs : RegsBut s u [R.rootQueueTail e]

theorem Fed.trans {m : State} (h : Fed s m e) (g : Fed m u e) : Fed s u e :=
  ⟨g.held.trans h.held, g.ctxs.trans h.ctxs, fun k hk => (g.regs k hk).trans (h.regs k hk)⟩

theorem fed_backlog (s : State) (e : Nat) (rest : List RootEntry) : Fed s (s.modRoot e fun r => { r with backlog := rest }) e :=
  ⟨by rw [State.root_modRoot_same], rfl, fun _ _ => rfl⟩

theorem setFld_only (s : State) (f : Fld) (v : Nat) : OnlyRegs s (s.setFld f v) [f.reg] := setReg_only s f.reg _

theorem fed_tail (s : State) (e v : Nat) : Fed s (s.setFld (F.rootQueueTail.val e) v) e := ⟨rfl, rfl, (setFld_only s _ v).1⟩

theorem fed_storeHeal (s : State) (e off : Nat) (l : List Byte) : Fed s (s.storeHeal off l) e := by
  obtain ⟨x, y, only⟩ := storeHeal_only s off l
  rw [only]
  exact ⟨rfl, rfl, fun _ _ => rfl⟩

theorem fed_rootFeed (fuel : Nat) (s : State) (e : Nat) : Fed s (s.rootFeed e fuel) e := by
  fun_induction State.rootFeed s e fuel
  case case1 | case2 | case3 => exact ⟨rfl, rfl, fun _ _ => rfl⟩
  case case4 ih => exact (((fed_backlog _ _ _).trans (fed_storeHeal _ _ _ _)).trans (fed_tail _ _ _)).trans ih

/-- A block queued for its engine is held for it (R187). -/
theorem rootEnqueue_spec (s : State) (e : Nat) (x : RootEntry) :
    ((s.rootEnqueue e x).root e).held = (s.root e).held ++ [x] ∧ (s.rootEnqueue e x).ctxs = s.ctxs ∧ RegsBut s (s.rootEnqueue e x) [R.rootQueueTail e] := by
  have fed := fed_rootFeed 1 (s.modRoot e fun r => { r with held := r.held ++ [x], backlog := r.backlog ++ [x] }) e
  exact ⟨by rw [State.rootEnqueue, fed.held, State.root_modRoot_same], fed.ctxs, fed.regs⟩

/-! ### The statement -/

/-- Settles O30: behind no commit nothing is started; else the one idle layer is, and its owned block is queued for its engine. -/
theorem refreshCompletes : Obligations.RefreshCompletes := by
  unfold Obligations.RefreshCompletes
  intro c s l running runs on
  have row : exec (.refreshStart c) s = .next (s.refresh c fun l => Config.layerStage c l / max 1 (s.fld (F.ctxCuts.ySize c))) :=
    congrArg Host.Outcome.next (if_pos running)
  refine ⟨fun notDue => does_of_eq row (if_pos (.inr (.inl (by simp [notDue])))) rfl, fun idle table warm due => ?_⟩
  have noted : (s.refreshNoted c).ctx c = { s.ctx c with refreshDue := false } := State.ctx_modCtx_same _ _ _
  obtain ⟨state, stored⟩ := setLayerState_spec (s := s.refreshNoted c) 1 table
  obtain ⟨y, z, only⟩ := stored.only
  have marked : (((s.refreshNoted c).setLayerState c l 1).ctx c).refreshDue = false := by
    rw [only]
    exact congrArg Ctx.refreshDue noted
  have started : s.refresh c (fun l => Config.layerStage c l / max 1 (s.fld (F.ctxCuts.ySize c)))
      = forEach (s.refreshBlocks c l false) (fun s e => s.rootEnqueue e.1 e.2) ((s.refreshNoted c).setLayerState c l 1) :=
    (refresh_one _ runs due on idle).trans (refreshLayer_warm (by rw [noted]; exact warm))
  refine ⟨fun unowned => ?_, fun e x one => ?_⟩
  · rw [unowned] at started
    exact does_of_eq row started ⟨state, marked, fun k _ => stored.reg k, stored.others⟩
  · rw [one] at started
    obtain ⟨held, ctxs, regs⟩ := rootEnqueue_spec ((s.refreshNoted c).setLayerState c l 1) e x
    have root : ((s.refreshNoted c).setLayerState c l 1).root e = s.root e := by rw [only]; rfl
    have same : (((s.refreshNoted c).setLayerState c l 1).rootEnqueue e x).ctx c = ((s.refreshNoted c).setLayerState c l 1).ctx c := by
      rw [State.ctx, ctxs, State.ctx]
    exact does_of_eq row started ⟨by rw [← root]; exact held, (congrArg Ctx.refreshDue same).trans marked,
      fun k hk => (regs k hk).trans (stored.reg k)⟩

end Sys2Proof.Machine
end

section
/-! SUPPORT. Management requests that arrive, sessions and transfers that close, and the notifications that leave (R363 to R374, R385). -/

namespace Sys2Proof.Machine

variable {s u : State} {q : Request}

/-! ### Counters of the dictionary -/

theorem obj_countObj (s : State) (k : Nat) : (s.countObj k).obj k = min (s.obj k + 1) (2 ^ 64 - 1) := State.obj_setObj_same _ _ _

theorem obj_countObj_other {j k : Nat} (h : j ≠ k) : (s.countObj j).obj k = s.obj k := by rw [State.countObj, State.obj_setObj, if_neg h]

theorem regsBut_of_regs {ks : List Nat} (h : u.regs = s.regs) : RegsBut s u ks := fun k _ => by rw [State.reg, h, State.reg]

theorem countObj_same (s : State) (k : Nat) : let u := s.countObj k
    u.ronbin = s.ronbin ∧ u.out = s.out ∧ u.regs = s.regs ∧ u.mem = s.mem := ⟨rfl, rfl, rfl, rfl⟩

/-- A frame that leaves is counted; registers and memory stay. -/
theorem sendDop_spec (s : State) (mac : Nat) (p : List Byte) : let u := s.sendDop mac p
    u.ronbin = s.ronbin ∧ u.notices = s.notices ∧ u.out = s.out ++ [.dop mac Config.mgmtMac.toNat (padded p)]
    ∧ (∀ k, k ≠ O.dopTxFrames → u.obj k = s.obj k) ∧ u.regs = s.regs ∧ u.mem = s.mem :=
  ⟨rfl, rfl, rfl, fun _ h => obj_countObj_other h.symm, rfl, rfl⟩

/-! ### A request that arrives (R364, R365, R368) -/

/-- The request at hand is the only one that waits. -/
def State.only (s : State) (q : Request) : State := s.modRonbin fun r => { r with requests := [q] }

theorem fld_only (s : State) (q : Request) (f : Fld) : (s.only q).fld f = s.fld f := rfl

theorem modRonbin_modRonbin (s : State) (f g : Ronbin → Ronbin) : (s.modRonbin f).modRonbin g = s.modRonbin fun r => g (f r) := rfl

/-- A segmented operation sent to all, which is discarded (R365). -/
def Request.segmentedToAll (q : Request) : Prop := pduDst q.pdu = 0xFF ∧ 5 ≤ pduOp q.pdu ∧ pduOp q.pdu ≤ 7

theorem addRequest_first (first : s.ronbin.requests = []) (q : Request) : s.addRequest q = (s.only q).settleRequests 1 := by
  unfold State.addRequest State.settle
  have one : s.modRonbin (fun r => { r with requests := r.requests ++ [q] }) = s.only q := by simp [State.only, State.modRonbin, first]
  rw [one]
  rfl

theorem op_of_headerGood (good : q.headerGood = true) : pduOp q.pdu ≤ 9 := by
  simp only [Request.headerGood, Bool.and_eq_true, decide_eq_true_eq] at good
  obtain ⟨⟨⟨⟨-, op⟩, -⟩, -⟩, -⟩ := good
  exact op

theorem settle_down (down : s.ronbinUp = false) : (s.only q).settleRequests 1 = s.only q := by
  have down' : (s.only q).ronbinUp = false := down
  have requests : (s.only q).ronbin.requests = [q] := rfl
  rw [State.settleRequests]
  simp only [requests, down', Bool.false_eq_true, not_false_eq_true, if_true]

/-- What becomes of a good request on its own: one whose response is kept is answered from the record, another waits (R369). -/
theorem settle_good (up : s.ronbinUp = true) (good : q.headerGood = true) (one : q.slot.isNone = true → ¬ q.segmentedToAll) :
    (s.only q).settleRequests 1
      = (s.kept q).elim (s.only q) fun e => (((s.only q).popRequest.sessionFor q).2.countObj O.dopDuplicates).sendResponse q e.2 := by
  have op := op_of_headerGood good
  have up' : (s.only q).ronbinUp = true := up
  have requests : (s.only q).ronbin.requests = [q] := rfl
  have response : ¬ (q.slot.isNone = true ∧ 128 ≤ pduOp q.pdu) := by omega
  have whole : ¬ (q.slot.isNone = true ∧ pduDst q.pdu = 0xFF ∧ 5 ≤ pduOp q.pdu ∧ pduOp q.pdu ≤ 7) := fun h => one h.1 h.2
  have kept : (s.only q).kept q = s.kept q := rfl
  rw [State.settleRequests]
  simp only [requests, up', good, response, whole, kept, not_true_eq_false, if_false]
  cases s.kept q with
  | none => rfl
  | some e => rfl

theorem addRequest_waits (first : s.ronbin.requests = []) (good : q.headerGood = true) (one : q.slot.isNone = true → ¬ q.segmentedToAll)
    (new : s.kept q = none) : s.addRequest q = s.only q := by
  rw [addRequest_first first]
  cases up : s.ronbinUp with
  | false => exact settle_down up
  | true => rw [settle_good up good one, new, Option.elim_none]

/-! ### Frames (R363, R369) -/

theorem dopReceive_bad {dst src : BitVec 48} {frame : DopFrame} (up : s.ronbinUp = true) (here : dst = Config.mgmtMac ∨ dst = dopGroup)
    (bad : frame.tagged = true ∨ frame.pdu.length < 8) : s.dopReceive dst src frame = s.countObj O.dopRxErrors := by
  unfold State.dopReceive
  rw [if_neg (by simp [up, here])]
  obtain tagged | short := bad
  · rw [if_pos tagged]
  · rw [if_pos short, ite_self]

theorem dopReceive_good {dst src : BitVec 48} {frame : DopFrame} (up : s.ronbinUp = true) (here : dst = Config.mgmtMac ∨ dst = dopGroup)
    (untagged : frame.tagged = false) (long : 8 ≤ frame.pdu.length) (node : pduDst frame.pdu = s.nodeId ∨ pduDst frame.pdu = 0xFF)
    (first : s.ronbin.requests = []) : s.dopReceive dst src frame = s.addRequest { slot := none, mac := src.toNat, pdu := frame.pdu } := by
  unfold State.dopReceive
  rw [if_neg (by simp [up, here]), if_neg (by simp [untagged]), if_neg (by omega), if_neg (not_not.mpr node), if_neg (by simp [first])]

theorem dopSession_of_kept {e : Nat × List Byte} (frame : q.slot = none) (kept : s.kept q = some e) : s.dopSession q.mac = some e.1 := by
  unfold State.kept at kept
  rw [frame] at kept
  cases found : s.dopSession q.mac with
  | none => simp [found] at kept
  | some n =>
    simp only [found, Option.map_eq_some_iff] at kept
    obtain ⟨_, -, rfl⟩ := kept
    rfl

/-- The session of a duplicate is open: taking it changes nothing but what the Ronbin block holds. -/
theorem sessionFor_open {n : Nat} (frame : q.slot = none) (found : s.dopSession q.mac = some n) :
    ∃ r, (s.sessionFor q).2 = s.modRonbin (fun _ => r) ∧ r.requests = s.ronbin.requests := by
  have found' : (s.modRonbin fun r => { r with clock := r.clock + 1 }).dopSession q.mac = some n := found
  unfold State.sessionFor
  simp only [frame, found']
  exact ⟨_, rfl, rfl⟩

/-- A duplicate is answered with the kept response, and counted (R369). -/
theorem addRequest_duplicate {e : Nat × List Byte} (up : s.ronbinUp = true) (first : s.ronbin.requests = []) (good : q.headerGood = true)
    (frame : q.slot = none) (one : ¬ q.segmentedToAll) (kept : s.kept q = some e) : let u := s.addRequest q
    u.ronbin.requests = [] ∧ u.out = s.out ++ [.dop q.mac Config.mgmtMac.toNat (padded e.2)]
    ∧ u.obj O.dopDuplicates = min (s.obj O.dopDuplicates + 1) (2 ^ 64 - 1) ∧ RegsBut s u [] ∧ SameBytes s u := by
  intro u
  obtain ⟨r, taken, served⟩ := sessionFor_open (s := (s.only q).popRequest) frame (dopSession_of_kept frame kept)
  have used : ((s.only q).popRequest.sessionFor q).2 = s.modRonbin fun _ => r := by
    rw [taken, State.popRequest, State.only, modRonbin_modRonbin, modRonbin_modRonbin]
  have eq : s.addRequest q = ((s.modRonbin fun _ => r).countObj O.dopDuplicates).sendDop q.mac e.2 := by
    rw [addRequest_first first, settle_good up good (fun _ => one), kept, Option.elim_some, State.sendResponse, frame, used]
  have counted : ((s.modRonbin fun _ => r).countObj O.dopDuplicates).obj O.dopDuplicates = min (s.obj O.dopDuplicates + 1) (2 ^ 64 - 1) :=
    obj_countObj _ _
  obtain ⟨ronbin, out, regs, mem⟩ := countObj_same (s.modRonbin fun _ => r) O.dopDuplicates
  obtain ⟨ronbin', -, out', objs, regs', mem'⟩ := sendDop_spec ((s.modRonbin fun _ => r).countObj O.dopDuplicates) q.mac e.2
  rw [show u = _ from eq]
  exact ⟨(congrArg Ronbin.requests (ronbin'.trans ronbin)).trans served, by rw [out', out]; rfl, (objs _ (by decide)).trans counted,
    regsBut_of_regs (regs'.trans regs), sameBytes_of_mem (mem'.trans mem)⟩

/-! ### The mailbox (R372) -/

theorem mbxGo_busy (k : Fin 2) (busy : s.fld (F.mbxStatus.state k) = 1) : s.mbxGo k = s.setBit (F.mbxStatus.goIgnored k) true := if_pos busy

theorem mbxGo_length (k : Fin 2) (idle : s.fld (F.mbxStatus.state k) ≠ 1) (bad : s.fld (F.mbxReqLen.val k) < 8 ∨ 1500 < s.fld (F.mbxReqLen.val k)) :
    s.mbxGo k = s.setFld (F.mbxStatus.state k) 3 := (if_neg idle).trans (if_pos bad)

theorem mbxGo_request (k : Fin 2) (idle : s.fld (F.mbxStatus.state k) ≠ 1) (good : ¬ (s.fld (F.mbxReqLen.val k) < 8 ∨ 1500 < s.fld (F.mbxReqLen.val k))) :
    s.mbxGo k = (s.setFld (F.mbxStatus.state k) 1).addRequest { slot := some k, pdu := s.bytes (mbxReq k) (s.fld (F.mbxReqLen.val k)) } :=
  (if_neg idle).trans (if_neg good)

/-- A good request in a free mailbox slot, with none before it, waits: the Ronbin block keeps no response to a mailbox request (R369, R372). -/
theorem mbxGo_waits (k : Fin 2) (idle : s.fld (F.mbxStatus.state k) ≠ 1) (length : ¬ (s.fld (F.mbxReqLen.val k) < 8 ∨ 1500 < s.fld (F.mbxReqLen.val k)))
    (first : s.ronbin.requests = []) (slot : q.slot = some k) (pdu : q.pdu = s.bytes (mbxReq k) (s.fld (F.mbxReqLen.val k))) (mac : q.mac = 0)
    (good : q.headerGood = true) : s.mbxGo k = (s.setFld (F.mbxStatus.state k) 1).only q := by
  have request : q = { slot := some k, pdu := s.bytes (mbxReq k) (s.fld (F.mbxReqLen.val k)) } := by
    rw [← slot, ← pdu]
    cases q
    cases mac
    rfl
  have new : (s.setFld (F.mbxStatus.state k) 1).kept q = none := by rw [State.kept, slot]
  rw [mbxGo_request k idle length, ← request]
  exact addRequest_waits (by rw [State.setFld_ronbin]; exact first) good (by simp [slot]) new

/-! ### Sessions and their transfers (R370, R373) -/

theorem session_modSession_other {j n : Nat} (f : Session → Session) (h : j ≠ n) : (s.modSession n f).session j = s.session j :=
  Tab.get_put_other _ _ _ (Ne.symm h)

/-- Closing a transfer leaves the rest of the module as it is. -/
theorem closeTransfer_spec (s : State) (n : Nat) : let u := s.closeTransfer n
    (u.session n).transfer = none ∧ (∀ j, j ≠ n → u.session j = s.session j) ∧ RegsBut s u [] ∧ SameBytes s u :=
  ⟨congrArg Session.transfer (State.session_modSession_same _ _ _), fun _ h => session_modSession_other _ h, fun _ _ => rfl, fun _ => rfl⟩

theorem closeSession_spec (s : State) (n : Nat) : let u := s.closeSession n
    u.session n = {} ∧ (∀ j, j ≠ n → u.session j = s.session j) ∧ RegsBut s u [] ∧ SameBytes s u :=
  have eq : s.closeSession n = s.modSession n fun _ => {} := rfl
  ⟨eq ▸ State.session_modSession_same _ _ _, fun _ h => eq ▸ session_modSession_other _ h, fun _ _ => rfl, fun _ => rfl⟩

/-! ### Notifications (R385) -/

/-- The oldest notification is taken, with the free value for its `DST_NODE` and its `TID`. -/
def State.noticeTaken (s : State) (rest : List Notice) : State :=
  { s with notices := rest, freeCount := s.freeCount + 1, ronbin := { s.ronbin with eventTid := (s.ronbin.eventTid + 1) % 2 ^ 16 } }

/-- The PDU of a notification. -/
def State.noticePdu (s : State) (e : Notice) : List Byte :=
  pduOf 0x0A s.ronbin.eventTid s.nodeId (Config.freeWord s.freeCount).toNat (leBytes 4 e.seq ++ leBytes 4 0 ++ e.entry.entry)

theorem sendNotice_eq {e : Notice} {rest : List Notice} (oldest : s.notices = e :: rest) (up : s.ronbinUp = true) (wanted : s.obj O.evtSubMac ≠ 0) :
    s.sendNotice = (s.noticeTaken rest).sendDop (s.obj O.evtSubMac) (s.noticePdu e) := by
  have wanted' : ({ s with notices := rest } : State).obj O.evtSubMac ≠ 0 := wanted
  unfold State.sendNotice
  rw [oldest]
  simp only [up, not_true_eq_false, if_false, if_neg wanted']
  rfl

/-! ### Access levels (R374) -/

theorem levelWrite_grants {n v : Nat} (may : v = 0 ∨ (v = 1 ∧ s.strap 6 = true)) :
    (s.levelWrite n v).1 = s.modSession n fun x => { x with level := v } := by
  have low : ¬ 1 < v := by omega
  have strapped : ¬ (v = 1 ∧ ¬ s.strap 6 = true) := by
    rintro ⟨rfl, no⟩
    simp [no] at may
  unfold State.levelWrite
  rw [if_neg low, if_neg strapped]

theorem levelWrite_refuses {n v : Nat} (not : 1 < v ∨ (v = 1 ∧ s.strap 6 = false)) : (s.levelWrite n v).1 = s := by
  unfold State.levelWrite
  obtain high | ⟨rfl, no⟩ := not
  · rw [if_pos high]
  · rw [if_neg (by omega), if_pos ⟨rfl, by simp [no]⟩]

end Sys2Proof.Machine
end

section
/-! SUPPORT. Single objects that take values (R188, R376 to R378, R382), and the statement about management events. -/

namespace Sys2Proof.Machine

variable {s u : State} {k v : Nat}

/-! ### The rows of `ROOT_FORCE_COLD` and `ROOT_PRECOND_EN` (R188) -/

def forceColdRow : ObjDef := { base := 0x400030, dims := [(8, 1)], type := .bool, access := .wo, cls := .b, dflt := 0, range := .nat 1 1 }
def precondEnRow : ObjDef := { base := 0x280010, dims := [(8, 1)], type := .bool, access := .rw, cls := .b, dflt := 1, range := .nat 0 1 }

theorem objDefOf_rootForceCold : ∀ c : Fin 8, objDefOf (O.rootForceCold c) = some forceColdRow := by decide +kernel
theorem objDefOf_rootPrecondEn : ∀ c : Fin 8, objDefOf (O.rootPrecondEn c) = some precondEnRow := by decide +kernel
theorem objField_rootPrecondEn : ∀ c : Fin 8, objField precondEnRow (O.rootPrecondEn c) = none := by decide +kernel

theorem objIdx_forceColdRow (c : Nat) : (objIdx forceColdRow (O.rootForceCold c)).1 = c := by
  show (0x400030 + c - 0x400030) / 1 = c
  omega

theorem objIdx_precondEnRow (c : Nat) : (objIdx precondEnRow (O.rootPrecondEn c)).1 = c := by
  show (0x280010 + c - 0x280010) / 1 = c
  omega

/-- No condition beside the range column holds a class B object of the root engines back. -/
theorem rangeMore_root (i v : Nat) : s.rangeMore forceColdRow i v = true ∧ s.rangeMore precondEnRow i v = true := ⟨rfl, rfl⟩
theorem objBusy_root (i v : Nat) : s.objBusy forceColdRow i v = false ∧ s.objBusy precondEnRow i v = false := ⟨rfl, rfl⟩

/-! ### Class B objects (R376) -/

theorem objEnter_running {d : ObjDef} {i : Nat} (b : d.cls = .b) (idx : (objIdx d k).1 = i) (running : (s.ctx i).running = true) (sn : Nat) (env : Around) :
    (s.objEnter sn k d v env).1 = s.modCtx i fun x => { x with held := putWaiting x.held k v } := by
  unfold State.objEnter
  rw [idx, if_pos ⟨b, running⟩]

theorem objEnter_stopped {d : ObjDef} {i : Nat} (b : d.cls = .b) (idx : (objIdx d k).1 = i) (stopped : (s.ctx i).running = false) (sn : Nat) (env : Around) :
    s.objEnter sn k d v env = (s.modCtx i fun x => { x with held := Tab.erase x.held k }).objApply sn k d v env := by
  have unheld : s.objUnhold k d = s.modCtx i fun x => { x with held := Tab.erase x.held k } := by rw [State.objUnhold, if_pos b, idx]
  unfold State.objEnter
  rw [if_neg (by simp [idx, stopped]), if_neg (by simp [b]), unheld]

/-- Outside the chapters with checks of their own a class B object takes its value as at a boundary. -/
theorem objApply_classB {d : ObjDef} {i : Nat} (b : d.cls = .b) (idx : (objIdx d k).1 = i) (own : k ≠ O.accessLevel ∧ k ≠ O.configEpoch)
    (chapter : d.base / 2 ^ 16 ∉ [0x80, 0x24, 0x25, 0x38, 0x3A]) (sn : Nat) (env : Around) : s.objApply sn k d v env = (s.applyB i k v, 0) := by
  simp only [List.mem_cons, List.not_mem_nil, or_false, not_or] at chapter
  obtain ⟨image, torus⟩ := chapter
  unfold State.objApply
  dsimp only
  rw [if_neg own.1, if_neg own.2, if_neg image, if_neg (by tauto), if_pos b, idx]

theorem applyB_rootForceCold (c : Nat) : s.applyB c (O.rootForceCold c) v = s.modCtx c fun x => { x with forceCold := true, coldTaken := [] } := if_pos rfl

theorem layersCold_spec (s : State) (c : Nat) : (s.layersCold c).regs = s.regs ∧ (s.layersCold c).objs = s.objs := by
  unfold State.layersCold
  dsimp only
  split
  · exact ⟨rfl, rfl⟩
  · refine forEach_induction (P := fun m => m.regs = s.regs ∧ m.objs = s.objs) ⟨rfl, rfl⟩ fun m same l _ => ?_
    split
    · exact same
    · exact same

/-- `ROOT_PRECOND_EN` in force: set again, it puts every layer in `USE` 2, which is a byte of memory (R188). -/
theorem applyB_rootPrecondEn (c : Nat) : (s.applyB c (O.rootPrecondEn c) v).obj (O.rootPrecondEn c) = v
    ∧ (s.applyB c (O.rootPrecondEn c) v).regs = s.regs := by
  have cold : O.rootPrecondEn c ≠ O.rootForceCold c := by unfold O.rootPrecondEn O.rootForceCold; omega
  have base : O.rootPrecondEn c ≠ O.schedBaseNs c := by unfold O.rootPrecondEn O.schedBaseNs; omega
  have flit : O.rootPrecondEn c ≠ O.schedPerFlitPs c := by unfold O.rootPrecondEn O.schedPerFlitPs; omega
  have prefetch : O.rootPrecondEn c ≠ O.hamperPrefetch c := by unfold O.rootPrecondEn O.hamperPrefetch; omega
  have spill : O.rootPrecondEn c ≠ O.hamperSpillRaw c := by unfold O.rootPrecondEn O.hamperSpillRaw; omega
  have set : (s.setObj (O.rootPrecondEn c) v).obj (O.rootPrecondEn c) = v := State.obj_setObj_same _ _ _
  unfold State.applyB
  dsimp only
  rw [if_neg cold, if_neg base, if_neg flit, if_neg prefetch, if_neg spill]
  split
  · obtain ⟨regs, objs⟩ := layersCold_spec (s.setObj (O.rootPrecondEn c) v) c
    exact ⟨by rw [State.obj, objs]; exact set, regs⟩
  · exact ⟨set, rfl⟩

/-! ### The two objects set by the management of the module -/

theorem objSet_rootForceCold (c : Fin 8) : s.objSet 0 (O.rootForceCold c) 1 = (s.objEnter 0 (O.rootForceCold c) forceColdRow 1 {}).1 := by
  rw [State.objSet, objDefOf_rootForceCold c]
  dsimp only
  rw [State.objPut, if_neg (by rintro ⟨rw, -⟩; cases rw), if_neg (by rw [(rangeMore_root _ _).1]; decide), if_neg (by rintro ⟨rw, -⟩; cases rw),
    State.objTake, (objBusy_root _ _).1, if_neg Bool.false_ne_true]

/-- It is none of the values the Ronbin block computes. -/
theorem objOwn_rootPrecondEn (c : Fin 8) (sn : Nat) : s.objOwn sn (O.rootPrecondEn c) precondEnRow = s.obj (O.rootPrecondEn c) := by
  have apart : ∀ j, j < 0x280010 ∨ 0x280018 ≤ j → O.rootPrecondEn c ≠ j := fun j h => by unfold O.rootPrecondEn; omega
  dsimp only [State.objOwn]
  iterate 11 rw [if_neg (apart _ (by decide))]
  iterate 6 rw [if_neg (by decide)]
  iterate 12 rw [if_neg (apart _ (by decide))]

/-- No value waits for `ROOT_PRECOND_EN`: the one in force is the object's own. -/
theorem objForce_rootPrecondEn (c : Fin 8) (sn : Nat) (undeferred : s.ronbin.deferred = []) :
    s.objForce sn (O.rootPrecondEn c) precondEnRow = s.obj (O.rootPrecondEn c) := by
  have stored : s.objStored (O.rootPrecondEn c) = none := by rw [State.objStored, undeferred]; rfl
  have shown : s.objShown sn (O.rootPrecondEn c) precondEnRow = s.objVal sn (O.rootPrecondEn c) precondEnRow := if_neg (by decide)
  rw [State.objForce, stored, Option.getD_none, shown, State.objVal, objField_rootPrecondEn c]
  exact objOwn_rootPrecondEn c sn

theorem objSet_rootPrecondEn (c : Fin 8) (on : Bool) (ready : (s.reg R.funcReady).getLsbD 8 = true) (undeferred : s.ronbin.deferred = [])
    (other : s.obj (O.rootPrecondEn c) ≠ boolNat on) :
    s.objSet 0 (O.rootPrecondEn c) (boolNat on) = (s.objEnter 0 (O.rootPrecondEn c) precondEnRow (boolNat on) {}).1 := by
  have fits : rangeHolds precondEnRow (boolNat on) = true := by cases on <;> rfl
  have func : ∀ c : Fin 8, objFunc (O.rootPrecondEn c / 256) = 8 := by decide
  have up : s.funcUp (objFunc (O.rootPrecondEn c / 256)) = true := by rw [func c]; exact ready
  rw [State.objSet, objDefOf_rootPrecondEn c]
  dsimp only
  rw [State.objPut, if_neg (by rw [objForce_rootPrecondEn c 0 undeferred]; exact fun h => other h.2.2), if_neg (by rw [(rangeMore_root _ _).2, fits]; decide),
    if_neg (fun h => h.2 up), State.objTake, (objBusy_root _ _).2, if_neg Bool.false_ne_true]

/-! ### Recovery mode (R478) -/

theorem inDict_refused {k : Nat} {t : State} (recovery : s.ronbin.recovery = true) (index : recoveryIndex (k / 256) = false) : s.inDict k t = s := by
  unfold State.inDict State.dictServes
  rw [recovery, index]
  rfl

theorem inDict_served {k : Nat} {t : State} (normal : s.ronbin.recovery = false) : s.inDict k t = t := by
  unfold State.inDict State.dictServes
  rw [normal]
  rfl

theorem mem_putWaiting (l : Tab Nat) (k v : Nat) : (k, v) ∈ putWaiting l k v := (Tab.mem_keys_insert _ _ _ _).mpr (.inl rfl)

/-! ### The commands -/

/-- A single stored value of the function is written as a request's would be (R378). -/
theorem applyDeferred_one {f : Nat} {d : ObjDef} (stored : s.ronbin.deferred = [(k, v)]) (func : objFunc (k / 256) = f) (row : objDefOf k = some d) :
    s.applyDeferred f = (({ s with ronbin := { s.ronbin with deferred := [] } } : State).objEnter 0 k d v {}).1 := by
  unfold State.applyDeferred
  simp only [stored, func, State.modRonbin, List.filter_cons, beq_self_eq_true, bne_self_eq_false, if_true, Bool.false_eq_true, if_false,
    List.filter_nil, forEach, List.foldl_cons, List.foldl_nil, row]

/-- A forced cold start of a stopped context is taken at once; no earlier one waits for its boundary (R188). -/
theorem rootForceCold_stopped (c : Fin 8) (normal : s.ronbin.recovery = false) (stopped : (s.ctx c).running = false) :
    s.inDict (O.rootForceCold c) (s.objSet 0 (O.rootForceCold c) 1)
      = (s.modCtx c fun x => { x with held := Tab.erase x.held (O.rootForceCold c) }).modCtx c fun x => { x with forceCold := true, coldTaken := [] } := by
  have own : ∀ c : Fin 8, O.rootForceCold c ≠ O.accessLevel ∧ O.rootForceCold c ≠ O.configEpoch := by decide
  rw [inDict_served normal, objSet_rootForceCold, objEnter_stopped rfl (objIdx_forceColdRow c) stopped,
    objApply_classB rfl (objIdx_forceColdRow c) (own c) (by decide), applyB_rootForceCold]

theorem rootPrecondEn_stopped (c : Fin 8) (on : Bool) (normal : s.ronbin.recovery = false) (stopped : (s.ctx c).running = false)
    (ready : (s.reg R.funcReady).getLsbD 8 = true) (undeferred : s.ronbin.deferred = []) (other : s.obj (O.rootPrecondEn c) ≠ boolNat on) :
    s.inDict (O.rootPrecondEn c) (s.objSet 0 (O.rootPrecondEn c) (boolNat on))
      = (s.modCtx c fun x => { x with held := Tab.erase x.held (O.rootPrecondEn c) }).applyB c (O.rootPrecondEn c) (boolNat on) := by
  have own : ∀ c : Fin 8, O.rootPrecondEn c ≠ O.accessLevel ∧ O.rootPrecondEn c ≠ O.configEpoch := by decide
  rw [inDict_served normal, objSet_rootPrecondEn c on ready undeferred other, objEnter_stopped rfl (objIdx_precondEnRow c) stopped,
    objApply_classB rfl (objIdx_precondEnRow c) (own c) (by decide)]

/-! ### The statement -/

/-- Settles O49: a request is looked at where it arrives, and each other event is the one operation its row names. -/
theorem managementEventsComplete : Obligations.ManagementEventsComplete := by
  unfold Obligations.ManagementEventsComplete
  intro s
  refine ⟨fun dst src frame up here => ⟨?discarded, fun untagged long node first good => ⟨?waits, ?duplicate⟩⟩, fun k => ⟨?busy, ?length, ?request, ?abort⟩,
    ?transfer, ?session, ?notice, fun n v may => ⟨?level, ?refused⟩, fun v normal => ⟨?epoch, ?sameEpoch⟩, ?deferred, ?recovery,
    fun c normal => ⟨?coldStopped, ?coldRunning, fun v ready undeferred unheld other => ⟨?precondStopped, ?precondRunning⟩⟩⟩
  case discarded =>
    intro bad
    obtain ⟨-, out, regs, mem⟩ := countObj_same s O.dopRxErrors
    exact does_of_eq rfl (dopReceive_bad up here bad) ⟨obj_countObj _ _, regsBut_of_regs regs, sameBytes_of_mem mem, out⟩
  case waits =>
    intro new one
    exact does_of_eq rfl ((dopReceive_good up here untagged long node first).trans (addRequest_waits first good (fun _ => one) new)) rfl
  case duplicate =>
    intro n p kept one
    exact does_of_eq rfl (dopReceive_good up here untagged long node first) (addRequest_duplicate up first good rfl one kept)
  case busy =>
    intro busy
    exact does_of_eq rfl (mbxGo_busy k busy) ⟨bit_setBit_true s rfl (by show 3 ≤ 64; decide), setBit_only s _ _⟩
  case length =>
    intro idle bad
    exact does_of_eq rfl (mbxGo_length k idle bad) ⟨State.fld_setFld_same _ _ _ (by show 2 ≤ 64; decide), setFld_only s _ _⟩
  case request =>
    intro idle least most first good
    have state := State.fld_setFld_same s (F.mbxStatus.state k) 1 (by show 2 ≤ 64; decide)
    have marked := setFld_only s (F.mbxStatus.state k) 1
    exact does_of_eq rfl (mbxGo_waits k idle (by omega) first rfl rfl rfl good) ⟨(fld_only _ _ _).trans state, rfl, marked.1, marked.sameBytes⟩
  case abort => exact does_of_eq rfl rfl (closeTransfer_spec s k)
  case transfer => exact fun n => does_of_eq rfl rfl (closeTransfer_spec s n)
  case session => exact fun n => does_of_eq rfl rfl (closeSession_spec s (n + 2))
  case notice =>
    intro e rest oldest up wanted
    obtain ⟨-, notices, out, -, regs, mem⟩ := sendDop_spec (s.noticeTaken rest) (s.obj O.evtSubMac) (s.noticePdu e)
    exact does_of_eq rfl (sendNotice_eq oldest up wanted) ⟨notices, ⟨_, out⟩, regsBut_of_regs regs, sameBytes_of_mem mem⟩
  case level =>
    intro grants
    refine does_of_eq (congrArg Host.Outcome.next (if_pos may)) (levelWrite_grants grants) ⟨?_, fun _ _ => rfl, fun _ => rfl⟩
    exact congrArg Session.level (State.session_modSession_same _ _ _)
  case refused => exact fun not => does_of_eq (congrArg Host.Outcome.next (if_pos may)) (levelWrite_refuses not) rfl
  case epoch =>
    intro other
    have written : s.inDict O.configEpoch (s.epochWrite v.toNat) = (s.setObj O.configEpoch v.toNat).setObj O.configStale 0 :=
      (inDict_served normal).trans (if_neg other)
    refine does_of_eq rfl written ⟨?_, State.obj_setObj_same _ _ _, fun _ _ => rfl, fun _ => rfl⟩
    rw [State.obj_setObj, if_neg (by decide)]
    exact State.obj_setObj_same _ _ _
  case sameEpoch => exact fun same => does_of_eq rfl ((inDict_served normal).trans (if_pos same)) rfl
  case deferred =>
    intro f k v d stored func row
    exact does_of_eq rfl (applyDeferred_one stored func row) rfl
  case recovery =>
    intro c recovery
    have cold : ∀ c : Fin 8, recoveryIndex (O.rootForceCold c / 256) = false := by decide
    have precond : ∀ c : Fin 8, recoveryIndex (O.rootPrecondEn c / 256) = false := by decide
    exact ⟨does_of_eq rfl (inDict_refused recovery (cold c)) rfl, fun v => does_of_eq rfl (inDict_refused recovery (by decide)) rfl,
      fun v => does_of_eq rfl (inDict_refused recovery (precond c)) rfl⟩
  case coldStopped =>
    intro stopped
    exact does_of_eq rfl (rootForceCold_stopped c normal stopped) ⟨by rw [State.ctx_modCtx_same], by rw [State.ctx_modCtx_same], fun _ _ => rfl, fun _ => rfl⟩
  case coldRunning =>
    intro running
    have held := ((inDict_served (k := O.rootForceCold c) normal).trans (objSet_rootForceCold c)).trans (objEnter_running rfl (objIdx_forceColdRow c) running 0 {})
    exact does_of_eq rfl held ⟨by rw [State.ctx_modCtx_same]; exact mem_putWaiting _ _ _, fun _ _ => rfl, fun _ => rfl⟩
  case precondStopped =>
    intro stopped
    obtain ⟨value, regs⟩ := applyB_rootPrecondEn (s := s.modCtx c fun x => { x with held := Tab.erase x.held (O.rootPrecondEn c) }) (v := boolNat v) c
    exact does_of_eq rfl (rootPrecondEn_stopped c v normal stopped ready undeferred other) ⟨value, regsBut_of_regs regs⟩
  case precondRunning =>
    intro running
    have held := ((inDict_served (k := O.rootPrecondEn c) normal).trans (objSet_rootPrecondEn c v ready undeferred other)).trans (objEnter_running rfl (objIdx_precondEnRow c) running 0 {})
    exact does_of_eq rfl held ⟨by rw [State.ctx_modCtx_same]; exact mem_putWaiting _ _ _, fun _ _ => rfl, fun _ => rfl⟩

end Sys2Proof.Machine
end

section
/-! SUPPORT. The update of one granule of the fast tier (R199, R200, R206). -/

namespace Sys2Proof.Machine

variable {s u v : State} {a n : Nat} {l : List Byte} {h : Shard}

/-! ### Numbers laid out one behind the other -/

theorem length_flatMap_leBytes {α : Type} (n : Nat) (f : α → Nat) (xs : List α) : (xs.flatMap fun x => leBytes n (f x)).length = n * xs.length := by
  simp [List.length_flatMap, Nat.mul_comm]

theorem State.bytes_add (s : State) (n k : Nat) : ∀ a, s.bytes a (n + k) = s.bytes a n ++ s.bytes (a + n) k := by
  induction n with
  | zero => simp [State.bytes]
  | succ n ih =>
    intro a
    rw [Nat.succ_add, State.bytes, ih, State.bytes, List.cons_append, Nat.add_assoc a 1 n, Nat.add_comm 1 n]

/-- Where memory holds numbers of `n` bytes each from `a` upwards, number `j` reads back, cut to its bytes. -/
theorem memNat_of_bytes_flatMap {α : Type} {f : α → Nat} (d : α) (xs : List α) : ∀ (a j : Nat),
    u.bytes a (xs.flatMap fun x => leBytes n (f x)).length = (xs.flatMap fun x => leBytes n (f x)) → j < xs.length →
    u.memNat (a + n * j) n = f (xs.getD j d) % 2 ^ (8 * n) := by
  induction xs with
  | nil => exact fun _ _ _ hj => absurd hj (Nat.not_lt_zero _)
  | cons x xs ih =>
    intro a j hold hj
    rw [List.flatMap_cons, List.length_append, length_leBytes, State.bytes_add] at hold
    obtain ⟨first, rest⟩ := List.append_inj hold (by simp)
    cases j with
    | zero => rw [Nat.mul_zero, Nat.add_zero, State.memNat, first, leNat_leBytes, List.getD_cons_zero]
    | succ j => rw [Nat.mul_succ, Nat.add_comm (n * j), ← Nat.add_assoc, ih (a + n) j rest (Nat.lt_of_succ_lt_succ hj), List.getD_cons_succ]

/-! ### The granule -/

/-- What the Heath rule gives for the 64 elements of granule `g`: their weights and their momentum (R206). -/
def State.granuleOut (s : State) (c : Nat) (h : Shard) (hp : HeathParams) (p : List F32) (g : Nat) (m : List Byte) : List (Nat × F32) :=
  granuleRule hp (BitVec.ofNat 64 (s.obj (O.ctxJobSeed c))) (s.reg (R.sweepStep c)) (h.paramBase + 64 * g)
    (natsOf 2 64 ((upto 128).map fun k => s.dataByte (h.weights (s.stepOf c) + 128 * g + k))) (natsOf 4 64 m)
    ((upto 64).map fun j => (p.getD (64 * g + j) 0).toNat)

/-- The bytes of a granule's weights, and of its momentum. -/
def weightBytes (out : List (Nat × F32)) : List Byte := out.flatMap fun e => leBytes 2 e.1
def momentumBytes (out : List (Nat × F32)) : List Byte := out.flatMap fun e => leBytes 4 e.2.toNat

theorem length_granuleOut (s : State) (c : Nat) (h : Shard) (hp : HeathParams) (p : List F32) (g : Nat) (m : List Byte) :
    (s.granuleOut c h hp p g m).length = 64 := by
  simp [State.granuleOut, granuleRule, upto]

/-- A granule of the fast tier: the weights are stored in the shadow slot, then the momentum in the slot `M_SEL` does not name (R199, R200). -/
theorem updateGranule_fast {c i g : Nat} {hp : HeathParams} {p : List F32} {m : List Byte} (fast : h.flags.testBit 1 = false)
    (hv : v = s.storeHeal (h.weights (s.stepOf c + 1) + 128 * g) (weightBytes (s.granuleOut c h hp p g m)))
    (kept : v.mapBit h.mSel g = s.mapBit h.mSel g) :
    s.updateGranule c i h hp p g m
      = v.storeHeal (h.momentum (1 - boolNat (s.mapBit h.mSel g)) g) (momentumBytes (s.granuleOut c h hp p g m)) := by
  rw [← kept, hv]
  unfold State.updateGranule
  simp only [State.isSlow, fast, Bool.false_and, Bool.false_eq_true, if_false]
  rfl

/-- A store apart from it leaves a bit of a bitmap in Thermos. -/
theorem Stored.mapBit {base g : Nat} (stored : Stored s v a l) (inside : inThermos (base + g / 8) 1)
    (apart : base + g / 8 < a ∨ a + l.length ≤ base + g / 8) : v.mapBit base g = s.mapBit base g := by
  rw [State.mapBit, State.mapBit, State.dataByte_thermos inside, State.dataByte_thermos inside, stored.others _ apart]

/-- Settles O27: the two stores lie apart and below the per-stack view, and the first leaves the bit of `M_SEL` that says where the second goes. -/
theorem granuleUpdatesByTheRule : Obligations.GranuleUpdatesByTheRule := by
  unfold Obligations.GranuleUpdatesByTheRule
  intro c i g s h hp p m t wa ma sel fast selIn selApart waIn maIn apart w out u
  have count : out.length = 64 := length_granuleOut s c h hp p g m
  have weights : (weightBytes out).length = 128 := by rw [weightBytes, length_flatMap_leBytes, count]
  have momentum : (momentumBytes out).length = 256 := by rw [momentumBytes, length_flatMap_leBytes, count]
  have first : Stored s (s.storeHeal wa (weightBytes out)) wa (weightBytes out) := storeHeal_thermos (weights ▸ waIn)
  have updated : u = (s.storeHeal wa (weightBytes out)).storeHeal ma (momentumBytes out) :=
    updateGranule_fast fast rfl (first.mapBit selIn (weights ▸ selApart))
  have second : Stored (s.storeHeal wa (weightBytes out)) u ma (momentumBytes out) := by
    rw [updated]
    exact storeHeal_thermos (momentum ▸ maIn)
  have held : u.bytes wa (weightBytes out).length = weightBytes out :=
    (State.bytes_congr _ _ _ _ fun k hk => second.others _ (by omega)).trans first.bytes
  refine ⟨fun j hj => ⟨?_, ?_⟩, fun b outside outside' => ?_, fun k _ => (second.reg k).trans (first.reg k)⟩
  · exact memNat_of_bytes_flatMap (0, 0) out wa j held (count ▸ hj)
  · exact (memNat_of_bytes_flatMap (0, 0) out ma j second.bytes (count ▸ hj)).trans (Nat.mod_eq_of_lt (BitVec.isLt _))
  · exact (second.others b (momentum ▸ outside')).trans (first.others b (weights ▸ outside))

end Sys2Proof.Machine
end

section
/-! SUPPORT. A counterexample to the statement of the digests. The context that stops without a majority has a `CTX_STOP` in progress, which its
last thread's stopping lets complete; F0 marks the command as executed, and the mark is a write to memory (R220, R323, R418). -/

namespace Sys2Proof.Machine

/-- The context has the runs of its shard read from the one other replica. The shard has one granule, its weights in stack 0 of Thermos, which is
ready; the sweep is at `STATE` 4. -/
def stoppingInRepair : State :=
  { ((stopping { running := true, phase := .sweep, started := true, digests := [(0, .read [0])] }).setFld F.unitReady.thermos 1).setFld
      (F.sweepStatus.state 0) 4 with
    mem := [(0x04, 1), (0x0B, 0x20), (0x0C, 0x40), (0x48, 2)] }

theorem replicas_inRepair : (stoppingInRepair.shard 0 0).replicas = 2 := by decide +kernel

theorem readable_inRepair : (stoppingInRepair.readData (stoppingInRepair.shadowOf 0 (stoppingInRepair.shard 0 0)).1
    (stoppingInRepair.shadowOf 0 (stoppingInRepair.shard 0 0)).2).isSome = true := by decide +kernel

/-- What the other replica has of the run: every byte differs. -/
def otherReplica : List (List (List Byte)) := [[List.replicate 128 1]]

/-- Without a majority the context stops, and with its thread the `CTX_STOP` completes. -/
theorem marked_of_runsRead : (stoppingInRepair.runsRead 0 0 otherReplica).byte (markAt 0 0) = 1 := by decide +kernel

theorem unmarked_inRepair : stoppingInRepair.byte (markAt 0 0) = 0 := by decide +kernel

/-- Refutes O28: the end of a sweep whose replicas have no majority changes memory when it stops the last thread of a context whose `CTX_STOP`
is in progress. The statement says that every byte reads as before, and none of its hypotheses bounds what the ring set has in progress. -/
theorem not_digestsComplete : ¬ Obligations.DigestsComplete := by
  unfold Obligations.DigestsComplete
  intro h
  obtain ⟨-, -, -, fails, -⟩ :=
    h 0 0 stoppingInRepair rfl (by decide +kernel) (State.noneQueued_of_threads rfl) (by decide +kernel) readable_inRepair
  obtain ⟨-, -, -, -, bytes⟩ := (fails [0] otherReplica rfl replicas_inRepair).post rfl
  have equal : (1 : Byte) = 0 := marked_of_runsRead.symm.trans ((bytes _).trans unmarked_inRepair)
  exact absurd equal (by decide)

end Sys2Proof.Machine
end

section
/-! SUPPORT. What the operations of a port's link layer leave alone: registers, memory, lasers and the link state of every port (R255, R258, R259,
R261, R264, R270, R294). -/

namespace Sys2Proof.Machine

variable {s m u : State} {p q k st r : Nat} {ks : List Nat}

/-! ### Loops that change one entry at a time -/

section Loops
variable {α : Type} {f : State → α → State} {l : List α} {a : α} {Still : State → State → Prop}

/-- What every step leaves alone, the loop leaves alone. -/
theorem forEach_still (refl : ∀ m, Still m m) (trans : ∀ {x y z}, Still x y → Still y z → Still x z) (h : ∀ m, ∀ b ∈ l, Still m (f m b)) :
    Still s (forEach l f s) :=
  forEach_induction (P := Still s) (refl s) fun m hm b hb => trans hm (h m b hb)

/-- The step for one element is made in a state that agrees with the first, and is followed by the last, on what the other steps leave alone. -/
theorem forEach_at (refl : ∀ m, Still m m) (trans : ∀ {x y z}, Still x y → Still y z → Still x z) (distinct : l.Nodup) (ha : a ∈ l)
    (h : ∀ m, ∀ b ∈ l, b ≠ a → Still m (f m b)) : ∃ m, Still s m ∧ Still (f m a) (forEach l f s) := by
  obtain ⟨l₁, l₂, rfl⟩ := List.append_of_mem ha
  obtain ⟨-, later, apart⟩ := List.nodup_append.mp distinct
  refine ⟨forEach l₁ f s, forEach_still refl trans fun m b hb => h m b (by simp [hb]) (apart b hb a (by simp)), ?_⟩
  have split : forEach (l₁ ++ a :: l₂) f s = forEach l₂ f (f (forEach l₁ f s) a) := List.foldl_append
  rw [split]
  exact forEach_still refl trans fun m b hb => h m b (by simp [hb]) fun e => (List.nodup_cons.mp later).1 (e ▸ hb)

end Loops

/-! ### What no operation of the link layer touches -/

/-- `u` is `s` after registers among `ks` were written; memory, lasers and the Ronbin block are as before. -/
structure LinkFrame (s u : State) (ks : List Nat) : Prop where
  regs : RegsBut s u ks
  mem : u.mem = s.mem
  lasers : u.lasers = s.lasers
  ronbin : u.ronbin = s.ronbin

namespace LinkFrame

theorem refl (s : State) (ks : List Nat) : LinkFrame s s ks := ⟨.refl s ks, rfl, rfl, rfl⟩

theorem trans {js : List Nat} (h : LinkFrame s m ks) (g : LinkFrame m u js) (sub : js ⊆ ks) : LinkFrame s u ks :=
  ⟨fun k hk => (g.regs k fun hj => hk (sub hj)).trans (h.regs k hk), g.mem.trans h.mem, g.lasers.trans h.lasers, g.ronbin.trans h.ronbin⟩

theorem mono {js : List Nat} (h : LinkFrame s u js) (sub : js ⊆ ks) : LinkFrame s u ks := (refl s ks).trans h sub

theorem bytes (h : LinkFrame s u ks) : SameBytes s u := sameBytes_of_mem h.mem

theorem setReg {v : Word} (h : LinkFrame s m ks) (hk : k ∈ ks) : LinkFrame s (m.setReg k v) ks :=
  ⟨fun j hj => (State.reg_setReg_other _ _ fun e : k = j => hj (e ▸ hk)).trans (h.regs j hj), h.mem, h.lasers, h.ronbin⟩

theorem setFld {f : Fld} {v : Nat} (h : LinkFrame s m ks) (hf : f.reg ∈ ks) : LinkFrame s (m.setFld f v) ks := h.setReg hf
theorem setBit {f : Fld} {b : Bool} (h : LinkFrame s m ks) (hf : f.reg ∈ ks) : LinkFrame s (m.setBit f b) ks := h.setReg hf
theorem bumpReg {n : Nat} (h : LinkFrame s m ks) (hk : k ∈ ks) : LinkFrame s (m.bumpReg k n) ks := h.setReg hk
theorem setPort {x : Port} (h : LinkFrame s m ks) : LinkFrame s (m.setPort p x) ks := ⟨h.regs, h.mem, h.lasers, h.ronbin⟩
theorem modPort {f : Port → Port} (h : LinkFrame s m ks) : LinkFrame s (m.modPort p f) ks := h.setPort
theorem send {o : Out} (h : LinkFrame s m ks) : LinkFrame s (m.send o) ks := ⟨h.regs, h.mem, h.lasers, h.ronbin⟩
theorem oweCredit {v : Nat} (h : LinkFrame s m ks) : LinkFrame s (m.oweCredit p v) ks := h.modPort

theorem forEach {α : Type} {f : State → α → State} {l : List α} (h : LinkFrame s m ks) (hf : ∀ m, LinkFrame s m ks → ∀ a ∈ l, LinkFrame s (f m a) ks) :
    LinkFrame s (Machine.forEach l f m) ks := forEach_induction (P := fun x => LinkFrame s x ks) h hf

theorem ite {c : Prop} {_ : Decidable c} {a b : State} (ha : LinkFrame s a ks) (hb : LinkFrame s b ks) : LinkFrame s (if c then a else b) ks := by
  split
  · exact ha
  · exact hb

theorem fld (h : LinkFrame s u ks) {f : Fld} (hf : f.reg ∉ ks) : u.fld f = s.fld f := State.fld_congr (h.regs _ hf)
theorem bit (h : LinkFrame s u ks) {f : Fld} (hf : f.reg ∉ ks) : u.bit f = s.bit f := State.bit_congr (h.regs _ hf)
theorem portState (h : LinkFrame s u ks) (hp : R.portStatus p ∉ ks) : u.portState p = s.portState p := h.fld hp

end LinkFrame

theorem State.portState_congr (h : u.reg (R.portStatus p) = s.reg (R.portStatus p)) : u.portState p = s.portState p := State.fld_congr h

theorem State.portLive_congr (h : u.reg (R.portStatus p) = s.reg (R.portStatus p)) : u.portLive p = s.portLive p := by
  simp only [State.portLive, State.portState_congr h]

/-! ### The link state of a port -/

/-- What is left of a port's own state without the credits it is to return and the seconds in which it told of its degradation. -/
def Port.bare (x : Port) : Port := { x with owed := [], creditTurn := 0, raised := [] }

/-- Two ports with one link state agree on every part of it. -/
theorem Port.part {α : Type} {x y : Port} (h : x.bare = y.bare) (f : Port → α) (hf : ∀ z : Port, f z.bare = f z) : f x = f y := by
  rw [← hf x, h, hf]

theorem bare_modPort {f : Port → Port} (s : State) (p q : Nat) (hf : ∀ x, (f x).bare = x.bare) : ((s.modPort p f).port q).bare = (s.port q).bare := by
  rw [State.port_modPort]
  split
  · exact hf _
  · rfl

theorem bare_oweCredit (s : State) (p v q : Nat) : ((s.oweCredit p v).port q).bare = (s.port q).bare :=
  bare_modPort s p q (by intro; rfl)

theorem bare_oweCredits (l : List (Nat × Nat)) (s : State) (q : Nat) :
    ((forEach l (fun s pv => s.oweCredit pv.1 pv.2) s).port q).bare = (s.port q).bare :=
  forEach_induction (P := fun m => (m.port q).bare = (s.port q).bare) rfl fun m hm pv _ => (bare_oweCredit m pv.1 pv.2 q).trans hm

theorem LinkFrame.oweCredits {l : List (Nat × Nat)} (h : LinkFrame s m ks) :
    LinkFrame s (Machine.forEach l (fun s pv => s.oweCredit pv.1 pv.2) m) ks := h.forEach fun _ hm _ _ => hm.oweCredit

/-! ### Sending a flit -/

/-- `g` is the flit `f` with the `ACK` and the credits it takes along; every other field is as in `f` (R261). -/
structure Stamped (f g : Flit) (ack : Nat) : Prop where
  type : g.type = f.type
  vc : g.vc = f.vc
  seq : g.seq = f.seq
  ack : g.ack = ack
  dest : g.dest = f.dest
  tag : g.tag = f.tag
  payload : g.payload = f.payload

/-- A flit goes out with the `ACK` of the last one received in order (R264). -/
theorem sendFlit_out (s : State) (p : Nat) (f : Flit) :
    ∃ g, (s.sendFlit p f).out = s.out ++ [.flit p g] ∧ Stamped f g (((s.port p).expect + 4095) % 4096) := by
  unfold State.sendFlit
  dsimp only
  split
  · exact ⟨_, rfl, ⟨rfl, rfl, rfl, rfl, rfl, rfl, rfl⟩⟩
  · exact ⟨_, rfl, ⟨rfl, rfl, rfl, rfl, rfl, rfl, rfl⟩⟩

theorem bare_sendFlit (s : State) (p : Nat) (f : Flit) (q : Nat) : ((s.sendFlit p f).port q).bare = (s.port q).bare := by
  unfold State.sendFlit
  dsimp only
  split
  · rfl
  · show (State.port (s.setPort p _) q).bare = _
    rw [State.port_setPort]
    split
    · next e => subst e; rfl
    · rfl

theorem LinkFrame.sendFlit {f : Flit} (h : LinkFrame s m ks) : LinkFrame s (m.sendFlit p f) ks := by
  unfold State.sendFlit
  dsimp only
  split
  · exact h.send
  · exact h.setPort.send

/-! ### Conditions of a promise -/

/-- A condition of a promise marks contexts and transfers only (R294). -/
theorem markSeen_only (s : State) (b : Nat) : ∃ c x re a ac,
    s.markSeen b = { s with ctxs := c, xfers := x, reassemblies := re, arrived := a, accepted := ac } := by
  have marked : ∀ l : List Nat, ∃ c, forEach l (fun s c => s.modCtx c fun x => { x with fcSeen := x.fcSeen ||| 2 ^ b }) s = { s with ctxs := c } := fun l =>
    forEach_induction (P := fun m => ∃ c, m = { s with ctxs := c }) ⟨s.ctxs, rfl⟩ fun m hm a _ => by
      obtain ⟨c, rfl⟩ := hm
      exact ⟨_, rfl⟩
  obtain ⟨c, hc⟩ := marked ((upto 8).filter fun c => s.bit (F.fcCtl.enable c))
  exact ⟨c, _, _, _, _, by unfold State.markSeen; rw [hc]⟩

@[simp] theorem reg_markSeen (s : State) (b k : Nat) : (s.markSeen b).reg k = s.reg k := by obtain ⟨c, x, re, a, ac, h⟩ := markSeen_only s b; rw [h]; rfl
@[simp] theorem port_markSeen (s : State) (b q : Nat) : (s.markSeen b).port q = s.port q := by obtain ⟨c, x, re, a, ac, h⟩ := markSeen_only s b; rw [h]; rfl
@[simp] theorem out_markSeen (s : State) (b : Nat) : (s.markSeen b).out = s.out := by obtain ⟨c, x, re, a, ac, h⟩ := markSeen_only s b; rw [h]
@[simp] theorem objs_markSeen (s : State) (b : Nat) : (s.markSeen b).objs = s.objs := by obtain ⟨c, x, re, a, ac, h⟩ := markSeen_only s b; rw [h]
@[simp] theorem stileAcks_markSeen (s : State) (b : Nat) : (s.markSeen b).stileAcks = s.stileAcks := by
  obtain ⟨c, x, re, a, ac, h⟩ := markSeen_only s b; rw [h]

theorem LinkFrame.markSeen {b : Nat} (h : LinkFrame s m ks) : LinkFrame s (m.markSeen b) ks := by
  obtain ⟨c, x, re, a, ac, e⟩ := markSeen_only m b
  rw [e]
  exact ⟨h.regs, h.mem, h.lasers, h.ronbin⟩

/-! ### Events of little severity -/

/-- An event that is less than a step's failure has no outcome beyond the log (R418). -/
theorem logged_raise_minor {code sev func unit data : Nat} (minor : sev < 3) : Logged s (s.raise code sev func unit data) := by
  have quiet : s.raise code sev func unit data = s.logPlace code sev func unit (data % 2 ^ 48) 0 := by
    unfold State.raise State.outcome
    rw [if_neg (by omega), if_neg (by omega), if_neg (by omega)]
  exact quiet ▸ (Logged.refl s).logPlace

theorem Logged.port (h : Logged s u) (q : Nat) : u.port q = s.port q := by obtain ⟨⟨r, l, o, x, rfl⟩, -⟩ := h; rfl

theorem Logged.frame (h : Logged s u) : LinkFrame s u logRegs := by
  obtain ⟨⟨r, l, o, x, rfl⟩, regs⟩ := h
  exact ⟨regs, rfl, rfl, rfl⟩

/-! ### `LINK_DEGRADED` -/

theorem degraded_minor (r : Nat) : (if r = 0 ∨ r = 2 ∨ r = 6 then 2 else 1) < 3 := by
  split
  · decide
  · decide

/-- A notice of degradation touches the error log and what marks transfers (R270, R294). -/
theorem linkDegraded_frame (s : State) (p r : Nat) : LinkFrame s (s.linkDegraded p r) logRegs := by
  unfold State.linkDegraded
  dsimp only
  split
  · exact .ite (Logged.refl s).logPlace.frame (.refl _ _)
  · exact ((LinkFrame.refl s _).modPort.trans (logged_raise_minor (degraded_minor r)).frame (List.Subset.refl _)).markSeen

theorem bare_linkDegraded (s : State) (p r q : Nat) : ((s.linkDegraded p r).port q).bare = (s.port q).bare := by
  unfold State.linkDegraded
  dsimp only
  split
  · split
    · rw [(Logged.refl s).logPlace.port]
    · rfl
  · rw [port_markSeen, (logged_raise_minor (degraded_minor r)).port]
    exact bare_modPort s p q (by intro; rfl)

theorem LinkFrame.linkDegraded (h : LinkFrame s m ks) (sub : logRegs ⊆ ks) : LinkFrame s (m.linkDegraded p r) ks :=
  h.trans (linkDegraded_frame m p r) sub

/-! ### A port's state -/

/-- The registers that tell of readiness, and those an interrupt may change (R259, R327). -/
def readyRegs : List Nat := [R.unitReady, R.funcReady, R.intCause, R.msixPba]

/-- `u` is `s` after the ready bits were looked at again: the ports, too, are as before. -/
structure ReadyFrame (s u : State) : Prop extends LinkFrame s u readyRegs where
  ports : u.ports = s.ports

namespace ReadyFrame

theorem refl (s : State) : ReadyFrame s s := ⟨.refl s _, rfl⟩

theorem setFld {f : Fld} {v : Nat} (h : ReadyFrame s m) (hf : f.reg ∈ readyRegs) : ReadyFrame s (m.setFld f v) := ⟨h.toLinkFrame.setFld hf, h.ports⟩

theorem vecCount {c : Tab Nat} (h : ReadyFrame s m) : ReadyFrame s { m with vecCount := c } := ⟨⟨h.regs, h.mem, h.lasers, h.ronbin⟩, h.ports⟩

theorem fire {x : Nat} (h : ReadyFrame s m) : ReadyFrame s (m.fire x) := by
  unfold State.fire
  split
  · exact ⟨h.toLinkFrame.send, h.ports⟩
  · exact h.setFld (.tail _ (.tail _ (.tail _ (.head _))))

theorem interrupt {b x : Nat} {now : Bool} (h : ReadyFrame s m) : ReadyFrame s (m.interrupt b x now) := by
  have caused : ReadyFrame s (m.setFld ⟨R.intCause, b, 1⟩ 1) := h.setFld (.tail _ (.tail _ (.head _)))
  unfold State.interrupt State.vectorEntry
  dsimp only
  split_ifs
  · exact caused
  · exact caused
  · exact caused.vecCount.fire
  · exact caused.vecCount

theorem portsReady (h : ReadyFrame s m) : ReadyFrame s m.portsReady := by
  have bits : ReadyFrame s (forEach (upto 8) (fun s p => s.setBit ⟨R.unitReady, 16 + p, 1⟩ (s.portLive p)) m) :=
    forEach_induction (P := ReadyFrame s) h fun x hx _ _ => hx.setFld (.head _)
  unfold State.portsReady State.setFuncReady
  dsimp only
  split
  · exact bits
  · exact (bits.setFld (.tail _ (.head _))).interrupt

end ReadyFrame

theorem portsReady_frame (s : State) : ReadyFrame s s.portsReady := (ReadyFrame.refl s).portsReady

@[simp] theorem port_enterPort (s : State) (p st q : Nat) : (s.enterPort p st).port q = s.port q := by
  rw [State.enterPort, State.port, (portsReady_frame _).ports]
  rfl

theorem LinkFrame.enterPort (h : LinkFrame s m ks) (sub : portRegs p ⊆ ks) : LinkFrame s (m.enterPort p st) ks :=
  (h.setFld (f := F.portStatus.state p) (sub (.head _))).trans (portsReady_frame _).toLinkFrame fun _ hk => sub (.tail _ hk)

theorem portStatus_not_ready (p : Nat) (hp : p < 8) : R.portStatus p ∉ readyRegs := by
  simp only [readyRegs, List.mem_cons, List.not_mem_nil, or_false, R.portStatus, R.unitReady, R.funcReady, R.intCause, R.msixPba]
  omega

theorem portState_enterPort (s : State) (hp : p < 8) (hst : st < 16) : (s.enterPort p st).portState p = st := by
  rw [State.enterPort, (portsReady_frame _).toLinkFrame.portState (portStatus_not_ready p hp), State.portState, State.fld_setFld_same _ _ _ (by show 0 + 4 ≤ 64; omega)]
  exact Nat.mod_eq_of_lt hst

/-- A field that is not the port's state, nor of the ready bits, reads as before. -/
theorem fld_enterPort (s : State) {f : Fld} (ready : f.reg ∉ readyRegs) (apart : f.reg ≠ R.portStatus p ∨ 4 ≤ f.lo) :
    (s.enterPort p st).fld f = s.fld f := by
  rw [State.enterPort, (portsReady_frame _).toLinkFrame.fld ready]
  rcases apart with other | above
  · exact State.fld_setFld_other_reg _ _ _ _ (Ne.symm other)
  · exact State.fld_setFld_other _ _ _ _ (.inr above)

/-- Step 5 of the bring-up is noted beside all this (R392). -/
theorem noteLinks_only (s : State) : ∃ b, s.noteLinks = { s with bring := b } := by
  unfold State.noteLinks
  split
  · exact ⟨_, rfl⟩
  · exact ⟨s.bring, rfl⟩

@[simp] theorem reg_noteLinks (s : State) (k : Nat) : s.noteLinks.reg k = s.reg k := by obtain ⟨b, e⟩ := noteLinks_only s; rw [e]; rfl
@[simp] theorem port_noteLinks (s : State) (q : Nat) : s.noteLinks.port q = s.port q := by obtain ⟨b, e⟩ := noteLinks_only s; rw [e]; rfl

theorem LinkFrame.noteLinks (h : LinkFrame s m ks) : LinkFrame s m.noteLinks ks := by
  obtain ⟨b, e⟩ := noteLinks_only m
  rw [e]
  exact ⟨h.regs, h.mem, h.lasers, h.ronbin⟩

end Sys2Proof.Machine
end

section
/-! SUPPORT. Received flits, replays and the link layer's own events (R254, R261, R264 to R267, R270). -/

namespace Sys2Proof.Machine

variable {s m t u : State} {p ty i : Nat} {ks : List Nat} {x : WireFlit} {f : Flit} {r : Sent}

/-! ### `ACK` and credits -/

/-- The flits up to the one that `ACK` names are taken off the replay buffer (R264). -/
def State.acknowledged (s : State) (p : Nat) (f : Flit) : State :=
  let x := s.port p
  match x.replay.findIdx? fun r => r.flit.seq == f.ack with
  | none => s
  | some i =>
    let at_ := match x.replayAt with
      | none => none
      | some j => if j ≤ i then (if (x.replay.drop (i + 1)).isEmpty then none else some 0) else some (j - (i + 1))
    s.setPort p { x with replay := x.replay.drop (i + 1), replayAt := at_ }

/-- The credits a flit returns are added to their VC (R261). -/
def State.credited (s : State) (p : Nat) (f : Flit) : State :=
  if f.crCount = 0 then s else s.setFld (F.portVcCredit.val p f.crVc) (min (s.fld (F.portVcCredit.val p f.crVc) + f.crCount) 4095)

theorem takeAck_eq (s : State) (p : Nat) (f : Flit) : s.takeAck p f =
    let m := (s.acknowledged p f).credited p f
    if (m.port p).arming && (m.port p).replay.isEmpty then (m.modPort p fun x => { x with arming := false }).enterPort p psArmed else m := rfl

/-- A port that is not to be armed takes `ACK` and credits only. -/
theorem takeAck_unarmed (arming : (s.port p).arming = false) : s.takeAck p f = (s.acknowledged p f).credited p f := by
  have unarmed : (((s.acknowledged p f).credited p f).port p).arming = false := by
    unfold State.credited State.acknowledged
    dsimp only
    split <;> split <;> simpa using arming
  rw [takeAck_eq]
  dsimp only
  rw [unarmed]
  rfl

theorem acknowledged_named (named : ((s.port p).replay.findIdx? fun r => r.flit.seq == f.ack) = some i) :
    ((s.acknowledged p f).port p).replay = (s.port p).replay.drop (i + 1) := by
  unfold State.acknowledged
  dsimp only
  rw [named]
  exact congrArg Port.replay (State.port_setPort_same _ _ _)

theorem acknowledged_unnamed (unnamed : ((s.port p).replay.findIdx? fun r => r.flit.seq == f.ack) = none) : s.acknowledged p f = s := by
  unfold State.acknowledged
  dsimp only
  rw [unnamed]

theorem expect_acknowledged (s : State) (p : Nat) (f : Flit) : ((s.acknowledged p f).port p).expect = (s.port p).expect := by
  unfold State.acknowledged
  dsimp only
  split
  · rfl
  · rw [State.port_setPort_same]

theorem reg_acknowledged (s : State) (p : Nat) (f : Flit) (k : Nat) : (s.acknowledged p f).reg k = s.reg k := by
  unfold State.acknowledged
  dsimp only
  split
  · rfl
  · rfl

@[simp] theorem port_credited (s : State) (p : Nat) (f : Flit) (q : Nat) : (s.credited p f).port q = s.port q := by
  unfold State.credited
  split
  · rfl
  · rfl

theorem fld_credited (s : State) (p : Nat) (f : Flit) : (s.credited p f).fld (F.portVcCredit.val p f.crVc)
    = if f.crCount = 0 then s.fld (F.portVcCredit.val p f.crVc) else min (s.fld (F.portVcCredit.val p f.crVc) + f.crCount) 4095 := by
  unfold State.credited
  split
  · rfl
  · rw [State.fld_setFld_same _ _ _ (by show 0 + 12 ≤ 64; omega)]
    exact Nat.mod_eq_of_lt (Nat.lt_of_le_of_lt (Nat.min_le_right _ _) (by show 4095 < 2 ^ 12; omega))

theorem LinkFrame.acknowledged (h : LinkFrame s m ks) : LinkFrame s (m.acknowledged p f) ks := by
  unfold State.acknowledged
  dsimp only
  split
  · exact h
  · exact h.setPort

theorem LinkFrame.credited (h : LinkFrame s m ks) (hk : R.portVcCredit p f.crVc ∈ ks) : LinkFrame s (m.credited p f) ks := by
  unfold State.credited
  exact .ite h (h.setFld hk)

theorem credit_mem_ackRegs {v : Nat} (hv : v < 8) : R.portVcCredit p v ∈ ackRegs p :=
  List.mem_append_right _ (List.mem_map.mpr ⟨v, mem_upto.mpr hv, rfl⟩)

/-- Taking `ACK` and credits touches the credits of the VC and, at a port to be armed, its state. -/
theorem takeAck_frame (s : State) (p : Nat) (vc : f.crVc < 8) : LinkFrame s (s.takeAck p f) (ackRegs p) := by
  have taken : LinkFrame s ((s.acknowledged p f).credited p f) (ackRegs p) := (LinkFrame.refl s _).acknowledged.credited (credit_mem_ackRegs vc)
  rw [takeAck_eq]
  exact .ite (taken.modPort.enterPort (List.subset_append_left _ _)) taken

/-- Settles O34: a port that is not to be armed takes `ACK` and credits in two steps, of which each leaves what the other changes. -/
theorem ackAndCreditsTake : Obligations.AckAndCreditsTake := by
  unfold Obligations.AckAndCreditsTake
  intro p f s vc arming
  have frame : LinkFrame s ((s.acknowledged p f).credited p f) [R.portVcCredit p f.crVc] :=
    (LinkFrame.refl s _).acknowledged.credited (List.mem_singleton_self _)
  have credit : (s.acknowledged p f).fld (F.portVcCredit.val p f.crVc) = s.fld (F.portVcCredit.val p f.crVc) := State.fld_congr (reg_acknowledged s p f _)
  dsimp only
  rw [takeAck_unarmed arming, port_credited]
  refine ⟨fun i => acknowledged_named, fun unnamed => by rw [acknowledged_unnamed unnamed], ?_, expect_acknowledged s p f, frame.regs, frame.bytes⟩
  rw [fld_credited, credit]

/-- A flit that a live port receives is taken behind its `ACK` and credits. -/
theorem onFlit_received (h : Receives s p ty x t) (f : State → Flit → State) : s.onFlit p ty x f = f t (fieldsOf x) := by
  simp [State.onFlit, h.live, h.good, h.kind, h.after]

theorem crVc_fieldsOf (x : WireFlit) : (fieldsOf x).crVc < 8 := BitVec.isLt _

theorem Receives.frame (h : Receives s p ty x t) : LinkFrame s t (ackRegs p) := h.after ▸ takeAck_frame s p (crVc_fieldsOf x)

/-! ### Replays -/

/-- The replay buffer with the flit at place `i` replaced, to be replayed from there. -/
def State.replayFrom (s : State) (p i : Nat) (r : Sent) : State :=
  s.setPort p { s.port p with replay := (s.port p).replay.set i r, replayAt := some i }

/-- A flit that is within its budget of failures is replayed as it is (R266). -/
theorem nameFlit_again (here : (s.port p).replay[i]? = some r) (few : r.fails < 2) :
    s.nameFlit p i = (s.bumpReg (R.portRetries p)).replayFrom p i { r with fails := r.fails + 1 } := by
  unfold State.nameFlit
  dsimp only
  rw [here]
  dsimp only
  rw [if_neg (by omega), if_neg (by omega), if_neg (by omega)]
  rfl

/-- A flit past its budget is replaced by a poisoned one (R266, R267). -/
theorem nameFlit_poisons (here : (s.port p).replay[i]? = some r) (spent : r.fails = 2) (clean : r.flit.poison = false) :
    s.nameFlit p i = (((s.bumpReg (R.portRetries p)).replayFrom p i { flit := { r.flit with poison := true, len := 0, payload := [] }, fails := 3 }).bumpReg
      (R.portPoisoned p)).linkDegraded p 2 := by
  unfold State.nameFlit
  dsimp only
  rw [here]
  dsimp only
  have poisons : 3 ≤ r.fails + 1 ∧ ¬ r.flit.poison = true := ⟨by omega, by simp [clean]⟩
  rw [if_pos poisons, if_pos poisons, if_neg (by omega), spent]
  rfl

theorem port_replayFrom (s : State) (p i : Nat) (r : Sent) :
    (s.replayFrom p i r).port p = { s.port p with replay := (s.port p).replay.set i r, replayAt := some i } := State.port_setPort_same _ _ _

/-! ### Discards -/

/-- A `NAK` is out behind a discard (R265). -/
theorem nakOut_nakOnce (s : State) (p : Nat) : ((s.nakOnce p).port p).nakOut = true := by
  unfold State.nakOnce State.sendNak
  split
  · next out => exact out
  · refine (Port.part (bare_sendFlit _ p _ p) Port.nakOut fun _ => rfl).trans ?_
    rw [State.port_modPort_same]

theorem LinkFrame.sendNak (h : LinkFrame s m ks) : LinkFrame s (m.sendNak p) ks := h.modPort.sendFlit

theorem LinkFrame.nakOnce (h : LinkFrame s m ks) : LinkFrame s (m.nakOnce p) ks := .ite h h.sendNak

/-- What is sent as a `NAK` names the sequence number this end expects (R265). -/
theorem sendNak_spec (s : State) (p : Nat) : (∃ f, (s.sendNak p).out = s.out ++ [.flit p f] ∧ f.type = 2 ∧ f.seq = (s.port p).expect)
    ∧ ((s.sendNak p).port p).nakOut = true := by
  constructor
  · obtain ⟨g, out, fields⟩ := sendFlit_out (s.modPort p fun x => { x with nakOut := true }) p { type := 2, seq := (s.port p).expect }
    exact ⟨g, out, fields.type, fields.seq⟩
  · refine (Port.part (bare_sendFlit _ p _ p) Port.nakOut fun _ => rfl).trans ?_
    rw [State.port_modPort_same]

/-! ### The statement -/

/-- The counters of a port are no registers of the log. -/
theorem counter_not_log (p : Nat) {k : Nat} (hk : k ∈ portCounters p) : k ∉ logRegs := by
  simp only [portCounters, logRegs, List.mem_cons, List.not_mem_nil, or_false, R.portFecCorr, R.portFecUncorr, R.portCrcErr, R.portRetries,
    R.portPoisoned, R.portProtoErr, R.portTrains, R.logStatus, R.logDropped, R.logNextSeq] at hk ⊢
  omega

theorem counter_not_ack (p : Nat) {k : Nat} (hk : k ∈ portCounters p) (hp : p < 8) : k ∉ ackRegs p := by
  simp only [portCounters, ackRegs, portRegs, List.mem_append, List.mem_map, mem_upto, List.mem_cons, List.not_mem_nil, or_false, R.portFecCorr,
    R.portFecUncorr, R.portCrcErr, R.portRetries, R.portPoisoned, R.portProtoErr, R.portTrains, R.portStatus, R.unitReady, R.funcReady, R.intCause,
    R.msixPba, R.portVcCredit] at hk ⊢
  omega

/-- A counter of a port, raised and then left alone. -/
theorem counted {k n : Nat} (h : u.reg k = (m.bumpReg k n).reg k) (before : m.reg k = s.reg k) :
    (u.reg k).toNat = min ((s.reg k).toNat + n) (2 ^ 64 - 1) := by
  rw [h, toNat_bumpReg_by, before]

/-- A flit of a reserved type that comes on a port without link traffic is counted only (R261). -/
theorem reservedIn_outside (state : s.portState p = psHandshake ∨ s.portState p = psLoop) (good : goodCrc x = true) (reserved : 6 ≤ (fieldsOf x).type) :
    s.reservedIn p x = (s.bumpReg (R.portProtoErr p)).linkDegraded p 4 := by
  have dead : s.portLive p = false := by rcases state with h | h <;> simp [State.portLive, h]
  have takes : s.takesFlits p = true := by rcases state with h | h <;> simp [State.takesFlits, h]
  simp [State.reservedIn, takes, good, dead, Nat.not_lt.mpr reserved]

theorem reservedIn_live (h : Receives s p ty x t) (reserved : 6 ≤ ty) : s.reservedIn p x = (t.bumpReg (R.portProtoErr p)).linkDegraded p 4 := by
  have takes : s.takesFlits p = true := by simp [State.takesFlits, h.live]
  have kind : ¬ (fieldsOf x).type < 6 := by rw [h.kind]; omega
  simp [State.reservedIn, takes, h.good, h.live, kind, h.after]

/-- A codeword that cannot be corrected is counted, with its three flits where they are looked at (R253, R254). -/
def State.codewordCounted (s : State) (p : Nat) : State := (s.bumpReg (R.portFecUncorr p)).bumpReg (R.portCrcErr p) 3

theorem codewordBad_eq (takes : s.takesFlits p = true) :
    s.codewordBad p = if s.portLive p then (s.codewordCounted p).nakOnce p else s.codewordCounted p := by
  have first : (s.bumpReg (R.portFecUncorr p)).reg (R.portStatus p) = s.reg (R.portStatus p) :=
    State.reg_setReg_other _ _ (by unfold R.portFecUncorr R.portStatus; omega)
  have both : (s.codewordCounted p).reg (R.portStatus p) = s.reg (R.portStatus p) :=
    (State.reg_setReg_other _ _ (by unfold R.portCrcErr R.portStatus; omega)).trans first
  have same : (s.bumpReg (R.portFecUncorr p)).takesFlits p = true := by
    rw [← takes]
    simp only [State.takesFlits, State.portLive_congr first, State.portState_congr first]
  unfold State.codewordBad
  dsimp only
  rw [if_pos same, ← State.portLive_congr both]
  rfl

theorem codewordCounted_spec (s : State) (p : Nat) : let u := s.codewordCounted p
    (u.reg (R.portFecUncorr p)).toNat = min ((s.reg (R.portFecUncorr p)).toNat + 1) (2 ^ 64 - 1)
    ∧ (u.reg (R.portCrcErr p)).toNat = min ((s.reg (R.portCrcErr p)).toNat + 3) (2 ^ 64 - 1)
    ∧ OnlyRegs s u [R.portFecUncorr p, R.portCrcErr p] := by
  have apart : R.portFecUncorr p ≠ R.portCrcErr p := by unfold R.portFecUncorr R.portCrcErr; omega
  exact ⟨counted (State.reg_setReg_other _ _ apart.symm) rfl, counted rfl (State.reg_setReg_other _ _ apart),
    (setReg_only s _ _).trans (setReg_only _ _ _)⟩

/-- The end of a window of FEC adds to the count of corrected symbols, and tells at most of degradation (R270). -/
theorem fecWindow_spec (s : State) (p : Nat) (corrected : Word) (ratio : F32) : let u := s.fecWindow p corrected ratio
    (u.reg (R.portFecCorr p)).toNat = min ((s.reg (R.portFecCorr p)).toNat + corrected.toNat) (2 ^ 64 - 1) ∧ SameBytes s u := by
  have told : LinkFrame (s.bumpReg (R.portFecCorr p) corrected.toNat) (s.fecWindow p corrected ratio) logRegs :=
    .ite (linkDegraded_frame _ p 1) (.refl _ _)
  exact ⟨counted (told.regs _ (counter_not_log p (.head _))) rfl, told.bytes⟩

/-- Settles O35: a received flit is taken behind its `ACK` and credits, and what a failure, a timeout or a window of FEC adds leaves the link state
that it does not name. -/
theorem linkEventsComplete : Obligations.LinkEventsComplete := by
  unfold Obligations.LinkEventsComplete
  refine ⟨fun p x s t => ⟨fun h => ⟨_, rfl, onFlit_received h _⟩, fun h => ⟨_, rfl, ?linkCtl⟩, fun h => ⟨_, rfl, onFlit_received h _⟩,
    fun ty h reserved => ⟨_, rfl, ?reserved⟩, fun state good reserved => ⟨_, rfl, ?outside⟩, fun i r h named here few => ⟨_, rfl, ?nak⟩⟩, fun p s => ?events⟩
  case linkCtl =>
    have busy : s.portState p ≠ psHandshake := fun e => by simpa [State.portLive, e] using h.live
    show s.linkCtlIn p x = t
    rw [State.linkCtlIn, if_neg busy]
    exact onFlit_received h _
  case reserved =>
    have told := linkDegraded_frame (t.bumpReg (R.portProtoErr p)) p 4
    show (((s.reservedIn p x).reg _).toNat = _) ∧ _
    rw [reservedIn_live h reserved]
    refine ⟨counted (told.regs _ (counter_not_log p ?_)) (h.frame.regs _ (counter_not_ack p ?_ p.isLt)), fun b => ?_⟩
    · simp [portCounters]
    · simp [portCounters]
    · exact (told.bytes b).trans (h.frame.bytes b)
  case outside =>
    have told := linkDegraded_frame (s.bumpReg (R.portProtoErr p)) p 4
    show (((s.reservedIn p x).reg _).toNat = _) ∧ _
    rw [reservedIn_outside state good reserved]
    refine ⟨counted (told.regs _ (counter_not_log p ?_)) rfl, ?_, told.bytes⟩
    · simp [portCounters]
    · exact Port.part (bare_linkDegraded _ p 4 p) Port.replay fun _ => rfl
  case nak =>
    have answered : s.onFlit p 2 x (fun s f => s.nakIn p f) = t.nameFlit p i := by
      rw [onFlit_received h, State.nakIn, named]
    have again : LinkFrame t ((t.bumpReg (R.portRetries p)).replayFrom p i { r with fails := r.fails + 1 }) (R.portRetries p :: ackRegs p) :=
      ((LinkFrame.refl t _).bumpReg (.head _)).setPort
    show (State.port (s.onFlit p 2 x fun s f => s.nakIn p f) p).replayAt = _ ∧ _
    rw [answered, nameFlit_again here few, port_replayFrom]
    refine ⟨rfl, rfl, counted rfl (h.frame.regs _ (counter_not_ack p ?_ p.isLt)), ?_, ?_⟩
    · simp [portCounters]
    · exact ((h.frame.mono (List.subset_cons_self _ _)).trans again (List.Subset.refl _)).regs
    · exact ((h.frame.mono (List.subset_cons_self _ _)).trans again (List.Subset.refl _)).bytes
  case events =>
    dsimp only
    refine ⟨fun live => ⟨_, rfl, ?codeword⟩, fun state => ⟨_, rfl, ?codewordOutside⟩, fun r rest live oldest few => ⟨_, rfl, ?timeout⟩,
      fun r rest live oldest spent clean => ⟨_, rfl, ?poisons⟩, fun live out => ⟨_, rfl, ?resend⟩, fun corrected ratio => ⟨_, rfl, fecWindow_spec s p corrected ratio⟩⟩
    case codeword =>
      obtain ⟨codewords, flits, regs, only⟩ := codewordCounted_spec s p
      have takes : s.takesFlits p = true := by simp [State.takesFlits, live]
      have asked : LinkFrame (s.codewordCounted p) ((s.codewordCounted p).nakOnce p) [] := (LinkFrame.refl _ _).nakOnce
      rw [codewordBad_eq takes, if_pos live]
      refine ⟨?_, ?_, nakOut_nakOnce _ _, fun k hk => (asked.regs k (List.not_mem_nil)).trans (regs k hk), fun b => ?_⟩
      · rw [asked.regs _ List.not_mem_nil, codewords]
      · rw [asked.regs _ List.not_mem_nil, flits]
      · exact (asked.bytes b).trans rfl
    case codewordOutside =>
      obtain ⟨codewords, flits, only⟩ := codewordCounted_spec s p
      have takes : s.takesFlits p = true := by rcases state with h | h <;> simp [State.takesFlits, h]
      have dead : ¬ s.portLive p = true := by rcases state with h | h <;> simp [State.portLive, h]
      rw [codewordBad_eq takes, if_neg dead]
      exact ⟨codewords, flits, only⟩
    case timeout =>
      have here : (s.port p).replay[0]? = some r := by rw [oldest]; rfl
      have again : LinkFrame s ((s.bumpReg (R.portRetries p)).replayFrom p 0 { r with fails := r.fails + 1 }) [R.portRetries p] :=
        ((LinkFrame.refl s _).bumpReg (.head _)).setPort
      rw [if_pos live, nameFlit_again here few]
      dsimp only
      rw [port_replayFrom]
      exact ⟨rfl, congrArg (List.set · 0 _) oldest, counted rfl rfl, again.regs, again.bytes⟩
    case poisons =>
      have here : (s.port p).replay[0]? = some r := by rw [oldest]; rfl
      let m := (s.bumpReg (R.portRetries p)).replayFrom p 0 { flit := { r.flit with poison := true, len := 0, payload := [] }, fails := 3 }
      have told := linkDegraded_frame (m.bumpReg (R.portPoisoned p)) p 2
      rw [if_pos live, nameFlit_poisons here spent clean]
      refine ⟨(Port.part (bare_linkDegraded _ p 2 p) Port.replay fun _ => rfl).trans ?_, counted (told.regs _ (counter_not_log p ?_)) ?_, told.bytes⟩
      · rw [State.port_bumpReg, port_replayFrom, State.port_bumpReg, oldest]
        rfl
      · simp [portCounters]
      · exact State.reg_setReg_other _ _ (by unfold R.portRetries R.portPoisoned; omega)
    case resend =>
      have sent : LinkFrame s (s.sendNak p) [] := (LinkFrame.refl _ _).sendNak
      obtain ⟨nak, isOut⟩ := sendNak_spec s p
      have both : (s.portLive p && (s.port p).nakOut) = true := by rw [live, out]; rfl
      rw [if_pos both]
      exact ⟨nak, isOut, sent.regs, sent.bytes⟩

end Sys2Proof.Machine
end

section
/-! SUPPORT. The start of a slot (R263 to R265, R286, R287). -/

namespace Sys2Proof.Machine

variable {s m : State} {p n i frame : Nat} {q : QFlit} {r : Sent}

/-! ### What a slot does -/

section Start
variable (live : s.portLive p = true) (still : s.stileMoving (portAxis p) = false) (now : (s.port p).frame = s.now / framePs)
include live still now

theorem slotStart_idle (pick : s.slotPick p (s.now / framePs) n = none) : s.slotStart p n = s.sendFlit p { type := 0 } := by
  simp [State.slotStart, live, still, State.enterFrame, now, pick, State.noteOverrun]

theorem slotStart_queued (pick : s.slotPick p (s.now / framePs) n = some (.queued i)) : s.slotStart p n = s.sendQueued p i := by
  simp [State.slotStart, live, still, State.enterFrame, now, pick, State.noteOverrun]

theorem slotStart_replay (pick : s.slotPick p (s.now / framePs) n = some .replay) :
    s.slotStart p n = (s.noteOverrun p (s.now / framePs) n (some .replay)).sendReplay p := by
  simp [State.slotStart, live, still, State.enterFrame, now, pick]

end Start

/-! ### A flit sent for the first time -/

/-- The port once the flit at place `i` of its queue has the next `SEQ` and is kept for replay (R265). -/
def Port.sent (x : Port) (i : Nat) (q : QFlit) : Port :=
  { x with
    txq := x.txq.eraseIdx i
    replay := x.replay ++ [{ flit := { q.flit with seq := x.nextSeq } }]
    nextSeq := (x.nextSeq + 1) % 4096
    control := if isClass 3 q then x.control + 1 else x.control }

/-- A flit that leaves the receive buffer it held gives back a credit (R264). -/
def State.released (s : State) (q : QFlit) : State :=
  match q.held with
  | some (r, v) => s.oweCredit r v
  | none => s

/-- The state in which the flit at place `i` is given to its fibre: it has taken a credit (R264). -/
def State.creditTaken (s : State) (p i : Nat) (q : QFlit) : State :=
  ((s.setPort p ((s.port p).sent i q)).setFld (F.portVcCredit.val p q.flit.vc) (s.fld (F.portVcCredit.val p q.flit.vc) - 1)).released q

theorem sendQueued_eq (here : (s.port p).txq[i]? = some q) :
    s.sendQueued p i = (s.creditTaken p i q).sendFlit p { q.flit with seq := (s.port p).nextSeq } := by
  unfold State.sendQueued State.creditTaken State.released
  dsimp only
  rw [here]
  rfl

theorem bare_released (s : State) (q : QFlit) (j : Nat) : ((s.released q).port j).bare = (s.port j).bare := by
  unfold State.released
  split
  · exact bare_oweCredit s _ _ j
  · rfl

theorem LinkFrame.released {ks : List Nat} (h : LinkFrame s m ks) : LinkFrame s (m.released q) ks := by
  unfold State.released
  split
  · exact h.oweCredit
  · exact h

theorem out_released (s : State) (q : QFlit) : (s.released q).out = s.out := by
  unfold State.released
  split
  · rfl
  · rfl

theorem creditTaken_frame (s : State) (p i : Nat) (q : QFlit) : LinkFrame s (s.creditTaken p i q) [R.portVcCredit p q.flit.vc] :=
  ((LinkFrame.refl s _).setPort.setFld (.head _)).released

theorem fld_creditTaken (s : State) (p i : Nat) (q : QFlit) :
    (s.creditTaken p i q).fld (F.portVcCredit.val p q.flit.vc) = s.fld (F.portVcCredit.val p q.flit.vc) - 1 := by
  let before := (s.setPort p ((s.port p).sent i q)).setFld (F.portVcCredit.val p q.flit.vc) (s.fld (F.portVcCredit.val p q.flit.vc) - 1)
  have kept : LinkFrame before (s.creditTaken p i q) [] := (LinkFrame.refl before _).released
  have bound : s.fld (F.portVcCredit.val p q.flit.vc) < 2 ^ 12 := BitVec.isLt _
  rw [kept.fld List.not_mem_nil, State.fld_setFld_same _ _ _ (by show 0 + 12 ≤ 64; omega)]
  exact Nat.mod_eq_of_lt (by show _ < 2 ^ 12; omega)

theorem bare_sendQueued (here : (s.port p).txq[i]? = some q) : ((s.sendQueued p i).port p).bare = ((s.port p).sent i q).bare := by
  rw [sendQueued_eq here, bare_sendFlit, State.creditTaken, bare_released, State.port_setFld, State.port_setPort_same]

/-! ### A replay -/

/-- The port once the flit at place `i` of its replay buffer has gone out again. -/
def Port.replayed (x : Port) (i : Nat) : Port := { x with replayAt := if i + 1 < x.replay.length then some (i + 1) else none }

theorem sendReplay_eq (under : (s.port p).replayAt = some i) (here : (s.port p).replay[i]? = some r) :
    s.sendReplay p = (s.setPort p ((s.port p).replayed i)).sendFlit p r.flit := by
  unfold State.sendReplay
  dsimp only
  rw [under]
  dsimp only
  rw [here]
  rfl

/-- The overrun of a frame is counted, at most, and marks the transfers that it may delay (R287, R294). -/
theorem noteOverrun_spec (s : State) (p frame n : Nat) (pick : Option SlotPick) : let m := s.noteOverrun p frame n pick
    LinkFrame s m [R.resOverruns p] ∧ m.out = s.out ∧ ∃ b, m.port p = { s.port p with overrun := b } := by
  unfold State.noteOverrun
  dsimp only
  split
  · refine ⟨((LinkFrame.refl s _).modPort.bumpReg (.head _)).markSeen, out_markSeen _ _, true, ?_⟩
    rw [port_markSeen, State.port_bumpReg, State.port_modPort_same]
  · exact ⟨.refl s _, rfl, _, rfl⟩

theorem noteOverrun_counts (use : s.activeUse p n = 1) (overruns : s.replayOverruns p frame n = true) (first : (s.port p).overrun = false) :
    ((s.noteOverrun p frame n (some .replay)).reg (R.resOverruns p)).toNat = min ((s.reg (R.resOverruns p)).toNat + 1) (2 ^ 64 - 1) := by
  unfold State.noteOverrun
  rw [if_pos ⟨rfl, use, overruns, by simp [first]⟩]
  exact counted (m := s.modPort p fun x => { x with overrun := true }) (reg_markSeen _ _ _) rfl

/-! ### What a slot takes -/

theorem slotPick_scheduled (use : s.activeUse p n = 1) (quiet : (s.port p).replayAt = none) (up : s.portState p = psUp)
    (room : (s.port p).replay.length < 1024) (pick : s.pick p (isClass 0) = some i) : s.slotPick p frame n = some (.queued i) := by
  simp [State.slotPick, use, quiet, up, room, pick, firstPick]

theorem slotPick_overrun (use : s.activeUse p n = 1) (under : (s.port p).replayAt.isSome = true) (reserve : s.reserveLeft p n = false)
    (free : s.freeLeft p frame n = false) : s.slotPick p frame n = some .replay := by
  simp [State.slotPick, use, under, State.replayOverruns, reserve, free, firstPick]

theorem slotPick_reserve (use : s.activeUse p n = 2) (under : (s.port p).replayAt.isSome = true) : s.slotPick p frame n = some .replay := by
  simp [State.slotPick, use, under, firstPick]

theorem slotPick_free (use : s.activeUse p n = 0) (under : (s.port p).replayAt.isSome = true) (reserve : s.reserveLeft p n = false) :
    s.slotPick p frame n = some .replay := by
  simp [State.slotPick, use, under, reserve, firstPick]

/-- Settles O37: in the frame of the present time a slot goes straight to its pick, and the flit it sends is stamped and nothing else. -/
theorem slotStartCompletes : Obligations.SlotStartCompletes := by
  unfold Obligations.SlotStartCompletes
  refine ⟨fun p n s live still now => ⟨fun pick => ⟨_, rfl, ?idle⟩, fun i q pick here vc => ⟨_, rfl, ?queued⟩, fun i r pick under here => ⟨_, rfl, ?replay⟩⟩,
    fun p n s frame => ⟨fun i use quiet up room pick => slotPick_scheduled use quiet up room pick, fun use under reserve free => slotPick_overrun use under reserve free,
      fun use under => slotPick_reserve use under, fun use under reserve => slotPick_free use under reserve⟩⟩
  case idle =>
    have sent : LinkFrame s (s.sendFlit p { type := 0 }) [] := (LinkFrame.refl s _).sendFlit
    obtain ⟨g, out, fields⟩ := sendFlit_out s p { type := 0 }
    rw [slotStart_idle live still now pick]
    exact ⟨⟨g, out, fields.type, fields.ack⟩, sent.regs, sent.bytes⟩
  case queued =>
    let f : Flit := { q.flit with seq := (s.port p).nextSeq }
    have taken := creditTaken_frame s p i q
    have sent : LinkFrame (s.creditTaken p i q) ((s.creditTaken p i q).sendFlit p f) [] := (LinkFrame.refl _ _).sendFlit
    have whole := taken.trans sent (List.nil_subset _)
    have link := bare_sendQueued here
    obtain ⟨g, out, fields⟩ := sendFlit_out (s.creditTaken p i q) p f
    rw [slotStart_queued live still now pick]
    refine ⟨Port.part link Port.txq fun _ => rfl, Port.part link Port.replay fun _ => rfl, Port.part link Port.nextSeq fun _ => rfl, ?_⟩
    rw [sendQueued_eq here]
    refine ⟨?_, ⟨g, ?_, fields.payload, fields.seq, fields.vc, fields.dest,
      fields.tag⟩, whole.regs, whole.bytes⟩
    · rw [sent.fld List.not_mem_nil, fld_creditTaken]
    · rw [out, State.creditTaken, out_released]
      rfl
  case replay =>
    obtain ⟨noted, silent, b, port⟩ := noteOverrun_spec s p (s.now / framePs) n (some .replay)
    let m := s.noteOverrun p (s.now / framePs) n (some .replay)
    have again : m.sendReplay p = (m.setPort p ((m.port p).replayed i)).sendFlit p r.flit :=
      sendReplay_eq (by rw [port]; exact under) (by rw [port]; exact here)
    have sent : LinkFrame m ((m.setPort p ((m.port p).replayed i)).sendFlit p r.flit) [] := (LinkFrame.refl m _).setPort.sendFlit
    have whole := noted.trans sent (List.nil_subset _)
    have link : (((m.setPort p ((m.port p).replayed i)).sendFlit p r.flit).port p).bare = (({ s.port p with overrun := b } : Port).replayed i).bare := by
      rw [bare_sendFlit, State.port_setPort_same, port]
    obtain ⟨g, out, fields⟩ := sendFlit_out (m.setPort p ((m.port p).replayed i)) p r.flit
    rw [slotStart_replay live still now pick, again]
    refine ⟨Port.part link Port.replay fun _ => rfl, Port.part link Port.replayAt fun _ => rfl,
      ⟨g, out.trans (congrArg (· ++ _) silent), fields.payload, fields.seq⟩, fun use overruns first => ?_, whole.regs, whole.bytes⟩
    rw [sent.regs _ List.not_mem_nil]
    exact noteOverrun_counts use overruns first

end Sys2Proof.Machine
end

section
/-! SUPPORT. A port that starts to train, retrains, goes down, is switched off or is armed (R251, R255, R257, R258, R274). -/

namespace Sys2Proof.Machine

variable {s m u : State} {p q k w r : Nat} {ks : List Nat}

/-! ### The fields of `PORT_STATUS` and `PORT_LANES` -/

theorem portStatus_ne_portLanes (p q : Nat) : R.portStatus p ≠ R.portLanes q := by unfold R.portLanes R.portStatus; omega

theorem portState_setLocked (s : State) (p q v : Nat) : (s.setFld (F.portLanes.locked q) v).portState p = s.portState p :=
  State.fld_setFld_other_reg _ _ _ _ (portStatus_ne_portLanes p q).symm

theorem portState_setWidth (s : State) (p v : Nat) : (s.setFld (F.portStatus.width p) v).portState p = s.portState p :=
  State.fld_setFld_other _ _ _ _ (.inl (by show 0 + 4 ≤ 4; omega))

theorem portState_setSpare (s : State) (p : Nat) (b : Bool) : (s.setBit (F.portStatus.laserSpare p) b).portState p = s.portState p :=
  State.fld_setFld_other _ _ _ _ (.inl (by show 0 + 4 ≤ 10; omega))

theorem failed_setLocked (s : State) (p v : Nat) : (s.setFld (F.portLanes.locked p) v).fld (F.portLanes.failed p) = s.fld (F.portLanes.failed p) :=
  State.fld_setFld_other _ _ _ _ (.inr (by show 0 + 16 ≤ 16; omega))

theorem locked_setFailed (s : State) (p v : Nat) : (s.setFld (F.portLanes.failed p) v).fld (F.portLanes.locked p) = s.fld (F.portLanes.locked p) :=
  State.fld_setFld_other _ _ _ _ (.inl (by show 0 + 16 ≤ 16; omega))

theorem locked_setLocked (s : State) (p v : Nat) : (s.setFld (F.portLanes.locked p) v).fld (F.portLanes.locked p) = v % 2 ^ 16 :=
  State.fld_setFld_same _ _ _ (by show 0 + 16 ≤ 64; omega)

theorem bit_setBit_same (s : State) {f : Fld} (one : f.width = 1) (h : f.lo + f.width ≤ 64) (b : Bool) : (s.setBit f b).bit f = b := by
  rw [State.bit_eq_fld _ _ one, State.setBit_eq, State.fld_setFld_same _ _ _ h, one]
  cases b
  · rfl
  · rfl

theorem portLanes_not_ready (p : Nat) (hp : p < 8) : R.portLanes p ∉ readyRegs := by
  simp only [readyRegs, List.mem_cons, List.not_mem_nil, or_false, R.portLanes, R.unitReady, R.funcReady, R.intCause, R.msixPba]
  omega

theorem portStatus_not_log (p : Nat) (hp : p < 8) : R.portStatus p ∉ logRegs := by
  simp only [logRegs, List.mem_cons, List.not_mem_nil, or_false, R.portStatus, R.logStatus, R.logDropped, R.logNextSeq]
  omega

theorem portLanes_not_log (p : Nat) (hp : p < 8) : R.portLanes p ∉ logRegs := by
  simp only [logRegs, List.mem_cons, List.not_mem_nil, or_false, R.portLanes, R.logStatus, R.logDropped, R.logNextSeq]
  omega

theorem fld_linkDegraded (s : State) (p r : Nat) {f : Fld} (hf : f.reg ∉ logRegs) : (s.linkDegraded p r).fld f = s.fld f :=
  (linkDegraded_frame s p r).fld hf

/-! ### Training -/

/-- The registers of a port's training and its failures, the error log's among them. -/
def portWork (p : Nat) : List Nat := R.portTrains p :: R.portLanes p :: R.logNextSeq :: R.logStatus :: R.logDropped :: portRegs p

theorem portRegs_sub_work (p : Nat) : portRegs p ⊆ portWork p := fun _ hk => .tail _ (.tail _ (.tail _ (.tail _ (.tail _ hk))))

theorem logRegs_sub_work (p : Nat) : logRegs ⊆ portWork p := by
  intro k hk
  simp only [logRegs, List.mem_cons, List.not_mem_nil, or_false] at hk
  rcases hk with rfl | rfl | rfl <;> simp [portWork]

/-- Work on one port leaves the status and the lanes of another. -/
theorem not_portWork (hq : q < 8) (other : p ≠ q) : R.portStatus q ∉ portWork p ∧ R.portLanes q ∉ portWork p := by
  constructor <;>
  · simp only [portWork, portRegs, List.mem_cons, List.not_mem_nil, or_false, R.portTrains, R.portLanes, R.portStatus, R.logNextSeq, R.logStatus,
      R.logDropped, R.unitReady, R.funcReady, R.intCause, R.msixPba]
    omega

/-- The link state with which a training starts: kept in a retrain, cleared otherwise (R258). -/
def Port.trained (x : Port) (keep : Bool) : Port :=
  if keep then { x with retraining := true, failReason := 0, arming := false }
  else { x with retraining := false, failReason := 0, nextSeq := 0, expect := 0, nakOut := false, replayAt := none, replay := [], arming := false }

theorem port_startTraining (s : State) (p : Nat) (keep : Bool) : (s.startTraining p keep).port p = (s.port p).trained keep := by
  unfold State.startTraining
  dsimp only
  rw [port_enterPort, State.port_setFld, State.port_modPort_same]
  rfl

theorem startTraining_frame (s : State) (p : Nat) (keep : Bool) :
    LinkFrame s (s.startTraining p keep) (R.portTrains p :: R.portLanes p :: portRegs p) := by
  have sub : portRegs p ⊆ R.portTrains p :: R.portLanes p :: portRegs p := fun _ hk => .tail _ (.tail _ hk)
  have cleared : LinkFrame s ((s.bumpReg (R.portTrains p)).setReg (R.portLanes p) 0) (R.portTrains p :: R.portLanes p :: portRegs p) :=
    ((LinkFrame.refl s _).bumpReg (.head _)).setReg (.tail _ (.head _))
  unfold State.startTraining
  exact (cleared.modPort.setFld (sub (.head _))).enterPort sub

theorem startTraining_work (s : State) (p : Nat) (keep : Bool) : LinkFrame s (s.startTraining p keep) (portWork p) := by
  refine (startTraining_frame s p keep).mono fun k hk => ?_
  rcases List.mem_cons.mp hk with rfl | hk
  · exact .head _
  · rcases List.mem_cons.mp hk with rfl | hk
    · exact .tail _ (.head _)
    · exact portRegs_sub_work p hk

theorem portState_startTraining (s : State) (hp : p < 8) (keep : Bool) : (s.startTraining p keep).portState p = psLaser :=
  portState_enterPort _ hp (by decide)

/-- A port that retrains holds its link state (R258). -/
structure Retrains (s u : State) (p : Nat) : Prop extends LinkFrame s u (portWork p) where
  state : u.portState p = psLaser
  retraining : (u.port p).retraining = true
  replay : (u.port p).replay = (s.port p).replay
  expect : (u.port p).expect = (s.port p).expect

theorem retrain_spec (hp : p < 8) (live : s.portLive p = true) (r : Nat) : Retrains s (s.retrain p r) p := by
  let t := (s.startTraining p true).linkDegraded p 5
  have link : (t.port p).bare = ((s.port p).trained true).bare := by rw [bare_linkDegraded, port_startTraining]
  have eq : s.retrain p r = (t.modPort p fun x => { x with failReason := r }).markSeen 3 := if_pos live
  have port : (s.retrain p r).port p = { t.port p with failReason := r } := by rw [eq, port_markSeen, State.port_modPort_same]
  have frame : LinkFrame s t (portWork p) := (startTraining_work s p true).linkDegraded (logRegs_sub_work p)
  have state : t.portState p = psLaser := (fld_linkDegraded _ p 5 (portStatus_not_log p hp)).trans (portState_startTraining s hp true)
  refine ⟨eq ▸ frame.modPort.markSeen, ?_, ?_, ?_, ?_⟩
  · rw [eq]
    exact (State.portState_congr (reg_markSeen _ _ _)).trans state
  · rw [port]
    exact Port.part link Port.retraining fun _ => rfl
  · rw [port]
    exact Port.part link Port.replay fun _ => rfl
  · rw [port]
    exact Port.part link Port.expect fun _ => rfl

/-! ### A port goes down, or off -/

/-- A port goes down (R258): its lanes are no longer locked, and it tells why. -/
structure GoesDown (s u : State) (p r : Nat) : Prop extends LinkFrame s u (portWork p) where
  state : u.portState p = psDown
  reason : u.fld (F.portStatus.downReason p) = r % 16
  locked : u.fld (F.portLanes.locked p) = 0
  failed : u.fld (F.portLanes.failed p) = s.fld (F.portLanes.failed p)

theorem portDown_spec (hp : p < 8) (s : State) (r : Nat) : GoesDown s (s.portDown p r) p r := by
  unfold State.portDown
  dsimp only
  generalize hm : forEach ((s.port p).txq.filterMap (·.held)) (fun s pv => s.oweCredit pv.1 pv.2)
    (s.modPort p fun x => { x with txq := [], replay := [], replayAt := none, retraining := false, ledger := [], failReason := 0, arming := false, lost := true }) = m
  have dropped : LinkFrame s m [] := hm ▸ (LinkFrame.refl s _).modPort.oweCredits
  have down : LinkFrame s ((m.setFld (F.portStatus.downReason p) r).enterPort p psDown) (portWork p) :=
    ((dropped.mono (List.nil_subset _)).setFld (portRegs_sub_work p (.head _))).enterPort (portRegs_sub_work p)
  refine ⟨((down.setFld (portRegs_sub_work p (.head _))).setFld (.tail _ (.head _))).linkDegraded (logRegs_sub_work p), ?_, ?_, ?_, ?_⟩
  · rw [State.portState, fld_linkDegraded _ _ _ (portStatus_not_log p hp), ← State.portState, portState_setLocked, portState_setWidth]
    exact portState_enterPort _ hp (by decide)
  · rw [fld_linkDegraded _ _ _ (portStatus_not_log p hp), State.fld_setFld_other_reg _ _ _ _ (portStatus_ne_portLanes p p).symm,
      State.fld_setFld_other _ _ _ _ (.inr (by show 4 + 2 ≤ 6; omega)), fld_enterPort _ (portStatus_not_ready p hp) (.inr (by show 4 ≤ 6; omega)),
      State.fld_setFld_same _ _ _ (by show 6 + 4 ≤ 64; omega)]
    rfl
  · rw [fld_linkDegraded _ _ _ (portLanes_not_log p hp), locked_setLocked]
    rfl
  · rw [fld_linkDegraded _ _ _ (portLanes_not_log p hp), failed_setLocked,
      State.fld_setFld_other_reg _ _ _ _ (portStatus_ne_portLanes p p),
      fld_enterPort _ (portLanes_not_ready p hp) (.inl (portStatus_ne_portLanes p p).symm),
      State.fld_setFld_other_reg _ _ _ _ (portStatus_ne_portLanes p p), dropped.fld List.not_mem_nil]

end Sys2Proof.Machine
end

section
/-! SUPPORT. Control and failures of a port: its enable, `REINSERT_ARM`, the loss of light and of lasers (R251, R257, R258, R274, R277, R494). -/

namespace Sys2Proof.Machine

variable {s u : State} {p q k w : Nat}

/-! ### Switching off -/

/-- A port that is switched off reads `DISABLED`, with nothing queued or kept (Table 10.15). -/
structure SwitchedOff (s u : State) (p : Nat) : Prop extends LinkFrame s u (R.portLanes p :: portRegs p) where
  state : u.portState p = psDisabled
  width : u.fld (F.portStatus.width p) = 0
  locked : u.fld (F.portLanes.locked p) = 0
  txq : (u.port p).txq = []
  replay : (u.port p).replay = []

theorem portOff_spec (hp : p < 8) (used : s.portState p ≠ psDisabled) : SwitchedOff s (s.portOff p) p := by
  rw [State.portOff, if_neg used]
  dsimp only
  generalize hm : forEach ((s.port p).txq.filterMap (·.held)) (fun s pv => s.oweCredit pv.1 pv.2)
    (s.modPort p fun x => { x with txq := [], replay := [], replayAt := none, ledger := [] }) = m
  have sub : portRegs p ⊆ R.portLanes p :: portRegs p := List.subset_cons_self _ _
  have dropped : LinkFrame s m [] := hm ▸ (LinkFrame.refl s _).modPort.oweCredits
  have link : (m.port p).bare = ({ s.port p with txq := [], replay := [], replayAt := none, ledger := [] } : Port).bare := by
    rw [← hm, bare_oweCredits, State.port_modPort_same]
  let t := (m.setFld (F.portStatus.width p) 0).setFld (F.portLanes.locked p) 0
  have cleared : LinkFrame s t (R.portLanes p :: portRegs p) :=
    ((dropped.mono (List.nil_subset _)).setFld (sub (.head _))).setFld (.head _)
  have port : ((t.enterPort p psDisabled).noteLinks).port p = m.port p := by rw [port_noteLinks, port_enterPort]; rfl
  refine ⟨(cleared.enterPort sub).noteLinks, ?_, ?_, ?_, ?_, ?_⟩
  · exact (State.portState_congr (reg_noteLinks _ _)).trans (portState_enterPort _ hp (by decide))
  · rw [State.fld_congr (reg_noteLinks _ _), fld_enterPort _ (portStatus_not_ready p hp) (.inr (by show 4 ≤ 4; omega)),
      State.fld_setFld_other_reg _ _ _ _ (portStatus_ne_portLanes p p).symm, State.fld_setFld_same _ _ _ (by show 4 + 2 ≤ 64; omega)]
    rfl
  · rw [State.fld_congr (reg_noteLinks _ _), fld_enterPort _ (portLanes_not_ready p hp) (.inl (portStatus_ne_portLanes p p).symm), locked_setLocked]
    rfl
  · rw [port]
    exact Port.part link Port.txq fun _ => rfl
  · rw [port]
    exact Port.part link Port.replay fun _ => rfl

/-! ### `ENABLE` and `REINSERT_ARM` -/

theorem portCtl_ne_portStatus (p q : Nat) : R.portCtl p ≠ R.portStatus q := by unfold R.portCtl R.portStatus; omega

theorem portState_setCtl {f : Fld} {b : Bool} (ctl : f.reg = R.portCtl p) : (s.setBit f b).portState q = s.portState q :=
  State.fld_setFld_other_reg _ _ _ _ (ctl ▸ portCtl_ne_portStatus p q)

/-- Work on a port's lanes and state leaves its control. -/
theorem portCtl_apart (hp : p < 8) : R.portCtl p ∉ R.portTrains p :: R.portLanes p :: portRegs p := by
  simp only [portRegs, List.mem_cons, List.not_mem_nil, or_false, R.portCtl, R.portTrains, R.portLanes, R.portStatus, R.unitReady, R.funcReady,
    R.intCause, R.msixPba]
  omega

/-- A control bit is written, and work on the port's lanes and state follows. -/
theorem written_control (hp : p < 8) {f : Fld} {b : Bool} {ks : List Nat} (ctl : f.reg = R.portCtl p) (one : f.width = 1) (fits : f.lo + f.width ≤ 64)
    (work : LinkFrame (s.setBit f b) u ks) (sub : ks ⊆ R.portTrains p :: R.portLanes p :: portRegs p) :
    u.bit f = b ∧ LinkFrame s u (R.portCtl p :: ks) := by
  refine ⟨(work.bit fun h => portCtl_apart hp (sub (ctl ▸ h))).trans (bit_setBit_same s one fits b), ?_⟩
  exact ((LinkFrame.refl s _).setBit (ctl ▸ .head _)).trans work (List.subset_cons_self _ _)

/-- The notice of a port to be armed (R274). -/
def stileNotice : Flit := { type := 5, first := true, last := true, len := 1, payload := [1] }

theorem replay_sendFlit (s : State) (p : Nat) (f : Flit) : ((s.sendFlit p f).port p).replay = (s.port p).replay :=
  Port.part (bare_sendFlit s p f p) Port.replay fun _ => rfl

theorem armPort_acknowledged (up : s.portState p = psUp) (empty : (s.port p).replay = []) :
    s.armPort p = (s.sendFlit p stileNotice).enterPort p psArmed := by
  have acked : ((s.sendFlit p stileNotice).port p).replay.isEmpty = true := by rw [replay_sendFlit, empty]; rfl
  rw [State.armPort, if_pos up]
  exact if_pos acked

theorem armPort_waits (up : s.portState p = psUp) (unacked : (s.port p).replay ≠ []) :
    s.armPort p = (s.sendFlit p stileNotice).modPort p fun x => { x with arming := true } := by
  have waits : ¬ ((s.sendFlit p stileNotice).port p).replay.isEmpty = true := by rw [replay_sendFlit, List.isEmpty_iff]; exact unacked
  rw [State.armPort, if_pos up]
  exact if_neg waits

/-! ### Loss of light -/

/-- The state of a live port that has lost a fibre pair. -/
def State.pairLost (s : State) (p pair : Nat) : State := s.modPort p fun x => { x with whole := x.whole &&& (3 - 2 ^ pair) }

theorem lossOfLight_half (live : s.portLive p = true) (whole : s.fld (F.portStatus.width p) = 3) (half : s.bit (F.portCtl.halfOk p) = true) (pair : Nat) :
    s.lossOfLight p pair = (((((s.pairLost p pair).setFld (F.portLanes.locked p)
      (s.fld (F.portLanes.locked p) &&& lanesOf ((s.port p).whole &&& (3 - 2 ^ pair)))).setFld (F.portStatus.width p) (2 - pair)).linkDegraded p 0).markSeen 3) := by
  rw [State.lossOfLight, if_neg (not_not_intro live)]
  dsimp only
  rw [if_pos ⟨whole, half⟩, State.port_modPort_same]
  rfl

theorem lossOfLight_retrains (live : s.portLive p = true) (narrow : s.fld (F.portStatus.width p) ≠ 3 ∨ s.bit (F.portCtl.halfOk p) = false) (pair : Nat) :
    s.lossOfLight p pair = (s.pairLost p pair).retrain p := by
  have held : ¬ (s.fld (F.portStatus.width p) = 3 ∧ s.bit (F.portCtl.halfOk p) = true) := by
    rintro ⟨three, ok⟩
    rcases narrow with h | h
    · exact h three
    · simp [ok] at h
  rw [State.lossOfLight, if_neg (not_not_intro live)]
  exact if_neg held

theorem live_iff : s.portLive p = true ↔ s.portState p = psUp ∨ s.portState p = psArmed := by simp [State.portLive]

/-! ### Lasers -/

/-- The status and the lanes of port `q` are left alone. -/
structure PortStill (q : Nat) (s u : State) : Prop where
  status : u.reg (R.portStatus q) = s.reg (R.portStatus q)
  lanes : u.reg (R.portLanes q) = s.reg (R.portLanes q)

theorem PortStill.refl (q : Nat) (s : State) : PortStill q s s := ⟨rfl, rfl⟩

theorem PortStill.trans {m : State} (h : PortStill q s m) (g : PortStill q m u) : PortStill q s u :=
  ⟨g.status.trans h.status, g.lanes.trans h.lanes⟩

theorem PortStill.of_work (h : LinkFrame s u (portWork p)) (hq : q < 8) (other : p ≠ q) : PortStill q s u :=
  ⟨h.regs _ (not_portWork hq other).1, h.regs _ (not_portWork hq other).2⟩

theorem mem_unitPorts {v : Nat} : q ∈ unitPorts v ↔ q < 8 ∧ q / 4 = v := by simp [unitPorts, mem_upto, portUnit]

/-- Each port of a unit is worked on once, in a state that shows of it what the first state showed, and no later work changes that. -/
theorem unitPorts_each {f : State → Nat → State} {v : Nat} (work : ∀ m p, p < 8 → LinkFrame m (f m p) (portWork p)) (s : State) :
    (∀ q, q < 8 → q / 4 = v → ∃ m, PortStill q s m ∧ PortStill q (f m q) (forEach (unitPorts v) f s))
    ∧ (forEach (unitPorts v) f s).mem = s.mem ∧ (forEach (unitPorts v) f s).lasers = s.lasers := by
  refine ⟨fun q hq unit => ?_, ?_⟩
  · exact forEach_at (PortStill.refl q) PortStill.trans (List.nodup_range.filter _) (mem_unitPorts.mpr ⟨hq, unit⟩)
      fun m p hp other => .of_work (work m p (mem_unitPorts.mp hp).1) hq other
  · exact forEach_induction (P := fun m => m.mem = s.mem ∧ m.lasers = s.lasers) ⟨rfl, rfl⟩ fun m ⟨mem, lasers⟩ p hp =>
      ⟨(work m p (mem_unitPorts.mp hp).1).mem.trans mem, (work m p (mem_unitPorts.mp hp).1).lasers.trans lasers⟩

/-- A port with traffic, a loop or a training under way, which a change of its lasers makes train again (R251). -/
def State.trainsAgain (s : State) (p : Nat) : Prop := s.portLive p = true ∨ s.portState p = psLoop ∨ isTraining (s.portState p) = true

theorem spareTrain_frame (hp : p < 8) (s : State) : LinkFrame s (s.spareTrain p) (portWork p) := by
  unfold State.spareTrain
  dsimp only
  split
  · next live => exact (retrain_spec hp live 0).toLinkFrame
  · exact .ite (startTraining_work s p _) (.refl s _)

theorem portState_spareTrain (hp : p < 8) (again : s.trainsAgain p) : (s.spareTrain p).portState p = psLaser := by
  unfold State.spareTrain
  dsimp only
  split
  · next live => exact (retrain_spec hp live 0).state
  · next dead =>
    rw [if_pos (again.resolve_left dead)]
    exact portState_startTraining s hp _

/-- What the first failure of a wavelength does at a port: its spare is used (R251). -/
def State.takeSpare (s : State) (p : Nat) : State := ((s.spareTrain p).setBit (F.portStatus.laserSpare p) true).linkDegraded p 3

theorem takeSpare_frame (hp : p < 8) (s : State) : LinkFrame s (s.takeSpare p) (portWork p) :=
  ((spareTrain_frame hp s).setBit (portRegs_sub_work p (.head _))).linkDegraded (logRegs_sub_work p)

theorem takeSpare_spec (hp : p < 8) (s : State) : (s.takeSpare p).bit (F.portStatus.laserSpare p) = true
    ∧ (s.trainsAgain p → (s.takeSpare p).portState p = psLaser) := by
  have told := linkDegraded_frame ((s.spareTrain p).setBit (F.portStatus.laserSpare p) true) p 3
  have log := portStatus_not_log p hp
  refine ⟨(told.bit log).trans (bit_setBit_true _ rfl (by show 11 ≤ 64; omega)), fun again => ?_⟩
  rw [State.takeSpare, told.portState log, portState_setSpare, portState_spareTrain hp again]

/-- What the second failure of a wavelength does at a port: its lanes have no light, and it goes down (R251). -/
def State.loseWave (s : State) (w p : Nat) : State := if s.portState p = psDisabled then s.loseLanes p w else (s.loseLanes p w).portDown p 8

theorem loseLanes_frame (s : State) (p w : Nat) : LinkFrame s (s.loseLanes p w) (portWork p) :=
  ((LinkFrame.refl s _).setFld (.tail _ (.head _))).setFld (.tail _ (.head _))

theorem loseWave_frame (hp : p < 8) (s : State) (w : Nat) : LinkFrame s (s.loseWave w p) (portWork p) :=
  .ite (loseLanes_frame s p w) ((loseLanes_frame s p w).trans (portDown_spec hp _ 8).toLinkFrame (List.Subset.refl _))

/-- The two lanes of a wavelength. -/
theorem lanes_of_wave : ∀ w : Fin 8, ∀ i, i = w.val ∨ i = 8 + w.val →
    i < 16 ∧ (0xFFFF - (2 ^ w.val + 2 ^ (8 + w.val))).testBit i = false ∧ (2 ^ w.val + 2 ^ (8 + w.val)).testBit i = true := by
  have each : ∀ w : Fin 8, (∀ i ∈ [w.val, 8 + w.val],
      i < 16 ∧ (0xFFFF - (2 ^ w.val + 2 ^ (8 + w.val))).testBit i = false ∧ (2 ^ w.val + 2 ^ (8 + w.val)).testBit i = true) := by decide
  exact fun w i hi => each w i (by simpa using hi)

/-- A lane that has lost its light is not locked and has failed. -/
theorem loseLanes_spec (s : State) (p : Nat) (w : Fin 8) {i : Nat} (lane : i = w.val ∨ i = 8 + w.val) :
    ((s.loseLanes p w).fld (F.portLanes.locked p)).testBit i = false ∧ ((s.loseLanes p w).fld (F.portLanes.failed p)).testBit i = true := by
  obtain ⟨inside, off, on⟩ := lanes_of_wave w i lane
  unfold State.loseLanes
  dsimp only
  constructor
  · rw [locked_setFailed, locked_setLocked, Nat.testBit_mod_two_pow, Nat.testBit_and, off]
    simp
  · rw [State.fld_setFld_same _ _ _ (by show 16 + 16 ≤ 64; omega), Nat.testBit_mod_two_pow, Nat.testBit_or, on]
    simp only [Bool.or_true, Bool.and_true, decide_eq_true_eq]
    exact inside

theorem loseWave_spec (hp : p < 8) (s : State) (w : Fin 8) : let u := s.loseWave w p
    (∀ i, i = w.val ∨ i = 8 + w.val → (u.fld (F.portLanes.locked p)).testBit i = false ∧ (u.fld (F.portLanes.failed p)).testBit i = true)
    ∧ (s.portState p ≠ psDisabled → u.portState p = psDown ∧ u.fld (F.portStatus.downReason p) = 8) := by
  dsimp only
  unfold State.loseWave
  split
  · next off => exact ⟨fun i lane => loseLanes_spec s p w lane, fun used => absurd off used⟩
  · have down := portDown_spec hp (s.loseLanes p w) 8
    refine ⟨fun i lane => ⟨?_, ?_⟩, fun _ => ⟨down.state, down.reason⟩⟩
    · rw [down.locked, Nat.zero_testBit]
    · rw [down.failed]
      exact (loseLanes_spec s p w lane).2

/-- A laser more of a wavelength has failed. -/
def State.laserLost (s : State) (v w n : Nat) : State := { s with lasers := Tab.put (fun _ => 0) s.lasers (16 * v + w) n }

theorem lasers_laserLost (s : State) (v w n : Nat) : Tab.get (fun _ => 0) (s.laserLost v w n).lasers (16 * v + w) = n := Tab.get_put_same _ _ _ _

theorem laserFails_first (active : Tab.get (fun _ => 0) s.lasers (16 * k + w) = 0) :
    s.laserFails k w = forEach (unitPorts k) State.takeSpare (s.laserLost k w 1) := by
  unfold State.laserFails
  dsimp only
  rw [active]
  rfl

theorem laserFails_second (spare : Tab.get (fun _ => 0) s.lasers (16 * k + w) = 1) :
    s.laserFails k w = forEach (unitPorts k) (fun s p => s.loseWave w p) (s.laserLost k w 2) := by
  unfold State.laserFails
  dsimp only
  rw [spare]
  rfl

/-! ### Counters -/

theorem forEach_clear (l : List Nat) : ∀ s : State, let u := forEach l (fun s k => s.setReg k 0) s
    (∀ k ∈ l, u.reg k = 0) ∧ OnlyRegs s u l := by
  induction l with
  | nil => exact fun s => ⟨fun _ h => absurd h List.not_mem_nil, .refl s _, rfl⟩
  | cons j l ih =>
    intro s
    obtain ⟨zero, only⟩ := ih (s.setReg j 0)
    refine ⟨fun k hk => ?_, (setReg_only s j 0).trans only⟩
    by_cases later : k ∈ l
    · exact zero k later
    · obtain rfl := (List.mem_cons.mp hk).resolve_right later
      exact (only.1 k later).trans (State.reg_setReg_same _ _ _)

/-! ### The statement -/

/-- Settles O32: each command is work on one port, which leaves the control, the status and the lanes of the others. -/
theorem portControlCompletes : Obligations.PortControlCompletes := by
  unfold Obligations.PortControlCompletes
  intro p s
  have hp := p.isLt
  refine ⟨fun disabled normal => ⟨_, rfl, ?enable⟩, fun used => ⟨_, rfl, ?disable⟩, fun live => ⟨_, rfl, ?retrain⟩, ⟨_, rfl, forEach_clear (portCounters p) s⟩,
    fun up empty => ⟨_, rfl, ?arms⟩, fun up unacked => ⟨_, rfl, ?waits⟩, fun armed => ⟨_, rfl, ?disarms⟩, fun pair live whole half => ⟨_, rfl, ?half⟩,
    fun pair live narrow => ⟨_, rfl, ?loss⟩, fun unit w => ⟨fun active => ⟨_, rfl, ?spare⟩, fun spare => ⟨_, rfl, ?dark⟩⟩⟩
  case enable =>
    have disabled' : (s.setBit (F.portCtl.enable p) true).portState p = psDisabled := (portState_setCtl rfl).trans disabled
    have eq : s.portEnable p true = (s.setBit (F.portCtl.enable p) true).startTraining p false := by
      rw [State.portEnable, if_pos rfl]
      exact if_pos ⟨disabled', by rw [State.setBit_ronbin, normal]; decide⟩
    rw [eq]
    obtain ⟨enabled, frame⟩ := written_control hp (f := F.portCtl.enable p) rfl rfl (by show 0 + 1 ≤ 64; omega)
      (startTraining_frame (s.setBit (F.portCtl.enable p) true) p false) (List.Subset.refl _)
    exact ⟨enabled, portState_startTraining _ hp _, frame.regs, frame.bytes⟩
  case disable =>
    have off := portOff_spec (s := s.setBit (F.portCtl.enable p) false) hp fun e => used ((portState_setCtl rfl).symm.trans e)
    obtain ⟨enabled, frame⟩ := written_control hp (f := F.portCtl.enable p) rfl rfl (by show 0 + 1 ≤ 64; omega) off.toLinkFrame (List.subset_cons_self _ _)
    exact ⟨enabled, off.state, off.width, off.txq, off.replay, off.locked, frame.regs, frame.bytes⟩
  case retrain =>
    have again := retrain_spec hp live 0
    exact ⟨again.state, again.retraining, again.replay, again.expect, again.regs, again.bytes⟩
  case arms =>
    let m := s.setBit (F.portCtl.reinsertArm p) true
    have eq : s.reinsertArm p true = (m.sendFlit p stileNotice).enterPort p psArmed :=
      armPort_acknowledged (s := m) ((portState_setCtl rfl).trans up) empty
    have work : LinkFrame m ((m.sendFlit p stileNotice).enterPort p psArmed) (portRegs p) := (LinkFrame.refl m _).sendFlit.enterPort (List.Subset.refl _)
    obtain ⟨written, frame⟩ := written_control hp (f := F.portCtl.reinsertArm p) rfl rfl (by show 4 + 1 ≤ 64; omega) work fun _ hk => .tail _ (.tail _ hk)
    rw [eq]
    exact ⟨portState_enterPort _ hp (by decide), written, frame.regs, frame.bytes⟩
  case waits =>
    let m := s.setBit (F.portCtl.reinsertArm p) true
    have eq : s.reinsertArm p true = (m.sendFlit p stileNotice).modPort p fun x => { x with arming := true } :=
      armPort_waits (s := m) ((portState_setCtl rfl).trans up) unacked
    have work : LinkFrame m ((m.sendFlit p stileNotice).modPort p fun x => { x with arming := true }) [] := (LinkFrame.refl m _).sendFlit.modPort
    obtain ⟨written, frame⟩ := written_control hp (f := F.portCtl.reinsertArm p) rfl rfl (by show 4 + 1 ≤ 64; omega) work (List.nil_subset _)
    rw [eq]
    refine ⟨(work.portState List.not_mem_nil).trans ((portState_setCtl rfl).trans up), ?_, written, frame.regs, frame.bytes⟩
    rw [State.port_modPort_same]
  case disarms =>
    let m := (s.setBit (F.portCtl.reinsertArm p) false).modPort p fun x => { x with arming := false }
    have eq : s.reinsertArm p false = m.enterPort p psUp := by
      rw [State.reinsertArm, if_neg Bool.false_ne_true]
      exact if_pos ((portState_setCtl (s := s) (f := F.portCtl.reinsertArm p) (b := false) rfl).trans armed)
    have work : LinkFrame (s.setBit (F.portCtl.reinsertArm p) false) (m.enterPort p psUp) (portRegs p) :=
      (LinkFrame.refl _ _).modPort.enterPort (List.Subset.refl _)
    obtain ⟨written, frame⟩ := written_control hp (f := F.portCtl.reinsertArm p) rfl rfl (by show 4 + 1 ≤ 64; omega) work fun _ hk => .tail _ (.tail _ hk)
    rw [eq]
    exact ⟨portState_enterPort _ hp (by decide), written, frame.regs, frame.bytes⟩
  case half =>
    let lanes := s.fld (F.portLanes.locked p) &&& lanesOf ((s.port p).whole &&& (3 - 2 ^ pair.val))
    let m := ((s.pairLost p pair).setFld (F.portLanes.locked p) lanes).setFld (F.portStatus.width p) (2 - pair)
    have work : LinkFrame s m (portWork p) := ((LinkFrame.refl s _).modPort.setFld (.tail _ (.head _))).setFld (portRegs_sub_work p (.head _))
    have log := portStatus_not_log p hp
    have seen {f : Fld} (hf : f.reg ∉ logRegs) : ((m.linkDegraded p 0).markSeen 3).fld f = m.fld f :=
      (State.fld_congr (reg_markSeen _ _ _)).trans (fld_linkDegraded m p 0 hf)
    have fits : lanes < 2 ^ 16 := Nat.lt_of_le_of_lt Nat.and_le_left (BitVec.isLt _)
    rw [lossOfLight_half (live_iff.mpr live) whole half]
    refine ⟨(seen log).trans ?_, (seen log).trans ?_, (seen (portLanes_not_log p hp)).trans ?_, (work.linkDegraded (logRegs_sub_work p)).markSeen.bytes⟩
    · rw [State.fld_setFld_same _ _ _ (by show 4 + 2 ≤ 64; omega)]
      exact Nat.mod_eq_of_lt (by show _ < 2 ^ 2; omega)
    · exact (portState_setWidth _ p _).trans (portState_setLocked _ p p _)
    · rw [State.fld_setFld_other_reg _ _ _ _ (portStatus_ne_portLanes p p), locked_setLocked, Nat.mod_eq_of_lt fits]
  case loss =>
    have again : Retrains (s.pairLost p pair) ((s.pairLost p pair).retrain p) p :=
      retrain_spec (s := s.pairLost p pair) hp (live_iff.mpr live) 0
    rw [lossOfLight_retrains (live_iff.mpr live) narrow]
    refine ⟨again.state, again.retraining, again.expect.trans ?_, again.replay.trans ?_, again.bytes⟩
    · rw [State.pairLost, State.port_modPort_same]
    · rw [State.pairLost, State.port_modPort_same]
  case spare =>
    obtain ⟨each, mem, lasers⟩ := unitPorts_each (f := State.takeSpare) (v := unit) (fun m q hq => takeSpare_frame hq m) (s.laserLost unit w 1)
    rw [laserFails_first active]
    refine ⟨by rw [lasers, lasers_laserLost], fun q own => ?_, sameBytes_of_mem mem⟩
    have hq : q < 8 := by omega
    obtain ⟨m, before, after⟩ := each q hq own
    obtain ⟨spare, again⟩ := takeSpare_spec hq m
    refine ⟨(State.bit_congr after.status).trans spare, fun trains => (State.portState_congr after.status).trans (again ?_)⟩
    rw [State.trainsAgain, State.portLive_congr before.status, State.portState_congr before.status]
    exact trains
  case dark =>
    obtain ⟨each, mem, lasers⟩ := unitPorts_each (f := fun s p => s.loseWave w p) (v := unit) (fun m q hq => loseWave_frame hq m w) (s.laserLost unit w 2)
    rw [laserFails_second spare]
    refine ⟨by rw [lasers, lasers_laserLost], fun q own => ?_, sameBytes_of_mem mem⟩
    have hq : q < 8 := by omega
    obtain ⟨m, before, after⟩ := each q hq own
    obtain ⟨lanes, down⟩ := loseWave_spec hq m w
    have locked := State.fld_congr (f := F.portLanes.locked q) after.lanes
    have failed := State.fld_congr (f := F.portLanes.failed q) after.lanes
    rw [locked, failed]
    refine ⟨(lanes _ (.inl rfl)).1, (lanes _ (.inr rfl)).1, (lanes _ (.inl rfl)).2, (lanes _ (.inr rfl)).2, fun used => ?_⟩
    obtain ⟨state, reason⟩ := down fun e => used ((State.portState_congr before.status).symm.trans e)
    exact ⟨(State.portState_congr after.status).trans state, (State.fld_congr after.status).trans reason⟩

end Sys2Proof.Machine
end

section
/-! SUPPORT. The Stiles: what a command does on one axis, and what it leaves of the others (R271 to R274). -/

namespace Sys2Proof.Machine

variable {s m u : State} {a b i why : Nat} {f : Fld} {v : Nat}

/-! ### The bits of `STILE_STATUS` -/

/-- A bit of `STILE_STATUS`. -/
def State.stileBit (s : State) (i : Nat) : Bool := (s.reg R.stileStatus).getLsbD i

theorem testBit_fld (s : State) (f : Fld) (i : Nat) : (s.fld f).testBit i = (decide (i < f.width) && (s.reg f.reg).getLsbD (f.lo + i)) := by
  rw [State.fld, BitVec.testBit_toNat, BitVec.getLsbD_extractLsb']

theorem stileClosed_eq (s : State) (ha : a < 4) : s.stileClosed a = s.stileBit a := by
  rw [State.stileClosed, testBit_fld, decide_eq_true (by exact ha), Bool.true_and, State.stileBit]
  exact congrArg _ (Nat.zero_add a)

theorem stileMoving_eq (s : State) (ha : a < 4) : s.stileMoving a = s.stileBit (4 + a) := by
  rw [State.stileMoving, testBit_fld, decide_eq_true (by exact ha), Bool.true_and]
  rfl

theorem openPending_eq (s : State) (ha : a < 4) : (s.fld F.stileStatus.openPending).testBit a = s.stileBit (8 + a) := by
  rw [testBit_fld, decide_eq_true (by exact ha), Bool.true_and]
  rfl

theorem stileBit_setFld (s : State) (hf : f.reg = R.stileStatus) (hi : i < 64) :
    (s.setFld f v).stileBit i = if f.lo ≤ i ∧ i < f.lo + f.width then v.testBit (i - f.lo) else s.stileBit i := by
  rw [State.stileBit, State.setFld_eq, hf, State.reg_setReg_same, getLsbD_withBits _ _ _ _ _ hi]
  rfl

theorem stileBit_setFld_other (s : State) (hf : f.reg = R.stileStatus) (hi : i < 64) (out : i < f.lo ∨ f.lo + f.width ≤ i) :
    (s.setFld f v).stileBit i = s.stileBit i := by
  rw [stileBit_setFld s hf hi, if_neg (by omega)]

theorem stileBit_setAxisBit (s : State) (hf : f.reg = R.stileStatus) (x : Bool) (hi : f.lo + a < 64) : (s.setAxisBit f a x).stileBit (f.lo + a) = x := by
  have here : f.lo + a ≤ f.lo + a ∧ f.lo + a < f.lo + a + 1 := by omega
  rw [State.setAxisBit, State.setBit_eq, stileBit_setFld (f := ⟨f.reg, f.lo + a, 1⟩) s hf hi, if_pos here, Nat.sub_self]
  cases x
  · rfl
  · rfl

theorem stileBit_setAxisBit_other (s : State) (hf : f.reg = R.stileStatus) (x : Bool) (hi : i < 64) (out : i ≠ f.lo + a) :
    (s.setAxisBit f a x).stileBit i = s.stileBit i := by
  refine stileBit_setFld_other (f := ⟨f.reg, f.lo + a, 1⟩) s hf hi ?_
  show i < f.lo + a ∨ f.lo + a + 1 ≤ i
  omega

theorem stileBit_refused (s : State) (reason : Nat) : (s.stileRefuse reason).stileBit 12 = true := by
  rw [State.stileRefuse, stileBit_setFld_other (f := F.stileStatus.refReason) _ rfl (by omega) (.inl (by show 12 < 13; omega)), State.setBit_eq,
    stileBit_setFld (f := F.stileStatus.refused) _ rfl (by omega), if_pos (by show 12 ≤ 12 ∧ 12 < 12 + 1; omega)]
  rfl

theorem stileBit_refuse_other (s : State) (reason : Nat) (hi : i < 64) (out : i < 12 ∨ 16 ≤ i) : (s.stileRefuse reason).stileBit i = s.stileBit i := by
  rw [State.stileRefuse, stileBit_setFld_other (f := F.stileStatus.refReason) _ rfl hi (by show i < 13 ∨ 13 + 3 ≤ i; omega), State.setBit_eq,
    stileBit_setFld_other (f := F.stileStatus.refused) _ rfl hi (by show i < 12 ∨ 12 + 1 ≤ i; omega)]

@[simp] theorem stileBit_markSeen (s : State) (n i : Nat) : (s.markSeen n).stileBit i = s.stileBit i := by rw [State.stileBit, reg_markSeen, State.stileBit]

/-! ### What work on one axis leaves of another -/

/-- The bits of `STILE_STATUS` that speak of axis `a`: closed, moving, pending and the cause. -/
def axisBit (a i : Nat) : Prop := i = a ∨ i = 4 + a ∨ i = 8 + a ∨ (16 + 4 * a ≤ i ∧ i < 20 + 4 * a)

/-- Nothing is changed of the Stile of axis `a`; a refusal that was shown is shown still. -/
structure AxisStill (a : Nat) (s u : State) : Prop extends LinkFrame s u [R.stileStatus] where
  objs : u.objs = s.objs
  bits : ∀ i, axisBit a i → u.stileBit i = s.stileBit i
  refused : s.stileBit 12 = true → u.stileBit 12 = true
  acked : u.acked a = s.acked a

namespace AxisStill

theorem refl (a : Nat) (s : State) : AxisStill a s s := ⟨.refl s _, rfl, fun _ _ => rfl, id, rfl⟩

theorem trans (h : AxisStill a s m) (g : AxisStill a m u) : AxisStill a s u :=
  ⟨h.toLinkFrame.trans g.toLinkFrame (List.Subset.refl _), g.objs.trans h.objs, fun i hi => (g.bits i hi).trans (h.bits i hi),
    fun r => g.refused (h.refused r), g.acked.trans h.acked⟩

theorem setFld (h : AxisStill a s m) (ha : a < 4) (hf : f.reg = R.stileStatus) (apart : ∀ i, axisBit a i → i < f.lo ∨ f.lo + f.width ≤ i)
    (plain : f.lo + f.width ≤ 12 ∨ 12 < f.lo) : AxisStill a s (m.setFld f v) := by
  refine ⟨h.toLinkFrame.setFld (hf ▸ .head _), h.objs, fun i hi => ?_, fun r => ?_, h.acked⟩
  · rw [stileBit_setFld_other m hf (by unfold axisBit at hi; omega) (apart i hi), h.bits i hi]
  · rw [stileBit_setFld_other m hf (by omega) (by omega), h.refused r]

/-- A bit of another axis. -/
theorem setAxisBit (h : AxisStill a s m) (ha : a < 4) (hb : b < 4) (other : b ≠ a) (hf : f.reg = R.stileStatus)
    (row : f.lo = 0 ∨ f.lo = 4 ∨ f.lo = 8) {x : Bool} : AxisStill a s (m.setAxisBit f b x) := by
  refine h.setFld (f := ⟨f.reg, f.lo + b, 1⟩) ha hf (fun i hi => ?_) (.inl ?_)
  · show i < f.lo + b ∨ f.lo + b + 1 ≤ i
    unfold axisBit at hi
    omega
  · show f.lo + b + 1 ≤ 12
    omega

theorem refuse (h : AxisStill a s m) (ha : a < 4) : AxisStill a s (m.stileRefuse why) := by
  refine ⟨(h.toLinkFrame.setBit (.head _)).setFld (.head _), h.objs, fun i hi => ?_, fun _ => stileBit_refused m why, h.acked⟩
  unfold axisBit at hi
  rw [stileBit_refuse_other m why (by omega) (by omega), h.bits i hi]

theorem markSeen {n : Nat} (h : AxisStill a s m) : AxisStill a s (m.markSeen n) :=
  ⟨h.toLinkFrame.markSeen, (objs_markSeen m n).trans h.objs, fun i hi => (stileBit_markSeen m n i).trans (h.bits i hi),
    fun r => (stileBit_markSeen m n 12).trans (h.refused r), by rw [State.acked, stileAcks_markSeen]; exact h.acked⟩

theorem ite {c : Prop} {_ : Decidable c} {x y : State} (hx : AxisStill a s x) (hy : AxisStill a s y) : AxisStill a s (if c then x else y) := by
  split
  · exact hx
  · exact hy

theorem moving (h : AxisStill a s u) (ha : a < 4) : u.stileMoving a = s.stileMoving a := by
  rw [stileMoving_eq u ha, stileMoving_eq s ha, h.bits _ (.inr (.inl rfl))]

theorem closed (h : AxisStill a s u) (ha : a < 4) : u.stileClosed a = s.stileClosed a := by
  rw [stileClosed_eq u ha, stileClosed_eq s ha, h.bits _ (.inl rfl)]

theorem pending (h : AxisStill a s u) (ha : a < 4) :
    (u.fld F.stileStatus.openPending).testBit a = (s.fld F.stileStatus.openPending).testBit a := by
  rw [openPending_eq u ha, openPending_eq s ha, h.bits _ (.inr (.inr (.inl rfl)))]

theorem cause (h : AxisStill a s u) : u.stileCause a = s.stileCause a := by
  refine Nat.eq_of_testBit_eq fun i => ?_
  rw [State.stileCause, State.stileCause, testBit_fld, testBit_fld]
  by_cases hi : i < 4
  · exact congrArg _ (h.bits (16 + 4 * a + i) (.inr (.inr (.inr (by omega)))))
  · rw [decide_eq_false hi]
    rfl

theorem bothLoop (h : AxisStill a s u) (ha : a < 4) : u.bothLoop a = s.bothLoop a := by
  have status {p : Nat} (hp : p < 8) : R.portStatus p ∉ [R.stileStatus] := by
    rw [List.mem_singleton]
    unfold R.portStatus R.stileStatus
    omega
  rw [State.bothLoop, State.bothLoop, h.portState (status (by omega)), h.portState (status (by omega))]

/-- The run of bypassed positions rests on the map and the coordinate (R272). -/
theorem runTooLong (h : AxisStill a s u) (ha : a < 4) : u.runTooLong a = s.runTooLong a := by
  have dims {f : Fld} (hf : f.reg = R.torusDims) : u.fld f = s.fld f := h.fld (by rw [hf]; decide)
  have len : u.ringLen a = s.ringLen a := by
    unfold State.ringLen
    rw [dims rfl, dims rfl, dims rfl, dims rfl]
  have map : u.reg (R.bypassMap a) = s.reg (R.bypassMap a) := h.regs _ (by
    rw [List.mem_singleton]
    unfold R.bypassMap R.stileStatus
    omega)
  have run (dir fuel : Nat) : ∀ pos, u.bypassRun a dir fuel pos = s.bypassRun a dir fuel pos := by
    induction fuel with
    | zero => exact fun _ => rfl
    | succ fuel ih => intro pos; simp only [State.bypassRun, len, map, ih]
  have coord : u.coord = s.coord := by rw [State.coord, State.obj, h.objs]; rfl
  simp only [State.runTooLong, len, coord, run]

end AxisStill

end Sys2Proof.Machine
end

section
/-! SUPPORT. Commands to the Stiles, axis by axis, and what a finished movement leaves (R271 to R274, R449). -/

namespace Sys2Proof.Machine

variable {s m u : State} {a b i why p q : Nat} {force : Bool} {ks : List Nat}

/-! ### One axis at a time -/

/-- Work on registers of the Stiles alone that is done axis by axis: each listed axis has its turn in a state that shows of it what the first state
showed, and what that turn leaves of it is not changed by the others. -/
theorem axes_each {f : State → Nat → State} {l : List Nat} (distinct : l.Nodup) (low : ∀ b ∈ l, b < 4)
    (frame : ∀ m b, LinkFrame m (f m b) [R.stileStatus]) (still : ∀ m a b, a < 4 → b < 4 → b ≠ a → AxisStill a m (f m b)) (s : State) :
    (∀ a ∈ l, ∃ m, AxisStill a s m ∧ AxisStill a (f m a) (forEach l f s)) ∧ (∀ a, a < 4 → a ∉ l → AxisStill a s (forEach l f s))
    ∧ LinkFrame s (forEach l f s) [R.stileStatus] := by
  refine ⟨fun a ha => ?_, fun a ha out => ?_, ?_⟩
  · exact forEach_at (AxisStill.refl a) AxisStill.trans distinct ha fun m b hb other => still m a b (low a ha) (low b hb) other
  · exact forEach_still (AxisStill.refl a) AxisStill.trans fun m b hb => still m a b ha (low b hb) fun e => out (e ▸ hb)
  · exact (LinkFrame.refl s _).forEach fun m hm b _ => hm.trans (frame m b) (List.Subset.refl _)

theorem LinkFrame.setAxisBit {f : Fld} {x : Bool} (h : LinkFrame s m ks) (hf : f.reg ∈ ks) : LinkFrame s (m.setAxisBit f a x) ks := h.setFld hf
theorem LinkFrame.stileRefuse (h : LinkFrame s m ks) (hf : R.stileStatus ∈ ks) : LinkFrame s (m.stileRefuse why) ks := (h.setFld hf).setFld hf

/-- The cause of a movement. -/
theorem stileCause_setFld (s : State) (a v : Nat) (ha : a < 4) (hv : v < 16) : (s.setFld ⟨R.stileStatus, 16 + 4 * a, 4⟩ v).stileCause a = v := by
  rw [State.stileCause, State.fld_setFld_same _ _ _ (by show 16 + 4 * a + 4 ≤ 64; omega)]
  exact Nat.mod_eq_of_lt hv

theorem stileCause_markSeen (s : State) (n a : Nat) : (s.markSeen n).stileCause a = s.stileCause a := State.fld_congr (reg_markSeen _ _ _)

/-! ### Closing -/

/-- The Stile of an axis starts to close. -/
def State.closing (s : State) (a why : Nat) : State :=
  ((((s.setAxisBit F.stileStatus.closed a false).setAxisBit F.stileStatus.moving a true).setAxisBit F.stileStatus.openPending a false).setFld
    ⟨R.stileStatus, 16 + 4 * a, 4⟩ why).markSeen 3

theorem startClose_eq (s : State) (a why : Nat) : s.startClose a why = if s.stileClosed a ∧ ¬ s.stileMoving a then s else s.closing a why := rfl

theorem closing_spec (s : State) (ha : a < 4) (hw : why < 16) : (s.closing a why).stileMoving a = true ∧ (s.closing a why).stileCause a = why := by
  unfold State.closing
  constructor
  · rw [stileMoving_eq _ ha, stileBit_markSeen,
      stileBit_setFld_other (f := ⟨R.stileStatus, 16 + 4 * a, 4⟩) _ rfl (by omega) (.inl (by show 4 + a < 16 + 4 * a; omega)),
      stileBit_setAxisBit_other (f := F.stileStatus.openPending) _ rfl _ (by omega) (by show 4 + a ≠ 8 + a; omega)]
    exact stileBit_setAxisBit (f := F.stileStatus.moving) _ rfl true (by show 4 + a < 64; omega)
  · rw [stileCause_markSeen, stileCause_setFld _ _ _ ha hw]

theorem closing_frame (s : State) (a why : Nat) : LinkFrame s (s.closing a why) [R.stileStatus] := by
  have bits := (((LinkFrame.refl s [R.stileStatus]).setAxisBit (a := a) (f := F.stileStatus.closed) (x := false) (.head _)).setAxisBit (a := a)
    (f := F.stileStatus.moving) (x := true) (.head _)).setAxisBit (a := a) (f := F.stileStatus.openPending) (x := false) (.head _)
  exact (bits.setFld (f := ⟨R.stileStatus, 16 + 4 * a, 4⟩) (v := why) (.head _)).markSeen

theorem AxisStill.closing (ha : a < 4) (hb : b < 4) (other : b ≠ a) : AxisStill a s (s.closing b why) := by
  have bits := (((AxisStill.refl a s).setAxisBit (f := F.stileStatus.closed) (x := false) ha hb other rfl (.inl rfl)).setAxisBit
    (f := F.stileStatus.moving) (x := true) ha hb other rfl (.inr (.inl rfl))).setAxisBit (f := F.stileStatus.openPending) (x := false) ha hb other rfl (.inr (.inr rfl))
  refine (bits.setFld (f := ⟨R.stileStatus, 16 + 4 * b, 4⟩) ha rfl (fun i hi => ?_) (.inr ?_)).markSeen
  · show i < 16 + 4 * b ∨ 16 + 4 * b + 4 ≤ i
    unfold axisBit at hi
    omega
  · show 12 < 16 + 4 * b
    omega

theorem startClose_frame (s : State) (a why : Nat) : LinkFrame s (s.startClose a why) [R.stileStatus] := .ite (.refl s _) (closing_frame s a why)

theorem AxisStill.startClose (ha : a < 4) (hb : b < 4) (other : b ≠ a) : AxisStill a s (s.startClose b why) := .ite (.refl a s) (.closing ha hb other)

theorem startClose_open (open_ : s.stileClosed a = false ∨ s.stileMoving a = true) : s.startClose a why = s.closing a why := by
  rw [startClose_eq, if_neg]
  rintro ⟨closed, rests⟩
  rcases open_ with h | h
  · simp [h] at closed
  · exact rests h

theorem startClose_closed (closed : s.stileClosed a = true) (rests : s.stileMoving a = false) : s.startClose a why = s := by
  rw [startClose_eq, if_pos ⟨closed, by simp [rests]⟩]

theorem closeAxis_frame (s : State) (a why : Nat) (force : Bool) : LinkFrame s (s.closeAxis a why force) [R.stileStatus] :=
  .ite ((LinkFrame.refl s _).stileRefuse (.head _)) (.ite (.refl s _) (.ite ((LinkFrame.refl s _).stileRefuse (.head _)) (startClose_frame s a why)))

theorem AxisStill.closeAxis (ha : a < 4) (hb : b < 4) (other : b ≠ a) : AxisStill a s (s.closeAxis b why force) :=
  .ite ((AxisStill.refl a s).refuse ha) (.ite (.refl a s) (.ite ((AxisStill.refl a s).refuse ha) (.startClose ha hb other)))

theorem closeAxis_starts (rests : s.stileMoving a = false) (open_ : s.stileClosed a = false) (may : s.runTooLong a = false ∨ force = true) :
    s.closeAxis a why force = s.closing a why := by
  have allowed : ¬ (s.runTooLong a = true ∧ ¬ force = true) := by
    rcases may with h | h
    · simp [h]
    · simp [h]
  rw [State.closeAxis, if_neg (by simp [rests]), if_neg (by simp [open_]), if_neg allowed, startClose_open (.inl open_)]

theorem closeAxis_refused (rests : s.stileMoving a = false) (open_ : s.stileClosed a = false) (long : s.runTooLong a = true) (plain : force = false) :
    s.closeAxis a why force = s.stileRefuse 2 := by
  rw [State.closeAxis, if_neg (by simp [rests]), if_neg (by simp [open_]), if_pos ⟨long, by simp [plain]⟩]

theorem stileMoving_refuse (s : State) (ha : a < 4) : (s.stileRefuse why).stileMoving a = s.stileMoving a :=
  ((AxisStill.refl a s).refuse ha).moving ha

/-! ### Opening -/

/-- The state with the acknowledgements of an axis used up. -/
def State.acksUsed (s : State) (a : Nat) : State := { s with stileAcks := s.stileAcks &&& (0xFF - 3 * 2 ^ (2 * a)) }

theorem startOpen_eq (s : State) (a : Nat) : s.startOpen a =
    (((s.acksUsed a).setAxisBit F.stileStatus.openPending a false).setAxisBit F.stileStatus.moving a true).markSeen 3 := rfl

/-- The acknowledgements of another axis are kept. -/
theorem acked_acksUsed (s : State) (ha : a < 4) (hb : b < 4) (other : b ≠ a) : (s.acksUsed b).acked a = s.acked a := by
  have kept : ∀ a b : Fin 4, b ≠ a → (0xFF - 3 * 2 ^ (2 * b.val)).testBit (2 * a.val) = true
      ∧ (0xFF - 3 * 2 ^ (2 * b.val)).testBit (2 * a.val + 1) = true := by decide
  obtain ⟨low, high⟩ := kept ⟨a, ha⟩ ⟨b, hb⟩ fun e => other (congrArg Fin.val e)
  simp only [State.acked, State.acksUsed, Nat.testBit_and, low, high, Bool.and_true]

theorem startOpen_frame (s : State) (a : Nat) : LinkFrame s (s.startOpen a) [R.stileStatus] := by
  have used : LinkFrame s (s.acksUsed a) [R.stileStatus] := ⟨.refl s _, rfl, rfl, rfl⟩
  exact ((used.setAxisBit (.head _)).setAxisBit (.head _)).markSeen

theorem AxisStill.startOpen (ha : a < 4) (hb : b < 4) (other : b ≠ a) : AxisStill a s (s.startOpen b) := by
  have used : AxisStill a s (s.acksUsed b) := ⟨⟨.refl s _, rfl, rfl, rfl⟩, rfl, fun _ _ => rfl, id, acked_acksUsed s ha hb other⟩
  exact ((used.setAxisBit (f := F.stileStatus.openPending) (x := false) ha hb other rfl (.inr (.inr rfl))).setAxisBit
    (f := F.stileStatus.moving) (x := true) ha hb other rfl (.inr (.inl rfl))).markSeen

theorem startOpen_spec (s : State) (ha : a < 4) :
    (s.startOpen a).stileMoving a = true ∧ ((s.startOpen a).fld F.stileStatus.openPending).testBit a = false := by
  rw [startOpen_eq, stileMoving_eq _ ha, openPending_eq _ ha, stileBit_markSeen, stileBit_markSeen]
  constructor
  · exact stileBit_setAxisBit (f := F.stileStatus.moving) _ rfl true (by show 4 + a < 64; omega)
  · rw [stileBit_setAxisBit_other (f := F.stileStatus.moving) _ rfl _ (by omega) (by show 8 + a ≠ 4 + a; omega)]
    exact stileBit_setAxisBit (f := F.stileStatus.openPending) _ rfl false (by show 8 + a < 64; omega)

theorem openAxis_frame (s : State) (a : Nat) : LinkFrame s (s.openAxis a) [R.stileStatus] :=
  .ite ((LinkFrame.refl s _).stileRefuse (.head _)) (.ite (.refl s _) (.ite ((LinkFrame.refl s _).stileRefuse (.head _))
    (.ite (startOpen_frame s a) ((LinkFrame.refl s _).setAxisBit (.head _)))))

theorem AxisStill.openAxis (ha : a < 4) (hb : b < 4) (other : b ≠ a) : AxisStill a s (s.openAxis b) :=
  .ite ((AxisStill.refl a s).refuse ha) (.ite (.refl a s) (.ite ((AxisStill.refl a s).refuse ha) (.ite (.startOpen ha hb other)
    ((AxisStill.refl a s).setAxisBit (f := F.stileStatus.openPending) ha hb other rfl (.inr (.inr rfl))))))

section Opens
variable (rests : s.stileMoving a = false) (closed : s.stileClosed a = true)
include rests closed

theorem openAxis_starts (loops : s.bothLoop a = true) (acked : s.acked a = true) : s.openAxis a = s.startOpen a := by
  simp [State.openAxis, rests, closed, loops, acked]

theorem openAxis_pends (loops : s.bothLoop a = true) (acked : s.acked a = false) : s.openAxis a = s.setAxisBit F.stileStatus.openPending a true := by
  simp [State.openAxis, rests, closed, loops, acked]

theorem openAxis_refused (loops : s.bothLoop a = false) : s.openAxis a = s.stileRefuse 1 := by
  simp [State.openAxis, rests, closed, loops]

end Opens

/-! ### Acknowledgements -/

/-- A pending axis whose neighbours are acknowledged opens, or is refused when its ports have left `LOOP` (R274). -/
def State.ackAxis (s : State) (a : Nat) : State :=
  if ¬ ((s.fld F.stileStatus.openPending).testBit a ∧ s.acked a) then s
  else if s.bothLoop a then s.startOpen a
  else (s.setAxisBit F.stileStatus.openPending a false).stileRefuse 1

/-- The state with the neighbours of a mask acknowledged. -/
def State.acksGiven (s : State) (mask : Nat) : State := { s with stileAcks := s.stileAcks ||| mask }

theorem stileAck_eq (s : State) (mask : Nat) : s.stileAck mask = forEach (upto 4) State.ackAxis (s.acksGiven mask) := rfl

theorem ackAxis_frame (s : State) (a : Nat) : LinkFrame s (s.ackAxis a) [R.stileStatus] :=
  .ite (.refl s _) (.ite (startOpen_frame s a) (((LinkFrame.refl s _).setAxisBit (.head _)).stileRefuse (.head _)))

theorem AxisStill.ackAxis (ha : a < 4) (hb : b < 4) (other : b ≠ a) : AxisStill a s (s.ackAxis b) :=
  .ite (.refl a s) (.ite (.startOpen ha hb other)
    (((AxisStill.refl a s).setAxisBit (f := F.stileStatus.openPending) ha hb other rfl (.inr (.inr rfl))).refuse ha))

theorem ackAxis_idle (idle : (s.fld F.stileStatus.openPending).testBit a = false) : s.ackAxis a = s := by simp [State.ackAxis, idle]

/-- The axis is no longer pending, and is refused: its Stile stays (R274). -/
theorem lapsed_spec (s : State) (ha : a < 4) (why : Nat) : let u := (s.setAxisBit F.stileStatus.openPending a false).stileRefuse why
    (u.fld F.stileStatus.openPending).testBit a = false ∧ u.stileMoving a = s.stileMoving a ∧ u.bit F.stileStatus.refused = true := by
  dsimp only
  refine ⟨?_, ?_, stileBit_refused _ why⟩
  · rw [openPending_eq _ ha, stileBit_refuse_other _ _ (by omega) (by omega)]
    exact stileBit_setAxisBit (f := F.stileStatus.openPending) _ rfl false (by show 8 + a < 64; omega)
  · rw [stileMoving_refuse _ ha, stileMoving_eq _ ha, stileMoving_eq _ ha,
      stileBit_setAxisBit_other (f := F.stileStatus.openPending) _ rfl _ (by omega) (by show 4 + a ≠ 8 + a; omega)]

theorem ackAxis_spec (ha : a < 4) (pending : (s.fld F.stileStatus.openPending).testBit a = true) (acked : s.acked a = true) : let u := s.ackAxis a
    (u.fld F.stileStatus.openPending).testBit a = false ∧ (s.bothLoop a = true → u.stileMoving a = true)
    ∧ (s.bothLoop a = false → u.stileMoving a = s.stileMoving a ∧ u.stileBit 12 = true) := by
  dsimp only
  rw [State.ackAxis, if_neg (not_not_intro ⟨pending, acked⟩)]
  split
  · next loops =>
    obtain ⟨moves, ended⟩ := startOpen_spec s ha
    exact ⟨ended, fun _ => moves, fun not => by simp [loops] at not⟩
  · next not =>
    obtain ⟨ended, stays, refused⟩ := lapsed_spec s ha 1
    exact ⟨ended, fun loops => absurd loops not, fun _ => ⟨stays, refused⟩⟩

end Sys2Proof.Machine
end

section
/-! SUPPORT. A Stile that has switched, and the statement about the Stiles (R271 to R274, R449). -/

namespace Sys2Proof.Machine

variable {s m u : State} {a b p q : Nat}

/-! ### The ports of an axis that has switched -/

/-- A port of the axis trains anew unless it is off or without power, or in ROM recovery mode (R449, R478). -/
def State.trainAnew (s : State) (p : Nat) : State :=
  if s.portState p = psDisabled ∨ ¬ s.bit (F.portCtl.enable p) ∨ s.fld F.pwrStatus.state ≤ 1 ∨ s.ronbin.recovery then s else s.startTraining p false

/-- What decides whether a port trains anew, and its link state. -/
structure PortAsWas (p : Nat) (s u : State) : Prop where
  status : u.reg (R.portStatus p) = s.reg (R.portStatus p)
  ctl : u.reg (R.portCtl p) = s.reg (R.portCtl p)
  power : u.reg R.pwrStatus = s.reg R.pwrStatus
  recovery : u.ronbin.recovery = s.ronbin.recovery
  port : u.port p = s.port p

theorem PortAsWas.refl (p : Nat) (s : State) : PortAsWas p s s := ⟨rfl, rfl, rfl, rfl, rfl⟩

theorem PortAsWas.trans (h : PortAsWas p s m) (g : PortAsWas p m u) : PortAsWas p s u :=
  ⟨g.status.trans h.status, g.ctl.trans h.ctl, g.power.trans h.power, g.recovery.trans h.recovery, g.port.trans h.port⟩

theorem port_startTraining_other (s : State) (keep : Bool) (other : q ≠ p) : (s.startTraining q keep).port p = s.port p := by
  unfold State.startTraining
  dsimp only
  rw [port_enterPort, State.port_setFld, State.port_modPort, if_neg other]
  rfl

theorem trainAnew_frame (s : State) (p : Nat) : LinkFrame s (s.trainAnew p) (R.portTrains p :: R.portLanes p :: portRegs p) :=
  .ite (.refl s _) (startTraining_frame s p false)

/-- Training one port anew leaves another as it was. -/
theorem trainAnew_other (s : State) (hp : p < 8) (other : q ≠ p) : PortAsWas p s (s.trainAnew q) := by
  have frame := trainAnew_frame s q
  have apart : ∀ k, k = R.portStatus p ∨ k = R.portCtl p ∨ k = R.pwrStatus → k ∉ R.portTrains q :: R.portLanes q :: portRegs q := by
    intro k hk
    simp only [portRegs, List.mem_cons, List.not_mem_nil, or_false, R.portStatus, R.portCtl, R.pwrStatus, R.portTrains, R.portLanes, R.unitReady,
      R.funcReady, R.intCause, R.msixPba] at hk ⊢
    omega
  refine ⟨frame.regs _ (apart _ (.inl rfl)), frame.regs _ (apart _ (.inr (.inl rfl))), frame.regs _ (apart _ (.inr (.inr rfl))),
    congrArg Ronbin.recovery frame.ronbin, ?_⟩
  unfold State.trainAnew
  split
  · rfl
  · exact port_startTraining_other s false other

theorem trainAnew_spec (hp : p < 8) (s : State) :
    if s.bit (F.portCtl.enable p) = true ∧ s.portState p ≠ psDisabled ∧ 2 ≤ s.fld F.pwrStatus.state ∧ s.ronbin.recovery = false then
      (s.trainAnew p).portState p = psLaser ∧ ((s.trainAnew p).port p).expect = 0
    else (s.trainAnew p).portState p = s.portState p := by
  split
  · next may =>
    obtain ⟨enabled, on, power, normal⟩ := may
    have trains : s.trainAnew p = s.startTraining p false := by
      rw [State.trainAnew, if_neg]
      rintro (h | h | h | h)
      · exact on h
      · exact h enabled
      · omega
      · simp [normal] at h
    rw [trains, port_startTraining]
    exact ⟨portState_startTraining s hp false, rfl⟩
  · next not =>
    rw [State.trainAnew, if_pos]
    by_contra h
    simp only [not_or, Bool.not_eq_true, Bool.not_eq_false, not_le] at h
    obtain ⟨on, enabled, power, normal⟩ := h
    exact not ⟨enabled, on, by omega, normal⟩

/-- What training anew rests on is as it was, so the port ends as it would have from there. -/
theorem PortAsWas.outcome (before : PortAsWas p s m) (after : PortAsWas p (m.trainAnew p) u) (hp : p < 8) :
    if s.bit (F.portCtl.enable p) = true ∧ s.portState p ≠ psDisabled ∧ 2 ≤ s.fld F.pwrStatus.state ∧ s.ronbin.recovery = false then
      u.portState p = psLaser ∧ (u.port p).expect = 0
    else u.portState p = s.portState p := by
  have each := trainAnew_spec hp m
  rwa [State.bit_congr (f := F.portCtl.enable p) before.ctl, State.portState_congr before.status, State.fld_congr (f := F.pwrStatus.state) before.power,
    before.recovery, ← State.portState_congr after.status, ← after.port] at each

/-- The two ports of an axis. -/
theorem trainBoth_spec (s : State) (ha : a < 4) : let u := forEach [2 * a, 2 * a + 1] State.trainAnew s
    (∀ p, p = 2 * a ∨ p = 2 * a + 1 → ∃ m, PortAsWas p s m ∧ PortAsWas p (m.trainAnew p) u)
    ∧ u.reg R.stileStatus = s.reg R.stileStatus ∧ u.mem = s.mem := by
  refine ⟨fun p hp => ?_, ?_⟩
  · have listed : p ∈ [2 * a, 2 * a + 1] := by simpa using hp
    refine forEach_at (PortAsWas.refl p) PortAsWas.trans (by simp) listed fun m q _ other => trainAnew_other m ?_ other
    omega
  · refine forEach_induction (P := fun m => m.reg R.stileStatus = s.reg R.stileStatus ∧ m.mem = s.mem) ⟨rfl, rfl⟩ fun m ⟨reg, mem⟩ q hq => ?_
    have apart : R.stileStatus ∉ R.portTrains q :: R.portLanes q :: portRegs q := by
      simp only [portRegs, List.mem_cons, List.not_mem_nil, or_false, R.stileStatus, R.portStatus, R.portTrains, R.portLanes, R.unitReady,
        R.funcReady, R.intCause, R.msixPba] at hq ⊢
      omega
    exact ⟨((trainAnew_frame m q).regs _ apart).trans reg, (trainAnew_frame m q).mem.trans mem⟩

/-! ### The end of a movement -/

section Movement
variable (closes : Prop) [Decidable closes]

/-- The Stile of an axis rests, closed or open; an open one shows no cause. -/
def State.stileRests (s : State) (a : Nat) : State :=
  let m := (s.setAxisBit F.stileStatus.moving a false).setAxisBit F.stileStatus.closed a closes
  if closes then m else m.setFld ⟨R.stileStatus, 16 + 4 * a, 4⟩ 0

/-- A close is reported unless power was lost (R272). -/
def State.reported (s : State) (a cause : Nat) : State :=
  if closes ∧ cause ≠ 1 then s.raise 0x2005 0 0x04 (2 * a) (a + 2 ^ 8 * cause) else s

/-- The state in which the ports of an axis that has switched train anew: a condition of every promise was seen (R294). -/
def State.stileSwitched (s : State) (a : Nat) : State :=
  ((s.stileRests closes a).reported closes a (s.fld ⟨R.stileStatus, 16 + 4 * a, 4⟩)).markSeen 3

theorem reported_logged (s : State) (a cause : Nat) : Logged s (s.reported closes a cause) := by
  unfold State.reported
  split
  · exact logged_raise
  · exact .refl s

theorem stileRests_frame (s : State) (a : Nat) : LinkFrame s (s.stileRests closes a) [R.stileStatus] := by
  have bits := ((LinkFrame.refl s [R.stileStatus]).setAxisBit (a := a) (f := F.stileStatus.moving) (x := false) (.head _)).setAxisBit (a := a)
    (f := F.stileStatus.closed) (x := closes) (.head _)
  exact .ite bits (bits.setFld (f := ⟨R.stileStatus, 16 + 4 * a, 4⟩) (v := 0) (.head _))

theorem port_stileRests (s : State) (a p : Nat) : (s.stileRests closes a).port p = s.port p := by
  unfold State.stileRests
  dsimp only
  split
  · rfl
  · rfl

theorem stileRests_spec (s : State) (ha : a < 4) : let u := s.stileRests closes a
    u.stileMoving a = false ∧ u.stileClosed a = decide closes ∧ (¬ closes → u.stileCause a = 0) := by
  let m := (s.setAxisBit F.stileStatus.moving a false).setAxisBit F.stileStatus.closed a closes
  have moving : m.stileBit (4 + a) = false := by
    rw [stileBit_setAxisBit_other (f := F.stileStatus.closed) _ rfl _ (by omega) (by show 4 + a ≠ 0 + a; omega)]
    exact stileBit_setAxisBit (f := F.stileStatus.moving) _ rfl false (by show 4 + a < 64; omega)
  have closed : m.stileBit a = decide closes := by
    have bit := stileBit_setAxisBit (a := a) (f := F.stileStatus.closed) (s.setAxisBit F.stileStatus.moving a false) rfl closes (by show 0 + a < 64; omega)
    rwa [show F.stileStatus.closed.lo + a = a from Nat.zero_add a] at bit
  have other {i : Nat} (hi : i < 16) : (m.setFld ⟨R.stileStatus, 16 + 4 * a, 4⟩ 0).stileBit i = m.stileBit i :=
    stileBit_setFld_other (f := ⟨R.stileStatus, 16 + 4 * a, 4⟩) m rfl (by omega) (.inl (by show i < 16 + 4 * a; omega))
  dsimp only
  rw [stileMoving_eq _ ha, stileClosed_eq _ ha]
  by_cases h : closes
  · rw [State.stileRests, if_pos h]
    exact ⟨moving, closed, fun not => absurd h not⟩
  · rw [State.stileRests, if_neg h]
    exact ⟨(other (by omega)).trans moving, (other (by omega)).trans closed, fun _ => stileCause_setFld m a 0 ha (by omega)⟩

/-- What the ports of the axis find once it has switched, and what is shown of the Stile then. -/
theorem stileSwitched_frame (s : State) (a : Nat) : LinkFrame s (s.stileSwitched closes a) (R.stileStatus :: logRegs) := by
  have rests := (stileRests_frame closes s a).mono (List.cons_subset_cons R.stileStatus (List.nil_subset logRegs))
  exact (rests.trans (reported_logged closes _ a _).frame (List.subset_cons_self _ _)).markSeen

theorem port_stileSwitched (s : State) (a p : Nat) : (s.stileSwitched closes a).port p = s.port p := by
  rw [State.stileSwitched, port_markSeen, (reported_logged closes _ a _).port, port_stileRests]

theorem status_stileSwitched (s : State) (a : Nat) : (s.stileSwitched closes a).reg R.stileStatus = (s.stileRests closes a).reg R.stileStatus := by
  rw [State.stileSwitched, reg_markSeen, (reported_logged closes _ a _).regs R.stileStatus (by decide)]

theorem asWas_stileSwitched (s : State) (a : Nat) (hp : p < 8) : PortAsWas p s (s.stileSwitched closes a) := by
  have frame := stileSwitched_frame closes s a
  have apart : ∀ k, k = R.portStatus p ∨ k = R.portCtl p ∨ k = R.pwrStatus → k ∉ R.stileStatus :: logRegs := by
    intro k hk
    simp only [logRegs, List.mem_cons, List.not_mem_nil, or_false, R.portStatus, R.portCtl, R.pwrStatus, R.stileStatus, R.logStatus,
      R.logDropped, R.logNextSeq] at hk ⊢
    omega
  exact ⟨frame.regs _ (apart _ (.inl rfl)), frame.regs _ (apart _ (.inr (.inl rfl))), frame.regs _ (apart _ (.inr (.inr rfl))),
    congrArg Ronbin.recovery frame.ronbin, port_stileSwitched closes s a p⟩

end Movement

theorem stileMoved_eq (moves : s.stileMoving a = true) :
    s.stileMoved a = forEach [2 * a, 2 * a + 1] State.trainAnew (s.stileSwitched (¬ s.stileClosed a) a) := by
  rw [State.stileMoved, if_neg (not_not_intro moves)]
  rfl

/-- The bits of `STILE_STATUS` rest on its register. -/
theorem stile_congr (h : u.reg R.stileStatus = s.reg R.stileStatus) (a : Nat) :
    u.stileMoving a = s.stileMoving a ∧ u.stileClosed a = s.stileClosed a ∧ u.stileCause a = s.stileCause a :=
  ⟨congrArg (Nat.testBit · a) (State.fld_congr (f := F.stileStatus.moving) h), congrArg (Nat.testBit · a) (State.fld_congr (f := F.stileStatus.closed) h),
    State.fld_congr (f := ⟨R.stileStatus, 16 + 4 * a, 4⟩) h⟩

/-! ### The statement -/

/-- Settles O36: work on one axis leaves the bits, the acknowledgements and the checks of the others, so each axis of a command may be looked at alone. -/
theorem stileCompletes : Obligations.StileCompletes := by
  unfold Obligations.StileCompletes
  intro s
  have listed {mask a : Nat} : a ∈ (upto 4).filter (fun a => mask.testBit a) ↔ a < 4 ∧ mask.testBit a = true := by
    rw [List.mem_filter, mem_upto]
  have distinct (mask : Nat) : ((upto 4).filter fun a => mask.testBit a).Nodup := List.nodup_range.filter _
  refine ⟨fun mask force obj served => ⟨_, rfl, ?close⟩, fun mask => ⟨_, rfl, ?reopen⟩, fun mask nothing => ⟨_, rfl, ?noPending⟩,
    fun mask a pending low high => ⟨_, rfl, ?acked⟩, fun a pending => ⟨_, rfl, ?lapse⟩, fun a moves => ⟨_, rfl, ?moved⟩, ⟨_, rfl, ?powerLoss⟩⟩
  case close =>
    have eq : (if obj && !s.dictServes O.stileClose then s else s.stileClose mask.toNat (if obj then 5 else 4) force)
        = s.stileClose mask.toNat (if obj then 5 else 4) force := by
      refine if_neg fun h => ?_
      obtain ⟨byObject, refused⟩ := Bool.and_eq_true_iff.mp h
      simp [served byObject] at refused
    have small : (if obj then 5 else 4) < 16 := by split <;> omega
    obtain ⟨each, others, frame⟩ := axes_each (f := fun s a => s.closeAxis a (if obj then 5 else 4) force) (distinct mask.toNat)
      (fun b hb => (listed.mp hb).1) (fun m b => closeAxis_frame m b _ _) (fun m a b ha hb other => .closeAxis ha hb other) s
    rw [eq]
    refine ⟨fun a ha asked rests open_ may => ?_, fun a ha asked rests open_ long plain => ?_, fun a ha unasked => ?_, frame.regs, frame.bytes⟩
    · obtain ⟨m, before, after⟩ := each a (listed.mpr ⟨ha, asked⟩)
      rw [closeAxis_starts ((before.moving ha).trans rests) ((before.closed ha).trans open_) (before.runTooLong ha ▸ may)] at after
      obtain ⟨moving, cause⟩ := closing_spec m ha small
      exact ⟨(after.moving ha).trans moving, after.cause.trans cause⟩
    · obtain ⟨m, before, after⟩ := each a (listed.mpr ⟨ha, asked⟩)
      rw [closeAxis_refused ((before.moving ha).trans rests) ((before.closed ha).trans open_) ((before.runTooLong ha).trans long) plain] at after
      exact ⟨(after.moving ha).trans ((stileMoving_refuse m ha).trans ((before.moving ha).trans rests)), after.refused (stileBit_refused m 2)⟩
    · have still := others a ha fun h => by simp [unasked] at h
      exact ⟨still.moving ha, still.closed ha⟩
  case reopen =>
    obtain ⟨each, -, frame⟩ := axes_each (f := State.openAxis) (distinct mask.toNat) (fun b hb => (listed.mp hb).1) openAxis_frame
      (fun m a b ha hb other => .openAxis ha hb other) s
    refine ⟨fun a ha asked rests closed even odd => ⟨fun acked => ?_, fun unacked => ?_⟩, fun a ha asked rests closed loops => ?_, frame.regs, frame.bytes⟩
    · obtain ⟨m, before, after⟩ := each a (listed.mpr ⟨ha, asked⟩)
      have loops : s.bothLoop a = true := by simp [State.bothLoop, even, odd]
      rw [openAxis_starts ((before.moving ha).trans rests) ((before.closed ha).trans closed) ((before.bothLoop ha).trans loops)
        (before.acked.trans acked)] at after
      exact (after.moving ha).trans (startOpen_spec m ha).1
    · obtain ⟨m, before, after⟩ := each a (listed.mpr ⟨ha, asked⟩)
      have loops : s.bothLoop a = true := by simp [State.bothLoop, even, odd]
      rw [openAxis_pends ((before.moving ha).trans rests) ((before.closed ha).trans closed) ((before.bothLoop ha).trans loops)
        (before.acked.trans unacked)] at after
      exact (after.bits (8 + a) (.inr (.inr (.inl rfl)))).trans
        (stileBit_setAxisBit (f := F.stileStatus.openPending) m rfl true (by show 8 + a < 64; omega))
    · obtain ⟨m, before, after⟩ := each a (listed.mpr ⟨ha, asked⟩)
      rw [openAxis_refused ((before.moving ha).trans rests) ((before.closed ha).trans closed) ((before.bothLoop ha).trans loops)] at after
      exact ⟨(after.moving ha).trans ((stileMoving_refuse m ha).trans ((before.moving ha).trans rests)), after.refused (stileBit_refused m 1)⟩
  case noPending =>
    have idle (a : Nat) : (s.fld F.stileStatus.openPending).testBit a = false := by rw [nothing, Nat.zero_testBit]
    rw [stileAck_eq]
    exact forEach_id _ _ fun a _ => ackAxis_idle (idle a)
  case acked =>
    have given : (s.acksGiven mask.toNat).acked a = true := Bool.and_eq_true_iff.mpr ⟨low, high⟩
    obtain ⟨each, -, frame⟩ := axes_each (f := State.ackAxis) List.nodup_range (fun b hb => mem_upto.mp hb) ackAxis_frame
      (fun m a b ha hb other => .ackAxis ha hb other) (s.acksGiven mask.toNat)
    obtain ⟨m, before, after⟩ := each a (mem_upto.mpr a.isLt)
    obtain ⟨ended, opens, stays⟩ := ackAxis_spec a.isLt ((before.pending a.isLt).trans pending) (before.acked.trans given)
    have loops : m.bothLoop a = s.bothLoop a := before.bothLoop a.isLt
    rw [stileAck_eq]
    refine ⟨(after.pending a.isLt).trans ended, fun loop => (after.moving a.isLt).trans (opens (loops.trans loop)), fun left => ?_, frame.regs, frame.bytes⟩
    obtain ⟨still, refused⟩ := stays (loops.trans left)
    exact ⟨(after.moving a.isLt).trans (still.trans (before.moving a.isLt)), after.refused refused⟩
  case lapse =>
    obtain ⟨ended, -, refused⟩ := lapsed_spec s a.isLt 4
    rw [State.openLapse, if_pos pending]
    refine ⟨ended, refused, (State.fld_setFld_same _ _ _ (by decide)).trans rfl, ?_⟩
    have only := (setBit_only s ⟨R.stileStatus, 8 + a, 1⟩ false).trans
      ((setBit_only _ F.stileStatus.refused true).trans (setFld_only _ F.stileStatus.refReason 4))
    exact only.mono (js := [R.stileStatus, R.stileStatus, R.stileStatus]) (by decide)
  case moved =>
    obtain ⟨rests, closed, cause⟩ := stileRests_spec (¬ s.stileClosed a) s a.isLt
    obtain ⟨each, status, mem⟩ := trainBoth_spec (s.stileSwitched (¬ s.stileClosed a) a) a.isLt
    obtain ⟨sameMoving, sameClosed, sameCause⟩ := stile_congr (status.trans (status_stileSwitched _ s a)) a
    rw [stileMoved_eq moves]
    refine ⟨sameMoving.trans rests, sameClosed.trans (closed.trans ?_), fun opens => sameCause.trans (cause ?_), fun p hp => ?_,
      sameBytes_of_mem (mem.trans (stileSwitched_frame _ s a).mem)⟩
    · exact decide_eq_decide.mpr (Bool.not_eq_true _).to_iff
    · simpa using opens
    · have low : p < 8 := by omega
      obtain ⟨m, before, after⟩ := each p hp
      exact ((asWas_stileSwitched _ s a low).trans before).outcome after low
  case powerLoss =>
    obtain ⟨each, -, frame⟩ := axes_each (f := fun s a => s.startClose a 1) (l := upto 4) List.nodup_range (fun b hb => mem_upto.mp hb)
      (fun m b => startClose_frame m b 1) (fun m a b ha hb other => .startClose ha hb other) s
    refine ⟨fun a ha open_ => ?_, fun a ha closed rests => ?_, frame.regs, frame.bytes⟩
    · obtain ⟨m, before, after⟩ := each a (mem_upto.mpr ha)
      rw [startClose_open (by rw [before.closed ha, before.moving ha]; exact open_)] at after
      obtain ⟨moving, cause⟩ := closing_spec m ha (by omega : 1 < 16)
      exact ⟨(after.moving ha).trans moving, after.cause.trans cause⟩
    · obtain ⟨m, before, after⟩ := each a (mem_upto.mpr ha)
      rw [startClose_closed ((before.closed ha).trans closed) ((before.moving ha).trans rests)] at after
      exact ⟨(after.closed ha).trans ((before.closed ha).trans closed), (after.moving ha).trans ((before.moving ha).trans rests)⟩

end Sys2Proof.Machine
end

section
/-! SUPPORT. Counterexamples to two statements about the ports. A port that enters a training state looks again at bit 4 of `FUNC_READY`, and a
change of that bit sends a message to the host (R259, R327); and a transfer put together from its flits keeps the conditions of a promise that
held as its first flit arrived (R294, R296). -/

namespace Sys2Proof.Machine

/-! ### A message to the host -/

/-- Port 0 is enabled and in `ALIGN` behind the closed Stile of its axis, and bit 4 of `FUNC_READY` has not been cleared since it left `UP`.
Interrupts are unmasked, and the host has enabled MSI-X. -/
def aligningBehindStile : State :=
  { (((((State.reset.setFld (F.portStatus.state 0) psAlign).setFld F.stileStatus.closed 1).setBit ⟨R.funcReady, 4, 1⟩ true).setReg R.intMask 0).setBit
      (F.msixData.mask 19) false) with
    bring := { step := 4 }, cfg := [(msixDword, 0x80000000)] }

theorem out_aligned : (aligningBehindStile.trainStep 0 0 0).out = [.msix 19 0 0] := by decide +kernel

/-- Refutes O31: behind a closed Stile the port in `ALIGN` sends no flit, but bit 4 of `FUNC_READY` changes as the port goes on to `HANDSHAKE`, and
the interrupt of that change sends a message to the host. The statement says that nothing at all is sent, and none of its hypotheses has bit 4 agree
with the ports beforehand. -/
theorem not_trainingAndHandshakeComplete : ¬ Obligations.TrainingAndHandshakeComplete := by
  unfold Obligations.TrainingAndHandshakeComplete
  intro h
  obtain ⟨-, trains, -⟩ := h.1 0 0 0 aligningBehindStile
  obtain ⟨-, -, -, -, align, -⟩ := trains (by decide +kernel)
  obtain ⟨-, -, -, -, silent⟩ := (align (by decide +kernel)).post rfl
  have nothing : [Out.msix 19 0 0] = [] := out_aligned.symm.trans (silent (by decide +kernel))
  exact absurd nothing (List.cons_ne_nil _ _)

/-! ### Conditions kept with a transfer -/

/-- Port 0 is up; Lark is not locked. -/
def upUnlocked : State := State.reset.setFld (F.portStatus.state 0) psUp

/-- A `DATA` flit for this module that is the whole of a transfer. -/
def wholeTransfer : WireFlit :=
  let f : Flit := { type := 1, first := true, last := true }
  { hdr := f.header, payload := [], crc := crc32c (leBytes 12 f.header.toNat ++ padTo 240 []) }

theorem receives_wholeTransfer : Receives upUnlocked 0 1 wholeTransfer (upUnlocked.takeAck 0 (fieldsOf wholeTransfer)) :=
  ⟨by decide +kernel, beq_self_eq_true _, by decide +kernel, rfl⟩

theorem seen_of_dataIn :
    ((upUnlocked.takeAck 0 (fieldsOf wholeTransfer)).dataIn 0 (fieldsOf wholeTransfer)).arrived.map (·.seen) = [16] := by decide +kernel

/-- Refutes O33: the transfer that arrives carries the condition "Lark not locked" (R294), which acted when its first flit was taken into a
reassembly (R296). The statement has it carry none, and none of its hypotheses says that no condition acts. -/
theorem not_dataFlitCompletes : ¬ Obligations.DataFlitCompletes := by
  unfold Obligations.DataFlitCompletes
  intro h
  obtain ⟨here, -⟩ := h.1 0 wholeTransfer upUnlocked _ receives_wholeTransfer (by decide +kernel)
  obtain ⟨-, -, arrived, -, -⟩ :=
    (here (by decide +kernel) (by decide +kernel) (by decide +kernel) rfl rfl).post
      (congrArg Host.Outcome.next (onFlit_received receives_wholeTransfer fun s f => s.dataIn 0 f))
  have seen := seen_of_dataIn
  rw [arrived] at seen
  exact absurd seen (by decide +kernel)

end Sys2Proof.Machine
end

section
/-! SUPPORT. One SCLK on an empty queue (R301): what each part of the tick leaves, the fuse burn and the trial of a Ronbin block that serves (R475),
and the part of a publication that stages (R337). -/

namespace Sys2Proof.Machine

variable {s m : State}

/-! ### The tick and the clock -/

/-- The corrected length of one SCLK in units of 2^−40 ps, with the fraction carried so far (R301). -/
def State.tickTotal (s : State) : Int := 1000 * 2 ^ 40 + 1000 * ((s.reg R.larkRate).extractLsb' 0 32).toInt + (s.lark.fraction : Int)

/-- What passes in one SCLK beside the clock. -/
def State.tickWork (s : State) : State := s.throttleTick.stageTick.plcaTick.flashTick

theorem step_empty (h : s.pending = []) : step s = .next s.tick := by simp only [step, h]

theorem tick_eq (s : State) : s.tick =
    ({ s.tickWork with lark := { s.tickWork.lark with fraction := (s.tickWork.tickTotal % 2 ^ 40).toNat } }).setReg R.larkTime
      (BitVec.ofNat 64 (s.tickWork.now + (s.tickWork.tickTotal / 2 ^ 40).toNat)) := rfl

theorem larkTime_tick (s : State) :
    s.tick.reg R.larkTime = BitVec.ofNat 64 (s.tickWork.now + (s.tickWork.tickTotal / 2 ^ 40).toNat) := by
  rw [tick_eq, State.reg_setReg_same]

theorem reg_tick {k : Nat} (hk : k ≠ R.larkTime) : s.tick.reg k = s.tickWork.reg k := by
  rw [tick_eq, State.reg_setReg_other _ _ hk.symm]; rfl

/-- The fraction carried is a remainder, so it is not negative. -/
theorem fraction_tick (s : State) : (s.tick.lark.fraction : Int) = s.tickWork.tickTotal % 2 ^ 40 :=
  Int.toNat_of_nonneg (Int.emod_nonneg _ (by decide))

/-- The clock's own part of a tick. -/
theorem tick_only (s : State) : ∃ r l, s.tick = { s.tickWork with regs := r, lark := l } := by
  rw [tick_eq]
  generalize s.tickWork = w
  exact ⟨_, _, rfl⟩

theorem tick_pending (s : State) : s.tick.pending = s.tickWork.pending := by obtain ⟨r, l, only⟩ := tick_only s; rw [only]
theorem tick_publishes (s : State) : s.tick.publishes = s.tickWork.publishes := by obtain ⟨r, l, only⟩ := tick_only s; rw [only]
theorem tick_mem (s : State) : s.tick.mem = s.tickWork.mem := by obtain ⟨r, l, only⟩ := tick_only s; rw [only]
theorem tick_flash (s : State) : s.tick.flash = s.tickWork.flash := by obtain ⟨r, l, only⟩ := tick_only s; rw [only]
theorem tick_ronbin (s : State) : s.tick.ronbin = s.tickWork.ronbin := by obtain ⟨r, l, only⟩ := tick_only s; rw [only]

/-! ### Time above throttle level 0 (R446) -/

theorem throttleTick_only (s : State) : s.throttleTick = { s with regs := s.throttleTick.regs } := by
  unfold State.throttleTick
  split
  · rfl
  · exact (setReg_only s _ _).2

theorem reg_throttleTick {k : Nat} (hk : k ≠ R.throttleTime) : s.throttleTick.reg k = s.reg k := by
  unfold State.throttleTick
  split
  · rfl
  · exact State.reg_setReg_other _ _ hk.symm

/-! ### The Ronbin block's part (R475) -/

theorem fuseTurn_only (s : State) : ∃ f, s.fuseTurn = { s with flash := f } := by
  fun_cases State.fuseTurn s with
  | case1 => exact ⟨_, rfl⟩
  | case2 => exact ⟨s.flash, rfl⟩

/-- A serving Ronbin block with a trial image counts the time of the trial. -/
def State.trialTick (s : State) : State := if s.trialRuns then s.modRonbin fun r => { r with trialPs := r.trialPs + 1000 } else s

theorem flashTick_up (up : s.ronbinUp = true) : s.flashTick = s.trialTick.fuseTurn := if_neg (not_not.mpr up)

theorem trialTick_only (s : State) : ∃ r, s.trialTick = { s with ronbin := r } := by
  unfold State.trialTick
  split
  · exact ⟨_, rfl⟩
  · exact ⟨s.ronbin, rfl⟩

/-- A serving Ronbin block changes its own time and the fuses, and nothing else. -/
theorem flashTick_only (s : State) : ∃ r f, s.flashTick = { s with ronbin := r, flash := f } := by
  by_cases up : s.ronbinUp = true
  · obtain ⟨r, trial⟩ := trialTick_only s
    obtain ⟨f, fuse⟩ := fuseTurn_only s.trialTick
    exact ⟨r, f, by rw [flashTick_up up, fuse, trial]⟩
  · exact ⟨s.ronbin, s.flash, if_pos up⟩

theorem flashTick_flash (up : s.ronbinUp = true) : s.flashTick.flash = s.fuseTurn.flash := by
  rw [flashTick_up up, State.trialTick]
  split
  · unfold State.fuseTurn
    dsimp only [State.modRonbin]
    split <;> rfl
  · rfl

theorem flashTick_trialPs (up : s.ronbinUp = true) (runs : s.trialRuns = true) : s.flashTick.ronbin.trialPs = s.ronbin.trialPs + 1000 := by
  obtain ⟨f, fuse⟩ := fuseTurn_only s.trialTick
  rw [flashTick_up up, fuse, State.trialTick, if_pos runs]
  rfl

theorem fuseTurn_pending {k : Fin 2} (pend : s.flash.fusePending = true) (conf : s.flash.confirmed = some k) : s.fuseTurn = s.burnFuses k := by
  simp only [State.fuseTurn, pend, conf]

/-- The mask that keeps an image from revoking its own key, bit by bit. -/
theorem testBit_ownKey {k i : Nat} (hk : k < 4) (hi : i < 4) : (15 - 2 ^ k).testBit i = (i != k) := by
  interval_cases k <;> interval_cases i <;> rfl

/-- A key is revoked once it was, or once the image names it and is not signed with it (R462). -/
theorem testBit_revoked {i : Nat} (old new key : Nat) (hi : i < 4) :
    (old ||| (new &&& (15 - 2 ^ (key % 4)))).testBit i = (old.testBit i || (new.testBit i && i != key % 4)) := by
  rw [Nat.testBit_or, Nat.testBit_and, testBit_ownKey (Nat.mod_lt _ (by decide)) hi]

/-- A fuse burn by fields (R462, R475). -/
theorem burnFuses_flash (s : State) (k : Nat) : let u := (s.burnFuses k).flash
    u.fusePending = false ∧ u.mgmtSvn = max s.flash.mgmtSvn (min (s.bank k).svn 64) ∧ u.rtSvn = max s.flash.rtSvn (min (s.bank k).rtMin 64)
    ∧ ∀ i, i < 4 → u.revoked.testBit i = (s.flash.revoked.testBit i || ((s.bank k).revoke.testBit i && i != (s.bank k).key % 4)) := by
  simp only [State.burnFuses, State.flash_modFlash, Flash.recorded_fusePending, Flash.recorded_mgmtSvn, Flash.recorded_rtSvn, Flash.recorded_revoked,
    true_and]
  exact fun i hi => testBit_revoked _ _ _ hi

/-- The work of a tick in which no publication stages. -/
theorem tickWork_quiet (h : ∀ x ∈ s.publishes, x.opened = true → x.staged = true) : s.tickWork = s.throttleTick.plcaTick.flashTick := by
  have none : (s.throttleTick.publishes.filter fun x => x.opened && !x.staged) = [] := by
    rw [throttleTick_only, List.filter_eq_nil_iff]
    intro x hx on
    simp only [Bool.and_eq_true, Bool.not_eq_true'] at on
    exact absurd (h x hx on.1) (by simp [on.2])
  rw [State.tickWork, State.stageTick, none]; rfl

/-- Up to the Ronbin block's part a tick has changed `THROTTLE_TIME` and the time of the beacons. -/
theorem plcaTick_only (s : State) : ∃ ps, s.throttleTick.plcaTick =
    { s with regs := s.throttleTick.regs, ronbin := { s.ronbin with beaconPs := ps } } := by
  rw [State.plcaTick, State.modRonbin, throttleTick_only]
  exact ⟨_, rfl⟩

theorem tickWork_only (h : ∀ x ∈ s.publishes, x.opened = true → x.staged = true) :
    ∃ r f, s.tickWork = { s with regs := s.throttleTick.regs, ronbin := r, flash := f } := by
  obtain ⟨ps, before⟩ := plcaTick_only s
  obtain ⟨r, f, flash⟩ := flashTick_only s.throttleTick.plcaTick
  exact ⟨r, f, by rw [tickWork_quiet h, flash, before]⟩

/-! ### A part of a publication (R337) -/

theorem putPublish_same {x y : Publish} (h : s.publishes = [x]) (set : y.set = x.set) (cmd : y.cmd = x.cmd) : (s.putPublish y).publishes = [y] := by
  simp [State.putPublish, h, set, cmd]

/-- A part for another module, with parts behind it, is read and waits to be sent. -/
theorem stageOne_other {x : Publish} {k : Nat} {p : PubPart} {b : List Byte} (fresh : x.staged = false) (next : s.nextPart x = some (k, p))
    (part : s.stagePart x k p = some b) (other : p.coord ≠ s.coord) (more : ∃ j ∈ x.left, j ≠ k) :
    s.stageOne x = s.putPublish
      { x with left := x.left.filter (· != k), bytes := x.bytes + b.length, todo := x.todo ++ [(p.coord, p.base + p.offset, b)] } := by
  obtain ⟨j, hj, hjk⟩ := more
  have left : (x.left.filter (· != k)).isEmpty = false := by
    rw [List.isEmpty_eq_false_iff_exists_mem]
    exact ⟨j, List.mem_filter.2 ⟨hj, by simpa using hjk⟩⟩
  simp only [State.stageOne, next, part, beq_eq_false_iff_ne.2 other, left, fresh]
  rfl

theorem coord_throttleTick (s : State) : s.throttleTick.coord = s.coord := by
  rw [throttleTick_only s]; rfl

/-- One publication stages: the tick carries out its next part. -/
theorem stageTick_one {x : Publish} (one : s.publishes = [x]) (opened : x.opened = true) (fresh : x.staged = false) : s.stageTick = s.stageOne x := by
  rw [State.stageTick, one]
  simp [opened, fresh, forEach]

/-- Settles O52: the parts of a tick other than the clock leave the time, the rate and the fraction as they are, so the clock's equation is that of the
state before. -/
theorem emptyQueueTicks : Obligations.EmptyQueueTicks := by
  refine ⟨fun s none quiet => ⟨s.tick, step_empty none, ?_⟩, ?_⟩
  · obtain ⟨r, f, work⟩ := tickWork_only quiet
    have reg (k : Nat) : s.tickWork.reg k = s.throttleTick.reg k := by rw [work]; rfl
    have rest {k : Nat} (hk : k ≠ R.throttleTime) : s.tickWork.reg k = s.reg k := (reg k).trans (reg_throttleTick hk)
    have rate : s.tickWork.reg R.larkRate = s.reg R.larkRate := rest (by decide)
    have lark : s.tickWork.lark = s.lark := by rw [work]
    have total : s.tickWork.tickTotal = s.tickTotal := by rw [State.tickTotal, rate, lark]; rfl
    have now : s.tickWork.now = s.now := now_congr (rest (by decide))
    have time : s.tick.reg R.throttleTime = s.throttleTick.reg R.throttleTime := (reg_tick (by decide)).trans (reg _)
    obtain ⟨ps, before⟩ := plcaTick_only s
    refine ⟨?clock, ?fraction, ?level0, ?above, ?regs, ?bytes, ?queue, ?burn, ?trial⟩
    case clock => rw [larkTime_tick, total, now]; rfl
    case fraction => rw [fraction_tick, total]; rfl
    case level0 => intro low; rw [time, State.throttleTick, if_pos low]
    case above => intro high; rw [time, State.throttleTick, if_neg high, toNat_bumpReg_by]
    case regs =>
      intro k hk
      simp only [List.mem_cons, List.not_mem_nil, or_false, not_or] at hk
      exact (reg_tick hk.1).trans (rest hk.2)
    case bytes => exact sameBytes_of_mem (by rw [tick_mem, work])
    case queue => rw [tick_pending, work]; exact none
    case burn =>
      intro up k conf pend
      rw [tick_flash, tickWork_quiet quiet, flashTick_flash (by rw [before]; exact up),
        fuseTurn_pending (by rw [before]; exact pend) (by rw [before]; exact conf)]
      have flash : s.throttleTick.plcaTick.flash = s.flash := by rw [before]
      have bank : s.throttleTick.plcaTick.bank k = s.bank k := by rw [State.bank, flash, State.bank]
      simpa only [flash, bank] using burnFuses_flash s.throttleTick.plcaTick k
    case trial =>
      intro up runs
      rw [tick_ronbin, tickWork_quiet quiet, flashTick_trialPs (by rw [before]; exact up) (by rw [before]; exact runs), before]
  · intro s x k p b none one opened fresh next part other more
    have queue : s.throttleTick.pending = s.pending := by rw [throttleTick_only]
    have mem : s.throttleTick.mem = s.mem := by rw [throttleTick_only]
    have pubs : s.throttleTick.publishes = [x] := by rw [throttleTick_only]; exact one
    have staged := stageOne_other fresh next part (by rwa [coord_throttleTick]) more
    have work : s.tickWork = (s.throttleTick.stageOne x).plcaTick.flashTick := by rw [State.tickWork, stageTick_one pubs opened fresh]
    obtain ⟨r, f, flash⟩ := flashTick_only (s.throttleTick.stageOne x).plcaTick
    rw [flash, staged] at work
    refine ⟨s.tick, step_empty none, ?_, sameBytes_of_mem ?_, ?_⟩
    · rw [tick_pending, work]; exact queue.trans none
    · rw [tick_mem, work]; exact mem
    · rw [tick_publishes, work]; exact putPublish_same pubs rfl rfl

end Sys2Proof.Machine
end

section
/-! SUPPORT. Reservation banks (R285, R288): the start of a frame changes the status and the frame counts of each port, and each port apart from
the others. -/

namespace Sys2Proof.Machine

variable {s m : State} {p q : Nat}

/-- The status registers of all ports' banks. -/
def bankRegs : List Nat := (upto 8).map fun q => R.resStatus q

theorem resStatus_mem (hq : q < 8) : R.resStatus q ∈ bankRegs := List.mem_map.mpr ⟨q, mem_upto.mpr hq, rfl⟩

/-- What the start of a frame does with port `q`. -/
def State.bankTurn (s : State) (q : Nat) : State := (s.enterFrame q (s.now / framePs)).swapDue q

theorem frameStart_eq (h : s.publishes = []) : exec .frameStart s = .next (forEach (upto 8) State.bankTurn s) := by
  have none : (forEach (upto 8) State.bankTurn s).publishes = [] :=
    forEach_induction (P := fun m => m.publishes = []) h fun m hm q _ => by
      rw [State.bankTurn, State.swapDue, State.enterFrame]
      split <;> split <;> exact hm
  show Host.Outcome.next (State.publishRetry _) = _
  rw [State.publishRetry]
  change Host.Outcome.next (forEach (List.filter _ (forEach (upto 8) State.bankTurn s).publishes) _ (forEach (upto 8) State.bankTurn s)) = _
  rw [none]; rfl

/-! ### One port's turn -/

theorem frame_enterFrame (s : State) (q k : Nat) : ((s.enterFrame q k).port q).frame = k := by
  unfold State.enterFrame
  split
  · assumption
  · simp

theorem swapFrame_enterFrame (s : State) (q k : Nat) : ((s.enterFrame q k).port q).swapFrame = (s.port q).swapFrame := by
  unfold State.enterFrame
  split
  · rfl
  · simp

theorem enterFrame_linkFrame (s : State) (q k : Nat) : LinkFrame s (s.enterFrame q k) [] := .ite (.refl s []) (.modPort (.refl s []))

theorem ports_swapDue (s : State) (q : Nat) : (s.swapDue q).ports = s.ports := by
  unfold State.swapDue
  split <;> rfl

theorem swapDue_linkFrame (s : State) (q : Nat) : LinkFrame s (s.swapDue q) [R.resStatus q] := by
  unfold State.swapDue
  split
  · exact .setFld (.setFld (.setBit (.setFld (.refl s _) (by simp [F.resStatus.active])) (by simp [F.resStatus.swapPending]))
      (by simp [F.resStatus.schedSlots])) (by simp [F.resStatus.reserveSlots])
  · exact .refl s _

theorem bankTurn_linkFrame (s : State) (q : Nat) : LinkFrame s (s.bankTurn q) [R.resStatus q] :=
  ((enterFrame_linkFrame s q _).mono (List.nil_subset _)).trans (swapDue_linkFrame _ q) (List.Subset.refl _)

theorem port_bankTurn_other (s : State) (h : q ≠ p) : (s.bankTurn q).port p = s.port p := by
  have swap : (s.bankTurn q).port p = (s.enterFrame q (s.now / framePs)).port p := by
    simp only [State.port, State.bankTurn, ports_swapDue]
  rw [swap, State.enterFrame]
  split
  · rfl
  · rw [State.port_modPort, if_neg h]

theorem port_bankTurn_same (s : State) (q : Nat) : (s.bankTurn q).port q = (s.enterFrame q (s.now / framePs)).port q := by
  simp only [State.port, State.bankTurn, ports_swapDue]

/-! ### The swap of one port's banks -/

/-- The counts of a bank are counts of bytes of memory. -/
theorem countUse_congr (h : SameBytes s m) (p b v : Nat) : m.countUse p b v = s.countUse p b v := by
  simp only [State.countUse, State.slotUse, h _]

/-- What a swap of a port's banks shows (R288). -/
structure BankShown (s u : State) (p : Nat) : Prop where
  active : u.fld (F.resStatus.active p) = 1 - s.fld (F.resStatus.active p)
  done : u.bit (F.resStatus.swapPending p) = false
  sched : u.fld (F.resStatus.schedSlots p) = s.countUse p (1 - s.fld (F.resStatus.active p)) 1 % 4096
  reserve : u.fld (F.resStatus.reserveSlots p) = s.countUse p (1 - s.fld (F.resStatus.active p)) 2 % 4096

theorem swapDue_shown (pend : s.bit (F.resStatus.swapPending p) = true) (due : (s.port p).swapFrame ≤ s.now / framePs) :
    BankShown s (s.swapDue p) p := by
  have small : (1 - s.fld (F.resStatus.active p)) % 2 = 1 - s.fld (F.resStatus.active p) := Nat.mod_eq_of_lt (by omega)
  rw [State.swapDue, if_pos ⟨pend, due⟩]
  dsimp only
  constructor
  case active =>
    rw [State.fld_setFld_other _ _ _ _ (by simp [F.resStatus.active, F.resStatus.reserveSlots]),
      State.fld_setFld_other _ _ _ _ (by simp [F.resStatus.active, F.resStatus.schedSlots]), State.setBit,
      State.fld_setFld_other _ _ _ _ (by simp [F.resStatus.active, F.resStatus.swapPending]),
      State.fld_setFld_same _ _ _ (by simp [F.resStatus.active])]
    exact small
  case done =>
    rw [State.bit_eq_fld _ _ rfl, State.fld_setFld_other _ _ _ _ (by simp [F.resStatus.swapPending, F.resStatus.reserveSlots]),
      State.fld_setFld_other _ _ _ _ (by simp [F.resStatus.swapPending, F.resStatus.schedSlots]), ← State.bit_eq_fld _ _ rfl,
      bit_setBit_same _ rfl (by simp [F.resStatus.swapPending])]
  case sched =>
    rw [State.fld_setFld_other _ _ _ _ (by simp [F.resStatus.schedSlots, F.resStatus.reserveSlots]),
      State.fld_setFld_same _ _ _ (by simp [F.resStatus.schedSlots])]
    simp only [F.resStatus.schedSlots, Nat.reducePow]
    exact congrArg (· % 4096) (countUse_congr (fun _ => rfl) _ _ _)
  case reserve =>
    rw [State.fld_setFld_same _ _ _ (by simp [F.resStatus.reserveSlots])]
    simp only [F.resStatus.reserveSlots, Nat.reducePow]
    exact congrArg (· % 4096) (countUse_congr (fun _ => rfl) _ _ _)

theorem swapDue_none (none : s.bit (F.resStatus.swapPending p) = false) : s.swapDue p = s := by
  simp [State.swapDue, none]

theorem BankShown.congr {s' u' : State} (h : BankShown s u p) (bytes : SameBytes s' s) (before : s.reg (R.resStatus p) = s'.reg (R.resStatus p))
    (after : u'.reg (R.resStatus p) = u.reg (R.resStatus p)) : BankShown s' u' p := by
  have now : s.fld (F.resStatus.active p) = s'.fld (F.resStatus.active p) := State.fld_congr before
  refine ⟨?_, ?_, ?_, ?_⟩
  · rw [State.fld_congr after, h.active, now]
  · rw [State.bit_congr after, h.done]
  · rw [State.fld_congr after, h.sched, now, countUse_congr bytes]
  · rw [State.fld_congr after, h.reserve, now, countUse_congr bytes]

/-! ### All ports -/

/-- What the turns of other ports leave of port `p`. -/
structure BankStill (p : Nat) (s u : State) : Prop where
  reg : u.reg (R.resStatus p) = s.reg (R.resStatus p)
  time : u.reg R.larkTime = s.reg R.larkTime
  port : u.port p = s.port p
  mem : u.mem = s.mem

theorem BankStill.refl (p : Nat) (s : State) : BankStill p s s := ⟨rfl, rfl, rfl, rfl⟩
theorem BankStill.trans {x y z : State} (h : BankStill p x y) (g : BankStill p y z) : BankStill p x z :=
  ⟨g.reg.trans h.reg, g.time.trans h.time, g.port.trans h.port, g.mem.trans h.mem⟩

theorem bankStill_turn (hq : q ≠ p) : BankStill p s (s.bankTurn q) where
  reg := (bankTurn_linkFrame s q).regs _ (by simp [R.resStatus]; omega)
  time := (bankTurn_linkFrame s q).regs _ (by simp [R.resStatus, R.larkTime]; omega)
  port := port_bankTurn_other s hq
  mem := (bankTurn_linkFrame s q).mem

/-- Settles O38: each port's turn at the start of a frame shows its own bank, and the turns before and after it leave what it reads and shows. -/
theorem bankSwapCompletes : Obligations.BankSwapCompletes := by
  refine fun p s => ⟨fun k ahead passes => ?pend, fun k bad => ?refuse, fun none => ?start⟩
  case pend =>
    have ok : ¬ (k.toNat ≤ s.now / framePs ∨ ¬ s.bankPasses p (1 - s.fld (F.resStatus.active p))) := by
      rw [passes]; simpa using ahead
    refine ⟨s.resSwap p k.toNat, rfl, ?_⟩
    rw [State.resSwap, if_neg ok]
    refine ⟨bit_setBit_same _ rfl (by simp [F.resStatus.swapPending]) _, by simp, ?_, fun _ => rfl⟩
    exact (LinkFrame.setBit (.modPort (.refl s _)) (by simp [F.resStatus.swapPending])).regs
  case refuse =>
    have no : k.toNat ≤ s.now / framePs ∨ ¬ s.bankPasses p (1 - s.fld (F.resStatus.active p)) := by simpa using bad
    refine ⟨s.resSwap p k.toNat, rfl, ?_⟩
    rw [State.resSwap, if_pos no]
    exact ⟨bit_setBit_same _ rfl (by simp [F.resStatus.swapRefused]) _,
      (LinkFrame.setBit (.refl s _) (by simp [F.resStatus.swapRefused])).regs, rfl⟩
  case start =>
    obtain ⟨m, before, after⟩ := forEach_at (s := s) (f := State.bankTurn) (l := upto 8) (Still := BankStill p) (BankStill.refl p) BankStill.trans
      List.nodup_range (mem_upto.mpr p.isLt) fun m q _ hq => bankStill_turn hq
    have all : LinkFrame s (forEach (upto 8) State.bankTurn s) bankRegs :=
      (LinkFrame.refl s _).forEach fun m hm q hq => hm.trans (bankTurn_linkFrame m q) (by simpa using resStatus_mem (mem_upto.mp hq))
    have time : m.now = s.now := now_congr before.time
    have entered := enterFrame_linkFrame m p (m.now / framePs)
    have reg : (m.enterFrame p (m.now / framePs)).reg (R.resStatus p) = s.reg (R.resStatus p) := (entered.regs _ (by simp)).trans before.reg
    have bytes : SameBytes s (m.enterFrame p (m.now / framePs)) := sameBytes_of_mem (entered.mem.trans before.mem)
    refine ⟨_, frameStart_eq none, fun pend due => ?_, fun still => ?_, ?_, all.regs, all.bytes⟩
    · have shown : BankShown s (forEach (upto 8) State.bankTurn s) p := by
        refine (swapDue_shown ((State.bit_congr reg).trans pend) ?_).congr bytes reg after.reg
        rw [swapFrame_enterFrame, before.port, now_congr (entered.regs _ (by simp)), time]
        exact due
      exact ⟨shown.active, shown.done, shown.sched, shown.reserve⟩
    · rw [after.reg, State.bankTurn, swapDue_none ((State.bit_congr reg).trans still), reg]
    · rw [after.port, port_bankTurn_same, frame_enterFrame, time]

end Sys2Proof.Machine
end

section
/-! SUPPORT. A counterexample to the statement about admission: the restarted F1 goes on with its publications as well (R22, R337). -/

namespace Sys2Proof.Machine

variable {s : State}

/-- A publication of context 0 with no part for another module, read in full while F1 was down (R337). -/
def stagedPublication : Publish :=
  { set := 0, cmd := { count := 0, op := 0x06, flags := 0, seq := 1, cookie := 0, args := [] }, target := 1, slot := none, switch := false, gen := 0,
    parts := [], opened := true, staged := true }

/-- F1 runs again, no thread waits for admission, and a publication is left to be completed. -/
def restartedWithPublication : State := { State.reset.setFld (F.coreStatus.state 1) 2 with publishes := [stagedPublication] }

/-- With no thread on a tile no descriptor waits for admission. -/
theorem admission_noThreads (h : s.threads = []) (t n : Nat) : s.admission t n = s := by
  simp [State.admission, State.thread, h, Tab.get]

theorem forEach_admission_noThreads (l : List (Nat × Nat)) (h : s.threads = []) : forEach l (fun s e => s.admission e.1 e.2) s = s :=
  forEach_induction (P := fun m => m = s) rfl fun m hm e _ => by rw [hm]; exact admission_noThreads h _ _

theorem publishes_admitAgain : (restartedWithPublication.admitAgain 0).publishes = [] := by decide +kernel

/-- Refutes O23: F1, back again, also completes the publication that waited for it, so the state after it is not that of the judged descriptors alone. -/
theorem not_admissionCompletes : ¬ Obligations.AdmissionCompletes := by
  unfold Obligations.AdmissionCompletes
  intro h
  obtain ⟨-, -, again⟩ := h
  obtain ⟨u, run, l, only, -, -⟩ := (again 0 restartedWithPublication).2 (by decide +kernel)
  rw [forEach_admission_noThreads l rfl] at only
  have ended : u = restartedWithPublication.admitAgain 0 := (Host.Outcome.next.inj run).symm
  have left : (restartedWithPublication.admitAgain 0).publishes = [stagedPublication] := by rw [← ended, only]; rfl
  rw [publishes_admitAgain] at left
  exact absurd left (List.cons_ne_nil _ _).symm

end Sys2Proof.Machine
end

section
/-! SUPPORT. A counterexample to the statement about Lark: the `ACK` of a `TIME` flit can take the port it comes in at out of `UP` (R264, R271), and
the time parent's port is looked up after that (R303, R306). -/

namespace Sys2Proof.Machine

/-- A ring of two along W, the grandmaster at its other place. Port 0, the shorter way, is `UP` again and goes to `ARMED` once its replay buffer is
empty; the module still follows the grandmaster the other way round. -/
def armingTowardsParent : State :=
  { (((State.reset.setFld (F.portStatus.state 0) psUp).setFld F.torusDims.w 1).setFld F.larkGmCoord.val (2 ^ 13)).modPort 0
      (fun x => { x with arming := true }) with
    lark := { State.reset.lark with alt := true } }

/-- The answer to the request numbered 0 of a grandmaster that shows an offset of 0. -/
def parentAnswer : WireFlit :=
  let f : Flit := { type := 4, first := true, last := true, len := 37 }
  let b : List Byte := 1 :: List.replicate 36 0
  { hdr := f.header, payload := b, crc := crc32c (leBytes 12 f.header.toNat ++ padTo 240 b) }

theorem receives_parentAnswer : Receives armingTowardsParent 0 4 parentAnswer (armingTowardsParent.takeAck 0 (fieldsOf parentAnswer)) :=
  ⟨by decide +kernel, beq_self_eq_true _, by decide +kernel, rfl⟩

/-- With port 0 in `ARMED` the parent is the one behind port 1, so the answer at port 0 steers nothing. -/
theorem good_parentAnswer :
    ((armingTowardsParent.takeAck 0 (fieldsOf parentAnswer)).timeIn 0 (fieldsOf parentAnswer) 0).lark.good = 0 := by decide +kernel

/-- Refutes O39: port 0 is the parent's port as the answer comes in and no longer once its `ACK` is taken, so the offset does not count towards the
lock. The statement takes the parent's port from the state before and has the offset counted. -/
theorem not_larkCompletes : ¬ Obligations.LarkCompletes := by
  unfold Obligations.LarkCompletes
  intro h
  obtain ⟨⟨-, received, -⟩, -⟩ := h
  obtain ⟨-, answered⟩ := received 0 parentAnswer 0 armingTowardsParent _ receives_parentAnswer (by decide +kernel) (by decide +kernel)
  obtain ⟨-, -, -, small, -⟩ := answered (by decide +kernel) (by decide +kernel)
  obtain ⟨u, run, counted, -⟩ := small (by decide +kernel) (by decide +kernel) (by decide +kernel)
  have after : u = (armingTowardsParent.takeAck 0 (fieldsOf parentAnswer)).timeIn 0 (fieldsOf parentAnswer) 0 :=
    (Host.Outcome.next.inj run).symm.trans (onFlit_received receives_parentAnswer fun s f => s.timeIn 0 f 0)
  rw [after, good_parentAnswer] at counted
  exact absurd counted (by decide +kernel)

end Sys2Proof.Machine
end

section
/-! SUPPORT. Frame contracts (R300): the enable, its refusal, and the judgement of a frame. -/

namespace Sys2Proof.Machine

variable {s m u : State} {c k : Nat}

/-! ### Bits of one register -/

/-- A field reads as before a bit beside it was set. -/
theorem bit_setBit_beside (s : State) {f g : Fld} {b : Bool} (one : g.width = 1) (h : g.lo + g.width ≤ f.lo ∨ f.lo + f.width ≤ g.lo) :
    (s.setBit f b).bit g = s.bit g := by
  rw [State.bit_eq_fld _ _ one, State.bit_eq_fld _ _ one, State.setBit_eq, State.fld_setFld_other _ _ _ _ h]

theorem RegsBut.mono {js ks : List Nat} (h : RegsBut s u js) (sub : js ⊆ ks) : RegsBut s u ks := fun k hk => h k fun hj => hk (sub hj)

theorem Logged.ctx (h : Logged s u) (c : Nat) : u.ctx c = s.ctx c := by obtain ⟨⟨r, l, o, x, rfl⟩, -⟩ := h; rfl
theorem Logged.same (h : Logged s u) : SameBytes s u := h.frame.bytes

/-- A void promise is an event of severity 2 behind its count (R296). -/
theorem promiseVoid_logged (s : State) (unit other stream c kind flags late : Nat) :
    Logged (s.bumpReg R.promiseVoids) (s.promiseVoid unit other stream c kind flags late) := logged_raise_minor (by decide)

theorem promiseVoids_promiseVoid (s : State) (unit other stream c kind flags late : Nat) :
    ((s.promiseVoid unit other stream c kind flags late).reg R.promiseVoids).toNat = min ((s.reg R.promiseVoids).toNat + 1) (2 ^ 64 - 1) := by
  rw [(promiseVoid_logged s unit other stream c kind flags late).regs _ (by decide), toNat_bumpReg]

/-! ### Enabling a contract -/

/-- The contract of context `c` enabled: its first judged frame is that to come. -/
def State.contractOn (s : State) (c : Nat) : State :=
  (s.setBit (F.fcCtl.enable c) true).modCtx c fun x => { x with fcNext := s.firstFrame c, fcSeen := s.condNow }

theorem fcObj_ne_fcCtl (c : Nat) : R.fcObj c ≠ R.fcCtl c := by unfold R.fcObj R.fcCtl; omega

theorem contractOn_frame (s : State) (c : Nat) : RegsBut s (s.contractOn c) [R.fcCtl c] ∧ (s.contractOn c).mem = s.mem :=
  ⟨(setBit_only s (F.fcCtl.enable c) true).1, rfl⟩

theorem enable_contractOn (s : State) (c : Nat) : (s.contractOn c).bit (F.fcCtl.enable c) = true :=
  bit_setBit_true s rfl (by simp [F.fcCtl.enable])

theorem fcEnable_on (off : s.bit (F.fcCtl.enable c) = false) (fits : s.budgetExceeded c = false) :
    s.fcEnable c true = if isCounter (s.fld (F.fcObj.val c)) = true then
      (s.contractOn c).syncSet (s.fld (F.fcObj.val c)) (BitVec.ofNat 64 (s.firstFrame c)) else s.contractOn c := by
  have obj : (s.contractOn c).fld (F.fcObj.val c) = s.fld (F.fcObj.val c) :=
    State.fld_congr ((contractOn_frame s c).1 _ (by simpa [F.fcObj.val] using fcObj_ne_fcCtl c))
  simp only [State.fcEnable, off, fits, not_true, if_false, Bool.false_eq_true]
  rw [← obj]
  rfl

/-- A counter of a tile is one as `FC_OBJ` names it. -/
theorem isCounter_of_key (h : isCounterKey k) : isCounter k = true := by
  obtain ⟨t, o, ht, ho, rfl⟩ := h
  have place : placeOf (R.syncCount t o) = .control t (0x1000 + 8 * o) := by
    unfold placeOf R.syncCount
    rw [if_neg (by omega), if_pos (by omega)]
    congr 1 <;> omega
  simp only [isCounter, place, isCounterOff, Bool.and_eq_true, decide_eq_true_eq, beq_iff_eq]
  unfold R.syncCount
  omega

theorem isCounterKey.low (h : isCounterKey k) : k < 0x200000000 := by
  obtain ⟨t, o, ht, ho, rfl⟩ := h
  unfold R.syncCount
  omega

/-- `FC_CTL` of a context names no counter of which anything is to be told. -/
theorem fcCtl_not_tellers (c : Nat) : ¬ tellers (R.fcCtl c) := by
  rintro ⟨d, hd, h | h | ⟨j, hj, h⟩⟩
  · unfold R.fcObj R.fcCtl at h; omega
  · unfold R.fcCtl R.genBatchObj at h; omega
  · unfold R.fcCtl R.genUseObj at h; omega

theorem QuietCounter.contractOn (h : QuietCounter s k) : QuietCounter (s.contractOn c) k :=
  h.congr (waits_of_eq rfl) rfl fun j hj => (contractOn_frame s c).1 j fun e => fcCtl_not_tellers c (List.mem_singleton.mp e ▸ hj)

/-! ### The refusal -/

/-- The state as `FC_ENABLE` is refused, before its event. -/
def State.contractRefused (s : State) (c : Nat) : State := s.free.2.setBit (F.fcCtl.refused c) true

theorem fcEnable_refused (off : s.bit (F.fcCtl.enable c) = false) (beyond : s.budgetExceeded c = true) :
    s.fcEnable c true = (s.contractRefused c).raise 0x2003 0 0x04 (s.free.1.toNat % 8) (2 ^ 21 * c + 7 * 2 ^ 26) := by
  simp only [State.fcEnable, off, beyond, not_true, if_false, if_true, Bool.false_eq_true]
  rfl

theorem contractRefused_only (s : State) (c : Nat) : OnlyRegs s.free.2 (s.contractRefused c) [R.fcCtl c] := setBit_only _ _ _

theorem entryNow_contractRefused (s : State) (hc : c < 8) (code sev func unit data flags : Nat) :
    (s.contractRefused c).entryNow code sev func unit data flags = s.entryNow code sev func unit data flags := by
  have reg (k : Nat) (hk : k ≠ R.fcCtl c) : (s.contractRefused c).reg k = s.reg k := (contractRefused_only s c).1 k (by simpa using hk)
  have now : (s.contractRefused c).now = s.now := now_congr (reg R.larkTime (by unfold R.larkTime R.fcCtl; omega))
  have seq : (s.contractRefused c).reg R.logNextSeq = s.reg R.logNextSeq := reg R.logNextSeq (by unfold R.logNextSeq R.fcCtl; omega)
  simp only [State.entryNow, now, seq]

theorem fcCtl_not_log (hc : c < 8) : R.fcCtl c ∉ logRegs := by
  simp only [logRegs, List.mem_cons, List.not_mem_nil, or_false, R.fcCtl, R.logStatus, R.logDropped, R.logNextSeq]
  omega

/-! ### The judgement of a frame -/

/-- The state as the next frame of context `c` is judged. -/
def State.frameJudged (s : State) (c : Nat) : State := s.modCtx c fun x => { x with fcNext := (s.ctx c).fcNext + 1, fcSeen := s.condNow }

theorem fcNext_frameJudged (s : State) (c : Nat) : ((s.frameJudged c).ctx c).fcNext = (s.ctx c).fcNext + 1 := by
  rw [State.frameJudged, State.ctx_modCtx_same]

/-- What the counter of a contract has reached. -/
def State.frameCount (s : State) (c : Nat) : Nat :=
  if isCounter (s.fld (F.fcObj.val c)) = true then (s.reg (s.fld (F.fcObj.val c))).toNat else 0

/-- The end of the next judged frame. -/
def State.frameEnd (s : State) (c : Nat) : Nat := (s.reg (R.fcStart c)).toNat + ((s.ctx c).fcNext + 1) * (s.reg (R.fcPeriod c)).toNat

theorem judgeFrame_met (on : s.bit (F.fcCtl.enable c) = true) (due : s.frameEnd c ≤ s.now) (met : (s.ctx c).fcNext + 1 ≤ s.frameCount c) :
    s.judgeFrame c = s.frameJudged c := by
  rw [State.judgeFrame, if_neg (not_not.mpr on)]
  refine Eq.trans (if_neg (Nat.not_lt.mpr due)) ?_
  exact if_pos met

theorem judgeFrame_missed (on : s.bit (F.fcCtl.enable c) = true) (due : s.frameEnd c ≤ s.now) (missed : s.frameCount c < (s.ctx c).fcNext + 1) :
    ∃ unit flags late, s.judgeFrame c = ((s.frameJudged c).free.2.bump (F.fcCtl.missed c)).promiseVoid unit 0 0 c 2 flags late := by
  rw [State.judgeFrame, if_neg (not_not.mpr on)]
  exact ⟨_, _, _, Eq.trans (if_neg (Nat.not_lt.mpr due)) (if_neg (Nat.not_le.mpr missed))⟩

/-- A counting field counts one up to its width. -/
theorem fld_bump_same (s : State) {f : Fld} (h : f.lo + f.width ≤ 64) : (s.bump f).fld f = min (s.fld f + 1) (2 ^ f.width - 1) := by
  rw [State.bump, State.fld_setFld_same _ _ _ h]
  exact Nat.mod_eq_of_lt (by have := Nat.two_pow_pos f.width; omega)

theorem fcCtl_ne_promiseVoids (c : Nat) : R.fcCtl c ≠ R.promiseVoids := by unfold R.fcCtl R.promiseVoids; omega

end Sys2Proof.Machine
end

section
/-! SUPPORT. Snapshots (R311): `SNAP_TIME`, the freeze, the drain with its event entry, and the end of the freeze. -/

namespace Sys2Proof.Machine

variable {s m u : State} {c : Nat} {v : Word}

/-! ### Conditions that leave a bit set -/

/-- The bit `f` set where `b` holds. -/
def State.orBit (s : State) (f : Fld) (b : Bool) : State := if b then s.setBit f true else s

theorem orBit_only (s : State) (f : Fld) (b : Bool) : OnlyRegs s (s.orBit f b) [f.reg] := by
  unfold State.orBit
  split
  · exact setBit_only _ _ _
  · exact ⟨RegsBut.refl _ _, rfl⟩

theorem bit_orBit_same (s : State) {f : Fld} (b : Bool) (one : f.width = 1) (h : f.lo + f.width ≤ 64) : (s.orBit f b).bit f = (s.bit f || b) := by
  unfold State.orBit
  split
  · next on => rw [bit_setBit_true _ one h, on, Bool.or_true]
  · next off => rw [Bool.eq_false_iff.mpr off, Bool.or_false]

theorem bit_orBit_beside (s : State) {f g : Fld} (b : Bool) (one : g.width = 1) (h : g.lo + g.width ≤ f.lo ∨ f.lo + f.width ≤ g.lo) :
    (s.orBit f b).bit g = s.bit g := by
  unfold State.orBit
  split
  · exact bit_setBit_beside _ one h
  · rfl

/-! ### `SNAP_TIME` -/

theorem snapTime_ne_status (c : Nat) : R.snapTime c ≠ R.snapStatus c := by unfold R.snapTime R.snapStatus; omega

theorem now_setSnapTime (s : State) (c : Nat) (v : Word) : (s.setReg (R.snapTime c) v).now = s.now :=
  now_congr (State.reg_setReg_other _ _ (by unfold R.larkTime R.snapTime; omega))

theorem larkCounts_setSnapTime (s : State) (c : Nat) (v : Word) : (s.setReg (R.snapTime c) v).larkCounts = s.larkCounts := by
  have same : (s.setReg (R.snapTime c) v).fld F.larkStatus.state = s.fld F.larkStatus.state :=
    State.fld_congr (State.reg_setReg_other _ _ (by simp only [F.larkStatus.state, R.larkStatus, R.snapTime]; omega))
  simp only [State.larkCounts, same]

theorem snapWrite_zero (s : State) (c : Nat) : s.snapWrite c 0 = (s.setReg (R.snapTime c) 0).setBit (F.snapStatus.armed c) false := by
  rw [State.snapWrite, if_pos rfl]

theorem snapWrite_refused (set : v ≠ 0) (bad : v.toNat < 10000000 + s.now ∨ s.larkCounts = false) :
    s.snapWrite c v = ((s.setReg (R.snapTime c) v).setBit (F.snapStatus.armed c) false).setBit (F.snapStatus.refused c) true := by
  rw [State.snapWrite, if_neg set, if_pos]
  rw [now_setSnapTime, larkCounts_setSnapTime]
  simpa using bad

theorem snapWrite_armed (set : v ≠ 0) (ahead : 10000000 + s.now ≤ v.toNat) (counts : s.larkCounts = true) :
    s.snapWrite c v = ((((s.setReg (R.snapTime c) v).setBit (F.snapStatus.armed c) true).setBit (F.snapStatus.ready c) false).setBit
      (F.snapStatus.failed c) false).setBit (F.snapStatus.overlap c) false := by
  rw [State.snapWrite, if_neg set, if_neg]
  · rfl
  · rw [now_setSnapTime, larkCounts_setSnapTime, counts]
    simpa using ahead

/-- A write of `SNAP_TIME` with what it sets in `SNAP_STATUS` behind it. -/
theorem snapWrite_only (h : OnlyRegs (s.setReg (R.snapTime c) v) u [R.snapStatus c]) : OnlyRegs s u [R.snapTime c, R.snapStatus c] :=
  (setReg_only s (R.snapTime c) v).trans h

/-! ### The freeze and its end -/

/-- The state as issue of the context freezes. -/
def State.freezing (s : State) (c : Nat) : State := (s.setBit (F.snapStatus.armed c) false).modCtx c fun x => { x with frozen := true }

theorem freezing_regs (s : State) (c : Nat) : RegsBut s (s.freezing c) [R.snapStatus c] := (setBit_only s (F.snapStatus.armed c) false).1

theorem bit_freezing (s : State) (c : Nat) (f : Fld) : (s.freezing c).bit f = (s.setBit (F.snapStatus.armed c) false).bit f := rfl

theorem bytes_freezing (s : State) (c : Nat) : SameBytes s (s.freezing c) := fun _ => rfl

theorem larkLocked_freezing (s : State) (c : Nat) : (s.freezing c).larkLocked = s.larkLocked := by
  have same : (s.freezing c).fld F.larkStatus.state = s.fld F.larkStatus.state :=
    State.fld_congr (freezing_regs s c _ (by simp only [F.larkStatus.state, List.mem_singleton, R.larkStatus, R.snapStatus]; omega))
  simp only [State.larkLocked, same]

theorem OnlyRegs.ctx {ks : List Nat} (h : OnlyRegs s u ks) (c : Nat) : u.ctx c = s.ctx c := by rw [h.2]; rfl

theorem sweeping_freezing (s : State) (c : Nat) (f : Fld) (b : Bool) : ((s.freezing c).orBit f b).sweeping c = s.sweeping c := by
  simp only [State.sweeping, (orBit_only _ _ _).ctx, State.freezing, State.ctx_modCtx_same, State.ctx_setBit]

theorem freezing_failed (s : State) (c : Nat) :
    (if (s.freezing c).larkLocked then s.freezing c else (s.freezing c).setBit (F.snapStatus.failed c) true)
      = (s.freezing c).orBit (F.snapStatus.failed c) (!s.larkLocked) := by
  rw [larkLocked_freezing, State.orBit]
  cases s.larkLocked with
  | true => simp only [if_true, Bool.not_true, Bool.false_eq_true, if_false]
  | false => simp only [if_true, Bool.not_false, Bool.false_eq_true, if_false]

theorem snapReached_due (armed : s.bit (F.snapStatus.armed c) = true) (due : (s.reg (R.snapTime c)).toNat ≤ s.now) :
    s.snapReached c = ((s.freezing c).orBit (F.snapStatus.failed c) (!s.larkLocked)).orBit (F.snapStatus.overlap c) (s.sweeping c) := by
  have fold : ((s.setBit (F.snapStatus.armed c) false).modCtx c fun x => { x with frozen := true }) = s.freezing c := rfl
  simp only [State.snapReached, armed, Nat.not_lt.mpr due, not_true, or_self, if_false, fold, freezing_failed, sweeping_freezing]
  rw [State.orBit.eq_1 _ (F.snapStatus.overlap c)]

theorem snapResume_due (frozen : (s.ctx c).frozen = true) (due : (s.reg (R.snapResume c)).toNat ≤ s.now) :
    s.snapResume c = (s.modCtx c fun x => { x with frozen := false }).orBit (F.snapStatus.failed c) (!s.bit (F.snapStatus.ready c)) := by
  have ready : (s.modCtx c fun x => { x with frozen := false }).bit (F.snapStatus.ready c) = s.bit (F.snapStatus.ready c) := rfl
  rw [State.snapResume, if_neg (by rw [frozen]; simpa using due)]
  dsimp only
  rw [ready]
  cases h : s.bit (F.snapStatus.ready c) with
  | true => rfl
  | false => rfl

/-! ### The drain -/

/-- The host is told: rings and memory stay, and of the registers those of the status line and of interrupts may change. -/
structure HostTold (s u : State) : Prop where
  rings : u.rings = s.rings
  mem : u.mem = s.mem
  regs : RegsBut s u (R.hostStatusAddr :: errRegs)

theorem HostTold.refl (s : State) : HostTold s s := ⟨rfl, rfl, .refl _ _⟩

theorem HostTold.trans (h : HostTold s m) (g : HostTold m u) : HostTold s u :=
  ⟨g.rings.trans h.rings, g.mem.trans h.mem, fun k hk => (g.regs k hk).trans (h.regs k hk)⟩

theorem HostTold.setFld {f : Fld} {x : Nat} (h : HostTold s m) (hf : f.reg ∈ R.hostStatusAddr :: errRegs) : HostTold s (m.setFld f x) :=
  ⟨h.rings, h.mem, fun k hk => (State.reg_setFld_other _ _ _ _ fun e : f.reg = k => hk (e ▸ hf)).trans (h.regs k hk)⟩

theorem HostTold.send {o : Out} (h : HostTold s m) : HostTold s (m.send o) := ⟨h.rings, h.mem, h.regs⟩

theorem HostTold.fire {x : Nat} (h : HostTold s m) : HostTold s (m.fire x) := by
  unfold State.fire
  split
  · exact h.send
  · exact h.setFld (by simp [errRegs])

theorem HostTold.vecCount {t : Tab Nat} (h : HostTold s m) : HostTold s { m with vecCount := t } := ⟨h.rings, h.mem, h.regs⟩

theorem HostTold.interrupt {b x : Nat} {now : Bool} (h : HostTold s m) : HostTold s (m.interrupt b x now) := by
  have cause : HostTold s (m.setFld ⟨R.intCause, b, 1⟩ 1) := h.setFld (by simp [errRegs])
  unfold State.interrupt State.vectorEntry
  dsimp only
  split_ifs
  · exact cause
  · exact cause
  · exact cause.vecCount.fire
  · exact cause.vecCount

theorem HostTold.statusLine {r : Nat} (h : HostTold s m) : HostTold s (m.statusLine r) := by
  unfold State.statusLine State.errSummary State.toHost
  dsimp only
  split
  · exact h
  split
  · have off : HostTold s (m.setBit F.hostStatusAddr.en false) := h.setFld (.head _)
    exact (off.setFld (f := ⟨R.errSummary, 3, 1⟩) (x := 1) (.tail _ (.head _))).interrupt
  split
  · exact h
  · exact h.send

/-- An event entry that finds room stands in its ring, and the tail has moved past it (R325). -/
theorem postEvent_room {r : Nat} {entry : List Byte} (room : above (s.ring r).eqTail (s.ring r).eqHead < 8192) :
    ((s.postEvent r entry).ring r).eqTail = next32 (s.ring r).eqTail ∧ BytesBut s (s.postEvent r entry) (eqAt r (s.ring r).eqTail) entry.length
    ∧ RegsBut s (s.postEvent r entry) (R.hostStatusAddr :: errRegs) := by
  obtain ⟨x, only⟩ := State.setBytes_only entry s (eqAt r (s.ring r).eqTail)
  have told : HostTold ((s.setBytes (eqAt r (s.ring r).eqTail) entry).setRing r { s.ring r with eqTail := next32 (s.ring r).eqTail })
      (s.postEvent r entry) := by
    rw [State.postEvent, if_pos room]
    exact (HostTold.refl _).statusLine.interrupt
  refine ⟨?_, fun b hb => ?_, fun k hk => (told.regs k hk).trans ?_⟩
  · rw [State.ring, told.rings]
    exact congrArg Ring.eqTail (State.ring_setRing_same _ _ _)
  · rw [sameBytes_of_mem told.mem b]
    exact State.byte_setBytes_other _ _ _ _ hb
  · show (s.setBytes _ _).reg k = _
    rw [only]; rfl

theorem snapStatus_not_told (hc : c < 8) : R.snapStatus c ∉ R.hostStatusAddr :: errRegs := by
  simp only [errRegs, List.mem_cons, List.not_mem_nil, or_false, R.snapStatus, R.hostStatusAddr, R.errSummary, R.intCause, R.msixPba]
  omega

/-- A frozen context that has drained posts the entry of 64 bytes of `State.snapEntry`. -/
theorem snapDrained_posts (frozen : (s.ctx c).frozen = true) (fresh : s.bit (F.snapStatus.ready c) = false) (drained : s.ctxDrained c = true) :
    ∃ l : List Byte, l.length = 64 ∧
      s.snapDrained c (fun s => s.snapEntry c) = (s.setBit (F.snapStatus.ready c) true).free.2.postEvent c l := by
  rw [State.snapDrained, if_pos ⟨frozen, by simp [fresh], drained⟩]
  refine ⟨_, ?_, rfl⟩
  simp only [List.length_append, length_leBytes]

/-- Settles O40: a contract's enable, its refusal and its judgement, and each step of a snapshot, read off the one case its conditions leave. -/
theorem contractsAndSnapshotsComplete : Obligations.ContractsAndSnapshotsComplete := by
  intro c s
  have ctl := contractOn_frame s c
  refine ⟨fun off fits plain => ?plain, fun off fits key quiet => ?counted, fun off beyond => ?refused, ?disable,
    fun on due => ⟨fun met => ?met, fun miss => ?missed⟩,
    fun v set ahead counts => ?armed, fun v set bad => ?late, ?disarm, fun armed due => ?reached, fun frozen fresh drained room => ?drained,
    fun frozen due => ?resume⟩
  case plain =>
    refine ⟨_, congrArg Host.Outcome.next (fcEnable_on off fits), ?_⟩
    rw [plain, if_neg Bool.false_ne_true]
    exact ⟨enable_contractOn s c, by rw [State.contractOn, State.ctx_modCtx_same], ctl.1, sameBytes_of_mem ctl.2⟩
  case counted =>
    obtain ⟨value, regs, mem⟩ := syncSet_spec (quiet.contractOn) key.low (BitVec.ofNat 64 (s.firstFrame c))
    refine ⟨_, congrArg Host.Outcome.next (fcEnable_on off fits), ?_⟩
    rw [if_pos (isCounter_of_key key)]
    have apart : R.fcCtl c ≠ s.fld (F.fcObj.val c) := fun e => by have := key.low; rw [← e, R.fcCtl] at this; omega
    exact ⟨(State.bit_congr (regs (R.fcCtl c) (by simpa using apart))).trans (enable_contractOn s c), value, ctl.1.trans regs,
      sameBytes_of_mem (mem.trans ctl.2)⟩
  case refused =>
    have logged : Logged (s.contractRefused c) ((s.contractRefused c).raise 0x2003 0 0x04 (s.free.1.toNat % 8) (2 ^ 21 * c + 7 * 2 ^ 26)) := logged_raise
    have same {f : Fld} (hf : f.reg = R.fcCtl c) := State.bit_congr (f := f) (logged.regs f.reg (hf ▸ fcCtl_not_log c.isLt))
    refine ⟨_, congrArg Host.Outcome.next (fcEnable_refused off beyond), ?_, ?_, fun k room => ?_, ?_⟩
    · exact (same rfl).trans ((bit_setBit_beside _ rfl (by simp [F.fcCtl.enable, F.fcCtl.refused])).trans off)
    · exact (same rfl).trans (bit_setBit_true _ rfl (by simp [F.fcCtl.refused]))
    · have small : s.free.1.toNat % 8 < 8 := Nat.mod_lt _ (by decide)
      obtain ⟨entry, -, -⟩ := raise_spec (m := s.contractRefused c) (t := 0) (n := 0) (data := 2 ^ 21 * c + 7 * 2 ^ 26) (flags := 0)
        ⟨(room _ small).apart, (room _ small).room⟩
      exact ⟨_, small, entry.trans (entryNow_contractRefused s c.isLt _ _ _ _ _ _)⟩
    · exact fun b => (logged.same b).trans rfl
  case disable =>
    exact ⟨_, rfl, bit_setBit_same s rfl (by simp [F.fcCtl.enable]) false, setBit_only s (F.fcCtl.enable c) false⟩
  case met =>
    exact ⟨_, congrArg Host.Outcome.next (judgeFrame_met on due met), fcNext_frameJudged s c, fun _ _ => rfl, fun _ => rfl⟩
  case missed =>
    obtain ⟨unit, flags, late, row⟩ := judgeFrame_missed on due miss
    have logged := promiseVoid_logged ((s.frameJudged c).free.2.bump (F.fcCtl.missed c)) unit 0 0 c 2 flags late
    refine ⟨_, congrArg Host.Outcome.next row, ?_, ?_, ?_, ?_⟩
    · rw [logged.ctx]
      exact fcNext_frameJudged s c
    · rw [State.fld_congr (logged.regs _ (fcCtl_not_log c.isLt)), State.bumpReg, State.fld_congr (State.reg_setReg_other _ _ (fcCtl_ne_promiseVoids c).symm)]
      exact fld_bump_same _ (by simp [F.fcCtl.missed])
    · rw [promiseVoids_promiseVoid, State.bump, State.reg_setFld_other _ _ _ _ (fcCtl_ne_promiseVoids c)]
      rfl
    · exact fun b => (logged.same b).trans rfl
  case armed =>
    refine ⟨_, congrArg Host.Outcome.next (snapWrite_armed set ahead counts), ?_, ?_, ?_, ?_, ?_, ?_⟩
    · exact (((((setBit_only _ _ _).trans (setBit_only _ _ _)).trans (setBit_only _ _ _)).trans (setBit_only _ _ _)).1 _ (by
        simp [F.snapStatus.armed, F.snapStatus.ready, F.snapStatus.failed, F.snapStatus.overlap, snapTime_ne_status])).trans (State.reg_setReg_same _ _ _)
    · rw [bit_setBit_beside _ rfl, bit_setBit_beside _ rfl, bit_setBit_beside _ rfl, bit_setBit_same _ rfl]
      all_goals simp [F.snapStatus.armed, F.snapStatus.ready, F.snapStatus.failed, F.snapStatus.overlap]
    · rw [bit_setBit_beside _ rfl, bit_setBit_beside _ rfl, bit_setBit_same _ rfl]
      all_goals simp [F.snapStatus.ready, F.snapStatus.failed, F.snapStatus.overlap]
    · rw [bit_setBit_beside _ rfl, bit_setBit_same _ rfl]
      all_goals simp [F.snapStatus.failed, F.snapStatus.overlap]
    · exact bit_setBit_same _ rfl (by simp [F.snapStatus.overlap]) _
    · exact snapWrite_only ((((setBit_only _ _ _).trans (setBit_only _ _ _)).trans (setBit_only _ _ _)).trans (setBit_only _ _ _) |>.mono (by
        simp [F.snapStatus.armed, F.snapStatus.ready, F.snapStatus.failed, F.snapStatus.overlap]))
  case late =>
    refine ⟨_, congrArg Host.Outcome.next (snapWrite_refused set bad), ?_, ?_, ?_⟩
    · rw [bit_setBit_beside _ rfl, bit_setBit_same _ rfl]
      all_goals simp [F.snapStatus.armed, F.snapStatus.refused]
    · exact bit_setBit_same _ rfl (by simp [F.snapStatus.refused]) _
    · exact snapWrite_only (((setBit_only _ _ _).trans (setBit_only _ _ _)).mono (by simp [F.snapStatus.armed, F.snapStatus.refused]))
  case disarm =>
    exact ⟨_, congrArg Host.Outcome.next (snapWrite_zero s c), bit_setBit_same _ rfl (by simp [F.snapStatus.armed]) _, snapWrite_only (setBit_only _ _ _)⟩
  case reached =>
    refine ⟨_, congrArg Host.Outcome.next (snapReached_due armed due), ?_, ?_, ?_, ?_, ?_, ?_⟩
    · rw [(orBit_only _ _ _).ctx, (orBit_only _ _ _).ctx, State.freezing, State.ctx_modCtx_same]
    · rw [bit_orBit_beside _ _ rfl (by simp [F.snapStatus.armed, F.snapStatus.overlap]),
        bit_orBit_beside _ _ rfl (by simp [F.snapStatus.armed, F.snapStatus.failed]), bit_freezing, bit_setBit_same _ rfl (by simp [F.snapStatus.armed])]
    · rw [bit_orBit_beside _ _ rfl (by simp [F.snapStatus.failed, F.snapStatus.overlap]), bit_orBit_same _ _ rfl (by simp [F.snapStatus.failed]),
        bit_freezing, bit_setBit_beside _ rfl (by simp [F.snapStatus.failed, F.snapStatus.armed])]
    · rw [bit_orBit_same _ _ rfl (by simp [F.snapStatus.overlap]), bit_orBit_beside _ _ rfl (by simp [F.snapStatus.failed, F.snapStatus.overlap]),
        bit_freezing, bit_setBit_beside _ rfl (by simp [F.snapStatus.overlap, F.snapStatus.armed])]
    · exact ((freezing_regs s c).trans ((orBit_only _ _ _).trans (orBit_only _ _ _)).1).mono (by simp [F.snapStatus.failed, F.snapStatus.overlap])
    · exact fun b => (((orBit_only _ _ _).trans (orBit_only _ _ _)).sameBytes b).trans (bytes_freezing s c b)
  case drained =>
    obtain ⟨l, long, row⟩ := snapDrained_posts frozen fresh drained
    obtain ⟨tail, bytes, regs⟩ := postEvent_room (s := (s.setBit (F.snapStatus.ready c) true).free.2) (entry := l) room
    refine ⟨_, congrArg Host.Outcome.next row, ?_, tail, long ▸ bytes⟩
    exact (State.bit_congr (regs _ (snapStatus_not_told c.isLt))).trans (bit_setBit_true s rfl (by simp [F.snapStatus.ready]))
  case resume =>
    refine ⟨_, congrArg Host.Outcome.next (snapResume_due frozen due), ?_, ?_, ?_, ?_⟩
    · rw [(orBit_only _ _ _).ctx, State.ctx_modCtx_same]
    · exact bit_orBit_same _ _ rfl (by simp [F.snapStatus.failed])
    · exact fun k hk => ((orBit_only _ _ _).1 k hk).trans rfl
    · exact fun b => ((orBit_only _ _ _).sameBytes b).trans rfl

end Sys2Proof.Machine
end

section
/-! SUPPORT. Open transfers and events of a severity that stops nothing: what a packet sent again and an entry of the log leave (R281, R299,
R418, R420). -/

namespace Sys2Proof.Machine

variable {s m u : State} {a : Arrived} {x y : Xfer} {k tid : Nat}

/-! ### Events -/

/-- A severity up to 3 that names no context has no outcome beyond the log (R418). -/
theorem outcome_low {sev : Nat} (low : sev ≤ 3) (s : State) : s.outcome sev [] = s := by
  unfold State.outcome
  split_ifs
  · rfl
  · omega
  · omega
  · rfl

theorem raise_low {code sev func unit data flags : Nat} (low : sev ≤ 3) :
    m.raise code sev func unit data [] flags = m.logPlace code sev func unit (data % 2 ^ 48) flags := outcome_low low _

/-- Such an event that takes a slot of its own stands there; of the registers only `LOG_NEXT_SEQ` moves. -/
theorem raise_low_opens {code sev func unit data flags : Nat} (low : sev ≤ 3) (room : LogRoom m code sev func unit k) :
    (m.raise code sev func unit data [] flags).logSlot k = m.entryNow code sev func unit data flags
    ∧ RegsBut m (m.raise code sev func unit data [] flags) [R.logNextSeq] := by
  generalize he : m.entryNow code sev func unit data flags = e
  have placed : m.raise code sev func unit data [] flags = ((m.setLogSlot k e).bumpReg R.logNextSeq).notify e := by
    rw [raise_low low]
    simp [← he, State.logPlace, room.apart, room.room, State.openSlot, State.entryNow]
  obtain ⟨slots, regs⟩ := notify_log ((m.setLogSlot k e).bumpReg R.logNextSeq) e
  rw [placed]
  exact ⟨(slots k).trans (State.logSlot_setLogSlot_same m k e), fun j hj =>
    (regs j).trans (State.reg_setReg_other _ _ (Ne.symm (List.mem_singleton.not.mp hj)))⟩

theorem logged_raise_low {code sev func unit data flags : Nat} (low : sev ≤ 3) : Logged m (m.raise code sev func unit data [] flags) := by
  rw [raise_low low]
  exact (Logged.refl m).logPlace

theorem Logged.xfers (h : Logged s u) : u.xfers = s.xfers := by obtain ⟨⟨r, l, o, x, rfl⟩, -⟩ := h; rfl
theorem Logged.shardFailed (h : Logged s u) : u.shardFailed = s.shardFailed := by obtain ⟨⟨r, l, o, x, rfl⟩, -⟩ := h; rfl

/-! ### Sending -/

/-- A transfer's flits go to a port's queue. -/
theorem launch_only (s : State) (dest stream cls : Nat) (alt : Bool) (bodies : List (List Byte)) (grants : List Nat) (minus : Bool) :
    ∃ p n, (s.launch dest stream cls alt bodies grants minus).1 = { s with ports := p, launches := n } := by
  fun_cases State.launch s dest stream cls alt bodies grants minus with
  | case1 | case2 => exact ⟨s.ports, s.launches, rfl⟩
  | case3 => exact ⟨_, _, rfl⟩

/-! ### The list of open transfers -/

theorem findXfer_congr (h : u.xfers = s.xfers) (tid : Nat) : u.findXfer tid = s.findXfer tid := by rw [State.findXfer, h, State.findXfer]

/-- An open transfer set anew is found as it was set. -/
theorem findXfer_setXfer (found : s.findXfer y.tid = some x) : (s.setXfer y).findXfer y.tid = some y := by
  unfold State.findXfer State.setXfer at *
  generalize s.xfers = l at found
  induction l with
  | nil => cases found
  | cons z l ih =>
    by_cases same : z.tid = y.tid
    · simp [same]
    · have other : (z.tid == y.tid) = false := beq_eq_false_iff_ne.mpr same
      simp only [List.find?_cons, other] at found
      simp only [List.map_cons, other, Bool.false_eq_true, if_false, List.find?_cons]
      exact ih found

/-! ### The first-hop port -/

theorem SameView.firstPort (h : SameView s u) : u.firstPort = s.firstPort := by
  have ring (a : Nat) : u.ringLen a = s.ringLen a := by simp only [State.ringLen, h.fld]
  have act (a n : Nat) : u.activeAt a n = s.activeAt a n := by simp only [State.activeAt, ring, h.reg]
  have steps (a b c : Nat) : u.stepsUp a b c = s.stepsUp a b c := by simp only [State.stepsUp, ring, act]
  have dirs (d : Nat) (alt minus : Bool) : u.dirsTo d alt minus = s.dirsTo d alt minus := by simp only [State.dirsTo, State.shortDir, steps, h.coord]
  funext x
  simp only [State.firstPort, State.outPort, State.nextAxis, dirs, h.coord]

end Sys2Proof.Machine
end

section
/-! SUPPORT. Shard packets at both ends (R298, R299, R434). -/

namespace Sys2Proof.Machine

variable {s m u v : State} {a : Arrived} {x y : Xfer} {j k p : Nat} {marks : PacketMarks}

/-! ### A packet that arrives -/

/-- The bytes a shard packet carries, without their CRC. -/
def Arrived.packet (a : Arrived) : List Byte := a.data.take (a.data.length - 4)

/-- What names a shard packet at its target. -/
def Arrived.packetId (a : Arrived) : Nat × Nat := (a.tag, a.aux % 2 ^ 16)

theorem does_packet {post : State → Prop} (here : s.arrived[k]? = some a) (kind : a.kind = 9) (free : s.shardHeld k = false) (turn : s.inTurn k a = true)
    (h : post ((s.untaken k).shardIn a marks)) : Does (.shardPacketReceived k marks) s post := by
  refine ⟨_, rfl, ?_⟩
  rw [free, if_neg Bool.false_ne_true, onArrived_eq here turn (by simp [kind])]
  exact h

theorem shardIn_good (good : shardGood a = true) (allowed : s.remoteAllowed a = true)
    (place : s.translate a.ctx a.offset (max 1 a.packet.length) rightW true = .inr p) (ok : (s.writeData p a.packet).2 = true) :
    s.shardIn a marks = (((({ (s.writeData p a.packet).1 with shardFailed := (s.writeData p a.packet).1.shardFailed.filter (· != a.packetId) }
      ).markPresent a.ctx marks.granules).modCtx a.ctx fun x => { x with masks := x.masks ++ marks.masks }).judgeArrival a).answerTo a 0x0B 0 [] := by
  unfold Arrived.packet at place ok ⊢
  generalize hw : s.writeData p (a.data.take (a.data.length - 4)) = w at ok ⊢
  obtain ⟨m, done⟩ := w
  obtain rfl : done = true := ok
  simp only [State.shardIn, good, allowed, place, hw, not_true, if_false]
  rfl

theorem shardIn_refused (good : shardGood a = true)
    (bad : s.remoteAllowed a = false ∨ ∃ f, s.translate a.ctx a.offset (max 1 a.packet.length) rightW true = .inl f) : s.shardIn a marks = s.refuseRemote a := by
  cases allowed : s.remoteAllowed a with
  | true =>
    obtain ⟨f, place⟩ := bad.resolve_left (by simp [allowed])
    unfold Arrived.packet at place
    simp only [State.shardIn, good, allowed, place, not_true, if_false]
  | false => simp only [State.shardIn, good, allowed, not_true, if_false, Bool.false_eq_true, not_false_eq_true, if_true]

theorem shardIn_corrupt (bad : shardGood a = false) : s.shardIn a marks = s.shardBad a := if_pos (by simp [bad])

/-- The packets noted as corrupt, once this one is noted, or its second copy struck off. -/
def State.corruptNoted (s : State) (a : Arrived) : State :=
  { s with shardFailed := if s.shardFailed.contains a.packetId then s.shardFailed.filter (· != a.packetId) else s.shardFailed ++ [a.packetId] }

/-- The event of a corrupt packet (R299). -/
def State.corruptRaised (s : State) (a : Arrived) : State :=
  (s.corruptNoted a).raise 0x2001 1 0x04 a.port
    (a.src + 2 ^ 17 * a.stream + 2 ^ 21 * a.ctx + 2 ^ 24 * boolNat (s.shardFailed.contains a.packetId) + 2 ^ 32 * (a.aux % 2 ^ 16))

theorem shardBad_only (s : State) (a : Arrived) : ∃ p n, s.shardBad a = { s.corruptRaised a with ports := p, launches := n } :=
  launch_only (s.corruptRaised a) _ _ _ _ _ _ _

theorem logged_corruptRaised (s : State) (a : Arrived) : Logged (s.corruptNoted a) (s.corruptRaised a) := logged_raise_low (by decide)

/-- The first corrupt copy is noted, the second struck off. -/
theorem mem_corruptNoted (s : State) (a : Arrived) : a.packetId ∈ (s.corruptNoted a).shardFailed ↔ s.shardFailed.contains a.packetId = false := by
  unfold State.corruptNoted
  cases h : s.shardFailed.contains a.packetId with
  | true => simp
  | false => simp

/-! ### A packet sent again -/

/-- A packet that is sent again stays open, marked, unless the fence holds it back. -/
theorem resendShard_spec (found : s.findXfer y.tid = some x) (fresh : y.resent = false) :
    (s.resendShard y).findXfer y.tid = some { y with resent := s.fld F.fenceStatus.level == 0 } ∧ RegsBut s (s.resendShard y) []
    ∧ SameBytes s (s.resendShard y) := by
  by_cases fence : s.fld F.fenceStatus.level = 0
  · obtain ⟨p, n, only⟩ := launch_only s y.dest y.stream 0 true
      (transferFlits (transportHeader 9 y.ctx y.tclass (s.fld (F.ctxJobTag.tag y.ctx)) y.len y.offset y.deadline 0 y.aux) y.data) [] y.minus
    have row : s.resendShard y = State.setXfer { s with ports := p, launches := n } { y with resent := true } := by
      rw [State.resendShard, if_neg (not_not.mpr fence), ← only]
    rw [row, fence]
    exact ⟨findXfer_setXfer (s := { s with ports := p, launches := n }) (y := { y with resent := true }) found, fun _ _ => rfl, fun _ => rfl⟩
  · rw [State.resendShard, if_pos fence, beq_eq_false_iff_ne.mpr fence]
    have same : { y with resent := false } = y := by rw [← fresh]
    rw [same]
    exact ⟨findXfer_setXfer found, fun _ _ => rfl, fun _ => rfl⟩

theorem rerequest_named (named : (s.xfers.find? fun y => y.kind == 9 && y.dest == a.src && y.stream == a.stream && y.aux % 2 ^ 16 == a.aux % 2 ^ 16) = some x) :
    s.rerequest a = if x.resent = false then s.resendShard { x with asked := true }
      else if x.asked = true ∧ x.voided = false then (s.setXfer { x with voided := true }).shardLost x 1
      else s.setXfer { x with asked := true } := by
  simp only [State.rerequest, named, Bool.not_eq_true]

/-- A lost packet: `SHARD_LOST`, noted for the context's vote (R299). -/
structure PacketLost (s u : State) (x : Xfer) (j : Nat) : Prop where
  voided : u.findXfer x.tid = some { x with voided := true }
  code : (u.logSlot j).code = 0x2002
  sev : (u.logSlot j).sev = 3
  vote : (u.ctx x.ctx).voteBits.testBit 1 = true
  regs : RegsBut s u [R.logNextSeq]
  bytes : SameBytes s u

theorem testBit_orLost (b : Nat) : (b ||| 2).testBit 1 = true := by
  rw [Nat.testBit_or, Bool.or_eq_true]
  exact .inr rfl

theorem shardLost_spec (why : Nat) (found : s.findXfer x.tid = some y) (room : LogRoom s 0x2002 3 0x04 (s.firstPort x) j) :
    PacketLost s ((s.setXfer { x with voided := true }).shardLost x why) x j := by
  generalize hv : ((s.setXfer { x with voided := true }).modCtx x.ctx fun c => { c with voteBits := c.voteBits ||| 2 }) = v
  have view : SameView s v := by subst hv; exact ⟨rfl, rfl, rfl, rfl⟩
  have raised : (s.setXfer { x with voided := true }).shardLost x why = v.raise 0x2002 3 0x04 (s.firstPort x)
      (x.dest + 2 ^ 17 * x.stream + 2 ^ 21 * x.ctx + 2 ^ 24 * why + 2 ^ 32 * (x.aux % 2 ^ 16)) := by
    rw [State.shardLost, hv, view.firstPort]
  have logged : Logged v ((s.setXfer { x with voided := true }).shardLost x why) := raised ▸ logged_raise_low (by decide)
  have at_ : LogRoom v 0x2002 3 0x04 (s.firstPort x) j := by subst hv; exact ⟨room.apart, room.room⟩
  obtain ⟨entry, regs⟩ := raise_low_opens (data := x.dest + 2 ^ 17 * x.stream + 2 ^ 21 * x.ctx + 2 ^ 24 * why + 2 ^ 32 * (x.aux % 2 ^ 16)) (flags := 0)
    (by decide) at_
  rw [← raised] at entry regs
  refine ⟨?_, by rw [entry, State.entryNow], by rw [entry, State.entryNow], ?_, fun r hr => (regs r hr).trans (by rw [view.reg]), fun b => ?_⟩
  · rw [findXfer_congr logged.xfers, ← hv]
    exact findXfer_setXfer (y := { x with voided := true }) found
  · rw [logged.ctx, ← hv, State.ctx_modCtx_same]
    exact testBit_orLost _
  · rw [logged.same b, view.byte]

/-- Settles O15: a packet by what its checks leave, and at its issuer a packet sent again or lost. -/
theorem shardPacketsComplete : Obligations.ShardPacketsComplete := by
  refine ⟨fun s k a marks here kind => ⟨fun held => ?held, fun free turn => ⟨fun p good allowed place range => ?good, fun good bad => ?refused,
    fun j bad room => ?corrupt⟩⟩, fun s k a x here turn kind found named => ⟨fun fresh => ?again, fun resent once => ?ignored,
    fun j resent asked open_ room => ?second⟩, fun s x found kind => ⟨fun fresh due => ?primary, fun j open_ due room => ?deadline⟩⟩
  case held => exact ⟨s, congrArg Host.Outcome.next (if_pos held), rfl⟩
  case good =>
    have view := sameView_untaken s k
    obtain ⟨ok, stored⟩ := (range.congr view rfl).writeData (l := a.packet)
    refine does_packet here kind free turn ⟨((s.untaken k).writeData p a.packet).1, stored.moved, ?_⟩
    have noted : ((s.untaken k).writeData p a.packet).1.shardFailed = s.shardFailed := by obtain ⟨x, y, only⟩ := stored.only; rw [only]; rfl
    rw [shardIn_good (s := s.untaken k) good allowed (by rw [view.translate]; exact place) ok, noted]
    rfl
  case refused =>
    have view := sameView_untaken s k
    refine does_packet here kind free turn ?_
    rw [shardIn_refused good (by rw [view.translate]; exact bad)]
    exact refuseRemote_spec _ a
  case corrupt =>
    refine does_packet here kind free turn ?_
    obtain ⟨p, n, only⟩ := shardBad_only (s.untaken k) a
    have logged := logged_corruptRaised (s.untaken k) a
    have list : ((s.untaken k).corruptRaised a).shardFailed = ((s.untaken k).corruptNoted a).shardFailed := logged.shardFailed
    obtain ⟨entry, -⟩ := raise_low_opens (m := (s.untaken k).corruptNoted a) (sev := 1) (flags := 0)
      (data := a.src + 2 ^ 17 * a.stream + 2 ^ 21 * a.ctx + 2 ^ 24 * boolNat (s.shardFailed.contains a.packetId) + 2 ^ 32 * (a.aux % 2 ^ 16))
      (by decide) ⟨room.apart, room.room⟩
    have slot : ((s.untaken k).shardBad a).logSlot j = _ := (show _ = ((s.untaken k).corruptRaised a).logSlot j by rw [only]; rfl).trans entry
    rw [shardIn_corrupt bad]
    refine ⟨fun first => ?_, fun second => ?_, ?_, ?_, ?_, fun b => ?_⟩
    · rw [only]
      exact list ▸ (mem_corruptNoted (s.untaken k) a).mpr first
    · rw [only]
      exact fun mem => Bool.false_ne_true (((mem_corruptNoted (s.untaken k) a).mp (list ▸ mem)).symm.trans second)
    · rw [slot, State.entryNow]
    · rw [slot, State.entryNow]
    · rw [slot, State.entryNow]; rfl
    · rw [only]
      exact (logged.same b).trans rfl
  case again =>
    refine ⟨_, congrArg Host.Outcome.next (onArrived_eq here turn (by simp [kind])), ?_⟩
    rw [rerequest_named (s := s.untaken k) named, if_pos fresh]
    exact resendShard_spec (s := s.untaken k) (y := { x with asked := true }) found fresh
  case ignored =>
    refine ⟨_, congrArg Host.Outcome.next (onArrived_eq here turn (by simp [kind])), ?_⟩
    have no : ¬ (x.asked = true ∧ x.voided = false) := fun h => by rcases once with o | o <;> simp [h] at o
    rw [rerequest_named (s := s.untaken k) named, if_neg (by simp [resent]), if_neg no]
  case second =>
    refine ⟨_, congrArg Host.Outcome.next (onArrived_eq here turn (by simp [kind])), ?_⟩
    rw [rerequest_named (s := s.untaken k) named, if_neg (by simp [resent]), if_pos ⟨asked, open_⟩]
    have port := (sameView_untaken s k).firstPort
    obtain ⟨voided, code, sev, vote, regs, bytes⟩ := shardLost_spec (s := s.untaken k) 1 found (j := j) (by rw [port]; exact ⟨room.apart, room.room⟩)
    exact ⟨voided, code, sev, vote, regs, bytes⟩
  case primary =>
    have row : s.shardPrimary x.tid = s.resendShard x := by
      simp only [State.shardPrimary, found, kind, fresh, due, Bool.false_eq_true, not_false_eq_true, and_self, if_true]
    exact ⟨_, congrArg Host.Outcome.next row, resendShard_spec found fresh⟩
  case deadline =>
    have row : s.shardDeadline x.tid = (s.setXfer { x with voided := true }).shardLost x 0 := by
      simp only [State.shardDeadline, found, kind, open_, due, Bool.false_eq_true, not_false_eq_true, and_self, if_true]
    obtain ⟨voided, code, sev, vote, regs, bytes⟩ := shardLost_spec 0 found room
    exact ⟨_, congrArg Host.Outcome.next row, voided, code, sev, vote, regs, bytes⟩

end Sys2Proof.Machine
end

section
/-! SUPPORT. What stands through the stop of a context (R33, R55, R418): the fault a thread has taken, the recorded address, and that no transfer
opens. -/

namespace Sys2Proof.Machine

variable {s m u : State} {t n c i j k : Nat}

/-! ### Threads by their keys -/

theorem keyThread_thrKey (hn : n < 16) : keyThread (thrKey t n) = n := by unfold keyThread thrKey; omega

theorem thrKey_ne (hn : n < 16) (hj : j < 16) (h : ¬ (i = t ∧ j = n)) : thrKey i j ≠ thrKey t n := by unfold thrKey; omega

/-- The threads a stop looks at are threads of tiles. -/
theorem activeThreads_lt {e : Nat × Nat} (h : e ∈ s.activeThreads) : e.1 < 256 ∧ e.2 < 16 := by
  obtain ⟨r, hr, rfl⟩ := List.mem_map.mp h
  have key := (List.mem_filter.mp hr).2
  simp only [isStatusKey, Bool.and_eq_true, decide_eq_true_eq] at key
  obtain ⟨⟨⟨⟨lo, hi⟩, low⟩, -⟩, -⟩ := key
  refine ⟨?_, ?_⟩
  · show (r.1 - 0x0100000000) / 0x10000 < 256
    omega
  · show r.1 % 0x10000 / 0x80 < 16
    omega

/-! ### The frame of a fault -/

/-- The registers that show a thread's fault, and the recorded address of its context. -/
def faultRegs (t n c : Nat) : List Nat := [R.threadStatus t n, R.threadFault t n, R.segFaultAddr c]

/-- The registers of a thread's fault and the descriptor it holds are as before, and no transfer has been opened. -/
structure FaultStands (s u : State) (t n c : Nat) : Prop where
  regs : ∀ k ∈ faultRegs t n c, u.reg k = s.reg k
  sync : (u.thread (thrKey t n)).syncTid = (s.thread (thrKey t n)).syncTid
  held : (u.thread (thrKey t n)).held = (s.thread (thrKey t n)).held
  xfers : ∀ x ∈ u.xfers, x ∈ s.xfers

namespace FaultStands

theorem refl (s : State) (t n c : Nat) : FaultStands s s t n c := ⟨fun _ _ => rfl, rfl, rfl, fun _ h => h⟩

theorem trans (h : FaultStands s m t n c) (g : FaultStands m u t n c) : FaultStands s u t n c :=
  ⟨fun k hk => (g.regs k hk).trans (h.regs k hk), g.sync.trans h.sync, g.held.trans h.held, fun x hx => h.xfers x (g.xfers x hx)⟩

/-- Threads and transfers untouched, and of the registers none of the fault. -/
theorem of_frame {ks : List Nat} (threads : u.threads = s.threads) (xfers : u.xfers = s.xfers) (regs : RegsBut s u ks)
    (apart : ∀ k ∈ faultRegs t n c, k ∉ ks) : FaultStands s u t n c := by
  refine ⟨fun k hk => regs k (apart k hk), ?_, ?_, fun x hx => xfers ▸ hx⟩
  · rw [State.thread, threads, State.thread]
  · rw [State.thread, threads, State.thread]

theorem state (h : FaultStands s u t n c) : u.fld (F.threadStatus.state t n) = s.fld (F.threadStatus.state t n) :=
  State.fld_congr (h.regs _ (.head _))

end FaultStands

/-! ### Waits given up -/

theorem xfers_queueWaited (s : State) (c obj : Nat) : (s.queueWaited c obj).xfers = s.xfers :=
  forEach_induction (P := fun m => m.xfers = s.xfers) (forEach_induction (P := fun m => m.xfers = s.xfers) rfl fun _ hm _ _ => hm) fun _ hm _ _ => hm

theorem xfers_leaveWait_remote {wt : Wait} {tid : Nat} (hx : (s.thread (thrKey t n)).wait = some wt) (watch : wt.watch = .remote tid) :
    (s.leaveWait t n).xfers = s.xfers.filter fun x => x.tid != tid := by
  simp only [State.leaveWait, hx, watch]
  exact congrArg (List.filter _) (xfers_queueWaited s _ _)

theorem xfers_leaveWait (s : State) (t n : Nat) : ∀ x ∈ (s.leaveWait t n).xfers, x ∈ s.xfers := by
  have left (o : Nat) : ∀ x ∈ ((s.queueWaited (s.ctxOf t n) o).modThread (thrKey t n) fun th => { th with wait := none }).xfers, x ∈ s.xfers :=
    fun x hx => xfers_queueWaited s (s.ctxOf t n) o ▸ hx
  unfold State.leaveWait
  dsimp only
  split
  · exact fun _ h => h
  · split
    · exact left _
    · exact fun x hx => left _ x (List.mem_filter.mp hx).1
    · exact left _

theorem waitTimes_apart : ∀ k ∈ faultRegs t n c, k ∉ waitTimes i := by
  intro k hk hw
  obtain ⟨q, hq, rfl⟩ := List.mem_map.mp hw
  have := mem_upto.mp hq
  simp only [faultRegs, List.mem_cons, List.not_mem_nil, or_false, R.qWaitPs, R.threadStatus, R.threadFault, R.segFaultAddr] at hk
  omega

theorem FaultStands.withdrawn (s : State) (i j : Nat) : FaultStands s (s.withdrawn i j) t n c := by
  obtain ⟨left, -⟩ := withdrawn_spec s i j
  have xfers : (s.withdrawn i j).xfers = (s.leaveWait i j).xfers := by
    unfold State.withdrawn State.unreserve
    split
    · rfl
    · rfl
  refine ⟨fun k hk => left.regs k (waitTimes_apart k hk), ?_, ?_, fun x hx => xfers_leaveWait s i j x (xfers ▸ hx)⟩
  · rw [left.thread]
  · rw [left.thread]

/-! ### Threads stopped -/

theorem FaultStands.threadStops (s : State) (i : Nat) : FaultStands s (s.threadStops i) t n c := by
  obtain ⟨marks, -⟩ := s.threadStops_marks i
  exact .of_frame (ks := []) marks.threads (by obtain ⟨r, l, only⟩ := marks.only; rw [only]) (fun k _ => marks.reg k) (by simp)

/-- Another thread's record is written anew. -/
theorem FaultStands.setThread {v : Thread} (apart : k ≠ thrKey t n) (s : State) : FaultStands s (s.setThread k v) t n c := by
  have other : (s.setThread k v).thread (thrKey t n) = s.thread (thrKey t n) := by rw [State.thread_setThread, if_neg apart]
  exact ⟨fun _ _ => rfl, by rw [other], by rw [other], fun _ h => h⟩

theorem FaultStands.setStatus {v : Nat} (hn : n < 16) (hi : i < 256) (hj : j < 16) (apart : ¬ (i = t ∧ j = n)) (s : State) :
    FaultStands s (s.setFld (F.threadStatus.state i j) v) t n c := by
  refine .of_frame (ks := [R.threadStatus i j]) rfl rfl (setReg_only _ _ _).1 fun k hk => ?_
  simp only [faultRegs, List.mem_cons, List.not_mem_nil, or_false, R.threadStatus, R.threadFault, R.segFaultAddr] at hk ⊢
  omega

/-- Stopping the threads leaves one that has faulted alone. -/
theorem FaultStands.stopThread (ht : t < 256) (hn : n < 16) (hi : i < 256) (hj : j < 16) (faulted : s.fld (F.threadStatus.state t n) = 6) :
    FaultStands s (s.stopThread i j) t n c := by
  by_cases still : s.fld (F.threadStatus.state i j) = 0 ∨ s.fld (F.threadStatus.state i j) = 6 ∨ s.fld (F.threadStatus.state i j) = 7
  · rw [State.stopThread, if_pos still]
    exact .refl s t n c
  · have apart : ¬ (i = t ∧ j = n) := by
      rintro ⟨rfl, rfl⟩
      exact still (.inr (.inl faulted))
    have key := thrKey_ne hn hj apart
    have gone : FaultStands s (s.withdrawn i j) t n c := .withdrawn s i j
    rw [State.stopThread, if_neg still]
    dsimp only
    split
    · exact ((gone.trans (.setThread key _)).trans (.setStatus hn hi hj apart _)).trans (.threadStops _ _)
    · exact (gone.trans (.setThread key _)).trans (.setStatus hn hi hj apart _)

theorem FaultStands.stopThreads (ht : t < 256) (hn : n < 16) (faulted : s.fld (F.threadStatus.state t n) = 6) (i : Nat) :
    FaultStands s (s.stopThreads i) t n c := by
  refine forEach_induction (P := fun m => FaultStands s m t n c) (.refl s t n c) fun m hm e he => ?_
  obtain ⟨lt, lt'⟩ := activeThreads_lt (List.mem_filter.mp he).1
  exact hm.trans (.stopThread ht hn lt lt' (hm.state.trans faulted))

/-! ### The context halted -/

theorem FaultStands.setStep (s : State) (i v : Nat) : FaultStands s (s.setStep i v) t n c := by
  unfold State.setStep
  split
  · refine .of_frame (ks := [R.sweepStatus i]) rfl rfl (setReg_only _ _ _).1 fun k hk => ?_
    simp only [faultRegs, List.mem_cons, List.not_mem_nil, or_false, R.threadStatus, R.threadFault, R.segFaultAddr, R.sweepStatus] at hk ⊢
    omega
  · exact .refl s t n c

theorem FaultStands.stageWaited (s : State) (i : Nat) : FaultStands s (s.stageWaited i) t n c := by
  unfold State.stageWaited
  split
  · exact .refl s t n c
  · exact .of_frame (ks := []) rfl rfl (fun _ _ => rfl) (by simp)

theorem FaultStands.setCtx {x : Ctx} (s : State) (i : Nat) : FaultStands s (s.setCtx i x) t n c := .of_frame (ks := []) rfl rfl (fun _ _ => rfl) (by simp)
theorem FaultStands.send (s : State) (o : Out) : FaultStands s (s.send o) t n c := .of_frame (ks := []) rfl rfl (fun _ _ => rfl) (by simp)

theorem FaultStands.arriveAbsent (s : State) (i : Nat) : FaultStands s (s.arriveAbsent i) t n c := by
  unfold State.arriveAbsent
  dsimp only
  split
  · exact .refl s t n c
  split
  · exact .setCtx s i
  split
  · exact (((FaultStands.stageWaited s i).trans (.setCtx _ _)).trans (.setStep _ _ _)).trans (.send _ _)
  · exact (((FaultStands.stageWaited s i).trans (.setCtx _ _)).trans (.setStep _ _ _)).trans (.send _ _)
  · exact (FaultStands.stageWaited s i).trans (.setCtx _ _)

theorem FaultStands.haltCtx (ht : t < 256) (hn : n < 16) (faulted : s.fld (F.threadStatus.state t n) = 6) (i : Nat) :
    FaultStands s (s.haltCtx i) t n c := by
  have halted : FaultStands s (s.modCtx i fun x => { x with running := false, halted := true }) t n c := .setCtx s i
  have stopped := halted.trans (.stopThreads ht hn (halted.state.trans faulted) i)
  unfold State.haltCtx
  dsimp only
  split
  · exact stopped.trans (.arriveAbsent _ _)
  · exact stopped

/-! ### The event -/

theorem Logged.faultStands (ht : t < 256) (hn : n < 16) (h : Logged s u) : FaultStands s u t n c := by
  obtain ⟨⟨r, l, o, x, rfl⟩, regs⟩ := h
  refine .of_frame rfl rfl regs fun k hk => ?_
  simp only [faultRegs, logRegs, List.mem_cons, List.not_mem_nil, or_false, R.threadStatus, R.threadFault, R.segFaultAddr, R.logStatus, R.logDropped,
    R.logNextSeq] at hk ⊢
  omega

theorem interrupt_only (s : State) (b x : Nat) (now : Bool) : ∃ r o v, s.interrupt b x now = { s with regs := r, out := o, vecCount := v } := by
  unfold State.interrupt State.vectorEntry State.fire
  dsimp only
  split
  · exact ⟨_, _, _, rfl⟩
  split
  · exact ⟨_, _, _, rfl⟩
  split
  · split
    · exact ⟨_, _, _, rfl⟩
    · exact ⟨_, _, _, rfl⟩
  · exact ⟨_, _, _, rfl⟩

theorem FaultStands.interrupt (s : State) (b x : Nat) : FaultStands s (s.interrupt b x) t n c := by
  obtain ⟨r, o, v, only⟩ := interrupt_only s b x false
  have notes : Notes s (s.interrupt b x) [R.intCause, R.msixPba] := (Notes.refl s _).interrupt (.head _) (.tail _ (.head _))
  refine .of_frame (by rw [only]) (by rw [only]) notes.regs fun k hk => ?_
  simp only [faultRegs, List.mem_cons, List.not_mem_nil, or_false, R.threadStatus, R.threadFault, R.segFaultAddr, R.intCause, R.msixPba] at hk ⊢
  omega

/-- A context-fatal event stops its context and leaves a thread that has faulted as it is. -/
theorem FaultStands.raiseFatal {code func unit data : Nat} (ht : t < 256) (hn : n < 16) (faulted : s.fld (F.threadStatus.state t n) = 6) (i : Nat) :
    FaultStands s (s.raise code 4 func unit data [i]) t n c := by
  have logged : FaultStands s (s.logPlace code 4 func unit (data % 2 ^ 48) 0) t n c := (Logged.refl s).logPlace.faultStands ht hn
  exact (logged.trans (.haltCtx ht hn (logged.state.trans faulted) i)).trans (.interrupt _ _ _)

end Sys2Proof.Machine
end

section
/-! SUPPORT. Answers at the issuer, and transfers that go unanswered (R78, R282, R283, R296, R297). -/

namespace Sys2Proof.Machine

variable {s m u : State} {t n c j k tid : Nat} {w : Desc} {a : Arrived} {x : Xfer}

/-! ### A synchronous descriptor answered -/

/-- The thread holds no synchronous descriptor any more. -/
def State.unheld (s : State) (t n : Nat) : State := s.modThread (thrKey t n) fun th => { th with syncTid := none, held := none }

theorem plain_unheld (h : s.plain t n w) : (s.unheld t n).plain t n w := by
  have loops : ((s.unheld t n).thread (thrKey t n)).loops = (s.thread (thrKey t n)).loops := by rw [State.unheld, State.thread_modThread_same]
  refine ⟨fun f hf => h.straight f (loops ▸ hf), fun signals => (h.done signals).congr (waits_setThread fun y hy => ⟨y, hy, rfl⟩) rfl fun _ _ => rfl⟩

theorem syncAnswered_eq {finish : State → Iss → State} (hn : n < 16) (held : (s.thread (thrKey t n)).held = some w)
    (runs : s.fld (F.threadStatus.state t n) ≠ 7) :
    s.syncAnswered (thrKey t n) finish = finish (s.unheld t n) ((s.unheld t n).nextIss t n w) := by
  have iss : s.issAt (thrKey t n) = (s.unheld t n).nextIss t n w := by
    simp only [State.issAt, keyTile_thrKey hn, keyThread_thrKey hn, held, Option.getD_some]
    rfl
  rw [State.syncAnswered, iss]
  exact if_neg runs

/-- The completion of a synchronous descriptor leaves its thread's record and the open transfers. -/
theorem syncDone_leaves (ht : t < 256) (hn : n < 16) (hs : m.plain t n w) :
    (m.syncDone (m.nextIss t n w)).thread (thrKey t n) = m.thread (thrKey t n) ∧ (m.syncDone (m.nextIss t n w)).xfers = m.xfers := by
  have went := wentOn_arriveAt (s := m) (m := m) (t := t) (n := n) (ks := []) (pcPlus (m.pcOf t n) 1) (m.thread (thrKey t n)).loops hs.straight
    (fun e he x hx => ⟨e, he, hx⟩) (fun _ => rfl) (RegsBut.refl _ _) (by simp) rfl
  have form := (m.setFld (F.threadStatus.state t n) 1).arriveAt_straight t n (pcPlus (m.pcOf t n) 1) (m.thread (thrKey t n)).loops hs.straight
  have adds := Adds.signalDone (went.doneQuiet ht hn (by simp) hs.done) ht
  obtain ⟨r, l, only⟩ := adds.only
  refine ⟨(adds.thread _).trans ?_, (congrArg State.xfers only).trans ?_⟩
  · rw [form, State.thread_setReg, State.thread_modThread_same]
    rfl
  · rw [form]
    rfl

/-- Going on is seen alike from a state with the same registers and memory. -/
theorem StepsOn.behind {ks : List Nat} (h : StepsOn m u t n w ks) (regs : m.regs = s.regs) (mem : m.mem = s.mem) : StepsOn s u t n w ks := by
  have reg : m.reg = s.reg := by funext k; rw [State.reg, regs, State.reg]
  refine ⟨⟨?_, h.ready⟩, ?_, fun k hk => by rw [h.regs k hk, reg], fun b => (h.mem b).trans (sameBytes_of_mem mem b)⟩
  · rw [h.pc, State.pcOf, reg, State.pcOf]
  · rw [h.flags, State.flags, reg, State.flags]

/-- What the thread and the transfers show once an answered descriptor is over. -/
structure SyncOver (s u : State) (t n : Nat) (w : Desc) (ks : List Nat) : Prop where
  steps : StepsOn s u t n w ks
  sync : (u.thread (thrKey t n)).syncTid = none
  held : (u.thread (thrKey t n)).held = none
  xfers : u.xfers = s.xfers

theorem syncOver_sync (ht : t < 256) (hn : n < 16) (hs : s.plain t n w) :
    SyncOver s ((s.unheld t n).syncDone ((s.unheld t n).nextIss t n w)) t n w [] := by
  have plain := plain_unheld hs
  obtain ⟨thread, xfers⟩ := syncDone_leaves ht hn plain
  refine ⟨(done_syncDone ht hn plain).toStepsOn.behind rfl rfl, ?_, ?_, xfers⟩
  · rw [thread, State.unheld, State.thread_modThread_same]
  · rw [thread, State.unheld, State.thread_modThread_same]

theorem syncOver_syncRead (ht : t < 256) (hn : n < 16) (hj : j < 8) (hs : s.plain t n w) (v : Word) :
    let u := ((s.unheld t n).setIx t n j v).syncDone ((s.unheld t n).nextIss t n w)
    u.ix t n j = v ∧ SyncOver s u t n w [R.ix t n j] := by
  intro u
  have plain := plain_unheld hs
  have none : Effect (s.unheld t n) (s.unheld t n) t n [] := ⟨rfl, fun _ => rfl, RegsBut.refl _ _, by simp, by simp⟩
  have effect := none.setIx (v := v) ht hn hj
  have done := effect.done ht hn plain
  obtain ⟨thread, xfers⟩ := syncDone_leaves ht hn (effect.plain plain)
  rw [← effect.syncDone] at thread xfers
  have steps : StepsOn (s.unheld t n) u t n w [R.ix t n j] := effect.stepsOn (by simpa using threadStatus_ne_ix hj) (fun _ => rfl) done.toStepsOn
  refine ⟨?_, steps.behind rfl rfl, ?_, ?_, xfers⟩
  · rw [State.ix, done.reg (ix_not_threadRegs hj), doneAdd_ix hn hj, add_zero]
    exact State.reg_setReg_same _ _ _
  · rw [thread, effect.thread, State.unheld, State.thread_modThread_same]
  · rw [thread, effect.thread, State.unheld, State.thread_modThread_same]

/-! ### The answer as it arrives -/

/-- The state as an answer is looked at: off the list of arrivals, and its transfer no longer open. -/
def State.answerTaken (s : State) (k tid : Nat) : State := (s.untaken k).dropXfer tid

theorem completion_eq (answers : AnswersXfer s k a x) (inTime : a.kind = 0x0B ∨ (a.kind = 0x02 ∧ s.now ≤ a.deadline)) :
    s.onArrived k [0x02, 0x0B] (fun s a => s.completion a) = (s.answerTaken k x.tid).completed x a := by
  have names : (s.untaken k).answeredBy a = some x := answers.names
  have kind : a.kind ∈ [0x02, 0x0B] := by rcases inTime with h | h <;> simp [h]
  rw [onArrived_eq answers.here answers.turn kind]
  simp only [State.completion, answers.clean, Bool.false_eq_true, if_false, names]
  split
  · next read =>
    have early : (s.untaken k).now ≤ a.deadline := by
      rcases inTime with h | h
      · omega
      · exact h.2
    rw [judgeArrival_inTime early]
    rfl
  · rfl

theorem awaits_answerTaken (h : Awaiting s t n w x) : (s.answerTaken k x.tid).awaits (thrKey t n) x.tid = true := by
  show ((s.thread (thrKey t n)).syncTid == some x.tid) = true
  rw [h.waits]
  exact beq_self_eq_true _

theorem doneQuiet_answerTaken (h : s.doneQuiet t w) : (s.answerTaken k tid).doneQuiet t w := fun e => ⟨(h e).waits, (h e).watches, (h e).slots⟩
theorem plain_answerTaken (h : s.plain t n w) : (s.answerTaken k tid).plain t n w := ⟨h.straight, doneQuiet_answerTaken h.done⟩

theorem SyncOver.taken {ks : List Nat} (h : SyncOver (s.answerTaken k tid) u t n w ks) :
    StepsOn s u t n w ks ∧ (u.thread (thrKey t n)).syncTid = none ∧ (u.thread (thrKey t n)).held = none
      ∧ u.xfers = s.xfers.filter fun y => y.tid != tid := ⟨h.steps.behind rfl rfl, h.sync, h.held, h.xfers⟩

/-- A `WAIT` on another module that is over gives up its transfer and no other. -/
theorem xfers_finishWait_remote {wt : Wait} {tmo : Bool} (ht : t < 256) (hn : n < 16) (hx : (s.thread (thrKey t n)).wait = some wt)
    (watch : wt.watch = .remote tid) (hq : s.doneQuiet t wt.word) : (s.finishWait t n tmo).xfers = s.xfers.filter fun y => y.tid != tid := by
  obtain ⟨un, -⟩ := s.leaveWait_spec t n
  have ended : s.endWait t n tmo = ((s.leaveWait t n).flagTmo t n tmo).setFld (F.threadStatus.state t n) 1 := if_neg (by simp [hx])
  have quiet : (s.endWait t n tmo).doneQuiet t wt.word := fun e => (hq e).fewer (by rw [ended]; exact un.waits) (by rw [ended]; exact un.watches _)
    fun r teller => by
      have status : R.threadStatus t n ≠ r := fun e => threadRegs_not_tellers ht hn (k := r) (by simp [threadRegs, e]) teller
      rw [ended, State.reg_setFld_other _ _ _ _ status]
      exact (State.reg_setBit_other _ _ _ _ status).trans (un.regs r fun timed => waitTimes_not_tellers timed teller)
  obtain ⟨r, l, only⟩ := (Adds.signalDone quiet ht).only
  rw [State.finishWait, signalAll_waitDone ht hn hx quiet, only, ended]
  exact xfers_leaveWait_remote hx watch

/-- A row of several is kept, and the descriptor waits for the others. -/
theorem rowDone_waits {part : Nat} {p : Pend} {l : List Nat} {data : List Byte} (at_ : s.pendOf k tid = some j) (here : (s.thread k).pend[j]? = some p)
    (phase : p.phase = .transfer l) (others : (l.filter fun y => y != tid) ≠ []) (some_ : data ≠ []) : s.rowDone tid k part data =
      s.setPend k j { p with got := Tab.put (fun _ => []) p.got part data, phase := .transfer (l.filter fun y => y != tid) } := by
  simp only [State.rowDone, at_, here, phase, if_neg some_]
  exact if_pos others

/-! ### A thread that faults -/

/-- The thread's record and registers as it faults, before its context is stopped. -/
def State.faulting (s : State) (t n code op pc : Nat) : State :=
  (((s.setReg (R.threadFault t n) (BitVec.ofNat 64 (code + 2 ^ 8 * op + 2 ^ 16 * (pc % 2 ^ 40)))).withdrawn t n).modThread (thrKey t n)
    fun th => { th with ending := .none, syncTid := none, held := none }).setFld (F.threadStatus.state t n) 6

/-- A fault leaves the thread in state 6 with its code recorded; nothing that follows from it changes that or opens a transfer. -/
theorem threadFault_spec (ht : t < 256) (hn : n < 16) (s : State) (code op pc c : Nat) : let u := s.threadFault t n code op pc
    u.fld (F.threadStatus.state t n) = 6 ∧ u.reg (R.threadFault t n) = BitVec.ofNat 64 (code + 2 ^ 8 * op + 2 ^ 16 * (pc % 2 ^ 40))
    ∧ ((u.thread (thrKey t n)).syncTid = none ∧ (u.thread (thrKey t n)).held = none) ∧ u.reg (R.segFaultAddr c) = s.reg (R.segFaultAddr c)
    ∧ ∀ x ∈ u.xfers, x ∈ s.xfers := by
  intro u
  generalize hv : BitVec.ofNat 64 (code + 2 ^ 8 * op + 2 ^ 16 * (pc % 2 ^ 40)) = v
  have faulted : (s.faulting t n code op pc).fld (F.threadStatus.state t n) = 6 := fld_state_setFld _ t n 6 (by decide)
  have stopped : FaultStands (s.faulting t n code op pc) ((s.faulting t n code op pc).threadStops (s.ctxOf t n)) t n c := .threadStops _ _
  have stands : FaultStands (s.faulting t n code op pc) u t n c := stopped.trans (.raiseFatal ht hn (stopped.state.trans faulted) _)
  have withdrawn : FaultStands (s.setReg (R.threadFault t n) v) ((s.setReg (R.threadFault t n) v).withdrawn t n) t n c := .withdrawn _ _ _
  have reg (r : Nat) (hr : r ∈ faultRegs t n c) (other : R.threadStatus t n ≠ r) : u.reg r = (s.setReg (R.threadFault t n) v).reg r := by
    rw [stands.regs r hr, State.faulting, hv, State.reg_setFld_other _ _ _ _ other]
    exact withdrawn.regs r hr
  have thread : (s.faulting t n code op pc).thread (thrKey t n) = { ((s.setReg (R.threadFault t n) v).withdrawn t n).thread (thrKey t n) with
      ending := .none, syncTid := none, held := none } := by
    rw [State.faulting, hv, State.thread_setFld, State.thread_modThread_same]
  refine ⟨stands.state.trans faulted, ?_, ⟨stands.sync.trans ?_, stands.held.trans ?_⟩, ?_, fun x hx => withdrawn.xfers x ?_⟩
  · rw [reg _ (.tail _ (.head _)) (by unfold R.threadStatus R.threadFault; omega), State.reg_setReg_same]
  · rw [thread]
  · rw [thread]
  · rw [reg _ (.tail _ (.tail _ (.head _))) (by unfold R.threadStatus R.segFaultAddr; omega),
      State.reg_setReg_other _ _ (by unfold R.threadFault R.segFaultAddr; omega)]
  · have := stands.xfers x hx
    rw [State.faulting, hv] at this
    exact this

/-! ### The failing transfer -/

/-- The context's first access fault is recorded with its address (R78). -/
theorem recordAccess_spec (s : State) (c addr : Nat) :
    RegsBut s (s.recordAccess c addr) [R.segFaultAddr c, R.segFaultInfo c]
    ∧ ((s.ctx c).accessFault = false → (s.recordAccess c addr).reg (R.segFaultAddr c) = BitVec.ofNat 64 addr)
    ∧ (s.recordAccess c addr).xfers = s.xfers := by
  unfold State.recordAccess State.recordSegFault
  dsimp only
  split
  · next on => exact ⟨.refl _ _, fun off => absurd on (by simp [off]), rfl⟩
  · refine ⟨fun r hr => ?_, fun _ => ?_, rfl⟩
    · simp only [List.mem_cons, List.not_mem_nil, or_false, not_or] at hr
      rw [State.reg_setReg_other _ _ (Ne.symm hr.2), State.reg_setReg_other _ _ (Ne.symm hr.1)]
      rfl
    · rw [State.reg_setReg_other _ _ (by unfold R.segFaultInfo R.segFaultAddr; omega), State.reg_setReg_same]

theorem awayAddr_lt (d o : Nat) : awayAddr d o < 2 ^ 64 := by unfold awayAddr; omega

/-- The opcode a failed synchronisation operation is recorded with. -/
def Xfer.syncOp (x : Xfer) : Nat := if x.aux / 16 % 16 = 2 then 0x22 else 0x20

/-- A thread whose synchronous operation fails faults, its address is recorded, and the transfer is no longer open (R78, R283). -/
theorem failXfer_sync (ht : t < 256) (hn : n < 16) (use : x.use = .sync (thrKey t n)) (waits : Awaiting s t n w x) :
    FaultsAway s (s.failXfer x) t n x.syncOp
    ∧ ((s.ctx (s.ctxOf t n)).accessFault = false → ((s.failXfer x).reg (R.segFaultAddr (s.ctxOf t n))).toNat = awayAddr x.dest x.offset)
    ∧ (s.failXfer x).findXfer x.tid = none := by
  have awaits : (s.dropXfer x.tid).awaits (thrKey t n) x.tid = true := by
    show ((s.thread (thrKey t n)).syncTid == some x.tid) = true
    rw [waits.waits]
    exact beq_self_eq_true _
  generalize hm : (s.dropXfer x.tid).recordAccess (s.ctxOf t n) (awayAddr x.dest x.offset) = m
  have row : s.failXfer x = m.threadFault t n 0x05 x.syncOp (s.pcOf t n) := by
    simp only [State.failXfer, use, awaits, if_true, keyTile_thrKey hn, keyThread_thrKey hn, ← hm]
    simp only [State.issAt, keyTile_thrKey hn, keyThread_thrKey hn]
    rfl
  obtain ⟨-, recorded, xfers⟩ := recordAccess_spec (s.dropXfer x.tid) (s.ctxOf t n) (awayAddr x.dest x.offset)
  rw [hm] at recorded xfers
  obtain ⟨state, code, free, seg, sub⟩ := threadFault_spec ht hn m 0x05 x.syncOp (s.pcOf t n) (s.ctxOf t n)
  rw [← row] at state code free seg sub
  refine ⟨⟨state, code, free⟩, fun first => ?_, List.find?_eq_none.mpr fun y hy => ?_⟩
  · rw [seg, recorded first, BitVec.toNat_ofNat]
    exact Nat.mod_eq_of_lt (awayAddr_lt _ _)
  · have kept := (List.mem_filter.mp (xfers ▸ sub y hy)).2
    simpa using kept

/-! ### A promise that is void -/

theorem promiseVoid_spec {port other stream kind flags late : Nat} (room : LogRoom m 0x2004 2 0x04 port j) :
    VoidedAt m (m.promiseVoid port other stream c kind flags late) j port other
    ∧ RegsBut m (m.promiseVoid port other stream c kind flags late) [R.promiseVoids, R.logNextSeq] := by
  unfold State.promiseVoid
  generalize hd : other % 2 ^ 17 + 2 ^ 17 * (stream % 16) + 2 ^ 21 * (c % 8) + 2 ^ 24 * kind + 2 ^ 26 * (flags % 32)
    + 2 ^ 32 * min (late / 1000000) 65535 = data
  obtain ⟨slot, regs⟩ := raise_low_opens (m := m.bumpReg R.promiseVoids) (data := data) (flags := 0) (by decide : 2 ≤ 3) ⟨room.apart, room.room⟩
  refine ⟨⟨?_, (congrArg BitVec.toNat (regs _ (by decide))).trans (toNat_bumpReg _ _)⟩, (setReg_only m R.promiseVoids _).1.trans regs⟩
  rw [slot]
  refine ⟨rfl, rfl, rfl, ?_⟩
  show data % 2 ^ 48 % 2 ^ 17 = _
  omega

/-- Settles O14: an answer by what its transfer was for, and an unanswered transfer by the time that has passed. -/
theorem answersComplete : Obligations.AnswersComplete := by
  refine ⟨fun s k a x t n answers => ⟨fun inTime => ⟨fun w use waits => ?sync, fun w j hj use waits => ?read,
    fun part j p l use at_ here phase others data => ?row⟩,
    fun wt kind use hx watch quiet => ?watch, fun w kind plain use waits => ?error⟩,
    fun s x found placed => ⟨fun j fresh kind late room => ?void, fun t n w late use waits => ?grace⟩⟩
  case sync =>
    have held : ((s.answerTaken k x.tid).thread (thrKey t n)).held = some w := waits.holds
    refine ⟨_, congrArg Host.Outcome.next (completion_eq answers inTime), ?_⟩
    simp only [State.completed, use, awaits_answerTaken waits, if_true]
    rw [syncAnswered_eq n.isLt held waits.runs]
    exact (syncOver_sync t.isLt n.isLt (plain_answerTaken waits.plain)).taken
  case read =>
    have held : ((s.answerTaken k x.tid).thread (thrKey t n)).held = some w := waits.holds
    refine ⟨_, congrArg Host.Outcome.next (completion_eq answers inTime), ?_⟩
    simp only [State.completed, use, awaits_answerTaken waits, if_true]
    rw [syncAnswered_eq n.isLt held waits.runs]
    obtain ⟨value, over_⟩ := syncOver_syncRead t.isLt n.isLt hj (plain_answerTaken (k := k) (tid := x.tid) waits.plain) (BitVec.ofNat 64 (natAt a.data 0 8))
    exact ⟨value, over_.taken⟩
  case row =>
    refine ⟨_, congrArg Host.Outcome.next (completion_eq answers inTime), ?_⟩
    simp only [State.completed, use]
    rw [rowDone_waits (s := s.answerTaken k x.tid) at_ here phase others data]
    refine ⟨?_, rfl, fun _ _ => rfl, fun _ => rfl⟩
    rw [State.setPend, State.thread_modThread_same]
    rfl
  case watch =>
    have hx' : ((s.answerTaken k x.tid).thread (thrKey t n)).wait = some wt := hx
    have quiet' : (s.answerTaken k x.tid).doneQuiet t wt.word := doneQuiet_answerTaken quiet
    refine ⟨_, congrArg Host.Outcome.next (completion_eq answers (.inl kind)), ?_⟩
    simp only [State.completed, use, hx', watch, ne_eq, not_true, if_false]
    cases placed : a.aux.testBit 30 with
    | true => exact ⟨fun _ => ⟨rfl, rfl, fun _ _ => rfl⟩, nofun, nofun, nofun, fun _ => rfl⟩
    | false =>
      cases retry : a.aux.testBit 31 with
      | true =>
        refine ⟨nofun, fun _ => rfl, fun _ _ => ⟨?_, fun _ _ => rfl⟩, fun _ => nofun, fun _ => rfl⟩
        simp only [Bool.false_eq_true, if_false, if_true, State.thread_modThread_same]
      | false =>
        obtain ⟨flag, state, none, regs, mem⟩ := finishWait_spec (tmo := false) t.isLt n.isLt hx' quiet' rfl
        have xfers := xfers_finishWait_remote (tmo := false) t.isLt n.isLt hx' watch quiet'
        simp only [Bool.false_eq_true, if_false, keyTile_thrKey n.isLt, keyThread_thrKey n.isLt]
        refine ⟨nofun, fun _ => xfers.trans ?_, fun _ => nofun, fun _ _ => ⟨none, state, flag, regs⟩, mem⟩
        exact List.filter_filter.trans (by simp only [Bool.and_self]; rfl)
  case error =>
    have names : (s.untaken k).answeredBy a = some x := answers.names
    have row : s.onArrived k [0x0C] (fun s a => s.errorResponse a) = (s.untaken k).failXfer x := by
      rw [onArrived_eq answers.here answers.turn (by simp [kind])]
      simp only [State.errorResponse, names, if_neg plain]
    obtain ⟨faults, recorded, gone⟩ := failXfer_sync (s := s.untaken k) t.isLt n.isLt use
      ⟨waits.waits, waits.holds, waits.runs, waits.plain.straight, fun e => (waits.plain.done e).untaken⟩
    exact ⟨_, congrArg Host.Outcome.next row, ⟨faults.state, faults.code, faults.free⟩, recorded, gone⟩
  case void =>
    have row : s.checkExpired x.tid =
        (s.setXfer { x with voided := true }).promiseVoid (s.firstPort x) x.dest x.stream x.ctx 1 (s.condFlags x.seen) (s.now - x.deadline) := by
      have go : ¬ (x.voided = true ∨ x.placed = true ∨ x.kind = 9 ∨ s.now ≤ x.check) := by simp [fresh, placed, kind, late]
      simp only [State.checkExpired, found, if_neg go]
    obtain ⟨voided, regs⟩ := promiseVoid_spec (m := s.setXfer { x with voided := true }) (other := x.dest) (stream := x.stream) (c := x.ctx) (kind := 1)
      (flags := s.condFlags x.seen) (late := s.now - x.deadline) ⟨room.apart, room.room⟩
    have logged := promiseVoid_logged (s.setXfer { x with voided := true }) (s.firstPort x) x.dest x.stream x.ctx 1 (s.condFlags x.seen) (s.now - x.deadline)
    rw [← row] at voided regs logged
    refine ⟨_, rfl, ?_, ⟨voided.slot, voided.count⟩, regs, fun b => (logged.same b).trans rfl⟩
    rw [findXfer_congr logged.xfers]
    exact findXfer_setXfer (y := { x with voided := true }) found
  case grace =>
    have row : s.graceExpired x.tid = s.failXfer x := by
      have go : ¬ (x.placed = true ∨ s.now < x.check + 1000000 * s.fld F.voidGrace.val) := by simp [placed, late]
      simp only [State.graceExpired, found, if_neg go]
    obtain ⟨faults, -, gone⟩ := failXfer_sync t.isLt n.isLt use waits
    exact ⟨_, congrArg Host.Outcome.next row, faults, gone⟩

end Sys2Proof.Machine
end
